-- ==== Sys2Proof/Word.lean ====
section
/-! DEFINITION. The plainest types of the RKZ-8416 model: bytes, sectors, the index types of the units the spec counts, and the named sets of Tables 0.2, 0.3, 0.8, 1.3, 8.1 and 9.1. -/

namespace Sys2Proof

/-- One byte. -/
abbrev Byte := BitVec 8

/-- The 4 KiB of one sector (00_scope.md, Units), byte 0 in bits [7:0] (R7). -/
abbrev SectorData := BitVec 32768

/-- A host port: 0 is port A, 1 is port B (R274). -/
abbrev Port := Fin 2

/-- A bay number, 0 to 7 (R17). -/
abbrev BayNo := Fin 8

/-- A beam and its lane, B0 to B3 (R66, R88). -/
abbrev Beam := Fin 4

/-- A receiver of a bay: 0 to 3 for the beams, 4 for the Relief line (R66). -/
abbrev RecvNo := Fin 5

/-- A queue pair of a port (R279). -/
abbrev QueueNo := Fin 64

/-- A decoder of the pool (R120). -/
abbrev DecNo := Fin 16

/-- A NAND channel (R322). -/
abbrev ChanNo := Fin 16

/-- A handler axis by its code: 0 X, 1 Z, 2 θ, 3 G (Table 10.1). -/
abbrev AxisNo := Fin 4

/-- A discrete input IN0 to IN11 (R266). -/
abbrev InputNo := Fin 12

/-- A control core C0 to C3 (Table 1.3). -/
abbrev CoreNo := Fin 4

/-- A recording layer, 0 to 15 (R37). -/
abbrev LayerNo := Fin 16

/-- A rate zone, 0 to 9 (Table 2.3). -/
abbrev ZoneNo := Fin 10

/-- A physical cluster address: layer [25:22], turn [21:4], slot [3:0] (R64). -/
abbrev ClusterAddr := BitVec 26

/-- A volume ID (R289). -/
abbrev VolId := BitVec 16

/-- The device modes of Table 0.3, in the order of their codes. -/
inductive Mode where
  | off | fill | boot | standalone | paired | takeover | pairedDegraded
  | calibrate | quiesce | vent | sanitize | activate | diagnostic | ripcord
  deriving DecidableEq, Repr

/-- The mode code of Table 0.3. -/
def Mode.code : Mode → Nat
  | .off => 0x0 | .fill => 0x1 | .boot => 0x2 | .standalone => 0x3
  | .paired => 0x4 | .takeover => 0x5 | .pairedDegraded => 0x6 | .calibrate => 0x7
  | .quiesce => 0x8 | .vent => 0x9 | .sanitize => 0xA | .activate => 0xB
  | .diagnostic => 0xC | .ripcord => 0xD

/-- Event severities (Table 0.8). -/
inductive Severity where
  | info | notice | warning | error | critical
  deriving DecidableEq, Repr

/-- The severity code of Table 15.2. -/
def Severity.code : Severity → Nat
  | .info => 0 | .notice => 1 | .warning => 2 | .error => 3 | .critical => 4

/-- The states of a bay (Table 9.1), in the order of their codes. -/
inductive BaySt where
  | empty | loading | clamped | spinup | focusAcq | trackAcq | ready | reading | writing
  | seeking | layerJump | spindown | unloading | parked | faulted
  deriving DecidableEq, Repr

/-- The state code of Table 9.1. -/
def BaySt.code : BaySt → Nat
  | .empty => 0x0 | .loading => 0x1 | .clamped => 0x2 | .spinup => 0x3
  | .focusAcq => 0x4 | .trackAcq => 0x5 | .ready => 0x6 | .reading => 0x7
  | .writing => 0x8 | .seeking => 0x9 | .layerJump => 0xA | .spindown => 0xB
  | .unloading => 0xC | .parked => 0xD | .faulted => 0xE

/-- The spindle commutation levels (Table 8.1), in the order of their codes. -/
inductive SpinLevel where
  | off | measure | sixStep | sinEncoder | sinObserver | drogue | coast
  deriving DecidableEq, Repr

/-- The level code of Table 8.1. -/
def SpinLevel.code : SpinLevel → Nat
  | .off => 0 | .measure => 1 | .sixStep => 2 | .sinEncoder => 3
  | .sinObserver => 4 | .drogue => 5 | .coast => 6

/-- The loops of a bay (Table 7.1). -/
inductive LoopId where
  | focus | tracking | tilt | sled
  deriving DecidableEq, Repr

/-- The causes of a Lull, in the order of the row of EV_LULL_ENTER in Table 7.11. -/
inductive LullCause where
  | frozen | dead | defectTooLong | overrun | coupled
  deriving DecidableEq, Repr

/-- Programmable engines that a service word guards (Table 1.3, R437). -/
inductive EngineId where
  | q (n : BayNo) | s (n : BayNo) | f (n : Fin 4) | m (n : Fin 2)
  deriving DecidableEq, Repr

/-- The write-gate cut causes of Table 6.5. -/
inductive CutCause where
  | loopLoss | defect | shock | frameSync | pwrfail | keel | bayFault
  deriving DecidableEq, Repr

/-- The bit of a cause in the cause mask of EV_WRITE_GATE_CUT (Table 6.5). -/
def CutCause.bit : CutCause → Nat
  | .loopLoss => 0 | .defect => 1 | .shock => 2 | .frameSync => 3
  | .pwrfail => 4 | .keel => 5 | .bayFault => 6

/-- Causes by which a bay enters FAULTED (Table 9.5, R240). The position of a cause is its code in
the payload of EV_BAY_FAULTED. -/
inductive FaultCause where
  | lull | retract | coast | sled | laser | position | sequencer | noLane | mount
  deriving DecidableEq, Repr

/-- The code of a fault cause in an event payload (R415: its position in its list). -/
def FaultCause.code : FaultCause → Nat
  | .lull => 0 | .retract => 1 | .coast => 2 | .sled => 3 | .laser => 4
  | .position => 5 | .sequencer => 6 | .noLane => 7 | .mount => 8

/-- The classes of codewords (R125), in priority order. -/
inductive CwClass where
  | demand | retry | updraft
  deriving DecidableEq, Repr

/-- How a host memory read can fail (R278). -/
inductive DmaErr where
  | ur | ca | timeout | poisoned
  deriving DecidableEq, Repr

end Sys2Proof
end

