-- ==== Sys2Proof/Syntax.lean ====
section
/-! DEFINITION. The commands of the block: one constructor of Instr per row of spec/opcode_table.json, and the operand types, each naming what the host, the board, the disc, the peer or an unspecified law delivers to that step. -/

namespace Sys2Proof

/-- An outstanding I/O command: its port, submission queue and command ID (R285), and whether the peer fetched it and
forwarded it here (R399). -/
structure CmdId where
  peer : Bool
  port : Port
  queue : QueueNo
  cid : BitVec 16
  deriving DecidableEq, Repr

/-- What a host memory read of one 64-byte command record returns (R278, Table 11.3). -/
inductive HostRecord where
  | ok (record : BitVec 512)
  | err (e : DmaErr)
  deriving DecidableEq, Repr

/-- What a host memory read of a mailbox buffer or data buffer returns (R278). -/
inductive BufRead where
  | ok (bytes : List Byte)
  | err (e : DmaErr)
  deriving DecidableEq, Repr

/-- One extent of R286: host address, length in bytes, reserved word. -/
structure Extent where
  addr : BitVec 64
  len : BitVec 32
  reserved : BitVec 32
  deriving DecidableEq, Repr

/-- The extents of a Read or Write: the inline one of the record, a list read from host memory, or a
failed read of the list (R278, R286). -/
inductive ExtentRead where
  | inline
  | list (es : List Extent)
  | err (e : DmaErr)
  deriving DecidableEq, Repr

/-- The Write data that host memory returns (R278). -/
inductive WriteData where
  | ok (sectors : List SectorData)
  | err (e : DmaErr)
  deriving DecidableEq, Repr

/-- What the failing host memory read of HOST_READ_ERROR was reading (R278). -/
inductive DmaTarget where
  | record (q : QueueNo)
  | data (q : QueueNo) (cid : BitVec 16)
  | mailbox
  deriving DecidableEq, Repr

/-- The configuration-space bits that other rules consult: Enable Relaxed Ordering (R276), MSI-X Enable and Function
Mask (R463). Bit 0 of the value written is the bit's new value. -/
inductive ConfigBit where
  | relaxedOrdering | msixEnable | msixFunctionMask
  deriving DecidableEq, Repr

/-- The address space of REGISTER_WRITE: BAR0 of a port (R450), the memory control block (R386), or a bit of a port's
configuration space (R276, R463; the offset is not used). -/
inductive RegSpace where
  | bar0 (p : Port)
  | memctl
  | config (p : Port) (bit : ConfigBit)
  deriving DecidableEq, Repr

/-- The width of a register access: all 8 bytes, or the 4-byte half named (R451). The register is named by its 8-byte aligned
offset, and a 4-byte access carries its half in place, in the bits the half has in the register. -/
inductive AccWidth where
  | full | low | high
  deriving DecidableEq, Repr

/-- What the peer reports when asked to join (R405). -/
structure JoinPeer where
  identity : BitVec 32
  standalone : Bool
  acceptJoin : Bool
  releaseMajor : BitVec 8
  releaseMinor : BitVec 8
  volumes : List VolId
  sequence : BitVec 24
  deriving DecidableEq, Repr

/-- What the peer of a returning device reports (R407, R408). -/
structure RejoinPeer where
  mode : Mode
  sequence : BitVec 24
  hasRecord : Bool
  volumes : List VolId
  deriving DecidableEq, Repr

/-- What one chip enable answers at discovery (R319, Table 12.2): whether it returns the ONFI signature, whether a copy of its
parameter page holds its CRC, and what that page reports. -/
structure NandPart where
  signature : Bool
  goodPage : Bool
  luns : Nat
  planes : Nat
  pageBytes : Nat
  spareBytes : Nat
  pagesPerBlock : Nat
  blocksPerPlane : Nat
  bitsPerCell : Nat
  tR : Nat
  tProg : Nat
  tBers : Nat
  /-- the transfer rates of its NV-DDR3 timing modes, MT/s. -/
  rates : List Nat
  /-- it reports support for ZQ Calibration Long. -/
  zq : Bool
  deriving DecidableEq, Repr

/-- The NAND found at boot (R319 to R322): the chip enables of each channel in order, and whether the parts are blank (R351). -/
structure NandFound where
  chips : Vector (List NandPart) 16
  blank : Bool
  deriving DecidableEq, Repr

/-- What the Keel and firmware meet in BOOT: the image check of each slot (R440), the NAND, and the tray and
gripper sensors (R260). -/
structure BootObs where
  imageOk : Vector Bool 2
  nand : NandFound
  trays : BitVec 8
  gripperDisc : Bool
  deriving DecidableEq, Repr

/-- What DRAM training finds in FILL (R360, Table 13.1). -/
structure DramFound where
  /-- both channels are populated alike. -/
  alike : Bool
  /-- DDR5 SDRAM at 4,800 MT/s or slower, on an RDIMM or memory-down as the board table describes. -/
  standard : Bool
  /-- the chips are x8, else x4. -/
  x8 : Bool
  /-- chip density in Gbit. -/
  density : Nat
  /-- ranks of a channel. -/
  ranks : Nat
  /-- chips of a rank and channel. -/
  chips : Nat
  deriving DecidableEq, Repr

/-- The data and metadata bytes of a NAND codeword, byte 0 lowest (R323, Table 12.3). -/
abbrev NandWord := BitVec 33024

/-- A member of an open superblock as NAND recovery reads it (R343): its location, and its codewords, none for one that the LDPC unit
does not decode. -/
structure RecoveredCluster where
  loc : BitVec 34
  words : List (Option NandWord)
  deriving DecidableEq, Repr

/-- The reset that POWER_ON_RESET reports (R434). -/
inductive PorCause where
  | porstLow | railMonitor | powerLoss
  deriving DecidableEq, Repr

/-- The criterion of R75 that fired. -/
inductive RecvFault where
  | clip (samples : List (BitVec 8))
  | stuck (samples : List (BitVec 8))
  | bias
  deriving DecidableEq, Repr

/-- One part of a measurement window (Table 3.4), the settling part first: the sum of the values measured in it, in 1/256 LSB or 1/256 ps,
and their number. -/
structure CalPart where
  sum : Int
  count : Nat
  deriving DecidableEq, Repr

/-- A start table entry (Table 4.4), or a lane's running values of the same fields. -/
structure StartEntry where
  freq : Int
  gain : Nat
  offset : Int
  asym : Int
  eq : Vector Int 15
  outer : Vector Int 7
  inner : Vector Int 7
  beamOffset : Nat
  deriving DecidableEq, Repr

/-- The metadata of a codeword 0 to 31 (Table 2.8). -/
structure Metadata where
  index : BitVec 6
  home : ClusterAddr
  vid : VolId
  lba : BitVec 32
  management : Bool
  replacement : Bool
  unwritten : Bool
  remap : Byte
  deriving DecidableEq, Repr

/-- The 2,064 information bytes of a codeword, byte 0 in bits [7:0] (Table 2.7): for codewords 0 to 31 half a sector and its
metadata, for codewords 32 to 35 outer-code parity. -/
structure CwData where
  bytes : BitVec 16512
  deriving DecidableEq, Repr

/-- What a lane's read of a whole cluster delivered (R49, R112, R116): frame lock held through frame 383, the inserted syncs, the 34
bytes of the cluster address field with those that have a flagged channel bit, the 668,736 soft data bits in recording order,
each with whether it is flagged erased, the longest span of erased channel bits, and whether some channel bit was flagged
under R76 or R77. -/
structure ClusterRead where
  locked : Bool
  inserted : Nat
  field : List Byte
  fieldErased : List Nat
  soft : List (Int × Bool)
  erasedRun : Nat
  receiver : Bool
  deriving DecidableEq, Repr

/-- One write of a cluster at a position: what a read before the first write finds there, none where no preamble is detected (R61),
and B1's read of what was written, none where it could not be made (R166). -/
structure WriteTry where
  before : Option ClusterRead
  after : Option ClusterRead
  deriving DecidableEq, Repr

/-- A laser driver frame to send: write or read, register, data (R149). -/
structure LdlReq where
  write : Bool
  reg : BitVec 7
  data : BitVec 16
  deriving DecidableEq, Repr

/-- What a lane read of a turn of a geometry write (R103): the count at which its detected preamble began, and its hard decisions
from there on. -/
structure LaneRead where
  start : Nat
  bits : List Bool
  deriving DecidableEq, Repr

/-- One 400 kHz period as it reaches S-n (R70, R71): the four 12-bit conversions of QA to QD, SE, SF, TA, TB; the inputs whose
conversions all completed; the wobble cycle of its turn that B0 has reached (R39); the phase errors of the write clock in
channel bits at the wobble cycles since the last period (R162); and whether the focus and tracking computations meet their
deadlines (R175). -/
structure ServoObs where
  samples : Vector (Vector (BitVec 12) 4) 8
  complete : BitVec 8
  cycle : Fin 32256
  clock : List Rat
  focusOnTime : Bool
  trackOnTime : Bool
  deriving DecidableEq, Repr

/-- Feed-forward tables (Table 7.2). -/
structure FfTables where
  focusFriction : Vector Int 2
  trackFriction : Vector Int 2
  lensCogging : Vector Int 64
  sledCogging : Vector Int 64
  deriving DecidableEq, Repr

/-- What a characterisation run measures (R180): of each tracking period of its sled moves, the bin of O, whether O rises, the bin
of the sled's electrical angle and the tracking integrator; and of each focus period of its focus sweep, whether the
reference rises and the focus integrator. -/
structure CharRun where
  track : List (Fin 64 × Bool × Fin 64 × Int)
  focus : List (Bool × Int)
  deriving DecidableEq, Repr

/-- Causes of EV_TRACK_ACQ_FAIL (Table 7.5). -/
inductive TrackFail where
  | runout | noClose | address
  deriving DecidableEq, Repr

/-- One spindle PWM period as the drive samples it (R212, R218): the two shunt codes, and Drogue's. -/
structure PwmObs where
  shunt1 : BitVec 12
  shunt2 : BitVec 12
  drogueShunt : BitVec 12
  deriving DecidableEq, Repr

/-- The encoder losses of R221, in its order. -/
inductive EncLoss where
  | illegal | countMismatch | noIndexCounts | noEdge | hallsWithoutEdge | overspeed | noIndex
  deriving DecidableEq, Repr

/-- An encoder of R207: of a spindle, a sled or a handler axis. -/
inductive EncId where
  | spindle (b : BayNo)
  | sled (b : BayNo)
  | axis (a : AxisNo)
  deriving DecidableEq, Repr

/-- An accepted edge (R207): a quadrature count up or down, or a new commutation state U V W. -/
inductive EdgeKind where
  | up | down
  | halls (uvw : BitVec 3)
  deriving DecidableEq, Repr

/-- A defect list entry (Table 2.10). -/
structure DefectEntry where
  cause : BitVec 6
  home : ClusterAddr
  repl : ClusterAddr
  deriving DecidableEq, Repr

/-- A management set (Tables 2.10 and 2.11). -/
structure MgmtSet where
  seq : BitVec 32
  vid : VolId
  remap : Bool
  clean : Bool
  closed : Bool
  preRead : Bool
  discId : BitVec 64
  defects : List DefectEntry
  ranges : List (Nat × Nat)
  nextOrdinal : Nat
  deriving DecidableEq, Repr

/-- The steps of Table 9.3 at which a mount can fail; the position of each is its code. -/
inductive MountStage where
  | clamp | spinup | focus | track | identify | management
  deriving DecidableEq, Repr

/-- The operations of a NAND LUN (Table 12.8). -/
inductive NandOp where
  | read | program | erase
  deriving DecidableEq, Repr

/-- What the reads of a NAND codeword give (R334), each the decoded codeword or none: the first read, its identical repeat, the reads
at the other classes in the order tried, and the same codeword of the other members of its stripe. -/
structure NandReadObs where
  first : Option NandWord
  again : Option NandWord
  classes : List (Option NandWord)
  stripe : List (Option NandWord)
  deriving DecidableEq, Repr

/-- What the reads of a DRAM block find (R361, R364): the rank that holds it, the erroneous symbols of the 80 with their errors as
the block is first read, and as the second or repeated read finds them. -/
structure DramObs where
  rank : Bool
  first : List (Fin 80 × BitVec 16)
  again : List (Fin 80 × BitVec 16)
  deriving DecidableEq, Repr

/-- The requesters of Table 13.2. -/
inductive Requester where
  | core (c : CoreNo)
  | engine (e : EngineId)
  | hostPort (c : CmdId)
  | collector (b : BayNo) (entry : Fin 128) (cw : Nat)
  | flash (vid : VolId) (ucl : Nat) (sector : Fin 16)
  | tether (c : CmdId)
  | cacheFill (c : CoreNo)
  deriving DecidableEq, Repr

/-- The triplicated sets of Table 13.3. -/
inductive TripleSet where
  | servoLimits | mapRoot | ventDesc | pairRole | progress
  deriving DecidableEq, Repr

/-- A write of a triplicated word, or the opening of a set (R368). -/
inductive TripleOp where
  | word (w : Fin 31) (v : BitVec 64)
  | openSet (s : TripleSet)
  deriving DecidableEq, Repr

/-- A core access to the cached space (R378): a load, or a store of 8 bytes. -/
inductive CoreAccess where
  | load
  | store (v : BitVec 64)
  deriving DecidableEq, Repr

/-- The payload of a heartbeat flit (R395). -/
structure Heartbeat where
  identity : BitVec 32
  mode : Mode
  sequence : BitVec 24
  peerOk : Bool
  peerOkIn : Bool
  degraded : Bool
  count : BitVec 32
  deriving DecidableEq, Repr

/-- The states of a location (R260). -/
inductive LocState where
  | occupied | empty | unknown
  deriving DecidableEq, Repr

/-- One change carried by a volume state message (Table 14.4): a volume's table entry and ranges, or the state of a
location or of a bay of the sender. -/
inductive VolStateMsg where
  | volume (vid : VolId) (slot : Nat) (durability : Byte) (remap readOnly formatted : Bool) (ranges : List (Nat × Nat))
  | location (code : BitVec 16) (st : LocState)
  | bay (n : BayNo) (st : BaySt)
  deriving DecidableEq, Repr

/-- A command forwarded over the Tether (R399): its opcode, volume, range, flags, and the data of a Write. -/
structure ForwardCmd where
  id : CmdId
  opcode : Byte
  flags : Byte
  vid : VolId
  lba : Nat
  count : Nat
  data : List SectorData
  deriving DecidableEq, Repr

/-- The JTAG instructions of R482, with the cells captured or driven. -/
inductive JtagOp where
  | bypass (bit : Bool)
  | idcode
  | samplePreload (captured : List Bool) (shiftIn : List Bool)
  | extest
  deriving DecidableEq, Repr

/-- The commands of the block, one constructor per row of spec/opcode_table.json, in the table's order. -/
inductive Instr where
  | commandFetch (p : Port) (recs : List HostRecord)
  | commandEligible (c : CmdId)
  | read (c : CmdId) (ext : ExtentRead)
  | write (c : CmdId) (ext : ExtentRead) (data : WriteData)
  | flush (c : CmdId)
  | verify (c : CmdId)
  | cancel (c : CmdId)
  | prefetch (c : CmdId)
  | destage (c : CmdId)
  | mount (c : CmdId)
  | unmount (c : CmdId)
  | locate (c : CmdId)
  | mountWaitExpiry (c : CmdId)
  | spaceWaitExpiry (c : CmdId)
  | aggregationTimer (p : Port) (q : QueueNo)
  | hostReadError (p : Port) (what : DmaTarget) (e : DmaErr)
  | d3hotEntry (p : Port)
  | d0Return (p : Port)
  | portLinkUp (p : Port) (gen : Fin 5) (width : Fin 5)
  | portLinkDown (p : Port)
  | hotReset (p : Port)
  | flr (p : Port)
  | fundamentalReset (p : Port)
  | perstRelease (p : Port)
  | identify (p : Port)
  | getParameter (p : Port)
  | setParameter (p : Port) (buf : BufRead)
  | getLog (p : Port)
  | policySet (p : Port)
  | createVolume (p : Port)
  | modifyDurability (p : Port)
  | deleteVolume (p : Port)
  | format (p : Port) (recorded : Bool)
  | sanitize (p : Port)
  | sanitizeStepDone
  | firmwareDownload (p : Port) (buf : BufRead)
  | firmwareCommit (p : Port)
  | commitAndActivate (p : Port)
  | activateSlot (p : Port) (imageOk : Bool)
  | pairJoin (p : Port) (peer : JoinPeer)
  | pairLeave (p : Port)
  | pairLeaveSelf (p : Port) (peerVolumes : List VolId)
  | pairLeaveForced (p : Port)
  | moveDisc (p : Port)
  | reelFreeze (p : Port)
  | reelThaw (p : Port)
  | reelReadBlocks (p : Port)
  | readDropCounters (p : Port)
  | readClearDropCounters (p : Port)
  | tailArm (p : Port)
  | tailRead (p : Port)
  | heldRequestResume (p : Port)
  | modeReqCalibrate (p : Port)
  | modeReqQuiesce (p : Port)
  | modeReqDiagnostic (p : Port)
  | modeReqServe (p : Port)
  | calibrationComplete
  | calReq (p : Port)
  | opcReq (p : Port)
  | bayReturn (p : Port)
  | hndReturn (p : Port)
  | inClear (p : Port)
  | stateClear (p : Port)
  | diagLaneLoopback (p : Port)
  | diagDecoders (p : Port)
  | diagDram (p : Port)
  | diagNand (p : Port)
  | diagTetherNear (p : Port)
  | diagTetherFar (p : Port)
  | diagTestEnd (failures : BitVec 16) (firstFail : Byte) (corrected : BitVec 32)
  | queueReset (p : Port) (mask : BitVec 64)
  | deviceReset (p : Port) (key : Byte)
  | sqTailWrite (p : Port) (q : QueueNo) (v : BitVec 12)
  | cqHeadWrite (p : Port) (q : QueueNo) (v : BitVec 12)
  | queueEnable (p : Port) (q : QueueNo) (qcfg : BitVec 64)
  | eventRingEnable (p : Port) (cfg : BitVec 64)
  | eventRingDisable (p : Port)
  | eventRingHeadWrite (p : Port) (v : BitVec 12)
  | bridleRead (p : Port) (cell : Fin 64) (width : AccWidth) (tie : Bool)
  | bridleWrite (p : Port) (cell : Fin 64) (width : AccWidth) (v : BitVec 64)
  | alarmClear (p : Port) (word : Fin 18) (v : BitVec 64)
  | reelFreezeBit (p : Port)
  | reelThawBit (p : Port)
  | reelWindowAdvance (p : Port)
  | bar0BadAccess (p : Port) (isRead : Bool) (offset : BitVec 16) (size : Nat)
  | registerWrite (sp : RegSpace) (offset : BitVec 16) (width : AccWidth) (v : BitVec 64)
  | cacheInvalidateLine
  | cacheCleanLine
  | cacheCleanInvalidateLine
  | cacheInvalidateAll
  | cacheCleanAll
  | cacheCleanInvalidateAll
  | cacheEnable
  | cacheDisable
  | scrubRestart
  | derrPop
  | cacheErrorsRead
  | derrLostRead
  | powerOnReset (cause : PorCause)
  | fillDone (dram : DramFound)
  | bootDone (o : BootObs)
  | warmFlush
  | stagingRecovery (found : List RecoveredCluster)
  | pwrfailAssert
  | ventDone
  | ventResume
  | refclkLoss
  | rootPllLoss
  | ddrPllLoss
  | nandPllLoss
  | pciePllLoss
  | tetherPllLoss
  | watchdogService (c : CoreNo)
  | keelWatchdogExpiry
  | lockstepMismatch
  | ripcordParkEnd
  | ripcordHoldExpiry
  | engineStall (e : EngineId)
  | engineRestart (e : EngineId)
  | activationResume
  | activationTimeout
  | holdupSample (code : BitVec 10)
  | junctionSample (t : Int)
  | eventQueueEntry
  | eventRingCopy (p : Port)
  | receiverFault (b : BayNo) (r : RecvNo) (cause : RecvFault)
  | reliefSubstitution (b : BayNo)
  | receiverRetryRun (b : BayNo) (clear : Bool) (windows : List (List CalPart))
  | headTempSample (b : BayNo) (code : BitVec 12)
  | calSlotOpen (b : BayNo)
  | reliefSettled (b : BayNo)
  | laneSelectSwitch (b : BayNo) (l : Beam)
  | calMeasurement (b : BayNo) (window : List CalPart)
  | clusterAcquisition (b : BayNo) (l : Beam) (home read : ClusterAddr) (cls : CwClass) (first : Bool) (cycle : Rat)
      (samples : List (BitVec 8))
  | preambleDetect (b : BayNo) (l : Beam) (samples : List (BitVec 8))
  | frameSyncSearch (b : BayNo) (l : Beam) (samples : List (BitVec 8))
  | timingRange (b : BayNo) (l : Beam) (samples : List (BitVec 8))
  | frameRecordRelease (b : BayNo) (l : Beam) (samples : List (BitVec 8))
  | clusterEnd (b : BayNo) (l : Beam) (samples : List (BitVec 8))
  | defectDropout (b : BayNo) (l : Beam) (samples : List (BitVec 8))
  | sumDefectLong (b : BayNo)
  | decoderDispatch (d : DecNo)
  | decodeComplete (d : DecNo) (flips : List (Fin 18576))
  | collectorAccept
  | outerCodeRun (b : BayNo) (entry : Fin 128)
  | deliveryDeadline (b : BayNo) (entry : Fin 128)
  | ladderStep (b : BayNo) (entry : Fin 128)
  | updraftStart (b : BayNo)
  | writeRunStart (b : BayNo) (prior : List (ClusterAddr × Option ClusterRead))
  | ldlFrame (b : BayNo) (req : LdlReq) (answer again : BitVec 32)
  | ldlStatusPoll (b : BayNo) (status : BitVec 16)
  | verifyCluster (b : BayNo)
  | finalVerifyEnd (b : BayNo)
  | replacementPass (b : BayNo) (copies : List (ClusterAddr × ClusterRead)) (tries : List WriteTry)
  | powerCalibration (b : BayNo) (layer : LayerNo) (outer : Bool) (probes : List Bool × List Bool) (tries again : List WriteTry)
  | geometryWrite (b : BayNo) (layer : LayerNo) (probes : List Bool × List Bool) (recorded : List ClusterAddr)
      (first second : Vector (Option LaneRead) 4)
  | managementSetWrite (b : BayNo) (tries1 tries2 : List WriteTry)
  | wobbleIndexLoss (b : BayNo) (found : Option Int)
  | unverifiedVerifyPass (b : BayNo) (reads : List (Option ClusterRead))
  | wobbleAddressWord (b : BayNo) (units : Vector (BitVec 16) 64)
  | servoPeriod (b : BayNo) (o : ServoObs)
  | tiltPeriod (b : BayNo) (onTime : Bool)
  | sledLoopPeriod (b : BayNo)
  | servoDeadlineMiss (b : BayNo) (loop : LoopId)
  | holdWindowExpiry (b : BayNo) (loop : LoopId)
  | lullResume (b : BayNo) (loop : LoopId)
  | lullReacquire (b : BayNo) (loop : LoopId)
  | focusAcquisition (b : BayNo) (layer : LayerNo)
  | focusSweepEnd (b : BayNo)
  | trackAcquisition (b : BayNo)
  | runoutRevolution (b : BayNo)
  | trackAcqTimeout (b : BayNo) (why : TrackFail)
  | strideJump (b : BayNo)
  | strideJumpLate (b : BayNo)
  | layerJump (b : BayNo) (toHigher : Bool)
  | layerJumpWindowEnd (b : BayNo)
  | lensSeek (b : BayNo) (tracks : Int)
  | sledSeek (b : BayNo) (turn : Nat)
  | offsetApply (b : BayNo) (focusNm tiltCdeg : Int)
  | characterisationRun (b : BayNo) (run : Option CharRun)
  | pwmPeriod (b : BayNo) (o : PwmObs)
  | speedLoopPeriod (b : BayNo)
  | spindleStartOrder (b : BayNo)
  | startDecision (b : BayNo)
  | encoderIndex (b : BayNo)
  | encoderLoss (b : BayNo) (cause : EncLoss)
  | encoderOverspeed (e : EncId)
  | drogueTimeout (b : BayNo)
  | spinupTimeout (b : BayNo)
  | spinDownOrder (b : BayNo)
  | sledPositionMove (b : BayNo) (target : Int)
  | sledRetarget (b : BayNo) (target : Int)
  | sledHomeMove (b : BayNo)
  | sledVelocityCommand (b : BayNo) (v : Int)
  | sledPwmPeriod (b : BayNo) (mark : Bool)
  | sledStandstill (b : BayNo)
  | handlerInterpolatedMove (x z theta : Int)
  | handlerRetarget (x z theta : Int)
  | handlerAxisMove (a : AxisNo) (target : Int)
  | handlerHome
  | handlerPwmPeriod (marks : Vector Bool 4)
  | moveDiscStepDone
  | handlerStandstill (a : AxisNo)
  | inputFilterChange (i : InputNo) (level : Bool)
  | inputQuietEnd (i : InputNo)
  | inputStuck (i : InputNo)
  | handlerResume
  | handlerStopWaitExpiry
  | ownershipTake (peerActiveSoon : Bool)
  | ownershipConflictRetry (peerActiveSoon : Bool)
  | encoderQuietWait
  | ownershipRelease
  | clampConfirm (b : BayNo)
  | clampTimeout (b : BayNo)
  | trayEmpty (b : BayNo)
  | idleSpindown (b : BayNo)
  | spindownComplete (b : BayNo)
  | mountRead (b : BayNo) (probes1 probes2 : List Bool)
  | ripcordDiscStopped (b : BayNo)
  | bayFault (b : BayNo) (cause : FaultCause)
  | remount (vid : VolId)
  | coastWaitExpiry (b : BayNo)
  | workChoice (b : BayNo)
  | writeYield (b : BayNo)
  | destageGuarantee (b : BayNo)
  | slowVisit (b : BayNo)
  | clusterProgram (ok again : Bool)
  | nandCodewordRead (loc : BitVec 34) (sector : Fin 16) (o : NandReadObs)
  | nandOpTimeout (c : ChanNo) (lun : Fin 16) (op : NandOp) (again : Bool)
  | gcCopy (ok again : Bool)
  | journalPageProgram (ok again : Bool)
  | blockErase (lun : Fin 16) (block : Nat) (c : ChanNo) (ok again : Bool)
  | checkpoint
  | retentionTick (sensors : Vector (Option Int) 16)
  | zqCalibration
  | lunRetire (c : ChanNo) (lun : Fin 16)
  | dramRead (addr : BitVec 40) (r : Requester) (o : DramObs)
  | dramPartialWrite (addr : BitVec 40) (bytes : List Byte) (r : Requester) (o : DramObs)
  | scrubRead (o : DramObs)
  | ballastAllocate (owner : Fin 12) (size : Nat)
  | ballastFree (owner : Fin 12) (handle : BitVec 32)
  | ballastPass (owner : Fin 12) (handle : BitVec 32) (newOwner : Fin 12)
  | tripleWrite (op : TripleOp)
  | tripleCommit (set : TripleSet)
  | tripleRead (word : Fin 31) (banks again : Vector (BitVec 64) 3)
  | cacheAccess (core : CoreNo) (addr : BitVec 40) (a : CoreAccess)
  | cacheFillDone (line : BitVec 34)
  | cacheWritebackAccept (line : BitVec 34)
  | tetherTrainingStart
  | tetherTrainingDone (peerIdentity : BitVec 32) (peerRelease : BitVec 32)
  | tetherTrainingTimeout
  | flitReceive (bytes : List Byte)
  | nakReceive (seq : BitVec 16)
  | ackTimeout
  | heartbeatSend
  | heartbeatReceive (h : Heartbeat)
  | heartbeatMissing
  | peerOkInChange (level : Bool) (samples : Nat)
  | brokenWireClear
  | takeoverRoleWrite
  | ownershipCommit
  | forwardResolve
  | takeoverDone
  | darkWaitExpiry
  | mirrorData (msg : BitVec 32) (vid : VolId) (ucl : Nat) (dataSeq : Nat) (mask : BitVec 16) (sectors : List (Nat × SectorData))
  | mirrorCommit (msgs : List (BitVec 32))
  | mirrorRelease (vid : VolId) (ucls : List Nat)
  | volumeState (m : VolStateMsg)
  | forwardedCommand (f : ForwardCmd)
  | forwardedCompletion (c : CmdId) (status : Byte) (result : BitVec 64) (sectors : List (Nat × SectorData))
  | tetherResyncEnd
  | pairResyncProgress
  | joinResyncEnd (peerSequence : BitVec 24)
  | rejoin (r : RejoinPeer)
  | handback
  | porstNRelease (straps : BitVec 2)
  | pllLock
  | encoderEdge (e : EncId) (k : EdgeKind) (time10ns : Nat)
  | smbusTransaction (addr : BitVec 7) (command : Byte) (pec : Bool)
  | jtagTapOperation (op : JtagOp)
  | aerCorrectable (p : Port)
  | eventVectorTimer (p : Port)
  deriving DecidableEq, Repr

end Sys2Proof
end

