-- ==== Sys2Proof/Decode.lean ====
section
/-! DEFINITION. The commands reach the block through its bus, its protocols and its pins; the table gives no row a bit pattern, so no word spells a command. -/

namespace Sys2Proof

/-- The command that a word spells by the table's bits: opcode_table.json gives no row any bits, so none does. -/
def decodeTableWord (_nbits _w : Nat) : Option Instr := none

end Sys2Proof
end

