-- ==== Sys2Proof/Machine/BayState.lean ====
section
/-! DEFINITION. The state of one drive bay: front end, lanes, defect detector, decoding entries, write path, servo, tails, spindle, sled and sequencer. Every field's docstring names its width or type, the rule that gives it, and its value at power-on reset. -/

namespace Sys2Proof.Machine

/-! ### Optical front end (03_optical_front_end.md) -/

/-- The four trims of a receiver (Table 3.1). -/
structure Trim where
  /-- 6 bits (0 to 63); 03 R67; reset 16. -/
  gain : Int
  /-- 7 bits (−64 to +63); 03 R67; reset 0. -/
  offset : Int
  /-- 6 bits (−32 to +31); 03 R67; reset 0. -/
  asym : Int
  /-- 8 bits (0 to 199); 03 R67; reset 100. -/
  delay : Int
  deriving DecidableEq, Repr

/-- The trims at power-on (Table 3.1). -/
def Trim.reset : Trim := { gain := 16, offset := 0, asym := 0, delay := 100 }

/-- A receiver of a bay (R66). -/
structure Receiver where
  /-- trims; 03 R68; reset the power-on values of Table 3.1; unused for the Relief line, whose four sets stand beside. -/
  trims : Trim
  /-- 1 bit, a fault of R75 stands; 03 R75; reset 0. -/
  faulty : Bool
  /-- 1 bit; 03 R78; reset 0. -/
  retired : Bool
  /-- 1 bit; 03 R84; reset 0. -/
  suspect : Bool
  /-- 1 bit, due for calibration; 03 R80; reset 0. -/
  due : Bool
  /-- count of rejected runs in a row; 03 R84; reset 0. -/
  rejects : Nat
  /-- reference temperature, 1/4096 °C; 03 R80; reset DESIGN CHOICE 0 (log entry 2). -/
  refTemp : Rat
  deriving DecidableEq, Repr

/-- A receiver at power-on. -/
def Receiver.reset : Receiver :=
  { trims := .reset, faulty := false, retired := false, suspect := false, due := false, rejects := 0, refTemp := 0 }

/-- The roles of the Relief line (R73). -/
inductive ReliefRole where
  | idle
  | shadow (input : Beam)
  | carrier (lane : Beam) (forFault : Bool)
  deriving DecidableEq, Repr

/-- How one pass of a calibration run ended (R82). -/
inductive PassEnd where
  | ok | rangeFail | limitFail
  deriving DecidableEq, Repr

/-- A calibration slot and the run in progress in it (R81, R82). -/
structure CalRun where
  /-- the beam input of the slot; 03 R81; reset none. -/
  beam : Beam
  /-- the receiver under calibration, 4 the Relief line; 03 R81; reset none. -/
  recv : RecvNo
  /-- the step of R81 reached, 1 to 6; 03 R81; reset none. -/
  step : Nat
  /-- pass B in progress; 03 R82; reset none. -/
  passB : Bool
  /-- the trim searched, in the order of Table 3.4: 0 offset, 1 gain, 2 asymmetry, 3 delay; 03 R82; reset none. -/
  trimIx : Fin 4
  /-- trims in force before the run; 03 R82; reset none. -/
  old : Trim
  /-- trims of the present pass; 03 R82; reset none. -/
  cur : Trim
  /-- the search direction, once the first measurement is outside its band; 03 R82; reset none. -/
  dir : Int
  /-- taps stepped in this search; 03 R82; reset none. -/
  steps : Nat
  /-- the previous measurement of this search, if any; 03 R82; reset none. -/
  prev : Option Rat
  /-- the final trims of pass A; 03 R83; reset none. -/
  resultA : Option Trim
  /-- whether a pass so far ended otherwise than ok; 03 R83; reset none. -/
  failed : Bool
  deriving DecidableEq, Repr

/-- The front end of a bay. -/
structure Afe where
  /-- the five receivers, 4 the Relief line; 03 R66; reset power-on values. -/
  recvs : Vector Receiver 5
  /-- the Relief line's trim set for each beam input; 03 R68; reset power-on values. -/
  reliefSets : Vector Trim 4
  /-- role of the Relief line; 03 R73; reset idle. -/
  relief : ReliefRole
  /-- lane select of each lane, set for the Relief line; 03 R73; reset own receiver. -/
  laneRelief : Vector Bool 4
  /-- lanes marking their frames erased after a receiver fault; 03 R76; reset 0. -/
  erasing : Vector Bool 4
  /-- a substitution ordered and settling, for this beam; 03 R76; reset none. -/
  subst : Option Beam
  /-- device time at which the fault of the substitution in progress was detected, µs; 03 R86; reset 0. -/
  faultTime : Nat
  /-- slot and run in progress; 03 R81; reset none. -/
  cal : Option CalRun
  /-- beam inputs on which the Relief line has been served since it became due; 03 R81; reset 0. -/
  reliefDone : BitVec 4
  /-- the last 64 head temperature conversions, 1/4096 °C, newest first; 03 R72; reset empty. -/
  temps : List Int
  /-- the averaged temperature stands above the limit; 03 R72; reset 0. -/
  tempAbove : Bool
  deriving DecidableEq, Repr

/-- The front end at power-on. -/
def Afe.reset : Afe :=
  { recvs := Vector.replicate 5 .reset, reliefSets := Vector.replicate 4 .reset, relief := .idle,
    laneRelief := Vector.replicate 4 false, erasing := Vector.replicate 4 false, subst := none, faultTime := 0, cal := none,
    reliefDone := 0, temps := [], tempAbove := false }

/-! ### Lanes (04_read_channel.md) -/

/-- The samples and values a lane works on (Table 4.1). Channel bits are counted from reset, and a list of channel bits holds
the last 8,192 at most, newest first. -/
structure Datapath where
  /-- the last 8 ADC samples, newest first; 04 R89; reset empty. -/
  history : List Int
  /-- ADC samples from the newest to the next channel bit instant; 04 R89; reset 0. -/
  acc : Rat
  /-- frequency term f of the timing loop, relative to nominal τ; 04 R90; reset 0. -/
  freq : Rat
  /-- channel bits interpolated; 04 R111; reset 0. -/
  count : Nat
  /-- digital gain g; 04 R95; reset 1. -/
  gain : Rat
  /-- offset o, LSB; 04 R95; reset 0. -/
  offset : Rat
  /-- asymmetry q; 04 R95; reset 0. -/
  asym : Rat
  /-- equaliser taps 0 to 14; 04 R99; reset tap 7 = 1, others 0. -/
  eq : Vector Rat 15
  /-- canceller outer taps −3 to +3; 04 R104; reset 0. -/
  outer : Vector Rat 7
  /-- canceller inner taps −3 to +3; 04 R104; reset 0. -/
  inner : Vector Rat 7
  /-- outer taps of the asynchronous set in use; 04 R107; reset 0. -/
  asyncOuter : Vector Rat 7
  /-- inner taps of the asynchronous set in use; 04 R107; reset 0. -/
  asyncInner : Vector Rat 7
  /-- an equaliser tap stood at its bound in this cluster; 04 R99; reset 0. -/
  eqBound : Bool
  /-- the last 32 interpolated samples, newest first; 04 R92; reset empty. -/
  raws : List Rat
  /-- the last 48 outputs of the level stage, newest first; 04 R95; reset empty. -/
  ys : List Rat
  /-- equalised samples; 04 R99; reset empty. -/
  zs : List Rat
  /-- path metrics of the pre-detector's 16 states; 04 Table 4.1; reset 0. -/
  metrics : List Rat
  /-- the last 17 decisions of each of its paths, newest first; 04 Table 4.1; reset empty. -/
  paths : List (List Int)
  /-- NRZ level decisions of the pre-detector; 04 R100; reset empty. -/
  levels : List Int
  /-- channel bits that have passed the alignment FIFO and the canceller; 04 R104; reset 0. -/
  presented : Nat
  /-- the last 256 canceller outputs, newest first; 04 R104; reset empty. -/
  us : List Rat
  /-- soft values, before erasure and weighting; 04 R108; reset empty. -/
  soft : List Int
  /-- channel bits that have a soft value; 04 R108; reset 0. -/
  softCount : Nat
  /-- channel bits in a row that matched the 4T pattern; 04 R92; reset 0. -/
  matched : Nat
  /-- count at the last preamble detection; 04 R92; reset none. -/
  detected : Option Nat
  /-- alignment of the known preamble pattern, modulo 8; 04 R92; reset 0. -/
  align : Nat
  /-- the last 4,096 envelopes, newest first; 04 R109; reset empty. -/
  envs : List Rat
  /-- channel bits in a row with the envelope below the threshold; 04 R109; reset 0. -/
  below : Nat
  /-- channel bits in a row at or above it, during a dropout; 04 R109; reset 0. -/
  above : Nat
  /-- first channel bit of the dropout in progress; 04 R109; reset none. -/
  dropStart : Option Nat
  /-- dropouts ended and not yet reported: first channel bit and length; 04 R109; reset empty. -/
  dropouts : List (Nat × Nat)
  /-- spans of channel bits flagged erased, the last one perhaps open; 04 R109; reset empty. -/
  erased : List (Nat × Option Nat)
  /-- count at the last lane select switch; 04 Table 4.3; reset none. -/
  switched : Option Nat
  deriving DecidableEq, Repr

/-- A data path at power-on. -/
def Datapath.reset : Datapath :=
  { history := [], acc := 0, freq := 0, count := 0, gain := 1, offset := 0, asym := 0,
    eq := (Vector.replicate 15 0).set 7 1, outer := Vector.replicate 7 0, inner := Vector.replicate 7 0,
    asyncOuter := Vector.replicate 7 0, asyncInner := Vector.replicate 7 0, eqBound := false, raws := [], ys := [], zs := [],
    metrics := List.replicate 16 0, paths := List.replicate 16 [], levels := [], presented := 0, us := [], soft := [],
    softCount := 0, matched := 0, detected := none, align := 0, envs := [], below := 0, above := 0, dropStart := none,
    dropouts := [], erased := [], switched := none }

/-- What a lane is doing with its cluster (R91, R92, R115). -/
inductive LanePhase where
  | idle        -- no cluster
  | searching   -- cold acquisition, preamble not detected
  | acquiring   -- cold acquisition, preamble detected, frame 0 sync not accepted
  | locked      -- frame lock (a warm acquisition starts here)
  | lost        -- acquisition failed or lock lost: the rest of the cluster is erased
  deriving DecidableEq, Repr

/-- The sync of a frame, accepted or inserted (R112, R114): its position, its offset from the prediction, its distance, 63 where
inserted, and whether it was inserted. -/
structure SyncRec where
  frame : Nat
  position : Int
  offset : Int
  distance : Nat
  inserted : Bool
  deriving DecidableEq, Repr

/-- The read channel parameters that a cluster is read with (R119, Table 5.2): they take effect at its acquisition. -/
structure ReadParams where
  kp : Nat
  ki : Nat
  preDetect : Nat
  acqWin : Nat
  syncWin : Nat
  syncThr : Nat
  insLimit : Nat
  insWeight : Nat
  gainMu : Nat
  eqMu : Nat
  itiMu : Nat
  itiEnable : Nat
  /-- target word of the zone (R100). -/
  target : Nat
  /-- both canceller sides are disabled (Table 5.2, step 6). -/
  cancelOff : Bool
  deriving DecidableEq, Repr

/-- Parameters before the first acquisition: the defaults of Table 4.8. -/
def ReadParams.reset : ReadParams :=
  { kp := 5, ki := 14, preDetect := 128, acqWin := 512, syncWin := 24, syncThr := 6, insLimit := 3, insWeight := 8, gainMu := 10,
    eqMu := 12, itiMu := 13, itiEnable := 3, target := 0x12221, cancelOff := false }

/-- One lane of a bay (R88). -/
structure Lane where
  /-- phase; 04 R91, R115; reset idle. -/
  phase : LanePhase
  /-- the cluster in acquisition or read: address read; 04 R117; reset 0. -/
  addr : ClusterAddr
  /-- its home address; 04 R117; reset 0. -/
  home : ClusterAddr
  /-- cluster sequence, 32 bits; 04 R116; reset 0. -/
  seq : BitVec 32
  /-- class of its codewords; 05 R125; reset demand. -/
  cls : CwClass
  /-- the present acquisition is cold; 04 R91; reset 0. -/
  cold : Bool
  /-- ladder step and pass within it whose settings the cluster is read with, 0 outside the ladder; 05 R139; reset 0. -/
  step : Nat × Nat
  /-- parameters the cluster is read with; 04 R119; reset the defaults of Table 4.8. -/
  par : ReadParams
  /-- samples, adaptation and soft values; 04 Table 4.1; reset as each field of Datapath names it. -/
  data : Datapath
  /-- next frame whose sync is searched, 0 to 384; 04 R112; reset 0. -/
  frame : Nat
  /-- prediction of the next sync, channel bits; 04 R111; reset 0. -/
  prediction : Int
  /-- frame syncs of this cluster, newest first; 04 R112, Table 4.6; reset empty. -/
  syncs : List SyncRec
  /-- counted insertions in a row; 04 R115; reset 0. -/
  counted : Nat
  /-- uncounted insertions in a row; 04 R115; reset 0. -/
  uncounted : Nat
  /-- inserted syncs in this cluster; 04 R97; reset 0. -/
  inserted : Nat
  /-- frame from which this cluster's records are erased by lock loss, if any; 04 R115; reset none. -/
  lossFrame : Option Nat
  /-- next frame record to release, 0 to 384; 04 R116; reset 0. -/
  released : Nat
  /-- alignment FIFO depth, channel bits; 04 R102; reset 0. -/
  depth : Int
  /-- depth out of range: canceller sides that use this lane are disabled; 04 R102; reset 0. -/
  alignBad : Bool
  /-- EV_ITI_ASYNC raised since the cold acquisition; 04 R105; reset 0. -/
  asyncRaised : Bool
  /-- outer and inner side in asynchronous mode in this cluster, bits 0 and 1; 04 R97; reset 0. -/
  asyncSides : BitVec 2
  /-- EV_EQ_LIMIT raised in this cluster; 04 R99; reset 0. -/
  eqRaised : Bool
  /-- a channel bit of this cluster was flagged under R76 or R77; 03 R79; reset 0. -/
  recvErased : Bool
  /-- the lane ended its last cluster in frame lock; 04 R91; reset 0. -/
  endedLocked : Bool
  deriving DecidableEq, Repr

/-- A lane at power-on. -/
def Lane.reset : Lane :=
  { phase := .idle, addr := 0, home := 0, seq := 0, cls := .demand, cold := false, step := (0, 0), par := .reset, data := .reset,
    frame := 0, prediction := 0, syncs := [], counted := 0, uncounted := 0, inserted := 0, lossFrame := none, released := 0,
    depth := 0, alignBad := false, asyncRaised := false, asyncSides := 0, eqRaised := false, recvErased := false, endedLocked := false }

/-- The last frame's sync was inserted (R114). -/
def Lane.lastInserted (x : Lane) : Bool := (x.syncs.head?.map (·.inserted)).getD false

/-- The read channel of a bay: lanes, start table, geometry and the sum-signal defect detector. -/
structure ReadChannel where
  /-- lanes B0 to B3; 04 R88; reset idle. -/
  lanes : Vector Lane 4
  /-- start table entries that differ from nominal, keyed zone × 64 + layer × 4 + beam; 04 R96; reset all nominal. -/
  start : List (Nat × StartEntry)
  /-- asynchronous canceller sets that differ from 0, keyed boundary × 32 + layer × 2 + side; 04 R96; reset all 0. -/
  asyncSets : List (Nat × Vector Int 7)
  /-- distances of B1 to B3 learnt in this mount, nm; 04 R103; reset unknown. -/
  learnt : Vector (Option Nat) 3
  /-- both geometry writes failed: the disc is not written in this mount; 04 R103; reset 0. -/
  geometryFailed : Bool
  /-- next cluster sequence; 04 R116; reset DESIGN CHOICE 0 (log entry 2). -/
  nextSeq : BitVec 32
  /-- the sum signal of the last 1,024 periods, newest first; 04 R110; reset empty. -/
  sums : List Nat
  /-- the sum signal lay within its band in the last period; 04 R110; reset 1. -/
  sumIn : Bool
  /-- a sum defect is active; 04 R110; reset 0. -/
  sumDefect : Bool
  /-- periods inside the band in a row during a sum defect; 04 R110; reset 0. -/
  sumInBand : Nat
  /-- periods the sum defect has lasted; 04 R110; reset 0. -/
  sumPeriods : Nat
  /-- EV_SUM_DEFECT_LONG reported for this defect; 04 R110; reset 0. -/
  sumLong : Bool
  deriving DecidableEq, Repr

/-- The read channel at power-on. -/
def ReadChannel.reset : ReadChannel :=
  { lanes := Vector.replicate 4 .reset, start := [], asyncSets := [], learnt := Vector.replicate 3 none,
    geometryFailed := false, nextSeq := 0, sums := [], sumIn := true, sumDefect := false, sumInBand := 0, sumPeriods := 0,
    sumLong := false }

/-! ### Reassembly and Updraft (05_decoding_and_scratch_recovery.md) -/

/-- A cluster a bay is to write or has written (R164, R168). -/
structure WriteItem where
  /-- home address of the cluster. -/
  home : ClusterAddr
  /-- volume. -/
  vid : VolId
  /-- user cluster. -/
  ucl : Nat
  /-- 0 a first recording at its home; otherwise the cause of Table 2.10 (2 remap, 3 weak). -/
  cause : Nat
  /-- sectors read from the disc copy for a remap rewrite, none where the copy holds one never written; 12 R354. -/
  fill : List (Nat × Option SectorData)
  deriving DecidableEq, Repr

/-- How one codeword of an open cluster stands (R127, R133). -/
inductive CwState where
  | missing                                   -- not submitted in this pass
  | queued (left : Nat)                       -- submitted, `left` results outstanding, none converged yet
  | failed                                    -- outcome failed
  | skipped                                   -- outcome skipped (R123)
  | converged (d : CwData) (left : Nat)       -- decoded, CRC and metadata not judged yet, `left` results outstanding
  | good (d : CwData)                         -- converged, CRC and metadata passed, or repaired
  deriving DecidableEq, Repr

/-- A soft input that Q-n keeps (R134): the soft values of a codeword in one pass with their erased count, and the Ballast buffers
that hold them. -/
structure KeptPass where
  soft : List Int
  erased : Nat
  bufs : List (BitVec 32)
  deriving DecidableEq, Repr

/-- How far the ladder step in progress has come (R139): none begun, in its disc pass of the number given with its codewords decoded
alone, kept passes decoded alone (step 1), or their sums decoded, in a disc pass's number where the step has one. -/
inductive LadderStage where
  | idle
  | pass (n : Nat)
  | alone
  | summed (n : Nat)
  deriving DecidableEq, Repr

/-- What the verify read of a written cluster has met so far (Table 6.4). -/
structure VerifyTally where
  /-- the cluster as it was written. -/
  item : WriteItem
  /-- data bits whose hard decision differs from the bit written. -/
  raw : Nat
  /-- length of the span of erased channel bits in progress, and the longest so far. -/
  run : Nat
  longest : Nat
  /-- the address field decoded and matched. -/
  addressOk : Bool
  /-- at the end of frame 383: lock held, syncs inserted, a bit flagged under R76 or R77. -/
  locked : Bool
  inserted : Nat
  receiver : Bool
  deriving DecidableEq, Repr

/-- What an open cluster is for: a host's request or Updraft, the verify read of a written cluster (R163, R166), or a management
read of a mount (R59, R138). -/
inductive EntryUse where
  | host
  | verify (t : VerifyTally)
  | management
  deriving DecidableEq, Repr

/-- A reassembly entry (R131). -/
structure Entry where
  /-- what it is for; 05 R125; reset none. -/
  use : EntryUse
  /-- physical address read, the key; 05 R131; reset none. -/
  addr : ClusterAddr
  /-- home address expected; 05 R128; reset none. -/
  home : ClusterAddr
  /-- volume expected; 05 R128; reset none. -/
  vid : VolId
  /-- cluster sequence of the present pass; 05 R126; reset none. -/
  seq : BitVec 32
  /-- cluster sequences of its earlier passes; 05 R130; reset none. -/
  seqs : List (BitVec 32)
  /-- beam of the pass; 05 R126; reset none. -/
  beam : Beam
  /-- beam of the pass that failed; 05 R137, R139; reset none. -/
  failedBeam : Beam
  /-- read channel parameters of the first pass; 05 R137; reset none. -/
  par : ReadParams
  /-- class; 05 R125; reset none. -/
  cls : CwClass
  /-- speculation generation of an Updraft entry; 05 R145; reset none. -/
  gen : BitVec 32
  /-- the 36 codewords; 05 R131; reset missing. -/
  cws : Vector CwState 36
  /-- Ballast buffers of the data bytes and of the metadata and codeword state; 05 R131; reset none. -/
  bufs : List (BitVec 32)
  /-- Ballast buffers of codewords 32 to 35, until the outer code has run; 05 R131; reset none. -/
  parity : List (BitVec 32)
  /-- soft data bits of this pass not yet formed into a codeword; 05 R126; reset empty. -/
  soft : List Int
  /-- erased coded bits counted for each codeword in this pass; 05 R123; reset 0. -/
  erased : Vector Nat 36
  /-- soft inputs kept for each codeword; 05 R134; reset empty. -/
  kept : Vector (List KeptPass) 36
  /-- codewords whose first decode has ended; 05 R142; reset 0. -/
  tried : BitVec 36
  /-- frame records released in this pass; 05 R126; reset 0. -/
  frames : Nat
  /-- codewords submitted in this pass; 05 R126; reset 0. -/
  submitted : Nat
  /-- commands attached; 05 R132; reset none. -/
  requests : List CmdId
  /-- marked late; 05 R136; reset 0. -/
  late : Bool
  /-- promoted from Updraft, with its deadline running from then; 05 R144; reset 0. -/
  promoted : Bool
  /-- a re-read is scheduled: 0 none, 1 late, 2 identical; 05 R136, R137; reset 0. -/
  reread : Nat
  /-- the outer code has run in this pass; 05 R127; reset 0. -/
  ran : Bool
  /-- the first pass has been judged; 05 R137; reset 0. -/
  judged : Bool
  /-- the present pass is the identical re-read; 05 R137; reset 0. -/
  identical : Bool
  /-- ladder step reached, 0 outside the ladder; 05 R139; reset 0. -/
  ladder : Nat
  /-- how far that step has come; 05 R139; reset idle. -/
  stage : LadderStage
  /-- some codeword of the last pass failed its metadata check; 05 R138; reset 0. -/
  metaFail : Bool
  /-- largest iteration count of a first decode; 05 R142; reset 0. -/
  maxIters : Nat
  /-- codewords repaired by the outer code in one pass; 05 R142; reset 0. -/
  repaired : Nat
  /-- final status of the cluster, once decided; 05 R138; reset none. -/
  status : Option Byte
  deriving DecidableEq, Repr

/-- An entry of the Updraft store (R144). -/
structure StoreEntry where
  addr : ClusterAddr
  vid : VolId
  lba : Nat
  gen : BitVec 32
  sectors : List (Nat × SectorData)
  /-- its 64 KiB Ballast buffer. -/
  buf : Option (BitVec 32)
  deriving DecidableEq, Repr

/-- An Updraft run of a bay (R143): its next cluster and the clusters left of its depth. -/
structure UpdraftRun where
  next : ClusterAddr
  left : Nat
  deriving DecidableEq, Repr

/-- The decoding state of a bay. -/
structure BayDecode where
  /-- open reassembly entries by index 0 to 127; 05 R131; reset none. -/
  entries : List (Nat × Entry)
  /-- EV_REASM_FULL raised in this revolution; 05 R131; reset 0. -/
  fullRaised : Bool
  /-- Updraft store, least recently hit or arrived first; 05 R144; reset empty. -/
  store : List StoreEntry
  /-- Updraft run; 05 R143; reset none. -/
  updraft : Option UpdraftRun
  /-- where an Updraft run may start: after the last demand cluster, or a Prefetch LBA's cluster, with its depth; 05 R143; reset none. -/
  updraftFrom : Option (ClusterAddr × Nat)
  /-- speculation generation, 32 bits; 05 R145; reset DESIGN CHOICE 0 (log entry 2). -/
  gen : BitVec 32
  /-- weak clusters awaiting rewrite with the recovered data: home and volume; 05 R142; reset none. -/
  weak : List (ClusterAddr × VolId)
  deriving DecidableEq, Repr

/-- Decoding at power-on. -/
def BayDecode.reset : BayDecode :=
  { entries := [], fullRaised := false, store := [], updraft := none, updraftFrom := none, gen := 0, weak := [] }

/-! ### Write path (06_writing_and_verification.md) -/

/-- A cluster queued for the replacement pass (R168): its home, cause, volume and user cluster. -/
structure ReplItem where
  home : ClusterAddr
  cause : Nat
  vid : VolId
  ucl : Nat
  /-- sectors read from the disc copy for a remap rewrite; 12 R354. -/
  fill : List (Nat × Option SectorData)
  deriving DecidableEq, Repr

/-- B1's read of a written cluster, measured (Table 6.4): frame lock held, syncs inserted, the address field decoded as the position
written, raw bit errors, every codeword converged and the most iterations, CRC and metadata of every data codeword, the
longest erased span and the erased coded bits; and whether a channel bit was flagged under R76 or R77 (R79). -/
structure VerifyRead where
  locked : Bool
  inserted : Nat
  addressOk : Bool
  rawErrors : Nat
  converged : Bool
  iters : Nat
  crcMeta : Bool
  eraseRun : Nat
  eraseSum : Nat
  receiver : Bool
  deriving DecidableEq, Repr

/-- A destage job of a bay (R295): the command that asked, the volume, the clusters still to write, and its account. -/
structure DestageJob where
  cmd : Option CmdId
  vid : VolId
  todo : List WriteItem
  written : List WriteItem
  replaced : Nat
  failed : Option Byte
  deriving DecidableEq, Repr

/-- A write run in progress (R163 to R167). -/
structure WriteRun where
  layer : LayerNo
  turn : Nat
  /-- written in this run, oldest first, not yet judged by B1. -/
  unjudged : List WriteItem
  /-- the clusters of the present turn whose postamble has not ended, in slot order. -/
  turnItems : List WriteItem
  /-- the run ends at the end of its turn (yield, OPC trigger, unmount, QUIESCE). -/
  endAtTurn : Bool
  /-- the final verify revolution is under way. -/
  finalRev : Bool
  /-- turns the run has begun to write. -/
  turns : Nat
  /-- the run goes ahead of demand and retry by the destage guarantee (R243). -/
  guaranteed : Bool
  /-- the Ballast buffers, owned by staging, that hold the copies of its clusters not judged yet, by home (R25). -/
  bufs : List (ClusterAddr × BitVec 32)
  deriving DecidableEq, Repr

/-- Why a management set is due (R61). -/
inductive MgmtDue where
  | format (remap : Bool) (p : Option Port)
  | destage
  | unmount
  deriving DecidableEq, Repr

/-- The write path of a bay. -/
structure WritePath where
  /-- LDn_WG, the write gate pin; 06 R165, 18 R470; reset low. -/
  gate : Bool
  /-- LDn_PB0 to LDn_PB3, the symbol of the last channel bit period sent; 06 R153; reset DESIGN CHOICE space (log entry 2). -/
  bus : BitVec 4
  /-- laser driver registers that differ from 0, by address; 06 R150; reset DESIGN CHOICE 0 (log entry 2). -/
  ldl : List (Nat × BitVec 16)
  /-- a persistent LDL CRC failure forbids further write runs; 06 R152; reset 0. -/
  ldlDead : Bool
  /-- STATUS has been read since the last write run, and the last read was clear; 06 R151, R164; reset 0. -/
  statusClear : Bool
  /-- wobble cycles in a row with the write clock within ±0.5 channel bit; 06 R164; reset 0. -/
  clockGood : Nat
  /-- wobble cycles in a row with the write clock beyond ±1.5 channel bits; 06 R169; reset 0. -/
  clockBad : Nat
  /-- write run; 06 R164; reset none. -/
  run : Option WriteRun
  /-- replacement queue; 06 R168; reset empty. -/
  replQueue : List ReplItem
  /-- unverified clusters with their layer in the home address; 06 R170; reset empty. -/
  unverified : List WriteItem
  /-- destage jobs, oldest first; 11 R295; reset empty. -/
  jobs : List DestageJob
  /-- management set due; 06 R61; reset none. -/
  mgmtDue : Option MgmtDue
  /-- κ_in of each layer, 1/4096, until unmount; 06 R160; reset 4096 (1.0). -/
  kappaIn : Vector Nat 16
  /-- κ_out of each layer, 1/4096, until unmount; 06 R160; reset 4096. -/
  kappaOut : Vector Nat 16
  /-- areas with an accepted factor in this mount: bit layer for inner, 16 + layer for outer; 06 R159; reset 0. -/
  opcDone : BitVec 32
  /-- layers due by request, temperature or failures; 06 R159; reset 0. -/
  opcDue : BitVec 16
  /-- layers whose first run of the mount has been calibrated; 06 R159; reset 0. -/
  opcFirst : BitVec 16
  /-- areas calibrated since their layer last became due, as in opcDone; 06 R159; reset 0. -/
  opcRan : BitVec 32
  /-- head temperature at the last accepted run, 1/4096 °C, by layer; 06 R159; reset none. -/
  opcTemp : Vector (Option Rat) 16
  /-- verify outcomes of the last 256 clusters of each layer, newest first; 06 R159; reset empty. -/
  vhist : Vector (List Bool) 16
  /-- next unused test positions of each layer, inner then outer, once found in this mount; 06 R157; reset none. -/
  testNext : Vector (Option (Nat × Nat)) 16
  /-- layers whose EV_OPC_AREA_FULL was raised in this mount; 06 R161; reset 0. -/
  areaFull : BitVec 16
  /-- cause mask of the last cut; 06 R33, 15 Table 15.4; reset 0. -/
  lastCut : BitVec 7
  /-- device time of the last cut, 64 bits; 01 R33; reset none. -/
  cutTime : Option (BitVec 64)
  deriving DecidableEq, Repr

/-- The write path at power-on. -/
def WritePath.reset : WritePath :=
  { gate := false, bus := 0, ldl := [], ldlDead := false, statusClear := false, clockGood := 0, clockBad := 0, run := none, replQueue := [], unverified := [],
    jobs := [], mgmtDue := none, kappaIn := Vector.replicate 16 4096, kappaOut := Vector.replicate 16 4096,
    opcDone := 0, opcDue := 0, opcFirst := 0, opcRan := 0, opcTemp := Vector.replicate 16 none, vhist := Vector.replicate 16 [],
    testNext := Vector.replicate 16 none, areaFull := 0, lastCut := 0, cutTime := none }

/-! ### Servo (07_servo_loops.md) -/

/-- One loop of S-n (Table 7.1). -/
structure Loop where
  /-- the loop is closed; 07 R182, R183; reset open. -/
  closed : Bool
  /-- Lull and its cause; 07 R191; reset none. -/
  lull : Option LullCause
  /-- applied drive code, 16 bits signed, or for the sled its velocity command; 07 R175; reset 0. -/
  drive : Int
  /-- the last 64 applied outputs, newest first; 07 R190, R191; reset empty. -/
  outs : List Int
  /-- integrator, drive code; 07 R191; reset 0. -/
  integ : Int
  /-- filter states of the compensator, in the form of the law of log entry 103; 07 R174; reset empty. -/
  filter : List Rat
  /-- drive code that an open loop adds its feed-forward to; 07 Tables 7.4 and 7.7, R186; reset 0. -/
  base : Int
  /-- cumulative overruns, 32 bits saturating; 07 R198; reset 0. -/
  overruns : Nat
  /-- consecutive overruns; 07 R198; reset 0. -/
  consecutive : Nat
  /-- periods of landing boost left; 07 Table 7.4; reset 0. -/
  boost : Nat
  /-- consecutive samples inside the lock band; 07 R182, R183; reset 0. -/
  inBand : Nat
  /-- the loop is locked; 07 R182, R183; reset 0. -/
  locked : Bool
  deriving DecidableEq, Repr

/-- A loop at power-on. -/
def Loop.reset : Loop :=
  { closed := false, lull := none, drive := 0, outs := [], integ := 0, filter := [], base := 0, overruns := 0, consecutive := 0, boost := 0,
    inBand := 0, locked := false }

/-- A move of the set-point generator or lens (R181 to R187). -/
inductive MoveKind where
  | sweep (second : Bool)
  | stride
  | lens (tracks : Int)
  | layer (toHigher : Bool)
  | sledSeek (turn : Nat)
  | offset (focusNm tiltCdeg : Int)
  deriving DecidableEq, Repr

/-- A move in progress: its kind, the 400 kHz periods done, whether its set-point part has ended, and crossings. -/
structure Move where
  kind : MoveKind
  periods : Nat
  landed : Bool
  crossings : Nat
  settle : Nat
  deriving DecidableEq, Repr

/-- The state of a focus acquisition (R182). -/
structure FocusAcq where
  /-- layer ordered. -/
  layer : LayerNo
  /-- 400 kHz periods of this sweep, and the set-point position they give, nm from park. -/
  periods : Nat
  p : Rat
  /-- S-curves counted in this sweep. -/
  count : Nat
  /-- S-curves counted in the first sweep, once it ended. -/
  firstCount : Option Nat
  /-- SUM above SRV.FOC_SUM_MIN now; a positive and a negative peak passed within it. -/
  above : Bool
  posPeak : Bool
  negPeak : Bool
  /-- extremes of FEN within this S-curve and the positions they came at. -/
  fenMax : Rat
  fenMin : Rat
  pMax : Rat
  pMin : Rat
  /-- positions of the FEN zero crossing within this S-curve, within the S-curve counted before it, and within S-curve 1. -/
  zero : Option Rat
  lastZero : Option Rat
  firstZero : Option Rat
  /-- the acquisition is a re-acquisition from a Lull (R194). -/
  fromLull : Bool
  deriving DecidableEq, Repr

/-- The retract ramp in progress (R193, R195): the 400 kHz periods done of its 2,000, and the drives it began from. -/
structure Ramp where
  periods : Nat
  focus : Int
  tracking : Int
  tilt : Int
  deriving DecidableEq, Repr

/-- The configuration of an armed tail (Table 7.10). -/
structure TailCfg where
  stopOnFull : Bool
  nodes : Vector Nat 4
  decimation : Nat
  trigger : Nat
  levelCh : Fin 4
  level : Int
  eventOff : Nat
  pre : Nat
  deriving DecidableEq, Repr

/-- One tail (R199). -/
structure Tail where
  /-- configuration while armed; 07 R201; reset none. -/
  cfg : Option TailCfg
  /-- running; 07 R202; reset 0. -/
  running : Bool
  /-- samples held, newest first, at most 8,192; 07 R199; reset empty. -/
  samples : List (Vector Int 4)
  /-- samples written since arming; 07 R202; reset 0. -/
  written : Nat
  /-- the trigger has fired; sample count then; 07 R202; reset none. -/
  trigAt : Option Nat
  /-- samples left to write after the trigger; 07 R202; reset none. -/
  left : Option Nat
  /-- periods until the next sample; 07 R201; reset 0. -/
  phase : Nat
  /-- period count at the trigger or the stop; 07 R203; reset 0. -/
  stamp : Nat
  deriving DecidableEq, Repr

/-- A tail at power-on. -/
def Tail.reset : Tail :=
  { cfg := none, running := false, samples := [], written := 0, trigAt := none, left := none, phase := 0, stamp := 0 }

/-- The servo of a bay. -/
structure Servo where
  /-- 4-bit conversion counters of the 8 detector inputs; 03 R71; reset DESIGN CHOICE 0 (log entry 2). -/
  counters : Vector (BitVec 4) 8
  /-- last 14-bit samples; 03 R71; reset DESIGN CHOICE 0 (log entry 2). -/
  samples : Vector (BitVec 14) 8
  /-- consecutive stale words of each input; 07 R189; reset 0. -/
  stale : Vector Nat 8
  /-- the last 64 samples of each input, of TA and TB the sums of 8, newest first, while its loop is closed; 07 R190; reset empty. -/
  history : Vector (List Int) 8
  /-- tilt samples summed over the running 8 periods: TA, TB, and the periods in them; 03 R70; reset 0. -/
  tiltSum : Nat × Nat × Nat
  /-- wobble cycle of B0's turn in the last 400 kHz period, 0 to 32,255; 02 R39; reset DESIGN CHOICE 0 (log entry 2). -/
  cycle : Nat
  /-- tilt words ready for the 50 kHz loop, TA and TB, as the sums of their 8 samples; 03 R70; reset 0. -/
  tiltWord : Nat × Nat
  focus : Loop
  tracking : Loop
  tilt : Loop
  sled : Loop
  /-- defect hold in force, and its periods; 07 R188; reset none. -/
  hold : Option Nat
  /-- focus is retracting or retracted to park; 07 R193; reset 1 (parked). -/
  parked : Bool
  /-- retract ramp; 07 R193; reset none. -/
  ramp : Option Ramp
  /-- focus acquisition; 07 R182; reset none. -/
  acq : Option FocusAcq
  /-- track acquisition: 0 none, 1 counting, 2 closing, 3 refining and awaiting the address; 07 R183; reset 0. -/
  trackAcq : Nat
  /-- the present track close is a re-acquisition from a Lull; 07 R194; reset 0. -/
  reacquire : Bool
  /-- move in progress; 07 R181; reset none. -/
  move : Option Move
  /-- moves ordered and waiting; 07 R181; reset empty. -/
  queued : List MoveKind
  /-- S_f, 1/256 LSB of FEN per nm; 07 R182; reset DESIGN CHOICE 0 (log entry 2). -/
  slopeF : Nat
  /-- S_t, 1/256 LSB of TEN per nm; 07 R183; reset DESIGN CHOICE 0 (log entry 2). -/
  slopeT : Nat
  /-- lens travel between the S-curves of layers n and n + 1, nm, as the last sweep that passed both measured it; 07 R185; reset none. -/
  travel : Vector (Option Rat) 15
  /-- runout table; 07 R177; reset none. -/
  runout : Option (Vector Int 64)
  /-- feed-forward tables; 07 R178; reset DESIGN CHOICE 0 (log entry 2). -/
  tables : FfTables
  /-- tables valid; 07 R180; reset invalid. -/
  tablesValid : Bool
  /-- head temperature at which they were learnt, 1/4096 °C; 07 R180; reset 0. -/
  tablesTemp : Rat
  /-- recovery feed-forward in force from a Lull until the next track lock; 07 Table 7.3; reset 0. -/
  recovery : Bool
  /-- the last 40 tracking drives less feed-forward, newest first; 07 R177; reset empty. -/
  lens : List Rat
  /-- |O| above SRV.LENS_LIMIT; 07 R186; reset 0. -/
  lensAbove : Bool
  /-- the TEN of the last period, for crossings; 07 R183; reset 0. -/
  lastTen : Rat
  /-- the FEN of the last period; 07 R182; reset 0. -/
  lastFen : Rat
  /-- track crossings of the counting revolution, signed, in each angle unit; 07 R183; reset 0. -/
  crossings : Vector Int 64
  /-- extremes of TEN in it, and the least sum since the last crossing with the TEN it came with; 07 R183; reset 0. -/
  tenMax : Rat
  tenMin : Rat
  ripple : Int × Rat
  /-- 400 kHz periods since the last crossing of TEN; 07 R183; reset 0. -/
  crossAge : Nat
  /-- sum and count of the tracking drive in each angle unit since track lock; 07 R183; reset 0. -/
  refineSum : Vector Int 64
  refineCount : Vector Nat 64
  /-- 400 kHz periods since the track lock whose runout refinement is due; 07 R183; reset none. -/
  refineAge : Option Nat
  /-- layer, turn and zone last decoded; 07 R183; reset none. -/
  place : Option (LayerNo × Nat × Nat)
  /-- (encoder count, turn) pair of the last track lock; 07 R183; reset none. -/
  pair : Option (Int × Nat)
  /-- address words of the last 8 turns since track lock, newest first: none where one did not decode, else whether it has SL16
  fields; 02 R41; reset empty. -/
  ids : List (Option Bool)
  /-- standing ladder offsets: focus nm, tilt 0.01°; 07 R187; reset 0. -/
  offFocus : Int
  offTilt : Int
  /-- tails T0 and T1; 07 R199; reset idle. -/
  tails : Vector Tail 2
  /-- 400 kHz periods since power-on reset, 64 bits; 07 R203; reset 0. -/
  periods : Nat
  deriving DecidableEq, Repr

/-- The feed-forward tables at power-on: invalid, entries 0. -/
def ffZero : FfTables :=
  { focusFriction := Vector.replicate 2 0, trackFriction := Vector.replicate 2 0,
    lensCogging := Vector.replicate 64 0, sledCogging := Vector.replicate 64 0 }

/-- The servo at power-on. -/
def Servo.reset : Servo :=
  { counters := Vector.replicate 8 0, samples := Vector.replicate 8 0, stale := Vector.replicate 8 0,
    history := Vector.replicate 8 [], cycle := 0, tiltSum := (0, 0, 0), tiltWord := (0, 0), focus := .reset, tracking := .reset,
    tilt := .reset, sled := .reset, hold := none, parked := true, ramp := none, acq := none, trackAcq := 0, reacquire := false,
    move := none, queued := [], slopeF := 0, slopeT := 0, travel := Vector.replicate 15 none, runout := none, tables := ffZero, tablesValid := false,
    tablesTemp := 0, recovery := false, lens := [], lensAbove := false, lastTen := 0, lastFen := 0,
    crossings := Vector.replicate 64 0, tenMax := 0, tenMin := 0, ripple := (0, 0), crossAge := 0,
    refineSum := Vector.replicate 64 0, refineCount := Vector.replicate 64 0, refineAge := none, place := none, pair := none,
    ids := [], offFocus := 0, offTilt := 0, tails := Vector.replicate 2 .reset, periods := 0 }

/-! ### Spindle and sled (08_spindle_and_sled_drives.md) -/

/-- The spindle drive of a bay. -/
structure Spindle where
  /-- commutation level; 08 R209; reset off. -/
  level : SpinLevel
  /-- encoder count; 08 R210; reset DESIGN CHOICE 0 (log entry 2). -/
  count : Int
  /-- count at the last index, once seen since the level was entered; 08 R210; reset none. -/
  index : Option Int
  /-- SPN.ELEC_OFFSET, 16 bits; 08 R210; reset 0. -/
  elecOffset : BitVec 16
  /-- its valid bit; 08 R210; reset 0. -/
  offsetValid : Bool
  /-- counts of the U line's accepted rising edges since the level was entered, newest first; 08 R210; reset empty. -/
  uEdges : List Int
  /-- present commutation state, and the last valid one; 08 R211; reset DESIGN CHOICE 0b101 (log entry 2). -/
  halls : BitVec 3
  lastHalls : BitVec 3
  /-- commutation edges since the level was entered or the last index; 08 R217; reset 0. -/
  hallEdges : Nat
  /-- commutation edges since the last encoder edge; 08 R221; reset 0. -/
  hallsSinceEdge : Nat
  /-- times of the last 65 encoder edges, 10 ns, newest first; 08 R215; reset empty. -/
  edges : List Nat
  /-- speed periods since the last accepted encoder or commutation edge; 08 R216, R218; reset 0. -/
  edgeAge : Nat
  /-- times of the last commutation edges, newest first; 08 R216; reset empty. -/
  hallTimes : List Nat
  /-- measure window: encoder count and commutation steps at its start; 08 R216; reset 0. -/
  windowCount : Int
  windowHalls : Int
  /-- net commutation states stepped, forward positive; 08 R216; reset 0. -/
  hallNet : Int
  /-- encoder lost; 08 R221; reset 0. -/
  encoderLost : Bool
  /-- observer converged; 08 R220; reset 0. -/
  obsConverged : Bool
  /-- PWM periods its loop error has stayed in ±5°; 08 R220; reset 0. -/
  obsPeriods : Nat
  /-- observer's states, in the form of the law of log entry 104; 08 R220; reset empty. -/
  obsState : List Rat
  /-- observer angle, 1/65,536 electrical revolution; 08 R220; reset 0. -/
  obsAngle : Nat
  /-- observer speed, 0.01 rpm; 08 R220; reset 0. -/
  obsSpeed : Int
  /-- encoder counts from the index, carried on by the observer's electrical revolutions while the encoder is lost; 08 R221; reset 0. -/
  mech : Rat
  /-- counts between the last two indexes; 08 R221; reset none. -/
  rev : Option Int
  /-- periods of angle disagreement in a row; 08 R222; reset 0. -/
  disagree : Nat
  /-- SPN.ANGLE_DIFF; 08 R234; reset 0. -/
  angleDiff : Int
  /-- SPN.EST_PERIODS, 32 bits saturating; 08 R213; reset 0. -/
  estPeriods : Nat
  /-- consecutive estimated periods; 08 R213; reset 0. -/
  estRow : Nat
  /-- reconstructed phase currents U V W of the last measured period, µA; 08 R212; reset 0. -/
  currents : Vector Int 3
  /-- turn-on and turn-off ticks of the high sides U V W in the present period; 08 R208, R213; reset 0. -/
  pulses : Vector (Int × Int) 3
  /-- turn-off and turn-on ticks of the low sides U V W, SPN.DEADTIME before and after; 08 R208; reset 0. -/
  lows : Vector (Int × Int) 3
  /-- commanded phase voltages U V W, mV; 08 R211; reset 0. -/
  volts : Vector Rat 3
  /-- id and iq of the last measured period, in six-step level 0 and the shunt's magnitude, mA; 08 R213, R214; reset 0. -/
  idq : Rat × Rat
  /-- integrators of the vd and vq laws, mV; 08 R214; reset 0. -/
  integD : Rat
  integQ : Rat
  /-- PWM duty of the switched high side in six-step level; 08 R214; reset 0. -/
  duty : Rat
  /-- integrator of the speed law, mA; 08 R215; reset 0. -/
  spdInteg : Rat
  /-- iq reference from the speed loop, mA; 08 R214; reset 0. -/
  iqRef : Int
  /-- Drogue on-fraction, 1/1280 of a period; 08 R218; reset 0. -/
  drogueD : Nat
  /-- speed reference, 0.01 rpm; 08 R215; reset 0. -/
  speedRef : Rat
  /-- SPN.SPEED_MEAS, 0.01 rpm; 08 R215; reset 0. -/
  speedMeas : Int
  /-- speed samples in band in a row; 08 R215; reset 0. -/
  inBand : Nat
  /-- speed samples out of band in a row since at target; 08 R215; reset 0. -/
  outBand : Nat
  /-- the speed has been at target; 08 R215; reset 0. -/
  atTarget : Bool
  /-- spin-down under way; 08 R223; reset 0. -/
  stopping : Bool
  /-- a start order stands whose speed has not been at target; 08 R219; reset 0. -/
  starting : Bool
  /-- no start order is accepted until the next warm reset; 08 R223; reset 0. -/
  barred : Bool
  /-- a sinusoidal period has run since any other level (vq preset done); 08 R214; reset 0. -/
  vqPreset : Bool
  deriving DecidableEq, Repr

/-- The spindle at power-on. -/
def Spindle.reset : Spindle :=
  { level := .off, count := 0, index := none, elecOffset := 0, offsetValid := false, uEdges := [], halls := 0b101,
    lastHalls := 0b101, hallEdges := 0, hallsSinceEdge := 0, edges := [], edgeAge := 0, hallTimes := [], windowCount := 0,
    windowHalls := 0, hallNet := 0, encoderLost := false, obsConverged := false, obsPeriods := 0, obsState := [],
    obsAngle := 0, obsSpeed := 0, mech := 0, rev := none,
    disagree := 0, angleDiff := 0, estPeriods := 0, estRow := 0, currents := Vector.replicate 3 0, pulses := Vector.replicate 3 (0, 0),
    lows := Vector.replicate 3 (0, 0), volts := Vector.replicate 3 0, idq := (0, 0), integD := 0, integQ := 0, duty := 0, spdInteg := 0, iqRef := 0,
    drogueD := 0, speedRef := 0, speedMeas := 0, inBand := 0, outBand := 0, atTarget := false, stopping := false,
    starting := false, barred := false, vqPreset := false }

/-- The limits of a step profile (R227): velocities in counts per second and accelerations in counts per second
squared; for the path fraction of an interpolated move (R254) both in units of 2⁻⁴⁰ of the path. -/
structure Profile where
  vStart : Nat
  vStop : Nat
  vBreak : Nat
  vMax : Nat
  acc1 : Nat
  acc2 : Nat
  dec1 : Nat
  dec2 : Nat
  deriving DecidableEq, Repr

/-- The modes of a step generator (SLD.STATE). -/
inductive StepMode where
  | standstill | position | velocity | reversal | home | stopRamp
  deriving DecidableEq, Repr

/-- What the two H-bridges of a stepper do (R226, R231): all legs open, both low sides on, or the duties of phases A and B in per cent,
signed by bridge polarity. -/
inductive Bridges where
  | opened
  | shorted
  | driven (a b : Rat)
  deriving DecidableEq, Repr

/-- One step generator axis (R226 to R229, R253). -/
structure StepAxis where
  /-- mode; 08 R235; reset standstill. -/
  mode : StepMode
  /-- homed since the last power-on or warm reset; 08 R225; reset 0. -/
  homed : Bool
  /-- commanded position, units of 1/1,600,000,000 count; 08 R226; reset 0. -/
  pos : Int
  /-- commanded velocity, units of 1/40,000 count per second; 08 R226; reset 0. -/
  vel : Int
  /-- target of a position move, counts; 08 R227; reset 0. -/
  target : Int
  /-- a fresh move to the target follows the present stop or reversal; 08 R229; reset 0. -/
  fresh : Bool
  /-- velocity commanded in velocity mode, 0.1 count per second; 08 R228; reset 0. -/
  velCmd : Int
  /-- profile values the move started with; 08 R227; reset 0. -/
  profile : Profile
  /-- encoder count from the mark; 08 R225; reset DESIGN CHOICE 0 (log entry 2). -/
  encoder : Int
  /-- a stall was raised in this move; 08 R230; reset 0. -/
  stalled : Bool
  /-- an overspeed in this move counts as a deviation beyond the window; 08 R230; reset 0. -/
  overspeed : Bool
  /-- the standstill mode has been applied: 3 not yet, else 0 off, 1 short, 2 hold; 08 R231; reset 0 off. -/
  standstill : Nat
  /-- the bridges; 08 R226, R231; reset open. -/
  bridges : Bridges
  deriving DecidableEq, Repr

/-- A step axis at power-on. -/
def StepAxis.reset : StepAxis :=
  { mode := .standstill, homed := false, pos := 0, vel := 0, target := 0, fresh := false, velCmd := 0,
    profile := ⟨0, 0, 0, 0, 0, 0, 0, 0⟩, encoder := 0, stalled := false, overspeed := false, standstill := 0, bridges := .opened }

/-! ### Bay sequencer (09_bay_operation.md) -/

/-- The disc in a bay, as the device knows it. -/
structure Disc where
  /-- volume whose disc this is; 11 R289; reset none. -/
  vid : VolId
  /-- slot it came from; 09 R240; reset none. -/
  slot : BitVec 16
  /-- mounted; 09 R236; reset none. -/
  mounted : Bool
  /-- current management set; 02 R59; reset none. -/
  mgmt : Option MgmtSet
  /-- used positions of the two management sequences; 02 R59; reset none. -/
  used1 : Nat
  used2 : Nat
  /-- read-only by the closed flag or a set that does not fit; 02 R62; reset none. -/
  readOnly : Bool
  /-- unclean at this mount; 02 R61; reset none. -/
  unclean : Bool
  /-- positions read before their first write in this mount; 02 R61; reset none. -/
  preRead : List ClusterAddr
  deriving DecidableEq, Repr

/-- What follows when the spindle of a bay in SPINDOWN is off (Table 9.2). -/
inductive AfterStop where
  | park | unload | clampedAfterReset
  deriving DecidableEq, Repr

/-- The management reads of a mount (R59, R239): the next unused position of each sequence, the lowest position ordered of each, and
what the positions read gave. -/
structure MgmtScan where
  used1 : Nat
  used2 : Nat
  low1 : Nat
  low2 : Nat
  got : List (ClusterAddr × Option (List Byte))
  deriving DecidableEq, Repr

/-- The sequencer of a bay. -/
structure Seq where
  /-- state of Table 9.1, 4 bits; 09 R236; reset EMPTY. -/
  st : BaySt
  /-- tray sensor shows a disc; 09 R237; reset 0, set at boot from the sensor. -/
  tray : Bool
  /-- clamp sensor closed; 09 R237; reset 0. -/
  clamp : Bool
  /-- disc; 09 R236; reset none. -/
  disc : Option Disc
  /-- what follows SPINDOWN; 09 R237; reset park. -/
  after : AfterStop
  /-- a mount is under way; 09 R239; reset 0. -/
  mounting : Bool
  /-- management reads of the mount; 09 R239; reset none. -/
  scan : Option MgmtScan
  /-- the present mount step has been retried once; 09 R240; reset 0. -/
  retried : Bool
  /-- stage and slot of the last failed mount, while consecutive; 09 R240; reset none. -/
  lastFail : Option (MountStage × BitVec 16)
  /-- this unload follows FAULTED or the second failed mount: cause to take at EMPTY; 09 R237; reset none. -/
  faultAfter : Option FaultCause
  /-- an unmount by this command is under way; 09 R241; reset none. -/
  unmounting : Option (Option CmdId)
  /-- position-class work is queued; 09 R242; reset 0. -/
  position : Bool
  /-- demand clusters queued: home and read addresses; 09 R242; reset empty. -/
  demand : List (ClusterAddr × ClusterAddr)
  /-- entries waiting for a ladder disc pass; 09 R242; reset empty. -/
  retry : List (Fin 128)
  /-- entries waiting at ladder step 8; 09 R243; reset empty. -/
  slow : List (Fin 128)
  /-- a slow visit is under way; 09 R243; reset 0. -/
  visiting : Bool
  /-- the next write run goes ahead of demand and retry; 09 R243; reset 0. -/
  destageFirst : Bool
  /-- address mismatches: 1 in this stride, 2 in the one before, 3 a position failure, 4 its seek is made; 09 R247; reset 0. -/
  mismatches : Nat
  /-- the position check of R247 is due; 09 R247; reset 0. -/
  checkDue : Bool
  /-- spindle coasts within this mount; 09 R248; reset 0. -/
  coasts : Nat
  /-- the present sled move is the repeat after a stall; 09 R248; reset 0. -/
  sledRepeat : Bool
  /-- a re-acquisition has been retried; 09 R248; reset 0. -/
  reacqTried : Bool
  /-- cause of FAULTED; 09 R249; reset none. -/
  cause : Option FaultCause
  /-- a disc whose coast finds no angle source may now be unclamped; 09 R249; reset 0. -/
  coastDone : Bool
  /-- EV_REMOUNT_WITHHELD was raised since the bay became FAULTED; 01 R34; reset 0. -/
  withheld : Bool
  /-- device time at which the bay last had work, µs; 09 R485; reset 0. -/
  lastWork : Nat
  /-- spun down by a Vent, so that it spins up again when the device leaves VENT; 09 R245; reset 0. -/
  respin : Bool
  deriving DecidableEq, Repr

/-- The sequencer at power-on. -/
def Seq.reset : Seq :=
  { st := .empty, tray := false, clamp := false, disc := none, after := .park, mounting := false, scan := none, retried := false,
    lastFail := none, faultAfter := none, unmounting := none, position := false, demand := [], retry := [], slow := [],
    visiting := false, destageFirst := false, mismatches := 0, checkDue := false, coasts := 0, sledRepeat := false,
    reacqTried := false, cause := none, coastDone := false, withheld := false, lastWork := 0, respin := false }

/-- One drive bay (R17). -/
structure Bay where
  afe : Afe
  rc : ReadChannel
  dec : BayDecode
  wp : WritePath
  srv : Servo
  spn : Spindle
  sld : StepAxis
  seq : Seq
  /-- Q-n and S-n held in reset after a missed service word; 16 R437; reset held until BOOT ends, see the engine field of the Keel. -/
  qHeld : Bool
  sHeld : Bool
  deriving DecidableEq, Repr

/-- A bay at power-on. -/
def Bay.reset : Bay :=
  { afe := .reset, rc := .reset, dec := .reset, wp := .reset, srv := .reset, spn := .reset, sld := .reset, seq := .reset,
    qHeld := true, sHeld := true }

end Sys2Proof.Machine
end

