-- ==== Sys2Proof/Config.lean ====
section
/-! DEFINITION. What an RKZ-8416 fixes once: the constants of Tables 0.1, 17.2 and 11.10, and the values the spec leaves open, each an opaque constant with no body, so that no proof can see what it is. -/

namespace Sys2Proof.Config

/-! ### Constants of stepping B1 and release 3.2 (R15, Table 17.2) -/

/-- Device number (Table 17.2). -/
def deviceNumber : BitVec 16 := 0x8416

/-- Silicon stepping (Table 17.2). -/
def stepping : BitVec 8 := 0xB1

/-- BAR0 layout revision (Table 17.2, MAP_REV). -/
def mapRev : BitVec 16 := 0x0302

/-- Event sources of the device: 0x000 to 0x47F (R12). -/
def sources : Nat := 1152

/-- Records of the firmware event queue (R417). -/
def eventCapacity : Nat := 1024

/-- Entries of the firmware event queue kept for Error and Critical records (R417). -/
def eventReserve : Nat := 256

/-- Blocks of the Reel (R422). -/
def reelBlocks : Nat := 8192

/-- Sectors of a cluster (00_scope.md, Units). -/
def sectorsPerCluster : Nat := 16

/-- Bytes of user data of a cluster. -/
def clusterBytes : Nat := 65536

/-- The last LBA of a volume (R287). -/
def lastLba : Nat := 0x15FFFFFF

/-- Volumes a device holds at most (R289). -/
def maxVolumes : Nat := 1024

/-! ### Free values: what the spec leaves open -/

/-- The identity number fused into the device (Table 17.2); log entry 3. -/
opaque identity : BitVec 32

/-- The SHA-384 digest of bytes, 48 bytes, in the order of Table 16.6 (R440). Opaque: the model computes no hash (log entry 116). -/
opaque sha384 : List Byte → List Byte

/-- The fuses: the digest of each of the four public keys, none where it is revoked or was never written (R440; log entry 116). -/
opaque fuseHash : Fin 4 → Option (List Byte)

/-- The ECDSA P-384 signature of a message verifies under a public key (R440). Opaque: the model computes no signature (log entry 116). -/
opaque signatureVerifies : (key message signature : List Byte) → Bool

/-- The write strategy set that the running image carries (R155); log entry 5. -/
opaque imageStrategySet : List Byte

/-- The byte layout of snapshot block `k` of a Reel record whose latched registers, in the order of Table 15.4, have
the values given; log entry 6. -/
opaque snapshotLayout : (k : Nat) → (latched : List Int) → BitVec 512

/-- The way that the 16-bit replacement register of R378 chooses; log entry 7. -/
opaque victimWay : BitVec 16 → Fin 16

/-- The address of the first buffer of a Ballast pool, where the pools have the sizes given in MiB; log entry 32. -/
opaque poolBase : (sizes : List Nat) → (pool : Nat) → Nat

/-- Which entry of its on-chip cache a Ballast pool gives out, for its `n`-th allocation; log entry 8. -/
opaque ballastPick : (pool n : Nat) → Nat

/-- The index of a fresh reassembly entry where several are free, for the `n`-th choice; log entry 9. -/
opaque entryStart : (n : Nat) → Nat

/-- An integer result that the spec leaves open, by its use and a counter; log entry 11. -/
opaque freeInt : (use n : Nat) → Int

/-- Whether a value that the spec leaves unrounded, in the use named, is rounded up to the next whole number; log entry 92. -/
opaque roundsUp : (use : Nat) → (value : Rat) → Bool

/-! ### Laws of the lane data path that the spec leaves open; log entry 94 -/

/-- Tap `tap` of phase `phase` of the interpolator's 8-tap, 64-phase filter (R89). -/
opaque polyphase : (phase tap : Nat) → Rat

/-- The phase error of a channel bit, before it is held within ±0.5, from equalised samples and NRZ decisions or the known
preamble pattern, newest first (R90). -/
opaque phaseError : (samples : List Rat) → (decisions : List Int) → Rat

/-- Whether the last interpolated samples, newest first, match the 4T pattern (R92). -/
opaque preambleMatch : (samples : List Rat) → Bool

/-- The correction of the interpolator phase, in channel bits, from the 8-channel-bit component of the last 32 channel bit
periods (R92). -/
opaque zeroPhase : (samples : List Rat) → Rat

/-- How the known preamble pattern aligns, modulo 8, by the same component (R92). -/
opaque preambleAlign : (samples : List Rat) → Nat

/-- The errors by which g, o and q adapt, from the target's long-run level, an equaliser output, level-stage outputs and
decisions, newest first (R95). -/
opaque levelError : (which : Nat) → (long : Int) → (z : Rat) → (ys : List Rat) → (decisions : List Int) → Rat

/-- The size of a soft value from the difference of its two path metrics (R108). -/
opaque softSize : Rat → Nat

/-- Tap `tap` of the 4-tap linear interpolator that resamples a neighbour's decisions at a phase (R107). -/
opaque resampleTap : (phase : Rat) → (tap : Nat) → Rat

/-! ### Laws of the servo that the spec leaves open; log entry 103 -/

/-- The discrete form of a loop's compensator (R174): for the loop (0 focus, 1 tracking, 2 tilt), its crossover in Hz and its KA or KS,
from its filter states, integrator and error, its output, next filter states and next integrator. -/
opaque servoLaw : (loop fc k : Nat) → (filter : List Rat) → (integ : Int) → (err : Rat) → Rat × List Rat × Int

/-- The address bit read from a wobble unit whose first 8 cycles are neither all plain nor all inverted (R39); log entry 103. -/
opaque unitBit : (phases : BitVec 16) → Bool

/-- How far a ramp has come at a fraction of its time: 0 the raised-cosine ramp of R193, 1 the ramp of the tracking drive to 0 in a
sled seek (R186). -/
opaque rampShape : (ramp : Nat) → (x : Rat) → Rat

/-! ### Laws of the drives that the spec leaves open; log entry 104 -/

/-- An entry of the 1,024-entry sine table (R211). -/
opaque sineTable : (entry : Nat) → Rat

/-- The sine of a fraction of a turn, as the bridges of a stepper are driven (R226). -/
opaque sineTurn : (turn : Rat) → Rat

/-- The discrete form of a current law (R214): for SPN.CUR_BW in Hz, SPN.MOTOR_R in mΩ and SPN.MOTOR_L in µH, from its integrator and
its error in mA, its output in mV and its next integrator. -/
opaque currentLaw : (bw r l : Nat) → (integ err : Rat) → Rat × Rat

/-- The back-EMF observer (R220): for SPN.MOTOR_R and SPN.MOTOR_L, the dead time and the supply, from its states, the commanded phase
voltages and the phase currents, its next states, the angle in 1/65,536 of an electrical revolution, the speed in 0.01 rpm and
the loop error in degrees. -/
opaque observer : (settings : List Nat) → (states volts currents : List Rat) → List Rat × Nat × Int × Rat

/-! ### What the NAND holds that the spec lays out nowhere; log entry 109 -/

/-- The read retry level that the part table of the boot image gives a retention class (R333). -/
opaque retryLevel : (cls : Nat) → Nat

/-- The data of sector `sector` of the journal or checkpoint page with the program sequence given (R340, R342). -/
opaque metadataSector : (progSeq sector : Nat) → SectorData

/-! ### The layout of the DRAM code that the spec leaves open; log entry 108 -/

/-- The bits of the data byte at an offset of a block that an error of the 80 symbols inverts (R361). -/
opaque dramFlips : (errors : List Nat) → (offset : Nat) → BitVec 8

/-! ### Laws of the pulse train that the spec leaves open; log entry 95 -/

/-- The level between the top pulse and the last pulse of a mark of the class given, where no middle follows (R156). -/
opaque pulseRest : (cls : Nat) → Fin 4

/-- Whether the cooling of a mark of the class given begins at the end of its top pulse where it has neither middle nor last
pulse, rather than at its trailing edge (R156). -/
opaque coolsAtTop : (cls : Nat) → Bool

/-- Which of the edges that fall in one channel bit period, earliest first, its one symbol carries (R153). -/
opaque pulseEdge : (levels : List Nat) → Nat

end Sys2Proof.Config
end

