-- ==== Sys2Proof/Machine/HostState.lean ====
section
/-! DEFINITION. The state of the two host ports, the outstanding commands, volumes, mailbox, event path, Reel, diagnostics, modes, resets, boot and clocks. Every field's docstring names its width or type, the rule that gives it, and its value at power-on reset. -/

namespace Sys2Proof.Machine

/-! ### Event records (15_events_and_diagnostics.md) -/

/-- An event as a unit raises it (R12, R413): 11-bit source ID, severity, payload bytes under R415, the device time of
its raising, and the registers of Table 15.4 latched at it (R422). -/
structure Raised where
  src : Nat
  sev : Severity
  payload : List Byte
  time : BitVec 64
  latched : List Int
  deriving DecidableEq, Repr

/-- The tally of drops of a queue or ring since its last summary (R418). -/
structure Tally where
  /-- drops by severity, Info to Critical, 16 bits each saturating; 15 R418; reset 0. -/
  counts : Vector Nat 5
  /-- lowest and highest source dropped, 16 bits; 15 R418; reset 0. -/
  lo : Nat
  hi : Nat
  /-- device times of the first and last drop, 64 bits; 15 R418; reset 0. -/
  first : BitVec 64
  last : BitVec 64
  deriving DecidableEq, Repr

/-- An empty tally. -/
def Tally.reset : Tally := { counts := Vector.replicate 5 0, lo := 0, hi := 0, first := 0, last := 0 }

/-- A record of the firmware event queue (Table 15.2). -/
structure EvRecord where
  /-- sequence number, 32 bits; 15 R414; no reset value of its own: the queue is empty at reset. -/
  seq : BitVec 32
  /-- source ID, 11 bits; 15 Table 15.2. -/
  src : Nat
  /-- severity; 15 Table 15.2. -/
  sev : Severity
  /-- lost-events summary flag; 15 R418. -/
  summary : Bool
  /-- summary made by a host ring; 15 R418. -/
  byRing : Bool
  /-- occurrences, 16 bits saturating; 15 R416. -/
  occ : Nat
  /-- device times of the first and latest occurrence, 64 bits; 15 Table 15.2. -/
  first : BitVec 64
  latest : BitVec 64
  /-- payload of the first occurrence, up to 36 bytes; 15 R415. -/
  payload : List Byte
  /-- a later occurrence carried a different payload; 15 Table 15.2. -/
  differs : Bool
  /-- taken by C3 for port A and for port B; 15 R420. -/
  taken : Vector Bool 2
  deriving DecidableEq, Repr

/-- An entry of the retry log (Table 15.5). -/
structure RetryEntry where
  time : BitVec 64
  src : Nat
  kind : Nat
  persistent : Bool
  action : Nat
  identity : BitVec 64
  seq : BitVec 32
  deriving DecidableEq, Repr

/-- The event path, the Reel, the retry log and the diagnostic test. -/
structure EventPath where
  /-- events raised and not yet placed, oldest first; 15 R414; reset empty. -/
  raised : List Raised
  /-- the firmware event queue, oldest first, 1,024 records of 64 bytes; 15 R414; reset empty. -/
  queue : List EvRecord
  /-- the next sequence number, 32 bits; 15 R414; reset 0. -/
  nextSeq : BitVec 32
  /-- tally of the firmware queue; 15 R418; reset 0. -/
  tally : Tally
  /-- drop counters that differ from 0, by source, 32 bits saturating; 15 R419; reset 0. -/
  drops : List (Nat × Nat)
  /-- Reel blocks, 64 bytes each, oldest first, at most 8,192; 15 R422; reset empty. -/
  reel : List (BitVec 512)
  /-- block the Reel writes next, 13 bits; 17 Table 17.7; reset 0. -/
  reelNext : Nat
  /-- the Reel has wrapped; 17 R460; reset 0. -/
  reelWrapped : Bool
  /-- Reel record number, 32 bits; 15 Table 15.3; reset 0. -/
  reelRecord : BitVec 32
  /-- time of the last Reel record of each source and severity; 15 R422; reset none. -/
  reelLast : List (Nat × BitVec 64)
  /-- the Reel is frozen; 15 R423; reset thawed. -/
  reelFrozen : Bool
  /-- a trigger record awaits or has completed its post records; 17 Table 17.7; reset 0. -/
  trigSeen : Bool
  /-- post records left and the cause to report at the freeze; 15 R423; reset none. -/
  postLeft : Option (Nat × Nat)
  /-- transient outcomes of each unit kind, 16 bits saturating; 15 R426; reset 0. -/
  transients : Vector Nat 11
  /-- persistent outcomes of each unit kind, 16 bits saturating; 15 R426; reset 0. -/
  persistents : Vector Nat 11
  /-- the latest 4,096 retry entries, oldest first; 15 R426; reset empty. -/
  retries : List RetryEntry
  /-- test word of EVT.DIAG_RUN: code, target, extent; 15 R427; reset 0. -/
  diagWord : BitVec 32
  /-- state of EVT.DIAG_RESULT, 3 bits; 15 R427; reset 0 idle. -/
  diagState : Nat
  /-- failure count of EVT.DIAG_RESULT, 16 bits; 15 R427; reset 0. -/
  diagFails : BitVec 16
  /-- the model's own: events raised, which draw the snapshot registers that have no other place (log entry 113); reset DESIGN CHOICE 0. -/
  latches : Nat
  deriving DecidableEq, Repr

/-- The event path at power-on. -/
def EventPath.reset : EventPath :=
  { raised := [], queue := [], nextSeq := 0, tally := .reset, drops := [], reel := [], reelNext := 0,
    reelWrapped := false, reelRecord := 0, reelLast := [], reelFrozen := false, trigSeen := false, postLeft := none,
    transients := Vector.replicate 11 0, persistents := Vector.replicate 11 0, retries := [], diagWord := 0,
    diagState := 0, diagFails := 0, latches := 0 }

/-! ### Ports (11_host_interface.md, 17_host_visible_registers.md) -/

/-- Queue pair `q` of a port (R279 to R284, Tables 17.8 and 17.9). -/
structure QueuePair where
  /-- ENABLE, 1 bit; 17 Table 17.9; reset 0. -/
  enabled : Bool
  /-- HALTED, 1 bit; 11 R278; reset 0. -/
  halted : Bool
  /-- submission ring base [63:12], 52 bits; 17 Table 17.9; reset 0. -/
  sqBase : BitVec 52
  /-- completion ring base [63:12], 52 bits; 17 Table 17.9; reset 0. -/
  cqBase : BitVec 52
  /-- ENTRIES, 13 bits; 17 Table 17.9; reset 0. -/
  entries : BitVec 13
  /-- VECTOR, 7 bits; 17 Table 17.9; reset 0. -/
  vector : BitVec 7
  /-- AGG_COUNT, 8 bits; 17 Table 17.9; reset 0. -/
  aggCount : BitVec 8
  /-- AGG_TIME, 8 bits, 10 µs units; 17 Table 17.9; reset 0. -/
  aggTime : BitVec 8
  /-- SQ_TAIL, 12 bits; 17 Table 17.8; reset 0. -/
  sqTail : BitVec 12
  /-- CQ_HEAD, 12 bits; 17 Table 17.8; reset 0. -/
  cqHead : BitVec 12
  /-- SQ_HEAD, 12 bits; 17 Table 17.9; reset 0. -/
  sqHead : BitVec 12
  /-- CQ_TAIL, 12 bits; 17 Table 17.9; reset 0. -/
  cqTail : BitVec 12
  /-- PHASE, 1 bit; 17 Table 17.9; reset 0, 1 when enabled. -/
  phase : Bool
  /-- completion slots reserved for commands fetched and not yet completed; 11 R282; reset 0. -/
  reserved : Nat
  /-- EV_DOORBELL_RANGE raised since the pair was last reset or enabled; 11 R281; reset 0. -/
  rangeRaised : Bool
  /-- records posted since the pair's last signal; 11 R284; reset 0. -/
  unsignalled : Nat
  deriving DecidableEq, Repr

/-- A queue pair after power-on or port reset. -/
def QueuePair.reset : QueuePair :=
  { enabled := false, halted := false, sqBase := 0, cqBase := 0, entries := 0, vector := 0, aggCount := 0, aggTime := 0,
    sqTail := 0, cqHead := 0, sqHead := 0, cqTail := 0, phase := false, reserved := 0, rangeRaised := false,
    unsignalled := 0 }

/-- An entry of the MSI-X table (Table 17.10). -/
structure MsixEntry where
  /-- ADDRESS [63:2], 62 bits; 17 Table 17.10; reset 0. -/
  addr : BitVec 62
  /-- DATA, 32 bits; 17 Table 17.10; reset 0. -/
  data : BitVec 32
  /-- MASK, 1 bit; 17 Table 17.10; reset 1. -/
  mask : Bool
  deriving DecidableEq, Repr

/-- A completion record (Table 11.2) without the fields that its ring fixes when it is written. -/
structure Completion where
  queue : QueueNo
  cid : BitVec 16
  result : BitVec 64
  status : Byte
  deriving DecidableEq, Repr

/-- The event ring of a port (Table 17.6). -/
structure EvRing where
  /-- EVR_BASE [63:12], 52 bits; 17 Table 17.6; reset 0. -/
  base : BitVec 52
  /-- ENABLE, 1 bit; 17 Table 17.6; reset 0. -/
  enabled : Bool
  /-- ENTRIES, 13 bits; 17 Table 17.6; reset 0. -/
  entries : BitVec 13
  /-- HEAD, 12 bits; 17 Table 17.6; reset 0. -/
  head : BitVec 12
  /-- TAIL, 12 bits; 17 Table 17.6; reset 0. -/
  tail : BitVec 12
  /-- PHASE, 1 bit; 17 Table 17.6; reset 0. -/
  phase : Bool
  /-- tally of drops from this ring; 15 R418; reset 0. -/
  tally : Tally
  /-- vector 0 is due for records below Error; 15 R420; reset 0. -/
  signalDue : Bool
  /-- within 100 µs of the last such signal; 15 R420; reset 0. -/
  signalHold : Bool
  deriving DecidableEq, Repr

/-- An event ring after power-on or port reset. -/
def EvRing.reset : EvRing :=
  { base := 0, enabled := false, entries := 0, head := 0, tail := 0, phase := false, tally := .reset,
    signalDue := false, signalHold := false }

/-- What a mailbox request in progress waits for (R305 to R314). -/
inductive MbxWait where
  | format (vid : VolId) (certify remap : Bool)
  | sanitize
  | activate
  | join
  | leave
  | delete (vid : VolId) (discard : Bool)
  | moveDisc
  | answer (status : Byte)   -- decided; the response is posted when the device next serves the mailbox (R265)
  deriving DecidableEq, Repr

/-- A mailbox request taken and not yet answered: its header, what it waits for, and whether a port reset has dropped
its response (Table 11.7). -/
structure MbxRun where
  opcode : BitVec 16
  target : BitVec 16
  tag : BitVec 16
  wait : MbxWait
  dropped : Bool
  deriving DecidableEq, Repr

/-- The mailbox of a port (Table 17.5). -/
structure Mailbox where
  /-- MBX_REQ_0 to 7, 512 bits; 17 Table 17.5; reset 0. -/
  req : BitVec 512
  /-- MBX_RSP_0 to 7, 512 bits; 17 Table 17.5; reset 0. -/
  rsp : BitVec 512
  /-- BUSY, 1 bit; 17 Table 17.5; reset 0. -/
  busy : Bool
  /-- DONE, 1 bit; 17 Table 17.5; reset 0. -/
  done : Bool
  /-- OVERRUN, 1 bit; 17 Table 17.5; reset 0. -/
  overrun : Bool
  /-- HELD, 1 bit; 17 Table 17.5; reset 0. -/
  held : Bool
  /-- the request in progress that has not been answered yet; 11 R305; reset none. -/
  run : Option MbxRun
  deriving DecidableEq, Repr

/-- A mailbox after power-on or port reset. -/
def Mailbox.reset : Mailbox :=
  { req := 0, rsp := 0, busy := false, done := false, overrun := false, held := false, run := none }

/-- A host port (R274). -/
structure PortState where
  /-- queue pairs 0 to 63; 11 R279; reset disabled. -/
  queues : Vector QueuePair 64
  /-- the pair last served by arbitration, 6 bits; 11 R282; reset 63, so that pair 0 is first, DESIGN CHOICE (log entry 2). -/
  lastServed : QueueNo
  /-- MSI-X table, 65 entries; 17 R463; reset masked. -/
  msix : Vector MsixEntry 65
  /-- MSI-X pending bits, 65 bits; 17 R463; reset 0. -/
  pending : BitVec 65
  /-- MSI-X Enable of configuration space, 1 bit; 17 R463; reset PRESUMED 0, PCI Express (log entry 12). -/
  msixEnable : Bool
  /-- MSI-X Function Mask of configuration space, 1 bit; 17 R463; reset PRESUMED 0, PCI Express (log entry 12). -/
  msixMask : Bool
  /-- Enable Relaxed Ordering, 1 bit; 11 R276; reset PRESUMED 1, PCI Express (log entry 12). -/
  relaxed : Bool
  /-- link trained; 11 R274; reset down. -/
  linkUp : Bool
  /-- LINK_GEN, 3 bits; 17 Table 17.3; reset 0. -/
  linkGen : Nat
  /-- LINK_WIDTH, 4 bits; 17 Table 17.3; reset 0. -/
  linkWidth : Nat
  /-- PEx_PERST_N is low; 11 Table 11.6; reset 0. -/
  perst : Bool
  /-- D_STATE: D3hot; 17 Table 17.3; reset D0. -/
  d3hot : Bool
  /-- completion records held in D3hot, oldest first; 11 R277; reset empty. -/
  held : List Completion
  /-- MSI-X vectors held in D3hot; 11 R277; reset empty. -/
  heldVectors : List Nat
  /-- mailbox; 17 R456; reset 0. -/
  mbx : Mailbox
  /-- event ring; 17 R458; reset disabled. -/
  ring : EvRing
  /-- Alarm Summary, 1,152 bits; 17 R459; reset 0. -/
  alarm : BitVec 1152
  /-- REEL_CURSOR, 13 bits; 17 Table 17.7; reset 0. -/
  cursor : BitVec 13
  deriving DecidableEq, Repr

/-- A port at power-on reset. -/
def PortState.reset : PortState :=
  { queues := Vector.replicate 64 .reset, lastServed := 63,
    msix := Vector.replicate 65 { addr := 0, data := 0, mask := true }, pending := 0, msixEnable := false,
    msixMask := false, relaxed := true, linkUp := false, linkGen := 0, linkWidth := 0, perst := false, d3hot := false,
    held := [], heldVectors := [], mbx := .reset, ring := .reset, alarm := 0, cursor := 0 }

/-- A cell of the Bridle (Table 17.4): owner 0 free, 1 port A, 2 port B, and the count of claims. -/
structure BridleCell where
  /-- OWNER, 8 bits; 17 Table 17.4; reset 0. -/
  owner : BitVec 8
  /-- CLAIMS, 56 bits; 17 Table 17.4; reset 0. -/
  claims : BitVec 56
  deriving DecidableEq, Repr

/-! ### Outstanding commands and volumes (11_host_interface.md) -/

/-- What an outstanding command waits for. -/
inductive CmdWait where
  | none
  | mount          -- the auto-mount wait of R293, or a Mount
  | space          -- the staging space wait of R291
  | mirror (msg : BitVec 32)  -- the mirror commit of R398
  | staged         -- its clusters' NAND programs (R23, R294)
  | disc           -- its clusters of a disc (Read, Verify) or its destage (R295)
  | unmount        -- an unmount (R241)
  | forwarded      -- the peer's completion (R399)
  deriving DecidableEq, Repr

/-- An I/O command that has been fetched and not completed (R285, Table 11.3). -/
structure Cmd where
  id : CmdId
  /-- the ordinal of its fetch, over both ports. -/
  order : Nat
  opcode : Byte
  flags : Byte
  vid : VolId
  lba : Nat
  count : Nat
  addr : BitVec 64
  len : BitVec 32
  spec : BitVec 64
  /-- the extents of its data, the inline one or those its list held; 11 R286. -/
  exts : List Extent
  /-- no earlier overlapping command of its queue remains (R296). -/
  eligible : Bool
  /-- started under R299. -/
  started : Bool
  /-- its completion record is dropped: its queue or port was reset after it started (R301). -/
  dropped : Bool
  wait : CmdWait
  /-- durability code of its volume at its fetch; 11 R290. -/
  code : Byte
  /-- the data of a forwarded Write (R399). -/
  data : List SectorData
  /-- some sector was recovered by an identical retry or the ladder (R138): status 0x01. -/
  retried : Bool
  /-- sectors given their final status so far, by LBA (Read, Verify). -/
  done : List (Nat × Byte)
  /-- clusters it covers that have not reached NAND or disc (Flush, Destage), or a Write not yet programmed. -/
  cover : List (VolId × Nat)
  /-- clusters destaged and replaced so far (Destage). -/
  written : Nat
  replaced : Nat
  deriving DecidableEq, Repr

/-- A volume (R289 to R291, R309). -/
structure Volume where
  /-- volume ID, 16 bits; 11 R289. -/
  vid : VolId
  /-- home slot, 16 bits; 11 R289. -/
  slot : BitVec 16
  /-- durability code, 8 bits; 11 R290. -/
  durability : Byte
  /-- remap mode; 11 R311. -/
  remap : Bool
  /-- formatted; 11 R309. -/
  formatted : Bool
  /-- read-only state; 11 R291. -/
  readOnly : Bool
  /-- unclean; 11 R309. -/
  unclean : Bool
  /-- owned by the peer; 11 R309, 14 R389. -/
  ownPeer : Bool
  /-- present location code, 16 bits; 11 R309. -/
  location : BitVec 16
  /-- recorded ranges of user clusters, as (first, count); 11 R291. -/
  ranges : List (Nat × Nat)
  /-- its ranges are known: it was mounted by this device once; 11 R291. -/
  known : Bool
  /-- the next unused replacement ordinal as its disc's set gives it, which decides R58 without the disc; 11 R291. -/
  ordinal : Nat
  deriving DecidableEq, Repr

/-! ### Modes, resets, boot and clocks (00, 01, 16) -/

/-- The progress record of Format and Sanitize (R309, R313). -/
structure Progress where
  /-- 0 none, 1 Format, 2 Sanitize; 11 R309. -/
  op : Nat
  /-- 0 idle, 1 running, 2 resumed after power loss, 3 done, 4 failed; 11 R309. -/
  state : Nat
  target : BitVec 16
  steps : Nat
  total : Nat
  cycles : Nat
  status : Byte
  deriving DecidableEq, Repr

/-- No operation. -/
def Progress.reset : Progress := { op := 0, state := 0, target := 0, steps := 0, total := 0, cycles := 0, status := 0 }

/-- The state of a boot slot (R439). -/
inductive SlotSt where
  | empty | valid | trial | bad
  deriving DecidableEq, Repr

/-- A boot slot: its directory record and its image (R439, Table 16.6). -/
structure Slot where
  st : SlotSt
  /-- release, 32 bits. -/
  release : BitVec 32
  /-- image length in bytes. -/
  length : Nat
  commit : Nat
  failed : Nat
  /-- bay interface revision of its image, 16 bits. -/
  bayRev : BitVec 16
  deriving DecidableEq, Repr

/-- The pair role word (Table 14.1). -/
structure RoleWord where
  /-- 0 standalone, 1 first member, 2 second member, 3 sole. -/
  role : BitVec 8
  peer : BitVec 32
  seq : BitVec 24
  deriving DecidableEq, Repr

/-- The role word of a standalone device. -/
def RoleWord.reset : RoleWord := { role := 0, peer := 0, seq := 0 }

/-- A record of the slot directory (R439). -/
structure Directory where
  /-- image slots 0 and 1. -/
  slots : Vector Slot 2
  /-- preferred slot. -/
  preferred : Fin 2
  /-- sequence of the record. -/
  seq : Nat
  deriving DecidableEq, Repr

/-- The boot flash (R438, R439): kept across every reset. -/
structure BootFlash where
  /-- the latest record of copies A and B of the slot directory; 16 R439; reset DESIGN CHOICE: slot 0 preferred and valid with release
  3.2, slot 1 empty, sequence 1 (log entry 13). -/
  dirs : Vector Directory 2
  /-- persistent pair record, none when cleared; 14 R389; reset DESIGN CHOICE none (log entry 13). -/
  pairRecord : Option RoleWord
  /-- volumes that the pair record lists as its own; 14 R406; reset empty. -/
  pairVolumes : List VolId
  /-- progress record; 11 R313; reset DESIGN CHOICE none (log entry 13). -/
  progress : Progress
  /-- retired-page list, at most 4,096 page numbers; 13 R371; reset DESIGN CHOICE empty (log entry 13). -/
  retiredPages : List Nat
  /-- parameter values that the board table of the boot image gives, keyed as in Params; 16 Table 16.3; reset DESIGN CHOICE
  none, so every default holds (log entry 13). -/
  board : List (Nat × Int)
  deriving DecidableEq, Repr

/-- The boot flash as the model finds it. -/
def BootFlash.reset : BootFlash :=
  { dirs := Vector.replicate 2
      { slots := #v[{ st := .valid, release := 0x03020000, length := 15724544, commit := 1, failed := 0, bayRev := 1 },
                    { st := .empty, release := 0, length := 0, commit := 0, failed := 0, bayRev := 0 }],
        preferred := 0, seq := 1 },
    pairRecord := none, pairVolumes := [], progress := .reset, retiredPages := [],
    board := [] }

/-- A firmware image being downloaded (R314). -/
structure Download where
  /-- bytes received; 11 R314. -/
  bytes : List Byte
  /-- the last chunk has arrived; 11 R314. -/
  complete : Bool
  port : Port
  /-- discarded by a port reset: a chunk that continues it returns 0x40; 11 R314. -/
  discarded : Bool
  deriving DecidableEq, Repr

/-- An activation under way (R444). -/
structure Activation where
  /-- port whose request it answers, none where no request waits. -/
  port : Option Port
  release : BitVec 32
  slot : Fin 2
  bayRev : BitVec 16
  /-- a planned hand-over is part of it (R409), and ownership has been passed. -/
  handover : Bool
  passed : Bool
  /-- device time at which fetching stopped. -/
  start : BitVec 64
  deriving DecidableEq, Repr

/-- Causes of a Ripcord, in the order in which 16_power_clocks_reset_boot.md names them. -/
inductive RipcordCause where
  | watchdog | lockstep | refclk | rootPll
  deriving DecidableEq, Repr

/-- The device-wide control state. -/
structure Sys where
  /-- device mode; 00 R6; reset OFF. -/
  mode : Mode
  /-- mode that QUIESCE, ACTIVATE or SANITIZE came from; 01 R29; reset STANDALONE. -/
  cameFrom : Mode
  /-- mode VENT was entered from; 01 R29; reset STANDALONE. -/
  ventFrom : Mode
  /-- Vent: the sequencer has finished; 12 R346; reset 0. -/
  ventDone : Bool
  /-- the Keel watchdog expired during the Vent; 01 R30; reset 0. -/
  ventWatchdog : Bool
  /-- a takeover was detected during the Vent; 01 R30; reset 0. -/
  ventTakeover : Bool
  /-- role word was not 0 when VENT was entered; 01 Table 1.7; reset 0. -/
  ventPaired : Bool
  /-- bytes vented and start time of the Vent; 12 Table 12.11; reset 0. -/
  ventBytes : Nat
  ventStart : BitVec 64
  /-- DEVICE_TIME, 64 bits, µs; 17 Table 17.2; reset 0. -/
  time : BitVec 64
  /-- PORST_N low or a rail below its threshold; 16 Table 16.3; reset 1. -/
  porst : Bool
  /-- DRAM fill complete since power-on reset; 13 R366; reset 0. -/
  filled : Bool
  /-- image running; 16 R442; reset 0. -/
  imageRuns : Bool
  /-- no slot was accepted at this boot; 16 R442; reset 0. -/
  noImage : Bool
  /-- staging recovery has run since BOOT began; 12 R343; reset 0. -/
  recovered : Bool
  /-- device time at which staging recovery could begin, µs; 12 R343; reset 0. -/
  recoverFrom : BitVec 64
  /-- the warm flush of R344 is to run before recovery; 12 R344; reset 0. -/
  warmFlushDue : Bool
  /-- RELEASE of the running image, 32 bits; 17 Table 17.2; reset 0. -/
  release : BitVec 32
  /-- running slot; 16 Table 16.10; reset 0. -/
  runSlot : Fin 2
  /-- bay interface revision of the running image; 16 R443; reset 0. -/
  bayRev : BitVec 16
  /-- reset cause [3:0]; 16 Table 16.10; reset 0. -/
  resetCause : Nat
  /-- PLLs locked: root, DDR, NAND, PCIe, Tether; 16 Table 16.10; reset unlocked. -/
  pll : Vector Bool 5
  /-- on the internal oscillator; 16 R433; reset 0. -/
  onOsc : Bool
  /-- Keel, PWM and handler domains on REFCLK; 01 R28; reset 0. -/
  onRefclk : Bool
  /-- NAND groups on root ÷ 10; 16 R433; reset 0. -/
  nandSlow : Bool
  /-- PLL losses not restored by a warm reset yet; 16 R433; reset none. -/
  pllLost : Vector Bool 5
  /-- a warm reset waits for REFCLK and the PLLs; 16 R436; reset 0. -/
  resetWaits : Bool
  /-- service words written in this period by C0 to C3; 16 R436; reset 0. -/
  serviced : Vector Bool 4
  /-- K0 and K1 stopped by a mismatch; 01 R20; reset 0. -/
  keelStopped : Bool
  /-- Ripcord park under way; 16 R436; reset 0. -/
  parking : Bool
  /-- Ripcord park ended, hold running; 16 R436; reset 0. -/
  parked : Bool
  /-- F and M engines held in reset; 16 R437; reset held. -/
  fHeld : Vector Bool 4
  mHeld : Vector Bool 2
  /-- bays whose Q and S engines still run the old image; 16 R444; reset none. -/
  oldImage : BitVec 8
  /-- M engines still run the old image; 16 R444; reset 0. -/
  oldMotion : Bool
  /-- activation under way; 16 R444; reset none. -/
  activation : Option Activation
  /-- image being downloaded; 11 R314; reset none. -/
  download : Option Download
  /-- slot to name preferred at the next directory write; 16 Table 16.10 (PWR.PREFERRED_SLOT); reset none. -/
  preferDue : Option (Fin 2)
  /-- port of the last device-wide mailbox request served; 11 R307; reset port B, so that A is first, DESIGN CHOICE (log entry 2). -/
  lastMbxPort : Port
  /-- PWRFAIL_N accepted active; 16 R445; reset inactive. -/
  pwrfail : Bool
  /-- last hold-up code, 10 bits; 16 R446; reset DESIGN CHOICE 0 (log entry 2). -/
  holdup : BitVec 10
  /-- conversions below the limit in a row; 16 R446; reset 0. -/
  holdupLow : Nat
  /-- EV_HOLDUP_LOW raised and not re-armed, with conversions above the limit since; 16 R446; reset 0. -/
  holdupRaised : Bool
  holdupHigh : Nat
  /-- PWR.TJ, °C; 16 R447; reset DESIGN CHOICE 0 (log entry 2). -/
  tj : Int
  /-- EV_THERMAL_WARN raised and Updraft stopped; 16 R447; reset 0. -/
  hot : Bool
  /-- format and sanitize progress, the triplicated copy; 11 R313; reset none. -/
  progress : Progress
  /-- sanitize action; 11 R312; reset 0. -/
  sanitizeAction : Nat
  /-- fetch ordinals given so far; 11 R296; reset 0. -/
  fetched : Nat
  /-- data sequence last given, 48 bits; 12 R323; reset DESIGN CHOICE 0 on blank NAND (log entry 2). -/
  dataSeq : Nat
  /-- program sequence last given, 48 bits; 12 R323; reset DESIGN CHOICE 0 on blank NAND (log entry 2). -/
  progSeq : Nat
  /-- disc identifier count of Formats, 32 bits; 02 R60; reset DESIGN CHOICE 0 (log entry 2). -/
  formats : BitVec 32
  /-- boot straps of the SMBus address, 2 bits; 18 R482; reset DESIGN CHOICE 0 (log entry 2). -/
  straps : BitVec 2
  /-- JTAG instruction register, 0 BYPASS, 1 IDCODE, 2 SAMPLE/PRELOAD, 3 EXTEST; 18 R482; reset IDCODE. -/
  jtagIr : Nat
  /-- boundary-scan cells; 18 R482; reset DESIGN CHOICE empty (log entry 2). -/
  jtagCells : List Bool
  /-- pins driven by the boundary-scan cells; 18 R482; reset 0. -/
  extest : Bool
  /-- the model's counter of free values; reset DESIGN CHOICE 0 (log entry 14). -/
  freeCount : Nat
  deriving DecidableEq, Repr

/-- Device-wide control state at power-on reset. -/
def Sys.reset : Sys :=
  { mode := .off, cameFrom := .standalone, ventFrom := .standalone, ventDone := false, ventWatchdog := false,
    ventTakeover := false, ventPaired := false, ventBytes := 0, ventStart := 0, time := 0, porst := true, filled := false,
    imageRuns := false, noImage := false, recovered := false, recoverFrom := 0, warmFlushDue := false, release := 0, runSlot := 0,
    bayRev := 0, resetCause := 0, pll := Vector.replicate 5 false, onOsc := false, onRefclk := false, nandSlow := false,
    pllLost := Vector.replicate 5 false, resetWaits := false, serviced := Vector.replicate 4 false,
    keelStopped := false, parking := false, parked := false, fHeld := Vector.replicate 4 true,
    mHeld := Vector.replicate 2 true, oldImage := 0, oldMotion := false, activation := none, download := none, preferDue := none,
    lastMbxPort := 1, pwrfail := false, holdup := 0, holdupLow := 0, holdupRaised := false, holdupHigh := 0, tj := 0,
    hot := false, progress := .reset, sanitizeAction := 0, fetched := 0, dataSeq := 0, progSeq := 0, formats := 0,
    straps := 0, jtagIr := 1, jtagCells := [], extest := false, freeCount := 0 }

/-- The parameters (R10, R11): values last accepted and in force, where they have been set, keyed
`instance × 65536 + ID` with instance 8 for parameters above bay level. -/
structure Params where
  /-- values last accepted since power-on reset; 00 R11; reset none, so every default holds. -/
  accepted : List (Nat × Int)
  /-- values in force, where one has been set; 00 R11; reset none. -/
  inForce : List (Nat × Int)
  /-- WR.STRATEGY_SET last accepted, none for the image set; 06 R155; reset none. -/
  strategy : Option (List Byte)
  /-- WR.STRATEGY_SET in force in each bay since its mount; 06 R155; reset none. -/
  strategyInForce : Vector (Option (List Byte)) 8
  /-- HND.POSITION_TABLE: X, Z, θ of the entries present, by entry number; 10 R259; reset none. -/
  positions : Option (List (Nat × Int × Int × Int))
  /-- HND.POSITION_TABLE bytes as accepted; 10 R259; reset none. -/
  positionBytes : List Byte
  deriving DecidableEq, Repr

/-- Every parameter at its default. -/
def Params.reset : Params :=
  { accepted := [], inForce := [], strategy := none, strategyInForce := Vector.replicate 8 none,
    positions := none, positionBytes := [] }

end Sys2Proof.Machine
end

