-- ==== Sys2Proof/Machine/StoreState.lean ====
section
/-! DEFINITION. The state of the units all bays share: decoder pool, magazine handler, staging tier, memory, engine cache, Ballast, and the pair. Every field's docstring names its width or type, the rule that gives it, and its value at power-on reset. -/

namespace Sys2Proof.Machine

/-! ### Decoder pool (05_decoding_and_scratch_recovery.md) -/

/-- A codeword submitted to the pool (Table 5.1): its bay, reassembly entry and index, with the tags of its descriptor. -/
structure Codeword where
  bay : BayNo
  beam : Beam
  entry : Fin 128
  cw : Nat
  cls : CwClass
  /-- the bay's speculation generation for Updraft, 0 otherwise (Table 5.1). -/
  gen : BitVec 32
  seq : BitVec 32
  erased : Nat
  /-- the 18,576 soft values. -/
  soft : List Int
  /-- the decoder check repeat of R124: the decoder that failed it first, which decodes it again. -/
  repeatOf : Option DecNo
  /-- a decoder whose fault on it was persistent, and which does not take it again (R124). -/
  avoid : Option DecNo
  /-- the iteration limit at its dispatch (R122); 0 until then. -/
  limit : Nat
  deriving DecidableEq, Repr

/-- A finished decode in a holding entry (Table 5.1): the submission, the outcome, the iterations, the input decisions changed, and
the codeword. -/
structure DecodeResult where
  cw : Codeword
  converged : Bool
  iters : Nat
  corrected : Nat
  word : BitVec 18576
  deriving DecidableEq, Repr

/-- A decoder (R120, R129). -/
structure Decoder where
  /-- in service; 05 R124; reset in service. -/
  inService : Bool
  /-- its two input buffers, the codeword that is decoding first; 05 R121; reset empty. -/
  input : List Codeword
  /-- results awaiting the collector, at most 2; 05 R129; reset empty. -/
  holding : List DecodeResult
  deriving DecidableEq, Repr

/-- The pool half of a decoder: D0 to D7 in one, D8 to D15 in the other (R120). -/
def poolHalf (d : DecNo) : Fin 2 := ⟨d.val / 8, by omega⟩

/-- The decoder pool. -/
structure Pool where
  /-- decoders D0 to D15; 05 R120; reset idle. -/
  decs : Vector Decoder 16
  /-- codewords waiting, by class and bay, in order of submission; 05 R125; reset empty. -/
  waiting : List Codeword
  /-- bay last served in each class, demand, retry, Updraft; 05 R125; reset 7, so that bay 0 is first, DESIGN CHOICE (log entry 2). -/
  lastBay : Vector BayNo 3
  /-- decoder last served by the collector; 05 R130; reset 15, so that D0 is first, DESIGN CHOICE (log entry 2). -/
  lastDec : DecNo
  deriving DecidableEq, Repr

/-- The pool at power-on. -/
def Pool.reset : Pool :=
  { decs := Vector.replicate 16 { inService := true, input := [], holding := [] }, waiting := [],
    lastBay := Vector.replicate 3 7, lastDec := 15 }

/-! ### Magazine handler (10_magazine_handler.md) -/

/-- The phases of an interpolated move (R254, R255). -/
inductive PathMode where
  | moving | stopping
  deriving DecidableEq, Repr

/-- An interpolated move in progress (R254): positions at its start and its displacement in counts for X, Z and θ, the path
fraction and its velocity. -/
structure PathMove where
  start : Vector Int 3
  disp : Vector Int 3
  /-- path fraction, units of 2⁻⁴⁰ ÷ 1,600,000,000. -/
  s : Int
  /-- path velocity, units of 2⁻⁴⁰ ÷ 40,000 per second. -/
  v : Int
  mode : PathMode
  profile : Profile
  /-- the move rises from 0 after a re-target, with no start step (R255). -/
  fromRest : Bool
  deriving DecidableEq, Repr

/-- A Move Disc in progress (R260 to R262). -/
structure MoveDisc where
  src : BitVec 16
  dst : BitVec 16
  /-- the mailbox port it answers, or none when C2 ordered it or it was forwarded; and the forwarding message. -/
  port : Option Port
  forwarded : Option CmdId
  /-- step under way: 0 homing, 1 to 8 as Table 10.3, then the repeats of R261: 9 the gripper opens, 10 Z rises, 11 the
  gripper closes. -/
  step : Nat
  /-- grips and releases repeated once. -/
  picked : Bool
  released : Bool
  /-- some step was repeated: status 0x01. -/
  repeated : Bool
  /-- stalls in this Move Disc. -/
  stalls : Nat
  /-- stopped by an interlock; resumes under R270. -/
  stopped : Bool
  /-- waits for the peer to report its bay LOADING (R260). -/
  awaitPeer : Bool
  deriving DecidableEq, Repr

/-- A discrete input (R266 to R269). -/
structure InputState where
  /-- filter output, 1 bit; 10 R267; reset 0. -/
  level : Bool
  /-- edge counter, 16 bits saturating; 10 R267; reset 0. -/
  edges : Nat
  /-- quiet interval running; 10 R268; reset 0. -/
  quiet : Bool
  /-- level last reported, and changes counted since; 10 R268; reset 0. -/
  reported : Bool
  counted : Nat
  /-- masked after EV_INPUT_STUCK; 10 R269; reset 0. -/
  masked : Bool
  deriving DecidableEq, Repr

/-- The magazine handler. -/
structure Handler where
  /-- axes X, Z, θ, G; 10 R252; reset at rest, not homed. -/
  axes : Vector StepAxis 4
  /-- interpolated move; 10 R254; reset none. -/
  path : Option PathMove
  /-- target held during a stop of an interpolated move; 10 R255; reset none. -/
  pathHeld : Option (Int × Int × Int)
  /-- stopped by an interlock; 10 R270; reset 0. -/
  stopped : Bool
  /-- a stalled move is to be repeated from the present position; 10 R256; reset 0. -/
  repeatDue : Bool
  /-- the present move is that repeat; 10 R256; reset 0. -/
  repeatUsed : Bool
  /-- target of a stalled move of one axis alone, to repeat; 10 R256; reset none. -/
  axisHeld : Option (AxisNo × Int)
  /-- faulted; 10 R256; reset 0. -/
  faulted : Bool
  /-- Move Disc under way; 10 R261; reset none. -/
  move : Option MoveDisc
  /-- source and destination of a Move Disc of C2 that the peer executes; 14 R399; reset none. -/
  sent : Option (BitVec 16 × BitVec 16)
  /-- slot from which the disc in the gripper came, 0xFFFF where it is not known; 10 R260; reset 0xFFFF. -/
  carried : BitVec 16
  /-- location states that are known: occupied or empty; 10 R260; reset unknown. -/
  locs : List (Nat × LocState)
  /-- HND_OWN output; 10 R263; reset inactive. -/
  own : Bool
  /-- HND_OWN_PEER input; 10 R263; reset DESIGN CHOICE inactive (log entry 2). -/
  ownPeer : Bool
  /-- the encoder quiet wait after taking ownership has passed; 10 R264; reset 0. -/
  quietDone : Bool
  /-- ownership is to be released at standstill, and by a planned release; 10 R265; reset 0. -/
  releaseDue : Bool
  /-- inputs IN0 to IN11; 10 R266; reset low. -/
  inputs : Vector InputState 12
  deriving DecidableEq, Repr

/-- An input at power-on. -/
def InputState.reset : InputState :=
  { level := false, edges := 0, quiet := false, reported := false, counted := 0, masked := false }

/-- The handler at power-on. -/
def Handler.reset : Handler :=
  { axes := Vector.replicate 4 StepAxis.reset, path := none, pathHeld := none, stopped := false, repeatDue := false, repeatUsed := false, axisHeld := none,
    faulted := false, move := none, sent := none,
    carried := 0xFFFF, locs := [], own := false, ownPeer := false, quietDone := false, releaseDue := false,
    inputs := Vector.replicate 12 .reset }

/-! ### Staging tier (12_staging_flash.md) -/

/-- The states of a superblock (R325, R328, R345, R352). -/
inductive SbState where
  | free
  | opened (stream : Fin 4)
  | closed
  | reserve          -- erased, held in the Vent reserve
  | toErase          -- listed to erase
  | blocked          -- a member waits for its replacement (R352)
  deriving DecidableEq, Repr

/-- A superblock that is not free with no erases (R325, R329, R332). -/
structure Superblock where
  lun : Nat
  block : Nat
  st : SbState
  /-- next position: stripe × 16 + channel; 12 R325. -/
  next : Nat
  /-- highest erase count of its members; 12 R329. -/
  erases : Nat
  /-- device time in seconds at its first program; 12 R332. -/
  firstProgram : Nat
  /-- sum of NAND temperatures over its programs, °C, and their count; 12 R332. -/
  tempSum : Int
  programs : Nat
  /-- accumulated age, hours × 360 × 2¹⁶; 12 R332. -/
  age : Nat
  /-- order in which it was closed; 12 R336. -/
  closedAt : Nat
  /-- XOR of the codewords of the stripe being programmed, empty where none has been; 12 R325. -/
  xor : List NandWord
  deriving DecidableEq, Repr

/-- An entry of the staging map with the contents of the cluster it names (R326, Tables 12.3 and 12.4). -/
structure MapEntry where
  /-- volume ID, 16 bits. -/
  vid : VolId
  /-- user cluster, 25 bits. -/
  ucl : Nat
  /-- sector valid mask, 16 bits. -/
  mask : BitVec 16
  /-- location of R324, 34 bits. -/
  loc : BitVec 34
  /-- sealed by a destage run; 12 R331. -/
  sealed : Bool
  /-- data and program sequence, 48 bits; 12 R323. -/
  dataSeq : Nat
  progSeq : Nat
  /-- sectors held at that location. -/
  sectors : List (Nat × SectorData)
  /-- sectors lost: their mask bit stays clear and Reads of them complete with 0x24; 12 R335. -/
  lost : BitVec 16
  /-- queues whose posted Writes are in it, with whether the peer holds the queue; 11 R295. -/
  queues : List (Bool × Port × QueueNo)
  deriving DecidableEq, Repr

/-- A dirty cluster buffer in DRAM (R24, R330). -/
structure DirtyCluster where
  vid : VolId
  ucl : Nat
  mask : BitVec 16
  dataSeq : Nat
  sectors : List (Nat × SectorData)
  /-- sectors lost to an uncorrectable DRAM read before their program: recorded lost when the cluster is staged; 13 R365. -/
  lost : BitVec 16
  /-- a mirror copy held for the peer; 14 R397. -/
  mirror : Bool
  /-- queues whose posted Writes are in it, with whether the peer holds the queue; 11 R294. -/
  queues : List (Bool × Port × QueueNo)
  /-- its 64 KiB Ballast buffer, owned by staging, or by the Tether until a mirror copy is accepted; 12 R330, 14 R398. -/
  buf : Option (BitVec 32)
  deriving DecidableEq, Repr

/-- Journal records (R340). -/
inductive JournalRec where
  | delta (e : MapEntry)
  | release (vid : VolId) (ucl : Nat)
  | eraseIntent (lun block : Nat)
  | erased (lun block : Nat)
  | volume (vid : VolId)
  deriving DecidableEq, Repr

/-- The steps of garbage collection on one victim (R337). -/
inductive GcPhase where
  | copy | journal | durable | erase
  deriving DecidableEq, Repr

/-- A root record (R341). -/
structure RootRecord where
  /-- where the record stands on channel 0, as a location of LUN index 0; 12 R341. -/
  loc : BitVec 34
  seq : Nat
  /-- the map-page directory of the last checkpoint, none before one. -/
  directory : Option (BitVec 34)
  /-- the journal position after that checkpoint, none where stream 3 has no open superblock. -/
  journalPos : Option (BitVec 34)
  /-- the open superblock of each stream: LUN index and block. -/
  opens : Vector (Option (Nat × Nat)) 4
  clean : Bool
  ventIncomplete : Bool
  /-- it follows a warm flush; 12 R348. -/
  warmFlush : Bool
  deriving DecidableEq, Repr

/-- What NAND keeps over a power loss: the map as the last checkpoint and the durable journal give it, the superblocks,
the latest root record and the volume records (R340 to R343). -/
structure NandImage where
  /-- map as the durable journal gives it; 12 R343; reset DESIGN CHOICE empty (log entry 13). -/
  entries : List MapEntry
  /-- superblocks; 12 R341; reset DESIGN CHOICE none used (log entry 13). -/
  blocks : List Superblock
  /-- superblocks listed to erase; 12 R340; reset DESIGN CHOICE none (log entry 13). -/
  intents : List (Nat × Nat)
  /-- latest root record; 12 R341; reset DESIGN CHOICE none: blank NAND (log entry 13). -/
  root : Option RootRecord
  /-- volume records: bindings, flags and recorded ranges; 12 R340; reset DESIGN CHOICE none (log entry 13). -/
  vols : List Volume
  /-- blocks of each LUN set aside as its spare pool at the first use of blank NAND, none before it; 12 R351; reset DESIGN
  CHOICE none (log entry 13). -/
  spareCount : Option Nat
  /-- spare blocks used, by channel × 16 + LUN; 12 R351; reset none. -/
  sparesUsed : List (Nat × Nat)
  /-- retired blocks: channel, LUN, block; 12 R352; reset none. -/
  retired : List (Fin 16 × Fin 16 × Nat)
  /-- retired LUNs: channel, LUN; 12 R353; reset none. -/
  retiredLuns : List (Fin 16 × Fin 16)
  /-- staged clusters covered by deltas since the last checkpoint; 12 R342; reset 0. -/
  sinceCheckpoint : Nat
  deriving DecidableEq, Repr

/-- The staging tier. -/
structure Staging where
  /-- LUN indexes in service; 12 R322; reset none until BOOT. -/
  luns : List (Fin 16)
  /-- pages per block, blocks per LUN plane; 12 R321; reset 0 until BOOT. -/
  pages : Nat
  blocks : Nat
  /-- tR, tPROG and tBERS of the parameter page, µs; 12 R321; reset 0 until BOOT. -/
  tR : Nat
  tProg : Nat
  tBers : Nat
  /-- NV-DDR3 rate of the timing mode selected, MT/s; 12 R319; reset 0 until BOOT. -/
  rate : Nat
  /-- directory and journal position of the last checkpoint; 12 R341, R342; reset none. -/
  directory : Option (BitVec 34)
  journalPos : Option (BitVec 34)
  /-- blocks that needed a stripe rebuild once; 12 R334; reset none. -/
  rebuilt : List (Fin 16 × Fin 16 × Nat)
  /-- staging map in DRAM; 12 R326; reset empty. -/
  map : List MapEntry
  /-- superblocks; 12 R325; reset none used. -/
  sbs : List Superblock
  /-- dirty clusters in the order their data became complete; 12 R330; reset empty. -/
  dirty : List DirtyCluster
  /-- mirror copies that have been staged here for the peer: volume and user cluster; 14 R397; reset empty. -/
  mirrored : List (VolId × Nat)
  /-- journal buffer; 12 R340; reset empty. -/
  journal : List JournalRec
  /-- garbage collection running on a victim; 12 R336; reset idle. -/
  gc : Option (GcPhase × Nat × Nat)
  /-- garbage collection wanted: below GC_LOW and not yet at GC_HIGH; 12 R336; reset 0. -/
  gcOn : Bool
  /-- clusters to relocate to stream 1: volume and user cluster; 12 R334, R353; reset none. -/
  relocate : List (VolId × Nat)
  /-- dirty limit in force, MiB; 12 R345; reset 512. -/
  limit : Nat
  /-- STG.STATE bits 0 to 5; 12 R359; reset 0. -/
  full : Bool
  writeProt : Bool
  limited : Bool
  incomplete : Bool
  growing : Bool
  recovering : Bool
  /-- present temperature of each channel, °C; 12 R332; reset DESIGN CHOICE 0 (log entry 2). -/
  temps : Vector Int 16
  /-- last command and address of each channel; 15 Table 15.4; reset DESIGN CHOICE 0 (log entry 2). -/
  lastOp : Vector (Nat × Nat) 16
  /-- what NAND keeps; 12 R343; reset DESIGN CHOICE blank NAND (log entry 13). -/
  nand : NandImage
  deriving DecidableEq, Repr

/-- Blank NAND. -/
def NandImage.reset : NandImage :=
  { entries := [], blocks := [], intents := [], root := none, vols := [], spareCount := none, sparesUsed := [], retired := [],
    retiredLuns := [], sinceCheckpoint := 0 }

/-- The staging tier at power-on, with the NAND given. -/
def Staging.reset (n : NandImage) : Staging :=
  { luns := [], pages := 0, blocks := 0, tR := 0, tProg := 0, tBers := 0, rate := 0, directory := none, journalPos := none, rebuilt := [], map := [], sbs := [], dirty := [], mirrored := [], journal := [], gc := none,
    gcOn := false, relocate := [], limit := 512, full := false, writeProt := false, limited := false,
    incomplete := false, growing := false, recovering := false, temps := Vector.replicate 16 0,
    lastOp := Vector.replicate 16 (0, 0), nand := n }

/-! ### Memory, Ballast and engine cache (13_memory_buffers_cache.md) -/

/-- An entry of the error FIFO and of the DRAM error log (Tables 13.4 and 13.5, DERR_POP). -/
structure DramError where
  time : BitVec 64
  /-- block number: physical address [39:7]. -/
  block : BitVec 33
  rank : Bool
  chip : BitVec 5
  symbols : Byte
  /-- 0 corrected transient, 1 corrected persistent, 2 uncorrectable transient, 3 uncorrectable persistent. -/
  kind : Nat
  /-- 0 read, 1 read-modify-write, 2 scrubber. -/
  source : Nat
  count : Nat
  deriving DecidableEq, Repr

/-- A line of the engine cache (R378). -/
structure CacheLine where
  /-- tag, address [39:18], 22 bits. -/
  tag : BitVec 22
  dirty : Bool
  data : BitVec 512
  deriving DecidableEq, Repr

/-- The engine cache and its registers (R378 to R384, Table 13.10). -/
structure EngineCache where
  /-- CACHE_CTRL.ENABLE; 13 Table 13.10; reset 0. -/
  enabled : Bool
  /-- CACHE_CTRL.PREFETCH; 13 Table 13.10; reset 1. -/
  prefetch : Bool
  /-- CACHE_MAINT_ADDR.LINE, 34 bits; 13 Table 13.10; reset 0. -/
  maintLine : BitVec 34
  /-- CACHE_STATUS.REJECT; 13 Table 13.10; reset 0. -/
  reject : Bool
  /-- CACHE_STATUS.COMPAT_RUN; 13 Table 13.10; reset 0. -/
  compatRun : Bool
  /-- CACHE_STATUS.BUSY; 13 Table 13.10; reset 0. -/
  busy : Bool
  /-- maintenance by address that waits for a fill or a writeback: its code and line; 13 R382; reset none. -/
  maintWait : Option (Nat × BitVec 34)
  /-- CACHE_ERRORS, 32 bits each; 13 Table 13.10; reset 0. -/
  errCorrected : BitVec 32
  errUncorrected : BitVec 32
  /-- valid lines, keyed set × 16 + way; 13 R378; reset every line invalid. -/
  lines : List (Nat × CacheLine)
  /-- evicted lines whose writeback is not accepted, by line address; 13 R382; reset none. -/
  evicted : List (BitVec 34 × BitVec 512)
  /-- fills in progress: line address, way chosen, core; 13 R382; reset none. -/
  fills : List (BitVec 34 × Fin 16 × CoreNo)
  /-- accesses waiting for a fill: line, core, address, access; 13 R382; reset none. -/
  waiting : List (BitVec 34 × CoreNo × BitVec 40 × CoreAccess)
  /-- replacement register, 16 bits; 13 R378; reset DESIGN CHOICE 0xACE1 (log entry 7). -/
  lfsr : BitVec 16
  /-- prefetch side buffer, oldest first, at most 16 clean entries; 13 R379; reset empty. -/
  side : List (BitVec 34 × BitVec 512)
  /-- line of each core's last miss; 13 R379; reset none. -/
  lastMiss : Vector (Option (BitVec 34)) 4
  deriving DecidableEq, Repr

/-- The engine cache at power-on. -/
def EngineCache.reset : EngineCache :=
  { enabled := false, prefetch := true, maintLine := 0, reject := false, compatRun := false, busy := false,
    maintWait := none, errCorrected := 0, errUncorrected := 0, lines := [], evicted := [], fills := [], waiting := [],
    lfsr := 0xACE1, side := [], lastMiss := Vector.replicate 4 none }

/-- The state word of an allocated Ballast buffer (R374). -/
structure BufWord where
  owner : Fin 12
  /-- it is the head of its chain (always so outside pool 3). -/
  head : Bool
  /-- next link of a chain of pool 3. -/
  link : Option Nat
  deriving DecidableEq, Repr

/-- A Ballast pool (R372 to R376). -/
structure BallastPool where
  /-- buffers; 13 R372; reset 0 until BOOT. -/
  size : Nat
  /-- allocated buffers by index; 13 R374; reset none. -/
  words : List (Nat × BufWord)
  /-- the free ring, as runs of a first index and a count, oldest first; 13 R375; reset empty. -/
  ring : List (Nat × Nat)
  /-- the on-chip cache of free buffers, oldest first; 13 R375; reset empty. -/
  cache : List Nat
  /-- buffers out of the pool: retired pages; 13 R371; reset none. -/
  out : List Nat
  /-- owners whose refusal has been reported since their last allocation; 13 R376; reset none. -/
  low : BitVec 12
  /-- allocations made; reset 0; the model's own, see log entry 8. -/
  count : Nat
  deriving DecidableEq, Repr

/-- A pool before it is carved. -/
def BallastPool.reset : BallastPool := { size := 0, words := [], ring := [], cache := [], out := [], low := 0, count := 0 }

/-- The three banks of triplicated words (R367, R368): words 0 to 7 servo limits, 8 and 9 map root, 10 to 25 Vent
descriptor, 26 pair role word, 27 to 30 progress record. -/
structure Triple where
  /-- banks A, B, C of 31 words, 64 bits each; 13 R367; reset 0. -/
  banks : Vector (Vector (BitVec 64) 31) 3
  /-- sets open, with the words staged for their commit; 13 R368; reset none. -/
  staged : List (TripleSet × List (Nat × BitVec 64))
  /-- (word, bank) pairs marked faulty; 13 R368; reset none. -/
  faulty : List (Nat × Fin 3)
  deriving DecidableEq, Repr

/-- The triplicated words at power-on. -/
def Triple.reset : Triple :=
  { banks := Vector.replicate 3 (Vector.replicate 31 0), staged := [], faulty := [] }

/-- Memory. -/
structure Memory where
  /-- populated DRAM, GiB; 13 R360; reset 0 until FILL. -/
  gib : Nat
  /-- the DRAM chips are x8, else x4; 13 R360; reset DESIGN CHOICE x4 until FILL (log entry 15). -/
  x8 : Bool
  /-- DRAM bytes that differ from 0, addresses rising; 13 R366; reset DESIGN CHOICE 0 before the fill (log entry 15). -/
  cells : List Host.Cell
  /-- error FIFO, oldest first, at most 64; 13 R370; reset empty. -/
  fifo : List DramError
  /-- DERR_POP as last popped; 13 Table 13.10; reset 0. -/
  derrPop : BitVec 64
  /-- DERR_LOST, 32 bits; 13 Table 13.10; reset 0. -/
  derrLost : BitVec 32
  /-- DRAM error log, oldest first, at most 1,024; 13 R370; reset empty. -/
  log : List DramError
  /-- corrected and uncorrectable reads since power-on, 64 bits; 13 Table 13.4; reset 0. -/
  ceCount : Nat
  ueCount : Nat
  /-- FIFO entries lost since power-on; 13 Table 13.4; reset 0. -/
  lostCount : Nat
  /-- times of corrected persistent reads of each 4 KiB page within 24 h; 13 R371; reset none. -/
  pageCe : List (Nat × List (BitVec 64))
  /-- pages whose retirement waits for a Ballast buffer's free or the next boot; 13 R371; reset none. -/
  pagesDue : List Nat
  /-- SCRUB_CTRL.ENABLE; 13 Table 13.10; reset 1. -/
  scrubOn : Bool
  /-- SCRUB_INTERVAL, 32 bits; 13 Table 13.10; reset 0. -/
  scrubInterval : BitVec 32
  /-- SCRUB_POS block, 33 bits; 13 Table 13.10; reset 0. -/
  scrubPos : BitVec 33
  /-- SCRUB_STATS: passes 32 bits, uncorrected and corrected 16 bits each; 13 Table 13.10; reset 0. -/
  scrubPasses : BitVec 32
  scrubUe : BitVec 16
  scrubCe : BitVec 16
  /-- engine cache; 13 R378; reset disabled. -/
  cache : EngineCache
  /-- Ballast pools 0 to 3; 13 R372; reset empty until BOOT. -/
  pools : Vector BallastPool 4
  /-- triplicated words; 13 R367; reset 0. -/
  triple : Triple
  deriving DecidableEq, Repr

/-- Memory at power-on. -/
def Memory.reset : Memory :=
  { gib := 0, x8 := false, cells := [], fifo := [], derrPop := 0, derrLost := 0, log := [], ceCount := 0, ueCount := 0, lostCount := 0,
    pageCe := [], pagesDue := [], scrubOn := true, scrubInterval := 0, scrubPos := 0, scrubPasses := 0, scrubUe := 0,
    scrubCe := 0, cache := .reset, pools := Vector.replicate 4 .reset, triple := .reset }

/-! ### Pair and Tether (14_pair_operation.md) -/

/-- The Tether link (R391). -/
inductive TetherSt where
  | down | training | up
  deriving DecidableEq, Repr

/-- The progress of a takeover (Table 14.6). -/
structure Takeover where
  /-- role word written; 14 R402; reset 0. -/
  roleWritten : Bool
  /-- ownership committed; 14 R402; reset 0. -/
  committed : Bool
  /-- forwarded commands resolved; 14 R403; reset 0. -/
  resolved : Bool
  deriving DecidableEq, Repr

/-- What a resync serves (R401, R405, R407, R409). -/
inductive ResyncKind where
  | tether     -- end of Tether degraded
  | join       -- a Pair Join
  | rejoin     -- a returning device
  | handback   -- the end of a planned hand-over
  deriving DecidableEq, Repr

/-- A flit as its sender holds it: its type, whether it ends a message, and its payload (Table 14.2). -/
structure TetherFlit where
  kind : Byte
  last : Bool
  payload : List Byte
  deriving DecidableEq, Repr

/-- The pair. -/
structure Pair where
  /-- pair role word, triplicated; 14 R389; reset 0. -/
  role : RoleWord
  /-- Tether link; 14 R391; reset down. -/
  link : TetherSt
  /-- width trained; 14 R391; reset 0. -/
  width : Nat
  /-- lanes in service, 4 bits; 14 R394; reset all. -/
  lanes : BitVec 4
  /-- failed trainings in a row; 14 R391; reset 0. -/
  failed : Nat
  /-- sequence of the flit to send next and of the flit expected next, 16 bits; 14 R392; reset 0. -/
  sent : BitVec 16
  expected : BitVec 16
  /-- sequence last acknowledged by the peer, 16 bits; 14 R392; reset DESIGN CHOICE all ones (log entry 2). -/
  acked : BitVec 16
  /-- unacknowledged flits held with their sequences, oldest first, at most 512; 14 R393; reset empty. -/
  unacked : List (BitVec 16 × TetherFlit)
  /-- flits that wait for room among the unacknowledged ones, oldest first; 14 R393; reset empty. -/
  txq : List TetherFlit
  /-- scrambler of each lane, 58 bits; 14 R390; reset DESIGN CHOICE 0 (log entry 112). -/
  scram : Vector (BitVec 58) 4
  /-- clusters released while no release could be sent: volume and user cluster; 14 R401; reset empty. -/
  unreleased : List (VolId × Nat)
  /-- replays of the flit now expected, and the lanes its last failure named; 14 R394; reset 0. -/
  replays : Nat
  badLanes : BitVec 4
  /-- failed lane checks of each lane; 15 Table 15.4; reset 0. -/
  laneFails : Vector Nat 4
  /-- PAIR.CRC_COUNT, 32 bits saturating; 14 R394; reset 0. -/
  crcCount : Nat
  /-- heartbeat live; 14 R395; reset 0. -/
  hbLive : Bool
  /-- heartbeats sent, 32 bits; 14 R395; reset 0. -/
  hbCount : BitVec 32
  /-- heartbeats received since PEER_OK_IN fell, up to 2; 14 R400; reset 0. -/
  hbSince : Nat
  /-- filtered PEER_OK_IN; 14 R396; reset inactive. -/
  peerOkIn : Bool
  /-- PEER_OK output; 14 R396; reset inactive. -/
  peerOk : Bool
  /-- Tether-degraded latch; 14 R400; reset 0. -/
  degraded : Bool
  /-- broken-wire latch; 14 R400; reset 0. -/
  brokenWire : Bool
  /-- EV_PEER_LOST raised for the present loss; 14 R400; reset 0. -/
  lostRaised : Bool
  /-- identity number and release of the peer, as training told; 14 R391; reset 0. -/
  peerIdentity : BitVec 32
  peerRelease : BitVec 32
  /-- pair sequence that the peer of a rejoin reported; 14 R407; reset 0. -/
  peerSeq : BitVec 24
  /-- last heartbeat of the peer; 14 R395; reset none. -/
  peerHb : Option Heartbeat
  /-- states of the peer's bays as it reports them; 14 R397; reset unknown. -/
  peerBays : Vector (Option BaySt) 8
  /-- Writes waiting for a mirror commit: message, volume, user cluster, data sequence; 14 R398; reset empty. -/
  mirrorOut : List (BitVec 32 × VolId × Nat × Nat)
  /-- next message ID, 32 bits; 14 R392; reset DESIGN CHOICE 0 (log entry 2). -/
  nextMsg : BitVec 32
  /-- clusters accepted while no mirror was possible, and not sent since; 14 R401; reset empty. -/
  unmirrored : List (VolId × Nat)
  /-- mirror messages received and not yet committed, for want of a staging buffer, oldest first; 14 R398; reset empty. -/
  uncommitted : List (BitVec 32 × DirtyCluster)
  /-- volumes of the peer taken over and not handed back; 14 R402; reset none. -/
  taken : List VolId
  /-- takeover under way; 14 R402; reset none. -/
  takeover : Option Takeover
  /-- PAIR.DARK_WAIT has passed since detection; 14 R404; reset 0. -/
  darkWait : Bool
  /-- settlement awaited: no volume served; 14 R407; reset 0. -/
  awaiting : Bool
  /-- resync running; 14 R401, R405; reset none. -/
  resync : Option ResyncKind
  /-- bytes sent in it; 14 R405; reset 0. -/
  resyncBytes : Nat
  /-- hand-over in progress; 14 R409; reset 0. -/
  handover : Bool
  deriving DecidableEq, Repr

/-- The pair at power-on. -/
def Pair.reset : Pair :=
  { role := .reset, link := .down, width := 0, lanes := 0b1111, failed := 0, sent := 0, expected := 0, acked := 0xFFFF,
    unacked := [], txq := [], scram := Vector.replicate 4 0, unreleased := [], replays := 0, badLanes := 0, laneFails := Vector.replicate 4 0, crcCount := 0, hbLive := false,
    hbCount := 0, hbSince := 0, peerOkIn := false, peerOk := false, degraded := false, brokenWire := false,
    lostRaised := false, peerIdentity := 0, peerRelease := 0, peerSeq := 0, peerHb := none, peerBays := Vector.replicate 8 none, mirrorOut := [],
    nextMsg := 0, unmirrored := [], uncommitted := [], taken := [], takeover := none, darkWait := false,
    awaiting := false, resync := none, resyncBytes := 0, handover := false }

end Sys2Proof.Machine
end

