-- ==== Sys2Proof/Machine/State.lean ====
section
/-! DEFINITION. The whole state of one RKZ-8416, what it has put out, why a step can stop, and the state right after power-on reset. -/

namespace Sys2Proof.Machine

/-- What the device has put out, for the world outside it: writes to host memory, messages on its links and pins. -/
inductive Output where
  /-- a completion record written whole at an address (R283). -/
  | completion (p : Port) (addr : BitVec 64) (record : BitVec 128)
  /-- Read data written to host memory: the relaxed-ordering attribute, the LBA of each sector with its contents, and the host
  addresses of its 512-byte parts (R276, R286). -/
  | readData (c : CmdId) (relaxed : Bool) (sectors : List (Nat × SectorData)) (places : List (List (BitVec 64)))
  /-- an MSI-X message (R284, R463). -/
  | msix (p : Port) (vector : Nat) (addr : BitVec 64) (data : BitVec 32)
  /-- a mailbox buffer written to host memory (R305). -/
  | mailboxData (p : Port) (addr : BitVec 64) (bytes : List Byte)
  /-- an event ring record written at an address (R420). -/
  | eventRecord (p : Port) (addr : BitVec 64) (record : BitVec 512)
  /-- the data of a register read (R455, R424, R451). -/
  | regRead (p : Port) (value : BitVec 64)
  /-- a register read that ends in Unsupported Request (R275). -/
  | unsupported (p : Port) (offset : BitVec 16)
  /-- the data of a read by a control core of the memory control block or of memory (R386, R378). -/
  | coreRead (value : BitVec 64)
  /-- a bus error (R365). -/
  | busError (r : Requester)
  /-- a Ballast handle (R373). -/
  | ballast (handle : BitVec 32)
  /-- a frame on a bay's laser driver link: LDn_CSEL_N low, and its bits on LDn_CDAT, most significant first, each with a cycle of
  LDn_CCLK (R149). -/
  | ldl (b : BayNo) (frame : BitVec 32)
  /-- symbols on LDn_PB3 to LDn_PB0, each with a cycle of LDn_PBCLK, the first in the channel bit period given, counted from the
  end of the index gap (R153, R154). -/
  | pulses (b : BayNo) (first : Int) (symbols : List (BitVec 4))
  /-- an ONFI command on a NAND channel: its first cycle, its address (a location, a feature address or a LUN), and its parameter
  (R320, Table 12.1). -/
  | nand (c : ChanNo) (cmd : Byte) (addr param : Nat)
  /-- a page program at a location: the data and metadata bytes of its 16 codewords, which the LDPC unit encodes (R323, R324). -/
  | nandPage (loc : BitVec 34) (words : List NandWord)
  /-- a Tether flit: its 256 bytes (R392), and the 66-bit blocks that its 32 blocks become, each with its lane on TTH_TXP/N
  (R390). -/
  | flit (bytes : List Byte) (blocks : List (Nat × BitVec 66))
  /-- an SMBus answer (R482). -/
  | smbus (bytes : List Byte)
  /-- bits shifted out of TDO (R482). -/
  | tdo (bits : List Bool)
  deriving DecidableEq, Repr

/-- Why a step stops the machine. -/
inductive Fault where
  /-- a memory access of DRAM_READ, DRAM_PARTIAL_WRITE or CACHE_ACCESS beyond the populated DRAM of R360. Safe: the spec
  gives no effect to such an access. -/
  | beyondDram
  deriving DecidableEq, Repr

/-- Why a command is turned away without a meaning. -/
inductive Refusal where
  /-- an arm of exec whose command has no meaning in the model. Safe: the model stops where the hardware goes on. -/
  | notModelled (mnemonic : String)
  deriving DecidableEq, Repr

/-- The state of the block. -/
structure State where
  /-- commands waiting, first in first out; the model's queue; reset empty. -/
  pending : List Instr
  /-- device-wide control: mode, resets, boot, clocks, power; 16; reset as Sys.reset. -/
  sys : Sys
  /-- events, Reel, retry log, diagnostics; 15; reset empty. -/
  ev : EventPath
  /-- host ports A and B; 11, 17; reset as PortState.reset. -/
  ports : Vector PortState 2
  /-- Bridle cells; 17 R455; reset free, CLAIMS 0. -/
  bridle : Vector BridleCell 64
  /-- the port that lost the last tie for a free cell; 17 R455; reset port A. -/
  bridleTie : Port
  /-- outstanding commands, oldest first; 11 R285; reset empty. -/
  cmds : List Cmd
  /-- volumes, in order of volume ID; 11 R289; reset none. -/
  vols : List Volume
  /-- parameters; 00 R10; reset defaults. -/
  params : Params
  /-- boot flash; 16 R438; kept across every reset. -/
  flash : BootFlash
  /-- drive bays 0 to 7; 01 R17; reset as Bay.reset. -/
  bays : Vector Bay 8
  /-- decoder pool; 05 R120; reset idle. -/
  pool : Pool
  /-- magazine handler; 10; reset at rest, not homed. -/
  hnd : Handler
  /-- staging tier; 12; reset blank NAND. -/
  stg : Staging
  /-- memory; 13; reset as Memory.reset. -/
  mem : Memory
  /-- the pair; 14; reset standalone. -/
  pair : Pair
  /-- what the device has put out, newest first; the model's own; reset empty. -/
  out : List Output
  deriving DecidableEq, Repr

/-- The device held in power-on reset (R434): everything cleared, mode OFF, with the boot flash and NAND it finds. -/
def State.reset : State :=
  { pending := [], sys := .reset, ev := .reset, ports := Vector.replicate 2 .reset,
    bridle := Vector.replicate 64 { owner := 0, claims := 0 }, bridleTie := 0, cmds := [], vols := [], params := .reset,
    flash := .reset, bays := Vector.replicate 8 .reset, pool := .reset, hnd := .reset, stg := .reset .reset,
    mem := .reset, pair := .reset, out := [] }

end Sys2Proof.Machine
end

