-- ==== Sys2Proof/Machine/Tables.lean ====
section
/-! DEFINITION. Lists keyed by a number, held in rising order of key, and the byte, bit and time helpers the meanings share. -/

namespace Sys2Proof.Machine

/-- The value under a key, if the list has one. -/
def lookupKey {α : Type} : List (Nat × α) → Nat → Option α
  | [], _ => none
  | (k, v) :: rest, i => if k = i then some v else lookupKey rest i

/-- Put a value under a key, in rising order, in place of any the list has. -/
def insertKey {α : Type} : List (Nat × α) → Nat → α → List (Nat × α)
  | [], i, x => [(i, x)]
  | (k, v) :: rest, i, x =>
    if i < k then (i, x) :: (k, v) :: rest
    else if i = k then (i, x) :: rest
    else (k, v) :: insertKey rest i x

/-- Drop the value under a key. -/
def eraseKey {α : Type} : List (Nat × α) → Nat → List (Nat × α)
  | [], _ => []
  | (k, v) :: rest, i => if k = i then eraseKey rest i else (k, v) :: eraseKey rest i

/-- Update the value under a key, where there is one. -/
def updateKey {α : Type} (l : List (Nat × α)) (i : Nat) (f : α → α) : List (Nat × α) :=
  l.map (fun kv => if kv.1 = i then (kv.1, f kv.2) else kv)

/-- Update the first element a test holds of. -/
def updateFirst {α : Type} (p : α → Bool) (f : α → α) : List α → List α
  | [] => []
  | a :: rest => if p a then f a :: rest else a :: updateFirst p f rest

/-- Add 1, saturating at `top` (8, 16 and 32-bit saturating counters). -/
def satInc (top n : Nat) : Nat := if n < top then n + 1 else top

/-- A number as `n` little-endian bytes (R7). -/
def leBytes : (n : Nat) → Nat → List Byte
  | 0, _ => []
  | n + 1, v => BitVec.ofNat 8 (v % 256) :: leBytes n (v / 256)

/-- The number that little-endian bytes give (R7). -/
def ofLeBytes : List Byte → Nat
  | [] => 0
  | b :: rest => b.toNat + 256 * ofLeBytes rest

/-- An integer as `n` little-endian bytes in two's complement. -/
def leInt (n : Nat) (v : Int) : List Byte := leBytes n (v % (256 ^ n : Int)).toNat

/-- The first `n` bytes of a list, with 0 where the list is shorter. -/
def padBytes (n : Nat) (bs : List Byte) : List Byte := (bs ++ List.replicate n 0).take n

/-- The 64-byte value that bytes give, byte 0 in bits [7:0]. -/
def block512 (bs : List Byte) : BitVec 512 := BitVec.ofNat 512 (ofLeBytes bs)

/-- Field [lo + w − 1 : lo] of a wide value, as a number. -/
def field {n : Nat} (x : BitVec n) (lo w : Nat) : Nat := (x.toNat / 2 ^ lo) % 2 ^ w

/-- Byte `i` of a 64-byte value. -/
def byteAt (x : BitVec 512) (i : Nat) : Byte := BitVec.ofNat 8 (field x (8 * i) 8)

/-- The `n` bytes at offset `off` of a 64-byte value, as a number (little-endian). -/
def fieldBytes (x : BitVec 512) (off n : Nat) : Nat := field x (8 * off) (8 * n)

/-- Bit `i`, as a Bool, with a bound on no width. -/
def bitAt {n : Nat} (x : BitVec n) (i : Nat) : Bool := x.getLsbD i

/-- Set or clear bit `i`. -/
def setBit {n : Nat} (x : BitVec n) (i : Nat) (v : Bool) : BitVec n :=
  if v then x ||| BitVec.ofNat n (2 ^ i) else x &&& ~~~ (BitVec.ofNat n (2 ^ i))

/-- A Bool as 0 or 1. -/
def b2n (b : Bool) : Nat := if b then 1 else 0

/-- The mask of a list of Bools, the first in bit 0. -/
def boolMask : List Bool → Nat
  | [] => 0
  | b :: rest => b2n b + 2 * boolMask rest

/-- Ceiling division. -/
def ceilDiv (a b : Nat) : Nat := (a + b - 1) / b

/-- The bits of `mask` that are set, as a count, over `n` bits. -/
def popCount {n : Nat} (x : BitVec n) : Nat := ((List.range n).filter (fun i => x.getLsbD i)).length

/-- One bit of CRC-8 with polynomial x⁸ + x² + x + 1. -/
def crc8Bit (c : Nat) (bit : Bool) : Nat :=
  let x := (c / 128 + b2n bit) % 2
  (c * 2 % 256) ^^^ (if x = 1 then 7 else 0)

/-- CRC-32 of IEEE 802.3: one bit. -/
def crc32Bit (c : Nat) : Nat := if c % 2 = 1 then (c / 2) ^^^ 0xEDB88320 else c / 2

/-- CRC-32 of IEEE 802.3: one byte. -/
def crc32Byte (c : Nat) (b : Byte) : Nat :=
  let x := c ^^^ b.toNat
  crc32Bit (crc32Bit (crc32Bit (crc32Bit (crc32Bit (crc32Bit (crc32Bit (crc32Bit x)))))))

/-- CRC-32 of IEEE 802.3 over bytes. -/
def crc32 (bs : List Byte) : Nat := (bs.foldl crc32Byte 0xFFFFFFFF) ^^^ 0xFFFFFFFF

end Sys2Proof.Machine
end

