-- ==== Sys2Proof/Machine/Galois.lean ====
section
/-! DEFINITION. Finite fields and the algebraic codes the format uses: GF(2ᵐ), the search for an error locator, and the Reed–Solomon codes of R49 and R53 with errors and flagged erasures. Polynomials are lists of coefficients from degree 0 up. -/

namespace Sys2Proof.Machine

/-! ### Fields -/

/-- A field GF(2ᵐ): its degree and its primitive polynomial, the leading term included. -/
structure Field where
  m : Nat
  poly : Nat
  deriving DecidableEq, Repr

/-- GF(2⁶) with x⁶ + x + 1 (R40). -/
def gf64 : Field := { m := 6, poly := 0x43 }

/-- GF(2⁸) with x⁸ + x⁴ + x³ + x² + 1 (R53). -/
def gf256 : Field := { m := 8, poly := 0x11D }

/-- GF(2¹⁶) with x¹⁶ + x¹² + x³ + x + 1 (R361). -/
def gf65536 : Field := { m := 16, poly := 0x1100B }

/-- An element times x. -/
def gfDouble (F : Field) (a : Nat) : Nat := if a < 2 ^ (F.m - 1) then 2 * a else (2 * a) ^^^ F.poly

/-- The product of two elements. -/
def gfMul (F : Field) (a b : Nat) : Nat :=
  ((List.range F.m).foldl (fun (acc : Nat × Nat) i => (if b.testBit i then acc.1 ^^^ acc.2 else acc.1, gfDouble F acc.2)) (0, a)).1

/-- A power of an element. -/
def gfPow (F : Field) (a : Nat) : Nat → Nat
  | 0 => 1
  | n + 1 => gfMul F a (gfPow F a n)

/-- The order of the multiplicative group. -/
def Field.order (F : Field) : Nat := 2 ^ F.m - 1

/-- α to a power. -/
def gfAlpha (F : Field) (n : Nat) : Nat := gfPow F 2 (n % F.order)

/-- The inverse of an element other than 0: its power of exponent 2ᵐ − 2, the product of its squares of squares. -/
def gfInv (F : Field) (a : Nat) : Nat :=
  ((List.range (F.m - 1)).foldl (fun (acc : Nat × Nat) _ =>
    let sq := gfMul F acc.2 acc.2
    (gfMul F acc.1 sq, sq)) (1, a)).1

/-- The value of a polynomial. -/
def gfEval (F : Field) : List Nat → Nat → Nat
  | [], _ => 0
  | c :: rest, x => c ^^^ gfMul F x (gfEval F rest x)

/-- Add a polynomial scaled by `k` and shifted by `shift`. -/
def gfAdd (F : Field) (c b : List Nat) (k shift : Nat) : List Nat :=
  let s := List.replicate shift 0 ++ b.map (gfMul F k)
  (List.range (max c.length s.length)).map (fun i => c.getD i 0 ^^^ s.getD i 0)

/-- The product of two polynomials. -/
def polyMul (F : Field) (a b : List Nat) : List Nat :=
  ((List.range a.length).foldl (fun (acc : List Nat) i => gfAdd F acc b (a.getD i 0) i) [])

/-- The formal derivative. -/
def polyDeriv (a : List Nat) : List Nat := (List.range (a.length - 1)).map (fun i => if i % 2 = 0 then a.getD (i + 1) 0 else 0)

/-! ### The error locator -/

/-- The state of the shortest-register search for the error locator. -/
structure LocatorSt where
  c : List Nat
  b : List Nat
  len : Nat
  shift : Nat
  disc : Nat
  deriving DecidableEq, Repr

/-- One step of the search, on syndrome `n` of `syn`, with `f` erasures known. -/
def locatorStep (F : Field) (syn : List Nat) (f : Nat) (t : LocatorSt) (n : Nat) : LocatorSt :=
  let d := ((List.range (t.len + 1)).map (fun i => if i = 0 then syn.getD n 0 else if i ≤ n then gfMul F (t.c.getD i 0) (syn.getD (n - i) 0) else 0)).foldl
    (fun a x => a ^^^ x) 0
  if d = 0 then { t with shift := t.shift + 1 }
  else
    let k := gfMul F d (gfInv F t.disc)
    if 2 * t.len ≤ n + f then { c := gfAdd F t.c t.b k t.shift, b := t.c, len := n + 1 + f - t.len, shift := 1, disc := d }
    else { t with c := gfAdd F t.c t.b k t.shift, shift := t.shift + 1 }

/-- The locator of errors and erasures of a list of syndromes, from the erasure locator `g` of degree `f`. -/
def locator (F : Field) (syn g : List Nat) (f : Nat) : LocatorSt :=
  ((List.range syn.length).drop f).foldl (locatorStep F syn f) { c := g, b := g, len := f, shift := 1, disc := 1 }

/-! ### Reed–Solomon codes with first root α⁰ (R49, R53) -/

/-- The generator (x + α⁰)(x + α¹) … (x + α^(r − 1)). -/
def rsGenerator (F : Field) (r : Nat) : List Nat := (List.range r).foldl (fun g i => polyMul F g [gfAlpha F i, 1]) [1]

/-- The remainder register after one information symbol, highest degree first. -/
def rsShift (F : Field) (g : List Nat) (reg : List Nat) (x : Nat) : List Nat :=
  let top := x ^^^ reg.headD 0
  (List.range reg.length).map (fun i => reg.getD (i + 1) 0 ^^^ gfMul F top (g.getD (reg.length - 1 - i) 0))

/-- The `r` parity symbols of information symbols, the first symbol of a codeword being its highest coefficient. -/
def rsParity (F : Field) (r : Nat) (info : List Nat) : List Nat :=
  info.foldl (rsShift F (rsGenerator F r)) (List.replicate r 0)

/-- The `r` syndromes of a received word, its first symbol the highest coefficient. -/
def rsSyndromes (F : Field) (r : Nat) (w : List Nat) : List Nat :=
  (List.range r).map (fun j => gfEval F w.reverse (gfAlpha F j))

/-- The symbol of index `i` of an `n`-symbol word stands at α^(n − 1 − i). -/
def rsPlace (F : Field) (n i : Nat) : Nat := gfAlpha F (n - 1 - i)

/-- A received word corrected of `e` errors and the flagged erasures, wherever 2e + f ≤ r (R49, R127); none where the word does
not decode. -/
def rsDecode (F : Field) (r : Nat) (erased : List Nat) (w : List Nat) : Option (List Nat) :=
  let n := w.length
  let syn := rsSyndromes F r w
  if r < erased.length then none
  else if syn.all (· == 0) then some w
  else
    let g := erased.foldl (fun p i => polyMul F p [1, rsPlace F n i]) [1]
    let t := locator F syn g erased.length
    let spots := (List.range n).filter (fun i => decide (gfEval F t.c (gfInv F (rsPlace F n i)) = 0))
    let omega := (polyMul F syn t.c).take r
    let deriv := polyDeriv t.c
    let fixed := spots.foldl (fun (v : List Nat) i =>
      let x := rsPlace F n i
      let y := gfMul F x (gfMul F (gfEval F omega (gfInv F x)) (gfInv F (gfEval F deriv (gfInv F x))))
      v.set i (v.getD i 0 ^^^ y)) w
    if spots.length = t.len ∧ 2 * t.len ≤ r + erased.length ∧ (rsSyndromes F r fixed).all (· == 0) = true then some fixed else none

/-- The errors at known places of an `n`-symbol word that give its syndromes, if any do. -/
def rsErasures (F : Field) (n : Nat) (places syn : List Nat) : List Nat :=
  let g := places.foldl (fun p i => polyMul F p [1, rsPlace F n i]) [1]
  let omega := (polyMul F syn g).take syn.length
  let deriv := polyDeriv g
  places.map (fun i =>
    let x := rsPlace F n i
    let z := gfInv F x
    gfMul F x (gfMul F (gfEval F omega z) (gfInv F (gfEval F deriv z))))

/-! ### The DRAM code (R361, R362) -/

/-- The 16 check symbols of a block's 64 data symbols. -/
def dramCheck (data : List Nat) : List Nat := rsParity gf65536 16 data

/-- The symbols of a chip, in the order of the chips (log entry 108): 4 each of x4 chips, 8 each of x8 chips. -/
def chipSymbols (x8 : Bool) (chip : Nat) : List Nat :=
  let k := if x8 then 8 else 4
  (List.range k).map (fun j => k * chip + j)

/-- The 80 symbols of an error. -/
def errorWord (errs : List (Fin 80 × BitVec 16)) : List Nat :=
  errs.foldl (fun w e => w.set e.1.val (w.getD e.1.val 0 ^^^ e.2.toNat)) (List.replicate 80 0)

/-- How the DRAM decoder ends: with no correction, with the errors of one chip corrected (their symbols as a mask), or
uncorrectable; `wrong` is what stays of the error in the word it delivers. -/
inductive DramDecode where
  | clean (wrong : List Nat)
  | corrected (chip : Nat) (symbols : Nat) (wrong : List Nat)
  | uncorrectable
  deriving DecidableEq, Repr

/-- The correction of one chip that leaves a codeword, if there is one. -/
def chipFix (x8 : Bool) (w : List Nat) (chip : Nat) : Option DramDecode :=
  let places := chipSymbols x8 chip
  let values := rsErasures gf65536 80 places (rsSyndromes gf65536 16 w)
  let fixed := (List.zip places values).foldl (fun (v : List Nat) (p : Nat × Nat) => v.set p.1 (v.getD p.1 0 ^^^ p.2)) w
  if (rsSyndromes gf65536 16 fixed).all (· == 0) then
    some (.corrected chip ((List.range values.length).map (fun j => if values.getD j 0 = 0 then 0 else 2 ^ j)).sum fixed)
  else none

/-- The decoder (R362): it corrects an error only when the errors of one chip account for it. The code is linear, so its outcome
depends on the error alone. -/
def dramDecode (x8 : Bool) (errs : List (Fin 80 × BitVec 16)) : DramDecode :=
  let w := errorWord errs
  if w.all (· == 0) || (rsSyndromes gf65536 16 w).all (· == 0) then .clean w
  else ((List.range (if x8 then 10 else 20)).findSome? (chipFix x8 w)).getD .uncorrectable

end Sys2Proof.Machine
end

