-- ==== Sys2Proof/Machine/Format.lean ====
section
/-! DEFINITION. The SL16 format as the device uses it (02_sl16_media_format.md): zones and addresses (R43, R64, R65), areas (R55), replacement ordinals and the defect list (R56 to R58), recorded ranges (R60, R63) and management sets (R59 to R62). -/

namespace Sys2Proof.Machine

/-! ### Zones and addresses (R43, R64, R65) -/

/-- First turn and first cluster position of each zone (Table 2.3). -/
def zoneTable : List (Nat × Nat) :=
  [(0, 0), (12613, 75678), (28701, 188294), (44789, 316998), (60877, 461790), (76965, 622670), (93053, 799638),
   (109141, 992694), (125229, 1201838), (141317, 1427070)]

/-- The last turn of a layer (R38). -/
def lastTurn : Nat := 143754

/-- The zone of a turn. -/
def zoneOfTurn (t : Nat) : Nat := (zoneTable.filter (fun z => decide (z.1 ≤ t))).length - 1

/-- The zone of a cluster position. -/
def zoneOfPos (p : Nat) : Nat := (zoneTable.filter (fun z => decide (z.2 ≤ p))).length - 1

/-- First turn and first position of a zone. -/
def zoneStart (z : Nat) : Nat × Nat := zoneTable.getD z (0, 0)

/-- Clusters per turn of a zone (R43). -/
def zoneClusters (z : Nat) : Nat := 6 + z

/-- Wobble cycles of a turn, and of one of its 64 units; unit 0 is the index gap (R39, R42). -/
def turnCycles : Nat := 32256
def unitCycles : Nat := 504

/-- Channel bits of a slot (R44, R45). -/
def slotBits : Nat := 770000

/-- Channel bits per wobble cycle of a zone (R162). -/
def bitsPerCycle (z : Nat) : Rat := (13750 * zoneClusters z : Nat) / 567

/-- Channel bits from the end of the index gap to a wobble cycle of a turn: slot `j` begins at j × 770,000 (R44, R162). -/
def bitsAt (z : Nat) (cycle : Rat) : Rat := (cycle - unitCycles) * bitsPerCycle z

/-- The physical cluster address of a layer, turn and slot (R64). -/
def mkAddr (layer turn slot : Nat) : ClusterAddr := BitVec.ofNat 26 (layer * 0x400000 + turn * 16 + slot)

/-- The layer of an address. -/
def addrLayer (a : ClusterAddr) : LayerNo := ⟨a.toNat / 0x400000, by have := a.isLt; omega⟩
/-- The turn of an address. -/
def addrTurn (a : ClusterAddr) : Nat := a.toNat / 16 % 0x40000
/-- The slot of an address. -/
def addrSlot (a : ClusterAddr) : Nat := a.toNat % 16

/-- An address is valid (R64). -/
def addrValid (a : ClusterAddr) : Bool :=
  decide (addrTurn a ≤ lastTurn ∧ addrSlot a < 6 + zoneOfTurn (addrTurn a))

/-- The address of a cluster position of a layer (R65). -/
def addrOfPos (layer pos : Nat) : ClusterAddr :=
  let z := zoneOfPos pos
  let k := 6 + z
  let d := pos - (zoneStart z).2
  mkAddr layer ((zoneStart z).1 + d / k) (d % k)

/-- The cluster position of an address in its layer. -/
def posOfAddr (a : ClusterAddr) : Nat :=
  let z := zoneOfTurn (addrTurn a)
  (zoneStart z).2 + (addrTurn a - (zoneStart z).1) * (6 + z) + addrSlot a

/-- User clusters of a layer (Table 2.9). -/
def userClusters : Nat := 1441792

/-- The home address of a user cluster (R65). -/
def homeOf (ucl : Nat) : ClusterAddr := addrOfPos (ucl / userClusters) (4032 + ucl % userClusters)

/-- The areas of a layer (Table 2.9), with their codes in Table 2.6. -/
inductive Area where
  | user | replacement | management | test
  deriving DecidableEq, Repr

/-- The code of an area in the cluster address field (Table 2.6). -/
def Area.code : Area → Nat
  | .user => 0 | .replacement => 1 | .management => 2 | .test => 3

/-- The area of a cluster position (Table 2.9). -/
def areaOfPos (p : Nat) : Area :=
  if p < 3072 then .test else if p < 4032 then .management else if p < 1445824 then .user
  else if p < 1460760 then .replacement else if p < 1461720 then .management else .test

/-- The area of an address. -/
def areaOf (a : ClusterAddr) : Area := areaOfPos (posOfAddr a)

/-- The user cluster whose home an address is, if it lies in the user area (Table 2.9). -/
def uclOf (a : ClusterAddr) : Option Nat :=
  let p := posOfAddr a
  if 4032 ≤ p ∧ p < 4032 + userClusters ∧ addrValid a then some ((addrLayer a).val * userClusters + (p - 4032)) else none

/-! ### Replacement (R56 to R58) -/

/-- Replacement positions of the disc. -/
def ordinals : Nat := 238976

/-- The address of a replacement ordinal (R56). -/
def ordinalAddr (n : Nat) : ClusterAddr := addrOfPos (n / 14936) (1445824 + n % 14936)

/-- An address lies in the replacement area (Table 2.9). -/
def inReplacement (a : ClusterAddr) : Bool := decide (1445824 ≤ posOfAddr a ∧ posOfAddr a < 1460760)

/-- The latest defect list entry of a home address (R56). -/
def defectOf (m : MgmtSet) (home : ClusterAddr) : Option DefectEntry :=
  m.defects.reverse.find? (fun e => decide (e.home = home))

/-- The address at which the cluster of a home address is read (R56). -/
def setReadAddr (m : MgmtSet) (home : ClusterAddr) : ClusterAddr :=
  match defectOf m home with
  | some e => e.repl
  | none => home

/-- Unused replacement ordinals. -/
def ordinalsLeft (next : Nat) : Nat := ordinals - next

/-- A remap or weak-cluster rewrite may take an ordinal (R58). -/
def rewriteAllowed (next : Nat) : Bool := decide (4096 ≤ ordinalsLeft next)

/-! ### Recorded ranges (R60, R63) -/

/-- A user cluster lies within a recorded range. -/
def inRanges (rs : List (Nat × Nat)) (u : Nat) : Bool := rs.any (fun r => decide (r.1 ≤ u ∧ u < r.1 + r.2))

/-- Enter a user cluster in sorted ranges that neither overlap nor touch (R60). -/
def addRange : List (Nat × Nat) → Nat → List (Nat × Nat)
  | [], u => [(u, 1)]
  | (f, n) :: rest, u =>
    if u + 1 < f then (u, 1) :: (f, n) :: rest
    else if u + 1 = f then (u, n + 1) :: rest
    else if u < f + n then (f, n) :: rest
    else if u = f + n then
      match rest with
      | (f2, n2) :: more => if u + 1 = f2 then (f, n + 1 + n2) :: more else (f, n + 1) :: (f2, n2) :: more
      | [] => [(f, n + 1)]
    else (f, n) :: addRange rest u

/-- The most ranges a set holds (R62). -/
def maxRanges : Nat := 131072

/-! ### Management sets (R59 to R62) -/

/-- Positions of each management sequence (R59). -/
def mgmtPositions : Nat := 15360

/-- Position `n` of a management sequence, the first copy or the second (R55, R59): layer 0 first, in ascending order. -/
def mgmtAddr (second : Bool) (n : Nat) : ClusterAddr :=
  addrOfPos (n / 960) ((if second then 1460760 else 3072) + n % 960)

/-- Clusters of a set: 64 bytes, then 8 for each defect and each range (R60). -/
def setClusters (m : MgmtSet) : Nat := ceilDiv (64 + 8 * m.defects.length + 8 * m.ranges.length) Config.clusterBytes

/-- How a set of `s` clusters may be written with `used1` and `used2` positions used (R62): normally, as the last set, or not
at all. -/
inductive SetFit where
  | fits | last | none
  deriving DecidableEq, Repr

/-- The check of both copies before a set is written (R62). -/
def setFit (n used1 used2 : Nat) : SetFit :=
  let left := fun u => mgmtPositions - u
  if n ≤ left used1 ∧ n ≤ left used2 then
    if 2 * n ≤ left used1 ∧ 2 * n ≤ left used2 then .fits else .last
  else .none

/-- Set 1 of a disc (R61): its disc identifier and remap flag are fixed here. -/
def firstSet (vid : VolId) (remap : Bool) (discId : BitVec 64) : MgmtSet :=
  { seq := 1, vid := vid, remap := remap, clean := false, closed := false, preRead := false, discId := discId, defects := [],
    ranges := [], nextOrdinal := 0 }

/-- The disc is unclean: its current set lacks the clean-unmount flag or carries the pre-read flag (R61). -/
def setUnclean (m : MgmtSet) : Bool := !m.clean || m.preRead

end Sys2Proof.Machine
end

