-- ==== Sys2Proof/Machine/Params.lean ====
section
/-! DEFINITION. The parameter pages (R10, R11, R36 and the tables of each page): every parameter's identifier, level, range, default and effect term. -/

namespace Sys2Proof.Machine

/-- Whether a parameter is instanced by bay (R5); device, pair and library level have one instance. -/
inductive PLevel where
  | device | bay
  deriving DecidableEq, Repr

/-- The effect terms of Table 0.5. -/
inductive PEffect where
  | immediate | nextPeriod | nextCluster | nextMount | nextReset
  deriving DecidableEq, Repr

/-- The range of a parameter, as its table gives it. -/
inductive PRange where
  | span (lo hi : Int)
  | odd (lo hi : Int)          -- WR.OPC_STEPS
  | oneOf (vs : List Int)
  | readOnly
  | long                       -- carried through host memory
  | target                     -- RDCH.PR_TARGET (R100)
  | inputCfg                   -- HND.IN_CFG (R266)
  | freezeSrc                  -- EVT.REEL_FREEZE_SRC
  | poolMin (pool : Nat)       -- BAL.MIN
  | diag                       -- EVT.DIAG_RUN (R427)
  deriving DecidableEq, Repr

/-- A row of a parameter table. -/
structure ParamInfo where
  id : Nat
  level : PLevel
  range : PRange
  dflt : Int
  effect : PEffect
  readsZero : Bool
  deriving DecidableEq, Repr

namespace Param

/-- DEV.MODE_REQ. -/
abbrev devModeReq : Nat := 0x0100
/-- DEV.COMPAT_4208. -/
abbrev devCompat4208 : Nat := 0x0101
/-- DEV.KEEL_WD_PERIOD. -/
abbrev devKeelWdPeriod : Nat := 0x0102
/-- DEV.RIPCORD_HOLD. -/
abbrev devRipcordHold : Nat := 0x0103
/-- POL.RETIRE_RECEIVER. -/
abbrev polRetireReceiver : Nat := 0x0110
/-- POL.RETIRE_DECODER. -/
abbrev polRetireDecoder : Nat := 0x0111
/-- POL.RETIRE_DRAM_PAGE. -/
abbrev polRetireDramPage : Nat := 0x0112
/-- POL.RETIRE_NAND. -/
abbrev polRetireNand : Nat := 0x0113
/-- POL.RETIRE_TETHER_LANE. -/
abbrev polRetireTetherLane : Nat := 0x0114
/-- POL.REMOUNT. -/
abbrev polRemount : Nat := 0x0115
/-- POL.WEAK_REWRITE. -/
abbrev polWeakRewrite : Nat := 0x0116
/-- POL.TAKEOVER. -/
abbrev polTakeover : Nat := 0x0117
/-- AFE.CAL_TEMP_DELTA. -/
abbrev afeCalTempDelta : Nat := 0x1000
/-- AFE.CAL_REQ. -/
abbrev afeCalReq : Nat := 0x1001
/-- AFE.CAL_AT_MOUNT. -/
abbrev afeCalAtMount : Nat := 0x1002
/-- AFE.GAIN_TARGET. -/
abbrev afeGainTarget : Nat := 0x1003
/-- AFE.CAL_WINDOW. -/
abbrev afeCalWindow : Nat := 0x1004
/-- AFE.FAULT_CLIP. -/
abbrev afeFaultClip : Nat := 0x1005
/-- AFE.FAULT_STUCK. -/
abbrev afeFaultStuck : Nat := 0x1006
/-- AFE.SUM_BAND. -/
abbrev afeSumBand : Nat := 0x1007
/-- AFE.RELIEF_SETTLE. -/
abbrev afeReliefSettle : Nat := 0x1008
/-- AFE.TEMP_SCALE. -/
abbrev afeTempScale : Nat := 0x1009
/-- AFE.TEMP_OFFSET. -/
abbrev afeTempOffset : Nat := 0x100A
/-- AFE.TEMP_LIMIT. -/
abbrev afeTempLimit : Nat := 0x100B
/-- AFE.TRIM_B0. -/
abbrev afeTrimB0 : Nat := 0x1020
/-- AFE.RELIEF_SET_B0. -/
abbrev afeReliefSetB0 : Nat := 0x1028
/-- RDCH.TR_KP. -/
abbrev rdchTrKp : Nat := 0x1100
/-- RDCH.TR_KI. -/
abbrev rdchTrKi : Nat := 0x1101
/-- RDCH.PRE_DETECT. -/
abbrev rdchPreDetect : Nat := 0x1102
/-- RDCH.ACQ_WIN. -/
abbrev rdchAcqWin : Nat := 0x1103
/-- RDCH.SYNC_WIN. -/
abbrev rdchSyncWin : Nat := 0x1104
/-- RDCH.SYNC_THR. -/
abbrev rdchSyncThr : Nat := 0x1105
/-- RDCH.INS_LIMIT. -/
abbrev rdchInsLimit : Nat := 0x1106
/-- RDCH.INS_WEIGHT. -/
abbrev rdchInsWeight : Nat := 0x1107
/-- RDCH.GAIN_MU. -/
abbrev rdchGainMu : Nat := 0x1108
/-- RDCH.EQ_MU. -/
abbrev rdchEqMu : Nat := 0x1109
/-- RDCH.ITI_MU. -/
abbrev rdchItiMu : Nat := 0x110A
/-- RDCH.ITI_ENABLE. -/
abbrev rdchItiEnable : Nat := 0x110B
/-- RDCH.DEFECT_WIN. -/
abbrev rdchDefectWin : Nat := 0x110C
/-- RDCH.DFCT_DROP. -/
abbrev rdchDfctDrop : Nat := 0x110D
/-- RDCH.DFCT_MIN. -/
abbrev rdchDfctMin : Nat := 0x110E
/-- RDCH.DFCT_GUARD. -/
abbrev rdchDfctGuard : Nat := 0x110F
/-- RDCH.CORR_GAIN. -/
abbrev rdchCorrGain : Nat := 0x1110
/-- RDCH.CORR_TAP. -/
abbrev rdchCorrTap : Nat := 0x1111
/-- RDCH.CORR_FREQ. -/
abbrev rdchCorrFreq : Nat := 0x1112
/-- RDCH.WB_MAX_INS. -/
abbrev rdchWbMaxIns : Nat := 0x1113
/-- RDCH.BEAM_GEOM_B1. -/
abbrev rdchBeamGeomB1 : Nat := 0x1114
/-- RDCH.ALIGN_B0. -/
abbrev rdchAlignB0 : Nat := 0x1120
/-- RDCH.PR_TARGET_Z0. -/
abbrev rdchPrTargetZ0 : Nat := 0x1140
/-- DEC.ITER_DEMAND. -/
abbrev decIterDemand : Nat := 0x1200
/-- DEC.ITER_RETRY. -/
abbrev decIterRetry : Nat := 0x1201
/-- DEC.ITER_UPD. -/
abbrev decIterUpd : Nat := 0x1202
/-- DEC.ERASE_SKIP. -/
abbrev decEraseSkip : Nat := 0x1203
/-- DEC.RETRY_MAX_DEC. -/
abbrev decRetryMaxDec : Nat := 0x1204
/-- DEC.UPD_MAX_DEC. -/
abbrev decUpdMaxDec : Nat := 0x1205
/-- DEC.DEADLINE. -/
abbrev decDeadline : Nat := 0x1210
/-- DEC.LADDER_LAST. -/
abbrev decLadderLast : Nat := 0x1211
/-- DEC.LADDER_SLOW. -/
abbrev decLadderSlow : Nat := 0x1212
/-- DEC.COMBINE_MAX. -/
abbrev decCombineMax : Nat := 0x1213
/-- DEC.WEAK_ITER. -/
abbrev decWeakIter : Nat := 0x1214
/-- DEC.WEAK_RS. -/
abbrev decWeakRs : Nat := 0x1215
/-- DEC.UPD_ENABLE. -/
abbrev decUpdEnable : Nat := 0x1216
/-- DEC.UPD_DEPTH. -/
abbrev decUpdDepth : Nat := 0x1217
/-- DEC.UPD_STORE. -/
abbrev decUpdStore : Nat := 0x1218
/-- DEC.GEN. -/
abbrev decGen : Nat := 0x1219
/-- WR.OPC_TEMP_DELTA. -/
abbrev wrOpcTempDelta : Nat := 0x1300
/-- WR.OPC_STEPS. -/
abbrev wrOpcSteps : Nat := 0x1301
/-- WR.OPC_SPAN. -/
abbrev wrOpcSpan : Nat := 0x1302
/-- WR.OPC_VFAIL. -/
abbrev wrOpcVfail : Nat := 0x1303
/-- WR.OPC_REQ. -/
abbrev wrOpcReq : Nat := 0x1304
/-- WR.VFY_BER. -/
abbrev wrVfyBer : Nat := 0x1308
/-- WR.VFY_ITER. -/
abbrev wrVfyIter : Nat := 0x1309
/-- WR.VFY_INS. -/
abbrev wrVfyIns : Nat := 0x130A
/-- WR.VFY_ERASE_RUN. -/
abbrev wrVfyEraseRun : Nat := 0x130B
/-- WR.VFY_ERASE_SUM. -/
abbrev wrVfyEraseSum : Nat := 0x130C
/-- WR.REPL_TRIES. -/
abbrev wrReplTries : Nat := 0x130D
/-- WR.LDL_LATENCY. -/
abbrev wrLdlLatency : Nat := 0x1310
/-- WR.GATE_LEAD. -/
abbrev wrGateLead : Nat := 0x1311
/-- WR.SYNC_LOSS_WIN. -/
abbrev wrSyncLossWin : Nat := 0x1312
/-- WR.KAPPA_IN_L0. -/
abbrev wrKappaInL0 : Nat := 0x1320
/-- WR.KAPPA_OUT_L0. -/
abbrev wrKappaOutL0 : Nat := 0x1330
/-- WR.STRATEGY_SET. -/
abbrev wrStrategySet : Nat := 0x1340
/-- SRV.FOC_XOVER. -/
abbrev srvFocXover : Nat := 0x1400
/-- SRV.TRK_XOVER. -/
abbrev srvTrkXover : Nat := 0x1401
/-- SRV.TILT_XOVER. -/
abbrev srvTiltXover : Nat := 0x1402
/-- SRV.FOC_KA. -/
abbrev srvFocKa : Nat := 0x1403
/-- SRV.TRK_KA. -/
abbrev srvTrkKa : Nat := 0x1404
/-- SRV.FOC_KS. -/
abbrev srvFocKs : Nat := 0x1405
/-- SRV.TILT_KS. -/
abbrev srvTiltKs : Nat := 0x1406
/-- SRV.TILT_SENS. -/
abbrev srvTiltSens : Nat := 0x1407
/-- SRV.DPP_K. -/
abbrev srvDppK : Nat := 0x1408
/-- SRV.FOC_HOLD_WIN. -/
abbrev srvFocHoldWin : Nat := 0x1409
/-- SRV.TRK_HOLD_WIN. -/
abbrev srvTrkHoldWin : Nat := 0x140A
/-- SRV.DEAD_SPAN. -/
abbrev srvDeadSpan : Nat := 0x140B
/-- SRV.LAND_BOOST. -/
abbrev srvLandBoost : Nat := 0x140C
/-- SRV.LAND_TIME. -/
abbrev srvLandTime : Nat := 0x140D
/-- SRV.FOC_LOCK_BAND. -/
abbrev srvFocLockBand : Nat := 0x140E
/-- SRV.TRK_LOCK_BAND. -/
abbrev srvTrkLockBand : Nat := 0x140F
/-- SRV.FOC_SWEEP_V. -/
abbrev srvFocSweepV : Nat := 0x1410
/-- SRV.FOC_SWEEP_MAX. -/
abbrev srvFocSweepMax : Nat := 0x1411
/-- SRV.FOC_SUM_MIN. -/
abbrev srvFocSumMin : Nat := 0x1412
/-- SRV.TRK_CLOSE_V. -/
abbrev srvTrkCloseV : Nat := 0x1413
/-- SRV.RUNOUT_MAX. -/
abbrev srvRunoutMax : Nat := 0x1414
/-- SRV.JUMP_DELAY. -/
abbrev srvJumpDelay : Nat := 0x1418
/-- SRV.JUMP_TIME. -/
abbrev srvJumpTime : Nat := 0x1419
/-- SRV.JUMP_MAX. -/
abbrev srvJumpMax : Nat := 0x141A
/-- SRV.LJ_TIME. -/
abbrev srvLjTime : Nat := 0x141B
/-- SRV.LJ_WIN. -/
abbrev srvLjWin : Nat := 0x141C
/-- SRV.LJ_SPACING. -/
abbrev srvLjSpacing : Nat := 0x141D
/-- SRV.FOC_OFFSET. -/
abbrev srvFocOffset : Nat := 0x1420
/-- SRV.TILT_OFFSET. -/
abbrev srvTiltOffset : Nat := 0x1421
/-- SRV.SLED_KP. -/
abbrev srvSledKp : Nat := 0x1428
/-- SRV.SLED_DEADBAND. -/
abbrev srvSledDeadband : Nat := 0x1429
/-- SRV.LENS_LIMIT. -/
abbrev srvLensLimit : Nat := 0x142A
/-- SRV.FF_MODE. -/
abbrev srvFfMode : Nat := 0x1430
/-- SRV.TABLE_TEMP_DELTA. -/
abbrev srvTableTempDelta : Nat := 0x1431
/-- SRV.FOC_DRV_LIMIT. -/
abbrev srvFocDrvLimit : Nat := 0x1438
/-- SRV.TRK_DRV_LIMIT. -/
abbrev srvTrkDrvLimit : Nat := 0x1439
/-- SRV.TILT_DRV_LIMIT. -/
abbrev srvTiltDrvLimit : Nat := 0x143A
/-- SRV.FOC_PARK. -/
abbrev srvFocPark : Nat := 0x143B
/-- SRV.FE_SLOPE. -/
abbrev srvFeSlope : Nat := 0x1440
/-- SRV.TE_SLOPE. -/
abbrev srvTeSlope : Nat := 0x1441
/-- SRV.OVR_FOC. -/
abbrev srvOvrFoc : Nat := 0x1442
/-- SRV.OVR_TRK. -/
abbrev srvOvrTrk : Nat := 0x1443
/-- SRV.OVR_TILT. -/
abbrev srvOvrTilt : Nat := 0x1444
/-- SRV.OVR_SLED. -/
abbrev srvOvrSled : Nat := 0x1445
/-- SRV.TABLE_STATE. -/
abbrev srvTableState : Nat := 0x1446
/-- SPN.SPEED. -/
abbrev spnSpeed : Nat := 0x1500
/-- SPN.ACCEL. -/
abbrev spnAccel : Nat := 0x1501
/-- SPN.POLE_PAIRS. -/
abbrev spnPolePairs : Nat := 0x1502
/-- SPN.VBUS. -/
abbrev spnVbus : Nat := 0x1503
/-- SPN.MOTOR_R. -/
abbrev spnMotorR : Nat := 0x1504
/-- SPN.MOTOR_L. -/
abbrev spnMotorL : Nat := 0x1505
/-- SPN.MOTOR_KE. -/
abbrev spnMotorKe : Nat := 0x1506
/-- SPN.CUR_BW. -/
abbrev spnCurBw : Nat := 0x1507
/-- SPN.SPD_KP. -/
abbrev spnSpdKp : Nat := 0x1508
/-- SPN.SPD_KI. -/
abbrev spnSpdKi : Nat := 0x1509
/-- SPN.I_MAX. -/
abbrev spnIMax : Nat := 0x150A
/-- SPN.START_I. -/
abbrev spnStartI : Nat := 0x150B
/-- SPN.DROGUE_I. -/
abbrev spnDrogueI : Nat := 0x150C
/-- SPN.I_TRIP. -/
abbrev spnITrip : Nat := 0x150D
/-- SPN.SHUNT_SCALE. -/
abbrev spnShuntScale : Nat := 0x150E
/-- SPN.SHUNT_TMIN. -/
abbrev spnShuntTmin : Nat := 0x150F
/-- SPN.DEADTIME. -/
abbrev spnDeadtime : Nat := 0x1510
/-- SPN.SPEED_BAND. -/
abbrev spnSpeedBand : Nat := 0x1511
/-- SPN.SPINUP_TIMEOUT. -/
abbrev spnSpinupTimeout : Nat := 0x1512
/-- SPN.DROGUE_TIMEOUT. -/
abbrev spnDrogueTimeout : Nat := 0x1513
/-- SPN.STATE. -/
abbrev spnState : Nat := 0x1520
/-- SPN.SPEED_MEAS. -/
abbrev spnSpeedMeas : Nat := 0x1521
/-- SPN.ELEC_OFFSET. -/
abbrev spnElecOffset : Nat := 0x1522
/-- SPN.EST_PERIODS. -/
abbrev spnEstPeriods : Nat := 0x1523
/-- SPN.ANGLE_DIFF. -/
abbrev spnAngleDiff : Nat := 0x1524
/-- SLD.V_START. -/
abbrev sldVStart : Nat := 0x1600
/-- SLD.V_STOP. -/
abbrev sldVStop : Nat := 0x1601
/-- SLD.V_BREAK. -/
abbrev sldVBreak : Nat := 0x1602
/-- SLD.V_MAX. -/
abbrev sldVMax : Nat := 0x1603
/-- SLD.ACC1. -/
abbrev sldAcc1 : Nat := 0x1604
/-- SLD.ACC2. -/
abbrev sldAcc2 : Nat := 0x1605
/-- SLD.DEC1. -/
abbrev sldDec1 : Nat := 0x1606
/-- SLD.DEC2. -/
abbrev sldDec2 : Nat := 0x1607
/-- SLD.STEP_PITCH. -/
abbrev sldStepPitch : Nat := 0x1608
/-- SLD.RUN_DUTY. -/
abbrev sldRunDuty : Nat := 0x1609
/-- SLD.BEMF_K. -/
abbrev sldBemfK : Nat := 0x160A
/-- SLD.STANDSTILL. -/
abbrev sldStandstill : Nat := 0x160B
/-- SLD.HOLD_DUTY. -/
abbrev sldHoldDuty : Nat := 0x160C
/-- SLD.STANDSTILL_DELAY. -/
abbrev sldStandstillDelay : Nat := 0x160D
/-- SLD.STALL_WIN. -/
abbrev sldStallWin : Nat := 0x160E
/-- SLD.LIMIT_IN. -/
abbrev sldLimitIn : Nat := 0x160F
/-- SLD.LIMIT_OUT. -/
abbrev sldLimitOut : Nat := 0x1610
/-- SLD.DEADTIME. -/
abbrev sldDeadtime : Nat := 0x1611
/-- SLD.POS. -/
abbrev sldPos : Nat := 0x1620
/-- SLD.DEV. -/
abbrev sldDev : Nat := 0x1621
/-- SLD.STATE. -/
abbrev sldState : Nat := 0x1622
/-- BAY.IDLE_SPINDOWN. -/
abbrev bayIdleSpindown : Nat := 0x1700
/-- BAY.CLAMP_TIME. -/
abbrev bayClampTime : Nat := 0x1701
/-- BAY.WRITE_YIELD. -/
abbrev bayWriteYield : Nat := 0x1702
/-- BAY.DESTAGE_MAX_WAIT. -/
abbrev bayDestageMaxWait : Nat := 0x1703
/-- BAY.DESTAGE_MIN_RUN. -/
abbrev bayDestageMinRun : Nat := 0x1704
/-- BAY.LULL_SETTLE. -/
abbrev bayLullSettle : Nat := 0x1705
/-- BAY.SLOW_WAIT. -/
abbrev baySlowWait : Nat := 0x1706
/-- BAY.COAST_WAIT. -/
abbrev bayCoastWait : Nat := 0x1707
/-- BAY.RETURN. -/
abbrev bayReturn : Nat := 0x1708
/-- BAY.STATE. -/
abbrev bayState : Nat := 0x1710
/-- BAY.LANES. -/
abbrev bayLanes : Nat := 0x1711
/-- axis field HND.V_START, added to 0x2000 + 16 × axis. -/
abbrev hndAxisVStart : Nat := 0x0
/-- axis field HND.V_STOP, added to 0x2000 + 16 × axis. -/
abbrev hndAxisVStop : Nat := 0x1
/-- axis field HND.V_BREAK, added to 0x2000 + 16 × axis. -/
abbrev hndAxisVBreak : Nat := 0x2
/-- axis field HND.V_MAX, added to 0x2000 + 16 × axis. -/
abbrev hndAxisVMax : Nat := 0x3
/-- axis field HND.ACC1, added to 0x2000 + 16 × axis. -/
abbrev hndAxisAcc1 : Nat := 0x4
/-- axis field HND.ACC2, added to 0x2000 + 16 × axis. -/
abbrev hndAxisAcc2 : Nat := 0x5
/-- axis field HND.DEC1, added to 0x2000 + 16 × axis. -/
abbrev hndAxisDec1 : Nat := 0x6
/-- axis field HND.DEC2, added to 0x2000 + 16 × axis. -/
abbrev hndAxisDec2 : Nat := 0x7
/-- axis field HND.STALL_WIN, added to 0x2000 + 16 × axis. -/
abbrev hndAxisStallWin : Nat := 0x8
/-- axis field HND.STANDSTILL, added to 0x2000 + 16 × axis. -/
abbrev hndAxisStandstill : Nat := 0x9
/-- axis field HND.HOLD_DUTY, added to 0x2000 + 16 × axis. -/
abbrev hndAxisHoldDuty : Nat := 0xA
/-- axis field HND.STANDSTILL_DELAY, added to 0x2000 + 16 × axis. -/
abbrev hndAxisStandstillDelay : Nat := 0xB
/-- axis field HND.LIMIT_LO, added to 0x2000 + 16 × axis. -/
abbrev hndAxisLimitLo : Nat := 0xC
/-- axis field HND.LIMIT_HI, added to 0x2000 + 16 × axis. -/
abbrev hndAxisLimitHi : Nat := 0xD
/-- axis field HND.STEP_PITCH, added to 0x2000 + 16 × axis. -/
abbrev hndAxisStepPitch : Nat := 0xE
/-- axis field HND.RUN_DUTY, added to 0x2000 + 16 × axis. -/
abbrev hndAxisRunDuty : Nat := 0xF
/-- HND.IN_QUIET. -/
abbrev hndInQuiet : Nat := 0x2040
/-- HND.IN_STUCK. -/
abbrev hndInStuck : Nat := 0x2041
/-- HND.LIFT. -/
abbrev hndLift : Nat := 0x2042
/-- HND.G_GRIP. -/
abbrev hndGGrip : Nat := 0x2043
/-- HND.G_OPEN. -/
abbrev hndGOpen : Nat := 0x2044
/-- HND.RESUME_DELAY. -/
abbrev hndResumeDelay : Nat := 0x2045
/-- HND.STOP_WAIT. -/
abbrev hndStopWait : Nat := 0x2046
/-- HND.POSITION_TABLE. -/
abbrev hndPositionTable : Nat := 0x2047
/-- HND.STATE. -/
abbrev hndState : Nat := 0x2050
/-- HND.OWN. -/
abbrev hndOwn : Nat := 0x2051
/-- HND.IN_LEVEL. -/
abbrev hndInLevel : Nat := 0x2052
/-- HND.IN_CLEAR. -/
abbrev hndInClear : Nat := 0x2053
/-- HND.RETURN. -/
abbrev hndReturn : Nat := 0x2054
/-- HND.IN_CFG0. -/
abbrev hndInCfg0 : Nat := 0x2060
/-- HND.IN_EDGES0. -/
abbrev hndInEdges0 : Nat := 0x2070
/-- QP.MOUNT_WAIT. -/
abbrev qpMountWait : Nat := 0x3000
/-- QP.SPACE_WAIT. -/
abbrev qpSpaceWait : Nat := 0x3001
/-- QP.FETCH_BURST. -/
abbrev qpFetchBurst : Nat := 0x3002
/-- QP.LINK_GEN_A. -/
abbrev qpLinkGenA : Nat := 0x3008
/-- QP.LINK_GEN_B. -/
abbrev qpLinkGenB : Nat := 0x3009
/-- QP.LINK_WIDTH_A. -/
abbrev qpLinkWidthA : Nat := 0x300A
/-- QP.LINK_WIDTH_B. -/
abbrev qpLinkWidthB : Nat := 0x300B
/-- QP.CPL_TIMEOUT. -/
abbrev qpCplTimeout : Nat := 0x300C
/-- QP.LINK_STATE_A. -/
abbrev qpLinkStateA : Nat := 0x3020
/-- QP.LINK_STATE_B. -/
abbrev qpLinkStateB : Nat := 0x3021
/-- STG.DIRTY_LIMIT. -/
abbrev stgDirtyLimit : Nat := 0x3100
/-- STG.OP. -/
abbrev stgOp : Nat := 0x3101
/-- STG.SPARE_PCT. -/
abbrev stgSparePct : Nat := 0x3102
/-- STG.GC_LOW. -/
abbrev stgGcLow : Nat := 0x3103
/-- STG.GC_HIGH. -/
abbrev stgGcHigh : Nat := 0x3104
/-- STG.CKPT_TIME. -/
abbrev stgCkptTime : Nat := 0x3105
/-- STG.CKPT_DELTA. -/
abbrev stgCkptDelta : Nat := 0x3106
/-- STG.WEAR_GAP. -/
abbrev stgWearGap : Nat := 0x3107
/-- STG.REFRESH_CLASS. -/
abbrev stgRefreshClass : Nat := 0x3108
/-- STG.DIE_RETIRE_PCT. -/
abbrev stgDieRetirePct : Nat := 0x3109
/-- STG.NAND_RATE. -/
abbrev stgNandRate : Nat := 0x310A
/-- STG.NAND_TEMP_DELTA. -/
abbrev stgNandTempDelta : Nat := 0x310B
/-- STG.STATE_CLEAR. -/
abbrev stgStateClear : Nat := 0x310C
/-- STG.USABLE. -/
abbrev stgUsable : Nat := 0x3120
/-- STG.VENT_BUDGET. -/
abbrev stgVentBudget : Nat := 0x3121
/-- STG.DIRTY. -/
abbrev stgDirty : Nat := 0x3122
/-- STG.STATE. -/
abbrev stgState : Nat := 0x3123
/-- STG.B_VENT. -/
abbrev stgBVent : Nat := 0x3124
/-- MEM.SCRUB_PERIOD. -/
abbrev memScrubPeriod : Nat := 0x3200
/-- MEM.RETIRE_CE. -/
abbrev memRetireCe : Nat := 0x3201
/-- CACHE.PREFETCH. -/
abbrev cachePrefetch : Nat := 0x3202
/-- BAL.SIZE_0. -/
abbrev balSize0 : Nat := 0x3210
/-- BAL.SIZE_1. -/
abbrev balSize1 : Nat := 0x3211
/-- BAL.SIZE_2. -/
abbrev balSize2 : Nat := 0x3212
/-- BAL.SIZE_3. -/
abbrev balSize3 : Nat := 0x3213
/-- BAL.FREE_0. -/
abbrev balFree0 : Nat := 0x3220
/-- MEM.CE_COUNT. -/
abbrev memCeCount : Nat := 0x3224
/-- MEM.UE_COUNT. -/
abbrev memUeCount : Nat := 0x3225
/-- MEM.RETIRED_PAGES. -/
abbrev memRetiredPages : Nat := 0x3226
/-- MEM.TRIPLE_STATE. -/
abbrev memTripleState : Nat := 0x3227
/-- BAL.MIN_0_0. -/
abbrev balMin : Nat := 0x3240
/-- PAIR.ACCEPT_JOIN. -/
abbrev pairAcceptJoin : Nat := 0x3300
/-- PAIR.AUTO_REJOIN. -/
abbrev pairAutoRejoin : Nat := 0x3301
/-- PAIR.PEER_OK_FILTER. -/
abbrev pairPeerOkFilter : Nat := 0x3302
/-- PAIR.DARK_WAIT. -/
abbrev pairDarkWait : Nat := 0x3303
/-- PAIR.LANES. -/
abbrev pairLanes : Nat := 0x3304
/-- PAIR.ROLE_WORD. -/
abbrev pairRoleWord : Nat := 0x3320
/-- PAIR.STATE. -/
abbrev pairState : Nat := 0x3321
/-- PAIR.CRC_COUNT. -/
abbrev pairCrcCount : Nat := 0x3322
/-- EVT.COALESCE. -/
abbrev evtCoalesce : Nat := 0x4000
/-- EVT.HOST_SEV_A. -/
abbrev evtHostSevA : Nat := 0x4001
/-- EVT.HOST_SEV_B. -/
abbrev evtHostSevB : Nat := 0x4002
/-- EVT.REEL_SEV. -/
abbrev evtReelSev : Nat := 0x4003
/-- EVT.REEL_FREEZE_SRC. -/
abbrev evtReelFreezeSrc : Nat := 0x4004
/-- EVT.REEL_POST. -/
abbrev evtReelPost : Nat := 0x4005
/-- EVT.DIAG_RUN. -/
abbrev evtDiagRun : Nat := 0x4006
/-- EVT.DIAG_RESULT. -/
abbrev evtDiagResult : Nat := 0x4020
/-- EVT.QUEUE_HELD. -/
abbrev evtQueueHeld : Nat := 0x4021
/-- EVT.REEL_STATE. -/
abbrev evtReelState : Nat := 0x4022
/-- PWR.HOLDUP_SCALE. -/
abbrev pwrHoldupScale : Nat := 0x0200
/-- PWR.HOLDUP_MIN. -/
abbrev pwrHoldupMin : Nat := 0x0201
/-- PWR.TJ_WARN. -/
abbrev pwrTjWarn : Nat := 0x0202
/-- PWR.PREFERRED_SLOT. -/
abbrev pwrPreferredSlot : Nat := 0x0203
/-- PWR.TJ. -/
abbrev pwrTj : Nat := 0x0220
/-- PWR.HOLDUP_V. -/
abbrev pwrHoldupV : Nat := 0x0221
/-- PWR.PLL_STATE. -/
abbrev pwrPllState : Nat := 0x0222
/-- PWR.RESET_CAUSE. -/
abbrev pwrResetCause : Nat := 0x0223

end Param

/-- Page 0x01. -/
def page01 : List ParamInfo := [
  ⟨0x0100, .device, .oneOf [3, 7, 8, 12], 3, .immediate, false⟩,
  ⟨0x0101, .device, .span 0 1, 0, .nextReset, false⟩,
  ⟨0x0102, .device, .span 10 1000, 100, .nextReset, false⟩,
  ⟨0x0103, .device, .span 0 60000, 100, .immediate, false⟩,
  ⟨0x0110, .device, .span 0 1, 1, .immediate, false⟩,
  ⟨0x0111, .device, .span 0 1, 1, .immediate, false⟩,
  ⟨0x0112, .device, .span 0 1, 1, .immediate, false⟩,
  ⟨0x0113, .device, .span 0 1, 1, .immediate, false⟩,
  ⟨0x0114, .device, .span 0 1, 1, .immediate, false⟩,
  ⟨0x0115, .device, .span 0 1, 1, .immediate, false⟩,
  ⟨0x0116, .device, .span 0 1, 1, .immediate, false⟩,
  ⟨0x0117, .device, .span 0 1, 1, .immediate, false⟩]

/-- Page 0x02. -/
def page02 : List ParamInfo := [
  ⟨0x0200, .device, .span 1 65535, 60, .immediate, false⟩,
  ⟨0x0201, .device, .span 0 65535, 40000, .immediate, false⟩,
  ⟨0x0202, .device, .span 70 105, 100, .immediate, false⟩,
  ⟨0x0203, .device, .span 0 1, 0, .immediate, false⟩,
  ⟨0x0220, .device, .readOnly, 0, .immediate, false⟩,
  ⟨0x0221, .device, .readOnly, 0, .immediate, false⟩,
  ⟨0x0222, .device, .readOnly, 0, .immediate, false⟩,
  ⟨0x0223, .device, .readOnly, 0, .immediate, false⟩]

/-- Page 0x10. -/
def page10 : List ParamInfo := [
  ⟨0x1000, .bay, .span 1 20, 4, .immediate, false⟩,
  ⟨0x1001, .bay, .span 0 31, 0, .immediate, true⟩,
  ⟨0x1002, .bay, .span 0 1, 1, .nextMount, false⟩,
  ⟨0x1003, .bay, .span 24 96, 56, .immediate, false⟩,
  ⟨0x1004, .bay, .span 4 64, 16, .immediate, false⟩,
  ⟨0x1005, .bay, .span 25 100, 50, .immediate, false⟩,
  ⟨0x1006, .bay, .span 1024 65536, 4096, .immediate, false⟩,
  ⟨0x1007, .bay, .span 5 50, 25, .immediate, false⟩,
  ⟨0x1008, .bay, .span 8 30, 16, .immediate, false⟩,
  ⟨0x1009, .bay, .span 1 65535, 256, .immediate, false⟩,
  ⟨0x100A, .bay, .span (-32768) 32767, -400, .immediate, false⟩,
  ⟨0x100B, .bay, .span 40 120, 85, .immediate, false⟩,
  ⟨0x1020, .bay, .readOnly, 0, .immediate, false⟩,
  ⟨0x1021, .bay, .readOnly, 0, .immediate, false⟩,
  ⟨0x1022, .bay, .readOnly, 0, .immediate, false⟩,
  ⟨0x1023, .bay, .readOnly, 0, .immediate, false⟩,
  ⟨0x1028, .bay, .readOnly, 0, .immediate, false⟩,
  ⟨0x1029, .bay, .readOnly, 0, .immediate, false⟩,
  ⟨0x102A, .bay, .readOnly, 0, .immediate, false⟩,
  ⟨0x102B, .bay, .readOnly, 0, .immediate, false⟩]

/-- Page 0x11. -/
def page11 : List ParamInfo := [
  ⟨0x1100, .bay, .span 3 10, 5, .nextCluster, false⟩,
  ⟨0x1101, .bay, .span 8 20, 14, .nextCluster, false⟩,
  ⟨0x1102, .bay, .span 64 512, 128, .nextCluster, false⟩,
  ⟨0x1103, .bay, .span 64 1024, 512, .nextCluster, false⟩,
  ⟨0x1104, .bay, .span 4 64, 24, .nextCluster, false⟩,
  ⟨0x1105, .bay, .span 0 10, 6, .nextCluster, false⟩,
  ⟨0x1106, .bay, .span 1 8, 3, .nextCluster, false⟩,
  ⟨0x1107, .bay, .span 0 16, 8, .nextCluster, false⟩,
  ⟨0x1108, .bay, .span 6 16, 10, .nextCluster, false⟩,
  ⟨0x1109, .bay, .span 8 20, 12, .nextCluster, false⟩,
  ⟨0x110A, .bay, .span 8 20, 13, .nextCluster, false⟩,
  ⟨0x110B, .bay, .span 0 3, 3, .nextCluster, false⟩,
  ⟨0x110C, .bay, .span 50 2000, 300, .immediate, false⟩,
  ⟨0x110D, .bay, .span 20 80, 50, .immediate, false⟩,
  ⟨0x110E, .bay, .span 16 1024, 64, .immediate, false⟩,
  ⟨0x110F, .bay, .span 0 256, 32, .immediate, false⟩,
  ⟨0x1110, .bay, .span 5 60, 15, .immediate, false⟩,
  ⟨0x1111, .bay, .span 8 128, 32, .immediate, false⟩,
  ⟨0x1112, .bay, .span 10 1000, 100, .immediate, false⟩,
  ⟨0x1113, .bay, .span 0 3, 1, .immediate, false⟩,
  ⟨0x1114, .bay, .span 0 1300, 0, .nextMount, false⟩,
  ⟨0x1115, .bay, .span 0 1300, 0, .nextMount, false⟩,
  ⟨0x1116, .bay, .span 0 1300, 0, .nextMount, false⟩,
  ⟨0x1120, .bay, .readOnly, 0, .immediate, false⟩,
  ⟨0x1121, .bay, .readOnly, 0, .immediate, false⟩,
  ⟨0x1122, .bay, .readOnly, 0, .immediate, false⟩,
  ⟨0x1123, .bay, .readOnly, 0, .immediate, false⟩,
  ⟨0x1140, .bay, .target, 0x12221, .nextMount, false⟩,
  ⟨0x1141, .bay, .target, 0x12221, .nextMount, false⟩,
  ⟨0x1142, .bay, .target, 0x12221, .nextMount, false⟩,
  ⟨0x1143, .bay, .target, 0x12221, .nextMount, false⟩,
  ⟨0x1144, .bay, .target, 0x12221, .nextMount, false⟩,
  ⟨0x1145, .bay, .target, 0x12221, .nextMount, false⟩,
  ⟨0x1146, .bay, .target, 0x12221, .nextMount, false⟩,
  ⟨0x1147, .bay, .target, 0x12221, .nextMount, false⟩,
  ⟨0x1148, .bay, .target, 0x12221, .nextMount, false⟩,
  ⟨0x1149, .bay, .target, 0x12221, .nextMount, false⟩]

/-- Page 0x12. -/
def page12 : List ParamInfo := [
  ⟨0x1200, .device, .span 4 50, 20, .immediate, false⟩,
  ⟨0x1201, .device, .span 4 100, 50, .immediate, false⟩,
  ⟨0x1202, .device, .span 2 50, 12, .immediate, false⟩,
  ⟨0x1203, .device, .span 5 100, 25, .immediate, false⟩,
  ⟨0x1204, .device, .span 1 15, 4, .immediate, false⟩,
  ⟨0x1205, .device, .span 0 15, 2, .immediate, false⟩,
  ⟨0x1210, .bay, .span 100 10000, 500, .nextCluster, false⟩,
  ⟨0x1211, .bay, .span 1 9, 9, .immediate, false⟩,
  ⟨0x1212, .bay, .span 0 1, 1, .immediate, false⟩,
  ⟨0x1213, .bay, .span 2 4, 4, .immediate, false⟩,
  ⟨0x1214, .bay, .span 4 50, 12, .immediate, false⟩,
  ⟨0x1215, .bay, .span 1 4, 2, .immediate, false⟩,
  ⟨0x1216, .bay, .span 0 1, 1, .immediate, false⟩,
  ⟨0x1217, .bay, .span 0 16384, 1024, .immediate, false⟩,
  ⟨0x1218, .bay, .span 0 16384, 2048, .immediate, false⟩,
  ⟨0x1219, .bay, .readOnly, 0, .immediate, false⟩]

/-- Page 0x13. -/
def page13a : List ParamInfo := [
  ⟨0x1300, .bay, .span 1 20, 5, .immediate, false⟩,
  ⟨0x1301, .bay, .odd 5 21, 11, .immediate, false⟩,
  ⟨0x1302, .bay, .span 5 40, 20, .immediate, false⟩,
  ⟨0x1303, .bay, .span 1 64, 4, .immediate, false⟩,
  ⟨0x1304, .bay, .span 0 65535, 0, .immediate, true⟩,
  ⟨0x1308, .bay, .span 100 10000, 1000, .immediate, false⟩,
  ⟨0x1309, .bay, .span 2 20, 8, .immediate, false⟩,
  ⟨0x130A, .bay, .span 0 8, 2, .immediate, false⟩,
  ⟨0x130B, .bay, .span 0 20000, 4000, .immediate, false⟩,
  ⟨0x130C, .bay, .span 0 60000, 8000, .immediate, false⟩,
  ⟨0x130D, .bay, .span 1 8, 3, .immediate, false⟩,
  ⟨0x1310, .bay, .span 0 255, 32, .nextMount, false⟩,
  ⟨0x1311, .bay, .span 16 256, 64, .immediate, false⟩,
  ⟨0x1312, .bay, .span 4 32, 8, .immediate, false⟩,
  ⟨0x1320, .bay, .readOnly, 0, .immediate, false⟩,
  ⟨0x1321, .bay, .readOnly, 0, .immediate, false⟩,
  ⟨0x1322, .bay, .readOnly, 0, .immediate, false⟩,
  ⟨0x1323, .bay, .readOnly, 0, .immediate, false⟩,
  ⟨0x1324, .bay, .readOnly, 0, .immediate, false⟩,
  ⟨0x1325, .bay, .readOnly, 0, .immediate, false⟩,
  ⟨0x1326, .bay, .readOnly, 0, .immediate, false⟩,
  ⟨0x1327, .bay, .readOnly, 0, .immediate, false⟩,
  ⟨0x1328, .bay, .readOnly, 0, .immediate, false⟩,
  ⟨0x1329, .bay, .readOnly, 0, .immediate, false⟩,
  ⟨0x132A, .bay, .readOnly, 0, .immediate, false⟩,
  ⟨0x132B, .bay, .readOnly, 0, .immediate, false⟩,
  ⟨0x132C, .bay, .readOnly, 0, .immediate, false⟩,
  ⟨0x132D, .bay, .readOnly, 0, .immediate, false⟩,
  ⟨0x132E, .bay, .readOnly, 0, .immediate, false⟩,
  ⟨0x132F, .bay, .readOnly, 0, .immediate, false⟩,
  ⟨0x1330, .bay, .readOnly, 0, .immediate, false⟩,
  ⟨0x1331, .bay, .readOnly, 0, .immediate, false⟩,
  ⟨0x1332, .bay, .readOnly, 0, .immediate, false⟩,
  ⟨0x1333, .bay, .readOnly, 0, .immediate, false⟩,
  ⟨0x1334, .bay, .readOnly, 0, .immediate, false⟩,
  ⟨0x1335, .bay, .readOnly, 0, .immediate, false⟩,
  ⟨0x1336, .bay, .readOnly, 0, .immediate, false⟩,
  ⟨0x1337, .bay, .readOnly, 0, .immediate, false⟩,
  ⟨0x1338, .bay, .readOnly, 0, .immediate, false⟩,
  ⟨0x1339, .bay, .readOnly, 0, .immediate, false⟩]

/-- Page 0x13. -/
def page13b : List ParamInfo := [
  ⟨0x133A, .bay, .readOnly, 0, .immediate, false⟩,
  ⟨0x133B, .bay, .readOnly, 0, .immediate, false⟩,
  ⟨0x133C, .bay, .readOnly, 0, .immediate, false⟩,
  ⟨0x133D, .bay, .readOnly, 0, .immediate, false⟩,
  ⟨0x133E, .bay, .readOnly, 0, .immediate, false⟩,
  ⟨0x133F, .bay, .readOnly, 0, .immediate, false⟩,
  ⟨0x1340, .device, .long, 0, .nextMount, false⟩]

/-- Page 0x14. -/
def page14a : List ParamInfo := [
  ⟨0x1400, .bay, .span 2000 12000, 6000, .nextPeriod, false⟩,
  ⟨0x1401, .bay, .span 2000 15000, 8000, .nextPeriod, false⟩,
  ⟨0x1402, .bay, .span 50 2000, 500, .nextPeriod, false⟩,
  ⟨0x1403, .bay, .span 16 65535, 256, .nextPeriod, false⟩,
  ⟨0x1404, .bay, .span 16 65535, 512, .nextPeriod, false⟩,
  ⟨0x1405, .bay, .span 10 200, 50, .nextPeriod, false⟩,
  ⟨0x1406, .bay, .span 1 1000, 64, .nextPeriod, false⟩,
  ⟨0x1407, .bay, .span 1 1000, 40, .nextMount, false⟩,
  ⟨0x1408, .bay, .span 0 4096, 1024, .nextPeriod, false⟩,
  ⟨0x1409, .bay, .span 200 20000, 2000, .immediate, false⟩,
  ⟨0x140A, .bay, .span 200 20000, 1000, .immediate, false⟩,
  ⟨0x140B, .bay, .span 1 4096, 64, .immediate, false⟩,
  ⟨0x140C, .bay, .span 16 48, 24, .immediate, false⟩,
  ⟨0x140D, .bay, .span 5 200, 20, .immediate, false⟩,
  ⟨0x140E, .bay, .span 10 200, 50, .immediate, false⟩,
  ⟨0x140F, .bay, .span 5 60, 20, .immediate, false⟩,
  ⟨0x1410, .bay, .span 2 20, 10, .immediate, false⟩,
  ⟨0x1411, .bay, .span 200 800, 500, .immediate, false⟩,
  ⟨0x1412, .bay, .span 1000 60000, 8000, .immediate, false⟩,
  ⟨0x1413, .bay, .span 5 100, 20, .immediate, false⟩,
  ⟨0x1414, .bay, .span 10 200, 100, .immediate, false⟩,
  ⟨0x1418, .bay, .span 0 20, 2, .immediate, false⟩,
  ⟨0x1419, .bay, .span 40 110, 80, .immediate, false⟩,
  ⟨0x141A, .bay, .span 4 64, 32, .immediate, false⟩,
  ⟨0x141B, .bay, .span 400 3000, 1000, .immediate, false⟩,
  ⟨0x141C, .bay, .span 100 2000, 500, .immediate, false⟩,
  ⟨0x141D, .bay, .span 3000 12000, 7000, .immediate, false⟩,
  ⟨0x1420, .bay, .span (-200) 200, 0, .immediate, false⟩,
  ⟨0x1421, .bay, .span (-100) 100, 0, .immediate, false⟩,
  ⟨0x1428, .bay, .span 1 100, 20, .nextPeriod, false⟩,
  ⟨0x1429, .bay, .span 0 2048, 128, .nextPeriod, false⟩,
  ⟨0x142A, .bay, .span 512 16384, 6000, .immediate, false⟩,
  ⟨0x1430, .bay, .span 0 1, 0, .immediate, false⟩,
  ⟨0x1431, .bay, .span 2 30, 10, .immediate, false⟩,
  ⟨0x1438, .bay, .span 1024 32767, 28000, .nextReset, false⟩,
  ⟨0x1439, .bay, .span 1024 32767, 24000, .nextReset, false⟩,
  ⟨0x143A, .bay, .span 1024 32767, 16000, .nextReset, false⟩,
  ⟨0x143B, .bay, .span (-32768) 32767, -24000, .nextReset, false⟩,
  ⟨0x1440, .bay, .readOnly, 0, .immediate, false⟩,
  ⟨0x1441, .bay, .readOnly, 0, .immediate, false⟩]

/-- Page 0x14. -/
def page14b : List ParamInfo := [
  ⟨0x1442, .bay, .readOnly, 0, .immediate, false⟩,
  ⟨0x1443, .bay, .readOnly, 0, .immediate, false⟩,
  ⟨0x1444, .bay, .readOnly, 0, .immediate, false⟩,
  ⟨0x1445, .bay, .readOnly, 0, .immediate, false⟩,
  ⟨0x1446, .bay, .readOnly, 0, .immediate, false⟩]

/-- Page 0x15. -/
def page15 : List ParamInfo := [
  ⟨0x1500, .bay, .span 1350 5400, 5400, .immediate, false⟩,
  ⟨0x1501, .bay, .span 500 6000, 3000, .immediate, false⟩,
  ⟨0x1502, .bay, .span 2 8, 4, .nextReset, false⟩,
  ⟨0x1503, .bay, .span 5000 24000, 12000, .immediate, false⟩,
  ⟨0x1504, .bay, .span 100 20000, 2000, .immediate, false⟩,
  ⟨0x1505, .bay, .span 10 5000, 400, .immediate, false⟩,
  ⟨0x1506, .bay, .span 100 5000, 700, .immediate, false⟩,
  ⟨0x1507, .bay, .span 500 4000, 2000, .nextPeriod, false⟩,
  ⟨0x1508, .bay, .span 1 4096, 64, .nextPeriod, false⟩,
  ⟨0x1509, .bay, .span 0 4096, 4, .nextPeriod, false⟩,
  ⟨0x150A, .bay, .span 100 4000, 1500, .immediate, false⟩,
  ⟨0x150B, .bay, .span 100 4000, 1200, .immediate, false⟩,
  ⟨0x150C, .bay, .span 100 3000, 800, .immediate, false⟩,
  ⟨0x150D, .bay, .span 200 8000, 3000, .immediate, false⟩,
  ⟨0x150E, .bay, .span 100 10000, 2000, .nextReset, false⟩,
  ⟨0x150F, .bay, .span 6 40, 12, .immediate, false⟩,
  ⟨0x1510, .bay, .span 5 100, 20, .nextReset, false⟩,
  ⟨0x1511, .bay, .span 1 50, 5, .immediate, false⟩,
  ⟨0x1512, .bay, .span 1000 10000, 4000, .immediate, false⟩,
  ⟨0x1513, .bay, .span 1000 20000, 8000, .immediate, false⟩,
  ⟨0x1520, .bay, .readOnly, 0, .immediate, false⟩,
  ⟨0x1521, .bay, .readOnly, 0, .immediate, false⟩,
  ⟨0x1522, .bay, .readOnly, 0, .immediate, false⟩,
  ⟨0x1523, .bay, .readOnly, 0, .immediate, false⟩,
  ⟨0x1524, .bay, .readOnly, 0, .immediate, false⟩]

/-- Page 0x16. -/
def page16 : List ParamInfo := [
  ⟨0x1600, .bay, .span 1 100, 20, .immediate, false⟩,
  ⟨0x1601, .bay, .span 1 100, 20, .immediate, false⟩,
  ⟨0x1602, .bay, .span 10 400, 100, .immediate, false⟩,
  ⟨0x1603, .bay, .span 20 400, 250, .immediate, false⟩,
  ⟨0x1604, .bay, .span 100 20000, 8000, .immediate, false⟩,
  ⟨0x1605, .bay, .span 100 20000, 5000, .immediate, false⟩,
  ⟨0x1606, .bay, .span 100 20000, 8000, .immediate, false⟩,
  ⟨0x1607, .bay, .span 100 20000, 5000, .immediate, false⟩,
  ⟨0x1608, .bay, .span 8 2000, 300, .nextReset, false⟩,
  ⟨0x1609, .bay, .span 10 100, 60, .immediate, false⟩,
  ⟨0x160A, .bay, .span 0 50, 10, .immediate, false⟩,
  ⟨0x160B, .bay, .span 0 2, 2, .immediate, false⟩,
  ⟨0x160C, .bay, .span 5 100, 30, .immediate, false⟩,
  ⟨0x160D, .bay, .span 0 1000, 20, .immediate, false⟩,
  ⟨0x160E, .bay, .span 4 400, 40, .immediate, false⟩,
  ⟨0x160F, .bay, .span 0 131071, 1000, .immediate, false⟩,
  ⟨0x1610, .bay, .span 0 131071, 74000, .immediate, false⟩,
  ⟨0x1611, .bay, .span 5 100, 20, .nextReset, false⟩,
  ⟨0x1620, .bay, .readOnly, 0, .immediate, false⟩,
  ⟨0x1621, .bay, .readOnly, 0, .immediate, false⟩,
  ⟨0x1622, .bay, .readOnly, 0, .immediate, false⟩]

/-- Page 0x17. -/
def page17 : List ParamInfo := [
  ⟨0x1700, .bay, .span 0 3600, 600, .immediate, false⟩,
  ⟨0x1701, .bay, .span 100 2000, 400, .immediate, false⟩,
  ⟨0x1702, .bay, .span 0 1000, 50, .immediate, false⟩,
  ⟨0x1703, .bay, .span 100 60000, 2000, .immediate, false⟩,
  ⟨0x1704, .bay, .span 9 900, 90, .immediate, false⟩,
  ⟨0x1705, .bay, .span 20 800, 250, .immediate, false⟩,
  ⟨0x1706, .bay, .span 100 60000, 5000, .immediate, false⟩,
  ⟨0x1707, .bay, .span 10 600, 120, .immediate, false⟩,
  ⟨0x1708, .bay, .span 0 1, 0, .immediate, true⟩,
  ⟨0x1710, .bay, .readOnly, 0, .immediate, false⟩,
  ⟨0x1711, .bay, .readOnly, 0, .immediate, false⟩]

/-- Page 0x20. -/
def page20a : List ParamInfo := [
  ⟨0x2000, .device, .span 100 20000, 2000, .immediate, false⟩,
  ⟨0x2001, .device, .span 100 20000, 2000, .immediate, false⟩,
  ⟨0x2002, .device, .span 1000 100000, 10000, .immediate, false⟩,
  ⟨0x2003, .device, .span 1000 100000, 40000, .immediate, false⟩,
  ⟨0x2004, .device, .span 1000 1000000, 200000, .immediate, false⟩,
  ⟨0x2005, .device, .span 1000 1000000, 200000, .immediate, false⟩,
  ⟨0x2006, .device, .span 1000 1000000, 200000, .immediate, false⟩,
  ⟨0x2007, .device, .span 1000 1000000, 200000, .immediate, false⟩,
  ⟨0x2008, .device, .span 4 2000, 50, .immediate, false⟩,
  ⟨0x2009, .device, .span 0 2, 2, .immediate, false⟩,
  ⟨0x200A, .device, .span 5 100, 30, .immediate, false⟩,
  ⟨0x200B, .device, .span 0 1000, 20, .immediate, false⟩,
  ⟨0x200C, .device, .span 0 1000000, 0, .immediate, false⟩,
  ⟨0x200D, .device, .span 0 1000000, 70000, .immediate, false⟩,
  ⟨0x200E, .device, .span 4 2000, 20, .nextReset, false⟩,
  ⟨0x200F, .device, .span 10 100, 60, .immediate, false⟩,
  ⟨0x2010, .device, .span 100 20000, 2000, .immediate, false⟩,
  ⟨0x2011, .device, .span 100 20000, 2000, .immediate, false⟩,
  ⟨0x2012, .device, .span 1000 100000, 10000, .immediate, false⟩,
  ⟨0x2013, .device, .span 1000 100000, 50000, .immediate, false⟩,
  ⟨0x2014, .device, .span 1000 1000000, 250000, .immediate, false⟩,
  ⟨0x2015, .device, .span 1000 1000000, 250000, .immediate, false⟩,
  ⟨0x2016, .device, .span 1000 1000000, 250000, .immediate, false⟩,
  ⟨0x2017, .device, .span 1000 1000000, 250000, .immediate, false⟩,
  ⟨0x2018, .device, .span 4 2000, 50, .immediate, false⟩,
  ⟨0x2019, .device, .span 0 2, 2, .immediate, false⟩,
  ⟨0x201A, .device, .span 5 100, 30, .immediate, false⟩,
  ⟨0x201B, .device, .span 0 1000, 20, .immediate, false⟩,
  ⟨0x201C, .device, .span 0 1000000, 0, .immediate, false⟩,
  ⟨0x201D, .device, .span 0 1000000, 90000, .immediate, false⟩,
  ⟨0x201E, .device, .span 4 2000, 20, .nextReset, false⟩,
  ⟨0x201F, .device, .span 10 100, 60, .immediate, false⟩,
  ⟨0x2020, .device, .span 100 20000, 1000, .immediate, false⟩,
  ⟨0x2021, .device, .span 100 20000, 1000, .immediate, false⟩,
  ⟨0x2022, .device, .span 1000 100000, 5000, .immediate, false⟩,
  ⟨0x2023, .device, .span 1000 100000, 18000, .immediate, false⟩,
  ⟨0x2024, .device, .span 1000 1000000, 36000, .immediate, false⟩,
  ⟨0x2025, .device, .span 1000 1000000, 36000, .immediate, false⟩,
  ⟨0x2026, .device, .span 1000 1000000, 36000, .immediate, false⟩,
  ⟨0x2027, .device, .span 1000 1000000, 36000, .immediate, false⟩]

/-- Page 0x20. -/
def page20b : List ParamInfo := [
  ⟨0x2028, .device, .span 4 2000, 20, .immediate, false⟩,
  ⟨0x2029, .device, .span 0 2, 2, .immediate, false⟩,
  ⟨0x202A, .device, .span 5 100, 30, .immediate, false⟩,
  ⟨0x202B, .device, .span 0 1000, 20, .immediate, false⟩,
  ⟨0x202C, .device, .span 0 1000000, 0, .immediate, false⟩,
  ⟨0x202D, .device, .span 0 1000000, 36000, .immediate, false⟩,
  ⟨0x202E, .device, .span 4 2000, 9, .nextReset, false⟩,
  ⟨0x202F, .device, .span 10 100, 60, .immediate, false⟩,
  ⟨0x2030, .device, .span 100 20000, 1000, .immediate, false⟩,
  ⟨0x2031, .device, .span 100 20000, 1000, .immediate, false⟩,
  ⟨0x2032, .device, .span 1000 100000, 5000, .immediate, false⟩,
  ⟨0x2033, .device, .span 1000 100000, 20000, .immediate, false⟩,
  ⟨0x2034, .device, .span 1000 1000000, 100000, .immediate, false⟩,
  ⟨0x2035, .device, .span 1000 1000000, 100000, .immediate, false⟩,
  ⟨0x2036, .device, .span 1000 1000000, 100000, .immediate, false⟩,
  ⟨0x2037, .device, .span 1000 1000000, 100000, .immediate, false⟩,
  ⟨0x2038, .device, .span 4 2000, 100, .immediate, false⟩,
  ⟨0x2039, .device, .span 0 2, 2, .immediate, false⟩,
  ⟨0x203A, .device, .span 5 100, 30, .immediate, false⟩,
  ⟨0x203B, .device, .span 0 1000, 20, .immediate, false⟩,
  ⟨0x203C, .device, .span 0 1000000, 0, .immediate, false⟩,
  ⟨0x203D, .device, .span 0 1000000, 4000, .immediate, false⟩,
  ⟨0x203E, .device, .span 4 2000, 10, .nextReset, false⟩,
  ⟨0x203F, .device, .span 10 100, 60, .immediate, false⟩,
  ⟨0x2040, .device, .span 1 1000, 10, .immediate, false⟩,
  ⟨0x2041, .device, .span 0 3600, 60, .immediate, false⟩,
  ⟨0x2042, .device, .span 100 10000, 1500, .immediate, false⟩,
  ⟨0x2043, .device, .span 0 4000, 3200, .immediate, false⟩,
  ⟨0x2044, .device, .span 0 4000, 200, .immediate, false⟩,
  ⟨0x2045, .device, .span 0 60000, 1000, .immediate, false⟩,
  ⟨0x2046, .device, .span 1 600, 60, .immediate, false⟩,
  ⟨0x2047, .device, .long, 0, .immediate, false⟩,
  ⟨0x2050, .device, .readOnly, 0, .immediate, false⟩,
  ⟨0x2051, .device, .readOnly, 0, .immediate, false⟩,
  ⟨0x2052, .device, .readOnly, 0, .immediate, false⟩,
  ⟨0x2053, .device, .span 0 4095, 0, .immediate, true⟩,
  ⟨0x2054, .device, .span 0 1, 0, .immediate, true⟩,
  ⟨0x2060, .device, .inputCfg, 0xa21, .immediate, false⟩,
  ⟨0x2061, .device, .inputCfg, 0xa21, .immediate, false⟩,
  ⟨0x2062, .device, .inputCfg, 0xa21, .immediate, false⟩]

/-- Page 0x20. -/
def page20c : List ParamInfo := [
  ⟨0x2063, .device, .inputCfg, 0x222, .immediate, false⟩,
  ⟨0x2064, .device, .inputCfg, 0xa23, .immediate, false⟩,
  ⟨0x2065, .device, .inputCfg, 0xa24, .immediate, false⟩,
  ⟨0x2066, .device, .inputCfg, 0xc825, .immediate, false⟩,
  ⟨0x2067, .device, .inputCfg, 0xc865, .immediate, false⟩,
  ⟨0x2068, .device, .inputCfg, 0xc8a5, .immediate, false⟩,
  ⟨0x2069, .device, .inputCfg, 0xc8e5, .immediate, false⟩,
  ⟨0x206A, .device, .inputCfg, 0xa20, .immediate, false⟩,
  ⟨0x206B, .device, .inputCfg, 0xa20, .immediate, false⟩,
  ⟨0x2070, .device, .readOnly, 0, .immediate, false⟩,
  ⟨0x2071, .device, .readOnly, 0, .immediate, false⟩,
  ⟨0x2072, .device, .readOnly, 0, .immediate, false⟩,
  ⟨0x2073, .device, .readOnly, 0, .immediate, false⟩,
  ⟨0x2074, .device, .readOnly, 0, .immediate, false⟩,
  ⟨0x2075, .device, .readOnly, 0, .immediate, false⟩,
  ⟨0x2076, .device, .readOnly, 0, .immediate, false⟩,
  ⟨0x2077, .device, .readOnly, 0, .immediate, false⟩,
  ⟨0x2078, .device, .readOnly, 0, .immediate, false⟩,
  ⟨0x2079, .device, .readOnly, 0, .immediate, false⟩,
  ⟨0x207A, .device, .readOnly, 0, .immediate, false⟩,
  ⟨0x207B, .device, .readOnly, 0, .immediate, false⟩]

/-- Page 0x30. -/
def page30 : List ParamInfo := [
  ⟨0x3000, .device, .span 1 600, 60, .immediate, false⟩,
  ⟨0x3001, .device, .span 0 60000, 5000, .immediate, false⟩,
  ⟨0x3002, .device, .span 1 64, 8, .immediate, false⟩,
  ⟨0x3008, .device, .span 1 4, 4, .nextReset, false⟩,
  ⟨0x3009, .device, .span 1 4, 4, .nextReset, false⟩,
  ⟨0x300A, .device, .oneOf [1, 2, 4], 4, .nextReset, false⟩,
  ⟨0x300B, .device, .oneOf [1, 2, 4], 4, .nextReset, false⟩,
  ⟨0x300C, .device, .span 1 1000, 50, .nextReset, false⟩,
  ⟨0x3020, .device, .readOnly, 0, .immediate, false⟩,
  ⟨0x3021, .device, .readOnly, 0, .immediate, false⟩]

/-- Page 0x31. -/
def page31 : List ParamInfo := [
  ⟨0x3100, .device, .span 64 4096, 512, .immediate, false⟩,
  ⟨0x3101, .device, .span 7 50, 7, .nextReset, false⟩,
  ⟨0x3102, .device, .span 1 10, 2, .nextReset, false⟩,
  ⟨0x3103, .device, .span 4 64, 8, .immediate, false⟩,
  ⟨0x3104, .device, .span 8 128, 16, .immediate, false⟩,
  ⟨0x3105, .device, .span 5 300, 30, .immediate, false⟩,
  ⟨0x3106, .device, .span 256 65536, 4096, .immediate, false⟩,
  ⟨0x3107, .device, .span 50 2000, 200, .immediate, false⟩,
  ⟨0x3108, .device, .span 3 7, 6, .immediate, false⟩,
  ⟨0x3109, .device, .span 1 50, 10, .immediate, false⟩,
  ⟨0x310A, .device, .span 400 1200, 1200, .nextReset, false⟩,
  ⟨0x310B, .device, .span 0 40, 15, .immediate, false⟩,
  ⟨0x310C, .device, .span 0 1, 0, .immediate, true⟩,
  ⟨0x3120, .device, .readOnly, 0, .immediate, false⟩,
  ⟨0x3121, .device, .readOnly, 0, .immediate, false⟩,
  ⟨0x3122, .device, .readOnly, 0, .immediate, false⟩,
  ⟨0x3123, .device, .readOnly, 0, .immediate, false⟩,
  ⟨0x3124, .device, .readOnly, 0, .immediate, false⟩]

/-- Page 0x32. -/
def page32a : List ParamInfo := [
  ⟨0x3200, .device, .span 1 720, 24, .immediate, false⟩,
  ⟨0x3201, .device, .span 2 1000, 16, .immediate, false⟩,
  ⟨0x3202, .device, .span 0 1, 1, .immediate, false⟩,
  ⟨0x3210, .device, .span 16 512, 64, .nextReset, false⟩,
  ⟨0x3211, .device, .span 256 16384, 1024, .nextReset, false⟩,
  ⟨0x3212, .device, .span 1024 65536, 4096, .nextReset, false⟩,
  ⟨0x3213, .device, .span 64 65536, 1024, .nextReset, false⟩,
  ⟨0x3220, .device, .readOnly, 0, .immediate, false⟩,
  ⟨0x3221, .device, .readOnly, 0, .immediate, false⟩,
  ⟨0x3222, .device, .readOnly, 0, .immediate, false⟩,
  ⟨0x3223, .device, .readOnly, 0, .immediate, false⟩,
  ⟨0x3224, .device, .readOnly, 0, .immediate, false⟩,
  ⟨0x3225, .device, .readOnly, 0, .immediate, false⟩,
  ⟨0x3226, .device, .readOnly, 0, .immediate, false⟩,
  ⟨0x3227, .device, .readOnly, 0, .immediate, false⟩,
  ⟨0x3240, .device, .poolMin 0, 4096, .immediate, false⟩,
  ⟨0x3241, .device, .poolMin 0, 4096, .immediate, false⟩,
  ⟨0x3242, .device, .poolMin 0, 0, .immediate, false⟩,
  ⟨0x3243, .device, .poolMin 0, 0, .immediate, false⟩,
  ⟨0x3244, .device, .poolMin 0, 0, .immediate, false⟩,
  ⟨0x3245, .device, .poolMin 0, 0, .immediate, false⟩,
  ⟨0x3246, .device, .poolMin 0, 0, .immediate, false⟩,
  ⟨0x3247, .device, .poolMin 0, 0, .immediate, false⟩,
  ⟨0x3248, .device, .poolMin 0, 0, .immediate, false⟩,
  ⟨0x3249, .device, .poolMin 0, 0, .immediate, false⟩,
  ⟨0x324A, .device, .poolMin 0, 4096, .immediate, false⟩,
  ⟨0x324B, .device, .poolMin 0, 1024, .immediate, false⟩,
  ⟨0x3250, .device, .poolMin 1, 8192, .immediate, false⟩,
  ⟨0x3251, .device, .poolMin 1, 8192, .immediate, false⟩,
  ⟨0x3252, .device, .poolMin 1, 8192, .immediate, false⟩,
  ⟨0x3253, .device, .poolMin 1, 8192, .immediate, false⟩,
  ⟨0x3254, .device, .poolMin 1, 8192, .immediate, false⟩,
  ⟨0x3255, .device, .poolMin 1, 8192, .immediate, false⟩,
  ⟨0x3256, .device, .poolMin 1, 8192, .immediate, false⟩,
  ⟨0x3257, .device, .poolMin 1, 8192, .immediate, false⟩,
  ⟨0x3258, .device, .poolMin 1, 8192, .immediate, false⟩,
  ⟨0x3259, .device, .poolMin 1, 8192, .immediate, false⟩,
  ⟨0x325A, .device, .poolMin 1, 16384, .immediate, false⟩,
  ⟨0x325B, .device, .poolMin 1, 1024, .immediate, false⟩,
  ⟨0x3260, .device, .poolMin 2, 512, .immediate, false⟩]

/-- Page 0x32. -/
def page32b : List ParamInfo := [
  ⟨0x3261, .device, .poolMin 2, 512, .immediate, false⟩,
  ⟨0x3262, .device, .poolMin 2, 256, .immediate, false⟩,
  ⟨0x3263, .device, .poolMin 2, 256, .immediate, false⟩,
  ⟨0x3264, .device, .poolMin 2, 256, .immediate, false⟩,
  ⟨0x3265, .device, .poolMin 2, 256, .immediate, false⟩,
  ⟨0x3266, .device, .poolMin 2, 256, .immediate, false⟩,
  ⟨0x3267, .device, .poolMin 2, 256, .immediate, false⟩,
  ⟨0x3268, .device, .poolMin 2, 256, .immediate, false⟩,
  ⟨0x3269, .device, .poolMin 2, 256, .immediate, false⟩,
  ⟨0x326A, .device, .poolMin 2, 8192, .immediate, false⟩,
  ⟨0x326B, .device, .poolMin 2, 256, .immediate, false⟩,
  ⟨0x3270, .device, .poolMin 3, 64, .immediate, false⟩,
  ⟨0x3271, .device, .poolMin 3, 64, .immediate, false⟩,
  ⟨0x3272, .device, .poolMin 3, 0, .immediate, false⟩,
  ⟨0x3273, .device, .poolMin 3, 0, .immediate, false⟩,
  ⟨0x3274, .device, .poolMin 3, 0, .immediate, false⟩,
  ⟨0x3275, .device, .poolMin 3, 0, .immediate, false⟩,
  ⟨0x3276, .device, .poolMin 3, 0, .immediate, false⟩,
  ⟨0x3277, .device, .poolMin 3, 0, .immediate, false⟩,
  ⟨0x3278, .device, .poolMin 3, 0, .immediate, false⟩,
  ⟨0x3279, .device, .poolMin 3, 0, .immediate, false⟩,
  ⟨0x327A, .device, .poolMin 3, 64, .immediate, false⟩,
  ⟨0x327B, .device, .poolMin 3, 0, .immediate, false⟩]

/-- Page 0x33. -/
def page33 : List ParamInfo := [
  ⟨0x3300, .device, .span 0 1, 1, .immediate, false⟩,
  ⟨0x3301, .device, .span 0 1, 1, .immediate, false⟩,
  ⟨0x3302, .device, .span 2 20, 5, .immediate, false⟩,
  ⟨0x3303, .device, .span 10 600, 60, .immediate, false⟩,
  ⟨0x3304, .device, .oneOf [1, 2, 4], 4, .nextReset, false⟩,
  ⟨0x3320, .device, .readOnly, 0, .immediate, false⟩,
  ⟨0x3321, .device, .readOnly, 0, .immediate, false⟩,
  ⟨0x3322, .device, .readOnly, 0, .immediate, false⟩]

/-- Page 0x40. -/
def page40 : List ParamInfo := [
  ⟨0x4000, .device, .span 0 100000, 1000, .immediate, false⟩,
  ⟨0x4001, .device, .span 0 4, 1, .immediate, false⟩,
  ⟨0x4002, .device, .span 0 4, 1, .immediate, false⟩,
  ⟨0x4003, .device, .span 0 4, 2, .immediate, false⟩,
  ⟨0x4004, .device, .freezeSrc, 0xFFFF, .immediate, false⟩,
  ⟨0x4005, .device, .span 0 1024, 64, .immediate, false⟩,
  ⟨0x4006, .device, .diag, 0, .immediate, false⟩,
  ⟨0x4020, .device, .readOnly, 0, .immediate, false⟩,
  ⟨0x4021, .device, .readOnly, 0, .immediate, false⟩,
  ⟨0x4022, .device, .readOnly, 0, .immediate, false⟩]

/-- Every listed parameter. -/
def paramTable : List ParamInfo :=
  page01 ++ page02 ++ page10 ++ page11 ++ page12 ++ page13a ++ page13b ++ page14a ++ page14b ++ page15 ++ page16 ++ page17 ++ page20a ++ page20b ++ page20c ++ page30 ++ page31 ++ page32a ++ page32b ++ page33 ++ page40

/-- The row of an ID, if it is listed (R10). -/
def paramInfo (id : Nat) : Option ParamInfo := paramTable.find? (fun r => r.id == id)

/-- The default of an ID; 0 where it is not listed. -/
def paramDefault (id : Nat) : Int := match paramInfo id with | some r => r.dflt | none => 0

/-- The key of a parameter of an instance: a bay, or 8 above bay level. -/
def paramKey (inst id : Nat) : Nat := inst * 65536 + id

/-- The value last accepted (R11). -/
def Params.acceptedOf (p : Params) (inst id : Nat) : Int :=
  match lookupKey p.accepted (paramKey inst id) with
  | some v => v
  | none => paramDefault id

/-- The value in force (R11). -/
def Params.value (p : Params) (inst id : Nat) : Int :=
  match lookupKey p.inForce (paramKey inst id) with
  | some v => v
  | none => paramDefault id

/-- Accept a value; it is in force at once when the effect term is Immediate (R11, Table 0.5). -/
def Params.accept (p : Params) (inst : Nat) (r : ParamInfo) (v : Int) : Params :=
  let q := { p with accepted := insertKey p.accepted (paramKey inst r.id) v }
  match r.effect with
  | .immediate => { q with inForce := insertKey q.inForce (paramKey inst r.id) v }
  | _ => q

/-- An effect point: the accepted values of the effect term `e` come into force for the instances that `which` holds of. -/
def Params.applyEffect (p : Params) (e : PEffect) (which : Nat → Bool) : Params :=
  { p with inForce := p.accepted.foldl (fun acc kv =>
      match paramInfo (kv.1 % 65536) with
      | some r => if r.effect = e ∧ which (kv.1 / 65536) then insertKey acc kv.1 kv.2 else acc
      | none => acc) p.inForce }

/-- Parameters of the units selected whose effect is the next period, of those a loop uses, come into force (R11). -/
def Params.applyPeriod (p : Params) (ids : Nat → Bool) (which : Nat → Bool) : Params :=
  { p with inForce := p.accepted.foldl (fun acc kv =>
      match paramInfo (kv.1 % 65536) with
      | some r => if r.effect = .nextPeriod ∧ ids (kv.1 % 65536) = true ∧ which (kv.1 / 65536) then insertKey acc kv.1 kv.2 else acc
      | none => acc) p.inForce }

/-- RDCH.PR_TARGET words (R100): coefficients 0 to 7, the first at least 1, their sum at most 12. -/
def targetOk (v : Int) : Bool :=
  let w := v.toNat
  let t0 := w / 65536 % 16; let t1 := w / 4096 % 16; let t2 := w / 256 % 16; let t3 := w / 16 % 16; let t4 := w % 16
  decide (0 ≤ v ∧ w < 0x100000 ∧ 1 ≤ t0 ∧ t0 ≤ 7 ∧ t1 ≤ 7 ∧ t2 ≤ 7 ∧ t3 ≤ 7 ∧ t4 ≤ 7 ∧ t0 + t1 + t2 + t3 + t4 ≤ 12)

/-- HND.IN_CFG words on their own (R266): debounce count 1 to 255, function 0 to 5, reserved fields 0. -/
def inputCfgOk (v : Int) : Bool :=
  let w := v.toNat
  decide (0 ≤ v ∧ w < 65536 ∧ 1 ≤ w / 256 ∧ w / 16 % 2 = 0 ∧ w % 16 ≤ 5)

/-- EVT.DIAG_RUN words (Table 15.7): code [7:0], target [15:8], extent [31:16]. -/
def diagWordOk (v : Int) : Bool :=
  let w := v.toNat
  let code := w % 256; let tgt := w / 256 % 256; let ext := w / 65536
  decide (0 ≤ v ∧ w < 0x100000000) &&
  (match code with
   | 1 => decide (tgt ≤ 7 ∧ ext = 0)
   | 2 => decide ((tgt ≤ 15 ∨ tgt = 255) ∧ 1 ≤ ext ∧ ext ≤ 256)
   | 3 => decide (tgt = 0 ∧ 1 ≤ ext)
   | 4 => decide ((tgt ≤ 15 ∨ tgt = 255) ∧ 1 ≤ ext ∧ ext ≤ 16)
   | 5 => decide (1 ≤ tgt ∧ tgt ≤ 15 ∧ 1 ≤ ext ∧ ext ≤ 60)
   | 6 => decide (1 ≤ tgt ∧ tgt ≤ 15 ∧ 1 ≤ ext ∧ ext ≤ 60)
   | _ => false)

/-- The value lies in the range its row lists, as far as the row alone says (R10); `poolSize` gives the buffers of each
Ballast pool. -/
def PRange.holds (poolSize : Nat → Nat) (r : PRange) (v : Int) : Bool :=
  match r with
  | .span lo hi => decide (lo ≤ v ∧ v ≤ hi)
  | .odd lo hi => decide (lo ≤ v ∧ v ≤ hi ∧ v % 2 = 1)
  | .oneOf vs => vs.contains v
  | .readOnly => false
  | .long => false
  | .target => targetOk v
  | .inputCfg => inputCfgOk v
  | .freezeSrc => decide ((0 ≤ v ∧ v ≤ 0x47F) ∨ v = 0xFFFF)
  | .poolMin p => decide (0 ≤ v ∧ v ≤ poolSize p)
  | .diag => diagWordOk v

end Sys2Proof.Machine
end

