-- ==== Sys2Proof/Machine/Ops.lean ====
section
/-! DEFINITION. The named operations over the state that every meaning is built from: updating one unit, reading a parameter in force, free values, outputs. -/

namespace Sys2Proof

/-- The modes in which both ports are served (R306, "serving"). -/
def Mode.serving : Mode → Bool
  | .standalone => true | .paired => true | .pairedDegraded => true | _ => false

/-- The modes in which started commands go on though none start (Table 1.7). -/
def Mode.finishes (m : Mode) : Bool := decide (m = .takeover ∨ m = .quiesce ∨ m = .activate)

/-- The modes in which PEER_OK is active (R396). -/
def Mode.peerOk (m : Mode) : Bool :=
  decide ((3 ≤ m.code ∧ m.code ≤ 8) ∨ (10 ≤ m.code ∧ m.code ≤ 12))

/-- Error and Critical events (R13, R421). -/
def Severity.alarms : Severity → Bool
  | .error => true | .critical => true | _ => false

end Sys2Proof

namespace Sys2Proof.Machine

/-- A value as a whole number of its unit, where the spec does not round it (log entry 92). -/
def roundOpen (use : Nat) (v : Rat) : Int :=
  if v = v.floor then v.floor else v.floor + b2n (Config.roundsUp use v)

/-- A value held within a range. -/
def within (lo hi v : Int) : Int := max lo (min hi v)

/-! ### One unit of the state -/

/-- A change of the device-wide control state. -/
def State.onSys (s : State) (f : Sys → Sys) : State := { s with sys := f s.sys }
/-- A change of the event path. -/
def State.onEv (s : State) (f : EventPath → EventPath) : State := { s with ev := f s.ev }
/-- A change of one port. -/
def State.onPort (s : State) (p : Port) (f : PortState → PortState) : State :=
  { s with ports := s.ports.set p.val (f s.ports[p]) p.isLt }
/-- A change of one queue pair. -/
def State.onQueue (s : State) (p : Port) (q : QueueNo) (f : QueuePair → QueuePair) : State :=
  s.onPort p (fun t => { t with queues := t.queues.set q.val (f t.queues[q]) q.isLt })
/-- A change of one mailbox. -/
def State.onMbx (s : State) (p : Port) (f : Mailbox → Mailbox) : State := s.onPort p (fun t => { t with mbx := f t.mbx })
/-- A change of one event ring. -/
def State.onRing (s : State) (p : Port) (f : EvRing → EvRing) : State := s.onPort p (fun t => { t with ring := f t.ring })
/-- A change of one bay. -/
def State.onBay (s : State) (b : BayNo) (f : Bay → Bay) : State :=
  { s with bays := s.bays.set b.val (f s.bays[b]) b.isLt }
/-- A change of a bay's front end. -/
def State.onAfe (s : State) (b : BayNo) (f : Afe → Afe) : State := s.onBay b (fun t => { t with afe := f t.afe })
/-- A change of a bay's read channel. -/
def State.onRc (s : State) (b : BayNo) (f : ReadChannel → ReadChannel) : State :=
  s.onBay b (fun t => { t with rc := f t.rc })
/-- A change of one lane. -/
def State.onLane (s : State) (b : BayNo) (l : Beam) (f : Lane → Lane) : State :=
  s.onRc b (fun t => { t with lanes := t.lanes.set l.val (f t.lanes[l]) l.isLt })
/-- A change of a bay's decoding state. -/
def State.onDec (s : State) (b : BayNo) (f : BayDecode → BayDecode) : State := s.onBay b (fun t => { t with dec := f t.dec })
/-- A change of a bay's write path. -/
def State.onWp (s : State) (b : BayNo) (f : WritePath → WritePath) : State := s.onBay b (fun t => { t with wp := f t.wp })
/-- A change of a bay's servo. -/
def State.onSrv (s : State) (b : BayNo) (f : Servo → Servo) : State := s.onBay b (fun t => { t with srv := f t.srv })
/-- A change of a bay's spindle drive. -/
def State.onSpn (s : State) (b : BayNo) (f : Spindle → Spindle) : State := s.onBay b (fun t => { t with spn := f t.spn })
/-- A change of a bay's sled. -/
def State.onSld (s : State) (b : BayNo) (f : StepAxis → StepAxis) : State := s.onBay b (fun t => { t with sld := f t.sld })
/-- A change of a bay's sequencer. -/
def State.onSeq (s : State) (b : BayNo) (f : Seq → Seq) : State := s.onBay b (fun t => { t with seq := f t.seq })
/-- A change of a bay's disc, where it holds one. -/
def State.onDisc (s : State) (b : BayNo) (f : Disc → Disc) : State :=
  s.onSeq b (fun q => { q with disc := q.disc.map f })
/-- A change of the decoder pool. -/
def State.onPool (s : State) (f : Pool → Pool) : State := { s with pool := f s.pool }
/-- A change of one decoder. -/
def State.onDecoder (s : State) (d : DecNo) (f : Decoder → Decoder) : State :=
  s.onPool (fun p => { p with decs := p.decs.set d.val (f p.decs[d]) d.isLt })
/-- A change of the handler. -/
def State.onHnd (s : State) (f : Handler → Handler) : State := { s with hnd := f s.hnd }
/-- A change of one handler axis. -/
def State.onAxis (s : State) (a : AxisNo) (f : StepAxis → StepAxis) : State :=
  s.onHnd (fun h => { h with axes := h.axes.set a.val (f h.axes[a]) a.isLt })
/-- A change of one discrete input. -/
def State.onInput (s : State) (i : InputNo) (f : InputState → InputState) : State :=
  s.onHnd (fun h => { h with inputs := h.inputs.set i.val (f h.inputs[i]) i.isLt })
/-- A change of the staging tier. -/
def State.onStg (s : State) (f : Staging → Staging) : State := { s with stg := f s.stg }
/-- A change of memory. -/
def State.onMem (s : State) (f : Memory → Memory) : State := { s with mem := f s.mem }
/-- A change of the engine cache. -/
def State.onCache (s : State) (f : EngineCache → EngineCache) : State := s.onMem (fun m => { m with cache := f m.cache })
/-- A change of one Ballast pool. -/
def State.onPoolB (s : State) (p : Fin 4) (f : BallastPool → BallastPool) : State :=
  s.onMem (fun m => { m with pools := m.pools.set p.val (f m.pools[p]) p.isLt })
/-- A change of the pair. -/
def State.onPair (s : State) (f : Pair → Pair) : State := { s with pair := f s.pair }
/-- A change of the boot flash. -/
def State.onFlash (s : State) (f : BootFlash → BootFlash) : State := { s with flash := f s.flash }
/-- A change of one outstanding command. -/
def State.onCmd (s : State) (c : CmdId) (f : Cmd → Cmd) : State :=
  { s with cmds := updateFirst (fun x => decide (x.id = c)) f s.cmds }
/-- A change of one volume. -/
def State.onVol (s : State) (v : VolId) (f : Volume → Volume) : State :=
  { s with vols := updateFirst (fun x => decide (x.vid = v)) f s.vols }
/-- Every bay in turn. -/
def State.eachBay (s : State) (f : State → BayNo → State) : State := (List.finRange 8).foldl f s
/-- Both ports in turn. -/
def State.eachPort (s : State) (f : State → Port → State) : State := f (f s 0) 1

/-- A write of a word: the same value in all three banks in one cycle (R368). -/
def Triple.put (t : Triple) (w : Fin 31) (v : BitVec 64) : Triple :=
  { t with banks := t.banks.map (fun b => b.set w.val v w.isLt) }

/-- Several words, in one cycle. -/
def Triple.putAll (t : Triple) (ws : List (Nat × BitVec 64)) : Triple :=
  ws.foldl (fun acc kv => if h : kv.1 < 31 then acc.put ⟨kv.1, h⟩ kv.2 else acc) t

/-- Something the device puts out. -/
def State.emit (s : State) (o : Output) : State := { s with out := o :: s.out }

/-- The directory record in use: that of the copy with the higher sequence (R439). -/
def BootFlash.dir (f : BootFlash) : Directory := if f.dirs[0].seq < f.dirs[1].seq then f.dirs[1] else f.dirs[0]

/-- The image slots. -/
def BootFlash.slots (f : BootFlash) : Vector Slot 2 := f.dir.slots

/-- The preferred slot. -/
def BootFlash.preferred (f : BootFlash) : Fin 2 := f.dir.preferred

/-- Write a directory record with the next sequence, to copy A and then to copy B (R439). -/
def BootFlash.writeDir (f : BootFlash) (slots : Vector Slot 2) (preferred : Fin 2) : BootFlash :=
  { f with dirs := Vector.replicate 2 { slots := slots, preferred := preferred, seq := f.dir.seq + 1 } }

/-- Change a boot slot in a new directory record (R439), which names the slot that PWR.PREFERRED_SLOT asked for as preferred. -/
def State.writeSlot (s : State) (k : Fin 2) (x : Slot) : State :=
  let due := s.sys.preferDue
  (s.onFlash (fun f => f.writeDir (f.slots.set k.val x k.isLt) (due.getD f.preferred))).onSys (fun y => { y with preferDue := none })

/-! ### Reading -/

/-- A device-level parameter in force. -/
def State.dp (s : State) (id : Nat) : Int := s.params.value 8 id
/-- A bay-level parameter in force. -/
def State.bp (s : State) (b : BayNo) (id : Nat) : Int := s.params.value b.val id
/-- A device-level parameter in force, where it cannot be negative. -/
def State.dn (s : State) (id : Nat) : Nat := (s.dp id).toNat
/-- A bay-level parameter in force, where it cannot be negative. -/
def State.bn (s : State) (b : BayNo) (id : Nat) : Nat := (s.bp b id).toNat

/-- The outstanding command with an identity (R285). -/
def State.cmd? (s : State) (c : CmdId) : Option Cmd := s.cmds.find? (fun x => decide (x.id = c))
/-- The volume with an ID (R289). -/
def State.vol? (s : State) (v : VolId) : Option Volume := s.vols.find? (fun x => decide (x.vid = v))
/-- The bay in which a volume's disc is mounted (R236), if any. -/
def State.mountedIn (s : State) (v : VolId) : Option BayNo :=
  (List.finRange 8).find? (fun b => match s.bays[b].seq.disc with
    | some d => decide (d.vid = v) && d.mounted
    | none => false)
/-- The bay that holds a volume's disc, mounted or not. -/
def State.discIn (s : State) (v : VolId) : Option BayNo :=
  (List.finRange 8).find? (fun b => match s.bays[b].seq.disc with
    | some d => decide (d.vid = v)
    | none => false)

/-- The Tether is live: trained, with heartbeats (R397, R398). -/
def State.tetherLive (s : State) : Bool := decide (s.pair.link = .up) && s.pair.hbLive

/-- The device is PAIRED, or in a mode it entered from PAIRED (R400, Table 14.7). -/
def State.judges (s : State) : Bool :=
  match s.sys.mode with
  | .paired => true
  | .quiesce => decide (s.sys.cameFrom = .paired)
  | .activate => decide (s.sys.cameFrom = .paired)
  | .sanitize => decide (s.sys.cameFrom = .paired)
  | .vent => s.sys.ventPaired
  | _ => false

/-- The device has a live peer and mirrors its Writes (R397, R401). -/
def State.mirrors (s : State) : Bool := s.judges && s.tetherLive && !s.pair.degraded

/-- A started command of an opcode has still to finish, in a mode in which started commands go on (Table 1.7, R245; log entry
107). -/
def State.finishes (s : State) (which : Cmd → Bool) : Bool := s.sys.mode.finishes && s.cmds.any (fun c => c.started && which c)

/-- The domains that only the root PLL feeds run (R28): front ends, lanes, servo engines, detector converters, control cores,
fabric and decoders. The Keel, the PWM domains and the handler domain run on without it. -/
def State.rootRuns (s : State) : Bool := !s.sys.pllLost[0]

/-- The front ends, lanes and decoders run: their domains are clocked, and no Vent has gated them (R445; log entry 115). -/
def State.dspRuns (s : State) : Bool := s.rootRuns && decide (s.sys.mode ≠ .vent)

/-- A fresh number of the model's own, for a value the spec leaves open (log entry 14). -/
def State.fresh (s : State) : Nat × State := (s.sys.freeCount, s.onSys (fun y => { y with freeCount := y.freeCount + 1 }))

/-- An integer the spec leaves open (log entry 11). -/
def State.freeInt (s : State) (use : Nat) : Int × State :=
  (Config.freeInt use s.sys.freeCount, s.onSys (fun y => { y with freeCount := y.freeCount + 1 }))

/-- The answer of a meaning that completes. -/
abbrev Res := Host.Outcome State Fault Refusal

end Sys2Proof.Machine
end

