-- ==== Sys2Proof/Machine/Words.lean ====
section
/-! DEFINITION. The words of state that registers, parameters and the snapshots of events show: bays and lanes (Table 9.7), loop errors (Table 7.1), start values and canceller sides (Tables 4.4 and 4.5), sled, handler, staging, memory, pair and ports. -/

namespace Sys2Proof.Machine

/-- Position units in one count: velocities are held in 1/40,000 count per second and a period lasts 1/40,000 s. -/
def posUnit : Int := 1600000000

/-- The encoder less the commanded position, counts (R230, SLD.DEV). -/
def StepAxis.deviation (a : StepAxis) : Int := (a.encoder * posUnit - a.pos) / posUnit

/-- An axis in motion. -/
def StepAxis.moving (a : StepAxis) : Bool := decide (a.mode ≠ .standstill)

/-- Receiver `r` of a bay. -/
def Afe.recv (a : Afe) (r : RecvNo) : Receiver := a.recvs[r]

/-- The receiver of a beam. -/
def beamRecv (n : Beam) : RecvNo := ⟨n.val, by omega⟩

/-- The Relief line. -/
def reliefLine : RecvNo := 4

/-- A receiver is neither faulty nor retired. -/
def Receiver.usable (r : Receiver) : Bool := !r.faulty && !r.retired

/-- The Relief line can be switched onto an input: it is usable, and neither a carrier for a fault nor ordered to be one (R79). -/
def Afe.reliefFree (a : Afe) : Bool :=
  (a.recv reliefLine).usable && a.subst.isNone && (match a.relief with | .carrier _ true => false | _ => true)

/-- A lane has a receiver (R79, R246): its own, not retired and not faulty, or the Relief line: as its carrier, ordered onto its input,
or available to it. -/
def Bay.laneHasReceiver (t : Bay) (l : Beam) : Bool :=
  (t.afe.recv (beamRecv l)).usable || t.afe.laneRelief[l] || decide (t.afe.subst = some l) || t.afe.reliefFree

/-- The lanes with a receiver, bit n for Bn. -/
def Bay.lanesWith (t : Bay) : List Beam := (List.finRange 4).filter t.laneHasReceiver

/-- The lanes in use (R246): the longest run of adjacent lanes with a receiver, the higher-numbered on a tie. -/
def Bay.lanesInUse (t : Bay) : List Beam :=
  let ok := fun i : Nat => if h : i < 4 then t.laneHasReceiver ⟨i, h⟩ else false
  let runs : List (List Nat) :=
    [[0, 1, 2, 3], [1, 2, 3], [0, 1, 2], [2, 3], [1, 2], [0, 1], [3], [2], [1], [0]]
  match runs.find? (fun r => r.all ok) with
  | some r => (List.finRange 4).filter (fun l => r.contains l.val)
  | none => []

/-- The mask of a list of lanes. -/
def laneMask (ls : List Beam) : Nat := (ls.map (fun l => 2 ^ l.val)).sum

/-- The volume of a bay's disc, where it holds one. -/
def Bay.vid (t : Bay) : VolId := match t.seq.disc with | some d => d.vid | none => 0

/-- The disc in a bay is mounted. -/
def Bay.mounted (t : Bay) : Bool := match t.seq.disc with | some d => d.mounted | none => false

/-- A two's-complement field of `n` bits, as a number. -/
def twos (n : Nat) (v : Int) : Nat := (v % (2 ^ n : Int)).toNat

/-- A bay works with fewer lanes than four (R246). -/
def Bay.degraded (t : Bay) : Bool := decide (t.lanesInUse.length < 4)

/-- The disc in a bay is mounted and has no valid management set (R61). -/
def Bay.unformatted (t : Bay) : Bool := match t.seq.disc with | some d => d.mounted && d.mgmt.isNone | none => false

/-- The disc in a bay is read-only (R62). -/
def Bay.discReadOnly (t : Bay) : Bool := match t.seq.disc with | some d => d.readOnly | none => false

/-- BAY.STATE (Table 9.7). -/
def Bay.stateWord (t : Bay) : Nat :=
  t.seq.st.code + 16 * b2n t.mounted + 32 * b2n t.degraded + 64 * b2n t.unformatted + 128 * b2n t.discReadOnly
    + 65536 * t.vid.toNat

/-- BAY.LANES (Table 9.7). -/
def Bay.lanesWord (t : Bay) : Nat := laneMask t.lanesWith + 16 * laneMask t.lanesInUse

/-- SLD.STATE (Table 8.8): a stop along the ramp shows as the reversal it is planned like. -/
def StepAxis.stateWord (a : StepAxis) : Nat :=
  (match a.mode with
   | .standstill => 0 | .position => 1 | .velocity => 2 | .reversal => 3 | .home => 4 | .stopRamp => 3) + 256 * b2n a.homed

/-- A loop sample. -/
def Servo.sample (v : Servo) (i : Fin 8) : Int := (v.samples[i]).toNat

/-- The sum signal (R70). -/
def Servo.sum (v : Servo) : Int := v.sample 0 + v.sample 1 + v.sample 2 + v.sample 3

/-- A difference normalised to 4,096, 0 where its divisor is 0 (R173). -/
def normalised (num den : Int) : Rat := if den = 0 then 0 else (num : Rat) * 4096 / den

/-- The focus error FEN (Table 7.1). -/
def Servo.fen (v : Servo) : Rat := normalised (v.sample 0 + v.sample 2 - (v.sample 1 + v.sample 3)) v.sum

/-- The tracking error TEN with SRV.DPP_K `k` (Table 7.1). -/
def Servo.ten (v : Servo) (k : Int) : Rat :=
  normalised (v.sample 0 + v.sample 3 - (v.sample 1 + v.sample 2)) v.sum
    - (k : Rat) * normalised (v.sample 4 - v.sample 5) (v.sample 4 + v.sample 5) / 1024

/-- The tilt error TIN (Table 7.1), of the averaged tilt words. -/
def Servo.tin (v : Servo) : Rat :=
  normalised ((v.tiltWord.1 : Int) - v.tiltWord.2) ((v.tiltWord.1 : Int) + v.tiltWord.2)

/-- The error of a bay's tracking loop. -/
def State.tenOf (s : State) (b : BayNo) : Rat := s.bays[b].srv.ten (s.bp b Param.srvDppK)

/-- 2π in units of 10⁻⁹. -/
def twoPi : Nat := 6283185307

/-- The inner radius of each zone, 0.01 mm (Table 2.3). -/
def zoneRadius (z : Nat) : Nat := [2400, 2703, 3089, 3475, 3861, 4247, 4633, 5019, 5405, 5792].getD z 2400

/-- The beam offset of a distance in nm, in zone `z` (R103), to the nearest channel bit. -/
def offsetOf (z nm : Nat) : Nat :=
  -- k × 782,222.2 × D ÷ (2π × r): D in nm is 10⁻⁶ mm, r in 0.01 mm
  let num := (6 + z) * 7822222 * nm * 100 * 1000000000
  let den := twoPi * zoneRadius z * 10 * 1000000
  (2 * num + den) / (2 * den)

/-- The distance in nm that an offset in zone `z` gives (R103). -/
def distanceOf (z off : Nat) : Nat :=
  let num := off * twoPi * zoneRadius z * 10 * 1000000
  let den := (6 + z) * 7822222 * 100 * 1000000000
  (2 * num + den) / (2 * den)

/-- The distance of a beam from B0 that is in use, nm: what a geometry write gave in this mount, else the board's (R103). -/
def State.beamDistance (s : State) (b : BayNo) (l : Beam) : Nat :=
  if h : 0 < l.val then
    match s.bays[b].rc.learnt[l.val - 1]'(by omega) with
    | some d => d
    | none => s.bn b (Param.rdchBeamGeomB1 + (l.val - 1)) * 100
  else 0

/-- The key of a start table entry. -/
def startKey (z : Nat) (layer : LayerNo) (l : Beam) : Nat := z * 64 + layer.val * 4 + l.val

/-- The nominal start values (Table 4.4). -/
def nominalStart (off : Nat) : StartEntry :=
  { freq := 0, gain := 4096, offset := 0, asym := 0, eq := Vector.ofFn (fun i => if i.val = 7 then 256 else 0),
    outer := Vector.replicate 7 0, inner := Vector.replicate 7 0, beamOffset := off }

/-- The start table entry of a zone, layer and beam (R96): nominal until written, its beam offset from the distance (R103). -/
def State.startEntry (s : State) (b : BayNo) (z : Nat) (layer : LayerNo) (l : Beam) : StartEntry :=
  (lookupKey s.bays[b].rc.start (startKey z layer l)).getD (nominalStart (offsetOf z (s.beamDistance b l)))

/-- The zone a write run writes in. -/
def WriteRun.zone (r : WriteRun) : Nat := zoneOfTurn r.turn

/-- The zone of a lane's cluster. -/
def Lane.zone (x : Lane) : Nat := zoneOfTurn (addrTurn x.addr)

/-- The modes of a canceller side (R105). -/
inductive SideMode where
  | disabled | synchronous | asynchronous
  deriving DecidableEq, Repr

/-- The outer or inner neighbour of a lane (R101). -/
def neighbour (l : Beam) (outer : Bool) : Option Beam :=
  (List.finRange 4).find? (fun (n : Beam) => if outer then decide (n.val + 1 = l.val) else decide (l.val + 1 = n.val))

/-- The write run whose data feed the outer side of B1: the bay is in WRITING, on a turn of the zone of B1's cluster, and B1's offset
is known (R106, R163). -/
def State.writeFeed (s : State) (b : BayNo) (l : Beam) (outer : Bool) : Option WriteRun :=
  let t := s.bays[b]
  if outer && decide (l = 1 ∧ t.seq.st = .writing) then
    match t.wp.run with
    | some r =>
      if !r.finalRev && decide (r.zone = (t.rc.lanes[l]).zone ∧ (s.startEntry b r.zone r.layer 1).beamOffset ≠ 0) then some r else none
    | none => none
  else none

/-- The mode of one side of lane `l`, but for the channel bits that the neighbour's flags and inserted frames disable (Table 4.5). -/
def State.sideMode (s : State) (b : BayNo) (l : Beam) (outer : Bool) : SideMode :=
  let t := s.bays[b]
  let x := t.rc.lanes[l]
  let sync := if x.par.itiEnable % 2 = 1 then SideMode.synchronous else .disabled
  if x.par.cancelOff then .disabled
  else if (s.writeFeed b l outer).isSome then sync
  else match neighbour l outer with
    | none => .disabled
    | some n =>
      let y := t.rc.lanes[n]
      if y.phase ≠ .locked ∨ t.laneHasReceiver n = false ∨ y.alignBad = true then .disabled
      else if x.zone = y.zone then sync
      else if x.par.itiEnable / 2 % 2 = 1 then .asynchronous else .disabled

/-- The configuration word of an input. -/
def State.inCfg (s : State) (i : InputNo) : Nat := s.dn (Param.hndInCfg0 + i.val)

/-- The function of an input. -/
def State.inFun (s : State) (i : InputNo) : Nat := s.inCfg i % 16

/-- An input is active: its filter output is at its active level. -/
def State.inActive (s : State) (i : InputNo) : Bool := s.hnd.inputs[i].level == decide (s.inCfg i / 32 % 2 = 1)

/-- Some input of a function is active. -/
def State.funActive (s : State) (f : Nat) : Bool :=
  (List.finRange 12).any (fun i => decide (s.inFun i = f) && s.inActive i)

/-- The handler is at standstill: no interpolated move and no axis in motion. -/
def Handler.still (h : Handler) : Bool := h.path.isNone && h.axes.toList.all (fun a => !a.moving)

/-- The gripper holds a disc, as its input shows. -/
def State.gripped (s : State) : Bool := s.funActive 3

/-- HND.STATE (Table 10.8). -/
def State.hndStateWord (s : State) : Nat :=
  boolMask (s.hnd.axes.toList.map (·.homed)) + 16 * b2n (!s.hnd.still) + 32 * b2n s.hnd.stopped + 64 * b2n s.hnd.faulted
    + 128 * b2n s.gripped

/-- QP.LINK_STATE_A and QP.LINK_STATE_B (Table 11.13). -/
def PortState.linkWord (t : PortState) : Nat := t.linkGen + 8 * t.linkWidth + 64 * b2n t.linkUp

/-- STG.STATE (Table 12.13). -/
def Staging.stateWord (g : Staging) : Nat :=
  boolMask [g.full, g.writeProt, g.limited, g.incomplete, g.growing, g.recovering]

/-- MEM.TRIPLE_STATE (page 0x32): the banks and the number of words with a fault. -/
def Triple.stateWord (t : Triple) : Nat :=
  boolMask ((List.finRange 3).map (fun (b : Fin 3) => t.faulty.any (fun x => decide (x.2 = b))))
    + 65536 * ((t.faulty.map (·.1)).dedup).length

/-- PAIR.STATE (page 0x33). -/
def Pair.stateWord (q : Pair) : Nat :=
  boolMask [q.peerOkIn, q.hbLive, q.degraded, q.brokenWire, q.resync.isSome, q.handover, q.awaiting]
    + 256 * q.lanes.toNat + 4096 * q.width

/-- MBX_STATUS (Table 17.5). -/
def Mailbox.status (m : Mailbox) : Nat := boolMask [m.busy, m.done, m.overrun, m.held]

/-- Free buffers of a pool: those in the cache and in the ring. -/
def BallastPool.free (b : BallastPool) : Nat := b.cache.length + (b.ring.map (·.2)).sum

/-- Dirty bytes under R24: 65,536 for each cluster buffer. -/
def Staging.dirtyBytes (g : Staging) : Nat := 65536 * g.dirty.length

/-- The lens offset O (R177): the mean of the last 40 tracking drives less feed-forward. -/
def Servo.lensOffset (v : Servo) : Rat := if v.lens.isEmpty then 0 else v.lens.sum / v.lens.length

/-- The pair role word as 64 bits (Table 14.1). -/
def RoleWord.word (r : RoleWord) : BitVec 64 :=
  BitVec.ofNat 64 (r.role.toNat * 2 ^ 56 + r.peer.toNat * 2 ^ 24 + r.seq.toNat)

end Sys2Proof.Machine
end

