-- ==== Sys2Proof/Machine/Events.lean ====
section
/-! DEFINITION. Raising an event (R12, R413, R415, R421), the firmware event queue (R414 to R419), the Reel (R422, R423), the retry log (R426) and the copies to the host event rings (R420). -/

namespace Sys2Proof.Machine

/-- The events of a bay (Tables 3.5, 4.7, 5.3, 6.6, 7.11, 8.6, 9.6). -/
inductive BayEvent where
  | receiverFault | reliefSubstituted | receiverRecovered | receiverRetireProposed | receiverRetired | laneNoReceiver
  | calDone | calDisagree | receiverSuspect | calAborted | calLimit | detectorAdcStall
  | headTempRange | acqFail | syncInserted | frameLockLoss | clusterAddrUndecoded | clusterAddrMismatch
  | adaptCorrection | eqLimit | alignRange | itiAsync | defect | sumDefectLong
  | timingRange | clusterLate | readTransient | readPersistent | ladderStep | ladderRecovered
  | readUnrecovered | metaMismatch | weakCluster | updraftUndo | reasmFull | outerRepair
  | writeGateCut | verifyFail | verifyMarginal | replacementWritten | replacementFail | opcDone
  | opcFail | opcAreaFull | ldlCrc | ldlFault | unverified | servoHold
  | lullEnter | focusRetract | lullReleased | focusAcqDone | focusAcqFail | trackAcqDone
  | trackAcqFail | strideJumpFault | layerJumpFail | lensOffsetLimit | ffTables | runoutLimit
  | tailStopped | defectHold | spindleCoast | spindleStart | drogueBrake | spinupFail
  | spindleSensor | spindleSpeedBand | spindleOvercurrent | shuntBlind | encoderOverspeed | sledStall
  | sledLimit | bayState | mountFail | bayFaulted | bayDegraded | slowVisit
  deriving DecidableEq, Repr

/-- Its offset in the bay range (R12). -/
def BayEvent.offset : BayEvent → Nat
  | .receiverFault => 0x0 | .reliefSubstituted => 0x1 | .receiverRecovered => 0x2
  | .receiverRetireProposed => 0x3 | .receiverRetired => 0x4 | .laneNoReceiver => 0x5
  | .calDone => 0x6 | .calDisagree => 0x7 | .receiverSuspect => 0x8
  | .calAborted => 0x9 | .calLimit => 0xA | .detectorAdcStall => 0xB
  | .headTempRange => 0xC | .acqFail => 0x10 | .syncInserted => 0x11
  | .frameLockLoss => 0x12 | .clusterAddrUndecoded => 0x13 | .clusterAddrMismatch => 0x14
  | .adaptCorrection => 0x15 | .eqLimit => 0x16 | .alignRange => 0x17
  | .itiAsync => 0x18 | .defect => 0x19 | .sumDefectLong => 0x1A
  | .timingRange => 0x1B | .clusterLate => 0x20 | .readTransient => 0x21
  | .readPersistent => 0x22 | .ladderStep => 0x23 | .ladderRecovered => 0x24
  | .readUnrecovered => 0x25 | .metaMismatch => 0x26 | .weakCluster => 0x27
  | .updraftUndo => 0x28 | .reasmFull => 0x29 | .outerRepair => 0x2A
  | .writeGateCut => 0x30 | .verifyFail => 0x31 | .verifyMarginal => 0x32
  | .replacementWritten => 0x33 | .replacementFail => 0x34 | .opcDone => 0x35
  | .opcFail => 0x36 | .opcAreaFull => 0x37 | .ldlCrc => 0x38
  | .ldlFault => 0x39 | .unverified => 0x3A | .servoHold => 0x40
  | .lullEnter => 0x41 | .focusRetract => 0x42 | .lullReleased => 0x43
  | .focusAcqDone => 0x44 | .focusAcqFail => 0x45 | .trackAcqDone => 0x46
  | .trackAcqFail => 0x47 | .strideJumpFault => 0x48 | .layerJumpFail => 0x49
  | .lensOffsetLimit => 0x4A | .ffTables => 0x4B | .runoutLimit => 0x4C
  | .tailStopped => 0x4D | .defectHold => 0x4E | .spindleCoast => 0x50
  | .spindleStart => 0x51 | .drogueBrake => 0x52 | .spinupFail => 0x53
  | .spindleSensor => 0x54 | .spindleSpeedBand => 0x55 | .spindleOvercurrent => 0x56
  | .shuntBlind => 0x57 | .encoderOverspeed => 0x58 | .sledStall => 0x59
  | .sledLimit => 0x5A | .bayState => 0x5B | .mountFail => 0x5C
  | .bayFaulted => 0x5D | .bayDegraded => 0x5E | .slowVisit => 0x5F

/-- The severity of its table; where the table gives two, the lower of them (R413). -/
def BayEvent.sev : BayEvent → Severity
  | .receiverFault => .warning | .reliefSubstituted => .notice | .receiverRecovered => .notice
  | .receiverRetireProposed => .warning | .receiverRetired => .error | .laneNoReceiver => .error
  | .calDone => .info | .calDisagree => .warning | .receiverSuspect => .warning
  | .calAborted => .notice | .calLimit => .warning | .detectorAdcStall => .warning
  | .headTempRange => .warning | .acqFail => .warning | .syncInserted => .info
  | .frameLockLoss => .warning | .clusterAddrUndecoded => .notice | .clusterAddrMismatch => .warning
  | .adaptCorrection => .notice | .eqLimit => .warning | .alignRange => .warning
  | .itiAsync => .info | .defect => .info | .sumDefectLong => .warning
  | .timingRange => .warning | .clusterLate => .notice | .readTransient => .notice
  | .readPersistent => .warning | .ladderStep => .info | .ladderRecovered => .warning
  | .readUnrecovered => .error | .metaMismatch => .error | .weakCluster => .warning
  | .updraftUndo => .info | .reasmFull => .warning | .outerRepair => .info
  | .writeGateCut => .critical | .verifyFail => .warning | .verifyMarginal => .info
  | .replacementWritten => .notice | .replacementFail => .error | .opcDone => .info
  | .opcFail => .warning | .opcAreaFull => .warning | .ldlCrc => .notice
  | .ldlFault => .error | .unverified => .warning | .servoHold => .critical
  | .lullEnter => .critical | .focusRetract => .critical | .lullReleased => .notice
  | .focusAcqDone => .info | .focusAcqFail => .error | .trackAcqDone => .info
  | .trackAcqFail => .error | .strideJumpFault => .warning | .layerJumpFail => .warning
  | .lensOffsetLimit => .warning | .ffTables => .notice | .runoutLimit => .warning
  | .tailStopped => .info | .defectHold => .info | .spindleCoast => .critical
  | .spindleStart => .info | .drogueBrake => .notice | .spinupFail => .error
  | .spindleSensor => .warning | .spindleSpeedBand => .warning | .spindleOvercurrent => .error
  | .shuntBlind => .warning | .encoderOverspeed => .warning | .sledStall => .error
  | .sledLimit => .warning | .bayState => .info | .mountFail => .error
  | .bayFaulted => .error | .bayDegraded => .warning | .slowVisit => .notice

/-- The events of a host port (Table 11.12). -/
inductive PortEvent where
  | portLinkUp | portLinkDown | portLinkDegraded | portReset | queueReset | queueHalted
  | doorbellRange | dmaError | aerCorrectable | mailboxOverrun | bridleForeignWrite | waitExpired
  | powerState
  deriving DecidableEq, Repr

/-- Its offset in the port range (R317). -/
def PortEvent.offset : PortEvent → Nat
  | .portLinkUp => 0x0 | .portLinkDown => 0x1 | .portLinkDegraded => 0x2
  | .portReset => 0x3 | .queueReset => 0x4 | .queueHalted => 0x5
  | .doorbellRange => 0x6 | .dmaError => 0x7 | .aerCorrectable => 0x8
  | .mailboxOverrun => 0x9 | .bridleForeignWrite => 0xA | .waitExpired => 0xB
  | .powerState => 0xC

/-- The severity of its table; where the table gives two, the lower of them (R413). -/
def PortEvent.sev : PortEvent → Severity
  | .portLinkUp => .info | .portLinkDown => .warning | .portLinkDegraded => .warning
  | .portReset => .notice | .queueReset => .notice | .queueHalted => .error
  | .doorbellRange => .warning | .dmaError => .error | .aerCorrectable => .notice
  | .mailboxOverrun => .warning | .bridleForeignWrite => .warning | .waitExpired => .warning
  | .powerState => .info

/-- The events of a NAND channel (Table 12.10). -/
inductive NandEvent where
  | nandTransient | nandReadRetry | nandStripeRebuild | nandUnrecovered | nandBlockRetireProposed | nandBlockRetired
  | nandDieRetireProposed | nandDieRetired
  deriving DecidableEq, Repr

/-- Its offset in the channel range (R356). -/
def NandEvent.offset : NandEvent → Nat
  | .nandTransient => 0x0 | .nandReadRetry => 0x1 | .nandStripeRebuild => 0x2
  | .nandUnrecovered => 0x3 | .nandBlockRetireProposed => 0x4 | .nandBlockRetired => 0x5
  | .nandDieRetireProposed => 0x6 | .nandDieRetired => 0x7

/-- The severity of its table; where the table gives two, the lower of them (R413). -/
def NandEvent.sev : NandEvent → Severity
  | .nandTransient => .notice | .nandReadRetry => .notice | .nandStripeRebuild => .warning
  | .nandUnrecovered => .error | .nandBlockRetireProposed => .warning | .nandBlockRetired => .error
  | .nandDieRetireProposed => .warning | .nandDieRetired => .error

/-- The events of the shared units (Tables 5.4, 10.7, 12.11, 13.11, 14.8, 15.10, 16.9). -/
inductive DevEvent where
  | tetherUp | tetherDown | tetherCrc | tetherLaneRetireProposed | tetherLaneRetired | tetherDegraded
  | tetherRestored | peerOkLost | peerOkWire | peerLost | takeoverStart | takeoverDone
  | pairJoined | pairLeft | pairResync | peerReturned | handbackDone | handover
  | dramCorrected | dramTransient | dramUncorrected | dramPageRetireProposed | dramPageRetired | retiredListFull
  | scrubPass | tripleCorrected | triplePersistent | sramCorrected | sramUncorrected | busError
  | ballastRefused | ballastLow | dramConfig | handlerStop | handlerResumed | handlerStall
  | handlerLimit | handlerHomed | moveDone | pickFail | moveFail | handlerFaulted
  | handlerOwnTaken | handlerOwnReleased | handlerOwnConflict | inputChange | inputStuck | handlerEncOverspeed
  | positionTable | powerOn | warmReset | pllUnlock | refclkLost | ripcord
  | engineStalled | bootDone | bootSlotFallback | imageRejected | activateDone | pwrfail
  | holdupLow | thermalWarn | remountWithheld | decoderCheckFail | decoderTransient | decoderRetireProposed
  | decoderRetired | collectorStall | ventStart | ventDone | ventIncomplete | stagingRecovered
  | stagingWriteProtect | stagingFull | checkpoint | stagingCapacityLimited | nandGeometry | retentionRefresh
  | eventsLost | reelFrozen | reelThawed | diagPass | diagFail
  deriving DecidableEq, Repr

/-- Its source ID (R12). -/
def DevEvent.source : DevEvent → Nat
  | .tetherUp => 0x360 | .tetherDown => 0x361 | .tetherCrc => 0x362
  | .tetherLaneRetireProposed => 0x363 | .tetherLaneRetired => 0x364 | .tetherDegraded => 0x365
  | .tetherRestored => 0x366 | .peerOkLost => 0x367 | .peerOkWire => 0x368
  | .peerLost => 0x369 | .takeoverStart => 0x36A | .takeoverDone => 0x36B
  | .pairJoined => 0x36C | .pairLeft => 0x36D | .pairResync => 0x36E
  | .peerReturned => 0x36F | .handbackDone => 0x370 | .handover => 0x371
  | .dramCorrected => 0x400 | .dramTransient => 0x401 | .dramUncorrected => 0x402
  | .dramPageRetireProposed => 0x403 | .dramPageRetired => 0x404 | .retiredListFull => 0x405
  | .scrubPass => 0x406 | .tripleCorrected => 0x407 | .triplePersistent => 0x408
  | .sramCorrected => 0x409 | .sramUncorrected => 0x40A | .busError => 0x40B
  | .ballastRefused => 0x40C | .ballastLow => 0x40D | .dramConfig => 0x40E
  | .handlerStop => 0x420 | .handlerResumed => 0x421 | .handlerStall => 0x422
  | .handlerLimit => 0x423 | .handlerHomed => 0x424 | .moveDone => 0x425
  | .pickFail => 0x426 | .moveFail => 0x427 | .handlerFaulted => 0x428
  | .handlerOwnTaken => 0x429 | .handlerOwnReleased => 0x42A | .handlerOwnConflict => 0x42B
  | .inputChange => 0x42C | .inputStuck => 0x42D | .handlerEncOverspeed => 0x42E
  | .positionTable => 0x42F | .powerOn => 0x440 | .warmReset => 0x441
  | .pllUnlock => 0x442 | .refclkLost => 0x443 | .ripcord => 0x444
  | .engineStalled => 0x445 | .bootDone => 0x446 | .bootSlotFallback => 0x447
  | .imageRejected => 0x448 | .activateDone => 0x449 | .pwrfail => 0x44A
  | .holdupLow => 0x44B | .thermalWarn => 0x44C | .remountWithheld => 0x44D
  | .decoderCheckFail => 0x450 | .decoderTransient => 0x451 | .decoderRetireProposed => 0x452
  | .decoderRetired => 0x453 | .collectorStall => 0x454 | .ventStart => 0x460
  | .ventDone => 0x461 | .ventIncomplete => 0x462 | .stagingRecovered => 0x463
  | .stagingWriteProtect => 0x464 | .stagingFull => 0x465 | .checkpoint => 0x466
  | .stagingCapacityLimited => 0x467 | .nandGeometry => 0x468 | .retentionRefresh => 0x469
  | .eventsLost => 0x470 | .reelFrozen => 0x471 | .reelThawed => 0x472
  | .diagPass => 0x473 | .diagFail => 0x474

/-- The severity of its table; where the table gives two, the lower of them (R413). -/
def DevEvent.sev : DevEvent → Severity
  | .tetherUp => .info | .tetherDown => .warning | .tetherCrc => .notice
  | .tetherLaneRetireProposed => .warning | .tetherLaneRetired => .error | .tetherDegraded => .error
  | .tetherRestored => .notice | .peerOkLost => .warning | .peerOkWire => .error
  | .peerLost => .critical | .takeoverStart => .critical | .takeoverDone => .critical
  | .pairJoined => .critical | .pairLeft => .critical | .pairResync => .info
  | .peerReturned => .notice | .handbackDone => .critical | .handover => .critical
  | .dramCorrected => .notice | .dramTransient => .notice | .dramUncorrected => .error
  | .dramPageRetireProposed => .warning | .dramPageRetired => .error | .retiredListFull => .warning
  | .scrubPass => .info | .tripleCorrected => .warning | .triplePersistent => .error
  | .sramCorrected => .notice | .sramUncorrected => .error | .busError => .error
  | .ballastRefused => .error | .ballastLow => .warning | .dramConfig => .warning
  | .handlerStop => .critical | .handlerResumed => .notice | .handlerStall => .error
  | .handlerLimit => .warning | .handlerHomed => .info | .moveDone => .info
  | .pickFail => .warning | .moveFail => .error | .handlerFaulted => .error
  | .handlerOwnTaken => .notice | .handlerOwnReleased => .notice | .handlerOwnConflict => .warning
  | .inputChange => .info | .inputStuck => .warning | .handlerEncOverspeed => .warning
  | .positionTable => .warning | .powerOn => .info | .warmReset => .notice
  | .pllUnlock => .critical | .refclkLost => .critical | .ripcord => .critical
  | .engineStalled => .error | .bootDone => .info | .bootSlotFallback => .error
  | .imageRejected => .error | .activateDone => .notice | .pwrfail => .critical
  | .holdupLow => .warning | .thermalWarn => .warning | .remountWithheld => .warning
  | .decoderCheckFail => .warning | .decoderTransient => .notice | .decoderRetireProposed => .warning
  | .decoderRetired => .error | .collectorStall => .warning | .ventStart => .critical
  | .ventDone => .notice | .ventIncomplete => .critical | .stagingRecovered => .info
  | .stagingWriteProtect => .error | .stagingFull => .warning | .checkpoint => .info
  | .stagingCapacityLimited => .warning | .nandGeometry => .error | .retentionRefresh => .info
  | .eventsLost => .warning | .reelFrozen => .notice | .reelThawed => .info
  | .diagPass => .info | .diagFail => .error

/-- The units that raise events, with their source IDs (R12). -/
inductive Ev where
  | bay (b : BayNo) (e : BayEvent)
  | port (p : Port) (e : PortEvent)
  | nand (c : ChanNo) (e : NandEvent)
  | dev (e : DevEvent)
  deriving DecidableEq, Repr

/-- The source ID of an event (Table 0.7, Table 15.1). -/
def Ev.src : Ev → Nat
  | .bay b e => b.val * 0x60 + e.offset
  | .port p e => 0x300 + p.val * 0x30 + e.offset
  | .nand c e => 0x380 + 8 * c.val + e.offset
  | .dev e => e.source

/-- The severity its table gives (R413). -/
def Ev.sev : Ev → Severity
  | .bay _ e => e.sev
  | .port _ e => e.sev
  | .nand _ e => e.sev
  | .dev e => e.sev

/-! ### Payloads (R415) -/

/-- A field of a payload: its bytes and its value. -/
inductive PField where
  | u8 (v : Nat)
  | u16 (v : Nat)
  | u32 (v : Nat)
  | u64 (v : Nat)
  | s32 (v : Int)
  | s16 (v : Int)
  | s8 (v : Int)
  deriving DecidableEq, Repr

/-- The little-endian bytes of a field (R415). -/
def PField.bytes : PField → List Byte
  | .u8 v => leBytes 1 v
  | .u16 v => leBytes 2 v
  | .u32 v => leBytes 4 v
  | .u64 v => leBytes 8 v
  | .s32 v => leInt 4 v
  | .s16 v => leInt 2 v
  | .s8 v => leInt 1 v

/-- The payload of fields in order (R415), at most 36 bytes. -/
def payload (fs : List PField) : List Byte := (fs.flatMap PField.bytes).take 36

/-! ### Snapshots (Table 15.4) -/

/-- A Bool as an integer register. -/
def bi (b : Bool) : Int := if b then 1 else 0

/-- The Lull state of a loop as a register: 0, or the cause counted from 1. -/
def lullReg : Option LullCause → Int
  | none => 0 | some .frozen => 1 | some .dead => 2 | some .defectTooLong => 3 | some .overrun => 4 | some .coupled => 5

/-- A rational register, as its numerator and denominator. -/
def ratRegs (r : Rat) : List Int := [r.num, r.den]

/-- The registers of one loop in a bay's snapshot: error, applied drive, integrator and Lull state. -/
def loopRegs (err : Rat) (l : Loop) : List Int := ratRegs err ++ [l.drive, l.integ, lullReg l.lull]

/-- The mode of a canceller side as a register. -/
def SideMode.reg : SideMode → Int
  | .disabled => 0 | .synchronous => 1 | .asynchronous => 2

/-- The registers of one lane in a bay's snapshot: zone, sync offset, inserted-sync row, FIFO depth, canceller side modes and defect
state. -/
def State.laneRegs (s : State) (b : BayNo) (l : Beam) : List Int :=
  let x := s.bays[b].rc.lanes[l]
  [(x.zone : Int), (x.syncs.head?.map (·.offset)).getD 0, x.counted, x.depth, (s.sideMode b l true).reg, (s.sideMode b l false).reg,
    bi x.data.dropStart.isSome]

/-- The queue that a port's event names first in its payload (EV_QUEUE_RESET, EV_QUEUE_HALTED, and EV_DMA_ERROR of a queue, whose
payload also gives the command ID: R278), or else the queue last served. -/
def PortState.eventQueue (t : PortState) (off : Nat) (pay : List Byte) : QueueNo :=
  if off = 4 ∨ off = 5 ∨ (off = 7 ∧ pay.length = 3) then (Fin.ofNat 64 (ofLeBytes (pay.take 1))) else t.lastServed

/-- The registers latched for a source whose event has a payload (Table 15.4), in the table's order. The heartbeat timer, the status
bytes of the NAND parts, the rail monitors and the Keel watchdog count have no other place in the model: they are free values, drawn
by the count of events raised (log entry 113). -/
def latched (s : State) (src : Nat) (pay : List Byte) : List Int :=
  let free := Config.freeInt 5 s.ev.latches
  if h : src < 0x300 then
    let b : BayNo := ⟨src / 0x60, by omega⟩
    let t := s.bays[b]
    ([(t.stateWord : Int), (t.lanesWord : Int), (t.spn.level.code : Int), t.spn.speedMeas, t.spn.angleDiff, t.sld.encoder, t.sld.deviation,
      (t.sld.stateWord : Int)] : List Int) ++ loopRegs t.srv.fen t.srv.focus ++ loopRegs (s.tenOf b) t.srv.tracking
      ++ loopRegs t.srv.tin t.srv.tilt ++ loopRegs t.srv.lensOffset t.srv.sled ++ (List.finRange 4).flatMap (s.laneRegs b)
      ++ ([bi t.wp.gate, (t.wp.lastCut.toNat : Int), (t.dec.entries.length : Int)] : List Int)
  else if h : src < 0x360 then
    let t := s.ports[(src - 0x300) / 0x30]'(by omega)
    let q := t.queues.get (t.eventQueue ((src - 0x300) % 0x30) pay)
    ([(t.linkWord : Int), (if t.d3hot then 3 else 0), (t.mbx.status : Int), (q.sqHead.toNat : Int), (q.sqTail.toNat : Int),
      (q.cqHead.toNat : Int), (q.cqTail.toNat : Int)] : List Int)
  else if src < 0x380 then
    ([(s.pair.stateWord : Int), (s.pair.role.word.toNat : Int), (s.pair.sent.toNat : Int), (s.pair.acked.toNat : Int),
      (s.pair.unacked.length : Int)] : List Int)
      ++ s.pair.laneFails.toList.map (fun (n : Nat) => (n : Int)) ++ ([free] : List Int)
  else if h : src < 0x400 then
    let t := s.stg.lastOp[(src - 0x380) / 8]'(by omega)
    ([(t.1 : Int), (t.2 : Int), free] : List Int) ++ s.stg.sbs.flatMap (fun x => match x.st with
        | .opened k => [(k.val : Int), (x.lun : Int), (x.block : Int), (x.next : Int)]
        | _ => [])
  else if src < 0x420 then
    ([(s.mem.derrPop.toNat : Int), (s.mem.scrubPos.toNat : Int),
      boolMask [s.mem.cache.enabled, s.mem.cache.busy, s.mem.cache.compatRun, s.mem.cache.reject]] : List Int)
      ++ s.mem.pools.toList.map (fun p => (p.free : Int)) ++ ([(s.mem.triple.stateWord : Int)] : List Int)
  else if src < 0x440 then
    s.hnd.axes.toList.flatMap (fun a => [a.encoder, a.pos, a.vel, a.deviation])
      ++ ([(s.hndStateWord : Int), b2n s.hnd.own + 2 * b2n s.hnd.ownPeer] : List Int) ++ s.hnd.inputs.toList.map (fun i => bi i.level)
  else
    ([(s.sys.mode.code : Int)] : List Int) ++ s.sys.pll.toList.map bi ++ ([free, bi s.pair.peerOk, bi s.pair.peerOkIn,
      bi s.sys.pwrfail, (s.stg.dirtyBytes : Int), (s.stg.stateWord : Int)] : List Int)

/-! ### Tail triggers (R202) -/

/-- The trigger of a running tail fires: in ring mode the samples left follow; stop-on-full goes on until it is full. -/
def Tail.fire (t : Tail) (periods : Nat) : Tail :=
  match t.cfg with
  | none => t
  | some c =>
    if t.running && t.trigAt.isNone then
      { t with trigAt := some t.written, left := if c.stopOnFull then none else some (8192 - c.pre), stamp := periods }
    else t

/-- Fire the tails whose configuration meets a test, then a tail that follows the other's trigger (Table 7.10). -/
def Servo.fireTails (v : Servo) (test : TailCfg → Bool) : Servo :=
  let hit := fun (t : Tail) => match t.cfg with
    | some c => t.running && t.trigAt.isNone && test c
    | none => false
  let follows := fun (t : Tail) => match t.cfg with
    | some c => decide (c.trigger = 4)
    | none => false
  let h0 := hit v.tails[0]
  let h1 := hit v.tails[1]
  let f0 := if h0 || (h1 && follows v.tails[0]) then v.tails[0].fire v.periods else v.tails[0]
  let f1 := if h1 || (h0 && follows v.tails[1]) then v.tails[1].fire v.periods else v.tails[1]
  { v with tails := #v[f0, f1] }

/-- A bay's event at an offset fires the tails armed for it (R202). -/
def State.tailEvent (s : State) : Ev → State
  | .bay b e => s.onSrv b (fun v => v.fireTails (fun c => decide (c.trigger = 1 ∧ c.eventOff = e.offset)))
  | _ => s

/-! ### Raising -/

/-- Raise an event at a severity: its Alarm Summary bit is set in both ports in the same cycle when the severity is Error
or Critical (R421), the snapshot is latched (R422), and it awaits its place in the firmware queue (R414). In OFF nothing
is raised. -/
def State.raiseAt (s : State) (e : Ev) (sev : Severity) (fs : List PField) : State :=
  if s.sys.mode = .off then s else
  let src := e.src
  let s1 := (s.onEv (fun v => { v with latches := v.latches + 1, raised := v.raised ++
    [{ src := src, sev := sev, payload := payload fs, time := s.sys.time, latched := latched s src (payload fs) }] })).tailEvent e
  if sev.alarms then s1.eachPort (fun t p => t.onPort p (fun q => { q with alarm := setBit q.alarm src true })) else s1

/-- Raise an event at the severity of its table. -/
def State.raise (s : State) (e : Ev) (fs : List PField) : State := s.raiseAt e e.sev fs

/-- Raise an event of a bay. -/
def State.raiseBay (s : State) (b : BayNo) (e : BayEvent) (fs : List PField := []) : State := s.raise (.bay b e) fs
/-- Raise an event of a port. -/
def State.raisePort (s : State) (p : Port) (e : PortEvent) (fs : List PField := []) : State := s.raise (.port p e) fs
/-- Raise an event of a NAND channel. -/
def State.raiseNand (s : State) (c : ChanNo) (e : NandEvent) (fs : List PField := []) : State := s.raise (.nand c e) fs
/-- Raise an event of a shared unit. -/
def State.raiseDev (s : State) (e : DevEvent) (fs : List PField := []) : State := s.raise (.dev e) fs

/-! ### The firmware queue (R414 to R419) -/

/-- Add a drop to a tally (R417, R418). -/
def Tally.add (t : Tally) (r : Raised) : Tally :=
  let i : Fin 5 := match r.sev with | .info => 0 | .notice => 1 | .warning => 2 | .error => 3 | .critical => 4
  let fresh := t.counts.toList.all (· == 0)
  { counts := t.counts.set i.val (satInc 65535 t.counts[i]) i.isLt,
    lo := if fresh then r.src else min t.lo r.src,
    hi := if fresh then r.src else max t.hi r.src,
    first := if fresh then r.time else t.first,
    last := r.time }

/-- The tally counts nothing. -/
def Tally.isZero (t : Tally) : Bool := t.counts.toList.all (· == 0)

/-- The payload of an EV_EVENTS_LOST record (R418). -/
def Tally.payload (t : Tally) : List Byte :=
  t.counts.toList.flatMap (leBytes 2) ++ leBytes 2 t.lo ++ leBytes 2 t.hi ++ leBytes 8 t.first.toNat
    ++ leBytes 8 t.last.toNat

/-- Add 1 to the drop counter of a source, saturating at 32 bits (R419). -/
def countDrop (drops : List (Nat × Nat)) (src : Nat) : List (Nat × Nat) :=
  match lookupKey drops src with
  | some n => insertKey drops src (satInc 0xFFFFFFFF n)
  | none => insertKey drops src 1

/-- A record may be placed among `held` records of a store of `cap` entries with `reserve` of them kept (R417). -/
def mayPlace (cap reserve held : Nat) (sev : Severity) : Bool :=
  if sev.alarms then decide (held < cap) else decide (held < cap - reserve)

/-- The record of a raised event is repeated in the queue: same source and severity, within EVT.COALESCE of its first
occurrence (R416). -/
def EvRecord.repeats (r : EvRecord) (e : Raised) (window : Nat) : Bool :=
  decide (r.src = e.src ∧ r.sev = e.sev ∧ r.summary = false ∧ 0 < window ∧ e.time.toNat < r.first.toNat + window)

/-- Count one more occurrence in a record (R416). -/
def EvRecord.again (r : EvRecord) (e : Raised) : EvRecord :=
  { r with occ := satInc 65535 r.occ, latest := e.time, differs := r.differs || decide (r.payload ≠ e.payload) }

/-- The fresh record of a raised event. -/
def EvRecord.ofRaised (e : Raised) (seq : BitVec 32) : EvRecord :=
  { seq := seq, src := e.src, sev := e.sev, summary := false, byRing := false, occ := 1, first := e.time,
    latest := e.time, payload := e.payload, differs := false, taken := Vector.replicate 2 false }

/-- The summary record of a tally (R418). -/
def EvRecord.lost (t : Tally) (seq : BitVec 32) (byRing : Bool) (now : BitVec 64) : EvRecord :=
  { seq := seq, src := DevEvent.source .eventsLost, sev := .warning, summary := true, byRing := byRing, occ := 1,
    first := now, latest := now, payload := t.payload, differs := false, taken := Vector.replicate 2 false }

/-- The summary of the firmware queue is due: its tally is not zero and a Warning record may be placed (R418). -/
def EventPath.summaryDue (v : EventPath) : Bool :=
  !v.tally.isZero && mayPlace Config.eventCapacity Config.eventReserve v.queue.length .warning

/-- Place the summary of the firmware queue, ahead of any later record (R418). -/
def EventPath.summarise (v : EventPath) (now : BitVec 64) : EventPath :=
  { v with queue := v.queue ++ [EvRecord.lost v.tally v.nextSeq false now], nextSeq := v.nextSeq + 1, tally := .reset,
           latches := v.latches + 1 }

/-- What became of a raised event in the firmware queue. -/
inductive Placed where
  | coalesced | placed (seq : BitVec 32) | dropped
  deriving DecidableEq, Repr

/-- Place a raised event in the firmware queue: coalesced, placed or dropped (R416, R417, R419). -/
def EventPath.place (v : EventPath) (e : Raised) (window : Nat) : EventPath × Placed :=
  if v.queue.any (fun r => r.repeats e window) then
    ({ v with queue := updateFirst (fun r => r.repeats e window) (fun r => r.again e) v.queue }, .coalesced)
  else if mayPlace Config.eventCapacity Config.eventReserve v.queue.length e.sev then
    ({ v with queue := v.queue ++ [EvRecord.ofRaised e v.nextSeq], nextSeq := v.nextSeq + 1 }, .placed v.nextSeq)
  else
    ({ v with tally := v.tally.add e, drops := countDrop v.drops e.src }, .dropped)

/-! ### The Reel (R422, R423) -/

/-- Snapshot blocks of a source (Table 15.4). -/
def snapshotBlocks (src : Nat) : Nat :=
  if src < 0x300 then 4 else if src < 0x360 then 2 else if src < 0x380 then 2 else if src < 0x400 then 1
  else if src < 0x420 then 2 else if src < 0x440 then 3 else 4

/-- The header block of a Reel record (Table 15.3). -/
def reelHeader (n : BitVec 32) (seq : BitVec 32) (e : Raised) (blocks : Nat) (trigger after : Bool) (mode : Mode) :
    BitVec 512 :=
  let body := leBytes 4 n.toNat ++ leBytes 4 seq.toNat ++ leBytes 8 e.time.toNat
    ++ leBytes 2 (e.src + 2048 * e.sev.code + 16384 * b2n (decide (e.src = DevEvent.source .eventsLost))) ++ leBytes 1 blocks ++ leBytes 1 (b2n trigger + 2 * b2n after)
    ++ padBytes 36 e.payload ++ leBytes 1 mode.code ++ leBytes 3 0
  block512 (body ++ leBytes 4 (crc32 body))

/-- Append blocks to the Reel, over its oldest blocks once it is full (R422). -/
def EventPath.writeBlocks (v : EventPath) (bs : List (BitVec 512)) : EventPath :=
  let all := v.reel ++ bs
  let excess := all.length - Config.reelBlocks
  { v with reel := all.drop excess, reelNext := (v.reelNext + bs.length) % Config.reelBlocks,
           reelWrapped := v.reelWrapped || decide (0 < excess) }

/-- The Reel's own coalescing (R422): a repeat of the source within EVT.COALESCE of its last Reel record. -/
def EventPath.reelRepeats (v : EventPath) (e : Raised) (window : Nat) : Bool :=
  match lookupKey v.reelLast (e.src * 8 + e.sev.code) with
  | some t => decide (0 < window ∧ e.time.toNat < t.toNat + window)
  | none => false

/-- The source and cause that make an event a trigger of the Reel (R423): 2 the source of EVT.REEL_FREEZE_SRC, 3
EV_RIPCORD. -/
def triggerCause (freezeSrc : Nat) (e : Raised) : Option Nat :=
  if e.src = freezeSrc then some 2
  else if e.src = DevEvent.source .ripcord then some 3
  else none

/-- Freeze the Reel (R423). -/
def EventPath.freeze (v : EventPath) : EventPath := { v with reelFrozen := true, postLeft := none }

/-- Record an event in the Reel, if it is to be recorded, and run the trigger's count (R422, R423). The answer says with
what cause the Reel froze. -/
def EventPath.record (v : EventPath) (e : Raised) (seq : BitVec 32) (window reelSev freezeSrc post : Nat) (mode : Mode) :
    EventPath × Option Nat :=
  if v.reelFrozen then (v, none) else
  let cause := triggerCause freezeSrc e
  let trigger := cause.isSome && v.postLeft.isNone
  if cause.isSome || (decide (reelSev ≤ e.sev.code) && !v.reelRepeats e window) then
    let k := snapshotBlocks e.src
    let h := reelHeader v.reelRecord seq e k trigger v.postLeft.isSome mode
    let v1 := v.writeBlocks (h :: (List.range k).map (fun i => Config.snapshotLayout i e.latched))
    let v2 := { v1 with reelRecord := v1.reelRecord + 1,
                        reelLast := insertKey v1.reelLast (e.src * 8 + e.sev.code) e.time }
    match v.postLeft, cause with
    | some (n, c), _ =>
      if n ≤ 1 then (v2.freeze, some c) else ({ v2 with postLeft := some (n - 1, c) }, none)
    | none, some c =>
      if post = 0 then ({ v2.freeze with trigSeen := true }, some c)
      else ({ v2 with trigSeen := true, postLeft := some (post, c) }, none)
    | none, none => (v2, none)
  else (v, none)

/-! ### Record bytes (Table 15.2) -/

/-- The 64 bytes of an event record, with the phase of the ring it is written to. -/
def EvRecord.encode (r : EvRecord) (phase : Bool) : BitVec 512 :=
  block512 (leBytes 4 r.seq.toNat ++ leBytes 2 (r.src + 2048 * r.sev.code + 16384 * b2n r.summary) ++ leBytes 2 r.occ
    ++ leBytes 8 r.first.toNat ++ leBytes 8 r.latest.toNat ++ padBytes 36 r.payload ++ leBytes 2 0
    ++ leBytes 1 (b2n r.differs + 2 * b2n r.byRing) ++ leBytes 1 (b2n phase))

/-! ### The retry log (R426) -/

/-- Place a record in the retry log: unit kind 0 to 10, outcome, action and identity (Tables 15.5 and 15.6). It holds 0xFFFF_FFFF as
event sequence number until the classifying event takes one (log entry 16). -/
def State.logRetry (s : State) (src : Nat) (kind : Fin 11) (persistent : Bool) (action : Nat) (identity : BitVec 64) :
    State :=
  s.onEv (fun v =>
    let e : RetryEntry := { time := s.sys.time, src := src, kind := kind.val, persistent := persistent, action := action,
                            identity := identity, seq := 0xFFFFFFFF }
    let all := v.retries ++ [e]
    { v with retries := all.drop (all.length - 4096),
             transients := if persistent then v.transients
               else v.transients.set kind.val (satInc 65535 v.transients[kind]) kind.isLt,
             persistents := if persistent then v.persistents.set kind.val (satInc 65535 v.persistents[kind]) kind.isLt
               else v.persistents })

/-- A unit is retired: a running test of code `code` that needs it, by its target, is abandoned (R428). -/
def State.testLoses (s : State) (code : Nat) (needs : Nat → Bool) : State :=
  if s.ev.diagState = 1 ∧ s.ev.diagWord.toNat % 256 = code ∧ needs (s.ev.diagWord.toNat / 256 % 256) = true then
    s.onEv (fun v => { v with diagState := 4 })
  else s

/-- An event raised at `time` has taken a sequence number: the oldest retry entry it classified at that time, and that has none, holds it
(Table 15.5; log entry 16). -/
def EventPath.numberRetry (v : EventPath) (src : Nat) (time : BitVec 64) (seq : BitVec 32) : EventPath :=
  { v with retries := updateFirst (fun e => decide (e.src = src ∧ e.time = time ∧ e.seq = 0xFFFFFFFF)) (fun e => { e with seq := seq })
             v.retries }

end Sys2Proof.Machine
end

