-- ==== Sys2Proof/Machine/Ballast.lean ====
section
/-! DEFINITION. Ballast (13_memory_buffers_cache.md): the pools, their free rings and on-chip caches (R372, R375), owners and reserves (R376), and Allocate, Free and Pass (R373, R374). -/

namespace Sys2Proof.Machine

/-- Bytes of a buffer of a pool (Table 13.6). -/
def bufBytes (p : Nat) : Nat := match p with | 0 => 512 | 1 => 4096 | 2 => 65536 | _ => 1048576

/-- The pool that serves a size (Table 13.6, R373); none for a size of 0. -/
def poolFor (size : Nat) : Option (Fin 4) :=
  if size = 0 then none else if size ≤ 512 then some 0 else if size ≤ 4096 then some 1 else if size ≤ 65536 then some 2
  else some 3

/-- Buffers a request takes: one, or a chain of pool 3. -/
def bufsFor (size : Nat) : Nat := if size ≤ 1048576 then 1 else ceilDiv size 1048576

/-! ### The free ring and its cache (R375) -/

/-- Take up to `n` buffers from the head of the ring. -/
def ringTake : (n : Nat) → List (Nat × Nat) → List Nat × List (Nat × Nat)
  | 0, r => ([], r)
  | _ + 1, [] => ([], [])
  | n + 1, (i, k) :: rest =>
    if k = 0 then ringTake n rest
    else
      let x := ringTake n (if k = 1 then rest else (i + 1, k - 1) :: rest)
      (i :: x.1, x.2)

/-- When the cache has fallen to 16 entries, 16 come from the ring. -/
def BallastPool.refill (b : BallastPool) : BallastPool :=
  if b.cache.length ≤ 16 then
    let x := ringTake 16 b.ring
    { b with cache := b.cache ++ x.1, ring := x.2 }
  else b

/-- When the cache has reached 48 entries, its 16 oldest go to the ring. -/
def BallastPool.spill (b : BallastPool) : BallastPool :=
  if 48 ≤ b.cache.length then { b with ring := b.ring ++ (b.cache.take 16).map (fun i => (i, 1)), cache := b.cache.drop 16 } else b

/-- A pool of `n` buffers as it is carved: all are free, 32 of them in the cache (log entry 8). -/
def BallastPool.carved (n count : Nat) : BallastPool :=
  (({ BallastPool.reset with size := n, ring := [(0, n)], count := count } : BallastPool).refill).refill

/-- A buffer returns to the cache. -/
def BallastPool.put (b : BallastPool) (i : Nat) : BallastPool := ({ b with cache := b.cache ++ [i] }).spill

/-- A free buffer leaves the pool for good (R371). -/
def BallastPool.drop (b : BallastPool) (i : Nat) : BallastPool :=
  ({ b with cache := b.cache.filter (· ≠ i), out := b.out ++ [i],
            ring := b.ring.flatMap (fun (x : Nat × Nat) => if x.1 ≤ i ∧ i < x.1 + x.2 then
              [(x.1, i - x.1), (i + 1, x.1 + x.2 - (i + 1))].filter (fun y => decide (0 < y.2)) else [x]) }).refill

/-- The buffer that the next Allocate takes from the cache; which one is left open (log entry 8). -/
def BallastPool.pick (p : Nat) (b : BallastPool) : Option Nat := b.cache[Config.ballastPick p b.count % b.cache.length]?

/-! ### Owners (R373, R374, R376) -/

/-- Buffers an owner holds in a pool. -/
def BallastPool.held (b : BallastPool) (o : Fin 12) : Nat := (b.words.filter (fun w => decide (w.2.owner = o))).length

/-- m(o, p) (R376): BAL.MIN, and for staging in pool 2 at least STG.DIRTY_LIMIT ÷ 64 KiB. -/
def State.ballastMin (s : State) (p : Fin 4) (o : Fin 12) : Nat :=
  let m := s.dn (Param.balMin + 16 * p.val + o.val)
  if p = 2 ∧ o = 10 then max m (s.dn Param.stgDirtyLimit * 16) else m

/-- The unmet minima of the owners other than `o` in a pool (R376). -/
def State.unmet (s : State) (p : Fin 4) (o : Fin 12) : Nat :=
  ((List.finRange 12).map (fun x => if x = o then 0 else s.ballastMin p x - s.mem.pools[p].held x)).sum

/-- An owner may take `n` buffers of a pool, one after the other (R376). -/
def State.mayTake (s : State) (p : Fin 4) (o : Fin 12) (n : Nat) : Bool :=
  let free := s.mem.pools[p].free
  let held := s.mem.pools[p].held o
  let m := s.ballastMin p o
  let r := s.unmet p o
  (List.range n).all (fun k =>
    if held + k < m then decide (k < free) else decide (r + k < free))

/-- Take `n` buffers as a chain, the head last taken: each new buffer links to the one taken before it (R373, R374). -/
def BallastPool.takeChain (p : Nat) (o : Fin 12) : (n : Nat) → (link : Option Nat) → BallastPool → Option (Nat × BallastPool)
  | 0, _, _ => none
  | n + 1, link, b =>
    match b.pick p with
    | none => none
    | some i =>
      let b1 := ({ b with words := insertKey b.words i { owner := o, head := decide (n = 0), link := link }, count := b.count + 1
                          cache := b.cache.filter (· ≠ i) }).refill
      if n = 0 then some (i, b1) else BallastPool.takeChain p o n (some i) b1

/-- The indexes of a chain from its head. -/
def BallastPool.chain (b : BallastPool) : (fuel : Nat) → (i : Nat) → List Nat
  | 0, _ => []
  | fuel + 1, i =>
    match lookupKey b.words i with
    | none => []
    | some w => i :: (match w.link with | some j => b.chain fuel j | none => [])

/-- A handle (R372). -/
def handleOf (p : Fin 4) (i : Nat) : BitVec 32 := BitVec.ofNat 32 (p.val * 2 ^ 30 + i)
/-- Pool of a handle. -/
def handlePool (h : BitVec 32) : Fin 4 := ⟨h.toNat / 2 ^ 30, by have := h.isLt; omega⟩
/-- Index of a handle. -/
def handleIndex (h : BitVec 32) : Nat := h.toNat % 2 ^ 30

/-- Why Ballast refuses a Free or Pass (R374), by position in its list: 0 not allocated, 1 another owner, 2 beyond the pool
or a chain link that is not the head. -/
def BallastPool.refusal (b : BallastPool) (o : Fin 12) (i : Nat) : Option Nat :=
  if b.size ≤ i then some 2 else
  match lookupKey b.words i with
  | none => some 0
  | some w => if w.owner ≠ o then some 1 else if !w.head then some 2 else none

/-- Pool sizes in MiB, as in force. -/
def State.poolSizes (s : State) : List Nat := (List.range 4).map (fun p => s.dn (Param.balSize0 + p))

/-- Buffers of a pool that a DRAM page of 4 KiB lies in (R371). -/
def bufsOfPage (sizes : List Nat) (p : Nat) (bufs page : Nat) : List Nat :=
  let base := Config.poolBase sizes p
  let bs := bufBytes p
  let lo := page * 4096
  if lo + 4096 ≤ base ∨ base + bufs * bs ≤ lo then []
  else (List.range 8).filterMap (fun k =>
    let a := lo + k * 512
    if base ≤ a ∧ a < base + bufs * bs then some ((a - base) / bs) else none) |>.dedup

/-- Buffer `i` of a pool holds a retired page: it never returns to the free ring (R371). -/
def State.pageRetired (s : State) (p : Fin 4) (i : Nat) : Bool :=
  s.flash.retiredPages.any (fun n => (bufsOfPage s.poolSizes p.val s.mem.pools[p].size n).contains i)

/-- Free buffers by index: those with a retired page leave the pool (R371). -/
def State.freeBufs (s : State) (p : Fin 4) (is : List Nat) : State :=
  s.onPoolB p (fun b => is.foldl (fun (x : BallastPool) i =>
    if (lookupKey x.words i).isNone then x else
    let y := { x with words := eraseKey x.words i }
    if s.pageRetired p i then { y with out := y.out ++ [i] } else y.put i) b)

/-- Take a free buffer with a retired page out of its pool at once (R371). -/
def State.applyRetired (s : State) (page : Nat) : State :=
  (List.finRange 4).foldl (fun t p =>
    t.onPoolB p (fun b => ((bufsOfPage t.poolSizes p.val b.size page).filter (fun i =>
      (lookupKey b.words i).isNone && !b.out.contains i)).foldl BallastPool.drop b)) s

/-! ### The three operations (R373, R374, R376) -/

/-- The handle of a refused allocation. -/
def noHandle : BitVec 32 := 0xFFFFFFFF

/-- A refusal under R376: EV_BALLAST_LOW at the owner's first in a pool since it last allocated there. -/
def State.ballastLow (s : State) (p : Fin 4) (o : Fin 12) : State :=
  if bitAt s.mem.pools[p].low o.val then s
  else (s.onPoolB p (fun b => { b with low := setBit b.low o.val true })).raiseDev .ballastLow [.u8 o.val, .u8 p.val]

/-- Allocate: a buffer, or a whole chain of pool 3 above 1 MiB, or nothing. -/
def State.ballastTake (s : State) (o : Fin 12) (size : Nat) : State × Option (BitVec 32) :=
  let n := bufsFor size
  match poolFor size with
  | none => (s, none)
  | some p =>
    if 256 < n then (s, none)
    else if !s.mayTake p o n then (s.ballastLow p o, none)
    else match BallastPool.takeChain p.val o n none s.mem.pools[p] with
      | none => (s.ballastLow p o, none)
      | some (i, b) => (s.onPoolB p (fun _ => { b with low := setBit b.low o.val false }), some (handleOf p i))

/-- A refused Free or Pass: EV_BALLAST_REFUSED with the cause, owner and handle (R374). -/
def State.ballastRefuse (s : State) (cause : Nat) (o : Fin 12) (h : BitVec 32) : State :=
  s.raiseDev .ballastRefused [.u8 cause, .u8 o.val, .u32 h.toNat]

/-- Free: the buffer, or the whole chain of its head, is free again; a bad free changes nothing. -/
def State.ballastGive (s : State) (o : Fin 12) (h : BitVec 32) : State :=
  let p := handlePool h
  let b := s.mem.pools[p]
  match b.refusal o (handleIndex h) with
  | some c => s.ballastRefuse c o h
  | none => s.freeBufs p (b.chain 256 (handleIndex h))

/-- Pass: the buffer or the whole chain, and its count, go to the new owner. -/
def State.ballastPassTo (s : State) (o : Fin 12) (h : BitVec 32) (newOwner : Fin 12) : State :=
  let p := handlePool h
  let b := s.mem.pools[p]
  match b.refusal o (handleIndex h) with
  | some c => s.ballastRefuse c o h
  | none =>
    let is := b.chain 256 (handleIndex h)
    s.onPoolB p (fun b => { b with words := b.words.map (fun w => if is.contains w.1 then (w.1, { w.2 with owner := newOwner }) else w) })

/-- The owner code of a bay (Table 13.7). -/
def bayOwner (b : BayNo) : Fin 12 := ⟨b.val + 2, by omega⟩

/-- The owner code of a port. -/
def portOwner (p : Port) : Fin 12 := ⟨p.val, by omega⟩

/-- The owner code of staging. -/
def stagingOwner : Fin 12 := 10

/-- Allocate one buffer of each size of a list, or none: what was taken is given back where one is refused. -/
def State.takeAll (s : State) (o : Fin 12) (sizes : List Nat) : State × Option (List (BitVec 32)) :=
  sizes.foldl (fun (acc : State × Option (List (BitVec 32))) n =>
    match acc.2 with
    | none => acc
    | some hs => match acc.1.ballastTake o n with
      | (t, some h) => (t, some (hs ++ [h]))
      | (t, none) => (hs.foldl (fun u h => u.ballastGive o h) t, none)) (s, some [])

/-- Free the buffers of a list. -/
def State.giveAll (s : State) (o : Fin 12) (hs : List (BitVec 32)) : State := hs.foldl (fun t h => t.ballastGive o h) s

/-- Pass the buffers of a list to another owner. -/
def State.passAll (s : State) (o : Fin 12) (hs : List (BitVec 32)) (newOwner : Fin 12) : State :=
  hs.foldl (fun t h => t.ballastPassTo o h newOwner) s

/-- An owner stands at its reserved minimum in pool `p`: the second condition of R376 fails. -/
def State.atMinimum (s : State) (p : Fin 4) (o : Fin 12) : Bool := decide (s.mem.pools[p].free ≤ s.unmet p o)

end Sys2Proof.Machine
end

