-- ==== Sys2Proof/Machine/Operands.lean ====
section
/-! DEFINITION. The operand forms of the host interface: command records and their checks (R285 to R287), extents (R286), mailbox requests (R305) and their allowed modes (R306, R307). -/

namespace Sys2Proof.Machine

/-! ### Command records (Table 11.3) -/

/-- Opcode of a command record. -/
def recOpcode (r : BitVec 512) : Byte := byteAt r 0
/-- Flags of a command record. -/
def recFlags (r : BitVec 512) : Byte := byteAt r 1
/-- Command ID of a command record. -/
def recCid (r : BitVec 512) : BitVec 16 := BitVec.ofNat 16 (fieldBytes r 2 2)
/-- Volume ID of a command record. -/
def recVid (r : BitVec 512) : VolId := BitVec.ofNat 16 (fieldBytes r 4 2)
/-- LBA of a command record. -/
def recLba (r : BitVec 512) : Nat := fieldBytes r 8 4
/-- Sector count of a command record. -/
def recCount (r : BitVec 512) : Nat := fieldBytes r 0xC 4
/-- Data address of a command record. -/
def recAddr (r : BitVec 512) : BitVec 64 := BitVec.ofNat 64 (fieldBytes r 0x10 8)
/-- Inline extent length or extent count of a command record. -/
def recLen (r : BitVec 512) : BitVec 32 := BitVec.ofNat 32 (fieldBytes r 0x18 4)
/-- Opcode-specific field of a command record. -/
def recSpec (r : BitVec 512) : BitVec 64 := BitVec.ofNat 64 (fieldBytes r 0x20 8)

/-- The opcodes of Table 11.4. -/
def opcodeListed (o : Byte) : Bool := [1, 2, 3, 4, 5, 6, 8, 9, 10, 11].contains o.toNat

/-- The reserved fields of a record are 0 (R285). -/
def recReservedZero (r : BitVec 512) : Bool :=
  decide ((recFlags r).toNat < 8 ∧ fieldBytes r 6 2 = 0 ∧ fieldBytes r 0x1C 4 = 0 ∧ fieldBytes r 0x28 24 = 0)

/-- The sector count range of an opcode (Table 11.4). -/
def countOk (o : Byte) (n : Nat) : Bool :=
  match o.toNat with
  | 1 | 2 | 4 => decide (1 ≤ n ∧ n ≤ 16384)
  | 6 => decide (n ≤ 16384)
  | 8 => true
  | 11 => decide (n = 1)
  | _ => decide (n = 0)

/-- An extent's address and length are well formed (R286). -/
def extentOk (addr len : Nat) : Bool := decide (addr % 4 = 0 ∧ len % 512 = 0 ∧ 512 ≤ len ∧ len ≤ 16777216)

/-- The data fields of a record suit its opcode, as far as the record alone shows (R286). -/
def dataFieldsOk (r : BitVec 512) : Bool :=
  let o := (recOpcode r).toNat
  if o = 1 ∨ o = 2 then
    if bitAt (recFlags r) 1 then
      decide (1 ≤ (recLen r).toNat ∧ (recLen r).toNat ≤ 4096 ∧ (recAddr r).toNat % 16 = 0)
    else extentOk (recAddr r).toNat (recLen r).toNat && decide ((recLen r).toNat = recCount r * 4096)
  else decide ((recAddr r).toNat = 0 ∧ (recLen r).toNat = 0)

/-- Opcode-specific fields lie in their range: the target queue of a Cancel is 0 to 63 (R285, R300). -/
def specOk (r : BitVec 512) : Bool := if (recOpcode r).toNat = 5 then decide ((recSpec r).toNat % 256 < 64) else true

/-- An opcode names a volume. -/
def namesVolume (o : Byte) : Bool := decide (o.toNat ≠ 5)

/-- LBA out of range (R287): LBA plus sector count minus 1 beyond the last LBA, for the opcodes that carry an LBA; for
Destage only when the count is not 0. -/
def lbaBeyond (o : Byte) (lba n : Nat) : Bool :=
  match o.toNat with
  | 1 | 2 | 4 | 6 | 11 => decide (Config.lastLba < lba + n - 1 ∨ Config.lastLba < lba)
  | 8 => decide (n ≠ 0 ∧ Config.lastLba < lba + n - 1)
  | _ => false

/-- The status a record completes with at once, before its command is taken (R285, R287); `dup`, its command ID is
outstanding on the queue; `known`, its volume exists. -/
def recordStatus (r : BitVec 512) (dup known : Bool) : Option Byte :=
  if !opcodeListed (recOpcode r) then some 0x10
  else if !recReservedZero r || dup || !countOk (recOpcode r) (recCount r) || !dataFieldsOk r || !specOk r then some 0x11
  else if namesVolume (recOpcode r) && !known then some 0x13
  else if lbaBeyond (recOpcode r) (recLba r) (recCount r) then some 0x12
  else none

/-- The command of a record, at its fetch. -/
def cmdOf (id : CmdId) (order : Nat) (code : Byte) (r : BitVec 512) : Cmd :=
  { id := id, order := order, opcode := recOpcode r, flags := recFlags r, vid := recVid r, lba := recLba r,
    count := recCount r, addr := recAddr r, len := recLen r, spec := recSpec r, exts := [], eligible := false, started := false,
    dropped := false, wait := .none, code := code, data := [], retried := false, done := [], cover := [], written := 0, replaced := 0 }

/-- The extents of a Read or Write meet R286 and its sector count: the status they give, if they do not. -/
def extentsStatus (c : Cmd) : ExtentRead → Option Byte
  | .inline => if bitAt c.flags 1 then some 0x11 else none
  | .err e => some (if e = .poisoned then 0x51 else 0x50)
  | .list es =>
    if !bitAt c.flags 1 ∨ es.length ≠ c.len.toNat ∨ !(es.all (fun e => extentOk e.addr.toNat e.len.toNat && e.reserved == 0))
        ∨ (es.map (fun e => e.len.toNat)).sum ≠ c.count * 4096
    then some 0x11 else none

/-- The extents of a command's data (R286). -/
def Cmd.extentsOf (c : Cmd) : ExtentRead → List Extent
  | .inline => [{ addr := c.addr, len := c.len, reserved := 0 }]
  | .list es => es
  | .err _ => []

/-- The host address of the byte at an offset of a command's data (R286). -/
def hostAddr : List Extent → Nat → BitVec 64
  | [], off => BitVec.ofNat 64 off
  | e :: rest, off => if off < e.len.toNat then e.addr + BitVec.ofNat 64 off else hostAddr rest (off - e.len.toNat)

/-- The host addresses of the eight 512-byte parts of a sector of a Read. -/
def Cmd.places (c : Cmd) (lba : Nat) : List (BitVec 64) :=
  (List.range 8).map (fun j => hostAddr c.exts ((lba - c.lba) * 4096 + 512 * j))

/-- The status of a failed host memory read (R278). -/
def dmaStatus (e : DmaErr) : Byte := if e = .poisoned then 0x51 else 0x50

/-! ### Overlap (R296) -/

/-- The LBA range of a command as R296 takes it: first LBA and count, the whole volume for a Destage of count 0, none for
the opcodes without a range. -/
def Cmd.range (c : Cmd) : Nat × Nat :=
  match c.opcode.toNat with
  | 1 | 2 | 4 | 11 => (c.lba, c.count)
  | 8 => if c.count = 0 then (0, Config.lastLba + 1) else (c.lba, c.count)
  | _ => (0, 0)

/-- Two ranges share a sector. -/
def rangesMeet (a b : Nat × Nat) : Bool :=
  decide (0 < a.2 ∧ 0 < b.2 ∧ a.1 < b.1 + b.2 ∧ b.1 < a.1 + a.2)

/-- Two commands of one queue and one volume overlap (R296). -/
def overlaps (a b : Cmd) : Bool :=
  decide (a.id.port = b.id.port ∧ a.id.queue = b.id.queue ∧ a.id.peer = b.id.peer ∧ a.vid = b.vid)
  && decide (a.opcode = 2 ∨ b.opcode = 2) && rangesMeet a.range b.range

/-- No earlier overlapping command of the same queue is outstanding (R296). -/
def State.noHazard (s : State) (c : Cmd) : Bool :=
  s.cmds.all (fun d => !(decide (d.order < c.order) && overlaps d c))

/-! ### Mailbox requests (R305, Table 11.8) -/

/-- The opcode of a mailbox message. -/
def mbxOpcode (r : BitVec 512) : Nat := fieldBytes r 0 2
/-- The target of a mailbox message. -/
def mbxTarget (r : BitVec 512) : BitVec 16 := BitVec.ofNat 16 (fieldBytes r 2 2)
/-- The tag of a mailbox message. -/
def mbxTag (r : BitVec 512) : BitVec 16 := BitVec.ofNat 16 (fieldBytes r 4 2)
/-- The payload length of a mailbox message. -/
def mbxLen (r : BitVec 512) : Nat := fieldBytes r 6 2
/-- `n` inline payload bytes at payload offset `off`. -/
def mbxPay (r : BitVec 512) (off n : Nat) : Nat := fieldBytes r (8 + off) n
/-- The buffer's host address (payload bytes 0x28 to 0x2F). -/
def mbxBufAddr (r : BitVec 512) : BitVec 64 := BitVec.ofNat 64 (mbxPay r 0x28 8)
/-- The buffer's length (payload bytes 0x30 to 0x33). -/
def mbxBufLen (r : BitVec 512) : Nat := mbxPay r 0x30 4

/-- The opcodes of Table 11.8. -/
def mbxListed (o : Nat) : Bool :=
  [0x100, 0x101, 0x102, 0x103, 0x104, 0x110, 0x111, 0x112, 0x113, 0x120, 0x121, 0x130, 0x131, 0x140, 0x150, 0x151, 0x152,
    0x153].contains o

/-- The modes 0x3 to 0xD: "any" of R306. -/
def anyMode (m : Mode) : Bool := decide (3 ≤ m.code)
/-- "serving+" of R306. -/
def servingPlus (m : Mode) : Bool := m.serving || decide (m = .calibrate ∨ m = .quiesce ∨ m = .diagnostic)

/-- The "Allowed in" column of Table 11.8; `record`, the device holds a persistent pair record. -/
def mbxAllowed (o : Nat) (m : Mode) (record : Bool) : Bool :=
  match o with
  | 0x100 | 0x101 | 0x103 | 0x150 | 0x151 | 0x153 => anyMode m
  | 0x102 | 0x104 | 0x152 => servingPlus m
  | 0x113 => decide (m = .standalone ∨ m = .paired)
  | 0x130 => decide (m = .standalone)
  | 0x131 => decide (m = .paired ∨ m = .pairedDegraded) || (decide (m = .standalone) && record)
  | _ => m.serving

/-- Requests that act on the device as a whole (R307): all but Identify, Get Parameter, Get Log and Tail Read. -/
def mbxWhole (o : Nat) : Bool := !([0x100, 0x101, 0x103, 0x153].contains o)

/-- What becomes of a request of opcode `o` in mode `m` (R307, R442, R457). -/
inductive MbxGate where
  | serve
  | answer (status : Byte)
  | hold
  | wait          -- MAILBOX_READY is 0
  deriving DecidableEq, Repr

/-- MAILBOX_READY (Table 17.3): firmware, or in RIPCORD and in BOOT with no image the Keel, takes requests. -/
def State.mailboxReady (s : State) : Bool :=
  match s.sys.mode with
  | .off => false
  | .fill => false
  | .boot => s.sys.imageRuns || s.sys.noImage
  | _ => true

/-- What becomes of a mailbox request (R307, R442, R457). -/
def State.mbxGate (s : State) (o : Nat) : MbxGate :=
  if !s.mailboxReady then .wait
  else if decide (s.sys.mode = .boot) then
    if s.sys.noImage && [0x100, 0x103, 0x120].contains o then .serve else .answer 0x11
  else if decide (s.sys.mode = .ripcord) then (if [0x100, 0x150, 0x151].contains o then .serve else .answer 0x50)
  else if !mbxListed o then .answer 0x10
  else match s.sys.mode with
    | m =>
      if mbxAllowed o m s.flash.pairRecord.isSome then .serve
      else match m with
        | .sanitize => .answer 0x32
        | .takeover => .hold
        | .vent => .hold
        | .activate => .hold
        | _ => .answer 0x11

end Sys2Proof.Machine
end

