-- ==== Sys2Proof/Machine/HostOps.lean ====
section
/-! DEFINITION. Shared operations of the host ports: MSI-X signals (R284, R463), completion records (R282, R283), the end of a command, mailbox responses (R305, R457), the serving of a mailbox request (R307). -/

namespace Sys2Proof.Machine

/-! ### Flits (R390, R392, R393) -/

/-- The lanes in use at a width, in order (R391). -/
def usedLanes (lanes : BitVec 4) (w : Nat) : List Nat :=
  let on := (List.range 4).filter (fun i => lanes.getLsbD i)
  if w = 4 then [0, 1, 2, 3]
  else if w = 2 then (if lanes.getLsbD 0 && lanes.getLsbD 1 then [0, 1] else [2, 3])
  else on.take 1

/-- The CRC-8 with the polynomial of R149 over the blocks of a flit, before its last, that lane number `k` of the `w` in use carries
(R392; the order of its bits is log entry 112's). -/
def laneCheck (bytes : List Byte) (w k : Nat) : Byte :=
  let mine := ((List.range 31).filter (fun i => decide (i % w = k))).flatMap (fun i => (bytes.drop (8 * i)).take 8)
  BitVec.ofNat 8 ((mine.flatMap (fun b => (List.range 8).map (fun i => b.getLsbD (7 - i)))).foldl crc8Bit 0)

/-- The four lane checks of a flit; 0 for lanes not in use. -/
def laneChecks (bytes : List Byte) (used : List Nat) : List Byte :=
  (List.range 4).map (fun n => match used.idxOf? n with
    | some k => laneCheck bytes used.length k
    | none => 0)

/-- The 256 bytes of a flit (Table 14.2). -/
def flitBytes (used : List Nat) (seq ack : BitVec 16) (f : TetherFlit) (replayed : Bool) : List Byte :=
  let head := [f.kind, BitVec.ofNat 8 (b2n f.last + 2 * b2n replayed)] ++ leBytes 2 seq.toNat ++ leBytes 2 ack.toNat
    ++ [BitVec.ofNat 8 f.payload.length, 0]
  let body := head ++ padBytes 240 f.payload
  let checked := body ++ laneChecks body used
  checked ++ leBytes 4 (crc32 checked)

/-- The scrambler x^58 + x^39 + 1 takes one bit: the bit sent and its next state (R390). -/
def scrambleBit (st : BitVec 58) (bit : Bool) : Bool × BitVec 58 :=
  let o := bit.xor ((st.getLsbD 38).xor (st.getLsbD 57))
  (o, (st <<< 1) ||| BitVec.ofNat 58 (b2n o))

/-- A data block of 64 bits as its lane sends it: a sync header and the scrambled bits, the lowest first (R390, log entry 112). -/
def scrambleBlock (st : BitVec 58) (block : BitVec 64) : BitVec 66 × BitVec 58 :=
  let r := (List.range 64).foldl (fun (acc : Nat × BitVec 58) i =>
    let x := scrambleBit acc.2 (block.getLsbD i)
    (acc.1 + 2 ^ i * b2n x.1, x.2)) (0, st)
  (BitVec.ofNat 66 (2 + 4 * r.1), r.2)

/-- The blocks of a flit on their lanes, block `i` on lane number `i` mod `w` of those in use (R392), and the scramblers after. -/
def laneBlocks (used : List Nat) (st : Vector (BitVec 58) 4) (bytes : List Byte) : List (Nat × BitVec 66) × Vector (BitVec 58) 4 :=
  (List.range 32).foldl (fun (acc : List (Nat × BitVec 66) × Vector (BitVec 58) 4) i =>
    let lane : Fin 4 := ⟨used.getD (i % used.length) 0 % 4, by omega⟩
    let r := scrambleBlock acc.2[lane] (BitVec.ofNat 64 (ofLeBytes ((bytes.drop (8 * i)).take 8)))
    (acc.1 ++ [(lane.val, r.1)], acc.2.set lane.val r.2 lane.isLt)) ([], st)

/-- A flit goes out, acknowledging the last one received in order (R393). -/
def State.putFlit (s : State) (seq : BitVec 16) (f : TetherFlit) (replayed : Bool) : State :=
  let used := usedLanes s.pair.lanes s.pair.width
  let bytes := flitBytes used seq (s.pair.expected - 1) f replayed
  let r := laneBlocks used s.pair.scram bytes
  (s.onPair (fun q => { q with scram := r.2 })).emit (.flit bytes r.1)

/-- Send waiting flits, at most 512 of them unacknowledged (R393). -/
def State.pump : (fuel : Nat) → State → State
  | 0, s => s
  | fuel + 1, s =>
    match s.pair.txq with
    | [] => s
    | f :: rest =>
      if 512 ≤ s.pair.unacked.length then s else
      let n := s.pair.sent
      State.pump fuel ((s.onPair (fun q => { q with txq := rest, unacked := q.unacked ++ [(n, f)], sent := n + 1 })).putFlit n f false)

/-- Send what waits, where the link carries flits. -/
def State.pumpAll (s : State) : State := if s.pair.link = .up then State.pump s.pair.txq.length s else s

/-! ### Tether messages (R392) -/

/-- The 16-byte header of a message: message ID, volume, user cluster and data sequence (R392). -/
def messageHeader (id : BitVec 32) (vid : VolId) (ucl dataSeq : Nat) : List Byte :=
  leBytes 4 id.toNat ++ leBytes 2 vid.toNat ++ leBytes 4 ucl ++ leBytes 6 dataSeq

/-- The flits of a message of `n` bytes, its header included: 240 bytes each (R392). -/
def messageFlits (kind : Byte) (bytes : List Byte) (n : Nat) : List TetherFlit :=
  let count := ceilDiv n 240
  (List.range count).map (fun i => { kind := kind, last := decide (i + 1 = count), payload := (bytes.drop (240 * i)).take 240 })

/-- Numbers as the words of a message body, 8 bytes each (log entry 112). -/
def bodyWords (xs : List Nat) : List Byte := xs.flatMap (leBytes 8)

/-- A sector as bytes. -/
def sectorBytes (d : SectorData) : List Byte := leBytes 4096 d.toNat

/-- Send a message of a type over the Tether, about a cluster of a volume, with a body of `n` bytes: its flits wait behind those
before them (R392). -/
def State.sendAbout (s : State) (kind : Byte) (vid : VolId) (ucl dataSeq : Nat) (body : List Byte) (n : Nat) : State :=
  let id := s.pair.nextMsg
  (s.onPair (fun q => { q with nextMsg := id + 1,
                               txq := q.txq ++ messageFlits kind (messageHeader id vid ucl dataSeq ++ body) (16 + n) })).pumpAll

/-- Send a message of words. -/
def State.send (s : State) (kind : Byte) (xs : List Nat) : State := s.sendAbout kind 0 0 0 (bodyWords xs) (8 * xs.length)

/-- Send a flit of its own ahead of queued traffic (R395). -/
def State.sendFirst (s : State) (kind : Byte) (payload : List Byte) : State :=
  (s.onPair (fun q => { q with txq := { kind := kind, last := true, payload := payload } :: q.txq })).pumpAll

/-! ### MSI-X (R284, R463) -/

/-- Signal an MSI-X vector of a port: held in D3hot (R277), pending while the vector or the function is masked, and sent
otherwise. -/
def State.signal (s : State) (p : Port) (v : Fin 65) : State :=
  let t := s.ports[p]
  if t.d3hot then s.onPort p (fun t => { t with heldVectors := t.heldVectors ++ [v.val] })
  else if !t.msixEnable then s
  else if t.msixMask || t.msix[v].mask then s.onPort p (fun t => { t with pending := setBit t.pending v.val true })
  else s.emit (.msix p v.val (BitVec.ofNat 64 (t.msix[v].addr.toNat * 4)) t.msix[v].data)

/-- Send the pending vectors of a port that are no longer masked. -/
def State.sendPending (s : State) (p : Port) : State :=
  (List.finRange 65).foldl (fun s v =>
    let t := s.ports[p]
    if t.pending.getLsbD v.val && t.msixEnable && !t.msixMask && !t.msix[v].mask then
      (s.onPort p (fun t => { t with pending := setBit t.pending v.val false })).signal p v
    else s) s

/-! ### Queue pairs (R282, R283) -/

/-- Completion records posted and not released by the host (R282). -/
def QueuePair.posted (q : QueuePair) : Nat :=
  if q.entries.toNat = 0 then 0 else (q.cqTail.toNat + q.entries.toNat - q.cqHead.toNat) % q.entries.toNat

/-- Commands written and not fetched. -/
def QueuePair.waiting (q : QueuePair) : Nat :=
  if q.entries.toNat = 0 then 0 else (q.sqTail.toNat + q.entries.toNat - q.sqHead.toNat) % q.entries.toNat

/-- Completion slots free to reserve: the ring holds at most its entry count minus 1 records not released (R282). -/
def QueuePair.slots (q : QueuePair) : Nat := q.entries.toNat - 1 - (q.posted + q.reserved)

/-- The next index of a ring. -/
def ringNext (i : BitVec 12) (entries : BitVec 13) : BitVec 12 :=
  if i.toNat + 1 = entries.toNat then 0 else i + 1

/-- A pair once a record is posted: the tail moves, the phase inverts at the wrap, the slot is no longer reserved
(R282, R283). -/
def QueuePair.post (q : QueuePair) : QueuePair :=
  { q with cqTail := ringNext q.cqTail q.entries,
           phase := if q.cqTail.toNat + 1 = q.entries.toNat then !q.phase else q.phase,
           reserved := q.reserved - 1, unsignalled := q.unsignalled + 1 }

/-- The 16 bytes of a completion record (Table 11.2). -/
def Completion.encode (c : Completion) (q : QueuePair) : BitVec 128 :=
  BitVec.ofNat 128 (c.result.toNat + 2 ^ 64 * q.sqHead.toNat + 2 ^ 80 * c.cid.toNat + 2 ^ 112 * c.status.toNat
    + 2 ^ 120 * b2n q.phase)

/-- The address of slot `i` of a ring of 16-byte records. -/
def slotAddr (base : BitVec 52) (size i : Nat) : BitVec 64 := BitVec.ofNat 64 (base.toNat * 4096 + size * i)

/-- The vector of a queue pair, 0 to 64. -/
def QueuePair.vec (q : QueuePair) : Fin 65 := if h : q.vector.toNat < 65 then ⟨q.vector.toNat, h⟩ else 0

/-- Signal a queue's vector (R284). -/
def State.signalQueue (s : State) (p : Port) (q : QueueNo) : State :=
  (s.signal p s.ports[p].queues[q].vec).onQueue p q (fun x => { x with unsignalled := 0 })

/-- Write a completion record into its ring, with the submission head and phase as they stand, and signal as the
aggregation says (R283, R284). -/
def State.writeRecord (s : State) (p : Port) (c : Completion) : State :=
  let q := s.ports[p].queues[c.queue]
  if !q.enabled then s else
  let s1 := (s.emit (.completion p (slotAddr q.cqBase 16 q.cqTail.toNat) (c.encode q))).onQueue p c.queue QueuePair.post
  let q1 := s1.ports[p].queues[c.queue]
  if q1.aggCount.toNat ≤ 1 ∨ q1.aggCount.toNat ≤ q1.unsignalled ∨ q1.aggTime = 0 then s1.signalQueue p c.queue else s1

/-- Post a completion: held until D0 in D3hot (R277), written otherwise. -/
def State.post (s : State) (p : Port) (c : Completion) : State :=
  if s.ports[p].d3hot then s.onPort p (fun t => { t with held := t.held ++ [c] }) else s.writeRecord p c

/-- Give sectors to the host memory of a Read, as its extents place them, with the relaxed-ordering attribute where the port's Device
Control enables it (R276, R286), or to the peer that forwarded it (R399). -/
def State.giveData (s : State) (c : CmdId) (xs : List (Nat × SectorData)) : State :=
  if xs.isEmpty then s
  else if c.peer then
    s.sendAbout 0x21 0 0 0 (bodyWords [b2n (decide (c.port = 1)), c.queue.val, c.cid.toNat] ++ xs.flatMap (fun kv => leBytes 8 kv.1 ++ sectorBytes kv.2))
      (24 + 4104 * xs.length)
  else
    let at_ := match s.cmd? c with
      | some x => xs.map (fun kv => x.places kv.1)
      | none => []
    s.emit (.readData c s.ports[c.port].relaxed xs at_)

/-- A user cluster lies in the range of a Write. -/
def Cmd.hits (c : Cmd) (vid : VolId) (u : Nat) : Bool :=
  decide (vid = c.vid ∧ c.lba / 16 ≤ u ∧ u ≤ (c.lba + c.count - 1) / 16)

/-- A Write is complete: its clusters belong to what a Flush or Destage of its queue covers from now on (R294, R295). -/
def State.tagWrite (s : State) (c : Cmd) : State :=
  let q := (c.id.peer, c.id.port, c.id.queue)
  s.onStg (fun g =>
    { g with
        dirty := g.dirty.map (fun (d : DirtyCluster) =>
          if c.hits d.vid d.ucl && !d.queues.contains q then { d with queues := d.queues ++ [q] } else d),
        map := g.map.map (fun (e : MapEntry) =>
          if c.hits e.vid e.ucl && !e.queues.contains q then { e with queues := e.queues ++ [q] } else e) })

/-- The result of a Read or Verify that ends before its sectors were all served (Table 11.4): sectors placed or checked, and
the first LBA not placed or failing. -/
def Cmd.endResult (c : Cmd) : BitVec 64 :=
  let ok := c.done.filter (fun d => decide (d.2 = 0))
  let n := if c.opcode = 4 then c.done.length else ok.length
  let open_ := if c.opcode = 4 then (c.done.filter (fun d => !decide (d.2 = 0))).map (·.1)
    else ((List.range c.count).map (c.lba + ·)).filter (fun l => !(ok.any (fun d => decide (d.1 = l))))
  BitVec.ofNat 64 (n + (open_.foldl min 0xFFFFFFFF) * 2 ^ 32)

/-- End a command with a status and result: it is no longer outstanding; its completion is posted, sent back to the peer
that forwarded it (R399), or dropped after a reset of its queue or port (R301). In RIPCORD none is posted: commands wait for the
end of BOOT (Table 11.6). -/
def State.complete (s : State) (id : CmdId) (status : Byte) (result : BitVec 64) : State :=
  if s.sys.mode = .ripcord then s else
  match s.cmd? id with
  | none => s
  | some c =>
    let s0 := { s with cmds := s.cmds.eraseP (fun x => decide (x.id = id)) }
    let result := if result = 0 ∧ (c.opcode = 1 ∨ c.opcode = 4) then c.endResult else result
    let s1 := if c.opcode = 2 ∧ status = 0 then s0.tagWrite c else s0
    if id.peer then
      s1.send 0x22 [b2n (decide (id.port = 1)), id.queue.val, id.cid.toNat, status.toNat, result.toNat]
    else if c.dropped then s1
    else s1.post id.port { queue := id.queue, cid := id.cid, result := result, status := status }

/-- A command waits in the way named. -/
def State.setWait (s : State) (id : CmdId) (w : CmdWait) : State := s.onCmd id (fun c => { c with wait := w })

/-- A command has started (R299). -/
def State.start (s : State) (id : CmdId) : State := s.onCmd id (fun c => { c with started := true })

/-! ### Mailbox responses (R305, R457) -/

/-- The 64 bytes of a response: header echoed, status, results from payload byte 8. -/
def responseBlock (opcode target tag : Nat) (len : Nat) (status : Byte) (results : List Byte) : BitVec 512 :=
  block512 (leBytes 2 opcode ++ leBytes 2 target ++ leBytes 2 tag ++ leBytes 2 len ++ [status] ++ leBytes 7 0
    ++ padBytes 48 results)

/-- Post a response on a port: the words, then DONE set and BUSY cleared, then vector 0 (R457). -/
def State.postResponse (s : State) (p : Port) (rsp : BitVec 512) : State :=
  (s.onMbx p (fun m => { m with rsp := rsp, done := true, busy := false, held := false, run := none })).signal p 0

/-- Answer the request in the port's request registers (R305). -/
def State.respond (s : State) (p : Port) (status : Byte) (results : List Byte := []) (buf : List Byte := []) : State :=
  let r := s.ports[p].mbx.req
  let s1 := if buf.isEmpty then s else s.emit (.mailboxData p (mbxBufAddr r) buf)
  s1.postResponse p (responseBlock (mbxOpcode r) (mbxTarget r).toNat (mbxTag r).toNat buf.length status results)

/-- Answer a request that has been in progress; a response whose port was reset is dropped (Table 11.7). -/
def State.respondRun (s : State) (p : Port) (status : Byte) (results : List Byte := []) : State :=
  match s.ports[p].mbx.run with
  | none => s
  | some r =>
    if r.dropped then s.onMbx p (fun m => { m with run := none })
    else s.postResponse p (responseBlock r.opcode.toNat r.target.toNat r.tag.toNat 0 status results)

/-- The port whose mailbox request waits in a way that holds of `w`. -/
def State.runPort (s : State) (w : MbxWait → Bool) : Option Port :=
  [(0 : Port), 1].find? (fun p => match s.ports[p].mbx.run with
    | some r => w r.wait
    | none => false)

/-- Take the request in progress: it runs, and is answered later. -/
def State.beginRun (s : State) (p : Port) (w : MbxWait) : State :=
  let r := s.ports[p].mbx.req
  s.onMbx p (fun m => { m with run := some { opcode := BitVec.ofNat 16 (mbxOpcode r), target := mbxTarget r,
                                             tag := mbxTag r, wait := w, dropped := false } })

/-- A request that acts on the device as a whole is in progress on some port (R307). -/
def State.wholeBusy (s : State) : Bool :=
  [(0 : Port), 1].any (fun p => s.ports[p].mbx.run.isSome)

/-- Serve the request of a port if it is submitted, of the opcode named, not in progress, and `want` holds of it: by the
present mode it is served by `body`, answered, held, or left waiting (R305 to R307). A request that acts on the device as
a whole waits while another is in progress. -/
def State.serve (s : State) (p : Port) (opcode : Nat) (want : BitVec 512 → Bool) (body : State → BitVec 512 → State) :
    State :=
  let m := s.ports[p].mbx
  if !m.busy || m.held || m.run.isSome || decide (mbxOpcode m.req ≠ opcode) || !want m.req then s else
  match s.mbxGate opcode with
  | .wait => s
  | .hold => s.onMbx p (fun m => { m with held := true })
  | .answer st => s.respond p st
  | .serve =>
    if mbxWhole opcode && s.wholeBusy then s
    else body (if mbxWhole opcode then s.onSys (fun y => { y with lastMbxPort := p }) else s) m.req

/-- Every request of an opcode. -/
def anyReq : BitVec 512 → Bool := fun _ => true

end Sys2Proof.Machine
end

