-- ==== Sys2Proof/Machine/Ldpc.lean ====
section
/-! DEFINITION. The LDPC code of R51: its parity-check matrix, the syndrome, the staircase encoder, and the layered, normalised min-sum decode of R120 and R122. Codeword bit `i` is bit `i` of a bit vector; a soft value above 0 favours 1 (R108). -/

namespace Sys2Proof.Machine

/-! ### The parity-check matrix (R51) -/

/-- Coded bits of a codeword (R50). -/
def cwBits : Nat := 18576

/-- The block rows in which information block column `j` has a circulant. -/
def ldpcOffsets : List Nat := [0, 1, 3, 6]

/-- The shift of the circulant at a block row and block column, where the block is not all zero. -/
def ldpcShift (row col : Nat) : Option Nat :=
  if col < 64 then
    ((List.range 4).find? (fun m => decide ((col + ldpcOffsets.getD m 0) % 8 = row))).map
      (fun m => (37 * (m + 1) * col + 11 * m * m + 5 * m) % 258)
  else if col = 64 + row ∨ col + 1 = 64 + row then some 0 else none

/-- The block columns of a block row with their shifts, in order. -/
def ldpcRow (row : Nat) : List (Nat × Nat) :=
  (List.range 72).filterMap (fun col => (ldpcShift row col).map (fun s => (col, s)))

/-- Block column `col` of a word. -/
def ldpcBlock {n : Nat} (c : BitVec n) (col : Nat) : BitVec 258 := c.extractLsb' (258 * col) 258

/-- The syndrome of block row `row` over the block columns below `upto`: row `a` sums the bits at (a + s) mod 258. -/
def ldpcRowSyndrome {n : Nat} (c : BitVec n) (row upto : Nat) : BitVec 258 :=
  ((ldpcRow row).filter (fun x => decide (x.1 < upto))).foldl (fun acc x => acc ^^^ (ldpcBlock c x.1).rotateRight x.2) 0

/-- The syndrome H × c, block row by block row. -/
def ldpcSyndrome (c : BitVec 18576) : List (BitVec 258) := (List.range 8).map (fun r => ldpcRowSyndrome c r 72)

/-- A word is a codeword: H × c = 0 (R51). -/
def isCodeword (c : BitVec 18576) : Bool := (ldpcSyndrome c).all (· == 0)

/-- The unsatisfied checks of a word (R134). -/
def syndromeWeight (c : BitVec 18576) : Nat := ((ldpcSyndrome c).map popCount).sum

/-- The parity blocks of information bits: block 0 is S₀, block r is S_r XOR block r − 1 (R51). -/
def ldpcParity (info : BitVec 16512) : List (BitVec 258) :=
  ((List.range 8).foldl (fun (acc : List (BitVec 258) × BitVec 258) r =>
    let p := ldpcRowSyndrome info r 64 ^^^ acc.2
    (acc.1 ++ [p], p)) ([], 0)).1

/-- The codeword of information bits (R51). -/
def ldpcEncode (info : BitVec 16512) : BitVec 18576 :=
  (List.range 8).foldl (fun (c : BitVec 18576) r => c ||| ((((ldpcParity info).getD r 0).setWidth 18576) <<< (16512 + 258 * r)))
    (info.setWidth 18576)

/-! ### Min-sum (R120, R122) -/

/-- The hard decisions of soft values: 1 where the value is above 0 (R108). -/
def hardBits (soft : List Int) : BitVec 18576 :=
  BitVec.ofNat 18576 (soft.reverse.foldl (fun acc v => 2 * acc + (if 0 < v then 1 else 0)) 0)

/-- A value within ±`top`. -/
def clip (top v : Int) : Int := max (-top) (min top v)

/-- A check message of magnitude `m` after the scale of 0.75, 6 bits (R120); whether a fraction rounds up is left open (log
entry 92). -/
def scaled (m : Nat) : Nat := min 31 (3 * m / 4 + (if 3 * m % 4 ≠ 0 ∧ Config.roundsUp 0 (3 * m / 4) = true then 1 else 0))

/-- The two smallest magnitudes of a list, the second from another place than the first. -/
def twoLeast (vs : List Int) : Nat × Nat :=
  vs.foldl (fun (m : Nat × Nat) v =>
    let a := v.natAbs
    if a < m.1 then (a, m.1) else if a < m.2 then (m.1, a) else m) (1024, 1024)

/-- The sums and check messages of a decode: a sum for each coded bit, positive for 0; a message for each layer, check of the
layer and circulant of its row. -/
structure MinSum where
  sums : Array Int
  msgs : Array Int
  deriving DecidableEq, Repr

/-- The coded bits of check `a` of a layer, in the order of its row. -/
def checkBits (row : List (Nat × Nat)) (a : Nat) : List Nat := row.map (fun x => 258 * x.1 + (a + x.2) % 258)

/-- Where the messages of check `a` of layer `r` stand. -/
def msgBase (r a : Nat) : Nat := (r * 258 + a) * 72

/-- Update one check of a layer: each bit's message is the scaled least magnitude of the others with the product of their
signs, and its sum takes the new message in place of the old, 9 bits. -/
def minSumCheck (r : Nat) (row : List (Nat × Nat)) (t : MinSum) (a : Nat) : MinSum :=
  let bits := checkBits row a
  let base := msgBase r a
  let qs := bits.mapIdx (fun i v => clip 255 (t.sums.getD v 0 - t.msgs.getD (base + i) 0))
  let least := twoLeast qs
  let odd := (qs.filter (fun q => decide (q < 0))).length % 2 = 1
  (qs.zip bits).zipIdx.foldl (fun (u : MinSum) x =>
    let q := x.1.1
    let m : Int := (scaled (if q.natAbs = least.1 then least.2 else least.1) : Nat)
    let neg := decide (xor odd (q < 0))
    let out := if neg then -m else m
    { sums := u.sums.setIfInBounds x.1.2 (clip 255 (q + out)), msgs := u.msgs.setIfInBounds (base + x.2) out }) t

/-- One layer: the 258 checks of a block row. -/
def minSumLayer (t : MinSum) (r : Nat) : MinSum := (List.range 258).foldl (minSumCheck r (ldpcRow r)) t

/-- One iteration: the 8 block rows in the order 0 to 7. -/
def minSumIteration (t : MinSum) : MinSum := (List.range 8).foldl minSumLayer t

/-- The hard decisions of the sums. -/
def MinSum.hard (t : MinSum) : BitVec 18576 := hardBits (t.sums.toList.map (fun v => -v))

/-- The result of a decode: whether it converged, its iterations and its decisions (R122). -/
structure LdpcResult where
  converged : Bool
  iters : Nat
  word : BitVec 18576
  deriving DecidableEq, Repr

/-- Iterations from the state after `done`, with `left` more permitted: stop at the first zero syndrome (R122). -/
def minSumRun (t : MinSum) (done : Nat) : Nat → LdpcResult
  | 0 => { converged := isCodeword t.hard, iters := done, word := t.hard }
  | left + 1 =>
    if isCodeword t.hard then { converged := true, iters := done, word := t.hard }
    else minSumRun (minSumIteration t) (done + 1) left

/-- Decode soft values within an iteration limit (R120, R122); the decisions of the input are checked first. -/
def ldpcDecode (soft : List Int) (limit : Nat) : LdpcResult :=
  if isCodeword (hardBits soft) then { converged := true, iters := 0, word := hardBits soft }
  else minSumRun { sums := (soft.map (fun v => -v)).toArray, msgs := Array.replicate (8 * 258 * 72) 0 } 0 limit

end Sys2Proof.Machine
end

