-- ==== Sys2Proof/Machine/Modulation.lean ====
section
/-! DEFINITION. The channel bits of a cluster (R45 to R48): the frame sync, the byte code with its running digital sum, the cluster as it is recorded, demodulation, and the runs the format allows. A channel bit 1 is a transition (NRZI). -/

namespace Sys2Proof.Machine

/-! ### The frame sync (R46) -/

/-- The frame-number code of a sync: c2, c1, c0 and their complements (Table 2.5). -/
def syncCode (c : Nat) : List Bool :=
  let code := [decide (c / 4 % 2 = 1), decide (c / 2 % 2 = 1), decide (c % 2 = 1)]
  code ++ code.map (!·)

/-- The 40 channel bits of a frame sync for `c`, the frame number modulo 8 (Table 2.5). -/
def syncPattern (c : Nat) : List Bool :=
  [true] ++ List.replicate 11 false ++ [true] ++ (syncCode c).flatMap (fun b => if b then [true, false] else [false, true])
    ++ [true, false, false, false, true, false, false, false, true, false, false, false, true, false] ++ [true]

/-! ### The written level (R45, R47) -/

/-- The level after a channel bit: a 1 toggles between space, −1, and mark, +1. -/
def nextLevel (level : Int) (bit : Bool) : Int := if bit then -level else level

/-- The NRZ levels of channel bits, from the level before them. -/
def levelsFrom (level : Int) (bits : List Bool) : List Int :=
  (bits.foldl (fun (x : Int × List Int) b => (nextLevel x.1 b, nextLevel x.1 b :: x.2)) (level, [])).2.reverse

/-- The level and the running digital sum after channel bits (R47). -/
def runSum (st : Int × Int) (bits : List Bool) : Int × Int :=
  bits.foldl (fun (x : Int × Int) b => (nextLevel x.1 b, x.2 + nextLevel x.1 b)) st

/-! ### The byte code (R47) -/

/-- Bit `i` of a byte, as a channel bit. -/
def byteBit (d : Byte) (i : Nat) : Bool := d.getLsbD i

/-- The 9 channel bits of a byte with `p` inserted after the fourth (R47). -/
def codeWord (d : Byte) (p : Bool) : List Bool :=
  [byteBit d 7, byteBit d 6, byteBit d 5, byteBit d 4, p, byteBit d 3, byteBit d 2, byteBit d 1, byteBit d 0]

/-- The choice of p: 1 where a nibble is 0, else the value that leaves the sum nearer 0, 1 on a tie. `sum` gives the running
digital sum after the word, with any sync that splits it. -/
def chooseP (d : Byte) (sum : List Bool → Int) : Bool :=
  if d.toNat / 16 = 0 ∨ d.toNat % 16 = 0 then true
  else decide ((sum (codeWord d true)).natAbs ≤ (sum (codeWord d false)).natAbs)

/-- The byte of 9 channel bits: the fifth is deleted (R47). -/
def byteOfWord (w : List Bool) : Byte :=
  BitVec.ofNat 8 ((w.eraseIdx 4).foldl (fun acc b => 2 * acc + b2n b) 0)

/-! ### The cluster (R45, Table 2.4) -/

/-- Data-stream channel bits before frame `f` (Table 2.4). -/
def streamBefore (f : Nat) : Nat := if f = 0 then 0 else 1648 + (f - 1) * 1960

/-- The frame that begins at data-stream channel bit `n`, from frame 1 on. -/
def frameAt (n : Nat) : Option Nat :=
  if 1648 ≤ n ∧ (n - 1648) % 1960 = 0 ∧ (n - 1648) / 1960 < 383 then some ((n - 1648) / 1960 + 1) else none

/-- Data-stream channel bits from stream position `n`, with the sync of each frame that begins among them. -/
def withSyncs (n : Nat) : List Bool → List Bool
  | [] => []
  | b :: rest =>
    match frameAt n with
    | some f => syncPattern (f % 8) ++ b :: withSyncs (n + 1) rest
    | none => b :: withSyncs (n + 1) rest

/-- The state of the writer's modulator: level, running digital sum, position in the data stream, and the channel bits so far,
newest first. -/
structure Modulator where
  sum : Int × Int
  pos : Nat
  out : List Bool
  deriving DecidableEq, Repr

/-- Put channel bits out as they are. -/
def Modulator.put (m : Modulator) (bits : List Bool) : Modulator :=
  { m with sum := runSum m.sum bits, out := bits.reverse ++ m.out }

/-- Modulate one byte of the cluster address field. -/
def Modulator.field (m : Modulator) (d : Byte) : Modulator :=
  m.put (codeWord d (chooseP d (fun w => (runSum m.sum w).2)))

/-- Modulate one byte of the data stream, split by any sync it straddles (R47). -/
def Modulator.data (m : Modulator) (d : Byte) : Modulator :=
  let w := codeWord d (chooseP d (fun w => (runSum m.sum (withSyncs m.pos w)).2))
  { m.put (withSyncs m.pos w) with pos := m.pos + 9 }

/-- The preamble: 1000 repeated 400 times. -/
def preamble : List Bool := (List.replicate 400 [true, false, false, false]).flatten

/-- The postamble: 1000 repeated 100 times. -/
def postamble : List Bool := (List.replicate 100 [true, false, false, false]).flatten

/-- The 6 channel bits that open the cluster address field (R49). -/
def addrPrefix : List Bool := [true, false, false, true, false, false]

/-- The 770,000 channel bits of a cluster: preamble, the 384 frames with the address field's 34 bytes and the data stream's
83,592 bytes, postamble (Table 2.4). -/
def clusterBits (addr data : List Byte) : List Bool :=
  let m0 : Modulator := { sum := (-1, 0), pos := 0, out := [] }
  let m1 := ((m0.put preamble).put (syncPattern 0)).put addrPrefix
  let m2 := data.foldl Modulator.data (addr.foldl Modulator.field m1)
  (m2.put postamble).out.reverse

/-! ### Runs (R48) -/

/-- The longest row of channel bits without a transition. -/
def longestZeros (bits : List Bool) : Nat :=
  (bits.foldl (fun (x : Nat × Nat) b => if b then (0, x.2) else (x.1 + 1, max x.2 (x.1 + 1))) (0, 0)).2

/-- A run of nT, a 1 and n − 1 zeros, is data for a reader up to 10T (R48). -/
def runIsData (n : Nat) : Bool := decide (1 ≤ n ∧ n ≤ 10)

/-- Runs between transitions that no reader takes as data: 11T or longer (R48). -/
def runsAreData (bits : List Bool) : Bool := decide (longestZeros bits ≤ 9)

/-! ### Demodulation (R116) -/

/-- Demodulate from word index `n`: each value of index 4 modulo 9 is dropped. -/
def demodulate {α : Type} (n : Nat) (xs : List α) : List α :=
  (xs.zipIdx n).filterMap (fun x => if x.2 % 9 = 4 then none else some x.1)

/-- Data bits before frame `f`: every fifth bit of nine is dropped (R47, R116). -/
def dataBefore (f : Nat) : Nat := streamBefore f - (streamBefore f + 4) / 9

end Sys2Proof.Machine
end

