-- ==== Sys2Proof/Machine/Media.lean ====
section
/-! DEFINITION. What stands on an SL16 disc as bytes and bits (02_sl16_media_format.md): the cluster address field (R49), codewords and their metadata (R50, R52), the outer code (R53, R54), a cluster as it is recorded and read, and the bytes of a management set (R57, R59, R60). Fields are little-endian (R7). -/

namespace Sys2Proof.Machine

/-! ### Bytes of a wide word -/

/-- Bytes as a number, byte 0 lowest (R7). -/
def packBytes (n : Nat) (bs : List Byte) : BitVec n := BitVec.ofNat n (bs.reverse.foldl (fun acc b => 256 * acc + b.toNat) 0)

/-- The first `k` bytes of a wide word (R7). -/
def wordBytes {n : Nat} (k : Nat) (x : BitVec n) : List Byte := (List.range k).map (fun i => x.extractLsb' (8 * i) 8)

/-- A byte repeated over a wide word. -/
def packMask (n b : Nat) : BitVec n := BitVec.ofNat n (b * ((2 ^ n - 1) / 255))

/-- The bits of each byte in the opposite order: bit `i` of a codeword is bit 7 − (i mod 8) of byte i div 8 (R50). -/
def reverseBytes {n : Nat} (x : BitVec n) : BitVec n :=
  let a := ((x >>> 4) &&& packMask n 0x0F) ||| ((x &&& packMask n 0x0F) <<< 4)
  let b := ((a >>> 2) &&& packMask n 0x33) ||| ((a &&& packMask n 0x33) <<< 2)
  ((b >>> 1) &&& packMask n 0x55) ||| ((b &&& packMask n 0x55) <<< 1)

/-! ### The cluster address field (R49, Table 2.6) -/

/-- The address information of a cluster recorded at an address of a disc: its area and address in bytes 0 to 3, the low half
of the disc identifier's low word in bytes 4 and 5. -/
def addrInfo (a : ClusterAddr) (discId : BitVec 64) : BitVec 48 :=
  BitVec.ofNat 48 (a.toNat + (areaOf a).code * 2 ^ 26 + discId.toNat % 65536 * 2 ^ 32)

/-- The address of address information. -/
def infoAddr (info : BitVec 48) : ClusterAddr := BitVec.ofNat 26 info.toNat

/-- The 34 bytes of the cluster address field: 6 of information, 28 of parity (R49). -/
def addrField (info : BitVec 48) : List Byte :=
  let bs := wordBytes 6 info
  bs ++ (rsParity gf256 28 (bs.map BitVec.toNat)).map (BitVec.ofNat 8)

/-- The address information of a received field with flagged bytes as erasures, where it decodes (R49, R117). -/
def decodeAddrField (erased : List Nat) (bs : List Byte) : Option (BitVec 48) :=
  (rsDecode gf256 28 erased (bs.map BitVec.toNat)).map (fun w => packBytes 48 ((w.take 6).map (BitVec.ofNat 8)))

/-! ### Codewords and their metadata (R50, R52) -/

/-- The data bytes of a codeword: half a sector (Table 2.7). -/
def cwHalf (d : CwData) : BitVec 16384 := d.bytes.extractLsb' 0 16384

/-- The metadata of a codeword (Table 2.8). -/
def cwInfo (d : CwData) : Metadata :=
  let m := fun (off n : Nat) => d.bytes.extractLsb' (16384 + off) n
  { index := m 26 6, home := m 0 26, vid := m 32 16, lba := m 48 32, management := (m 82 1) == 1, replacement := (m 81 1) == 1,
    unwritten := (m 80 1) == 1, remap := m 88 8 }

/-- The CRC-32 a codeword carries. -/
def cwCrc (d : CwData) : BitVec 32 := d.bytes.extractLsb' (16384 + 96) 32

/-- The CRC-32 of a codeword holds: over its data bytes and metadata bytes 0 to 11 (R52). -/
def cwCrcOk (d : CwData) : Bool := decide (crc32 (wordBytes 2060 d.bytes) = (cwCrc d).toNat)

/-- The information bytes of a data codeword (R52). -/
def makeCw (half : BitVec 16384) (m : Metadata) : CwData :=
  let flags := b2n m.unwritten + 2 * b2n m.replacement + 4 * b2n m.management
  let body : BitVec 16480 := BitVec.ofNat 16480 (half.toNat + 2 ^ 16384 *
    (m.home.toNat + 2 ^ 26 * m.index.toNat + 2 ^ 32 * m.vid.toNat + 2 ^ 48 * m.lba.toNat + 2 ^ 80 * flags + 2 ^ 88 * m.remap.toNat))
  { bytes := BitVec.ofNat 16512 (body.toNat + 2 ^ 16480 * crc32 (wordBytes 2060 body)) }

/-- The codeword that carries information bytes (R50, R51). -/
def cwEncode (d : CwData) : BitVec 18576 := ldpcEncode (reverseBytes d.bytes)

/-- The information bytes of a codeword. -/
def cwOfBits (c : BitVec 18576) : CwData := { bytes := reverseBytes (c.setWidth 16512) }

/-! ### The outer code (R53) -/

/-- 2,064 bytes, each times x in GF(2⁸). -/
def packedDouble (x : BitVec 16512) : BitVec 16512 :=
  let high := (x >>> 7) &&& packMask 16512 0x01
  ((x &&& packMask 16512 0x7F) <<< 1) ^^^ (high ^^^ (high <<< 2) ^^^ (high <<< 3) ^^^ (high <<< 4))

/-- 2,064 bytes, each times a constant. -/
def packedScale (k : Nat) (x : BitVec 16512) : BitVec 16512 :=
  ((List.range 8).foldl (fun (acc : BitVec 16512 × BitVec 16512) i =>
    (if k.testBit i then acc.1 ^^^ acc.2 else acc.1, packedDouble acc.2)) (0, x)).1

/-- The four syndromes of every byte position: codeword `i` supplies the coefficient of x^(35 − i). -/
def outerSyndromes (ws : List (BitVec 16512)) : List (BitVec 16512) :=
  (List.range 4).map (fun j => ws.foldl (fun acc w => ((List.range j).foldl (fun a _ => packedDouble a) acc) ^^^ w) 0)

/-- The information bytes of codewords 32 to 35, from those of codewords 0 to 31. -/
def outerParity (ws : List (BitVec 16512)) : List (BitVec 16512) :=
  let g := rsGenerator gf256 4
  ws.foldl (fun (reg : List (BitVec 16512)) w =>
    let top := w ^^^ reg.headD 0
    (List.range 4).map (fun i => reg.getD (i + 1) 0 ^^^ packedScale (g.getD (3 - i) 0) top)) (List.replicate 4 0)

/-- Byte `p` of a codeword's information bytes. -/
def cwByte (w : BitVec 16512) (p : Nat) : Nat := (w.extractLsb' (8 * p) 8).toNat

/-- The word with the difference `x` added at byte `p`. -/
def patchByte (w : BitVec 16512) (p x : Nat) : BitVec 16512 := w ^^^ BitVec.ofNat 16512 (x * 2 ^ (8 * p))

/-- Decode every byte position of the 36 codewords with the flagged ones as erasures: errors and erasures up to 2e + f ≤ 4 at
each; none where some position does not decode (R127). -/
def outerDecode (erased : List Nat) (ws : List (BitVec 16512)) : Option (List (BitVec 16512)) :=
  let bad := (outerSyndromes ws).foldl (· ||| ·) 0
  ((List.range 2064).filter (fun p => decide (cwByte bad p ≠ 0))).foldl
    (fun (acc : Option (List (BitVec 16512))) p => acc.bind (fun v =>
      (rsDecode gf256 4 erased (v.map (cwByte · p))).map (fun r =>
        (v.zip r).map (fun x => if cwByte x.1 p = x.2 then x.1 else patchByte x.1 p (cwByte x.1 p ^^^ x.2))))) (some ws)

/-! ### A cluster (R45, R50, R52 to R54) -/

/-- What the metadata of a cluster's 32 data codewords share (Table 2.8). -/
structure ClusterMeta where
  home : ClusterAddr
  vid : VolId
  lba : BitVec 32
  management : Bool
  replacement : Bool
  remap : Byte
  deriving DecidableEq, Repr

/-- The checks of R128 that codeword `i` of a cluster fails, bits 0 to 4 in the order of the rule: its index, home address, volume
ID, LBA of sector 0 and replacement bit. -/
def metaMaskOf (c : ClusterMeta) (i : Nat) (m : Metadata) : Nat :=
  boolMask [decide (m.index.toNat ≠ i), decide (m.home ≠ c.home), decide (m.vid ≠ c.vid), decide (m.lba ≠ c.lba),
    decide (m.replacement ≠ c.replacement)]

/-- The information bytes of the 36 codewords of a cluster: its 32 halves of sectors, each with whether it is unwritten, and
the outer code's parity (R52 to R54). -/
def clusterCodewords (m : ClusterMeta) (halves : List (BitVec 16384 × Bool)) : List CwData :=
  let ds := halves.mapIdx (fun i h => makeCw h.1
    { index := BitVec.ofNat 6 i, home := m.home, vid := m.vid, lba := m.lba, management := m.management,
      replacement := m.replacement, unwritten := h.2, remap := m.remap })
  ds ++ (outerParity (ds.map CwData.bytes)).map (fun w => { bytes := w })

/-- The halves of 16 sectors; a sector that was never written is recorded as zeros and marked unwritten (R63). -/
def sectorHalves (sector : Nat → Option SectorData) : List (BitVec 16384 × Bool) :=
  (List.range 16).flatMap (fun k => match sector k with
    | some d => [(d.extractLsb' 0 16384, false), (d.extractLsb' 16384 16384, false)]
    | none => [(0, true), (0, true)])

/-- The 83,592 bytes of the data stream: the 36 codewords, each bit `i` in bit 7 − (i mod 8) of its byte (R50). -/
def clusterStream (cws : List CwData) : List Byte := cws.flatMap (fun d => wordBytes 2322 (reverseBytes (cwEncode d)))

/-- The channel bits of a cluster recorded at an address of a disc (R45). -/
def recordedBits (a : ClusterAddr) (discId : BitVec 64) (cws : List CwData) : List Bool :=
  clusterBits (addrField (addrInfo a discId)) (clusterStream cws)

/-- The coded bits of a cluster, as soft values, that belong to codeword `i` (R126). -/
def softOf (soft : List Int) (i : Nat) : List Int := (soft.drop (i * cwBits)).take cwBits

/-! ### Management sets as bytes (R57, R59, R60) -/

/-- A defect list entry (Table 2.10). -/
def defectBytes (e : DefectEntry) : List Byte := leBytes 4 (e.home.toNat + 2 ^ 26 * e.cause.toNat) ++ leBytes 4 e.repl.toNat

/-- The entry that 8 bytes give. -/
def defectOfBytes (bs : List Byte) : DefectEntry :=
  let a := ofLeBytes (bs.take 4)
  { cause := BitVec.ofNat 6 (a / 2 ^ 26), home := BitVec.ofNat 26 a, repl := BitVec.ofNat 26 (ofLeBytes ((bs.drop 4).take 4)) }

/-- The signature of a set: the ASCII bytes S16M. -/
def setSignature : List Byte := [0x53, 0x31, 0x36, 0x4D]

/-- The flags of a set (Table 2.11). -/
def setFlags (m : MgmtSet) : Nat := b2n m.remap + 2 * b2n m.clean + 4 * b2n m.closed + 8 * b2n m.preRead

/-- Bytes 0x00 to 0x3B of the header of a set (Table 2.11). -/
def setHeader (m : MgmtSet) : List Byte :=
  setSignature ++ leBytes 4 m.seq.toNat ++ leBytes 2 (setClusters m) ++ leBytes 2 m.vid.toNat ++ leBytes 2 (setFlags m) ++ leBytes 2 0
    ++ leBytes 8 m.discId.toNat ++ leBytes 4 m.defects.length ++ leBytes 4 m.ranges.length ++ leBytes 4 m.nextOrdinal
    ++ List.replicate 24 0

/-- The record stream of a set: header, defect list entries, recorded ranges (R60). -/
def setBytes (m : MgmtSet) : List Byte :=
  setHeader m ++ leBytes 4 (crc32 (setHeader m)) ++ m.defects.flatMap defectBytes
    ++ m.ranges.flatMap (fun r => leBytes 4 r.1 ++ leBytes 4 r.2)

/-- The `k` records of 8 bytes from the start of a list. -/
def records8 (k : Nat) (bs : List Byte) : List (List Byte) := (List.range k).map (fun i => (bs.drop (8 * i)).take 8)

/-- The clusters a header announces, where its signature and CRC hold (R59, R60). -/
def headerClusters (bs : List Byte) : Option Nat :=
  if (bs.take 64).length = 64 ∧ bs.take 4 = setSignature ∧ crc32 (bs.take 60) = ofLeBytes ((bs.drop 60).take 4) then
    some (ofLeBytes ((bs.drop 8).take 2))
  else none

/-- The set that a record stream gives, where its header holds (R60). -/
def setOfBytes (bs : List Byte) : Option MgmtSet :=
  (headerClusters bs).map (fun _ =>
    let f := fun (off n : Nat) => ofLeBytes ((bs.drop off).take n)
    let nd := f 0x18 4
    let nr := f 0x1C 4
    { seq := BitVec.ofNat 32 (f 4 4), vid := BitVec.ofNat 16 (f 0xA 2), remap := (f 0xC 2).testBit 0, clean := (f 0xC 2).testBit 1,
      closed := (f 0xC 2).testBit 2, preRead := (f 0xC 2).testBit 3, discId := BitVec.ofNat 64 (f 0x10 8),
      defects := (records8 nd (bs.drop 64)).map defectOfBytes,
      ranges := (records8 nr (bs.drop (64 + 8 * nd))).map (fun r => (ofLeBytes (r.take 4), ofLeBytes (r.drop 4))),
      nextOrdinal := f 0x20 4 })

/-- The data bytes of management cluster `k` of a set: 65,536 bytes of its record stream, zeros behind its end (R60). -/
def setCluster (m : MgmtSet) (k : Nat) : List Byte := padBytes 65536 (((setBytes m).drop (65536 * k)).take 65536)

/-- The codewords of management cluster `k` of a set, recorded at an address: home address its own position, sector field 0
(R52). -/
def setCodewords (m : MgmtSet) (k : Nat) (a : ClusterAddr) : List CwData :=
  let bs := setCluster m k
  clusterCodewords { home := a, vid := m.vid, lba := 0, management := true, replacement := false, remap := 0 }
    ((List.range 32).map (fun i => (packBytes 16384 ((bs.drop (2048 * i)).take 2048), false)))

/-- The sets that one copy holds, where each position read gives the data bytes of its cluster, or none where it does not
decode (R59): a header and the clusters it announces, from the positions after it; positions that do not decode, and a
cluster written again, are passed over (log entry 93). -/
def setsOfCopy : List (Option (List Byte)) → List MgmtSet
  | [] => []
  | none :: rest => setsOfCopy rest
  | some bs :: rest =>
    match headerClusters bs with
    | none => setsOfCopy rest
    | some n =>
      let follow := (bs :: rest.filterMap id).destutter (· ≠ ·)
      let all := follow.take n
      (if all.length = n then (setOfBytes all.flatten).toList else []) ++ setsOfCopy rest

/-- The current set of a disc: the valid one with the highest sequence number in either copy (R59). -/
def currentSet (copy1 copy2 : List (Option (List Byte))) : Option MgmtSet :=
  (setsOfCopy copy1 ++ setsOfCopy copy2).foldl (fun (best : Option MgmtSet) m => match best with
    | some x => if x.seq.toNat < m.seq.toNat then some m else some x
    | none => some m) none

end Sys2Proof.Machine
end

