-- ==== Sys2Proof/Machine/Pulses.lean ====
section
/-! DEFINITION. The write strategy (06_writing_and_verification.md): the pulse train of a mark (R155, R156) and the pulse bus symbols of a cluster (R153). Times are quarters of a channel bit period; levels are 0 space, 1 cooling, 2 middle, 3 peak (Table 6.2). -/

namespace Sys2Proof.Machine

/-! ### Marks (R45, R156) -/

/-- A mark: its first channel bit, its length, and the lengths of the spaces before and behind it. -/
structure Mark where
  start : Nat
  len : Nat
  before : Nat
  behind : Nat
  deriving DecidableEq, Repr

/-- The runs of channel bits that begin with a transition, in order, with their first channel bit (R45). -/
def runsOf (bits : List Bool) : List (Nat × Nat) :=
  let st := bits.foldl (fun (x : Nat × List (Nat × Nat)) b =>
    (x.1 + 1, if b then (x.1, 1) :: x.2 else match x.2 with
      | (a, n) :: rest => (a, n + 1) :: rest
      | [] => [])) (0, [])
  st.2.reverse

/-- The marks of runs that alternate from a mark, `before` the space that leads to the first (R156). -/
def marksFrom (before : Nat) : List (Nat × Nat) → List Mark
  | (a, n) :: (_, m) :: rest => { start := a, len := n, before := before, behind := m } :: marksFrom m rest
  | [(a, n)] => [{ start := a, len := n, before := before, behind := 4 }]
  | [] => []

/-- The class of a mark: 1T to 4T, then 5T and longer (Table 6.3). -/
def markClass (n : Nat) : Nat := min 4 (n - 1)

/-- The class of a space: 1T to 3T, then 4T and longer (Table 6.3). -/
def spaceClass (n : Nat) : Nat := min 3 (n - 1)

/-! ### The pulse train of a mark (R156) -/

/-- A signed byte of a strategy block. -/
def blockInt (block : List Byte) (i : Nat) : Int := (block.getD i 0).toInt

/-- A byte of a strategy block. -/
def blockNat (block : List Byte) (i : Nat) : Nat := (block.getD i 0).toNat

/-- The edges of a mark: the quarter at which each level takes effect, in order (R156). -/
def markEdges (block : List Byte) (x : Mark) : List (Int × Nat) :=
  let m := markClass x.len
  let t0 : Int := 4 * x.start
  let field := fun (k : Nat) => 8 + 4 * m + k
  let start := t0 + blockInt block (field 0) + blockInt block (0x1C + 5 * spaceClass x.before + m)
  let top := start + blockNat block (field 1)
  let stop := t0 + 4 * x.len + blockInt block (0x30 + 4 * m + spaceClass x.behind)
  let last := blockNat block (field 2)
  let cool := blockNat block (field 3)
  let fills := decide (m = 4 ∧ blockNat block 5 % 2 = 1)
  let body := if fills then [(top, 2)] else if last = 0 then [] else [(top, (Config.pulseRest m).val)]
  let pulse := if last = 0 then [] else [(stop - last, 3)]
  let cools := if last = 0 ∧ fills = false ∧ Config.coolsAtTop m = true then top else stop
  [(start, 3)] ++ (if last = 0 ∧ fills = false ∧ Config.coolsAtTop m = false then [(top, (Config.pulseRest m).val)] else body) ++ pulse
    ++ [(cools, 1), (cools + cool, 0)]

/-- Edges put behind earlier ones, newest first: where pulses overlap the later mark's edges win (R156). -/
def putEdges (acc : List (Int × Nat)) (es : List (Int × Nat)) : List (Int × Nat) :=
  match es with
  | [] => acc
  | (t, _) :: _ => es.reverse ++ acc.dropWhile (fun e => decide (t ≤ e.1))

/-- The edges of the channel bits of a cluster, in order. -/
def clusterEdges (block : List Byte) (bits : List Bool) : List (Int × Nat) :=
  ((marksFrom 4 (runsOf bits)).foldl (fun acc x => putEdges acc (markEdges block x)) []).reverse

/-! ### Pulse bus symbols (R153) -/

/-- A symbol: level in bits [3:2], phase in bits [1:0] (Table 6.2). -/
def pulseSymbol (level q : Nat) : BitVec 4 := BitVec.ofNat 4 (4 * level + q % 4)

/-- The symbol of channel bit period `n`, from the level in force and the edges that fall in it; with none it holds. -/
def symbolOf (level : Nat) (n : Int) (es : List (Int × Nat)) : BitVec 4 :=
  match es[Config.pulseEdge (es.map (·.2)) % es.length]? with
  | some e => pulseSymbol e.2 (e.1 - 4 * n).toNat
  | none => pulseSymbol level 0

/-- The symbols of `n` channel bit periods from period `first` on (R153), from the level in force before them. -/
def symbolsFrom (level : Nat) (first : Int) (n : Nat) (edges : List (Int × Nat)) : List (BitVec 4) :=
  let step := fun (x : (Nat × List (Int × Nat)) × List (BitVec 4)) (i : Nat) =>
    let p := first + i
    let here := x.1.2.takeWhile (fun e => decide (e.1 < 4 * (p + 1)))
    let y := symbolOf x.1.1 p here
    ((y.toNat / 4, x.1.2.drop here.length), y :: x.2)
  ((List.range n).foldl step ((level, edges), [])).2.reverse

/-- The symbols of a cluster's 770,000 channel bits and of `lead` periods before them (R153, R165). -/
def clusterSymbols (block : List Byte) (lead : Nat) (bits : List Bool) : List (BitVec 4) :=
  symbolsFrom 0 (-(lead : Int)) (lead + bits.length) (clusterEdges block bits)

/-- The level that the bus selects in a channel bit period of a cluster (R163). -/
def levelOfSymbol (x : BitVec 4) : Nat := x.toNat / 4

end Sys2Proof.Machine
end

