-- ==== Sys2Proof/Machine/WriteData.lean ====
section
/-! DEFINITION. What a bay records (R45, R52, R63, R155, R157): the sectors, metadata and channel bits of the clusters it writes, the symbols of a turn on the pulse bus (R153, R154), and where in its turn B0 stands (R44, R165). -/

namespace Sys2Proof.Machine

/-! ### The contents of a written cluster (R25, R52, R63) -/

/-- A sector of the staged copy of a cluster in NAND (R25). -/
def State.stagedSector (s : State) (vid : VolId) (ucl k : Nat) : Option SectorData :=
  match s.stg.map.find? (fun e => decide (e.vid = vid ∧ e.ucl = ucl)) with
  | some e => if e.mask.getLsbD k then lookupKey e.sectors k else none
  | none => none

/-- The identifier of the disc in a bay (R60). -/
def Bay.discId (t : Bay) : BitVec 64 :=
  match t.seq.disc with
  | some d => match d.mgmt with | some m => m.discId | none => 0
  | none => 0

/-- The remap count of a home position: the remap rewrites that its set records (R57, R63). -/
def remapsOf (m : MgmtSet) (home : ClusterAddr) : Nat :=
  (m.defects.filter (fun e => decide (e.home = home ∧ e.cause = 2))).length

/-- The remap count recorded with a cluster: increased by 1 for a remap rewrite, modulo 256 (R52, R63). -/
def Bay.remapCount (t : Bay) (x : WriteItem) : Byte :=
  match t.seq.disc with
  | some d => match d.mgmt with
    | some m => BitVec.ofNat 8 (remapsOf m x.home + b2n (decide (x.cause = 2)))
    | none => 0
  | none => 0

/-- The metadata of a user cluster as it is written: at its home, or, for a cause, in the replacement area (R52). -/
def Bay.itemMeta (t : Bay) (x : WriteItem) : ClusterMeta :=
  { home := x.home, vid := x.vid, lba := BitVec.ofNat 32 (16 * x.ucl), management := false, replacement := decide (x.cause ≠ 0),
    remap := t.remapCount x }

/-- A sector of a cluster to be written: its staged copy, else what the disc copy holds (R25, R354). -/
def State.itemSector (s : State) (x : WriteItem) (k : Nat) : Option SectorData :=
  match s.stagedSector x.vid x.ucl k with
  | some d => some d
  | none => (lookupKey x.fill k).join

/-- The codewords of a user cluster as it is written; sectors the host never wrote are zeros, marked unwritten (R25, R63). -/
def State.itemWords (s : State) (b : BayNo) (x : WriteItem) : List CwData :=
  clusterCodewords (s.bays[b].itemMeta x) (sectorHalves (s.itemSector x))

/-- The channel bits of a user cluster as it is recorded at an address (R45, R49). -/
def State.itemBits (s : State) (b : BayNo) (a : ClusterAddr) (x : WriteItem) : List Bool :=
  recordedBits a s.bays[b].discId (s.itemWords b x)

/-! ### The write strategy in force (R155) -/

/-- The strategy set in force in a bay (R155): the last accepted at its mount, or that of the image. -/
def State.strategySet (s : State) (b : BayNo) : List Byte := (s.params.strategyInForce[b]).getD Config.imageStrategySet

/-- The strategy block of a layer and zone (R155). -/
def State.strategyBlock (s : State) (b : BayNo) (layer : LayerNo) (zone : Nat) : List Byte :=
  ((s.strategySet b).drop (80 * (10 * layer.val + zone))).take 80

/-! ### B0 on its turn (R44, R165) -/

/-- The first channel bit of an item's slot on its turn (R44). -/
def WriteItem.first (x : WriteItem) : Int := addrSlot x.home * slotBits

/-- The clusters of the run's turn, those recorded and those to come. -/
def WriteRun.turnAll (r : WriteRun) : List WriteItem :=
  r.unjudged.filter (fun x => decide (addrLayer x.home = r.layer ∧ addrTurn x.home = r.turn)) ++ r.turnItems

/-- Where B0 stands: channel bits from the end of the index gap (R44, R162). -/
def Bay.writePos (t : Bay) (r : WriteRun) : Int := (bitsAt r.zone t.srv.cycle).floor

/-- The slot of a position of a turn, 0 in the index gap. -/
def slotAt (zone : Nat) (pos : Int) : Nat := min (zoneClusters zone - 1) (pos / slotBits).toNat

/-- The gate at a position: high from WR.GATE_LEAD channel bits before the first preamble channel bit of a cluster written to the
end of the last consecutive one (R165). -/
def gateAt (lead : Nat) (items : List WriteItem) (pos : Int) : Bool :=
  items.any (fun x => decide (x.first - lead ≤ pos ∧ pos < x.first + slotBits))

/-- The 26-bit position a write run has reached, for a payload (R171). -/
def Bay.runAddr (t : Bay) (r : WriteRun) : Nat := (mkAddr r.layer.val r.turn (slotAt r.zone (t.writePos r))).toNat

/-! ### The pulse bus (R153, R154) -/

/-- The edges of the run's turn, in quarters of a channel bit from the end of the index gap, the space before each cluster long. -/
def State.turnEdges (s : State) (b : BayNo) (r : WriteRun) : List (Int × Nat) :=
  let block := s.strategyBlock b r.layer r.zone
  r.turnAll.flatMap (fun x => (clusterEdges block (s.itemBits b x.home x)).map (fun e => (e.1 + 4 * x.first, e.2)))

/-- The bus sends the symbols of the channel bits from position `p` up to `q` of the run's turn, WR.LDL_LATENCY channel bits ahead
of them (R153, R154). -/
def State.sendPulses (s : State) (b : BayNo) (r : WriteRun) (p q : Int) : State :=
  if q ≤ p then s else
  let ahead := s.bn b Param.wrLdlLatency
  let xs := symbolsFrom (levelOfSymbol s.bays[b].wp.bus) (p + ahead) (q - p).toNat ((s.turnEdges b r).filter (fun e => decide (4 * (p + ahead) ≤ e.1)))
  (s.emit (.pulses b p xs)).onWp b (fun w => { w with bus := xs.getLastD w.bus })

/-- The bus carries space symbols from here on (R169). -/
def State.busToSpace (s : State) (b : BayNo) (p : Int) : State :=
  (s.emit (.pulses b p [0])).onWp b (fun w => { w with bus := 0 })

/-! ### What B1 meets beside its own track (R106, R163) -/

/-- The NRZ level of B0's write data at a channel bit of the run's turn (R106). -/
def State.writtenLevel (s : State) (b : BayNo) (r : WriteRun) (p : Int) : Option Int :=
  (r.turnAll.find? (fun x => decide (x.first ≤ p ∧ p < x.first + slotBits))).bind (fun x =>
    (levelsFrom (-1) (s.itemBits b x.home x))[(p - x.first).toNat]?)

/-- The level that B0's bus selects at a channel bit of the run's turn: the last edge at or before it (R163). -/
def State.busLevel (s : State) (b : BayNo) (r : WriteRun) (p : Int) : Nat :=
  (((s.turnEdges b r).takeWhile (fun e => decide (e.1 ≤ 4 * p))).getLast?.map (·.2)).getD 0

/-- The relative power of a level: 1 for peak, else εm, εc and εb in 1/256 (R163). -/
def relativePower (block : List Byte) (level : Nat) : Rat :=
  match level with
  | 3 => 1
  | 2 => (blockNat block 2 : Rat) / 256
  | 1 => (blockNat block 3 : Rat) / 256
  | _ => (blockNat block 4 : Rat) / 256

end Sys2Proof.Machine
end

