-- ==== Sys2Proof/Machine/BayOps.lean ====
section
/-! DEFINITION. Shared operations of a bay: its state changes (Table 9.2), the write-gate cut (R169, R170), parking (R193, R195), spin-down (R223), the abort of a calibration run (R85), and entry to FAULTED (R249). -/

namespace Sys2Proof.Machine

/-! ### State changes (R237) -/

/-- The rows of Table 9.2, counted from 0, and the changes that R239, R240 and the warm reset paragraph of R237 add: the
states a row leads between. Row 24 stands for a change with no row of the table (log entry 17). -/
def bayRow (row : Nat) (a b : BaySt) : Bool :=
  let moving := decide (a = .reading ∨ a = .writing ∨ a = .seeking ∨ a = .layerJump)
  let work := decide (b = .reading ∨ b = .writing ∨ b = .seeking ∨ b = .layerJump)
  match row with
  | 0 => decide (a = .empty ∧ b = .loading)
  | 1 => decide (a = .loading ∧ b = .clamped)
  | 2 => decide (a = .loading ∧ b = .unloading)
  | 3 => decide (a = .loading ∧ b = .empty)
  | 4 => decide ((a = .clamped ∨ a = .parked) ∧ b = .spinup)
  | 5 => decide (a = .clamped ∧ b = .unloading)
  | 6 => decide (a = .spinup ∧ b = .focusAcq)
  | 7 => decide (a = .focusAcq ∧ b = .trackAcq)
  | 8 => decide (a = .trackAcq ∧ b = .ready)
  | 9 => decide (a = .trackAcq) && decide (b = .reading ∨ b = .seeking ∨ b = .layerJump)
  | 10 => (moving || decide (a = .trackAcq)) && decide (b = .ready)
  | 11 => decide (a = .ready) && work
  | 12 => moving && (work || decide (b = .ready))
  | 13 => (moving || decide (a = .trackAcq ∨ a = .ready)) && decide (b = .focusAcq)
  | 14 => (moving || decide (a = .focusAcq ∨ a = .trackAcq ∨ a = .ready)) && decide (b = .spinup)
  | 15 => decide ((a = .reading ∨ a = .writing) ∧ b = .seeking)
  | 16 => decide (a = .ready ∧ b = .spindown)
  | 17 => decide (a = .spindown ∧ b = .parked)
  | 18 => decide (a = .spindown ∧ b = .unloading)
  | 19 => decide (a = .unloading ∧ (b = .empty ∨ b = .faulted))
  | 20 => decide (b = .faulted)
  | 21 => decide (b = .parked ∨ b = .clamped ∨ b = .empty)
  | 22 => decide (a = .faulted ∧ b = .empty)
  | 23 => decide (a = .faulted ∧ b = .unloading)
  | 24 =>
    -- a failed mount (R239, R240), the Vent's end of a run (R245), work found at the end of SPINDOWN (R238)
    (decide (b = .spindown) && (moving || decide (a = .spinup ∨ a = .focusAcq ∨ a = .trackAcq ∨ a = .ready)))
    || decide (a = .spindown ∧ (b = .spinup ∨ b = .clamped))
  | _ => false

/-- Some row leads from one state to another. -/
def bayMay (a b : BaySt) : Bool := (List.range 25).any (fun r => bayRow r a b)

/-! ### Receivers and lanes (R68, R246) -/

/-! ### Calibration abort (R85) -/

/-- The trims of a receiver: its own, or the Relief line's set for a beam input (R68). -/
def Afe.trimsOf (a : Afe) (r : RecvNo) (input : Beam) : Trim :=
  if r = 4 then a.reliefSets[input] else a.recvs[r].trims

/-- Load trims into a receiver, or into the Relief line's set for a beam input (R68). -/
def Afe.setTrims (a : Afe) (r : RecvNo) (input : Beam) (t : Trim) : Afe :=
  if r = 4 then { a with reliefSets := a.reliefSets.set input.val t input.isLt }
  else { a with recvs := a.recvs.set r.val { a.recvs[r] with trims := t } r.isLt }

/-- The channel bit at which the frame in progress in a lane began. -/
def Lane.frameStart (x : Lane) : Nat :=
  match x.syncs.head? with
  | some r => if (x.data.count : Int) < r.position + 2000 then r.position.toNat else x.prediction.toNat
  | none => x.prediction.toNat

/-- The frame in progress in a lane is marked erased (R77). -/
def Lane.eraseFrame (x : Lane) : Lane :=
  if x.phase = .idle then x
  else { x with data := { x.data with erased := (x.frameStart, some (x.frameStart + 1999)) :: x.data.erased }, recvErased := true }

/-- Lane `l` takes its samples from the Relief line or from its own receiver from now on (R74); `erase`, at once, so that the frame in
progress is marked erased (R77). -/
def State.selectLane (s : State) (b : BayNo) (l : Beam) (relief erase : Bool) : State :=
  (s.onAfe b (fun a => { a with laneRelief := a.laneRelief.set l.val relief l.isLt })).onLane b l (fun x =>
    let y := if erase then x.eraseFrame else x
    { y with data := { y.data with switched := some y.data.count } })

/-- Abandon the calibration slot in progress: the lane that the Relief line carries for it returns to its own receiver at once; a run
in progress is abandoned, with its shadow's trims restored and EV_CAL_ABORTED, and its receiver stays due (R77, R85). -/
def State.abortCal (s : State) (b : BayNo) : State :=
  let a := s.bays[b].afe
  match a.cal with
  | none => s
  | some c =>
    let running := decide (c.step = 2 ∨ c.step = 5)
    let s1 := s.onAfe b (fun a =>
      { (if running then a.setTrims c.recv c.beam c.old else a) with
          cal := none, relief := match a.relief with | .carrier l true => .carrier l true | _ => .idle })
    let s2 := if a.relief = .carrier c.beam false then s1.selectLane b c.beam false true else s1
    if running then s2.raiseBay b .calAborted [.u8 c.recv.val] else s2

/-- A bay is in a state in which a due receiver is served (R80). -/
def calibratesIn (a : BaySt) : Bool := [BaySt.ready, .reading, .writing, .seeking, .layerJump].contains a

/-! ### Changing state (R237) -/

/-- A bay changes state by a row of Table 9.2 and raises EV_BAY_STATE (R237); leaving WRITING leaves the gate low,
a bay that is EMPTY, CLAMPED or PARKED takes a new image (R444), a calibration run ends outside the states of R80 (R85),
and a live peer is told (R397). A
change the row does not give is not made. -/
def State.setBaySt (s : State) (b : BayNo) (new : BaySt) (row : Nat) : State :=
  let old := s.bays[b].seq.st
  if old = new ∨ bayRow row old new = false then s else
  let s0 := if calibratesIn new then s else s.abortCal b
  let s1 := (s0.onBay b (fun t =>
    { t with seq := { t.seq with st := new, lastWork := s.sys.time.toNat },
             wp := if new = .writing then t.wp else { t.wp with gate := false } })).raiseBay b .bayState
    [.u8 old.code, .u8 new.code, .u8 row]
  let s2 := if new = .empty ∨ new = .clamped ∨ new = .parked then
      s1.onSys (fun y => { y with oldImage := setBit y.oldImage b.val false })
    else s1
  if s2.mirrors then s2.send 0x13 [0x400 + b.val, new.code] else s2

/-! ### The write-gate cut (R33, R169, R170) -/

/-- Add a cause to the mask of an EV_WRITE_GATE_CUT payload (R33). -/
def addCause (bit : Nat) : List Byte → List Byte
  | m :: rest => (m ||| BitVec.ofNat 8 (2 ^ bit)) :: rest
  | [] => []

/-- The event path after a further cause of a cut at `src` within 2 µs of the first: it joins that event, whether the event still
waits to be placed or stands in the queue (R33). -/
def EventPath.joinCut (v : EventPath) (src bit : Nat) (now : BitVec 64) : EventPath :=
  let near := fun (i : Nat) (t : BitVec 64) => decide (i = src ∧ now.toNat ≤ t.toNat + 2)
  { v with raised := v.raised.map (fun (r : Raised) => if near r.src r.time then { r with payload := addCause bit r.payload } else r),
           queue := v.queue.map (fun (r : EvRecord) => if near r.src r.latest then { r with payload := addCause bit r.payload } else r) }

/-- The write path when recording ends at position `pos` of the turn (R170): of its clusters those whose postamble has ended are
unverified, the one in progress goes to the replacement queue, and the others stay to be written. -/
def WritePath.afterCut (w : WritePath) (pos : Int) : WritePath :=
  match w.run with
  | none => { w with gate := false }
  | some r =>
    let before := r.turnItems.filter (fun x => decide (x.first + slotBits ≤ pos))
    let cut := r.turnItems.filter (fun x => w.gate && decide (x.first ≤ pos ∧ pos < x.first + slotBits))
    let left := r.turnItems.filter (fun x => !(before ++ cut).contains x)
    { w with gate := false, run := none, statusClear := false, unverified := w.unverified ++ r.unjudged ++ before,
             replQueue := w.replQueue ++ cut.map (fun (x : WriteItem) =>
               { home := x.home, cause := 1, vid := x.vid, ucl := x.ucl, fill := [] }),
             jobs := match w.jobs with
               | [] => []
               | j :: rest => { j with todo := left ++ j.todo } :: rest }

/-- The position B0 has reached in its run's turn, 0 where there is no run. -/
def Bay.reached (t : Bay) : Int := match t.wp.run with | some r => t.writePos r | none => 0

/-- The clusters of a bay that became unverified are counted in EV_UNVERIFIED (R170). -/
def State.noteUnverified (s : State) (b : BayNo) (was : Nat) : State :=
  let un := s.bays[b].wp.unverified.length - was
  if un = 0 then s else s.raiseBay b .unverified [.u16 un]

/-- The Ballast buffers of an entry (R131, R134). -/
def Entry.buffers (e : Entry) : List (BitVec 32) := e.bufs ++ e.parity ++ e.kept.toList.flatMap (fun ks => ks.flatMap KeptPass.bufs)

/-- An entry holds the verify read of a written cluster. -/
def Entry.isVerify (e : Entry) : Bool := match e.use with | .verify _ => true | _ => false

/-- Entries are given up: they close, their codewords leave the pool's queues, and their buffers are free. -/
def State.dropEntries (s : State) (b : BayNo) (which : Entry → Bool) : State :=
  let es := s.bays[b].dec.entries.filter (fun e => which e.2)
  let gone := fun (i : Nat) => es.any (fun e => decide (e.1 = i))
  ((s.onBay b (fun t =>
    { t with dec := { t.dec with entries := t.dec.entries.filter (fun e => !which e.2) },
             seq := { t.seq with retry := t.seq.retry.filter (fun i => !gone i.val), slow := t.seq.slow.filter (fun i => !gone i.val) } })).onPool
    (fun p => { p with waiting := p.waiting.filter (fun w => !(decide (w.bay = b) && gone w.entry.val)) })).giveAll (bayOwner b)
      (es.flatMap (fun e => e.2.buffers))

/-- The verify reads of a run that has ended are given up (R166, R170). -/
def State.dropVerify (s : State) (b : BayNo) : State := s.dropEntries b Entry.isVerify

/-- The management reads of a mount that has ended are given up (R239). -/
def State.dropScan (s : State) (b : BayNo) : State :=
  (s.dropEntries b (fun e => decide (e.use = .management))).onSeq b (fun q =>
    { q with scan := none, demand := q.demand.filter (fun x => !decide (areaOf x.2 = .management)) })

/-- A layer becomes due for calibration (R159): both its areas are to be calibrated again. -/
def WritePath.makeDue (w : WritePath) (layer : LayerNo) : WritePath :=
  if bitAt w.opcDue layer.val then w
  else { w with opcDue := setBit w.opcDue layer.val true,
                opcRan := setBit (setBit w.opcRan layer.val false) (16 + layer.val) false }

/-- The layers that a condition names become due (R159). -/
def WritePath.makeAllDue (w : WritePath) (which : LayerNo → Bool) : WritePath :=
  (List.finRange 16).foldl (fun (x : WritePath) l => if which l then x.makeDue l else x) w

/-- The Ballast buffers of a write run are free again (R25). -/
def State.freeRun (s : State) (b : BayNo) : State :=
  match s.bays[b].wp.run with
  | some r => (s.onWp b (fun w => { w with run := w.run.map (fun (q : WriteRun) => { q with bufs := [] }) })).giveAll stagingOwner
      (r.bufs.map (·.2))
  | none => s

/-- Cut the write gate of a bay for a cause (R169): only in WRITING. The gate falls, the bus carries space symbols, the run ends
with what R170 leaves, and EV_WRITE_GATE_CUT carries the cause mask; a cause within 2 µs of another joins its event (R33). -/
def State.cutGate (s : State) (b : BayNo) (cause : CutCause) : State :=
  let t := s.bays[b]
  if t.seq.st ≠ .writing then s else
  let now := s.sys.time
  let again := match t.wp.cutTime with | some x => decide (now.toNat ≤ x.toNat + 2) | none => false
  let bit : BitVec 7 := BitVec.ofNat 7 (2 ^ cause.bit)
  if again then
    (s.onEv (fun v => v.joinCut (Ev.bay b .writeGateCut).src cause.bit now)).onWp b (fun w => { w with lastCut := w.lastCut ||| bit })
  else
    let pos := t.reached
    let addr := match t.wp.run with | some r => t.runAddr r | none => 0
    let s1 := (((s.freeRun b).busToSpace b pos).onWp b (fun w => { w.afterCut pos with lastCut := bit, cutTime := some now })).onSeq b
      (fun q => { q with position := true })
    ((s1.raiseBay b .writeGateCut [.u8 (2 ^ cause.bit), .u32 addr]).noteUnverified b t.wp.unverified.length).dropVerify b

/-- Cut the gate of every bay that is in WRITING. -/
def State.cutAll (s : State) (cause : CutCause) : State := s.eachBay (fun s b => s.cutGate b cause)

/-- A bay in WRITING stops writing at the end of the cluster in progress, with no cut; what it has written is to be verified
(R79, R247, R170). -/
def State.stopWriting (s : State) (b : BayNo) : State :=
  let t := s.bays[b]
  if t.seq.st ≠ .writing then s else
  match t.wp.run with
  | none => s.onWp b (fun w => { w with gate := false })
  | some r =>
    let pos := t.writePos r
    -- the end of the slot in progress, where one is being written
    let stop : Int := match r.turnItems.find? (fun x => t.wp.gate && decide (x.first ≤ pos ∧ pos < x.first + slotBits)) with
      | some x => x.first + slotBits
      | none => pos
    let s1 := (((s.sendPulses b r pos stop).busToSpace b stop).freeRun b).onWp b (fun w => w.afterCut stop)
    (s1.noteUnverified b t.wp.unverified.length).dropVerify b

/-! ### Parking and stopping -/

/-- An open loop that adds its feed-forward to a code. -/
def Loop.openAt (l : Loop) (code : Int) : Loop :=
  { l with closed := false, lull := none, locked := false, inBand := 0, boost := 0, base := code, filter := [] }

/-- Focus retracts (R193): from the codes now applied the drives follow the retract ramp, focus to SRV.FOC_PARK, tracking and tilt to
0; the sled command is 0, and every acquisition and move ends. A ramp in progress goes on. -/
def Servo.park (v : Servo) : Servo :=
  { v with focus := v.focus.openAt 0, tracking := v.tracking.openAt 0, tilt := v.tilt.openAt 0,
           sled := { v.sled.openAt 0 with drive := 0 }, parked := true, acq := none, trackAcq := 0, reacquire := false, move := none,
           queued := [], hold := none, refineAge := none,
           ramp := if v.parked then v.ramp
             else some { periods := 0, focus := v.focus.drive, tracking := v.tracking.drive, tilt := v.tilt.drive } }

/-- Park the focus of a bay (R193). -/
def State.parkFocus (s : State) (b : BayNo) : State :=
  s.onSrv b (fun v => v.park)

/-- Order the spindle to stop (R223, Table 8.4): a measure window is abandoned and the level is off; off and coast stay;
any other level ramps down. -/
def Spindle.stop (p : Spindle) : Spindle :=
  match p.level with
  | .off => { p with starting := false }
  | .coast => { p with starting := false }
  | .measure => { p with level := .off, starting := false, stopping := false }
  | .drogue => { p with starting := false, stopping := true }
  | _ => { p with starting := false, stopping := true, atTarget := false }

/-- Put the sled's generator at standstill along its stop ramp (R232, R249): a moving axis stops, a standing one stays. -/
def StepAxis.halt (a : StepAxis) : StepAxis :=
  if a.mode = .standstill then a
  else if a.vel = 0 then { a with mode := .standstill, fresh := false }
  else { a with mode := .stopRamp, fresh := false, velCmd := 0 }

/-- The spindle still turns: it is not off and its measured speed is at least 30 rpm (R237, R223). -/
def Spindle.turning (p : Spindle) : Bool :=
  decide (p.level ≠ .off ∧ (3000 ≤ p.speedMeas ∨ p.speedMeas ≤ -3000))

/-- Enter Drogue level and raise EV_DROGUE_BRAKE (R218, R223). -/
def State.drogue (s : State) (b : BayNo) : State :=
  (s.onSpn b (fun p => { p with level := .drogue, drogueD := 0, obsConverged := false, obsPeriods := 0, vqPreset := false, inBand := 0,
                                outBand := 0, atTarget := false })).raiseBay b .drogueBrake

/-- Open every switch and enter coast level, with EV_SPINDLE_COAST: its cause (0 angle disagreement, 1 no angle source, 2
root PLL loss) and the last speed (R222, R28). -/
def State.coastLevel (s : State) (b : BayNo) (cause : Nat) : State :=
  let v := s.bays[b].spn.speedMeas
  (s.onSpn b (fun p => { p with level := .coast, starting := false, stopping := false, atTarget := false,
                                inBand := 0, outBand := 0, obsConverged := false, obsPeriods := 0, vqPreset := false })).raiseBay b .spindleCoast
    [.u8 cause, .s32 v]

/-- The feed-forward tables become invalid, with EV_FF_TABLES: 0 invalidated, and the reason in the order of R180 (0
power-on, 1 focus retract, 2 Ripcord, 3 SRV.FF_MODE, 4 temperature). -/
def State.invalidateTables (s : State) (b : BayNo) (reason : Nat) : State :=
  if s.bays[b].srv.tablesValid then
    (s.onSrv b (fun v => { v with tablesValid := false })).raiseBay b .ffTables [.u8 0, .u8 reason]
  else s

/-! ### FAULTED (R249) -/

/-- A bay enters FAULTED for a cause (R249): its transfers end and a write run is cut with cause bit 6, focus parks, the
spindle stops (by a start order first when it coasts), the sled comes to standstill, a calibration run is abandoned, and
EV_BAY_FAULTED gives the cause. Reads stay pending. -/
def State.faultBay (s : State) (b : BayNo) (cause : FaultCause) : State :=
  if s.bays[b].seq.st = .faulted then s else
  let s1 := ((((s.cutGate b .bayFault).freeRun b).dropScan b).abortCal b).parkFocus b
  let s2 := s1.onBay b (fun t =>
    { t with spn := if t.spn.level = .coast then { t.spn with level := .measure, starting := true, stopping := true }
                    else t.spn.stop,
             sld := t.sld.halt,
             rc := { t.rc with lanes := t.rc.lanes.map (fun l => { l with phase := .idle }) },
             wp := { t.wp with run := none },
             seq := { t.seq with mounting := false, cause := some cause, visiting := false, coastDone := false, withheld := false } })
  (s2.setBaySt b .faulted 20).raiseBay b .bayFaulted [.u8 cause.code]

end Sys2Proof.Machine
end

