-- ==== Sys2Proof/Machine/Motion.lean ====
section
/-! DEFINITION. Step generation: the trapezoid profile (R227), velocity mode (R228), re-targets (R229), home moves (R225), stop ramps (R232, R255, R270) and interpolated moves (R254), advanced once in each 25 µs PWM period. -/

namespace Sys2Proof.Machine

/-- A velocity of a profile in units of 1/40,000 count per second. -/
def velUnits (v : Nat) : Nat := v * 40000

/-- The distance the stop ramp covers from a speed (R227): DEC2 to V_BREAK, then DEC1 to V_STOP. -/
def Profile.stopDist (p : Profile) (sp : Nat) : Nat :=
  let vs := velUnits p.vStop
  let vb := velUnits p.vBreak
  if sp ≤ vs then 0
  else if sp ≤ vb then (sp * sp - vs * vs) / (2 * p.dec1)
  else (sp * sp - vb * vb) / (2 * p.dec2) + (vb * vb - vs * vs) / (2 * p.dec1)

/-- One period of the stop ramp: not below `floor`. -/
def Profile.slow (p : Profile) (sp floor : Nat) : Nat :=
  max floor (sp - if velUnits p.vBreak < sp then p.dec2 else p.dec1)

/-- One period of acceleration (R227): ACC1 to V_BREAK, then ACC2 to V_MAX. -/
def Profile.rise (p : Profile) (sp : Nat) : Nat :=
  min (velUnits p.vMax) (sp + if sp < velUnits p.vBreak then p.acc1 else p.acc2)

/-- The profile of a move over a distance: the values given, or, when V_START is above the peak at which acceleration and
stop ramp meet, the lower of V_START and V_STOP throughout (R227). -/
def Profile.forDistance (p : Profile) (dist : Nat) : Profile :=
  if dist < p.stopDist (velUnits p.vStart) then
    let v := min p.vStart p.vStop
    { p with vStart := v, vStop := v, vMax := v }
  else p

/-- The sign of a displacement. -/
def dirOf (d : Int) : Int := if d < 0 then -1 else 1

/-- One period of a position move toward a target (R227), given position and velocity in units; `rest`, the move rises from
0 at ACC1 in place of the start step (R255). The answer is the new position and velocity; at the target the velocity is
0. -/
def Profile.moveStep (p : Profile) (rest : Bool) (pos vel target : Int) : Int × Int :=
  let d := (target - pos).natAbs
  let sp := vel.natAbs
  let next :=
    if sp = 0 ∧ !rest then velUnits p.vStart
    else if rest ∧ sp < velUnits p.vStart then min (velUnits p.vStart) (sp + p.acc1)
    else if d ≤ p.stopDist sp then p.slow sp (min sp (velUnits p.vStop))
    else if velUnits p.vMax < sp then p.slow sp (velUnits p.vMax)
    else p.rise sp
  if d ≤ next then (target, 0) else (pos + dirOf (target - pos) * next, dirOf (target - pos) * next)

/-- One period of a stop: the ramp to V_STOP, then DEC1 to 0 (R255, R270), or, where `step` is set, from V_STOP to 0 at
once (Table 8.5, Ripcord). -/
def Profile.stopStep (p : Profile) (step : Bool) (vel : Int) : Int :=
  let sp := vel.natAbs
  if step then
    if sp ≤ velUnits p.vStop then 0 else dirOf vel * (p.slow sp (velUnits p.vStop) : Nat)
  else dirOf vel * (p.slow sp 0 : Nat)

/-- Counts of a commanded position. -/
def StepAxis.counts (a : StepAxis) : Int := a.pos / posUnit

/-- Come to standstill where the axis is: the standstill mode is not applied yet (R231). -/
def StepAxis.rest (a : StepAxis) : StepAxis :=
  { a with mode := .standstill, vel := 0, velCmd := 0, fresh := false, standstill := 3 }

/-- Start a position move to a target from standstill (R227). -/
def StepAxis.start (a : StepAxis) (p : Profile) (target : Int) : StepAxis :=
  if target * posUnit = a.pos then a.rest else
  { a with mode := .position, target := target, fresh := false,
           profile := p.forDistance (target * posUnit - a.pos).natAbs, stalled := false, overspeed := false }

/-- Give an axis in motion a new target (R229): re-plan when it lies ahead by at least the stop ramp's distance; otherwise
ramp down, through 0, and make a fresh move to it. -/
def StepAxis.retarget (a : StepAxis) (target : Int) : StepAxis :=
  let d := target * posUnit - a.pos
  let ahead := decide (0 ≤ d * a.vel ∧ a.profile.stopDist a.vel.natAbs ≤ d.natAbs)
  if ahead then { a with mode := .position, target := target, fresh := false }
  else { a with mode := .reversal, target := target, fresh := true }

/-- Start a home move: toward decreasing counts at V_START, until the mark or the end of the travel given (R225). -/
def StepAxis.startHome (a : StepAxis) (p : Profile) (travel : Nat) : StepAxis :=
  { a with mode := .home, target := a.counts - travel, profile := p, stalled := false, overspeed := false, fresh := false }

/-- Stop along the stop ramp; the target is dropped (R270, Table 8.5). -/
def StepAxis.stopAlong (a : StepAxis) : StepAxis :=
  if a.moving then { a with mode := .stopRamp, fresh := false, velCmd := 0 } else a

/-- The reference mark passes in a home move: count 0 (R225). -/
def StepAxis.atMark (a : StepAxis) : StepAxis := { a.rest with pos := 0, encoder := 0, homed := true }

/-- Velocity toward a command (R228): at once within ±V_START, at ACC1 otherwise. -/
def Profile.velStep (p : Profile) (vel cmd : Int) : Int :=
  let vs : Int := velUnits p.vStart
  if |vel| ≤ vs ∧ |cmd| ≤ vs then cmd
  else if vel < cmd then min cmd (vel + p.acc1) else max cmd (vel - p.acc1)

/-- One PWM period of an axis; `ripcord`, its stops end from V_STOP at once (Table 8.5). -/
def StepAxis.period (a : StepAxis) (ripcord : Bool) : StepAxis :=
  match a.mode with
  | .standstill => a
  | .position =>
    let m := a.profile.moveStep false a.pos a.vel (a.target * posUnit)
    if m.2 = 0 then { a.rest with pos := m.1 } else { a with pos := m.1, vel := m.2 }
  | .velocity =>
    let v := a.profile.velStep a.vel (a.velCmd * 4000)
    if v = 0 ∧ a.velCmd = 0 then a.rest else { a with pos := a.pos + v, vel := v }
  | .home =>
    let v : Int := -(velUnits a.profile.vStart : Nat)
    { a with pos := a.pos + v, vel := v }
  | .stopRamp =>
    let v := a.profile.stopStep ripcord a.vel
    if v = 0 then a.rest else { a with pos := a.pos + v, vel := v }
  | .reversal =>
    let toward := dirOf (a.target * posUnit - a.pos)
    let vs : Int := velUnits a.profile.vStart
    if 0 < a.vel * toward then
      -- already on the way back: DEC1 up to V_START, or to the target if it comes first
      let v := toward * min vs (|a.vel| + a.profile.dec1)
      if |a.target * posUnit - a.pos| ≤ |v| then { a.rest with pos := a.target * posUnit }
      else if |v| = vs then { a with mode := .position, pos := a.pos + v, vel := v, fresh := false }
      else { a with pos := a.pos + v, vel := v }
    else
      let v := if velUnits a.profile.vStop < a.vel.natAbs
        then dirOf a.vel * (a.profile.slow a.vel.natAbs (velUnits a.profile.vStop) : Nat)
        else dirOf a.vel * (a.vel.natAbs - a.profile.dec1 : Nat)
      if v = 0 then
        let back := dirOf (a.target * posUnit - a.pos)
        if a.target * posUnit = a.pos then a.rest else { a with vel := back * min vs (a.profile.dec1 : Nat) }
      else { a with pos := a.pos + v, vel := v }

/-! ### The bridges (R226, R231) -/

/-- The fraction of an electrical cycle at a position: a cycle is 1,024 microsteps, 256 a full step of `pitch` counts (R226). -/
def electricalTurn (pos : Rat) (pitch : Nat) : Rat := pos / posUnit / (4 * pitch)

/-- The bridges at a duty in per cent and a fraction of an electrical cycle (R226). -/
def Bridges.at (duty turn : Rat) : Bridges := .driven (duty * Config.sineTurn (turn + 1 / 4)) (duty * Config.sineTurn turn)

/-- An axis in motion sets its bridges for the angle at the middle of the period (R226). -/
def StepAxis.drive (a : StepAxis) (duty : Rat) (pitch : Nat) : StepAxis :=
  if a.mode = .standstill ∧ a.vel = 0 then a
  else { a with bridges := .at duty (electricalTurn ((a.pos : Rat) - (a.vel : Rat) / 2) pitch) }

/-- The bridges take a standstill mode (R231): 0 off, 1 short, 2 the last angle held at a duty. -/
def StepAxis.applyStandstill (a : StepAxis) (mode : Nat) (duty : Rat) (pitch : Nat) : StepAxis :=
  { a with standstill := mode,
           bridges := if mode = 0 then .opened else if mode = 1 then .shorted else .at duty (electricalTurn a.pos pitch) }

/-! ### Interpolated moves (R254, R255) -/

/-- The whole path in units of the path fraction. -/
def pathEnd : Int := 2 ^ 40 * posUnit

/-- The smallest of a profile value over the axes that move, divided by their displacement, in units of 2⁻⁴⁰ (R254). -/
def pathLimit (disp : Vector Int 3) (ps : Vector Profile 3) (f : Profile → Nat) : Nat :=
  ((List.finRange 3).filterMap (fun (i : Fin 3) =>
    if disp[i] = 0 then none else some (f ps[i] * 2 ^ 40 / disp[i].natAbs))).foldl
      (fun acc v => match acc with | none => some v | some a => some (min a v)) none |>.getD 0

/-- The profile of the path fraction (R254). -/
def pathProfile (disp : Vector Int 3) (ps : Vector Profile 3) : Profile :=
  { vStart := pathLimit disp ps Profile.vStart, vStop := pathLimit disp ps Profile.vStop,
    vBreak := pathLimit disp ps Profile.vBreak, vMax := pathLimit disp ps Profile.vMax,
    acc1 := pathLimit disp ps Profile.acc1, acc2 := pathLimit disp ps Profile.acc2,
    dec1 := pathLimit disp ps Profile.dec1, dec2 := pathLimit disp ps Profile.dec2 }

/-- Plan an interpolated move (R254); none when no axis moves. -/
def planPath (start target : Vector Int 3) (ps : Vector Profile 3) (fromRest : Bool) : Option PathMove :=
  let disp := Vector.ofFn (fun i : Fin 3 => target[i] - start[i])
  if disp.toList.all (· == 0) then none
  else
    let p := pathProfile disp ps
    some { start := start, disp := disp, s := 0, v := 0, mode := .moving,
           profile := if fromRest then p else p.forDistance pathEnd.natAbs, fromRest := fromRest }

/-- One period of an interpolated move. -/
def PathMove.period (m : PathMove) : PathMove :=
  match m.mode with
  | .moving =>
    let n := m.profile.moveStep m.fromRest m.s m.v pathEnd
    { m with s := n.1, v := n.2, fromRest := m.fromRest && decide (n.2 < (velUnits m.profile.vStart : Nat)) }
  | .stopping =>
    let v := m.profile.stopStep false m.v
    { m with s := m.s + v, v := v }

/-- An interpolated move has ended: at its target, or stopped. -/
def PathMove.ended (m : PathMove) : Bool :=
  match m.mode with
  | .moving => decide (m.s = pathEnd)
  | .stopping => decide (m.v = 0)

/-- The position of axis `i` on the path, in position units (R254). -/
def PathMove.at (m : PathMove) (i : Fin 3) : Int := m.start[i] * posUnit + m.disp[i] * m.s / 2 ^ 40

/-- The velocity of axis `i` on the path. -/
def PathMove.velAt (m : PathMove) (i : Fin 3) : Int := m.disp[i] * m.v / 2 ^ 40

end Sys2Proof.Machine
end

