-- ==== Sys2Proof/Machine/HandlerOps.lean ====
section
/-! DEFINITION. Shared operations of the magazine handler: its inputs (R266), its moves and stops (R253 to R257, R270), location states (R258 to R260), the end of a Move Disc (R262) and the loss of ownership (R265). -/

namespace Sys2Proof.Machine

/-! ### Inputs (R266) -/

/-- An interlock input is active. -/
def State.interlock (s : State) : Bool := s.funActive 1

/-- The magazine present input of a magazine is active. -/
def State.magazinePresent (s : State) (m : Nat) : Bool :=
  (List.finRange 12).any (fun i => decide (s.inFun i = 5 ∧ s.inCfg i / 64 % 4 = m) && s.inActive i)

/-! ### Axes -/

/-- A parameter of a handler axis (Table 10.8). -/
def State.axisParam (s : State) (a : AxisNo) (fieldId : Nat) : Nat := s.dn (0x2000 + 16 * a.val + fieldId)

/-- The profile of an axis as its parameters stand (R273). -/
def State.axisProfile (s : State) (a : AxisNo) : Profile :=
  { vStart := s.axisParam a Param.hndAxisVStart, vStop := s.axisParam a Param.hndAxisVStop,
    vBreak := s.axisParam a Param.hndAxisVBreak, vMax := s.axisParam a Param.hndAxisVMax,
    acc1 := s.axisParam a Param.hndAxisAcc1, acc2 := s.axisParam a Param.hndAxisAcc2,
    dec1 := s.axisParam a Param.hndAxisDec1, dec2 := s.axisParam a Param.hndAxisDec2 }

/-- An axis target lies within its limits (R253). -/
def State.axisWithin (s : State) (a : AxisNo) (t : Int) : Bool :=
  decide ((s.axisParam a Param.hndAxisLimitLo : Int) ≤ t ∧ t ≤ s.axisParam a Param.hndAxisLimitHi)

/-- The axes that stand at their marks' counts. -/
def Handler.allHomed (h : Handler) : Bool := h.axes.toList.all (·.homed)

/-- Positions of X, Z and θ in counts. -/
def Handler.xyz (h : Handler) : Vector Int 3 := #v[h.axes[0].counts, h.axes[1].counts, h.axes[2].counts]

/-- A handler move may start: ownership and its quiet wait, no interlock, no fault, everything at standstill (R256, R264,
R270). -/
def State.mayMove (s : State) : Bool :=
  s.hnd.own && s.hnd.quietDone && !s.hnd.faulted && !s.hnd.stopped && !s.interlock && s.hnd.still

/-- Every motion stops along its stop ramp (R255, R257, R270). -/
def Handler.stopMotion (h : Handler) : Handler :=
  { h with path := h.path.map (fun m => { m with mode := .stopping }), axes := h.axes.map StepAxis.stopAlong }

/-- Start an interpolated move of X, Z and θ (R254). -/
def State.startPath (s : State) (x z theta : Int) (fromRest : Bool) : State :=
  s.onHnd (fun h => { h with
    path := planPath h.xyz #v[x, z, theta] #v[s.axisProfile 0, s.axisProfile 1, s.axisProfile 2] fromRest,
    pathHeld := none, axes := h.axes.map (fun a => { a with stalled := false }) })

/-- Start a move of one axis alone (R253). -/
def State.startAxis (s : State) (a : AxisNo) (t : Int) : State := s.onAxis a (fun x => x.start (s.axisProfile a) t)

/-- The axis to home next, in the order G, Z, θ, X; G only while the gripper holds no disc (R253). -/
def State.nextHome (s : State) : Option AxisNo :=
  [(3 : AxisNo), 1, 2, 0].find? (fun a => !s.hnd.axes[a].homed && !(decide (a = 3) && s.gripped))

/-- Start the home move of the next axis to home, if any. -/
def State.startHoming (s : State) : State :=
  match s.nextHome with
  | none => s
  | some a => s.onAxis a (fun x => x.startHome (s.axisProfile a) (s.axisParam a Param.hndAxisLimitHi + 4000))

/-! ### Locations (R258 to R260) -/

/-- A valid location code (Table 10.2). -/
def locValid (c : BitVec 16) : Bool := decide (c.toNat < 0x410 ∨ c.toNat = 0x500) && decide (c.toNat ≤ 0x3FF ∨ 0x400 ≤ c.toNat)

/-- A code names a bay of this device. -/
def locBay (c : BitVec 16) : Option BayNo :=
  if h : 0x400 ≤ c.toNat ∧ c.toNat < 0x408 then some ⟨c.toNat - 0x400, by omega⟩ else none

/-- A code names a bay of the peer. -/
def locPeerBay (c : BitVec 16) : Option BayNo :=
  if h : 0x408 ≤ c.toNat ∧ c.toNat < 0x410 then some ⟨c.toNat - 0x408, by omega⟩ else none

/-- The state C2 keeps of a location (R260). -/
def State.locState (s : State) (c : BitVec 16) : LocState :=
  match locBay c, locPeerBay c with
  | some b, _ => if s.bays[b].seq.tray then .occupied else .empty
  | none, some b =>
    if s.tetherLive then
      match s.pair.peerBays[b] with
      | some .empty => .empty
      | some _ => .occupied
      | none => .unknown
    else .unknown
  | none, none =>
    if c.toNat = 0x500 then (if s.gripped then .occupied else .empty)
    else (lookupKey s.hnd.locs c.toNat).getD .unknown

/-- Set the state of a slot that a move has observed (R260). -/
def State.setLoc (s : State) (c : BitVec 16) (st : LocState) : State :=
  if c.toNat < 0x400 then
    let s1 := s.onHnd (fun h => { h with locs := insertKey h.locs c.toNat st })
    if s1.mirrors then s1.send 0x13 [c.toNat, match st with | .empty => 0 | .occupied => 1 | .unknown => 2] else s1
  else s

/-- The position entry of a location, where the table has it present (R259). -/
def State.entryOf (s : State) (c : BitVec 16) : Option (Int × Int × Int) :=
  match s.params.positions with
  | none => none
  | some t => lookupKey t c.toNat

/-! ### The end of a Move Disc (R262, R265) -/

/-- The response of a long request is posted when the device serves the mailbox, and waits otherwise (R265). -/
def State.answerRun (s : State) (p : Port) (status : Byte) : State :=
  if servingPlus s.sys.mode || decide (s.sys.mode = .sanitize) then s.respondRun p status
  else s.onMbx p (fun m => { m with run := m.run.map (fun r => { r with wait := .answer status }) })

/-- The commands that wait in the way `w` for the volume bound to a slot complete with a status. -/
def State.endWaiters (s : State) (slot : BitVec 16) (w : CmdWait) (status : Byte) : State :=
  let vids := (s.vols.filter (fun v => decide (v.slot = slot))).map (·.vid)
  let xs := s.cmds.filter (fun c => decide (c.wait = w) && vids.contains c.vid)
  xs.foldl (fun t c => t.complete c.id status 0) s

/-- A Move Disc that C2 ordered has ended (R293, R295): an Unmount that waited for it completes, with 0x26 when it failed, and
a failed move to a bay ends with 0x26 the commands that wait for the mount. -/
def State.orderEnded (s : State) (src dst : BitVec 16) (status : Byte) : State :=
  if dst.toNat < 0x400 then s.endWaiters dst .unmount (if status.toNat ≤ 1 then 0x00 else 0x26)
  else if status.toNat ≤ 1 then s else s.endWaiters src .mount 0x26

/-- The Move Disc under way ends with a status (R262): the one who ordered it is answered, and a destination bay that waits
without a disc returns to EMPTY. -/
def State.endMove (s : State) (status : Byte) : State :=
  match s.hnd.move with
  | none => s
  | some m =>
    let s1 := s.onHnd (fun h => { h with move := none, repeatDue := false })
    let s2 := if status.toNat ≤ 1 then s1 else s1.raiseDev .moveFail
    let s3 := match locBay m.dst with
      | some b => if s2.bays[b].seq.st = .loading ∧ s2.bays[b].seq.tray = false then s2.setBaySt b .empty 3 else s2
      | none => s2
    let s4 := match m.forwarded with
      | some c => s3.send 0x22 [b2n (decide (c.port = 1)), c.queue.val, c.cid.toNat, status.toNat, 0]
      | none => s3
    match m.port, m.forwarded with
    | some p, _ => s4.answerRun p status
    | none, some _ => s4
    | none, none => s4.orderEnded m.src m.dst status

/-- Ownership of the handler ends (R265): HND_OWN is inactive, and a Move Disc under way ends with 0x26. -/
def State.dropOwn (s : State) : State :=
  if !s.hnd.own then s.onHnd (fun h => { h with releaseDue := false }) else
  ((s.onHnd (fun h => { h with own := false, quietDone := false, releaseDue := false })).raiseDev
    .handlerOwnReleased).endMove 0x26

/-- PEER_OK falls (R265): at standstill HND_OWN falls in the same cycle; otherwise the axes follow their stop ramps and the
release waits for them. -/
def State.releaseWithPeerOk (s : State) : State :=
  if s.hnd.still then s.dropOwn
  else s.onHnd (fun h => { h.stopMotion with releaseDue := true })

end Sys2Proof.Machine
end

