-- ==== Sys2Proof/Machine/Modes.lean ====
section
/-! DEFINITION. Device modes (R29, Table 1.7), PEER_OK (R396), Ripcord (R436), and the resets of Table 16.3: power-on, warm, port, and queue reset (R301 to R304, Table 17.11). -/

namespace Sys2Proof

/-- Table 1.7: the changes of mode that occur. -/
def Mode.may (a b : Mode) : Bool :=
  match b with
  | .off => true
  | .fill => decide (a = .off ∨ a = .fill)
  | .boot => decide (a = .fill ∨ 2 ≤ a.code)
  | .standalone =>
    decide (a = .boot ∨ a = .paired ∨ a = .pairedDegraded ∨ a = .calibrate ∨ a = .diagnostic ∨ a = .quiesce
      ∨ a = .activate ∨ a = .sanitize ∨ a = .vent)
  | .paired =>
    decide (a = .standalone ∨ a = .pairedDegraded ∨ a = .quiesce ∨ a = .activate ∨ a = .sanitize)
  | .takeover => decide (a = .paired ∨ a = .vent)
  | .pairedDegraded => decide (a = .takeover ∨ a = .quiesce ∨ a = .activate ∨ a = .vent)
  | .calibrate => decide (a = .standalone ∨ a = .vent)
  | .quiesce => decide (a = .standalone ∨ a = .paired ∨ a = .pairedDegraded ∨ a = .vent)
  | .vent => decide (2 ≤ a.code ∧ a ≠ .vent)
  | .sanitize => decide (a = .standalone ∨ a = .paired ∨ a = .boot ∨ a = .vent)
  | .activate => decide (a = .standalone ∨ a = .paired ∨ a = .pairedDegraded ∨ a = .vent)
  | .diagnostic => decide (a = .standalone ∨ a = .vent)
  | .ripcord => decide (3 ≤ a.code ∧ a ≠ .ripcord)

end Sys2Proof

namespace Sys2Proof.Machine

/-! ### Changing mode -/

/-- The Keel drives PEER_OK from the mode (R396); when it falls, HND_OWN follows (R265). -/
def State.drivePeerOk (s : State) : State :=
  let want := s.sys.mode.peerOk
  if s.pair.peerOk && !want then
    (s.onPair (fun q => { q with peerOk := false })).releaseWithPeerOk
  else s.onPair (fun q => { q with peerOk := want })

/-- A running diagnostic test is abandoned: EVT.DIAG_RESULT reports state 4 (R428). -/
def State.abandonDiag (s : State) : State :=
  if s.ev.diagState = 1 then s.onEv (fun v => { v with diagState := 4 }) else s

/-- Enter a mode, where Table 1.7 has the change (R29); any other change does not occur. -/
def State.setMode (s : State) (m : Mode) : State :=
  if s.sys.mode.may m then
    let s1 := if decide (s.sys.mode = .diagnostic) && !decide (m = .diagnostic) then s.abandonDiag else s
    (s1.onSys (fun y => { y with mode := m })).drivePeerOk
  else s

/-! ### Ripcord (R436, Table 16.4) -/

/-- The position of a cause in its list. -/
def RipcordCause.code : RipcordCause → Nat
  | .watchdog => 0 | .lockstep => 1 | .refclk => 2 | .rootPll => 3

/-- Park a bay in Ripcord (R195, R223, R28): focus along its retract ramp, tracking and tilt to 0, the sled along its stop
ramp, the spindle by Drogue, or coasting after a root PLL loss; the tables become invalid and no start order is accepted
until the next warm reset. -/
def State.ripcordBay (cause : RipcordCause) (s : State) (b : BayNo) : State :=
  let s1 := (((s.abortCal b).parkFocus b).invalidateTables b 2).onBay b (fun t =>
    { t with sld := t.sld.stopAlong, spn := { t.spn with barred := true, starting := false },
             wp := { t.wp with run := none },
             rc := { t.rc with lanes := t.rc.lanes.map (fun l => { l with phase := .idle }) } })
  match s.bays[b].spn.level with
  | .off => s1
  | .coast => s1
  | .drogue => if cause = .rootPll then s1.coastLevel b 2 else s1.onSpn b (fun p => { p with stopping := true })
  | _ => if cause = .rootPll then s1.coastLevel b 2 else (s1.drogue b).onSpn b (fun p => { p with stopping := true })

/-- Enter RIPCORD: a running diagnostic test is abandoned (R428), and the Keel answers a mailbox request in progress on
either port with 0x50; a Move Disc so ended leaves its disc where the park leaves it (R307). -/
def State.enterRipcord (s : State) : State :=
  let s1 := s.abandonDiag.setMode .ripcord
  (s1.eachPort (fun t p => t.respondRun p 0x50)).onHnd (fun h => { h with move := none, repeatDue := false })

/-- A Keel watchdog expiry, a K0 and K1 mismatch, a REFCLK loss or a root PLL loss (R436): write gates are cut with cause
bit 5, PEER_OK falls, every bay and axis is parked, and EV_RIPCORD gives the cause. Outside FILL, BOOT and VENT the mode
becomes RIPCORD (R29, R30); in VENT it does once the Vent is complete. -/
def State.ripcord (s : State) (cause : RipcordCause) : State :=
  if s.sys.mode = .off then s else
  let s1 := (s.cutAll .keel).raiseDev .ripcord [.u8 cause.code]
  let s2 := (s1.onPair (fun q => { q with peerOk := false })).eachBay (State.ripcordBay cause)
  let s3 := s2.releaseWithPeerOk
  let s4 := s3.onSys (fun y => { y with parking := true, parked := false })
  match s.sys.mode with
  | .fill => s4
  | .boot => s4
  | .vent => let s5 := s4.onSys (fun y => { y with ventWatchdog := true }); if s5.sys.ventDone then s5.enterRipcord else s5
  | _ => s4.enterRipcord

/-! ### Resets -/

/-- What triggered a warm reset, as PWR.RESET_CAUSE codes it (Table 16.10). -/
inductive WarmCause where
  | ripcordHold | field | activation
  deriving DecidableEq, Repr

/-- The code of PWR.RESET_CAUSE. -/
def WarmCause.code : WarmCause → Nat
  | .ripcordHold => 1 | .field => 2 | .activation => 3

/-- A receiver after a warm reset: trims and retirement are kept (Table 16.3). -/
def Receiver.afterWarm (r : Receiver) : Receiver := { Receiver.reset with trims := r.trims, retired := r.retired }

/-- The state a bay takes at a warm reset (R237): with a disc on the clamp, SPINDOWN while the spindle turns and CLAMPED
otherwise; EMPTY without one. -/
def Bay.stateAfterWarm (t : Bay) : BaySt :=
  if t.seq.clamp then (if t.spn.turning then .spindown else .clamped) else .empty

/-- A bay after a warm reset (Table 16.3): its state is cleared, but for receiver trims and retirements, the disc and its
sensors, the 400 kHz period count, the encoders' counts and the motion of a spindle that still turns. -/
def Bay.afterWarm (t : Bay) : Bay :=
  { Bay.reset with
      afe := { Afe.reset with recvs := t.afe.recvs.map Receiver.afterWarm, reliefSets := t.afe.reliefSets,
                              relief := t.afe.relief, laneRelief := t.afe.laneRelief, temps := t.afe.temps }
      srv := { Servo.reset with periods := t.srv.periods, samples := t.srv.samples, counters := t.srv.counters }
      spn := if t.spn.turning then
          { Spindle.reset with level := t.spn.level, speedMeas := t.spn.speedMeas, stopping := true, count := t.spn.count }
        else { Spindle.reset with speedMeas := t.spn.speedMeas, count := t.spn.count }
      sld := { StepAxis.reset with encoder := t.sld.encoder }
      seq := { Seq.reset with st := t.seq.st, tray := t.seq.tray, clamp := t.seq.clamp, after := .clampedAfterReset,
                              disc := t.seq.disc.map (fun d => { d with mounted := false, mgmt := none, preRead := [],
                                                                        unclean := false, readOnly := false }) } }

/-- The change of a bay's state that a warm reset makes, with its EV_BAY_STATE (R237). -/
def State.bayWarm (s : State) (b : BayNo) : State :=
  let t := s.bays[b]
  let old := t.seq.st
  let new := t.stateAfterWarm
  let s1 := (s.abortCal b).onBay b (fun x => { x.afterWarm with seq := { x.afterWarm.seq with st := new } })
  if old = new then s1 else s1.raiseBay b .bayState [.u8 old.code, .u8 new.code, .u8 21]

/-- The device-wide control state after a warm reset (Table 16.3). -/
def Sys.afterWarm (y : Sys) (cause : WarmCause) : Sys :=
  { Sys.reset with
      mode := y.mode, time := y.time, porst := false, filled := y.filled, warmFlushDue := true, release := y.release,
      runSlot := y.runSlot, resetCause := cause.code, pll := Vector.replicate 5 true, pwrfail := y.pwrfail,
      holdup := y.holdup, holdupLow := y.holdupLow, holdupRaised := y.holdupRaised, holdupHigh := y.holdupHigh, tj := y.tj,
      progress := y.progress, sanitizeAction := y.sanitizeAction, fetched := y.fetched, dataSeq := y.dataSeq,
      progSeq := y.progSeq, formats := y.formats, straps := y.straps, jtagIr := y.jtagIr, jtagCells := y.jtagCells,
      extest := y.extest, freeCount := y.freeCount, preferDue := y.preferDue }

/-- A port after a warm reset: link, configuration space, queues, MSI-X, event ring and Alarm Summary are kept; the mailbox
and the Reel cursor are cleared (Table 17.11). -/
def PortState.afterWarm (t : PortState) : PortState := { t with mbx := .reset, cursor := 0 }

/-- The engine cache after a warm reset (R384): disabled, maintenance abandoned, contents kept. -/
def EngineCache.afterWarm (c : EngineCache) : EngineCache :=
  { EngineCache.reset with lines := c.lines, lfsr := c.lfsr,
                           side := [] }

/-- Memory after a warm reset (R366): DRAM and the triplicated banks are kept, the scrubber's and error registers
cleared. -/
def Memory.afterWarm (m : Memory) : Memory :=
  { Memory.reset with gib := m.gib, x8 := m.x8, cells := m.cells, log := m.log, ceCount := m.ceCount, ueCount := m.ueCount,
                      lostCount := m.lostCount, pageCe := m.pageCe, pagesDue := m.pagesDue, cache := m.cache.afterWarm,
                      pools := m.pools, triple := { m.triple with staged := [] } }

/-- The handler after a warm reset: its axes' state is cleared (Table 16.3), its inputs keep their levels, and every slot
is unknown (R260). -/
def Handler.afterWarm (h : Handler) : Handler :=
  { Handler.reset with axes := h.axes.map (fun a => { StepAxis.reset with encoder := a.encoder }), ownPeer := h.ownPeer,
                       inputs := h.inputs.map (fun i => { InputState.reset with level := i.level, reported := i.level }) }

/-- The decoder pool after a warm reset: retired decoders stay out of service. -/
def Pool.afterWarm (p : Pool) : Pool :=
  { Pool.reset with decs := p.decs.map (fun d => { inService := d.inService, input := [], holding := [] }) }

/-- The staging tier after a warm reset: DRAM is kept, work in flight ends. -/
def Staging.afterWarm (g : Staging) : Staging := { g with gc := none, gcOn := false, recovering := true }

/-- The pair after a warm reset: the role word and retired lanes are kept; the Tether trains anew. -/
def Pair.afterWarm (q : Pair) : Pair := { Pair.reset with role := q.role, lanes := q.lanes, peerOkIn := q.peerOkIn }

/-- The clocks a warm reset waits for are all good (R436). -/
def Sys.clocksGood (y : Sys) : Bool := y.pll.toList.all id && !y.onOsc

/-- A warm reset proceeds (R434): from FILL it restarts FILL and keeps nothing; otherwise the device enters BOOT with what
Table 16.3 keeps, parameters of the effect "Next reset" come into force, and EV_WARM_RESET gives the trigger. In OFF there
is none. -/
def State.warmReset (s : State) (cause : WarmCause) : State :=
  match s.sys.mode with
  | .off => s
  | .fill =>
    { State.reset with
        pending := s.pending, out := s.out, flash := s.flash,
        sys := { Sys.reset with mode := .fill, time := s.sys.time, porst := false, resetCause := cause.code,
                                pll := Vector.replicate 5 true, straps := s.sys.straps, freeCount := s.sys.freeCount },
        ports := s.ports.map PortState.afterWarm, bridle := s.bridle, bridleTie := s.bridleTie, params := s.params,
        ev := s.ev, stg := .reset s.stg.nand } |>.raiseDev .warmReset [.u8 (cause.code - 1)]
  | _ =>
    if !s.sys.clocksGood then s.onSys (fun y => { y with resetWaits := true, resetCause := cause.code }) else
    let s1 := s.setMode .boot
    let s2 := s1.eachBay State.bayWarm
    { s2 with
        sys := s2.sys.afterWarm cause
        ports := s2.ports.map PortState.afterWarm
        params := { s2.params with inForce := (s2.params.applyEffect .nextReset (fun _ => true)).inForce }
        pool := s2.pool.afterWarm
        hnd := s2.hnd.afterWarm
        stg := s2.stg.afterWarm
        mem := s2.mem.afterWarm
        pair := s2.pair.afterWarm } |>.raiseDev .warmReset [.u8 (cause.code - 1)]

/-- Power-on reset (R434): everything is cleared, and the device is in OFF; the boot flash and NAND keep what they hold; parameters
take their defaults, or what the board table gives (Table 16.3). -/
def State.powerOnReset (s : State) : State :=
  { State.reset with pending := s.pending, out := s.out, flash := s.flash, stg := .reset s.stg.nand,
                     params := { Params.reset with accepted := s.flash.board, inForce := s.flash.board },
                     sys := { Sys.reset with freeCount := s.sys.freeCount } }

/-- What a queue reset leaves of the commands of a pair (Table 11.6): those not started are discarded, started ones run on
and their completion records are dropped. -/
def dropCmds (which : CmdId → Bool) (cs : List Cmd) : List Cmd :=
  (cs.filter (fun c => !(which c.id && !c.started))).map (fun c => if which c.id then { c with dropped := true } else c)

/-- A pair after a queue reset (Table 17.11): disabled, pointers, PHASE and HALTED 0; bases, ENTRIES, VECTOR and
aggregation kept. -/
def QueuePair.afterReset (q : QueuePair) : QueuePair :=
  { q with enabled := false, halted := false, sqTail := 0, cqHead := 0, sqHead := 0, cqTail := 0, phase := false,
           reserved := 0, rangeRaised := false, unsignalled := 0 }

/-- Reset a queue pair of a port (R301, R454): no effect on a pair that is disabled already. A Cancel whose target queue it
is, fetched and not completed, completes with 0x40 (Table 11.7). -/
def State.queueResetOne (s : State) (p : Port) (q : QueueNo) : State :=
  if !s.ports[p].queues[q].enabled then s else
  let mine : CmdId → Bool := fun c => decide (c.peer = false ∧ c.port = p ∧ c.queue = q)
  let cs := dropCmds mine s.cmds
  let cs2 := cs.map (fun c =>
    if c.opcode = 5 ∧ c.id.peer = false ∧ c.id.port = p ∧ c.spec.toNat % 256 = q.val then { c with done := [(0, 0x40)] } else c)
  let s1 := { s with cmds := cs2 }
  let s2 := s1.onPort p (fun t =>
    { t with queues := t.queues.set q.val t.queues[q].afterReset q.isLt, held := t.held.filter (fun h => !decide (h.queue = q)) })
  s2.raisePort p .queueReset [.u8 q.val]

/-- A port after a hot reset or FLR (Tables 11.6 and 17.11): queues, MSI-X table and pending bits, mailbox and event ring
control take their reset values and the Reel cursor is 0; Alarm Summary, configuration space and link are kept; a request
in progress runs on with its response dropped (Table 11.7). -/
def PortState.afterReset (t : PortState) : PortState :=
  { PortState.reset with
      msixEnable := t.msixEnable, msixMask := t.msixMask, relaxed := t.relaxed, linkUp := t.linkUp, linkGen := t.linkGen,
      linkWidth := t.linkWidth, perst := t.perst, d3hot := t.d3hot, alarm := t.alarm,
      mbx := { Mailbox.reset with run := t.mbx.run.map (fun r => { r with dropped := true }) } }

/-- Reset a port (R301): its commands, its state, its Bridle cells (released, CLAIMS kept), and a firmware download from it
(Table 11.7). -/
def State.portReset (s : State) (p : Port) : State :=
  let s1 := { s with cmds := dropCmds (fun c => decide (c.peer = false ∧ c.port = p)) s.cmds,
                     bridle := s.bridle.map (fun (c : BridleCell) => if c.owner.toNat = p.val + 1 then { c with owner := 0 } else c) }
  let s2 := s1.onPort p PortState.afterReset
  s2.onSys (fun y => { y with download := y.download.map (fun (d : Download) => if d.port = p then { d with discarded := true, bytes := [] } else d) })

/-- Every outstanding command ends: one from a port of this device completes with a status; one the peer forwarded ends with no
answer. -/
def State.endCommands (s : State) (status : Byte) : State :=
  let old := s.cmds
  { old.foldl (fun t c => if c.id.peer then t else t.complete c.id status 0) s with cmds := [] }

/-- The device leaves BOOT for a mode (R435): commands fetched before the warm reset and not completed complete with 0x50;
commands the peer forwarded end with no answer, since the Tether trains anew. -/
def State.leaveBoot (s : State) (m : Mode) : State := (s.setMode m).endCommands 0x50

end Sys2Proof.Machine
end

