-- ==== Sys2Proof/Machine/Handler.lean ====
section
/-! DEFINITION. The magazine handler's commands (10_magazine_handler.md): moves, Move Disc, inputs and ownership. -/

namespace Sys2Proof.Machine

/-! ### Moves (R253 to R257) -/

/-- HANDLER_INTERPOLATED_MOVE (R254): a target outside an axis's limits is refused with EV_HANDLER_LIMIT (R253); the move
starts when every axis it uses is homed and the handler may move. -/
def execHandlerInterpolatedMove (x z theta : Int) (s : State) : Res :=
  if !(s.axisWithin 0 x && s.axisWithin 1 z && s.axisWithin 2 theta) then .next (s.raiseDev .handlerLimit)
  else if s.mayMove && s.hnd.axes[0].homed && s.hnd.axes[1].homed && s.hnd.axes[2].homed then
    .next ((s.startPath x z theta false).onHnd (fun h => { h with repeatUsed := false, axisHeld := none }))
  else .next s

/-- HANDLER_RETARGET (R255): during an interpolated move, the path fraction follows its stop ramp and the latest target is
held for the stop point; a target outside the limits is refused and the motion continues (R253). -/
def execHandlerRetarget (x z theta : Int) (s : State) : Res :=
  if s.hnd.path.isNone then .next s
  else if !(s.axisWithin 0 x && s.axisWithin 1 z && s.axisWithin 2 theta) then .next (s.raiseDev .handlerLimit)
  else .next (s.onHnd (fun h => { h with path := h.path.map (fun m => { m with mode := .stopping }), pathHeld := some (x, z, theta) }))

/-- HANDLER_AXIS_MOVE (R253): from standstill under R227; a target given while the axis moves alone follows R229; one outside
the limits is refused and the motion continues. -/
def execHandlerAxisMove (a : AxisNo) (target : Int) (s : State) : Res :=
  if !s.axisWithin a target then .next (s.raiseDev .handlerLimit)
  else if s.mayMove && s.hnd.axes[a].homed then
    .next ((s.startAxis a target).onHnd (fun h => { h with repeatUsed := false, axisHeld := none }))
  else if !s.hnd.stopped && (decide (s.hnd.axes[a].mode = .position ∨ s.hnd.axes[a].mode = .reversal)) then
    .next (s.onAxis a (fun x => x.retarget target))
  else .next s

/-- HANDLER_HOME (R253): the home move of the first axis not homed, in the order G, Z, θ, X; the others follow. -/
def execHandlerHome (s : State) : Res :=
  if s.mayMove then .next (s.startHoming.onHnd (fun h => { h with repeatUsed := false, axisHeld := none })) else .next s

/-- The step of a Move Disc under way has its motion started from the present position (Table 10.3, R261). A target
outside the limits ends the Move Disc with 0x26 (R253). -/
def State.runStep (s : State) : State :=
  match s.hnd.move with
  | none => s
  | some m =>
    if !s.mayMove then s else
    let src := (s.entryOf m.src).getD (0, 0, 0)
    let dst := (s.entryOf m.dst).getD (0, 0, 0)
    let lift : Int := s.dp Param.hndLift
    let path := fun (e : Int × Int × Int) =>
      if s.axisWithin 0 e.1 && s.axisWithin 1 e.2.1 && s.axisWithin 2 e.2.2 then s.startPath e.1 e.2.1 e.2.2 false
      else (s.raiseDev .handlerLimit).endMove 0x26
    let axis := fun (a : AxisNo) (t : Int) =>
      if s.axisWithin a t then s.startAxis a t else (s.raiseDev .handlerLimit).endMove 0x26
    match m.step with
    | 0 => s.startHoming
    | 1 => path src
    | 2 => axis 1 (src.2.1 - lift)
    | 3 => axis 3 (s.dp Param.hndGGrip)
    | 4 => axis 1 src.2.1
    | 5 => path dst
    | 6 => axis 1 (dst.2.1 - lift)
    | 7 => if s.hnd.axes[3].homed then axis 3 (s.dp Param.hndGOpen)
           else s.onAxis 3 (fun x => x.startHome (s.axisProfile 3) (s.axisParam 3 Param.hndAxisLimitHi + 4000))
    | 8 => axis 1 dst.2.1
    | 9 => axis 3 (s.dp Param.hndGOpen)
    | 10 => axis 1 src.2.1
    | _ => axis 3 (s.dp Param.hndGGrip)

/-- Go to a step of the Move Disc and start it. -/
def State.toStep (s : State) (n : Nat) (f : MoveDisc → MoveDisc := id) : State :=
  (s.onHnd (fun h => { h with repeatUsed := false, axisHeld := none, move := h.move.map (fun m => { f m with step := n }) })).runStep

/-- A stall of an axis (R256): EV_HANDLER_STALL once per move; the move stops along its stop ramp and is repeated once from
the present position; a second stall in the same Move Disc faults the handler, and the Move Disc completes with 0x26. -/
def State.handlerStalled (s : State) (a : AxisNo) (dev : Int) : State :=
  let s1 := s.raiseDev .handlerStall [.u8 a.val, .s32 dev]
  let s2 := s1.onHnd (fun h =>
    { h.stopMotion with axes := h.stopMotion.axes.map (fun x => { x with stalled := true }), repeatDue := !h.repeatUsed,
                        repeatUsed := true,
                        pathHeld := match h.path with
                          | some m => some (m.start[0] + m.disp[0], m.start[1] + m.disp[1], m.start[2] + m.disp[2])
                          | none => h.pathHeld,
                        axisHeld := if h.path.isNone then some (a, h.axes[a].target) else none,
                        move := h.move.map (fun m => { m with stalls := m.stalls + 1, repeated := true }) })
  match s2.hnd.move with
  | some m =>
    if 2 ≤ m.stalls then
      ((s2.onHnd (fun h => { h with faulted := true, repeatDue := false })).raiseDev .handlerFaulted).endMove 0x26
    else s2
  | none => s2

/-- The deviation of an axis in motion lies beyond its window, and no stall was raised in this move (R256). -/
def State.axisStalls (s : State) (a : AxisNo) (x : StepAxis) : Bool :=
  (decide ((s.axisParam a Param.hndAxisStallWin : Int) < |x.deviation|) || x.overspeed) && !x.stalled

/-- The bridges of axis `a` for the present period, at its HND.RUN_DUTY (R226, R252). -/
def State.driveAxis (s : State) (a : AxisNo) : State :=
  s.onAxis a (fun x => x.drive (s.axisParam a Param.hndAxisRunDuty) (s.axisParam a Param.hndAxisStepPitch))

/-- Advance axis `a` alone by one PWM period; `mark`, its reference mark passes. -/
def State.axisPeriod (s : State) (a : AxisNo) (mark : Bool) : State :=
  let x := s.hnd.axes[a]
  if !x.moving then s else
  if x.mode = .home ∧ mark then
    let s1 := (s.onAxis a StepAxis.atMark).raiseDev .handlerHomed [.u8 a.val]
    -- the next axis follows, unless a Move Disc has its own use of this home move
    match s1.hnd.move with
    | some m => if m.step = 0 then s1.startHoming else s1
    | none => s1.startHoming
  else if x.mode = .home ∧ x.pos ≤ x.target * posUnit then
    (s.onAxis a StepAxis.rest).handlerStalled a x.deviation
  else
    let s1 := (s.onAxis a (fun y => y.period false)).driveAxis a
    let y := s1.hnd.axes[a]
    if decide (y.mode ≠ .home) && s1.axisStalls a y then s1.handlerStalled a y.deviation else s1

/-- Advance the interpolated move by one PWM period: every axis follows the path fraction (R254); at its stop point a held
target is planned afresh (R255), unless an interlock stopped it (Table 10.6). -/
def State.pathPeriod (s : State) : State :=
  match s.hnd.path with
  | none => s
  | some m =>
    let n := m.period
    let place := fun (h : Handler) =>
      { h with path := some n,
               axes := Vector.ofFn (fun i : Fin 4 =>
                 if hi : i.val < 3 then { h.axes[i] with pos := n.at ⟨i.val, hi⟩, vel := n.velAt ⟨i.val, hi⟩ } else h.axes[i]) }
    let s1 := ((((s.onHnd place).driveAxis 0).driveAxis 1).driveAxis 2)
    if n.ended then
      let s2 := s1.onHnd (fun h => { h with path := none, axes := h.axes.map (fun a => if a.moving then a else a.rest) })
      match s2.hnd.pathHeld with
      | some (x, z, t) => if s2.hnd.stopped || s2.hnd.releaseDue || s2.hnd.repeatDue then s2 else s2.startPath x z t true
      | none => s2
    else
      match [(0 : AxisNo), 1, 2].find? (fun a => s1.axisStalls a s1.hnd.axes[a]) with
      | some a => s1.handlerStalled a s1.hnd.axes[a].deviation
      | none => s1

/-- A stalled move that has stopped is repeated once from the present position (R256), when nothing forbids a move. -/
def State.repeatStalled (s : State) : State :=
  if s.hnd.repeatDue && s.hnd.still && !s.hnd.stopped && !s.interlock then
    let s1 := s.onHnd (fun h => { h with repeatDue := false, axes := h.axes.map (fun a => { a with pos := a.encoder * posUnit }) })
    match s1.hnd.move, s1.hnd.pathHeld, s1.hnd.axisHeld with
    | some _, _, _ => s1.runStep
    | none, some (x, z, t), _ => s1.startPath x z t false
    | none, none, some (a, t) => if s1.hnd.axes[a].homed then s1.startAxis a t else s1.startHoming
    | none, none, none => s1
  else s

/-- HANDLER_PWM_PERIOD (R254 to R256): the path, then each axis, advances by one period, and encoders are compared with
commanded positions; `marks`, the reference marks that pass. -/
def execHandlerPwmPeriod (marks : Vector Bool 4) (s : State) : Res :=
  let s1 := s.pathPeriod
  let s2 := (List.finRange 4).foldl (fun t a => t.axisPeriod a marks[a]) s1
  .next s2.repeatStalled

/-- HANDLER_STANDSTILL (R257): a resting axis takes its standstill mode; in RIPCORD G holds. -/
def execHandlerStandstill (a : AxisNo) (s : State) : Res :=
  let x := s.hnd.axes[a]
  if x.moving || s.hnd.path.isSome || decide (x.standstill ≠ 3) then .next s
  else .next (s.onAxis a (fun y => y.applyStandstill
    (if s.sys.mode = .ripcord ∧ a = 3 then 2 else s.axisParam a Param.hndAxisStandstill)
    ((s.axisParam a Param.hndAxisHoldDuty : Rat) * s.axisParam a Param.hndAxisRunDuty / 100) (s.axisParam a Param.hndAxisStepPitch)))

/-! ### Move Disc (R258 to R262) -/

/-- The checks of a Move Disc that complete it with 0x11 (R262): an invalid location, source equal to destination, an
absent entry, a source known empty, a destination not empty without flag bit 0. -/
def State.moveBad (s : State) (src dst : BitVec 16) (declared : Bool) : Bool :=
  let peerOnly := fun c => (locPeerBay c).isSome && decide (s.pair.role.role = 0)
  !locValid src || !locValid dst || decide (src = dst) || decide (dst.toNat = 0x500) || peerOnly src || peerOnly dst
    || (s.params.positions.isSome
        && ((decide (src.toNat ≠ 0x500) && (s.entryOf src).isNone) || (s.entryOf dst).isNone))
    || decide (s.locState src = .empty)
    || (!declared && decide (s.locState dst ≠ .empty))

/-- A disc may be taken from the source or set down at the destination (R260, R404). -/
def State.moveReady (s : State) (src dst : BitVec 16) (declared : Bool) : Bool :=
  s.params.positions.isSome && !s.interlock && !s.hnd.faulted
  && decide (s.locState dst = .empty ∨ (s.locState dst = .unknown ∧ declared))
  && (decide (src.toNat ≠ 0x500) || s.gripped)
  && (match locBay src with
      | some b => decide (s.bays[b].seq.st = .unloading) && !s.bays[b].seq.clamp
      | none => true)
  && (match locBay dst with
      | some b => decide (s.bays[b].seq.st = .empty)
      | none => true)
  && (match locPeerBay src with
      | some b => (s.tetherLive && decide (s.pair.peerBays[b] = some .unloading))
          || (decide (s.sys.mode = .pairedDegraded) && !s.pair.peerOkIn && s.pair.darkWait)
      | none => true)
  && (match locPeerBay dst with
      | some b => s.tetherLive && decide (s.pair.peerBays[b] = some .empty)
      | none => true)
  && (decide (0x400 ≤ src.toNat) || s.magazinePresent (src.toNat / 256))
  && (decide (0x400 ≤ dst.toNat) || s.magazinePresent (dst.toNat / 256))

/-- Start a Move Disc on the device that owns the handler (R260), for a mailbox port, for the peer that forwarded it, or for
C2; the answer is the status it ends with at once, if any. -/
def State.beginMove (s : State) (src dst : BitVec 16) (declared : Bool) (port : Option Port) (fwd : Option CmdId) :
    State × Option Byte :=
  if s.moveBad src dst declared then (s, some 0x11)
  else if !s.moveReady src dst declared || s.hnd.move.isSome || !s.mayMove then (s, some 0x26)
  else
    let m : MoveDisc :=
      { src := src, dst := dst, port := port, forwarded := fwd, step := 0, picked := false, released := false,
        repeated := false, stalls := 0, stopped := false, awaitPeer := (locPeerBay dst).isSome }
    let s1 := s.onHnd (fun h => { h with move := some m })
    let s2 := match locBay dst with
      | some b => s1.setBaySt b .loading 0
      | none => s1
    let s3 := if m.awaitPeer then s2.send 0x13 [dst.toNat, 1] else s2
    if m.awaitPeer then (s3, none)
    else if s3.nextHome.isSome then (s3.runStep, none)
    else (s3.toStep (if src.toNat = 0x500 then 5 else 1), none)

/-- MOVE_DISC (R260, R262, R399): begun by the owner of the handler, forwarded to a peer that owns it while the Tether is
live, and completed with 0x26 otherwise. -/
def execMoveDisc (p : Port) (s : State) : Res :=
  .next (s.serve p 0x140 anyReq (fun s r =>
    let src := BitVec.ofNat 16 (mbxPay r 0 2)
    let dst := BitVec.ofNat 16 (mbxPay r 2 2)
    let declared := decide (mbxPay r 4 2 % 2 = 1)
    if s.hnd.own then
      match (s.beginRun p .moveDisc).beginMove src dst declared (some p) none with
      | (s1, some st) => s1.respondRun p st
      | (s1, none) => s1
    else if decide (s.pair.role.role ≠ 0) && s.tetherLive then
      (s.send 0x20 [p.val, 0, (mbxTag r).toNat, 0x40, b2n declared, 0, src.toNat, dst.toNat]).beginRun p .moveDisc
    else s.respond p 0x26))

/-- The disc that came from a slot, as a bay records it when the handler sets it down. -/
def State.discFrom (s : State) (slot : BitVec 16) : Disc :=
  { vid := match s.vols.find? (fun v => decide (v.slot = slot)) with | some v => v.vid | none => 0,
    slot := slot, mounted := false, mgmt := none, used1 := 0, used2 := 0, readOnly := false, unclean := false,
    preRead := [] }

/-- The disc has been picked from the source (R260, R261): the source is empty, and the disc's volume lies in the gripper. -/
def State.picked (s : State) (src : BitVec 16) : State :=
  let slot := match locBay src with
    | some b => match s.bays[b].seq.disc with | some d => d.slot | none => 0xFFFF
    | none => if src.toNat < 0x400 then src else 0xFFFF
  ({ s with vols := s.vols.map (fun (v : Volume) => if v.slot = slot then { v with location := 0x500 } else v) }.onHnd
    (fun h => { h with carried := slot })).setLoc src .empty

/-- The disc has been released at the destination (R260, R261). -/
def State.setDown (s : State) (dst : BitVec 16) : State :=
  let slot := s.hnd.carried
  let s1 := ({ s with vols := s.vols.map (fun (v : Volume) => if v.slot = slot then { v with location := dst } else v) }.onHnd
    (fun h => { h with carried := 0xFFFF })).setLoc dst .occupied
  match locBay dst with
  | some b => s1.onSeq b (fun q => { q with disc := some (s1.discFrom slot), tray := true })
  | none => s1

/-- MOVE_DISC_STEP_DONE (R261): the step under way has come to standstill; the next begins, a grip or release that does not
confirm is repeated once, or the Move Disc completes. -/
def execMoveDiscStepDone (s : State) : Res :=
  match s.hnd.move with
  | none => .next s
  | some m =>
    if m.awaitPeer || m.stopped || s.hnd.stopped || s.hnd.repeatDue || !s.hnd.still || !s.hnd.own then .next s else
    match m.step with
    | 0 => if s.nextHome.isSome then .next s.runStep else .next (s.toStep (if m.src.toNat = 0x500 then 5 else 1))
    | 1 => .next (s.toStep 2)
    | 2 => .next (s.toStep 3)
    | 3 => if s.gripped then .next ((s.picked m.src).toStep 4) else .next ((s.raiseDev .pickFail).toStep 9)
    | 4 => .next (s.toStep 5)
    | 5 => .next (s.toStep 6)
    | 6 => .next (s.toStep 7)
    | 7 =>
      if s.hnd.axes[3].homed && decide (s.hnd.axes[3].counts ≠ s.dp Param.hndGOpen) then .next s.runStep
      else if s.funActive 4 && !s.gripped then .next ((s.setDown m.dst).toStep 8)
      else if m.released then .next ((s.raiseDev .pickFail).endMove 0x26)
      else .next ((s.raiseDev .pickFail).toStep 11 (fun m => { m with released := true, repeated := true }))
    | 8 => .next ((s.raiseDev .moveDone).endMove (if m.repeated then 0x01 else 0x00))
    | 9 => .next (s.toStep 10)
    | 10 =>
      if m.picked then .next ((s.setLoc m.src .empty).endMove 0x26)
      else .next (s.toStep 2 (fun m => { m with picked := true, repeated := true }))
    | _ => .next (s.toStep 7)

/-! ### Inputs (R266 to R270) -/

/-- The handler stop of R270: every motion follows its stop ramp, EV_HANDLER_STOP names the input, and a bay that waits for a
disc not yet released returns to EMPTY while its tray shows none. -/
def State.handlerStop (s : State) (i : InputNo) : State :=
  let s1 := (s.onHnd (fun h => { h.stopMotion with stopped := true, move := h.move.map (fun m => { m with stopped := true }) })).raiseDev
    .handlerStop [.u8 i.val]
  match s1.hnd.move with
  | some m => match locBay m.dst with
    | some b => if s1.bays[b].seq.st = .loading ∧ s1.bays[b].seq.tray = false then s1.setBaySt b .empty 3 else s1
    | none => s1
  | none => s1

/-- INPUT_FILTER_CHANGE (R267 to R270): the edge counter counts, the input's function acts, and EV_INPUT_CHANGE is raised
unless one was within HND.IN_QUIET; a change to inactive unmasks the input (R269). -/
def execInputFilterChange (i : InputNo) (level : Bool) (s : State) : Res :=
  if s.hnd.inputs[i].level = level then .next s else
  let s1 := s.onInput i (fun x => { x with level := level, edges := satInc 65535 x.edges })
  let active := s1.inActive i
  let s2 := if active then s1 else s1.onInput i (fun x => { x with masked := false })
  let s3 := if active ∧ s2.inFun i = 1 then s2.handlerStop i
    else if active ∧ s2.inFun i = 2 then s2.cutAll .shock else s2
  if s3.hnd.inputs[i].quiet then .next (s3.onInput i (fun x => { x with counted := x.counted + 1 }))
  else .next ((s3.raiseDev .inputChange [.u8 i.val, .u8 (b2n level)]).onInput i
    (fun x => { x with quiet := true, reported := level, counted := 0 }))

/-- INPUT_QUIET_END (R268): a level that differs from the one last reported is reported with the count of changes. -/
def execInputQuietEnd (i : InputNo) (s : State) : Res :=
  let x := s.hnd.inputs[i]
  if !x.quiet then .next s
  else if x.level = x.reported then .next (s.onInput i (fun x => { x with quiet := false, counted := 0 }))
  else .next ((s.raiseDev .inputChange [.u8 i.val, .u8 (b2n x.level), .u16 x.counted]).onInput i
    (fun x => { x with quiet := true, reported := x.level, counted := 0 }))

/-- INPUT_STUCK (R269): an input active for longer than HND.IN_STUCK raises one EV_INPUT_STUCK and is masked. -/
def execInputStuck (i : InputNo) (s : State) : Res :=
  if s.inActive i && !s.hnd.inputs[i].masked && decide (s.dn Param.hndInStuck ≠ 0) then
    .next ((s.raiseDev .inputStuck [.u8 i.val]).onInput i (fun x => { x with masked := true }))
  else .next s

/-- HANDLER_RESUME (R270): every interlock has been inactive for HND.RESUME_DELAY; the stopped Move Disc resumes from the
stop point, and a held target of an interpolated move is planned (Table 10.6). -/
def execHandlerResume (s : State) : Res :=
  if !s.hnd.stopped || s.interlock || !s.hnd.still then .next s else
  let s1 := (s.onHnd (fun h => { h with stopped := false, move := h.move.map (fun m => { m with stopped := false }) })).raiseDev
    .handlerResumed
  match s1.hnd.move with
  | some m =>
    let s2 := match locBay m.dst with
      | some b => if s1.bays[b].seq.st = BaySt.empty then s1.setBaySt b .loading 0 else s1
      | none => s1
    if s2.hnd.repeatDue then .next s2.repeatStalled else .next s2.runStep
  | none =>
    match s1.hnd.pathHeld with
    | some (x, z, t) => if s1.mayMove then .next (s1.startPath x z t true) else .next s1
    | none => .next s1

/-- HANDLER_STOP_WAIT_EXPIRY (R262): a handler stop longer than HND.STOP_WAIT ends the Move Disc with 0x26. -/
def execHandlerStopWaitExpiry (s : State) : Res :=
  if s.hnd.stopped then .next (s.endMove 0x26) else .next s

/-! ### Ownership (R263 to R265) -/

/-- The device may drive the handler in its role: standalone, first member or sole (R264, R389). -/
def State.mayOwn (s : State) : Bool := s.sys.mode.peerOk && decide (s.pair.role.role ≠ 2)

/-- Activate HND_OWN (R264): kept when HND_OWN_PEER stays inactive for the 100 µs after; otherwise released, with
EV_HANDLER_OWN_CONFLICT. -/
def State.takeOwn (s : State) (peerActiveSoon : Bool) : State :=
  if peerActiveSoon then (s.onHnd (fun h => { h with own := false, ownPeer := true })).raiseDev .handlerOwnConflict
  else (s.onHnd (fun h => { h with own := true, ownPeer := false, quietDone := false, releaseDue := false })).raiseDev
    .handlerOwnTaken

/-- OWNERSHIP_TAKE (R264): HND_OWN_PEER has been inactive for 1 ms. -/
def execOwnershipTake (peerActiveSoon : Bool) (s : State) : Res :=
  if s.hnd.own || !s.mayOwn then .next s else .next (s.takeOwn peerActiveSoon)

/-- OWNERSHIP_CONFLICT_RETRY (R264): the backoff after a conflict has passed, and HND_OWN_PEER is inactive. -/
def execOwnershipConflictRetry (peerActiveSoon : Bool) (s : State) : Res :=
  if s.hnd.own || !s.mayOwn || !s.hnd.ownPeer then .next s else .next (s.takeOwn peerActiveSoon)

/-- ENCODER_QUIET_WAIT (R264): no encoder has changed for 100 ms, so handler moves may start. -/
def execEncoderQuietWait (s : State) : Res :=
  if s.hnd.own then .next (s.onHnd (fun h => { h with quietDone := true })) else .next s

/-- OWNERSHIP_RELEASE (R265): the last axis has reached standstill after PEER_OK fell or a planned release. -/
def execOwnershipRelease (s : State) : Res :=
  if s.hnd.releaseDue && s.hnd.still then .next s.dropOwn else .next s

end Sys2Proof.Machine
end

