-- ==== Sys2Proof/Machine/StagingOps.lean ====
section
/-! DEFINITION. Shared operations of the staging tier: superblocks and allocation (R325, R328, R329, R350), the map (R326), the Vent reserve (R345), the journal (R340), programs (R330), block and LUN retirement (R351 to R353), the Vent budget (R347) and the flush of dirty data (R344, R346). -/

namespace Sys2Proof.Machine

/-! ### Geometry (R324, R325) -/

/-- Blocks of a LUN that superblocks use: all but its spare pool, its highest-numbered blocks (log entry 18). -/
def Staging.usableBlocks (g : Staging) : Nat := g.blocks - g.nand.spareCount.getD 0

/-- Superblocks of the tier: every LUN index in service, without blocks 0 and 1 of LUN index 0 (R325). -/
def Staging.total (g : Staging) : Nat :=
  g.luns.length * g.usableBlocks - (if g.luns.contains 0 then min 2 g.usableBlocks else 0)

/-- (l, b) is a superblock. -/
def Staging.isSb (g : Staging) (l b : Nat) : Bool :=
  g.luns.any (fun x => decide (x.val = l)) && decide (b < g.usableBlocks) && !(decide (l = 0 ∧ b < 2))

/-- The record of a superblock, where it is not free with no erases. -/
def Staging.sb? (g : Staging) (l b : Nat) : Option Superblock :=
  g.sbs.find? (fun x => decide (x.lun = l ∧ x.block = b))

/-- Put a superblock's record in place of its old one. -/
def Staging.putSb (g : Staging) (x : Superblock) : Staging :=
  if (g.sb? x.lun x.block).isSome then
    { g with sbs := updateFirst (fun y => decide (y.lun = x.lun ∧ y.block = x.block)) (fun _ => x) g.sbs }
  else { g with sbs := g.sbs ++ [x] }

/-- A superblock that has not been used. -/
def Superblock.fresh (l b : Nat) : Superblock :=
  { lun := l, block := b, st := .free, next := 0, erases := 0, firstProgram := 0, tempSum := 0, programs := 0, age := 0,
    closedAt := 0, xor := [] }

/-- Superblocks in a state. -/
def Staging.inState (g : Staging) (st : SbState) : List Superblock := g.sbs.filter (fun x => decide (x.st = st))

/-- Free superblocks, outside the Vent reserve. -/
def Staging.freeCount (g : Staging) : Nat :=
  g.total - (g.sbs.filter (fun x => !decide (x.st = .free))).length

/-- The first superblock of LUN index `l` from block `b` that has no record. -/
def Staging.unusedFrom (g : Staging) (l : Nat) : (fuel b : Nat) → Option (Nat × Nat)
  | 0, _ => none
  | fuel + 1, b => if g.isSb l b && (g.sb? l b).isNone then some (l, b) else g.unusedFrom l fuel (b + 1)

/-- The lowest (l, b) with no record. -/
def Staging.unused (g : Staging) : Option (Nat × Nat) :=
  g.luns.findSome? (fun l => g.unusedFrom l.val (g.usableBlocks) 0)

/-- Better of two free superblocks: fewer erases, or more when `most` is set; ties go to the lower (l, b) (R329). -/
def betterFree (most : Bool) (x y : Superblock) : Superblock :=
  let key := fun z : Superblock => z.lun * 65536 + z.block
  if x.erases = y.erases then (if key x ≤ key y then x else y)
  else if decide (x.erases < y.erases) == !most then x else y

/-- The free superblock to assign (R329). -/
def Staging.pickFree (g : Staging) (most : Bool) : Option Superblock :=
  let cands := g.inState .free ++ (match g.unused with | some (l, b) => [Superblock.fresh l b] | none => [])
  match cands with
  | [] => none
  | x :: rest => some (rest.foldl (betterFree most) x)

/-- The LUN at channel `c`, LUN index `l` is in service. -/
def Staging.inService (g : Staging) (c : Nat) (l : Nat) : Bool :=
  !(g.nand.retiredLuns.any (fun r => decide (r.1.val = c ∧ r.2.val = l)))

/-- The parity member's channel of stripe `p` (R325). -/
def Staging.parity (g : Staging) (l p : Nat) : Nat :=
  match (List.range 16).find? (fun k => g.inService ((p + k) % 16) l) with
  | some k => (p + k) % 16
  | none => p % 16

/-- Position `q` (stripe × 16 + channel) of a superblock on LUN index `l` holds data. -/
def Staging.isData (g : Staging) (l q : Nat) : Bool :=
  g.inService (q % 16) l && decide (g.parity l (q / 16) ≠ q % 16)

/-- The first data position from `q` on, within the superblock. -/
def Staging.dataFrom (g : Staging) (l q : Nat) : Option Nat :=
  match (List.range 33).find? (fun k => g.isData l (q + k)) with
  | some k => if q + k < 16 * g.pages then some (q + k) else none
  | none => none

/-- The location of position `q` of superblock (l, b): channel, LUN index, block and page (R324). -/
def location (l b q : Nat) : BitVec 34 :=
  BitVec.ofNat 34 (q % 16 * 2 ^ 30 + l * 2 ^ 26 + b * 2 ^ 12 + q / 16)

/-- Channel of a location. -/
def locChan (x : BitVec 34) : ChanNo := ⟨x.toNat / 2 ^ 30, by have := x.isLt; omega⟩
/-- LUN index of a location. -/
def locLun (x : BitVec 34) : Fin 16 := ⟨x.toNat / 2 ^ 26 % 16, by omega⟩
/-- Block of a location. -/
def locBlock (x : BitVec 34) : Nat := x.toNat / 2 ^ 12 % 2 ^ 14
/-- Page of a location. -/
def locPage (x : BitVec 34) : Nat := x.toNat % 2 ^ 12

/-! ### The Vent reserve (R345) -/

/-- Data capacity of a superblock in bytes. -/
def Staging.sbBytes (g : Staging) : Nat := 15 * 65536 * g.pages

/-- Superblocks of the reserve for a dirty limit in MiB. -/
def Staging.reserveFor (g : Staging) (limit : Nat) : Nat := ceilDiv ((limit + 16) * 2 ^ 20) (max 1 g.sbBytes) + 1

/-- Superblocks now held erased in the reserve. -/
def Staging.reserveHeld (g : Staging) : Nat := (g.inState .reserve).length

/-- Move one superblock from free to the reserve, or from the reserve to free, toward a count. -/
def Staging.reserveStep (g : Staging) (want : Nat) : Staging :=
  if g.reserveHeld < want then
    match g.pickFree false with
    | some x => g.putSb { x with st := .reserve }
    | none => g
  else if want < g.reserveHeld then
    match g.inState .reserve with
    | x :: _ => g.putSb { x with st := .free }
    | [] => g
  else g

/-- Bring the reserve to a count, as far as erased superblocks allow. -/
def Staging.fillReserve : (fuel : Nat) → Staging → Nat → Staging
  | 0, g, _ => g
  | fuel + 1, g, want => if g.reserveHeld = want then g else Staging.fillReserve fuel (g.reserveStep want) want

/-- Fit the reserve to the dirty limit last accepted (R345): a limit takes effect once its reserve is erased; STG.STATE bit
4 is set until then. -/
def Staging.fitReserve (g : Staging) (limit : Nat) : Staging :=
  let want := g.reserveFor limit
  let g1 := Staging.fillReserve (want + g.reserveHeld + 1) g want
  if want ≤ g1.reserveHeld then { g1 with limit := limit, growing := false }
  else if limit ≤ g1.limit then { g1 with limit := limit, growing := false }
  else { g1 with growing := true }

/-- The reserve of the limit in force stands erased; Writes wait otherwise (R349). -/
def Staging.reserveReady (g : Staging) : Bool := decide (g.reserveFor g.limit ≤ g.reserveHeld)

/-! ### Allocation (R328, R329, R350) -/

/-- The open superblock of a stream. -/
def Staging.openOf (g : Staging) (stream : Fin 4) : Option Superblock :=
  g.sbs.find? (fun x => decide (x.st = .opened stream))

/-- A stream may open a superblock: the host stream only while more than 2 are free (R350); the Vent stream takes the
reserve's. -/
def Staging.toOpen (g : Staging) (stream : Fin 4) : Option Superblock :=
  if stream = 2 then
    match g.inState .reserve with
    | x :: rest => some (rest.foldl (betterFree false) x)
    | [] => g.pickFree false
  else if stream = 0 ∧ g.freeCount ≤ 2 then none
  else g.pickFree (decide (stream = 1))

/-- Open a superblock for a stream, where it has none. -/
def Staging.ensureOpen (g : Staging) (stream : Fin 4) (now : Nat) : Staging :=
  if (g.openOf stream).isSome then g else
  match g.toOpen stream with
  | none => g
  | some x => g.putSb { x with st := .opened stream, next := (g.dataFrom x.lun 0).getD 0, firstProgram := now, tempSum := 0,
                               programs := 0, age := 0, xor := [] }

/-- Take the open superblock's next position, from its position `from` on: the location programmed and the tier with the
superblock moved on, closed after its last stripe (R328). -/
def Staging.take (g : Staging) (x : Superblock) (q : Nat) (order : Nat) : BitVec 34 × Staging :=
  let c : ChanNo := ⟨q % 16, by omega⟩
  let y := { x with tempSum := x.tempSum + g.temps[c], programs := x.programs + 1 }
  (location x.lun x.block q,
    match g.dataFrom x.lun (q + 1) with
    | some n => g.putSb { y with next := n }
    | none => g.putSb { y with next := 16 * g.pages, st := .closed, closedAt := order })

/-- Allocate the next position of a stream; none when no superblock can be opened. -/
def Staging.alloc (g : Staging) (stream : Fin 4) (now order : Nat) : Option (BitVec 34 × Staging) :=
  let g1 := g.ensureOpen stream now
  match g1.openOf stream with
  | none => none
  | some x => some (g1.take x x.next order)

/-- Close the open superblock of a stream, so that the next program goes to another (Table 12.8). -/
def Staging.closeOpen (g : Staging) (stream : Fin 4) (order : Nat) : Staging :=
  match g.openOf stream with
  | none => g
  | some x => g.putSb { x with st := .closed, closedAt := order }

/-- Allocate the next page of the same block for the retry of a failed program (Table 12.8): the following stripe at the
same channel; none when the superblock has none. -/
def Staging.allocNextPage (g : Staging) (stream : Fin 4) (failed : BitVec 34) (order : Nat) : Option (BitVec 34 × Staging) :=
  match g.openOf stream with
  | none => none
  | some x =>
    let q := (locPage failed + 1) * 16 + (locChan failed).val
    if q < 16 * g.pages then some (g.take x q order) else none

/-! ### The map (R326) -/

/-- The map entry of a cluster. -/
def Staging.entry? (g : Staging) (vid : VolId) (ucl : Nat) : Option MapEntry :=
  g.map.find? (fun e => decide (e.vid = vid ∧ e.ucl = ucl))

/-- The order of the map: by volume, then user cluster. -/
def MapEntry.key (e : MapEntry) : Nat := e.vid.toNat * 2 ^ 25 + e.ucl

/-- Put an entry into a map, in order of its key. -/
def putEntry : List MapEntry → MapEntry → List MapEntry
  | [], e => [e]
  | x :: rest, e =>
    if e.key < x.key then e :: x :: rest else if e.key = x.key then e :: rest else x :: putEntry rest e

/-- Remove an entry from a map. -/
def dropEntry (m : List MapEntry) (vid : VolId) (ucl : Nat) : List MapEntry :=
  m.filter (fun e => !decide (e.vid = vid ∧ e.ucl = ucl))

/-- Clusters of a superblock that are live: their map entries name their locations (R336). -/
def Staging.live (g : Staging) (x : Superblock) : List MapEntry :=
  g.map.filter (fun e => decide ((locLun e.loc).val = x.lun ∧ locBlock e.loc = x.block))

/-- Merge sectors: those of `new` over those of `old`. -/
def mergeSectors (old new : List (Nat × SectorData)) : List (Nat × SectorData) :=
  new.foldl (fun acc kv => insertKey acc kv.1 kv.2) old

/-- The dirty cluster of a cluster, if one waits. -/
def Staging.dirty? (g : Staging) (vid : VolId) (ucl : Nat) : Option DirtyCluster :=
  g.dirty.find? (fun d => decide (d.vid = vid ∧ d.ucl = ucl))

/-! ### The journal (R340) -/

/-- Apply a journal record to what NAND keeps. -/
def NandImage.apply (n : NandImage) : JournalRec → NandImage
  | .delta e => { n with entries := putEntry n.entries e, sinceCheckpoint := n.sinceCheckpoint + 1 }
  | .release v u => { n with entries := dropEntry n.entries v u, sinceCheckpoint := n.sinceCheckpoint + 1 }
  | .eraseIntent l b => { n with intents := n.intents ++ [(l, b)] }
  | .erased l b => { n with intents := n.intents.filter (fun x => !decide (x = (l, b))) }
  | .volume _ => n

/-- The journal buffer becomes durable. -/
def Staging.durable (g : Staging) : Staging :=
  { g with nand := { (g.journal.foldl NandImage.apply g.nand) with blocks := g.sbs }, journal := [] }

/-- Place a record in the journal buffer. -/
def Staging.journalRec (g : Staging) (r : JournalRec) : Staging := { g with journal := g.journal ++ [r] }

/-! ### Root records (R341) -/

/-- Where the next root record stands, and whether its block is erased first: one record to a page of the two root blocks, which
take turns (log entry 109). -/
def Staging.nextRoot (g : Staging) : BitVec 34 × Bool :=
  match g.nand.root with
  | none => (location 0 0 0, false)
  | some r =>
    if locPage r.loc + 1 < g.pages then (location 0 (locBlock r.loc) ((locPage r.loc + 1) * 16), false)
    else (location 0 (1 - locBlock r.loc) 0, true)

/-- The open superblock of each stream, for a root record. -/
def Staging.openList (g : Staging) : Vector (Option (Nat × Nat)) 4 :=
  Vector.ofFn (fun k => (g.openOf k).map (fun x => (x.lun, x.block)))

/-- Write a root record to the root blocks of channels 0 and 8, and its location and sequence to the staging map root (R341,
Table 13.3); the Vent-incomplete flag is carried while STG.STATE bit 3 stands (R348). -/
def State.writeRoot (s : State) (clean warm : Bool) : State :=
  let g := s.stg
  let (loc, erase) := g.nextRoot
  let r : RootRecord :=
    { loc := loc, seq := (match g.nand.root with | some r => r.seq + 1 | none => 1), directory := g.directory,
      journalPos := g.journalPos, opens := g.openList, clean := clean, ventIncomplete := g.incomplete, warmFlush := warm }
  let ops := fun (t : State) (c : ChanNo) =>
    let t1 := if erase then t.emit (.nand c 0x60 (locBlock loc) 0) else t
    t1.emit (.nand c 0x80 (loc.toNat + c.val * 2 ^ 30) r.seq)
  ((ops (ops s 0) 8).onStg (fun g => { g with nand := { g.nand with root := some r } })).onMem (fun m =>
    { m with triple := m.triple.putAll [(8, BitVec.ofNat 64 loc.toNat), (9, BitVec.ofNat 64 r.seq)] })

/-- The records of a volume are durable before the command they govern completes (R340). -/
def State.saveVols (s : State) : State := s.onStg (fun g => { g with nand := { g.nand with vols := s.vols } })

/-! ### Programs (R330) -/

/-- Device time in seconds. -/
def State.seconds (s : State) : Nat := s.sys.time.toNat / 1000000

/-! ### Codewords and stripes (R323 to R325) -/

/-- A NAND codeword (R323, Table 12.3). -/
def nandWord (d : SectorData) (dataSeq progSeq : Nat) (vid : VolId) (ucl : Nat) (mask : BitVec 16) (sector stream kind : Nat) :
    NandWord :=
  let info := dataSeq % 2 ^ 48 + 2 ^ 48 * (progSeq % 2 ^ 48) + 2 ^ 96 * vid.toNat + 2 ^ 112 * (ucl % 2 ^ 25)
    + 2 ^ 144 * mask.toNat + 2 ^ 160 * (sector % 16 + 16 * (stream % 4) + 64 * (kind % 4))
  let body : BitVec 32992 := BitVec.ofNat 32992 (d.toNat + 2 ^ 32768 * info)
  BitVec.ofNat 33024 (body.toNat + 2 ^ 32992 * crc32 (wordBytes 4124 body))

/-- The sector in a NAND codeword. -/
def nandData (w : NandWord) : SectorData := w.extractLsb' 0 32768

/-- A field of a codeword's metadata: `n` bits from bit `off` (Table 12.3). -/
def nandField (w : NandWord) (off n : Nat) : Nat := (w.extractLsb' (32768 + off) n).toNat

/-- The CRC-32 of a codeword holds (R323). -/
def nandGood (w : NandWord) : Bool := decide (crc32 (wordBytes 4124 w) = nandField w 224 32)

/-- A read of a codeword that counts as decoded: the LDPC unit decodes it and its CRC holds (R323). -/
def nandDecoded (r : Option NandWord) : Option NandWord := r.filter nandGood

/-- The 16 codewords of a staged cluster; a sector whose mask bit is 0 holds zeros (R324). -/
def MapEntry.words (e : MapEntry) (stream : Nat) : List NandWord :=
  (List.range 16).map (fun k =>
    nandWord (if e.mask.getLsbD k then (lookupKey e.sectors k).getD 0 else 0) e.dataSeq e.progSeq e.vid e.ucl e.mask k stream 0)

/-- The 16 codewords of a journal or checkpoint member (Table 12.3, log entry 109). -/
def metadataWords (progSeq : Nat) : List NandWord :=
  (List.range 16).map (fun k => nandWord (Config.metadataSector progSeq k) 0 progSeq 0xFFFF 0 0xFFFF k 3 2)

/-- The byte-wise XOR of codewords (R325). -/
def xorWords (a b : List NandWord) : List NandWord :=
  if a.isEmpty then b else (a.zip b).map (fun x => x.1 ^^^ x.2)

/-- A page program is issued at a location. -/
def State.nandPage (s : State) (loc : BitVec 34) (ws : List NandWord) : State :=
  (s.onStg (fun g => { g with lastOp := g.lastOp.set (locChan loc).val (0x80, loc.toNat) (locChan loc).isLt })).emit (.nandPage loc ws)

/-- The parity member of stripe `p` of a superblock, over the members programmed (R325). -/
def State.stripeParity (s : State) (x : Superblock) (p : Nat) : State :=
  if x.xor.isEmpty then s
  else (s.nandPage (location x.lun x.block (p * 16 + s.stg.parity x.lun p)) x.xor).onStg (fun g => g.putSb { x with xor := [] })

/-- A data member stands programmed at a location; with its stripe's last, the parity member follows (R325). -/
def State.member (s : State) (loc : BitVec 34) (ws : List NandWord) : State :=
  match s.stg.sb? (locLun loc).val (locBlock loc) with
  | none => s
  | some x =>
    let y := { x with xor := xorWords x.xor ws }
    let p := locPage loc
    let more := match s.stg.dataFrom x.lun (p * 16 + (locChan loc).val + 1) with
      | some n => decide (n / 16 = p)
      | none => false
    let s1 := s.onStg (fun g => g.putSb y)
    if more then s1 else s1.stripeParity y p

/-- The open stripe of a stream is closed with parity over its members; the next program goes to the stripe after it (R346). -/
def State.closeStripe (s : State) (stream : Fin 4) : State :=
  match s.stg.openOf stream with
  | none => s
  | some x =>
    if x.xor.isEmpty then s
    else
      let p := x.next / 16
      let s1 := s.stripeParity x p
      s1.onStg (fun g => match g.dataFrom x.lun ((p + 1) * 16) with
        | some n => g.putSb { x with xor := [], next := n }
        | none => g.putSb { x with xor := [], next := 16 * g.pages, st := .closed, closedAt := s.sys.progSeq })

/-! ### The buffers of dirty clusters (R330, R398) -/

/-- The owner code of the Tether. -/
def tetherOwner : Fin 12 := 11

/-- Dirty clusters go, with their buffers. -/
def State.dropDirty (s : State) (which : DirtyCluster → Bool) : State :=
  (s.onStg (fun g => { g with dirty := g.dirty.filter (fun d => !which d) })).giveAll stagingOwner
    ((s.stg.dirty.filter which).filterMap (·.buf))

/-- The map entry that a dirty cluster's program at a location makes, of program sequence `prog` (R330): sectors of the staged version
that the new one lacks are merged. -/
def State.stagedEntry (s : State) (d : DirtyCluster) (loc : BitVec 34) (prog : Nat) : MapEntry :=
  let old := s.stg.entry? d.vid d.ucl
  { vid := d.vid, ucl := d.ucl,
    mask := (d.mask ||| (match old with | some o => o.mask | none => 0)) &&& ~~~ d.lost, loc := loc, sealed := false,
    dataSeq := d.dataSeq, progSeq := prog,
    sectors := mergeSectors (match old with | some o => o.sectors | none => []) d.sectors,
    lost := (match old with | some o => o.lost &&& ~~~ d.mask | none => 0) ||| d.lost,
    queues := (d.queues ++ (match old with | some o => o.queues | none => [])).dedup }

/-- A dirty cluster's program at a location has succeeded (R330): the map entry takes the location, a delta is journalled, and the
bytes stop being dirty, their buffer free. -/
def State.programmed (s : State) (d : DirtyCluster) (loc : BitVec 34) : State :=
  let prog := s.sys.progSeq + 1
  let e := s.stagedEntry d loc prog
  let s1 := (s.onSys (fun y => { y with progSeq := prog })).dropDirty (fun x => decide (x.vid = d.vid ∧ x.ucl = d.ucl))
  let s2 := s1.onStg (fun g =>
    { g.journalRec (.delta e) with
        map := putEntry g.map e,
        mirrored := if d.mirror then (d.vid, d.ucl) :: g.mirrored.filter (fun x => !decide (x = (d.vid, d.ucl))) else g.mirrored })
  { s2 with cmds := s2.cmds.map (fun (c : Cmd) =>
      if c.opcode = 2 ∧ c.wait = CmdWait.forwarded then c
      else { c with cover := c.cover.filter (fun x => !decide (x = (d.vid, d.ucl))) }) }

/-- The codewords that a dirty cluster's program writes. -/
def State.dirtyWords (s : State) (d : DirtyCluster) (stream : Nat) : List NandWord :=
  (s.stagedEntry d 0 (s.sys.progSeq + 1)).words stream

/-- A copy of a live cluster is programmed at a location (R337, R338): the update takes effect only while the entry still
names the old location; the data sequence is kept. -/
def State.copied (s : State) (e : MapEntry) (loc : BitVec 34) : State :=
  let prog := s.sys.progSeq + 1
  let s1 := s.onSys (fun y => { y with progSeq := prog })
  s1.onStg (fun g =>
    match g.entry? e.vid e.ucl with
    | some x =>
      if x.loc = e.loc then
        let n := { x with loc := loc, progSeq := prog }
        { g.journalRec (.delta n) with map := putEntry g.map n }
      else g
    | none => g)

/-! ### Commands that wait for NAND (R290, R294) -/

/-- Complete the Writes that wait for their clusters' programs, once these have succeeded (R23, R290). -/
def State.settleStaged (s : State) : State :=
  let done := s.cmds.filter (fun c => decide (c.wait = .staged ∧ c.opcode = 2) && c.cover.isEmpty)
  done.foldl (fun t c => t.complete c.id 0x00 0) s

/-- Complete the Flushes that wait, once their clusters are on NAND and the journal is durable (R294, R340). -/
def State.settleFlush (s : State) : State :=
  if !s.stg.journal.isEmpty then s else
  let done := s.cmds.filter (fun c => decide (c.wait = .staged ∧ c.opcode = 3) && c.cover.isEmpty)
  done.foldl (fun t c => t.complete c.id 0x00 0) s

/-! ### Retirement (R351 to R353) -/

/-- Spare blocks left in the pool of a LUN. -/
def Staging.sparesLeft (g : Staging) (c : ChanNo) (l : Fin 16) : Nat :=
  g.nand.spareCount.getD 0 - (lookupKey g.nand.sparesUsed (c.val * 16 + l.val)).getD 0

/-- Turn write-protected (R351): STG.STATE bit 1, EV_STAGING_WRITE_PROTECT. -/
def State.protectStaging (s : State) : State :=
  if s.stg.writeProt then s else (s.onStg (fun g => { g with writeProt := true })).raiseDev .stagingWriteProtect

/-- Retire a LUN (R353): EV_NAND_DIE_RETIRED; LUN_RETIRE rebuilds its clusters. -/
def State.retireLun (s : State) (c : ChanNo) (l : Fin 16) : State :=
  if s.stg.nand.retiredLuns.contains (c, l) then s else
  ((s.onStg (fun g => { g with nand := { g.nand with retiredLuns := (c, l) :: g.nand.retiredLuns } })).raiseNand c
    .nandDieRetired [.u8 l.val]).testLoses 4 (fun n => decide (n = c.val ∨ n = 255))

/-- Propose a LUN's retirement (R352, R353), and retire it under the policy. -/
def State.proposeLun (s : State) (c : ChanNo) (l : Fin 16) : State :=
  if s.stg.nand.retiredLuns.contains (c, l) then s else
  let s1 := s.raiseNand c .nandDieRetireProposed [.u8 l.val]
  if s1.dp Param.polRetireNand = 1 then s1.retireLun c l else s1

/-- Blocks retired of a LUN. -/
def Staging.retiredOf (g : Staging) (c : ChanNo) (l : Fin 16) : Nat :=
  (g.nand.retired.filter (fun r => decide (r.1 = c ∧ r.2.1 = l))).length

/-- Retire a block (R351, R352): a spare of the LUN replaces it in its superblock; with none, staging turns
write-protected. Its live clusters are to be relocated. -/
def State.retireBlock (s : State) (c : ChanNo) (l : Fin 16) (b : Nat) : State :=
  let s1 := (s.onStg (fun g => { g with nand := { g.nand with retired := (c, l, b) :: g.nand.retired } })).raiseNand c
    .nandBlockRetired [.u8 l.val, .u16 b]
  let s2 := if 0 < s1.stg.sparesLeft c l then
      s1.onStg (fun g => { g with nand := { g.nand with
        sparesUsed := insertKey g.nand.sparesUsed (c.val * 16 + l.val)
          ((lookupKey g.nand.sparesUsed (c.val * 16 + l.val)).getD 0 + 1) } })
    else s1.protectStaging
  if s2.stg.blocks * s2.dn Param.stgDieRetirePct < s2.stg.retiredOf c l * 100 then s2.proposeLun c l else s2

/-- The identity of a NAND operation in the retry log (Table 15.6): its location, and 0 read, 1 program, 2 erase from bit
40 up. -/
def nandIdentity (loc : BitVec 34) (op : Nat) : BitVec 64 := BitVec.ofNat 64 (loc.toNat + op * 2 ^ 40)

/-- Propose a block's retirement (R352), retire it under the policy, and relocate its live data; `op` is the operation
whose repeat failed at `loc`. -/
def State.proposeBlock (s : State) (loc : BitVec 34) (op : Nat) : State :=
  let c := locChan loc
  let l := locLun loc
  let b := locBlock loc
  let retire := decide (s.dp Param.polRetireNand = 1)
  let s1 := (s.raiseNand c .nandBlockRetireProposed [.u8 l.val, .u16 b]).logRetry (Ev.nand c .nandBlockRetireProposed).src 4
    true (if retire then 2 else 1) (nandIdentity loc op)
  let s2 := s1.onStg (fun g => { g with relocate := g.relocate ++
    (g.map.filter (fun e => decide (locChan e.loc = c ∧ locLun e.loc = l ∧ locBlock e.loc = b))).map (fun e => (e.vid, e.ucl)) })
  if retire then s2.retireBlock c l b else s2

/-- The classification of a failed operation that its identical repeat mends (R352, R426): EV_NAND_TRANSIENT. -/
def State.nandTransient (s : State) (loc : BitVec 34) (op : Nat) : State :=
  (s.raiseNand (locChan loc) .nandTransient [.u8 (locLun loc).val, .u16 (locBlock loc)]).logRetry
    (Ev.nand (locChan loc) .nandTransient).src 4 false 0 (nandIdentity loc op)

/-- A program of codewords on stream `stream` at the next position: on a failed status the same data goes to the next page of the same
block, and on a second failure to another superblock, with the block proposed for retirement (Table 12.8); of stream 2 it goes to
the next position of the stream, within the reserve (R346). The answer is the location that holds the data, none when no superblock
can be opened. -/
def State.program (s : State) (stream : Fin 4) (ws : List NandWord) (ok again : Bool) : Option (BitVec 34 × State) :=
  let place := fun (t : State) (r : Option (BitVec 34 × Staging)) =>
    r.map (fun x => (x.1, (({ t with stg := x.2 } : State).nandPage x.1 ws).member x.1 ws))
  match s.stg.alloc stream s.seconds s.sys.progSeq with
  | none => none
  | some (loc, g) =>
    let s0 : State := { s with stg := g }
    if ok then some (loc, (s0.nandPage loc ws).member loc ws) else
    let s1 := s0.nandPage loc ws
    if stream = 2 then place s1 (s1.stg.alloc stream s1.seconds s1.sys.progSeq)
    else if again then
      let s2 := s1.closeStripe stream
      let r := match s2.stg.allocNextPage stream loc s2.sys.progSeq with
        | some x => some x
        | none => s2.stg.alloc stream s2.seconds s2.sys.progSeq
      (place s2 r).map (fun x => (x.1, x.2.nandTransient loc 1))
    else
      let s2 := (s1.proposeBlock loc 1).closeStripe stream
      let s3 := s2.onStg (fun g => g.closeOpen stream s2.sys.progSeq)
      place s3 (s3.stg.alloc stream s3.seconds s3.sys.progSeq)

/-- The journal buffer's page is programmed in stream 3, and its records are durable (R340); none where the program cannot be
made. -/
def State.programJournal (s : State) (ok again : Bool) : Option State :=
  let prog := s.sys.progSeq + 1
  (s.program 3 (metadataWords prog) ok again).map (fun x =>
    (x.2.onSys (fun y => { y with progSeq := prog })).onStg Staging.durable)

/-- When a superblock of stream 2 is full, its deltas are journalled before the next is opened (R346). -/
def State.ventSpill (s : State) : State :=
  if (s.stg.openOf 2).isSome then s else (s.programJournal true true).getD s

/-! ### Victims (R336) -/

/-- The retention class of an accumulated age (Table 12.5), in units of 1/(360 × 65,536) hour. -/
def retentionClass (age : Nat) : Nat :=
  let h := age / (360 * 65536)
  if h < 24 then 0 else if h < 96 then 1 else if h < 384 then 2 else if h < 1536 then 3 else if h < 6144 then 4
  else if h < 24576 then 5 else if h < 98304 then 6 else 7

/-- The write temperature of a superblock: the mean over its programs (R332). -/
def Superblock.writeTemp (x : Superblock) : Int := if x.programs = 0 then 0 else x.tempSum / x.programs

/-- The retention class at which a read of a location starts (R333): that of its superblock's age, one more, to at most 7, where its
channel's temperature differs by more than 30 °C from the write temperature. -/
def Staging.readClass (g : Staging) (loc : BitVec 34) : Nat :=
  match g.sb? (locLun loc).val (locBlock loc) with
  | none => 0
  | some x =>
    let c := retentionClass x.age
    if 30 < (g.temps[locChan loc] - x.writeTemp).natAbs then min 7 (c + 1) else c

/-- Better victim: fewer live clusters, then the one closed earlier. -/
def betterVictim (g : Staging) (x y : Superblock) : Superblock :=
  let lx := (g.live x).length
  let ly := (g.live y).length
  if lx < ly then x else if ly < lx then y else if x.closedAt ≤ y.closedAt then x else y

/-- The superblock with data of the lowest erase count. -/
def leastErased (x y : Superblock) : Superblock := if y.erases < x.erases then y else x

/-- The victim of garbage collection, and whether it is selected for refresh (R329, R336): a closed superblock whose
retention class reaches STG.REFRESH_CLASS; else, when erase counts differ by more than STG.WEAR_GAP, the least erased with
data; else the one with the fewest live clusters. -/
def Staging.victim (g : Staging) (refreshClass wearGap : Nat) : Option (Superblock × Bool) :=
  let closed := g.inState .closed
  match closed.find? (fun x => decide (refreshClass ≤ retentionClass x.age)) with
  | some x => some (x, true)
  | none =>
    match closed with
    | [] => none
    | x :: rest =>
      let withData := closed.filter (fun y => !(g.live y).isEmpty)
      let hi := (withData.map (·.erases)).foldl max 0
      match withData with
      | d :: ds =>
        let least := ds.foldl leastErased d
        if least.erases + wearGap < hi then some (least, false) else some (rest.foldl (betterVictim g) x, false)
      | [] => some (rest.foldl (betterVictim g) x, false)

/-- Start garbage collection where it is wanted and none runs (R336): below STG.GC_LOW until STG.GC_HIGH, or for refresh;
never in VENT or SANITIZE. -/
def State.gcStart (s : State) : State :=
  let free := s.stg.freeCount
  let want := decide (free < s.dn Param.stgGcLow) || (s.stg.gcOn && decide (free < s.dn Param.stgGcHigh))
  let s1 := s.onStg (fun g => { g with gcOn := want })
  if s1.stg.gc.isSome || decide (s.sys.mode = .vent ∨ s.sys.mode = .sanitize) then s1 else
  match s1.stg.victim (s1.dn Param.stgRefreshClass) (s1.dn Param.stgWearGap) with
  | none => s1
  | some (x, refresh) =>
    if refresh then
      (s1.onStg (fun g => { g with gc := some (.copy, x.lun, x.block) })).raiseDev .retentionRefresh [.u8 x.lun, .u16 x.block]
    else if want && !s1.stg.writeProt then s1.onStg (fun g => { g with gc := some (.copy, x.lun, x.block) })
    else s1

/-! ### Capacity and budget (R327, R347) -/

/-- LUNs in service over all channels. -/
def Staging.lunsInService (g : Staging) : Nat := 16 * g.luns.length - g.nand.retiredLuns.length

/-- Usable capacity in bytes before the bound of the map (R327). -/
def Staging.rawUsable (g : Staging) (op : Nat) : Nat :=
  let lunBytes := g.blocks * g.pages * 65536
  g.lunsInService * lunBytes * 15 * (100 - op) / 1600
    - (16 * g.luns.length * g.nand.spareCount.getD 0 * g.pages * 65536 + g.reserveFor g.limit * g.sbBytes
       + 32 * g.pages * 65536)

/-- Usable capacity in bytes with the DRAM given in GiB: the map, 20 bytes for each cluster, takes at most a quarter of it
(R327). -/
def Staging.usable (g : Staging) (op gib : Nat) : Nat :=
  min (g.rawUsable op) (gib * 2 ^ 30 / 4 / 20 * 65536)

/-- B_vent of R347 in bytes per second, at a NAND rate in MT/s. -/
def Staging.bVent (g : Staging) (mts : Nat) : Nat :=
  min (if g.tProg = 0 then 0 else g.lunsInService * 65536 * 1000000 / g.tProg * 15 / 16) (15 * mts * 1000000)

/-- STG.VENT_BUDGET in µs (R347). -/
def Staging.ventBudget (g : Staging) (mts : Nat) : Nat :=
  let b := g.bVent mts
  if b = 0 then 20000 else g.limit * 2 ^ 20 * 1000000 / b + 20000

/-! ### Flushing every dirty cluster (R344, R346) -/

/-- Program dirty clusters to stream 2, oldest first, until none is left. -/
def State.flushDirty : (fuel : Nat) → State → State
  | 0, s => s
  | fuel + 1, s =>
    match s.stg.dirty with
    | [] => s
    | d :: _ =>
      match s.program 2 (s.dirtyWords d 2) true true with
      | some (loc, s1) => State.flushDirty fuel (s1.programmed d loc).ventSpill
      | none => s

/-- The flush of Table 12.7 from its second row: dirty clusters to stream 2, the open stripe of stream 0 closed, the journal buffer
programmed to stream 3, and a root record with the clean flag when no dirty data remains. -/
def State.flushAll (s : State) (warm : Bool) : State :=
  let s1 := ((State.flushDirty s.stg.dirty.length s).closeStripe 2).closeStripe 0
  let s2 := if s1.stg.journal.isEmpty then s1 else (s1.programJournal true true).getD (s1.onStg Staging.durable)
  (s2.closeStripe 3).writeRoot s2.stg.dirty.isEmpty warm

/-! ### Placing dirty clusters (R330, R398) -/

/-- A cluster buffer has room under the dirty limit (R24), or is there already. -/
def State.roomFor (s : State) (vid : VolId) (ucl : Nat) : Bool :=
  (s.stg.dirty? vid ucl).isSome || decide (s.stg.dirtyBytes + 65536 ≤ s.stg.limit * 2 ^ 20)

/-- Place a dirty cluster after the others, over an older one of the same cluster, whose other sectors it keeps; a newer one
of the same cluster stays (R330, R398). -/
def Staging.place (g : Staging) (d : DirtyCluster) : Staging :=
  match g.dirty? d.vid d.ucl with
  | some x =>
    if d.dataSeq < x.dataSeq then g
    else
      let n := { d with mask := x.mask ||| d.mask, sectors := mergeSectors x.sectors d.sectors,
                        lost := x.lost &&& ~~~ d.mask, queues := x.queues ++ d.queues.filter (fun q => !x.queues.contains q),
                        buf := match d.buf with | some h => some h | none => x.buf }
      { g with dirty := g.dirty.eraseP (fun y => decide (y.vid = d.vid ∧ y.ucl = d.ucl)) ++ [n] }
  | none =>
    match g.entry? d.vid d.ucl with
    | some e => if d.dataSeq < e.dataSeq then g else { g with dirty := g.dirty ++ [d] }
    | none => { g with dirty := g.dirty ++ [d] }

/-- Place a dirty cluster; a buffer that no dirty cluster holds any more is free. -/
def State.placeDirty (s : State) (d : DirtyCluster) : State :=
  let s1 := s.onStg (fun g => g.place d)
  let kept := (s1.stg.dirty? d.vid d.ucl).bind (·.buf)
  s1.giveAll stagingOwner ((d.buf.toList ++ ((s.stg.dirty? d.vid d.ucl).bind (·.buf)).toList).filter (fun h => decide (some h ≠ kept)))

/-- Place sectors in the DRAM buffer of a cluster (R330): the buffer that it has, else one taken for it; not done where Ballast has
none. -/
def State.placeNew (s : State) (d : DirtyCluster) : State :=
  if (s.stg.dirty? d.vid d.ucl).isSome then s.placeDirty d
  else match s.ballastTake stagingOwner 65536 with
    | (t, some h) => t.placeDirty { d with buf := some h }
    | (t, none) => t

/-- The Tether takes a Ballast buffer for a mirror message, where it has none yet (R398). -/
def State.tetherBuf (s : State) (d : DirtyCluster) : State × DirtyCluster :=
  if d.buf.isSome then (s, d)
  else match s.ballastTake tetherOwner 65536 with
    | (t, h) => (t, { d with buf := h })

/-- The mirror messages that wait are dropped, the Tether's buffers with them (R377). -/
def State.dropUncommitted (s : State) : State :=
  (s.onPair (fun q => { q with uncommitted := [] })).giveAll tetherOwner (s.pair.uncommitted.filterMap (·.2.buf))

/-- Take a mirror copy into staging, its buffer passed on, and commit it (R398). -/
def State.acceptMirror (s : State) (msg : BitVec 32) (d : DirtyCluster) : State :=
  let s1 := (s.passAll tetherOwner d.buf.toList stagingOwner).placeDirty d
  let s2 := { s1 with cmds := s1.cmds.map (fun (c : Cmd) =>
    if c.opcode = 2 ∧ c.wait = CmdWait.forwarded then { c with cover := c.cover.filter (fun x => !decide (x = (d.vid, d.ucl))) }
    else c) }
  s2.send 0x11 [msg.toNat]

/-- Commit the mirror messages that waited for a staging buffer, as far as there is room (R398). -/
def State.settleMirrors : (fuel : Nat) → State → State
  | 0, s => s
  | fuel + 1, s =>
    match s.pair.uncommitted with
    | [] => s
    | (msg, d) :: rest =>
      let (s1, d1) := s.tetherBuf d
      if d1.buf.isSome && s1.roomFor d.vid d.ucl then
        State.settleMirrors fuel ((s1.onPair (fun q => { q with uncommitted := rest })).acceptMirror msg d1)
      else s1.onPair (fun q => { q with uncommitted := (msg, d1) :: rest })

end Sys2Proof.Machine
end

