-- ==== Sys2Proof/Machine/MemoryOps.lean ====
section
/-! DEFINITION. Shared operations of memory: DRAM bytes, the error FIFO and page retirement (R364, R370, R371), bus errors (R365), triplicated words (R367, R368) and the engine cache (R378 to R384). -/

namespace Sys2Proof.Machine

/-! ### DRAM bytes -/

/-- The byte at a DRAM address: 0 where nothing is listed (R366, log entry 15). -/
def memByte (cells : List Host.Cell) (a : Nat) : Byte := (lookupKey cells a).getD 0

/-- Put a byte at a DRAM address; a byte equal to 0 is not listed. -/
def memPut (cells : List Host.Cell) (a : Nat) (v : Byte) : List Host.Cell :=
  if v = 0 then eraseKey cells a else insertKey cells a v

/-- `n` bytes from an address, as a number (R7). -/
def memRead (cells : List Host.Cell) (a n : Nat) : Nat := ofLeBytes ((List.range n).map (fun i => memByte cells (a + i)))

/-- Put bytes from an address up. -/
def memWrite : (cells : List Host.Cell) → (a : Nat) → List Byte → List Host.Cell
  | cells, _, [] => cells
  | cells, a, v :: rest => memWrite (memPut cells a v) (a + 1) rest

/-- The canonical form of the list of DRAM bytes: addresses strictly rising, no byte equal to 0. -/
def cellsWf : List Host.Cell → Bool
  | [] => true
  | [c] => decide (c.2 ≠ 0)
  | c :: d :: rest => decide (c.2 ≠ 0 ∧ c.1 < d.1) && cellsWf (d :: rest)

/-- Memory is in its canonical form. -/
def Memory.wf (m : Memory) : Bool := cellsWf m.cells

/-- Bytes of populated DRAM. -/
def Memory.bytes (m : Memory) : Nat := m.gib * 2 ^ 30

/-- A 64-byte line of DRAM by its line address. -/
def Memory.line (m : Memory) (l : BitVec 34) : BitVec 512 := BitVec.ofNat 512 (memRead m.cells (l.toNat * 64) 64)

/-- Write a 64-byte line. -/
def Memory.putLine (m : Memory) (l : BitVec 34) (d : BitVec 512) : Memory :=
  { m with cells := memWrite m.cells (l.toNat * 64) (leBytes 64 d.toNat) }

/-- Firmware sets SCRUB_INTERVAL, in 10 ns, so that one pass over the DRAM takes MEM.SCRUB_PERIOD (R369), and places
CACHE.PREFETCH in CACHE_CTRL (Table 13.12). -/
def State.setMemRegs (s : State) : State :=
  let blocks := s.mem.gib * 2 ^ 23
  let ticks := if blocks = 0 then 0 else (s.dn Param.memScrubPeriod * 360000000000 + blocks / 2) / blocks
  s.onMem (fun m => { m with scrubInterval := BitVec.ofNat 32 ticks,
                             cache := { m.cache with prefetch := decide (s.dp Param.cachePrefetch = 1) } })

/-! ### Page retirement (R371) -/

/-- Propose a DRAM page for retirement, and retire it under the policy: a full list carries nothing out. -/
def State.proposePage (s : State) (page : Nat) : State :=
  if s.flash.retiredPages.contains page then s else
  let s1 := s.raiseDev .dramPageRetireProposed
  if s1.dp Param.polRetireDramPage ≠ 1 then s1
  else if 4096 ≤ s1.flash.retiredPages.length then s1.raiseDev .retiredListFull
  else
    (((s1.onFlash (fun f => { f with retiredPages := f.retiredPages ++ [page] })).applyRetired page).raiseDev .dramPageRetired).testLoses 3
      (fun _ => true)

/-- Count a corrected persistent read of a page, and propose it at MEM.RETIRE_CE within 24 h (R371). -/
def State.countPageCe (s : State) (page : Nat) : State :=
  let now := s.sys.time
  let recent := ((lookupKey s.mem.pageCe page).getD []).filter (fun t => decide (now.toNat < t.toNat + 86400000000))
  let all := now :: recent
  let s1 := s.onMem (fun m => { m with pageCe := insertKey m.pageCe page all })
  if s.dn Param.memRetireCe ≤ all.length then s1.proposePage page else s1

/-! ### Reads (R364, R370) -/

/-- Place an entry in the error FIFO; DERR_LOST counts it when the FIFO is full (R370). -/
def Memory.pushError (m : Memory) (e : DramError) : Memory :=
  let m1 := if e.kind < 2 then { m with ceCount := satInc (2 ^ 64 - 1) m.ceCount }
            else { m with ueCount := satInc (2 ^ 64 - 1) m.ueCount }
  if m.fifo.length < 64 then { m1 with fifo := m1.fifo ++ [e] }
  else { m1 with derrLost := m1.derrLost + 1, lostCount := m1.lostCount + 1 }

/-- The bytes of the block at an address as an error of its 80 symbols leaves them. -/
def Memory.spoil (m : Memory) (addr : Nat) (wrong : List Nat) : Memory :=
  if wrong.all (· == 0) then m
  else
    let base := addr / 128 * 128
    { m with cells := memWrite m.cells base ((List.range 128).map (fun i => memByte m.cells (base + i) ^^^ Config.dramFlips wrong i)) }

/-- How a block read ends: what stays of an error in the data it delivers, none where it delivers none, and the state after its
correction, repeat, events and records (R362, R364); `source` is 0 read, 1 read-modify-write, 2 scrubber. A corrected block is
written back. A second read that does not decode counts as one that needs correction again (log entry 108). -/
def State.dramResult (s : State) (addr : BitVec 40) (source : Nat) (o : DramObs) : Option (List Nat) × State :=
  let block : BitVec 33 := BitVec.ofNat 33 (addr.toNat / 128)
  let page := addr.toNat / 4096
  let entry := fun (chip : BitVec 5) (sym : Byte) (kind : Nat) =>
    ({ time := s.sys.time, block := block, rank := o.rank, chip := chip, symbols := sym, kind := kind, source := source,
       count := 1 } : DramError)
  match dramDecode s.mem.x8 o.first with
  | .clean wrong => (some wrong, s)
  | .corrected chip sym wrong =>
    let second := match dramDecode s.mem.x8 o.again with | .clean _ => true | _ => false
    let s1 := s.onMem (fun m =>
      (m.spoil addr.toNat wrong).pushError (entry (BitVec.ofNat 5 chip) (BitVec.ofNat 8 sym) (if second then 0 else 1)))
    let s2 := s1.logRetry (DevEvent.source .dramCorrected) 3 (!second) 0 (BitVec.ofNat 64 block.toNat)
    if second then (some [], s2.raiseDev .dramCorrected)
    else (some [], (s2.raiseAt (.dev .dramCorrected) .warning []).countPageCe page)
  | .uncorrectable =>
    let (a, s1) := s.freeInt 3
    let (c, s2) := s1.freeInt 4
    let failed := fun (kind : Nat) => s2.onMem (fun m => m.pushError (entry (BitVec.ofInt 5 a) (BitVec.ofInt 8 c) kind))
    let passes := fun (wrong : List Nat) =>
      (some wrong, ((failed 2).logRetry (DevEvent.source .dramTransient) 3 false 0 (BitVec.ofNat 64 block.toNat)).raiseDev .dramTransient)
    match dramDecode s.mem.x8 o.again with
    | .clean wrong => passes wrong
    | .corrected _ _ wrong => passes wrong
    | .uncorrectable =>
      let action := if s2.dp Param.polRetireDramPage = 1 then 2 else 1
      (none, (failed 3).logRetry (DevEvent.source .dramUncorrected) 3 true action (BitVec.ofNat 64 block.toNat))

/-! ### Bus errors (R365) -/

/-- The number of an engine within its kind. -/
def engineIndex : EngineId → Nat
  | .q n => n.val | .s n => n.val | .f n => n.val | .m n => n.val

/-- A requester's position in Table 13.2. -/
def requesterCode : Requester → Nat
  | .core _ => 0 | .engine _ => 1 | .hostPort _ => 2 | .collector _ _ _ => 3 | .flash _ _ _ => 4 | .tether _ => 5
  | .cacheFill _ => 6

/-- A data abort: EV_BUS_ERROR with the requester and address. -/
def State.abort (s : State) (r : Requester) (addr : BitVec 40) : State :=
  (s.emit (.busError r)).raiseDev .busError [.u8 (requesterCode r), .u64 addr.toNat]

/-- The sector of a dirty cluster that cannot be read from DRAM (R365): in a Mirrored volume with a live peer it is fetched
from the peer's mirror copy; otherwise its mask bit is cleared and it is to be recorded lost, and EV_DRAM_UNCORRECTED names
the volume and LBA. -/
def State.dirtyLost (s : State) (vid : VolId) (ucl : Nat) (sector : Fin 16) : State :=
  let mirrored := match s.vol? vid with
    | some v => decide (v.durability = 2)
    | none => false
  if mirrored && s.tetherLive then s.raiseDev .dramUncorrected else
  (s.onStg (fun g => { g with dirty := updateFirst (fun d => decide (d.vid = vid ∧ d.ucl = ucl)) (fun d =>
    { d with mask := setBit d.mask sector.val false, lost := setBit d.lost sector.val true,
             sectors := eraseKey d.sectors sector.val }) g.dirty })).raiseDev .dramUncorrected
      [.u16 vid.toNat, .u32 (ucl * 16 + sector.val)]

/-- The effect of a bus error on its requester (Table 13.2). The failing data is given to none. -/
def State.busErrorTo (s : State) (r : Requester) (addr : BitVec 40) : State :=
  match r with
  | .core _ => (s.raiseDev .dramUncorrected).abort r addr
  | .engine _ => (s.raiseDev .dramUncorrected).abort r addr
  | .hostPort c => ((s.raiseDev .dramUncorrected).emit (.busError r)).complete c 0x51 0
  | .collector b entry cw =>
    ((s.raiseDev .dramUncorrected).emit (.busError r)).onDec b (fun d =>
      { d with entries := updateKey d.entries entry.val (fun e =>
          { e with cws := if h : cw < 36 then e.cws.set cw .failed h else e.cws }) })
  | .flash v u sec => (s.dirtyLost v u sec).emit (.busError r)
  | .tether c => ((s.raiseDev .dramUncorrected).emit (.busError r)).complete c 0x51 0
  | .cacheFill _ =>
    let l : BitVec 34 := BitVec.ofNat 34 (addr.toNat / 64)
    ((s.raiseDev .dramUncorrected).abort r addr).onCache (fun k =>
      { k with fills := k.fills.filter (fun f => !decide (f.1 = l)), waiting := k.waiting.filter (fun w => !decide (w.1 = l)) })

/-! ### Triplicated words (R367, R368) -/

/-- The pair role word that 64 bits spell (Table 14.1). -/
def roleOfWord (w : BitVec 64) : RoleWord :=
  { role := BitVec.ofNat 8 (field w 56 8), peer := BitVec.ofNat 32 (field w 24 32), seq := BitVec.ofNat 24 (field w 0 24) }

/-- The 32 bytes of the progress record (R309). -/
def Progress.bytes (p : Progress) : List Byte :=
  leBytes 1 p.op ++ leBytes 1 p.state ++ leBytes 2 p.target.toNat ++ leBytes 4 p.steps ++ leBytes 4 p.total
    ++ leBytes 4 p.cycles ++ [p.status] ++ leBytes 15 0

/-- The progress record that 32 bytes spell (R309). -/
def progressOfBytes (bs : List Byte) : Progress :=
  let n := fun (off len : Nat) => ofLeBytes ((bs.drop off).take len)
  { op := n 0 1, state := n 1 1, target := BitVec.ofNat 16 (n 2 2), steps := n 4 4, total := n 8 4, cycles := n 12 4,
    status := BitVec.ofNat 8 (n 16 1) }

/-- The set of a triplicated word (Table 13.3). -/
def setOfWord (w : Nat) : TripleSet :=
  if w < 8 then .servoLimits else if w < 10 then .mapRoot else if w < 26 then .ventDesc else if w = 26 then .pairRole
  else .progress

/-- The position of a set in Table 13.3. -/
def tripleSetCode : TripleSet → Nat
  | .servoLimits => 0 | .mapRoot => 1 | .ventDesc => 2 | .pairRole => 3 | .progress => 4

/-- The value of a word in bank A. -/
def Triple.get (t : Triple) (w : Fin 31) : BitVec 64 := t.banks[0][w]

/-- The bitwise two-of-three majority. -/
def majority (a b c : BitVec 64) : BitVec 64 := (a &&& b) ||| (a &&& c) ||| (b &&& c)

/-- The pair role and the progress record follow the words that hold them. -/
def State.syncTriple (s : State) : State :=
  let t := s.mem.triple
  let bs := [t.get 27, t.get 28, t.get 29, t.get 30].flatMap (fun w => leBytes 8 w.toNat)
  (s.onPair (fun q => { q with role := roleOfWord (t.get 26) })).onSys (fun y => { y with progress := progressOfBytes bs })

/-- Write the pair role word (R389). -/
def State.setRole (s : State) (r : RoleWord) : State :=
  (s.onMem (fun m => { m with triple := m.triple.put 26 r.word })).onPair (fun q => { q with role := r })

/-- Write the progress record (R313), in the triplicated words and the boot flash. -/
def State.setProgress (s : State) (p : Progress) : State :=
  let w := fun (k : Nat) => BitVec.ofNat 64 (ofLeBytes ((p.bytes.drop (8 * k)).take 8))
  ((s.onMem (fun m => { m with triple := m.triple.putAll [(27, w 0), (28, w 1), (29, w 2), (30, w 3)] })).onSys
    (fun y => { y with progress := p })).onFlash (fun f => { f with progress := p })

/-- The smaller in magnitude of two 16-bit signed codes. -/
def nearerZero (a b : BitVec 16) : BitVec 16 := if a.toInt.natAbs ≤ b.toInt.natAbs then a else b

/-- What the servo output stage uses when the two good banks of a limit word disagree (R368): for each of its four fields the
smaller magnitude. -/
def limitsNearer (a b : BitVec 64) : BitVec 64 :=
  BitVec.ofNat 64 (((List.range 4).map (fun k =>
    (nearerZero (BitVec.ofNat 16 (field a (16 * k) 16)) (BitVec.ofNat 16 (field b (16 * k) 16))).toNat * 2 ^ (16 * k))).sum)

/-! ### The engine cache (R378 to R384) -/

/-- Set of a line. -/
def lineSet (l : BitVec 34) : Nat := l.toNat % 4096
/-- Tag of a line. -/
def lineTag (l : BitVec 34) : BitVec 22 := BitVec.ofNat 22 (l.toNat / 4096)
/-- Line address of a set and tag. -/
def lineOf (set : Nat) (tag : BitVec 22) : BitVec 34 := BitVec.ofNat 34 (tag.toNat * 4096 + set)

/-- The way that holds a line, if it hits. -/
def EngineCache.way? (k : EngineCache) (l : BitVec 34) : Option Nat :=
  (List.range 16).find? (fun w => match lookupKey k.lines (lineSet l * 16 + w) with
    | some x => decide (x.tag = lineTag l)
    | none => false)

/-- The data of a line in the side buffer. -/
def EngineCache.side? (k : EngineCache) (l : BitVec 34) : Option (BitVec 512) :=
  (k.side.find? (fun x => decide (x.1 = l))).map (·.2)

/-- A fill of the line is in progress or held. -/
def EngineCache.filling (k : EngineCache) (l : BitVec 34) : Bool := k.fills.any (fun f => decide (f.1 = l))

/-- The writeback of the line is not accepted yet. -/
def EngineCache.leaving (k : EngineCache) (l : BitVec 34) : Bool := k.evicted.any (fun e => decide (e.1 = l))

/-- The 16-bit LFSR x^16 + x^14 + x^13 + x^11 + 1 advances (R378, log entry 7). -/
def lfsrNext (x : BitVec 16) : BitVec 16 :=
  let bit := (bitAt x 0).xor ((bitAt x 2).xor ((bitAt x 3).xor (bitAt x 5)))
  (x >>> 1) ||| BitVec.ofNat 16 (2 ^ 15 * b2n bit)

/-- The way a miss of a line takes (R378): the lowest-numbered invalid way that no fill has taken, else the LFSR's; the LFSR
advances. -/
def EngineCache.chooseWay (k : EngineCache) (l : BitVec 34) : Fin 16 × EngineCache :=
  let taken := fun (w : Fin 16) => (lookupKey k.lines (lineSet l * 16 + w.val)).isSome
    || k.fills.any (fun f => decide (lineSet f.1 = lineSet l ∧ f.2.1 = w))
  let w := ((List.finRange 16).find? (fun w => !taken w)).getD (Config.victimWay k.lfsr)
  (w, { k with lfsr := lfsrNext k.lfsr })

/-- Empty a way of a line's set: a dirty line goes to the DRAM controller and no longer hits (R378, R382). -/
def EngineCache.evict (k : EngineCache) (l : BitVec 34) (w : Fin 16) : EngineCache :=
  let key := lineSet l * 16 + w.val
  match lookupKey k.lines key with
  | none => k
  | some x =>
    { k with lines := eraseKey k.lines key,
             evicted := if x.dirty then k.evicted ++ [(lineOf (lineSet l) x.tag, x.data)] else k.evicted }

/-- Place a clean line in a way. -/
def EngineCache.install (k : EngineCache) (l : BitVec 34) (w : Fin 16) (d : BitVec 512) : EngineCache :=
  let k1 := k.evict l w
  { k1 with lines := insertKey k1.lines (lineSet l * 16 + w.val) { tag := lineTag l, dirty := false, data := d } }

/-- The 8 bytes of a line at the 8-byte boundary at or below an address. -/
def lineWord (d : BitVec 512) (addr : BitVec 40) : BitVec 64 := BitVec.ofNat 64 (field d (addr.toNat % 64 / 8 * 64) 64)

/-- A line with 8 bytes replaced. -/
def lineStore (d : BitVec 512) (addr : BitVec 40) (v : BitVec 64) : BitVec 512 :=
  let sh := addr.toNat % 64 / 8 * 64
  (d &&& ~~~ (BitVec.ofNat 512 ((2 ^ 64 - 1) * 2 ^ sh))) ||| BitVec.ofNat 512 (v.toNat * 2 ^ sh)

/-- Serve an access from the way that holds its line. -/
def State.cacheServe (s : State) (l : BitVec 34) (addr : BitVec 40) (a : CoreAccess) : State :=
  match s.mem.cache.way? l with
  | none => s
  | some w =>
    let key := lineSet l * 16 + w
    match a with
    | .load =>
      match lookupKey s.mem.cache.lines key with
      | some x => s.emit (.coreRead (lineWord x.data addr))
      | none => s
    | .store v => s.onCache (fun k => { k with lines := updateKey k.lines key (fun x =>
        { x with dirty := true, data := lineStore x.data addr v }) })

/-- Fetch a line into the side buffer (R379), where neither the cache, the side buffer nor a transfer has it. -/
def State.prefetchLine (s : State) (n : Nat) : State :=
  let l : BitVec 34 := BitVec.ofNat 34 n
  let k := s.mem.cache
  if s.mem.bytes < (n + 1) * 64 ∨ (k.way? l).isSome ∨ (k.side? l).isSome ∨ k.filling l ∨ k.leaving l then s
  else s.onCache (fun k =>
    let all := k.side ++ [(l, s.mem.line l)]
    { k with side := all.drop (all.length - 16) })

/-- A miss of a core on a line (R379): a miss on the line after its last fetches the next two. -/
def State.noteMiss (s : State) (c : CoreNo) (l : BitVec 34) : State :=
  let seq := match s.mem.cache.lastMiss[c] with
    | some p => decide (p.toNat + 1 = l.toNat)
    | none => false
  let s1 := s.onCache (fun k => { k with lastMiss := k.lastMiss.set c.val (some l) c.isLt })
  if seq && s.mem.cache.prefetch then (s1.prefetchLine (l.toNat + 1)).prefetchLine (l.toNat + 2) else s1

/-- Write back a line that the cache holds dirty; it stays, clean. -/
def Memory.cleanLine (m : Memory) (l : BitVec 34) : Memory :=
  match m.cache.way? l with
  | none => m
  | some w =>
    let key := lineSet l * 16 + w
    match lookupKey m.cache.lines key with
    | some x =>
      if x.dirty then
        { m.putLine l x.data with cache := { m.cache with lines := updateKey m.cache.lines key (fun y => { y with dirty := false }) } }
      else m
    | none => m

/-- Drop a line from the cache and the side buffer. -/
def Memory.dropLine (m : Memory) (l : BitVec 34) : Memory :=
  { m with cache := { m.cache with
      lines := match m.cache.way? l with
        | some w => eraseKey m.cache.lines (lineSet l * 16 + w)
        | none => m.cache.lines,
      side := m.cache.side.filter (fun x => !decide (x.1 = l)) } }

/-- Maintenance by address applied (Table 13.8, codes 1 to 3). -/
def Memory.maintLineOp (m : Memory) (code : Nat) (l : BitVec 34) : Memory :=
  match code with
  | 1 => m.dropLine l
  | 2 => m.cleanLine l
  | _ => (m.cleanLine l).dropLine l

/-- Start maintenance by address (R381, R382): ignored with REJECT while an operation runs; it waits for a fill in progress
or an eviction of the line. -/
def State.maintByAddress (s : State) (code : Nat) : State :=
  let k := s.mem.cache
  let l := k.maintLine
  if k.busy then s.onCache (fun k => { k with reject := true })
  else if k.filling l || k.leaving l then s.onCache (fun k => { k with busy := true, maintWait := some (code, l) })
  else s.onMem (fun m => m.maintLineOp code l)

/-- Write back every dirty line. -/
def Memory.cleanAll (m : Memory) : Memory :=
  m.cache.lines.foldl (fun acc kv =>
    if kv.2.dirty then
      { acc.putLine (lineOf (kv.1 / 16) kv.2.tag) kv.2.data with
          cache := { acc.cache with lines := updateKey acc.cache.lines kv.1 (fun y => { y with dirty := false }) } }
    else acc) m

/-- Every line invalid. -/
def Memory.invalidateAll (m : Memory) : Memory := { m with cache := { m.cache with lines := [], side := [] } }

/-- An "all" operation (R381): ignored with REJECT while an operation runs. -/
def State.maintAll (s : State) (f : Memory → Memory) : State :=
  if s.mem.cache.busy then s.onCache (fun k => { k with reject := true }) else s.onMem f

/-- Maintenance that waits for the line is applied, and BUSY falls (R382). -/
def State.maintRelease (s : State) (l : BitVec 34) : State :=
  match s.mem.cache.maintWait with
  | none => s
  | some (code, m) =>
    if m = l then
      (s.onMem (fun m => m.maintLineOp code l)).onCache (fun k => { k with busy := false, maintWait := none })
    else s

/-- The control cores run and reach DRAM: out of power-on reset and FILL (R366), with no loss of the root or DDR PLL
(R28, R433). -/
def State.coresRun (s : State) : Bool := decide (2 ≤ s.sys.mode.code) && !s.sys.pllLost[0] && !s.sys.pllLost[1]

end Sys2Proof.Machine
end

