-- ==== Sys2Proof/Machine/PairOps.lean ====
section
/-! DEFINITION. Shared operations of the pair: durability points (R23, R290), mirror messages (R398), the end of mirroring and resync (R401), takeover (R402), leaving and returning (R405 to R408). -/

namespace Sys2Proof.Machine

/-! ### Durability (R23, R290) -/

/-- The completion points of R23. -/
inductive Point where
  | buffered | mirrored | staged
  deriving DecidableEq, Repr

/-- The device is in a pair: its role word is not 0 (R389). -/
def State.inPair (s : State) : Bool := decide (s.pair.role.role ≠ 0)

/-- The point a durability code names now (R290): a Mirrored volume with no live peer completes at Staged. -/
def State.pointOf (s : State) (code : Byte) : Point :=
  let mir := if s.mirrors then Point.mirrored else Point.staged
  match code.toNat with
  | 1 => .buffered
  | 2 => mir
  | 3 => .staged
  | _ => if s.inPair then mir else .buffered

/-- The completion point of a Write (R290): Staged under flag bit 2. -/
def State.point (s : State) (c : Cmd) : Point := if bitAt c.flags 2 then .staged else s.pointOf c.code

/-! ### Mirroring (R397, R398) -/

/-- Clusters of a command's range: first and count. -/
def Cmd.clusters (c : Cmd) : Nat × Nat :=
  if c.count = 0 then (c.lba / 16, 0) else (c.lba / 16, (c.lba + c.count - 1) / 16 - c.lba / 16 + 1)

/-- The pairs (volume, cluster) of a command's range. -/
def Cmd.clusterList (c : Cmd) : List (VolId × Nat) :=
  (List.range c.clusters.2).map (fun k => (c.vid, c.clusters.1 + k))

/-- Send a mirror data message for a cluster as it now stands, with the message's number (R398); `own`, the peer holds the
data already as the buffer of the Write it forwarded (R399). -/
def State.sendMirror (s : State) (vid : VolId) (ucl : Nat) (own : Bool) : State :=
  let (mask, dseq, sectors) := match s.stg.dirty? vid ucl, s.stg.entry? vid ucl with
    | some d, _ => (d.mask, d.dataSeq, d.sectors)
    | none, some e => (e.mask, e.dataSeq, e.sectors)
    | none, none => (0, 0, [])
  let msg := s.pair.nextMsg
  let data := if own then [] else (List.range 16).flatMap (fun k => sectorBytes ((lookupKey sectors k).getD 0))
  (s.onPair (fun q => { q with mirrorOut := q.mirrorOut ++ [(msg, vid, ucl, dseq)] })).sendAbout 0x10 vid ucl dseq
    (data ++ leBytes 2 mask.toNat) (if own then 2 else 65538)

/-- Whether a mirror message belongs to a Write whose first message was `first`. -/
def msgOf (first : BitVec 32) (n : Nat) (m : BitVec 32) : Bool := decide ((m - first).toNat < n)

/-- A Write has all its mirror commits: it waits for its NAND programs if its point is Staged, and completes otherwise
(R398). -/
def State.mirrorDone (s : State) (c : Cmd) : State :=
  if s.point c = .staged ∧ !c.cover.isEmpty then s.setWait c.id .staged else s.complete c.id 0x00 0

/-- Let the Writes go on whose mirror messages are all committed. -/
def State.settleMirrorOut (s : State) : State :=
  let done := s.cmds.filter (fun c => match c.wait with
    | .mirror first => !(s.pair.mirrorOut.any (fun m => msgOf first c.clusters.2 m.1))
    | _ => false)
  done.foldl (fun t c => t.mirrorDone c) s

/-- Clusters of this device's own volumes that are dirty or staged here. -/
def State.ownClusters (s : State) : List (VolId × Nat) :=
  let own := fun (v : VolId) => match s.vol? v with
    | some x => !x.ownPeer
    | none => false
  ((s.stg.dirty.filter (fun d => !d.mirror && own d.vid)).map (fun d => (d.vid, d.ucl))
    ++ (s.stg.map.filter (fun e => own e.vid && !s.stg.mirrored.contains (e.vid, e.ucl))).map (fun e => (e.vid, e.ucl))).dedup

/-- Send clusters as mirror data, with the bytes counted (R401, R405). -/
def State.sendClusters (s : State) (xs : List (VolId × Nat)) : State :=
  (xs.foldl (fun t x => t.sendMirror x.1 x.2 false) s).onPair (fun q => { q with resyncBytes := q.resyncBytes + 65536 * xs.length })

/-- Start the resync that ends Tether degraded: the release records of clusters released meanwhile, then the clusters that the peer has
no mirror of (R401). -/
def State.startTetherResync (s : State) : State :=
  let xs := s.pair.unmirrored
  let gone := s.pair.unreleased
  let s1 := if gone.isEmpty then s else s.send 0x12 (gone.flatMap (fun x => [x.1.toNat, x.2]))
  (s1.onPair (fun q => { q with resync := some .tether, resyncBytes := 0, unreleased := [] })).sendClusters xs

/-- Writes that wait for a mirror commit complete at the point of R23 (R401), and their clusters count as not mirrored. -/
def State.mirrorLost (s : State) : State :=
  let xs := s.pair.mirrorOut.map (fun m => (m.2.1, m.2.2.1))
  let s1 := s.onPair (fun q => { q with mirrorOut := [], unmirrored := (q.unmirrored ++ xs).dedup })
  s1.settleMirrorOut

/-- Forwarded commands that have no completion complete with a status. -/
def State.failForwarded (s : State) (status : Byte) : State :=
  let xs := s.cmds.filter (fun c => decide (c.wait = .forwarded))
  xs.foldl (fun t c => t.complete c.id status 0) s

/-- A Move Disc that was forwarded to the peer and is not answered ends with a status (R262, R399). -/
def State.failForwardedMove (s : State) (status : Byte) : State :=
  if s.hnd.sent.isSome then
    match s.hnd.sent with
    | some (src, dst) => (s.onHnd (fun h => { h with sent := none })).orderEnded src dst 0x26
    | none => s
  else if s.hnd.move.isSome then s
  else match s.runPort (fun w => decide (w = .moveDisc)) with
    | some p => s.answerRun p status
    | none => s

/-- The Tether-degraded latch is set (R400, R401). -/
def State.degrade (s : State) : State :=
  let s1 := (s.onPair (fun q => { q with degraded := true, resync := none })).raiseDev .tetherDegraded
  ((s1.failForwarded 0x26).failForwardedMove 0x26).mirrorLost

/-! ### Roles -/

/-- Write the pair role word and its copy, the persistent pair record (R389); a standalone device has no record. -/
def State.setPairRole (s : State) (r : RoleWord) : State :=
  (s.setRole r).onFlash (fun f => { f with
    pairRecord := if r.role = 0 then none else some r,
    pairVolumes := if r.role = 0 then [] else (s.vols.filter (fun v => !v.ownPeer)).map (·.vid) })

/-- The pair role word goes to the peer, at join, hand-over and hand-back (Table 14.4). -/
def State.tellRole (s : State) : State := if s.tetherLive then s.send 0x30 [s.pair.role.word.toNat] else s

/-- The role by identity number (R389): the first member is the device with the lower one. -/
def memberRole (own peer : BitVec 32) : BitVec 8 := if own.toNat < peer.toNat then 1 else 2

/-- The pair has the higher of two sequences, plus one. -/
def seqAbove (a b : BitVec 24) : BitVec 24 := (if a.toNat ≤ b.toNat then b else a) + 1

/-- Discard the dirty and staged data of volumes (R406, R407); their releases are journalled. -/
def State.discardData (s : State) (which : VolId → Bool) : State :=
  (s.dropDirty (fun d => which d.vid)).onStg (fun g =>
    let gone := g.map.filter (fun e => which e.vid)
    { g with map := g.map.filter (fun e => !which e.vid),
             mirrored := g.mirrored.filter (fun x => !which x.1),
             journal := g.journal ++ gone.map (fun e => JournalRec.release e.vid e.ucl) })

/-- Unbind volumes. -/
def State.unbind (s : State) (which : VolId → Bool) : State :=
  ({ s with vols := s.vols.filter (fun v => !which v.vid) }).saveVols

/-- The volumes owned by the peer. -/
def State.peerVol (s : State) (v : VolId) : Bool :=
  match s.vol? v with
  | some x => x.ownPeer
  | none => false

/-- Discard the mirror copies held for the peer and its volume records (R406). -/
def State.dropMirrors (s : State) : State :=
  let keep := s.vols
  let which := fun (v : VolId) => match keep.find? (fun x => decide (x.vid = v)) with
    | some x => x.ownPeer
    | none => false
  (((s.discardData which).unbind which).dropUncommitted).onPair (fun q => { q with taken := [] })

/-- The pair ends for this device (R406): the record is cleared, the role is 0, and no latch or resync stands. -/
def State.endPair (s : State) : State :=
  (((s.dropUncommitted).setPairRole .reset).onPair (fun q =>
    { q with degraded := false, brokenWire := false, lostRaised := false, takeover := none, awaiting := false,
             resync := none, mirrorOut := [], unmirrored := [], unreleased := [], handover := false, darkWait := false,
             taken := [] }))

/-! ### Takeover (R400, R402) -/

/-- Both indications of R400 hold: PEER_OK_IN inactive and the heartbeat missing. -/
def State.bothLost (s : State) : Bool := !s.pair.peerOkIn && !s.pair.hbLive

/-- A takeover may follow (R400). -/
def State.mayTakeOver (s : State) : Bool :=
  s.bothLost && decide (s.dp Param.polTakeover = 1) && !s.pair.degraded && !s.pair.brokenWire

/-- Detection (Table 14.6): mode TAKEOVER, EV_TAKEOVER_START, mirror messages not yet committed discarded; the steps of a
takeover cut short stand (R408). With no live peer, Writes that wait for a mirror commit go on at the point of R290. -/
def State.startTakeover (s : State) : State :=
  let s1 := (s.setMode .takeover).raiseDev .takeoverStart
  (s1.dropUncommitted.onPair (fun q =>
    { q with darkWait := false, resync := none,
             takeover := some (q.takeover.getD { roleWritten := false, committed := false, resolved := false }) })).mirrorLost

/-- EV_PEER_LOST, once for a loss (R400); with no live peer, Writes that wait for a mirror commit go on at the point of R290. -/
def State.peerLost (s : State) : State :=
  if s.pair.lostRaised then s.mirrorLost
  else ((s.onPair (fun q => { q with lostRaised := true })).raiseDev .peerLost).mirrorLost

/-- Both indications have come to hold (R400, Table 14.7): takeover in PAIRED; in a mode entered from PAIRED, EV_PEER_LOST at
once and the takeover at its return; during VENT the Vent covers the mirror copies (R30). -/
def State.judgeBoth (s : State) : State :=
  match s.sys.mode with
  | .paired => if s.mayTakeOver then s.startTakeover else s.peerLost
  | .vent => (if s.mayTakeOver then s.onSys (fun y => { y with ventTakeover := true }) else s).mirrorLost
  | _ => s.peerLost

/-- Return to a mode, and judge the peer again when that is PAIRED (Table 14.7). -/
def State.returnTo (s : State) (m : Mode) : State :=
  let s1 := s.setMode m
  if decide (s1.sys.mode = .paired) && s1.mayTakeOver then s1.startTakeover else s1

/-- A Join ends with a status (R405): both devices stay STANDALONE and discard the copies received. -/
def State.failJoin (s : State) (status : Byte) : State :=
  let s1 := (s.dropMirrors).onPair (fun q => { q with resync := none, mirrorOut := [], unmirrored := [] })
  match s1.runPort (fun w => decide (w = .join)) with
  | some p => s1.respondRun p status
  | none => s1

/-- The Tether stops carrying flits (R391, R394): a Join resync ends (R405). -/
def State.tetherStops (s : State) (dest : TetherSt) : State :=
  let s1 := s.onPair (fun q => { q with link := dest, failed := 0, replays := 0, badLanes := 0 })
  if s.pair.resync = some .join ∧ dest = .down then s1.failJoin 0x50 else s1

/-! ### Activation (R409, R444) -/

/-- The new image runs (R443, R444): release and slot follow; a bay that is EMPTY, CLAMPED or PARKED and motion at rest take it
at once, the others later; a running trial image that serves is marked valid (R442). -/
def State.loadImage (s : State) (a : Activation) : State :=
  let busy := (List.finRange 8).filter (fun b => !decide (s.bays[b].seq.st = .empty ∨ s.bays[b].seq.st = .clamped
    ∨ s.bays[b].seq.st = .parked))
  s.onSys (fun y =>
    { y with release := a.release, runSlot := a.slot, bayRev := a.bayRev, activation := none,
             oldImage := BitVec.ofNat 8 ((busy.map (fun (b : BayNo) => 2 ^ b.val)).sum),
             oldMotion := s.hnd.move.isSome || !s.hnd.still })

/-- The running slot is marked valid once a serving mode is reached (R442). -/
def State.markValid (s : State) : State :=
  let k := s.sys.runSlot
  if s.sys.mode.serving && decide (s.flash.slots[k].st = .trial) then
    s.writeSlot k { s.flash.slots[k] with st := .valid, failed := 0 }
  else s

end Sys2Proof.Machine
end

