-- ==== Sys2Proof/Machine/BayWork.lean ====
section
/-! DEFINITION. Shared operations of bay work: placing and returning discs (R485, R241, R293), the speculation generation (R145), reassembly entries and the delivery of clusters (R131, R138), and what ends when a bay leaves service (R249). -/

namespace Sys2Proof.Machine

/-! ### Discs in bays (R236, R485) -/

/-- The bay that serves a volume: its disc is mounted and no unmount has started (R295). -/
def State.servedIn (s : State) (v : VolId) : Option BayNo :=
  (List.finRange 8).find? (fun b => match s.bays[b].seq.disc with
    | some d => decide (d.vid = v) && d.mounted && s.bays[b].seq.unmounting.isNone
    | none => false)

/-- Work is queued at a bay (R242). -/
def Bay.busy (t : Bay) : Bool :=
  t.seq.position || t.seq.mounting || t.seq.unmounting.isSome || !t.seq.demand.isEmpty || !t.seq.retry.isEmpty
    || !t.seq.slow.isEmpty || !t.wp.jobs.isEmpty || t.wp.mgmtDue.isSome || t.wp.run.isSome || !t.wp.replQueue.isEmpty
    || t.dec.entries.any (fun e => decide (e.2.cls ≠ .updraft))

/-- A command that has not completed is served by a bay's disc (R485). -/
def State.bayServes (s : State) (b : BayNo) : Bool := s.cmds.any (fun c => decide (c.vid = s.bays[b].vid))

/-- Of two bays, the one idle longer (R485). -/
def State.idler (s : State) (a b : BayNo) : BayNo := if s.bays[a].seq.lastWork ≤ s.bays[b].seq.lastWork then a else b

/-- The mounted bay with no queued work that has been idle longest (R485). -/
def State.idleBay (s : State) : Option BayNo :=
  match (List.finRange 8).filter (fun b => s.bays[b].mounted && !s.bays[b].busy && !s.bayServes b
      && decide (s.bays[b].seq.st = .ready ∨ s.bays[b].seq.st = .parked)) with
  | [] => none
  | b :: rest => some (rest.foldl s.idler b)

/-- The lowest-numbered EMPTY bay (R485). -/
def State.emptyBay (s : State) : Option BayNo := (List.finRange 8).find? (fun b => decide (s.bays[b].seq.st = .empty) && !s.bays[b].seq.tray)

/-- Order a Move Disc for C2: on this device when it holds the handler, and forwarded to a peer that does (R399). The answer
is the status it ends with at once, if any. -/
def State.orderMove (s : State) (src dst : BitVec 16) : State × Option Byte :=
  if s.hnd.own then s.beginMove src dst false none none
  else if s.inPair && s.tetherLive then
    let s1 := match locBay dst with
      | some b => s.setBaySt b .loading 0
      | none => s
    ((s1.send 0x20 [0, 0, 0xFFFF, 0x40, 0, 0, src.toNat, dst.toNat]).onHnd (fun h => { h with sent := some (src, dst) }), none)
  else (s, some 0x26)

/-- A Move Disc of C2 is under way, here or at the peer. -/
def State.moveBusy (s : State) : Bool := s.hnd.move.isSome || s.hnd.sent.isSome

/-- The code of a bay of this device (Table 10.2). -/
def bayCode (b : BayNo) : BitVec 16 := BitVec.ofNat 16 (0x400 + b.val)

/-! ### The speculation generation (R145) -/

/-- The generation of a bay advances: queued Updraft codewords, entries and store entries of the old generation are freed, and
EV_UPDRAFT_UNDO gives the cause (0 Write, 1 unmount, 2 correction) and the clusters freed. The Updraft run goes on. -/
def State.undo (s : State) (b : BayNo) (cause : Nat) : State :=
  let d := s.bays[b].dec
  let spec := d.entries.filter (fun e => decide (e.2.cls = .updraft))
  let s1 := s.onDec b (fun x =>
    { x with gen := x.gen + 1, store := [], entries := x.entries.filter (fun e => decide (e.2.cls ≠ .updraft)) })
  let s2 := s1.onPool (fun p => { p with waiting := p.waiting.filter (fun w => !decide (w.bay = b ∧ w.cls = .updraft)) })
  let s3 := s2.giveAll (bayOwner b) (d.store.filterMap (·.buf) ++ spec.flatMap (fun e => e.2.buffers))
  s3.raiseBay b .updraftUndo [.u8 cause, .u32 (d.store.length + spec.length)]

/-- A Write of clusters of a volume is accepted: a bay whose store or speculation holds one of them advances (R145). -/
def State.undoWrite (s : State) (vid : VolId) (hits : Nat → Bool) : State :=
  s.eachBay (fun t b =>
    let d := t.bays[b].dec
    let inStore := d.store.any (fun e => decide (e.vid = vid) && hits (e.lba / 16))
    let inSpec := d.entries.any (fun e => decide (e.2.cls = .updraft ∧ e.2.vid = vid)
      && (match uclOf e.2.home with | some u => hits u | none => false))
    if inStore || inSpec then t.undo b 0 else t)

/-! ### Returning a disc (R241) -/

/-- A bay with nothing of a disc kept: neither the start table, the learnt distances, the power calibration, the runout table nor
the position (R96, R103, R159, R160, R177). -/
def Bay.freshDisc (t : Bay) : Bay :=
  { t with
      rc := { t.rc with start := [], asyncSets := [], learnt := Vector.replicate 3 none, geometryFailed := false }
      wp := { t.wp with
                kappaIn := Vector.replicate 16 4096, kappaOut := Vector.replicate 16 4096, opcDone := 0, opcFirst := 0, opcRan := 0,
                opcTemp := Vector.replicate 16 none, vhist := Vector.replicate 16 [], testNext := Vector.replicate 16 none,
                areaFull := 0 }
      srv := { t.srv with
                 runout := none, place := none, pair := none, travel := Vector.replicate 15 none, offFocus := 0, offTilt := 0,
                 ids := [] }
      dec := { t.dec with updraft := none, updraftFrom := none }
      seq := { t.seq with
                 coasts := 0, mismatches := 0, checkDue := false, retried := false, reacqTried := false, coastDone := false,
                 disc := t.seq.disc.map (fun (d : Disc) => { d with mounted := false }) } }

/-- The spindle of a bay stops and the bay passes to SPINDOWN, where Table 9.2 lets it. -/
def State.spinDown (s : State) (b : BayNo) (after : AfterStop) (row : Nat) : State :=
  if bayRow row s.bays[b].seq.st .spindown then
    let s1 := ((s.abortCal b).parkFocus b).onBay b (fun t =>
      { t with spn := t.spn.stop, sld := t.sld.halt,
               rc := { t.rc with lanes := t.rc.lanes.map (fun l => { l with phase := .idle }) },
               seq := { t.seq with after := after } })
    s1.setBaySt b .spindown row
  else s

/-- In UNLOADING the clamp opens and C2 orders the disc to its home slot; an order that ends at once ends the Unmount with
0x26 (R295). An order that finds the handler busy waits. -/
def State.sendHome (s : State) (b : BayNo) : State :=
  match s.bays[b].seq.disc with
  | none => s
  | some d =>
    if s.moveBusy || s.bays[b].seq.st ≠ .unloading then s else
    match (s.onSeq b (fun q => { q with clamp := false })).orderMove (bayCode b) d.slot with
    | (s1, none) => s1
    | (s1, some _) => s1.endWaiters d.slot .unmount 0x26

/-- Pass to UNLOADING by a row of Table 9.2, with the clamp open. -/
def State.unload (s : State) (b : BayNo) (row : Nat) : State :=
  if bayRow row s.bays[b].seq.st .unloading then
    (((s.setBaySt b .unloading row).onBay b Bay.freshDisc).onSeq b (fun q => { q with clamp := false })).sendHome b
  else s

/-- An unmount starts (R241): a write run ends at the end of its turn, the generation advances, and the set and the spin-down
follow at the bay's choosing points. A disc only clamped is unloaded at once (Table 9.2). -/
def State.orderUnmount (s : State) (b : BayNo) (cmd : Option CmdId) : State :=
  let s1 := s.onBay b (fun t =>
    { t with seq := { t.seq with unmounting := some cmd, mounting := false },
             wp := { t.wp with run := t.wp.run.map (fun r => { r with endAtTurn := true }) },
             dec := { t.dec with updraft := none, updraftFrom := none } })
  match s.bays[b].seq.st with
  | .clamped => s1.unload b 5
  | _ => s1.undo b 1

/-! ### Placing a disc (R485) -/

/-- C2 places the disc of a volume: by spinning up the bay that holds it, by a Move Disc to the lowest-numbered EMPTY bay, or by
freeing the bay idle longest. A Move Disc that fails at once ends the waiting commands with 0x26 (R293). -/
def State.placeDisc (s : State) (vid : VolId) : State :=
  match s.vol? vid with
  | none => s
  | some v =>
    if v.ownPeer then s else
    match s.discIn vid with
    | some b =>
      if s.bays[b].seq.st = .clamped then s.onSeq b (fun q => { q with mounting := true }) else s
    | none =>
      if s.moveBusy then s else
      match s.emptyBay with
      | some b =>
        match s.orderMove v.location (bayCode b) with
        | (s1, none) => if s1.moveBusy then s1.onSeq b (fun q => { q with mounting := true }) else s1
        | (s1, some _) => s1.endWaiters v.slot .mount 0x26
      | none => match s.idleBay with
        | some b => s.orderUnmount b none
        | none => s

/-- The commands that wait for a mount of a volume go on: a Mount completes with its bay, the others are served afresh. -/
def State.mountDone (s : State) (vid : VolId) (b : BayNo) : State :=
  let xs := s.cmds.filter (fun c => decide (c.wait = .mount ∧ c.vid = vid))
  xs.foldl (fun t c => if c.opcode = 9 then t.complete c.id 0x00 (BitVec.ofNat 64 b.val) else t.setWait c.id .none) s

/-- The Mount commands of a volume end with 0x20: its mount failed (R240). -/
def State.mountsFailed (s : State) (vid : VolId) : State :=
  let xs := s.cmds.filter (fun c => decide (c.wait = .mount ∧ c.vid = vid ∧ c.opcode = 9))
  xs.foldl (fun t c => t.complete c.id 0x20 0) s

/-! ### Volume records and Format (R310, R311, R313) -/

/-- Send a volume's table entry to a live peer, before the response that changes it (Table 14.4). -/
def State.tellVol (s : State) (vid : VolId) : State :=
  match s.vol? vid with
  | none => s
  | some v =>
    if s.mirrors then
      let xs := [v.slot.toNat, v.durability.toNat, boolMask [v.remap, v.readOnly, v.formatted]] ++ v.ranges.flatMap (fun x => [x.1, x.2])
      s.sendAbout 0x13 vid 0 0 (bodyWords xs) (8 * xs.length)
    else s

/-- The records of the volumes are durable, and the pair record lists the device's own (R340, R406). -/
def State.saveAll (s : State) : State :=
  let s1 := s.saveVols
  if s1.flash.pairRecord.isSome then
    s1.onFlash (fun f => { f with pairVolumes := (s1.vols.filter (fun v => !v.ownPeer)).map (·.vid) })
  else s1

/-- The disc identifier of a Format: identity number and format count (R60). -/
def discIdentifier (formats : BitVec 32) : BitVec 64 := BitVec.ofNat 64 (Config.identity.toNat * 2 ^ 32 + formats.toNat)

/-- The progress record of a Format that begins (R313). -/
def State.formatBegins (s : State) (vid : VolId) : State :=
  s.setProgress { op := 1, state := 1, target := vid, steps := 0, total := 1, cycles := 0, status := 0 }

/-- A Format ends with a status: the progress record shows it, and the request is answered. -/
def State.formatEnds (s : State) (p : Port) (status : Byte) : State :=
  let q := s.sys.progress
  let s1 := s.setProgress { q with state := if status = 0 then 3 else 4, steps := if status = 0 then 1 else q.steps, status := status }
  s1.respondRun p status

/-- Set 1 of a Format is on the disc and verified (R61): its volume is formatted, read-only where it was the last set (R62). -/
def State.formatWritten (s : State) (b : BayNo) (vid : VolId) (remap : Bool) : State :=
  let ro := match s.bays[b].seq.disc with | some d => d.readOnly | none => false
  let s1 := (s.onSys (fun y => { y with formats := y.formats + 1 })).onVol vid (fun v =>
    { v with formatted := true, remap := remap, readOnly := ro, unclean := true, ranges := [], known := true, ordinal := 0 })
  (s1.saveAll).tellVol vid

/-! ### Reassembly entries (R131, R133) -/

/-- A codeword is good (R133). -/
def CwState.isGood : CwState → Bool
  | .good _ => true | _ => false

/-- The data of a good codeword. -/
def CwState.data? : CwState → Option CwData
  | .good d => some d | _ => none

/-- Codeword `i` of an entry. -/
def Entry.cw (e : Entry) (i : Nat) : CwState := e.cws.toList.getD i .missing

/-- All 32 data codewords are good. -/
def Entry.complete (e : Entry) : Bool := (List.range 32).all (fun i => (e.cw i).isGood)

/-- Data codewords still missing. -/
def Entry.missing (e : Entry) : Nat := ((List.range 32).filter (fun i => !(e.cw i).isGood)).length

/-- Sector `k` of an entry, where both its codewords are good (R54); zeros when both carry the unwritten bit (R128). -/
def Entry.sector (e : Entry) (k : Nat) : Option SectorData :=
  match (e.cw (2 * k)).data?, (e.cw (2 * k + 1)).data? with
  | some a, some b => if (cwInfo a).unwritten && (cwInfo b).unwritten then some 0 else some (cwHalf b ++ cwHalf a)
  | _, _ => none

/-- Both codewords of sector `k` carry the unwritten bit (R128). -/
def Entry.unwritten (e : Entry) (k : Nat) : Bool :=
  [2 * k, 2 * k + 1].all (fun i => ((e.cw i).data?.map (fun d => (cwInfo d).unwritten)).getD false)

/-- The open entry of a bay that is keyed by an address (R131). -/
def BayDecode.entryAt (d : BayDecode) (a : ClusterAddr) : Option (Nat × Entry) :=
  d.entries.find? (fun e => decide (e.2.addr = a))

/-- A change of one open entry. -/
def State.onEntry (s : State) (b : BayNo) (i : Nat) (f : Entry → Entry) : State :=
  s.onDec b (fun d => { d with entries := updateKey d.entries i f })

/-- Close an entry: its buffers are freed, and its waiting codewords leave the pool's queues. -/
def State.closeEntry (s : State) (b : BayNo) (i : Nat) : State :=
  let bufs := match lookupKey s.bays[b].dec.entries i with | some e => e.buffers | none => []
  ((s.onBay b (fun t =>
    { t with dec := { t.dec with entries := eraseKey t.dec.entries i },
             seq := { t.seq with retry := t.seq.retry.filter (fun x => !decide (x.val = i)),
                                 slow := t.seq.slow.filter (fun x => !decide (x.val = i)) } })).onPool (fun p =>
    { p with waiting := p.waiting.filter (fun w => !decide (w.bay = b ∧ w.entry.val = i)) })).giveAll (bayOwner b) bufs

/-! ### Delivery (R135, R138) -/

/-- The result of a Read or Verify (Table 11.4): sectors placed or checked, and the first LBA that was not. -/
def Cmd.readResult (c : Cmd) : BitVec 64 :=
  let bad := (c.done.filter (fun d => !decide (d.2 = 0))).map (·.1)
  let n := if c.opcode = 4 then c.done.length else (c.done.filter (fun d => decide (d.2 = 0))).length
  let first := bad.foldl min 0xFFFFFFFF
  BitVec.ofNat 64 (n + first * 2 ^ 32)

/-- The status of a Read or Verify: the highest code among its clusters (R138). -/
def Cmd.readStatus (c : Cmd) : Byte :=
  BitVec.ofNat 8 ((c.done.map (fun d => d.2.toNat)).foldl max (if c.retried then 1 else 0))

/-- A Read or Verify whose every sector has its final status completes (R135). -/
def State.settleRead (s : State) (id : CmdId) : State :=
  match s.cmd? id with
  | some c =>
    if c.wait = .disc ∧ (c.opcode = 1 ∨ c.opcode = 4) ∧ c.cover.isEmpty then s.complete id c.readStatus c.readResult else s
  | none => s

/-- Give a command the sectors of a cluster that it still wants: those the source has are placed, the others take the
status; `retried`, the cluster was completed by the identical re-read or the ladder. -/
def State.deliver (s : State) (id : CmdId) (ucl : Nat) (sec : Nat → Option SectorData) (status : Byte) (retried : Bool) :
    State :=
  match s.cmd? id with
  | none => s
  | some c =>
    let want := (List.range 16).filter (fun k =>
      decide (c.lba ≤ ucl * 16 + k ∧ ucl * 16 + k < c.lba + c.count) && !(c.done.any (fun d => decide (d.1 = ucl * 16 + k))))
    let placed := want.filterMap (fun k => (sec k).map (fun d => (ucl * 16 + k, d)))
    let s1 := if c.opcode = 1 then s.giveData id placed else s
    let s2 := s1.onCmd id (fun (x : Cmd) =>
      { x with done := x.done ++ want.map (fun k => (ucl * 16 + k, if (sec k).isSome then 0 else status)),
               retried := x.retried || retried, cover := x.cover.filter (fun y => !decide (y = (x.vid, ucl))) })
    s2.settleRead id

/-- The data bytes of a complete entry: half a sector of each data codeword (R60). -/
def Entry.dataBytes (e : Entry) : List Byte :=
  (List.range 32).flatMap (fun i => match (e.cw i).data? with | some d => wordBytes 2048 (cwHalf d) | none => [])

/-- A cluster of an entry has its final status (R138): every attached command takes its sectors, or a mount its management
cluster (R59), and the entry closes. -/
def State.finishEntry (s : State) (b : BayNo) (i : Nat) (status : Byte) : State :=
  match lookupKey s.bays[b].dec.entries i with
  | none => s
  | some e =>
    let u := (uclOf e.home).getD 0
    let bad : Byte := if status.toNat ≤ 1 then 0 else status
    let s1 := e.requests.foldl (fun t c => t.deliver c u e.sector bad (decide (status = 1))) s
    let s2 := if e.use = .management then s1.onSeq b (fun q =>
        { q with scan := q.scan.map (fun (m : MgmtScan) =>
            { m with got := (e.addr, if e.complete then some e.dataBytes else none) :: m.got }) })
      else s1
    s2.closeEntry b i

/-! ### A bay leaves service (R249) -/

/-- The Reads and Verifies of a volume that cannot complete end with 0x26 (R138, R249), and its Destages with 0x26, their
staged copies kept (R295). -/
def State.failDisc (s : State) (b : BayNo) : State :=
  let vid := s.bays[b].vid
  let s1 := s.bays[b].dec.entries.foldl (fun t e => t.finishEntry b e.1 0x26) s
  let reads := s1.cmds.filter (fun c => decide (c.wait = .disc ∧ c.vid = vid ∧ (c.opcode = 1 ∨ c.opcode = 4)))
  let s2 := reads.foldl (fun t c => (c.cover.map (·.2)).foldl (fun t u => t.deliver c.id u (fun _ => none) 0x26 false) t) s1
  let jobs := s2.bays[b].wp.jobs
  let s3 := jobs.foldl (fun t j => match j.cmd with
    | some id => t.complete id 0x26 (match t.cmd? id with
        | some c => BitVec.ofNat 64 (c.written + c.replaced * 2 ^ 32)
        | none => 0)
    | none => t) s2
  let mine := fun (e : MapEntry) => decide (e.vid = vid)
  ((s3.freeRun b).onBay b (fun t =>
    { t with wp := { t.wp with jobs := [], replQueue := [], run := none },
             seq := { t.seq with demand := [], retry := [], slow := [] } })).onStg (fun g =>
    { g with map := g.map.map (fun (e : MapEntry) => if mine e then { e with sealed := false } else e) })

end Sys2Proof.Machine
end

