-- ==== Sys2Proof/Machine/Flags.lean ====
section
/-! DEFINITION. The flags and status words that the spec computes from the state: the read-only parameters of every page, and every register of BAR0 (Tables 17.2 to 17.10) and of the memory control block (Table 13.10) as a read shows it. -/

namespace Sys2Proof.Machine

/-! ### Words -/

/-- A trim word (R87). -/
def Trim.word (t : Trim) : Nat := twos 8 t.delay * 2 ^ 24 + twos 8 t.gain * 2 ^ 16 + twos 8 t.offset * 2 ^ 8 + twos 8 t.asym

/-! ### Bays (R251, R235, R234) -/

/-- The read-only parameters of a bay (pages 0x10 to 0x17). -/
def Bay.readOnlyParam (t : Bay) (id : Nat) : Int :=
  if h : 0x1020 ≤ id ∧ id < 0x1024 then (t.afe.recvs[id - 0x1020]'(by omega)).trims.word
  else if h : 0x1028 ≤ id ∧ id < 0x102C then (t.afe.reliefSets[id - 0x1028]'(by omega)).word
  else if h : 0x1120 ≤ id ∧ id < 0x1124 then (t.rc.lanes[id - 0x1120]'(by omega)).depth
  else if id = Param.decGen then t.dec.gen.toNat
  else if h : 0x1320 ≤ id ∧ id < 0x1330 then t.wp.kappaIn[id - 0x1320]'(by omega)
  else if h : 0x1330 ≤ id ∧ id < 0x1340 then t.wp.kappaOut[id - 0x1330]'(by omega)
  else if id = Param.srvFeSlope then t.srv.slopeF
  else if id = Param.srvTeSlope then t.srv.slopeT
  else if id = Param.srvOvrFoc then t.srv.focus.overruns
  else if id = Param.srvOvrTrk then t.srv.tracking.overruns
  else if id = Param.srvOvrTilt then t.srv.tilt.overruns
  else if id = Param.srvOvrSled then t.srv.sled.overruns
  else if id = Param.srvTableState then b2n t.srv.tablesValid + 2 * b2n t.srv.runout.isSome
  else if id = Param.spnState then t.spn.level.code
  else if id = Param.spnSpeedMeas then t.spn.speedMeas
  else if id = Param.spnElecOffset then t.spn.elecOffset.toNat + 65536 * b2n t.spn.offsetValid
  else if id = Param.spnEstPeriods then t.spn.estPeriods
  else if id = Param.spnAngleDiff then t.spn.angleDiff
  else if id = Param.sldPos then t.sld.encoder
  else if id = Param.sldDev then t.sld.deviation
  else if id = Param.sldState then t.sld.stateWord
  else if id = Param.bayState then t.stateWord
  else if id = Param.bayLanes then t.lanesWord
  else 0

/-! ### Device (R273, R318, R359, R412, R430) -/

/-- The NAND transfer rate in force, MT/s (R347, R433). -/
def State.nandRate (s : State) : Nat := if s.sys.nandSlow then min 1000 s.stg.rate else s.stg.rate

/-- EVT.DIAG_RESULT (R427). -/
def EventPath.diagResult (v : EventPath) : Nat := v.diagWord.toNat % 256 + 256 * v.diagState + 65536 * v.diagFails.toNat

/-- EVT.REEL_STATE (Table 15.9). -/
def EventPath.reelState (v : EventPath) : Nat :=
  b2n v.reelFrozen + 2 * b2n v.trigSeen + 65536 * (match v.postLeft with | some (n, _) => n | none => 0)

/-- The read-only parameters above bay level. -/
def State.readOnlyParam (s : State) (id : Nat) : Int :=
  if id = Param.pwrTj then s.sys.tj
  else if id = Param.pwrHoldupV then s.sys.holdup.toNat * s.dn Param.pwrHoldupScale
  else if id = Param.pwrPllState then boolMask (s.sys.pll.toList ++ [s.sys.onOsc])
  else if id = Param.pwrResetCause then s.sys.resetCause + 256 * s.sys.runSlot.val
  else if id = Param.hndState then s.hndStateWord
  else if id = Param.hndOwn then b2n s.hnd.own + 2 * b2n s.hnd.ownPeer
  else if id = Param.hndInLevel then
    boolMask (s.hnd.inputs.toList.map (·.level)) + 65536 * boolMask (s.hnd.inputs.toList.map (·.masked))
  else if h : 0x2070 ≤ id ∧ id < 0x207C then (s.hnd.inputs[id - 0x2070]'(by omega)).edges
  else if id = Param.qpLinkStateA then s.ports[(0 : Port)].linkWord
  else if id = Param.qpLinkStateB then s.ports[(1 : Port)].linkWord
  else if id = Param.stgUsable then s.stg.usable (s.dn Param.stgOp) s.mem.gib
  else if id = Param.stgVentBudget then s.stg.ventBudget s.nandRate
  else if id = Param.stgDirty then s.stg.dirtyBytes
  else if id = Param.stgState then s.stg.stateWord
  else if id = Param.stgBVent then s.stg.bVent s.nandRate / 1000000
  else if h : 0x3220 ≤ id ∧ id < 0x3224 then (s.mem.pools[id - 0x3220]'(by omega)).free
  else if id = Param.memCeCount then s.mem.ceCount
  else if id = Param.memUeCount then s.mem.ueCount
  else if id = Param.memRetiredPages then s.flash.retiredPages.length
  else if id = Param.memTripleState then s.mem.triple.stateWord
  else if id = Param.pairRoleWord then s.pair.role.word.toNat
  else if id = Param.pairState then s.pair.stateWord
  else if id = Param.pairCrcCount then s.pair.crcCount
  else if id = Param.evtDiagResult then s.ev.diagResult
  else if id = Param.evtQueueHeld then s.ev.queue.length
  else if id = Param.evtReelState then s.ev.reelState
  else 0

/-! ### BAR0 (17_host_visible_registers.md) -/

/-- PORT_STATUS (Table 17.3). -/
def State.portStatus (s : State) (p : Port) : Nat :=
  let t := s.ports[p]
  s.sys.mode.code + 16 * (if t.d3hot then 3 else 0) + 2 ^ 16 * t.linkGen + 2 ^ 19 * t.linkWidth
    + 2 ^ 24 * b2n s.mailboxReady + 2 ^ 25 * b2n (decide (t.alarm ≠ 0)) + 2 ^ 26 * b2n s.ev.reelFrozen

/-- RELEASE (Table 17.2): 0 until an image runs. -/
def State.releaseWord (s : State) : Nat := s.sys.release.toNat

/-- A Bridle cell as a register (Table 17.4). -/
def BridleCell.word (c : BridleCell) : Nat := c.owner.toNat * 2 ^ 56 + c.claims.toNat

/-- EVR_CFG and EVR_STATUS (Table 17.6). -/
def EvRing.cfgWord (r : EvRing) : Nat := r.entries.toNat + 2 ^ 31 * b2n r.enabled
/-- EVR_STATUS (Table 17.6). -/
def EvRing.status (r : EvRing) : Nat :=
  b2n r.enabled + 2 * b2n r.phase + 4 * b2n (!r.tally.isZero) + 2 ^ 16 * r.tail.toNat

/-- Index of the oldest block the Reel holds (R460). -/
def EventPath.reelOldest (v : EventPath) : Nat := if v.reelWrapped then v.reelNext else 0

/-- Block `i` of the Reel store; a block never written reads 0. -/
def EventPath.reelBlock (v : EventPath) (i : Nat) : BitVec 512 :=
  v.reel.getD ((i + Config.reelBlocks - v.reelOldest) % Config.reelBlocks) 0

/-- REEL_CTRL (Table 17.7). -/
def EventPath.reelCtrl (v : EventPath) : Nat :=
  v.reelOldest + 2 ^ 16 * v.reelNext + 2 ^ 29 * b2n v.reelFrozen + 2 ^ 34 * b2n v.trigSeen + 2 ^ 35 * b2n v.reelWrapped

/-- QCFG (Table 17.9). -/
def QueuePair.cfgWord (q : QueuePair) : Nat :=
  q.entries.toNat + 2 ^ 16 * q.vector.toNat + 2 ^ 32 * q.aggCount.toNat + 2 ^ 40 * q.aggTime.toNat + 2 ^ 63 * b2n q.enabled

/-- QSTATUS (Table 17.9). -/
def QueuePair.status (q : QueuePair) : Nat :=
  q.sqHead.toNat + 2 ^ 16 * q.cqTail.toNat + 2 ^ 32 * b2n q.phase + 2 ^ 33 * b2n q.halted + 2 ^ 34 * b2n q.enabled

/-- MSIX_CTRL (Table 17.10). -/
def MsixEntry.ctrl (e : MsixEntry) : Nat := e.data.toNat + 2 ^ 32 * b2n e.mask

/-- What an 8-byte read of BAR0 at an 8-byte aligned offset shows, without its side effect (Tables 17.1 to 17.10). -/
def State.bar0 (s : State) (p : Port) (off : Nat) : Nat :=
  let t := s.ports[p]
  if off = 0x0000 then p.val + 0xB1 * 2 ^ 8 + 0x8416 * 2 ^ 16 + Config.identity.toNat * 2 ^ 32
  else if off = 0x0008 then s.releaseWord
  else if off = 0x0010 then Config.mapRev.toNat
  else if off = 0x0018 then 4096 + 64 * 2 ^ 16 + 65 * 2 ^ 24 + 8 * 2 ^ 32
  else if off = 0x0020 then s.sys.time.toNat
  else if off = 0x0100 then s.portStatus p
  else if off = 0x0110 then boolMask (t.queues.toList.map (·.enabled))
  else if off = 0x0118 then boolMask (t.queues.toList.map (·.halted))
  else if h : 0x0200 ≤ off ∧ off < 0x0400 then (s.bridle[(off - 0x0200) / 8]'(by omega)).word
  else if 0x0400 ≤ off ∧ off < 0x0440 then field t.mbx.req (8 * (off - 0x0400)) 64
  else if 0x0440 ≤ off ∧ off < 0x0480 then field t.mbx.rsp (8 * (off - 0x0440)) 64
  else if off = 0x0488 then t.mbx.status
  else if off = 0x0500 then t.ring.base.toNat * 4096
  else if off = 0x0508 then t.ring.cfgWord
  else if off = 0x0510 then t.ring.head.toNat
  else if off = 0x0518 then t.ring.status
  else if 0x0600 ≤ off ∧ off < 0x0690 then field t.alarm (8 * (off - 0x0600)) 64
  else if off = 0x0700 then t.cursor.toNat
  else if off = 0x0708 then s.ev.reelCtrl
  else if 0x0740 ≤ off ∧ off < 0x0780 then field (s.ev.reelBlock t.cursor.toNat) (8 * (off - 0x0740)) 64
  else if h : 0x1000 ≤ off ∧ off < 0x1400 then
    let q := t.queues[(off - 0x1000) / 16]'(by omega)
    if off % 16 = 0 then q.sqTail.toNat else q.cqHead.toNat
  else if h : 0x2000 ≤ off ∧ off < 0x2800 then
    let q := t.queues[(off - 0x2000) / 32]'(by omega)
    match off % 32 with
    | 0 => q.sqBase.toNat * 4096
    | 8 => q.cqBase.toNat * 4096
    | 16 => q.cfgWord
    | _ => q.status
  else if h : 0x3000 ≤ off ∧ off < 0x3410 then
    let e := t.msix[(off - 0x3000) / 16]'(by omega)
    if off % 16 = 0 then e.addr.toNat * 4 else e.ctrl
  else if off = 0x3800 then field t.pending 0 64
  else if off = 0x3808 then field t.pending 64 1
  else 0

/-- What a read of the memory control block shows, without its side effect (Table 13.10). -/
def Memory.control (m : Memory) (off : Nat) : Nat :=
  if off = 0x000 then boolMask [m.cache.enabled, m.cache.prefetch]
  else if off = 0x008 then m.cache.maintLine.toNat * 64
  else if off = 0x018 then boolMask [m.cache.enabled, m.cache.busy, m.cache.compatRun, m.cache.reject]
  else if off = 0x020 then m.cache.errCorrected.toNat + 2 ^ 32 * m.cache.errUncorrected.toNat
  else if off = 0x040 then b2n m.scrubOn
  else if off = 0x048 then m.scrubInterval.toNat
  else if off = 0x050 then m.scrubPos.toNat * 128
  else if off = 0x058 then m.scrubCe.toNat + 2 ^ 16 * m.scrubUe.toNat + 2 ^ 32 * m.scrubPasses.toNat
  else if off = 0x060 then m.derrPop.toNat
  else if off = 0x068 then m.derrLost.toNat
  else 0

end Sys2Proof.Machine
end

