-- ==== Sys2Proof/Machine/FrontEnd.lean ====
section
/-! DEFINITION. The optical front end (03_optical_front_end.md): receiver faults and the Relief line (R75 to R79), the head temperature (R72), and self-calibration (R80 to R85). -/

namespace Sys2Proof.Machine

/-! ### Receivers (R66, R72, R79) -/

/-- A change of one receiver. -/
def State.onRecv (s : State) (b : BayNo) (r : RecvNo) (f : Receiver → Receiver) : State :=
  s.onAfe b (fun a => { a with recvs := a.recvs.set r.val (f a.recvs[r]) r.isLt })

/-- The mean of the last 64 head temperatures, 1/4096 °C (R72). DESIGN CHOICE (log entry 106): before 64 conversions have been made, the
mean of those there are, and 0 before the first. -/
def Afe.headTemp (a : Afe) : Rat := if a.temps = [] then 0 else (a.temps.sum : Rat) / a.temps.length

/-- The identity of a unit of a bay in the retry log (Table 15.6): the bay, then the unit. -/
def bayUnit (b : BayNo) (unit : Nat) : BitVec 64 := BitVec.ofNat 64 (b.val + 256 * unit)

/-! ### A lane loses its receiver (R79, R246) -/

/-- Lane `n` has no receiver (R79): EV_LANE_NO_RECEIVER, EV_BAY_DEGRADED with the lanes the bay reads with (R246), FAULTED when
there is none, and the end of writing where it is B1. -/
def State.laneLost (s : State) (b : BayNo) (n : Beam) : State :=
  let s1 := (s.onAfe b (fun a => { a with erasing := a.erasing.set n.val false n.isLt })).raiseBay b .laneNoReceiver
    [.u8 n.val]
  let lanes := s1.bays[b].lanesInUse
  let s2 := s1.raiseBay b .bayDegraded [.u8 (laneMask lanes)]
  if lanes = [] then s2.faultBay b .noLane
  else if n = 1 ∧ s2.bays[b].seq.st = .writing then (s2.stopWriting b).setBaySt b .ready 12
  else s2

/-- Q-n orders the Relief line onto the input of a faulty beam receiver (R76); the lane marks its frames erased meanwhile. -/
def State.orderRelief (s : State) (b : BayNo) (n : Beam) : State :=
  s.onAfe b (fun a =>
    { a with subst := some n, relief := .shadow n, erasing := a.erasing.set n.val true n.isLt, faultTime := s.sys.time.toNat })

/-- The Relief line is available again: it is ordered onto the first input whose own receiver is not usable (DEDUCED, log entry 106). -/
def State.relieveNext (s : State) (b : BayNo) : State :=
  let a := s.bays[b].afe
  match (List.finRange 4).find? (fun n : Beam => !(a.recv (beamRecv n)).usable && !a.laneRelief[n]) with
  | some n => if a.reliefFree then s.orderRelief b n else s
  | none => s

/-- The lane that the Relief line carries returns to its own receiver, and the Relief line is idle (R77, R78): at the next planned switch,
or at once, with the frame in progress erased. -/
def State.laneBack (s : State) (b : BayNo) (n : Beam) (atOnce : Bool) : State :=
  (s.selectLane b n false atOnce).onAfe b (fun a => { a with relief := .idle })

/-- A beam receiver is faulty: the Relief line is ordered onto its input, or, where it is unavailable, the lane has no receiver
(R76, R79). -/
def State.substitute (s : State) (b : BayNo) (n : Beam) : State :=
  if s.bays[b].afe.reliefFree then s.orderRelief b n else s.laneLost b n

/-- The Relief line has failed (R77): the lane it carries for a fault returns to its own receiver at once, and R79 applies to it, as it
does to a lane that waits for it. -/
def State.reliefFailed (s : State) (b : BayNo) : State :=
  let a := s.bays[b].afe
  match a.subst, a.relief with
  | some n, _ => (s.onAfe b (fun x => { x with subst := none, relief := .idle })).laneLost b n
  | none, .carrier n true =>
    let s1 := s.laneBack b n true
    if (a.recv (beamRecv n)).usable then s1 else s1.laneLost b n
  | none, _ => s

/-- A criterion of R75 holds: a share of 4,096 samples at either end of the range, a code that repeats, or the bias monitor. -/
def State.faultMet (s : State) (b : BayNo) (c : RecvFault) : Bool :=
  match c with
  | .clip xs => decide (xs.length = 4096 ∧ s.bn b Param.afeFaultClip * 4096 ≤ 100 * (xs.filter (fun x => decide (x = 0x80 ∨ x = 0x7F))).length)
  | .stuck xs => decide (s.bn b Param.afeFaultStuck ≤ xs.length) && xs.all (fun x => decide (x = xs.headD 0))
  | .bias => true

/-- RECEIVER_FAULT (R75 to R77): a criterion fires on a receiver that is neither faulty nor retired; clipping and a stuck code
only where the lane expects data and the sum signal is in its band, and never for the Relief line. A calibration run is
abandoned first. -/
def execReceiverFault (b : BayNo) (r : RecvNo) (cause : RecvFault) (s : State) : Res :=
  if !s.dspRuns then .next s else
  let t := s.bays[b]
  let expects := if h : r.val < 4 then decide ((t.rc.lanes[(⟨r.val, h⟩ : Beam)]).phase ≠ .idle) && t.rc.sumIn else false
  if !(t.afe.recv r).usable || !(decide (cause = .bias) || expects) || !s.faultMet b cause then .next s else
  let code := match cause with | .clip _ => 0 | .stuck _ => 1 | .bias => 2
  let s1 := ((s.raiseBay b .receiverFault [.u8 r.val, .u8 code]).abortCal b).onRecv b r (fun x => { x with faulty := true })
  if h : r.val < 4 then .next (s1.substitute b ⟨r.val, h⟩) else .next (s1.reliefFailed b)

/-- RELIEF_SUBSTITUTION (R76): the Relief line has settled, and the lane takes its samples; its frames are no longer marked
erased. The payload's time since detection is in µs of the device time (DESIGN CHOICE, log entry 106). -/
def execReliefSubstitution (b : BayNo) (s : State) : Res :=
  match s.bays[b].afe.subst with
  | none => .next s
  | some n =>
    let past := s.sys.time.toNat - s.bays[b].afe.faultTime
    .next (((s.selectLane b n true false).onAfe b (fun a =>
      { a with subst := none, relief := .carrier n true, erasing := a.erasing.set n.val false n.isLt })).raiseBay b .reliefSubstituted
        [.u8 n.val, .u32 past])

/-- Retirement of a receiver whose fault is persistent or which is suspect (R78, R84, R34): proposed, and taken where
POL.RETIRE_RECEIVER is 1. -/
def State.proposeRetire (s : State) (b : BayNo) (r : RecvNo) : State :=
  let s1 := s.raiseBay b .receiverRetireProposed [.u8 r.val]
  if s.dp Param.polRetireReceiver = 1 then
    (((s1.onRecv b r (fun x => { x with retired := true, faulty := false })).raiseBay b .receiverRetired [.u8 r.val]).logRetry
      (Ev.bay b .receiverRetired).src 0 true 2 (bayUnit b r.val)).testLoses 1 (fun n => decide (n = b.val))
  else
    (s1.onRecv b r (fun x => { x with faulty := false })).logRetry (Ev.bay b .receiverRetireProposed).src 0 true 1
      (bayUnit b r.val)

/-! ### The head temperature (R72, R80, R159, R180) -/

/-- HEAD_TEMP_SAMPLE (R72): one conversion enters the mean of the last 64; crossing AFE.TEMP_LIMIT upward raises
EV_HEAD_TEMP_RANGE; receivers (R80) and layers (R159) far from their reference become due, and the feed-forward tables far
from theirs become invalid (R180). -/
def execHeadTempSample (b : BayNo) (code : BitVec 12) (s : State) : Res :=
  let t := (code.toNat : Int) * s.bp b Param.afeTempScale + s.bp b Param.afeTempOffset * 256
  let s1 := s.onAfe b (fun a => { a with temps := (t :: a.temps).take 64 })
  let avg := s1.bays[b].afe.headTemp
  let above := decide (((s.bp b Param.afeTempLimit * 4096 : Int) : Rat) < avg)
  let far := fun (ref : Rat) (lim : Int) => decide ((lim * 4096 : Int) < |avg - ref|)
  let s2 := s1.onBay b (fun (x : Bay) =>
    { x with
        afe := { x.afe with tempAbove := above,
                            recvs := x.afe.recvs.map (fun r =>
                              { r with due := r.due || (!r.retired && far r.refTemp (s.bp b Param.afeCalTempDelta)) }) },
        wp := x.wp.makeAllDue (fun l =>
          match x.wp.opcTemp[l] with | some ref => far ref (s.bp b Param.wrOpcTempDelta) | none => false) })
  let s3 := if above && !s.bays[b].afe.tempAbove then s2.raiseBay b .headTempRange else s2
  .next (if s.bays[b].srv.tablesValid && far s.bays[b].srv.tablesTemp (s.bp b Param.srvTableTempDelta)
    then s3.invalidateTables b 4 else s3)

/-! ### Calibration slots (R80, R81) -/

/-- A run that starts on a receiver for a beam input at a step of R81: pass A from the trims in force. -/
def Afe.beginRun (a : Afe) (n : Beam) (r : RecvNo) (step : Nat) : CalRun :=
  let t := a.trimsOf r n
  { beam := n, recv := r, step := step, passB := false, trimIx := 0, old := t, cur := t, dir := 0, steps := 0, prev := none,
    resultA := none, failed := false }

/-- Receiver `n` is served in a slot. -/
def Afe.slotDue (a : Afe) (n : Beam) : Bool := (a.recv (beamRecv n)).due && (a.recv (beamRecv n)).usable

/-- The slot of a beam waits (R81): B0's while the bay writes; with the Relief line a carrier for a fault, faulty or retired, any slot
outside READY with no transfer queued. -/
def Bay.slotWaits (t : Bay) (n : Beam) : Bool :=
  (decide (n = 0) && decide (t.seq.st = .writing)) || (!t.afe.reliefFree && !(decide (t.seq.st = .ready) && !t.busy))

/-- CAL_SLOT_OPEN (R81): a slot of a beam input whose receiver, or for which the Relief line, is due. While the Relief line is a carrier
for a fault, faulty or retired, only step 5 runs. DESIGN CHOICE (log entry 106): of several inputs due, the lowest is served; R81's order
B0, B1, B2, B3 does not say where the rotation goes on after a slot has ended. -/
def execCalSlotOpen (b : BayNo) (s : State) : Res :=
  let t := s.bays[b]
  let a := t.afe
  if !calibratesIn t.seq.st || a.cal.isSome || a.subst.isSome then .next s else
  let open_ := (List.finRange 4).filter (fun n : Beam => !t.slotWaits n)
  if a.reliefFree then
    match open_.find? (fun n : Beam => a.slotDue n || ((a.recv reliefLine).due && !bitAt a.reliefDone n.val)) with
    | some n => .next (s.onAfe b (fun x => { x with cal := some (x.beginRun n reliefLine 1), relief := .shadow n }))
    | none => .next s
  else
    match open_.find? a.slotDue with
    | some n => .next (s.onAfe b (fun x => { x with cal := some (x.beginRun n (beamRecv n) 5) }))
    | none => .next s

/-- RELIEF_SETTLED (R81): step 1 ends and the run on the Relief line starts. -/
def execReliefSettled (b : BayNo) (s : State) : Res :=
  .next (s.onAfe b (fun a => { a with cal := a.cal.map (fun c => if c.step = 1 then { c with step := 2 } else c) }))

/-- LANE_SELECT_SWITCH (R74, R78, R81): the planned switch of lane `l`: to the Relief line after step 3, whose run on the
receiver then starts; back after step 5, which ends the slot; and back after a transient fault or a retirement withheld. -/
def execLaneSelectSwitch (b : BayNo) (l : Beam) (s : State) : Res :=
  let a := s.bays[b].afe
  match a.cal with
  | some c =>
    if c.beam ≠ l ∨ s.bays[b].slotWaits l = true then .next s
    else if c.step = 4 then
      .next ((s.selectLane b l true false).onAfe b (fun x =>
        { x with relief := .carrier l false, cal := some (x.beginRun l (beamRecv l) 5) }))
    else if c.step = 6 then .next ((s.laneBack b l false).onAfe b (fun x => { x with cal := none }))
    else .next s
  | none =>
    if a.relief = .carrier l true ∧ (a.recv (beamRecv l)).usable then .next ((s.laneBack b l false).relieveNext b) else .next s

/-! ### The search (R82) -/

/-- Value of trim `i` in the order of Table 3.4: offset, gain, asymmetry, delay. -/
def Trim.get (t : Trim) (i : Fin 4) : Int := [t.offset, t.gain, t.asym, t.delay].getD i.val 0

/-- Set trim `i`. -/
def Trim.put (t : Trim) (i : Fin 4) (v : Int) : Trim :=
  match i with
  | 0 => { t with offset := v }
  | 1 => { t with gain := v }
  | 2 => { t with asym := v }
  | 3 => { t with delay := v }

/-- The range of trim `i` (Table 3.1). -/
def trimRange (i : Fin 4) : Int × Int := [((-64 : Int), (63 : Int)), (0, 63), (-32, 31), (0, 199)].getD i.val (0, 0)

/-- The band of trim `i`, LSB or ps, and its limit of taps (Table 3.4). -/
def trimBand (i : Fin 4) : Rat × Nat := [((1 / 2 : Rat), 16), (1, 16), (1 / 2, 8), (2, 50)].getD i.val (0, 0)

/-- How one trim search goes on after a measurement (R82). -/
inductive SearchNext where
  | more (v dir : Int) (steps : Nat)
  | done (v : Int)
  | fails (v : Int)
  deriving DecidableEq, Repr

/-- The next tap of a search, where the limit and the range allow it. -/
def searchStep (i : Fin 4) (v dir : Int) (steps : Nat) : SearchNext :=
  if (trimBand i).2 ≤ steps then .fails v
  else if v + dir < (trimRange i).1 ∨ (trimRange i).2 < v + dir then .fails v
  else .more (v + dir) dir (steps + 1)

/-- The sign of an error. -/
def signOf (e : Rat) : Int := if e < 0 then -1 else if 0 < e then 1 else 0

/-- One measurement of the search of R82: at the present tap `v`, after `steps` taps in direction `dir`. -/
def search (i : Fin 4) (v dir : Int) (steps : Nat) (prev : Option Rat) (e : Rat) : SearchNext :=
  match prev with
  | none => if |e| ≤ (trimBand i).1 then .done v else searchStep i v (-signOf e) 0
  | some p =>
    if signOf e ≠ signOf p ∨ |e| ≤ (trimBand i).1 then .done (if |p| < |e| then v - dir else v)
    else searchStep i v dir steps

/-- A measurement window of trim `i` is complete (Table 3.4): 256 samples of settling and 4,096 for the offset, 1 + AFE.CAL_WINDOW frames
for the others. -/
def windowDone (frames : Nat) (i : Fin 4) (w : List CalPart) : Bool :=
  if i = 0 then decide (w.map (·.count) = [256, 4096]) else decide (w.length = 1 + frames)

/-- The error measure of trim `i` over a window (Table 3.4): the mean over all but its settling part, for the gain less
AFE.GAIN_TARGET. -/
def windowError (target : Int) (i : Fin 4) (w : List CalPart) : Rat :=
  let n := ((w.drop 1).map (·.count)).sum
  let mean : Rat := if n = 0 then 0 else ((w.drop 1).map (·.sum)).sum / n / 256
  if i = 1 then mean - target else mean

/-! ### Runs (R82 to R84) -/

/-- The two passes agree (R83). -/
def Trim.agrees (x y : Trim) : Bool :=
  decide (|x.delay - y.delay| ≤ 2 ∧ |x.offset - y.offset| ≤ 1 ∧ |x.asym - y.asym| ≤ 1 ∧ |x.gain - y.gain| ≤ 1)

/-- How a run goes on after a measurement: with its trims, or ended, with the final values of its passes. -/
inductive RunNext where
  | going (c : CalRun)
  | ended (c : CalRun) (first final : Trim)
  deriving DecidableEq, Repr

/-- A pass of a run ends with the trims `t` (R82): pass B starts from the trims in force before the run. -/
def CalRun.passEnds (c : CalRun) (t : Trim) : RunNext :=
  match c.resultA with
  | none => .going { c with passB := true, trimIx := 0, cur := c.old, dir := 0, steps := 0, prev := none, resultA := some t }
  | some r => .ended c r t

/-- A run after a measurement of error `e` (R82). A search that fails ends its pass (log entry 73). -/
def CalRun.measured (c : CalRun) (e : Rat) : RunNext :=
  match search c.trimIx (c.cur.get c.trimIx) c.dir c.steps c.prev e with
  | .more v dir steps => .going { c with cur := c.cur.put c.trimIx v, dir := dir, steps := steps, prev := some e }
  | .fails v => ({ c with failed := true } : CalRun).passEnds (c.cur.put c.trimIx v)
  | .done v =>
    let t := c.cur.put c.trimIx v
    if h : c.trimIx.val + 1 < 4 then
      .going { c with cur := t, trimIx := ⟨c.trimIx.val + 1, h⟩, dir := 0, steps := 0, prev := none }
    else c.passEnds t

/-- A whole run over measurement windows in order, those not complete passed over; none where they do not reach its end. -/
def CalRun.through (target : Int) (frames : Nat) : List (List CalPart) → CalRun → Option (CalRun × Trim × Trim)
  | [], _ => none
  | w :: rest, c =>
    if windowDone frames c.trimIx w then
      match c.measured (windowError target c.trimIx w) with
      | .going d => CalRun.through target frames rest d
      | .ended d r t => some (d, r, t)
    else CalRun.through target frames rest c

/-- The receiver of a run that has ended, accepted or not: its reference temperature, and whether it is still due (R80, R81). DESIGN
CHOICE (log entry 106): a due Relief line stays due until a run on each of its four inputs has ended since. -/
def Afe.served (a : Afe) (c : CalRun) : Afe :=
  let t := a.headTemp
  if c.recv = reliefLine then
    let done := if (a.recv reliefLine).due then setBit a.reliefDone c.beam.val true else a.reliefDone
    let all := decide (done = 0xF)
    { a with reliefDone := if all then 0 else done,
             recvs := a.recvs.set 4 { a.recvs[4] with refTemp := t, due := a.recvs[4].due && !all } }
  else
    { a with recvs := a.recvs.set c.recv.val { a.recvs[c.recv] with refTemp := t, due := false } c.recv.isLt }

/-- Both passes of a run ended "ok" and agree (R83). -/
def CalRun.accepted (c : CalRun) (first final : Trim) : Bool := !c.failed && first.agrees final

/-- A run ends (R83, R84): accepted, its pass B is applied, with EV_CAL_DONE; otherwise the old trims stay, with EV_CAL_DISAGREE or
EV_CAL_LIMIT, and the second rejection in a row marks the receiver suspect. -/
def State.runEnds (s : State) (b : BayNo) (c : CalRun) (first final : Trim) : State :=
  if c.accepted first final then
    ((s.onAfe b (fun a => (a.setTrims c.recv c.beam final).served c)).onRecv b c.recv (fun r => { r with rejects := 0 })).raiseBay b
      .calDone [.u8 c.recv.val, .u32 c.old.word, .u32 final.word]
  else
    let n := (s.bays[b].afe.recv c.recv).rejects + 1
    let s1 := (s.onAfe b (fun a => (a.setTrims c.recv c.beam c.old).served c)).onRecv b c.recv (fun r =>
      { r with rejects := n, suspect := r.suspect || decide (2 ≤ n) })
    let s2 := if c.failed then s1.raiseBay b .calLimit [.u8 c.recv.val]
      else s1.raiseBay b .calDisagree [.u8 c.recv.val, .u32 first.word, .u32 final.word]
    if n = 2 then s2.raiseBay b .receiverSuspect [.u8 c.recv.val] else s2

/-- A run of a slot has made its receiver suspect (R84). -/
def State.suspectNow (s : State) (b : BayNo) (c : CalRun) (first final : Trim) : Bool :=
  !c.accepted first final && decide ((s.bays[b].afe.recv c.recv).rejects + 1 = 2)

/-- The slot goes on after a run (R81): after the Relief line's run to step 4 where the receiver is due, else it ends; after the
receiver's run to the switch back, or it ends where no lane was switched. -/
def Afe.afterRun (a : Afe) (c : CalRun) : Afe :=
  if c.step = 2 then
    if a.slotDue c.beam then { a with cal := some { c with step := 4 } } else { a with cal := none, relief := .idle }
  else if a.relief = .carrier c.beam false then { a with cal := some { c with step := 6 } }
  else { a with cal := none }

/-- A receiver retired within its slot: its lane stays with the Relief line, or the lane is lost; a retired Relief line
feeds none. -/
def State.retiredInSlot (s : State) (b : BayNo) (c : CalRun) : State :=
  if c.recv = reliefLine then s.onAfe b (fun a => { a with cal := none, relief := .idle })
  else if s.bays[b].afe.relief = .carrier c.beam false then
    s.onAfe b (fun a => { a with cal := none, relief := .carrier c.beam true })
  else if s.bays[b].afe.laneRelief[c.beam] then s.onAfe b (fun a => { a with cal := none })
  else (s.onAfe b (fun a => { a with cal := none })).laneLost b c.beam

/-- A run of a slot ends (R81, R83, R84). -/
def State.slotRunEnds (s : State) (b : BayNo) (c : CalRun) (first final : Trim) : State :=
  let s1 := (s.runEnds b c first final).onAfe b (fun a => a.afterRun c)
  if s.suspectNow b c first final then
    let s2 := s1.proposeRetire b c.recv
    if (s2.bays[b].afe.recv c.recv).retired then s2.retiredInSlot b c else s2
  else s1

/-- CAL_MEASUREMENT (R82 to R84): one complete measurement window of the search in progress; discarded in SEEKING and LAYER_JUMP, and while
the slot waits. -/
def execCalMeasurement (b : BayNo) (window : List CalPart) (s : State) : Res :=
  if !s.dspRuns then .next s else
  let t := s.bays[b]
  match t.afe.cal with
  | none => .next s
  | some c =>
    if ¬(c.step = 2 ∨ c.step = 5) ∨ t.seq.st = .seeking ∨ t.seq.st = .layerJump ∨ t.slotWaits c.beam = true
        ∨ windowDone (s.bn b Param.afeCalWindow) c.trimIx window = false then .next s
    else
      match c.measured (windowError (s.bp b Param.afeGainTarget) c.trimIx window) with
      | .going d => .next (s.onAfe b (fun a => { (a.setTrims d.recv d.beam d.cur) with cal := some d }))
      | .ended d r v => .next (s.slotRunEnds b d r v)

/-! ### The retry run (R78) -/

/-- The receiver that awaits the retry run of R78: the one a lane was substituted for, or a faulty Relief line that carries
nothing. -/
def Afe.retryRecv (a : Afe) : Option RecvNo :=
  match a.relief with
  | .carrier n true => if (a.recv (beamRecv n)).faulty then some (beamRecv n) else none
  | .idle => if (a.recv reliefLine).faulty then some reliefLine else none
  | _ => none

/-- RECEIVER_RETRY_RUN (R78, R84): one calibration run on the faulty receiver as a shadow, over measurement windows in order; `clear`, the
fault check stays clear. Accepted and clear, the fault was transient and the lane returns at the next planned switch; otherwise
it is persistent, and retirement is proposed. A faulty Relief line is run on input B0 (DESIGN CHOICE, log entry 106). -/
def execReceiverRetryRun (b : BayNo) (clear : Bool) (windows : List (List CalPart)) (s : State) : Res :=
  if !s.dspRuns then .next s else
  let a := s.bays[b].afe
  match a.retryRecv with
  | none => .next s
  | some r =>
    let input : Beam := if h : r.val < 4 then ⟨r.val, h⟩ else 0
    match (a.beginRun input r 5).through (s.bp b Param.afeGainTarget) (s.bn b Param.afeCalWindow) windows with
    | none => .next s
    | some (c, first, final) =>
      let s1 := s.runEnds b c first final
      if clear && c.accepted first final then
        let s2 := s1.onRecv b r (fun x => { x with faulty := false })
        .next ((s2.raiseBay b .receiverRecovered [.u8 r.val]).logRetry (Ev.bay b .receiverRecovered).src 0 false 0 (bayUnit b r.val))
      else .next (s1.proposeRetire b r)

end Sys2Proof.Machine
end

