-- ==== Sys2Proof/Machine/BayMoves.lean ====
section
/-! DEFINITION. Shared operations of a bay's motion: parameters that take effect at a choosing point (R10), Lull and retract (R191 to R193), moves of the set-point generator and seeks (R181, R184 to R186), the failure of a mount step (R240) and of a re-acquisition (R248). -/

namespace Sys2Proof

/-- The number of a loop in an event payload, in the order of Table 7.1. -/
def LoopId.code : LoopId → Nat
  | .focus => 0 | .tracking => 1 | .tilt => 2 | .sled => 3

/-- The number of a Lull cause, in the order of the row of EV_LULL_ENTER in Table 7.11. -/
def LullCause.code : LullCause → Nat
  | .frozen => 0 | .dead => 1 | .defectTooLong => 2 | .overrun => 3 | .coupled => 4

/-- The number of a stage of Table 9.3. -/
def MountStage.code : MountStage → Nat
  | .clamp => 0 | .spinup => 1 | .focus => 2 | .track => 3 | .identify => 4 | .management => 5

end Sys2Proof

namespace Sys2Proof.Machine

/-! ### Parameters (R10) -/

/-- The parameters of a loop of a bay, by their IDs, come into force at the start of its period (R11). -/
def State.takePeriod (s : State) (ids : List Nat) (b : BayNo) : State :=
  { s with params := s.params.applyPeriod (fun id => ids.contains id) (fun i => decide (i = b.val ∨ i = 8)) }

/-- The parameters of a bay whose effect is at a point of the kind given come into force. -/
def State.takeEffect (s : State) (e : PEffect) (b : BayNo) : State :=
  { s with params := s.params.applyEffect e (fun i => decide (i = b.val ∨ i = 8)) }

/-- The limits of the sled's profile (Table 8.8): 2,000 counts per mm. -/
def State.sledProfile (s : State) (b : BayNo) : Profile :=
  let v := fun id => s.bn b id * 2000
  { vStart := v Param.sldVStart, vStop := v Param.sldVStop, vBreak := v Param.sldVBreak, vMax := v Param.sldVMax,
    acc1 := v Param.sldAcc1, acc2 := v Param.sldAcc2, dec1 := v Param.sldDec1, dec2 := v Param.sldDec2 }

/-- A sled target lies within SLD.LIMIT_IN to SLD.LIMIT_OUT (R225). -/
def State.sledWithin (s : State) (b : BayNo) (target : Int) : Bool :=
  decide (s.bp b Param.sldLimitIn ≤ target ∧ target ≤ s.bp b Param.sldLimitOut)

/-! ### Loops (R191, R194) -/

/-- A loop of the servo. -/
def Servo.loop (v : Servo) : LoopId → Loop
  | .focus => v.focus | .tracking => v.tracking | .tilt => v.tilt | .sled => v.sled

/-- Change a loop of the servo. -/
def Servo.onLoop (v : Servo) (f : Loop → Loop) : LoopId → Servo
  | .focus => { v with focus := f v.focus }
  | .tracking => { v with tracking := f v.tracking }
  | .tilt => { v with tilt := f v.tilt }
  | .sled => { v with sled := f v.sled }

/-- The mean of the last 32 applied outputs (R191). -/
def Loop.heldDrive (l : Loop) : Int :=
  let xs := l.outs.take 32
  if xs.isEmpty then l.drive else roundOpen 9 ((xs.sum : Rat) / xs.length)

/-- The periods of 2.5 µs in SRV.LAND_TIME. -/
def State.landPeriods (s : State) (b : BayNo) : Nat := s.bn b Param.srvLandTime * 2 / 5

/-- A loop closes with the landing boost (Table 7.4). -/
def Loop.close (l : Loop) (boost : Nat) : Loop :=
  { l with closed := true, lull := none, boost := boost, inBand := 0, locked := false }

/-- The move in progress and those that wait are abandoned (R181, R196): a stride jump with EV_STRIDE_JUMP_FAULT, cause
"abandoned". -/
def State.abandonMove (s : State) (b : BayNo) : State :=
  let s1 := s.onSrv b (fun v => { v with move := none, queued := [] })
  match s.bays[b].srv.move with
  | some m => if m.kind = .stride then s1.raiseBay b .strideJumpFault [.u8 3] else s1
  | none => s1

/-- One loop enters Lull (R191, R192): its integrator stands, its drive is held at the mean of its last 32 outputs, the sled's
at 0. -/
def State.lullLoop (s : State) (b : BayNo) (l : LoopId) (cause : LullCause) : State :=
  if (s.bays[b].srv.loop l).lull.isSome then s else
  (s.onSrv b (fun v =>
    { (v.onLoop (fun x =>
        { x with closed := false, locked := false, boost := 0, inBand := 0, lull := some cause,
                 drive := if l = .sled then 0 else x.heldDrive }) l) with
      recovery := true, sled := if l = .tracking then { v.sled with drive := 0 } else if l = .sled then
        { v.sled with closed := false, locked := false, lull := some cause, drive := 0 } else v.sled })).raiseBay b .lullEnter
    [.u8 l.code, .u8 cause.code]

/-- A loop enters Lull, with what follows (R191, R192, R169, R196): focus takes tracking with it; focus, tracking and tilt cut
the write gate; a move in the loop is abandoned. -/
def State.enterLull (s : State) (b : BayNo) (l : LoopId) (cause : LullCause) : State :=
  if (s.bays[b].srv.loop l).lull.isSome then s else
  let s1 := s.lullLoop b l cause
  match l with
  | .focus => (((((s1.lullLoop b .tracking .coupled).abandonMove b).onSrv b (fun v => { v with acq := none, trackAcq := 0 })).cutGate
      b .loopLoss)).onSeq b (fun q => { q with position := true })
  | .tracking => (((s1.abandonMove b).onSrv b (fun v => { v with trackAcq := 0 })).cutGate b .loopLoss).onSeq b
      (fun q => { q with position := true })
  | .tilt => (s1.cutGate b .loopLoss).onSeq b (fun q => { q with position := true })
  | .sled => s1.onSeq b (fun q => { q with position := true })

/-- Focus retracts (R193, R180): EV_FOCUS_RETRACT, focus along the ramp to SRV.FOC_PARK, the tables invalid, the gate cut, and
the bay to FOCUS_ACQ. -/
def State.retract (s : State) (b : BayNo) : State :=
  let s1 := (s.abandonMove b).raiseBay b .focusRetract
  let s2 := (((s1.cutGate b .loopLoss).invalidateTables b 1).parkFocus b).onSrv b (fun v => { v with recovery := true })
  (s2.setBaySt b .focusAcq 13).onSeq b (fun q => { q with position := true })

/-! ### Failures (R240, R248) -/

/-- A step that has been retried goes through: the failure was transient (R426). -/
def State.stepPassed (s : State) (b : BayNo) (stage : MountStage) : State :=
  if s.bays[b].seq.retried then
    (s.logRetry (Ev.bay b .bayState).src 7 false 0 (bayUnit b stage.code)).onSeq b (fun q => { q with retried := false })
  else s

/-- What a mount that fails at a stage leaves for the next (R240): the second of two different discs at one stage takes the
bay to FAULTED at EMPTY. -/
def Seq.noteFailure (q : Seq) (stage : MountStage) : Seq :=
  let slot := match q.disc with | some d => d.slot | none => 0
  let again := match q.lastFail with
    | some (g, x) => decide (g = stage ∧ x ≠ slot)
    | none => false
  { q with mounting := false, retried := false, position := false, lastFail := some (stage, slot),
           faultAfter := if again then some .mount else none }

/-- The mount in a bay ends in failure at a stage (R240): EV_MOUNT_FAIL, the Mount commands end with 0x20, a Format that waits
for it ends, and the disc is returned; from LOADING by row 2 of Table 9.2, otherwise by SPINDOWN. -/
def State.mountFails (s : State) (b : BayNo) (stage : MountStage) : State :=
  let s1 := s.raiseBay b .mountFail [.u8 stage.code]
  let s2 := s1.mountsFailed s.bays[b].vid
  let s3 : State := match s.bays[b].wp.mgmtDue with
    | some (.format _ (some p)) => s2.formatEnds p 0x20
    | _ => s2
  let s4 := (s3.dropScan b).onBay b (fun t => { t with seq := t.seq.noteFailure stage, wp := { t.wp with mgmtDue := none } })
  if s4.bays[b].seq.st = .loading then s4.unload b 2 else s4.spinDown b .unload 24

/-- A step of a mount fails (R240): once it is retried, the second time the mount ends. -/
def State.mountStepFailed (s : State) (b : BayNo) (stage : MountStage) : State :=
  if s.bays[b].seq.retried then
    (s.logRetry (Ev.bay b .mountFail).src 7 true 4 (bayUnit b stage.code)).mountFails b stage
  else s.onSeq b (fun q => { q with retried := true })

/-- A focus or track acquisition fails (R240, R248): in a mount it is a step of Table 9.3; otherwise the re-acquisition is
retried once, and its second failure takes the bay to FAULTED. -/
def State.acquisitionFailed (s : State) (b : BayNo) (stage : MountStage) : State :=
  let q := s.bays[b].seq
  if q.mounting && !s.bays[b].mounted then s.mountStepFailed b stage
  else if q.reacqTried then s.faultBay b (if stage = .focus then .retract else .lull)
  else s.onSeq b (fun x => { x with reacqTried := true, position := true })

/-! ### Moves (R181, R184 to R187) -/

/-- The row of Table 9.2 by which a bay takes up a move or a run. -/
def workRow (a : BaySt) : Nat :=
  match a with
  | .ready => 11
  | .trackAcq => 9
  | _ => 12

/-- A bay takes up a state of work. -/
def State.takeUp (s : State) (b : BayNo) (new : BaySt) : State := s.setBaySt b new (workRow s.bays[b].seq.st)

/-- A fresh move. -/
def Move.begin (k : MoveKind) : Move := { kind := k, periods := 0, landed := false, crossings := 0, settle := 0 }

/-- A stride has begun: the mismatch of the stride before it is the only one that counts for a position failure (R247). -/
def Seq.nextStride (q : Seq) : Seq := { q with mismatches := if q.mismatches = 1 then 2 else if q.mismatches = 2 then 0 else q.mismatches }

/-- The sled's target count for a turn (R186, R225): from the pair of the last track lock, or by the nominal radius. -/
def Servo.sledTarget (v : Servo) (turn : Nat) : Int :=
  match v.pair with
  | some (c0, t0) => (c0 * 100 + ((turn : Int) - t0) * 48) / 100
  | none => (1000000 + (turn : Int) * 240) / 500

/-- A seek or layer jump begins: no lane's frame lock carries over it (R91). -/
def ReadChannel.leave (r : ReadChannel) : ReadChannel :=
  { r with lanes := r.lanes.map (fun (l : Lane) => { l with endedLocked := false }) }

/-- A move starts (R181, R184 to R186). -/
def State.startMove (s0 : State) (b : BayNo) (k : MoveKind) : State :=
  let s := if k = .stride then s0 else s0.onRc b ReadChannel.leave
  match k with
  | .stride => s.onBay b (fun t => { t with srv := { t.srv with move := some (.begin .stride) }, seq := t.seq.nextStride })
  | .lens n =>
    let s1 := s.onBay b (fun t => { t with srv := { t.srv with move := some (.begin (.lens n)) }, seq := t.seq.nextStride })
    if s.bays[b].seq.st = .ready then s1.takeUp b .seeking else s1
  | .layer up =>
    (s.onSrv b (fun v =>
      { v with move := some (.begin (.layer up)), trackAcq := 0,
               focus := { v.focus with closed := false, locked := false, inBand := 0 },
               tracking := { v.tracking with closed := false, locked := false, drive := v.tracking.heldDrive, base := v.tracking.heldDrive },
               sled := { v.sled with drive := 0 } })).takeUp b .layerJump
  | .sledSeek turn =>
    let target := s.bays[b].srv.sledTarget turn
    let s1 := s.onSrv b (fun v =>
      { v with move := some (.begin (.sledSeek turn)), trackAcq := 0,
               tracking := { v.tracking with closed := false, locked := false, base := v.tracking.drive },
               sled := { v.sled with closed := false, drive := 0 } })
    let s2 := if s.sledWithin b target then
        let p := s.sledProfile b
        s1.onSld b (fun x => if x.mode = .standstill ∨ x.mode = .velocity
          then { x.start p target with vel := x.vel } else x.retarget target)
      else s1.raiseBay b .sledLimit
    s2.takeUp b .seeking
  | k => s.onSrv b (fun v => { v with move := some (.begin k) })

/-- Order a move (R181, R196): it waits while another is in progress. -/
def State.orderServoMove (s : State) (b : BayNo) (k : MoveKind) : State :=
  if s.bays[b].srv.move.isSome then s.onSrv b (fun v => { v with queued := v.queued ++ [k] }) else s.startMove b k

/-- A move has ended: the next that waits starts; with none, the bay leaves SEEKING or LAYER_JUMP for READY, and an unmounted
disc for READING, where its mount read goes on (Table 9.2). -/
def State.moveDone (s : State) (b : BayNo) : State :=
  let s1 := s.onSrv b (fun v => { v with move := none, queued := v.queued.drop 1 })
  match s.bays[b].srv.queued with
  | k :: _ => s1.startMove b k
  | [] =>
    if s.bays[b].seq.st = .seeking ∨ s.bays[b].seq.st = .layerJump then
      if s.bays[b].mounted then s1.setBaySt b .ready 12 else s1.setBaySt b .reading 12
    else s1

/-- A layer jump's landing is confirmed on a layer (R185): EV_LAYER_JUMP_FAIL when it is not the one ordered. -/
def State.layerFound (s : State) (b : BayNo) (was : Option LayerNo) (up : Bool) (found : LayerNo) : State :=
  let ok := match was with
    | some l => decide (found.val = if up then l.val + 1 else l.val - 1)
    | none => true
  (if ok then s else s.raiseBay b .layerJumpFail [.u8 1, .u8 found.val]).moveDone b

/-! ### Positions (R65, R103) -/

/-- Stride jumps and write runs have the offsets they need in a zone and layer (R103): those of B1 and B3. -/
def State.offsetsKnown (s : State) (b : BayNo) (z : Nat) (layer : LayerNo) : Bool :=
  decide ((s.startEntry b z layer 1).beamOffset ≠ 0 ∧ (s.startEntry b z layer 3).beamOffset ≠ 0)

end Sys2Proof.Machine
end

