-- ==== Sys2Proof/Machine/Datapath.lean ====
section
/-! DEFINITION. The data path of a lane (Table 4.1): the interpolator and its timing loop (R89, R90, R92), the level stage (R95), the equaliser (R99), the pre-detector (R100), the canceller (R104 to R107), the soft-output detector (R108) and the envelope detector (R109), with the adaptation holds of Table 4.3. Arithmetic is exact; the laws the spec leaves open are constants of Config (log entry 94). -/

namespace Sys2Proof.Machine

/-! ### What a step of the data path is given -/

/-- One side of a canceller, for each channel bit of the victim: the neighbour's seven levels from −3 to +3, all 0 where the side
contributes nothing, and whether they are resampled (R105, R107). -/
structure CancelSide where
  at_ : Int → List Rat
  async : Bool

/-- What stands still while a lane takes samples: its clock, its gains, its target, the holds in force, the defect thresholds and
its neighbours. -/
structure DspCfg where
  /-- nominal τ, ADC samples per channel bit (R89). -/
  tau : Rat
  /-- a lane in frame lock tracks; otherwise the schedule of Table 4.2 runs. -/
  tracking : Bool
  /-- exponents of Kp and Ki in tracking, and of the level, equaliser and canceller steps. -/
  kp : Nat
  ki : Nat
  gainMu : Nat
  eqMu : Nat
  itiMu : Nat
  /-- target coefficients t0 to t4 (R100). -/
  target : List Int
  /-- the index gap, or no cluster; a cluster whose acquisition or lock is lost; the present frame marked sync inserted; a sum
  defect (Table 4.3). -/
  gap : Bool
  lost : Bool
  inserted : Bool
  sumDefect : Bool
  /-- channel bits of a postamble, and of the preamble of a warm acquisition (Table 4.3). -/
  edge : Int → Bool
  /-- what the level stage divides the sample of a channel bit by: 1, or the relative power of B0's laser (R163). -/
  power : Int → Rat
  /-- the lane's receiver has failed: its channel bits are flagged erased (R76). -/
  erasing : Bool
  /-- RDCH.DFCT_DROP, RDCH.DFCT_MIN and RDCH.DFCT_GUARD (R109). -/
  dfctDrop : Nat
  dfctMin : Nat
  dfctGuard : Nat
  /-- alignment FIFO depth (R102). -/
  depth : Int
  outer : CancelSide
  inner : CancelSide

/-- Channel bits a lane holds. -/
def dspSpan : Nat := 8192

/-- A power of one half. -/
def halfPow (n : Nat) : Rat := 1 / (2 ^ n : Nat)

/-- The element of a list of channel bits, newest first, that belongs to bit `p`, where `n` bits have been put in the list. -/
def atBit {α : Type} (xs : List α) (n : Nat) (p : Int) : Option α :=
  if 0 ≤ p ∧ p < n then xs[(n - 1 - p.toNat)]? else none

/-- A value held within a range. -/
def held (lo hi v : Rat) : Rat := max lo (min hi v)

/-! ### Erasure flags (R109) -/

/-- Channel bit `p` is flagged erased. -/
def flagged (spans : List (Nat × Option Nat)) (p : Int) : Bool :=
  spans.any (fun x => decide ((x.1 : Int) ≤ p) && (match x.2 with | some e => decide (p ≤ e) | none => true))

/-! ### Stages 1 to 3: interpolator, level stage, equaliser -/

/-- One interpolated sample, from the last 8 ADC samples at phase `ph` of 64 (R89). -/
def interpolate (history : List Int) (ph : Nat) : Rat :=
  ((List.range 8).map (fun j => Config.polyphase ph j * (history.getD j 0 : Int))).sum

/-- The level stage: y = g × (x − o), times 1 + q where positive and 1 − q where negative (R95), with the sample divided by the
power it was taken at (R163). -/
def levelStage (d : Datapath) (power x : Rat) : Rat :=
  let y := d.gain * (x / power - d.offset)
  if 0 < y then y * (1 + d.asym) else y * (1 - d.asym)

/-- The equaliser: z_n = Σ c_i × y_(n + 7 − i), where `ys` begins with y_(n + 7) (R99). -/
def equalise (c : Vector Rat 15) (ys : List Rat) : Rat := ((List.range 15).map (fun i => c.toList.getD i 0 * ys.getD i 0)).sum

/-! ### Stage 4: pre-detector (R100) -/

/-- A level as +1 for mark, −1 for space. -/
def levelOf (bit : Bool) : Int := if bit then 1 else -1

/-- The reference of level `a` behind state `s`, whose bit `i` is the level `i + 1` channel bits before: 8 LSB × Σ t_i × a_(n − i)
(R100). -/
def reference (t : List Int) (s : Nat) (a : Bool) : Int :=
  8 * (t.getD 0 0 * levelOf a + ((List.range 4).map (fun i => t.getD (i + 1) 0 * levelOf (s.testBit i))).sum)

/-- The reference of a list of levels, newest first. -/
def referenceOf (t levels : List Int) : Int := 8 * ((List.range 5).map (fun i => t.getD i 0 * levels.getD i 0)).sum

/-- The state after level `a` from state `s`. -/
def nextState (s : Nat) (a : Bool) : Nat := (2 * s + b2n a) % 16

/-- The cost of a branch. -/
def branch (t : List Int) (u : Rat) (s : Nat) (a : Bool) : Rat := (u - reference t s a) * (u - reference t s a)

/-- The pre-detector takes an equalised sample: for each state the cheaper of its two predecessors, with that one's path. -/
def preDetect (t : List Int) (z : Rat) (d : Datapath) : Datapath :=
  let cand := (List.range 16).map (fun s' =>
    let a := s'.testBit 0
    let cost := fun (s : Nat) => d.metrics.getD s 0 + branch t z s a
    let s := if cost (s' / 2 + 8) < cost (s' / 2) then s' / 2 + 8 else s' / 2
    (cost s, (levelOf a :: d.paths.getD s []).take 17))
  let low := (cand.map (·.1)).foldl min ((cand.getD 0 (0, [])).1)
  { d with metrics := cand.map (fun x => x.1 - low), paths := cand.map (·.2) }

/-- The decision 16 channel bits back on the cheapest path (Table 4.1, traceback depth 16). -/
def decision (d : Datapath) : Option Int :=
  let best := (List.range 16).foldl (fun b s => if d.metrics.getD s 0 < d.metrics.getD b 0 then s else b) 0
  (d.paths.getD best [])[16]?

/-! ### Stages 5 and 6: alignment and canceller (R104) -/

/-- What a side takes from a channel bit. -/
def sideSum (h : Vector Rat 7) (a : List Rat) : Rat := ((List.range 7).map (fun i => h.toList.getD i 0 * a.getD i 0)).sum

/-- The taps of a side after a channel bit: h_i := h_i + μ × (u − r) × a_i, a tap at its bound staying there (R104). -/
def sideAdapt (mu err : Rat) (h : Vector Rat 7) (a : List Rat) : Vector Rat 7 :=
  h.mapIdx (fun i v => held (-16) (127 / 8) (v + mu * err * a.getD i 0))

/-- Level decision of channel bit `p`: the newest decision is that of bit count − 17. -/
def Datapath.levelAt (d : Datapath) (p : Int) : Option Int := atBit d.levels (d.count - 16) p

/-- Channel bit `p` is presented to the canceller; its taps adapt unless the canceller is held (Table 4.3). -/
def present (g : DspCfg) (d : Datapath) (p : Nat) : Datapath :=
  let z := (atBit d.zs d.count p).getD 0
  let ao := g.outer.at_ p
  let ai := g.inner.at_ p
  let ho := if g.outer.async then d.asyncOuter else d.outer
  let hi := if g.inner.async then d.asyncInner else d.inner
  let u := z - sideSum ho ao - sideSum hi ai
  let r : Rat := referenceOf g.target ((List.range 5).map (fun (i : Nat) => (d.levelAt ((p : Int) - i)).getD 0))
  let stop := flagged d.erased p || g.gap || g.lost || g.inserted || g.sumDefect || g.edge p
    || (match d.switched with | some k => decide (d.count < k + 64) | none => false)
  let no := sideAdapt (halfPow g.itiMu) (u - r) ho ao
  let ni := sideAdapt (halfPow g.itiMu) (u - r) hi ai
  let d1 := { d with us := (u :: d.us).take 256, presented := p + 1 }
  if stop then d1 else
  { d1 with outer := if g.outer.async then d.outer else no, asyncOuter := if g.outer.async then no else d.asyncOuter,
            inner := if g.inner.async then d.inner else ni, asyncInner := if g.inner.async then ni else d.asyncInner }

/-! ### Stage 7: soft-output detector (R108) -/

/-- One step forward of the max-log recursion. -/
def mapForward (t : List Int) (v : List Rat) (u : Rat) : List Rat :=
  (List.range 16).map (fun s' =>
    let a := s'.testBit 0
    max (v.getD (s' / 2) 0 - branch t u (s' / 2) a) (v.getD (s' / 2 + 8) 0 - branch t u (s' / 2 + 8) a))

/-- One step back. -/
def mapBack (t : List Int) (u : Rat) (w : List Rat) : List Rat :=
  (List.range 16).map (fun s => max (w.getD (nextState s false) 0 - branch t u s false) (w.getD (nextState s true) 0 - branch t u s true))

/-- The largest of some values. -/
def maxOf (vs : List Rat) : Rat := vs.foldl max (vs.headD 0)

/-- The soft value of a channel bit between forward and backward metrics: positive where the best path with a transition beats the
best without one, −31 to +31 (R108). -/
def softValue (t : List Int) (v : List Rat) (u : Rat) (w : List Rat) : Int :=
  let best := fun (trans : Bool) => maxOf ((List.range 16).map (fun s =>
    let a := xor trans (s.testBit 0)
    v.getD s 0 - branch t u s a + w.getD (nextState s a) 0))
  let x := best true - best false
  let n : Int := min 31 (Config.softSize x)
  if 0 < x then n else if x < 0 then -n else 0

/-- The soft values of a window: `warm` samples of warm-up, then 64 channel bits, then 32 of warm-up, oldest first (R108). -/
def mapWindow (t : List Int) (warm : Nat) (us : List Rat) : List Int :=
  let zero := List.replicate 16 (0 : Rat)
  let fwd := us.foldl (fun (acc : List (List Rat)) u => mapForward t (acc.headD zero) u :: acc) [zero]
  let back := us.foldr (fun u (acc : List (List Rat)) => mapBack t u (acc.headD zero) :: acc) [zero]
  let vs := fwd.reverse
  ((List.range 64).map (fun k => softValue t (vs.getD (warm + k) zero) (us.getD (warm + k) 0) (back.getD (warm + k + 1) zero)))

/-- Detect the next window of 64 channel bits once the 32 after it have been presented. -/
def softDetect (g : DspCfg) (d : Datapath) : Datapath :=
  if d.presented < d.softCount + 96 then d else
  let warm := min 32 d.softCount
  let us := (((d.us.drop (d.presented - (d.softCount + 96))).take (96 + warm))).reverse
  { d with soft := ((mapWindow g.target warm us).reverse ++ d.soft).take dspSpan, softCount := d.softCount + 64 }

/-! ### Stage 8: envelope detector (R109) -/

/-- Maximum minus minimum of the last 32 equalised samples. -/
def envelope (zs : List Rat) : Rat :=
  let w := zs.take 32
  w.foldl max (w.headD 0) - w.foldl min (w.headD 0)

/-- The running mean of the envelope. -/
def envMean (envs : List Rat) : Rat := if envs = [] then 0 else envs.sum / envs.length

/-- The detector takes the channel bit just equalised; idle in the index gap. -/
def envDetect (g : DspCfg) (d : Datapath) : Datapath :=
  if g.gap then d else
  let e := envelope d.zs
  let low := decide (e * 100 < g.dfctDrop * envMean d.envs)
  let n := d.count - 1
  match d.dropStart with
  | none =>
    if low then
      if d.below + 1 < g.dfctMin then { d with below := d.below + 1, envs := (e :: d.envs).take 4096 }
      else
        let start := n - d.below
        { d with below := 0, above := 0, dropStart := some start, erased := d.erased ++ [(start - g.dfctGuard, none)] }
    else { d with below := 0, envs := (e :: d.envs).take 4096 }
  | some start =>
    if low then { d with above := 0 }
    else if d.above + 1 < 32 then { d with above := d.above + 1 }
    else
      let stop := n - d.above
      { d with above := 0, dropStart := none, dropouts := d.dropouts ++ [(start, stop - start)],
               erased := d.erased.map (fun x => if x.2 = none then (x.1, some (stop - 1 + g.dfctGuard)) else x) }

/-! ### Adaptation (R90, R94, R95, R99) -/

/-- The gains of a moment (Table 4.2): preamble-aided, Kp, Ki, level step, equaliser step. -/
def schedule (g : DspCfg) (d : Datapath) : Bool × Rat × Rat × Rat × Rat :=
  if g.tracking then (false, halfPow g.kp, halfPow g.ki, halfPow g.gainMu, halfPow g.eqMu)
  else
    let n := match d.detected with | some k => d.count - k | none => 0
    if n < 256 then (true, halfPow 2, halfPow 8, halfPow 4, 16 * halfPow g.eqMu)
    else if n < 768 then (true, halfPow 3, halfPow 10, halfPow 6, 4 * halfPow g.eqMu)
    else (false, halfPow 4, halfPow 12, halfPow 8, halfPow g.eqMu)

/-- How the timing loop stands (Table 4.3): the freewheel is the most restrictive. -/
inductive LoopHold where
  | running | proportional | freewheel
  deriving DecidableEq, Repr

/-- The channel bit `p` stands flagged, or no cluster passes. -/
def Datapath.blind (d : Datapath) (g : DspCfg) (p : Int) : Bool :=
  g.gap || g.lost || g.erasing || flagged d.erased p

/-- The hold of the timing loop at channel bit `p` (Table 4.3); before the preamble is detected a cold acquisition runs free. -/
def timingHold (g : DspCfg) (d : Datapath) (p : Int) : LoopHold :=
  if d.blind g p || (!g.tracking && d.detected.isNone) then .freewheel else if g.inserted then .proportional else .running

/-- The level stage and the equaliser are held (Table 4.3). -/
def levelsHeld (g : DspCfg) (d : Datapath) (p : Int) : Bool :=
  d.blind g p || g.inserted || g.sumDefect || (!g.tracking && d.detected.isNone)
    || (match d.switched with | some k => decide (d.count < k + 64) | none => false)

/-- The known preamble pattern at channel bit `p`: runs of 4T. -/
def preambleLevel (align : Nat) (p : Int) : Int := if (p + align) % 8 < 4 then 1 else -1

/-- The levels of channel bit `p` and the `n − 1` before it, as adaptation knows them, newest first. -/
def Datapath.known (d : Datapath) (aided : Bool) (p : Int) (n : Nat) : List Int :=
  (List.range n).map (fun (i : Nat) => if aided then preambleLevel d.align (p - i) else (d.levelAt (p - i)).getD 0)

/-- The tap changes of the equaliser (R99): tap 7 never adapts, taps 6 and 8 take the mean of their two updates. -/
def eqAdapt (mu err : Rat) (c : Vector Rat 15) (ys : List Rat) : Vector Rat 15 :=
  let step := fun (i : Nat) => mu * err * ys.getD i 0
  c.mapIdx (fun i v =>
    held (-2) (511 / 256) (if i = 7 then v else if i = 6 ∨ i = 8 then v + (step 6 + step 8) / 2 else v + step i))

/-- The level stage and the equaliser adapt on the channel bit that has its decision (R95, R99). -/
def adaptLevels (g : DspCfg) (d : Datapath) (aided : Bool) (levelMu eqMu : Rat) (p : Int) (lag : Nat) : Datapath :=
  let z := (atBit d.zs d.count p).getD 0
  let as := d.known aided p 5
  let ys := d.ys.drop lag
  let long : Int := 8 * (g.target.take 5).sum
  let err := fun (k : Nat) => Config.levelError k long z (ys.drop 7) as
  let run4 := (as.take 4).all (fun a => decide (a = as.headD 0 ∧ a ≠ 0))
  let eq := eqAdapt eqMu (z - referenceOf g.target as) d.eq ys
  { d with gain := if run4 then held (1 / 4) (16383 / 4096) (d.gain + levelMu * err 0) else d.gain,
           offset := held (-32) (511 / 16) (d.offset + levelMu * err 1),
           asym := held (-1 / 8) (127 / 1024) (d.asym + levelMu * err 2),
           eq := eq, eqBound := d.eqBound || eq.toList.any (fun v => decide (v = -2 ∨ v = 511 / 256)) }

/-- The bound of the timing correction: 2,000 ppm (R89). -/
def timingBound : Rat := 2000 / 1000000

/-! ### The lane takes samples -/

/-- Channel bits from the equaliser to the alignment FIFO, so that decisions stand beside their samples (Table 4.1). -/
def decisionLag : Nat := 20

/-- Flag channel bit `n`, which follows those flagged last or begins a span (R76). -/
def flagBit (spans : List (Nat × Option Nat)) (n : Nat) : List (Nat × Option Nat) :=
  match spans.getLast? with
  | some (a, some e) => if e + 1 = n then spans.dropLast ++ [(a, some n)] else spans ++ [(n, some n)]
  | _ => spans ++ [(n, some n)]

/-- One channel bit: `x` is its interpolated sample (Table 4.1, R90). -/
def dspBit (g : DspCfg) (d : Datapath) (x : Rat) : Datapath :=
  let ys := (levelStage d (g.power d.count) x :: d.ys).take 48
  let z := equalise d.eq ys
  let d1 := preDetect g.target z { d with raws := (x :: d.raws).take 32, ys := ys, zs := (z :: d.zs).take dspSpan, count := d.count + 1,
                                          matched := if Config.preambleMatch (x :: d.raws) then d.matched + 1 else 0 }
  let d2 := { d1 with levels := match decision d1 with | some a => (a :: d1.levels).take dspSpan | none => d1.levels }
  let d3 := envDetect g (if g.erasing then { d2 with erased := flagBit d2.erased (d2.count - 1) } else d2)
  let (aided, kp, ki, levelMu, eqMu) := schedule g d3
  let lag : Nat := if aided then 0 else 16
  let p : Int := (d3.count : Int) - 1 - lag
  let d4 := if levelsHeld g d3 p then d3 else adaptLevels g d3 aided levelMu eqMu p lag
  let d5 := (List.range (((d4.count : Int) - decisionLag - g.depth).toNat - d4.presented)).foldl (fun e _ => present g e e.presented) d4
  let d6 := softDetect g d5
  let e := held (-1 / 2) (1 / 2) (Config.phaseError (d6.zs.drop lag) (d6.known aided p 5))
  match timingHold g d6 p with
  | .freewheel => { d6 with acc := d6.acc + g.tau * (1 + d6.freq) }
  | .proportional => { d6 with acc := d6.acc + g.tau * (1 + kp * e + d6.freq) }
  | .running => { d6 with acc := d6.acc + g.tau * (1 + kp * e + d6.freq), freq := held (-timingBound) timingBound (d6.freq + ki * e) }

/-- One ADC sample: a channel bit is made where its instant lies before the next sample (R89). -/
def adcSample (g : DspCfg) (d : Datapath) (x : Int) : Datapath :=
  let d1 := { d with history := (x :: d.history).take 8, acc := d.acc - 1 }
  if d1.acc < 1 then dspBit g d1 (interpolate d1.history (min 63 (64 * max 0 d1.acc).floor.toNat)) else d1

/-- The samples of a list, oldest first; spans of erased bits older than the data held are dropped. -/
def runDatapath (g : DspCfg) (d : Datapath) (samples : List (BitVec 8)) : Datapath :=
  let e := samples.foldl (fun e x => adcSample g e x.toInt) d
  { e with erased := e.erased.filter (fun x => match x.2 with | some k => decide (e.count ≤ k + dspSpan) | none => true) }

/-- A data path that begins to count afresh, with what its loops have learnt: the lanes of a stride revolution begin together, so
that their counts name the same instants (log entry 94). -/
def Datapath.restart (d : Datapath) : Datapath :=
  { Datapath.reset with
      history := d.history, acc := d.acc, freq := d.freq, gain := d.gain, offset := d.offset, asym := d.asym, eq := d.eq,
      outer := d.outer, inner := d.inner, asyncOuter := d.asyncOuter, asyncInner := d.asyncInner, envs := d.envs }

/-- Soft values of the `n` channel bits from `p` on, with whether each is flagged erased; a bit not detected yet is 0 (R108). -/
def Datapath.softFrom (d : Datapath) (p : Int) (n : Nat) : List (Int × Bool) :=
  (List.range n).map (fun (i : Nat) =>
    let e := flagged d.erased (p + i)
    ((atBit d.soft d.softCount (p + i)).getD 0, e))

/-- Hard decisions of the `n` channel bits from `p` on (R108). -/
def Datapath.hardFrom (d : Datapath) (p : Int) (n : Nat) : List Bool := (d.softFrom p n).map (fun x => decide (0 < x.1))

/-- Whether the timing correction stands at a bound (R89). -/
def Datapath.atBound (d : Datapath) : Bool := decide (d.freq ≤ -timingBound ∨ timingBound ≤ d.freq)

/-- The zero-phase start at preamble detection (R92). -/
def zeroStart (g : DspCfg) (d : Datapath) : Datapath :=
  { d with acc := d.acc + g.tau * Config.zeroPhase d.raws, align := Config.preambleAlign d.raws % 8, detected := some d.count }

end Sys2Proof.Machine
end

