-- ==== Sys2Proof/Machine/Lanes.lean ====
section
/-! DEFINITION. The lanes of a bay at work (04_read_channel.md): the parameters a cluster is read with (R119, Table 5.2), the clock of a lane (R89), alignment and canceller sides (R101 to R107), start values (R96), and the taking of samples (Table 4.1). -/

namespace Sys2Proof.Machine

/-! ### Parameters of a cluster (R119, R139) -/

/-- The read channel parameters in force in a bay, for a zone. -/
def State.readParams (s : State) (b : BayNo) (zone : Nat) : ReadParams :=
  { kp := s.bn b Param.rdchTrKp, ki := s.bn b Param.rdchTrKi, preDetect := s.bn b Param.rdchPreDetect, acqWin := s.bn b Param.rdchAcqWin,
    syncWin := s.bn b Param.rdchSyncWin, syncThr := s.bn b Param.rdchSyncThr, insLimit := s.bn b Param.rdchInsLimit,
    insWeight := s.bn b Param.rdchInsWeight, gainMu := s.bn b Param.rdchGainMu, eqMu := s.bn b Param.rdchEqMu,
    itiMu := s.bn b Param.rdchItiMu, itiEnable := s.bn b Param.rdchItiEnable, target := s.bn b (Param.rdchPrTargetZ0 + zone),
    cancelOff := false }

/-- The parameters of a pass of a ladder step: steps 5 and 6 set their own (Table 5.2). -/
def ladderParams (step : Nat × Nat) (p : ReadParams) : ReadParams :=
  if step.1 = 5 then { p with syncWin := 48, syncThr := 8, insLimit := 6, insWeight := 16, acqWin := 1024 }
  else if step = (6, 0) then { p with cancelOff := true }
  else if step = (6, 1) then { p with target := 0x12321 }
  else p

/-- The coefficients t0 to t4 of a target word (R100). -/
def targetOf (w : Nat) : List Int := (List.range 5).map (fun i => ((w / 16 ^ (4 - i) % 16 : Nat) : Int))

/-! ### The clock of a lane (R89) -/

/-- Nominal τ of a zone at a measured speed in 0.01 rpm: 1,250 ÷ (k × 70.4 × N ÷ 5,400) (R89). -/
def nominalTau (zone : Nat) (speed : Int) : Rat := 1250 / (zoneClusters zone * (704 / 10) * ((speed : Rat) / 100) / 5400)

/-- Nominal τ of a lane (R89). -/
def Bay.tau (t : Bay) (l : Beam) : Rat := nominalTau (t.rc.lanes[l]).zone t.spn.speedMeas

/-! ### Syncs of the present cluster -/

/-- The sync of frame `f`, where it was accepted. -/
def Lane.accepted (x : Lane) (f : Nat) : Option Int :=
  (x.syncs.find? (fun r => decide (r.frame = f) && !r.inserted)).map (·.position)

/-- The sync of frame `f`, accepted or inserted. -/
def Lane.sync (x : Lane) (f : Nat) : Option SyncRec := x.syncs.find? (fun r => decide (r.frame = f))

/-- Channel bit `q` lies in a frame marked sync inserted. -/
def Lane.insertedAt (x : Lane) (q : Int) : Bool :=
  x.syncs.any (fun r => r.inserted && decide (r.position ≤ q ∧ q < r.position + 2000))

/-- The count at which the cluster's first preamble channel bit stood, by its last sync or else its prediction (R111). -/
def Lane.clusterStart (x : Lane) : Int :=
  match x.syncs with
  | r :: _ => r.position - 1600 - 2000 * r.frame
  | [] => x.prediction - 1600

/-- The postamble of the cluster begins at this count, once its last sync is known. -/
def Lane.postamble (x : Lane) : Option Int := (x.sync 383).map (fun r => r.position + 2000)

/-! ### Alignment (R102, R103) -/

/-- The reference lane: the highest-numbered in frame lock (R102). -/
def ReadChannel.reference (r : ReadChannel) : Option Beam :=
  ((List.finRange 4).filter (fun (l : Beam) => decide ((r.lanes[l]).phase = .locked))).getLast?

/-- The FIFO depth that the beam offsets of a zone and layer give a lane, against the reference lane or, with none in lock, the
highest-numbered lane in use (R102, R103); none where an offset is unknown. -/
def State.entryDepth (s : State) (b : BayNo) (l : Beam) (zone : Nat) (layer : LayerNo) : Option Int :=
  let ref := (s.bays[b].rc.reference).getD ((s.bays[b].lanesInUse.getLast?).getD 3)
  let off := fun (m : Beam) => (s.startEntry b zone layer m).beamOffset
  let known := fun (m : Beam) => decide (m = 0 ∨ off m ≠ 0)
  if known l && known ref then some ((off ref : Int) - off l) else none

/-! ### Canceller sides (R101, R104 to R107, R163) -/

/-- The NRZ decision of a neighbour at its channel bit `q`: 0 where the bit is flagged, its frame's sync inserted, or not decided
(Table 4.5). -/
def Lane.levelFor (y : Lane) (q : Int) : Int :=
  if flagged y.data.erased q || y.insertedAt q then 0 else (y.data.levelAt q).getD 0

/-- The channel bit of an asynchronous neighbour at the instant of channel bit `p` of the victim: the step is k_neighbour ÷
k_victim, the phase comes from the two accumulators, and the neighbour's FIFO depth is scaled and rounded (R107). -/
def asyncBit (x y : Lane) (tau : Rat) (p : Int) : Rat :=
  let rho : Rat := (zoneClusters y.zone : Rat) / zoneClusters x.zone
  let depth : Int := ((y.depth : Rat) * rho + 1 / 2).floor
  y.data.count + (p - x.data.count + x.depth) * rho + (x.data.acc - y.data.acc) / tau - depth

/-- A neighbour's decisions resampled at a point of its channel bits by the 4-tap interpolator (R107). -/
def Lane.resampled (y : Lane) (q : Rat) : Rat :=
  ((List.range 4).map (fun (t : Nat) => Config.resampleTap (q - q.floor) t * (y.levelFor (q.floor + t - 1) : Int))).sum

/-- What one side of a lane's canceller is given: its seven levels for each channel bit (R104 to R107). -/
def State.cancelSide (s : State) (b : BayNo) (l : Beam) (outer : Bool) : CancelSide :=
  let t := s.bays[b]
  let x := t.rc.lanes[l]
  let seven := fun (f : Int → Rat) (p : Int) => (List.range 7).map (fun (i : Nat) => f (p + i - 3))
  match s.sideMode b l outer, s.writeFeed b l outer, neighbour l outer with
  | .synchronous, some r, _ =>
    { at_ := seven (fun p => ((s.writtenLevel b r (addrSlot x.addr * slotBits + (p - x.clusterStart))).getD 0 : Int)), async := false }
  | .synchronous, none, some n =>
    let y := t.rc.lanes[n]
    { at_ := seven (fun p => (y.levelFor (p + x.depth - y.depth) : Int)), async := false }
  | .asynchronous, _, some n =>
    let y := t.rc.lanes[n]
    { at_ := seven (fun p => y.resampled (asyncBit x y (t.tau n) p)), async := true }
  | _, _, _ => { at_ := fun _ => List.replicate 7 0, async := false }

/-- The relative power B1's channel bit `p` was taken at: that of the level B0's bus selected, by the beam offset of B1, while the
gate is high (R163). -/
def State.powerAt (s : State) (b : BayNo) (l : Beam) (p : Int) : Rat :=
  let t := s.bays[b]
  match t.wp.run with
  | some r =>
    if l = 1 ∧ t.wp.gate = true then
      let x := t.rc.lanes[l]
      let off := (s.startEntry b r.zone r.layer 1).beamOffset
      relativePower (s.strategyBlock b r.layer r.zone)
        (s.busLevel b r (addrSlot x.addr * slotBits + (p - x.clusterStart) + off))
    else 1
  | none => 1

/-! ### Taking samples (Table 4.1) -/

/-- A lane takes samples: not while its own receiver is under calibration with no Relief line in its place (R81). -/
def Bay.laneFed (t : Bay) (l : Beam) : Bool :=
  match t.afe.cal with
  | some c => !(decide (c.step = 5 ∧ c.beam = l ∧ c.recv.val = l.val) && !t.afe.laneRelief[l])
  | none => true

/-- What a lane's data path is given. -/
def State.dspCfg (s : State) (b : BayNo) (l : Beam) : DspCfg :=
  let t := s.bays[b]
  let x := t.rc.lanes[l]
  { tau := t.tau l, tracking := decide (x.phase = .locked), kp := x.par.kp, ki := x.par.ki, gainMu := x.par.gainMu, eqMu := x.par.eqMu,
    itiMu := x.par.itiMu, target := targetOf x.par.target, gap := decide (x.phase = .idle), lost := decide (x.phase = .lost),
    inserted := decide (x.phase = .locked) && x.lastInserted, sumDefect := t.rc.sumDefect,
    edge := fun p => (!x.cold && decide (x.frame = 0)) || (match x.postamble with | some q => decide (q ≤ p) | none => false),
    power := s.powerAt b l, erasing := t.afe.erasing[l], dfctDrop := s.bn b Param.rdchDfctDrop, dfctMin := s.bn b Param.rdchDfctMin,
    dfctGuard := s.bn b Param.rdchDfctGuard, depth := x.depth, outer := s.cancelSide b l true, inner := s.cancelSide b l false }

/-- The sides of a lane in asynchronous mode, outer and inner. -/
def State.asyncNow (s : State) (b : BayNo) (l : Beam) : BitVec 2 :=
  BitVec.ofNat 2 (boolMask [decide (s.sideMode b l true = .asynchronous), decide (s.sideMode b l false = .asynchronous)])

/-- A side of lane `l` in asynchronous mode is remembered for the cluster's write-back, and raises EV_ITI_ASYNC once per cold
acquisition (R97, R105). -/
def State.noteAsync (s : State) (b : BayNo) (l : Beam) : State :=
  let x := s.bays[b].rc.lanes[l]
  let now := s.asyncNow b l
  if x.phase = .idle ∨ now = 0 then s else
  let s1 := s.onLane b l (fun y => { y with asyncSides := y.asyncSides ||| now, asyncRaised := true })
  if x.asyncRaised then s1 else s1.raiseBay b .itiAsync [.u8 l.val]

/-- A lane takes the samples its source has delivered since its last command (Table 4.1). -/
def State.sampled (s : State) (b : BayNo) (l : Beam) (samples : List (BitVec 8)) : State :=
  if !s.bays[b].laneFed l then s else
  let g := s.dspCfg b l
  (s.onLane b l (fun x =>
    { x with data := runDatapath g x.data samples, recvErased := x.recvErased || (g.erasing && !samples.isEmpty) })).noteAsync b l

/-! ### Start values (R91, R96) -/

/-- The key of an asynchronous set: zone boundary, layer and side, 0 outer and 1 inner (R96). -/
def asyncKey (boundary : Nat) (layer : LayerNo) (side : Nat) : Nat := boundary * 32 + layer.val * 2 + side

/-- Canceller taps of a start table field, in LSB (Table 4.4). -/
def tapsOf (v : Vector Int 7) : Vector Rat 7 := v.map (fun (n : Int) => (n : Rat) / 8)

/-- A lane's running values at a cold acquisition (R91, R96): those of the start entry, with the frequency that was held through an
index gap where `held` says so, and the asynchronous sets of the boundary beside each side. -/
def Datapath.loaded (d : Datapath) (e : StartEntry) (held : Bool) (ao ai : Vector Int 7) : Datapath :=
  { d with freq := if held then d.freq else (e.freq : Rat) / 16000000, gain := (e.gain : Rat) / 4096, offset := (e.offset : Rat) / 16,
           asym := (e.asym : Rat) / 1024, eq := e.eq.map (fun (n : Int) => (n : Rat) / 256), outer := tapsOf e.outer, inner := tapsOf e.inner,
           asyncOuter := tapsOf ao, asyncInner := tapsOf ai, matched := 0, detected := none, eqBound := false }

/-- The asynchronous set of one side of a zone: its outer neighbour reads further out, across the zone's outer boundary, its inner
neighbour across the inner one (R96). -/
def ReadChannel.asyncSet (r : ReadChannel) (zone : Nat) (layer : LayerNo) (outer : Bool) : Vector Int 7 :=
  (lookupKey r.asyncSets (asyncKey (if outer then zone else zone - 1) layer (if outer then 0 else 1))).getD (Vector.replicate 7 0)

end Sys2Proof.Machine
end

