-- ==== Sys2Proof/Machine/ReadChannel.lean ====
section
/-! DEFINITION. The commands of the read channel (04_read_channel.md): acquisition (R91 to R93), the sync search and flywheel (R111 to R115), alignment (R102), frame records and the forming of codewords (R116, R117, R126), write-back of the start table (R97, R98), and the defect detector (R109, R110). Each command's `samples` are the codes its lane's source delivered since the lane's last command; a command whose moment has not come only takes them (log entry 94). -/

namespace Sys2Proof.Machine

/-! ### The sync search (R112, R113) -/

/-- The positions in which two runs of bits differ. -/
def hamming : List Bool → List Bool → Nat
  | a :: as, b :: bs => b2n (xor a b) + hamming as bs
  | _, _ => 0

/-- The frame-number code of a candidate (R113): pairs that read wrong reject it; the answer counts the invalid pairs. -/
def codePairs : List Bool → List Bool → Option Nat
  | a :: b :: rest, e :: es =>
    if a = b then (codePairs rest es).map (· + 1)
    else if a = e then codePairs rest es else none
  | _, _ => some 0

/-- The frame-number code of a candidate is good for `c`: at most one pair is invalid (R113). -/
def codeOk (cb : List Bool) (c : Nat) : Bool :=
  match codePairs cb (syncCode c) with
  | some n => decide (n ≤ 1)
  | none => false

/-- One candidate of the sync search, at `x` relative to the prediction: it replaces the best so far when it qualifies and is
nearer in distance, or equally near and closer to the prediction (R112). -/
def searchSync (bits : List Bool) (c thr w : Nat) (best : Option (Int × Nat)) (k : Nat) : Option (Int × Nat) :=
  let seg := (bits.drop k).take 40
  let d := hamming seg (syncPattern c)
  let x : Int := k - w
  if d ≤ thr ∧ seg.length = 40 ∧ codeOk ((seg.drop 13).take 12) c = true then
    match best with
    | none => some (x, d)
    | some (y, e) => if d < e ∨ (d = e ∧ x.natAbs < y.natAbs) then some (x, d) else best
  else best

/-- The sync search of frame `f` (R112): `bits` are the hard decisions from p − w; the answer is the accepted position relative
to the prediction, and its distance. -/
def syncSearch (bits : List Bool) (f w thr : Nat) : Option (Int × Nat) :=
  (List.range (2 * w + 1)).foldl (searchSync bits (f % 8) thr w) none

/-! ### Reassembly entries (R131 to R133, R137, R139) -/

/-- The demand commands that want a user cluster from the disc in a bay. -/
def State.wanting (s : State) (vid : VolId) (u : Nat) : List CmdId :=
  (s.cmds.filter (fun c => decide (c.wait = .disc ∧ (c.opcode = 1 ∨ c.opcode = 4)) && c.cover.contains (vid, u))).map (·.id)

/-- A free reassembly entry of a bay, by the free start of log entry 9. -/
def BayDecode.freeEntry (d : BayDecode) (n : Nat) : Option Nat :=
  let start := Config.entryStart n % 128
  ((List.range 128).map (fun i => (start + i) % 128)).find? (fun i => (lookupKey d.entries i).isNone)

/-- Entries that hold Updraft clusters (R131). -/
def BayDecode.updraftEntries (d : BayDecode) : Nat := (d.entries.filter (fun e => decide (e.2.cls = .updraft))).length

/-- A fresh entry (R131), with its Ballast buffers and the parameters its cluster is read with. -/
def Entry.fresh (use : EntryUse) (addr home : ClusterAddr) (vid : VolId) (seq : BitVec 32) (beam : Beam) (cls : CwClass)
    (gen : BitVec 32) (reqs : List CmdId) (par : ReadParams) (bufs : List (BitVec 32)) : Entry :=
  { use := use, addr := addr, home := home, vid := vid, seq := seq, seqs := [], beam := beam, failedBeam := beam, par := par, cls := cls, gen := gen,
    cws := Vector.replicate 36 .missing, bufs := bufs.take 2, parity := bufs.drop 2, soft := [], erased := Vector.replicate 36 0,
    kept := Vector.replicate 36 [], tried := 0, frames := 0, submitted := 0, requests := reqs, late := false, promoted := false,
    reread := 0, ran := false, judged := false, identical := false, ladder := 0, stage := .idle, metaFail := false, maxIters := 0, repaired := 0,
    status := none }

/-- A codeword at the start of a further pass: good ones stay, and so do those whose results are outstanding or not judged yet
(R133, R136). -/
def CwState.carriedOn : CwState → CwState
  | .failed => .missing
  | .skipped => .missing
  | c => c

/-- An entry at the start of a further pass (R133); a scheduled identical re-read is now under way. -/
def Entry.newPass (e : Entry) (seq : BitVec 32) (beam : Beam) (reqs : List CmdId) (par : ReadParams) : Entry :=
  { e with seq := seq, seqs := e.seq :: e.seqs, beam := beam, cws := e.cws.map CwState.carriedOn, soft := [],
           erased := Vector.replicate 36 0, frames := 0, submitted := 0, requests := (e.requests ++ reqs).dedup,
           par := if e.reread = 2 ∨ e.cls = .retry then e.par else par,
           identical := e.identical || decide (e.reread = 2), reread := 0, ran := false, late := false, promoted := false,
           metaFail := false }

/-- The focus offsets, nm, and tilt offsets, 0.01°, of the passes of step 7 (Table 5.2). -/
def stepOffsets : List (Int × Int) := [(-40, 0), (40, 0), (-80, 0), (80, 0), (0, -10), (0, 10)]

/-- The offsets a pass of the ladder is read with (R187, Table 5.2). -/
def passOffsets (step n : Nat) : Int × Int := if step = 7 then stepOffsets.getD n (0, 0) else (0, 0)

/-- The beam a pass of a ladder step reads with: (b + 2) mod 4 in step 4, else b, the beam of the failed pass (Table 5.2). -/
def Entry.passBeam (e : Entry) : Beam := if e.ladder = 4 then e.failedBeam + 2 else e.failedBeam

/-- A pass of an open entry may begin with beam `l`: a late re-read with any, the identical one and a ladder pass with their own,
where that lane has a receiver, the ladder's with the offsets of its pass in force (R137, R139, R187). -/
def Bay.mayReread (t : Bay) (e : Entry) (l : Beam) : Bool :=
  let own := fun (m : Beam) => decide (l = m) || !t.laneHasReceiver m
  match e.stage with
  | .pass n => decide (e.cls = .retry ∧ e.frames = 0 ∧ (t.srv.offFocus, t.srv.offTilt) = passOffsets e.ladder n)
      && (decide (e.ladder = 8) == t.seq.visiting) && own e.passBeam
  | _ => decide (e.cls = .demand) && !t.seq.visiting && (decide (e.reread = 1) || (decide (e.reread = 2) && own e.beam))

/-- A demand cluster that cannot be read now is late (R131, R136, R247): EV_CLUSTER_LATE, and it waits for the bay's next pass
over its turn. -/
def State.lateUnread (s : State) (b : BayNo) (home read : ClusterAddr) : State :=
  (s.raiseBay b .clusterLate).onSeq b (fun q =>
    { q with demand := if q.demand.any (fun x => decide (x.2 = read)) then q.demand else q.demand ++ [(home, read)] })

/-- The Updraft run of a bay wants a cluster (R143): within its depth, and neither open nor in the store. -/
def Bay.updraftWants (t : Bay) (home read : ClusterAddr) : Bool :=
  match t.dec.updraft with
  | some r => decide (addrLayer r.next = addrLayer home ∧ posOfAddr r.next ≤ posOfAddr home
      ∧ posOfAddr home < posOfAddr r.next + r.left) && (t.dec.entryAt read).isNone
      && !(t.dec.store.any (fun e => decide (e.addr = read)))
  | none => false

/-- A cluster is no longer queued for reading. -/
def Seq.taken (q : Seq) (read : ClusterAddr) : Seq := { q with demand := q.demand.filter (fun x => !decide (x.2 = read)) }

/-- The sizes of an entry's buffers: data bytes, metadata and state, parity (R131). -/
def entrySizes : List Nat := [65536, 4096, 4096, 4096]

/-- Open a fresh entry (R131): with none free EV_REASM_FULL once a revolution; a demand cluster that finds no entry, or no buffers
(log entry 74), is late, and a verify read is not made. -/
def State.openFresh (s : State) (b : BayNo) (l : Beam) (home read : ClusterAddr) (seq : BitVec 32) (reqs : List CmdId)
    (cls : CwClass) (use : EntryUse) : State × Bool :=
  let t := s.bays[b]
  let (n, s0) := s.fresh
  let verify := match use with | .verify _ => true | _ => false
  let late := fun (u : State) => if cls = .demand ∧ verify = false then u.lateUnread b home read else u
  if cls = .updraft ∧ 64 ≤ t.dec.updraftEntries then (s, false) else
  match t.dec.freeEntry n with
  | none =>
    (late (if t.dec.fullRaised then s else (s.raiseBay b .reasmFull).onDec b (fun d => { d with fullRaised := true })), false)
  | some i =>
    match s0.takeAll (bayOwner b) entrySizes with
    | (s1, none) => (late s1, false)
    | (s1, some bufs) =>
      let e := Entry.fresh use read home t.vid seq l cls (if cls = .updraft then t.dec.gen else 0) reqs
        (s.readParams b (zoneOfTurn (addrTurn read))) bufs
      ((s1.onDec b (fun d => { d with entries := insertKey d.entries i e })).onSeq b (fun q => q.taken read), true)

/-- The verify read of a written cluster, before its first frame (R166). -/
def VerifyTally.begin (x : WriteItem) : VerifyTally :=
  { item := x, raw := 0, run := 0, longest := 0, addressOk := false, locked := false, inserted := 0, receiver := false }

/-- The entry of B1's read of a cluster that the run has written and not judged (R163, R166); the lane reads on without one. -/
def State.openVerify (s : State) (b : BayNo) (l : Beam) (read : ClusterAddr) (seq : BitVec 32) : State :=
  let x := match s.bays[b].wp.run with
    | some r => r.unjudged.find? (fun x => decide (x.home = read))
    | none => none
  match x with
  | some x => if l = 1 ∧ (s.bays[b].dec.entryAt read).isNone = true
      then (s.openFresh b l read read seq [] .demand (.verify (VerifyTally.begin x))).1 else s
  | none => s

/-- Q-n opens or takes up the entry of a cluster that a request, a mount or Updraft wants, before the lane acquires it (R131 to
R133, R137 to R139); the answer says whether the cluster is acquired. -/
def State.openEntry (s : State) (b : BayNo) (l : Beam) (home read : ClusterAddr) (cls : CwClass) (seq : BitVec 32) :
    State × Bool :=
  let t := s.bays[b]
  let reqs := match uclOf home with | some u => s.wanting t.vid u | none => []
  let management := t.seq.scan.isSome && decide (areaOf read = .management) && t.seq.demand.any (fun x => decide (x.2 = read))
  match t.dec.entryAt read with
  | some (i, e) =>
    if cls ≠ .updraft ∧ t.mayReread e l = true then
      ((s.onEntry b i (fun x => x.newPass seq l reqs (s.readParams b (zoneOfTurn (addrTurn read))))).onSeq b (fun q => q.taken read), true)
    else (s, true)
  | none =>
    if cls = .demand ∧ management = true then s.openFresh b l home read seq [] .demand .management
    else if cls = .demand ∧ reqs ≠ [] then s.openFresh b l home read seq reqs .demand .host
    else if cls = .updraft ∧ t.updraftWants home read = true then s.openFresh b l home read seq [] .updraft .host
    else (s, true)

/-! ### Acquisition (R91 to R93) -/

/-- Lanes that take channel bits in a state (R106, R246): in WRITING B1, and B2 for its neighbour's sake; after a layer jump has
landed, to confirm the layer (R185). -/
def Bay.laneReads (t : Bay) (l : Beam) : Bool :=
  if t.seq.st = .writing then decide (l = 1 ∨ l = 2) && t.laneHasReceiver l
  else (decide (t.seq.st = .reading) || (decide (t.seq.st = .layerJump) && t.srv.tracking.locked)) && t.lanesInUse.contains l

/-- The ladder step and pass that a lane reads a cluster for, 0 outside the ladder. -/
def Bay.stepOf (t : Bay) (l : Beam) (read : ClusterAddr) : Nat × Nat :=
  match t.dec.entryAt read with
  | some (_, e) => match e.stage with
    | .pass n => if e.beam = l then (e.ladder, n) else (0, 0)
    | _ => (0, 0)
  | none => (0, 0)

/-- The parameters a lane reads a cluster with: those of the first pass in an identical re-read, else those in force, as a ladder
step sets them (R137, R139). -/
def State.clusterParams (s : State) (b : BayNo) (l : Beam) (read : ClusterAddr) : ReadParams :=
  let t := s.bays[b]
  let now := s.readParams b (zoneOfTurn (addrTurn read))
  match t.dec.entryAt read with
  | some (_, e) => if e.identical ∧ e.beam = l then e.par else ladderParams (t.stepOf l read) now
  | none => now

/-- The count at which slot `j`'s sync is predicted at a cold acquisition: that at which its first preamble channel bit passes the
beam, by the wobble phase in cycles since the index, plus 1,600 (R111). -/
def coldPrediction (count : Nat) (zone slot : Nat) (cycle : Rat) : Int :=
  count + ((slot * slotBits : Nat) - bitsAt zone cycle).ceil + 1600

/-- The start values of a lane's cluster (R96): its entry, or the nominal values in the ladder's steps 3 and 8 (Table 5.2). -/
def State.startFor (s : State) (b : BayNo) (l : Beam) (read : ClusterAddr) (step : Nat) : StartEntry :=
  let z := zoneOfTurn (addrTurn read)
  let e := s.startEntry b z (addrLayer read) l
  if step = 3 ∨ step = 8 then nominalStart e.beamOffset else e

/-- A lane takes up a cluster, cold or warm (R91, R96, R102): a cold acquisition loads its start values, and the depth that its
beam offset gives; it keeps the frequency held through an index gap. The counted row, and with it the uncounted run, carries
across a warm acquisition (R115; for the uncounted run DESIGN CHOICE, log entry 94). -/
def State.takeCluster (s : State) (b : BayNo) (l : Beam) (home read : ClusterAddr) (cls : CwClass) (seq : BitVec 32)
    (cold first : Bool) (cycle : Rat) : State :=
  let t := s.bays[b]
  let zone := zoneOfTurn (addrTurn read)
  let layer := addrLayer read
  let step := t.stepOf l read
  let e := s.startFor b l read step.1
  let par := s.clusterParams b l read
  let depth := s.entryDepth b l zone layer
  s.onLane b l (fun x =>
    let held := x.endedLocked && decide (addrLayer x.addr = layer ∧ step.1 ≠ 3 ∧ step.1 ≠ 8)
    let d0 := if first then x.data.restart else x.data
    let d := if cold then d0.loaded e held (t.rc.asyncSet zone layer true) (t.rc.asyncSet zone layer false)
      else { d0 with eqBound := false }
    { x with phase := if cold then .searching else .locked, addr := read, home := home, seq := seq, cls := cls, cold := cold,
             step := step, par := par, data := d, frame := 0,
             prediction := if cold then coldPrediction d.count zone (addrSlot read) cycle else x.prediction, syncs := [],
             counted := if cold then 0 else x.counted, uncounted := if cold then 0 else x.uncounted,
             inserted := 0, lossFrame := none, released := 0, depth := if cold then depth.getD x.depth else x.depth,
             asyncRaised := if cold then false else x.asyncRaised, asyncSides := 0, eqRaised := false, recvErased := false,
             endedLocked := false })

/-- CLUSTER_ACQUISITION (R91, R131): a lane starts a cluster: cold where it is the first of its turn, where the lane did not end the
cluster before, in the same turn, in frame lock, and in the ladder's steps 3 and 8. `cycle` is the wobble phase under the
lane's beam, in cycles since the index. The cluster sequence is that of the stride revolution (log entry 77). -/
def execClusterAcquisition (b : BayNo) (l : Beam) (home read : ClusterAddr) (cls : CwClass) (first : Bool) (cycle : Rat)
    (samples : List (BitVec 8)) (s : State) : Res :=
  if !s.dspRuns then .next s else
  let t := s.bays[b]
  if !t.laneReads l then .next s else
  let s0 := (s.sampled b l samples).takeEffect .nextCluster b
  let old := t.rc.lanes[l]
  let seq := if first then (if old.seq = t.rc.nextSeq then t.rc.nextSeq + 1 else t.rc.nextSeq) else old.seq
  let (s1, go) := if t.seq.st = .writing then (s0.openVerify b l read seq, true) else s0.openEntry b l home read cls seq
  if !go then .next s1 else
  let step := (s1.bays[b].stepOf l read).1
  let cold := first || !old.endedLocked || decide (addrTurn old.addr ≠ addrTurn read ∨ addrLayer old.addr ≠ addrLayer read
    ∨ step = 3 ∨ step = 8)
  .next ((s1.takeCluster b l home read cls seq cold first cycle).onRc b (fun r =>
    { r with nextSeq := if first then seq else r.nextSeq }))

/-- PREAMBLE_DETECT (R92): the lane has matched the 4T pattern for RDCH.PRE_DETECT channel bits: it makes its zero-phase start, and
the schedule of Table 4.2 runs. -/
def execPreambleDetect (b : BayNo) (l : Beam) (samples : List (BitVec 8)) (s : State) : Res :=
  if !s.dspRuns then .next s else
  let s1 := s.sampled b l samples
  let x := s1.bays[b].rc.lanes[l]
  if x.phase = .searching ∧ x.par.preDetect ≤ x.data.matched then
    let g := s1.dspCfg b l
    .next (s1.onLane b l (fun y => { y with phase := .acquiring, data := zeroStart g y.data }))
  else .next s1

/-! ### Alignment (R102) -/

/-- Move a lane's FIFO depth by an accepted pair of syncs: set at a cold acquisition's frame 0, by at most 1 afterwards; out of
range, EV_ALIGN_RANGE and its canceller sides disabled until a later cold acquisition. -/
def State.alignLane (s : State) (b : BayNo) (m : Beam) (diff : Int) (cold : Bool) : State :=
  let x := s.bays[b].rc.lanes[m]
  let d := if cold then diff else if x.depth < diff then x.depth + 1 else if diff < x.depth then x.depth - 1 else x.depth
  let bad := decide (d < 0 ∨ 4095 < d)
  let s1 := s.onLane b m (fun y => { y with depth := d, alignBad := bad || (y.alignBad && !cold) })
  if bad && !x.alignBad then s1.raiseBay b .alignRange [.u8 m.val] else s1

/-- The offset of a lane from B0 is written to its start table entry, where B0 is aligned too (R102). -/
def State.learnOffset (s : State) (b : BayNo) (m : Beam) : State :=
  let x := s.bays[b].rc.lanes[m]
  let z := s.bays[b].rc.lanes[(0 : Beam)]
  if m = 0 ∨ z.phase ≠ .locked ∨ z.depth < x.depth ∨ 4095 < z.depth - x.depth ∨ z.zone ≠ x.zone then s else
  let e := s.startEntry b x.zone (addrLayer x.addr) m
  s.onRc b (fun r =>
    { r with start := insertKey r.start (startKey x.zone (addrLayer x.addr) m) { e with beamOffset := (z.depth - x.depth).toNat } })

/-- Lane `l` has accepted the sync of frame `f`: the depths it fixes (R102), against the reference lane, of lanes whose
clusters lie in the same zone. Offsets are written at the frame 0 syncs of cold acquisitions. -/
def State.align (s : State) (b : BayNo) (l : Beam) (f : Nat) : State :=
  match s.bays[b].rc.reference with
  | none => s
  | some ref =>
    let r := s.bays[b].rc.lanes[ref]
    let others := (if l = ref then List.finRange 4 else [l]).filter (fun (m : Beam) =>
      let x := s.bays[b].rc.lanes[m]
      decide (m ≠ ref ∧ x.phase = .locked ∧ x.zone = r.zone) && (x.accepted f).isSome && (r.accepted f).isSome)
    let s0 := if l = ref ∧ r.cold ∧ f = 0 then s.alignLane b ref 0 true else s
    let s1 := others.foldl (fun (t : State) (m : Beam) =>
      let x := t.bays[b].rc.lanes[m]
      t.alignLane b m ((r.accepted f).getD 0 - (x.accepted f).getD 0) (x.cold && decide (f = 0))) s0
    if f = 0 ∧ r.cold = true ∧ others ≠ [] then (List.finRange 4).foldl (fun t m =>
        if m = ref ∨ others.contains m then t.learnOffset b m else t) s1
    else s1

/-! ### Syncs and lock loss (R111 to R115) -/

/-- The flywheel's next prediction from a sync at `x` (R111). -/
def nextSync (f : Nat) (x : Int) : Int := if f = 383 then x + 4000 else x + 2000

/-- A lane loses frame lock at frame `f` (R115): EV_FRAME_LOCK_LOSS with the cause, 0 counted insertions, 1 uncounted
insertions, 2 the timing range. -/
def State.lockLoss (s : State) (b : BayNo) (l : Beam) (f cause : Nat) : State :=
  (s.onLane b l (fun x => { x with phase := .lost, lossFrame := some f, endedLocked := false, counted := 0, uncounted := 0 })).raiseBay
    b .frameLockLoss [.u8 l.val, .u16 f, .u8 cause]

/-- A sync is inserted at the prediction (R114), counted or not. A counted insertion leaves the row of uncounted ones as it is
(DESIGN CHOICE, log entry 94). -/
def State.insertSync (s : State) (b : BayNo) (l : Beam) (counted : Bool) : State :=
  let f := (s.bays[b].rc.lanes[l]).frame
  let s1 := s.onLane b l (fun x =>
    { x with prediction := nextSync f x.prediction, frame := f + 1, inserted := x.inserted + 1,
             syncs := { frame := f, position := x.prediction, offset := 0, distance := 63, inserted := true } :: x.syncs,
             counted := if counted then x.counted + 1 else x.counted,
             uncounted := if counted then x.uncounted else x.uncounted + 1 })
  let s2 := if counted then s1.raiseBay b .syncInserted [.u8 l.val] else s1
  let x := s2.bays[b].rc.lanes[l]
  if x.par.insLimit ≤ x.counted then s2.lockLoss b l f 0
  else if 24 ≤ x.uncounted then s2.lockLoss b l f 1
  else s2

/-- A sync is accepted at `x` from the prediction, with distance `d`: the lane is in frame lock and its runs reset (R114). -/
def State.acceptSync (s : State) (b : BayNo) (l : Beam) (x : Int) (d : Nat) : State :=
  let f := (s.bays[b].rc.lanes[l]).frame
  let s1 := s.onLane b l (fun y =>
    { y with phase := .locked, prediction := nextSync f (y.prediction + x), frame := f + 1,
             syncs := { frame := f, position := y.prediction + x, offset := x, distance := d, inserted := false } :: y.syncs,
             counted := 0, uncounted := 0 })
  (s1.align b l f).noteAsync b l

/-- A cold acquisition fails (R93): EV_ACQ_FAIL, and the records of the cluster are erased. -/
def State.acqFails (s : State) (b : BayNo) (l : Beam) : State :=
  (s.onLane b l (fun x => { x with phase := .lost, lossFrame := none, endedLocked := false })).raiseBay b .acqFail [.u8 l.val]

/-- The half-window of the lane's next search (R112). -/
def Lane.window (x : Lane) : Nat := if x.cold && decide (x.frame = 0) then x.par.acqWin else x.par.syncWin

/-- FRAME_SYNC_SEARCH (R93, R112 to R115): the soft-output detector has passed p + w + 39: the best candidate of the window is
accepted, or a sync is inserted, or a cold acquisition fails. -/
def execFrameSyncSearch (b : BayNo) (l : Beam) (samples : List (BitVec 8)) (s : State) : Res :=
  if !s.dspRuns then .next s else
  let s1 := s.sampled b l samples
  let x := s1.bays[b].rc.lanes[l]
  let p := x.prediction
  let w := x.window
  if 384 ≤ x.frame ∨ (x.data.softCount : Int) < p + w + 40 then .next s1 else
  let start := x.cold && decide (x.frame = 0)
  let erased := (List.range 40).any (fun (i : Nat) => flagged x.data.erased (p + i))
  match x.phase with
  | .idle => .next s1
  | .lost => .next s1
  | .searching => .next (s1.acqFails b l)
  | _ =>
    match (if erased then none else syncSearch (x.data.hardFrom (p - w) (2 * w + 40)) x.frame w x.par.syncThr) with
    | some (q, d) => .next (s1.acceptSync b l q d)
    | none => if start then .next (s1.acqFails b l) else .next (s1.insertSync b l (!erased))

/-- TIMING_RANGE (R89, R115): the timing correction of a lane stands at its bound: EV_TIMING_RANGE and frame-lock loss from the
frame in progress. -/
def execTimingRange (b : BayNo) (l : Beam) (samples : List (BitVec 8)) (s : State) : Res :=
  if !s.dspRuns then .next s else
  let s1 := s.sampled b l samples
  let x := s1.bays[b].rc.lanes[l]
  if x.phase = .idle ∨ x.phase = .lost ∨ x.data.atBound = false then .next s1
  else .next ((s1.raiseBay b .timingRange [.u8 l.val]).lockLoss b l (x.frame - 1) 2)

/-! ### Frame records (R116, R117) -/

/-- A frame record (Table 4.6): the soft data carry with each value whether it was forced to 0. -/
structure FrameRecord where
  seq : BitVec 32
  beam : Beam
  frame : Nat
  flags : BitVec 4
  offset : Int
  distance : Nat
  address : BitVec 48
  source : BitVec 2
  soft : List (Int × Bool)
  deriving DecidableEq, Repr

/-- Data bits with L forced to 0 (Table 4.6). -/
def FrameRecord.erasedBits (r : FrameRecord) : Nat := (r.soft.filter (·.2)).length

/-- Channel bits of a frame before its data stream: the sync, and in frame 0 the address field (Table 2.4). -/
def frameHead (f : Nat) : Nat := if f = 0 then 352 else 40

/-- Soft values as they are delivered: 0 where flagged, weighted in a frame marked sync inserted, toward zero (R108). -/
def delivered (weight : Nat) (inserted : Bool) (x : Int × Bool) : Int × Bool :=
  (if x.2 then 0 else if inserted then (x.1 * weight).tdiv 16 else x.1, x.2)

/-- The records of a frame are erased from a lock loss on, and after a failed acquisition (R93, R115). -/
def Lane.lossAt (x : Lane) (f : Nat) : Bool :=
  decide (x.phase = .lost) && (match x.lossFrame with | some k => decide (k ≤ f) | none => true)

/-- The soft data of frame `f` in recording order: its channel bits, with the fifth of each word dropped (R116). -/
def Lane.frameSoft (x : Lane) (f : Nat) : List (Int × Bool) :=
  match x.lossAt f, x.sync f with
  | false, some r =>
    demodulate (streamBefore f)
      (((x.data.softFrom (r.position + frameHead f) (2000 - frameHead f))).map (delivered x.par.insWeight r.inserted))
  | _, _ => List.replicate (dataBefore (f + 1) - dataBefore f) (0, true)

/-- Which channel bits of frame `f` are erased. -/
def Lane.frameFlags (x : Lane) (f : Nat) : List Bool :=
  match x.lossAt f, x.sync f with
  | false, some r => (x.data.softFrom r.position 2000).map (·.2)
  | _, _ => List.replicate 2000 true

/-- The cluster address field of frame 0 as it was read: its bytes, and those with a flagged channel bit (R49, R117). -/
def Lane.fieldRead (x : Lane) : List Byte × List Nat :=
  match x.lossAt 0, x.sync 0 with
  | false, some r =>
    let bits := x.data.softFrom (r.position + 46) 306
    let word := fun (i : Nat) => (bits.drop (9 * i)).take 9
    ((List.range 34).map (fun i => byteOfWord ((word i).map (fun v => decide (0 < v.1)))),
      (List.range 34).filter (fun i => (word i).any (·.2)))
  | _, _ => (List.replicate 34 0, List.range 34)

/-- The address information Q-n expects, from the wobble address word and the slot count, and the disc identifier where a set has
been read (R117). -/
def Bay.expectedInfo (t : Bay) (a : ClusterAddr) : BitVec 48 := addrInfo a t.discId

/-- Read address information agrees with what is expected: in all its bits, but for the disc identifier before a set is known. -/
def Bay.infoAgrees (t : Bay) (a : ClusterAddr) (info : BitVec 48) : Bool :=
  let known := match t.seq.disc with | some d => d.mgmt.isSome | none => false
  if known then decide (info = t.expectedInfo a) else decide (info.setWidth 32 = (t.expectedInfo a).setWidth 32)

/-- The address of frame 0's record and its source: 0 decoded and agreeing, 1 the expected address in its place, 2 decoded and
mismatching (R117, Table 4.6). -/
def Bay.recordAddress (t : Bay) (x : Lane) : BitVec 48 × BitVec 2 :=
  let f := x.fieldRead
  match decodeAddrField f.2 f.1 with
  | none => (t.expectedInfo x.addr, 1)
  | some info => (info, if t.infoAgrees x.addr info then 0 else 2)

/-- The record of frame `f` of a lane (Table 4.6). -/
def Bay.frameRecord (t : Bay) (l : Beam) (f : Nat) : FrameRecord :=
  let x := t.rc.lanes[l]
  let soft := x.frameSoft f
  let sync := x.sync f
  let inserted := (sync.map (·.inserted)).getD true
  let lost := x.lossAt f && x.lossFrame.isSome
  let switched := match sync, x.data.switched with
    | some r, some k => decide (r.position ≤ k ∧ (k : Int) < r.position + 2000)
    | _, _ => false
  let a := if f = 0 then t.recordAddress x else (0, 0)
  { seq := x.seq, beam := l, frame := f,
    flags := BitVec.ofNat 4 (boolMask [inserted, soft.any (·.2), lost, switched]),
    offset := (sync.map (·.offset)).getD 0, distance := (sync.map (·.distance)).getD 63, address := a.1, source := a.2, soft := soft }

/-- A frame's record may be released (R88, R116): a fixed time after its last channel bit has passed the soft-output detector, or
at once where it is erased. -/
def State.recordReady (s : State) (b : BayNo) (x : Lane) : Bool :=
  let f := x.released
  let wait := max 320 (s.bn b Param.rdchDfctMin + s.bn b Param.rdchDfctGuard + 64)
  if 384 ≤ f ∨ x.phase = .idle then false
  else if x.lossAt f then true
  else match x.sync f with
    | some r => decide (r.position + 2000 ≤ x.data.softCount ∧ r.position + 2000 + 145 + wait + x.depth ≤ x.data.count)
    | none => false

/-! ### Codewords (R123, R126, R134) -/

/-- A codeword whose erased bits exceed DEC.ERASE_SKIP per cent is skipped (R123); 100 never skips. -/
def State.skips (s : State) (erased : Nat) : Bool :=
  let p := s.dn Param.decEraseSkip
  decide (p < 100 ∧ p * cwBits < 100 * erased)

/-- The index of the kept pass to drop: that with the highest syndrome weight, the later of equals (R134). -/
def worstPass (ks : List KeptPass) : Nat :=
  let w := ks.map (fun k => syndromeWeight (hardBits k.soft))
  (List.range ks.length).foldl (fun best i => if w.getD best 0 ≤ w.getD i 0 then i else best) 0

/-- Q-n keeps the soft input of codeword `k` in four 4 KiB Ballast buffers, of at most DEC.COMBINE_MAX passes those with the lowest
syndrome weight; without buffers it keeps none (R134, log entry 74). -/
def State.keepPass (s : State) (b : BayNo) (i k : Nat) (soft : List Int) (erased : Nat) : State :=
  match s.takeAll (bayOwner b) [4096, 4096, 4096, 4096], lookupKey s.bays[b].dec.entries i with
  | (s1, some bufs), some e =>
    let all := (e.kept.toList.getD k []) ++ [{ soft := soft, erased := erased, bufs := bufs }]
    let out := if s.bn b Param.decCombineMax < all.length then worstPass all else all.length
    let s2 := match all[out]? with | some x => s1.giveAll (bayOwner b) x.bufs | none => s1
    s2.onEntry b i (fun x => { x with kept := x.kept.setIfInBounds k (all.eraseIdx out) })
  | (s1, _), _ => s1

/-- The results of a codeword still outstanding. -/
def CwState.left : CwState → Nat
  | .queued n => n
  | .converged _ n => n
  | _ => 0

/-- A codeword that is submitted once more. -/
def CwState.oneMore : CwState → CwState
  | .converged d n => .converged d (n + 1)
  | c => .queued (c.left + 1)

/-- A codeword of an entry joins its queue, with soft values and their erased count (R125, R126). -/
def State.enqueue (s : State) (b : BayNo) (i k : Nat) (soft : List Int) (erased : Nat) : State :=
  match lookupKey s.bays[b].dec.entries i with
  | none => s
  | some e =>
    if h : i < 128 then
      (s.onEntry b i (fun x => { x with cws := x.cws.setIfInBounds k (x.cw k).oneMore })).onPool (fun p =>
        { p with waiting := p.waiting ++
            [{ bay := b, beam := e.beam, entry := ⟨i, h⟩, cw := k, cls := e.cls, gen := if e.cls = .updraft then e.gen else 0,
               seq := e.seq, erased := erased, soft := soft, repeatOf := none, avoid := none, limit := 0 }] })
    else s

/-- Q-n submits codeword `k` of an entry, where it is not good yet (R126, R133): to its queue, or skipped at once (R123). -/
def State.submit (s : State) (b : BayNo) (i k : Nat) (soft : List Int) : State :=
  match lookupKey s.bays[b].dec.entries i with
  | none => s
  | some e =>
    if (e.cw k).isGood then s else
    let n := e.erased.toList.getD k 0
    let s1 := s.keepPass b i k soft n
    if s.skips n then
      s1.onEntry b i (fun x => { x with cws := x.cws.setIfInBounds k (if x.cw k = .missing then .skipped else x.cw k) })
    else s1.enqueue b i k soft n

/-- The codewords that end in a frame, with their soft values, from the bits not yet formed; and what is left of these (R126). -/
def formed : (n : Nat) → (k : Nat) → List Int → List (Nat × List Int) × List Int
  | 0, _, soft => ([], soft)
  | n + 1, k, soft =>
    if cwBits ≤ soft.length then
      let r := formed n (k + 1) (soft.drop cwBits)
      ((k, soft.take cwBits) :: r.1, r.2)
    else ([], soft)

/-- Erased data bits of a record counted to each codeword (R123). -/
def countErased (v : Vector Nat 36) (f : Nat) (soft : List (Int × Bool)) : Vector Nat 36 :=
  (soft.zipIdx (dataBefore f)).foldl (fun (w : Vector Nat 36) x =>
    if x.1.2 then w.setIfInBounds (x.2 / cwBits) (w.toList.getD (x.2 / cwBits) 0 + 1) else w) v

/-- The longest run of set flags that ends where a list does, behind `run` set ones, and the longest of all. -/
def flagRuns (run longest : Nat) (fs : List Bool) : Nat × Nat :=
  fs.foldl (fun (x : Nat × Nat) f => if f then (x.1 + 1, max x.2 (x.1 + 1)) else (0, x.2)) (run, longest)

/-- The coded bits of codewords, in recording order (R50, R126). -/
def codedBits (cws : List CwData) : List Bool := cws.flatMap (fun d =>
  let c := cwEncode d
  (List.range cwBits).map (fun i => c.getLsbD i))

/-- Data bits whose hard decision differs from the bit written (R166). -/
def rawErrors (soft : List (Int × Bool)) (written : List Bool) : Nat :=
  ((soft.zip written).filter (fun x => decide (0 < x.1.1) != x.2)).length

/-- A frame record of a verify read is measured against Table 6.4, with the flags of the frame's channel bits and the lane that read
it. -/
def VerifyTally.frame (v : VerifyTally) (r : FrameRecord) (fs written : List Bool) (x : Lane) : VerifyTally :=
  let runs := flagRuns v.run v.longest fs
  { v with raw := v.raw + rawErrors r.soft (written.drop (dataBefore r.frame)), run := runs.1, longest := runs.2,
           addressOk := if r.frame = 0 then decide (r.source = 0) else v.addressOk,
           locked := if r.frame = 383 then decide (x.phase = .locked) else v.locked,
           inserted := if r.frame = 383 then x.inserted else v.inserted,
           receiver := v.receiver || x.recvErased }

/-- A frame record reaches an open entry (R123, R126): its soft data are joined to those before, and the codewords whose last data
bit it holds are submitted; a promoted entry still runs to its earlier deadline (R136). A verify read is measured. -/
def State.recordFrame (s : State) (b : BayNo) (i : Nat) (r : FrameRecord) (fs : List Bool) : State :=
  match lookupKey s.bays[b].dec.entries i with
  | none => s
  | some e =>
    let cs := formed 36 e.submitted (e.soft ++ r.soft.map (·.1))
    let use := match e.use with
      | .verify v => EntryUse.verify (v.frame r fs (codedBits (s.itemWords b v.item)) s.bays[b].rc.lanes[r.beam])
      | u => u
    let s1 := s.onEntry b i (fun x =>
      { x with use := use, frames := r.frame + 1, submitted := e.submitted + cs.1.length, soft := cs.2,
               erased := countErased x.erased r.frame r.soft })
    cs.1.foldl (fun t c => t.submit b i c.1 c.2) s1

/-- Frame 0 carries a wrong address (R117, R247): the cluster is not decoded; it is late, or dropped for Updraft; the position
is to be checked, and a second stride in a row with a mismatch is a position failure; one after the seek of a position failure
faults the bay (Table 9.5). In WRITING the bay stops writing. -/
def State.addressMismatch (s : State) (b : BayNo) (l : Beam) (read : ClusterAddr) : State :=
  let x := s.bays[b].rc.lanes[l]
  let s1 := s.raiseBay b .clusterAddrMismatch [.u8 l.val, .u32 x.addr.toNat, .u32 read.toNat]
  let s2 := s1.onSeq b (fun q =>
    { q with position := true, checkDue := true, mismatches := if q.mismatches = 2 then 3 else max 1 q.mismatches })
  if s.bays[b].seq.mismatches = 4 then s2.faultBay b .position else
  let s3 := if s.bays[b].seq.st = .writing then (s2.stopWriting b).setBaySt b .ready 12
    else match s2.bays[b].dec.entryAt x.addr with
      | some (i, e) =>
        if e.seq ≠ x.seq ∨ e.beam ≠ l then s2
        else if e.cls = .updraft then s2.closeEntry b i
        else if e.cls = .retry then s2.onEntry b i (fun y => { y with seq := y.seq - 1 })
        else
          ((s2.onEntry b i (fun y =>
            { y with seq := y.seq - 1, late := true, reread := if y.identical then 2 else 1, identical := false })).lateUnread
            b e.home e.addr)
      | none => s2
  s3.onLane b l (fun y => { y with phase := .lost, endedLocked := false })

/-- The address of frame 0's record (R117): it confirms the layer of a jump that has landed (R185); otherwise a field that does not
decode raises EV_CLUSTER_ADDR_UNDECODED, and one that differs is a mismatch. -/
def State.judgeAddress (s : State) (b : BayNo) (l : Beam) (r : FrameRecord) : State :=
  let landed := match s.bays[b].srv.move with
    | some m => match m.kind with
      | .layer up => if m.landed then some up else none
      | _ => none
    | none => none
  if r.source = 1 then s.raiseBay b .clusterAddrUndecoded [.u8 l.val]
  else
    let a := infoAddr r.address
    match landed with
    | some up => (s.onSrv b (fun v => { v with place := some (addrLayer a, addrTurn a, zoneOfTurn (addrTurn a)) })).layerFound b
        (s.bays[b].srv.place.map (·.1)) up (addrLayer a)
    | none =>
      if r.source = 0 then s.onSeq b (fun q => { q with mismatches := if q.mismatches = 4 then 0 else q.mismatches })
      else s.addressMismatch b l a

/-- FRAME_RECORD_RELEASE (R116, R117, R126): the lane releases the record of its next frame, and Q-n counts it into the open
entry. B2 in WRITING releases none (R106); B1's are judged by VERIFY_CLUSTER. -/
def execFrameRecordRelease (b : BayNo) (l : Beam) (samples : List (BitVec 8)) (s : State) : Res :=
  if !s.dspRuns then .next s else
  let s0 := s.sampled b l samples
  let t := s0.bays[b]
  let x := t.rc.lanes[l]
  if !s0.recordReady b x || (decide (t.seq.st = .writing) && decide (l ≠ 1)) then .next s0 else
  let r := t.frameRecord l x.released
  let fs := x.frameFlags x.released
  let s1 := s0.onLane b l (fun y => { y with released := y.released + 1 })
  let s2 := if r.frame = 0 then s1.judgeAddress b l r else s1
  match s2.bays[b].dec.entryAt x.addr with
  | some (i, e) => if e.seq = x.seq ∧ e.beam = l then .next (s2.recordFrame b i r fs) else .next s2
  | none => .next s2

/-! ### Write-back (R97 to R99) -/

/-- A lane's running values as the fields of Table 4.4, within their bounds (R95, R97). -/
def Datapath.running (d : Datapath) (off : Nat) : StartEntry :=
  { freq := within (-32768) 32767 (roundOpen 1 (d.freq * 16000000)), gain := (within 1024 16383 (roundOpen 2 (d.gain * 4096))).toNat,
    offset := within (-512) 511 (roundOpen 3 (d.offset * 16)), asym := within (-128) 127 (roundOpen 4 (d.asym * 1024)),
    eq := d.eq.map (fun v => within (-512) 511 (roundOpen 5 (v * 256))),
    outer := d.outer.map (fun v => within (-128) 127 (roundOpen 6 (v * 8))),
    inner := d.inner.map (fun v => within (-128) 127 (roundOpen 6 (v * 8))), beamOffset := off }

/-- The fields by which a write-back is a correction (R98): bit 0 gain, bit 1 frequency, bit 2 equaliser, bit 3 trial values. -/
def State.correction (s : State) (b : BayNo) (old new : StartEntry) (trial : Bool) : Nat :=
  -- 20 × log10 of the ratio above c/10 dB: the ratio to the power 200 above 10 to the power c
  let gain := decide ((min old.gain new.gain) ^ 200 * 10 ^ (s.bn b Param.rdchCorrGain) < (max old.gain new.gain) ^ 200)
  let freq := decide (s.bp b Param.rdchCorrFreq * 16 < |new.freq - old.freq|)
  let taps := (List.finRange 15).any (fun (i : Fin 15) => decide (s.bp b Param.rdchCorrTap < |new.eq[i] - old.eq[i]|))
  boolMask [gain, freq, taps, trial]

/-- A lane's running values are written back (R97): the canceller taps of a side that was asynchronous in the cluster to its
asynchronous set, the others to the entry; the beam offset stays. -/
def State.writeBack (s : State) (b : BayNo) (l : Beam) (run : StartEntry) : State :=
  let x := s.bays[b].rc.lanes[l]
  let zone := x.zone
  let layer := addrLayer x.addr
  let old := s.startEntry b zone layer l
  let taps := fun (v : Vector Rat 7) => v.map (fun t => within (-128) 127 (roundOpen 6 (t * 8)))
  let ao := bitAt x.asyncSides 0
  let ai := bitAt x.asyncSides 1
  let new := { run with beamOffset := old.beamOffset, outer := if ao then old.outer else run.outer,
                        inner := if ai then old.inner else run.inner }
  s.onRc b (fun r =>
    let a1 := if ao then insertKey r.asyncSets (asyncKey zone layer 0) (taps x.data.asyncOuter) else r.asyncSets
    let a2 := if ai then insertKey a1 (asyncKey (zone - 1) layer 1) (taps x.data.asyncInner) else a1
    { r with start := insertKey r.start (startKey zone layer l) new, asyncSets := a2 })

/-- A lane's cluster has ended: its records are released, and its postamble has passed (R97). -/
def Lane.ended (x : Lane) : Bool :=
  decide (x.phase ≠ .idle ∧ x.released = 384) && (decide (x.phase = .lost) ||
    (match x.postamble with | some p => decide (p + 400 ≤ x.data.count) | none => false))

/-- The ladder steps whose passes write back nothing (Table 5.2). -/
def writesNothing (step : Nat) : Bool := decide (5 ≤ step ∧ step ≤ 8)

/-- CLUSTER_END (R97 to R99): the postamble has ended. An equaliser tap at its bound raises EV_EQ_LIMIT; a lane in frame lock with
few inserted syncs writes its running values back, and a correction advances the generation (R98, R145). B2 in WRITING and
the ladder's steps 5 to 8 write nothing (R106, R139). -/
def execClusterEnd (b : BayNo) (l : Beam) (samples : List (BitVec 8)) (s : State) : Res :=
  if !s.dspRuns then .next s else
  let s0 := s.sampled b l samples
  let t := s0.bays[b]
  let x := t.rc.lanes[l]
  if !x.ended then .next s0 else
  let run := x.data.running 0
  let ended := fun (u : State) => u.onLane b l (fun y =>
    { y with phase := .idle, endedLocked := decide (x.phase = .locked), eqRaised := y.eqRaised || x.data.eqBound })
  let s1 := if x.data.eqBound && !x.eqRaised then s0.raiseBay b .eqLimit [.u8 l.val] else s0
  if x.phase = .locked ∧ x.inserted ≤ s.bn b Param.rdchWbMaxIns ∧ ¬(t.seq.st = .writing ∧ l = 2) ∧ writesNothing x.step.1 = false then
    let m := s.correction b (s0.startEntry b x.zone (addrLayer x.addr) l) run (decide (x.step.1 = 3))
    let s2 := ended (s1.writeBack b l run)
    if m = 0 then .next s2
    else .next ((s2.raiseBay b .adaptCorrection [.u8 l.val, .u8 x.zone, .u8 (addrLayer x.addr).val, .u8 m]).undo b 2)
  else .next (ended s1)

/-! ### Defects (R109, R110) -/

/-- The frame a channel bit of a lane's cluster lies in: 0 before the second sync. -/
def Lane.frameOf (x : Lane) (p : Int) : Nat :=
  match x.syncs.find? (fun r => decide (r.position ≤ p)) with
  | some r => r.frame
  | none => 0

/-- DEFECT_DROPOUT (R109): an envelope dropout of a lane has ended: EV_DEFECT with its starting frame and its length. -/
def execDefectDropout (b : BayNo) (l : Beam) (samples : List (BitVec 8)) (s : State) : Res :=
  if !s.dspRuns then .next s else
  let s1 := s.sampled b l samples
  let x := s1.bays[b].rc.lanes[l]
  match x.data.dropouts with
  | (start, n) :: rest =>
    .next ((s1.onLane b l (fun y => { y with data := { y.data with dropouts := rest } })).raiseBay b .defect
      [.u8 l.val, .u16 (x.frameOf start), .u32 n])
  | [] => .next s1

/-- A closed loop enters Lull for feedback loss (R110, R191). -/
def State.feedbackLoss (s : State) (b : BayNo) (l : LoopId) : State :=
  if (s.bays[b].srv.loop l).closed then s.enterLull b l .defectTooLong else s

/-- SUM_DEFECT_LONG (R110, R191, R169): the sum defect exceeds RDCH.DEFECT_WIN: EV_SUM_DEFECT_LONG, which names B0, the beam of the
servo's detector (R70), feedback loss for focus and tracking, and the cut of the write gate. -/
def execSumDefectLong (b : BayNo) (s : State) : Res :=
  if !s.rootRuns then .next s else
  let r := s.bays[b].rc
  if r.sumDefect && !r.sumLong && decide (2 * s.bn b Param.rdchDefectWin < 5 * r.sumPeriods) then
    let s1 := (s.onRc b (fun x => { x with sumLong := true })).raiseBay b .sumDefectLong [.u8 0]
    .next (((s1.cutGate b .defect).feedbackLoss b .tracking).feedbackLoss b .focus)
  else .next s

end Sys2Proof.Machine
end

