-- ==== Sys2Proof/Machine/Decoding.lean ====
section
/-! DEFINITION. Decoding and recovery (05_decoding_and_scratch_recovery.md): dispatch (R121, R125), decodes and the collector (R122, R124, R129, R130), the outer code (R127, R128), deadlines and re-reads (R136, R137), the recovery ladder (R139, R140), weak clusters (R142), and Updraft (R143, R144). -/

namespace Sys2Proof.Machine

/-! ### Dispatch (R121, R125) -/

/-- The position of a class in its priority order. -/
def classNo : CwClass → Fin 3
  | .demand => 0 | .retry => 1 | .updraft => 2

/-- The iteration limit of a codeword (R122): its class's, and in the ladder's step 9 twice that of retry, at most 100
(Table 5.2). -/
def State.iterLimit (s : State) (c : Codeword) : Nat :=
  match c.cls with
  | .demand => s.dn Param.decIterDemand
  | .updraft => s.dn Param.decIterUpd
  | .retry =>
    let last := ((lookupKey s.bays[c.bay].dec.entries c.entry.val).map Entry.ladder).getD 0
    if last = 9 then min (2 * s.dn Param.decIterRetry) 100 else s.dn Param.decIterRetry

/-- The cap of a class (R125): none for demand. -/
def State.classCap (s : State) : CwClass → Nat
  | .demand => 17
  | .retry => s.dn Param.decRetryMaxDec
  | .updraft => s.dn Param.decUpdMaxDec

/-- Decoders that hold codewords of a class. -/
def Pool.holding (p : Pool) (k : CwClass) : Nat :=
  (p.decs.toList.filter (fun d => d.input.any (fun c => decide (c.cls = k)))).length

/-- A decoder may take a waiting codeword (R124): a repeat only on its own decoder, one that a decoder faulted on only
elsewhere. -/
def Codeword.mayRun (c : Codeword) (d : DecNo) : Bool :=
  (match c.repeatOf with | some x => decide (x = d) | none => true)
    && (match c.avoid with | some x => decide (x ≠ d) | none => true)

/-- The bays in round robin, starting after the one last served. -/
def afterBay (last : BayNo) : List BayNo := (List.finRange 8).map (fun i => last + 1 + i)

/-- The codeword a free decoder takes (R125): the head codeword of the highest class below its cap, its bays in round robin; ahead
of all, its own repeat under R124. DESIGN CHOICE (log entry 96): a repeat is taken whatever its class's cap, and counts as
its bay's turn in the round robin; R125 does not speak of repeats. -/
def State.nextCodeword (s : State) (d : DecNo) : Option Codeword :=
  let p := s.pool
  match p.waiting.find? (fun c => decide (c.repeatOf = some d)) with
  | some c => some c
  | none =>
    [CwClass.demand, .retry, .updraft].findSome? (fun (k : CwClass) =>
      if s.classCap k ≤ p.holding k then none
      else (afterBay p.lastBay[classNo k]).findSome? (fun b =>
        p.waiting.find? (fun c => decide (c.bay = b ∧ c.cls = k) && c.mayRun d)))

/-- Drop the first occurrence of a codeword. -/
def dropFirst (c : Codeword) : List Codeword → List Codeword
  | [] => []
  | x :: rest => if x = c then rest else x :: dropFirst c rest

/-- DECODER_DISPATCH (R121, R122, R125): a decoder in service with an empty input buffer takes a codeword, with the iteration limit
of this moment; it loads while the one before it decodes. -/
def execDecoderDispatch (d : DecNo) (s : State) : Res :=
  if !s.dspRuns then .next s else
  let x := s.pool.decs[d]
  if !x.inService || decide (2 ≤ x.input.length) then .next s else
  match s.nextCodeword d with
  | none => .next s
  | some c =>
    .next ((s.onPool (fun p =>
      { p with waiting := dropFirst c p.waiting, lastBay := p.lastBay.set (classNo c.cls).val c.bay (classNo c.cls).isLt })).onDecoder d
        (fun y => { y with input := y.input ++ [{ c with limit := s.iterLimit c }] }))

/-! ### Decodes (R120, R122, R129) -/

/-- The result of a codeword in a decoder (R120, R122, Table 5.1); `flips` are the coded bits of its word that a fault of the decoder
has changed (R124). -/
def decodeResult (c : Codeword) (flips : List (Fin 18576)) : DecodeResult :=
  let r := ldpcDecode c.soft c.limit
  let w := flips.foldl (fun (v : BitVec 18576) i => v ^^^ BitVec.twoPow 18576 i.val) r.word
  { cw := c, converged := r.converged, iters := r.iters, corrected := popCount (hardBits c.soft ^^^ w), word := w }

/-- DECODE_COMPLETE (R122, R129): the decoder decodes the codeword in its first input buffer and places the result in a holding
entry; with both full it stalls, the codeword still in its buffer. -/
def execDecodeComplete (d : DecNo) (flips : List (Fin 18576)) (s : State) : Res :=
  if !s.dspRuns then .next s else
  let x := s.pool.decs[d]
  match x.input with
  | [] => .next s
  | c :: rest =>
    if 2 ≤ x.holding.length then .next (s.raiseDev .collectorStall [.u8 d.val])
    else .next (s.onDecoder d (fun y => { y with input := rest, holding := y.holding ++ [decodeResult c flips] }))

/-! ### The collector (R124, R130) -/

/-- The decoder whose result the collector takes next (R130). -/
def Pool.nextResult (p : Pool) : Option DecNo :=
  ((List.finRange 16).map (fun i : Fin 16 => p.lastDec + 1 + i)).find? (fun (d : DecNo) => !(p.decs[d]).holding.isEmpty)

/-- A decoder is retired (R124): it takes no further work. What stands in its input buffers goes to other decoders. DESIGN CHOICE
(log entry 96): so does a codeword that waits for its identical repeat on it, which R124 does not place. -/
def State.retireDecoder (s : State) (d : DecNo) : State :=
  let x := s.pool.decs[d]
  let back := x.input ++ (s.pool.waiting.filter (fun c => decide (c.repeatOf = some d)))
  let again := back.map (fun (c : Codeword) => { c with repeatOf := none })
  (((s.onPool (fun p => { p with waiting := again ++ p.waiting.filter (fun c => !decide (c.repeatOf = some d)) })).onDecoder d
    (fun y => { y with inService := false, input := [] })).raiseDev .decoderRetired [.u8 d.val]).testLoses 2
    (fun n => decide (n = d.val ∨ n = 255))

/-- A converged result fails the checker (R124): the first time it is decoded again on the same decoder; the second time the
decoder's fault is persistent, and the codeword goes to another. -/
def State.checkFails (s : State) (d : DecNo) (c : Codeword) : State :=
  let s1 := s.raiseDev .decoderCheckFail [.u8 d.val]
  let again := fun (t : State) (x : Codeword) => t.onPool (fun p => { p with waiting := x :: p.waiting })
  match c.repeatOf with
  | none => again s1 { c with repeatOf := if (s.pool.decs[d]).inService then some d else none }
  | some _ =>
    let s2 := s1.raiseDev .decoderRetireProposed [.u8 d.val]
    let retire := decide (s.dp Param.polRetireDecoder = 1)
    let s3 := if retire then s2.retireDecoder d else s2
    let s4 := s3.logRetry (DevEvent.source (if retire then .decoderRetired else .decoderRetireProposed)) 1 true
      (if retire then 2 else 1) (BitVec.ofNat 64 d.val)
    let others := (List.finRange 16).any (fun (x : DecNo) => decide (x ≠ d) && (s4.pool.decs[x]).inService)
    again s4 { c with repeatOf := none, avoid := if others then some d else none }

/-- A codeword after one of its outstanding results, its data where that converged. -/
def CwState.afterResult (c : CwState) (d : Option CwData) : CwState :=
  match c, d with
  | .good x, _ => .good x
  | .converged x n, _ => .converged x (n - 1)
  | c, some x => .converged x (c.left - 1)
  | .queued n, none => if n ≤ 1 then .failed else .queued (n - 1)
  | c, none => c

/-- A codeword after an outstanding result was discarded (R130). -/
def CwState.afterDiscard : CwState → CwState
  | .queued n => if n ≤ 1 then .missing else .queued (n - 1)
  | .converged x n => .converged x (n - 1)
  | c => c

/-- A result is written into its reassembly entry, or discarded where the entry has been reused or an Updraft result's generation
has passed (R130). A codeword's first decode counts for the weak test where it converged (R142): one that failed is no
decode that needed its iterations. -/
def State.collect (s : State) (r : DecodeResult) : State :=
  let c := r.cw
  match lookupKey s.bays[c.bay].dec.entries c.entry.val with
  | none => s
  | some e =>
    if c.seq ≠ e.seq ∧ e.seqs.contains c.seq = false then s
    else if c.cls = .updraft ∧ c.gen ≠ s.bays[c.bay].dec.gen then
      s.onEntry c.bay c.entry.val (fun x => { x with cws := x.cws.setIfInBounds c.cw (x.cw c.cw).afterDiscard })
    else
      s.onEntry c.bay c.entry.val (fun x =>
        { x with cws := x.cws.setIfInBounds c.cw ((x.cw c.cw).afterResult (if r.converged then some (cwOfBits r.word) else none)),
                 tried := setBit x.tried c.cw true,
                 maxIters := if r.converged ∧ bitAt x.tried c.cw = false then max x.maxIters r.iters else x.maxIters })

/-- COLLECTOR_ACCEPT (R124, R130): the collector takes the next result round robin; the checker recomputes the syndrome of a
converged one. DESIGN CHOICE (log entry 96): an identical repeat that ends failed, not converged, is collected as failed with
neither event of R124, which speaks of a repeat that passes or fails the check. -/
def execCollectorAccept (s : State) : Res :=
  if !s.dspRuns then .next s else
  match s.pool.nextResult with
  | none => .next s
  | some d =>
    match (s.pool.decs[d]).holding with
    | [] => .next s
    | r :: rest =>
      let s1 := (s.onPool (fun p => { p with lastDec := d })).onDecoder d (fun y => { y with holding := rest })
      if r.converged && !isCodeword r.word then .next (s1.checkFails d r.cw)
      else
        let s2 := if r.converged && r.cw.repeatOf.isSome then
            (s1.raiseDev .decoderTransient [.u8 d.val]).logRetry (DevEvent.source .decoderTransient) 1 false 0 (BitVec.ofNat 64 d.val)
          else s1
        .next (s2.collect r)

/-! ### The outer code (R127, R128) -/

/-- What the metadata of a cluster is expected to be (R52, R128). A management cluster's is its own address and LBA 0; its volume ID
is judged with the set (R310), so any is expected here (DEDUCED, log entry 99). -/
def Entry.expected (e : Entry) (m : Metadata) : ClusterMeta :=
  if e.use = .management then { home := e.addr, vid := m.vid, lba := 0, management := true, replacement := false, remap := 0 }
  else { home := e.home, vid := e.vid, lba := BitVec.ofNat 32 (16 * (uclOf e.home).getD 0), management := false,
         replacement := decide (e.addr ≠ e.home), remap := 0 }

/-- The checks of R128 that a codeword's metadata fails, bits 0 to 4 in the order of the rule. -/
def Entry.metaMask (e : Entry) (i : Nat) (m : Metadata) : Nat := metaMaskOf (e.expected m) i m

/-- EV_META_MISMATCH of codeword `i` (R128). -/
def State.metaMismatch (s : State) (b : BayNo) (e : Entry) (i : Nat) (m : Metadata) : State :=
  let x := e.expected m
  s.raiseBay b .metaMismatch [.u32 e.addr.toNat, .u8 i, .u8 (e.metaMask i m), .u8 m.index.toNat, .u32 x.home.toNat,
    .u32 m.home.toNat, .u16 x.vid.toNat, .u16 m.vid.toNat, .u32 x.lba.toNat, .u32 m.lba.toNat, .u8 (b2n m.replacement)]

/-- A converged data codeword whose CRC is good and whose metadata fails R128. -/
def Entry.misplaced (e : Entry) (i : Nat) : Option Metadata :=
  match e.cw i with
  | .converged d _ => if i < 32 ∧ cwCrcOk d = true ∧ e.metaMask i (cwInfo d) ≠ 0 then some (cwInfo d) else none
  | _ => none

/-- A codeword after the CRC and metadata checks: good, or flagged erased (R127); codewords 32 to 35 carry neither. -/
def Entry.checked (e : Entry) (i : Nat) : CwState :=
  match e.cw i with
  | .converged d _ => if 32 ≤ i ∨ (cwCrcOk d = true ∧ e.metaMask i (cwInfo d) = 0) then .good d else .failed
  | c => c

/-- The codewords flagged erased for the outer code. -/
def Entry.flagged (e : Entry) : List Nat := (List.range 36).filter (fun i => !(e.checked i).isGood)

/-- Every codeword of the pass has its result. -/
def Entry.decided (e : Entry) : Bool := e.cws.toList.all (fun c => decide (c ≠ .missing ∧ c.left = 0))

/-- Codewords whose bytes a run of the Reed–Solomon unit gave or changed. -/
def changedWords (f : List Nat) (old new : List (BitVec 16512)) : List Nat :=
  (List.range 36).filter (fun i => f.contains i || decide (old.getD i 0 ≠ new.getD i 0))

/-- One run of the Reed–Solomon unit with flags `f` (R127): the repaired words, and the changed data codewords whose CRC fails; none
where more than 4 are flagged or a byte position does not decode. -/
def outerRun (f : List Nat) (ws : List (BitVec 16512)) : Option (List (BitVec 16512) × List Nat) :=
  if 4 < f.length then none
  else (outerDecode f ws).map (fun v =>
    (v, (changedWords f ws v).filter (fun i => decide (i < 32) && !cwCrcOk { bytes := v.getD i 0 })))

/-- The 36 words after the outer code with the number of codewords repaired, where the pass does not fail (R127). -/
def Entry.repairs (e : Entry) : Option (List (BitVec 16512) × Nat) :=
  let f := e.flagged
  let ws := (List.range 36).map (fun i => match (e.checked i).data? with | some d => d.bytes | none => 0)
  match outerRun f ws with
  | none => none
  | some (v, []) => some (v, (changedWords f ws v).length)
  | some (_, bad) =>
    match outerRun (f ++ bad).dedup ws with
    | some (v, []) => some (v, (changedWords (f ++ bad).dedup ws v).length)
    | _ => none

/-- An entry after the outer code (R127, R133): what was good stays, repaired codewords are good. -/
def Entry.afterOuter (e : Entry) : Entry :=
  let e1 := { e with cws := e.cws.mapIdx (fun i _ => e.checked i), ran := true, parity := [],
                     metaFail := (List.range 32).any (fun i => (e.misplaced i).isSome) }
  match e.repairs with
  | some (v, n) => { e1 with cws := e1.cws.mapIdx (fun i _ => .good { bytes := v.getD i 0 }), repaired := max e.repaired n }
  | none => e1

/-- The kept soft inputs of codewords that are good now return to their pool (R134). -/
def Entry.dropKept (e : Entry) : Entry × List (BitVec 32) :=
  ({ e with kept := e.kept.mapIdx (fun i ks => if (e.cw i).isGood then [] else ks) },
   (List.range 36).flatMap (fun i => if (e.cw i).isGood then (e.kept.toList.getD i []).flatMap KeptPass.bufs else []))

/-- Run the outer code on an entry: EV_META_MISMATCH for each codeword that fails R128, EV_OUTER_REPAIR with the number
repaired; its parity buffers are freed (R131). -/
def State.runOuter (s : State) (b : BayNo) (i : Nat) : State :=
  match lookupKey s.bays[b].dec.entries i with
  | none => s
  | some e =>
    let s1 := (List.range 32).foldl (fun (t : State) k => match e.misplaced k with
      | some m => t.metaMismatch b e k m
      | none => t) s
    let x := e.afterOuter.dropKept
    let s2 := (s1.onEntry b i (fun _ => x.1)).giveAll (bayOwner b) (e.parity ++ x.2)
    match e.repairs with
    | some (_, n) => if n = 0 then s2 else s2.raiseBay b .outerRepair [.u8 n]
    | none => s2

/-! ### Weak clusters (R142) -/

/-- A complete cluster is weak. -/
def State.isWeak (s : State) (b : BayNo) (e : Entry) : Bool :=
  decide (s.bn b Param.decWeakIter < e.maxIters ∨ s.bn b Param.decWeakRs ≤ e.repaired ∨ 0 < e.ladder)

/-- The recovered cluster is staged for a rewrite at the next destage (R142), where R58 and R62 allow it, no newer copy is staged and
Ballast has a buffer for it (log entry 110). -/
def State.stageWeak (s : State) (b : BayNo) (e : Entry) : State :=
  match uclOf e.home, s.bays[b].seq.disc with
  | some u, some d => match d.mgmt with
    | some m =>
      if d.readOnly ∨ rewriteAllowed m.nextOrdinal = false ∨ (s.stg.entry? e.vid u).isSome ∨ (s.stg.dirty? e.vid u).isSome then s
      else
        let n := s.sys.dataSeq + 1
        let t := (s.onSys (fun y => { y with dataSeq := n })).placeNew
          { vid := e.vid, ucl := u, mask := 0xFFFF, dataSeq := n,
            sectors := (List.range 16).map (fun k => (k, (e.sector k).getD 0)), lost := 0, mirror := false, queues := [], buf := none }
        if (t.stg.dirty? e.vid u).isSome then t.onDec b (fun x => { x with weak := x.weak ++ [(e.home, e.vid)] }) else t
    | none => s
  | _, _ => s

/-- Test a complete cluster for weakness (R142, R34). -/
def State.judgeWeak (s : State) (b : BayNo) (e : Entry) : State :=
  if s.isWeak b e then
    let s1 := s.raiseBay b .weakCluster [.u32 e.addr.toNat, .u8 e.maxIters, .u8 e.repaired, .u8 e.ladder]
    if s.dp Param.polWeakRewrite = 1 then s1.stageWeak b e else s1
  else s

/-! ### The end of a pass (R136 to R138, R144) -/

/-- A complete Updraft cluster passes to the store (R144): its 64 KiB buffer goes with it, the entry closes and its other buffers are
freed; the store entry oldest in hit or arrival is freed first. -/
def State.toStore (s : State) (b : BayNo) (i : Nat) (e : Entry) : State :=
  let cap := s.bn b Param.decUpdStore
  let x : StoreEntry :=
    { addr := e.addr, vid := e.vid, lba := 16 * (uclOf e.home).getD 0, gen := e.gen,
      sectors := (List.range 16).filterMap (fun k => (e.sector k).map (fun d => (k, d))), buf := e.bufs.head? }
  let s1 := (s.onEntry b i (fun y => { y with bufs := y.bufs.drop 1 })).closeEntry b i
  let all := s1.bays[b].dec.store ++ [x]
  let out := all.take (all.length - cap)
  (s1.onDec b (fun d => { d with store := all.drop (all.length - cap) })).giveAll (bayOwner b) (out.filterMap (·.buf))

/-- A cluster is queued for reading, where it is not yet. -/
def Seq.wants (q : Seq) (home read : ClusterAddr) : Seq :=
  { q with demand := if q.demand.any (fun x => decide (x.2 = read)) then q.demand else q.demand ++ [(home, read)] }

/-- Schedule a re-read of an open cluster at the bay's next pass (R136, R137): 1 late, 2 identical; a late one already scheduled
becomes the identical one. -/
def State.scheduleReread (s : State) (b : BayNo) (i : Nat) (e : Entry) (kind : Nat) : State :=
  (s.onEntry b i (fun x => { x with reread := kind })).onSeq b (fun q => q.wants e.home e.addr)

/-- A complete demand cluster (R137, R138, R142): its status, EV_READ_TRANSIENT after the identical re-read, the weak test, and its
delivery; a re-read still scheduled is cancelled. -/
def State.clusterDone (s : State) (b : BayNo) (i : Nat) (e : Entry) : State :=
  let s1 := if e.identical then
      (s.raiseBay b .readTransient).logRetry (Ev.bay b .readTransient).src 2 false 0 (bayUnit b e.addr.toNat)
    else s
  let s2 := (s1.judgeWeak b e).onSeq b (fun q => q.taken e.addr)
  s2.finishEntry b i (if e.identical ∨ 0 < e.ladder then 1 else 0)

/-- A demand cluster whose pass fails (R137): one identical re-read; after it, EV_READ_PERSISTENT and the recovery ladder. -/
def State.passFails (s : State) (b : BayNo) (i : Nat) (e : Entry) : State :=
  if e.identical then
    let s1 := (s.raiseBay b .readPersistent).logRetry (Ev.bay b .readPersistent).src 2 true 3 (bayUnit b e.addr.toNat)
    (s1.onEntry b i (fun x =>
      { x with judged := true, identical := false, cls := .retry, reread := 0, ladder := 0, stage := .idle,
               failedBeam := x.beam })).onSeq b (fun q => q.taken e.addr)
  else (s.onEntry b i (fun x => { x with judged := true })).scheduleReread b i e 2

/-- OUTER_CODE_RUN (R127, R128): every codeword of the pass has its result: the outer code runs, and the cluster is complete, is
read again, or, for Updraft, is discarded. The ladder's steps run it themselves, and a verify read has none (R166). A cluster is complete with all 32 data
codewords good (R136), whatever its parity codewords are. -/
def execOuterCodeRun (b : BayNo) (entry : Fin 128) (s : State) : Res :=
  if !s.dspRuns then .next s else
  match lookupKey s.bays[b].dec.entries entry.val with
  | none => .next s
  | some e =>
    if !e.decided || decide (e.cls = .retry) || e.ran || e.isVerify then .next s else
    let s1 := s.runOuter b entry.val
    match lookupKey s1.bays[b].dec.entries entry.val with
    | none => .next s1
    | some x =>
      if x.cls = .updraft then
        if x.complete then .next ((s1.judgeWeak b x).toStore b entry.val x) else .next (s1.closeEntry b entry.val)
      else if x.complete then .next (s1.clusterDone b entry.val x)
      else .next (s1.passFails b entry.val x)

/-- DELIVERY_DEADLINE (R136): a demand cluster that is not complete DEC.DEADLINE after its frame 383 record, or after its promotion, is
late: EV_CLUSTER_LATE, and a re-read is scheduled where none is. -/
def execDeliveryDeadline (b : BayNo) (entry : Fin 128) (s : State) : Res :=
  match lookupKey s.bays[b].dec.entries entry.val with
  | none => .next s
  | some e =>
    if e.cls = .demand ∧ e.isVerify = false ∧ (e.frames = 384 ∨ e.promoted = true) ∧ e.complete = false ∧ e.late = false then
      let s1 := (s.onEntry b entry.val (fun x => { x with late := true })).raiseBay b .clusterLate
      if e.reread = 0 then .next (s1.scheduleReread b entry.val e 1) else .next s1
    else .next s

/-! ### The recovery ladder (R139 to R141) -/

/-- The step after `k` that the ladder runs (R139): step 8 is skipped when DEC.LADDER_SLOW is 0. -/
def State.nextStep (s : State) (b : BayNo) (k : Nat) : Nat :=
  if k = 7 ∧ s.bn b Param.decLadderSlow = 0 then 9 else k + 1

/-- Step `k` is permitted. -/
def State.stepAllowed (s : State) (b : BayNo) (k : Nat) : Bool := decide (k ≤ 9 ∧ k ≤ s.bn b Param.decLadderLast)

/-- The disc passes of a step (Table 5.2). -/
def stepPasses (k : Nat) : Nat := if k = 6 then 2 else if k = 7 then 6 else if 3 ≤ k ∧ k ≤ 8 then 1 else 0

/-- The sum of kept passes (R139): each soft value summed over the passes and clipped to −31 to +31. -/
def sumSoft (ps : List KeptPass) : List Int :=
  (ps.foldl (fun acc p => List.zipWith (· + ·) acc p.soft) (List.replicate cwBits (0 : Int))).map (clip 31)

/-- The inputs that a step takes from the kept passes of a codeword: each alone in step 1, else their sum; its erased count, which
is only reported, is the least of theirs. -/
def keptInputs (alone : Bool) (ps : List KeptPass) : List (List Int × Nat) :=
  if alone then ps.map (fun p => (p.soft, p.erased))
  else match ps with
    | [] => []
    | p :: rest => [(sumSoft ps, rest.foldl (fun n q => min n q.erased) p.erased)]

/-- Submit the kept passes of the codewords that are not good, each alone or as their sums (R139); a codeword with none stays as it
is. R123's test is made of a codeword that is formed, and is not made again here. -/
def State.submitKept (s : State) (b : BayNo) (i : Nat) (e : Entry) (alone : Bool) : State :=
  (List.range 36).foldl (fun (t : State) k =>
    match e.cw k with
    | .good _ => t
    | .converged _ _ => t
    | _ => (keptInputs alone (e.kept.toList.getD k [])).foldl (fun (u : State) p => u.enqueue b i k p.1 p.2) t) s

/-- An entry waits for disc pass `n` of the step it has reached: in the retry queue, or at step 8 for the slow visit (R140, R242). -/
def State.awaitPass (s : State) (b : BayNo) (i k n : Nat) : State :=
  let s1 := s.onEntry b i (fun x => { x with ladder := k, stage := .pass n, frames := 0 })
  if h : i < 128 then s1.onSeq b (fun q =>
    if k = 8 then { q with slow := q.slow ++ [⟨i, h⟩] } else { q with retry := q.retry ++ [⟨i, h⟩] })
  else s1

/-- A cluster leaves the ladder unrecovered (R138, R140). -/
def State.ladderEnds (s : State) (b : BayNo) (i k : Nat) (e : Entry) : State :=
  (s.raiseBay b .readUnrecovered [.u8 k, .u8 e.missing]).finishEntry b i (if e.metaFail then 0x51 else 0x24)

/-- The ladder goes on from step `k` (R139): to the next step permitted, or to its end. -/
def State.ladderNext (s : State) (b : BayNo) (i k : Nat) (e : Entry) : State :=
  let n := s.nextStep b k
  if !s.stepAllowed b n then s.ladderEnds b i k e
  else if 0 < stepPasses n then s.awaitPass b i n 0
  else (s.onEntry b i (fun x => { x with ladder := n, stage := if n = 1 then .alone else .summed 0 })).submitKept b i e (decide (n = 1))

/-- The decodes of a step's pass `n` have ended (R139, R140): the outer code runs. A complete cluster is recovered, with the
pass's offsets named for step 7; else the step's next pass follows, or the next step. DESIGN CHOICE (log entry 97): in a
step of several passes the outer code runs after each, and the step ends at the first that completes the cluster. -/
def State.ladderJudge (s : State) (b : BayNo) (i n : Nat) : State :=
  let s1 := s.runOuter b i
  match lookupKey s1.bays[b].dec.entries i with
  | none => s1
  | some x =>
    let k := x.ladder
    let step := fun (t : State) => (t.raiseBay b .ladderStep [.u32 x.addr.toNat, .u8 k]).onEntry b i (fun y => { y with stage := .idle })
    if x.complete then
      let o := passOffsets k n
      ((step s1).raiseBay b .ladderRecovered (if k = 7 then [.u8 k, .s16 o.1, .s16 o.2] else [.u8 k])).clusterDone b i x
    else if n + 1 < stepPasses k then s1.awaitPass b i k (n + 1)
    else (step s1).ladderNext b i k x

/-- An entry is no longer queued for a disc pass. -/
def Seq.passTaken (q : Seq) (i : Nat) : Seq :=
  { q with retry := q.retry.filter (fun x => !decide (x.val = i)), slow := q.slow.filter (fun x => !decide (x.val = i)) }

/-- LADDER_STEP (R139, R140): a cluster in the ladder goes on: into its next step, from the decodes of a disc pass alone to those of
the sums, and from a step's last decode to the outer code, EV_LADDER_STEP and what follows. It waits while a disc pass or
decodes are outstanding. -/
def execLadderStep (b : BayNo) (entry : Fin 128) (s : State) : Res :=
  if !s.dspRuns then .next s else
  match lookupKey s.bays[b].dec.entries entry.val with
  | none => .next s
  | some e =>
    if e.cls ≠ .retry then .next s else
    match e.stage with
    | .idle => .next (s.ladderNext b entry.val e.ladder e)
    | .pass n =>
      if e.frames = 384 ∧ e.decided = true then
        .next (((s.onSeq b (fun q => q.passTaken entry.val)).onEntry b entry.val (fun x => { x with stage := .summed n })).submitKept
          b entry.val e false)
      else .next s
    | .alone => if e.decided then .next (s.ladderJudge b entry.val 0) else .next s
    | .summed n => if e.decided then .next (s.ladderJudge b entry.val n) else .next s

/-! ### Updraft (R143) -/

/-- UPDRAFT_START (R143): after a demand stride read with no further demand queued, or on a Prefetch, a mounted bay reads on from
there up to its depth, in the modes that allow class 6 work (R245), while its Ballast owner is above its minimum. -/
def execUpdraftStart (b : BayNo) (s : State) : Res :=
  let t := s.bays[b]
  match t.dec.updraftFrom with
  | none => .next s
  | some (a, depth) =>
    if t.mounted && t.seq.unmounting.isNone && t.seq.demand.isEmpty && t.wp.jobs.isEmpty && t.wp.run.isNone && s.sys.mode.serving
        && decide (s.bn b Param.decUpdEnable = 1 ∧ 0 < depth) && !s.atMinimum 2 (bayOwner b)
        && !(t.dec.entries.any (fun e => decide (e.2.cls = .demand ∧ e.2.frames < 384))) then
      .next (s.onDec b (fun d =>
        { d with updraft := some { next := a, left := min depth (4032 + userClusters - posOfAddr a) }, updraftFrom := none }))
    else .next s

end Sys2Proof.Machine
end

