-- ==== Sys2Proof/Machine/IoOps.lean ====
section
/-! DEFINITION. Shared operations of the I/O commands: starting (R29, R299), forwarding (R399), failed host memory reads (R278), the copies that serve a sector (R22, R288, R292), the checks of a Write (R291) and destage jobs (R295). -/

namespace Sys2Proof.Machine

/-! ### Starting (R29, R299) -/

/-- Commands that have not started may start: a serving mode, with no settlement awaited (Table 1.7). -/
def State.mayStart (s : State) : Bool := s.sys.mode.serving && !s.pair.awaiting

/-- The outstanding command `id`, of opcode `o`, eligible, waiting for nothing and free to start. -/
def State.runnable (s : State) (id : CmdId) (o : Nat) : Option Cmd :=
  match s.cmd? id with
  | some c => if c.opcode.toNat = o ∧ c.eligible ∧ c.wait = CmdWait.none ∧ s.mayStart then some c else none
  | none => none

/-- Forward a command to the peer that owns its volume (R399); with the Tether degraded or not live it completes with 0x26
(R401). -/
def State.forward (s : State) (c : Cmd) (data : List SectorData) : State :=
  if c.id.peer || !s.tetherLive || s.pair.degraded || !s.inPair then s.complete c.id 0x26 0
  else
    let t := s.sendAbout 0x20 c.vid 0 0
      (bodyWords [b2n (decide (c.id.port = 1)), c.id.queue.val, c.id.cid.toNat, c.opcode.toNat, c.flags.toNat, c.lba, c.count]) 56
    let s1 := if data.isEmpty then t else t.sendAbout 0x21 c.vid 0 0 (data.flatMap sectorBytes) (4096 * data.length)
    s1.onCmd c.id (fun x => { x with wait := .forwarded, started := true, data := data,
                                     cover := if x.opcode = 2 then x.clusterList else x.cover })

/-- EV_DMA_ERROR (R278): it names the queue and command ID. -/
def State.dmaError (s : State) (p : Port) (q : QueueNo) (cid : Nat) : State := s.raisePort p .dmaError [.u8 q.val, .u16 cid]

/-- A command ends for a failed host memory read (R278). -/
def State.dmaFail (s : State) (id : CmdId) (e : DmaErr) : State :=
  (s.dmaError id.port id.queue id.cid.toNat).complete id (dmaStatus e) 0

/-- The failed read of an extent list, if it failed. -/
def extentErr : ExtentRead → Option DmaErr
  | .err e => some e
  | _ => none

/-- EV_WAIT_EXPIRED (Table 11.12), with which wait: 0 staging space, 1 auto-mount. The port of a command that the peer forwarded
is the peer's. -/
def State.expired (s : State) (id : CmdId) (which : Nat) : State :=
  if id.peer then s else s.raisePort id.port .waitExpired [.u8 which]

/-- A submission queue is halted: its record could not be read (R278). The command ID is not known then (log entry 54). -/
def State.haltQueue (s : State) (p : Port) (q : QueueNo) : State :=
  let (cid, s0) := s.freeInt 6
  ((s0.onQueue p q (fun x => { x with halted := true })).raisePort p .queueHalted [.u8 q.val]).dmaError p q (cid.toNat % 65536)

/-! ### The copies of a sector (R22, R288, R292) -/

/-- Where a sector's copy lies (R22). -/
inductive Copy where
  | dram (d : SectorData)
  | nand (d : SectorData)
  | lost          -- its staged copy was lost (R335, R365): Reads complete with 0x24
  | zeros         -- neither staged nor recorded (R292)
  | disc
  deriving DecidableEq, Repr

/-- The disc holds a cluster of a volume, or may hold it where its ranges are not known (R291, R292). -/
def Volume.onDisc (v : Volume) (u : Nat) : Bool := !v.known || inRanges v.ranges u

/-- The copy of a sector that a Read is served from (R22, R292). -/
def State.copyOf (s : State) (v : Volume) (lba : Nat) : Copy :=
  let u := lba / 16
  let k := lba % 16
  let below := if v.onDisc u then Copy.disc else Copy.zeros
  let staged := match s.stg.entry? v.vid u with
    | some e =>
      if e.lost.getLsbD k then Copy.lost
      else if e.mask.getLsbD k then Copy.nand ((lookupKey e.sectors k).getD 0)
      else below
    | none => below
  match s.stg.dirty? v.vid u with
  | some d =>
    if d.lost.getLsbD k then .lost
    else if d.mask.getLsbD k then .dram ((lookupKey d.sectors k).getD 0)
    else staged
  | none => staged

/-- The LBAs of a command's range. -/
def Cmd.lbas (c : Cmd) : List Nat := (List.range c.count).map (fun k => c.lba + k)

/-- The data and status a staged or absent copy gives a sector. -/
def Copy.direct : Copy → Option (Option SectorData × Byte)
  | .dram d => some (some d, 0) | .nand d => some (some d, 0) | .zeros => some (some 0, 0)
  | .lost => some (none, 0x24) | .disc => none

/-- The read address of a user cluster on a bay's disc (R56). -/
def Bay.readAddr (t : Bay) (u : Nat) : ClusterAddr :=
  match t.seq.disc with
  | some d => match d.mgmt with
    | some m => setReadAddr m (homeOf u)
    | none => homeOf u
  | none => homeOf u

/-- The Updraft store entry that holds a cluster in a bay, of the present generation (R144). -/
def State.storeHit (s : State) (b : BayNo) (a : ClusterAddr) : Option StoreEntry :=
  s.bays[b].dec.store.find? (fun e => decide (e.addr = a ∧ e.gen = s.bays[b].dec.gen))

/-- A hit makes a store entry the last to be freed; an entry of another generation at the address is freed with its buffer
(R144). -/
def State.touchStore (s : State) (b : BayNo) (a : ClusterAddr) : State :=
  let d := s.bays[b].dec
  let old := d.store.filter (fun e => decide (e.addr = a ∧ e.gen ≠ d.gen))
  (s.onDec b (fun d =>
    { d with store := d.store.filter (fun e => !decide (e.addr = a))
               ++ d.store.filter (fun e => decide (e.addr = a ∧ e.gen = d.gen)) })).giveAll (bayOwner b) (old.filterMap (·.buf))

/-- A demand request meets an open entry: it attaches (R132). An Updraft entry is promoted, with its deadline running from now, and
its queued codewords move to the demand queue (R144). DESIGN CHOICE (log entry 98): they keep their order of submission
there, ahead of codewords submitted after them; R144 does not place them. -/
def State.attach (s : State) (b : BayNo) (i : Nat) (id : CmdId) : State :=
  (s.onEntry b i (fun e =>
    let up := decide (e.cls = .updraft)
    { e with requests := if e.requests.contains id then e.requests else e.requests ++ [id],
             cls := if up then .demand else e.cls, gen := if up then 0 else e.gen, promoted := e.promoted || up })).onPool (fun p =>
    { p with waiting := p.waiting.map (fun (w : Codeword) =>
        if w.bay = b ∧ w.entry.val = i ∧ w.cls = .updraft then { w with cls := .demand, gen := 0 } else w) })

/-- Order a cluster of a mounted disc for a command: from the Updraft store at once, from an open entry, or by demand. -/
def State.wantCluster (s : State) (b : BayNo) (id : CmdId) (u : Nat) : State :=
  let a := s.bays[b].readAddr u
  match s.storeHit b a with
  | some e => (s.deliver id u (fun k => lookupKey e.sectors k) 0 false).touchStore b a
  | none =>
    let s0 := s.touchStore b a
    let queued := s0.onSeq b (fun q => if q.demand.any (fun x => decide (x.2 = a)) then q else { q with demand := q.demand ++ [(homeOf u, a)] })
    match s0.bays[b].dec.entryAt a with
    | some (i, e) => if e.isVerify then queued else s0.attach b i id
    | none => queued

/-- Serve a Read or Verify from its copies (R22, R287): staged and absent sectors at once, the others from the disc in bay `b`,
where there is one. -/
def State.serveSectors (s : State) (c : Cmd) (v : Volume) (b : Option BayNo) : State :=
  let direct := c.lbas.filterMap (fun l => (s.copyOf v l).direct.map (fun x => (l, x)))
  let fromDisc := ((c.lbas.filter (fun l => ((s.copyOf v l).direct).isNone)).map (· / 16)).dedup
  let s1 := s.onCmd c.id (fun (x : Cmd) =>
    { x with started := true, wait := .disc, cover := fromDisc.map (fun u => (c.vid, u)),
             done := direct.map (fun d => (d.1, d.2.2)) })
  let s2 := if c.opcode = 1 then s1.giveData c.id (direct.filterMap (fun d => d.2.1.map (fun x => (d.1, x)))) else s1
  let s3 := match b with
    | some n =>
      let last := fromDisc.foldl max 0
      let t := fromDisc.foldl (fun (t : State) u => t.wantCluster n c.id u) s2
      if fromDisc.isEmpty then t
      else t.onDec n (fun d => { d with updraft := none, updraftFrom := some (homeOf (last + 1), s.bn n Param.decUpdDepth) })
    | none => s2
  s3.settleRead c.id

/-- A Read or Verify of a volume this device owns (R22, R293). -/
def State.serveRead (s : State) (c : Cmd) (v : Volume) : State :=
  let needs := c.lbas.any (fun l => ((s.copyOf v l).direct).isNone)
  match needs, s.servedIn c.vid with
  | false, _ => s.serveSectors c v none
  | true, some b => s.serveSectors c v (some b)
  | true, none =>
    if bitAt c.flags 0 then (s.setWait c.id .mount).placeDisc c.vid else s.complete c.id 0x20 0

/-! ### Writes (R291, R330, R398) -/

/-- A sector of a Write lies in a destaged cluster (R63). -/
def State.hitsDestaged (v : Volume) (c : Cmd) : Bool := c.clusterList.any (fun x => inRanges v.ranges x.2)

/-- The recorded ranges with a Write's clusters entered. -/
def Volume.rangesWith (v : Volume) (us : List Nat) : List (Nat × Nat) := us.foldl addRange v.ranges

/-- The checks 4 to 6 of R291, with R62 and R63: the status of the first that applies. -/
def State.writeCheck (s : State) (v : Volume) (c : Cmd) : Option Byte :=
  let destaged := State.hitsDestaged v c
  if destaged && !v.remap then some 0x22
  else if destaged && !rewriteAllowed v.ordinal then some 0x23
  else if v.readOnly then some 0x23
  else if !destaged && decide (maxRanges < (v.rangesWith (c.clusterList.map (·.2))).length
      ∧ v.ranges.length < (v.rangesWith (c.clusterList.map (·.2))).length) then some 0x23
  else if s.stg.writeProt || s.stg.luns.isEmpty then some 0x31
  else none

/-- A Write overlaps a cluster that a destage run has sealed (R331). -/
def State.meetsSeal (s : State) (c : Cmd) : Bool :=
  c.clusterList.any (fun x => match s.stg.entry? x.1 x.2 with
    | some e => e.sealed
    | none => false)

/-- There is room for a Write under the dirty limit (R24), with the Vent reserve erased (R349) and a Ballast buffer for each new
cluster (R330, log entry 110). -/
def State.writeRoom (s : State) (c : Cmd) : Bool :=
  let fresh := (c.clusterList.filter (fun x => (s.stg.dirty? x.1 x.2).isNone)).length
  decide (s.stg.dirtyBytes + 65536 * fresh ≤ s.stg.limit * 2 ^ 20) && s.stg.reserveReady && s.mayTake 2 stagingOwner fresh

/-- The part of a Write that falls in one user cluster, as a dirty buffer with a fresh data sequence (R330). -/
def writePart (c : Cmd) (data : List SectorData) (u seq : Nat) : DirtyCluster :=
  let ks := (List.range 16).filter (fun k => decide (c.lba ≤ u * 16 + k ∧ u * 16 + k < c.lba + c.count))
  { vid := c.vid, ucl := u, mask := BitVec.ofNat 16 ((ks.map (2 ^ ·)).sum), dataSeq := seq,
    sectors := ks.map (fun k => (k, data.getD (u * 16 + k - c.lba) 0)), lost := 0, mirror := false, queues := [], buf := none }

/-- Place a Write's clusters in DRAM (R330). -/
def State.placeWrite (s : State) (c : Cmd) (data : List SectorData) : State :=
  c.clusterList.foldl (fun t x =>
    let n := t.sys.dataSeq + 1
    (t.onSys (fun y => { y with dataSeq := n })).placeNew (writePart c data x.2 n)) s

/-- A Write passes its checks and has room: it is placed whole (the copy of a weak cluster that it covers is one no more), mirrored
while the peer is live (R398), and completes at its point (R290); a pair without a mirror keeps account of it (R401). -/
def State.applyWrite (s : State) (c : Cmd) (data : List SectorData) : State :=
  let mine := fun u => c.clusterList.any (fun x => decide (x.2 = u))
  let s0 := (s.placeWrite c data).eachBay (fun t b =>
    t.onDec b (fun d => { d with weak := d.weak.filter (fun w => !(decide (w.2 = c.vid) && (c.clusterList.any (fun x => decide (homeOf x.2 = w.1))))) }))
  let s1 := s0.undoWrite c.vid mine
  let s2 := s1.onCmd c.id (fun x => { x with started := true, cover := x.clusterList })
  if s2.mirrors then
    let first := s2.pair.nextMsg
    (c.clusterList.foldl (fun t x => t.sendMirror x.1 x.2 c.id.peer) s2).setWait c.id (.mirror first)
  else
    let s3 := if s2.inPair && decide (s2.sys.mode ≠ .pairedDegraded) then
        s2.onPair (fun q => { q with unmirrored := (q.unmirrored ++ c.clusterList).dedup })
      else s2
    if s3.point c = .staged then s3.setWait c.id .staged else s3.complete c.id 0x00 0

/-- A Write of a volume this device owns, once its data is here (R291): a mount for unknown ranges, the checks, the seal of
R331, and the space wait. -/
def State.serveWrite (s : State) (c : Cmd) (v : Volume) (data : List SectorData) : State :=
  if !v.known then
    match s.servedIn c.vid with
    | some _ => (s.onVol c.vid (fun x => { x with known := true }))
    | none => (s.setWait c.id .mount).placeDisc c.vid
  else match s.writeCheck v c with
  | some st => s.complete c.id st 0
  | none =>
    if s.meetsSeal c then s
    else if s.writeRoom c then s.applyWrite c data
    else if s.dn Param.qpSpaceWait = 0 then (s.expired c.id 0).complete c.id 0x30 0
    else (s.setWait c.id .space).gcStart

/-! ### Destage (R25, R295) -/

/-- The staged clusters that a Destage covers when it starts: those of its range, and those of the Writes its queue had posted
before its fetch (R295). -/
def State.destageCover (s : State) (c : Cmd) : List Nat :=
  let lo := c.lba / 16
  let hi := (c.lba + c.count - 1) / 16
  let inRange := fun u => decide (c.count = 0) || decide (lo ≤ u ∧ u ≤ hi)
  let mine := fun (e : MapEntry) => e.queues.contains (c.id.peer, c.id.port, c.id.queue) && c.cover.any (fun x => decide (x = (e.vid, e.ucl)))
  ((s.stg.map.filter (fun e => decide (e.vid = c.vid) && (inRange e.ucl || mine e))).map (·.ucl)
    ++ (c.cover.filter (fun x => (s.stg.dirty? x.1 x.2).isSome)).map (·.2)).dedup

/-- The staged copy of a user cluster is that of a weak cluster (R142). -/
def Bay.weakCopy (t : Bay) (vid : VolId) (u : Nat) : Bool := t.dec.weak.any (fun w => decide (w.1 = homeOf u ∧ w.2 = vid))

/-- The work item of a cluster to destage: its cause is a remap rewrite when the cluster is destaged already (R63), and a weak
rewrite when it was listed weak (R142). -/
def State.destageItem (s : State) (b : BayNo) (v : Volume) (u : Nat) : WriteItem :=
  { home := homeOf u, vid := v.vid, ucl := u,
    cause := if s.bays[b].weakCopy v.vid u then 3 else if inRanges v.ranges u then 2 else 0, fill := [] }

/-- The clusters of a list that a destage in a bay takes up: a weak cluster whose rewrite R58 refuses stays as written. -/
def State.destageable (s : State) (b : BayNo) (vid : VolId) (us : List Nat) : List Nat :=
  let ok := match s.bays[b].seq.disc with
    | some d => (d.mgmt.map (fun m => rewriteAllowed m.nextOrdinal)).getD true
    | none => true
  us.filter (fun u => ok || !s.bays[b].weakCopy vid u)

/-- The status that refuses a destage at its start (R58, R62, R63, R103, R295), if any. -/
def State.destageRefusal (s : State) (b : BayNo) (v : Volume) (us : List Nat) : Option Byte :=
  match s.bays[b].seq.disc with
  | none => some 0x20
  | some d => match d.mgmt with
    | none => some 0x20
    | some m =>
      let more := us.any (fun u => !inRanges m.ranges u)
      let rs := us.foldl addRange m.ranges
      if d.readOnly then some 0x23
      else if more && decide (maxRanges < rs.length ∧ m.ranges.length < rs.length) then some 0x23
      else if s.bays[b].rc.geometryFailed then some 0x25
      else if us.any (fun u => inRanges v.ranges u && !s.bays[b].weakCopy v.vid u) && !rewriteAllowed m.nextOrdinal then some 0x23
      else none

/-- Seal the map entries of clusters (R331). -/
def Staging.sealAll (g : Staging) (vid : VolId) (us : List Nat) : Staging :=
  { g with map := g.map.map (fun (e : MapEntry) => if e.vid = vid ∧ us.contains e.ucl then { e with sealed := true } else e) }

/-- Queue a destage job at a bay (R295). -/
def State.queueJob (s : State) (b : BayNo) (cmd : Option CmdId) (v : Volume) (us : List Nat) : State :=
  let j : DestageJob :=
    { cmd := cmd, vid := v.vid, todo := us.map (s.destageItem b v), written := [], replaced := 0, failed := none }
  (s.onWp b (fun w => { w with jobs := w.jobs ++ [j] })).onStg (fun g => g.sealAll v.vid us)

/-- A Destage of a volume this device owns (R293, R295): one that covers a cluster not staged yet waits for its program. -/
def State.serveDestage (s : State) (c : Cmd) (v : Volume) : State :=
  match s.servedIn c.vid with
  | none => if bitAt c.flags 0 then (s.setWait c.id .mount).placeDisc c.vid else s.complete c.id 0x20 0
  | some b =>
    let us := s.destageable b v.vid (s.destageCover c)
    match s.destageRefusal b v us with
    | some st => s.complete c.id st 0
    | none =>
      if us.any (fun u => (s.stg.dirty? c.vid u).isSome) then s
      else if us.isEmpty then s.complete c.id 0x00 0
      else
        (s.queueJob b (some c.id) v us).onCmd c.id (fun x =>
          { x with started := true, wait := .disc, cover := us.map (fun u => (v.vid, u)) })

end Sys2Proof.Machine
end

