-- ==== Sys2Proof/Machine/Writing.lean ====
section
/-! DEFINITION. Writing (06_writing_and_verification.md): the laser driver link (R149 to R152), write runs (R160 to R167), verification (R166), replacement (R168), power calibration and geometry writes (R157 to R161, R103), unverified clusters (R170), and management sets (R61, R62). -/

namespace Sys2Proof.Machine

/-! ### The laser driver link (R149 to R152) -/

/-- The CRC-8 of bits [31:8] of a control frame, most significant first (R149). -/
def frameCrc (f : BitVec 32) : Nat := ((List.range 24).map (fun i => f.getLsbD (31 - i))).foldl crc8Bit 0

/-- A control frame's CRC holds (R149). -/
def frameOk (f : BitVec 32) : Bool := decide (frameCrc f = f.toNat % 256)

/-- A control frame: write or read, register, data and CRC (R149). -/
def ldlFrame (req : LdlReq) : BitVec 32 :=
  let f := BitVec.ofNat 32 (2 ^ 31 * b2n req.write + 2 ^ 24 * req.reg.toNat + 2 ^ 8 * req.data.toNat)
  f ||| BitVec.ofNat 32 (frameCrc f)

/-- The answer to a read is good (R149, R152): its CRC holds, and it is laid out as the frame it answers. -/
def answerOk (req : LdlReq) (answer : BitVec 32) : Bool :=
  frameOk answer && decide (answer.toNat / 2 ^ 24 = (ldlFrame req).toNat / 2 ^ 24)

/-- A frame goes out on the link; a write of a power sets its register (R150). -/
def State.sendLdl (s : State) (b : BayNo) (req : LdlReq) : State :=
  let s1 := s.emit (.ldl b (ldlFrame req))
  if req.write ∧ 0x10 ≤ req.reg.toNat ∧ req.reg.toNat ≤ 0x14 then
    s1.onWp b (fun w => { w with ldl := insertKey w.ldl req.reg.toNat req.data })
  else s1

/-- STATUS shows a fault: bits 0 to 2 (Table 6.1, R152). -/
def statusFaulty (v : BitVec 16) : Bool := decide (v.toNat % 8 ≠ 0)

/-- A STATUS read (R151, R152): a fault raises EV_LDL_FAULT and takes the bay to FAULTED (Table 9.5). -/
def State.readStatus (s : State) (b : BayNo) (v : BitVec 16) : State :=
  let s1 := s.onWp b (fun w => { w with statusClear := !statusFaulty v })
  if statusFaulty v then (s1.raiseBay b .ldlFault [.u16 v.toNat]).faultBay b .laser else s1

/-- A good answer to a read: one of STATUS is judged (R151). -/
def State.answered (s : State) (b : BayNo) (req : LdlReq) (answer : BitVec 32) : State :=
  if req.reg = 0 then s.readStatus b (BitVec.ofNat 16 (answer.toNat / 256)) else s

/-- LDL_FRAME (R149, R151, R152): a frame is sent. A read is answered; an answer that is not good is repeated once: a good repeat shows
that the failure was transient, a bad one that it is persistent: no further write run starts, and the bay is faulted. P_SPACE
to P_PEAK are loaded only with the gate low. -/
def execLdlFrame (b : BayNo) (req : LdlReq) (answer again : BitVec 32) (s : State) : Res :=
  let loads := req.write && decide (0x11 ≤ req.reg.toNat ∧ req.reg.toNat ≤ 0x14)
  if loads && s.bays[b].wp.gate then .next s else
  let s0 := s.sendLdl b req
  if req.write then .next s0
  else if answerOk req answer then .next (s0.answered b req answer)
  else
    let s1 := s0.sendLdl b req
    if answerOk req again then
      .next (((s1.raiseBay b .ldlCrc).logRetry (Ev.bay b .ldlCrc).src 6 false 0 (bayUnit b req.reg.toNat)).answered b req again)
    else
      let s2 := (s1.raiseAt (.bay b .ldlCrc) .error []).logRetry (Ev.bay b .ldlCrc).src 6 true 4 (bayUnit b req.reg.toNat)
      .next ((s2.onWp b (fun w => { w with ldlDead := true })).faultBay b .laser)

/-- LDL_STATUS_POLL (R151, R152): before and in a write run the device reads STATUS. -/
def execLdlStatusPoll (b : BayNo) (status : BitVec 16) (s : State) : Res :=
  if s.bays[b].seq.st = .empty then .next s
  else .next ((s.sendLdl b { write := false, reg := 0, data := 0 }).readStatus b status)

/-! ### Powers (R155, R160) -/

/-- κ of a zone (R160). -/
def WritePath.kappa (w : WritePath) (layer : LayerNo) (zone : Nat) : Rat :=
  let ki : Rat := (w.kappaIn[layer] : Rat) / 4096
  let ko : Rat := (w.kappaOut[layer] : Rat) / 4096
  ki + (ko - ki) * ((zoneRadius zone : Rat) - 2400) / 3392

/-- A power rounded to 0.01 mW (R160); which way a half goes is left open (log entry 92). -/
def roundPower (v : Rat) : Nat :=
  (if v - v.floor = 1 / 2 then v.floor + b2n (Config.roundsUp 7 v) else (v + 1 / 2).floor).toNat

/-- The four write powers of a strategy block at a factor, 0.01 mW: space, cooling, middle, peak (R160). -/
def powersOf (block : List Byte) (k : Rat) : List Nat :=
  let peak : Rat := (ofLeBytes (block.take 2) : Rat) * k
  let part := fun (i : Nat) => roundPower (peak * (blockNat block i : Rat) / 256)
  [part 4, part 3, part 2, roundPower peak]

/-- Load the powers of a strategy block at a factor into the laser driver: P_SPACE to P_PEAK (R151, R160). -/
def State.loadPowersAt (s : State) (b : BayNo) (block : List Byte) (k : Rat) : State :=
  ((powersOf block k).zipIdx).foldl (fun (t : State) p =>
    t.sendLdl b { write := true, reg := BitVec.ofNat 7 (0x11 + p.2), data := BitVec.ofNat 16 p.1 }) s

/-- Load the powers of a layer and zone (R151, R160). -/
def State.loadPowers (s : State) (b : BayNo) (layer : LayerNo) (zone : Nat) : State :=
  s.loadPowersAt b (s.strategyBlock b layer zone) (s.bays[b].wp.kappa layer zone)

/-- B0 records a cluster outside a run, at an address: its symbols go out from WR.GATE_LEAD channel bits before its slot, WR.LDL_LATENCY
ahead of them (R153, R154, R165). -/
def State.record (s : State) (b : BayNo) (a : ClusterAddr) (bits : List Bool) : State :=
  let lead := s.bn b Param.wrGateLead
  let block := s.strategyBlock b (addrLayer a) (zoneOfTurn (addrTurn a))
  s.emit (.pulses b ((addrSlot a * slotBits : Nat) - (lead + s.bn b Param.wrLdlLatency : Nat)) (clusterSymbols block lead bits))

/-! ### Whole reads of a cluster (R61, R166) -/

/-- The soft data of codeword `i` of a read, and its erased bits. -/
def readCodeword (r : ClusterRead) (i : Nat) : List Int × Nat :=
  let w := (r.soft.drop (i * cwBits)).take cwBits
  (w.map (·.1), (w.filter (·.2)).length)

/-- The decodes of the 36 codewords of a read, at demand class; none where R123 skips one. -/
def State.decodes (s : State) (r : ClusterRead) : List (Option LdpcResult) :=
  (List.range 36).map (fun i =>
    let c := readCodeword r i
    if s.skips c.2 then none else some (ldpcDecode c.1 (s.dn Param.decIterDemand)))

/-- The address information of a read, where its field decodes (R49). -/
def readInfo (r : ClusterRead) : Option (BitVec 48) := decodeAddrField r.fieldErased r.field

/-- A read, of the codewords that were to be written at an address, measured against Table 6.4; the address as R117 compares it. -/
def State.measure (s : State) (b : BayNo) (a : ClusterAddr) (m : ClusterMeta) (cws : List CwData) (r : ClusterRead) : VerifyRead :=
  let ds := s.decodes r
  { locked := r.locked, inserted := r.inserted, addressOk := (match readInfo r with | some info => s.bays[b].infoAgrees a info | none => false),
    rawErrors := rawErrors r.soft (codedBits cws),
    converged := ds.all (fun d => match d with | some x => x.converged | none => false),
    iters := (ds.map (fun d => match d with | some x => x.iters | none => 0)).foldl max 0,
    crcMeta := ((ds.take 32).zipIdx).all (fun x => match x.1 with
      | some d => cwCrcOk (cwOfBits d.word) && decide (metaMaskOf m x.2 (cwInfo (cwOfBits d.word)) = 0)
      | none => false),
    eraseRun := r.erasedRun, eraseSum := (r.soft.filter (·.2)).length, receiver := r.receiver }

/-- A whole read of a cluster of a home address and volume at an address, through the decoder and the outer code (R127, R128). -/
def State.readEntry (s : State) (home a : ClusterAddr) (vid : VolId) (r : ClusterRead) : Entry :=
  let e := Entry.fresh .host a home vid 0 1 .demand 0 [] .reset []
  let cws := (s.decodes r).map (fun d => match d with
    | some x => if x.converged then CwState.converged (cwOfBits x.word) 0 else .failed
    | none => .skipped)
  ({ e with cws := Vector.ofFn (fun i : Fin 36 => cws.getD i.val .missing) }).afterOuter

/-- A cluster found recorded at an address decodes with the home address and volume expected of it (R61). -/
def State.decodesAs (s : State) (home a : ClusterAddr) (vid : VolId) (r : ClusterRead) : Bool := (s.readEntry home a vid r).complete

/-! ### Write runs (R164, R165, R167) -/

/-- Order write items by their slot. -/
def putItem (x : WriteItem) : List WriteItem → List WriteItem
  | [] => [x]
  | y :: rest => if x.home.toNat ≤ y.home.toNat then x :: y :: rest else y :: putItem x rest

/-- The clusters of a job that are written at their homes on one turn, in slot order, and the others. -/
def splitTurn (layer : LayerNo) (turn : Nat) (todo : List WriteItem) : List WriteItem × List WriteItem :=
  let mine := fun (x : WriteItem) => decide (x.cause = 0 ∧ addrLayer x.home = layer ∧ addrTurn x.home = turn)
  ((todo.filter mine).foldr putItem [], todo.filter (fun x => !mine x))

/-- The head job's rewrites (remap and weak clusters) go to the replacement queue (R168). -/
def WritePath.queueRewrites (w : WritePath) : WritePath :=
  match w.jobs with
  | [] => w
  | j :: rest =>
    { w with jobs := { j with todo := j.todo.filter (fun x => decide (x.cause = 0)) } :: rest,
             replQueue := w.replQueue ++ (j.todo.filter (fun x => decide (x.cause ≠ 0))).map (fun (x : WriteItem) =>
               { home := x.home, cause := x.cause, vid := x.vid, ucl := x.ucl, fill := x.fill }) }

/-- A change of the head job of a bay. -/
def State.onJob (s : State) (b : BayNo) (f : DestageJob → DestageJob) : State :=
  s.onWp b (fun w => { w with jobs := match w.jobs with | [] => [] | j :: rest => f j :: rest })

/-- The conditions of a write run that do not depend on its layer (R79, R103, R151, R152, R164, R245). -/
def State.mayWrite (s : State) (b : BayNo) : Bool :=
  let t := s.bays[b]
  t.mounted && t.laneHasReceiver 1 && !t.wp.ldlDead && t.wp.statusClear && !t.rc.geometryFailed
    && t.srv.focus.lull.isNone && t.srv.tracking.lull.isNone && t.srv.tilt.lull.isNone && t.srv.sled.lull.isNone
    && (match t.seq.disc with | some d => !d.readOnly && d.mgmt.isSome | none => false)
    && (s.sys.mode.serving || decide (s.sys.mode = .sanitize) || s.finishes (fun c => decide (c.opcode = 8)))

/-- The conditions of R164 that depend on the layer and zone, with R170: calibrated, B1's offset known, nothing unverified. -/
def State.layerReady (s : State) (b : BayNo) (layer : LayerNo) (zone : Nat) : Bool :=
  let w := s.bays[b].wp
  !bitAt w.opcDue layer.val && bitAt w.opcFirst layer.val && decide ((s.startEntry b zone layer 1).beamOffset ≠ 0)
    && w.unverified.all (fun x => decide (addrLayer x.home ≠ layer))

/-- B0 stands in the index gap of a turn whose wobble word before was decoded, and the write clock has kept within ±0.5 channel bit for
256 wobble cycles (R164). -/
def Bay.clockReady (t : Bay) (layer : LayerNo) (turn : Nat) : Bool :=
  (match t.srv.place with | some (l, x, _) => decide (l = layer ∧ x + 1 = turn) | none => false)
    && decide (256 ≤ t.wp.clockGood ∧ t.srv.cycle < unitCycles)

/-- The positions of an unclean disc that were read before their first write (R61): recorded ones that decode as expected count as
destaged, recorded others go to the replacement queue with cause 4, and the rest may be written. -/
def State.preRead (s : State) (b : BayNo) (prior : List (ClusterAddr × Option ClusterRead)) : State :=
  let found := fun (x : WriteItem) => (prior.find? (fun p => decide (p.1 = x.home))).bind (·.2)
  let good := fun (x : WriteItem) => match found x with | some r => s.decodesAs x.home x.home x.vid r | none => false
  let bad := fun (x : WriteItem) => (found x).isSome && !good x
  let free := prior.filterMap (fun p => if p.2.isNone then some p.1 else none)
  s.onBay b (fun t =>
    { t with
        seq := { t.seq with disc := t.seq.disc.map (fun (d : Disc) => { d with preRead := (d.preRead ++ free).dedup }) },
        wp := match t.wp.jobs with
          | [] => t.wp
          | j :: rest =>
            { t.wp with
                jobs := { j with todo := j.todo.filter (fun x => (found x).isNone), written := j.written ++ j.todo.filter good } :: rest,
                replQueue := t.wp.replQueue ++ (j.todo.filter bad).map (fun (x : WriteItem) =>
                  { home := x.home, cause := 4, vid := x.vid, ucl := x.ucl, fill := [] }) } })

/-- The clusters of a turn that may be written now (R61, R164): on an unclean disc only those whose positions were read. -/
def Bay.mayRecord (t : Bay) (x : WriteItem) : Bool :=
  match t.seq.disc with
  | some d => !d.unclean || d.preRead.contains x.home
  | none => false

/-- F-n reads the clusters of a turn from NAND into Ballast buffers owned by staging, one each (R25): the buffers taken by home, and
the clusters that found none, which stay to be written. -/
def State.fetchStaged (s : State) (items : List WriteItem) : State × List (ClusterAddr × BitVec 32) × List WriteItem :=
  items.foldl (fun (acc : State × List (ClusterAddr × BitVec 32) × List WriteItem) (x : WriteItem) =>
    match acc.1.ballastTake stagingOwner 65536 with
    | (t, some h) => (t, acc.2.1 ++ [(x.home, h)], acc.2.2)
    | (t, none) => (t, acc.2.1, acc.2.2 ++ [x])) (s, [], [])

/-- B0 takes up the clusters of a turn (R25, R151), whose copies are in Ballast: at the start of a run, and where the zone changes,
the powers are loaded. -/
def State.beginTurn (s : State) (b : BayNo) (layer : LayerNo) (turn : Nat) (items rest : List WriteItem) (fresh : Bool)
    (bufs : List (ClusterAddr × BitVec 32)) : State :=
  let guaranteed := s.bays[b].seq.destageFirst
  let was := match s.bays[b].wp.run with | some r => if fresh then none else some r | none => none
  let same := match was with | some r => decide (r.zone = zoneOfTurn turn) | none => false
  let s1 := if same then s else s.loadPowers b layer (zoneOfTurn turn)
  (s1.onJob b (fun j => { j with todo := rest })).onWp b (fun w =>
    { w with run := some { layer := layer, turn := turn, unjudged := (match was with | some r => r.unjudged | none => []),
                           turnItems := items, endAtTurn := (match was with | some r => r.endAtTurn | none => false),
                           finalRev := false, turns := (match was with | some r => r.turns + 1 | none => 1),
                           guaranteed := (match was with | some r => r.guaranteed | none => guaranteed),
                           bufs := (match was with | some r => r.bufs | none => []) ++ bufs } })

/-- The clusters that a turn of the head job writes, their copies fetched into Ballast, and what stays to be written. -/
def State.takeTurn (s : State) (b : BayNo) (layer : LayerNo) (turn : Nat) (todo : List WriteItem) :
    State × List (ClusterAddr × BitVec 32) × List WriteItem × List WriteItem :=
  let t := s.bays[b]
  let (all, others) := splitTurn layer turn todo
  let (s1, bufs, short) := s.fetchStaged (all.filter t.mayRecord)
  let left := all.filter (fun y => !t.mayRecord y || short.contains y)
  (s1, bufs, all.filter (fun y => !left.contains y), others ++ left)

/-- A management set of a destage run is due, unless one is due already (R61). -/
def WritePath.setDue (w : WritePath) : WritePath := { w with mgmtDue := match w.mgmtDue with | none => some .destage | d => d }

/-- WRITE_RUN_START (R160 to R165): the run starts on the turn of the first cluster of the head job when every condition of R164
holds; the powers are loaded in the index gap, and the bay is WRITING. `prior` are the reads of its positions on an unclean
disc (R61). -/
def execWriteRunStart (b : BayNo) (prior : List (ClusterAddr × Option ClusterRead)) (s : State) : Res :=
  let t := s.bays[b]
  if t.seq.st ≠ .ready ∨ s.mayWrite b = false ∨ t.wp.run.isSome = true ∨ t.seq.position = true ∨ t.srv.move.isSome = true then .next s else
  let s1 := (s.onWp b (fun w => w.queueRewrites)).preRead b prior
  match s1.bays[b].wp.jobs with
  | [] => .next s
  | j :: _ => match j.todo with
    | [] => .next (s1.onWp b WritePath.setDue)
    | x :: _ =>
      let layer := addrLayer x.home
      let turn := addrTurn x.home
      if t.clockReady layer turn && s1.layerReady b layer (zoneOfTurn turn) then
        match s1.takeTurn b layer turn j.todo with
        | (s2, bufs, items, rest) =>
          if items.isEmpty then .next s2
          else .next (((s2.beginTurn b layer turn items rest true bufs).onSeq b (fun q =>
            { q with destageFirst := false })).setBaySt b .writing 11)
      else .next s1

/-- The end of a turn of a write run (R165, R167, R243, R245): its clusters await B1; the next turn is written, or the final
verify revolution starts. -/
def State.turnEnds (s : State) (b : BayNo) : State :=
  let w := s.bays[b].wp
  match w.run with
  | none => s
  | some r =>
    if r.finalRev then s else
    let done := { r with unjudged := r.unjudged ++ r.turnItems, turnItems := [] }
    let s1 := s.onWp b (fun w => { w with run := some done })
    let todo := match w.jobs with | j :: _ => j.todo | [] => []
    let ends := s1.onWp b (fun w => { w with run := some { done with finalRev := true } })
    if r.endAtTurn || decide (s.sys.mode = .quiesce) then ends
    else match s1.takeTurn b r.layer (r.turn + 1) todo with
      | (_, _, [], _) => ends
      | (s2, bufs, items, rest) => s2.beginTurn b r.layer (r.turn + 1) items rest false bufs

/-- The gate of a run as B0 now stands (R165). -/
def State.setGate (s : State) (b : BayNo) : State :=
  let t := s.bays[b]
  match t.wp.run with
  | some r =>
    let high := !r.finalRev && gateAt (s.bn b Param.wrGateLead) r.turnAll (t.writePos r)
    s.onWp b (fun w => { w with gate := high })
  | none => s

/-- Clusters of a run's turn whose postamble has ended at a position await B1 (R163). -/
def WriteRun.upTo (r : WriteRun) (pos : Int) : WriteRun :=
  let ended := fun (x : WriteItem) => decide (x.first + slotBits ≤ pos)
  { r with unjudged := r.unjudged ++ r.turnItems.filter ended, turnItems := r.turnItems.filter (fun x => !ended x) }

/-- A 400 kHz period of a write run (R153, R162, R165): the bus sends the symbols of the channel bits B0 has passed since wobble cycle
`was`, the clusters that ended await B1, at the index point the turn ends, and the gate is set. -/
def State.writePeriod (s : State) (b : BayNo) (was : Nat) : State :=
  let t := s.bays[b]
  match t.wp.run with
  | none => s
  | some r =>
    if r.finalRev ∨ t.seq.st ≠ .writing then s else
    let from_ := (bitsAt r.zone was).floor
    let wraps := decide (t.srv.cycle < was)
    let stop := if wraps then (bitsAt r.zone turnCycles).floor else t.writePos r
    let s1 := (s.sendPulses b r from_ stop).onWp b (fun w => { w with run := some (r.upTo stop) })
    (if wraps then s1.turnEnds b else s1).setGate b

/-- The write clock's phase at the wobble cycles of a period, channel bits from the wobble-derived position (R162): cycles in a row
within ±0.5 (R164) and beyond ±1.5, of which 16 in WRITING cut the gate (R169). -/
def State.clockPeriod (s : State) (b : BayNo) (errs : List Rat) : State :=
  errs.foldl (fun (t : State) (e : Rat) =>
    let bad := if 3 / 2 < |e| then satInc 0xFFFFFFFF t.bays[b].wp.clockBad else 0
    let u := t.onWp b (fun w => { w with clockBad := bad, clockGood := if |e| ≤ 1 / 2 then satInc 0xFFFFFFFF w.clockGood else 0 })
    if bad = 16 then u.cutGate b .frameSync else u) s

/-- FINAL_VERIFY_END (R167): the final verify revolution ends, and with it the run; clusters B1 could not read are unverified. A
replacement pass and the management set follow. -/
def execFinalVerifyEnd (b : BayNo) (s : State) : Res :=
  match s.bays[b].wp.run with
  | some r =>
    if r.finalRev ∧ s.bays[b].seq.st = .writing then
      .next ((((s.freeRun b).onWp b (fun w =>
        { w.setDue with run := none, gate := false, statusClear := false, unverified := w.unverified ++ r.unjudged })).dropVerify b).setBaySt
          b .ready 12)
    else .next s
  | none => .next s

/-! ### Verification (R166) -/

/-- Raw bit errors of WR.VFY_BER (R166). -/
def State.berLimit (s : State) (b : BayNo) : Nat := s.bn b Param.wrVfyBer * 668736 / 1000000

/-- The first limit of Table 6.4 that a read misses, by its position; a channel bit marked erased under R76 counts as a failure
(R79), after the others. -/
def State.missedLimit (s : State) (b : BayNo) (o : VerifyRead) : Option Nat :=
  if !o.locked then some 0
  else if s.bn b Param.wrVfyIns < o.inserted then some 1
  else if !o.addressOk then some 2
  else if s.berLimit b < o.rawErrors then some 3
  else if !o.converged || decide (s.bn b Param.wrVfyIter < o.iters) then some 4
  else if !o.crcMeta then some 5
  else if s.bn b Param.wrVfyEraseRun < o.eraseRun then some 6
  else if s.bn b Param.wrVfyEraseSum < o.eraseSum then some 7
  else if o.receiver then some 8
  else none

/-- The verify history of a layer takes an outcome; enough failures among its last 256 make the layer due (R159), and end the
run at its turn. -/
def State.noteVerify (s : State) (b : BayNo) (layer : LayerNo) (failed : Bool) : State :=
  s.onWp b (fun w =>
    let h := (failed :: w.vhist[layer]).take 256
    let due := decide (s.bn b Param.wrOpcVfail ≤ (h.filter id).length)
    let w1 := { w with vhist := w.vhist.set layer.val h layer.isLt }
    if due then { w1.makeDue layer with run := w.run.map (fun (r : WriteRun) => { r with endAtTurn := true }) } else w1)

/-- A verify read is judged against Table 6.4 (R166): EV_VERIFY_FAIL with the first limit missed, or EV_VERIFY_MARGINAL above half
the raw errors permitted; the answer says whether it passes. -/
def State.verdict (s : State) (b : BayNo) (layer : LayerNo) (o : VerifyRead) : State × Bool :=
  match s.missedLimit b o with
  | some i => ((s.raiseBay b .verifyFail [.u8 i]).noteVerify b layer true, false)
  | none =>
    ((if s.berLimit b < 2 * o.rawErrors then s.raiseBay b .verifyMarginal else s).noteVerify b layer false, true)

/-- The account of the head job's command counts a cluster written at its home. -/
def State.countWritten (s : State) (b : BayNo) : State :=
  match s.bays[b].wp.jobs with
  | j :: _ => match j.cmd with
    | some c => s.onCmd c (fun x => { x with written := x.written + 1 })
    | none => s
  | [] => s

/-- B1's read of a written cluster is judged (R166): it is verified, or queued for replacement. -/
def State.judge (s : State) (b : BayNo) (x : WriteItem) (o : VerifyRead) : State :=
  match s.verdict b (addrLayer x.home) o with
  | (s1, false) =>
    (s1.onWp b (fun w =>
      { w with replQueue := w.replQueue ++ [{ home := x.home, cause := 1, vid := x.vid, ucl := x.ucl, fill := [] }] })).countWritten b
  | (s1, true) => (s1.onJob b (fun j => { j with written := j.written ++ [x] })).countWritten b

/-- An entry's verify read, once its codewords have their results, measured against Table 6.4. -/
def Entry.measured (e : Entry) (v : VerifyTally) : VerifyRead :=
  { locked := v.locked, inserted := v.inserted, addressOk := v.addressOk, rawErrors := v.raw,
    converged := e.cws.toList.all (fun c => match c with | .converged _ _ => true | _ => false),
    iters := e.maxIters, crcMeta := (List.range 32).all (fun i => (e.checked i).isGood), eraseRun := v.longest,
    eraseSum := e.erased.toList.sum, receiver := v.receiver }

/-- The written cluster of a run whose verify read is complete: its item, its entry and what it measured. -/
def Bay.verified (t : Bay) (xs : List WriteItem) : Option (WriteItem × Nat × VerifyRead) :=
  xs.findSome? (fun x => t.dec.entries.findSome? (fun e => match e.2.use with
    | .verify v => if v.item = x ∧ e.2.frames = 384 ∧ e.2.decided = true then some (x, e.1, e.2.measured v) else none
    | _ => none))

/-- The Ballast buffer that held the copy of a cluster being written is free again (R25). -/
def State.freeStaged (s : State) (b : BayNo) (home : ClusterAddr) : State :=
  match s.bays[b].wp.run with
  | some r =>
    (s.onWp b (fun w => { w with run := w.run.map (fun (q : WriteRun) => { q with bufs := q.bufs.filter (fun p => !decide (p.1 = home)) }) })).giveAll
      stagingOwner ((r.bufs.filter (fun p => decide (p.1 = home))).map (·.2))
  | none => s

/-- VERIFY_CLUSTER (R163, R166): B1's read of a written cluster of the run is judged, once its codewords have been decoded. -/
def execVerifyCluster (b : BayNo) (s : State) : Res :=
  match s.bays[b].wp.run with
  | some r =>
    match s.bays[b].verified r.unjudged with
    | some (x, i, o) =>
      if s.bays[b].seq.st = .writing then
        .next ((((s.onWp b (fun w =>
          { w with run := w.run.map (fun (q : WriteRun) => { q with unjudged := q.unjudged.filter (fun y => !decide (y = x)) }) })).closeEntry
            b i).freeStaged b x.home).judge b x o)
      else .next s
    | none => .next s
  | none => .next s

/-- UNVERIFIED_VERIFY_PASS (R170): B1 reads the clusters a cut left unverified, in order; one it does not reach, or whose read could
not be made, stays. -/
def execUnverifiedVerifyPass (b : BayNo) (reads : List (Option ClusterRead)) (s : State) : Res :=
  let t := s.bays[b]
  if t.seq.st = .ready ∧ t.laneHasReceiver 1 = true ∧ t.mounted = true then
    let xs := t.wp.unverified
    let made := fun (p : WriteItem × Option ClusterRead) => p.2.isSome
    let s1 := s.onWp b (fun w =>
      { w with unverified := ((xs.zip reads).filter (fun p => !made p)).map (·.1) ++ xs.drop reads.length })
    let s2 := (xs.zip reads).foldl (fun (u : State) p => match p.2 with
      | some r => u.judge b p.1 (u.measure b p.1.home (u.bays[b].itemMeta p.1) (u.itemWords b p.1) r)
      | none => u) s1
    .next (s2.onWp b WritePath.setDue)
  else .next s

/-- WOBBLE_INDEX_LOSS (R169): the index mark is found so many wobble cycles from its prediction, or not at all: beyond
WR.SYNC_LOSS_WIN in WRITING, the gate is cut. -/
def execWobbleIndexLoss (b : BayNo) (found : Option Int) (s : State) : Res :=
  let inside := match found with | some d => decide (d.natAbs ≤ s.bn b Param.wrSyncLossWin) | none => false
  if inside then .next s else .next (s.cutGate b .frameSync)

/-! ### Replacement (R56, R58, R168) -/

/-- The management set of a bay's disc changes. -/
def State.onMgmt (s : State) (b : BayNo) (f : MgmtSet → MgmtSet) : State := s.onDisc b (fun d => { d with mgmt := d.mgmt.map f })

/-- The disc in a bay was unclean at its mount (R61). -/
def Bay.unclean (t : Bay) : Bool := match t.seq.disc with | some d => d.unclean | none => false

/-- How the attempts of one cluster of the replacement queue end (R168): replaced, failed, or still waiting for a write or its
read. -/
inductive ReplEnd where
  | replaced | failed | waits
  deriving DecidableEq, Repr

/-- A cluster of the replacement queue as a work item. -/
def ReplItem.item (x : ReplItem) : WriteItem :=
  { home := x.home, vid := x.vid, ucl := x.ucl, cause := x.cause, fill := x.fill }

/-- A cluster stands in the replacement area at ordinal `n` (R56, R168): the defect list, the ranges and the job take it. -/
def State.replacedAt (s : State) (b : BayNo) (x : ReplItem) (n : Nat) : State :=
  let item := x.item
  ((s.onMgmt b (fun q =>
    { q with defects := q.defects ++ [{ cause := BitVec.ofNat 6 x.cause, home := x.home, repl := ordinalAddr n }],
             ranges := addRange q.ranges x.ucl })).onJob b (fun j =>
    { j with written := j.written ++ [item], replaced := j.replaced + 1 })).raiseBay b .replacementWritten

/-- For a remap rewrite, the sectors absent from the staged copy are taken from reads of the disc copies, given by home address
(R354); as far as they decode. -/
def State.fillRepl (s : State) (b : BayNo) (copies : List (ClusterAddr × ClusterRead)) (x : ReplItem) : ReplItem :=
  match copies.find? (fun c => decide (c.1 = x.home)), x.cause with
  | some c, 2 =>
    let a := match s.bays[b].seq.disc.bind (·.mgmt) with | some m => setReadAddr m x.home | none => x.home
    let e := s.readEntry x.home a x.vid c.2
    let absent := (List.range 16).filter (fun k => (s.stagedSector x.vid x.ucl k).isNone && (lookupKey x.fill k).isNone)
    { x with fill := x.fill ++ absent.filterMap (fun k => (e.sector k).map (fun d => (k, if e.unwritten k then none else some d))) }
  | _, _ => x

/-- Every sector of a cluster of the replacement queue is at hand (R354). -/
def State.replFilled (s : State) (x : ReplItem) : Bool :=
  decide (x.cause ≠ 2)
    || (List.range 16).all (fun k => (s.stagedSector x.vid x.ucl k).isSome || (lookupKey x.fill k).isSome)

/-- The attempts of one cluster in the replacement area (R168), at most `left` writes, each at the lowest unused ordinal and verified
under R166. On an unclean disc a position found recorded is not written: one that decodes as the cluster counts as its
replacement (R61). -/
def State.tryReplace (b : BayNo) (x : ReplItem) : List WriteTry → (left : Nat) → State → State × List WriteTry × ReplEnd
  | tries, left, s =>
    let m := (s.bays[b].seq.disc.bind (·.mgmt))
    let n := (m.map MgmtSet.nextOrdinal).getD ordinals
    if left = 0 ∨ ordinals ≤ n then (s, tries, .failed) else
    match tries with
    | [] => (s, [], .waits)
    | w :: rest =>
      let a := ordinalAddr n
      let item := x.item
      let s1 := s.onMgmt b (fun q => { q with nextOrdinal := n + 1 })
      match (if s.bays[b].unclean then w.before else none) with
      | some r =>
        if s.decodesAs x.home a x.vid r then (s1.replacedAt b x n, rest, .replaced) else State.tryReplace b x rest left s1
      | none =>
        let s2 := (s1.loadPowers b (addrLayer a) (zoneOfTurn (addrTurn a))).record b a (s1.itemBits b a item)
        match w.after with
        | none => (s2, rest, .waits)
        | some r =>
          match s2.verdict b (addrLayer a) (s2.measure b a (s2.bays[b].itemMeta item) (s2.itemWords b item) r) with
          | (s3, true) => (s3.replacedAt b x n, rest, .replaced)
          | (s3, false) => State.tryReplace b x rest (left - 1) s3

/-- A weak cluster whose rewrite R58 refuses stays as written; its staged copy is no longer sealed. -/
def State.dropWeak (s : State) (x : ReplItem) : State :=
  s.onStg (fun g => { g with map := g.map.map (fun (e : MapEntry) => if e.vid = x.vid ∧ e.ucl = x.ucl then { e with sealed := false } else e) })

/-- One cluster of the replacement queue (R58, R168): refused where R58 keeps the ordinals, replaced, or failed; one whose absent
sectors have not been read stays (R354). -/
def State.replaceOne (s : State) (b : BayNo) (m : MgmtSet) (x : ReplItem) (tries : List WriteTry) : State × List WriteTry × Bool :=
  if (x.cause = 2 ∨ x.cause = 3) ∧ rewriteAllowed m.nextOrdinal = false then
    (if x.cause = 3 then s.dropWeak x else s.onJob b (fun j => { j with failed := some 0x23 }), tries, true)
  else if !s.replFilled x then (s, tries, false)
  else
    match State.tryReplace b x tries (s.bn b Param.wrReplTries) s with
    | (s1, rest, .replaced) => (s1, rest, true)
    | (s1, rest, .failed) => ((s1.raiseBay b .replacementFail).onJob b (fun j => { j with failed := some 0x25 }), rest, true)
    | (s1, rest, .waits) => (s1, rest, false)

/-- The replacement queue in order, while writes last. -/
def State.replaceAll (b : BayNo) : List ReplItem → List WriteTry → State → State
  | [], _, s => s.onWp b (fun w => { w with replQueue := [] })
  | x :: rest, ts, s =>
    match s.bays[b].seq.disc.bind (·.mgmt) with
    | none => s
    | some m =>
      match s.replaceOne b m x ts with
      | (s1, left, true) => State.replaceAll b rest left s1
      | (s1, _, false) => s1.onWp b (fun w => { w with replQueue := x :: rest })

/-- REPLACEMENT_PASS (R168): the queued clusters are written in the replacement area, each at the lowest unused ordinal, verified,
and entered in the defect list; `copies` are reads of disc copies for remap rewrites (R354), and `tries` what each write met in turn.
One whose read could not be made stays queued. -/
def execReplacementPass (b : BayNo) (copies : List (ClusterAddr × ClusterRead)) (tries : List WriteTry) (s : State) : Res :=
  if s.bays[b].seq.st ≠ .ready ∨ s.mayWrite b = false ∨ s.bays[b].wp.run.isSome = true then .next s else
  let s0 := s.onWp b (fun w => w.queueRewrites)
  let s1 := s0.onWp b (fun w => { w with replQueue := w.replQueue.map (s0.fillRepl b copies) })
  if s1.bays[b].wp.replQueue = [] then .next s
  else .next ((State.replaceAll b s1.bays[b].wp.replQueue tries s1).onWp b (fun w => { w.setDue with statusClear := false }))

/-! ### Test clusters (R157) -/

/-- The PRBS x³¹ + x²⁸ + 1 as bytes: the register shifts toward bit 30, whose bit goes out, first the high bit of each byte. The
order of the bits is left open (DESIGN CHOICE, log entry 100). -/
def prbsBytes (seed n : Nat) : List Byte :=
  let step := fun (x : Nat) => (2 * x % 2 ^ 31) + (x / 2 ^ 30 + x / 2 ^ 27) % 2
  let byte := fun (x : Nat × Nat) (_ : Nat) => (step x.1, 2 * x.2 % 256 + x.1 / 2 ^ 30 % 2)
  let st := (List.range n).foldl (fun (x : Nat × List Byte) _ =>
    let y := (List.range 8).foldl byte (x.1, 0)
    (y.1, BitVec.ofNat 8 y.2 :: x.2)) (seed, [])
  st.2.reverse

/-- What the metadata of a test cluster at an address share (R157). -/
def testMeta (a : ClusterAddr) : ClusterMeta := { home := a, vid := 0, lba := 0, management := false, replacement := false, remap := 0 }

/-- The codewords of a test cluster: the PRBS from its address in its 32 data codewords (R157). -/
def testWords (a : ClusterAddr) : List CwData :=
  let bs := prbsBytes (a.toNat + 2 ^ 26) 65536
  clusterCodewords (testMeta a) ((List.range 32).map (fun i => (packBytes 16384 ((bs.drop (2048 * i)).take 2048), false)))

/-- The channel bits of a test cluster. -/
def Bay.testBits (t : Bay) (a : ClusterAddr) : List Bool := recordedBits a t.discId (testWords a)

/-- Positions of a test area: first and count (Table 2.9). -/
def testArea (outer : Bool) : Nat × Nat := if outer then (1461720, 1920) else (0, 3072)

/-- A binary search for the first position without a detected preamble: the answers of its probes in order, a probe not answered
finding none (R157, R239). -/
def firstFree : (fuel lo hi : Nat) → List Bool → Nat
  | 0, lo, _, _ => lo
  | fuel + 1, lo, hi, answers =>
    if hi ≤ lo then lo
    else
      let mid := (lo + hi) / 2
      if answers.headD false then firstFree fuel (mid + 1) hi answers.tail else firstFree fuel lo mid answers.tail

/-- The pointers to the next unused test positions of a layer, inner and outer; found by binary search at the first calibration of the
mount, and kept (R157). -/
def State.testPointers (s : State) (b : BayNo) (layer : LayerNo) (probes : List Bool × List Bool) : (Nat × Nat) × State :=
  match s.bays[b].wp.testNext[layer] with
  | some p => (p, s)
  | none =>
    let p := (firstFree 12 0 3072 probes.1, firstFree 12 0 1920 probes.2)
    (p, s.onWp b (fun w => { w with testNext := w.testNext.set layer.val (some p) layer.isLt }))

/-- Use up test positions of a layer (R158). -/
def State.useTest (s : State) (b : BayNo) (layer : LayerNo) (outer : Bool) (n : Nat) : State :=
  s.onWp b (fun w =>
    { w with testNext := w.testNext.set layer.val ((w.testNext[layer]).map (fun p =>
        if outer then (p.1, p.2 + n) else (p.1 + n, p.2))) layer.isLt })

/-! ### Power calibration (R158 to R161) -/

/-- The factor of step `i` of `n` about a factor (R158). -/
def stepFactor (prev : Rat) (span n i : Nat) : Rat :=
  prev * (1 - (span : Rat) / 100 + 2 * (span : Rat) / 100 * (i : Rat) / ((n - 1 : Nat) : Rat))

/-- The step with the fewest errors; on a tie the lower power (R158). -/
def bestStep (errors : List Nat) (n : Nat) : Nat :=
  (List.range n).foldl (fun best i => if errors.getD i 668737 < errors.getD best 668737 then i else best) 0

/-- A calibration run about a factor is accepted (R158), with its factor; otherwise the factor on which a second run is centred, if
the chosen step is the first or the last. DESIGN CHOICE (log entry 101): a first run whose chosen step is neither but over
WR.VFY_BER gets no second run; R158 accepts none and orders none there. -/
def judgeRun (prev : Rat) (span n limit : Nat) (errors : List Nat) : Option Rat × Option Rat :=
  let k := bestStep errors n
  let f := stepFactor prev span n k
  if k = 0 ∨ k + 1 = n then (none, some f)
  else if errors.getD k 668737 ≤ limit then (some f, none)
  else (none, none)

/-- The strategy block that a test area of a layer is written with. -/
def State.testBlock (s : State) (b : BayNo) (layer : LayerNo) (outer : Bool) : List Byte :=
  s.strategyBlock b layer (if outer then 9 else 0)

/-- Every level of a run lies in the range of Table 6.1 (R158): the highest peak is at most 60 mW. -/
def State.levelsOk (s : State) (b : BayNo) (layer : LayerNo) (outer : Bool) (top : Rat) : Bool :=
  (powersOf (s.testBlock b layer outer) top).all (fun p => decide (p ≤ 6000))

/-- The steps of a calibration run from test position `used` (R158): each is written at its own levels and read back, and its raw
bit errors are counted; more than any where it was not read. On an unclean disc a position found recorded is not written
(R61). -/
def State.runSteps (s : State) (b : BayNo) (layer : LayerNo) (outer : Bool) (used : Nat) (prev : Rat) (span n : Nat)
    (tries : List WriteTry) : State × List Nat :=
  (List.range n).foldl (fun (acc : State × List Nat) i =>
    let a := addrOfPos layer.val ((testArea outer).1 + used + i)
    let w := tries.getD i { before := none, after := none }
    if acc.1.bays[b].unclean && w.before.isSome then (acc.1, acc.2 ++ [668737])
    else
      let t := (acc.1.loadPowersAt b (s.testBlock b layer outer) (stepFactor prev span n i)).record b a (acc.1.bays[b].testBits a)
      let e := match w.after with
        | some r => rawErrors r.soft (codedBits (testWords a))
        | none => 668737
      (t, acc.2 ++ [e])) (s.useTest b layer outer n, [])

/-- An area of a layer has been calibrated; with both done the layer is no longer due (R159). -/
def State.calibrated (s : State) (b : BayNo) (layer : LayerNo) (outer : Bool) : State :=
  s.onWp b (fun w =>
    let ran := setBit w.opcRan (layer.val + if outer then 16 else 0) true
    if bitAt ran layer.val && bitAt ran (16 + layer.val) then
      { w with opcRan := setBit (setBit ran layer.val false) (16 + layer.val) false, opcDue := setBit w.opcDue layer.val false,
               opcFirst := setBit w.opcFirst layer.val true, vhist := w.vhist.set layer.val [] layer.isLt }
    else { w with opcRan := ran })

/-- A factor is accepted (R158): EV_OPC_DONE with layer, area and factor. It is kept in the 1/4096 of WR.KAPPA; the spec does not
round it (log entry 92). -/
def State.opcAccept (s : State) (b : BayNo) (layer : LayerNo) (outer : Bool) (f : Rat) : State :=
  let k := (roundOpen 8 (f * 4096)).toNat
  (s.onBay b (fun t =>
    { t with wp := { t.wp with
        kappaIn := if outer then t.wp.kappaIn else t.wp.kappaIn.set layer.val k layer.isLt,
        kappaOut := if outer then t.wp.kappaOut.set layer.val k layer.isLt else t.wp.kappaOut,
        opcDone := setBit t.wp.opcDone (layer.val + if outer then 16 else 0) true,
        opcTemp := t.wp.opcTemp.set layer.val (some t.afe.headTemp) layer.isLt } })).raiseBay b .opcDone
    [.u8 layer.val, .u8 (b2n outer), .u16 k]

/-- A test area has too few positions left (R161): EV_OPC_AREA_FULL once a mount and layer, and the last factor stays. -/
def State.areaFull (s : State) (b : BayNo) (layer : LayerNo) : State :=
  if bitAt s.bays[b].wp.areaFull layer.val then s
  else (s.onWp b (fun w => { w with areaFull := setBit w.areaFull layer.val true })).raiseBay b .opcAreaFull

/-- Power calibration may run in a bay (R159, R245). -/
def State.mayCalibrate (s : State) (b : BayNo) : Bool :=
  let t := s.bays[b]
  decide (t.seq.st = .ready) && t.mounted && t.laneHasReceiver 1 && !t.wp.ldlDead
    && (match t.seq.disc with | some d => !d.readOnly | none => false)
    && (s.sys.mode.serving || decide (s.sys.mode = .calibrate))

/-- One run about a factor (R158, R161): none where the area has too few positions or a level would leave its range, else its
judgement. -/
def State.opcRun (s : State) (b : BayNo) (layer : LayerNo) (outer : Bool) (used : Nat) (prev : Rat) (tries : List WriteTry) :
    State × Option (Option Rat × Option Rat) :=
  let n := s.bn b Param.wrOpcSteps
  let span := s.bn b Param.wrOpcSpan
  if (testArea outer).2 < used + n then (s.areaFull b layer, none)
  else if !s.levelsOk b layer outer (stepFactor prev span n (n - 1)) then ((s.useTest b layer outer n).raiseBay b .opcFail, none)
  else
    let r := s.runSteps b layer outer used prev span n tries
    (r.1, some (judgeRun prev span n (s.berLimit b) r.2))

/-- POWER_CALIBRATION (R158 to R161): a run on a test area, and where its chosen step is the first or the last a second one centred
on it; `tries` and `again` give what their writes meet, `probes` the binary searches of R157. A full area keeps its last
factor. -/
def execPowerCalibration (b : BayNo) (layer : LayerNo) (outer : Bool) (probes : List Bool × List Bool) (tries again : List WriteTry)
    (s : State) : Res :=
  if !s.mayCalibrate b then .next s else
  let (p, s1) := s.testPointers b layer probes
  let used := if outer then p.2 else p.1
  let w := s1.bays[b].wp
  let prev : Rat := ((if outer then w.kappaOut[layer] else w.kappaIn[layer] : Nat) : Rat) / 4096
  let fails := fun (u : State) => u.raiseBay b .opcFail
  let s2 := match s1.opcRun b layer outer used prev tries with
    | (u, none) => u
    | (u, some (some f, _)) => u.opcAccept b layer outer f
    | (u, some (none, none)) => fails u
    | (u, some (none, some c)) =>
      match u.opcRun b layer outer (used + s.bn b Param.wrOpcSteps) c again with
      | (v, none) => v
      | (v, some (some f, _)) => v.opcAccept b layer outer f
      | (v, some (none, _)) => fails v
  .next (s2.calibrated b layer outer)

/-! ### Geometry writes (R103) -/

/-- The test turns of a geometry write (R103): the inner area while 4 whole turns are left, else the outer; the first position of its
turns and the positions it uses from the pointer on, where they fit. -/
def geometryPlace (p : Nat × Nat) : Option (Bool × Nat × Nat) :=
  let need := fun (k used : Nat) => ceilDiv used k * k + 4 * k - used
  if p.1 + need 6 p.1 ≤ 3072 then some (false, ceilDiv p.1 6 * 6, need 6 p.1)
  else if p.2 + need 15 p.2 ≤ 1920 then some (true, ceilDiv p.2 15 * 15, need 15 p.2)
  else none

/-- The count at which a lane meets the frame 0 sync of a geometry turn: predicted from its own preamble detection (R103). -/
def State.geometrySync (s : State) (b : BayNo) (x : LaneRead) : Option Int :=
  let w := s.bn b Param.rdchAcqWin
  (syncSearch ((x.bits.drop (1600 - w)).take (2 * w + 40)) 0 w (s.bn b Param.rdchSyncThr)).map (fun q => (x.start : Int) + 1600 + q.1)

/-- The beam offsets of B1 to B3 that a read of a geometry write gives (R102, R103). -/
def State.geometryOffsets (s : State) (b : BayNo) (v : Vector (Option LaneRead) 4) : Vector (Option Nat) 3 :=
  let at_ := fun (l : Fin 4) => (v[l]).bind (s.geometrySync b)
  Vector.ofFn (fun i : Fin 3 => match at_ 0, at_ i.succ with
    | some p, some q => if p ≤ q ∧ q - p ≤ 4095 then some (q - p).toNat else none
    | _, _ => none)

/-- The offsets that a geometry write learns (R103): the distances they give stand until unmount, and every entry's offset follows
from them. -/
def State.learnGeometry (s : State) (b : BayNo) (zone : Nat) (off : Vector (Option Nat) 3) : State :=
  s.onRc b (fun r =>
    let learnt := Vector.ofFn (fun i : Fin 3 => match off[i] with | some o => some (distanceOf zone o) | none => r.learnt[i])
    { r with learnt := learnt,
             start := r.start.map (fun e =>
               let l := e.1 % 4
               match (if h : 0 < l ∧ l < 4 then learnt[l - 1]'(by omega) else none) with
               | some d => (e.1, { e.2 with beamOffset := offsetOf (e.1 / 64) d })
               | none => e) })

/-- B0 writes the test clusters of four turns from a position of a test area, but for those found recorded on an unclean disc (R61,
R103). -/
def State.geometryTurns (s : State) (b : BayNo) (layer : LayerNo) (outer : Bool) (first : Nat) (recorded : List ClusterAddr) : State :=
  let zone := if outer then 9 else 0
  let w := s.bays[b].wp
  let k : Rat := ((if outer then w.kappaOut[layer] else w.kappaIn[layer] : Nat) : Rat) / 4096
  (List.range (4 * zoneClusters zone)).foldl (fun (t : State) i =>
    let a := addrOfPos layer.val ((testArea outer).1 + first + i)
    if t.bays[b].unclean && recorded.contains a then t else t.record b a (t.bays[b].testBits a))
    (s.loadPowersAt b (s.testBlock b layer outer) k)

/-- Both geometry writes have failed (R103): EV_OPC_FAIL, no writing in this mount, and the Destages end with 0x25. -/
def State.geometryFails (s : State) (b : BayNo) : State :=
  let s1 := (s.onRc b (fun r => { r with geometryFailed := true })).raiseBay b .opcFail
  let s2 := s1.bays[b].wp.jobs.foldl (fun (x : State) j => match j.cmd with
    | some c => x.complete c 0x25 (match x.cmd? c with | some q => BitVec.ofNat 64 (q.written + q.replaced * 2 ^ 32) | none => 0)
    | none => x) s1
  s2.onWp b (fun w => { w with jobs := [], replQueue := [] })

/-- One geometry write and its read (R103): the answer says whether B1's and B3's offsets are known from it. -/
def State.geometryOnce (s : State) (b : BayNo) (layer : LayerNo) (recorded : List ClusterAddr) (reads : Vector (Option LaneRead) 4) :
    State × Bool :=
  match (s.bays[b].wp.testNext[layer]).bind geometryPlace with
  | none => (s, false)
  | some (outer, first, n) =>
    let off := s.geometryOffsets b reads
    (((s.geometryTurns b layer outer first recorded).useTest b layer outer n).learnGeometry b (if outer then 9 else 0) off,
      (off[0]).isSome && (off[2]).isSome)

/-- GEOMETRY_WRITE (R103): B0 writes four whole turns of test clusters, and their read learns the beam offsets; repeated once when
B1's or B3's stays unknown; when the repeat fails too, the disc is not written in this mount. -/
def execGeometryWrite (b : BayNo) (layer : LayerNo) (probes : List Bool × List Bool) (recorded : List ClusterAddr)
    (first second : Vector (Option LaneRead) 4) (s : State) : Res :=
  let t := s.bays[b]
  if t.seq.st ≠ .ready ∨ s.mayWrite b = false ∨ t.wp.clockGood < 256 then .next s else
  let s1 := (s.testPointers b layer probes).2
  match s1.geometryOnce b layer recorded first with
  | (s2, true) => .next (s2.onWp b (fun w => { w with statusClear := false }))
  | (s2, false) =>
    match s2.geometryOnce b layer recorded second with
    | (s3, true) => .next (s3.onWp b (fun w => { w with statusClear := false }))
    | (s3, false) => .next (s3.geometryFails b)

/-! ### Management sets (R61, R62) -/

/-- The management set that follows the current one (R61): the next sequence number; the pre-read flag once set, or on a disc
unclean at mount; the clean-unmount flag at unmount. -/
def nextSet (d : Disc) (m : MgmtSet) (clean : Bool) (done : List WriteItem) : MgmtSet :=
  { m with seq := m.seq + 1, clean := clean, preRead := m.preRead || d.unclean, ranges := done.foldl (fun r x => addRange r x.ucl) m.ranges }

/-- The staged copies of clusters now on disc are released (R25, R61), in NAND's journal and at the peer, once it can be told
(R401). -/
def State.releaseStaged (s : State) (xs : List WriteItem) : State :=
  let here := fun (e : MapEntry) => xs.any (fun x => decide (x.vid = e.vid ∧ x.ucl = e.ucl)) && e.sealed
  let gone := s.stg.map.filter here
  let s1 := s.onStg (fun g =>
    { (gone.foldl (fun (u : Staging) e => u.journalRec (.release e.vid e.ucl)) g) with
      map := g.map.filter (fun e => !here e), mirrored := g.mirrored.filter (fun k => !(gone.any (fun e => decide (k = (e.vid, e.ucl))))) })
  match gone with
  | [] => s1
  | e :: _ =>
    let s2 := s1.onPair (fun q => { q with unmirrored := q.unmirrored.filter (fun k => !(gone.any (fun e => decide (k = (e.vid, e.ucl))))) })
    if s2.mirrors then s2.sendAbout 0x12 e.vid 0 0 (bodyWords (gone.map (·.ucl))) (8 * gone.length)
    else if s2.inPair then s2.onPair (fun q => { q with unreleased := q.unreleased ++ gone.map (fun e => (e.vid, e.ucl)) })
    else s2

/-- The volume of a disc takes what its new set records (R61, R62), durably and at the peer (R406). -/
def State.volFromSet (s : State) (d : Disc) (m : MgmtSet) (readOnly : Bool) : State :=
  ((s.onVol d.vid (fun v =>
    { v with ranges := m.ranges, known := true, ordinal := m.nextOrdinal, readOnly := readOnly, unclean := setUnclean m })).saveAll).tellVol d.vid

/-- The volume of the disc in a bay takes what its set now records. -/
def State.volFollows (s : State) (b : BayNo) : State :=
  match s.bays[b].seq.disc with
  | some e => match e.mgmt with
    | some m => s.volFromSet e m e.readOnly
    | none => s
  | none => s

/-- Staged copies stay but are no longer sealed. -/
def State.unseal (s : State) (vid : VolId) : State :=
  s.onStg (fun g => { g with map := g.map.map (fun (e : MapEntry) => if e.vid = vid then { e with sealed := false } else e) })

/-- The head job ends, when nothing of it is left to write, replace or verify (R295): the Destage completes. -/
def State.endJob (s : State) (b : BayNo) : State :=
  let w := s.bays[b].wp
  match w.jobs with
  | [] => s
  | j :: rest =>
    if j.todo = [] ∧ w.replQueue = [] ∧ w.unverified.all (fun x => decide (x.vid ≠ j.vid)) = true then
      let s1 := (s.onWp b (fun w => { w with jobs := rest }))
      let s2 := match j.failed with
        | some _ => s1.unseal j.vid
        | none => s1
      match j.cmd with
      | some c => s2.complete c (j.failed.getD 0) (match s2.cmd? c with
          | some q => BitVec.ofNat 64 (q.written + q.replaced * 2 ^ 32)
          | none => 0)
      | none => s2
    else s

/-- How the writing of one copy of a set ends: whole, without positions left, or waiting for further writes. -/
inductive CopyEnd where
  | whole | full | waits
  deriving DecidableEq, Repr

/-- The clusters of one copy of a set from cluster `k` on (R59, R62): each is written at the next unused position of its sequence and
verified; one that fails is written again at the next. On an unclean disc a position found recorded is passed over (R61). -/
def State.writeCopy (b : BayNo) (m : MgmtSet) (second : Bool) : List WriteTry → (k used : Nat) → State → State × Nat × CopyEnd
  | tries, k, used, s =>
    if setClusters m ≤ k then (s, used, .whole)
    else if mgmtPositions ≤ used then (s, used, .full)
    else match tries with
    | [] => (s, used, .waits)
    | w :: rest =>
      let a := mgmtAddr second used
      if s.bays[b].unclean && w.before.isSome then State.writeCopy b m second rest k (used + 1) s
      else
        let cws := setCodewords m k a
        let s1 := (s.loadPowers b (addrLayer a) (zoneOfTurn (addrTurn a))).record b a (recordedBits a m.discId cws)
        let c : ClusterMeta := { home := a, vid := m.vid, lba := 0, management := true, replacement := false, remap := 0 }
        match w.after with
        | none => State.writeCopy b m second rest k (used + 1) s1
        | some r =>
          match s1.verdict b (addrLayer a) (s1.measure b a c cws r) with
          | (s2, true) => State.writeCopy b m second rest (k + 1) (used + 1) s2
          | (s2, false) => State.writeCopy b m second rest k (used + 1) s2

/-- How the writing of a set ends: it is current, refused for want of room, or waits for further writes. -/
inductive SetEnd where
  | current | refused | waits
  deriving DecidableEq, Repr

/-- A set is written to both sequences (R59, R62): normally, or as the last one with the closed flag; without room nothing more is
written. -/
def State.writeSet (s : State) (b : BayNo) (d : Disc) (m : MgmtSet) (tries1 tries2 : List WriteTry) : State × SetEnd :=
  let refuse := fun (u : State) => (u.onDisc b (fun e => { e with readOnly := true }), SetEnd.refused)
  let put := fun (x : MgmtSet) (ro : Bool) =>
    let (s1, u1, e1) := State.writeCopy b x false tries1 0 d.used1 s
    let (s2, u2, e2) := State.writeCopy b x true tries2 0 d.used2 s1
    let s3 := s2.onDisc b (fun e => { e with used1 := u1, used2 := u2 })
    if e1 = .full ∨ e2 = .full then refuse s3
    else if e1 = .waits ∨ e2 = .waits then (s3, SetEnd.waits)
    else (s3.onDisc b (fun e => { e with mgmt := some x, readOnly := ro }), SetEnd.current)
  if d.readOnly then (s, .refused) else
  match setFit (setClusters m) d.used1 d.used2 with
  | .fits => put m false
  | .last => put { m with closed := true } true
  | .none => refuse s

/-- A destage run's set is current (R61, R295): the staged copies it covers are released, the weak clusters it rewrote are done, and
the Destage may complete. -/
def State.destageSet (s : State) (b : BayNo) (done : List WriteItem) (count : Nat) : State :=
  let s1 := s.onJob b (fun j => { j with written := [], replaced := 0 })
  let s2 := match s.bays[b].wp.jobs with
    | j :: _ => match j.cmd with
      | some c => s1.onCmd c (fun x => { x with replaced := x.replaced + count })
      | none => s1
    | [] => s1
  ((((s2.volFollows b).releaseStaged done).onDec b (fun x =>
    { x with weak := x.weak.filter (fun w => !(done.any (fun i => decide (i.home = w.1)))) })).endJob b)

/-- A destage run's set was refused (R62): the Destage ends with 0x23, its staged copies kept. -/
def State.destageRefused (s : State) (b : BayNo) (vid : VolId) : State :=
  let s1 := s.onJob b (fun j => { j with written := [], replaced := 0, failed := some 0x23, todo := [] })
  ((((s1.volFollows b).onWp b (fun w => { w with replQueue := [], unverified := [] })).unseal vid).endJob b)

/-- MANAGEMENT_SET_WRITE (R59, R61, R62): the set that is due is written to both sequences and verified, `tries1` and `tries2` giving
what each write meets: set 1 of a Format, the set of a destage run after its replacement pass, or the clean set of an
unmount, after which the bay spins down (R241). -/
def execManagementSetWrite (b : BayNo) (tries1 tries2 : List WriteTry) (s : State) : Res :=
  let t := s.bays[b]
  match t.wp.mgmtDue, t.seq.disc with
  | some due, some d =>
    if t.seq.st ≠ .ready ∨ t.mounted = false ∨ t.wp.replQueue ≠ [] then .next s else
    let s0 := s.onWp b (fun w => { w with mgmtDue := none })
    let keep := fun (u : State) => u.onWp b (fun w => { w with mgmtDue := some due })
    match due with
    | .format remap p =>
      let answer := fun (u : State) (status : Byte) => match p with | some q => u.formatEnds q status | none => u
      match d.mgmt with
      | some _ => .next (answer s0 0x11)
      | none =>
        match s0.writeSet b d (firstSet d.vid remap (discIdentifier s.sys.formats)) tries1 tries2 with
        | (s1, .current) => .next (answer (s1.formatWritten b d.vid remap) 0x00)
        | (s1, .refused) => .next (answer s1 0x23)
        | (s1, .waits) => .next (keep s1)
    | .destage => match d.mgmt with
      | none => .next s0
      | some m =>
        let done := match t.wp.jobs with | j :: _ => j.written | [] => []
        let count := match t.wp.jobs with | j :: _ => j.replaced | [] => 0
        match s0.writeSet b d (nextSet d m false done) tries1 tries2 with
        | (s1, .current) => .next (s1.destageSet b done count)
        | (s1, .refused) => .next (s1.destageRefused b d.vid)
        | (s1, .waits) => .next (keep s1)
    | .unmount => match d.mgmt with
      | none => .next (s0.spinDown b .unload 16)
      | some m =>
        match s0.writeSet b d (nextSet d m true []) tries1 tries2 with
        | (s1, .waits) => .next (keep s1)
        | (s1, _) => .next ((s1.volFollows b).spinDown b .unload 16)
  | _, _ => .next s

end Sys2Proof.Machine
end

