-- ==== Sys2Proof/Machine/Wobble.lean ====
section
/-! DEFINITION. The wobble address word (R40, R41): the BCH (63,36) code over GF(2⁶), which corrects 5 bit errors, and the fields of Table 2.2. -/

namespace Sys2Proof.Machine

/-! ### Decoding -/

/-- Bit of degree `i` of a word: unit 1 carries degree 62 (R40), in bit 62 of the operand. -/
def wordBits (w : BitVec 63) : List Nat := (List.range 63).map (fun i => b2n (w.getLsbD i))

/-- The syndromes S1 to S10 (designed distance 11). -/
def syndromes (w : BitVec 63) : List Nat := (List.range 10).map (fun j => gfEval gf64 (wordBits w) (gfAlpha gf64 (j + 1)))

/-- The word after correction of up to 5 bit errors, if it decodes (R40). -/
def decodeWord (w : BitVec 63) : Option (BitVec 63) :=
  let t := locator gf64 (syndromes w) [1] 0
  let errs := (List.range 63).filter (fun i => decide (gfEval gf64 t.c (gfAlpha gf64 (63 - i)) = 0))
  let v := errs.foldl (fun (x : BitVec 63) i => x ^^^ BitVec.ofNat 63 (2 ^ i)) w
  if t.len ≤ 5 ∧ errs.length = t.len ∧ (syndromes v).all (· == 0) = true then some v else none

/-- The address information of a wobble word (Table 2.2). -/
structure WobbleInfo where
  format : Nat
  layer : LayerNo
  layerCount : Nat
  turn : Nat
  zone : Nat
  deriving DecidableEq, Repr

/-- The fields of a decoded word: its 36 information bits stand in bits [62:27] (R40, Table 2.2). -/
def wobbleFields (v : BitVec 63) : WobbleInfo :=
  let i := v.toNat / 2 ^ 27
  { format := i / 2 ^ 32 % 16, layer := ⟨i / 2 ^ 28 % 16, by omega⟩, layerCount := i / 2 ^ 24 % 16, turn := i / 16 % 2 ^ 18, zone := i % 16 }

/-! ### Wobble units (R39) -/

/-- The phases that cycles 0 to 15 of the units of a turn show, bit n set where cycle n is inverted. -/
abbrev TurnUnits := Vector (BitVec 16) 64

/-- A unit shows the index mark: 16 inverted cycles. -/
def isIndexMark (u : BitVec 16) : Bool := decide (u = 0xFFFF)

/-- The address bit of a unit, where it is a valid one: cycles 0 to 7 alike, and cycles 8 to 15 plain. -/
def unitBit? (u : BitVec 16) : Option Bool := if u = 0 then some false else if u = 0x00FF then some true else none

/-- The address bit read from a unit; an invalid one gives a bit that the spec leaves open (log entry 103). -/
def unitBit (u : BitVec 16) : Bool := (unitBit? u).getD (Config.unitBit u)

/-- The address word of a turn (R40): unit 1 first, behind the index mark of unit 0. -/
def turnWord (us : TurnUnits) : Option (BitVec 63) :=
  if isIndexMark us[0] then
    some (((List.range 63).filterMap (fun i => us[i + 1]?)).foldl (fun (w : BitVec 63) u => w.shiftLeft 1 ||| BitVec.ofNat 63 (b2n (unitBit u))) 0)
  else none

/-- Format code, layer and layer count field of units 1 to 12, where none of them is invalid (R185). -/
def turnHead (us : TurnUnits) : Option (Nat × Nat × Nat) :=
  let bits := (List.range 12).map (fun i => (us[i + 1]?).bind unitBit?)
  if isIndexMark us[0] && bits.all Option.isSome then
    let w := bits.foldl (fun (n : Nat) x => 2 * n + b2n (x.getD false)) 0
    some (w / 256, w / 16 % 16, w % 16)
  else none

/-- What a wobble address word gives, if it decodes. -/
def wobbleWord (w : BitVec 63) : Option WobbleInfo := (decodeWord w).map wobbleFields

/-- A word meets R41: format code 0xA and layer count field 0xF. -/
def WobbleInfo.isSl16 (i : WobbleInfo) : Bool := decide (i.format = 0xA ∧ i.layerCount = 0xF)

end Sys2Proof.Machine
end

