-- ==== Sys2Proof/Machine/ServoOps.lean ====
section
/-! DEFINITION. Shared operations of the servo (07_servo_loops.md): errors and bands (R173, R174), the set-point generator's profile (R181), feed-forward (R177 to R179), samples and the sum-signal detector (R71, R110), Lull checks (R189 to R191), overruns (R198), the laws (R174) and ramps (R193), closing a loop, and the tails (R199 to R202). -/

namespace Sys2Proof.Machine

/-! ### Errors (R70, R173, R174) -/

/-- A value held within ±`lim` (R176). -/
def clampTo (lim x : Int) : Int := max (-lim) (min lim x)

/-! ### The set-point generator (R181) -/

/-- The fraction of a move's distance covered at the fraction x of its time: four jerk segments. -/
def profilePos (x : Rat) : Rat :=
  if 4 * x ≤ 1 then 32 * x ^ 3 / 6
  else if 4 * x ≤ 3 then (48 * x ^ 2 - 32 * x ^ 3 - 12 * x + 1) / 6
  else 1 - 32 * (1 - x) ^ 3 / 6

/-- Its slope: 2 at the middle. -/
def profileVel (x : Rat) : Rat :=
  if 4 * x ≤ 1 then 16 * x ^ 2 else if 4 * x ≤ 3 then 16 * x - 16 * x ^ 2 - 2 else 16 * (1 - x) ^ 2

/-- Its second derivative: 8 at a quarter. -/
def profileAcc (x : Rat) : Rat :=
  if 4 * x ≤ 1 then 32 * x else if 4 * x ≤ 3 then 16 - 32 * x else 32 * x - 32

/-- Position (nm), velocity (mm/s) and acceleration (m/s²) of a move of `d` nm in `y` µs, `t` µs into it. -/
def movePoint (d y t : Rat) : Rat × Rat × Rat :=
  if y = 0 then (d, 0, 0) else (d * profilePos (t / y), d / y * profileVel (t / y), 1000 * d / y ^ 2 * profileAcc (t / y))

/-- Position, velocity and acceleration of a focus sweep at `v` mm/s over `max` µm, `t` µs into it (R181): the halves of a profile of
1 ms shape its ends. -/
def sweepPoint (v max : Nat) (t : Rat) : Rat × Rat × Rat :=
  let d : Rat := (v : Rat) * 500
  let top : Rat := (max : Rat) * 1000
  let run : Rat := (top - d) / v
  if t ≤ 500 then movePoint d 1000 t
  else if t ≤ 500 + run then (d / 2 + v * (t - 500), v, 0)
  else
    let m := movePoint d 1000 (min 1000 (t - run))
    (top - d + m.1, m.2.1, m.2.2)

/-- The layer that a jump starts from, as last decoded. -/
def Servo.layerNow (v : Servo) : Option LayerNo := v.place.map (·.1)

/-- The distance of a layer jump, nm of lens travel (R185): as measured, else SRV.LJ_SPACING. Layer 15 lies nearest to park. -/
def State.layerTravel (s : State) (b : BayNo) (up : Bool) : Rat :=
  let v := s.bays[b].srv
  let measured := match v.layerNow with
    | some l =>
      let i := if up then l.val else l.val - 1
      if h : i < 15 then (if up ∨ 0 < l.val then v.travel[i] else none) else none
    | none => none
  let d : Rat := match measured with | some h => h | none => s.bp b Param.srvLjSpacing
  if up then -d else d

/-- The duration of a lens seek of `n` tracks, µs (R186): SRV.JUMP_TIME × √(n ÷ 3), to the nanosecond below. -/
def seekTime (jump n : Nat) : Rat := (Nat.sqrt (jump ^ 2 * n * 1000000 / 3) : Rat) / 1000

/-- The delay before a move, its duration, both in µs, and its distance in nm. -/
def State.moveShape (s : State) (b : BayNo) : MoveKind → Rat × Rat × Rat
  | .stride => (s.bp b Param.srvJumpDelay, s.bp b Param.srvJumpTime, 720)
  | .lens n => (0, seekTime (s.bn b Param.srvJumpTime) n.natAbs, 240 * n)
  | .layer up => (0, s.bp b Param.srvLjTime, s.layerTravel b up)
  | .sledSeek _ => (0, 200, 0)
  | .offset f _ => (0, 200, f - s.bays[b].srv.offFocus)
  | .sweep _ => (0, 0, 0)

/-- The time into a move's profile, µs. -/
def State.moveTime (s : State) (b : BayNo) (m : Move) : Rat :=
  let (delay, y, _) := s.moveShape b m.kind
  max 0 (min y (5 * (m.periods : Rat) / 2 - delay))

/-- Position (nm), velocity (mm/s) and acceleration (m/s²) of the set-point generator. -/
def State.setPoint (s : State) (b : BayNo) : Rat × Rat × Rat :=
  match s.bays[b].srv.acq, s.bays[b].srv.move with
  | some a, _ => sweepPoint (s.bn b Param.srvFocSweepV) (s.bn b Param.srvFocSweepMax) (5 * (a.periods : Rat) / 2)
  | none, some m =>
    let (_, y, d) := s.moveShape b m.kind
    movePoint d y (s.moveTime b m)
  | none, none => (0, 0, 0)

/-- The move in progress moves the lens radially. -/
def MoveKind.radial : MoveKind → Bool
  | .stride => true | .lens _ => true | _ => false

/-- The move in progress moves the lens along the axis. -/
def MoveKind.axial : MoveKind → Bool
  | .layer _ => true | .sweep _ => true | _ => false

/-- The law input of tracking is cut: a stride jump or lens seek from its delay until it lands (Table 7.6). -/
def State.trackOpenMove (s : State) (b : BayNo) : Bool :=
  match s.bays[b].srv.move with
  | some m => m.kind.radial && !m.landed && decide ((s.moveShape b m.kind).1 < 5 * (m.periods : Rat) / 2)
  | none => false

/-- A layer jump whose focus loop has not closed: its law input is cut (Table 7.7). -/
def Servo.focusOpenMove (v : Servo) : Bool :=
  match v.move with
  | some m => match m.kind with | .layer _ => !v.focus.closed | _ => false
  | none => false

/-! ### References and errors in their units (R174, R187) -/

/-- How far an offset change has come. -/
def State.offsetPart (s : State) (b : BayNo) : Rat :=
  match s.bays[b].srv.move with
  | some m => match m.kind with | .offset _ _ => profilePos (s.moveTime b m / 200) | _ => 0
  | none => 0

/-- The offsets that an offset change leads to. -/
def Servo.offsetTo (v : Servo) : Int × Int :=
  match v.move with
  | some m => match m.kind with | .offset f t => (f, t) | _ => (v.offFocus, v.offTilt)
  | none => (v.offFocus, v.offTilt)

/-- The focus reference, nm: the standing offset, and that of a ladder pass as it is applied (R187). -/
def State.focusRef (s : State) (b : BayNo) : Rat :=
  let v := s.bays[b].srv
  s.bp b Param.srvFocOffset + v.offFocus + s.offsetPart b * (v.offsetTo.1 - v.offFocus : Int)

/-- The tilt reference, 0.01°. -/
def State.tiltRef (s : State) (b : BayNo) : Rat :=
  let v := s.bays[b].srv
  s.bp b Param.srvTiltOffset + v.offTilt + s.offsetPart b * (v.offsetTo.2 - v.offTilt : Int)

/-- The focus error in nm, less its reference (R174). -/
def State.focusErr (s : State) (b : BayNo) : Rat := s.bays[b].srv.fen * 256 / s.bays[b].srv.slopeF - s.focusRef b

/-- The tracking error in nm (R174). -/
def State.trackErr (s : State) (b : BayNo) : Rat := s.tenOf b * 256 / s.bays[b].srv.slopeT

/-- The tilt error in 0.01°, less its reference (R174). -/
def State.tiltErr (s : State) (b : BayNo) : Rat := s.bays[b].srv.tin / s.bp b Param.srvTiltSens - s.tiltRef b

/-- An error in nm lies within ±`band` nm. -/
def inBandNm (e : Rat) (band : Int) : Bool := decide (|e| ≤ band)

/-! ### Feed-forward (R177 to R179) -/

/-- The spindle encoder's count from its index, modulo a revolution of 4,096 (R206, R210), or where the encoder is lost the angle
carried on in its place (R221). -/
def Bay.angleCount (t : Bay) : Nat :=
  ((if t.spn.encoderLost then t.spn.mech.floor else t.spn.count - t.spn.index.getD 0) % 4096).toNat

/-- The 64-count angle unit of the spindle encoder (R177). -/
def Bay.angleUnit (t : Bay) : Fin 64 := Fin.ofNat 64 (t.angleCount / 64)

/-- The runout table at the present angle, interpolated (R177). -/
def Bay.runoutNow (t : Bay) : Rat :=
  match t.srv.runout with
  | none => 0
  | some r => ((r[t.angleUnit] * (64 - t.angleCount % 64 : Nat) + r[t.angleUnit + 1] * (t.angleCount % 64 : Nat) : Int) : Rat) / 64

/-- Acceleration feed-forward of tracking (R179). -/
def State.trackAccFf (s : State) (b : BayNo) : Rat :=
  match s.bays[b].srv.move with
  | some m => if m.kind.radial then s.bp b Param.srvTrkKa * (s.setPoint b).2.2 / 256 else 0
  | none => 0

/-- The tables apply: normal service of Table 7.3. -/
def State.normalService (s : State) (b : BayNo) : Bool :=
  let t := s.bays[b]
  [BaySt.ready, .reading, .writing, .seeking, .layerJump].contains t.seq.st && t.srv.tablesValid
    && decide (s.bp b Param.srvFfMode = 0) && !t.srv.recovery && decide (s.sys.mode ≠ .diagnostic ∧ s.sys.mode ≠ .calibrate)

/-- The sled's electrical angle, in 64 bins of its 1,024 microsteps (R178, R226). -/
def State.sledBin (s : State) (b : BayNo) : Fin 64 :=
  let k := s.bays[b].sld.pos * 256 / (posUnit * max 1 (s.bp b Param.sldStepPitch))
  Fin.ofNat 64 ((k % 1024).toNat / 16)

/-- The bin of the lens offset (Table 7.2). -/
def State.lensBin (s : State) (b : BayNo) : Fin 64 :=
  let lim : Rat := s.bp b Param.srvLensLimit
  Fin.ofNat 64 (within 0 63 ((s.bays[b].srv.lensOffset + lim) * 64 / (2 * lim)).floor).toNat

/-- A friction entry for a set-point velocity in mm/s, when its magnitude exceeds 0.1 mm/s (Table 7.2). -/
def frictionAt (t : Vector Int 2) (v : Rat) : Int := if 1 / 10 < v then t[0] else if v < -(1 / 10) then t[1] else 0

/-- Friction and cogging feed-forward of tracking (Table 7.2), in normal service. -/
def State.tableFf (s : State) (b : BayNo) : Rat :=
  if s.normalService b then
    let v := s.bays[b].srv
    let moving := match v.move with | some m => m.kind.radial | none => false
    let friction := if moving then frictionAt v.tables.trackFriction (s.setPoint b).2.1 else 0
    (friction + v.tables.lensCogging[s.lensBin b] + v.tables.sledCogging[s.sledBin b] : Int)
  else 0

/-- The whole tracking feed-forward (Table 7.3); none in Lull (R191). -/
def State.trackFf (s : State) (b : BayNo) : Rat :=
  if s.bays[b].srv.tracking.lull.isSome then 0 else s.bays[b].runoutNow + s.trackAccFf b + s.tableFf b

/-- What the ramp of the tracking drive to 0 takes from it in a sled seek, whose start it holds (R186). -/
def State.seekRamp (s : State) (b : BayNo) : Rat :=
  let v := s.bays[b].srv
  match v.move with
  | some m => match m.kind with
    | .sledSeek _ =>
      let x := s.moveTime b m / 200
      if v.tracking.closed then 0 else -(v.tracking.base : Rat) * (if x = 1 then 1 else Config.rampShape 1 x)
    | _ => 0
  | none => 0

/-- The focus feed-forward (Table 7.3), of a sweep or a layer jump: spring, acceleration and, in normal service, friction. -/
def State.focusFf (s : State) (b : BayNo) : Rat :=
  let v := s.bays[b].srv
  let axial := v.acq.isSome || (match v.move with | some m => m.kind.axial | none => false)
  if axial then
    let p := s.setPoint b
    s.bp b Param.srvFocKs * p.1 / 1000 + s.bp b Param.srvFocKa * p.2.2 / 256
      + (if s.normalService b then (frictionAt v.tables.focusFriction p.2.1 : Rat) else 0)
  else 0

/-! ### Samples (R71, R189) -/

/-- The loops that use an input (R189): 0 to 3 QA to QD, 4 and 5 SE and SF, 6 and 7 TA and TB. -/
def usesInput (l : LoopId) (i : Fin 8) : Bool :=
  match l with
  | .focus => decide (i.val < 4)
  | .tracking => decide (i.val < 6)
  | .tilt => decide (6 ≤ i.val)
  | .sled => false

/-- The inputs of a loop. -/
def inputsOf (l : LoopId) : List (Fin 8) := (List.finRange 8).filter (usesInput l)

/-- The loop is closed, or would be but for a Lull. -/
def Loop.inService (l : Loop) : Bool := l.closed || l.lull.isSome

/-- The sample of an input: the sum of its 4 conversions (R70). -/
def inputSample (o : ServoObs) (i : Fin 8) : BitVec 14 := BitVec.ofNat 14 ((o.samples[i]).toList.map BitVec.toNat).sum

/-- One input's word of a period (R71): the counter and the sample advance only when its 4 conversions completed. -/
def Servo.takeWord (v : Servo) (o : ServoObs) (i : Fin 8) : Servo :=
  let full := bitAt o.complete i.val
  let x := if full then inputSample o i else v.samples[i]
  let used := (usesInput .focus i && v.focus.inService) || (usesInput .tracking i && v.tracking.inService)
  { v with counters := if full then v.counters.set i.val (v.counters[i] + 1) i.isLt else v.counters,
           samples := v.samples.set i.val x i.isLt,
           stale := v.stale.set i.val (if full then 0 else satInc 255 v.stale[i]) i.isLt,
           history := if 6 ≤ i.val then v.history
             else v.history.set i.val (if used then ((x.toNat : Int) :: v.history[i]).take 64 else []) i.isLt }

/-- The tilt samples enter their mean over 8 periods (R70). -/
def Servo.takeTilt (v : Servo) : Servo :=
  let ta := v.tiltSum.1 + (v.samples[6]).toNat
  let tb := v.tiltSum.2.1 + (v.samples[7]).toNat
  if 7 ≤ v.tiltSum.2.2 then { v with tiltSum := (0, 0, 0), tiltWord := (ta, tb) }
  else { v with tiltSum := (ta, tb, v.tiltSum.2.2 + 1) }

/-- The sample words of a period (R71), with EV_DETECTOR_ADC_STALL for each input that did not convert. -/
def State.takeSamples (s : State) (b : BayNo) (o : ServoObs) : State :=
  let s1 := s.onSrv b (fun v => ((List.finRange 8).foldl (fun (w : Servo) i => w.takeWord o i) v).takeTilt)
  (List.finRange 8).foldl (fun (t : State) i => if bitAt o.complete i.val then t else t.raiseBay b .detectorAdcStall) s1

/-! ### The sum signal (R110, R188) -/

/-- The sum lies within ±AFE.SUM_BAND per cent of its running mean. -/
def ReadChannel.sumInside (r : ReadChannel) (band sum : Nat) : Bool :=
  let n := r.sums.length
  decide ((Int.natAbs ((sum * n : Nat) - (r.sums.sum : Int))) * 100 ≤ band * r.sums.sum)

/-- The landing boost of the closed focus and tracking loops begins (Table 7.4, R188). -/
def Servo.boostLoops (v : Servo) (n : Nat) : Servo :=
  { v with focus := if v.focus.closed then { v.focus with boost := n } else v.focus,
           tracking := if v.tracking.closed then { v.tracking with boost := n } else v.tracking }

/-- The defect hold ends, with EV_DEFECT_HOLD and its length in periods (R188). -/
def State.endHold (s : State) (b : BayNo) : State :=
  match s.bays[b].srv.hold with
  | none => s
  | some n => (s.onSrv b (fun v => { v.boostLoops (s.landPeriods b) with hold := none })).raiseBay b .defectHold [.u32 n]

/-- The running mean of the sum signal starts afresh, and with it the detector (log entry 76). -/
def ReadChannel.restartSum (r : ReadChannel) : ReadChannel :=
  { r with sums := [], sumDefect := false, sumInBand := 0, sumPeriods := 0, sumLong := false }

/-- One period of the sum-signal detector (R110): the sum is compared with its mean, and a sum defect asks S-n for the hold. The mean
starts afresh where focus closes (log entry 76). -/
def State.sumPeriod (s : State) (b : BayNo) : State :=
  let r := s.bays[b].rc
  let sum := s.bays[b].srv.sum.toNat
  let inside := r.sums.isEmpty || r.sumInside (s.bn b Param.afeSumBand) sum
  let s := s.onRc b (fun x => { x with sumIn := inside })
  if r.sumDefect then
    let n := if inside then r.sumInBand + 1 else 0
    if 4 ≤ n then
      (s.onRc b (fun x => { x with sumDefect := false, sumInBand := 0, sumPeriods := 0, sumLong := false })).endHold b
    else
      s.onBay b (fun t =>
        { t with rc := { t.rc with sumInBand := n, sumPeriods := t.rc.sumPeriods + 1 },
                 srv := { t.srv with hold := t.srv.hold.map (· + 1) } })
  else if inside then s.onRc b (fun x => { x with sums := (sum :: x.sums).take 1024 })
  else
    s.onBay b (fun t =>
      { t with rc := { t.rc with sumDefect := true, sumInBand := 0, sumPeriods := 1, sumLong := false },
               srv := { t.srv with hold := some 1 } })

/-! ### Feedback loss and overruns (R189 to R191, R197, R198) -/

/-- An input of a loop is frozen: two stale words in a row (R189). -/
def Servo.frozen (v : Servo) (l : LoopId) : Bool := (inputsOf l).any (fun i => decide (2 ≤ v.stale[i]))

/-- The last 64 samples of an input are known and change by less than 1 LSB; a tilt word is held as the sum of 8 samples (R190). -/
def Servo.still (v : Servo) (i : Fin 8) : Bool :=
  let h := v.history[i]
  let span := h.foldl max (h.headD 0) - h.foldl min (h.headD 0)
  decide (64 ≤ h.length ∧ span < if 6 ≤ i.val then 8 else 1)

/-- The span of the applied drive over its last 64 samples. -/
def Loop.span (l : Loop) : Int := l.outs.foldl max (l.outs.headD 0) - l.outs.foldl min (l.outs.headD 0)

/-- An input of a closed loop is dead (R190). -/
def State.deadInput (s : State) (b : BayNo) (l : LoopId) : Bool :=
  let v := s.bays[b].srv
  let x := v.loop l
  x.closed && decide (64 ≤ x.outs.length ∧ s.bp b Param.srvDeadSpan ≤ x.span) && (inputsOf l).any v.still

/-- A drive is latched. -/
def Loop.latch (l : Loop) (code : Int) : Loop := { l with drive := code, outs := (code :: l.outs).take 64 }

/-- A computation misses its deadline (R197, R198): it is dropped, the output is held, and the third in a row is a Lull. -/
def State.overrun (s : State) (b : BayNo) (l : LoopId) : State :=
  let n := satInc 255 (s.bays[b].srv.loop l).consecutive
  let s1 := (s.onSrv b (fun v => v.onLoop (fun (x : Loop) =>
    { (x.latch x.drive) with overruns := satInc 0xFFFFFFFF x.overruns, consecutive := n }) l)).raiseBay b .servoHold
      [.u8 l.code, .u8 n]
  if 3 ≤ n then s1.enterLull b l .overrun else s1

/-- The drive limit of a loop (R176). -/
def State.driveLimit (s : State) (b : BayNo) : LoopId → Int
  | .focus => s.bp b Param.srvFocDrvLimit
  | .tracking => s.bp b Param.srvTrkDrvLimit
  | _ => s.bp b Param.srvTiltDrvLimit

/-- The crossover and the plant constant of a loop (R174): KA of focus and tracking, KS of tilt. -/
def State.loopGains (s : State) (b : BayNo) : LoopId → Nat × Nat
  | .focus => (s.bn b Param.srvFocXover, s.bn b Param.srvFocKa)
  | .tracking => (s.bn b Param.srvTrkXover, s.bn b Param.srvTrkKa)
  | _ => (s.bn b Param.srvTiltXover, s.bn b Param.srvTiltKs)

/-- A computation on time is applied (R174, R176, R198): the output clamped, and the integrator unless it is `stopped` or would
move toward a limit the output sits at. -/
def Loop.apply (l : Loop) (lim out : Int) (filter : List Rat) (integ : Int) (stopped : Bool) : Loop :=
  let hold := stopped || decide (lim ≤ out ∧ l.integ < integ) || decide (out ≤ -lim ∧ integ < l.integ)
  { (l.latch (clampTo lim out)) with consecutive := 0, filter := filter, integ := if hold then l.integ else integ, boost := l.boost - 1 }

/-- One law (R174): the compensator acts on the error, under the landing boost SRV.LAND_BOOST ÷ 16 times it, or on 0 where its input
is cut; an open loop has none. Feed-forward `ff` is added. -/
def State.compute (s : State) (b : BayNo) (l : LoopId) (err ff : Rat) (cut stopped : Bool) : State :=
  let x := s.bays[b].srv.loop l
  let (fc, k) := s.loopGains b l
  let gain : Rat := if 0 < x.boost then (s.bp b Param.srvLandBoost : Rat) / 16 else 1
  let r := Config.servoLaw l.code fc k x.filter x.integ (if cut then 0 else err * gain)
  let law : Rat := if x.closed || cut then r.1 else 0
  s.onSrv b (fun w => w.onLoop (fun (y : Loop) =>
    y.apply (s.driveLimit b l) (roundOpen 10 (y.base + law + ff)) (if x.closed || cut then r.2.1 else y.filter) r.2.2
      (stopped || cut || !x.closed)) l)

/-- One computation of the focus or tracking loop in a period. Feedback loss comes first (Table 7.8); a loop in Lull, or parked,
holds its drive. `cut`, its law input is cut by a move. -/
def State.law (s : State) (b : BayNo) (l : LoopId) (onTime : Bool) (err ff : Rat) (cut : Bool) : State :=
  let v := s.bays[b].srv
  let x := v.loop l
  if v.parked || v.ramp.isSome || x.lull.isSome then s.onSrv b (fun w => w.onLoop (fun (y : Loop) => y.latch y.drive) l)
  else if x.closed && v.frozen l then (s.enterLull b l .frozen).onSrv b (fun w => w.onLoop (fun (y : Loop) => y.latch y.drive) l)
  else if !onTime then s.overrun b l
  else
    let s1 := s.compute b l err ff (cut || (v.hold.isSome && x.closed)) false
    if !cut && v.hold.isNone && s1.deadInput b l then s1.enterLull b l .dead else s1

/-- A period of the retract ramp (R193, R195): the output stage moves the drives along it, whether or not S-n runs. -/
def State.rampPeriod (s : State) (b : BayNo) : State :=
  match s.bays[b].srv.ramp with
  | none => s
  | some r =>
    let x := Config.rampShape 0 (((r.periods + 1 : Nat) : Rat) / 2000)
    let park := s.bp b Param.srvFocPark
    let ends := decide (2000 ≤ r.periods + 1)
    let at_ := fun (a z : Int) => if ends then z else roundOpen 10 (a + (z - a : Int) * x)
    s.onSrv b (fun v =>
      { v with ramp := if ends then none else some { r with periods := r.periods + 1 },
               focus := { v.focus with drive := at_ r.focus park }, tracking := { v.tracking with drive := at_ r.tracking 0 },
               tilt := { v.tilt with drive := at_ r.tilt 0 } })

/-! ### Closing and locking (R182, R183) -/

/-- The focus loop closes: the integrator takes the spring term of a sweep, and S_f is the slope measured on the S-curve, whose value
the samples do not fix (log entry 79). The mean of the sum signal starts afresh (log entry 76). -/
def State.closeFocus (s : State) (b : BayNo) : State :=
  let (k, s0) := s.freeInt 14
  ((s0.onSrv b (fun v =>
    { v with focus := { (v.focus.close (s.landPeriods b)) with integ := match v.acq with
                | some a => roundOpen 10 (s.bp b Param.srvFocKs * a.p / 1000)
                | none => v.focus.integ },
             slopeF := if v.acq.isSome then k.toNat else v.slopeF })).onRc b ReadChannel.restartSum).endHold b

/-- The tracking loop closes; a re-acquisition's Lull is released (R194). -/
def State.closeTracking (s : State) (b : BayNo) : State :=
  let s1 := s.onSrv b (fun v => { v with tracking := { (v.tracking.close (s.landPeriods b)) with base := 0 }, reacquire := false })
  if s.bays[b].srv.reacquire then s1.raiseBay b .lullReleased [.u8 1] else s1

/-- One sample of a lock check: `n` in the band in a row lock the loop. -/
def Loop.judge (l : Loop) (inside : Bool) (n : Nat) : Loop :=
  if !l.closed || l.locked then l
  else if inside then { l with inBand := l.inBand + 1, locked := decide (n ≤ l.inBand + 1) }
  else { l with inBand := 0 }

/-! ### The tails (R199 to R202) -/

/-- The status word of node 0x10 (Table 7.9). -/
def State.servoStatus (s : State) (b : BayNo) (dropped : Bool) : Int :=
  let v := s.bays[b].srv
  (boolMask [v.hold.isSome, v.focus.lull.isSome, v.tracking.lull.isSome, v.tilt.lull.isSome,
    v.stale.toList.any (fun n => decide (0 < n)), dropped, v.move.isSome || v.acq.isSome,
    decide (0 < v.focus.boost) || decide (0 < v.tracking.boost), s.bays[b].wp.gate] : Nat)

/-- The value of a node (Table 7.9), in whole units (log entry 92). -/
def State.node (s : State) (b : BayNo) (dropped : Bool) (code : Nat) : Int :=
  let v := s.bays[b].srv
  match code with
  | 0x01 => roundOpen 11 (16 * s.focusErr b)
  | 0x02 => roundOpen 11 (16 * s.trackErr b)
  | 0x03 => roundOpen 11 (10 * s.tiltErr b)
  | 0x04 => v.sum
  | 0x05 => v.focus.drive
  | 0x06 => v.tracking.drive
  | 0x07 => v.tilt.drive
  | 0x08 => v.focus.integ
  | 0x09 => v.tracking.integ
  | 0x0A => roundOpen 11 (s.setPoint b).1
  | 0x0B => roundOpen 11 (s.setPoint b).2.2
  | 0x0C => roundOpen 11 (s.trackFf b)
  | 0x0D => roundOpen 11 s.bays[b].runoutNow
  | 0x0E => roundOpen 11 v.lensOffset
  | 0x0F => s.bays[b].sld.encoder % 65536
  | 0x10 => s.servoStatus b dropped
  | 0x11 => v.sample 0 | 0x12 => v.sample 1 | 0x13 => v.sample 2 | 0x14 => v.sample 3
  | 0x15 => v.sample 4 | 0x16 => v.sample 5 | 0x17 => v.sample 6 | 0x18 => v.sample 7
  | _ => 0

/-- A level trigger fires on this sample (R202): it crosses the level in the direction of the trigger. -/
def Tail.crosses (t : Tail) (c : TailCfg) (x : Vector Int 4) : Bool :=
  match t.samples with
  | [] => false
  | p :: _ =>
    (decide (c.trigger = 2) && decide (p[c.levelCh] < c.level ∧ c.level ≤ x[c.levelCh]))
      || (decide (c.trigger = 3) && decide (c.level < p[c.levelCh] ∧ x[c.levelCh] ≤ c.level))

/-- A running tail has a sample due in this period. -/
def Tail.due (t : Tail) : Bool := t.running && decide (t.phase = 0)

/-- A sample is written (R202): the oldest is overwritten, and the tail stops when its count is reached. -/
def Tail.write (t : Tail) (c : TailCfg) (x : Vector Int 4) (periods : Nat) : Tail :=
  let left := t.left.map (· - 1)
  let held := (x :: t.samples).take 8192
  let stop := if c.stopOnFull then decide (held.length = 8192) else decide (left = some 0)
  { t with samples := held, written := t.written + 1, left := left, phase := c.decimation - 1, running := !stop,
           stamp := if stop && t.trigAt.isNone then periods else t.stamp }

/-- The trigger of tail `i` fires, and that of a tail that follows it (Table 7.10). -/
def Servo.fireTail (v : Servo) (i : Fin 2) : Servo :=
  let other : Fin 2 := 1 - i
  let follows : Bool := match v.tails[other].cfg with | some d => decide (d.trigger = 4) | none => false
  let w : Vector Tail 2 := v.tails.set i.val (v.tails[i].fire v.periods) i.isLt
  { v with tails := cond follows (w.set other.val (v.tails[other].fire v.periods) other.isLt) w }

/-- Tail `i` in a period: its sample, and EV_TAIL_STOPPED when it stops. -/
def State.tailPeriod (s : State) (b : BayNo) (dropped : Bool) (i : Fin 2) : State :=
  let t := s.bays[b].srv.tails[i]
  match t.cfg with
  | none => s
  | some c =>
    if !t.running then s
    else if !t.due then
      s.onSrv b (fun v => { v with tails := v.tails.set i.val { t with phase := t.phase - 1 } i.isLt })
    else
      let x : Vector Int 4 := c.nodes.map (s.node b dropped)
      let s1 := if t.trigAt.isNone && t.crosses c x then s.onSrv b (fun v => v.fireTail i) else s
      let u := (s1.bays[b].srv.tails[i]).write c x s.bays[b].srv.periods
      let s2 := s1.onSrv b (fun v => { v with tails := v.tails.set i.val u i.isLt })
      if u.running then s2 else s2.raiseBay b .tailStopped [.u8 i.val]

end Sys2Proof.Machine
end

