-- ==== Sys2Proof/Machine/Servo.lean ====
section
/-! DEFINITION. The servo's commands (07_servo_loops.md): its periods, Lulls, acquisitions, jumps, seeks, offsets and the characterisation run, and the wobble address word (R40, R41, R183). -/

namespace Sys2Proof.Machine

/-! ### The 400 kHz period -/

/-- A sweep in progress at a position (R182): S-curves are counted where SUM exceeds SRV.FOC_SUM_MIN and FEN passes a peak of each
sign. -/
def FocusAcq.step (a : FocusAcq) (p : Rat) (bright : Bool) (fen last : Rat) : FocusAcq :=
  if !bright then
    { a with periods := a.periods + 1, p := p, above := false, posPeak := false, negPeak := false, fenMax := 0, fenMin := 0,
             zero := none }
  else
    let crossed := decide ((last < 0 ∧ 0 ≤ fen) ∨ (0 < last ∧ fen ≤ 0)) && a.above
    let pos := a.posPeak || decide (0 < a.fenMax ∧ fen < a.fenMax)
    let neg := a.negPeak || decide (a.fenMin < 0 ∧ a.fenMin < fen)
    let counted := pos && neg && !(a.posPeak && a.negPeak)
    let zero := if crossed ∧ a.zero.isNone then some p else a.zero
    { a with periods := a.periods + 1, p := p, above := true, posPeak := pos, negPeak := neg, count := a.count + (if counted then 1 else 0),
             fenMax := if a.fenMax < fen then fen else a.fenMax, pMax := if a.fenMax < fen then p else a.pMax,
             fenMin := if fen < a.fenMin then fen else a.fenMin, pMin := if fen < a.fenMin then p else a.pMin,
             zero := zero, lastZero := if counted then zero else a.lastZero,
             firstZero := if a.count = 0 ∧ a.firstZero.isNone = true then zero else a.firstZero }

/-- The lens travel that S-curve number `c` gives, from its zero crossing and that of the one before (R185). -/
def Servo.noteTravel (v : Servo) (c : Nat) (zero last : Option Rat) : Servo :=
  match zero, last with
  | some z, some y => if 2 ≤ c ∧ c ≤ 16 then { v with travel := v.travel.setIfInBounds (16 - c) (some (z - y)) } else v
  | _, _ => v

/-- Layer n lies within ±3 µm of its nominal depth of 55 µm + (15 − n) × 11 µm (R37), as the lens travel from S-curve 1, that of layer
15, shows it: SRV.LJ_SPACING of travel for 11 µm (log entry 103). -/
def depthOk (spacing : Int) (layer : LayerNo) (first zero : Rat) : Bool :=
  decide (|(zero - first) * 11 / spacing - ((15 - layer.val) * 11 : Nat)| ≤ 3)

/-- The sweep closes on this sample: the zero crossing of S-curve 16 − L, between its two peaks (Table 7.4), within the depths of
R37. -/
def FocusAcq.closes (a : FocusAcq) (spacing : Int) : Bool :=
  decide (a.count + 1 = 16 - a.layer.val) && a.above && (a.posPeak != a.negPeak)
    && (match a.firstZero, a.zero with | some x, some z => depthOk spacing a.layer x z | _, _ => false)

/-- Focus in a period: the sweep, the closing window of a layer jump (Table 7.7), and the lock, which closes tilt and takes the
bay to TRACK_ACQ (Table 9.2), or closes tracking again after a layer jump. -/
def State.focusPeriod (s : State) (b : BayNo) (fen : Rat) : State :=
  let v := s.bays[b].srv
  let bright := decide (s.bp b Param.srvFocSumMin < v.sum)
  let crossed := decide ((v.lastFen < 0 ∧ 0 ≤ fen) ∨ (0 < v.lastFen ∧ fen ≤ 0))
  if v.parked || v.ramp.isSome then s
  else if !v.focus.closed && v.focus.lull.isNone then
    match v.acq, v.move with
    | some a, _ =>
      let a1 := a.step (s.setPoint b).1 bright fen v.lastFen
      let closes := a1.closes (s.bp b Param.srvLjSpacing)
      let s1 := s.onSrv b (fun w =>
        (if a.count < a1.count then w.noteTravel a1.count a1.zero a.lastZero else w).noteTravel (a1.count + 1)
          (if closes then a1.zero else none) a1.lastZero)
      if closes then
        let s2 := (s1.onSrv b (fun w => { w with acq := some a1 })).closeFocus b
        if a1.fromLull then s2.raiseBay b .lullReleased [.u8 0] else s2
      else s1.onSrv b (fun w => { w with acq := some a1 })
    | none, some m =>
      match m.kind with
      | .layer _ =>
        let x := 5 * (m.periods : Int)
        let inWindow := decide (2 * (s.bp b Param.srvLjTime - s.bp b Param.srvLjWin) ≤ x
          ∧ x ≤ 2 * (s.bp b Param.srvLjTime + s.bp b Param.srvLjWin))
        if inWindow && bright && crossed then s.closeFocus b else s
      | _ => s
    | none, none => s
  else
    let inside := inBandNm (s.focusErr b) (s.bp b Param.srvFocLockBand)
    let f := v.focus.judge inside 400
    let s1 := s.onSrv b (fun w => { w with focus := f })
    if f.locked && !v.focus.locked then
      let s2 := s1.onSrv b (fun w => { w with tilt := if w.tilt.lull.isNone then { w.tilt with closed := true } else w.tilt })
      match v.acq with
      | some a =>
        let s3 := ((s2.onSrv b (fun w => { w with acq := none, move := none })).raiseBay b .focusAcqDone
          [.u8 (a.count + if a.posPeak && a.negPeak then 0 else 1), .u32 v.slopeF]).stepPassed b .focus
        (s3.setBaySt b .trackAcq 7).moveDone b
      | none => match v.move with
        | some m => match m.kind with
          | .layer _ => s2.onSrv b (fun w => { w with trackAcq := 2, move := some { m with landed := true } })
          | _ => s2
        | none => s2
    else s1

/-- Crossings of the counting revolution (R183): a zero crossing of TEN counts 1 in its angle unit, outward where TEN was positive at
the least sum since the crossing before (log entry 103); the extremes of TEN are kept. -/
def Servo.countCrossing (v : Servo) (ten : Rat) (crossed : Bool) (u : Fin 64) : Servo :=
  let r : Int × Rat := if v.sum < v.ripple.1 then (v.sum, ten) else v.ripple
  let d : Int := if 0 < r.2 then 1 else if r.2 < 0 then -1 else 0
  { v with tenMax := max v.tenMax ten, tenMin := min v.tenMin ten, ripple := if crossed then (65536, 0) else r,
           crossings := if crossed then v.crossings.set u.val (v.crossings[u] + d) u.isLt else v.crossings }

/-- Each runout entry becomes the mean tracking drive in its unit, less that drive's mean over the revolution (Table 7.5), where
every unit was seen. -/
def Servo.refine (v : Servo) : Servo :=
  if v.refineCount.toList.all (fun n => decide (0 < n)) then
    let means : Vector Rat 64 := Vector.ofFn (fun i : Fin 64 => (v.refineSum[i] : Rat) / v.refineCount[i])
    let m := means.toList.sum / 64
    { v with runout := some (means.map (fun x => roundOpen 12 (x - m))), refineAge := none }
  else { v with refineAge := none }

/-- A period of the refinement of the runout table: the drive of the angle unit is kept, over 22.2 ms from the lock (Table 7.5). -/
def Servo.refinePeriod (v : Servo) (drive : Int) (u : Fin 64) : Servo :=
  match v.refineAge with
  | none => v
  | some n =>
    let w := { v with refineSum := v.refineSum.set u.val (v.refineSum[u] + drive) u.isLt,
                      refineCount := v.refineCount.set u.val (v.refineCount[u] + 1) u.isLt, refineAge := some (n + 1) }
    if 8880 ≤ n + 1 then w.refine else w

/-- Tracking in a period (R183): in the counting revolution crossings are counted; it closes at a zero crossing of TEN slow enough
(log entry 80), locks, and then the sled loop closes and the runout table is refined. -/
def State.trackPeriod (s : State) (b : BayNo) (ten : Rat) : State :=
  let v := s.bays[b].srv
  let u := s.bays[b].angleUnit
  let crossed := decide ((v.lastTen < 0 ∧ 0 ≤ ten) ∨ (0 < v.lastTen ∧ ten ≤ 0))
  let s1 := s.onSrv b (fun w => { w with crossAge := if crossed then 0 else satInc 0xFFFFFFFF w.crossAge })
  if v.parked ∨ v.tracking.lull.isSome = true then s1
  else if !v.tracking.closed then
    if v.trackAcq = 1 then s1.onSrv b (fun w => w.countCrossing ten crossed u)
    else if v.trackAcq = 2 ∧ v.focus.closed = true ∧ crossed = true ∧ 480 < (v.crossAge + 1 : Int) * s.bp b Param.srvTrkCloseV
    then s1.closeTracking b else s1
  else if s.trackOpenMove b then s1
  else
    let t := v.tracking.judge (inBandNm (s.trackErr b) (s.bp b Param.srvTrkLockBand)) 100
    if t.locked && !v.tracking.locked then
      s1.onSrv b (fun w =>
        let full := decide (w.trackAcq = 2 ∧ w.move = none)
        { w with tracking := t, sled := if w.sled.lull.isNone then { w.sled with closed := true } else w.sled,
                 recovery := false, ids := [], trackAcq := if full then 3 else 0, refineAge := if full then some 0 else w.refineAge,
                 refineSum := Vector.replicate 64 0, refineCount := Vector.replicate 64 0 })
    else s1.onSrv b (fun w => { w with tracking := t }.refinePeriod t.drive u)

/-- A stride jump or lens seek in a period (R184, R186): crossings count from its start, the law input returns with the landing
boost at its end, and 8 samples in the band settle it; a wrong count of crossings raises EV_STRIDE_JUMP_FAULT. -/
def State.jumpPeriod (s : State) (b : BayNo) (m : Move) (ten : Rat) : State :=
  let v := s.bays[b].srv
  let (delay, y, _) := s.moveShape b m.kind
  let x : Rat := 5 * ((m.periods : Rat) + 1) / 2
  let crossed := decide ((v.lastTen < 0 ∧ 0 ≤ ten) ∨ (0 < v.lastTen ∧ ten ≤ 0)) && decide (delay < x)
  let m1 := { m with periods := m.periods + 1, crossings := m.crossings + if crossed then 1 else 0 }
  if !m.landed then
    let landed := decide (delay + y ≤ x)
    s.onSrv b (fun w =>
      { w with move := some { m1 with landed := landed },
               tracking := if landed && w.tracking.closed then { w.tracking with boost := s.landPeriods b } else w.tracking })
  else
    let settle := if inBandNm (s.trackErr b) (s.bp b Param.srvTrkLockBand) then m.settle + 1 else 0
    if 8 ≤ settle then
      let expect := match m.kind with | .lens n => 2 * n.natAbs | _ => 6
      let s1 := if m1.crossings = expect then s else s.raiseBay b .strideJumpFault [.u8 1, .u32 m1.crossings]
      s1.moveDone b
    else s.onSrv b (fun w => { w with move := some { m1 with settle := settle } })

/-- The move in progress in a period (R181). -/
def State.movePeriod (s : State) (b : BayNo) (ten : Rat) : State :=
  match s.bays[b].srv.move with
  | none => s
  | some m =>
    let next := s.onSrv b (fun w => { w with move := some { m with periods := m.periods + 1 } })
    match m.kind with
    | .stride => s.jumpPeriod b m ten
    | .lens _ => s.jumpPeriod b m ten
    | .offset f t =>
      if 400 ≤ 5 * (m.periods + 1) then (s.onSrv b (fun w => { w with offFocus := f, offTilt := t })).moveDone b else next
    | .sledSeek _ =>
      if !m.landed && decide (s.bays[b].sld.mode = .standstill) then
        s.onSrv b (fun w => { w with move := some { m with periods := m.periods + 1, landed := true }, trackAcq := 2 })
      else next
    | .layer _ => next
    | .sweep _ => next

/-- The lens offset in a period (R177, R186): it is averaged while tracking is closed, and crossing SRV.LENS_LIMIT outward raises
EV_LENS_OFFSET_LIMIT. -/
def State.lensPeriod (s : State) (b : BayNo) : State :=
  let v := s.bays[b].srv
  if v.tracking.closed then
    let x : Rat := v.tracking.drive - s.bays[b].runoutNow - s.trackAccFf b
    let s1 := s.onSrv b (fun w => { w with lens := (x :: w.lens).take 40 })
    let above := decide ((s.bp b Param.srvLensLimit : Rat) < |s1.bays[b].srv.lensOffset|)
    let s2 := s1.onSrv b (fun w => { w with lensAbove := above })
    if above && !v.lensAbove then s2.raiseBay b .lensOffsetLimit else s2
  else s

/-- The laws of a period, with the checks of R189 to R191, and what closes and locks (R182 to R186). A stalled S-n drops every
computation (R437). -/
def State.servoLaws (s : State) (b : BayNo) (o : ServoObs) : State :=
  let held := s.bays[b].sHeld
  let s1 := s.law b .focus (o.focusOnTime && !held) (s.focusErr b) (s.focusFf b) s.bays[b].srv.focusOpenMove
  let s2 := s1.law b .tracking (o.trackOnTime && !held) (s1.trackErr b) (s1.trackFf b + s1.seekRamp b) (s1.trackOpenMove b)
  if held then s2 else
  let v := s2.bays[b].srv
  let s3 := if v.tilt.closed && v.frozen .tilt then s2.enterLull b .tilt .frozen else s2
  let fen := s3.bays[b].srv.fen
  let ten := s3.tenOf b
  let s4 := (((s3.focusPeriod b fen).trackPeriod b ten).movePeriod b ten).lensPeriod b
  s4.onSrv b (fun w => { w with lastFen := fen, lastTen := ten })

/-- Parameters of the focus and tracking loops that take effect at their next period (Table 7.12). -/
def fastParams : List Nat := [Param.srvFocXover, Param.srvTrkXover, Param.srvFocKa, Param.srvTrkKa, Param.srvFocKs, Param.srvDppK]

/-- SERVO_PERIOD (R175): the sample words of a period arrive, the sum-signal detector runs, the focus and tracking laws compute
and latch, and the tails record; the write clock and a write run go on (R162, R165). Parameters of these loops whose effect is
the next period come into force (R11). Without the root PLL only the Keel's ramps go on (R28). -/
def execServoPeriod (b : BayNo) (o : ServoObs) (s : State) : Res :=
  if !s.rootRuns then .next (s.rampPeriod b) else
  let was := s.bays[b].srv.cycle
  let s1 := ((((s.takePeriod fastParams b).onSrv b (fun v => { v with cycle := o.cycle.val })).takeSamples b o).sumPeriod b).rampPeriod b
  let s2 := s1.servoLaws b o
  let dropped := !o.focusOnTime || !o.trackOnTime || s.bays[b].sHeld
  let s3 := (s2.tailPeriod b dropped 0).tailPeriod b dropped 1
  .next (((s3.onSrv b (fun v => { v with periods := v.periods + 1 })).clockPeriod b o.clock).writePeriod b was)

/-! ### The other loops -/

/-- TILT_PERIOD (R175): the averaged tilt word is ready and the tilt law computes; its output is held in defect hold (R188). A
computation that misses its deadline, as every one of a stalled S-n does, is dropped (R197, R437). -/
def execTiltPeriod (b : BayNo) (onTime : Bool) (s : State) : Res :=
  if !s.rootRuns then .next s else
  let s0 := s.takePeriod [Param.srvTiltXover, Param.srvTiltKs] b
  let v := s0.bays[b].srv
  if !v.tilt.closed then .next s0 else
  let s1 := s0.onSrv b (fun w =>
    { w with history := (w.history.set 6 (((w.tiltWord.1 : Int) :: w.history[6]).take 64)).set 7 (((w.tiltWord.2 : Int) :: w.history[7]).take 64) })
  if !onTime || s.bays[b].sHeld then .next (s1.overrun b .tilt)
  else if v.hold.isSome then
    .next (s1.onSrv b (fun w => { w with tilt := { (w.tilt.latch w.tilt.drive) with consecutive := 0 } }))
  else
    let s2 := s1.compute b .tilt (s1.tiltErr b) 0 false false
    .next (if s2.deadInput b .tilt then s2.enterLull b .tilt .dead else s2)

/-- The spiral velocity in 0.1 count per second (R186): 43.2 counts per second for each turn the spot follows in a revolution. -/
def State.spiralV (s : State) (b : BayNo) : Int :=
  if s.bays[b].seq.st = .reading then 432 * (max 1 s.bays[b].lanesInUse.length : Nat) else 432

/-- A velocity command in velocity mode (R228): ignored in a position or home move. -/
def StepAxis.follow (a : StepAxis) (p : Profile) (v : Int) : StepAxis :=
  match a.mode with
  | .standstill => if v = 0 then a else { a with mode := .velocity, velCmd := v, profile := p, stalled := false, overspeed := false }
  | .velocity => { a with velCmd := v }
  | _ => a

/-- SLED_LOOP_PERIOD (R186): v = v_s + SRV.SLED_KP × O ÷ 64, its O term 0 inside the deadband and in defect hold; 0 in a Lull of
tracking or of the sled loop (R192). A stalled S-n drops the computation (R437). -/
def execSledLoopPeriod (b : BayNo) (was : State) : Res :=
  if !was.rootRuns then .next was else
  let s := was.takePeriod [Param.srvSledKp, Param.srvSledDeadband] b
  let t := s.bays[b]
  let v := t.srv
  if !t.sld.homed then .next s
  else if v.sled.lull.isSome || v.tracking.lull.isSome then
    .next (s.onBay b (fun t => { t with srv := { t.srv with sled := { t.srv.sled with drive := 0 } },
                                        sld := t.sld.follow (s.sledProfile b) 0 }))
  else if !v.sled.closed then .next s
  else if t.sHeld then .next (s.overrun b .sled)
  else
    let o := v.lensOffset
    let term := if v.hold.isSome ∨ |o| ≤ (s.bp b Param.srvSledDeadband : Rat) then 0
      else roundOpen 13 (10 * s.bp b Param.srvSledKp * o / 64)
    let cmd := s.spiralV b + term
    .next (s.onBay b (fun t =>
      { t with srv := { t.srv with sled := { (t.srv.sled.latch cmd) with consecutive := 0 } },
               sld := t.sld.follow (s.sledProfile b) cmd }))

/-- SERVO_DEADLINE_MISS (R197, R198): a computation of a loop in service is dropped. -/
def execServoDeadlineMiss (b : BayNo) (loop : LoopId) (s : State) : Res :=
  if !s.rootRuns then .next s else
  if !(s.bays[b].srv.loop loop).closed then .next s else .next (s.overrun b loop)

/-! ### Lull (R193, R194) -/

/-- HOLD_WINDOW_EXPIRY (R193): focus or tracking has been in Lull beyond its window, and focus retracts. -/
def execHoldWindowExpiry (b : BayNo) (loop : LoopId) (s : State) : Res :=
  match loop with
  | .focus => if s.bays[b].srv.focus.lull.isSome then .next (s.retract b) else .next s
  | .tracking => if s.bays[b].srv.tracking.lull.isSome then .next (s.retract b) else .next s
  | _ => .next s

/-- The cause of a Lull still holds (R194): a stale, frozen or dead input, or a sum outside its band. -/
def State.causeHolds (s : State) (b : BayNo) (l : LoopId) : Bool :=
  let v := s.bays[b].srv
  (inputsOf l).any (fun i => decide (0 < v.stale[i]))
    || (decide ((v.loop l).lull = some .dead) && (inputsOf l).any v.still)
    || (decide (l = .focus ∨ l = .tracking) && s.bays[b].rc.sumDefect)

/-- Q-n runs, and may give orders (R437). -/
def State.orders (s : State) (b : BayNo) : Bool := !s.bays[b].qHeld && !s.bays[b].sHeld && s.rootRuns

/-- LULL_RESUME (R194): the loop closes in place with the landing boost, unless its cause still holds; tracking resumes only over
a closed focus. -/
def execLullResume (b : BayNo) (loop : LoopId) (s : State) : Res :=
  let v := s.bays[b].srv
  if !s.orders b || (v.loop loop).lull.isNone || s.causeHolds b loop then .next s
  else if loop = .tracking ∧ v.focus.closed = false then .next s
  else
    .next ((s.onSrv b (fun w => w.onLoop (fun (x : Loop) => { (x.close (s.landPeriods b)) with consecutive := 0 }) loop)).raiseBay b
      .lullReleased [.u8 loop.code])

/-- A focus acquisition starts (R182): the first sweep toward the disc, with the loop open. -/
def State.startSweep (s : State) (b : BayNo) (layer : LayerNo) (fromLull : Bool) : State :=
  s.onSrv b (fun v =>
    { v with parked := false, focus := v.focus.openAt (s.bp b Param.srvFocPark), trackAcq := 0, move := some (.begin (.sweep false)),
             acq := some
               { layer := layer, periods := 0, p := 0, count := 0, firstCount := none, above := false, posPeak := false, negPeak := false,
                 fenMax := 0, fenMin := 0, pMax := 0, pMin := 0, zero := none, lastZero := none, firstZero := none,
                 fromLull := fromLull },
             reacquire := v.reacquire || fromLull })

/-- LULL_REACQUIRE (R194): tracking runs Table 7.5 from its closing step; focus is retracted and acquires again on the layer in
use. Only focus and tracking have it. -/
def execLullReacquire (b : BayNo) (loop : LoopId) (s : State) : Res :=
  let v := s.bays[b].srv
  if !s.orders b then .next s else
  match loop with
  | .focus =>
    if v.focus.lull.isSome then .next ((s.retract b).startSweep b ((v.place.map (·.1)).getD 0) true) else .next s
  | .tracking =>
    if v.tracking.lull.isSome && v.focus.closed then
      .next (s.onSrv b (fun w => { w with tracking := { w.tracking with lull := none, inBand := 0, locked := false }, trackAcq := 2,
                                          reacquire := true }))
    else .next s
  | _ => .next s

/-! ### Acquisition (R182, R183) -/

/-- FOCUS_ACQUISITION (R182): Q-n orders focus acquired on a layer, from park, with the spindle at speed. -/
def execFocusAcquisition (b : BayNo) (layer : LayerNo) (s : State) : Res :=
  let t := s.bays[b]
  if s.orders b && decide (t.seq.st = .focusAcq) && t.srv.parked && t.srv.acq.isNone then .next (s.startSweep b layer false)
  else .next s

/-- FOCUS_SWEEP_END (Table 7.4): a sweep reaches SRV.FOC_SWEEP_MAX without closing: focus returns to park along the retract ramp, and
then the second sweep starts, or after it the acquisition fails. -/
def execFocusSweepEnd (b : BayNo) (s : State) : Res :=
  let v := s.bays[b].srv
  match v.acq with
  | none => .next s
  | some a =>
    if v.focus.closed = true ∨ a.p < 1000 * s.bn b Param.srvFocSweepMax then .next s else
    match a.firstCount with
    | none =>
      .next (s.onSrv b (fun w =>
        { w with ramp := some { periods := 0, focus := w.focus.drive, tracking := w.tracking.drive, tilt := w.tilt.drive },
                 move := some (.begin (.sweep true)),
                 acq := some
                   { a with periods := 0, p := 0, count := 0, firstCount := some a.count, above := false, posPeak := false,
                            negPeak := false, fenMax := 0, fenMin := 0, zero := none, lastZero := none, firstZero := none } }))
    | some n =>
      .next (((s.parkFocus b).raiseBay b .focusAcqFail [.u8 n, .u8 a.count]).acquisitionFailed b .focus)

/-- TRACK_ACQUISITION (R183): with focus locked, the loop is open and crossings are counted over one revolution. -/
def execTrackAcquisition (b : BayNo) (s : State) : Res :=
  let t := s.bays[b]
  if s.orders b && decide (t.seq.st = .trackAcq ∧ t.srv.trackAcq = 0) && t.srv.focus.locked && !t.srv.tracking.closed then
    .next (s.onSrv b (fun v =>
      { v with trackAcq := 1, tracking := v.tracking.openAt 0, crossings := Vector.replicate 64 0, tenMax := 0, tenMin := 0,
               ripple := (65536, 0) }))
  else .next s

/-- The displacement at the start of each angle unit, in crossings of 120 nm. -/
def displacements (c : Vector Int 64) : List Int := c.toList.foldl (fun (acc : List Int) x => acc ++ [acc.getLastD 0 + x]) [0]

/-- The runout table (Table 7.5): SRV.TRK_KA times the second difference of the displacement per unit, at a speed in 0.01 rpm. -/
def runoutTable (c : Vector Int 64) (ka speed : Int) : Vector Int 64 :=
  Vector.ofFn (fun i : Fin 64 =>
    roundOpen 12 ((ka * (c.get i - c.get (i - 1)) * 120 * (64 * speed) ^ 2 : Int) / (256 * 1000000000 * 6000 ^ 2)))

/-- S_t from the extremes of TEN (R183): π × (TEN_max − TEN_min) ÷ 240 nm, in 1/256. -/
def slopeOf (max min : Rat) : Nat := (256 * 314159265 * (max - min) / (240 * 100000000)).floor.toNat

/-- RUNOUT_REVOLUTION (R183): the counting revolution ends and the runout table is formed; beyond SRV.RUNOUT_MAX the acquisition
fails with the loop open. -/
def execRunoutRevolution (b : BayNo) (s : State) : Res :=
  let v := s.bays[b].srv
  if v.trackAcq ≠ 1 then .next s else
  let d := displacements v.crossings
  let span := (d.foldl max 0 - d.foldl min 0) * 120
  if s.bp b Param.srvRunoutMax * 1000 < span then
    let s1 := (s.onSrv b (fun v => { v with trackAcq := 0 })).raiseBay b .runoutLimit
    .next ((s1.raiseBay b .trackAcqFail [.u8 0]).acquisitionFailed b .track)
  else
    .next (s.onSrv b (fun v =>
      { v with trackAcq := 2, slopeT := slopeOf v.tenMax v.tenMin,
               runout := some (runoutTable v.crossings (s.bp b Param.srvTrkKa) |s.bays[b].spn.speedMeas|) }))

/-- TRACK_ACQ_TIMEOUT (Table 7.5): not locked by 4 revolutions, or no address word decoded within 22.2 ms of lock. -/
def execTrackAcqTimeout (b : BayNo) (why : TrackFail) (s : State) : Res :=
  let v := s.bays[b].srv
  let fails := fun (c : Nat) =>
    ((((s.abandonMove b).onSrv b (fun w => { w with trackAcq := 0, tracking := w.tracking.openAt 0, sled := w.sled.openAt 0 })).raiseBay b
      .trackAcqFail [.u8 c]).acquisitionFailed b .track)
  match why with
  | .runout => .next s
  | .noClose => if v.trackAcq = 2 then .next (fails 1) else .next s
  | .address => if v.trackAcq = 3 then .next (fails 2) else .next s

/-- A sled seek's turn is known (R186): a lens seek removes what remains, a longer difference is sought again, and with none the
seek ends. -/
def State.seekFound (s : State) (b : BayNo) (target turn : Nat) : State :=
  let n : Int := (target : Int) - turn
  let again := fun (k : MoveKind) => (s.onSrv b (fun v => { v with move := none })).startMove b k
  if n = 0 then s.moveDone b
  else if |n| ≤ s.bp b Param.srvJumpMax then again (.lens n)
  else again (.sledSeek target)

/-- The position is taken afresh (R247): the lens seek back to the turn that was expected, where the word shows another. -/
def State.positionChecked (s : State) (b : BayNo) (was : Option (LayerNo × Nat × Nat)) (turn : Nat) : State :=
  if s.bays[b].seq.checkDue then
    let s1 := s.onSeq b (fun q => { q with checkDue := false })
    match was with
    | some (_, t0, _) =>
      let n : Int := (t0 : Int) + 1 - turn
      if n ≠ 0 ∧ |n| ≤ s.bp b Param.srvJumpMax ∧ s.bays[b].seq.st ≠ .writing then s1.orderServoMove b (.lens n) else s1
    | none => s1
  else s

/-- The place that a word gives is known (Table 7.5, R185, R186, R247): the end of track acquisition, of a layer jump or of a
sled seek, and otherwise the position check. -/
def State.placeKnown (s : State) (b : BayNo) (was : Option (LayerNo × Nat × Nat)) (i : WobbleInfo) : State :=
  let v := s.bays[b].srv
  if v.trackAcq = 3 then
    let s1 := (s.onBay b (fun t =>
      { t with srv := { t.srv with trackAcq := 0, pair := some (t.sld.encoder, i.turn) },
               seq := { t.seq with reacqTried := false } })).raiseBay b .trackAcqDone [.u8 i.layer.val, .u32 i.turn, .u32 v.slopeT]
    let s2 := if s.bays[b].mounted then s1 else s1.stepPassed b .track
    if s.bays[b].seq.st = .trackAcq ∧ s.bays[b].mounted = true then s2.setBaySt b .ready 8 else s2
  else
    match v.move with
    | some m => match m.kind with
      | .layer up => if m.landed then s.layerFound b (was.map (·.1)) up i.layer else s
      | .sledSeek target =>
        if m.landed then (s.onBay b (fun t => { t with srv := { t.srv with pair := some (t.sld.encoder, i.turn) } })).seekFound b target i.turn
        else s
      | _ => s
    | none => s.positionChecked b was i.turn

/-- Units 1 to 12 confirm the layer that a landed jump expects (R185): its format code, layer and layer count. -/
def Servo.headConfirms (v : Servo) (us : TurnUnits) : Option (Bool × LayerNo) :=
  match v.move, v.layerNow, turnHead us with
  | some m, some l, some (f, x, n) => match m.kind with
    | .layer up =>
      let want := if up then l.val + 1 else l.val - 1
      if m.landed ∧ f = 0xA ∧ n = 0xF ∧ x = want then some (up, Fin.ofNat 16 want) else none
    | _ => none
  | _, _, _ => none

/-- WOBBLE_ADDRESS_WORD (R39 to R41, R183): a turn's wobble is read with tracking locked; a word that decodes gives layer, turn and
zone, and the words of the last 8 turns identify the disc. -/
def execWobbleAddressWord (b : BayNo) (units : TurnUnits) (s : State) : Res :=
  let v := s.bays[b].srv
  if !v.tracking.locked || !v.focus.locked then .next s else
  match (turnWord units).bind wobbleWord with
  | none =>
    let s1 := s.onSrv b (fun w => { w with ids := (none :: w.ids).take 8 })
    match v.headConfirms units with
    | some (up, l) =>
      .next ((s1.onSrv b (fun w => { w with place := w.place.map (fun p => (l, p.2.1, p.2.2)) })).layerFound b (v.place.map (·.1)) up l)
    | none => .next s1
  | some i =>
    let s1 := s.onSrv b (fun w => { w with ids := (some i.isSl16 :: w.ids).take 8, place := some (i.layer, i.turn, i.zone) })
    .next (s1.placeKnown b v.place i)

/-! ### Jumps and seeks (R184 to R187) -/

/-- A jump of the lens cannot start (Table 7.6, "skipped"): tracking in defect hold or Lull, or another move in progress. -/
def Servo.skips (v : Servo) : Bool := v.hold.isSome || v.tracking.lull.isSome || v.move.isSome

/-- STRIDE_JUMP (R184): +3 tracks inside the index gap in stride reading, never while the bay writes; the beam offsets must be
known (R103). Skipped, it raises EV_STRIDE_JUMP_FAULT and no jump is made. -/
def execStrideJump (b : BayNo) (s : State) : Res :=
  let t := s.bays[b]
  let known := match t.srv.place with | some (l, _, z) => s.offsetsKnown b z l | none => false
  if !s.orders b || decide (t.seq.st ≠ .reading) || !known then .next s
  else if t.srv.skips then .next (s.raiseBay b .strideJumpFault [.u8 2])
  else if t.srv.tracking.locked then .next (s.startMove b .stride) else .next s

/-- STRIDE_JUMP_LATE (R184): not settled within 120 µs of the start: the move is over and the loop stays closed. -/
def execStrideJumpLate (b : BayNo) (s : State) : Res :=
  match s.bays[b].srv.move with
  | some m => if m.kind = .stride then .next ((s.raiseBay b .strideJumpFault [.u8 0]).moveDone b) else .next s
  | none => .next s

/-- The servo can take a move that leaves the track: focus and tracking are locked, in a state of work outside a write run. -/
def Bay.canMove (t : Bay) : Bool :=
  t.srv.focus.locked && t.srv.tracking.locked && t.srv.focus.lull.isNone && t.srv.tracking.lull.isNone && t.wp.run.isNone
    && [BaySt.trackAcq, .ready, .reading, .seeking, .layerJump].contains t.seq.st

/-- LAYER_JUMP (R185): one layer up or down, with tracking on hold; none in a write run, and none beyond layers 0 and 15. -/
def execLayerJump (b : BayNo) (toHigher : Bool) (s : State) : Res :=
  let t := s.bays[b]
  let exists1 := match t.srv.layerNow with
    | some l => if toHigher then decide (l.val < 15) else decide (0 < l.val)
    | none => true
  if s.orders b && t.canMove && exists1 && decide (t.srv.trackAcq = 0) then .next (s.orderServoMove b (.layer toHigher)) else .next s

/-- LAYER_JUMP_WINDOW_END (Table 7.7): no S-curve in the window: the lens returns, focus closes at the start position, and
tracking closes there again. -/
def execLayerJumpWindowEnd (b : BayNo) (s : State) : Res :=
  let v := s.bays[b].srv
  match v.move with
  | some m =>
    let jump := decide (m.kind = .layer true ∨ m.kind = .layer false)
    if jump && !v.focus.closed && v.focus.lull.isNone then
      let s1 := s.onSrv b (fun w => { w with focus := w.focus.close (s.landPeriods b), trackAcq := 2 })
      .next ((s1.raiseBay b .layerJumpFail [.u8 0]).moveDone b)
    else .next s
  | none => .next s

/-- LENS_SEEK (R186): 1 to SRV.JUMP_MAX tracks, made like a stride jump. -/
def execLensSeek (b : BayNo) (tracks : Int) (s : State) : Res :=
  let t := s.bays[b]
  if s.orders b && t.canMove && decide (tracks ≠ 0 ∧ |tracks| ≤ s.bp b Param.srvJumpMax) && decide (t.srv.trackAcq = 0)
      && t.srv.hold.isNone then
    .next (s.orderServoMove b (.lens tracks))
  else .next s

/-- SLED_SEEK (R186): tracking opens and the sled moves to the count of a turn of the disc. -/
def execSledSeek (b : BayNo) (turn : Nat) (s : State) : Res :=
  let t := s.bays[b]
  if s.orders b && t.canMove && decide (turn ≤ 143754) && decide (t.srv.trackAcq = 0) && t.sld.homed then
    .next (s.orderServoMove b (.sledSeek turn))
  else .next s

/-- OFFSET_APPLY (R187): the focus and tilt offsets of a ladder pass, or their removal, over 200 µs; never in a write run. -/
def execOffsetApply (b : BayNo) (focusNm tiltCdeg : Int) (s : State) : Res :=
  let t := s.bays[b]
  if s.orders b && t.srv.focus.closed && t.wp.run.isNone && decide (t.seq.st ≠ .writing) then
    .next (s.orderServoMove b (.offset focusNm tiltCdeg))
  else .next s

/-! ### The characterisation run (R180) -/

/-- The mean of a list of codes, 0 of none. -/
def meanOf (xs : List Int) : Rat := if xs.isEmpty then 0 else (xs.sum : Rat) / xs.length

/-- A table over 64 bins, those outside the swept range as the nearest swept bin; 0 where none was swept. -/
def fillBins (seen : Fin 64 → Bool) (f : Fin 64 → Rat) : Vector Int 64 :=
  let bins := (List.finRange 64).filter seen
  Vector.ofFn (fun i : Fin 64 =>
    match bins with
    | [] => 0
    | x :: rest =>
      let near := rest.foldl (fun (y z : Fin 64) => if (Int.natAbs ((z.val : Int) - i.val)) < Int.natAbs ((y.val : Int) - i.val) then z else y) x
      roundOpen 12 (f near))

/-- The tables that a characterisation run learns (R180): lens cogging is the mean of the tracking integrator in the two directions,
friction half their difference averaged over the bins, sled cogging the mean residue without the lens cogging entry, and focus
friction likewise. -/
def learnTables (r : CharRun) : FfTables :=
  let of := fun (i : Fin 64) (up : Bool) => (r.track.filter (fun x => decide (x.1 = i ∧ x.2.1 = up))).map (·.2.2.2)
  let both := fun (i : Fin 64) => !(of i true).isEmpty && !(of i false).isEmpty
  let lens := fillBins both (fun i => (meanOf (of i true) + meanOf (of i false)) / 2)
  let bins := (List.finRange 64).filter both
  let halves := bins.map (fun i => (meanOf (of i true) - meanOf (of i false)) / 2)
  let fric : Rat := if halves.isEmpty then 0 else halves.sum / halves.length
  let rest := fun (k : Fin 64) => (r.track.filter (fun x => decide (x.2.2.1 = k))).map (fun x => x.2.2.2 - lens[x.1])
  let sled := fillBins (fun k => !(rest k).isEmpty) (fun k => meanOf (rest k))
  let foc := fun (up : Bool) => meanOf ((r.focus.filter (fun x => x.1 == up)).map (·.2))
  let ff := (foc true - foc false) / 2
  { focusFriction := Vector.ofFn (fun i : Fin 2 => roundOpen 12 (if i = 0 then ff else -ff)),
    trackFriction := Vector.ofFn (fun i : Fin 2 => roundOpen 12 (if i = 0 then fric else -fric)), lensCogging := lens, sledCogging := sled }

/-- CHARACTERISATION_RUN (R180, R196): in READY with no transfer queued and the tables invalid, the run learns them, and EV_FF_TABLES
says so; one that a retract or Lull abandons leaves them invalid. -/
def execCharacterisationRun (b : BayNo) (run : Option CharRun) (s : State) : Res :=
  let t := s.bays[b]
  match run with
  | none => .next s
  | some r =>
    if s.orders b && decide (t.seq.st = .ready) && !t.busy && !t.srv.tablesValid && t.canMove && t.srv.move.isNone
        && (s.sys.mode.serving || decide (s.sys.mode = .calibrate)) then
      .next ((s.onSrv b (fun v => { v with tables := learnTables r, tablesValid := true, tablesTemp := t.afe.headTemp })).raiseBay b
        .ffTables [.u8 1])
    else .next s

end Sys2Proof.Machine
end

