-- ==== Sys2Proof/Machine/Drives.lean ====
section
/-! DEFINITION. The spindle drive and the sled step generator (08_spindle_and_sled_drives.md): encoder edges, commutation levels, single-shunt sensing, the speed loop, starts and stops, and the sled's moves. -/

namespace Sys2Proof.Machine

/-! ### Commutation states (Table 8.2) -/

/-- The place of a commutation state in the forward order of Table 8.2; none for 0b000 and 0b111. -/
def hallSector (h : BitVec 3) : Option Nat :=
  match h.toNat with
  | 0b101 => some 0 | 0b100 => some 1 | 0b110 => some 2 | 0b010 => some 3 | 0b011 => some 4 | 0b001 => some 5
  | _ => none

/-- The step between two states: 1 forward, −1 backward, 0 otherwise. -/
def hallStep (a b : BitVec 3) : Int :=
  match hallSector a, hallSector b with
  | some i, some j => if j = (i + 1) % 6 then 1 else if i = (j + 1) % 6 then -1 else 0
  | _, _ => 0

/-- A commutation edge (R207, R210): the state, its step, its time, and the count of the U line's rising edge going forward. -/
def Spindle.hallEdge (p : Spindle) (uvw : BitVec 3) (t : Nat) : Spindle :=
  let d := hallStep p.lastHalls uvw
  let valid := (hallSector uvw).isSome
  { p with halls := uvw, lastHalls := if valid then uvw else p.lastHalls, hallNet := p.hallNet + d, hallEdges := p.hallEdges + 1,
           hallsSinceEdge := p.hallsSinceEdge + 1, hallTimes := (t :: p.hallTimes).take 65,
           edgeAge := if p.encoderLost then 0 else p.edgeAge,
           uEdges := if d = 1 ∧ uvw = 0b101 then p.count :: p.uEdges else p.uEdges }

/-- A quadrature edge of the spindle encoder. -/
def Spindle.quadEdge (p : Spindle) (up : Bool) (t : Nat) : Spindle :=
  { p with count := if up then p.count + 1 else p.count - 1, edges := (t :: p.edges).take 65, hallsSinceEdge := 0, edgeAge := 0 }

/-- A quadrature edge of a linear encoder. -/
def StepAxis.quadEdge (a : StepAxis) (up : Bool) : StepAxis := { a with encoder := if up then a.encoder + 1 else a.encoder - 1 }

/-- ENCODER_EDGE (R207): an accepted edge; an invalid commutation state raises EV_SPINDLE_SENSOR, cause "Hall" (R211). -/
def execEncoderEdge (e : EncId) (k : EdgeKind) (time10ns : Nat) (s : State) : Res :=
  match e, k with
  | .spindle b, .up => .next (s.onSpn b (fun p => p.quadEdge true time10ns))
  | .spindle b, .down => .next (s.onSpn b (fun p => p.quadEdge false time10ns))
  | .spindle b, .halls u =>
    let s1 := s.onSpn b (fun p => p.hallEdge u time10ns)
    if (hallSector u).isSome then .next s1 else .next (s1.raiseBay b .spindleSensor [.u8 1, .u8 0])
  | .sled b, .up => .next (s.onSld b (fun a => a.quadEdge true))
  | .sled b, .down => .next (s.onSld b (fun a => a.quadEdge false))
  | .sled _, .halls _ => .next s
  | .axis a, .up => .next (s.onAxis a (fun x => x.quadEdge true))
  | .axis a, .down => .next (s.onAxis a (fun x => x.quadEdge false))
  | .axis _, .halls _ => .next s

/-! ### Level changes -/

/-- A level is entered: its edges, index and counts begin afresh (R210, R217). -/
def Spindle.enter (p : Spindle) (l : SpinLevel) : Spindle :=
  { p with level := l, uEdges := [], index := if l = .sinEncoder then p.index else none, hallEdges := 0,
           vqPreset := p.vqPreset && decide (l = .sinEncoder ∨ l = .sinObserver), disagree := 0, estRow := 0, rev := none }

/-- Rotor-angle loss (R222, Table 9.5): every switch opens, the gate is cut, focus parks, and the bay is in SPINUP for the catch;
a second coast within one mount faults it. -/
def State.rotorLoss (s : State) (b : BayNo) (cause : Nat) : State :=
  let s1 := ((s.cutGate b .loopLoss).coastLevel b cause)
  let st := s.bays[b].seq.st
  if [BaySt.focusAcq, .trackAcq, .ready, .reading, .writing, .seeking, .layerJump, .spinup].contains st then
    let s2 := (((s1.abandonMove b).parkFocus b).setBaySt b .spinup 14).onBay b (fun t =>
      { t with seq := { t.seq with coasts := t.seq.coasts + 1, position := true },
               sld := t.sld.halt,
               rc := { t.rc with lanes := t.rc.lanes.map (fun l => { l with phase := .idle }) } })
    if 1 ≤ s.bays[b].seq.coasts then s2.faultBay b .coast else s2
  else s1

/-- Encoder loss (R221, Table 8.4): the offset becomes invalid, and the drive goes to the observer, to the commutation lines, or
loses its angle. -/
def State.loseEncoder (s : State) (b : BayNo) (cause : Nat) : State :=
  let p := s.bays[b].spn
  if p.encoderLost ∨ p.level = .off ∨ p.level = .coast then s else
  let s1 := (s.onSpn b (fun x =>
    { x with encoderLost := true, offsetValid := false, disagree := 0, mech := x.count - x.index.getD 0 })).raiseBay b .spindleSensor
    [.u8 0, .u8 cause]
  if p.level = .sixStep ∨ p.level = .sinEncoder then
    if p.obsConverged then s1.onSpn b (fun x => x.enter .sinObserver)
    else if (hallSector p.halls).isSome then (if p.level = .sixStep then s1 else s1.onSpn b (fun x => x.enter .sixStep))
    else s1.rotorLoss b 1
  else s1

/-- The position of an encoder loss in R221. -/
def lossCode (c : EncLoss) : Nat :=
  match c with
  | .illegal => 0 | .countMismatch => 1 | .noIndexCounts => 2 | .noEdge => 3 | .hallsWithoutEdge => 4 | .overspeed => 5 | .noIndex => 6

/-- What R221 asks of a loss, of the counts and levels the drive holds; an illegal transition, and how long no edge has come, the row
itself says. -/
def Spindle.loss (p : Spindle) (pairs : Nat) : EncLoss → Bool
  | .illegal => true
  | .countMismatch => match p.rev with | some n => decide (n.natAbs < 4094 ∨ 4098 < n.natAbs) | none => false
  | .noIndexCounts => match p.index with | some c => decide (4100 < (p.count - c).natAbs) | none => false
  | .noEdge => p.obsConverged
  | .hallsWithoutEdge => decide (2 ≤ p.hallsSinceEdge ∧ |p.speedMeas| < 100000)
  | .overspeed => true
  | .noIndex => decide (p.level = .sixStep ∧ p.index = none ∧ 12 * pairs ≤ p.hallEdges)

/-- ENCODER_LOSS (R217, R221): the cause named, where it holds. -/
def execEncoderLoss (b : BayNo) (cause : EncLoss) (s : State) : Res :=
  if s.bays[b].spn.loss (s.bn b Param.spnPolePairs) cause then .next (s.loseEncoder b (lossCode cause)) else .next s

/-- ENCODER_OVERSPEED (R207, R221, R230): the counts of the microsecond are not used; a spindle loses its encoder, a sled or
handler axis deviates beyond its window. -/
def execEncoderOverspeed (e : EncId) (s : State) : Res :=
  match e with
  | .spindle b => .next ((s.raiseBay b .encoderOverspeed [.u8 0]).loseEncoder b 5)
  | .sled b => .next ((s.raiseBay b .encoderOverspeed [.u8 1]).onSld b (fun a => { a with overspeed := true }))
  | .axis a => .next ((s.raiseDev .handlerEncOverspeed [.u8 a.val]).onAxis a (fun x => { x with overspeed := true }))

/-! ### The electrical angle (R210) -/

/-- A difference of angles, in −32,768 to 32,767. -/
def angleWrap (x : Int) : Int := (x + 32768) % 65536 - 32768

/-- θe from the encoder (R210). -/
def Spindle.angle (p : Spindle) (pairs : Int) : Int :=
  ((p.count - p.index.getD 0) * pairs * 16 + p.elecOffset.toNat) % 65536

/-- The offset that an edge at count `c` implies for an index at `idx`: the U edge marks θe = 60,075. -/
def impliedOffset (pairs idx c : Int) : Int := (60075 - (c - idx) * pairs * 16) % 65536

/-- The circular mean of offsets (R210). -/
def circularMean : List Int → Int
  | [] => 0
  | x :: rest => (x + roundOpen 14 ((((x :: rest).map (fun y => angleWrap (y - x))).sum : Rat) / (rest.length + 1))) % 65536

/-- Offsets that all lie within 15° of their mean. -/
def offsetsAgree (xs : List Int) : Bool := xs.all (fun x => decide (|angleWrap (x - circularMean xs)| * 360 ≤ 15 * 65536))

/-- ENCODER_INDEX (R210): the count at the index, and the electrical offset from the U edges recorded since the level was
entered. -/
def execEncoderIndex (b : BayNo) (s : State) : Res :=
  let p := s.bays[b].spn
  let xs := p.uEdges.map (impliedOffset (s.bp b Param.spnPolePairs) p.count)
  let s1 := s.onBay b (fun t =>
    { t with spn := { t.spn with index := some t.spn.count, hallEdges := 0, rev := t.spn.index.map (fun c => t.spn.count - c) },
             dec := { t.dec with fullRaised := false } })
  if p.encoderLost || decide (xs.length < 2) then .next s1
  else if offsetsAgree xs then
    .next (s1.onSpn b (fun x => { x with elecOffset := BitVec.ofInt 16 (circularMean xs), offsetValid := true }))
  else .next (s1.raiseBay b .spindleSensor [.u8 1, .u8 0])

/-! ### The current loop (R211, R214) -/

/-- The sine of an angle in 1/65,536 of a revolution (R211): the table at its bits 15 to 6, interpolated on bits 5 to 0. -/
def sineOf (x : Int) : Rat :=
  let a := (x % 65536).toNat
  (Config.sineTable (a / 64) * (64 - a % 64 : Nat) + Config.sineTable ((a / 64 + 1) % 1024) * (a % 64 : Nat)) / 64

/-- The cosine of an angle. -/
def cosineOf (x : Int) : Rat := sineOf (x + 16384)

/-- The angles of the phases U, V and W (R211). -/
def phaseAngles (theta : Int) : List Int := [theta, theta - 21845, theta - 43691]

/-- id and iq, mA, of phase currents in µA at an angle: the frame of R214, of peak amplitudes (log entry 104). -/
def toRotor (theta : Int) (i : Vector Int 3) : Rat × Rat :=
  let part := fun (f : Int → Rat) => (((phaseAngles theta).zip i.toList).map (fun x => f x.1 * (x.2 : Rat))).sum * (2 / 3) / 1000
  (part cosineOf, -part sineOf)

/-- Phase voltages, mV, of vd and vq at an angle, the mean of the largest and smallest subtracted (R211). -/
def phaseVolts (theta : Int) (vd vq : Rat) : Vector Rat 3 :=
  let v := (phaseAngles theta).map (fun a => vd * cosineOf a - vq * sineOf a)
  let mid := (v.foldl max (v.headD 0) + v.foldl min (v.headD 0)) / 2
  Vector.ofFn (fun i : Fin 3 => v.getD i.val 0 - mid)

/-- The turn-on tick of a phase: its duty is its voltage over SPN.VBUS plus one half (R208, R211). -/
def onTick (vbus : Nat) (v : Rat) : Nat := (within 0 1250 (roundOpen 14 (1250 * (1 / 2 - v / vbus)))).toNat

/-- vq held to what SPN.VBUS allows beside vd (R214): a line voltage of SPN.VBUS at most. -/
def limitVq (vbus : Nat) (vd vq : Rat) : Rat :=
  let room : Rat := (vbus : Rat) ^ 2 / 3 - vd ^ 2
  let lim : Rat := (Nat.sqrt (room * 1000000).floor.toNat : Rat) / 1000
  max (-lim) (min lim vq)

/-- The electrical angle in use: the encoder's, or the observer's where it is the source (R209). -/
def Spindle.theta (p : Spindle) (pairs : Int) : Int := if p.level = .sinObserver then p.obsAngle else p.angle pairs

/-- The vd and vq of a sinusoidal period with the integrators they leave (R214): the first after any other level presets vq's. -/
def State.currentLoop (s : State) (b : BayNo) : (Rat × Rat) × Rat × Rat :=
  let p := s.bays[b].spn
  let law := Config.currentLaw (s.bn b Param.spnCurBw) (s.bn b Param.spnMotorR) (s.bn b Param.spnMotorL)
  let pre : Rat := if p.vqPreset then p.integQ else (s.bp b Param.spnMotorKe : Rat) * p.speedMeas / 100000
  let d := law p.integD (0 - p.idq.1)
  let q := law pre (p.iqRef - p.idq.2)
  let vq := limitVq (s.bn b Param.spnVbus) d.1 q.1
  let stop := decide ((vq < q.1 ∧ pre < q.2) ∨ (q.1 < vq ∧ q.2 < pre))
  ((d.1, vq), d.2, if stop then pre else q.2)

/-! ### The PWM period -/

/-- The phases in order of their turn-on ticks (R212). -/
def phaseOrder (t : Vector Nat 3) : Fin 3 × Fin 3 × Fin 3 :=
  if t[0] ≤ t[1] then
    if t[1] ≤ t[2] then (0, 1, 2) else if t[0] ≤ t[2] then (0, 2, 1) else (2, 0, 1)
  else
    if t[0] ≤ t[2] then (1, 0, 2) else if t[1] ≤ t[2] then (1, 2, 0) else (2, 1, 0)

/-- The pulses of a period (R208, R213): each phase's turn-on and turn-off tick, shifted so that both active vectors last `tmin`
ticks, and whether both do. -/
def shiftPulses (t : Vector Nat 3) (tmin : Int) : Vector (Int × Int) 3 × Bool :=
  let (x, y, z) := phaseOrder t
  let t1 : Int := t[x]
  let t2 : Int := t[y]
  let t3 : Int := t[z]
  let d1 := tmin - (t2 - t1)
  let d2 := tmin - (t3 - t2)
  let on1 := if 0 < d1 ∧ 0 ≤ t1 - d1 then d1 else 0
  let on2 := if 0 < d2 ∧ 2500 - t3 + d2 ≤ 2500 then d2 else 0
  let base : Vector (Int × Int) 3 := t.map (fun (k : Nat) => ((k : Int), 2500 - (k : Int)))
  let moved := (base.set x.val (t1 - on1, 2500 - t1 - on1) x.isLt).set z.val (t3 + on2, 2500 - t3 + on2) z.isLt
  (moved, decide ((d1 ≤ 0 ∨ on1 = d1) ∧ (d2 ≤ 0 ∨ on2 = d2)))

/-- The phase currents U, V, W, µA, that the two shunt samples give (R212). -/
def phaseCurrents (t : Vector Nat 3) (a b : Int) : Vector Int 3 :=
  let (x, y, z) := phaseOrder t
  (((Vector.replicate 3 (0 : Int)).set x.val a x.isLt).set z.val (-b) z.isLt).set y.val (b - a) y.isLt

/-- The current of a shunt code, µA (R208). -/
def State.shunt (s : State) (b : BayNo) (code : BitVec 12) : Int := ((code.toNat : Int) - 2048) * s.bp b Param.spnShuntScale

/-- The low sides of a period: each turns off SPN.DEADTIME before its high side turns on, and on SPN.DEADTIME after it turns off (R208). -/
def lowSides (pulses : Vector (Int × Int) 3) (dead : Int) : Vector (Int × Int) 3 := pulses.map (fun p => (p.1 - dead, p.2 + dead))

/-- A sinusoidal period (R211 to R214): the current loop's voltages give the ticks, the pulses are shifted for the shunt, and the
samples give the currents; in an estimated period currents and integrators hold. -/
def State.sinePeriod (s : State) (b : BayNo) (o : PwmObs) : State :=
  let p := s.bays[b].spn
  let theta := p.theta (s.bp b Param.spnPolePairs)
  let (v, integD, integQ) := s.currentLoop b
  let volts := phaseVolts theta v.1 v.2
  let ticks := volts.map (onTick (s.bn b Param.spnVbus))
  let (pulses, measured) := shiftPulses ticks (10 * s.bp b Param.spnShuntTmin)
  let i1 := s.shunt b o.shunt1
  let i2 := s.shunt b o.shunt2
  let i := phaseCurrents ticks i1 i2
  let s1 := s.onSpn b (fun p =>
    let q := { p with pulses := pulses, lows := lowSides pulses (s.bp b Param.spnDeadtime), volts := volts }
    if measured then { q with estRow := 0, currents := i, idq := toRotor theta i, integD := integD, integQ := integQ, vqPreset := true }
    else { q with estRow := satInc 255 p.estRow, estPeriods := satInc 0xFFFFFFFF p.estPeriods })
  if measured then
    if decide (s.bp b Param.spnITrip * 1000 < |i1|) || decide (s.bp b Param.spnITrip * 1000 < |i2|) then
      s1.raiseBay b .spindleOvercurrent
    else s1
  else if s1.bays[b].spn.estRow = 64 then s1.raiseBay b .shuntBlind else s1

/-- The legs of six-step commutation for a state (Table 8.2): the phase whose high side is modulated, and that whose low side is on. -/
def sixStepLegs (h : BitVec 3) : Option (Fin 3 × Fin 3) :=
  match h.toNat with
  | 0b101 => some (1, 2) | 0b100 => some (1, 0) | 0b110 => some (2, 0) | 0b010 => some (2, 1) | 0b011 => some (0, 1)
  | 0b001 => some (0, 2)
  | _ => none

/-- A six-step period (R211, R214): the iq law acts on the magnitude of the shunt current and sets the duty of the switched high
side; the other leg's low side is on, and the third leg is open. -/
def State.sixStepPeriod (s : State) (b : BayNo) (o : PwmObs) : State :=
  let p := s.bays[b].spn
  let i := s.shunt b o.shunt1
  let mag : Rat := (|i| : Rat) / 1000
  let r := Config.currentLaw (s.bn b Param.spnCurBw) (s.bn b Param.spnMotorR) (s.bn b Param.spnMotorL) p.integQ (p.iqRef - mag)
  let duty : Rat := max 0 (min 1 (r.1 / s.bn b Param.spnVbus))
  let on := onTick (s.bn b Param.spnVbus) ((duty - 1 / 2) * s.bn b Param.spnVbus)
  let s1 := s.onSpn b (fun x =>
    match sixStepLegs x.lastHalls with
    | some (h, l) =>
      { x with idq := (0, mag), integQ := r.2, duty := duty,
               volts := ((Vector.replicate 3 0).set h.val (duty * s.bn b Param.spnVbus) h.isLt),
               pulses := ((Vector.replicate 3 (0, 0)).set h.val ((on : Int), 2500 - (on : Int)) h.isLt),
               lows := (Vector.replicate 3 (0, 2500)).set l.val (2500, 0) l.isLt }
    | none => { x with idq := (0, mag), integQ := r.2, duty := duty })
  if s.bp b Param.spnITrip * 1000 < |i| then s1.raiseBay b .spindleOvercurrent else s1

/-- Drogue's on-fraction after a sample (R218), in 1/1,280 of a period. -/
def Spindle.drogueStep (p : Spindle) (cur lim : Int) : Spindle :=
  { p with drogueD := if |cur| < lim then min 1152 (p.drogueD + 10) else if lim < |cur| then p.drogueD - 80 else p.drogueD }

/-- The observer in a period (R220): it converges at or above 1,000 rpm after 64 periods with its loop error within ±5°. While the
encoder is lost, the mechanical angle follows its electrical revolutions (R221). -/
def State.observe (s : State) (b : BayNo) : State :=
  let pairs := s.bp b Param.spnPolePairs
  s.onSpn b (fun p =>
    let (st, angle, speed, err) := Config.observer
      [s.bn b Param.spnMotorR, s.bn b Param.spnMotorL, s.bn b Param.spnDeadtime, s.bn b Param.spnVbus] p.obsState p.volts.toList (p.currents.toList.map (fun (i : Int) => (i : Rat) / 1000))
    let a := angle % 65536
    let n := if |err| ≤ 5 then satInc 64 p.obsPeriods else 0
    { p with obsState := st, obsAngle := a, obsSpeed := speed, obsPeriods := n,
             obsConverged := decide (64 ≤ n ∧ 100000 ≤ |p.speedMeas|),
             mech := if p.level = .sinObserver then p.mech + (angleWrap (a - p.obsAngle) : Rat) / (16 * pairs) else p.mech })

/-- The angles of encoder and observer compared (R222): more than 20° for 8 periods in a row is a rotor-angle loss. -/
def State.compareAngles (s : State) (b : BayNo) : State :=
  let p := s.bays[b].spn
  if p.level = .sinEncoder ∧ p.obsConverged = true ∧ p.encoderLost = false then
    let d := angleWrap (p.angle (s.bp b Param.spnPolePairs) - p.obsAngle)
    let n := if 20 * 65536 < |d| * 360 then p.disagree + 1 else 0
    let s1 := s.onSpn b (fun x => { x with angleDiff := d, disagree := n })
    if 8 ≤ n then s1.rotorLoss b 0 else s1
  else s

/-- The level changes of a PWM period (R217, R221): six-step to the encoder once index and offset are known, and the observer to
six-step below 1,000 rpm. -/
def Spindle.levelPeriod (p : Spindle) : Spindle :=
  match p.level with
  | .sixStep => if p.index.isSome ∧ p.offsetValid = true ∧ p.encoderLost = false then p.enter .sinEncoder else p
  | .sinObserver => if |p.speedMeas| < 100000 then p.enter .sixStep else p
  | _ => p

/-- A period of a driven level (R208 to R217, R220 to R222). -/
def State.drivenPeriod (was : State) (b : BayNo) (o : PwmObs) : State :=
  let s := (was.takePeriod [Param.spnCurBw] b).onSpn b Spindle.levelPeriod
  if s.bays[b].spn.level = .sixStep then (s.sixStepPeriod b o).observe b
  else (((s.sinePeriod b o).observe b).compareAngles b)

/-- PWM_PERIOD (R208 to R214, R218, R220, R222): one 40 kHz period of the spindle drive. -/
def execPwmPeriod (b : BayNo) (o : PwmObs) (s : State) : Res :=
  match s.bays[b].spn.level with
  | .off => .next s
  | .measure => .next s
  | .coast => .next s
  | .drogue =>
    let i := s.shunt b o.drogueShunt
    let s1 := s.onSpn b (fun p => p.drogueStep i (s.bp b Param.spnDrogueI * 1000))
    .next (if s.bp b Param.spnITrip * 1000 < |i| then s1.raiseBay b .spindleOvercurrent else s1)
  | .sixStep => .next (s.drivenPeriod b o)
  | .sinEncoder => .next (s.drivenPeriod b o)
  | .sinObserver => .next (s.drivenPeriod b o)

/-! ### The speed loop (R215) -/

/-- The speed that edge times give, 0.01 rpm: `perRev` edges a revolution, the newest against the oldest of at most 65. -/
def edgeSpeed (times : List Nat) (perRev : Nat) : Nat :=
  match times, times.getLast? with
  | t :: _ :: _, some u => if u < t then 600000000000 * (times.length - 1) / (perRev * (t - u)) else 0
  | _, _ => 0

/-- The measured speed (R215): from the encoder, else the commutation lines, or the observer where it is the source; 0 when no
edge has come for 2 ms, and negative while Drogue brakes a motor turning backward. -/
def Spindle.measuredSpeed (p : Spindle) (pairs : Nat) : Int :=
  if p.level = .sinObserver then p.obsSpeed
  else if 4 ≤ p.edgeAge then 0
  else
    let v : Int := if p.encoderLost then edgeSpeed p.hallTimes (6 * pairs) else edgeSpeed p.edges 4096
    if p.level = .drogue ∧ p.stopping = false then -v else if p.level = .coast ∧ p.speedMeas < 0 then -v else v

/-- The speed reference moves toward its goal at SPN.ACCEL (R215), in 500 µs. -/
def rampTo (ref goal step : Rat) : Rat := if ref < goal then min goal (ref + step) else max goal (ref - step)

/-- The speed is at target for the first time after a start order (R215, R216): Q-n is informed, and a bay in SPINUP goes to
FOCUS_ACQ. -/
def State.atSpeed (s : State) (b : BayNo) : State :=
  let s1 := s.onSpn b (fun p => { p with atTarget := true, starting := false, outBand := 0 })
  if s.bays[b].seq.st = .spinup then
    let t := s.bays[b]
    let s2 := if t.seq.mounting && !t.mounted then s1.stepPassed b .spinup else s1.onSeq b (fun q => { q with retried := false })
    (s2.onSeq b (fun q => { q with position := true })).setBaySt b .focusAcq 6
  else s1

/-- The judgement of a speed sample in a driven level (R215). -/
def State.judgeSpeed (s : State) (b : BayNo) : State :=
  let p := s.bays[b].spn
  let goal := s.bp b Param.spnSpeed * 100
  let inside := decide (|p.speedMeas - goal| * 1000 ≤ s.bp b Param.spnSpeedBand * goal)
  let s1 := s.onSpn b (fun x =>
    { x with inBand := if inside then satInc 255 x.inBand else 0, outBand := if inside then 0 else satInc 255 x.outBand })
  let q := s1.bays[b].spn
  if !p.atTarget then (if 20 ≤ q.inBand then s1.atSpeed b else s1)
  else if q.outBand = 20 then s1.raiseBay b .spindleSpeedBand
  else s1

/-- The speed law (R215): proportional-integral, SPN.SPD_KP and SPN.SPD_KI in 1/16 mA per rpm; the reference of iq, mA, and the
integrator it leaves. -/
def State.speedLaw (s : State) (b : BayNo) (ref : Rat) (meas : Int) (integ : Rat) : Rat × Rat :=
  let err : Rat := (ref - meas) / 100
  let i := integ + err * s.bp b Param.spnSpdKi / 16
  (err * s.bp b Param.spnSpdKp / 16 + i, i)

/-- SPEED_LOOP_PERIOD (R215, R218, R223): the speed is measured; a driven level ramps its reference and forms the iq reference,
clamped; a spin-down at 300 rpm goes to Drogue, and Drogue below 30 rpm ends. -/
def execSpeedLoopPeriod (b : BayNo) (was : State) : Res :=
  let s := was.takePeriod [Param.spnSpdKp, Param.spnSpdKi] b
  let s1 := s.onSpn b (fun p =>
    { p with speedMeas := p.measuredSpeed (s.bn b Param.spnPolePairs), edgeAge := satInc 255 p.edgeAge })
  let p := s1.bays[b].spn
  let step : Rat := (s.bp b Param.spnAccel : Rat) / 20
  match p.level with
  | .off => .next s1
  | .measure => .next s1
  | .coast => .next s1
  | .drogue =>
    if |p.speedMeas| < 3000 then
      if p.stopping then
        .next (s1.onSpn b (fun x => { x with level := .off, stopping := false, starting := false, iqRef := 0, speedRef := 0 }))
      else .next (s1.onSpn b (fun x => { (x.enter .sixStep) with speedRef := 0 }))
    else .next s1
  | l =>
    let lim := if l = .sixStep then s.bp b Param.spnStartI else s.bp b Param.spnIMax
    let goal : Rat := if p.stopping then 30000 else s.bp b Param.spnSpeed * 100
    let ref := rampTo p.speedRef goal step
    let r := s.speedLaw b ref p.speedMeas p.spdInteg
    let s2 := s1.onSpn b (fun x => { x with iqRef := clampTo lim (roundOpen 15 r.1), spdInteg := r.2, speedRef := ref })
    if p.stopping then
      if ref = 30000 then .next ((s2.drogue b).onSpn b (fun x => { x with stopping := true })) else .next s2
    else .next (s2.judgeSpeed b)

/-! ### Starts and stops (R216 to R219, R223) -/

/-- A start has failed (R218, R219; log entry 83): in a mount it is the step "spinup" of Table 9.3; a failed catch faults the
bay; another start is made once more. -/
def State.startFailed (s : State) (b : BayNo) : State :=
  let q := s.bays[b].seq
  if q.st ≠ .spinup then s
  else if q.mounting && !s.bays[b].mounted then s.mountStepFailed b .spinup
  else if decide (0 < q.coasts) || q.retried then s.faultBay b .coast
  else s.onSeq b (fun x => { x with retried := true })

/-- The measure window of a start order begins (R216). -/
def Spindle.begin (p : Spindle) : Spindle :=
  { (p.enter .measure) with
      starting := true, atTarget := false, inBand := 0, outBand := 0, edges := [], hallTimes := [], windowCount := p.count,
      windowHalls := p.hallNet, speedRef := 0, iqRef := 0, spdInteg := 0, obsConverged := false, obsPeriods := 0 }

/-- The turn of the sled for a mount (R239). -/
def mountTurn : Nat := 592

/-- The sled of an unmounted disc goes to the nominal radius of turn 592 (R225, R239), after a home move where it has none. -/
def State.sledToMount (s : State) (b : BayNo) : State :=
  let x := s.bays[b].sld
  let target : Int := (1000000 + (mountTurn : Int) * 240) / 500
  if x.mode ≠ .standstill then s
  else if x.homed then
    (if s.sledWithin b target then s.onSld b (fun y => y.start (s.sledProfile b) target) else s.raiseBay b .sledLimit)
  else s.onSld b (fun y => y.startHome (s.sledProfile b) (s.bn b Param.sldLimitOut + 4000))

/-- SPINDLE_START_ORDER (R216, R223, R224): Q-n starts the spindle from off or coast; in any other level the order is refused,
EV_SPINUP_FAIL, cause "busy". A bay that was CLAMPED or PARKED is in SPINUP. -/
def execSpindleStartOrder (b : BayNo) (s : State) : Res :=
  let t := s.bays[b]
  let places := [BaySt.clamped, .parked, .spinup, .spindown, .faulted].contains t.seq.st
  if !s.orders b || t.spn.barred || !places || [Mode.off, .fill, .boot, .vent, .ripcord].contains s.sys.mode then .next s
  else if t.spn.level ≠ .off ∧ t.spn.level ≠ .coast then .next (s.raiseBay b .spinupFail [.u8 2])
  else if t.seq.st = .spindown ∨ t.seq.st = .faulted then
    -- only a coasting spindle is caught there, to be stopped (R249)
    if t.spn.level = .coast then .next (s.onSpn b (fun p => { p.begin with stopping := true })) else .next s
  else
    let s1 := (s.onSpn b (fun p => { p.begin with stopping := false })).setBaySt b .spinup 4
    .next (if t.mounted then s1 else (s1.onSeq b (fun q => { q with mounting := true })).sledToMount b)

/-- START_DECISION (R216): the level that the measure window gives. A lost encoder whose edges agree with the commutation lines
in the window is sound again (log entry 82). -/
def execStartDecision (b : BayNo) (s : State) : Res :=
  let p := s.bays[b].spn
  if p.level ≠ .measure then .next s else
  let net := if p.encoderLost then p.hallNet - p.windowHalls else p.count - p.windowCount
  let v := if p.encoderLost then edgeSpeed p.hallTimes (6 * s.bn b Param.spnPolePairs) else edgeSpeed p.edges 4096
  let sound := decide ((p.count - p.windowCount).sign = (p.hallNet - p.windowHalls).sign)
  let lost := p.encoderLost && !sound
  let level : SpinLevel := if v < 3000 then (if p.stopping then .off else .sixStep)
    else if 0 < net then (if p.offsetValid && !p.encoderLost then .sinEncoder else .sixStep) else .drogue
  let dir := if v < 3000 then 0 else if 0 < net then 1 else 2
  let s1 := if level = .drogue then s.drogue b else s
  let ref : Rat := if v < 3000 then 0 else if 0 < net then v else 0
  let s2 := s1.onSpn b (fun x =>
    { (x.enter level) with
        speedRef := ref, encoderLost := lost, stopping := x.stopping && decide (level ≠ .off) })
  .next (s2.raiseBay b .spindleStart [.u32 v, .u8 dir, .u8 level.code])

/-- DROGUE_TIMEOUT (R218): every switch opens; off level, and EV_SPINUP_FAIL, cause "Drogue timeout". -/
def execDrogueTimeout (b : BayNo) (s : State) : Res :=
  if s.bays[b].spn.level ≠ .drogue then .next s else
  let s1 := s.onSpn b (fun p => { p with level := .off, starting := false, stopping := false })
  .next ((s1.raiseBay b .spinupFail [.u8 0]).startFailed b)

/-- SPINUP_TIMEOUT (R219): the level stays, EV_SPINUP_FAIL, cause "not at speed", and Q-n decides what follows. -/
def execSpinupTimeout (b : BayNo) (s : State) : Res :=
  let p := s.bays[b].spn
  if !p.starting || p.stopping then .next s else
  .next (((s.onSpn b (fun x => { x with starting := false })).raiseBay b .spinupFail [.u8 1]).startFailed b)

/-- SPIN_DOWN_ORDER (R223, R224): a stop order in a state in which focus is parked; a measure window is abandoned, off level;
off and coast stay. -/
def execSpinDownOrder (b : BayNo) (s : State) : Res :=
  let parked := [BaySt.empty, .loading, .clamped, .spinup, .spindown, .unloading, .parked, .faulted].contains s.bays[b].seq.st
  if s.orders b && parked then .next (s.onSpn b (fun p => p.stop)) else .next s

/-! ### The sled (R225 to R232) -/

/-- The generator takes orders: the engine runs, and no Ripcord holds it (R231). -/
def State.sledOrders (s : State) (b : BayNo) : Bool := s.orders b && decide (s.sys.mode ≠ .ripcord)

/-- SLED_POSITION_MOVE (R225, R227): a move to a target from standstill or from following; before the first home move only home
moves are accepted, and a target outside the limits is refused. -/
def execSledPositionMove (b : BayNo) (target : Int) (s : State) : Res :=
  let x := s.bays[b].sld
  if !s.sledOrders b || !x.homed || decide (x.mode ≠ .standstill ∧ x.mode ≠ .velocity) then .next s
  else if !s.sledWithin b target then .next (s.raiseBay b .sledLimit)
  else
    let p := s.sledProfile b
    .next ((s.onSeq b (fun q => { q with sledRepeat := false })).onSld b (fun a =>
      if a.mode = .standstill then a.start p target else ({ a with profile := p, stalled := false, overspeed := false }).retarget target))

/-- SLED_RETARGET (R229): a new target in motion; outside the limits it is refused and the move continues. -/
def execSledRetarget (b : BayNo) (target : Int) (s : State) : Res :=
  let x := s.bays[b].sld
  if !s.sledOrders b || !x.homed || decide (x.mode ≠ .position ∧ x.mode ≠ .reversal) then .next s
  else if !s.sledWithin b target then .next (s.raiseBay b .sledLimit)
  else .next (s.onSld b (fun a => a.retarget target))

/-- SLED_HOME_MOVE (R225): inward at SLD.V_START until the mark passes, at most SLD.LIMIT_OUT + 4,000 counts. -/
def execSledHomeMove (b : BayNo) (s : State) : Res :=
  if s.sledOrders b && decide (s.bays[b].sld.mode = .standstill) then
    .next (s.onSld b (fun a => a.startHome (s.sledProfile b) (s.bn b Param.sldLimitOut + 4000)))
  else .next s

/-- SLED_VELOCITY_COMMAND (R228): in counts per second. -/
def execSledVelocityCommand (b : BayNo) (v : Int) (s : State) : Res :=
  let x := s.bays[b].sld
  if s.sledOrders b && x.homed then .next (s.onSld b (fun a => a.follow (s.sledProfile b) (10 * v))) else .next s

/-- The sled's identity in the retry log: bay and target (Table 15.6). -/
def State.sledUnit (s : State) (b : BayNo) : BitVec 64 := bayUnit b (s.bays[b].sld.target % 2 ^ 32).toNat

/-- A stalled sled (R230, Table 9.5): EV_SLED_STALL once per move with its cause (0 deviation, 1 no mark) and deviation. Q-n repeats
the move once from the present position; a stall of the repeat faults the bay. -/
def State.sledStalled (s : State) (b : BayNo) (cause : Nat) : State :=
  let x := s.bays[b].sld
  let s1 := (s.onSld b (fun a => { a with stalled := true })).raiseBay b .sledStall [.u8 cause, .s32 x.deviation]
  if s.bays[b].seq.sledRepeat then
    (s1.logRetry (Ev.bay b .sledStall).src 8 true 4 (s.sledUnit b)).faultBay b .sled
  else if !s.sledOrders b then s1
  else
    s1.onBay b (fun t =>
      { t with seq := { t.seq with sledRepeat := true },
               sld := if cause = 1 then t.sld.startHome (s.sledProfile b) (s.bn b Param.sldLimitOut + 4000)
                 else { t.sld with pos := t.sld.encoder * posUnit, stalled := false, overspeed := false } })

/-- The sled has come to standstill: a repeated move that ended so was a transient stall. -/
def State.sledEnded (s : State) (b : BayNo) : State :=
  if s.bays[b].seq.sledRepeat ∧ s.bays[b].sld.mode = .standstill then
    (s.logRetry (Ev.bay b .sledStall).src 8 false 0 (s.sledUnit b)).onSeq b (fun q => { q with sledRepeat := false })
  else s

/-- D, per cent, capped at 100 (R226). -/
def State.bridgeDuty (s : State) (b : BayNo) : Rat :=
  min 100 (s.bp b Param.sldRunDuty + (s.bp b Param.sldBemfK : Rat) * |s.bays[b].sld.vel| / (40000 * 200000))

/-- The sled's bridges for the present period (R226). -/
def State.driveSled (s : State) (b : BayNo) : State :=
  s.onSld b (fun a => a.drive (s.bridgeDuty b) (s.bn b Param.sldStepPitch))

/-- SLED_PWM_PERIOD (R225 to R230): the profile advances one period; the mark ends a home move, whose travel is bounded; the
encoder is compared with the commanded position. -/
def execSledPwmPeriod (b : BayNo) (mark : Bool) (s : State) : Res :=
  let x := s.bays[b].sld
  if !x.moving then .next s
  else if x.mode = .home ∧ mark = true then
    let s1 := (s.onSld b StepAxis.atMark).sledEnded b
    .next (if s.bays[b].seq.mounting && !s.bays[b].mounted then s1.sledToMount b else s1)
  else if x.mode = .home ∧ x.pos ≤ x.target * posUnit then .next ((s.onSld b StepAxis.rest).sledStalled b 1)
  else
    let s1 := (s.onSld b (fun a => a.period (decide (s.sys.mode = .ripcord)))).driveSled b
    let y := s1.bays[b].sld
    let far := decide (s.bp b Param.sldStallWin < |y.deviation|) || y.overspeed
    if y.mode ≠ .home ∧ y.stalled = false ∧ far = true then .next (s1.sledStalled b 0) else .next (s1.sledEnded b)

/-- SLED_STANDSTILL (R231): the bridges take the mode of SLD.STANDSTILL. -/
def execSledStandstill (b : BayNo) (s : State) : Res :=
  let x := s.bays[b].sld
  if x.mode = .standstill ∧ x.standstill = 3 then
    .next (s.onSld b (fun a => a.applyStandstill (s.bn b Param.sldStandstill) (s.bp b Param.sldHoldDuty * s.bridgeDuty b / 100)
      (s.bn b Param.sldStepPitch)))
  else .next s

end Sys2Proof.Machine
end

