-- ==== Sys2Proof/Machine/Sequencer.lean ====
section
/-! DEFINITION. The bay sequencer (09_bay_operation.md): clamping, mounts and unmounts (R237 to R241), the choice of work (R242 to R247), faults and remounts (R248, R249, R485). -/

namespace Sys2Proof.Machine

/-! ### Clamping (R237) -/

/-- The record of a disc whose origin the device does not know. -/
def strayDisc : Disc :=
  { vid := 0, slot := 0xFFFF, mounted := false, mgmt := none, used1 := 0, used2 := 0, readOnly := false, unclean := false, preRead := [] }

/-- CLAMP_CONFIRM (R237): the tray shows the disc seated and the clamp closes: CLAMPED. An unmount ordered meanwhile goes on. -/
def execClampConfirm (b : BayNo) (s : State) : Res :=
  let q := s.bays[b].seq
  if q.st ≠ .loading ∨ q.tray = false then .next s else
  let s1 := s.onBay b (fun t =>
    { t.freshDisc with seq := { t.freshDisc.seq with clamp := true, disc := some (t.seq.disc.getD strayDisc) } })
  let s2 := s1.setBaySt b .clamped 1
  .next (if q.unmounting.isSome then s2.unload b 5 else s2)

/-- CLAMP_TIMEOUT (R237): BAY.CLAMP_TIME passes from the release without the clamp: EV_MOUNT_FAIL, stage "clamp", and UNLOADING. -/
def execClampTimeout (b : BayNo) (s : State) : Res :=
  let q := s.bays[b].seq
  if q.st = .loading ∧ q.tray = true ∧ q.clamp = false then .next (s.mountFails b .clamp) else .next s

/-- TRAY_EMPTY (R237, R240): the disc has been lifted clear: EMPTY, or FAULTED when the unload was from FAULTED or follows the
second failed mount. -/
def execTrayEmpty (b : BayNo) (s : State) : Res :=
  let q := s.bays[b].seq
  if q.st ≠ .unloading then .next s else
  let s1 := s.onSeq b (fun x =>
    { x with tray := false, clamp := false, disc := none, unmounting := none, mounting := false, faultAfter := none })
  match q.faultAfter with
  | some c =>
    let s2 := (s1.onSeq b (fun x => { x with cause := some c })).setBaySt b .faulted 19
    .next (if c = .mount then s2.raiseBay b .bayFaulted [.u8 c.code] else s2)
  | none => .next (s1.setBaySt b .empty 19)

/-! ### Spinning down (R237, R238) -/

/-- IDLE_SPINDOWN (R237): BAY.IDLE_SPINDOWN has passed in READY with nothing queued; 0 is never. -/
def execIdleSpindown (b : BayNo) (s : State) : Res :=
  let t := s.bays[b]
  if t.seq.st = .ready ∧ t.busy = false ∧ s.bayServes b = false ∧ s.bn b Param.bayIdleSpindown ≠ 0 then .next (s.spinDown b .park 16)
  else .next s

/-- SPINDOWN_COMPLETE (R237, R238): the spindle is off, or coasts below 30 rpm: PARKED after an idle stop, UNLOADING after an
unmount or a failed mount, and CLAMPED after a warm reset or where the disc was not mounted. -/
def execSpindownComplete (b : BayNo) (s : State) : Res :=
  let t := s.bays[b]
  let stopped := decide (t.spn.level = .off) || (decide (t.spn.level = .coast) && !t.spn.turning)
  if t.seq.st ≠ .spindown ∨ stopped = false then .next s else
  match t.seq.after with
  | .unload => .next (s.unload b 18)
  | .clampedAfterReset => .next (s.setBaySt b .clamped 24)
  | .park => if t.mounted then .next (s.setBaySt b .parked 17) else .next (s.setBaySt b .clamped 24)

/-! ### The mount read (R41, R59, R239, R310) -/

/-- The words of 8 consecutive turns on the layer of the first focus identify an SL16 disc (R41): at least 4 decode, and each that
does carries format code 0xA and layer count field 0xF. -/
def Servo.isSl16 (v : Servo) : Bool :=
  decide (4 ≤ (v.ids.filter Option.isSome).length) && v.ids.all (fun x => decide (x ≠ some false))

/-- What the positions of one management sequence that have been read gave, in ascending order. -/
def MgmtScan.copy (m : MgmtScan) (second : Bool) : List (Option (List Byte)) :=
  let low := if second then m.low2 else m.low1
  let used := if second then m.used2 else m.used1
  (List.range (used - low)).map (fun i => ((m.got.find? (fun x => decide (x.1 = mgmtAddr second (low + i)))).map (·.2)).getD none)

/-- The clusters of the largest set (R60, R62). -/
def largestSet : Nat := 46

/-- A sequence has positions left to read, and those read hold no valid set: the last valid one stands before them (R59). -/
def MgmtScan.lacks (m : MgmtScan) (second : Bool) : Bool :=
  decide (0 < (if second then m.low2 else m.low1)) && (setsOfCopy (m.copy second)).isEmpty

/-- The next management reads (R59): of each sequence that lacks a valid set, the positions of a largest set before those read. -/
def MgmtScan.more (m : MgmtScan) : MgmtScan :=
  { m with low1 := if m.lacks false then m.low1 - largestSet else m.low1,
           low2 := if m.lacks true then m.low2 - largestSet else m.low2 }

/-- The positions between two lower ends of a sequence. -/
def mgmtSpan (second : Bool) (low high : Nat) : List ClusterAddr := (List.range (high - low)).map (fun i => mgmtAddr second (low + i))

/-- The disc is mounted with the set that was found (R61, R236); a volume closed by a set that did not fit stays read-only (R62). -/
def Disc.found (d : Disc) (set : Option MgmtSet) (closed : Bool) (used1 used2 : Nat) : Disc :=
  { d with mounted := true, mgmt := set, used1 := used1, used2 := used2, preRead := [],
           readOnly := match set with | some m => m.closed || closed | none => false,
           unclean := match set with | some m => setUnclean m | none => false }

/-- The volume takes what its disc's set records. -/
def State.volMounted (s : State) (vid : VolId) (set : Option MgmtSet) : State :=
  ((s.onVol vid (fun v =>
    match set with
    | some m => { v with formatted := true, remap := m.remap, readOnly := m.closed || v.readOnly, unclean := setUnclean m, ranges := m.ranges,
                         known := true, ordinal := m.nextOrdinal }
    | none => { v with formatted := false, readOnly := false, unclean := false, ranges := [], known := true, ordinal := 0 })).saveAll).tellVol
    vid

/-- A Format that a power loss cut short goes on once its disc is mounted (R313); its remap flag is not kept (log entry 50). -/
def State.resumeFormat (s : State) (b : BayNo) (vid : VolId) (set : Option MgmtSet) : State :=
  let q := s.sys.progress
  if q.op = 1 ∧ q.state = 2 ∧ q.target = vid ∧ set = none then
    let (k, s1) := s.freeInt 18
    s1.onWp b (fun w => { w with mgmtDue := some (.format (decide (k % 2 = 1)) none) })
  else s

/-- The bay is mounted: READY, its receivers due under AFE.CAL_AT_MOUNT (R80), the mount over, and the waiting commands served. -/
def State.mountFound (s : State) (b : BayNo) (set : Option MgmtSet) (used1 used2 : Nat) : State :=
  let vid := s.bays[b].vid
  let closed := match s.vol? vid with | some v => v.readOnly | none => false
  let s1 := ((s.dropScan b).onDisc b (fun d => d.found set closed used1 used2)).stepPassed b .management
  let s2 := s1.onBay b (fun t =>
    { t with seq := { t.seq with mounting := false, retried := false, lastFail := none, position := false },
             afe := { t.afe with recvs := t.afe.recvs.map (fun (r : Receiver) =>
               { r with due := r.due || (decide (s.bp b Param.afeCalAtMount = 1) && !r.retired) }) } })
  (((s2.volMounted vid set).setBaySt b .ready 10).resumeFormat b vid set).mountDone vid b

/-- The management reads of a mount go on (R59, R310): the next positions are queued, or, with a valid set found in each sequence or
all of it read, the current set is in force; one that names another volume ends the mount. -/
def State.scanOn (s : State) (b : BayNo) (m : MgmtScan) : State :=
  if m.lacks false || m.lacks true then
    let n := m.more
    let reads := mgmtSpan false n.low1 m.low1 ++ mgmtSpan true n.low2 m.low2
    s.onSeq b (fun q => { q with scan := some n, demand := q.demand ++ reads.map (fun a => (a, a)) })
  else
    match currentSet (m.copy false) (m.copy true) with
    | some c => if c.vid = s.bays[b].vid then s.mountFound b (some c) m.used1 m.used2 else s.mountFails b .management
    | none => s.mountFound b none m.used1 m.used2

/-- Values that take effect at the next mount come into force. DESIGN CHOICE (log entry 105): "the next mount" of R11 is the moment at
which the mount read has identified the disc. -/
def State.atMount (s : State) (b : BayNo) : State :=
  let s0 := s.takeEffect .nextMount b
  { s0 with params := { s0.params with strategyInForce := s0.params.strategyInForce.set b.val s0.params.strategy b.isLt } }

/-- Management reads of the mount are outstanding. -/
def Bay.scanning (t : Bay) : Bool :=
  t.dec.entries.any (fun e => decide (e.2.use = .management)) || t.seq.demand.any (fun x => decide (areaOf x.2 = .management))

/-- MOUNT_READ (R41, R59, R239, R310): the mount read of a clamped disc goes on. After 8 turns it identifies the disc, which is returned
where it is none of SL16 (R1); the probes, whose answers are given, find the next unused position of each management sequence;
then the positions before those are read, until a valid set is found. -/
def execMountRead (b : BayNo) (probes1 probes2 : List Bool) (s : State) : Res :=
  let t := s.bays[b]
  let there := [BaySt.trackAcq, .reading].contains t.seq.st && t.srv.tracking.locked && decide (t.srv.trackAcq = 0) && t.srv.move.isNone
  if !(t.seq.mounting && !t.mounted && t.seq.disc.isSome && there) then .next s else
  match t.seq.scan with
  | some m => if t.scanning then .next s else .next (s.scanOn b m)
  | none =>
    if t.srv.ids.length < 8 then .next s
    else if !t.srv.isSl16 then .next (s.mountFails b .identify)
    else
      let u1 := firstFree 14 0 mgmtPositions probes1
      let u2 := firstFree 14 0 mgmtPositions probes2
      let m : MgmtScan := { used1 := u1, used2 := u2, low1 := u1, low2 := u2, got := [] }
      .next (((s.atMount b).onSeq b (fun q => { q with scan := some m })).scanOn b m)

/-! ### Ripcord and faults (R237, R249) -/

/-- RIPCORD_DISC_STOPPED (R237): in RIPCORD the bay's disc has stopped: PARKED when mounted, CLAMPED when a disc is clamped, EMPTY
otherwise. -/
def execRipcordDiscStopped (b : BayNo) (s : State) : Res :=
  let t := s.bays[b]
  let stopped := decide (t.spn.level = .off) || (decide (t.spn.level = .coast) && !t.spn.turning)
  if s.sys.mode = .ripcord ∧ stopped = true then
    .next (s.setBaySt b (if t.seq.clamp then (if t.mounted then .parked else .clamped) else .empty) 21)
  else .next s

/-- BAY_FAULT (R249): the bay enters FAULTED for a cause of Table 9.5. -/
def execBayFault (b : BayNo) (cause : FaultCause) (s : State) : Res :=
  if [Mode.off, .fill, .boot].contains s.sys.mode then .next s else .next (s.faultBay b cause)

/-- COAST_WAIT_EXPIRY (R249): BAY.COAST_WAIT has passed for a disc whose catch found no angle source: it may be unclamped. -/
def execCoastWaitExpiry (b : BayNo) (s : State) : Res :=
  if s.bays[b].seq.st = .faulted ∧ s.bays[b].spn.level = .coast then .next (s.onSeq b (fun q => { q with coastDone := true })) else .next s

/-! ### Remounts (R249, R485) -/

/-- The stage at which the ladder of an entry resumes in another bay: a step of decodes runs again, a disc pass is read again. -/
def Entry.resumed (e : Entry) : Nat × LadderStage :=
  match e.stage with
  | .idle => (e.ladder, .idle)
  | .pass n => (e.ladder, .pass n)
  | .alone => (e.ladder - 1, .idle)
  | .summed n => if stepPasses e.ladder = 0 then (e.ladder - 1, .idle) else (e.ladder, .pass n)

/-- An open entry as it goes to another bay (R141): its good codewords, its kept passes and its step stay; a pass that was under way
is read again, the identical one as such. -/
def Entry.carried (e : Entry) : Entry :=
  let lost : CwState := if e.cls = .retry then .failed else .missing
  { e with cws := e.cws.map (fun c => if c.isGood then c else lost), soft := [], erased := Vector.replicate 36 0, frames := 0, submitted := 0,
           seqs := [], ran := false, ladder := e.resumed.1, stage := e.resumed.2,
           reread := if e.cls = .retry then 0 else if e.identical then 2 else max 1 e.reread }

/-- The entries that wait for a disc pass, at step 8 or at another. -/
def waitingPasses (es : List (Nat × Entry)) (slow : Bool) : List (Fin 128) :=
  es.filterMap (fun e => match e.2.stage with
    | .pass _ => if h : e.1 < 128 then (if decide (e.2.ladder = 8) = slow then some ⟨e.1, h⟩ else none) else none
    | _ => none)

/-- The work of a bay's disc goes with it to another bay (R141, R249): the buffers of its entries to the new owner. -/
def State.carryWork (s : State) (src dst : BayNo) : State :=
  let t := s.bays[src]
  let kept := t.dec.entries.filter (fun e => decide (e.2.cls ≠ .updraft ∧ e.2.use = .host))
  let entries := kept.map (fun (e : Nat × Entry) => (e.1, e.2.carried))
  let again := (entries.filter (fun (e : Nat × Entry) => decide (e.2.cls = .demand))).map (fun (e : Nat × Entry) => (e.2.home, e.2.addr))
  let s1 := s.onBay dst (fun x =>
    { x with
        dec := { x.dec with entries := entries, weak := t.dec.weak }
        wp := { x.wp with jobs := t.wp.jobs, replQueue := t.wp.replQueue, unverified := t.wp.unverified, mgmtDue := t.wp.mgmtDue }
        seq := { x.seq with demand := (t.seq.demand ++ again).dedup, retry := waitingPasses entries false,
                            slow := waitingPasses entries true, mounting := true } })
  let s2 := s1.onBay src (fun x =>
    { x with
        dec := { x.dec with entries := [], weak := [] }
        wp := { x.wp with jobs := [], replQueue := [], unverified := [], mgmtDue := none, run := none }
        seq := { x.seq with demand := [], retry := [], slow := [] } })
  let s3 := s2.onPool (fun p => { p with waiting := p.waiting.filter (fun w => !decide (w.bay = src)) })
  (s3.passAll (bayOwner src) (kept.flatMap (fun e => e.2.buffers)) (bayOwner dst))

/-- The disc of a FAULTED bay may leave its clamp: the spindle is off, or BAY.COAST_WAIT has passed (R249). -/
def Bay.mayUnclamp (t : Bay) : Bool := decide (t.spn.level = .off) || (decide (t.spn.level = .coast) && t.seq.coastDone)

/-- A remount under R249: the disc is unmounted (R145), and C2 orders it from the FAULTED bay to the lowest-numbered EMPTY one, or frees one first; a Move
Disc that fails ends its reads with 0x26. -/
def State.remountFrom (s : State) (b : BayNo) : State :=
  if s.moveBusy || !s.bays[b].mayUnclamp then s else
  match s.emptyBay with
  | some d =>
    let cause := s.bays[b].seq.cause
    let s0 := (s.setBaySt b .unloading 23).undo b 1
    let s1 := (s0.onBay b Bay.freshDisc).onSeq b (fun q => { q with clamp := false, faultAfter := some (cause.getD .sequencer) })
    match s1.orderMove (bayCode b) (bayCode d) with
    | (s2, none) => s2.carryWork b d
    | (s2, some _) => s2.failDisc b
  | none => match s.idleBay with
    | some d => s.orderUnmount d none
    | none => s

/-- Something waits for a volume's disc to be mounted: a command (R293), a Format (R311), or its disc left a bay that faulted. -/
def State.mountWanted (s : State) (vid : VolId) : Bool :=
  s.cmds.any (fun c => decide (c.wait = .mount ∧ c.vid = vid))
    || decide (s.sys.progress.op = 1 ∧ s.sys.progress.state = 2 ∧ s.sys.progress.target = vid)
    || s.ports.toList.any (fun p => match p.mbx.run with
        | some r => match r.wait with | .format v _ _ => decide (v = vid) | _ => false
        | none => false)

/-- REMOUNT (R249, R485): C2 places the disc of a volume: from a FAULTED bay under POL.REMOUNT, else for a mount that waits. With
POL.REMOUNT at 0 it raises EV_REMOUNT_WITHHELD once, with the bay and the disc's location code (R34), and the reads of the disc end
with 0x26. -/
def execRemount (vid : VolId) (s : State) : Res :=
  if !s.sys.mode.serving then .next s else
  match s.discIn vid with
  | some b =>
    if s.bays[b].seq.st = .faulted then
      if s.dp Param.polRemount = 1 then .next (s.remountFrom b)
      else
        let s1 := if s.bays[b].seq.withheld then s
          else (s.raiseDev .remountWithheld [.u8 b.val, .u16 (bayCode b).toNat]).onSeq b (fun q => { q with withheld := true })
        .next (s1.failDisc b)
    else if s.mountWanted vid then .next (s.placeDisc vid) else .next s
  | none => if s.mountWanted vid then .next (s.placeDisc vid) else .next s

/-! ### The choice of work (R242 to R247) -/

/-- Work of the destage class is queued (Table 9.4). -/
def Bay.destageWork (t : Bay) : Bool :=
  !t.wp.jobs.isEmpty || t.wp.mgmtDue.isSome || !t.wp.replQueue.isEmpty || !t.wp.unverified.isEmpty

/-- The address to read for the retry or slow class: that of the first entry whose pass is still to be read; before the disc is
mounted, of a management cluster (R138). -/
def Bay.entryTarget (t : Bay) (is : List (Fin 128)) : Option ClusterAddr :=
  is.findSome? (fun i => match lookupKey t.dec.entries i.val with
    | some e => if e.frames < 384 ∧ (t.mounted = true ∨ e.use = .management) then some e.addr else none
    | none => none)

/-- The clusters queued in the demand class: of a disc that is not mounted yet, those of its mount read. -/
def Bay.demandReads (t : Bay) : List ClusterAddr :=
  (t.seq.demand.map (·.2)).filter (fun a => t.mounted || decide (areaOf a = .management))

/-- The demand cluster to read next (R242): in ascending position from the beams on the layer in use, then the rest of that layer,
then other layers. -/
def Bay.demandTarget (t : Bay) : Option ClusterAddr :=
  let (layer, turn) := match t.srv.place with | some (l, x, _) => (l, x) | none => (0, 0)
  let rank := fun (a : ClusterAddr) =>
    (if addrLayer a = layer ∧ turn ≤ addrTurn a + 3 then 0 else if addrLayer a = layer then 2 ^ 26 else 2 ^ 27) + a.toNat
  t.demandReads.foldl (fun (best : Option ClusterAddr) a => match best with
    | none => some a
    | some x => if rank a < rank x then some a else some x) none

/-- The turn B0 takes so that the innermost lane in use stands on turn `t` (R244, R246). -/
def Bay.turnFor (t : Bay) (turn : Nat) : Nat := min lastTurn (turn + (t.lanesInUse.foldl (fun m (l : Beam) => max m l.val) 0))

/-- The beam that must read a cluster: its own for an identical re-read, that of its step for a ladder pass (R137, R139). -/
def Bay.beamFor (t : Bay) (a : ClusterAddr) : Option Beam :=
  match t.dec.entryAt a with
  | some (_, e) =>
    let l := match e.stage with | .pass _ => some e.passBeam | _ => if e.reread = 2 then some e.beam else none
    l.filter t.laneHasReceiver
  | none => none

/-- The lanes in use that may read a cluster. -/
def Bay.lanesFor (t : Bay) (a : ClusterAddr) : List Beam :=
  match t.beamFor a with
  | some l => [l]
  | none => t.lanesInUse

/-- A read of a cluster wants a single turn (R103, R244): the offsets of stride jumps are unknown there, or all that is queued lies
in its turn. -/
def State.singleTurn (s : State) (b : BayNo) (a : ClusterAddr) : Bool :=
  let reads := s.bays[b].demandReads
  !s.offsetsKnown b (zoneOfTurn (addrTurn a)) (addrLayer a)
    || (!reads.isEmpty && reads.all (fun x => decide (addrLayer x = addrLayer a ∧ addrTurn x = addrTurn a)))

/-- The turn B0 takes to read a cluster (R244): for a single turn, or with a beam of its own, the beam that may and is nearest stands
on the cluster's turn. -/
def State.readTurn (s : State) (b : BayNo) (a : ClusterAddr) (now : Nat) : Nat :=
  let t := s.bays[b]
  let far := fun (l : Beam) => ((addrTurn a + l.val : Nat) - (now : Int)).natAbs
  if (t.beamFor a).isSome || s.singleTurn b a then
    match t.lanesFor a with
    | [] => t.turnFor (addrTurn a)
    | l :: rest => min lastTurn (addrTurn a + (rest.foldl (fun m x => if far x < far m then x else m) l).val)
  else t.turnFor (addrTurn a)

/-- A beam that may read a cluster stands on its turn. -/
def Bay.covers (t : Bay) (a : ClusterAddr) : Bool :=
  match t.srv.place with
  | some (l, turn, _) => decide (l = addrLayer a) && (t.lanesFor a).any (fun b => decide (turn = addrTurn a + b.val))
  | none => false

/-- Go to a cluster and read (R242, R244, R185, R186): READING where a beam stands on its turn; otherwise one layer jump, a lens
seek or a sled seek toward it. -/
def State.goRead (s : State) (b : BayNo) (a : ClusterAddr) : State :=
  let t := s.bays[b]
  match t.srv.place with
  | none => s
  | some (l, turn, _) =>
    if t.covers a then s.takeUp b .reading
    else if l ≠ addrLayer a then s.startMove b (.layer (decide (l.val < (addrLayer a).val)))
    else
      let target := s.readTurn b a turn
      let n : Int := (target : Int) - turn
      if n = 0 then s.takeUp b .reading
      else if |n| ≤ s.bp b Param.srvJumpMax then s.startMove b (.lens n)
      else s.startMove b (.sledSeek target)

/-- The bay rests in READY. -/
def State.rest (s : State) (b : BayNo) : State :=
  if s.bays[b].mounted then
    (s.setBaySt b .ready 12).onRc b (fun r => { r.leave with lanes := r.leave.lanes.map (fun (l : Lane) => { l with phase := .idle }) })
  else s

/-- The next step of an unmount (R241): the set with the clean-unmount flag, or the spin-down where there is none to write. -/
def State.unmountStep (s : State) (b : BayNo) : State :=
  let t := s.bays[b]
  let s0 := s.rest b
  if t.wp.mgmtDue.isSome || !t.wp.replQueue.isEmpty || !t.wp.unverified.isEmpty || t.wp.jobs.any (fun j => j.cmd.isSome) then s0
  else
    let s1 := (s0.onWp b (fun w => { w with jobs := [] })).unseal t.vid
    match t.seq.disc with
    | some d =>
      if d.mgmt.isSome ∧ d.readOnly = false then s1.onWp b (fun w => { w with mgmtDue := some .unmount }) else s1.spinDown b .unload 16
    | none => s1.spinDown b .unload 16

/-- C2 starts a destage of its own when nothing else is queued (log entry 51): every staged cluster of the volume. -/
def State.autoDestage (s : State) (b : BayNo) : State :=
  match s.vol? s.bays[b].vid with
  | none => s
  | some v =>
    let us := s.destageable b v.vid ((s.stg.map.filter (fun (e : MapEntry) => decide (e.vid = v.vid) && !e.sealed)).map (·.ucl))
    if us.isEmpty || (s.destageRefusal b v us).isSome then s else s.queueJob b none v us

/-- The Updraft run of a bay ends at a stride boundary (R143): its depth or the user area is passed, demand or destage work is queued,
its Ballast owner stands at its minimum, or the beams are on another layer, to which Updraft makes no jump. -/
def State.updraftEnds (s : State) (b : BayNo) : State :=
  let t := s.bays[b]
  match t.dec.updraft, t.srv.place with
  | some r, some (l, turn, _) =>
    let last := addrOfPos (addrLayer r.next).val (posOfAddr r.next + r.left - 1)
    if r.left = 0 ∨ l ≠ addrLayer r.next ∨ addrTurn last + 3 < turn ∨ t.seq.demand.isEmpty = false ∨ t.destageWork = true
        ∨ s.atMinimum 2 (bayOwner b) = true then s.onDec b (fun d => { d with updraft := none }) else s
  | _, _ => s

/-- Q-n sets SPN.SPEED (R243); the value last accepted by a Set stays (R11). -/
def State.setSpeed (s : State) (b : BayNo) (rpm : Int) : State :=
  { s with params := { s.params with inForce := insertKey s.params.inForce (paramKey b.val Param.spnSpeed) rpm } }

/-- The slow visit goes on (R243): the next cluster at step 8, or 5,400 rpm and rest. -/
def State.visitOn (s : State) (b : BayNo) : State :=
  match s.bays[b].entryTarget s.bays[b].seq.slow with
  | some a => s.goRead b a
  | none => ((s.onSeq b (fun q => { q with visiting := false })).setSpeed b 5400).rest b

/-- The work of a disc that is not mounted yet: its mount read (R239), with the re-reads and ladder passes of R138. -/
def State.serveMount (s : State) (b : BayNo) : State :=
  let t := s.bays[b]
  if t.seq.visiting then s.visitOn b
  else match t.demandTarget with
    | some a => s.goRead b a
    | none => match t.entryTarget t.seq.retry with
      | some a => s.goRead b a
      | none => s.takeUp b .reading

/-- The class served (Table 9.4), in the modes that allow it (R245). -/
def State.serveClass (s : State) (b : BayNo) : State :=
  let t := s.bays[b]
  let open1 := t.dec.entries.any (fun e => decide (e.2.cls = .demand ∧ e.2.frames < 384))
  let destage := t.destageWork
  if t.seq.visiting then s.visitOn b
  else if destage && t.seq.destageFirst then s.rest b
  else match t.demandTarget with
    | some a => s.goRead b a
    | none =>
      if open1 && decide (t.seq.st = .reading) then s
      else if t.seq.unmounting.isSome then s.unmountStep b
      else match t.entryTarget t.seq.retry with
        | some a => s.goRead b a
        | none =>
          if destage then s.rest b
          else if !t.srv.tablesValid || !s.sys.mode.serving then s.rest b
          else match t.dec.updraft with
            | some r => s.goRead b r.next
            | none => (s.rest b).autoDestage b

/-- A position failure (R247, Table 9.5): a sled seek to the target; a mismatch after it faults the bay. -/
def State.positionFailed (s : State) (b : BayNo) : State :=
  let t := s.bays[b]
  let turn := match t.demandTarget with
    | some a => s.readTurn b a (match t.srv.place with | some (_, x, _) => x | none => 0)
    | none => match t.srv.place with | some (_, x, _) => x | none => 0
  let s1 := s.onSeq b (fun q => { q with mismatches := 4, checkDue := false, position := true })
  (s1.setBaySt b .seeking (if t.seq.st = .ready then 11 else if t.seq.st = .reading ∨ t.seq.st = .writing then 15 else 12)).startMove b
    (.sledSeek turn)

/-- The states in which Q-n chooses work at a choosing point. -/
def choosesIn (a : BaySt) : Bool := [BaySt.trackAcq, .ready, .reading, .writing, .seeking, .layerJump].contains a

/-- The disc of a bay in UNLOADING is still on its tray. -/
def State.discStays (s : State) (b : BayNo) : Bool :=
  match s.vol? s.bays[b].vid with
  | some v => decide (v.location = bayCode b)
  | none => s.bays[b].seq.disc.isSome

/-- WORK_CHOICE (R242, R245): at a choosing point Q-n serves the highest class with queued work: position first (a position failure's
seek, a re-acquisition; Lulls and the position check wait for their own commands), then, in the modes that serve, the classes of
Table 9.4; where started commands go on though none start, their demand, retries and destages only (Table 1.7; log entry 107). In UNLOADING a Move Disc that waited for the handler is ordered. -/
def execWorkChoice (b : BayNo) (s : State) : Res :=
  let t := s.bays[b]
  let v := t.srv
  if !s.orders b then .next s
  else if t.seq.st = .unloading then .next (if s.discStays b then s.sendHome b else s)
  else if !choosesIn t.seq.st || v.move.isSome || v.acq.isSome || decide (v.trackAcq ≠ 0) || t.wp.run.isSome then .next s
  else if s.sys.mode = .diagnostic then .next (s.rest b)
  else if v.focus.lull.isSome || v.tracking.lull.isSome || v.tilt.lull.isSome then .next s
  else if t.seq.mismatches = 3 then .next (s.positionFailed b)
  else if t.seq.checkDue then .next s
  else if !v.tracking.closed then
    .next (if v.focus.locked && decide (t.seq.st ≠ .trackAcq) then s.onSrv b (fun w => { w with trackAcq := 2 }) else s)
  else if !v.tracking.locked then .next s
  else
    let s1 := s.onSeq b (fun q => { q with position := false })
    if !t.mounted then .next (if t.seq.mounting then s1.serveMount b else s1)
    else if s.sys.mode.serving || s.finishes (fun _ => true) then .next ((s1.updraftEnds b).serveClass b)
    else .next (s1.rest b)

/-- WRITE_YIELD (R243): demand has waited BAY.WRITE_YIELD behind a write run: it ends at the end of its turn, unless it runs under
the destage guarantee and has not written BAY.DESTAGE_MIN_RUN revolutions. -/
def execWriteYield (b : BayNo) (s : State) : Res :=
  let t := s.bays[b]
  match t.wp.run with
  | some r =>
    if t.seq.demand.isEmpty ∨ (r.guaranteed = true ∧ r.turns < s.bn b Param.bayDestageMinRun) then .next s
    else .next (s.onWp b (fun w => { w with run := w.run.map (fun (x : WriteRun) => { x with endAtTurn := true }) }))
  | none => .next s

/-- DESTAGE_GUARANTEE (R243): destage work has waited BAY.DESTAGE_MAX_WAIT: the next write run goes ahead of demand and retry. -/
def execDestageGuarantee (b : BayNo) (s : State) : Res :=
  if s.bays[b].destageWork && s.bays[b].wp.run.isNone then .next (s.onSeq b (fun q => { q with destageFirst := true })) else .next s

/-- SLOW_VISIT (R140, R243): the clusters at ladder step 8 are read in one visit at 2,700 rpm, with EV_SLOW_VISIT and their count. -/
def execSlowVisit (b : BayNo) (s : State) : Res :=
  let t := s.bays[b]
  if t.seq.slow.isEmpty || t.seq.visiting || !(t.mounted || t.seq.scan.isSome) || !s.orders b || !s.sys.mode.serving || t.wp.run.isSome
      || decide (t.seq.st ≠ .ready ∧ t.seq.st ≠ .reading) then .next s
  else
    .next (((s.onSeq b (fun q => { q with visiting := true })).setSpeed b 2700).raiseBay b .slowVisit [.u16 t.seq.slow.length])

end Sys2Proof.Machine
end

