-- ==== Sys2Proof/Machine/Board.lean ====
section
/-! DEFINITION. The board's service ports (18_electrical_and_package.md): the SMBus target and the JTAG TAP (R482). -/

namespace Sys2Proof.Machine

/-- IDENT of Table 17.2 as SMBus returns it, with PORT 0 (log entry 87). -/
def smbusIdent : BitVec 64 :=
  BitVec.ofNat 64 (Config.identity.toNat * 2 ^ 32 + Config.deviceNumber.toNat * 2 ^ 16 + Config.stepping.toNat * 2 ^ 8)

/-- The alarm byte of command 0x03 (Table 18.12). -/
def State.smbusAlarms (s : State) : Nat :=
  boolMask [decide (s.ports[0].alarm ≠ 0), decide (s.ports[1].alarm ≠ 0), s.sys.pwrfail, s.ev.reelFrozen]

/-- The answer to an SMBus command (Table 18.12), if it has one. -/
def State.smbusAnswer (s : State) (command : Byte) : Option (List Byte) :=
  match command.toNat with
  | 0 => some (leBytes 8 smbusIdent.toNat)
  | 1 => some (leBytes 1 s.sys.mode.code)
  | 2 => some (leInt 2 s.sys.tj)
  | 3 => some (leBytes 1 s.smbusAlarms)
  | _ => none

/-- SMB_ALERT_N is asserted (R482): some bit of either port's Alarm Summary is set. -/
def State.smbAlert (s : State) : Bool := decide (s.ports[0].alarm ≠ 0) || decide (s.ports[1].alarm ≠ 0)

/-- CRC-8 of bytes, each from bit 7 down. -/
def crc8 (bs : List Byte) : Nat :=
  (bs.flatMap (fun (b : Byte) => (List.range 8).map (fun (i : Nat) => b.getLsbD (7 - i)))).foldl crc8Bit 0

/-- The bytes of a read as the target sends them: a Block Read counts its bytes first, and with packet error checking the CRC-8 of the
whole transaction follows (R482; PRESUMED, log entry 117). -/
def smbusFrame (addr : BitVec 7) (command : Byte) (pec : Bool) (bs : List Byte) : List Byte :=
  let counted := if command = 0 then BitVec.ofNat 8 bs.length :: bs else bs
  let head : List Byte := [BitVec.ofNat 8 (addr.toNat * 2), command, BitVec.ofNat 8 (addr.toNat * 2 + 1)]
  if pec then counted ++ [BitVec.ofNat 8 (crc8 (head ++ counted))] else counted

/-- SMBUS_TRANSACTION (R482): from FILL onward the always-on domain answers the commands of Table 18.12 at the device's address, with
packet error checking where the host asks for it; any other is not acknowledged. -/
def execSmbusTransaction (addr : BitVec 7) (command : Byte) (pec : Bool) (s : State) : Res :=
  if s.sys.mode = .off ∨ addr.toNat ≠ 0x58 + s.sys.straps.toNat then .next s else
  match s.smbusAnswer command with
  | some bs => .next (s.emit (.smbus (smbusFrame addr command pec bs)))
  | none => .next s

/-- IDCODE (R482): the manufacturer identity is not stated (log entry 86). -/
def idcode : Nat := 0x10000000 + 0x8416 * 4096 + 2 * ((Config.freeInt 19 0).toNat % 2048) + 1

/-- JTAG_TAP_OPERATION (R482): BYPASS passes a bit, IDCODE shifts the code out, SAMPLE/PRELOAD captures the cells and loads new
values, and EXTEST drives the pins from them. -/
def execJtagTapOperation (op : JtagOp) (s : State) : Res :=
  let load := fun (ir : Nat) (ext : Bool) => s.onSys (fun y => { y with jtagIr := ir, extest := ext })
  match op with
  | .bypass bit => .next ((load 0 false).emit (.tdo [bit]))
  | .idcode => .next ((load 1 false).emit (.tdo ((List.range 32).map (fun i => idcode.testBit i))))
  | .samplePreload captured shiftIn =>
    .next (((load 2 false).onSys (fun y => { y with jtagCells := shiftIn })).emit (.tdo captured))
  | .extest => .next (load 3 true)

end Sys2Proof.Machine
end

