-- ==== Sys2Proof/Machine/RegOps.lean ====
section
/-! DEFINITION. Shared operations of register writes: the reach of a 4-byte access (R451), doorbells (R281), queue and event ring configuration (R458, R462), the Bridle (R455), the Alarm Summary (R459), Reel control (R460), the mailbox registers (R456) and MSI-X (R463). -/

namespace Sys2Proof.Machine

/-! ### Access (R451, R454) -/

/-- A port answers register accesses (R451): the device is out of OFF and the port out of its fundamental reset. -/
def State.answers (s : State) (p : Port) : Bool := decide (s.sys.mode ≠ .off) && !s.ports[p].perst

/-- A field [hi:lo] lies wholly within what an access reaches (R451). -/
def AccWidth.reaches (w : Sys2Proof.AccWidth) (lo hi : Nat) : Bool :=
  match w with
  | .full => true
  | .low => decide (hi ≤ 31)
  | .high => decide (32 ≤ lo)

/-- The bits of a value that an access reaches, where every bit is a field of its own. -/
def reached (w : AccWidth) (v : BitVec 64) : BitVec 64 :=
  match w with
  | .full => v
  | .low => v &&& 0xFFFFFFFF
  | .high => v &&& 0xFFFFFFFF00000000

/-! ### Doorbells (R281) -/

/-- EV_DOORBELL_RANGE, once until the pair is next reset or enabled (R281). -/
def State.rangeEvent (s : State) (p : Port) (q : QueueNo) : State :=
  if s.ports[p].queues[q].rangeRaised then s
  else (s.onQueue p q (fun x => { x with rangeRaised := true })).raisePort p .doorbellRange

/-- A submission tail is written (R281). -/
def State.writeSqTail (s : State) (p : Port) (q : QueueNo) (v : BitVec 12) : State :=
  let x := s.ports[p].queues[q]
  if !x.enabled then s
  else if v.toNat < x.entries.toNat then s.onQueue p q (fun x => { x with sqTail := v })
  else s.rangeEvent p q

/-- Records that a completion head would release. -/
def QueuePair.released (x : QueuePair) (v : BitVec 12) : Nat :=
  if x.entries.toNat = 0 then 0 else (v.toNat + x.entries.toNat - x.cqHead.toNat) % x.entries.toNat

/-- A completion head is written (R281): one that would release records the device has not posted is ignored. -/
def State.writeCqHead (s : State) (p : Port) (q : QueueNo) (v : BitVec 12) : State :=
  let x := s.ports[p].queues[q]
  if !x.enabled then s
  else if v.toNat < x.entries.toNat ∧ x.released v ≤ x.posted then s.onQueue p q (fun x => { x with cqHead := v })
  else s.rangeEvent p q

/-! ### Queue configuration (R279, R280, R462) -/

/-- The aggregation fields of QCFG, which take writes at any time. -/
def QueuePair.writeAgg (x : QueuePair) (w : AccWidth) (v : BitVec 64) : QueuePair :=
  if AccWidth.reaches w 32 47 then { x with aggCount := BitVec.ofNat 8 (field v 32 8), aggTime := BitVec.ofNat 8 (field v 40 8) } else x

/-- The fields of QCFG that only a disabled pair takes. -/
def QueuePair.writeSize (x : QueuePair) (w : AccWidth) (v : BitVec 64) : QueuePair :=
  if AccWidth.reaches w 0 22 then { x with entries := BitVec.ofNat 13 (field v 0 13), vector := BitVec.ofNat 7 (field v 16 7) } else x

/-- The fields of a pair let it be enabled (R462). -/
def QueuePair.mayEnable (x : QueuePair) : Bool :=
  decide (2 ≤ x.entries.toNat ∧ x.entries.toNat ≤ 4096 ∧ 1 ≤ x.vector.toNat ∧ x.vector.toNat ≤ 64)

/-- A pair as it is enabled (R280): heads and tails 0, phase 1. -/
def QueuePair.start (x : QueuePair) : QueuePair :=
  { x with enabled := true, halted := false, sqTail := 0, cqHead := 0, sqHead := 0, cqTail := 0, phase := true, reserved := 0,
           rangeRaised := false, unsignalled := 0 }

/-- A write of QCFG (R279, R462). -/
def QueuePair.writeCfg (x : QueuePair) (w : AccWidth) (v : BitVec 64) : QueuePair :=
  let y := x.writeAgg w v
  if x.enabled then y
  else
    let z := y.writeSize w v
    if AccWidth.reaches w 63 63 && v.getLsbD 63 && z.mayEnable then z.start else z

/-! ### Event ring (R458) -/

/-- A write of EVR_CFG: ENABLE from 0 to 1 checks ENTRIES and starts the ring; ENABLE 0 stops it. -/
def EvRing.writeCfg (r : EvRing) (v : BitVec 64) : EvRing :=
  if r.enabled then (if v.getLsbD 31 then r else { r with enabled := false })
  else
    let z := { r with entries := BitVec.ofNat 13 (field v 0 13) }
    if v.getLsbD 31 && decide (64 ≤ z.entries.toNat ∧ z.entries.toNat ≤ 4096) then
      { z with enabled := true, head := 0, tail := 0, phase := true }
    else z

/-- Records of an event ring that the host has not released. -/
def EvRing.posted (r : EvRing) : Nat :=
  if r.entries.toNat = 0 then 0 else (r.tail.toNat + r.entries.toNat - r.head.toNat) % r.entries.toNat

/-- A write of EVR_HEAD: a value out of range, or one that would release records not posted, is ignored. -/
def EvRing.writeHead (r : EvRing) (v : BitVec 12) : EvRing :=
  if r.enabled && decide (v.toNat < r.entries.toNat)
      && decide ((v.toNat + r.entries.toNat - r.head.toNat) % r.entries.toNat ≤ r.posted)
  then { r with head := v } else r

/-! ### Bridle (R455) -/

/-- The owner code of a port (Table 17.4). -/
def ownerCode (p : Port) : BitVec 8 := BitVec.ofNat 8 (p.val + 1)

/-- A change of one Bridle cell. -/
def State.onCell (s : State) (c : Fin 64) (f : BridleCell → BridleCell) : State :=
  { s with bridle := s.bridle.set c.val (f s.bridle[c]) c.isLt }

/-- A claim of a free cell by a port: CLAIMS is raised by 1, wrapping at 2⁵⁶. -/
def BridleCell.claim (c : BridleCell) (p : Port) : BridleCell := { owner := ownerCode p, claims := c.claims + 1 }

/-- A write of a Bridle cell by a port (R455). -/
def State.writeCell (s : State) (p : Port) (c : Fin 64) (w : AccWidth) (v : BitVec 64) : State :=
  if s.bridle[c].owner = ownerCode p then
    if AccWidth.reaches w 56 63 && decide (field v 56 8 = 0) then s.onCell c (fun x => { x with owner := 0 }) else s
  else s.raisePort p .bridleForeignWrite

/-! ### Alarm Summary (R459) and Reel control (R460) -/

/-- A W1C write of word `w` of a port's Alarm Summary. -/
def State.clearAlarm (s : State) (p : Port) (word : Nat) (v : BitVec 64) : State :=
  s.onPort p (fun t => { t with alarm := t.alarm &&& ~~~ (BitVec.ofNat 1152 (v.toNat * 2 ^ (64 * word))) })

/-- Freeze the Reel at once by command or register, with its cause (R423); a frozen Reel stays as it is. -/
def State.freezeReel (s : State) (cause : Nat) : State :=
  if s.ev.reelFrozen then s else (s.onEv EventPath.freeze).raiseDev .reelFrozen [.u8 cause]

/-- Thaw a frozen Reel (R423). -/
def State.thawReel (s : State) : State :=
  if s.ev.reelFrozen then (s.onEv (fun v => { v with reelFrozen := false, trigSeen := false })).raiseDev .reelThawed else s

/-! ### Mailbox registers (R305, R456, R457) -/

/-- A submitted request whose opcode no list has, or that no image may serve, is answered at once (R306, R442). -/
def State.answerUnlisted (s : State) (p : Port) : State :=
  let m := s.ports[p].mbx
  if !m.busy || m.held || m.run.isSome || mbxListed (mbxOpcode m.req) then s else
  match s.mbxGate (mbxOpcode m.req) with
  | .answer st => s.respond p st
  | _ => s

/-- A write of 1 to RING. -/
def State.ringMailbox (s : State) (p : Port) : State :=
  if s.ports[p].mbx.busy then (s.onMbx p (fun m => { m with overrun := true })).raisePort p .mailboxOverrun
  else (s.onMbx p (fun m => { m with busy := true, done := false })).answerUnlisted p

/-- A write of request word `w`, ignored while BUSY is 1. -/
def Mailbox.writeReq (m : Mailbox) (w : Nat) (v : BitVec 64) : Mailbox :=
  if m.busy then m
  else { m with req := (m.req &&& ~~~ (BitVec.ofNat 512 ((2 ^ 64 - 1) * 2 ^ (64 * w)))) ||| BitVec.ofNat 512 (v.toNat * 2 ^ (64 * w)) }

/-! ### The whole of BAR0 (Table 17.1) -/

/-- Reset the queue pairs that a mask selects (R454). -/
def State.resetPairs (s : State) (p : Port) (mask : BitVec 64) : State :=
  (List.finRange 64).foldl (fun (t : State) (q : QueueNo) => if mask.getLsbD q.val then t.queueResetOne p q else t) s

/-- A write of a queue doorbell register (R461). -/
def State.writeDoorbell (s : State) (p : Port) (q : QueueNo) (head : Bool) (w : AccWidth) (v : BitVec 64) : State :=
  if AccWidth.reaches w 0 11 then
    let x := BitVec.ofNat 12 (field v 0 12)
    if head then s.writeCqHead p q x else s.writeSqTail p q x
  else s

/-- A write of a register of queue configuration (R462). -/
def State.writeQueueReg (s : State) (p : Port) (q : QueueNo) (off : Nat) (w : AccWidth) (v : BitVec 64) : State :=
  let base := BitVec.ofNat 52 (field v 12 52)
  let free := !s.ports[p].queues[q].enabled && AccWidth.reaches w 12 63
  match off with
  | 0 => if free then s.onQueue p q (fun x => { x with sqBase := base }) else s
  | 8 => if free then s.onQueue p q (fun x => { x with cqBase := base }) else s
  | 16 => s.onQueue p q (fun x => x.writeCfg w v)
  | _ => s

/-- A write of an MSI-X table register (R463): a vector no longer masked sends what was pending. -/
def State.writeMsix (s : State) (p : Port) (i : Fin 65) (ctrl : Bool) (w : AccWidth) (v : BitVec 64) : State :=
  let put := fun (f : MsixEntry → MsixEntry) =>
    s.onPort p (fun t => { t with msix := t.msix.set i.val (f t.msix[i]) i.isLt })
  if !ctrl then
    (if AccWidth.reaches w 2 63 then put (fun e => { e with addr := BitVec.ofNat 62 (field v 2 62) }) else s)
  else
    (put (fun e => { e with data := if AccWidth.reaches w 0 31 then BitVec.ofNat 32 (field v 0 32) else e.data,
                            mask := if AccWidth.reaches w 32 32 then v.getLsbD 32 else e.mask })).sendPending p

/-- A write of a register of BAR0 at an 8-byte aligned offset (Tables 17.1 to 17.10). -/
def State.writeBar0 (s : State) (p : Port) (off : Nat) (w : AccWidth) (v : BitVec 64) : State :=
  if off = 0x0108 then s.resetPairs p (reached w v)
  else if off = 0x0120 then
    (if AccWidth.reaches w 0 7 && decide (field v 0 8 = 0xA5) then s.warmReset .field else s)
  else if h : 0x0200 ≤ off ∧ off < 0x0400 then s.writeCell p ⟨(off - 0x0200) / 8, by omega⟩ w v
  else if 0x0400 ≤ off ∧ off < 0x0440 then
    (if AccWidth.reaches w 0 63 then s.onMbx p (fun m => m.writeReq ((off - 0x0400) / 8) v) else s)
  else if off = 0x0480 then (if AccWidth.reaches w 0 0 && v.getLsbD 0 then s.ringMailbox p else s)
  else if off = 0x0488 then
    (if AccWidth.reaches w 2 2 && v.getLsbD 2 then s.onMbx p (fun m => { m with overrun := false }) else s)
  else if off = 0x0500 then
    (if AccWidth.reaches w 12 63 && !s.ports[p].ring.enabled then s.onRing p (fun r => { r with base := BitVec.ofNat 52 (field v 12 52) })
     else s)
  else if off = 0x0508 then (if AccWidth.reaches w 0 31 then s.onRing p (fun r => r.writeCfg v) else s)
  else if off = 0x0510 then
    (if AccWidth.reaches w 0 11 then s.onRing p (fun r => r.writeHead (BitVec.ofNat 12 (field v 0 12))) else s)
  else if 0x0600 ≤ off ∧ off < 0x0690 then s.clearAlarm p ((off - 0x0600) / 8) (reached w v)
  else if off = 0x0700 then
    (if AccWidth.reaches w 0 12 then s.onPort p (fun t => { t with cursor := BitVec.ofNat 13 (field v 0 13) }) else s)
  else if off = 0x0708 then
    (if AccWidth.reaches w 32 32 && v.getLsbD 32 then s.freezeReel 1
     else if AccWidth.reaches w 33 33 && v.getLsbD 33 then s.thawReel else s)
  else if h : 0x1000 ≤ off ∧ off < 0x1400 then
    s.writeDoorbell p ⟨(off - 0x1000) / 16, by omega⟩ (decide (off % 16 = 8)) w v
  else if h : 0x2000 ≤ off ∧ off < 0x2800 then s.writeQueueReg p ⟨(off - 0x2000) / 32, by omega⟩ (off % 32) w v
  else if h : 0x3000 ≤ off ∧ off < 0x3410 then s.writeMsix p ⟨(off - 0x3000) / 16, by omega⟩ (decide (off % 16 = 8)) w v
  else s

/-! ### The memory control block (Table 13.10) -/

/-- A maintenance operation by its code (Table 13.8); codes 0 and 7 have no effect. -/
def State.maintain (s : State) (code : Nat) : State :=
  match code with
  | 1 => s.maintByAddress 1
  | 2 => s.maintByAddress 2
  | 3 => s.maintByAddress 3
  | 4 => s.maintAll Memory.invalidateAll
  | 5 => s.maintAll Memory.cleanAll
  | 6 => s.maintAll (fun m => m.cleanAll.invalidateAll)
  | _ => s

/-- An 8-byte write of a register of the memory control block. -/
def State.writeControl (s : State) (off : Nat) (v : BitVec 64) : State :=
  if off = 0x000 then s.onCache (fun k => { k with enabled := v.getLsbD 0, prefetch := v.getLsbD 1 })
  else if off = 0x008 then s.onCache (fun k => { k with maintLine := BitVec.ofNat 34 (field v 6 34) })
  else if off = 0x010 then s.maintain (field v 0 3)
  else if off = 0x018 then (if v.getLsbD 3 then s.onCache (fun k => { k with reject := false }) else s)
  else if off = 0x040 then
    s.onMem (fun m =>
      let n := { m with scrubOn := v.getLsbD 0 }
      if v.getLsbD 1 then { n with scrubPos := 0, scrubUe := 0, scrubCe := 0 } else n)
  else if off = 0x048 then s.onMem (fun m => { m with scrubInterval := BitVec.ofNat 32 (field v 0 32) })
  else s

/-- A configuration-space bit that other rules consult takes its new value (R276, R463). -/
def State.writeConfig (s : State) (p : Port) (bit : ConfigBit) (v : Bool) : State :=
  match bit with
  | .relaxedOrdering => s.onPort p (fun t => { t with relaxed := v })
  | .msixEnable => (s.onPort p (fun t => { t with msixEnable := v })).sendPending p
  | .msixFunctionMask => (s.onPort p (fun t => { t with msixMask := v })).sendPending p

end Sys2Proof.Machine
end

