-- ==== Sys2Proof/Machine/HostPort.lean ====
section
/-! DEFINITION. The commands of the host ports: power states (R277), links (R317), port resets (R301), and the register accesses of BAR0, configuration space and the memory control block (R450 to R465, R386). -/

namespace Sys2Proof.Machine

/-! ### Power states and links -/

/-- D3HOT_ENTRY (R277). -/
def execD3hotEntry (p : Port) (s : State) : Res :=
  .next (if s.answers p && !s.ports[p].d3hot then
    (s.onPort p (fun t => { t with d3hot := true })).raisePort p .powerState else s)

/-- The completions and then the vectors that D3hot held are put out, in their order (R277). -/
def State.releaseHeld (s : State) (p : Port) : State :=
  let recs := s.ports[p].held
  let vecs := s.ports[p].heldVectors
  let s1 := s.onPort p (fun t => { t with held := [], heldVectors := [] })
  let s2 := recs.foldl (fun (t : State) c => t.writeRecord p c) s1
  vecs.foldl (fun (t : State) v => if h : v < 65 then t.signal p ⟨v, h⟩ else t) s2

/-- D0_RETURN (R277): every queue, pointer and configuration value is kept. -/
def execD0Return (p : Port) (s : State) : Res :=
  .next (if s.answers p && s.ports[p].d3hot then
    ((s.onPort p (fun t => { t with d3hot := false })).raisePort p .powerState).releaseHeld p else s)

/-- The highest generation and width that a port's page allows (Table 11.13). -/
def State.linkCap (s : State) (p : Port) : Nat × Nat :=
  if p = 0 then (s.dn Param.qpLinkGenA, s.dn Param.qpLinkWidthA) else (s.dn Param.qpLinkGenB, s.dn Param.qpLinkWidthB)

/-- PORT_LINK_UP (R274, R317): the link trains at a generation 1 to 4 and a width 1, 2 or 4 within the page's caps, while the
PCIe PLL runs (R433); below them EV_PORT_LINK_DEGRADED is raised too. -/
def execPortLinkUp (p : Port) (gen width : Fin 5) (s : State) : Res :=
  let cap := s.linkCap p
  .next (if s.answers p && s.sys.pll[3] && !s.sys.pllLost[3] && decide (1 ≤ gen.val ∧ gen.val ≤ cap.1 ∧ width.val ≠ 0 ∧ width.val ≠ 3 ∧ width.val ≤ cap.2) then
    let s1 := (s.onPort p (fun t => { t with linkUp := true, linkGen := gen.val, linkWidth := width.val })).raisePort p
      .portLinkUp [.u8 gen.val, .u8 width.val]
    if gen.val < cap.1 ∨ width.val < cap.2 then s1.raisePort p .portLinkDegraded [.u8 gen.val, .u8 width.val] else s1
  else s)

/-- The link of a port is lost. -/
def State.dropLink (s : State) (p : Port) : State :=
  if s.ports[p].linkUp then
    (s.onPort p (fun t => { t with linkUp := false, linkGen := 0, linkWidth := 0 })).raisePort p .portLinkDown
  else s

/-- PORT_LINK_DOWN (R317). -/
def execPortLinkDown (p : Port) (s : State) : Res := .next (s.dropLink p)

/-! ### Port resets (R301, Table 11.6) -/

/-- HOT_RESET (R301). -/
def execHotReset (p : Port) (s : State) : Res :=
  .next (if s.answers p then (s.portReset p).raisePort p .portReset [.u8 0] else s)

/-- FLR (R301): as a hot reset. -/
def execFlr (p : Port) (s : State) : Res :=
  .next (if s.answers p then (s.portReset p).raisePort p .portReset [.u8 1] else s)

/-- FUNDAMENTAL_RESET (R301): PEx_PERST_N falls; as a hot reset, and the configuration space and link state take their reset
values. -/
def execFundamentalReset (p : Port) (s : State) : Res :=
  .next (if s.answers p then
    ((s.portReset p).dropLink p).onPort p (fun t =>
      { t with msixEnable := PortState.reset.msixEnable, msixMask := PortState.reset.msixMask,
               relaxed := PortState.reset.relaxed, d3hot := false, perst := true })
  else s)

/-- PERST_RELEASE (R301): PEx_PERST_N rises; the link may train again (PORT_LINK_UP, within 20 ms). -/
def execPerstRelease (p : Port) (s : State) : Res := .next (s.onPort p (fun t => { t with perst := false }))

/-! ### Queue registers -/

/-- QUEUE_RESET (R301, R454). -/
def execQueueReset (p : Port) (mask : BitVec 64) (s : State) : Res :=
  .next (if s.answers p then s.resetPairs p mask else s)

/-- SQ_TAIL_WRITE (R281, R461). -/
def execSqTailWrite (p : Port) (q : QueueNo) (v : BitVec 12) (s : State) : Res :=
  .next (if s.answers p then s.writeSqTail p q v else s)

/-- CQ_HEAD_WRITE (R281, R461). -/
def execCqHeadWrite (p : Port) (q : QueueNo) (v : BitVec 12) (s : State) : Res :=
  .next (if s.answers p then s.writeCqHead p q v else s)

/-- QUEUE_ENABLE (R280, R462): an 8-byte write of QCFG. -/
def execQueueEnable (p : Port) (q : QueueNo) (qcfg : BitVec 64) (s : State) : Res :=
  .next (if s.answers p then s.onQueue p q (fun x => x.writeCfg .full qcfg) else s)

/-! ### Event ring registers (R458) -/

/-- EVENT_RING_ENABLE: a write of EVR_CFG. -/
def execEventRingEnable (p : Port) (cfg : BitVec 64) (s : State) : Res :=
  .next (if s.answers p then s.onRing p (fun r => r.writeCfg cfg) else s)

/-- EVENT_RING_DISABLE: ENABLE is written 0, and copying stops at once. -/
def execEventRingDisable (p : Port) (s : State) : Res :=
  .next (if s.answers p then s.onRing p (fun r => { r with enabled := false }) else s)

/-- EVENT_RING_HEAD_WRITE. -/
def execEventRingHeadWrite (p : Port) (v : BitVec 12) (s : State) : Res :=
  .next (if s.answers p then s.onRing p (fun r => r.writeHead v) else s)

/-! ### Bridle (R455) -/

/-- An 8-byte read of a cell by one port: of a free cell it claims it, and returns it as it was (R455). -/
def State.readCell (s : State) (p : Port) (cell : Fin 64) : State :=
  let c := s.bridle[cell]
  (if c.owner = 0 then s.onCell cell (fun x => x.claim p) else s).emit (.regRead p (BitVec.ofNat 64 c.word))

/-- BRIDLE_READ: an 8-byte read of a free cell claims it; with `tie`, the other port reads the cell in the same cycle, and of
a free cell the port that lost the last tie, or port A, is the winner. The values read are put out, the winner's first. -/
def execBridleRead (p : Port) (cell : Fin 64) (width : AccWidth) (tie : Bool) (s : State) : Res :=
  if !s.answers p then .next s else
  let c := s.bridle[cell]
  let shown := BitVec.ofNat 64 c.word
  let other : Port := 1 - p
  if width ≠ .full then .next (s.emit (.regRead p (reached width shown)))
  else if !tie then .next (s.readCell p cell)
  else if c.owner ≠ 0 then .next ((s.emit (.regRead p shown)).emit (.regRead other shown))
  else
    let win := s.bridleTie
    let lose : Port := 1 - win
    let n := c.claim win
    .next ((({ s.onCell cell (fun _ => n) with bridleTie := lose }).emit (.regRead win shown)).emit
      (.regRead lose (BitVec.ofNat 64 n.word)))

/-- BRIDLE_WRITE (R315, R455). -/
def execBridleWrite (p : Port) (cell : Fin 64) (width : AccWidth) (v : BitVec 64) (s : State) : Res :=
  .next (if s.answers p then s.writeCell p cell width v else s)

/-! ### Alarm Summary and Reel -/

/-- ALARM_CLEAR (R421, R459). -/
def execAlarmClear (p : Port) (word : Fin 18) (v : BitVec 64) (s : State) : Res :=
  .next (if s.answers p then s.clearAlarm p word.val v else s)

/-- REEL_FREEZE_BIT (R423, R460). -/
def execReelFreezeBit (p : Port) (s : State) : Res := .next (if s.answers p then s.freezeReel 1 else s)

/-- REEL_THAW_BIT (R423, R460). -/
def execReelThawBit (p : Port) (s : State) : Res := .next (if s.answers p then s.thawReel else s)

/-- An 8-byte read of the last window word returns it, and then the cursor advances by 1 modulo 8,192 (R424, R460). -/
def State.readWindowEnd (s : State) (p : Port) : State :=
  (s.emit (.regRead p (BitVec.ofNat 64 (s.bar0 p 0x0778)))).onPort p (fun t => { t with cursor := t.cursor + 1 })

/-- REEL_WINDOW_ADVANCE (R424, R460). -/
def execReelWindowAdvance (p : Port) (s : State) : Res := .next (if s.answers p then s.readWindowEnd p else s)

/-! ### Other accesses -/

/-- A BAR0 access is naturally aligned and of 4 or 8 bytes (R275). -/
def accessOk (offset : BitVec 16) (size : Nat) : Bool := decide ((size = 4 ∨ size = 8) ∧ offset.toNat % size = 0)

/-- A read of a register of BAR0, with the two side effects that an 8-byte read has (R451). -/
def State.readBar0 (s : State) (p : Port) (offset : BitVec 16) (size : Nat) : State :=
  let off := offset.toNat
  let w := BitVec.ofNat 64 (s.bar0 p (off / 8 * 8))
  if size ≠ 8 then s.emit (.regRead p (reached (if off % 8 = 0 then .low else .high) w))
  else if h : 0x0200 ≤ off ∧ off < 0x0400 then s.readCell p ⟨(off - 0x0200) / 8, by omega⟩
  else if off = 0x0778 then s.readWindowEnd p
  else s.emit (.regRead p w)

/-- BAR0_BAD_ACCESS (R275): a read ends in Unsupported Request and a write is discarded; a read of the right size returns its
register. -/
def execBar0BadAccess (p : Port) (isRead : Bool) (offset : BitVec 16) (size : Nat) (s : State) : Res :=
  .next (if !s.answers p || !isRead then s
    else if accessOk offset size then s.readBar0 p offset size
    else s.emit (.unsupported p offset))

/-- REGISTER_WRITE (R8, R386, R450): a write acts as the access code of each field it reaches states. -/
def execRegisterWrite (sp : RegSpace) (offset : BitVec 16) (width : AccWidth) (v : BitVec 64) (s : State) : Res :=
  .next (match sp with
    | .bar0 p => if s.answers p then s.writeBar0 p offset.toNat width v else s
    | .memctl => if s.coresRun && decide (width = .full) then s.writeControl offset.toNat v else s
    | .config p bit => if s.answers p then s.writeConfig p bit (v.getLsbD 0) else s)

end Sys2Proof.Machine
end

