-- ==== Sys2Proof/Machine/Io.lean ====
section
/-! DEFINITION. The I/O commands: fetch (R282, R285, R287), eligibility (R296), the opcodes of Table 11.4, the bounded waits (R291, R293), MSI-X aggregation (R284) and failed host memory reads (R278). -/

namespace Sys2Proof.Machine

/-! ### Fetching (R282, R285, R287) -/

/-- A pair may be served by arbitration: enabled, not halted, with a command waiting and a completion slot to reserve. -/
def QueuePair.fetchable (q : QueuePair) : Bool := q.enabled && !q.halted && decide (q.sqHead ≠ q.sqTail ∧ 0 < q.slots)

/-- The pair that arbitration serves: the first fetchable one after the one last served, round robin (R282). -/
def PortState.nextPair (t : PortState) : Option QueueNo :=
  ((List.range 64).map (fun k => (t.lastServed.val + 1 + k) % 64)).findSome? (fun i =>
    if h : i < 64 then (if t.queues[i].fetchable then some ⟨i, h⟩ else none) else none)

/-- The port fetches commands in the present mode (Table 11.6): the serving modes, QUIESCE and SANITIZE. -/
def State.fetches (s : State) (p : Port) : Bool :=
  (s.sys.mode.serving || decide (s.sys.mode = .quiesce ∨ s.sys.mode = .sanitize))
    && s.ports[p].linkUp && !s.ports[p].d3hot && !s.ports[p].perst

/-- What a Cancel does to its target, evaluated at its fetch (R300): 0 cancelled, 1 started or finished, 2 not found. A finished
command is one whose record waits for D0. -/
def State.cancelTarget (s : State) (p : Port) (spec : BitVec 64) : State × Nat :=
  let q : QueueNo := ⟨spec.toNat % 64, Nat.mod_lt _ (by decide)⟩
  let cid := BitVec.ofNat 16 (spec.toNat / 65536)
  match s.cmds.find? (fun c => decide (c.id = ⟨false, p, q, cid⟩) && !c.dropped) with
  | some c => if c.started then (s, 1) else (s.complete c.id 0x42 0, 0)
  | none => (s, if s.ports[p].held.any (fun h => decide (h.queue = q ∧ h.cid = cid)) then 1 else 2)

/-- The clusters of the Writes to a volume whose completions a queue has posted and that no disc holds yet (R294, R295);
`staged`, those already on NAND count too. -/
def Staging.tagged (g : Staging) (vid : VolId) (q : Bool × Port × QueueNo) (staged : Bool) : List (VolId × Nat) :=
  (g.dirty.filter (fun d => decide (d.vid = vid) && d.queues.contains q)).map (fun d => (d.vid, d.ucl))
    ++ (if staged then (g.map.filter (fun e => decide (e.vid = vid) && e.queues.contains q)).map (fun e => (e.vid, e.ucl)) else [])

/-- Take a fetched command: its place in the order, its volume's durability code, whether a hazard stands, and what a Cancel, a
Flush or a Destage fixes at fetch. -/
def State.takeCmd (s : State) (id : CmdId) (r : BitVec 512) : State :=
  let order := s.sys.fetched
  let code := match s.vol? (recVid r) with | some v => v.durability | none => 0
  let c := cmdOf id order code r
  let tag := (id.peer, id.port, id.queue)
  let s0 := s.onSys (fun y => { y with fetched := y.fetched + 1 })
  let (s1, done) : State × List (Nat × Byte) :=
    if c.opcode = 5 then
      let (t, res) := s0.cancelTarget id.port c.spec
      (t, [(res, 0)])
    else (s0, [])
  let c1 := { c with done := done, eligible := s1.noHazard c,
                     cover := if c.opcode = 3 then s1.stg.tagged c.vid tag false
                              else if c.opcode = 8 then s1.stg.tagged c.vid tag true else [] }
  { s1 with cmds := s1.cmds ++ [c1] }

/-- The result of a record that is not executed (Table 11.4). -/
def unservedResult (r : BitVec 512) : BitVec 64 :=
  match (recOpcode r).toNat with
  | 1 => BitVec.ofNat 64 (recLba r * 2 ^ 32)
  | 4 => 0xFFFFFFFF00000000
  | _ => 0

/-- Fetch one command record from a pair: the head advances and a completion slot is reserved; a record that breaches R285 to
R287 completes at once, as does every one in SANITIZE (Table 11.6) and while settlement is awaited (R407). -/
def State.fetchOne (s : State) (p : Port) (q : QueueNo) : HostRecord → State
  | .err _ => s.haltQueue p q
  | .ok r =>
    let id : CmdId := ⟨false, p, q, recCid r⟩
    let dup := s.cmds.any (fun c => decide (c.id = id) && !c.dropped)
    let known := (s.vol? (recVid r)).isSome
    let s1 := s.onQueue p q (fun x => { x with sqHead := ringNext x.sqHead x.entries, reserved := x.reserved + 1 })
    let st : Option Byte := match recordStatus r dup known with
      | some b => some b
      | none => if s.sys.mode = .sanitize then some 0x32 else if s.pair.awaiting then some 0x26 else none
    match st with
    | some b => s1.post p { queue := q, cid := recCid r, result := unservedResult r, status := b }
    | none => s1.takeCmd id r

/-- Fetch the records of a turn, until one could not be read. -/
def State.fetchAll (s : State) (p : Port) (q : QueueNo) (recs : List HostRecord) : State :=
  recs.foldl (fun t r => if t.ports[p].queues[q].halted then t else t.fetchOne p q r) s

/-- COMMAND_FETCH (R282): one turn of arbitration of a port, over the records that host memory returns. -/
def execCommandFetch (p : Port) (recs : List HostRecord) (s : State) : Res :=
  .next (if s.fetches p then
    match s.ports[p].nextPair with
    | none => s
    | some q =>
      let x := s.ports[p].queues[q]
      let n := min (s.dn Param.qpFetchBurst) (min x.waiting x.slots)
      if recs.isEmpty then s
      else (s.onPort p (fun t => { t with lastServed := q })).fetchAll p q (recs.take n)
  else s)

/-- COMMAND_ELIGIBLE (R296): no earlier overlapping command of its queue remains. -/
def execCommandEligible (id : CmdId) (s : State) : Res :=
  .next (match s.cmd? id with
    | some c => if s.noHazard c then s.onCmd id (fun x => { x with eligible := true }) else s
    | none => s)

/-! ### The opcodes (Table 11.4) -/

/-- The volume of a command and the command, where it may be served. -/
def State.served (s : State) (id : CmdId) (o : Nat) : Option (Cmd × Volume) :=
  match s.runnable id o with
  | some c => match s.vol? c.vid with
    | some v => some (c, v)
    | none => none
  | none => none

/-- A command whose volume no longer exists completes with 0x13 (R310). -/
def State.orUnknown (s : State) (id : CmdId) (o : Nat) : State :=
  match s.runnable id o with
  | some _ => s.complete id 0x13 0
  | none => s

/-- READ (R22, R286, R292, R293, R399). -/
def execRead (id : CmdId) (ext : ExtentRead) (s : State) : Res :=
  .next (match s.served id 1 with
    | none => s.orUnknown id 1
    | some (c, v) =>
      match (if c.id.peer then none else extentErr ext), (if c.id.peer then none else extentsStatus c ext) with
      | some e, _ => s.dmaFail id e
      | none, some st => s.complete id st 0
      | none, none =>
        let t := s.onCmd id (fun x => { x with exts := c.extentsOf ext })
        if v.ownPeer then t.forward c [] else t.serveRead c v)

/-- The status that a Write's host memory gives before it is applied (R278, R286). -/
def State.writeFetch (s : State) (c : Cmd) (ext : ExtentRead) (data : WriteData) : State × Option (List SectorData) :=
  if c.id.peer then (s, some c.data) else
  match extentErr ext, extentsStatus c ext, data with
  | some e, _, _ => (s.dmaFail c.id e, none)
  | none, some st, _ => (s.complete c.id st 0, none)
  | none, none, .err e => (s.dmaFail c.id e, none)
  | none, none, .ok xs => if xs.length = c.count then (s, some xs) else (s, none)

/-- WRITE (R290, R291, R330, R398, R399). A Write that waits for staging space is checked again. -/
def execWrite (id : CmdId) (ext : ExtentRead) (data : WriteData) (s : State) : Res :=
  let s0 := match s.cmd? id with
    | some c => if c.opcode = 2 ∧ c.wait = CmdWait.space ∧ s.mayStart then s.setWait id .none else s
    | none => s
  .next (match s0.served id 2 with
    | none => s.orUnknown id 2
    | some (c, v) =>
      match s0.writeFetch c ext data with
      | (t, none) => t
      | (t, some xs) => if v.ownPeer then t.forward c xs else t.serveWrite c v xs)

/-- A Flush is served: it waits until its clusters are on NAND and the journal that names them is durable (R294, R340). -/
def State.serveFlush (s : State) (c : Cmd) : State :=
  let left := c.cover.filter (fun x => (s.stg.dirty? x.1 x.2).isSome)
  if left.isEmpty && s.stg.journal.isEmpty then s.complete c.id 0x00 0
  else s.onCmd c.id (fun x => { x with started := true, wait := .staged, cover := left })

/-- FLUSH (R294). -/
def execFlush (id : CmdId) (s : State) : Res :=
  .next (match s.served id 3 with
    | none => s.orUnknown id 3
    | some (c, v) => if v.ownPeer then s.forward c [] else s.serveFlush c)

/-- VERIFY (R287): staged copies by their NAND codewords, disc copies under R138; nothing is transferred. -/
def execVerify (id : CmdId) (s : State) : Res :=
  .next (match s.served id 4 with
    | none => s.orUnknown id 4
    | some (c, v) => if v.ownPeer then s.forward c [] else s.serveRead c v)

/-- CANCEL (R300): the completion of a Cancel, evaluated at its fetch; 0x40 when its target's queue was reset since
(Table 11.7). -/
def execCancel (id : CmdId) (s : State) : Res :=
  .next (match s.runnable id 5 with
    | some c => match c.done with
      | (res, st) :: _ => s.complete id st (BitVec.ofNat 64 res)
      | [] => s
    | none => s)

/-- A Prefetch is served (R143, R293): on a mounted disc the Updraft start from its LBA is ordered; otherwise the mount is. -/
def State.servePrefetch (s : State) (c : Cmd) : State :=
  match s.servedIn c.vid with
  | some b =>
    let depth := if c.count = 0 then s.bn b Param.decUpdDepth else c.count
    (s.onDec b (fun d => { d with updraftFrom := some (homeOf (c.lba / 16), depth) })).complete c.id 0x00 0
  | none =>
    if !bitAt c.flags 0 then s.complete c.id 0x20 0
    else
      let s1 := (s.setWait c.id .mount).placeDisc c.vid
      if s1.discIn c.vid |>.isSome then s1.complete c.id 0x00 0
      else if (s1.cmd? c.id).isSome && s1.moveBusy && !s.moveBusy then s1.complete c.id 0x00 0
      else s1

/-- PREFETCH (R143, R293). -/
def execPrefetch (id : CmdId) (s : State) : Res :=
  .next (match s.served id 6 with
    | none => s.orUnknown id 6
    | some (c, v) => if v.ownPeer then s.forward c [] else s.servePrefetch c)

/-- DESTAGE (R295). -/
def execDestage (id : CmdId) (s : State) : Res :=
  .next (match s.served id 8 with
    | none => s.orUnknown id 8
    | some (c, v) => if v.ownPeer then s.forward c [] else s.serveDestage c v)

/-- MOUNT (R293, R485): the volume's disc is READY already, or is placed. -/
def execMount (id : CmdId) (s : State) : Res :=
  .next (match s.served id 9 with
    | none => s.orUnknown id 9
    | some (c, v) =>
      if v.ownPeer then s.forward c []
      else match s.servedIn c.vid with
        | some b => s.complete id 0x00 (BitVec.ofNat 64 b.val)
        | none => (s.setWait id .mount).placeDisc c.vid)

/-- The Unmount of a disc that no bay holds: it is home, or the handler brings it there (R241, R295). -/
def State.unmountLoose (s : State) (c : Cmd) (v : Volume) : State :=
  if v.location = v.slot then s.complete c.id 0x00 0
  else if s.moveBusy then s
  else match s.orderMove v.location v.slot with
    | (s1, none) => s1.onCmd c.id (fun x => { x with started := true, wait := .unmount })
    | (s1, some _) => s1.complete c.id 0x26 0

/-- UNMOUNT (R241, R295): it starts only when no started command of its volume remains. -/
def execUnmount (id : CmdId) (s : State) : Res :=
  .next (match s.served id 10 with
    | none => s.orUnknown id 10
    | some (c, v) =>
      if v.ownPeer then s.forward c []
      else if s.cmds.any (fun d => decide (d.vid = c.vid ∧ d.id ≠ id) && d.started) then s
      else match s.discIn c.vid with
        | some b =>
          if s.bays[b].seq.unmounting.isSome ∨ s.bays[b].seq.st = .unloading then
            s.onCmd id (fun x => { x with started := true, wait := .unmount })
          else (s.onCmd id (fun x => { x with started := true, wait := .unmount })).orderUnmount b (some id)
        | none => s.unmountLoose c v)

/-- The word that Locate reports for a disc copy (Table 11.5). -/
def locateDisc (loc : BitVec 16) (repl : Bool) (addr : ClusterAddr) (bay code : Nat) : BitVec 64 :=
  BitVec.ofNat 64 (loc.toNat * 2 ^ 48 + b2n repl * 2 ^ 42 + addr.toNat * 2 ^ 16 + bay * 16 + code)

/-- The result of Locate (R288, Table 11.5). What an unmounted disc's defect list holds, and a cluster whose ranges are not
known, are not known to the device: those fields are free (log entry 49). -/
def State.locate (s : State) (v : Volume) (lba : Nat) : BitVec 64 × State :=
  let u := lba / 16
  match s.copyOf v lba with
  | .dram _ => (0xF1, s)
  | .nand _ => (0xF2, s)
  | .lost => (0xF2, s)
  | .zeros => (0xF0, s)
  | .disc =>
    match s.mountedIn v.vid with
    | some b =>
      let a := s.bays[b].readAddr u
      (locateDisc v.location (decide (a ≠ homeOf u)) a b.val 3, s)
    | none =>
      let (x, s1) := s.freeInt 7
      let (y, s2) := s1.freeInt 8
      let addr := BitVec.ofNat 26 x.toNat
      if !v.known && decide (y % 2 = 0) then (0xF0, s2)
      else (locateDisc v.location (decide (addr ≠ homeOf u)) addr 15 4, s2)

/-- LOCATE (R288). -/
def execLocate (id : CmdId) (s : State) : Res :=
  .next (match s.served id 11 with
    | none => s.orUnknown id 11
    | some (c, v) =>
      if v.ownPeer then s.forward c []
      else
        let (r, s1) := s.locate v c.lba
        s1.complete id 0x00 r)

/-! ### Bounded waits (R291, R293, R298) -/

/-- MOUNT_WAIT_EXPIRY (R293): QP.MOUNT_WAIT has passed since the command became eligible. -/
def execMountWaitExpiry (id : CmdId) (s : State) : Res :=
  .next (match s.cmd? id with
    | some c => if c.wait = CmdWait.mount then (s.expired id 1).complete id 0x21 0 else s
    | none => s)

/-- SPACE_WAIT_EXPIRY (R291): QP.SPACE_WAIT has passed; for a Write that waits for its mirror copy's room too (R398). -/
def execSpaceWaitExpiry (id : CmdId) (s : State) : Res :=
  .next (match s.cmd? id with
    | some c => match c.wait with
      | .space => (s.expired id 0).complete id 0x30 0
      | .mirror _ => (s.expired id 0).complete id 0x30 0
      | _ => s
    | none => s)

/-! ### MSI-X aggregation (R284) and failed reads (R278) -/

/-- AGGREGATION_TIMER (R284): the aggregation time has passed since the first record not signalled. -/
def execAggregationTimer (p : Port) (q : QueueNo) (s : State) : Res :=
  .next (if 0 < s.ports[p].queues[q].unsignalled then s.signalQueue p q else s)

/-- HOST_READ_ERROR (R278): a host memory read ends in an error; what it was reading decides. -/
def execHostReadError (p : Port) (what : DmaTarget) (e : DmaErr) (s : State) : Res :=
  .next (match what with
    | .record q => if s.ports[p].queues[q].enabled && !s.ports[p].queues[q].halted then s.haltQueue p q else s
    | .data q cid =>
      match s.cmd? ⟨false, p, q, cid⟩ with
      | some c => if c.opcode.toNat = 1 ∨ c.opcode.toNat = 2 then
          (if c.wait = CmdWait.none ∨ c.wait = CmdWait.space then s.dmaFail c.id e else s) else s
      | none => s
    | .mailbox =>
      let m := s.ports[p].mbx
      if m.busy && m.run.isNone then
        (s.raisePort p .dmaError [.u16 (mbxTag m.req).toNat]).respond p (dmaStatus e)
      else s)

end Sys2Proof.Machine
end

