-- ==== Sys2Proof/Machine/Pair.lean ====
section
/-! DEFINITION. The commands of the Tether and the pair (14_pair_operation.md). -/

namespace Sys2Proof.Machine

/-! ### The link (R391 to R394) -/

/-- The Tether's clock runs (R433). -/
def State.tetherClock (s : State) : Bool :=
  decide (2 ≤ s.sys.mode.code) && s.sys.imageRuns && s.sys.pll[4] && !s.sys.pllLost[4]

/-- The width that trains (R391): 4 with every lane in service, else 2 on a pair of lanes, else 1, as PAIR.LANES allows. -/
def trainedWidth (lanes : BitVec 4) (limit : Nat) : Nat :=
  let on := fun (i : Nat) => lanes.getLsbD i
  if on 0 && on 1 && on 2 && on 3 && decide (4 ≤ limit) then 4
  else if ((on 0 && on 1) || (on 2 && on 3)) && decide (2 ≤ limit) then 2
  else if lanes = 0 then 0 else 1

/-- TETHER_TRAINING_START (R391): training begins from down. -/
def execTetherTrainingStart (s : State) : Res :=
  if s.tetherClock && decide (s.pair.link = .down) && decide (s.pair.lanes ≠ 0) then
    .next (s.onPair (fun q => { q with link := .training }))
  else .next s

/-- TETHER_TRAINING_DONE (R391, R407): the link is up at the width its lanes allow, the ends exchange identity and
release by control flits, EV_TETHER_UP gives width and lanes, and replay resumes from the last acknowledged flit (R394). A device awaiting
settlement raises EV_PEER_RETURNED. -/
def execTetherTrainingDone (peerIdentity peerRelease : BitVec 32) (s : State) : Res :=
  if s.pair.link ≠ .training then .next s else
  let w := trainedWidth s.pair.lanes (s.dn Param.pairLanes)
  let s1 := (s.onPair (fun q => { q with link := .up, width := w, failed := 0, replays := 0, badLanes := 0,
                                         peerIdentity := peerIdentity, peerRelease := peerRelease })).raiseDev .tetherUp
    [.u8 w, .u8 s.pair.lanes.toNat]
  let s2 := s1.pair.unacked.foldl (fun (t : State) x => t.putFlit x.1 x.2 true) s1
  let s3 := s2.sendFirst 0x30 (leBytes 4 Config.identity.toNat ++ leBytes 4 s.sys.release.toNat)
  .next (if s3.pair.awaiting then s3.raiseDev .peerReturned else s3)

/-- TETHER_TRAINING_TIMEOUT (R391): training that has not ended in 60 µs is retried; three failures in a row leave the link
down until the next start. -/
def execTetherTrainingTimeout (s : State) : Res :=
  if s.pair.link ≠ .training then .next s
  else if s.pair.failed + 1 < 3 then .next (s.onPair (fun q => { q with failed := q.failed + 1 }))
  else .next (s.tetherStops .down)

/-- The flit types of Table 14.3. -/
def flitListed (k : Byte) : Bool := [0, 1, 2, 0x10, 0x11, 0x12, 0x13, 0x20, 0x21, 0x22, 0x30].contains k.toNat

/-- Send a NAK that names the sequence expected (R393). -/
def State.sendNak (s : State) : State :=
  s.sendFirst 0x02 (leBytes 2 s.pair.expected.toNat)

/-- The lowest lane in a mask; 0xFF for none. -/
def lowLane (m : BitVec 4) : Nat := match (List.range 4).find? (fun i => m.getLsbD i) with | some i => i | none => 255

/-- The acknowledgement of a flit releases what it covers, and waiting flits are sent (R393). -/
def State.takeAck (s : State) (ack : BitVec 16) : State :=
  if s.pair.unacked.any (fun x => decide (x.1 = ack)) then
    let s1 := s.onPair (fun q => { q with acked := ack, unacked := (q.unacked.dropWhile (fun x => !decide (x.1 = ack))).drop 1 })
    s1.pumpAll
  else s

/-- A flit that fails its CRC (R394): a NAK asks for the replay; a second failure that names the same lane is persistent for
that lane; after 8 replays with no common lane the link goes down and retrains. -/
def State.badFlit (s : State) (bad : BitVec 4) : State :=
  let s0 := s.onPair (fun q => { q with laneFails := Vector.ofFn (fun (i : Fin 4) => q.laneFails[i] + b2n (bad.getLsbD i.val)) })
  let common := s.pair.badLanes &&& bad
  if s.pair.replays = 0 then (s0.onPair (fun q => { q with replays := 1, badLanes := bad })).sendNak
  else if common ≠ 0 then
    let lane := lowLane common
    let retire := decide (s0.dp Param.polRetireTetherLane = 1)
    let s1 := (s0.raiseDev .tetherLaneRetireProposed).logRetry (DevEvent.source .tetherLaneRetireProposed) 5 true
      (if retire then 2 else 1) (BitVec.ofNat 64 lane)
    if retire then
      let needs := fun (mask : Nat) => mask.testBit lane
      ((((s1.onPair (fun q => { q with lanes := setBit q.lanes lane false })).tetherStops .training).raiseDev .tetherLaneRetired).testLoses 5
        needs).testLoses 6 needs
    else (s1.onPair (fun q => { q with replays := 1, badLanes := bad })).sendNak
  else if s.pair.replays < 8 then
    (s0.onPair (fun q => { q with replays := q.replays + 1, badLanes := bad })).sendNak
  else
    let s1 := (s0.logRetry (DevEvent.source .tetherDown) 5 true 4 0xFF).raiseDev .tetherDown
    (s1.tetherStops .down).onPair (fun q => { q with link := .training })

/-- The CRC-32 of a received flit holds (Table 14.2). -/
def flitGood (bytes : List Byte) : Bool :=
  decide (bytes.length = 256 ∧ crc32 (bytes.take 252) = ofLeBytes (bytes.drop 252))

/-- The lanes whose checks a received flit fails. -/
def flitBadLanes (used : List Nat) (bytes : List Byte) : BitVec 4 :=
  let want := laneChecks (bytes.take 248) used
  BitVec.ofNat 4 (((List.range 4).filter (fun n => used.contains n && decide (bytes[248 + n]? ≠ want[n]?))).map (2 ^ ·)).sum

/-- FLIT_RECEIVE (R393, R394): a flit whose CRC holds and whose sequence is the one expected is accepted and acknowledged, by an idle
flit where nothing else goes out, and a replay that passes counts as a transient failure; one of an unlisted type counts as a CRC
failure (R392); one out of sequence is discarded with a NAK. Idle flits carry no sequence. -/
def execFlitReceive (bytes : List Byte) (s : State) : Res :=
  if s.pair.link ≠ .up then .next s
  else
    let kind := bytes.headD 0
    let seq : BitVec 16 := BitVec.ofNat 16 (ofLeBytes ((bytes.drop 2).take 2))
    let ack : BitVec 16 := BitVec.ofNat 16 (ofLeBytes ((bytes.drop 4).take 2))
    if !flitGood bytes || !flitListed kind then .next (s.badFlit (flitBadLanes (usedLanes s.pair.lanes s.pair.width) bytes))
    else
      let s1 := s.takeAck ack
      if kind = 0 then .next s1
      else if seq ≠ s.pair.expected then .next s1.sendNak
      else
        let s2 := s1.onPair (fun q => { q with expected := q.expected + 1 })
        let s3 := s2.putFlit 0 { kind := 0, last := true, payload := [] } false
        if s.pair.replays = 0 then .next s3
        else
          .next (((s3.onPair (fun q => { q with replays := 0, badLanes := 0, crcCount := satInc 0xFFFFFFFF q.crcCount })).raiseDev
            .tetherCrc).logRetry (DevEvent.source .tetherCrc) 5 false 0 (BitVec.ofNat 64 (lowLane s.pair.badLanes)))

/-- Replay held flits in order (R393). -/
def State.replay (s : State) (xs : List (BitVec 16 × TetherFlit)) : State :=
  xs.foldl (fun (t : State) x => t.putFlit x.1 x.2 true) s

/-- NAK_RECEIVE (R393): the sender replays from the flit named, in order. -/
def execNakReceive (seq : BitVec 16) (s : State) : Res :=
  if s.pair.link ≠ .up then .next s
  else .next (s.replay (s.pair.unacked.dropWhile (fun x => !decide (x.1 = seq))))

/-- ACK_TIMEOUT (R393): with no acknowledgement within 5 µs the sender replays from its oldest unacknowledged flit. -/
def execAckTimeout (s : State) : Res :=
  if s.pair.link ≠ .up then .next s else .next (s.replay s.pair.unacked)

/-! ### Indications (R395, R396, R400) -/

/-- HEARTBEAT_SEND (R395): while the Keel watchdog is serviced and PEER_OK is active, a heartbeat goes out ahead of queued traffic.
Its fields stand in the order of R395 (log entry 112). -/
def execHeartbeatSend (s : State) : Res :=
  if s.pair.link ≠ .up || !s.pair.peerOk || s.sys.parking || s.sys.parked then .next s else
  let q := s.pair
  .next ((s.onPair (fun q => { q with hbCount := q.hbCount + 1 })).sendFirst 0x01
    (leBytes 4 Config.identity.toNat ++ leBytes 1 s.sys.mode.code ++ leBytes 3 q.role.seq.toNat
      ++ leBytes 1 (boolMask [q.peerOk, q.peerOkIn, q.degraded]) ++ leBytes 4 (q.hbCount + 1).toNat))

/-- HEARTBEAT_RECEIVE (R395, R400, R401): the heartbeat timer restarts; a second heartbeat after PEER_OK_IN fell decides a
broken wire; with the Tether-degraded latch set, a live heartbeat starts the resync. -/
def execHeartbeatReceive (h : Heartbeat) (s : State) : Res :=
  if s.pair.link ≠ .up then .next s else
  let s1 := s.onPair (fun q =>
    { q with hbLive := true, peerHb := some h, hbSince := if q.peerOkIn then 0 else min 2 (q.hbSince + 1),
             lostRaised := if q.peerOkIn then false else q.lostRaised })
  let s2 := if s1.judges && !s1.pair.peerOkIn && decide (s1.pair.hbSince = 2) && !s1.pair.brokenWire then
      (s1.onPair (fun q => { q with brokenWire := true })).raiseDev .peerOkWire
    else s1
  if s2.pair.degraded && s2.pair.resync.isNone && s2.judges && decide (s2.sys.mode ≠ .vent) then .next s2.startTetherResync
  else .next s2

/-- HEARTBEAT_MISSING (R400, Table 14.5): the heartbeat timer has reached 200 µs. -/
def execHeartbeatMissing (s : State) : Res :=
  if !s.pair.hbLive then .next s else
  let s1 := s.onPair (fun q => { q with hbLive := false })
  if decide (s1.pair.resync = some .join) then .next (s1.failJoin 0x50)
  else if !s1.judges then .next s1
  else if s1.pair.peerOkIn then .next (if s1.pair.degraded then s1.onPair (fun q => { q with resync := none }) else s1.degrade)
  else .next s1.judgeBoth

/-- PEER_OK_IN_CHANGE (R396, R400): `samples` consecutive samples at a new level, accepted from PAIR.PEER_OK_FILTER on; its fall raises EV_PEER_OK_LOST while heartbeats are live, and decides
with a missing heartbeat. -/
def execPeerOkInChange (level : Bool) (samples : Nat) (s : State) : Res :=
  if s.pair.peerOkIn = level ∨ samples < s.dn Param.pairPeerOkFilter then .next s else
  let s1 := s.onPair (fun q => { q with peerOkIn := level, hbSince := 0, lostRaised := if level then false else q.lostRaised })
  if level then .next s1
  else if !s1.judges then .next s1
  else if s1.pair.hbLive then .next (s1.raiseDev .peerOkLost)
  else .next s1.judgeBoth

/-- BROKEN_WIRE_CLEAR (R400): PEER_OK_IN has been active for 1 s. -/
def execBrokenWireClear (s : State) : Res :=
  if s.pair.peerOkIn then .next (s.onPair (fun q => { q with brokenWire := false })) else .next s

/-! ### Takeover (R402 to R404) -/

/-- TAKEOVER_ROLE_WRITE (R402): role 3, with the pair sequence one higher; a role word already written for this takeover does
not raise it again (R408). -/
def execTakeoverRoleWrite (s : State) : Res :=
  match s.pair.takeover with
  | some t =>
    if s.sys.mode = .takeover ∧ t.roleWritten = false then
      .next ((s.setPairRole { s.pair.role with role := 3, seq := s.pair.role.seq + 1 }).onPair (fun q =>
        { q with takeover := some { t with roleWritten := true } }))
    else .next s
  | none => .next s

/-- OWNERSHIP_COMMIT (R402): in one Vent descriptor commit the peer's volumes become the survivor's, and their mirror copies
its dirty and staged data. -/
def execOwnershipCommit (s : State) : Res :=
  match s.pair.takeover with
  | some t =>
    if s.sys.mode = .takeover ∧ t.roleWritten ∧ t.committed = false then
      let took := (s.vols.filter (fun v => v.ownPeer)).map (·.vid)
      let s1 := { s with vols := s.vols.map (fun (v : Volume) => { v with ownPeer := false }) }
      let s2 := s1.onStg (fun g => { g with dirty := g.dirty.map (fun d => { d with mirror := false }), mirrored := [] })
      let s3 := s2.onFlash (fun f => { f with pairVolumes := s2.vols.map (·.vid) })
      .next ((s3.onPair (fun q => { q with taken := took, takeover := some { t with committed := true } })).saveVols)
    else .next s
  | none => .next s

/-- FORWARD_RESOLVE (R403): a forwarded Write whose mirror copy was committed completes with 0x00, a Flush is executed afresh,
and every other forwarded command completes with 0x43. -/
def execForwardResolve (s : State) : Res :=
  match s.pair.takeover with
  | some t =>
    if s.sys.mode = .takeover ∧ t.committed ∧ t.resolved = false then
      let xs := s.cmds.filter (fun c => decide (c.wait = .forwarded))
      let s1 := xs.foldl (fun u c =>
        if c.opcode = 2 then u.complete c.id (if c.cover.isEmpty then 0x00 else 0x43) 0
        else if c.opcode = 3 then u.setWait c.id .none
        else u.complete c.id 0x43 0) s
      .next ((s1.failForwardedMove 0x43).onPair (fun q => { q with takeover := some { t with resolved := true } }))
    else .next s
  | none => .next s

/-- TAKEOVER_DONE (R402): mode PAIRED_DEGRADED, fetching resumes, EV_TAKEOVER_DONE. -/
def execTakeoverDone (s : State) : Res :=
  match s.pair.takeover with
  | some t =>
    if s.sys.mode = .takeover ∧ t.resolved then
      .next (((s.setMode .pairedDegraded).onPair (fun q => { q with takeover := none })).raiseDev .takeoverDone)
    else .next s
  | none => .next s

/-- DARK_WAIT_EXPIRY (R404): PAIR.DARK_WAIT has passed since detection. -/
def execDarkWaitExpiry (s : State) : Res :=
  if (s.sys.mode = .pairedDegraded ∨ s.sys.mode = .takeover) ∧ s.pair.peerOkIn = false then
    .next (s.onPair (fun q => { q with darkWait := true }))
  else .next s

/-! ### Mirror messages (R397, R398) -/

/-- MIRROR_DATA (R398): a mirror data message has been received whole. With a staging buffer the copy is taken and committed;
without, or with no Ballast buffer for the Tether, the commit waits. A message without sectors names data that this device forwarded: its buffer is the copy (R399). -/
def execMirrorData (msg : BitVec 32) (vid : VolId) (ucl : Nat) (dataSeq : Nat) (mask : BitVec 16)
    (sectors : List (Nat × SectorData)) (s : State) : Res :=
  if s.pair.link ≠ .up || !decide (s.sys.mode = .paired ∨ s.sys.mode = .standalone ∨ s.sys.mode = .quiesce
      ∨ s.sys.mode = .activate ∨ s.sys.mode = .pairedDegraded) then .next s else
  let held := (s.cmds.filter (fun c => decide (c.wait = .forwarded ∧ c.opcode = 2 ∧ c.vid = vid))).flatMap (fun c =>
    (List.range c.data.length).filterMap (fun k =>
      if (c.lba + k) / 16 = ucl then some ((c.lba + k) % 16, c.data.getD k 0) else none))
  let d : DirtyCluster :=
    { vid := vid, ucl := ucl, mask := mask, dataSeq := dataSeq, sectors := if sectors.isEmpty then held else sectors,
      lost := 0, mirror := true, queues := [], buf := none }
  let (s1, d1) := s.tetherBuf d
  if s1.pair.uncommitted.isEmpty && d1.buf.isSome && s1.roomFor vid ucl then .next (s1.acceptMirror msg d1)
  else .next (s1.onPair (fun q => { q with uncommitted := q.uncommitted ++ [(msg, d1)] }))

/-- MIRROR_COMMIT (R398): the peer has committed the messages named, and the Writes they cover go on. -/
def execMirrorCommit (msgs : List (BitVec 32)) (s : State) : Res :=
  let hit := s.pair.mirrorOut.filter (fun m => msgs.contains m.1)
  let s1 := s.onPair (fun q =>
    { q with mirrorOut := q.mirrorOut.filter (fun m => !msgs.contains m.1),
             unmirrored := q.unmirrored.filter (fun x => !hit.any (fun m => decide (x = (m.2.1, m.2.2.1)))) })
  .next s1.settleMirrorOut

/-- MIRROR_RELEASE (R397): the peer has destaged clusters, and its copies here are released. -/
def execMirrorRelease (vid : VolId) (ucls : List Nat) (s : State) : Res :=
  let mine := fun (u : Nat) => ucls.contains u
  .next ((s.dropDirty (fun d => d.mirror && decide (d.vid = vid) && mine d.ucl)).onStg (fun g =>
    let gone := (g.map.filter (fun e => decide (e.vid = vid) && mine e.ucl)).filter (fun e => g.mirrored.contains (e.vid, e.ucl))
    { g with map := g.map.filter (fun e => !gone.any (fun x => decide (x.vid = e.vid ∧ x.ucl = e.ucl))),
             mirrored := g.mirrored.filter (fun x => !(decide (x.1 = vid) && mine x.2)),
             journal := g.journal ++ gone.map (fun e => JournalRec.release e.vid e.ucl) }))

/-- Insert a volume in order of its ID, in place of one with that ID. -/
def putVol : List Volume → Volume → List Volume
  | [], v => [v]
  | x :: rest, v =>
    if v.vid.toNat < x.vid.toNat then v :: x :: rest else if v.vid = x.vid then v :: rest else x :: putVol rest v

/-- VOLUME_STATE (R397, R260): a change of a volume the peer owns, of a slot, or of one of the peer's bays. A Move Disc that
waits for the peer's bay to be LOADING starts. -/
def execVolumeState (m : VolStateMsg) (s : State) : Res :=
  if s.pair.link ≠ .up then .next s else
  match m with
  | .volume vid slot dur remap ro fmt ranges =>
    match s.vol? vid with
    | some v =>
      if v.ownPeer then
        let w : Volume := { v with slot := BitVec.ofNat 16 slot, durability := dur, remap := remap, readOnly := ro,
                                   formatted := fmt, ranges := ranges, known := true }
        .next (({ s with vols := putVol s.vols w }).saveVols)
      else .next s
    | none =>
      let w : Volume :=
        { vid := vid, slot := BitVec.ofNat 16 slot, durability := dur, remap := remap, formatted := fmt, readOnly := ro,
          unclean := false, ownPeer := true, location := BitVec.ofNat 16 slot, ranges := ranges, known := true, ordinal := 0 }
      .next (({ s with vols := putVol s.vols w }).saveVols)
  | .location code st =>
    match locPeerBay code with
    | some n =>
      if st ≠ .empty ∧ s.bays[n].seq.st = BaySt.empty then .next (s.setBaySt n .loading 0) else .next s
    | none =>
    if code.toNat < 0x400 then .next (s.onHnd (fun h => { h with locs := insertKey h.locs code.toNat st })) else .next s
  | .bay n st =>
    let s1 := s.onPair (fun q => { q with peerBays := q.peerBays.set n.val (some st) n.isLt })
    match s1.hnd.move with
    | some mv =>
      if mv.awaitPeer ∧ st = .loading ∧ locPeerBay mv.dst = some n then
        let s2 := s1.onHnd (fun h => { h with move := some { mv with awaitPeer := false } })
        if s2.nextHome.isSome then .next s2.runStep else .next (s2.toStep (if mv.src.toNat = 0x500 then 5 else 1))
      else .next s1
    | none => .next s1

/-! ### Forwarding (R399) -/

/-- A location code as the other device of the pair names the place (Table 10.2). -/
def swapBay (c : BitVec 16) : BitVec 16 :=
  if 0x400 ≤ c.toNat ∧ c.toNat < 0x408 then c + 8 else if 0x408 ≤ c.toNat ∧ c.toNat < 0x410 then c - 8 else c

/-- A Move Disc of C2 that the peer executed has ended (R399): the disc lies where it was to go, or a bay that waits without
one returns to EMPTY. -/
def State.sentEnded (s : State) (status : Byte) : State :=
  match s.hnd.sent with
  | none => s
  | some (src, dst) =>
    let s1 := s.onHnd (fun h => { h with sent := none })
    let slot := match locBay src with
      | some b => match s1.bays[b].seq.disc with | some d => d.slot | none => 0xFFFF
      | none => src
    let s2 := if status.toNat ≤ 1 then
        let s3 := { s1 with vols := s1.vols.map (fun (v : Volume) => if v.slot = slot then { v with location := dst } else v) }
        match locBay dst with
        | some b => s3.onSeq b (fun q => { q with disc := some (s3.discFrom slot), tray := true })
        | none => s3
      else match locBay dst with
        | some b => if s1.bays[b].seq.st = .loading ∧ s1.bays[b].seq.tray = false then s1.setBaySt b .empty 3 else s1
        | none => s1
    s2.orderEnded src dst status

/-- FORWARDED_COMMAND (R399): a command the peer forwards for a volume this device owns is executed here, or a Move Disc when
this device holds the handler. -/
def execForwardedCommand (f : ForwardCmd) (s : State) : Res :=
  let id : CmdId := { f.id with peer := true }
  let answer := fun (t : State) (st : Byte) =>
    t.send 0x22 [b2n (decide (id.port = 1)), id.queue.val, id.cid.toNat, st.toNat, 0]
  if s.pair.link ≠ .up || !(s.inPair) then .next s
  else if f.opcode = 0x40 then
    if s.hnd.own then
      match s.beginMove (swapBay (BitVec.ofNat 16 f.lba)) (swapBay (BitVec.ofNat 16 f.count)) (bitAt f.flags 0) none (some id) with
      | (s1, some st) => .next (answer s1 st)
      | (s1, none) => .next s1
    else .next (answer s 0x43)
  else match s.vol? f.vid with
    | none => .next (answer s 0x13)
    | some v =>
      if v.ownPeer then .next (answer s 0x26) else
      let n := s.sys.fetched
      let c : Cmd :=
        { id := id, order := n, opcode := f.opcode, flags := f.flags, vid := f.vid, lba := f.lba, count := f.count, addr := 0,
          len := 0, spec := 0, exts := [], eligible := false, started := false, dropped := false, wait := .none, code := v.durability,
          data := f.data, retried := false, done := [], cover := [], written := 0, replaced := 0 }
      let s1 := s.onSys (fun y => { y with fetched := n + 1 })
      .next { s1 with cmds := s1.cmds ++ [{ c with eligible := s1.noHazard c }] }

/-- FORWARDED_COMPLETION (R399): the receiving port posts the completion that the owner returns; a forwarded Move Disc answers
its mailbox request. -/
def execForwardedCompletion (c : CmdId) (status : Byte) (result : BitVec 64) (sectors : List (Nat × SectorData)) (s : State) :
    Res :=
  if s.pair.link ≠ .up then .next s else
  match s.cmd? c with
  | some x =>
    if x.wait = .forwarded then .next ((s.giveData c sectors).complete c status result) else .next s
  | none =>
    if c.cid = 0xFFFF ∧ s.hnd.sent.isSome then .next (s.sentEnded status) else
    match s.ports[c.port].mbx.run with
    | some r =>
      if r.wait = .moveDisc ∧ s.hnd.move.isNone ∧ r.tag = c.cid then .next (s.answerRun c.port status) else .next s
    | none => .next s

/-! ### Resync, join and return (R401, R405 to R409) -/

/-- TETHER_RESYNC_END (R401, R407, R408): the peer has committed every cluster that had no mirror; the latch clears and
EV_TETHER_RESTORED is raised. A device that awaited settlement serves as PAIRED. -/
def execTetherResyncEnd (s : State) : Res :=
  if s.pair.resync ≠ some .tether || !s.tetherLive then .next s else
  let s1 := (s.onPair (fun q => { q with degraded := false, resync := none, unmirrored := [], awaiting := false })).raiseDev
    .tetherRestored
  if s.pair.awaiting && decide (s.sys.mode = .standalone) then .next ((s1.setMode .paired).markValid) else .next s1

/-- PAIR_RESYNC_PROGRESS (R405): every 10 s of a resync, EV_PAIR_RESYNC gives the bytes sent. -/
def execPairResyncProgress (s : State) : Res :=
  if s.pair.resync = some .join ∨ s.pair.resync = some .rejoin then .next (s.raiseDev .pairResync [.u64 s.pair.resyncBytes])
  else .next s

/-- JOIN_RESYNC_END (R405): both write role words with a sequence one above the higher, ownership of the handler passes to the
first member, and both enter PAIRED. On the device that was asked, this row is its acceptance too (log entry 38). -/
def execJoinResyncEnd (peerSequence : BitVec 24) (s : State) : Res :=
  let asked := s.pair.resync.isNone && decide (s.dp Param.pairAcceptJoin = 1) && !s.pair.awaiting
    && !s.inPair
  if s.sys.mode ≠ .standalone || !s.tetherLive || !(decide (s.pair.resync = some .join) || asked) then .next s else
  let role := memberRole Config.identity s.pair.peerIdentity
  let s1 := s.onPair (fun q => { q with resync := none, unmirrored := [], mirrorOut := [] })
  let s2 := s1.setPairRole { role := role, peer := s.pair.peerIdentity, seq := seqAbove s.pair.role.seq peerSequence }
  let s3 := (s2.tellRole.setMode .paired).raiseDev .pairJoined
  let s4 := if role = 2 then s3.releaseWithPeerOk else s3
  match s4.runPort (fun w => decide (w = .join)) with
  | some p => .next (s4.respondRun p 0x00)
  | none => .next s4

/-- REJOIN (R407): a returning device settles with its peer: it rejoins a survivor with a higher sequence, unbinds what a peer
that left the pair serves, resyncs with a peer that did not take over, and otherwise stays as it is. -/
def execRejoin (r : RejoinPeer) (s : State) : Res :=
  if !s.pair.awaiting || s.sys.mode ≠ .standalone || !s.tetherLive then .next s else
  let given := (s.runPort (fun w => decide (w = .join))).isSome
  let theirs := fun (v : VolId) => r.volumes.contains v
  if r.mode = .pairedDegraded ∧ s.pair.role.seq.toNat < r.sequence.toNat then
    if s.dp Param.pairAutoRejoin = 1 ∨ given then
      let s1 := s.discardData theirs
      let s2 := { s1 with vols := s1.vols.map (fun (v : Volume) => if theirs v.vid then { v with ownPeer := true } else v) }
      let s3 := (s2.saveVols).onPair (fun q => { q with resync := some .rejoin, resyncBytes := 0, peerSeq := r.sequence })
      .next (s3.sendClusters s3.ownClusters)
    else .next s
  else if r.mode = .standalone ∧ r.hasRecord = false then
    .next (((s.discardData theirs).unbind theirs).endPair)
  else if r.mode = .paired ∧ r.sequence = s.pair.role.seq then .next s.startTetherResync
  else .next s

/-- HANDBACK (R407, R409): on a survivor, the returned peer's volumes go back and their data become mirror copies, with
EV_HANDBACK_DONE and PAIRED; on the returning device, its volumes are its own again and it enters PAIRED; after a planned
hand-over, the volumes come back and the Activate response is posted. -/
def execHandback (s : State) : Res :=
  if !s.tetherLive then .next s
  else if s.sys.mode = .pairedDegraded then
    let back := fun (v : VolId) => s.pair.taken.contains v
    let s1 := { s with vols := s.vols.map (fun (v : Volume) => if back v.vid then { v with ownPeer := true } else v) }
    let s2 := s1.onStg (fun g =>
      { g with dirty := g.dirty.map (fun d => if back d.vid then { d with mirror := true } else d),
               mirrored := (g.map.filter (fun e => back e.vid)).map (fun e => (e.vid, e.ucl)) })
    let role := memberRole Config.identity s.pair.peerIdentity
    let s3 := (s2.onPair (fun q => { q with taken := [], lostRaised := false, darkWait := false, resync := none })).setPairRole
      { role := role, peer := s.pair.peerIdentity, seq := s.pair.role.seq + 1 }
    .next (((s3.tellRole.saveVols).setMode .paired).raiseDev .handbackDone)
  else if s.sys.mode = .standalone ∧ s.pair.resync = some .rejoin then
    let mine := fun (v : VolId) => s.flash.pairVolumes.contains v
    let s1 := { s with vols := s.vols.map (fun (v : Volume) => if mine v.vid then { v with ownPeer := false } else v) }
    let role := memberRole Config.identity s.pair.peerIdentity
    let s2 := (s1.onPair (fun q => { q with resync := none, awaiting := false, unmirrored := [], mirrorOut := [] })).setPairRole
      { role := role, peer := s.pair.peerIdentity, seq := s.pair.peerSeq + 1 }
    let s3 := ((s2.tellRole.saveVols).setMode .paired).markValid
    match s3.runPort (fun w => decide (w = .join)) with
    | some p => .next (s3.respondRun p 0x00)
    | none => .next s3
  else if s.sys.mode = .paired ∧ s.pair.handover then
    let mine := fun (v : VolId) => s.flash.pairVolumes.contains v
    let s1 := { s with vols := s.vols.map (fun (v : Volume) => if mine v.vid then { v with ownPeer := false } else v) }
    let s2 := s1.onStg (fun g =>
      { g with dirty := g.dirty.map (fun d => if mine d.vid then { d with mirror := false } else d),
               mirrored := g.mirrored.filter (fun x => !mine x.1) })
    let s3 := ((s2.onPair (fun q => { q with handover := false, resync := none })).setPairRole
      { s.pair.role with seq := s.pair.role.seq + 1 }).tellRole.saveVols.raiseDev .handbackDone
    match s3.runPort (fun w => decide (w = .activate)) with
    | some p => .next (s3.respondRun p 0x00)
    | none => .next s3
  else .next s

/-- PAIR_JOIN (R405): the peer is asked; on acceptance each device sends the other its dirty and staged clusters, and the
response follows the resync. A device that awaits settlement rejoins instead (R407). -/
def execPairJoin (p : Port) (peer : JoinPeer) (s : State) : Res :=
  .next (s.serve p 0x130 anyReq (fun s r =>
    let want := mbxPay r 0 4
    let own := (s.vols.filter (fun v => !v.ownPeer)).map (·.vid)
    let rel := s.sys.release
    if !s.tetherLive then s.respond p 0x50
    else if want ≠ 0 ∧ want ≠ peer.identity.toNat then s.respond p 0x11
    else if s.pair.awaiting && !peer.standalone then s.beginRun p .join
    else if !peer.standalone || !peer.acceptJoin || decide (peer.releaseMajor.toNat ≠ field rel 24 8)
        || decide (peer.releaseMinor.toNat ≠ field rel 16 8) || own.any (fun v => peer.volumes.contains v)
        || decide (Config.maxVolumes < own.length + peer.volumes.length) then s.respond p 0x11
    else
      let s1 := (s.beginRun p .join).onPair (fun q =>
        { q with resync := some .join, resyncBytes := 0, peerIdentity := peer.identity })
      s1.sendClusters s1.ownClusters))

/-- PAIR_LEAVE (R406), bit 0 clear: with a live Tether and both devices in PAIRED, once no forwarded command is in flight, the
mirror copies are discarded, the record is cleared, and the device is STANDALONE; Writes that wait for a mirror commit go on at
the point that R23 now gives. -/
def execPairLeave (p : Port) (s : State) : Res :=
  .next (s.serve p 0x131 (fun r => decide (mbxPay r 0 1 % 2 = 0)) (fun s _ =>
    let peerPaired := match s.pair.peerHb with
      | some h => decide (h.mode = .paired)
      | none => false
    if !s.tetherLive || s.sys.mode ≠ .paired || !peerPaired then s.respond p 0x11
    else if s.cmds.any (fun c => decide (c.wait = .forwarded)) then s
    else
      let s1 := s.send 0x30 [0x131]
      let s2 := ((s1.dropMirrors).endPair.setMode .standalone).settleMirrorOut.raiseDev .pairLeft
      s2.respond p 0x00))

/-- PAIR_LEAVE_SELF (R406), bit 0 set: only this device leaves, as its mode decides. -/
def execPairLeaveSelf (p : Port) (peerVolumes : List VolId) (s : State) : Res :=
  let forced := fun (r : BitVec 512) => decide (mbxPay r 0 1 / 2 % 2 = 1 ∧ s.sys.mode = .standalone) && !s.tetherLive
  .next (s.serve p 0x131 (fun r => decide (mbxPay r 0 1 % 2 = 1) && !forced r) (fun s _ =>
    match s.sys.mode with
    | .paired =>
      let s1 := (s.failForwarded 0x26).failForwardedMove 0x26
      ((((s1.dropMirrors).endPair.setMode .standalone).settleMirrorOut.raiseDev .pairLeft)).respond p 0x00
    | .pairedDegraded => ((((s.endPair).setMode .standalone).raiseDev .pairLeft)).respond p 0x00
    | _ =>
      if !s.tetherLive then s.respond p 0x11 else
      let theirs := fun (v : VolId) => peerVolumes.contains v
      (((s.discardData theirs).unbind theirs).endPair).respond p 0x00))

/-- PAIR_LEAVE_FORCED (R406), bits 0 and 1 set in STANDALONE with no live Tether: the record is cleared and the device serves
the volumes its record lists as its own; the peer's stay bound, reported as the peer's, and are not served. -/
def execPairLeaveForced (p : Port) (s : State) : Res :=
  let forced := fun (r : BitVec 512) => decide (mbxPay r 0 1 % 4 = 3 ∧ s.sys.mode = .standalone) && !s.tetherLive
  .next (s.serve p 0x131 forced (fun s _ =>
    let mine := s.flash.pairVolumes
    let s1 := { s with vols := s.vols.map (fun (v : Volume) => { v with ownPeer := !mine.contains v.vid }) }
    ((s1.endPair).saveVols).respond p 0x00))

end Sys2Proof.Machine
end

