-- ==== Sys2Proof/Machine/Recorder.lean ====
section
/-! DEFINITION. The event path: the firmware queue (R414 to R419), the Reel's records (R422, R423), the host event rings (R420), and the mailbox commands of Reel, drop counters (R425) and servo tails (R201 to R203). -/

namespace Sys2Proof.Machine

/-! ### The firmware queue and the Reel -/

/-- The Reel takes an event whose sequence number is `seq` (R422, R423); when that freezes it, EV_REEL_FROZEN is raised. -/
def State.reelRecord (s : State) (e : Raised) (seq : BitVec 32) : State :=
  match s.ev.record e seq (s.dn Param.evtCoalesce) (s.dn Param.evtReelSev) (s.dn Param.evtReelFreezeSrc) (s.dn Param.evtReelPost)
      s.sys.mode with
  | (v, cause) =>
    let s1 := s.onEv (fun _ => v)
    match cause with
    | some c => s1.raiseDev .reelFrozen [.u8 c]
    | none => s1

/-- The summary of the firmware queue is placed once it may be (R418), and the Reel takes it as it takes any event. -/
def State.placeSummary (s : State) : State :=
  if s.ev.summaryDue then
    let src := DevEvent.source .eventsLost
    let e : Raised := { src := src, sev := .warning, payload := s.ev.tally.payload, time := s.sys.time, latched := latched s src s.ev.tally.payload }
    let seq := s.ev.nextSeq
    (s.onEv (fun v => v.summarise s.sys.time)).reelRecord e seq
  else s

/-- EVENT_QUEUE_ENTRY (R414): the event raised first enters the firmware queue, is coalesced or is dropped (R416, R417), and the
Reel takes it whatever became of it (R422). A retry entry it classified takes its number (Table 15.5). -/
def execEventQueueEntry (s : State) : Res :=
  .next (match s.ev.raised with
    | [] => s.placeSummary
    | e :: rest =>
      let s1 := (s.onEv (fun v => { v with raised := rest })).placeSummary
      match s1.ev.place e (s1.dn Param.evtCoalesce) with
      | (v, p) =>
        match p with
        | .placed n => (s1.onEv (fun _ => v.numberRetry e.src e.time n)).reelRecord e n
        | _ => (s1.onEv (fun _ => v)).reelRecord e 0xFFFFFFFF)

/-! ### Host event rings (R420) -/

/-- C3 copies: an image runs, outside FILL and RIPCORD (R420). -/
def State.copies (s : State) : Bool := s.sys.imageRuns && decide (2 ≤ s.sys.mode.code ∧ s.sys.mode ≠ .ripcord)

/-- A record of a severity may be placed in a host ring (R417). -/
def EvRing.mayPlace (r : EvRing) (sev : Severity) : Bool :=
  Sys2Proof.Machine.mayPlace (r.entries.toNat - 1) (ceilDiv r.entries.toNat 4) r.posted sev

/-- Vector 0 is signalled at once for an Error or Critical record, and for others at most once per 100 µs (R420). -/
def State.signalEvent (s : State) (p : Port) (sev : Severity) : State :=
  if sev.alarms then s.signal p 0
  else if s.ports[p].ring.signalHold then s.onRing p (fun r => { r with signalDue := true })
  else (s.signal p 0).onRing p (fun r => { r with signalHold := true, signalDue := false })

/-- Write a record into a port's ring at its tail. -/
def State.writeEvent (s : State) (p : Port) (x : EvRecord) : State :=
  let r := s.ports[p].ring
  let s1 := s.emit (.eventRecord p (slotAddr r.base 64 r.tail.toNat) (x.encode r.phase))
  (s1.onRing p (fun r => { r with tail := ringNext r.tail r.entries,
                                  phase := if r.tail.toNat + 1 = r.entries.toNat then !r.phase else r.phase })).signalEvent p x.sev

/-- The summary of a ring's own drops, placed ahead of the next record once it may be (R418). -/
def State.ringSummary (s : State) (p : Port) : State :=
  let r := s.ports[p].ring
  if r.enabled && !r.tally.isZero && r.mayPlace .warning then
    (s.writeEvent p (EvRecord.lost r.tally 0xFFFFFFFF true s.sys.time)).onRing p (fun r => { r with tally := .reset })
  else s

/-- A record that a ring could not take is dropped and counted (R417, R419). -/
def State.ringDrop (s : State) (p : Port) (x : EvRecord) : State :=
  let e : Raised := { src := x.src, sev := x.sev, payload := x.payload, time := x.latest, latched := [] }
  (s.onRing p (fun r => { r with tally := r.tally.add e })).onEv (fun v => { v with drops := countDrop v.drops x.src })

/-- The severity from which records are copied to a port (Table 15.9). -/
def State.hostSev (s : State) (p : Port) : Nat := if p = 0 then s.dn Param.evtHostSevA else s.dn Param.evtHostSevB

/-- Copy one record to a port's ring (R417, R420). -/
def State.copyRecord (s : State) (p : Port) (x : EvRecord) : State :=
  if !s.ports[p].ring.enabled || decide (x.sev.code < s.hostSev p) then s else
  let s1 := s.ringSummary p
  if s1.ports[p].ring.mayPlace x.sev then s1.writeEvent p x else s1.ringDrop p x

/-- A record has gone to every ring that is enabled, and leaves the firmware queue. -/
def EvRecord.gone (x : EvRecord) (a b : Bool) : Bool := (x.taken[0] || !a) && (x.taken[1] || !b)

/-- EVENT_RING_COPY (R420): the records of the firmware queue that a port has not had are copied to its ring in sequence order;
those that every enabled ring has had leave the queue, and summaries that may now be placed are (R418). -/
def execEventRingCopy (p : Port) (s : State) : Res :=
  .next (if s.copies then
    let fresh := s.ev.queue.filter (fun x => !x.taken[p])
    let s1 := (fresh.foldl (fun (t : State) x => t.copyRecord p x) s).ringSummary p
    let a := s1.ports[(0 : Port)].ring.enabled
    let b := s1.ports[(1 : Port)].ring.enabled
    (s1.onEv (fun v =>
      { v with queue := (v.queue.map (fun (x : EvRecord) => { x with taken := x.taken.set p.val true p.isLt })).filter
                 (fun x => !x.gone a b) })).placeSummary
  else s)

/-- EVENT_VECTOR_TIMER (R420): 100 µs have passed since vector 0 was signalled for records below Error; records copied since are
signalled now. -/
def execEventVectorTimer (p : Port) (s : State) : Res :=
  .next (if s.ports[p].ring.signalDue then
    (s.signal p 0).onRing p (fun r => { r with signalDue := false, signalHold := true })
  else s.onRing p (fun r => { r with signalHold := false }))

/-- AER_CORRECTABLE (R317). -/
def execAerCorrectable (p : Port) (s : State) : Res := .next (s.raisePort p .aerCorrectable)

/-! ### Reel Freeze and Reel Read (R423, R425) -/

/-- REEL_FREEZE: Reel Freeze with action 1, or with an action that does not exist, which returns 0x11. -/
def execReelFreeze (p : Port) (s : State) : Res :=
  .next (s.serve p 0x150 (fun r => decide (mbxPay r 0 1 ≠ 0)) (fun t r =>
    if mbxPay r 0 1 = 1 then (t.freezeReel 0).respond p 0x00 else t.respond p 0x11))

/-- REEL_THAW: Reel Freeze with action 0. -/
def execReelThaw (p : Port) (s : State) : Res :=
  .next (s.serve p 0x150 (fun r => decide (mbxPay r 0 1 = 0)) (fun t _ => t.thawReel.respond p 0x00))

/-- The bytes of a value of `n` bytes, byte 0 first. -/
def blockBytes (x : BitVec 512) : List Byte := leBytes 64 x.toNat

/-- The drop counters as a log: 4 bytes each in source ID order (R425). -/
def EventPath.dropBytes (v : EventPath) : List Byte :=
  (List.range Config.sources).flatMap (fun i => leBytes 4 ((lookupKey v.drops i).getD 0))

/-- Answer a request with the part of an area of bytes that its offset (payload bytes 4 to 7) and buffer length select; an
offset at or beyond the end returns 0x11 (R425, R309). -/
def State.respondArea (s : State) (p : Port) (r : BitVec 512) (area : List Byte) : State :=
  let off := mbxPay r 4 4
  if area.length ≤ off then s.respond p 0x11
  else s.respond p 0x00 [] ((area.drop off).take (min (mbxBufLen r) 65535))

/-- REEL_READ_BLOCKS: Reel Read area 0, and an area that does not exist, which returns 0x11. -/
def execReelReadBlocks (p : Port) (s : State) : Res :=
  .next (s.serve p 0x151 (fun r => decide (mbxPay r 0 1 ≠ 1 ∧ mbxPay r 0 1 ≠ 2)) (fun t r =>
    if mbxPay r 0 1 = 0 then t.respondArea p r (t.ev.reel.flatMap blockBytes) else t.respond p 0x11))

/-- READ_DROP_COUNTERS: Reel Read area 1. -/
def execReadDropCounters (p : Port) (s : State) : Res :=
  .next (s.serve p 0x151 (fun r => decide (mbxPay r 0 1 = 1)) (fun t r => t.respondArea p r t.ev.dropBytes))

/-- The counters left after bytes `lo` to `hi` of the drop log have been read with clear: every counter read in part or whole is
cleared (R419, R425). -/
def clearDrops (drops : List (Nat × Nat)) (lo hi : Nat) : List (Nat × Nat) :=
  drops.filter (fun kv => !decide (lo < 4 * kv.1 + 4 ∧ 4 * kv.1 < hi))

/-- READ_CLEAR_DROP_COUNTERS: Reel Read area 2, which clears each counter it reads (R419). -/
def execReadClearDropCounters (p : Port) (s : State) : Res :=
  .next (s.serve p 0x151 (fun r => decide (mbxPay r 0 1 = 2)) (fun t r =>
    let off := mbxPay r 4 4
    let n := min (mbxBufLen r) 65535
    let u := t.respondArea p r t.ev.dropBytes
    if off < 4 * Config.sources then u.onEv (fun v => { v with drops := clearDrops v.drops off (off + n) }) else u))

/-! ### Servo tails (R201 to R203) -/

/-- The record of Tail Arm (Table 7.10), where every field is in range. -/
def tailCfgOf (r : BitVec 512) : Option TailCfg :=
  let nodes : Vector Nat 4 := Vector.ofFn (fun i => mbxPay r (2 + i.val) 1)
  let lvl := (BitVec.ofNat 16 (mbxPay r 0xA 2)).toInt
  let mode := mbxPay r 1 1
  let pre := mbxPay r 0xE 2
  if h : mbxPay r 9 1 < 4 then
    if mbxPay r 0 1 ≤ 1 ∧ mode ≤ 1 ∧ nodes.toList.all (fun n => decide (n ≤ 0x18)) ∧ 1 ≤ mbxPay r 6 2 ∧ mbxPay r 6 2 ≤ 256
        ∧ mbxPay r 8 1 ≤ 4 ∧ mbxPay r 0xC 2 ≤ 0x5F ∧ pre ≤ 8191 ∧ (mode = 0 ∨ pre = 0) then
      some { stopOnFull := decide (mode = 1), nodes := nodes, decimation := mbxPay r 6 2, trigger := mbxPay r 8 1,
             levelCh := ⟨mbxPay r 9 1, h⟩, level := lvl, eventOff := mbxPay r 0xC 2, pre := pre }
    else none
  else none

/-- A tail as it is armed: it writes from now on, and trigger 0 has fired. -/
def Tail.arm (c : TailCfg) (periods : Nat) : Tail :=
  let t : Tail := { cfg := some c, running := true, samples := [], written := 0, trigAt := none, left := none, phase := 0, stamp := 0 }
  if c.trigger = 0 then t.fire periods else t

/-- Arm a tail of a bay: a trigger at arming is the other tail's trigger too (Table 7.10). -/
def Servo.armTail (v : Servo) (i : Fin 2) (c : TailCfg) : Servo :=
  let other : Fin 2 := 1 - i
  let follows := match v.tails[other].cfg with | some d => decide (d.trigger = 4) | none => false
  let w := v.tails.set i.val (Tail.arm c v.periods) i.isLt
  { v with tails := if c.trigger = 0 && follows then w.set other.val (v.tails[other].fire v.periods) other.isLt else w }

/-- The bay that a request targets. -/
def targetBay (r : BitVec 512) : Option BayNo := if h : (mbxTarget r).toNat < 8 then some ⟨(mbxTarget r).toNat, h⟩ else none

/-- TAIL_ARM (R201): a record with a field out of range, or a target that is no bay, is refused with 0x11. -/
def execTailArm (p : Port) (s : State) : Res :=
  .next (s.serve p 0x152 anyReq (fun t r =>
    match targetBay r, tailCfgOf r with
    | some b, some c =>
      let i : Fin 2 := ⟨mbxPay r 0 1 % 2, Nat.mod_lt _ (by decide)⟩
      (t.onSrv b (fun v => v.armTail i c)).respond p 0x00
    | _, _ => t.respond p 0x11))

/-- The index of the trigger sample among those held, 0xFFFF when none (R203). -/
def Tail.triggerIndex (t : Tail) : Nat :=
  match t.trigAt with
  | some n => if t.written ≤ n + t.samples.length then n - (t.written - t.samples.length) else 0xFFFF
  | none => 0xFFFF

/-- The bytes of a stopped tail: its header and its samples, oldest first (R203). -/
def Tail.bytes (t : Tail) (b : BayNo) (i : Fin 2) : List Byte :=
  let (nodes, dec) := match t.cfg with | some c => (c.nodes.toList, c.decimation) | none => ([0, 0, 0, 0], 0)
  leBytes 1 b.val ++ leBytes 1 i.val ++ nodes.flatMap (leBytes 1) ++ leBytes 2 dec ++ leBytes 2 t.samples.length
    ++ leBytes 2 t.triggerIndex ++ leBytes 4 0 ++ leBytes 8 t.stamp ++ leBytes 8 0
    ++ t.samples.reverse.flatMap (fun v => v.toList.flatMap (leInt 2))

/-- TAIL_READ (R203): a running tail, or a tail or bay that does not exist, is refused with 0x11. -/
def execTailRead (p : Port) (s : State) : Res :=
  .next (s.serve p 0x153 anyReq (fun t r =>
    match targetBay r with
    | none => t.respond p 0x11
    | some b =>
      let i : Fin 2 := ⟨mbxPay r 0 1 % 2, Nat.mod_lt _ (by decide)⟩
      let u := t.bays[b].srv.tails[i]
      if 1 < mbxPay r 0 1 ∨ u.running then t.respond p 0x11 else t.respondArea p r (u.bytes b i)))

end Sys2Proof.Machine
end

