-- ==== Sys2Proof/Machine/Power.lean ====
section
/-! DEFINITION. The commands of power, clocks, resets, boot and Vent (16_power_clocks_reset_boot.md, and R343 to R349 of 12_staging_flash.md). -/

namespace Sys2Proof.Machine

/-! ### Resets (R434, R441) -/

/-- POWER_ON_RESET (R434): PORST_N low, a rail monitor trip or power loss clears everything; the device is in OFF. -/
def execPowerOnReset (_cause : PorCause) (s : State) : Res := .next s.powerOnReset

/-- PORST_N_RELEASE (R441): with every rail good the PLLs lock, K0 and K1 start, the mode is FILL, and EV_POWER_ON is raised;
the straps of the SMBus address are taken (R482). -/
def execPorstNRelease (straps : BitVec 2) (s : State) : Res :=
  if s.sys.mode ≠ .off then .next s else
  let s1 := s.onSys (fun y => { y with porst := false, pll := Vector.replicate 5 true, straps := straps })
  .next ((s1.setMode .fill).raiseDev .powerOn)

/-- DEVICE_RESET (R434): 0xA5 from either port starts a warm reset; any other value is ignored. -/
def execDeviceReset (_p : Port) (key : Byte) (s : State) : Res :=
  if key = 0xA5 then .next (s.warmReset .field) else .next s

/-- The capacity of the DRAM in GiB: two channels of ranks with 16 x4 or 8 x8 data chips (Table 13.1). -/
def dramGib (d : DramFound) : Nat := 2 * d.ranks * ((if d.x8 then 8 else 16) * d.density / 8)

/-- The DRAM is one of the configurations of Table 13.1. -/
def dramSupported (d : DramFound) : Bool :=
  d.alike && d.standard && [8, 16, 24, 32].contains d.density && decide (d.ranks = 1 ∨ d.ranks = 2)
    && decide (d.chips = if d.x8 then 10 else 20) && decide (16 ≤ dramGib d ∧ dramGib d ≤ 128)

/-- FILL_DONE (R360, R366): DRAM trained within Table 13.1 and all memory written, the device enters BOOT; with unsupported
DRAM it stays in FILL with EV_DRAM_CONFIG at Critical. A FILL in which a Ripcord parks stays for its warm reset. -/
def execFillDone (dram : DramFound) (s : State) : Res :=
  if s.sys.mode ≠ .fill || s.sys.parking || s.sys.parked || s.sys.resetWaits then .next s
  else if !dramSupported dram then
    .next (s.raiseAt (.dev .dramConfig) .critical [])
  else
    .next ((s.onMem (fun m => { m with gib := dramGib dram, x8 := dram.x8, cells := [], cache := .reset, triple := .reset })).onSys
      (fun y => { y with filled := true }) |>.setMode .boot)

/-! ### Boot (R319 to R322, R439 to R442) -/

/-- The Keel tries one slot (R442): whether it boots, and the state after its marks and events. -/
def State.trySlot (s : State) (k : Fin 2) (imageOk : Bool) : Bool × State :=
  let x := s.flash.slots[k]
  match x.st with
  | .empty => (false, s)
  | .bad => (false, s)
  | .valid =>
    if imageOk then (true, s) else (false, (s.writeSlot k { x with st := .bad }).raiseDev .imageRejected)
  | .trial =>
    if !imageOk then (false, (s.writeSlot k { x with st := .bad }).raiseDev .imageRejected)
    else if x.failed + 1 < 2 then (true, s.writeSlot k { x with failed := x.failed + 1 })
    else (false, s.writeSlot k { x with st := .bad, failed := x.failed + 1 })

/-- The slot that boots (R442): the preferred one, else the other with EV_BOOT_SLOT_FALLBACK. -/
def State.chooseSlot (s : State) (ok : Vector Bool 2) : Option (Fin 2) × State :=
  let a := s.flash.preferred
  let b : Fin 2 := if a = 0 then 1 else 0
  match s.trySlot a ok[a] with
  | (true, s1) => (some a, s1)
  | (false, s1) =>
    match s1.trySlot b ok[b] with
    | (true, s2) => (some b, s2.raiseDev .bootSlotFallback)
    | (false, s2) => (none, s2)

/-- A part meets every limit of Table 12.2 that one part can show (R319, R321). -/
def partOk (p : NandPart) : Bool :=
  p.signature && p.goodPage
    && decide ((p.pageBytes = 16384 ∧ p.planes = 4) ∨ (p.pageBytes = 32768 ∧ p.planes = 2))
    && decide (512 * (p.pageBytes / 4096) ≤ p.spareBytes ∧ 256 ≤ p.pagesPerBlock ∧ p.pagesPerBlock ≤ 3072 ∧ 512 ≤ p.blocksPerPlane
      ∧ p.blocksPerPlane ≤ 16384 ∧ 1 ≤ p.luns ∧ p.luns ≤ 4 ∧ 1 ≤ p.bitsPerCell ∧ p.bitsPerCell ≤ 4 ∧ p.tR ≤ 200 ∧ p.tProg ≤ 3000
      ∧ p.tBers ≤ 20000)

/-- The LUNs of a channel in order of chip enable, each with its part where that is usable (R319, R321); no more than 8 chip enables
and 16 LUNs count. -/
def channelLuns (chips : List NandPart) : List (Option NandPart) :=
  ((chips.take 8).flatMap (fun p => List.replicate (min p.luns 4) (if partOk p then some p else none))).take 16

/-- What two parts must share to be of one geometry (R322). -/
def geometryOf (p : NandPart) : List Nat := [p.planes, p.pageBytes, p.pagesPerBlock, p.blocksPerPlane, p.bitsPerCell]

/-- The part of LUN index `l` on every channel, where it is present and valid on all 16 with one geometry (R322). -/
def lunOnAll (n : NandFound) (l : Nat) : Option NandPart :=
  let parts := n.chips.toList.map (fun c => ((channelLuns c)[l]?).join)
  match parts with
  | some p :: rest => if rest.all (fun q => decide (q.map geometryOf = some (geometryOf p))) then some p else none
  | _ => none

/-- The LUN indexes used (R321, R322): those valid on every channel, of the geometry of the lowest, as far as the raw capacity stays
within 32 TiB (log entry 111). -/
def nandCommon (n : NandFound) : List (Fin 16) :=
  match (List.range 16).findSome? (lunOnAll n) with
  | none => []
  | some p =>
    ((List.finRange 16).filter (fun l => decide ((lunOnAll n l.val).map geometryOf = some (geometryOf p)))).take
      (2 ^ 45 / (16 * p.blocksPerPlane * p.pagesPerBlock * 65536))

/-- The channels differ in their LUNs' geometry or count (R322). -/
def nandDiffers (n : NandFound) : Bool :=
  let shape := fun (c : List NandPart) => (channelLuns c).map (fun x => x.map geometryOf)
  n.chips.toList.any (fun c => decide (shape c ≠ shape n.chips[0]))

/-- Discovery on one chip enable (R319, R320): Reset, Read ID at 0x00 and 0x20, Read Parameter Page; and for a usable part the timing
mode at feature address 0x01, and ZQ Calibration Long where it is supported. A part left unused raises EV_NAND_GEOMETRY. -/
def State.discover (s : State) (c : ChanNo) (ce : Nat) (p : NandPart) (rate : Nat) : State :=
  let ask := [Output.nand c 0xFF ce 0, .nand c 0x90 0x00 ce, .nand c 0x90 0x20 ce, .nand c 0xEC 0 ce]
  let set := if partOk p then [Output.nand c 0xEF 0x01 rate] ++ (if p.zq then [Output.nand c 0xF9 ce 0] else []) else []
  let s1 := (ask ++ set).foldl State.emit s
  if partOk p then s1 else s1.raiseDev .nandGeometry

/-- Discovery of the NAND at a power-on boot (R319, R322, R327, R351): the spare pools of blank NAND are set aside. -/
def State.findNand (s : State) (n : NandFound) : State :=
  let used := nandCommon n
  let parts := used.filterMap (fun l => lunOnAll n l.val)
  let all := n.chips.toList.flatMap (fun c => (channelLuns c).filterMap id)
  let most := fun (f : NandPart → Nat) => (all.map f).foldl max 0
  let limit := min 1200 (s.dn Param.stgNandRate)
  let rate := (((all.head?.map (·.rates)).getD []).filter (fun r => decide (r ≤ limit) && all.all (fun p => p.rates.contains r))).foldl
    max 0
  let s1 := (List.finRange 16).foldl (fun (t : State) c =>
    (n.chips[c].zipIdx).foldl (fun (u : State) p => u.discover c p.2 p.1 rate) t) s
  let s2 := if nandDiffers n then s1.raiseDev .nandGeometry else s1
  let pct := s.dn Param.stgSparePct
  let img := if n.blank then NandImage.reset else s.stg.nand
  let blocks := ((parts.head?).map (·.blocksPerPlane)).getD 0
  let img2 := if img.spareCount.isSome then img else { img with spareCount := some (blocks * pct / 100) }
  let s3 := s2.onStg (fun g =>
    { g with luns := used, pages := ((parts.head?).map (·.pagesPerBlock)).getD 0, blocks := blocks, tR := most (·.tR),
             tProg := most (·.tProg), tBers := most (·.tBers), rate := rate, nand := img2 })
  let op := s3.dn Param.stgOp
  if s3.stg.usable op s3.mem.gib < s3.stg.rawUsable op then
    (s3.onStg (fun g => { g with limited := true })).raiseDev .stagingCapacityLimited
  else s3

/-- The pool sizes given fit the DRAM (R388). -/
def poolsFit (gib : Nat) (mib : List Nat) : Bool := decide (mib.sum * 4 ≤ gib * 1024 * 3 - 4096)

/-- Ballast is carved afresh (R372, R377, R388): sizes that no longer fit the DRAM are replaced by their defaults, with
EV_DRAM_CONFIG at Warning; retired pages leave their pools (R371). -/
def State.carve (s : State) : State :=
  let s1 := if poolsFit s.mem.gib s.poolSizes then s else
    ({ s with params := { s.params with
        accepted := (List.range 4).foldl (fun acc p => eraseKey acc (paramKey 8 (Param.balSize0 + p))) s.params.accepted
        inForce := (List.range 4).foldl (fun acc p => eraseKey acc (paramKey 8 (Param.balSize0 + p))) s.params.inForce } }).raiseDev
      .dramConfig
  let s2 := s1.onMem (fun m => { m with pools := Vector.ofFn (fun (p : Fin 4) =>
    BallastPool.carved (s1.dn (Param.balSize0 + p.val) * 1048576 / bufBytes p.val) m.pools[p].count) })
  s2.flash.retiredPages.foldl State.applyRetired { s2 with mem := { s2.mem with pagesDue := [] } }

/-- The servo limit word of a bay (Table 13.3, R176): SRV.FOC_DRV_LIMIT, SRV.TRK_DRV_LIMIT, SRV.TILT_DRV_LIMIT and
SRV.FOC_PARK, the first in the low 16 bits (log entry 39). -/
def State.limitWord (s : State) (b : BayNo) : BitVec 64 :=
  let f := fun (id k : Nat) => (s.bp b id % 65536).toNat * 2 ^ (16 * k)
  BitVec.ofNat 64 (f Param.srvFocDrvLimit 0 + f Param.srvTrkDrvLimit 1 + f Param.srvTiltDrvLimit 2 + f Param.srvFocPark 3)

/-- Firmware writes the servo limits at reset (Table 13.3). -/
def State.writeLimits (s : State) : State :=
  s.onMem (fun m => { m with triple := m.triple.putAll ((List.finRange 8).map (fun b => (b.val, s.limitWord b))) })

/-- The records that a power-on boot takes from the boot flash: the pair record gives the role word (R389, R407), the
progress record that of an operation, counted as resumed (R313). -/
def State.takeRecords (s : State) : State :=
  let s1 := match s.flash.pairRecord with
    | some r => s.setRole r
    | none => s
  let p := s1.flash.progress
  if p.state = 1 ∨ p.state = 2 then s1.setProgress { p with state := 2, cycles := p.cycles + 1 } else s1.setProgress p

/-- The spare pools follow STG.SPARE_PCT while staging holds no data (R351, R359): never fewer than are in use. -/
def Staging.fitSpares (g : Staging) (pct : Nat) : Staging :=
  if g.map.isEmpty && g.dirty.isEmpty && g.nand.entries.isEmpty then
    let n := max (g.blocks * pct / 100) ((g.nand.sparesUsed.map (·.2)).foldl max 0)
    let keep := fun (x : Superblock) => decide (x.block < g.blocks - n)
    { g with sbs := g.sbs.filter keep, nand := { g.nand with spareCount := some n, blocks := g.nand.blocks.filter keep } }
  else g

/-- The trays and the gripper as their sensors show (R260). -/
def State.takeTrays (s : State) (trays : BitVec 8) : State :=
  s.eachBay (fun t b => t.onSeq b (fun q => { q with tray := trays.getLsbD b.val }))

/-- BOOT_DONE (R441, R442): the slot is chosen and its image runs, the engines are released, EV_BOOT_DONE gives slot and
release; NAND, Ballast, scrubber and cache are made ready. With no slot accepted the device stays in BOOT with EV_IMAGE_REJECTED at Critical.
In compatibility mode a warm reset's cache invalidate has run and the cache is enabled (R384). -/
def execBootDone (o : BootObs) (s : State) : Res :=
  if s.sys.mode ≠ .boot || s.sys.imageRuns || s.sys.noImage || s.sys.warmFlushDue || s.sys.parking || s.sys.parked
    || s.sys.resetWaits then .next s else
  match s.chooseSlot o.imageOk with
  | (none, s1) => .next ((s1.raiseAt (.dev .imageRejected) .critical []).onSys (fun y => { y with noImage := true }))
  | (some k, s1) =>
    let x := s1.flash.slots[k]
    let cold := decide (s1.sys.resetCause = 0) || decide (s1.stg.pages = 0)
    let s2 := s1.onSys (fun y =>
      { y with imageRuns := true, recoverFrom := y.time, release := x.release, runSlot := k, bayRev := x.bayRev, oldImage := 0, oldMotion := false,
               fHeld := Vector.replicate 4 false, mHeld := Vector.replicate 2 false })
    let s3 := s2.eachBay (fun t b => t.onBay b (fun y => { y with qHeld := false, sHeld := false }))
    let s4 := s3.raiseDev .bootDone [.u8 k.val, .u32 x.release.toNat]
    let s5 := if cold then (s4.findNand o.nand).takeRecords else s4
    let s6 := ((((s5.onStg (fun g => g.fitSpares (s5.dn Param.stgSparePct))).carve).takeTrays o.trays).writeLimits).setMemRegs
    if s6.sys.resetCause ≠ 0 ∧ s6.dp Param.devCompat4208 = 1 then
      .next (s6.onMem (fun m => { m.invalidateAll with cache := { m.invalidateAll.cache with enabled := true } }))
    else .next s6

/-- WARM_FLUSH (R344): after a warm reset every dirty cluster is programmed to stream 2 before firmware runs. -/
def execWarmFlush (s : State) : Res :=
  if s.sys.mode = .boot ∧ s.sys.warmFlushDue then
    .next ((s.flushAll true).onSys (fun y => { y with warmFlushDue := false }))
  else .next s

/-! ### Staging recovery (R343, R348) -/

/-- A member found in an open superblock that the root record names, as a map entry (R343): all 16 codewords decode with good CRC, and
they are data (Table 12.3). -/
def recoveredEntry (opens : List (Nat × Nat)) (c : RecoveredCluster) : Option MapEntry :=
  let ws := c.words.filterMap nandDecoded
  match ws with
  | w :: _ =>
    if c.words.length = 16 ∧ ws.length = 16 ∧ nandField w 166 2 = 0 ∧ opens.contains ((locLun c.loc).val, locBlock c.loc) then
      let mask : BitVec 16 := BitVec.ofNat 16 (nandField w 144 16)
      some { vid := BitVec.ofNat 16 (nandField w 96 16), ucl := nandField w 112 25, mask := mask, loc := c.loc, sealed := false,
             dataSeq := nandField w 0 48, progSeq := nandField w 48 48,
             sectors := (ws.zipIdx.filter (fun x => mask.getLsbD x.2)).map (fun x => (x.2, nandData x.1)), lost := 0, queues := [] }
    else none
  | [] => none

/-- The newer of two versions: the higher data sequence, then the higher program sequence (R343). -/
def MapEntry.newer (a b : MapEntry) : Bool :=
  decide (b.dataSeq < a.dataSeq ∨ (a.dataSeq = b.dataSeq ∧ b.progSeq < a.progSeq))

/-- Set an entry where it is newer than the map's. -/
def putNewer (m : List MapEntry) (e : MapEntry) : List MapEntry :=
  match m.find? (fun x => decide (x.vid = e.vid ∧ x.ucl = e.ucl)) with
  | some x => if e.newer x then putEntry m e else m
  | none => putEntry m e

/-- Erase the superblocks listed to erase and not free. -/
def eraseListed (intents : List (Nat × Nat)) (sbs : List Superblock) : List Superblock :=
  sbs.map (fun x => if intents.contains (x.lun, x.block) ∧ x.st ≠ .free then
    { Superblock.fresh x.lun x.block with erases := x.erases + 1 } else x)

/-- The rebuilt tier (R343): map, superblocks and, at a power-on boot, volumes. -/
def State.rebuild (s : State) (found : List RecoveredCluster) : State :=
  let n := s.stg.nand
  let opens := (n.root.map (fun r => r.opens.toList.filterMap id)).getD []
  let map := (found.filterMap (recoveredEntry opens)).foldl putNewer n.entries
  let blocks := eraseListed n.intents n.blocks
  let s1 := s.onStg (fun g =>
    { g with map := map, sbs := blocks, journal := [], gc := none, recovering := false,
             directory := n.root.bind (·.directory), journalPos := n.root.bind (·.journalPos),
             nand := { n with entries := map, blocks := blocks, intents := [] } })
  let s2 := if s.sys.resetCause = 0 then { s1 with vols := n.vols } else s1
  s2.onSys (fun y =>
    { y with dataSeq := (map.map (·.dataSeq)).foldl max y.dataSeq, progSeq := (map.map (·.progSeq)).foldl max y.progSeq,
             recovered := true })

/-- An incomplete Vent (R348): EV_VENT_INCOMPLETE when the latest root record lacks the clean flag and follows no warm flush;
STG.STATE bit 3 then, and whenever the latest root record carries the flag. -/
def State.judgeVent (s : State) : State :=
  match s.stg.nand.root with
  | none => s
  | some r =>
    if !r.clean && !r.warmFlush then (s.onStg (fun g => { g with incomplete := true })).raiseDev .ventIncomplete
    else if r.ventIncomplete then s.onStg (fun g => { g with incomplete := true })
    else s

/-- Write protection at a power-on boot (R351): it ends only when every LUN has spares. -/
def State.judgeSpares (s : State) : State :=
  if s.sys.resetCause ≠ 0 then s else
  let short := s.stg.luns.any (fun l => (List.finRange 16).any (fun c =>
    s.stg.inService c.val l.val && decide (s.stg.sparesLeft c l = 0) && decide (0 < s.stg.retiredOf c l)))
  s.onStg (fun g => { g with writeProt := short })

/-- The mode a device leaves BOOT for (R441): SANITIZE when the progress record shows one unfinished, else STANDALONE; a device
whose pair record names a peer awaits settlement (R407). -/
def State.endBoot (s : State) : State :=
  let p := s.sys.progress
  let s1 := s.onPair (fun q => { q with awaiting := s.flash.pairRecord.isSome })
  if p.op = 2 ∧ (p.state = 1 ∨ p.state = 2) then
    (s1.onSys (fun y => { y with cameFrom := .standalone })).leaveBoot .sanitize
  else (s1.leaveBoot .standalone).markValid

/-- STAGING_RECOVERY (R343): the map is rebuilt from the root record, the journal and the open superblocks, the Vent reserve
is made, EV_STAGING_RECOVERED is raised, and the device leaves BOOT. -/
def execStagingRecovery (found : List RecoveredCluster) (s : State) : Res :=
  if s.sys.mode ≠ .boot || !s.sys.imageRuns || s.sys.warmFlushDue || s.sys.recovered || s.sys.parking || s.sys.parked then
    .next s else
  let s1 := ((s.rebuild found).judgeVent).judgeSpares
  let limit := (s1.params.acceptedOf 8 Param.stgDirtyLimit).toNat
  let s2 := (s1.onStg (fun g => g.fitReserve limit)).raiseDev .stagingRecovered [.u32 (s.sys.time - s.sys.recoverFrom).toNat]
  .next s2.endBoot

/-! ### Vent (R346 to R349, R408) -/

/-- A bay at the start of a Vent (R245): a run ends, focus parks, and a turning disc passes to SPINDOWN; it keeps its disc. -/
def State.ventBay (s : State) (b : BayNo) : State :=
  let t := s.bays[b]
  if bayRow 24 t.seq.st .spindown then
    let s1 := (s.abortCal b).parkFocus b
    let s2 := s1.onBay b (fun y =>
      { y with spn := y.spn.stop, wp := { y.wp with run := none },
               rc := { y.rc with lanes := y.rc.lanes.map (fun l => { l with phase := .idle }) },
               seq := { y.seq with after := .park, respin := true, visiting := false } })
    s2.setBaySt b .spindown 24
  else s

/-- Vent starts (R346): EV_VENT_START, mode VENT, garbage collection and checkpoints stop, the handler stops (R445). -/
def State.startVent (s : State) : State :=
  let from_ := s.sys.mode
  let s1 := s.raiseDev .ventStart
  let s2 := s1.onSys (fun y =>
    { y with ventFrom := from_, ventDone := false, ventWatchdog := false, ventTakeover := false,
             ventPaired := s.inPair, ventBytes := s.stg.dirtyBytes, ventStart := y.time })
  let s3 := (s2.setMode .vent).eachBay State.ventBay
  s3.onHnd Handler.stopMotion

/-- PWRFAIL_ASSERT (R445, R346): write gates are cut; in FILL, and in BOOT with no dirty data, EV_PWRFAIL only; otherwise
Vent starts, and in BOOT it carries the warm flush on. -/
def execPwrfailAssert (s : State) : Res :=
  match s.sys.mode with
  | .off => .next s
  | .fill => .next ((s.onSys (fun y => { y with pwrfail := true })).raiseDev .pwrfail)
  | .vent => .next (s.onSys (fun y => { y with pwrfail := true }))
  | .boot =>
    let s1 := s.onSys (fun y => { y with pwrfail := true })
    if s.stg.dirty.isEmpty then .next (s1.raiseDev .pwrfail) else .next s1.startVent
  | _ => .next ((s.onSys (fun y => { y with pwrfail := true })).cutAll .pwrfail).startVent

/-- VENT_DONE (R346): dirty data, journal and a clean root record are programmed; EV_VENT_DONE gives the time and the bytes. A
Vent that a Ripcord met, or that began in RIPCORD, ends there (R30). -/
def execVentDone (s : State) : Res :=
  if s.sys.mode ≠ .vent || s.sys.ventDone then .next s else
  let s1 := s.flushAll false
  let took := s1.sys.time - s1.sys.ventStart
  let s2 := (s1.onSys (fun y => { y with ventDone := true })).raiseDev .ventDone [.u32 took.toNat, .u64 s1.sys.ventBytes]
  if s2.sys.ventWatchdog ∨ s2.sys.ventFrom = .ripcord then .next s2.enterRipcord else .next s2

/-- The mode a member of a pair resumes into (R408). While it awaits settlement it serves no volume: its outstanding commands
complete with 0x26. -/
def State.resumePaired (s : State) : State :=
  let s0 := match s.sys.activation with
    | some a => s.loadImage a
    | none => s
  let s1 := s0.onSys (fun y => { y with ventTakeover := false })
  let past := match s1.pair.takeover with
    | some t => t.committed
    | none => decide (s1.pair.role.role = 3)
  if s1.mayTakeOver && !past then s1.startTakeover
  else if decide (s1.pair.role.role = 3) && past && s1.bothLost then
    (s1.setMode .pairedDegraded).onPair (fun q => { q with takeover := none })
  else
    (((s1.setMode .standalone).onPair (fun q => { q with awaiting := true, takeover := none, resync := none })).onFlash (fun f =>
      { f with pairRecord := some s1.pair.role })).endCommands 0x26

/-- VENT_RESUME (R29, R349, R408): with Vent complete and PWRFAIL_N inactive, firmware resumes: BOOT for a Vent that began
there, the mode R408 names for a member of a pair, the mode it came from otherwise. The reserve is erased again as it can. -/
def execVentResume (s : State) : Res :=
  if s.sys.mode ≠ .vent || !s.sys.ventDone then .next s else
  let limit := (s.params.acceptedOf 8 Param.stgDirtyLimit).toNat
  let s1 := (s.onSys (fun y => { y with pwrfail := false })).onStg (fun g => g.fitReserve limit)
  if s1.sys.ventFrom = .boot then .next ((s1.onSys (fun y => { y with warmFlushDue := false })).setMode .boot)
  else if s1.sys.ventPaired then .next s1.resumePaired.gcStart
  else .next ((s1.setMode s1.sys.ventFrom).gcStart)

/-! ### Clocks (R28, R433) -/

/-- A PLL loses lock (R433): EV_PLL_UNLOCK names it. -/
def State.pllLoss (s : State) (k : Fin 5) : State :=
  (s.onSys (fun y => { y with pll := y.pll.set k.val false k.isLt, pllLost := y.pllLost.set k.val true k.isLt })).raiseDev
    .pllUnlock [.u8 k.val]

/-- REFCLK_LOSS (R433): the Keel runs on the internal oscillator, and the loss is treated as a Keel watchdog expiry. -/
def execRefclkLoss (s : State) : Res :=
  if s.sys.mode = .off then .next s else
  let s1 := (s.onSys (fun y => { y with onOsc := true })).raiseDev .refclkLost
  if s.sys.mode = .ripcord then .next s1 else .next (s1.ripcord .refclk)

/-- A spindle's inverter opens, its current loop stopped (R28). -/
def State.rootCoast (s : State) (b : BayNo) : State :=
  match s.bays[b].spn.level with
  | .off => s
  | .coast => s
  | _ => s.coastLevel b 2

/-- ROOT_PLL_LOSS (R28): the Keel, PWM and handler domains run on REFCLK; write gates are cut and Ripcord starts at once. In a
Ripcord already begun, the spindles that still brake coast. -/
def execRootPllLoss (s : State) : Res :=
  if s.sys.mode = .off then .next s else
  let s1 := (s.pllLoss 0).onSys (fun y => { y with onRefclk := true })
  if s.sys.mode = .ripcord then .next (s1.eachBay State.rootCoast) else .next (s1.ripcord .rootPll)

/-- DDR_PLL_LOSS (R433): DRAM accesses stall; Ripcord follows when the watchdog expires. -/
def execDdrPllLoss (s : State) : Res := if s.sys.mode = .off then .next s else .next (s.pllLoss 1)

/-- NAND_PLL_LOSS (R433): the NAND groups run on root ÷ 10 until the next warm reset, and the Vent budget follows. -/
def execNandPllLoss (s : State) : Res :=
  if s.sys.mode = .off then .next s else .next ((s.pllLoss 2).onSys (fun y => { y with nandSlow := true }))

/-- A port's link goes down (R317). -/
def State.linkDown (s : State) (p : Port) : State :=
  if s.ports[p].linkUp then
    (s.onPort p (fun t => { t with linkUp := false, linkGen := 0, linkWidth := 0 })).raisePort p .portLinkDown
  else s

/-- PCIE_PLL_LOSS (R433): both links are down; started commands run on. -/
def execPciePllLoss (s : State) : Res :=
  if s.sys.mode = .off then .next s else .next ((s.pllLoss 3).eachPort State.linkDown)

/-- TETHER_PLL_LOSS (R433): the Tether stops. -/
def execTetherPllLoss (s : State) : Res :=
  if s.sys.mode = .off then .next s else .next ((s.pllLoss 4).tetherStops .down)

/-- PLL_LOCK (R436): REFCLK returns and every PLL locks; a warm reset that waits for them proceeds. -/
def execPllLock (s : State) : Res :=
  if s.sys.mode = .off then .next s else
  let s1 := s.onSys (fun y => { y with pll := Vector.replicate 5 true, onOsc := false, resetWaits := false })
  if !s.sys.resetWaits then .next s1
  else match s.sys.resetCause with
    | 1 => .next (s1.warmReset .ripcordHold)
    | 3 => .next (s1.warmReset .activation)
    | _ => .next (s1.warmReset .field)

/-! ### Watchdogs and Ripcord (R20, R436, R437) -/

/-- WATCHDOG_SERVICE (R436): a control core writes its service word; cores whose clock or DRAM has stopped do not. -/
def execWatchdogService (c : CoreNo) (s : State) : Res :=
  if s.sys.imageRuns && s.coresRun then
    .next (s.onSys (fun y => { y with serviced := y.serviced.set c.val true c.isLt }))
  else .next s

/-- KEEL_WATCHDOG_EXPIRY (R436): DEV.KEEL_WD_PERIOD ends; when every core has written its service word the next period
begins, otherwise the watchdog expires and Ripcord starts. -/
def execKeelWatchdogExpiry (s : State) : Res :=
  if s.sys.mode = .off || s.sys.mode = .ripcord || s.sys.keelStopped then .next s
  else if s.sys.serviced.toList.all id then .next (s.onSys (fun y => { y with serviced := Vector.replicate 4 false }))
  else .next (s.ripcord .watchdog)

/-- LOCKSTEP_MISMATCH (R20): K0 and K1 stop, and the mismatch is treated as a Keel watchdog expiry. -/
def execLockstepMismatch (s : State) : Res :=
  if s.sys.mode = .off then .next s else
  let s1 := s.onSys (fun y => { y with keelStopped := true })
  if s.sys.mode = .ripcord then .next s1 else .next (s1.ripcord .lockstep)

/-- The park of a Ripcord is complete (R436): every focus drive at its park code, every sled and axis at standstill, every
spindle off or coasting. -/
def State.parkComplete (s : State) : Bool :=
  (List.finRange 8).all (fun b => s.bays[b].srv.parked && !s.bays[b].sld.moving
    && decide (s.bays[b].spn.level = .off ∨ s.bays[b].spn.level = .coast)) && s.hnd.still

/-- RIPCORD_PARK_END (R436): the park ends and the hold of DEV.RIPCORD_HOLD starts. -/
def execRipcordParkEnd (s : State) : Res :=
  if s.sys.parking && s.parkComplete then .next (s.onSys (fun y => { y with parking := false, parked := true })) else .next s

/-- RIPCORD_HOLD_EXPIRY (R436): DEV.RIPCORD_HOLD, when it is above 0, has passed since the park ended; the Keel issues a warm
reset. A Vent completes first (R30). -/
def execRipcordHoldExpiry (s : State) : Res :=
  if s.sys.parked && decide (0 < s.dp Param.devRipcordHold) && decide (s.sys.mode ≠ .vent) then
    .next (s.warmReset .ripcordHold)
  else .next s

/-- The engine is held in reset. -/
def State.engineHeld (s : State) (e : EngineId) : Bool :=
  match e with
  | .q b => s.bays[b].qHeld
  | .s b => s.bays[b].sHeld
  | .f n => s.sys.fHeld[n]
  | .m n => s.sys.mHeld[n]

/-- Hold an engine in reset, or release it. -/
def State.holdEngine (s : State) (e : EngineId) (v : Bool) : State :=
  match e with
  | .q b => s.onBay b (fun t => { t with qHeld := v })
  | .s b => s.onBay b (fun t => { t with sHeld := v })
  | .f n => s.onSys (fun y => { y with fHeld := y.fHeld.set n.val v n.isLt })
  | .m n => s.onSys (fun y => { y with mHeld := y.mHeld.set n.val v n.isLt })

/-- An engine as EV_ENGINE_STALLED names it: Q0 to Q7 0 to 7, S0 to S7 8 to 15, F0 to F3 16 to 19, M0 and M1 20 and 21. -/
def engineCode : EngineId → Nat
  | .q n => n.val | .s n => 8 + n.val | .f n => 16 + n.val | .m n => 20 + n.val

/-- ENGINE_STALL (R437): an engine that misses its service word is held in reset, with EV_ENGINE_STALLED; the hold of Q-n is
a bay fault that cuts the write gate (R169, R32). -/
def execEngineStall (e : EngineId) (s : State) : Res :=
  if !s.sys.imageRuns || s.engineHeld e then .next s else
  let s1 := (s.holdEngine e true).raiseDev .engineStalled [.u8 (engineCode e)]
  match e with
  | .q b => .next (s1.cutGate b .bayFault)
  | _ => .next s1

/-- ENGINE_RESTART (R437): C3 restarts the engine from the running image; a restarted Q-n takes its bay to FAULTED with the
cause "sequencer". -/
def execEngineRestart (e : EngineId) (s : State) : Res :=
  if !s.sys.imageRuns || !s.engineHeld e then .next s else
  let s1 := s.holdEngine e false
  match e with
  | .q b => .next (s1.faultBay b .sequencer)
  | _ => .next s1

/-! ### Activation (R409, R444) -/

/-- No started command is left (Table 16.8). -/
def State.noneStarted (s : State) : Bool := s.cmds.all (fun c => !c.started || c.id.peer)

/-- ACTIVATION_RESUME (R444): the started commands have completed; the new image takes up state, the previous mode and
fetching resume, and EV_ACTIVATE_DONE gives the pause in ms. Standalone, the response is posted; in a planned hand-over with
a live Tether, ownership has been passed (EV_HANDOVER) and the response waits for the hand-back (R409). -/
def execActivationResume (s : State) : Res :=
  match s.sys.activation with
  | none => .next s
  | some a =>
    if s.sys.mode ≠ .activate || !s.noneStarted then .next s else
    let pass := a.handover && s.tetherLive
    let s0 := if pass then
        let s1 := s.onStg (fun g =>
          { g with dirty := g.dirty.map (fun d => { d with mirror := true }),
                   mirrored := g.map.map (fun e => (e.vid, e.ucl)) })
        let s2 := { s1 with vols := s1.vols.map (fun (v : Volume) => { v with ownPeer := true }) }
        ((s2.onPair (fun q => { q with handover := true })).raiseDev .handover).send 0x30 [0x121] |>.tellRole
      else s
    let pause := (s0.sys.time - a.start).toNat / 1000
    let s3 := s0.loadImage a
    let s4 := ((s3.returnTo s3.sys.cameFrom).markValid).raiseDev .activateDone [.u16 pause]
    if pass then .next s4
    else match s4.runPort (fun w => decide (w = .activate)) with
      | some p => .next (s4.respondRun p 0x00)
      | none => .next s4

/-- ACTIVATION_TIMEOUT (R444): fetching has not resumed by W + 1.5 s, and the Keel issues a warm reset. -/
def execActivationTimeout (s : State) : Res :=
  if s.sys.mode = .activate then .next (s.warmReset .activation) else .next s

/-! ### Sensors (R446, R447) -/

/-- HOLDUP_SAMPLE (R446): EV_HOLDUP_LOW after 16 conversions in a row below PWR.HOLDUP_MIN, and again only after 1 s above
it. -/
def execHoldupSample (code : BitVec 10) (s : State) : Res :=
  if s.sys.mode = .off then .next s else
  let mv := (code.toNat : Int) * s.dp Param.pwrHoldupScale
  let lim := s.dp Param.pwrHoldupMin
  let low := if mv < lim then s.sys.holdupLow + 1 else 0
  let high := if lim < mv then s.sys.holdupHigh + 1 else 0
  let armed := !s.sys.holdupRaised || decide (10000 ≤ high)
  let s1 := s.onSys (fun y => { y with holdup := code, holdupLow := min 16 low, holdupHigh := min 10000 high,
                                       holdupRaised := !armed })
  if 16 ≤ low ∧ armed then .next ((s1.onSys (fun y => { y with holdupRaised := true })).raiseDev .holdupLow) else .next s1

/-- JUNCTION_SAMPLE (R447): PWR.TJ follows the sensor; above PWR.TJ_WARN EV_THERMAL_WARN is raised once, and Updraft stops
until the junction has fallen 5 °C below the limit. -/
def execJunctionSample (t : Int) (s : State) : Res :=
  if s.sys.mode = .off then .next s else
  let lim := s.dp Param.pwrTjWarn
  let s1 := s.onSys (fun y => { y with tj := t })
  if lim < t ∧ s.sys.hot = false then .next ((s1.onSys (fun y => { y with hot := true })).raiseDev .thermalWarn)
  else if t ≤ lim - 5 then .next (s1.onSys (fun y => { y with hot := false }))
  else .next s1

end Sys2Proof.Machine
end

