-- ==== Sys2Proof/Machine/Settings.lean ====
section
/-! DEFINITION. Parameters through the mailbox: Get Parameter, Set Parameter and Policy Set (R10, R11, R35), the mode requests (R31), the parameters whose writing acts (R80, R159, R251, R256, R267, R348), and the diagnostic tests (R427, R428). -/

namespace Sys2Proof.Machine

/-! ### Naming a parameter (R5, R10, R306) -/

/-- The parameter that a request names and its instance: the bay for a bay-level ID, 8 above it. None for an ID that is not
listed or a bay number above 7. -/
def requestParam (r : BitVec 512) : Option (ParamInfo × Nat) :=
  match paramInfo (mbxPay r 0 2) with
  | none => none
  | some i =>
    match i.level with
    | .device => some (i, 8)
    | .bay => if (mbxTarget r).toNat < 8 then some (i, (mbxTarget r).toNat) else none

/-- The value of a Set Parameter request: 8 bytes, two's complement. -/
def requestValue (r : BitVec 512) : Int := (BitVec.ofNat 64 (mbxPay r 8 8)).toInt

/-- A request names the parameter of an ID. -/
def namesParam (id : Nat) (r : BitVec 512) : Bool := decide (mbxPay r 0 2 = id)

/-! ### Long values (R155, R259) -/

/-- A byte as a signed number. -/
def signedByte (b : Byte) : Int := b.toInt

/-- A strategy block meets Table 6.3 (R155): CRC, ranges, reserved bytes and flag bits 0. -/
def strategyBlockOk (b : List Byte) : Bool :=
  let at_ := fun (i : Nat) => b.getD i 0
  let within := fun (i : Nat) => decide (-8 ≤ signedByte (at_ i) ∧ signedByte (at_ i) ≤ 7)
  decide (crc32 (b.take 0x4C) = ofLeBytes ((b.drop 0x4C).take 4))
    && decide (100 ≤ ofLeBytes (b.take 2) ∧ ofLeBytes (b.take 2) ≤ 6000) && decide ((at_ 5).toNat < 2)
    && decide (at_ 6 = 0 ∧ at_ 7 = 0) && ((b.drop 0x44).take 8).all (· == 0)
    && (List.range 5).all (fun k => within (8 + 4 * k) && decide ((at_ (9 + 4 * k)).toNat ≤ 40 ∧ (at_ (10 + 4 * k)).toNat ≤ 40
      ∧ (at_ (11 + 4 * k)).toNat ≤ 40))
    && (List.range 40).all (fun k => within (0x1C + k))

/-- A strategy set is accepted (R155): 160 blocks of 80 bytes, all good. -/
def strategySetOk (bs : List Byte) : Bool :=
  decide (bs.length = 12800) && (List.range 160).all (fun k => strategyBlockOk ((bs.drop (80 * k)).take 80))

/-- An entry of the position table, where it is present: X, Z and θ (R259). -/
def positionEntry (e : List Byte) : Option (Int × Int × Int) :=
  let n := fun (off : Nat) => (BitVec.ofNat 32 (ofLeBytes ((e.drop off).take 4))).toInt
  if ofLeBytes ((e.drop 0xC).take 2) % 2 = 1 then some (n 0, n 4, n 8) else none

/-- The entries present of a position table, by location code, its number in the table (R258, R259). -/
def positionEntries (bs : List Byte) : List (Nat × Int × Int × Int) :=
  (List.range 1040).filterMap (fun k => (positionEntry ((bs.drop (16 * k)).take 16)).map (fun e => (k, e)))

/-- An axis position lies within the limits last accepted (R11, R259). -/
def State.acceptedWithin (s : State) (a : Nat) (v : Int) : Bool :=
  let lim := fun (f : Nat) => s.params.acceptedOf 8 (0x2000 + 16 * a + f)
  decide (lim Param.hndAxisLimitLo ≤ v ∧ v ≤ lim Param.hndAxisLimitHi)

/-- A position table is accepted (R259): its length, its CRC, and its present entries within the axis limits. -/
def State.positionTableOk (s : State) (bs : List Byte) : Bool :=
  decide (bs.length = 16644 ∧ crc32 (bs.take 16640) = ofLeBytes (bs.drop 16640))
    && (positionEntries bs).all (fun e =>
      s.acceptedWithin 0 e.2.1 && s.acceptedWithin 1 e.2.2.1 && s.acceptedWithin 2 e.2.2.2)

/-! ### Checks between parameters (R11, R176, R227, R253, R266, R359, R388) -/

/-- The values last accepted, with one of them replaced. -/
def State.wouldBe (s : State) (inst id : Nat) (v : Int) (i x : Nat) : Int :=
  if i = inst ∧ x = id then v else s.params.acceptedOf i x

/-- V_START and V_STOP are at most V_BREAK, and it at most V_MAX (R227): values from `base` on. -/
def profileOk (f : Nat → Int) (base : Nat) : Bool :=
  decide (f base ≤ f (base + 2) ∧ f (base + 1) ≤ f (base + 2) ∧ f (base + 2) ≤ f (base + 3))

/-- Functions 3 and 4 on at most one input, function 5 at most once for a magazine (R266). -/
def inputsOk (f : Nat → Int) : Bool :=
  let ws := (List.range 12).map (fun i => (f (Param.hndInCfg0 + i)).toNat)
  let n := fun (p : Nat → Bool) => (ws.filter p).length
  decide (n (fun w => decide (w % 16 = 3)) ≤ 1 ∧ n (fun w => decide (w % 16 = 4)) ≤ 1)
    && (List.range 4).all (fun m => decide (n (fun w => decide (w % 16 = 5 ∧ w / 64 % 4 = m)) ≤ 1))

/-- Buffers of a pool at the sizes last accepted. -/
def poolBufs (f : Nat → Int) (p : Nat) : Nat := (f (Param.balSize0 + p)).toNat * 1048576 / bufBytes p

/-- The minima of a pool, staging's with the dirty limit (R376). -/
def poolMinima (f : Nat → Int) (p : Nat) : Nat :=
  ((List.range 12).map (fun o =>
    let m := (f (Param.balMin + 16 * p + o)).toNat
    if p = 2 ∧ o = 10 then max m ((f Param.stgDirtyLimit).toNat * 16) else m)).sum

/-- The pools fit the DRAM, and the minima their pools (R388). -/
def ballastOk (gib : Nat) (f : Nat → Int) : Bool :=
  poolsFit gib ((List.range 4).map (fun p => (f (Param.balSize0 + p)).toNat))
    && (List.range 4).all (fun p => decide (poolMinima f p ≤ poolBufs f p))

/-- Usable capacity for a value of STG.OP, with the Vent reserve at the dirty limit last accepted (R359). -/
def State.usableAt (s : State) (op : Nat) : Nat :=
  Staging.usable { s.stg with limit := (s.params.acceptedOf 8 Param.stgDirtyLimit).toNat } op s.mem.gib

/-- A value agrees with the other parameters (R11). -/
def State.agrees (s : State) (inst id : Nat) (v : Int) : Bool :=
  let f := s.wouldBe inst id v inst
  if id = Param.srvFocDrvLimit ∨ id = Param.srvFocPark then decide (|f Param.srvFocPark| ≤ f Param.srvFocDrvLimit)
  else if Param.sldVStart ≤ id ∧ id ≤ Param.sldVMax then profileOk f Param.sldVStart
  else if 0x2000 ≤ id ∧ id < 0x2040 ∧ id % 16 < 4 then profileOk f (id - id % 16)
  else if Param.hndInCfg0 ≤ id ∧ id < Param.hndInCfg0 + 12 then inputsOk f
  else if id = Param.stgGcLow ∨ id = Param.stgGcHigh then decide (f Param.stgGcLow < f Param.stgGcHigh)
  else if id = Param.stgOp then decide (65536 * s.stg.map.length ≤ s.usableAt v.toNat)
  else if (Param.balSize0 ≤ id ∧ id < Param.balSize0 + 4) ∨ (Param.balMin ≤ id ∧ id < Param.balMin + 64) ∨ id = Param.stgDirtyLimit
    then ballastOk s.mem.gib f
  else true

/-- Set Parameter accepts a value for a parameter that has no row of its own (R10). -/
def State.accepts (s : State) (i : ParamInfo) (inst : Nat) (v : Int) : Bool :=
  i.range.holds (poolBufs (s.params.acceptedOf 8)) v && s.agrees inst i.id v

/-! ### Setting (R11, R345) -/

/-- A value is accepted (R11, Table 0.5). -/
def State.accept (s : State) (i : ParamInfo) (inst : Nat) (v : Int) : State :=
  { s with params := s.params.accept inst i v }

/-- What follows at once from a value accepted: the Vent reserve (R345), the scrubber and the cache (R369, Table 13.12), the
preferred slot (Table 16.10), the feed-forward tables (R180). -/
def State.afterAccept (s : State) (id inst : Nat) (old v : Int) : State :=
  if id = Param.stgDirtyLimit then s.onStg (fun g => g.fitReserve v.toNat)
  else if id = Param.memScrubPeriod ∨ id = Param.cachePrefetch then s.setMemRegs
  else if id = Param.pwrPreferredSlot then s.onSys (fun y => { y with preferDue := some (if v = 1 then 1 else 0) })
  else if id = Param.srvFfMode ∧ old ≠ v then
    if h : inst < 8 then s.invalidateTables ⟨inst, h⟩ 3 else s
  else s

/-- The parameters that a row of their own sets. -/
def ownRow (id : Nat) : Bool :=
  [Param.afeCalReq, Param.wrOpcReq, Param.bayReturn, Param.hndReturn, Param.hndInClear, Param.stgStateClear].contains id

/-- The mode requests and test words that a row of their own takes. -/
def ownValue (id : Nat) (v : Int) : Bool :=
  (decide (id = Param.devModeReq) && ([3, 7, 8, 12] : List Int).contains v)
    || (decide (id = Param.evtDiagRun) && ([1, 2, 3, 4, 5, 6] : List Int).contains (v % 256))

/-- A long value arrives by host memory (R155, R259): refused whole when it is not good, a position table with
EV_POSITION_TABLE. -/
def State.setLong (s : State) (p : Port) (r : BitVec 512) (id : Nat) : BufRead → State
  | .err e => (s.raisePort p .dmaError [.u16 (mbxTag r).toNat]).respond p (dmaStatus e)
  | .ok all =>
    let bs := all.take (mbxLen r)
    if id = Param.wrStrategySet then
      if strategySetOk bs then ({ s with params := { s.params with strategy := some bs } }).respond p 0x00 else s.respond p 0x11
    else if s.positionTableOk bs then
      ({ s with params := { s.params with positions := some (positionEntries bs), positionBytes := bs } }).respond p 0x00
    else (s.raiseDev .positionTable).respond p 0x11

/-- SET_PARAMETER (R10, R11): the ID, the bay, the range and the checks against other parameters; the value takes effect at its
effect point. -/
def execSetParameter (p : Port) (buf : BufRead) (s : State) : Res :=
  .next (s.serve p 0x102 (fun r => !ownRow (mbxPay r 0 2) && !ownValue (mbxPay r 0 2) (requestValue r)) (fun t r =>
    match requestParam r with
    | none => t.respond p 0x11
    | some (i, inst) =>
      let v := requestValue r
      if i.range = .long then t.setLong p r i.id buf
      else if t.accepts i inst v then
        ((t.accept i inst v).afterAccept i.id inst (t.params.acceptedOf inst i.id) v).respond p 0x00
      else t.respond p 0x11))

/-- The value Get Parameter reports (R11): 0 where the row says so, the state in force of a read-only one, the value last
accepted or the default otherwise. -/
def State.reported (s : State) (i : ParamInfo) (inst : Nat) : Int :=
  if i.readsZero then 0
  else match i.range with
    | .readOnly => if h : inst < 8 then s.bays[inst].readOnlyParam i.id else s.readOnlyParam i.id
    | _ => s.params.acceptedOf inst i.id

/-- The bytes of a long value: the strategy set last accepted or that of the image, the position table last accepted. -/
def State.longValue (s : State) (id : Nat) : List Byte :=
  if id = Param.wrStrategySet then s.params.strategy.getD Config.imageStrategySet else s.params.positionBytes

/-- GET_PARAMETER (R11): an ID that is not listed, or a bay above 7, returns 0x11. -/
def execGetParameter (p : Port) (s : State) : Res :=
  .next (s.serve p 0x101 anyReq (fun t r =>
    match requestParam r with
    | none => t.respond p 0x11
    | some (i, inst) =>
      if i.range = .long then t.respond p 0x00 [] ((t.longValue i.id).take (min (mbxBufLen r) 65535))
      else t.respond p 0x00 (leInt 8 (t.reported i inst))))

/-- POLICY_SET (R35): the eight policy entries in one step; a value above 1 returns 0x11 and changes none. -/
def execPolicySet (p : Port) (s : State) : Res :=
  .next (s.serve p 0x104 anyReq (fun t r =>
    if (List.range 8).all (fun k => decide (mbxPay r k 1 ≤ 1)) then
      ((List.range 8).foldl (fun (u : State) k =>
        match paramInfo (Param.polRetireReceiver + k) with
        | some i => u.accept i 8 (mbxPay r k 1)
        | none => u) t).respond p 0x00
    else t.respond p 0x11))

/-! ### Mode requests (R31) -/

/-- A Set Parameter request of an ID with a value. -/
def setsTo (id : Nat) (v : Int) (r : BitVec 512) : Bool := namesParam id r && decide (requestValue r = v)

/-- A mode request is accepted: DEV.MODE_REQ holds it. -/
def State.modeAccepted (s : State) (v : Int) : State :=
  match paramInfo Param.devModeReq with
  | some i => s.accept i 8 v
  | none => s

/-- Every receiver of every bay is due (R80). -/
def State.allDue (s : State) : State :=
  s.eachBay (fun t b => t.onAfe b (fun a => { a with recvs := a.recvs.map (fun (x : Receiver) => { x with due := true }) }))

/-- MODE_REQ_CALIBRATE (R31): only in STANDALONE; every receiver of every bay is then due (R80). -/
def execModeReqCalibrate (p : Port) (s : State) : Res :=
  .next (s.serve p 0x102 (setsTo Param.devModeReq 7) (fun t _ =>
    if t.sys.mode = .standalone then (((t.modeAccepted 7).setMode .calibrate).allDue).respond p 0x00 else t.respond p 0x11))

/-- MODE_REQ_QUIESCE (R31): only in a serving mode, which is returned to; started work finishes. -/
def execModeReqQuiesce (p : Port) (s : State) : Res :=
  .next (s.serve p 0x102 (setsTo Param.devModeReq 8) (fun t _ =>
    if t.sys.mode.serving then
      let from_ := t.sys.mode
      ((((t.modeAccepted 8).onSys (fun y => { y with cameFrom := from_ })).setMode .quiesce)).respond p 0x00
    else t.respond p 0x11))

/-- MODE_REQ_DIAGNOSTIC (R31): only in STANDALONE. -/
def execModeReqDiagnostic (p : Port) (s : State) : Res :=
  .next (s.serve p 0x102 (setsTo Param.devModeReq 12) (fun t _ =>
    if t.sys.mode = .standalone then ((t.modeAccepted 12).setMode .diagnostic).respond p 0x00 else t.respond p 0x11))

/-- MODE_REQ_SERVE (R31): back to STANDALONE, or to the mode QUIESCE came from; in a serving mode accepted without a change. -/
def execModeReqServe (p : Port) (s : State) : Res :=
  .next (s.serve p 0x102 (setsTo Param.devModeReq 3) (fun t _ =>
    let u := t.modeAccepted 3
    match t.sys.mode with
    | .calibrate => (u.setMode .standalone).respond p 0x00
    | .diagnostic => (u.setMode .standalone).respond p 0x00
    | .quiesce => (u.returnTo t.sys.cameFrom).respond p 0x00
    | _ => if t.sys.mode.serving then u.respond p 0x00 else t.respond p 0x11))

/-- Calibration is complete: no receiver that its bay can serve is due, and no run is in progress (R80). -/
def State.calibrationsDone (s : State) : Bool :=
  (List.finRange 8).all (fun b => s.bays[b].afe.cal.isNone
    && (!calibratesIn s.bays[b].seq.st || s.bays[b].afe.recvs.toList.all (fun x => !x.due || x.retired)))

/-- CALIBRATION_COMPLETE (R29): the device returns from CALIBRATE to STANDALONE. -/
def execCalibrationComplete (s : State) : Res :=
  if s.sys.mode = .calibrate ∧ s.calibrationsDone then .next (s.setMode .standalone) else .next s

/-! ### Parameters whose writing acts -/

/-- The bay that a request targets. -/
def requestBay (r : BitVec 512) : Option BayNo :=
  if h : (mbxTarget r).toNat < 8 then some ⟨(mbxTarget r).toNat, h⟩ else none

/-- Serve a Set Parameter of a bay-level parameter that acts: `top` is the highest value of its range. -/
def State.serveBaySet (s : State) (p : Port) (id top : Nat) (body : State → BayNo → Nat → State × Byte) : State :=
  s.serve p 0x102 (namesParam id) (fun t r =>
    match requestBay r with
    | some b =>
      if 0 ≤ requestValue r ∧ requestValue r ≤ top then
        match body t b (requestValue r).toNat with
        | (u, st) => u.respond p st
      else t.respond p 0x11
    | none => t.respond p 0x11)

/-- Serve a Set Parameter of a device-level parameter that acts. -/
def State.serveDevSet (s : State) (p : Port) (id top : Nat) (body : State → Nat → State) : State :=
  s.serve p 0x102 (namesParam id) (fun t r =>
    if 0 ≤ requestValue r ∧ requestValue r ≤ top then (body t (requestValue r).toNat).respond p 0x00 else t.respond p 0x11)

/-- CAL_REQ (R80): the receivers whose bits are written as 1 become due. -/
def execCalReq (p : Port) (s : State) : Res :=
  .next (s.serveBaySet p Param.afeCalReq 0x1F (fun t b v =>
    (t.onAfe b (fun a => { a with recvs := a.recvs.mapIdx (fun i x => { x with due := x.due || v.testBit i }) }), 0x00)))

/-- OPC_REQ (R159): the layers whose bits are written as 1 become due. -/
def execOpcReq (p : Port) (s : State) : Res :=
  .next (s.serveBaySet p Param.wrOpcReq 0xFFFF (fun t b v =>
    (t.onWp b (fun w => w.makeAllDue (fun l => v.testBit l.val)), 0x00)))

/-- BAY_RETURN (R251): 1 returns a FAULTED bay with no disc on the tray to EMPTY, and fails with 0x11 otherwise. -/
def execBayReturn (p : Port) (s : State) : Res :=
  .next (s.serveBaySet p Param.bayReturn 1 (fun t b v =>
    if v = 0 then (t, 0x00)
    else if t.bays[b].seq.st = .faulted ∧ t.bays[b].seq.tray = false then
      ((t.setBaySt b .empty 22).onSeq b (fun q => { q with cause := none, disc := none, coastDone := false, faultAfter := none }), 0x00)
    else (t, 0x11)))

/-- HND_RETURN (R256): 1 clears a faulted handler. -/
def execHndReturn (p : Port) (s : State) : Res :=
  .next (s.serveDevSet p Param.hndReturn 1 (fun t v => if v = 1 then t.onHnd (fun h => { h with faulted := false }) else t))

/-- IN_CLEAR (R267): the edge counters whose bits are written as 1 are cleared. -/
def execInClear (p : Port) (s : State) : Res :=
  .next (s.serveDevSet p Param.hndInClear 0xFFF (fun t v =>
    t.onHnd (fun h => { h with inputs := h.inputs.mapIdx (fun i (x : InputState) => if v.testBit i then { x with edges := 0 } else x) })))

/-- STATE_CLEAR (R348): 1 clears STG.STATE bit 3 and writes a root record without the Vent-incomplete flag. -/
def execStateClear (p : Port) (s : State) : Res :=
  .next (s.serveDevSet p Param.stgStateClear 1 (fun t v =>
    if v = 1 then (t.onStg (fun g => { g with incomplete := false })).writeRoot t.stg.dirty.isEmpty false
    else t))

/-! ### Diagnostics (R427, R428) -/

/-- A Set Parameter of EVT.DIAG_RUN with a test code. -/
def setsTest (code : Int) (r : BitVec 512) : Bool := namesParam Param.evtDiagRun r && decide (requestValue r % 256 = code)

/-- Start a test (R427): refused outside DIAGNOSTIC, while a test runs, and with a word outside Table 15.7. -/
def State.startTest (s : State) (p : Port) (r : BitVec 512) : State :=
  if s.sys.mode ≠ .diagnostic ∨ s.ev.diagState = 1 ∨ diagWordOk (requestValue r) = false then s.respond p 0x11
  else
    let u := match paramInfo Param.evtDiagRun with
      | some i => s.accept i 8 (requestValue r)
      | none => s
    (u.onEv (fun v => { v with diagWord := BitVec.ofNat 32 (requestValue r).toNat, diagState := 1, diagFails := 0 })).respond p 0x00

/-- DIAG_LANE_LOOPBACK (Table 15.7, code 0x01). -/
def execDiagLaneLoopback (p : Port) (s : State) : Res := .next (s.serve p 0x102 (setsTest 1) (fun t r => t.startTest p r))
/-- DIAG_DECODERS (code 0x02). -/
def execDiagDecoders (p : Port) (s : State) : Res := .next (s.serve p 0x102 (setsTest 2) (fun t r => t.startTest p r))
/-- DIAG_DRAM (code 0x03): over free Ballast buffers only, which are returned at its end. -/
def execDiagDram (p : Port) (s : State) : Res := .next (s.serve p 0x102 (setsTest 3) (fun t r => t.startTest p r))
/-- DIAG_NAND (code 0x04): on one spare block of each LUN. -/
def execDiagNand (p : Port) (s : State) : Res := .next (s.serve p 0x102 (setsTest 4) (fun t r => t.startTest p r))
/-- DIAG_TETHER_NEAR (code 0x05). -/
def execDiagTetherNear (p : Port) (s : State) : Res := .next (s.serve p 0x102 (setsTest 5) (fun t r => t.startTest p r))
/-- DIAG_TETHER_FAR (code 0x06). -/
def execDiagTetherFar (p : Port) (s : State) : Res := .next (s.serve p 0x102 (setsTest 6) (fun t r => t.startTest p r))

/-- The bytes of free Ballast buffers that lie before DRAM address `a`, by pool and index, where `a` itself lies in a free buffer. -/
def State.freeBytesBefore (s : State) (a : Nat) : Option Nat :=
  let sizes := s.poolSizes
  let inUse := fun (b : BallastPool) (i : Nat) => (lookupKey b.words i).isSome || b.out.contains i
  let hit := (List.finRange 4).find? (fun (p : Fin 4) =>
    let base := Config.poolBase sizes p.val
    decide (base ≤ a ∧ a < base + s.mem.pools[p].size * bufBytes p.val))
  match hit with
  | none => none
  | some p =>
    let b := s.mem.pools[p]
    let off := a - Config.poolBase sizes p.val
    let i := off / bufBytes p.val
    if inUse b i then none
    else
      let before := ((List.finRange 4).map (fun (q : Fin 4) => if q < p then s.mem.pools[q].free * bufBytes q.val else 0)).sum
      let used := (b.words.filter (fun w => decide (w.1 < i))).length + (b.out.filter (fun j => decide (j < i))).length
      some (before + (i - used) * bufBytes p.val + off % bufBytes p.val)

/-- The DRAM test leaves 0 in the free Ballast buffers it marched over, which went through owner staging and are free again (Table 15.7);
which of them an extent covers is not stated (log entry 114). -/
def State.marched (s : State) (mib : Nat) : State :=
  s.onMem (fun m => { m with cells := m.cells.filter (fun c => match s.freeBytesBefore c.1 with
    | some n => decide (mib * 1048576 ≤ n)
    | none => true) })

/-- DIAG_TEST_END (R427): EVT.DIAG_RESULT reports passed or failed with the failure count, and EV_DIAG_PASS or EV_DIAG_FAIL the
code, the target and the first failing item, and for the DRAM test the corrected reads (Table 15.7). -/
def execDiagTestEnd (failures : BitVec 16) (firstFail : Byte) (corrected : BitVec 32) (s : State) : Res :=
  if s.ev.diagState ≠ 1 then .next s else
  let w := s.ev.diagWord.toNat
  let dram := decide (w % 256 = 3)
  let fs := [PField.u8 (w % 256), .u8 (w / 256 % 256), .u8 firstFail.toNat] ++ (if dram then [.u32 corrected.toNat] else [])
  let ok := decide (failures = 0)
  let s0 := if dram then s.marched (w / 65536) else s
  let s1 := s0.onEv (fun v => { v with diagState := if ok then 2 else 3, diagFails := failures })
  .next (if ok then s1.raiseDev .diagPass fs else s1.raiseDev .diagFail fs)

end Sys2Proof.Machine
end

