-- ==== Sys2Proof/Machine/Mailbox.lean ====
section
/-! DEFINITION. The remaining mailbox commands (11_host_interface.md): Identify and Get Log (R308, R309), volumes (R310), Format (R311), Sanitize (R312, R313), firmware download and activation (R314, R443, R444), and the resumption of held requests (R307). -/

namespace Sys2Proof.Machine

/-! ### Identify (R308) -/

/-- NAND raw bytes: the LUNs found at boot (Table 12.2). -/
def Staging.rawBytes (g : Staging) : Nat := 16 * g.luns.length * g.blocks * g.pages * 65536

/-- The 4,096 bytes of Table 11.10. -/
def State.identifyBytes (s : State) (p : Port) : List Byte :=
  padBytes 4096 ([0x52, 0x4B, 0x5A, 0x49] ++ leBytes 2 Config.deviceNumber.toNat ++ leBytes 1 Config.stepping.toNat ++ leBytes 1 p.val
    ++ leBytes 4 s.sys.release.toNat ++ leBytes 4 Config.identity.toNat ++ leBytes 2 8 ++ leBytes 2 64 ++ leBytes 2 4096
    ++ leBytes 2 65 ++ leBytes 4 16384 ++ leBytes 4 4096 ++ leBytes 8 (s.mem.gib * 2 ^ 30) ++ leBytes 8 s.stg.rawBytes
    ++ leBytes 2 Config.maxVolumes ++ leBytes 2 s.vols.length ++ leBytes 1 s.sys.mode.code)

/-- IDENTIFY: the identify data, up to the buffer's length. -/
def execIdentify (p : Port) (s : State) : Res :=
  .next (s.serve p 0x100 anyReq (fun t r => t.respond p 0x00 [] ((t.identifyBytes p).take (mbxBufLen r))))

/-! ### Logs (R309, R358, R370, R426) -/

/-- The durability code in effect (R290): 1 buffered, 2 mirrored, 3 staged. -/
def Point.code : Point → Nat
  | .buffered => 1 | .mirrored => 2 | .staged => 3

/-- A volume table entry (R309). -/
def State.volumeEntry (s : State) (v : Volume) : List Byte :=
  leBytes 2 v.vid.toNat ++ leBytes 2 v.slot.toNat ++ [v.durability] ++ leBytes 1 (s.pointOf v.durability).code
    ++ leBytes 2 (boolMask [v.remap, v.formatted, (s.mountedIn v.vid).isSome, v.readOnly, v.unclean, v.ownPeer])
    ++ leBytes 2 v.location.toNat ++ leBytes 2 0 ++ leBytes 4 ((s.stg.map.filter (fun e => decide (e.vid = v.vid))).length)

/-- The smallest spare pool of the LUNs in service. -/
def Staging.leastSpares (g : Staging) : Nat :=
  let xs := g.luns.flatMap (fun l => ((List.finRange 16).filter (fun c => g.inService c.val l.val)).map (fun (c : Fin 16) => g.sparesLeft c l))
  match xs with
  | [] => 0
  | x :: rest => rest.foldl min x

/-- Highest and lowest erase count of the superblocks: one with no record has none. -/
def Staging.eraseSpan (g : Staging) : Nat × Nat :=
  let xs := g.sbs.map (·.erases)
  (xs.foldl max 0, if g.sbs.length < g.total then 0 else match xs with | [] => 0 | x :: rest => rest.foldl min x)

/-- The staging usage log (Table 12.12). -/
def State.stagingLog (s : State) : List Byte :=
  let g := s.stg
  leBytes 8 (g.usable (s.dn Param.stgOp) s.mem.gib) ++ leBytes 8 (65536 * g.map.length) ++ leBytes 8 g.dirtyBytes
    ++ leBytes 8 (g.limit * 2 ^ 20) ++ leBytes 4 g.freeCount ++ leBytes 4 g.reserveHeld ++ leBytes 4 (g.ventBudget s.nandRate)
    ++ leBytes 4 g.stateWord ++ leBytes 4 g.nand.retired.length ++ leBytes 2 g.nand.retiredLuns.length ++ leBytes 2 g.leastSpares
    ++ leBytes 4 g.eraseSpan.1 ++ leBytes 4 g.eraseSpan.2

/-- An entry of the DRAM error log (Table 13.5). -/
def DramError.logBytes (e : DramError) : List Byte :=
  leBytes 8 e.time.toNat ++ leBytes 8 (e.block.toNat * 128) ++ leBytes 1 (b2n (bitAt e.block 5) + 2 * b2n e.rank)
    ++ leBytes 1 e.chip.toNat ++ [e.symbols] ++ leBytes 1 e.kind ++ leBytes 1 e.source ++ leBytes 3 0 ++ leBytes 4 e.count ++ leBytes 4 0

/-- The DRAM error log (Tables 13.4 and 13.5). -/
def State.dramLog (s : State) : List Byte :=
  leBytes 4 s.mem.log.length ++ leBytes 4 s.flash.retiredPages.length ++ leBytes 8 s.mem.ceCount ++ leBytes 8 s.mem.ueCount
    ++ leBytes 4 s.mem.lostCount ++ leBytes 36 0 ++ s.mem.log.flatMap DramError.logBytes

/-- An entry of the retry log (Table 15.5). -/
def RetryEntry.logBytes (e : RetryEntry) : List Byte :=
  leBytes 8 e.time.toNat ++ leBytes 2 e.src ++ leBytes 1 e.kind ++ leBytes 1 (b2n e.persistent) ++ leBytes 1 e.action ++ leBytes 3 0
    ++ leBytes 8 e.identity.toNat ++ leBytes 4 e.seq.toNat ++ leBytes 4 0

/-- The retry log (Table 15.5). -/
def EventPath.retryLog (v : EventPath) : List Byte :=
  leBytes 4 v.retries.length ++ v.transients.toList.flatMap (leBytes 2) ++ v.persistents.toList.flatMap (leBytes 2) ++ leBytes 16 0
    ++ v.retries.flatMap RetryEntry.logBytes

/-- GET_LOG (R309): a log ID that is not listed returns 0x11. -/
def execGetLog (p : Port) (s : State) : Res :=
  .next (s.serve p 0x103 anyReq (fun t r =>
    match mbxPay r 0 1 with
    | 1 => if t.vols.isEmpty ∧ mbxPay r 4 4 = 0 then t.respond p 0x00 else t.respondArea p r (t.vols.flatMap t.volumeEntry)
    | 2 => t.respondArea p r t.sys.progress.bytes
    | 3 => t.respondArea p r t.stagingLog
    | 4 => t.respondArea p r t.dramLog
    | 5 => t.respondArea p r t.ev.retryLog
    | _ => t.respond p 0x11))

/-! ### Volumes (R310) -/

/-- A volume as Create Volume binds it. -/
def newVolume (vid : VolId) (slot : BitVec 16) (code : Byte) : Volume :=
  { vid := vid, slot := slot, durability := code, remap := false, formatted := false, readOnly := false, unclean := false,
    ownPeer := false, location := slot, ranges := [], known := false, ordinal := 0 }

/-- The home slot of a Create Volume. -/
def createSlot (r : BitVec 512) : BitVec 16 := BitVec.ofNat 16 (mbxPay r 0 2)
/-- Its durability code. -/
def createCode (r : BitVec 512) : Byte := BitVec.ofNat 8 (mbxPay r 2 1)
/-- Its modify bit. -/
def createModify (r : BitVec 512) : Bool := decide (mbxPay r 3 1 % 2 = 1)

/-- CREATE_VOLUME (R310): refused when the ID exists or is no volume ID, the slot is bound or above 0x3FF, the code is above 3, or
1,024 volumes exist. -/
def execCreateVolume (p : Port) (s : State) : Res :=
  .next (s.serve p 0x110 (fun r => !createModify r) (fun t r =>
    let vid := mbxTarget r
    let slot := createSlot r
    if (t.vol? vid).isSome || decide (vid = 0 ∨ vid = 0xFFFF) || t.vols.any (fun v => decide (v.slot = slot))
        || decide (0x3FF < slot.toNat) || decide (3 < (createCode r).toNat) || decide (Config.maxVolumes ≤ t.vols.length) then
      t.respond p 0x11
    else
      let u := { t with vols := putVol t.vols (newVolume vid slot (createCode r)) }
      ((u.saveAll).tellVol vid).respond p 0x00))

/-- MODIFY_DURABILITY (R310): Create Volume with bit 0 set changes only the durability of an existing volume. -/
def execModifyDurability (p : Port) (s : State) : Res :=
  .next (s.serve p 0x110 createModify (fun t r =>
    let vid := mbxTarget r
    if (t.vol? vid).isNone then t.respond p 0x13
    else if 3 < (createCode r).toNat then t.respond p 0x11
    else (((t.onVol vid (fun v => { v with durability := createCode r })).saveAll).tellVol vid).respond p 0x00))

/-- Undestaged data of a volume is held: dirty or staged (R310). -/
def State.undestaged (s : State) (vid : VolId) : Bool :=
  s.stg.dirty.any (fun d => decide (d.vid = vid)) || s.stg.map.any (fun e => decide (e.vid = vid))

/-- The commands of a volume that have not started complete with a status. -/
def State.endUnstarted (s : State) (which : Cmd → Bool) (status : Byte) : State :=
  let xs := s.cmds.filter (fun c => !c.started && which c)
  xs.foldl (fun (t : State) c => t.complete c.id status 0) s

/-- A volume's binding is removed (R310): its undestaged data is discarded, and its commands end. -/
def State.removeVolume (s : State) (vid : VolId) : State :=
  let one := fun (v : VolId) => decide (v = vid)
  let s1 := s.endUnstarted (fun c => decide (c.vid = vid)) 0x13
  let s2 := (s1.discardData one).unbind one
  s2.saveAll

/-- The Delete Volume of a volume that is not mounted ends (R310). -/
def State.deleteNow (s : State) (vid : VolId) (discard : Bool) : State × Byte :=
  if s.undestaged vid && !discard then (s, 0x11) else (s.removeVolume vid, 0x00)

/-- DELETE_VOLUME (R310): a mounted volume is unmounted first, and the row runs again to go on when it is. -/
def execDeleteVolume (p : Port) (s : State) : Res :=
  .next (match s.ports[p].mbx.run with
  | some run =>
    match run.wait with
    | .delete vid discard =>
      if (s.mountedIn vid).isSome then s
      else match s.deleteNow vid discard with
        | (t, st) => t.respondRun p st
    | _ => s
  | none => s.serve p 0x111 anyReq (fun t r =>
    let vid := mbxTarget r
    let discard := decide (mbxPay r 0 1 % 2 = 1)
    if (t.vol? vid).isNone then t.respond p 0x13
    else if t.undestaged vid && !discard then t.respond p 0x11
    else match t.mountedIn vid with
      | some b =>
        let u := (t.endUnstarted (fun c => decide (c.vid = vid)) 0x13).beginRun p (.delete vid discard)
        if u.bays[b].seq.unmounting.isSome then u else u.orderUnmount b none
      | none => match t.deleteNow vid discard with
        | (u, st) => u.respond p st))

/-! ### Format (R61, R311, R313) -/

/-- A Format at the bay whose disc it is for, mounted and READY (R311): certifying ends it where a preamble was found in the user
area; otherwise set 1 is due. -/
def State.formatAt (s : State) (p : Port) (b : BayNo) (certify remap recorded : Bool) : State :=
  let d := s.bays[b].seq.disc
  if (d.bind (·.mgmt)).isSome then s.formatEnds p 0x11
  else if certify && recorded then s.formatEnds p 0x11
  else if s.bays[b].rc.geometryFailed then s.formatEnds p 0x25
  else s.onWp b (fun w => { w with mgmtDue := some (.format remap (some p)) })

/-- FORMAT (R311): the disc is mounted first, and the row runs again to go on; `recorded`, the stride-read of the layers' user areas
that certifies the disc met a preamble. MANAGEMENT_SET_WRITE writes set 1 and answers. With no request, the disc of a Format
that a power loss cut short is mounted again (R313). -/
def execFormat (p : Port) (recorded : Bool) (s : State) : Res :=
  let proceed := fun (t : State) (vid : VolId) (certify remap : Bool) =>
    match t.mountedIn vid with
    | some b => if t.bays[b].seq.st = .ready ∧ t.bays[b].wp.mgmtDue = none ∧ t.bays[b].seq.unmounting = none
        then t.formatAt p b certify remap recorded else t
    | none => t.placeDisc vid
  .next (match s.ports[p].mbx.run with
  | some run =>
    match run.wait with
    | .format vid certify remap => if s.sys.mode.serving then proceed s vid certify remap else s
    | _ => s
  | none =>
   let q := s.sys.progress
   if q.op = 1 ∧ q.state = 2 ∧ s.sys.mode.serving ∧ (s.mountedIn q.target).isNone then s.placeDisc q.target
   else s.serve p 0x112 anyReq (fun t r =>
    let vid := mbxTarget r
    match t.vol? vid with
    | none => t.respond p 0x13
    | some v =>
      if v.ownPeer then t.respond p 0x26
      else if v.formatted then t.respond p 0x11
      else
        let remap := decide (mbxPay r 0 1 % 2 = 1)
        let certify := decide (mbxPay r 0 1 / 2 % 2 = 1)
        proceed ((t.formatBegins vid).beginRun p (.format vid certify remap)) vid certify remap))

/-! ### Sanitize (R312, R313) -/

/-- The NAND dies of the device, LUN index by LUN index. -/
def Staging.dies (g : Staging) : List (Fin 16 × Fin 16) :=
  g.luns.flatMap (fun l => ((List.finRange 16).filter (fun c => g.inService c.val l.val)).map (fun (c : Fin 16) => (c, l)))

/-- A map entry is host data of this device, not a mirror copy. -/
def Staging.ownEntry (g : Staging) (e : MapEntry) : Bool := !g.mirrored.contains (e.vid, e.ucl)

/-- One die is erased (R312): what it held of the device's own host data is gone. -/
def Staging.sanitizeDie (g : Staging) (die : Fin 16 × Fin 16) : Staging :=
  let gone := fun (e : MapEntry) => g.ownEntry e && decide (locChan e.loc = die.1 ∧ locLun e.loc = die.2)
  { g with map := g.map.filter (fun e => !gone e), nand := { g.nand with entries := g.nand.entries.filter (fun e => !gone e) } }

/-- Superblocks that hold nothing live are erased once the last die is done. -/
def Staging.sanitizeBlocks (g : Staging) : Staging :=
  let empty := fun (x : Superblock) => (g.live x).isEmpty && decide (x.st ≠ .free ∧ x.st ≠ .reserve ∧ x.st ≠ .blocked)
  let sbs := g.sbs.map (fun (x : Superblock) => if empty x then { Superblock.fresh x.lun x.block with erases := x.erases + 1 } else x)
  { g with sbs := sbs, journal := [], gc := none, nand := { g.nand with blocks := sbs, intents := [] } }

/-- The address range of a Ballast pool. -/
def State.poolRange (s : State) (p : Fin 4) : Nat × Nat :=
  (Config.poolBase s.poolSizes p.val, Config.poolBase s.poolSizes p.val + s.mem.pools[p].size * bufBytes p.val)

/-- DRAM buffers, Updraft stores and Ballast pools lose the host's data; mirror copies held for the peer are not touched
(R312). -/
def State.sanitizeDram (s : State) : State :=
  let inPool := fun (a : Nat) => (List.finRange 4).any (fun p => decide ((s.poolRange p).1 ≤ a ∧ a < (s.poolRange p).2))
  let s1 := s.dropDirty (fun d => !d.mirror)
  let s2 := s1.onMem (fun m => { m with cells := m.cells.filter (fun c => !inPool c.1) })
  s2.eachBay (fun t b =>
    (t.onDec b (fun d => { d with store := [], updraft := none })).giveAll (bayOwner b) (t.bays[b].dec.store.filterMap (·.buf)))

/-- The sanitize is complete (R312): the previous mode, or STANDALONE after BOOT, and the response. -/
def State.sanitizeEnds (s : State) : State :=
  let s1 := (s.setProgress { s.sys.progress with state := 3, steps := s.sys.progress.total, status := 0 }).onStg Staging.sanitizeBlocks
  let s2 := (s1.returnTo s1.sys.cameFrom).markValid
  match s2.runPort (fun w => decide (w = .sanitize)) with
  | some p => s2.respondRun p 0x00
  | none => s2

/-- SANITIZE (R312): refused for an action other than 1 and 2, and with undestaged data unless bit 0 is set. The device enters
SANITIZE; commands fetched and not started complete with 0x32. -/
def execSanitize (p : Port) (s : State) : Res :=
  .next (s.serve p 0x113 anyReq (fun t r =>
    let action := mbxPay r 0 1
    let discard := decide (mbxPay r 1 1 % 2 = 1)
    let undestaged := t.stg.dirty.any (fun d => !d.mirror) || t.stg.map.any t.stg.ownEntry
    if (action ≠ 1 ∧ action ≠ 2) ∨ (undestaged && !discard) then t.respond p 0x11
    else
      let from_ := t.sys.mode
      let t1 := (t.beginRun p .sanitize).setProgress
        { op := 2, state := 1, target := 0xFFFF, steps := 0, total := t.stg.dies.length + 1, cycles := 0, status := 0 }
      let t2 := (t1.onSys (fun y => { y with cameFrom := from_, sanitizeAction := action })).setMode .sanitize
      t2.endUnstarted (fun c => !c.id.peer) 0x32))

/-- SANITIZE_STEP_DONE (R313): one die or DRAM is done and the progress record saved; the last step ends the sanitize. -/
def execSanitizeStepDone (s : State) : Res :=
  let q := s.sys.progress
  if s.sys.mode ≠ .sanitize ∨ q.op ≠ 2 then .next s else
  let s1 := match s.stg.dies[q.steps]? with
    | some die => s.onStg (fun g => g.sanitizeDie die)
    | none => s.sanitizeDram
  if q.total ≤ q.steps + 1 then .next s1.sanitizeEnds
  else .next (s1.setProgress { q with steps := q.steps + 1 })

/-! ### Firmware (R314, R440, R443, R444) -/

/-- FIRMWARE_DOWNLOAD (R314): offset 0 starts a new image; any other chunk goes on where the image ends. -/
def execFirmwareDownload (p : Port) (buf : BufRead) (s : State) : Res :=
  .next (s.serve p 0x120 anyReq (fun t r =>
    let off := mbxPay r 0 4
    let last := decide (mbxPay r 4 1 % 2 = 1)
    match buf with
    | .err e => (t.raisePort p .dmaError [.u16 (mbxTag r).toNat]).respond p (dmaStatus e)
    | .ok all =>
      let bs := all.take (mbxLen r)
      if off = 0 then
        (t.onSys (fun y => { y with download := some { bytes := bs, complete := last, port := p, discarded := false } })).respond p 0x00
      else match t.sys.download with
        | none => t.respond p 0x11
        | some d =>
          if d.discarded then t.respond p 0x40
          else if off ≠ d.bytes.length ∨ d.complete then t.respond p 0x11
          else (t.onSys (fun y => { y with download := some { d with bytes := d.bytes ++ bs, complete := last } })).respond p 0x00))

/-- An image is accepted (R440, Table 16.6): its magic and lengths are right, the hash of its public key is that of the unrevoked fuse
entry its key index names, the hash of its body is the header's, and its signature verifies over header bytes 0x000 to 0x0AB. -/
def imageOk (bs : List Byte) : Bool :=
  let part := fun (off k : Nat) => (bs.drop off).take k
  let n := fun (off k : Nat) => ofLeBytes (part off k)
  let key := part 0x10 97
  decide (part 0 4 = [0x52, 0x4B, 0x5A, 0x46] ∧ n 8 4 ≤ 15 * 2 ^ 20 - 4096 ∧ bs.length = 4096 + n 8 4)
    && (if h : n 0xE 1 < 4 then decide (Config.fuseHash ⟨n 0xE 1, h⟩ = some (Config.sha384 key)) else false)
    && decide (Config.sha384 (bs.drop 4096) = part 0x74 48) && Config.signatureVerifies key (part 0 0xAC) (part 0xAC 96)

/-- The slot an image makes. -/
def imageSlot (bs : List Byte) (commit : Nat) : Slot :=
  let n := fun (off k : Nat) => ofLeBytes ((bs.drop off).take k)
  { st := .trial, release := BitVec.ofNat 32 (n 4 4), length := bs.length, commit := commit, failed := 0,
    bayRev := BitVec.ofNat 16 (n 0xC 2) }

/-- The slot that is not running. -/
def State.inactive (s : State) : Fin 2 := 1 - s.sys.runSlot

/-- Commit an image to the inactive slot, trial and preferred (R443). -/
def State.commitImage (s : State) (bs : List Byte) : State :=
  let k := s.inactive
  let x := imageSlot bs (max s.flash.slots[0].commit s.flash.slots[1].commit + 1)
  (s.onFlash (fun f => f.writeDir (f.slots.set k.val x k.isLt) k)).onSys
    (fun y => { y with preferDue := none })

/-- Commit the complete downloaded image, where there is one (R314, R443): 0x11 without one, 0x51 when R440 fails. -/
def State.commit (s : State) : State × Byte :=
  match s.sys.download with
  | none => (s, 0x11)
  | some d =>
    if !d.complete || d.discarded then (s, 0x11)
    else if !imageOk d.bytes then (s, 0x51)
    else (s.commitImage d.bytes, 0x00)

/-- The action of a Firmware Activate. -/
def activateAction (r : BitVec 512) : Nat := mbxPay r 0 1

/-- FIRMWARE_COMMIT (R314, R443): Firmware Activate with action 0, or with an action that does not exist, which returns 0x11. -/
def execFirmwareCommit (p : Port) (s : State) : Res :=
  .next (s.serve p 0x121 (fun r => decide (activateAction r ≠ 1 ∧ activateAction r ≠ 2)) (fun t r =>
    if activateAction r = 0 then
      match t.commit with
      | (u, st) => u.respond p st
    else t.respond p 0x11))

/-- Activation begins (Table 16.8, R409): mode ACTIVATE, fetching stops, and commands fetched and not started complete with
0x41; in PAIRED with a live Tether it is a planned hand-over. -/
def State.activate (s : State) (p : Port) (k : Fin 2) : State :=
  let from_ := s.sys.mode
  let x := s.flash.slots[k]
  let hand := decide (from_ = .paired) && s.tetherLive
  let a : Activation := { port := some p, release := x.release, slot := k, bayRev := x.bayRev, handover := hand, passed := false,
                          start := s.sys.time }
  let s1 := (s.beginRun p .activate).onSys (fun y => { y with cameFrom := from_, activation := some a })
  (s1.setMode .activate).endUnstarted (fun c => !c.id.peer) 0x41

/-- COMMIT_AND_ACTIVATE (R443): an image of another bay interface revision is committed and not activated, and returns 0x11. -/
def execCommitAndActivate (p : Port) (s : State) : Res :=
  .next (s.serve p 0x121 (fun r => decide (activateAction r = 1)) (fun t _ =>
    match t.commit with
    | (u, st) =>
      if st ≠ 0x00 then u.respond p st
      else if u.flash.slots[u.inactive].bayRev ≠ u.sys.bayRev then u.respond p 0x11
      else u.activate p u.inactive))

/-- ACTIVATE_SLOT (R443): the inactive slot is read and checked under R440, which `imageOk` answers; an empty slot returns
0x11. -/
def execActivateSlot (p : Port) (imageOk : Bool) (s : State) : Res :=
  .next (s.serve p 0x121 (fun r => decide (activateAction r = 2)) (fun t _ =>
    let x := t.flash.slots[t.inactive]
    if x.st = .empty then t.respond p 0x11
    else if !imageOk then t.respond p 0x51
    else if x.bayRev ≠ t.sys.bayRev then t.respond p 0x11
    else t.activate p t.inactive))

/-! ### Held requests (R307, R457) -/

/-- HELD_REQUEST_RESUME (R307): a request held busy is to be handled once the mode that held it has ended, an answer that waited
for the mailbox is posted, and a request of an opcode that does not exist is answered once the mailbox is ready. -/
def execHeldRequestResume (p : Port) (s : State) : Res :=
  let m := s.ports[p].mbx
  .next (match m.run with
  | some run =>
    match run.wait with
    | .answer st => if servingPlus s.sys.mode || decide (s.sys.mode = .sanitize) then s.respondRun p st else s
    | _ => s
  | none =>
    let s1 := if m.held ∧ s.mbxGate (mbxOpcode m.req) ≠ .hold then s.onMbx p (fun x => { x with held := false }) else s
    s1.answerUnlisted p)

end Sys2Proof.Machine
end

