-- ==== Sys2Proof/Machine/Memory.lean ====
section
/-! DEFINITION. The memory commands (13_memory_buffers_cache.md): DRAM accesses, scrubber, error FIFO, Ballast, triplicated words and engine cache. -/

namespace Sys2Proof.Machine

/-! ### DRAM (R363, R364, R369, R370) -/

/-- DRAM_READ (R362, R364, R365): a block read that meets the errors of `o`; the data goes to the requester (shown for a core, whose
load it is), a persistent failure is a bus error to it. -/
def execDramRead (addr : BitVec 40) (r : Requester) (o : DramObs) (s : State) : Res :=
  if !s.coresRun then .next s
  else if s.mem.bytes ≤ addr.toNat then .fault .beyondDram
  else
    match s.dramResult addr 0 o with
    | (some wrong, s1) =>
      match r with
      | .core _ =>
        .next (s1.emit (.coreRead (BitVec.ofNat 64 (memRead (s1.mem.spoil addr.toNat wrong).cells (addr.toNat / 8 * 8) 8))))
      | _ => .next s1
    | (none, s1) => .next (s1.busErrorTo r addr)

/-- DRAM_PARTIAL_WRITE (R363): the bytes, up to the end of their block, are merged by a held read-modify-write; when the read
is uncorrectable the write is not made and the writer receives a bus error. -/
def execDramPartialWrite (addr : BitVec 40) (bytes : List Byte) (r : Requester) (o : DramObs) (s : State) : Res :=
  if !s.coresRun then .next s
  else if s.mem.bytes ≤ addr.toNat then .fault .beyondDram
  else
    match s.dramResult addr 1 o with
    | (some wrong, s1) =>
      .next (s1.onMem (fun m =>
        { m with cells := memWrite (m.spoil addr.toNat wrong).cells addr.toNat (bytes.take (128 - addr.toNat % 128)) }))
    | (none, s1) => .next (s1.busErrorTo r addr)

/-- The scrubber moves to the next block; at the end of DRAM the pass ends with EV_SCRUB_PASS (R369). -/
def State.scrubNext (s : State) : State :=
  let n := s.mem.scrubPos.toNat + 1
  if n * 128 < s.mem.bytes then s.onMem (fun m => { m with scrubPos := BitVec.ofNat 33 n })
  else
    (s.onMem (fun m => { m with scrubPos := 0, scrubPasses := m.scrubPasses + 1, scrubUe := 0, scrubCe := 0 })).raiseDev
      .scrubPass [.u16 s.mem.scrubCe.toNat, .u16 s.mem.scrubUe.toNat]

/-- The scrubber runs (Table 13.10). -/
def State.scrubs (s : State) : Bool := s.coresRun && s.mem.scrubOn && decide (s.mem.scrubInterval ≠ 0 ∧ 0 < s.mem.gib)

/-- SCRUB_READ (R369): the next block is read and handled under R364; an uncorrectable block is logged only. -/
def execScrubRead (o : DramObs) (s : State) : Res :=
  if !s.scrubs then .next s else
  let addr : BitVec 40 := BitVec.ofNat 40 (s.mem.scrubPos.toNat * 128)
  let (good, s1) := s.dramResult addr 2 o
  let s2 := match dramDecode s.mem.x8 o.first with
    | .clean _ => s1
    | .corrected _ _ _ => s1.onMem (fun m => { m with scrubCe := BitVec.ofNat 16 (satInc 65535 m.scrubCe.toNat) })
    | .uncorrectable => s1.onMem (fun m => { m with scrubUe := BitVec.ofNat 16 (satInc 65535 m.scrubUe.toNat) })
  let s3 := if good.isSome then s2 else (s2.raiseDev .dramUncorrected).proposePage (addr.toNat / 4096)
  .next s3.scrubNext

/-- SCRUB_RESTART (Table 13.10): the pass restarts at block 0. -/
def execScrubRestart (s : State) : Res :=
  if !s.coresRun then .next s else .next (s.onMem (fun m => { m with scrubPos := 0, scrubUe := 0, scrubCe := 0 }))

/-- The value of DERR_POP for an entry (Table 13.10). -/
def DramError.popWord (e : DramError) : BitVec 64 :=
  BitVec.ofNat 64 (2 ^ 63 + 2 ^ 62 * b2n (decide (2 ≤ e.kind)) + 2 ^ 60 * (e.source % 4) + 2 ^ 59 * b2n (bitAt e.block 5)
    + 2 ^ 58 * b2n e.rank + 2 ^ 53 * e.chip.toNat + 2 ^ 40 * e.symbols.toNat + 2 ^ 7 * e.block.toNat)

/-- Place an entry in the DRAM error log (R370): one for the same block, source and kind within 1 ms of the previous one adds
to its count; the log keeps the latest 1,024. -/
def logDramError (log : List DramError) (e : DramError) : List DramError :=
  match log.getLast? with
  | some p =>
    if p.block = e.block ∧ p.source = e.source ∧ p.kind = e.kind ∧ e.time.toNat ≤ p.time.toNat + 1000 then
      log.dropLast ++ [{ p with count := p.count + 1 }]
    else (log ++ [e]).drop ((log ++ [e]).length - 1024)
  | none => [e]

/-- DERR_POP (R370, Table 13.10): one entry leaves the error FIFO for the DRAM error log; the register reads 0 with none. -/
def execDerrPop (s : State) : Res :=
  if !s.coresRun then .next s else
  match s.mem.fifo with
  | [] => .next ((s.onMem (fun m => { m with derrPop := 0 })).emit (.coreRead 0))
  | e :: rest =>
    .next ((s.onMem (fun m => { m with fifo := rest, log := logDramError m.log e, derrPop := e.popWord })).emit
      (.coreRead e.popWord))

/-- DERR_LOST_READ (Table 13.10): the count of lost entries is returned and cleared. -/
def execDerrLostRead (s : State) : Res :=
  if !s.coresRun then .next s else
  .next ((s.onMem (fun m => { m with derrLost := 0 })).emit (.coreRead (BitVec.ofNat 64 s.mem.derrLost.toNat)))

/-- CACHE_ERRORS_READ (Table 13.10): the cache SRAM error counts are returned and cleared. -/
def execCacheErrorsRead (s : State) : Res :=
  if !s.coresRun then .next s else
  let k := s.mem.cache
  .next ((s.onCache (fun k => { k with errCorrected := 0, errUncorrected := 0 })).emit
    (.coreRead (BitVec.ofNat 64 (k.errUncorrected.toNat * 2 ^ 32 + k.errCorrected.toNat))))

/-! ### Ballast (R373, R374, R376) -/

/-- BALLAST_ALLOCATE (R373, R376): a buffer, or a whole chain of pool 3 above 1 MiB, or a refusal with the handle
0xFFFF_FFFF. -/
def execBallastAllocate (owner : Fin 12) (size : Nat) (s : State) : Res :=
  if !s.coresRun then .next s else
  let (s1, h) := s.ballastTake owner size
  .next (s1.emit (.ballast (h.getD noHandle)))

/-- BALLAST_FREE (R373, R374): the buffer, or the whole chain of its head, is free again; a bad free changes nothing. -/
def execBallastFree (owner : Fin 12) (handle : BitVec 32) (s : State) : Res :=
  if !s.coresRun then .next s else .next (s.ballastGive owner handle)

/-- BALLAST_PASS (R373, R374): the buffer or the whole chain, and its count, go to the new owner; a reserve never refuses
it. -/
def execBallastPass (owner : Fin 12) (handle : BitVec 32) (newOwner : Fin 12) (s : State) : Res :=
  if !s.coresRun then .next s else .next (s.ballastPassTo owner handle newOwner)

/-! ### Triplicated words (R367, R368) -/

/-- TRIPLE_WRITE (R368): a word goes to all three banks in one cycle, or is kept for the commit of its set while that is open;
or a set is opened. -/
def execTripleWrite (op : TripleOp) (s : State) : Res :=
  match op with
  | .openSet set =>
    if s.mem.triple.staged.any (fun x => decide (x.1 = set)) then .next s
    else .next (s.onMem (fun m => { m with triple := { m.triple with staged := m.triple.staged ++ [(set, [])] } }))
  | .word w v =>
    let set := setOfWord w.val
    if s.mem.triple.staged.any (fun x => decide (x.1 = set)) then
      .next (s.onMem (fun m =>
        let st := m.triple.staged.map (fun x => if x.1 = set then (x.1, insertKey x.2 w.val v) else x)
        { m with triple := { m.triple with staged := st } }))
    else .next ((s.onMem (fun m => { m with triple := m.triple.put w v })).syncTriple)

/-- TRIPLE_COMMIT (R368): every word written since the set was opened is applied in one cycle. -/
def execTripleCommit (set : TripleSet) (s : State) : Res :=
  match s.mem.triple.staged.find? (fun x => decide (x.1 = set)) with
  | none => .next s
  | some x =>
    .next ((s.onMem (fun m => { m with triple :=
      { m.triple.putAll x.2 with staged := m.triple.staged.filter (fun y => !decide (y.1 = set)) } })).syncTriple)

/-- The requester of a read of a triplicated word: the writer of its set (Table 13.3). -/
def tripleReader (set : TripleSet) : Requester :=
  match set with
  | .servoLimits => .core 1
  | .mapRoot => .engine (.f 0)
  | .ventDesc => .core 2
  | .pairRole => .core 3
  | .progress => .core 2

/-- The identity of a triplicated word's bank in the retry log (Table 15.6): set, word, bank. -/
def tripleIdentity (w : Nat) (bank : Fin 3) : BitVec 64 :=
  BitVec.ofNat 64 (tripleSetCode (setOfWord w) + w * 256 + bank.val * 65536)

/-- A bank disagrees with the good value `v` (R368): it is written back and read once more; when it still disagrees it is
marked faulty for the word. -/
def State.tripleRepair (s : State) (w : Fin 31) (v : BitVec 64) (again : BitVec 64) (bank : Fin 3) : State :=
  let stays := decide (again ≠ v)
  let s1 := (s.onMem (fun m => { m with triple := { m.triple with
      banks := m.triple.banks.set bank.val (m.triple.banks[bank].set w.val (if stays then again else v) w.isLt) bank.isLt } })).raiseDev
    .tripleCorrected
  let s2 := s1.logRetry (DevEvent.source (if stays then .triplePersistent else .tripleCorrected)) 10 stays 0
    (tripleIdentity w.val bank)
  if stays then
    (s2.onMem (fun m => { m with triple := { m.triple with faulty := m.triple.faulty ++ [(w.val, bank)] } })).raiseDev
      .triplePersistent
  else s2

/-- TRIPLE_READ (R368): `banks`, what the banks answer, and `again`, what a written-back bank answers at its re-read. With
three good banks the bitwise majority is taken and a bank that disagrees is repaired or marked; with two, their value while
they agree; otherwise the read is uncorrectable, with a bus error to the reader, but for the servo output stage, which uses
the smaller magnitudes. -/
def execTripleRead (word : Fin 31) (banks again : Vector (BitVec 64) 3) (s : State) : Res :=
  let s0 := s.onMem (fun m =>
    let bs : Vector (Vector (BitVec 64) 31) 3 := Vector.ofFn (fun (b : Fin 3) => m.triple.banks[b].set word.val banks[b] word.isLt)
    { m with triple := { m.triple with banks := bs } })
  let good := (List.finRange 3).filter (fun b => !s.mem.triple.faulty.contains (word.val, b))
  match good with
  | [_, _, _] =>
    let v := majority banks[0] banks[1] banks[2]
    let bad := (List.finRange 3).filter (fun (b : Fin 3) => decide (banks[b] ≠ v))
    .next ((bad.foldl (fun t (b : Fin 3) => t.tripleRepair word v again[b] b) s0).emit (.coreRead v))
  | [a, b] =>
    if banks[a] = banks[b] then .next (s0.emit (.coreRead banks[a]))
    else
      let s1 := s0.raiseAt (.dev .triplePersistent) .critical []
      if word.val < 8 then .next (s1.emit (.coreRead (limitsNearer banks[a] banks[b])))
      else .next (s1.abort (tripleReader (setOfWord word.val)) 0)
  | _ =>
    .next ((s0.raiseAt (.dev .triplePersistent) .critical []).abort (tripleReader (setOfWord word.val)) 0)

/-! ### The engine cache (R378 to R383) -/

/-- An access that the cache does not serve: straight to DRAM (R383). -/
def State.uncached (s : State) (addr : BitVec 40) (a : CoreAccess) : State :=
  let at8 := addr.toNat / 8 * 8
  match a with
  | .load => s.emit (.coreRead (BitVec.ofNat 64 (memRead s.mem.cells at8 8)))
  | .store v => s.onMem (fun m => { m with cells := memWrite m.cells at8 (leBytes 8 v.toNat) })

/-- CACHE_ACCESS (R378, R379, R382): a core's 8-byte access. A hit is served; a line in the side buffer moves into the cache
and is served; any other access misses, takes a way, sends a dirty victim to the DRAM controller, and waits for its fill. -/
def execCacheAccess (core : CoreNo) (addr : BitVec 40) (a : CoreAccess) (s : State) : Res :=
  if !s.coresRun then .next s
  else if s.mem.bytes ≤ addr.toNat then .fault .beyondDram
  else if !s.mem.cache.enabled then .next (s.uncached addr a)
  else
    let l : BitVec 34 := BitVec.ofNat 34 (addr.toNat / 64)
    let k := s.mem.cache
    if (k.way? l).isSome then .next (s.cacheServe l addr a)
    else if k.filling l then .next (s.onCache (fun k => { k with waiting := k.waiting ++ [(l, core, addr, a)] }))
    else
      let (w, k1) := k.chooseWay l
      match k.side? l with
      | some d =>
        let s1 := s.onCache (fun _ => { k1.install l w d with side := k1.side.filter (fun x => !decide (x.1 = l)) })
        .next ((s1.noteMiss core l).cacheServe l addr a)
      | none =>
        let k2 := k1.evict l w
        let s1 := s.onCache (fun _ => { k2 with fills := k2.fills ++ [(l, w, core)],
                                                waiting := k2.waiting ++ [(l, core, addr, a)] })
        .next (s1.noteMiss core l)

/-- CACHE_FILL_DONE (R378, R382): the fill of a line, once its own writeback is accepted, brings the line from DRAM into its
way; the accesses that wait for it are served, then maintenance that waits for it is applied. -/
def execCacheFillDone (line : BitVec 34) (s : State) : Res :=
  let k := s.mem.cache
  match k.fills.find? (fun f => decide (f.1 = line)) with
  | none => .next s
  | some f =>
    if k.leaving line then .next s else
    let mine := k.waiting.filter (fun x => decide (x.1 = line))
    let s1 := s.onCache (fun k =>
      { k.install line f.2.1 (s.mem.line line) with
          fills := k.fills.filter (fun x => !decide (x.1 = line)),
          waiting := k.waiting.filter (fun x => !decide (x.1 = line)) })
    .next ((mine.foldl (fun t x => t.cacheServe line x.2.2.1 x.2.2.2) s1).maintRelease line)

/-- CACHE_WRITEBACK_ACCEPT (R382): the DRAM controller takes an evicted line; a held refill may then be issued, and
maintenance that waits finds the line absent and completes. -/
def execCacheWritebackAccept (line : BitVec 34) (s : State) : Res :=
  match s.mem.cache.evicted.find? (fun e => decide (e.1 = line)) with
  | none => .next s
  | some e =>
    .next (((s.onMem (fun m => m.putLine line e.2)).onCache (fun k =>
      { k with evicted := k.evicted.eraseP (fun x => decide (x.1 = line)) })).maintRelease line)

/-- CACHE_INVALIDATE_LINE (Table 13.8, code 1). -/
def execCacheInvalidateLine (s : State) : Res := if s.coresRun then .next (s.maintByAddress 1) else .next s

/-- CACHE_CLEAN_LINE (Table 13.8, code 2). -/
def execCacheCleanLine (s : State) : Res := if s.coresRun then .next (s.maintByAddress 2) else .next s

/-- CACHE_CLEAN_INVALIDATE_LINE (Table 13.8, code 3). -/
def execCacheCleanInvalidateLine (s : State) : Res := if s.coresRun then .next (s.maintByAddress 3) else .next s

/-- CACHE_INVALIDATE_ALL (Table 13.8, code 4). -/
def execCacheInvalidateAll (s : State) : Res :=
  if s.coresRun then .next (s.maintAll Memory.invalidateAll) else .next s

/-- CACHE_CLEAN_ALL (Table 13.8, code 5). -/
def execCacheCleanAll (s : State) : Res := if s.coresRun then .next (s.maintAll Memory.cleanAll) else .next s

/-- CACHE_CLEAN_INVALIDATE_ALL (Table 13.8, code 6). -/
def execCacheCleanInvalidateAll (s : State) : Res :=
  if s.coresRun then .next (s.maintAll (fun m => m.cleanAll.invalidateAll)) else .next s

/-- CACHE_ENABLE (R383): core accesses are served from the contents as they stand. -/
def execCacheEnable (s : State) : Res :=
  if s.coresRun then .next (s.onCache (fun k => { k with enabled := true })) else .next s

/-- CACHE_DISABLE (R383): core accesses go to DRAM; contents and tags stand, and an operation in progress completes. -/
def execCacheDisable (s : State) : Res :=
  if s.coresRun then .next (s.onCache (fun k => { k with enabled := false })) else .next s

end Sys2Proof.Machine
end

