-- ==== Sys2Proof/Machine/Staging.lean ====
section
/-! DEFINITION. The staging tier's commands (12_staging_flash.md): programs, NAND reads, garbage collection, journal, checkpoints, erases, retention and LUN retirement. -/

namespace Sys2Proof.Machine

/-! ### Full staging (R350) -/

/-- A closed superblock holds dead clusters (R350). -/
def Staging.reclaimable (g : Staging) : Bool :=
  (g.inState .closed).any (fun x => decide ((g.live x).length < x.programs))

/-- Judge whether staging is full (R350): EV_STAGING_FULL once for each episode, and destage work on every mounted disc
counts as having waited past BAY.DESTAGE_MAX_WAIT. -/
def State.judgeFull (s : State) : State :=
  let isFull := s.cmds.any (fun c => decide (c.wait = .space)) && (s.stg.openOf 0).isNone && decide (s.stg.freeCount ≤ 2)
    && !s.stg.reclaimable
  if isFull && !s.stg.full then
    ((s.onStg (fun g => { g with full := true })).raiseDev .stagingFull).eachBay (fun t b =>
      t.onSeq b (fun q => match q.disc with
        | some d => if d.mounted then { q with destageFirst := true } else q
        | none => q))
  else s.onStg (fun g => { g with full := isFull })

/-! ### Programs (R330, R352) -/

/-- CLUSTER_PROGRAM (R330): the oldest dirty cluster's program completes, in VENT to stream 2 and else to stream 0; `ok`,
its program status, and `again`, that of the identical retry. -/
def execClusterProgram (ok again : Bool) (s : State) : Res :=
  match s.stg.dirty with
  | [] => .next s
  | d :: _ =>
    let vent := decide (s.sys.mode = .vent)
    let stream : Fin 4 := if vent then 2 else 0
    match s.program stream (s.dirtyWords d stream.val) ok again with
    | none => .next s.judgeFull
    | some (loc, s1) =>
      let s2 := s1.programmed d loc
      let s3 := (((if vent then s2.ventSpill else s2).settleStaged).gcStart).judgeFull
      .next (State.settleMirrors s3.pair.uncommitted.length s3)

/-! ### Reads (R333 to R335) -/

/-- A sector is lost (R335): EV_NAND_UNRECOVERED names its volume and LBA, and its mask bit stays clear. -/
def State.nandLost (s : State) (loc : BitVec 34) (sector : Fin 16) : State :=
  match s.stg.map.find? (fun e => decide (e.loc = loc)) with
  | none => s
  | some e =>
    let s1 := s.raiseNand (locChan loc) .nandUnrecovered [.u16 e.vid.toNat, .u32 (e.ucl * 16 + sector.val)]
    let n := { e with mask := setBit e.mask sector.val false, lost := setBit e.lost sector.val true,
                      sectors := eraseKey e.sectors sector.val }
    s1.onStg (fun g => { g.journalRec (.delta n) with map := putEntry g.map n })

/-- A stripe rebuild of a codeword (R334): the sector is the rebuilt one, EV_NAND_STRIPE_REBUILD, the cluster is to be relocated to
stream 1 at once, and the block is proposed for retirement at its second rebuild. -/
def State.nandRebuilt (s : State) (loc : BitVec 34) (sector : Fin 16) (w : NandWord) : State :=
  let c := locChan loc
  let l := locLun loc
  let b := locBlock loc
  let s1 := s.raiseNand c .nandStripeRebuild [.u8 l.val, .u16 b, .u8 sector.val]
  let s2 := s1.onStg (fun g =>
    { g with map := g.map.map (fun (e : MapEntry) =>
               if e.loc = loc ∧ e.mask.getLsbD sector.val then { e with sectors := insertKey e.sectors sector.val (nandData w) } else e),
             relocate := g.relocate ++ (g.map.filter (fun e => decide (e.loc = loc))).map (fun e => (e.vid, e.ucl)) })
  if s2.stg.rebuilt.contains (c, l, b) then s2.proposeBlock loc 0
  else s2.onStg (fun g => { g with rebuilt := (c, l, b) :: g.rebuilt })

/-- A read of a location at a retention class (R333): its level is set at feature address 0x89, and the page is read. -/
def State.nandRead (s : State) (loc : BitVec 34) (cls : Nat) : State :=
  let c := locChan loc
  let s1 := s.onStg (fun g => { g with lastOp := g.lastOp.set c.val (0x00, loc.toNat) c.isLt })
  (s1.emit (.nand c 0xEF 0x89 (Config.retryLevel cls))).emit (.nand c 0x00 loc.toNat cls)

/-- The other classes in the order of R334: up from the one after `c` to 7, then down from the one before it. -/
def otherClasses (c : Nat) : List Nat := ((List.range 8).filter (fun k => decide (c < k))) ++ ((List.range c).reverse)

/-- The codeword that a stripe rebuild gives (R325, R334): the XOR of the same codeword of the other members; none where one of them
fails too, or its CRC does not hold. -/
def stripeWord (members : List (Option NandWord)) : Option NandWord :=
  if members.isEmpty || members.any (·.isNone) then none
  else nandDecoded (some ((members.filterMap id).foldl (· ^^^ ·) 0))

/-- NAND_CODEWORD_READ (R333 to R335): the first read at the class of its superblock, its identical repeat, the other classes in
order, then the stripe. -/
def execNandCodewordRead (loc : BitVec 34) (sector : Fin 16) (o : NandReadObs) (s : State) : Res :=
  let c := locChan loc
  let cls := s.stg.readClass loc
  let s0 := s.nandRead loc cls
  match nandDecoded o.first with
  | some _ => .next s0
  | none =>
    let s1 := s0.nandRead loc cls
    match nandDecoded o.again with
    | some _ => .next (s1.nandTransient loc 0)
    | none =>
      let s2 := s1.logRetry (Ev.nand c .nandReadRetry).src 4 true 3 (nandIdentity loc 0)
      let tries := (otherClasses cls).zip o.classes
      let failed := tries.takeWhile (fun x => (nandDecoded x.2).isNone)
      let s3 := (tries.take (failed.length + 1)).foldl (fun (t : State) x => t.nandRead loc x.1) s2
      if failed.length < tries.length then
        .next (s3.raiseNand c .nandReadRetry [.u8 (locLun loc).val, .u16 (locBlock loc), .u8 sector.val])
      else match stripeWord o.stripe with
        | some w => .next (s3.nandRebuilt loc sector w)
        | none => .next (s3.nandLost loc sector)

/-- NAND_OP_TIMEOUT (R352): no ready status in twice the operation's time; the LUN is reset and the operation repeated. When
the repeat fails too the LUN is proposed for retirement. -/
def execNandOpTimeout (c : ChanNo) (lun : Fin 16) (op : NandOp) (again : Bool) (s : State) : Res :=
  let s0 := (s.onStg (fun g => { g with lastOp := g.lastOp.set c.val (0xFF, lun.val) c.isLt })).emit (.nand c 0xFF lun.val 0)
  let loc := location lun.val 0 c.val
  let code := match op with | .read => 0 | .program => 1 | .erase => 2
  if again then .next (s0.nandTransient loc code)
  else
    let retire := decide (s0.dp Param.polRetireNand = 1)
    .next ((s0.logRetry (Ev.nand c .nandDieRetireProposed).src 4 true (if retire then 2 else 1) (nandIdentity loc code)).proposeLun
      c lun)

/-! ### Garbage collection (R336 to R338) -/

/-- Copy one cluster to stream 1. -/
def State.copyOne (s : State) (e : MapEntry) (ok again : Bool) : State :=
  let copy : MapEntry := { e with progSeq := s.sys.progSeq + 1 }
  match s.program 1 (copy.words 1) ok again with
  | none => s
  | some (loc, s1) => s1.copied e loc

/-- GC_COPY (R337): a cluster to relocate, else a live cluster of the victim, is programmed to stream 1; when the victim has
no live cluster left, its erase-intent record is journalled. None of this happens in VENT or SANITIZE (R336). -/
def execGcCopy (ok again : Bool) (s : State) : Res :=
  if s.sys.mode = .vent ∨ s.sys.mode = .sanitize then .next s else
  match s.stg.relocate with
  | (v, u) :: rest =>
    let s1 := s.onStg (fun g => { g with relocate := rest })
    match s1.stg.entry? v u with
    | some e => .next (s1.copyOne e ok again)
    | none => .next s1
  | [] =>
    let s1 := s.gcStart
    match s1.stg.gc with
    | some (.copy, l, b) =>
      let x := (s1.stg.sb? l b).getD (Superblock.fresh l b)
      match s1.stg.live x with
      | e :: _ => .next (s1.copyOne e ok again)
      | [] => .next (s1.onStg (fun g => { g.journalRec (.eraseIntent l b) with gc := some (.durable, l, b) }))
    | _ => .next s1

/-- JOURNAL_PAGE_PROGRAM (R340): the journal buffer's records are programmed to stream 3 and become durable; an erase-intent
record among them lets its victim be erased (R337), and waiting Flushes complete (R294). -/
def execJournalPageProgram (ok again : Bool) (s : State) : Res :=
  if s.stg.journal.isEmpty then .next s else
  match s.programJournal ok again with
  | none => .next s
  | some s1 =>
    .next ((s1.onStg (fun g => { g with gc := match g.gc with
      | some (.durable, l, b) => some (.erase, l, b)
      | x => x })).settleFlush)

/-- A superblock has been erased (R337, R345): it is free with one erase more, an erased record is journalled, and the Vent
reserve is filled up to the dirty limit last accepted. -/
def State.erasedSb (s : State) (l b : Nat) : State :=
  let x := (s.stg.sb? l b).getD (Superblock.fresh l b)
  let limit := (s.params.acceptedOf 8 Param.stgDirtyLimit).toNat
  let s1 := s.onStg (fun g =>
    let g1 := (g.putSb { Superblock.fresh l b with st := .free, erases := x.erases + 1 }).journalRec (.erased l b)
    let g2 := { g1 with gc := match g1.gc with
      | some (_, l', b') => if l' = l ∧ b' = b then none else g1.gc
      | none => none }
    g2.fitReserve limit)
  s1.gcStart.judgeFull

/-- An erase of superblock (l, b) may be issued: its erase-intent record is durable (R337), or it is listed to erase. -/
def Staging.mayErase (g : Staging) (l b : Nat) : Bool :=
  decide (g.gc = some (.erase, l, b)) || (match g.sb? l b with
    | some x => decide (x.st = .toErase)
    | none => false)

/-- BLOCK_ERASE (R337, R345, R352): the erase of a superblock completes; `c` names the channel whose erase status failed when
`ok` is not set, and `again` whether its identical repeat passed. A superblock whose block cannot be replaced is not
freed. -/
def execBlockErase (lun : Fin 16) (block : Nat) (c : ChanNo) (ok again : Bool) (s : State) : Res :=
  if !s.stg.mayErase lun.val block then .next s else
  let s0 := (List.finRange 16).foldl (fun (t : State) k => t.emit (.nand k 0x60 (location lun.val block k.val).toNat 0))
    (s.onStg (fun g => { g with lastOp := g.lastOp.map (fun _ => (0x60, block)) }))
  let loc := location lun.val block c.val
  if ok then .next (s0.erasedSb lun.val block)
  else if again then .next ((s0.nandTransient loc 2).erasedSb lun.val block)
  else
    let spare := decide (s0.dp Param.polRetireNand = 1) && decide (0 < s0.stg.sparesLeft c lun)
    let s1 := s0.proposeBlock loc 2
    if spare then .next (s1.erasedSb lun.val block)
    else
      let x := (s1.stg.sb? lun.val block).getD (Superblock.fresh lun.val block)
      .next (s1.onStg (fun g => { g.putSb { x with st := .blocked } with gc := none }))

/-! ### Checkpoints (R342), retention (R332), calibration (R320) -/

/-- Program one page of stream 3, where a position is left. -/
def State.metadataPage (s : State) : State :=
  let prog := s.sys.progSeq + 1
  match s.program 3 (metadataWords prog) true true with
  | some (_, t) => t.onSys (fun y => { y with progSeq := prog })
  | none => s

/-- CHECKPOINT (R342): changed map pages, 16 to a member, the directory and a root record naming them are programmed; never in VENT.
The count of map pages is a free value: the spec does not say which page an entry lies in. -/
def execCheckpoint (s : State) : Res :=
  if s.sys.mode = .vent ∨ s.sys.mode.code < 2 then .next s else
  let clean := decide (s.sys.mode = .quiesce) && s.stg.dirty.isEmpty
  let (pages, s0) := s.freeInt 1
  let s1 := (List.range (ceilDiv pages.toNat 16)).foldl (fun (t : State) _ => t.metadataPage) s0
  let dir := (s1.stg.ensureOpen 3 s1.seconds).openOf 3
  let s2 := (s1.metadataPage.onStg (fun g =>
    let g1 := g.durable
    { g1 with nand := { g1.nand with entries := g1.map, vols := s1.vols, sinceCheckpoint := 0 },
              directory := dir.map (fun x => location x.lun x.block x.next),
              journalPos := (g1.openOf 3).map (fun x => location x.lun x.block x.next) })).writeRoot clean false
  .next ((s2.raiseDev .checkpoint [.u32 pages.toNat]).settleFlush)

/-- 65,536 × 2^(k/10), rounded, for k from 0 to 9 (R332). -/
def tenthPower : Nat → Nat
  | 0 => 65536 | 1 => 70240 | 2 => 75281 | 3 => 80684 | 4 => 86475 | 5 => 92682 | 6 => 99334 | 7 => 106463
  | 8 => 114105 | _ => 122294

/-- 65,536 × 2^((T − 40) ÷ 10) (R332). -/
def agePerTick (t : Int) : Nat :=
  let k := (t - 40) / 10
  let f := tenthPower ((t - 40) % 10).toNat
  if 0 ≤ k then f * 2 ^ k.toNat else f / 2 ^ (-k).toNat

/-- RETENTION_TICK (R332): the channels' temperatures are read, and the age of every superblock holding data advances; a
superblock spans every channel, and the mean of their temperatures is taken (log entry 19). A part with no sensor counts at the
junction temperature less STG.NAND_TEMP_DELTA. -/
def execRetentionTick (sensors : Vector (Option Int) 16) (s : State) : Res :=
  let temps := sensors.map (fun (x : Option Int) => x.getD (s.sys.tj - s.dp Param.stgNandTempDelta))
  let t := temps.toList.sum / 16
  .next ((s.onStg (fun g => { g with temps := temps, sbs := g.sbs.map (fun x =>
    if (g.live x).isEmpty then x else { x with age := x.age + agePerTick t }) })).gcStart)

/-- ZQ_CALIBRATION (R320): ZQ Calibration Long is issued on every channel. -/
def execZqCalibration (s : State) : Res :=
  .next ((List.finRange 16).foldl (fun (t : State) k => t.emit (.nand k 0xF9 0 0))
    (s.onStg (fun g => { g with lastOp := Vector.replicate 16 (0xF9, 0) })))

/-- LUN_RETIRE (R353): a retired LUN's clusters are rebuilt from their stripes: each is to be programmed to stream 1. The
retirement itself, usable capacity and the Vent budget follow from the LUNs in service. -/
def execLunRetire (c : ChanNo) (lun : Fin 16) (s : State) : Res :=
  if !s.stg.nand.retiredLuns.contains (c, lun) then .next s else
  .next (s.onStg (fun g =>
    let hit := g.map.filter (fun e => decide (locChan e.loc = c ∧ locLun e.loc = lun) && !g.relocate.contains (e.vid, e.ucl))
    { g with relocate := g.relocate ++ hit.map (fun e => (e.vid, e.ucl)) }))

end Sys2Proof.Machine
end

