-- ==== Sys2Proof/Machine/Dispatch.lean ====
section
/-! DEFINITION. One arm per command: a direct call of its meaning. -/

namespace Sys2Proof.Machine

/-- The effect of a command on everything but the queue. -/
def exec (i : Instr) (s : State) : Host.Outcome State Fault Refusal :=
  match i with
  | .commandFetch p recs => Sys2Proof.Machine.execCommandFetch p recs s
  | .commandEligible c => Sys2Proof.Machine.execCommandEligible c s
  | .read c ext => Sys2Proof.Machine.execRead c ext s
  | .write c ext data => Sys2Proof.Machine.execWrite c ext data s
  | .flush c => Sys2Proof.Machine.execFlush c s
  | .verify c => Sys2Proof.Machine.execVerify c s
  | .cancel c => Sys2Proof.Machine.execCancel c s
  | .prefetch c => Sys2Proof.Machine.execPrefetch c s
  | .destage c => Sys2Proof.Machine.execDestage c s
  | .mount c => Sys2Proof.Machine.execMount c s
  | .unmount c => Sys2Proof.Machine.execUnmount c s
  | .locate c => Sys2Proof.Machine.execLocate c s
  | .mountWaitExpiry c => Sys2Proof.Machine.execMountWaitExpiry c s
  | .spaceWaitExpiry c => Sys2Proof.Machine.execSpaceWaitExpiry c s
  | .aggregationTimer p q => Sys2Proof.Machine.execAggregationTimer p q s
  | .hostReadError p what e => Sys2Proof.Machine.execHostReadError p what e s
  | .d3hotEntry p => Sys2Proof.Machine.execD3hotEntry p s
  | .d0Return p => Sys2Proof.Machine.execD0Return p s
  | .portLinkUp p gen width => Sys2Proof.Machine.execPortLinkUp p gen width s
  | .portLinkDown p => Sys2Proof.Machine.execPortLinkDown p s
  | .hotReset p => Sys2Proof.Machine.execHotReset p s
  | .flr p => Sys2Proof.Machine.execFlr p s
  | .fundamentalReset p => Sys2Proof.Machine.execFundamentalReset p s
  | .perstRelease p => Sys2Proof.Machine.execPerstRelease p s
  | .identify p => Sys2Proof.Machine.execIdentify p s
  | .getParameter p => Sys2Proof.Machine.execGetParameter p s
  | .setParameter p buf => Sys2Proof.Machine.execSetParameter p buf s
  | .getLog p => Sys2Proof.Machine.execGetLog p s
  | .policySet p => Sys2Proof.Machine.execPolicySet p s
  | .createVolume p => Sys2Proof.Machine.execCreateVolume p s
  | .modifyDurability p => Sys2Proof.Machine.execModifyDurability p s
  | .deleteVolume p => Sys2Proof.Machine.execDeleteVolume p s
  | .format p recorded => Sys2Proof.Machine.execFormat p recorded s
  | .sanitize p => Sys2Proof.Machine.execSanitize p s
  | .sanitizeStepDone => Sys2Proof.Machine.execSanitizeStepDone s
  | .firmwareDownload p buf => Sys2Proof.Machine.execFirmwareDownload p buf s
  | .firmwareCommit p => Sys2Proof.Machine.execFirmwareCommit p s
  | .commitAndActivate p => Sys2Proof.Machine.execCommitAndActivate p s
  | .activateSlot p imageOk => Sys2Proof.Machine.execActivateSlot p imageOk s
  | .pairJoin p peer => Sys2Proof.Machine.execPairJoin p peer s
  | .pairLeave p => Sys2Proof.Machine.execPairLeave p s
  | .pairLeaveSelf p peerVolumes => Sys2Proof.Machine.execPairLeaveSelf p peerVolumes s
  | .pairLeaveForced p => Sys2Proof.Machine.execPairLeaveForced p s
  | .moveDisc p => Sys2Proof.Machine.execMoveDisc p s
  | .reelFreeze p => Sys2Proof.Machine.execReelFreeze p s
  | .reelThaw p => Sys2Proof.Machine.execReelThaw p s
  | .reelReadBlocks p => Sys2Proof.Machine.execReelReadBlocks p s
  | .readDropCounters p => Sys2Proof.Machine.execReadDropCounters p s
  | .readClearDropCounters p => Sys2Proof.Machine.execReadClearDropCounters p s
  | .tailArm p => Sys2Proof.Machine.execTailArm p s
  | .tailRead p => Sys2Proof.Machine.execTailRead p s
  | .heldRequestResume p => Sys2Proof.Machine.execHeldRequestResume p s
  | .modeReqCalibrate p => Sys2Proof.Machine.execModeReqCalibrate p s
  | .modeReqQuiesce p => Sys2Proof.Machine.execModeReqQuiesce p s
  | .modeReqDiagnostic p => Sys2Proof.Machine.execModeReqDiagnostic p s
  | .modeReqServe p => Sys2Proof.Machine.execModeReqServe p s
  | .calibrationComplete => Sys2Proof.Machine.execCalibrationComplete s
  | .calReq p => Sys2Proof.Machine.execCalReq p s
  | .opcReq p => Sys2Proof.Machine.execOpcReq p s
  | .bayReturn p => Sys2Proof.Machine.execBayReturn p s
  | .hndReturn p => Sys2Proof.Machine.execHndReturn p s
  | .inClear p => Sys2Proof.Machine.execInClear p s
  | .stateClear p => Sys2Proof.Machine.execStateClear p s
  | .diagLaneLoopback p => Sys2Proof.Machine.execDiagLaneLoopback p s
  | .diagDecoders p => Sys2Proof.Machine.execDiagDecoders p s
  | .diagDram p => Sys2Proof.Machine.execDiagDram p s
  | .diagNand p => Sys2Proof.Machine.execDiagNand p s
  | .diagTetherNear p => Sys2Proof.Machine.execDiagTetherNear p s
  | .diagTetherFar p => Sys2Proof.Machine.execDiagTetherFar p s
  | .diagTestEnd failures firstFail corrected => Sys2Proof.Machine.execDiagTestEnd failures firstFail corrected s
  | .queueReset p mask => Sys2Proof.Machine.execQueueReset p mask s
  | .deviceReset p key => Sys2Proof.Machine.execDeviceReset p key s
  | .sqTailWrite p q v => Sys2Proof.Machine.execSqTailWrite p q v s
  | .cqHeadWrite p q v => Sys2Proof.Machine.execCqHeadWrite p q v s
  | .queueEnable p q qcfg => Sys2Proof.Machine.execQueueEnable p q qcfg s
  | .eventRingEnable p cfg => Sys2Proof.Machine.execEventRingEnable p cfg s
  | .eventRingDisable p => Sys2Proof.Machine.execEventRingDisable p s
  | .eventRingHeadWrite p v => Sys2Proof.Machine.execEventRingHeadWrite p v s
  | .bridleRead p cell width tie => Sys2Proof.Machine.execBridleRead p cell width tie s
  | .bridleWrite p cell width v => Sys2Proof.Machine.execBridleWrite p cell width v s
  | .alarmClear p word v => Sys2Proof.Machine.execAlarmClear p word v s
  | .reelFreezeBit p => Sys2Proof.Machine.execReelFreezeBit p s
  | .reelThawBit p => Sys2Proof.Machine.execReelThawBit p s
  | .reelWindowAdvance p => Sys2Proof.Machine.execReelWindowAdvance p s
  | .bar0BadAccess p isRead offset size => Sys2Proof.Machine.execBar0BadAccess p isRead offset size s
  | .registerWrite sp offset width v => Sys2Proof.Machine.execRegisterWrite sp offset width v s
  | .cacheInvalidateLine => Sys2Proof.Machine.execCacheInvalidateLine s
  | .cacheCleanLine => Sys2Proof.Machine.execCacheCleanLine s
  | .cacheCleanInvalidateLine => Sys2Proof.Machine.execCacheCleanInvalidateLine s
  | .cacheInvalidateAll => Sys2Proof.Machine.execCacheInvalidateAll s
  | .cacheCleanAll => Sys2Proof.Machine.execCacheCleanAll s
  | .cacheCleanInvalidateAll => Sys2Proof.Machine.execCacheCleanInvalidateAll s
  | .cacheEnable => Sys2Proof.Machine.execCacheEnable s
  | .cacheDisable => Sys2Proof.Machine.execCacheDisable s
  | .scrubRestart => Sys2Proof.Machine.execScrubRestart s
  | .derrPop => Sys2Proof.Machine.execDerrPop s
  | .cacheErrorsRead => Sys2Proof.Machine.execCacheErrorsRead s
  | .derrLostRead => Sys2Proof.Machine.execDerrLostRead s
  | .powerOnReset cause => Sys2Proof.Machine.execPowerOnReset cause s
  | .fillDone dram => Sys2Proof.Machine.execFillDone dram s
  | .bootDone o => Sys2Proof.Machine.execBootDone o s
  | .warmFlush => Sys2Proof.Machine.execWarmFlush s
  | .stagingRecovery found => Sys2Proof.Machine.execStagingRecovery found s
  | .pwrfailAssert => Sys2Proof.Machine.execPwrfailAssert s
  | .ventDone => Sys2Proof.Machine.execVentDone s
  | .ventResume => Sys2Proof.Machine.execVentResume s
  | .refclkLoss => Sys2Proof.Machine.execRefclkLoss s
  | .rootPllLoss => Sys2Proof.Machine.execRootPllLoss s
  | .ddrPllLoss => Sys2Proof.Machine.execDdrPllLoss s
  | .nandPllLoss => Sys2Proof.Machine.execNandPllLoss s
  | .pciePllLoss => Sys2Proof.Machine.execPciePllLoss s
  | .tetherPllLoss => Sys2Proof.Machine.execTetherPllLoss s
  | .watchdogService c => Sys2Proof.Machine.execWatchdogService c s
  | .keelWatchdogExpiry => Sys2Proof.Machine.execKeelWatchdogExpiry s
  | .lockstepMismatch => Sys2Proof.Machine.execLockstepMismatch s
  | .ripcordParkEnd => Sys2Proof.Machine.execRipcordParkEnd s
  | .ripcordHoldExpiry => Sys2Proof.Machine.execRipcordHoldExpiry s
  | .engineStall e => Sys2Proof.Machine.execEngineStall e s
  | .engineRestart e => Sys2Proof.Machine.execEngineRestart e s
  | .activationResume => Sys2Proof.Machine.execActivationResume s
  | .activationTimeout => Sys2Proof.Machine.execActivationTimeout s
  | .holdupSample code => Sys2Proof.Machine.execHoldupSample code s
  | .junctionSample t => Sys2Proof.Machine.execJunctionSample t s
  | .eventQueueEntry => Sys2Proof.Machine.execEventQueueEntry s
  | .eventRingCopy p => Sys2Proof.Machine.execEventRingCopy p s
  | .receiverFault b r cause => Sys2Proof.Machine.execReceiverFault b r cause s
  | .reliefSubstitution b => Sys2Proof.Machine.execReliefSubstitution b s
  | .receiverRetryRun b clear windows => Sys2Proof.Machine.execReceiverRetryRun b clear windows s
  | .headTempSample b code => Sys2Proof.Machine.execHeadTempSample b code s
  | .calSlotOpen b => Sys2Proof.Machine.execCalSlotOpen b s
  | .reliefSettled b => Sys2Proof.Machine.execReliefSettled b s
  | .laneSelectSwitch b l => Sys2Proof.Machine.execLaneSelectSwitch b l s
  | .calMeasurement b window => Sys2Proof.Machine.execCalMeasurement b window s
  | .clusterAcquisition b l home read cls first cycle samples => Sys2Proof.Machine.execClusterAcquisition b l home read cls first cycle samples s
  | .preambleDetect b l samples => Sys2Proof.Machine.execPreambleDetect b l samples s
  | .frameSyncSearch b l samples => Sys2Proof.Machine.execFrameSyncSearch b l samples s
  | .timingRange b l samples => Sys2Proof.Machine.execTimingRange b l samples s
  | .frameRecordRelease b l samples => Sys2Proof.Machine.execFrameRecordRelease b l samples s
  | .clusterEnd b l samples => Sys2Proof.Machine.execClusterEnd b l samples s
  | .defectDropout b l samples => Sys2Proof.Machine.execDefectDropout b l samples s
  | .sumDefectLong b => Sys2Proof.Machine.execSumDefectLong b s
  | .decoderDispatch d => Sys2Proof.Machine.execDecoderDispatch d s
  | .decodeComplete d flips => Sys2Proof.Machine.execDecodeComplete d flips s
  | .collectorAccept => Sys2Proof.Machine.execCollectorAccept s
  | .outerCodeRun b entry => Sys2Proof.Machine.execOuterCodeRun b entry s
  | .deliveryDeadline b entry => Sys2Proof.Machine.execDeliveryDeadline b entry s
  | .ladderStep b entry => Sys2Proof.Machine.execLadderStep b entry s
  | .updraftStart b => Sys2Proof.Machine.execUpdraftStart b s
  | .writeRunStart b prior => Sys2Proof.Machine.execWriteRunStart b prior s
  | .ldlFrame b req answer again => Sys2Proof.Machine.execLdlFrame b req answer again s
  | .ldlStatusPoll b status => Sys2Proof.Machine.execLdlStatusPoll b status s
  | .verifyCluster b => Sys2Proof.Machine.execVerifyCluster b s
  | .finalVerifyEnd b => Sys2Proof.Machine.execFinalVerifyEnd b s
  | .replacementPass b copies tries => Sys2Proof.Machine.execReplacementPass b copies tries s
  | .powerCalibration b layer outer probes tries again => Sys2Proof.Machine.execPowerCalibration b layer outer probes tries again s
  | .geometryWrite b layer probes recorded first second => Sys2Proof.Machine.execGeometryWrite b layer probes recorded first second s
  | .managementSetWrite b tries1 tries2 => Sys2Proof.Machine.execManagementSetWrite b tries1 tries2 s
  | .wobbleIndexLoss b found => Sys2Proof.Machine.execWobbleIndexLoss b found s
  | .unverifiedVerifyPass b reads => Sys2Proof.Machine.execUnverifiedVerifyPass b reads s
  | .wobbleAddressWord b units => Sys2Proof.Machine.execWobbleAddressWord b units s
  | .servoPeriod b o => Sys2Proof.Machine.execServoPeriod b o s
  | .tiltPeriod b onTime => Sys2Proof.Machine.execTiltPeriod b onTime s
  | .sledLoopPeriod b => Sys2Proof.Machine.execSledLoopPeriod b s
  | .servoDeadlineMiss b loop => Sys2Proof.Machine.execServoDeadlineMiss b loop s
  | .holdWindowExpiry b loop => Sys2Proof.Machine.execHoldWindowExpiry b loop s
  | .lullResume b loop => Sys2Proof.Machine.execLullResume b loop s
  | .lullReacquire b loop => Sys2Proof.Machine.execLullReacquire b loop s
  | .focusAcquisition b layer => Sys2Proof.Machine.execFocusAcquisition b layer s
  | .focusSweepEnd b => Sys2Proof.Machine.execFocusSweepEnd b s
  | .trackAcquisition b => Sys2Proof.Machine.execTrackAcquisition b s
  | .runoutRevolution b => Sys2Proof.Machine.execRunoutRevolution b s
  | .trackAcqTimeout b why => Sys2Proof.Machine.execTrackAcqTimeout b why s
  | .strideJump b => Sys2Proof.Machine.execStrideJump b s
  | .strideJumpLate b => Sys2Proof.Machine.execStrideJumpLate b s
  | .layerJump b toHigher => Sys2Proof.Machine.execLayerJump b toHigher s
  | .layerJumpWindowEnd b => Sys2Proof.Machine.execLayerJumpWindowEnd b s
  | .lensSeek b tracks => Sys2Proof.Machine.execLensSeek b tracks s
  | .sledSeek b turn => Sys2Proof.Machine.execSledSeek b turn s
  | .offsetApply b focusNm tiltCdeg => Sys2Proof.Machine.execOffsetApply b focusNm tiltCdeg s
  | .characterisationRun b run => Sys2Proof.Machine.execCharacterisationRun b run s
  | .pwmPeriod b o => Sys2Proof.Machine.execPwmPeriod b o s
  | .speedLoopPeriod b => Sys2Proof.Machine.execSpeedLoopPeriod b s
  | .spindleStartOrder b => Sys2Proof.Machine.execSpindleStartOrder b s
  | .startDecision b => Sys2Proof.Machine.execStartDecision b s
  | .encoderIndex b => Sys2Proof.Machine.execEncoderIndex b s
  | .encoderLoss b cause => Sys2Proof.Machine.execEncoderLoss b cause s
  | .encoderOverspeed e => Sys2Proof.Machine.execEncoderOverspeed e s
  | .drogueTimeout b => Sys2Proof.Machine.execDrogueTimeout b s
  | .spinupTimeout b => Sys2Proof.Machine.execSpinupTimeout b s
  | .spinDownOrder b => Sys2Proof.Machine.execSpinDownOrder b s
  | .sledPositionMove b target => Sys2Proof.Machine.execSledPositionMove b target s
  | .sledRetarget b target => Sys2Proof.Machine.execSledRetarget b target s
  | .sledHomeMove b => Sys2Proof.Machine.execSledHomeMove b s
  | .sledVelocityCommand b v => Sys2Proof.Machine.execSledVelocityCommand b v s
  | .sledPwmPeriod b mark => Sys2Proof.Machine.execSledPwmPeriod b mark s
  | .sledStandstill b => Sys2Proof.Machine.execSledStandstill b s
  | .handlerInterpolatedMove x z theta => Sys2Proof.Machine.execHandlerInterpolatedMove x z theta s
  | .handlerRetarget x z theta => Sys2Proof.Machine.execHandlerRetarget x z theta s
  | .handlerAxisMove a target => Sys2Proof.Machine.execHandlerAxisMove a target s
  | .handlerHome => Sys2Proof.Machine.execHandlerHome s
  | .handlerPwmPeriod marks => Sys2Proof.Machine.execHandlerPwmPeriod marks s
  | .moveDiscStepDone => Sys2Proof.Machine.execMoveDiscStepDone s
  | .handlerStandstill a => Sys2Proof.Machine.execHandlerStandstill a s
  | .inputFilterChange input level => Sys2Proof.Machine.execInputFilterChange input level s
  | .inputQuietEnd input => Sys2Proof.Machine.execInputQuietEnd input s
  | .inputStuck input => Sys2Proof.Machine.execInputStuck input s
  | .handlerResume => Sys2Proof.Machine.execHandlerResume s
  | .handlerStopWaitExpiry => Sys2Proof.Machine.execHandlerStopWaitExpiry s
  | .ownershipTake peerActiveSoon => Sys2Proof.Machine.execOwnershipTake peerActiveSoon s
  | .ownershipConflictRetry peerActiveSoon => Sys2Proof.Machine.execOwnershipConflictRetry peerActiveSoon s
  | .encoderQuietWait => Sys2Proof.Machine.execEncoderQuietWait s
  | .ownershipRelease => Sys2Proof.Machine.execOwnershipRelease s
  | .clampConfirm b => Sys2Proof.Machine.execClampConfirm b s
  | .clampTimeout b => Sys2Proof.Machine.execClampTimeout b s
  | .trayEmpty b => Sys2Proof.Machine.execTrayEmpty b s
  | .idleSpindown b => Sys2Proof.Machine.execIdleSpindown b s
  | .spindownComplete b => Sys2Proof.Machine.execSpindownComplete b s
  | .mountRead b probes1 probes2 => Sys2Proof.Machine.execMountRead b probes1 probes2 s
  | .ripcordDiscStopped b => Sys2Proof.Machine.execRipcordDiscStopped b s
  | .bayFault b cause => Sys2Proof.Machine.execBayFault b cause s
  | .remount vid => Sys2Proof.Machine.execRemount vid s
  | .coastWaitExpiry b => Sys2Proof.Machine.execCoastWaitExpiry b s
  | .workChoice b => Sys2Proof.Machine.execWorkChoice b s
  | .writeYield b => Sys2Proof.Machine.execWriteYield b s
  | .destageGuarantee b => Sys2Proof.Machine.execDestageGuarantee b s
  | .slowVisit b => Sys2Proof.Machine.execSlowVisit b s
  | .clusterProgram ok again => Sys2Proof.Machine.execClusterProgram ok again s
  | .nandCodewordRead loc sector o => Sys2Proof.Machine.execNandCodewordRead loc sector o s
  | .nandOpTimeout c lun op again => Sys2Proof.Machine.execNandOpTimeout c lun op again s
  | .gcCopy ok again => Sys2Proof.Machine.execGcCopy ok again s
  | .journalPageProgram ok again => Sys2Proof.Machine.execJournalPageProgram ok again s
  | .blockErase lun block c ok again => Sys2Proof.Machine.execBlockErase lun block c ok again s
  | .checkpoint => Sys2Proof.Machine.execCheckpoint s
  | .retentionTick sensors => Sys2Proof.Machine.execRetentionTick sensors s
  | .zqCalibration => Sys2Proof.Machine.execZqCalibration s
  | .lunRetire c lun => Sys2Proof.Machine.execLunRetire c lun s
  | .dramRead addr r o => Sys2Proof.Machine.execDramRead addr r o s
  | .dramPartialWrite addr bytes r o => Sys2Proof.Machine.execDramPartialWrite addr bytes r o s
  | .scrubRead o => Sys2Proof.Machine.execScrubRead o s
  | .ballastAllocate owner size => Sys2Proof.Machine.execBallastAllocate owner size s
  | .ballastFree owner handle => Sys2Proof.Machine.execBallastFree owner handle s
  | .ballastPass owner handle newOwner => Sys2Proof.Machine.execBallastPass owner handle newOwner s
  | .tripleWrite op => Sys2Proof.Machine.execTripleWrite op s
  | .tripleCommit set => Sys2Proof.Machine.execTripleCommit set s
  | .tripleRead word banks again => Sys2Proof.Machine.execTripleRead word banks again s
  | .cacheAccess core addr a => Sys2Proof.Machine.execCacheAccess core addr a s
  | .cacheFillDone line => Sys2Proof.Machine.execCacheFillDone line s
  | .cacheWritebackAccept line => Sys2Proof.Machine.execCacheWritebackAccept line s
  | .tetherTrainingStart => Sys2Proof.Machine.execTetherTrainingStart s
  | .tetherTrainingDone peerIdentity peerRelease => Sys2Proof.Machine.execTetherTrainingDone peerIdentity peerRelease s
  | .tetherTrainingTimeout => Sys2Proof.Machine.execTetherTrainingTimeout s
  | .flitReceive bytes => Sys2Proof.Machine.execFlitReceive bytes s
  | .nakReceive seq => Sys2Proof.Machine.execNakReceive seq s
  | .ackTimeout => Sys2Proof.Machine.execAckTimeout s
  | .heartbeatSend => Sys2Proof.Machine.execHeartbeatSend s
  | .heartbeatReceive h => Sys2Proof.Machine.execHeartbeatReceive h s
  | .heartbeatMissing => Sys2Proof.Machine.execHeartbeatMissing s
  | .peerOkInChange level samples => Sys2Proof.Machine.execPeerOkInChange level samples s
  | .brokenWireClear => Sys2Proof.Machine.execBrokenWireClear s
  | .takeoverRoleWrite => Sys2Proof.Machine.execTakeoverRoleWrite s
  | .ownershipCommit => Sys2Proof.Machine.execOwnershipCommit s
  | .forwardResolve => Sys2Proof.Machine.execForwardResolve s
  | .takeoverDone => Sys2Proof.Machine.execTakeoverDone s
  | .darkWaitExpiry => Sys2Proof.Machine.execDarkWaitExpiry s
  | .mirrorData msg vid ucl dataSeq mask sectors => Sys2Proof.Machine.execMirrorData msg vid ucl dataSeq mask sectors s
  | .mirrorCommit msgs => Sys2Proof.Machine.execMirrorCommit msgs s
  | .mirrorRelease vid ucls => Sys2Proof.Machine.execMirrorRelease vid ucls s
  | .volumeState m => Sys2Proof.Machine.execVolumeState m s
  | .forwardedCommand f => Sys2Proof.Machine.execForwardedCommand f s
  | .forwardedCompletion c status result sectors => Sys2Proof.Machine.execForwardedCompletion c status result sectors s
  | .tetherResyncEnd => Sys2Proof.Machine.execTetherResyncEnd s
  | .pairResyncProgress => Sys2Proof.Machine.execPairResyncProgress s
  | .joinResyncEnd peerSequence => Sys2Proof.Machine.execJoinResyncEnd peerSequence s
  | .rejoin r => Sys2Proof.Machine.execRejoin r s
  | .handback => Sys2Proof.Machine.execHandback s
  | .porstNRelease straps => Sys2Proof.Machine.execPorstNRelease straps s
  | .pllLock => Sys2Proof.Machine.execPllLock s
  | .encoderEdge e k time10ns => Sys2Proof.Machine.execEncoderEdge e k time10ns s
  | .smbusTransaction addr command pec => Sys2Proof.Machine.execSmbusTransaction addr command pec s
  | .jtagTapOperation op => Sys2Proof.Machine.execJtagTapOperation op s
  | .aerCorrectable p => Sys2Proof.Machine.execAerCorrectable p s
  | .eventVectorTimer p => Sys2Proof.Machine.execEventVectorTimer p s

end Sys2Proof.Machine
end

