-- ==== Sys2Proof/Machine/Tick.lean ====
section
/-! DEFINITION. The passing of time on an empty queue. -/

namespace Sys2Proof.Machine

/-- A microsecond passes: DEVICE_TIME counts while the device is out of power-on reset (Table 17.2). -/
def tick (s : State) : State :=
  if s.sys.mode = .off then s else s.onSys (fun y => { y with time := y.time + 1 })

end Sys2Proof.Machine
end

