-- ==== Sys2Proof/WellFormed.lean ====
section
/-! DEFINITION. Which commands are well formed: the bounds that the spec puts on what an operand list or number names, beyond those its type carries. -/

namespace Sys2Proof

/-- Why a command is ill formed. -/
inductive Illness where
  /-- DRAM of no chip, rank or capacity (R360). -/
  | memorySize
  /-- more than 8 chip enables on a channel, or a part that reports no LUN, plane, block or page (R319, R320). -/
  | nandShape
  /-- a member of a stripe without its 16 codewords (R323). -/
  | clusterWords
  /-- more members than the 15 others of a stripe (R324). -/
  | stripeMembers
  /-- a sector index beyond the 16 of a cluster (00_scope.md, Units). -/
  | sectorIndex
  /-- a register access of no byte (R275). -/
  | accessSize
  /-- a wobble cycle beyond the 32,256 of a turn (R39). -/
  | wobbleCycle
  /-- a cluster read whose address field has not 34 bytes (R49). -/
  | addressField
  /-- a symbol of a DRAM block named twice (R361). -/
  | symbolTwice
  /-- a level that no sample shows (R396). -/
  | noSample
  /-- more sectors of data than the forwarded range has (R399). -/
  | dataLength
  /-- a link that is up with no generation, or with a width that is not 1, 2 or 4 (R274). -/
  | linkShape
  /-- cells captured and cells shifted in that differ in number (R482). -/
  | scanLength
  /-- a partial write of no byte, or across the end of its 128-byte block (R361). -/
  | blockSpan
  deriving DecidableEq, Repr

/-- Every sector index is one of a cluster's 16. -/
def sectorsOk (l : List (Nat × SectorData)) : Bool := l.all (fun x => decide (x.1 < 16))

/-- A part that reports a geometry reports one with at least one page. -/
def partShape (p : NandPart) : Bool :=
  !p.signature || !p.goodPage || decide (0 < p.luns ∧ 0 < p.planes ∧ 0 < p.blocksPerPlane ∧ 0 < p.pagesPerBlock)

/-- The address field of a cluster read has its 34 bytes, and the erased ones are among them. -/
def readOk (r : ClusterRead) : Bool := decide (r.field.length = 34) && r.fieldErased.all (fun i => decide (i < 34))

/-- Every read that was made is well formed. -/
def readsOk (rs : List (Option ClusterRead)) : Bool := rs.all (fun r => match r with | some x => readOk x | none => true)

/-- The reads before and after every write of a list are well formed. -/
def triesOk (ts : List WriteTry) : Bool := ts.all (fun t => readsOk [t.before, t.after])

/-- No symbol of a block is named twice. -/
def symbolsOk (o : DramObs) : Bool := decide ((o.first.map (·.1)).Nodup) && decide ((o.again.map (·.1)).Nodup)

/-- What is ill formed in a command, if anything. -/
def Instr.illness : Instr → Option Illness
  | .portLinkUp _ gen width => if gen.val = 0 ∨ width.val = 0 ∨ width.val = 3 then some .linkShape else none
  | .bar0BadAccess _ _ _ size => if size = 0 then some .accessSize else none
  | .fillDone d => if d.density = 0 ∨ d.ranks = 0 ∨ d.chips = 0 then some .memorySize else none
  | .bootDone o => if o.nand.chips.toList.all (fun l => decide (l.length ≤ 8) && l.all partShape) then none else some .nandShape
  | .stagingRecovery found => if found.all (fun c => decide (c.words.length = 16)) then none else some .clusterWords
  | .clusterAcquisition _ _ _ _ _ _ cycle _ => if 0 ≤ cycle ∧ cycle < 32256 then none else some .wobbleCycle
  | .writeRunStart _ prior => if prior.all (fun x => readsOk [x.2]) then none else some .addressField
  | .replacementPass _ copies tries => if copies.all (fun x => readOk x.2) && triesOk tries then none else some .addressField
  | .powerCalibration _ _ _ _ tries again => if triesOk tries && triesOk again then none else some .addressField
  | .managementSetWrite _ tries1 tries2 => if triesOk tries1 && triesOk tries2 then none else some .addressField
  | .unverifiedVerifyPass _ reads => if readsOk reads then none else some .addressField
  | .nandCodewordRead _ _ o => if o.stripe.length ≤ 15 then none else some .stripeMembers
  | .dramRead _ _ o => if symbolsOk o then none else some .symbolTwice
  | .dramPartialWrite addr bytes _ o => if bytes = [] ∨ 128 < addr.toNat % 128 + bytes.length then some .blockSpan else if symbolsOk o then none else some .symbolTwice
  | .scrubRead o => if symbolsOk o then none else some .symbolTwice
  | .peerOkInChange _ samples => if samples = 0 then some .noSample else none
  | .mirrorData _ _ _ _ _ sectors => if sectorsOk sectors then none else some .sectorIndex
  | .forwardedCommand f => if f.data.length ≤ f.count then none else some .dataLength
  | .jtagTapOperation op => match op with | .samplePreload c i => if c.length = i.length then none else some .scanLength | _ => none
  | .commandFetch .. | .commandEligible .. | .read .. | .write .. | .flush ..
  | .verify .. | .cancel .. | .prefetch .. | .destage .. | .mount ..
  | .unmount .. | .locate .. | .mountWaitExpiry .. | .spaceWaitExpiry .. | .aggregationTimer ..
  | .hostReadError .. | .d3hotEntry .. | .d0Return .. | .portLinkDown .. | .hotReset ..
  | .flr .. | .fundamentalReset .. | .perstRelease .. | .identify .. | .getParameter ..
  | .setParameter .. | .getLog .. | .policySet .. | .createVolume .. | .modifyDurability ..
  | .deleteVolume .. | .format .. | .sanitize .. | .sanitizeStepDone .. | .firmwareDownload ..
  | .firmwareCommit .. | .commitAndActivate .. | .activateSlot .. | .pairJoin .. | .pairLeave ..
  | .pairLeaveSelf .. | .pairLeaveForced .. | .moveDisc .. | .reelFreeze .. | .reelThaw ..
  | .reelReadBlocks .. | .readDropCounters .. | .readClearDropCounters .. | .tailArm .. | .tailRead ..
  | .heldRequestResume .. | .modeReqCalibrate .. | .modeReqQuiesce .. | .modeReqDiagnostic .. | .modeReqServe ..
  | .calibrationComplete .. | .calReq .. | .opcReq .. | .bayReturn .. | .hndReturn ..
  | .inClear .. | .stateClear .. | .diagLaneLoopback .. | .diagDecoders .. | .diagDram ..
  | .diagNand .. | .diagTetherNear .. | .diagTetherFar .. | .diagTestEnd .. | .queueReset ..
  | .deviceReset .. | .sqTailWrite .. | .cqHeadWrite .. | .queueEnable .. | .eventRingEnable ..
  | .eventRingDisable .. | .eventRingHeadWrite .. | .bridleRead .. | .bridleWrite .. | .alarmClear ..
  | .reelFreezeBit .. | .reelThawBit .. | .reelWindowAdvance .. | .registerWrite .. | .cacheInvalidateLine ..
  | .cacheCleanLine .. | .cacheCleanInvalidateLine .. | .cacheInvalidateAll .. | .cacheCleanAll .. | .cacheCleanInvalidateAll ..
  | .cacheEnable .. | .cacheDisable .. | .scrubRestart .. | .derrPop .. | .cacheErrorsRead ..
  | .derrLostRead .. | .powerOnReset .. | .warmFlush .. | .pwrfailAssert .. | .ventDone ..
  | .ventResume .. | .refclkLoss .. | .rootPllLoss .. | .ddrPllLoss .. | .nandPllLoss ..
  | .pciePllLoss .. | .tetherPllLoss .. | .watchdogService .. | .keelWatchdogExpiry .. | .lockstepMismatch ..
  | .ripcordParkEnd .. | .ripcordHoldExpiry .. | .engineStall .. | .engineRestart .. | .activationResume ..
  | .activationTimeout .. | .holdupSample .. | .junctionSample .. | .eventQueueEntry .. | .eventRingCopy ..
  | .receiverFault .. | .reliefSubstitution .. | .receiverRetryRun .. | .headTempSample .. | .calSlotOpen ..
  | .reliefSettled .. | .laneSelectSwitch .. | .calMeasurement .. | .preambleDetect .. | .frameSyncSearch ..
  | .timingRange .. | .frameRecordRelease .. | .clusterEnd .. | .defectDropout .. | .sumDefectLong ..
  | .decoderDispatch .. | .decodeComplete .. | .collectorAccept .. | .outerCodeRun .. | .deliveryDeadline ..
  | .ladderStep .. | .updraftStart .. | .ldlFrame .. | .ldlStatusPoll .. | .verifyCluster ..
  | .finalVerifyEnd .. | .geometryWrite .. | .wobbleIndexLoss .. | .wobbleAddressWord .. | .servoPeriod ..
  | .tiltPeriod .. | .sledLoopPeriod .. | .servoDeadlineMiss .. | .holdWindowExpiry .. | .lullResume ..
  | .lullReacquire .. | .focusAcquisition .. | .focusSweepEnd .. | .trackAcquisition .. | .runoutRevolution ..
  | .trackAcqTimeout .. | .strideJump .. | .strideJumpLate .. | .layerJump .. | .layerJumpWindowEnd ..
  | .lensSeek .. | .sledSeek .. | .offsetApply .. | .characterisationRun .. | .pwmPeriod ..
  | .speedLoopPeriod .. | .spindleStartOrder .. | .startDecision .. | .encoderIndex .. | .encoderLoss ..
  | .encoderOverspeed .. | .drogueTimeout .. | .spinupTimeout .. | .spinDownOrder .. | .sledPositionMove ..
  | .sledRetarget .. | .sledHomeMove .. | .sledVelocityCommand .. | .sledPwmPeriod .. | .sledStandstill ..
  | .handlerInterpolatedMove .. | .handlerRetarget .. | .handlerAxisMove .. | .handlerHome .. | .handlerPwmPeriod ..
  | .moveDiscStepDone .. | .handlerStandstill .. | .inputFilterChange .. | .inputQuietEnd .. | .inputStuck ..
  | .handlerResume .. | .handlerStopWaitExpiry .. | .ownershipTake .. | .ownershipConflictRetry .. | .encoderQuietWait ..
  | .ownershipRelease .. | .clampConfirm .. | .clampTimeout .. | .trayEmpty .. | .idleSpindown ..
  | .spindownComplete .. | .mountRead .. | .ripcordDiscStopped .. | .bayFault .. | .remount ..
  | .coastWaitExpiry .. | .workChoice .. | .writeYield .. | .destageGuarantee .. | .slowVisit ..
  | .clusterProgram .. | .nandOpTimeout .. | .gcCopy .. | .journalPageProgram .. | .blockErase ..
  | .checkpoint .. | .retentionTick .. | .zqCalibration .. | .lunRetire .. | .ballastAllocate ..
  | .ballastFree .. | .ballastPass .. | .tripleWrite .. | .tripleCommit .. | .tripleRead ..
  | .cacheAccess .. | .cacheFillDone .. | .cacheWritebackAccept .. | .tetherTrainingStart .. | .tetherTrainingDone ..
  | .tetherTrainingTimeout .. | .flitReceive .. | .nakReceive .. | .ackTimeout .. | .heartbeatSend ..
  | .heartbeatReceive .. | .heartbeatMissing .. | .brokenWireClear .. | .takeoverRoleWrite .. | .ownershipCommit ..
  | .forwardResolve .. | .takeoverDone .. | .darkWaitExpiry .. | .mirrorCommit .. | .mirrorRelease ..
  | .volumeState .. | .forwardedCompletion .. | .tetherResyncEnd .. | .pairResyncProgress .. | .joinResyncEnd ..
  | .rejoin .. | .handback .. | .porstNRelease .. | .pllLock .. | .encoderEdge ..
  | .smbusTransaction .. | .aerCorrectable .. | .eventVectorTimer .. => none

/-- A command is well formed. -/
def Instr.wellFormed (c : Instr) : Bool := c.illness.isNone

end Sys2Proof
end

