-- ==== Sys2Proof/Safety.lean ====
section
/-! DEFINITION. The terms in which claims speak of a run: that a command completes, what it raises, the frame of what it leaves alone, and the invariants of the state. -/

namespace Sys2Proof.Safety

open Sys2Proof Sys2Proof.Machine

/-- A command completes in a state: exec answers a next state, of which `P` holds. -/
def Completes (i : Instr) (s : State) (P : State → Prop) : Prop := ∃ t, exec i s = .next t ∧ P t

/-- Between two states the event `e` was raised: it stands among what waits for the firmware queue beyond what waited before. -/
def raisedSince (s t : State) (e : Ev) : Bool := (t.ev.raised.drop s.ev.raised.length).any (fun r => decide (r.src = e.src))

/-- The mailbox request of port `p` is submitted, of opcode `op`, not held or in progress, and served now (R305 to R307). -/
def accepts (s : State) (p : Port) (op : Nat) : Bool :=
  let m := s.ports[p].mbx
  m.busy && !m.held && m.run.isNone && decide (mbxOpcode m.req = op) && decide (s.mbxGate op = .serve)
    && !(mbxWhole op && s.wholeBusy)

/-- The mailbox of port `p` shows a response of status `st`: DONE is set, BUSY is clear, payload byte 0 is the status (R305,
R457). -/
def answered (t : State) (p : Port) (st : Byte) : Prop :=
  t.ports[p].mbx.done = true ∧ t.ports[p].mbx.busy = false ∧ byteAt t.ports[p].mbx.rsp 8 = st

/-- Reads of a DRAM block deliver what was written: of the errors that they meet, none is taken for another (R362). -/
def readsRight (x8 : Bool) (o : DramObs) : Bool :=
  let right := fun (d : DramDecode) => match d with
    | .clean w => w.all (· == 0)
    | .corrected _ _ w => w.all (· == 0)
    | .uncorrectable => true
  right (dramDecode x8 o.first) && right (dramDecode x8 o.again)

/-! ### Frames -/

/-- The parts of the state a frame speaks of: together they are every field of State. A part of a port or of a bay is named
with its number. -/
inductive Part where
  /-- the queue of waiting commands. -/
  | pending
  /-- the device mode. -/
  | mode
  /-- the model's counter of free values. -/
  | free
  /-- every other field of the device-wide control state. -/
  | sys
  /-- events raised and not yet placed, and the model's count of latched snapshots. -/
  | raised
  /-- the firmware event queue: records, next sequence number, tally, drop counters. -/
  | fwq
  /-- the retry log and its counters. -/
  | retry
  /-- the Reel and the diagnostic registers. -/
  | ev
  /-- a port's queue pairs, arbitration and held completion records. -/
  | queues (p : Port)
  /-- a port's MSI-X table, pending bits, enable and mask. -/
  | msix (p : Port)
  /-- a port's mailbox. -/
  | mbx (p : Port)
  /-- a port's event ring. -/
  | ring (p : Port)
  /-- a port's Alarm Summary. -/
  | alarm (p : Port)
  /-- a port's link, power state, relaxed ordering and Reel cursor. -/
  | link (p : Port)
  /-- the Bridle cells and the port that lost the last tie. -/
  | bridle
  /-- the outstanding commands. -/
  | cmds
  /-- the volume table. -/
  | vols
  /-- the parameters. -/
  | params
  /-- the boot flash. -/
  | flash
  /-- a bay's front end. -/
  | afe (b : BayNo)
  /-- a bay's read channel. -/
  | rc (b : BayNo)
  /-- a bay's decoding state. -/
  | dec (b : BayNo)
  /-- a bay's write path. -/
  | wp (b : BayNo)
  /-- a bay's servo. -/
  | srv (b : BayNo)
  /-- a bay's spindle drive. -/
  | spn (b : BayNo)
  /-- a bay's sled. -/
  | sld (b : BayNo)
  /-- a bay's sequencer and disc. -/
  | seq (b : BayNo)
  /-- a bay's engines held in reset. -/
  | held (b : BayNo)
  /-- the decoder pool. -/
  | pool
  /-- the magazine handler. -/
  | hnd
  /-- the staging tier. -/
  | stg
  /-- the bytes of DRAM. -/
  | dram
  /-- every other field of memory: error FIFO and log, scrub, engine cache, Ballast, triplicated words. -/
  | mem
  /-- the pair and the Tether. -/
  | pair
  /-- what the device has put out. -/
  | out
  deriving DecidableEq, Repr

/-- From `s` to `t` nothing has changed but, at most, the parts listed: each part is listed, or every field of it reads in `t`
as in `s`. -/
structure Unchanged (ps : List Part) (s t : State) : Prop where
  pending : Part.pending ∈ ps ∨ t.pending = s.pending
  mode : Part.mode ∈ ps ∨ t.sys.mode = s.sys.mode
  free : Part.free ∈ ps ∨ t.sys.freeCount = s.sys.freeCount
  sys : Part.sys ∈ ps ∨ { t.sys with mode := s.sys.mode, freeCount := s.sys.freeCount } = s.sys
  raised : Part.raised ∈ ps ∨ (t.ev.raised = s.ev.raised ∧ t.ev.latches = s.ev.latches)
  fwq : Part.fwq ∈ ps ∨ (t.ev.queue = s.ev.queue ∧ t.ev.nextSeq = s.ev.nextSeq ∧ t.ev.tally = s.ev.tally
    ∧ t.ev.drops = s.ev.drops)
  retry : Part.retry ∈ ps ∨ (t.ev.transients = s.ev.transients ∧ t.ev.persistents = s.ev.persistents
    ∧ t.ev.retries = s.ev.retries)
  ev : Part.ev ∈ ps ∨ { t.ev with
    raised := s.ev.raised, latches := s.ev.latches, queue := s.ev.queue, nextSeq := s.ev.nextSeq, tally := s.ev.tally, drops := s.ev.drops,
    transients := s.ev.transients, persistents := s.ev.persistents, retries := s.ev.retries } = s.ev
  queues : ∀ p : Port, Part.queues p ∈ ps ∨ (t.ports[p].queues = s.ports[p].queues
    ∧ t.ports[p].lastServed = s.ports[p].lastServed ∧ t.ports[p].held = s.ports[p].held
    ∧ t.ports[p].heldVectors = s.ports[p].heldVectors)
  msix : ∀ p : Port, Part.msix p ∈ ps ∨ (t.ports[p].msix = s.ports[p].msix ∧ t.ports[p].pending = s.ports[p].pending
    ∧ t.ports[p].msixEnable = s.ports[p].msixEnable ∧ t.ports[p].msixMask = s.ports[p].msixMask)
  mbx : ∀ p : Port, Part.mbx p ∈ ps ∨ t.ports[p].mbx = s.ports[p].mbx
  ring : ∀ p : Port, Part.ring p ∈ ps ∨ t.ports[p].ring = s.ports[p].ring
  alarm : ∀ p : Port, Part.alarm p ∈ ps ∨ t.ports[p].alarm = s.ports[p].alarm
  link : ∀ p : Port, Part.link p ∈ ps ∨ (t.ports[p].relaxed = s.ports[p].relaxed ∧ t.ports[p].linkUp = s.ports[p].linkUp
    ∧ t.ports[p].linkGen = s.ports[p].linkGen ∧ t.ports[p].linkWidth = s.ports[p].linkWidth
    ∧ t.ports[p].perst = s.ports[p].perst ∧ t.ports[p].d3hot = s.ports[p].d3hot ∧ t.ports[p].cursor = s.ports[p].cursor)
  bridle : Part.bridle ∈ ps ∨ (t.bridle = s.bridle ∧ t.bridleTie = s.bridleTie)
  cmds : Part.cmds ∈ ps ∨ t.cmds = s.cmds
  vols : Part.vols ∈ ps ∨ t.vols = s.vols
  params : Part.params ∈ ps ∨ t.params = s.params
  flash : Part.flash ∈ ps ∨ t.flash = s.flash
  afe : ∀ b : BayNo, Part.afe b ∈ ps ∨ t.bays[b].afe = s.bays[b].afe
  rc : ∀ b : BayNo, Part.rc b ∈ ps ∨ t.bays[b].rc = s.bays[b].rc
  dec : ∀ b : BayNo, Part.dec b ∈ ps ∨ t.bays[b].dec = s.bays[b].dec
  wp : ∀ b : BayNo, Part.wp b ∈ ps ∨ t.bays[b].wp = s.bays[b].wp
  srv : ∀ b : BayNo, Part.srv b ∈ ps ∨ t.bays[b].srv = s.bays[b].srv
  spn : ∀ b : BayNo, Part.spn b ∈ ps ∨ t.bays[b].spn = s.bays[b].spn
  sld : ∀ b : BayNo, Part.sld b ∈ ps ∨ t.bays[b].sld = s.bays[b].sld
  seq : ∀ b : BayNo, Part.seq b ∈ ps ∨ t.bays[b].seq = s.bays[b].seq
  held : ∀ b : BayNo, Part.held b ∈ ps ∨ (t.bays[b].qHeld = s.bays[b].qHeld ∧ t.bays[b].sHeld = s.bays[b].sHeld)
  pool : Part.pool ∈ ps ∨ t.pool = s.pool
  hnd : Part.hnd ∈ ps ∨ t.hnd = s.hnd
  stg : Part.stg ∈ ps ∨ t.stg = s.stg
  dram : Part.dram ∈ ps ∨ t.mem.cells = s.mem.cells
  mem : Part.mem ∈ ps ∨ { t.mem with cells := s.mem.cells } = s.mem
  pair : Part.pair ∈ ps ∨ t.pair = s.pair
  out : Part.out ∈ ps ∨ t.out = s.out

/-- A part of every bay. -/
def every (f : BayNo → Part) : List Part := (List.finRange 8).map f

/-- A part of both ports. -/
def both (f : Port → Part) : List Part := [f 0, f 1]

/-- Raising an event: it waits for the firmware queue, and an alarm event sets its bit at each port (R414, R421). -/
def alarms : List Part := [.raised] ++ both .alarm

/-- Completing I/O commands at any port or at the peer (R287). -/
def completions : List Part := [.cmds, .pair, .stg, .out] ++ both .queues ++ both .msix

/-- Answering the mailbox of a port (R305). -/
def answers (p : Port) : List Part := [.sys, .mbx p, .queues p, .msix p, .out]

/-- What a change of a bay's state reaches in every bay but its read channel and drives (R237). -/
def heads : List Part := every .afe ++ every .wp ++ every .srv ++ every .seq

/-- The read channel and the drives of every bay. -/
def spins : List Part := every .rc ++ every .spn ++ every .sld

/-- What a change of a bay's state reaches in that bay. -/
def halting (b : BayNo) : List Part := [.sys, .afe b, .wp b, .srv b, .seq b, .pair, .out]

/-- What bringing a bay to a stop reaches (R249). -/
def stopping (b : BayNo) : List Part := halting b ++ [.free, .rc b, .spn b, .sld b]

/-- What starting or ending a handler move reaches: the bays it serves and the commands it answers. -/
def handling : List Part := alarms ++ completions ++ heads ++ [.sys, .hnd] ++ both .mbx

/-- What a change of the device mode reaches (R6, R245). -/
def moding : List Part := handling ++ [.mode, .ev]

/-- What a command of the ports, the event path and the I/O queues may change. -/
def portFrame : Instr → Option (List Part)
  | .commandFetch _ _ => some (completions ++ alarms ++ [.free, .sys])
  | .commandEligible _ => some ([.cmds])
  | .read _ _ => some (handling ++ [.pool, .mem] ++ every .rc ++ every .dec)
  | .write _ _ _ => some (handling ++ [.vols, .pool, .mem] ++ every .rc ++ every .dec)
  | .flush _ => some (completions)
  | .verify _ => some (handling ++ [.pool, .mem] ++ every .rc ++ every .dec)
  | .cancel _ => some (completions)
  | .prefetch _ => some (handling ++ [.pool, .mem] ++ every .rc ++ every .dec)
  | .destage _ => some (handling ++ [.pool, .mem] ++ every .rc ++ every .dec)
  | .mount _ => some (handling ++ [.pool, .mem] ++ every .rc ++ every .dec)
  | .unmount _ => some (handling ++ [.pool, .mem] ++ every .rc ++ every .dec)
  | .locate _ => some (completions ++ [.free])
  | .mountWaitExpiry _ => some (completions ++ alarms)
  | .spaceWaitExpiry _ => some (completions ++ alarms)
  | .aggregationTimer p _ => some ([.queues p, .msix p, .out])
  | .hostReadError p _ _ => some (completions ++ alarms ++ [.free, .mbx p])
  | .d3hotEntry p => some (alarms ++ [.link p])
  | .d0Return p => some (alarms ++ [.queues p, .msix p, .link p, .out])
  | .portLinkUp p _ _ => some (alarms ++ [.link p])
  | .portLinkDown p => some (alarms ++ [.link p])
  | .hotReset p => some (alarms ++ [.sys, .queues p, .msix p, .mbx p, .ring p, .link p, .bridle, .cmds])
  | .flr p => some (alarms ++ [.sys, .queues p, .msix p, .mbx p, .ring p, .link p, .bridle, .cmds])
  | .fundamentalReset p => some (alarms ++ [.sys, .queues p, .msix p, .mbx p, .ring p, .link p, .bridle, .cmds])
  | .perstRelease p => some ([.link p])
  | .reelFreeze p => some (answers p ++ alarms ++ [.ev])
  | .reelThaw p => some (answers p ++ alarms ++ [.ev])
  | .reelReadBlocks p => some (answers p)
  | .readDropCounters p => some (answers p)
  | .readClearDropCounters p => some (answers p ++ [.fwq])
  | .tailArm p => some (answers p ++ every .srv)
  | .tailRead p => some (answers p)
  | .queueReset p _ => some (alarms ++ [.queues p, .cmds])
  | .sqTailWrite p _ _ => some (alarms ++ [.queues p])
  | .cqHeadWrite p _ _ => some (alarms ++ [.queues p])
  | .queueEnable p _ _ => some ([.queues p])
  | .eventRingEnable p _ => some ([.ring p])
  | .eventRingDisable p => some ([.ring p])
  | .eventRingHeadWrite p _ => some ([.ring p])
  | .bridleRead _ _ _ _ => some ([.bridle, .out])
  | .bridleWrite _ _ _ _ => some (alarms ++ [.bridle])
  | .alarmClear p _ _ => some ([.alarm p])
  | .reelFreezeBit _ => some (alarms ++ [.ev])
  | .reelThawBit _ => some (alarms ++ [.ev])
  | .reelWindowAdvance p => some ([.link p, .out])
  | .bar0BadAccess p _ _ _ => some ([.link p, .bridle, .out])
  | .registerWrite _ _ _ _ => some (moding ++ spins
      ++ [.free, .fwq, .retry, .bridle, .vols, .params, .pool, .dram, .mem] ++ both .ring ++ both .link
      ++ every .dec ++ every .held)
  | .eventQueueEntry => some (alarms ++ [.fwq, .retry, .ev])
  | .eventRingCopy p => some (alarms ++ [.fwq, .ev, .queues p, .msix p, .ring p, .out])
  | .aerCorrectable _ => some (alarms)
  | .eventVectorTimer p => some ([.queues p, .msix p, .ring p, .out])
  | _ => none

/-- What a mailbox command may change. -/
def mailboxFrame : Instr → Option (List Part)
  | .identify p => some (answers p)
  | .getParameter p => some (answers p)
  | .setParameter p _ => some (answers p ++ alarms ++ [.params, .stg, .mem] ++ every .srv)
  | .getLog p => some (answers p)
  | .policySet p => some (answers p ++ [.params])
  | .createVolume p => some (answers p ++ [.vols, .flash, .stg, .pair])
  | .modifyDurability p => some (answers p ++ [.vols, .flash, .stg, .pair])
  | .deleteVolume _ => some (handling ++ [.vols, .flash, .pool, .mem] ++ every .rc ++ every .dec)
  | .format _ _ => some (handling ++ [.flash, .pool, .mem] ++ every .rc ++ every .dec)
  | .sanitize _ => some (moding ++ [.flash, .mem] ++ every .rc)
  | .sanitizeStepDone => some (moding ++ [.flash, .dram, .mem] ++ every .rc ++ every .dec)
  | .firmwareDownload p _ => some (answers p ++ alarms)
  | .firmwareCommit p => some (answers p ++ [.flash])
  | .commitAndActivate _ => some (moding ++ [.flash] ++ every .rc)
  | .activateSlot _ _ => some (moding ++ every .rc)
  | .heldRequestResume p => some ([.queues p, .msix p, .mbx p, .out])
  | .modeReqCalibrate _ => some (moding ++ [.params] ++ every .rc)
  | .modeReqQuiesce _ => some (moding ++ [.params] ++ every .rc)
  | .modeReqDiagnostic _ => some (moding ++ [.params] ++ every .rc)
  | .modeReqServe _ => some (moding ++ [.params, .mem] ++ every .rc)
  | .calibrationComplete => some (moding ++ every .rc)
  | .calReq p => some (answers p ++ every .afe)
  | .opcReq p => some (answers p ++ every .wp)
  | .bayReturn p => some (answers p ++ heads ++ alarms ++ [.pair] ++ every .rc)
  | .hndReturn p => some (answers p ++ [.hnd])
  | .inClear p => some (answers p ++ [.hnd])
  | .stateClear p => some (answers p ++ [.stg, .mem])
  | .diagLaneLoopback p => some (answers p ++ [.ev, .params])
  | .diagDecoders p => some (answers p ++ [.ev, .params])
  | .diagDram p => some (answers p ++ [.ev, .params])
  | .diagNand p => some (answers p ++ [.ev, .params])
  | .diagTetherNear p => some (answers p ++ [.ev, .params])
  | .diagTetherFar p => some (answers p ++ [.ev, .params])
  | .diagTestEnd _ _ _ => some (alarms ++ [.ev, .dram])
  | _ => none

/-- What a command of power, boot, clocks, resets and the board may change. -/
def powerFrame : Instr → Option (List Part)
  | .deviceReset _ _ => some (moding ++ spins ++ [.free, .fwq, .retry, .bridle, .vols, .params, .pool, .dram, .mem]
      ++ both .ring ++ both .link ++ every .dec ++ every .held)
  | .powerOnReset _ => some (heads ++ spins ++ alarms
      ++ [.mode, .sys, .fwq, .retry, .ev, .bridle, .cmds, .vols, .params, .pool, .hnd, .stg, .dram, .mem, .pair]
      ++ both .queues ++ both .msix ++ both .mbx ++ both .ring ++ both .link ++ every .dec ++ every .held)
  | .fillDone _ => some (moding ++ [.dram, .mem] ++ every .rc)
  | .bootDone _ => some (alarms ++ [.sys, .params, .flash, .stg, .mem, .pair, .out] ++ every .srv ++ every .seq
      ++ every .held)
  | .warmFlush => some (alarms ++ [.sys, .retry, .ev, .cmds, .stg, .mem, .out])
  | .stagingRecovery _ => some (moding ++ [.vols, .flash] ++ every .rc)
  | .pwrfailAssert => some (moding ++ [.fwq, .pool, .mem] ++ every .rc ++ every .dec ++ every .spn)
  | .ventDone => some (moding ++ [.retry, .mem] ++ every .rc)
  | .ventResume => some (moding ++ [.flash, .mem] ++ every .rc)
  | .refclkLoss => some (moding ++ spins ++ [.fwq, .pool, .mem] ++ every .dec)
  | .rootPllLoss => some (moding ++ spins ++ [.fwq, .pool, .mem] ++ every .dec)
  | .ddrPllLoss => some (alarms ++ [.sys])
  | .nandPllLoss => some (alarms ++ [.sys])
  | .pciePllLoss => some (alarms ++ [.sys] ++ both .link)
  | .tetherPllLoss => some (alarms ++ [.sys, .vols, .stg, .mem, .pair, .out] ++ both .queues ++ both .msix ++ both .mbx)
  | .watchdogService _ => some ([.sys])
  | .keelWatchdogExpiry => some (moding ++ spins ++ [.fwq, .pool, .mem] ++ every .dec)
  | .lockstepMismatch => some (moding ++ spins ++ [.fwq, .pool, .mem] ++ every .dec)
  | .ripcordParkEnd => some ([.sys])
  | .ripcordHoldExpiry => some (moding ++ spins
      ++ [.free, .fwq, .retry, .bridle, .vols, .params, .pool, .dram, .mem] ++ both .ring ++ both .link
      ++ every .dec ++ every .held)
  | .engineStall _ => some (alarms ++ [.sys, .fwq, .pool, .mem, .out] ++ every .dec ++ every .wp ++ every .srv
      ++ every .seq ++ every .held)
  | .engineRestart _ => some (heads ++ spins ++ alarms ++ [.sys, .fwq, .pool, .mem, .pair, .out] ++ every .dec
      ++ every .held)
  | .activationResume => some (moding ++ [.vols, .flash, .mem] ++ every .rc)
  | .activationTimeout => some (moding ++ spins
      ++ [.free, .fwq, .retry, .bridle, .vols, .params, .pool, .dram, .mem] ++ both .ring ++ both .link
      ++ every .dec ++ every .held)
  | .holdupSample _ => some (alarms ++ [.sys])
  | .junctionSample _ => some (alarms ++ [.sys])
  | .porstNRelease _ => some (moding ++ every .rc)
  | .pllLock => some (moding ++ spins ++ [.free, .fwq, .retry, .bridle, .vols, .params, .pool, .dram, .mem]
      ++ both .ring ++ both .link ++ every .dec ++ every .held)
  | .smbusTransaction _ _ _ => some ([.out])
  | .jtagTapOperation _ => some ([.sys, .out])
  | _ => none

/-- What a command of the pair and of the magazine handler may change. -/
def pairFrame : Instr → Option (List Part)
  | .pairJoin p _ => some (answers p ++ [.pair])
  | .pairLeave _ => some (moding ++ [.vols, .flash, .mem] ++ every .rc)
  | .pairLeaveSelf _ _ => some (moding ++ [.vols, .flash, .mem] ++ every .rc)
  | .pairLeaveForced p => some (answers p ++ alarms ++ [.vols, .flash, .stg, .mem, .pair])
  | .moveDisc _ => some (handling ++ every .rc)
  | .handlerInterpolatedMove _ _ _ => some (alarms ++ [.hnd])
  | .handlerRetarget _ _ _ => some (alarms ++ [.hnd])
  | .handlerAxisMove _ _ => some (alarms ++ [.hnd])
  | .handlerHome => some ([.hnd])
  | .handlerPwmPeriod _ => some (handling ++ every .rc)
  | .moveDiscStepDone => some (handling ++ [.vols] ++ every .rc)
  | .handlerStandstill _ => some ([.hnd])
  | .inputFilterChange _ _ => some (heads ++ alarms ++ [.sys, .fwq, .pool, .hnd, .mem, .pair, .out] ++ every .rc
      ++ every .dec)
  | .inputQuietEnd _ => some (alarms ++ [.hnd])
  | .inputStuck _ => some (alarms ++ [.hnd])
  | .handlerResume => some (handling ++ every .rc)
  | .handlerStopWaitExpiry => some (handling ++ every .rc)
  | .ownershipTake _ => some (alarms ++ [.hnd])
  | .ownershipConflictRetry _ => some (alarms ++ [.hnd])
  | .encoderQuietWait => some ([.hnd])
  | .ownershipRelease => some (handling ++ every .rc)
  | .tetherTrainingStart => some ([.pair])
  | .tetherTrainingDone _ _ => some (alarms ++ [.pair, .out])
  | .tetherTrainingTimeout => some (alarms ++ [.vols, .stg, .mem, .pair, .out] ++ both .queues ++ both .msix ++ both .mbx)
  | .flitReceive _ => some (alarms ++ [.retry, .ev, .vols, .stg, .mem, .pair, .out] ++ both .queues ++ both .msix
      ++ both .mbx)
  | .nakReceive _ => some ([.pair, .out])
  | .ackTimeout => some ([.pair, .out])
  | .heartbeatSend => some ([.pair, .out])
  | .heartbeatReceive _ => some (alarms ++ [.pair, .out])
  | .heartbeatMissing => some (moding ++ [.vols, .mem] ++ every .rc)
  | .peerOkInChange _ _ => some (moding ++ [.mem] ++ every .rc)
  | .brokenWireClear => some ([.pair])
  | .takeoverRoleWrite => some ([.flash, .mem, .pair])
  | .ownershipCommit => some ([.vols, .flash, .stg, .pair])
  | .forwardResolve => some (completions ++ [.hnd] ++ both .mbx)
  | .takeoverDone => some (moding ++ every .rc)
  | .darkWaitExpiry => some ([.pair])
  | .mirrorData _ _ _ _ _ _ => some (alarms ++ [.cmds, .stg, .mem, .pair, .out])
  | .mirrorCommit _ => some (completions)
  | .mirrorRelease _ _ => some (alarms ++ [.stg, .mem])
  | .volumeState _ => some (handling ++ [.vols] ++ every .rc)
  | .forwardedCommand _ => some (handling ++ every .rc)
  | .forwardedCompletion _ _ _ _ => some (handling ++ [.vols] ++ every .rc)
  | .tetherResyncEnd => some (moding ++ [.flash] ++ every .rc)
  | .pairResyncProgress => some (alarms)
  | .joinResyncEnd _ => some (moding ++ [.flash, .mem] ++ every .rc)
  | .rejoin _ => some (alarms ++ [.vols, .flash, .stg, .mem, .pair, .out])
  | .handback => some (moding ++ [.vols, .flash, .mem] ++ every .rc)
  | _ => none

/-- What a command of the front end, the read channel, decoding and writing may change. -/
def headFrame : Instr → Option (List Part)
  | .receiverFault b _ _ => some (halting b ++ alarms ++ [.fwq, .rc b, .dec b, .spn b, .sld b, .pool, .mem])
  | .reliefSubstitution b => some (alarms ++ [.afe b, .rc b, .srv b])
  | .receiverRetryRun b _ _ => some (alarms ++ [.retry, .ev, .afe b, .srv b])
  | .headTempSample b _ => some (alarms ++ [.afe b, .wp b, .srv b])
  | .calSlotOpen b => some ([.afe b])
  | .reliefSettled b => some ([.afe b])
  | .laneSelectSwitch b _ => some ([.afe b, .rc b])
  | .calMeasurement b _ => some (halting b ++ alarms ++ [.fwq, .retry, .ev, .rc b, .dec b, .spn b, .sld b, .pool, .mem])
  | .clusterAcquisition b _ _ _ _ _ _ _ => some (alarms ++ [.free, .params, .rc b, .dec b, .srv b, .seq b, .mem])
  | .preambleDetect b _ _ => some (alarms ++ [.rc b, .srv b])
  | .frameSyncSearch b _ _ => some (alarms ++ [.rc b, .srv b])
  | .timingRange b _ _ => some (alarms ++ [.rc b, .srv b])
  | .frameRecordRelease b _ _ => some (halting b ++ alarms ++ [.fwq, .rc b, .dec b, .spn b, .sld b, .pool, .mem])
  | .clusterEnd b _ _ => some (alarms ++ [.rc b, .dec b, .srv b, .pool, .mem])
  | .defectDropout b _ _ => some (alarms ++ [.rc b, .srv b])
  | .sumDefectLong b => some (alarms ++ [.fwq, .rc b, .dec b, .wp b, .srv b, .seq b, .pool, .mem, .out])
  | .decoderDispatch _ => some ([.pool])
  | .decodeComplete _ _ => some (alarms ++ [.pool])
  | .collectorAccept => some (alarms ++ [.retry, .ev, .pool] ++ every .dec)
  | .outerCodeRun b _ => some (completions ++ alarms ++ [.sys, .retry, .dec b, .srv b, .seq b, .pool, .mem])
  | .deliveryDeadline b _ => some (alarms ++ [.dec b, .srv b, .seq b])
  | .ladderStep b _ => some (completions ++ alarms ++ [.sys, .retry, .dec b, .srv b, .seq b, .pool, .mem])
  | .updraftStart b => some ([.dec b])
  | .writeRunStart b _ => some (halting b ++ alarms ++ [.rc b, .mem])
  | .ldlFrame b _ _ _ => some (alarms
      ++ [.sys, .fwq, .retry, .afe b, .rc b, .dec b, .wp b, .spn b, .sld b, .seq b, .pool, .mem, .pair, .out] ++ every .srv)
  | .ldlStatusPoll b _ => some (halting b ++ alarms ++ [.fwq, .rc b, .dec b, .spn b, .sld b, .pool, .mem])
  | .verifyCluster b => some (alarms ++ [.cmds, .dec b, .wp b, .srv b, .seq b, .pool, .mem])
  | .finalVerifyEnd b => some (halting b ++ alarms ++ [.rc b, .dec b, .pool, .mem])
  | .replacementPass b _ _ => some (alarms ++ [.wp b, .srv b, .seq b, .stg, .out])
  | .powerCalibration b _ _ _ _ _ => some (alarms ++ [.wp b, .srv b, .out])
  | .geometryWrite b _ _ _ _ _ => some (completions ++ alarms ++ [.rc b, .wp b, .srv b])
  | .managementSetWrite b _ _ => some (completions ++ halting b ++ alarms
      ++ [.vols, .flash, .rc b, .dec b, .spn b, .sld b, .mem] ++ both .mbx)
  | .wobbleIndexLoss b _ => some (alarms ++ [.fwq, .dec b, .wp b, .srv b, .seq b, .pool, .mem, .out])
  | .unverifiedVerifyPass b _ => some (alarms ++ [.cmds, .wp b, .srv b])
  | _ => none

/-- What a command of the servo, the drives and the bay sequencer may change. -/
def motionFrame : Instr → Option (List Part)
  | .wobbleAddressWord b _ => some (halting b ++ alarms ++ [.retry, .rc b, .sld b])
  | .servoPeriod b _ => some (halting b ++ alarms ++ [.free, .fwq, .retry, .params, .rc b, .dec b, .sld b, .pool, .mem])
  | .tiltPeriod b _ => some (alarms ++ [.fwq, .params, .dec b, .wp b, .srv b, .seq b, .pool, .mem, .out])
  | .sledLoopPeriod b => some (alarms ++ [.fwq, .params, .dec b, .wp b, .srv b, .sld b, .seq b, .pool, .mem, .out])
  | .servoDeadlineMiss b _ => some (alarms ++ [.fwq, .dec b, .wp b, .srv b, .seq b, .pool, .mem, .out])
  | .holdWindowExpiry b _ => some (halting b ++ alarms ++ [.fwq, .rc b, .dec b, .pool, .mem])
  | .lullResume b _ => some (alarms ++ [.srv b])
  | .lullReacquire b _ => some (halting b ++ alarms ++ [.fwq, .rc b, .dec b, .pool, .mem])
  | .focusAcquisition b _ => some ([.srv b])
  | .focusSweepEnd b => some (handling ++ [.fwq, .retry, .flash, .dec b, .spn b, .sld b, .pool, .mem] ++ every .rc)
  | .trackAcquisition b => some ([.srv b])
  | .runoutRevolution b => some (handling ++ [.fwq, .retry, .flash, .dec b, .spn b, .sld b, .pool, .mem] ++ every .rc)
  | .trackAcqTimeout b _ => some (handling ++ [.fwq, .retry, .flash, .dec b, .spn b, .sld b, .pool, .mem] ++ every .rc)
  | .strideJump b => some (halting b ++ alarms ++ [.rc b, .sld b])
  | .strideJumpLate b => some (halting b ++ alarms ++ [.rc b, .sld b])
  | .layerJump b _ => some (halting b ++ alarms ++ [.rc b, .sld b])
  | .layerJumpWindowEnd b => some (halting b ++ alarms ++ [.rc b, .sld b])
  | .lensSeek b _ => some (halting b ++ alarms ++ [.rc b, .sld b])
  | .sledSeek b _ => some (halting b ++ alarms ++ [.rc b, .sld b])
  | .offsetApply b _ _ => some (halting b ++ alarms ++ [.rc b, .sld b])
  | .characterisationRun b _ => some (alarms ++ [.srv b])
  | .pwmPeriod b _ => some (halting b ++ alarms ++ [.fwq, .params, .rc b, .dec b, .spn b, .sld b, .pool, .mem])
  | .speedLoopPeriod b => some (halting b ++ alarms ++ [.retry, .params, .rc b, .spn b])
  | .spindleStartOrder b => some (halting b ++ alarms ++ [.rc b, .spn b, .sld b])
  | .startDecision b => some (alarms ++ [.srv b, .spn b])
  | .encoderIndex b => some (alarms ++ [.dec b, .srv b, .spn b])
  | .encoderLoss b _ => some (halting b ++ alarms ++ [.fwq, .rc b, .dec b, .spn b, .sld b, .pool, .mem])
  | .encoderOverspeed _ => some (heads ++ spins ++ alarms ++ [.sys, .fwq, .pool, .hnd, .mem, .pair, .out] ++ every .dec)
  | .drogueTimeout b => some (handling ++ [.fwq, .retry, .flash, .dec b, .spn b, .sld b, .pool, .mem] ++ every .rc)
  | .spinupTimeout b => some (handling ++ [.fwq, .retry, .flash, .dec b, .spn b, .sld b, .pool, .mem] ++ every .rc)
  | .spinDownOrder b => some ([.spn b])
  | .sledPositionMove b _ => some (alarms ++ [.srv b, .sld b, .seq b])
  | .sledRetarget b _ => some (alarms ++ [.srv b, .sld b])
  | .sledHomeMove b => some ([.sld b])
  | .sledVelocityCommand b _ => some ([.sld b])
  | .sledPwmPeriod b _ => some (halting b ++ alarms ++ [.fwq, .retry, .rc b, .dec b, .spn b, .sld b, .pool, .mem])
  | .sledStandstill b => some ([.sld b])
  | .clampConfirm b => some (handling ++ [.dec b] ++ every .rc)
  | .clampTimeout b => some (handling ++ [.flash, .dec b, .spn b, .sld b, .pool, .mem] ++ every .rc)
  | .trayEmpty b => some (halting b ++ alarms ++ [.rc b])
  | .idleSpindown b => some (halting b ++ alarms ++ [.rc b, .spn b, .sld b])
  | .spindownComplete b => some (handling ++ [.dec b] ++ every .rc)
  | .mountRead b _ _ => some (handling
      ++ [.free, .retry, .vols, .params, .flash, .dec b, .spn b, .sld b, .pool, .mem] ++ every .rc)
  | .ripcordDiscStopped b => some (halting b ++ alarms ++ [.rc b])
  | .bayFault b _ => some (halting b ++ alarms ++ [.fwq, .rc b, .dec b, .spn b, .sld b, .pool, .mem])
  | .remount _ => some (handling ++ [.pool, .mem] ++ every .rc ++ every .dec)
  | .coastWaitExpiry b => some ([.seq b])
  | .workChoice b => some (handling ++ [.params, .dec b, .spn b, .sld b] ++ every .rc)
  | .writeYield b => some ([.wp b])
  | .destageGuarantee b => some ([.seq b])
  | .slowVisit b => some (alarms ++ [.params, .srv b, .seq b])
  | .encoderEdge _ _ _ => some (alarms ++ [.hnd] ++ every .srv ++ every .spn ++ every .sld)
  | _ => none

/-- What a command of memory and of the staging tier may change. -/
def storeFrame : Instr → Option (List Part)
  | .cacheInvalidateLine => some ([.dram, .mem])
  | .cacheCleanLine => some ([.dram, .mem])
  | .cacheCleanInvalidateLine => some ([.dram, .mem])
  | .cacheInvalidateAll => some ([.dram, .mem])
  | .cacheCleanAll => some ([.dram, .mem])
  | .cacheCleanInvalidateAll => some ([.dram, .mem])
  | .cacheEnable => some ([.mem])
  | .cacheDisable => some ([.mem])
  | .scrubRestart => some ([.mem])
  | .derrPop => some ([.mem, .out])
  | .cacheErrorsRead => some ([.mem, .out])
  | .derrLostRead => some ([.mem, .out])
  | .clusterProgram _ _ => some (completions ++ alarms ++ [.sys, .retry, .ev, .mem] ++ every .seq)
  | .nandCodewordRead _ _ _ => some (alarms ++ [.retry, .ev, .stg, .out])
  | .nandOpTimeout _ _ _ _ => some (alarms ++ [.retry, .ev, .stg, .out])
  | .gcCopy _ _ => some (alarms ++ [.sys, .retry, .ev, .stg, .out])
  | .journalPageProgram _ _ => some (completions ++ alarms ++ [.sys, .retry, .ev])
  | .blockErase _ _ _ _ _ => some (alarms ++ [.retry, .ev, .stg, .out] ++ every .seq)
  | .checkpoint => some (completions ++ alarms ++ [.free, .sys, .retry, .ev, .mem])
  | .retentionTick _ => some (alarms ++ [.stg])
  | .zqCalibration => some ([.stg, .out])
  | .lunRetire _ _ => some ([.stg])
  | .dramRead _ _ _ => some (completions ++ alarms ++ [.free, .retry, .ev, .flash, .dram, .mem] ++ every .dec ++ every .srv)
  | .dramPartialWrite _ _ _ _ => some (completions ++ alarms ++ [.free, .retry, .ev, .flash, .dram, .mem]
      ++ every .dec ++ every .srv)
  | .scrubRead _ => some (alarms ++ [.free, .retry, .ev, .flash, .dram, .mem] ++ every .srv)
  | .ballastAllocate _ _ => some (alarms ++ [.mem, .out])
  | .ballastFree _ _ => some (alarms ++ [.mem])
  | .ballastPass _ _ _ => some (alarms ++ [.mem])
  | .tripleWrite _ => some ([.sys, .mem, .pair])
  | .tripleCommit _ => some ([.sys, .mem, .pair])
  | .tripleRead _ _ _ => some (alarms ++ [.retry, .mem, .out] ++ every .srv)
  | .cacheAccess _ _ _ => some ([.dram, .mem, .out])
  | .cacheFillDone _ => some ([.dram, .mem, .out])
  | .cacheWritebackAccept _ => some ([.dram, .mem])
  | _ => none

/-! ### The invariant -/

/-- The free buffers of a pool: those in its cache and those of the runs in its ring (R375). -/
def freeList (b : BallastPool) : List Nat := b.cache ++ b.ring.flatMap (fun x => (List.range x.2).map (x.1 + ·))

/-- A pool is sound (R373, R375): no buffer is free twice, a free buffer lies in the pool, has no owner and has not left the pool for
good (R371), and an owned one lies in the pool and has not left it. -/
structure PoolSound (b : BallastPool) : Prop where
  once : (freeList b).Nodup
  free : ∀ i ∈ freeList b, i < b.size ∧ lookupKey b.words i = none ∧ i ∉ b.out
  owned : ∀ i, (lookupKey b.words i).isSome = true → i < b.size ∧ i ∉ b.out

/-- What every step keeps: the list of DRAM bytes is in its canonical form, the firmware event queue holds at most its 1,024
records (R414), and every Ballast pool is sound. -/
structure Invariant (s : State) : Prop where
  mem : s.mem.wf = true
  queue : s.ev.queue.length ≤ 1024
  pools : ∀ p : Fin 4, PoolSound s.mem.pools[p]

end Sys2Proof.Safety
end

