-- ==== Sys2Proof/Certificates/Slice0/Obligations.lean ====
section
/-! DEFINITION. The statements about the model, for the provers. -/

open Sys2Proof Sys2Proof.Machine Sys2Proof.Safety

/-! ### The block as a whole -/

/-- The model's queue (log entry 1): a step runs the command at the front of the queue on the state with the queue's rest, and
on an empty queue a microsecond passes. -/
def Obligations.StepRunsFront : Prop :=
  (∀ (s : State) (c : Instr) (rest : List Instr), s.pending = c :: rest → step s = exec c { s with pending := rest })
  ∧ ∀ s : State, s.pending = [] → step s = .next (tick s)

/-! ### I/O commands (11_host_interface.md) -/

/-- The I/O commands that answer at once complete: a Read and a Verify whose every sector is staged or recorded nowhere (R22,
R287, R292), a Flush with nothing left to cover (R294), a Cancel with the result fixed at its fetch (R300), a Mount of a
mounted disc (R293), a Locate (R288), an unmount wait of a disc that is home (R295), and the expiry of the two bounded waits
(R291, R293). Each then is no longer outstanding. -/
def Obligations.IoCommandsComplete : Prop :=
  let gone := fun (s : State) (id : CmdId) (t : State) => t.cmds = s.cmds.eraseP (fun x => decide (x.id = id))
  (∀ (s : State) (id : CmdId) (ext : ExtentRead) (c : Cmd) (v : Volume), s.served id 1 = some (c, v) → v.ownPeer = false →
    (c.id.peer = false → extentErr ext = none ∧ extentsStatus c ext = none) →
    (∀ l ∈ c.lbas, ((s.copyOf v l).direct).isSome) → Completes (.read id ext) s (gone s id))
  ∧ (∀ (s : State) (id : CmdId) (c : Cmd) (v : Volume), s.served id 4 = some (c, v) → v.ownPeer = false →
    (∀ l ∈ c.lbas, ((s.copyOf v l).direct).isSome) → Completes (.verify id) s (gone s id))
  ∧ (∀ (s : State) (id : CmdId) (c : Cmd) (v : Volume), s.served id 3 = some (c, v) → v.ownPeer = false →
    (∀ x ∈ c.cover, s.stg.dirty? x.1 x.2 = none) → s.stg.journal = [] → Completes (.flush id) s (gone s id))
  ∧ (∀ (s : State) (id : CmdId) (c : Cmd), s.runnable id 5 = some c → c.done ≠ [] → Completes (.cancel id) s (gone s id))
  ∧ (∀ (s : State) (id : CmdId) (c : Cmd) (v : Volume) (b : BayNo), s.served id 9 = some (c, v) → v.ownPeer = false →
    s.servedIn c.vid = some b → Completes (.mount id) s (gone s id))
  ∧ (∀ (s : State) (id : CmdId) (c : Cmd) (v : Volume), s.served id 11 = some (c, v) → v.ownPeer = false →
    Completes (.locate id) s (gone s id))
  ∧ (∀ (s : State) (id : CmdId) (c : Cmd), s.sys.mode ≠ .ripcord → s.cmd? id = some c → c.wait = .mount →
    Completes (.mountWaitExpiry id) s (gone s id))
  ∧ (∀ (s : State) (id : CmdId) (c : Cmd), s.sys.mode ≠ .ripcord → s.cmd? id = some c → c.wait = .space →
    Completes (.spaceWaitExpiry id) s (gone s id))

/-- The I/O commands that leave work behind complete: a Write that passes its checks and has room is placed in DRAM (R22, R291,
R330), a Prefetch orders an Updraft run and completes (R143, R293), a Destage queues its job at the bay (R295), an Unmount
starts at the bay (R241, R295), a fetch makes a record an outstanding command in the fetch order (R282, R285), and a command
without a hazard left becomes eligible (R296). -/
def Obligations.IoWorkCompletes : Prop :=
  (∀ (s : State) (id : CmdId) (ext : ExtentRead) (data : WriteData) (xs : List SectorData) (c : Cmd) (v : Volume),
    s.served id 2 = some (c, v) → v.ownPeer = false → s.writeFetch c ext data = (s, some xs) → v.known = true →
    s.writeCheck v c = none → s.meetsSeal c = false → s.writeRoom c = true → s.mirrors = false →
    Completes (.write id ext data) s (fun t => ∀ x ∈ c.clusterList, (t.stg.dirty? x.1 x.2).isSome))
  ∧ (∀ (s : State) (id : CmdId) (c : Cmd) (v : Volume) (b : BayNo), s.served id 6 = some (c, v) → v.ownPeer = false →
    s.servedIn c.vid = some b → Completes (.prefetch id) s (fun t => t.cmds = s.cmds.eraseP (fun x => decide (x.id = id))
      ∧ t.bays[b].dec.updraftFrom
        = some (homeOf (c.lba / 16), if c.count = 0 then s.bn b Param.decUpdDepth else c.count)))
  ∧ (∀ (s : State) (id : CmdId) (c : Cmd) (v : Volume) (b : BayNo) (us : List Nat), s.served id 8 = some (c, v) →
    v.ownPeer = false → s.servedIn c.vid = some b → s.destageable b v.vid (s.destageCover c) = us →
    s.destageRefusal b v us = none → us ≠ [] → (∀ u ∈ us, s.stg.dirty? c.vid u = none) →
    Completes (.destage id) s (fun t => ∃ j, t.bays[b].wp.jobs = s.bays[b].wp.jobs ++ [j] ∧ j.cmd = some c.id ∧ j.vid = v.vid
      ∧ j.todo = us.map (s.destageItem b v)))
  ∧ (∀ (s : State) (id : CmdId) (c : Cmd) (v : Volume) (b : BayNo), s.served id 10 = some (c, v) → v.ownPeer = false →
    (∀ d ∈ s.cmds, d.vid = c.vid → d.id ≠ id → d.started = false) → s.discIn c.vid = some b →
    s.bays[b].seq.unmounting = none → s.bays[b].seq.st ≠ .unloading → s.bays[b].seq.st ≠ .clamped →
    Completes (.unmount id) s (fun t => t.bays[b].seq.unmounting = some (some id) ∧ t.bays[b].dec.gen = s.bays[b].dec.gen + 1))
  ∧ (∀ (s : State) (p : Port) (q : QueueNo) (r : BitVec 512), s.fetches p = true → s.ports[p].nextPair = some q →
    0 < min (s.dn Param.qpFetchBurst) (min s.ports[p].queues[q].waiting s.ports[p].queues[q].slots) →
    s.ports[p].queues[q].halted = false → recOpcode r ≠ 5 →
    recordStatus r (s.cmds.any (fun c => decide (c.id = ⟨false, p, q, recCid r⟩) && !c.dropped)) (s.vol? (recVid r)).isSome = none →
    s.sys.mode ≠ .sanitize → s.pair.awaiting = false →
    Completes (.commandFetch p [.ok r]) s (fun t => (∃ c, t.cmds = s.cmds ++ [c] ∧ c.id = ⟨false, p, q, recCid r⟩
        ∧ c.opcode = recOpcode r ∧ c.order = s.sys.fetched)
      ∧ t.ports[p].queues[q].sqHead = ringNext s.ports[p].queues[q].sqHead s.ports[p].queues[q].entries
      ∧ t.ports[p].lastServed = q))
  ∧ (∀ (s : State) (id : CmdId) (c : Cmd), s.cmd? id = some c → s.noHazard c = true →
    Completes (.commandEligible id) s (fun t => t.cmd? id = some { c with eligible := true }))

/-! ### Host ports and their registers (11_host_interface.md, 17_registers.md) -/

/-- Power states, links and resets of a port complete: D3HOT_ENTRY and D0_RETURN switch the power state (R277), a link trains
within the page's caps and is lost (R274, R317), a hot reset and an FLR disable every queue pair of the port and end its
Bridle ownership (R301), a fundamental reset holds the port and returns its MSI-X Enable to the reset value, and its release
lets the link train again. -/
def Obligations.PortStatesComplete : Prop :=
  (∀ (s : State) (p : Port), s.answers p = true → s.ports[p].d3hot = false →
    Completes (.d3hotEntry p) s (fun t => t.ports[p].d3hot = true ∧ raisedSince s t (.port p .powerState) = true))
  ∧ (∀ (s : State) (p : Port), s.answers p = true → s.ports[p].d3hot = true →
    Completes (.d0Return p) s (fun t => t.ports[p].d3hot = false ∧ t.ports[p].held = []))
  ∧ (∀ (s : State) (p : Port) (gen width : Fin 5), s.answers p = true → s.sys.pll[3] = true → s.sys.pllLost[3] = false →
    1 ≤ gen.val → gen.val ≤ (s.linkCap p).1 → width.val ≠ 0 → width.val ≠ 3 → width.val ≤ (s.linkCap p).2 →
    Completes (.portLinkUp p gen width) s (fun t => t.ports[p].linkUp = true ∧ t.ports[p].linkGen = gen.val
      ∧ t.ports[p].linkWidth = width.val ∧ raisedSince s t (.port p .portLinkUp) = true))
  ∧ (∀ (s : State) (p : Port), s.ports[p].linkUp = true →
    Completes (.portLinkDown p) s (fun t => t.ports[p].linkUp = false ∧ t.ports[p].linkGen = 0))
  ∧ (∀ (s : State) (p : Port), s.answers p = true →
    Completes (.hotReset p) s (fun t => (∀ q : QueueNo, t.ports[p].queues[q].enabled = false)
      ∧ raisedSince s t (.port p .portReset) = true))
  ∧ (∀ (s : State) (p : Port), s.answers p = true →
    Completes (.flr p) s (fun t => (∀ q : QueueNo, t.ports[p].queues[q].enabled = false)
      ∧ raisedSince s t (.port p .portReset) = true))
  ∧ (∀ (s : State) (p : Port), s.answers p = true →
    Completes (.fundamentalReset p) s (fun t => t.ports[p].perst = true ∧ t.ports[p].linkUp = false ∧ t.ports[p].d3hot = false
      ∧ t.ports[p].msixEnable = PortState.reset.msixEnable))
  ∧ ∀ (s : State) (p : Port), Completes (.perstRelease p) s (fun t => t.ports[p].perst = false)

/-- The queue registers of a port complete: a queue reset disables an enabled pair it selects and keeps its ring bases (R301,
R454), a tail and a head within range are taken (R281, R461), and a pair whose fields are in range is enabled with heads and
tails 0 and phase 1 (R280, R462). -/
def Obligations.QueueRegistersComplete : Prop :=
  (∀ (s : State) (p : Port) (q : QueueNo), s.answers p = true → s.ports[p].queues[q].enabled = true →
    Completes (.queueReset p (BitVec.ofNat 64 (2 ^ q.val))) s (fun t => t.ports[p].queues[q].enabled = false
      ∧ t.ports[p].queues[q].sqBase = s.ports[p].queues[q].sqBase ∧ raisedSince s t (.port p .queueReset) = true))
  ∧ (∀ (s : State) (p : Port) (q : QueueNo) (v : BitVec 12), s.answers p = true → s.ports[p].queues[q].enabled = true →
    v.toNat < s.ports[p].queues[q].entries.toNat →
    Completes (.sqTailWrite p q v) s (fun t => t.ports[p].queues[q] = { s.ports[p].queues[q] with sqTail := v }))
  ∧ (∀ (s : State) (p : Port) (q : QueueNo) (v : BitVec 12), s.answers p = true → s.ports[p].queues[q].enabled = true →
    v.toNat < s.ports[p].queues[q].entries.toNat → s.ports[p].queues[q].released v ≤ s.ports[p].queues[q].posted →
    Completes (.cqHeadWrite p q v) s (fun t => t.ports[p].queues[q] = { s.ports[p].queues[q] with cqHead := v }))
  ∧ (∀ (s : State) (p : Port) (q : QueueNo) (v : BitVec 64), s.answers p = true → s.ports[p].queues[q].enabled = false →
    v.getLsbD 63 = true → 2 ≤ field v 0 13 → field v 0 13 ≤ 4096 → 1 ≤ field v 16 7 → field v 16 7 ≤ 64 →
    Completes (.queueEnable p q v) s (fun t => t.ports[p].queues[q].enabled = true ∧ t.ports[p].queues[q].sqHead = 0
      ∧ t.ports[p].queues[q].cqTail = 0 ∧ t.ports[p].queues[q].phase = true
      ∧ t.ports[p].queues[q].entries.toNat = field v 0 13))

/-- The event ring, Bridle, Alarm Summary, Reel and general register rows complete (R275, R421, R423, R424, R451, R455, R458,
R459, R460). A read of a free cell claims it for the reader and raises CLAIMS by 1; the owner's write of owner 0 frees it; a
write of 1 clears an alarm bit; a misaligned or odd-sized read ends in Unsupported Request. -/
def Obligations.PortRegistersComplete : Prop :=
  (∀ (s : State) (p : Port) (v : BitVec 64), s.answers p = true → s.ports[p].ring.enabled = false → v.getLsbD 31 = true →
    64 ≤ field v 0 13 → field v 0 13 ≤ 4096 →
    Completes (.eventRingEnable p v) s (fun t => t.ports[p].ring.enabled = true ∧ t.ports[p].ring.head = 0
      ∧ t.ports[p].ring.tail = 0 ∧ t.ports[p].ring.phase = true))
  ∧ (∀ (s : State) (p : Port), s.answers p = true →
    Completes (.eventRingDisable p) s (fun t => t.ports[p].ring = { s.ports[p].ring with enabled := false }))
  ∧ (∀ (s : State) (p : Port) (v : BitVec 12), s.answers p = true → s.ports[p].ring.enabled = true →
    v.toNat < s.ports[p].ring.entries.toNat →
    (v.toNat + s.ports[p].ring.entries.toNat - s.ports[p].ring.head.toNat) % s.ports[p].ring.entries.toNat
      ≤ s.ports[p].ring.posted →
    Completes (.eventRingHeadWrite p v) s (fun t => t.ports[p].ring = { s.ports[p].ring with head := v }))
  ∧ (∀ (s : State) (p : Port) (c : Fin 64), s.answers p = true → s.bridle[c].owner = 0 →
    Completes (.bridleRead p c .full false) s (fun t => t.bridle[c] = { owner := ownerCode p, claims := s.bridle[c].claims + 1 }
      ∧ t.out = .regRead p (BitVec.ofNat 64 s.bridle[c].word) :: s.out))
  ∧ (∀ (s : State) (p : Port) (c : Fin 64) (v : BitVec 64), s.answers p = true → s.bridle[c].owner = ownerCode p →
    field v 56 8 = 0 → Completes (.bridleWrite p c .full v) s (fun t => t.bridle[c] = { s.bridle[c] with owner := 0 }))
  ∧ (∀ (s : State) (p : Port) (w : Fin 18) (v : BitVec 64), s.answers p = true →
    Completes (.alarmClear p w v) s (fun t =>
      t.ports[p].alarm = s.ports[p].alarm &&& ~~~ (BitVec.ofNat 1152 (v.toNat * 2 ^ (64 * w.val)))))
  ∧ (∀ (s : State) (p : Port), s.answers p = true → s.ev.reelFrozen = false →
    Completes (.reelFreezeBit p) s (fun t => t.ev.reelFrozen = true ∧ raisedSince s t (.dev .reelFrozen) = true))
  ∧ (∀ (s : State) (p : Port), s.answers p = true → s.ev.reelFrozen = true →
    Completes (.reelThawBit p) s (fun t => t.ev.reelFrozen = false ∧ raisedSince s t (.dev .reelThawed) = true))
  ∧ (∀ (s : State) (p : Port), s.answers p = true →
    Completes (.reelWindowAdvance p) s (fun t => t.ports[p].cursor = s.ports[p].cursor + 1))
  ∧ (∀ (s : State) (p : Port) (off : BitVec 16) (n : Nat), s.answers p = true → accessOk off n = false →
    Completes (.bar0BadAccess p true off n) s (fun t => t.out = .unsupported p off :: s.out)
      ∧ Completes (.bar0BadAccess p false off n) s (fun t => t = s))
  ∧ (∀ (s : State) (p : Port) (v : BitVec 64), s.answers p = true →
    Completes (.registerWrite (.bar0 p) 0x0700 .full v) s (fun t => t.ports[p].cursor = BitVec.ofNat 13 (field v 0 13)))
  ∧ (∀ (s : State) (p : Port) (v : BitVec 64) (off : BitVec 16), s.answers p = true →
    Completes (.registerWrite (.config p .relaxedOrdering) off .full v) s (fun t => t.ports[p].relaxed = v.getLsbD 0))
  ∧ (∀ (s : State) (v : BitVec 64), s.coresRun = true →
    Completes (.registerWrite .memctl 0x048 .full v) s (fun t => t.mem.scrubInterval = BitVec.ofNat 32 (field v 0 32)))
  ∧ (∀ (s : State) (p : Port) (q : QueueNo), 0 < s.ports[p].queues[q].unsignalled →
    Completes (.aggregationTimer p q) s (fun t => t.ports[p].queues[q].unsignalled = 0))
  ∧ (∀ (s : State) (p : Port) (q : QueueNo) (e : DmaErr), s.sys.mode ≠ .off → s.ports[p].queues[q].enabled = true →
    s.ports[p].queues[q].halted = false →
    Completes (.hostReadError p (.record q) e) s (fun t => t.ports[p].queues[q].halted = true
      ∧ raisedSince s t (.port p .queueHalted) = true ∧ raisedSince s t (.port p .dmaError) = true))

/-! ### The event path (15_events_and_diagnostics.md) -/

/-- The event path completes: the event raised first enters the firmware queue under the next sequence number when no record
repeats it and there is room for it (R414, R416, R417); a copy writes the record that a port has not had at its ring's tail, which
moves on, and the record leaves the queue once no other ring waits for it, while with no ring enabled it empties the queue (R420);
before an image runs it copies nothing; the timer
of vector 0 lets the next record signal at once (R420); an AER error is raised (R317); a diagnostic test ends with its failures
and its event (R427). -/
def Obligations.EventPathCompletes : Prop :=
  (∀ (s : State) (e : Raised) (rest : List Raised), s.ev.raised = e :: rest → s.ev.summaryDue = false →
    s.ev.queue.any (fun r => r.repeats e (s.dn Param.evtCoalesce)) = false →
    mayPlace Config.eventCapacity Config.eventReserve s.ev.queue.length e.sev = true →
    Completes .eventQueueEntry s (fun t => t.ev.queue = s.ev.queue ++ [EvRecord.ofRaised e s.ev.nextSeq]
      ∧ t.ev.nextSeq = s.ev.nextSeq + 1))
  ∧ (∀ (s : State) (p : Port), s.copies = true → s.ports[(0 : Port)].ring.enabled = false →
    s.ports[(1 : Port)].ring.enabled = false → s.ev.tally.isZero = true →
    Completes (.eventRingCopy p) s (fun t => t.ev.queue = []))
  ∧ (∀ (s : State) (p : Port) (x : EvRecord), s.copies = true → s.ports[p].ring.enabled = true →
    s.ports[1 - p].ring.enabled = false → s.ev.queue = [x] → x.taken[p] = false → s.hostSev p ≤ x.sev.code →
    s.ports[p].ring.tally.isZero = true → s.ports[p].ring.mayPlace x.sev = true → s.ev.tally.isZero = true →
    Completes (.eventRingCopy p) s (fun t => t.ev.queue = []
      ∧ .eventRecord p (slotAddr s.ports[p].ring.base 64 s.ports[p].ring.tail.toNat) (x.encode s.ports[p].ring.phase) ∈ t.out
      ∧ t.ports[p].ring.tail = ringNext s.ports[p].ring.tail s.ports[p].ring.entries))
  ∧ (∀ (s : State) (p : Port), s.copies = false → Completes (.eventRingCopy p) s (fun t => t = s))
  ∧ (∀ (s : State) (p : Port), s.ports[p].ring.signalDue = false →
    Completes (.eventVectorTimer p) s (fun t => t.ports[p].ring.signalHold = false))
  ∧ (∀ (s : State) (p : Port), s.sys.mode ≠ .off →
    Completes (.aerCorrectable p) s (fun t => raisedSince s t (.port p .aerCorrectable) = true))
  ∧ (∀ (s : State) (n : BitVec 16) (f : Byte) (c : BitVec 32), s.sys.mode ≠ .off → s.ev.diagState = 1 →
    Completes (.diagTestEnd n f c) s (fun t => t.ev.diagFails = n ∧ t.ev.diagState = (if n = 0 then 2 else 3)
      ∧ raisedSince s t (.dev (if n = 0 then .diagPass else .diagFail)) = true))

/-! ### Mailbox requests (R305 to R314) -/

/-- The requests that report complete with status 0x00: Identify (R308) with its data in the buffer, Get Parameter with the value
(R11), Get Log of the progress record (R309), the Reel Read areas (R425), a Reel Freeze and Thaw (R423), and a Tail Read of a
stopped tail (R203). -/
def Obligations.MailboxReportsComplete : Prop :=
  (∀ (s : State) (p : Port), accepts s p 0x100 = true → 0 < mbxBufLen s.ports[p].mbx.req →
    Completes (.identify p) s (fun t => answered t p 0x00
      ∧ .mailboxData p (mbxBufAddr s.ports[p].mbx.req) ((s.identifyBytes p).take (mbxBufLen s.ports[p].mbx.req)) ∈ t.out))
  ∧ (∀ (s : State) (p : Port) (i : ParamInfo) (n : Nat), accepts s p 0x101 = true →
    requestParam s.ports[p].mbx.req = some (i, n) → Completes (.getParameter p) s (fun t => answered t p 0x00))
  ∧ (∀ (s : State) (p : Port), accepts s p 0x103 = true → mbxPay s.ports[p].mbx.req 0 1 = 2 →
    mbxPay s.ports[p].mbx.req 4 4 < s.sys.progress.bytes.length → Completes (.getLog p) s (fun t => answered t p 0x00))
  ∧ (∀ (s : State) (p : Port), accepts s p 0x150 = true → mbxPay s.ports[p].mbx.req 0 1 = 1 →
    Completes (.reelFreeze p) s (fun t => answered t p 0x00 ∧ t.ev.reelFrozen = true))
  ∧ (∀ (s : State) (p : Port), accepts s p 0x150 = true → mbxPay s.ports[p].mbx.req 0 1 = 0 →
    Completes (.reelThaw p) s (fun t => answered t p 0x00 ∧ t.ev.reelFrozen = false))
  ∧ (∀ (s : State) (p : Port), accepts s p 0x151 = true → mbxPay s.ports[p].mbx.req 0 1 = 0 →
    mbxPay s.ports[p].mbx.req 4 4 < (s.ev.reel.flatMap blockBytes).length →
    Completes (.reelReadBlocks p) s (fun t => answered t p 0x00))
  ∧ (∀ (s : State) (p : Port), accepts s p 0x151 = true → mbxPay s.ports[p].mbx.req 0 1 = 1 →
    mbxPay s.ports[p].mbx.req 4 4 < s.ev.dropBytes.length →
    Completes (.readDropCounters p) s (fun t => answered t p 0x00 ∧ t.ev.drops = s.ev.drops))
  ∧ (∀ (s : State) (p : Port), accepts s p 0x151 = true → mbxPay s.ports[p].mbx.req 0 1 = 2 →
    mbxPay s.ports[p].mbx.req 4 4 < s.ev.dropBytes.length → mbxPay s.ports[p].mbx.req 4 4 < 4 * Config.sources →
    Completes (.readClearDropCounters p) s (fun t => answered t p 0x00
      ∧ t.ev.drops = clearDrops s.ev.drops (mbxPay s.ports[p].mbx.req 4 4)
          (mbxPay s.ports[p].mbx.req 4 4 + min (mbxBufLen s.ports[p].mbx.req) 65535)))
  ∧ (∀ (s : State) (p : Port) (b : BayNo) (c : TailCfg), accepts s p 0x152 = true → targetBay s.ports[p].mbx.req = some b →
    tailCfgOf s.ports[p].mbx.req = some c → c.trigger ≠ 0 →
    Completes (.tailArm p) s (fun t => answered t p 0x00
      ∧ ∃ i : Fin 2, t.bays[b].srv.tails[i] = Tail.arm c s.bays[b].srv.periods))
  ∧ ∀ (s : State) (p : Port) (b : BayNo) (i : Fin 2), accepts s p 0x153 = true → targetBay s.ports[p].mbx.req = some b →
    mbxPay s.ports[p].mbx.req 0 1 = i.val → s.bays[b].srv.tails[i].running = false →
    mbxPay s.ports[p].mbx.req 4 4 < (s.bays[b].srv.tails[i].bytes b i).length →
    Completes (.tailRead p) s (fun t => answered t p 0x00)

/-- The requests that set a value complete with status 0x00: a parameter value in range and in agreement is the one last accepted
(R10, R11), a policy set writes its eight entries (R35), a download from offset 0 starts a new image (R314), a commit of a
complete image that verifies fills the slot that does not run as a trial (R443; one that does not is answered 0x51, R314), and
the parameters whose writing acts have their effect (R80, R159, R251, R256, R267, R348). -/
def Obligations.MailboxSettingsComplete : Prop :=
  (∀ (s : State) (p : Port) (buf : BufRead) (i : ParamInfo) (n : Nat), accepts s p 0x102 = true →
    requestParam s.ports[p].mbx.req = some (i, n) → ownRow (mbxPay s.ports[p].mbx.req 0 2) = false →
    ownValue (mbxPay s.ports[p].mbx.req 0 2) (requestValue s.ports[p].mbx.req) = false → i.range ≠ .long →
    s.accepts i n (requestValue s.ports[p].mbx.req) = true →
    Completes (.setParameter p buf) s (fun t => answered t p 0x00
      ∧ t.params = s.params.accept n i (requestValue s.ports[p].mbx.req)))
  ∧ (∀ (s : State) (p : Port), accepts s p 0x104 = true → (∀ k < 8, mbxPay s.ports[p].mbx.req k 1 ≤ 1) →
    Completes (.policySet p) s (fun t => answered t p 0x00
      ∧ ∀ k < 8, t.dp (Param.polRetireReceiver + k) = mbxPay s.ports[p].mbx.req k 1))
  ∧ (∀ (s : State) (p : Port) (bs : List Byte), accepts s p 0x120 = true → mbxPay s.ports[p].mbx.req 0 4 = 0 →
    Completes (.firmwareDownload p (.ok bs)) s (fun t => answered t p 0x00 ∧ t.sys.download = some
      { bytes := bs.take (mbxLen s.ports[p].mbx.req), complete := decide (mbxPay s.ports[p].mbx.req 4 1 % 2 = 1), port := p,
        discarded := false }))
  ∧ (∀ (s : State) (p : Port) (d : Download), accepts s p 0x121 = true → activateAction s.ports[p].mbx.req = 0 →
    s.sys.download = some d → d.complete = true → d.discarded = false →
    Completes (.firmwareCommit p) s (fun t => if imageOk d.bytes then
        answered t p 0x00 ∧ t.flash.slots[1 - s.sys.runSlot].st = .trial ∧ t.flash.preferred = 1 - s.sys.runSlot
      else answered t p 0x51))
  ∧ (∀ (s : State) (p : Port) (b : BayNo), accepts s p 0x102 = true → namesParam Param.afeCalReq s.ports[p].mbx.req = true →
    requestBay s.ports[p].mbx.req = some b → 0 ≤ requestValue s.ports[p].mbx.req → requestValue s.ports[p].mbx.req ≤ 0x1F →
    Completes (.calReq p) s (fun t => answered t p 0x00 ∧ ∀ i : RecvNo,
      (requestValue s.ports[p].mbx.req).toNat.testBit i.val = true → t.bays[b].afe.recvs[i].due = true))
  ∧ (∀ (s : State) (p : Port) (b : BayNo), accepts s p 0x102 = true → namesParam Param.wrOpcReq s.ports[p].mbx.req = true →
    requestBay s.ports[p].mbx.req = some b → 0 ≤ requestValue s.ports[p].mbx.req → requestValue s.ports[p].mbx.req ≤ 0xFFFF →
    Completes (.opcReq p) s (fun t => answered t p 0x00
      ∧ t.bays[b].wp.opcDue = s.bays[b].wp.opcDue ||| BitVec.ofNat 16 (requestValue s.ports[p].mbx.req).toNat))
  ∧ (∀ (s : State) (p : Port) (b : BayNo), accepts s p 0x102 = true → namesParam Param.bayReturn s.ports[p].mbx.req = true →
    requestBay s.ports[p].mbx.req = some b → requestValue s.ports[p].mbx.req = 1 → s.bays[b].seq.st = .faulted →
    s.bays[b].seq.tray = false →
    Completes (.bayReturn p) s (fun t => answered t p 0x00 ∧ t.bays[b].seq.st = .empty ∧ t.bays[b].seq.cause = none))
  ∧ (∀ (s : State) (p : Port), accepts s p 0x102 = true → namesParam Param.hndReturn s.ports[p].mbx.req = true →
    requestValue s.ports[p].mbx.req = 1 → Completes (.hndReturn p) s (fun t => answered t p 0x00 ∧ t.hnd.faulted = false))
  ∧ (∀ (s : State) (p : Port), accepts s p 0x102 = true → namesParam Param.hndInClear s.ports[p].mbx.req = true →
    0 ≤ requestValue s.ports[p].mbx.req → requestValue s.ports[p].mbx.req ≤ 0xFFF →
    Completes (.inClear p) s (fun t => answered t p 0x00 ∧ ∀ i : InputNo,
      (requestValue s.ports[p].mbx.req).toNat.testBit i.val = true → t.hnd.inputs[i].edges = 0))
  ∧ ∀ (s : State) (p : Port), accepts s p 0x102 = true → namesParam Param.stgStateClear s.ports[p].mbx.req = true →
    requestValue s.ports[p].mbx.req = 1 → Completes (.stateClear p) s (fun t => answered t p 0x00 ∧ t.stg.incomplete = false)

/-- The mode requests complete (R31): CALIBRATE with every receiver due (R80), QUIESCE from a serving mode, which it notes,
DIAGNOSTIC, and back from DIAGNOSTIC to STANDALONE; the end of calibration returns to STANDALONE (R29). -/
def Obligations.ModeRequestsComplete : Prop :=
  (∀ (s : State) (p : Port), accepts s p 0x102 = true → setsTo Param.devModeReq 7 s.ports[p].mbx.req = true →
    s.sys.mode = .standalone →
    Completes (.modeReqCalibrate p) s (fun t => answered t p 0x00 ∧ t.sys.mode = .calibrate
      ∧ ∀ (b : BayNo) (i : RecvNo), t.bays[b].afe.recvs[i].due = true))
  ∧ (∀ (s : State) (p : Port), accepts s p 0x102 = true → setsTo Param.devModeReq 8 s.ports[p].mbx.req = true →
    s.sys.mode.serving = true →
    Completes (.modeReqQuiesce p) s (fun t => answered t p 0x00 ∧ t.sys.mode = .quiesce ∧ t.sys.cameFrom = s.sys.mode))
  ∧ (∀ (s : State) (p : Port), accepts s p 0x102 = true → setsTo Param.devModeReq 12 s.ports[p].mbx.req = true →
    s.sys.mode = .standalone →
    Completes (.modeReqDiagnostic p) s (fun t => answered t p 0x00 ∧ t.sys.mode = .diagnostic))
  ∧ (∀ (s : State) (p : Port), accepts s p 0x102 = true → setsTo Param.devModeReq 3 s.ports[p].mbx.req = true →
    s.sys.mode = .diagnostic → Completes (.modeReqServe p) s (fun t => answered t p 0x00 ∧ t.sys.mode = .standalone))
  ∧ ∀ s : State, s.sys.mode = .calibrate → s.calibrationsDone = true →
    Completes .calibrationComplete s (fun t => t.sys.mode = .standalone)

/-- The six tests of DIAGNOSTIC start (R427, Table 15.7): the test runs, its word is held, its failure count is 0, and the
request is answered 0x00. -/
def Obligations.DiagnosticTestsStart : Prop :=
  ∀ (s : State) (p : Port) (i : Instr) (code : Int),
    (i, code) ∈ [(Instr.diagLaneLoopback p, (1 : Int)), (.diagDecoders p, 2), (.diagDram p, 3), (.diagNand p, 4),
      (.diagTetherNear p, 5), (.diagTetherFar p, 6)] →
    accepts s p 0x102 = true → setsTest code s.ports[p].mbx.req = true → s.sys.mode = .diagnostic → s.ev.diagState ≠ 1 →
    diagWordOk (requestValue s.ports[p].mbx.req) = true →
    Completes i s (fun t => answered t p 0x00 ∧ t.ev.diagState = 1 ∧ t.ev.diagFails = 0
      ∧ t.ev.diagWord = BitVec.ofNat 32 (requestValue s.ports[p].mbx.req).toNat)

/-- The requests about volumes complete (R310 to R313): a volume is created under its ID with its slot and durability, its
durability changes alone, an unmounted volume with nothing undestaged is deleted, a Format at a mounted disc makes set 1 due, a
Sanitize enters SANITIZE, and a step of it advances the progress record. -/
def Obligations.VolumeRequestsComplete : Prop :=
  (∀ (s : State) (p : Port), accepts s p 0x110 = true → createModify s.ports[p].mbx.req = false →
    s.vol? (mbxTarget s.ports[p].mbx.req) = none → mbxTarget s.ports[p].mbx.req ≠ 0 → mbxTarget s.ports[p].mbx.req ≠ 0xFFFF →
    (∀ v ∈ s.vols, v.slot ≠ createSlot s.ports[p].mbx.req) → (createSlot s.ports[p].mbx.req).toNat ≤ 0x3FF →
    (createCode s.ports[p].mbx.req).toNat ≤ 3 → s.vols.length < Config.maxVolumes →
    Completes (.createVolume p) s (fun t => answered t p 0x00
      ∧ t.vol? (mbxTarget s.ports[p].mbx.req) = some (newVolume (mbxTarget s.ports[p].mbx.req) (createSlot s.ports[p].mbx.req)
          (createCode s.ports[p].mbx.req))))
  ∧ (∀ (s : State) (p : Port) (v : Volume), accepts s p 0x110 = true → createModify s.ports[p].mbx.req = true →
    s.vol? (mbxTarget s.ports[p].mbx.req) = some v → (createCode s.ports[p].mbx.req).toNat ≤ 3 →
    Completes (.modifyDurability p) s (fun t => answered t p 0x00
      ∧ t.vol? (mbxTarget s.ports[p].mbx.req) = some { v with durability := createCode s.ports[p].mbx.req }))
  ∧ (∀ (s : State) (p : Port), accepts s p 0x111 = true → (s.vol? (mbxTarget s.ports[p].mbx.req)).isSome = true →
    s.undestaged (mbxTarget s.ports[p].mbx.req) = false → s.mountedIn (mbxTarget s.ports[p].mbx.req) = none →
    Completes (.deleteVolume p) s (fun t => answered t p 0x00 ∧ t.vol? (mbxTarget s.ports[p].mbx.req) = none))
  ∧ (∀ (s : State) (p : Port) (run : MbxRun) (vid : VolId) (remap : Bool) (b : BayNo) (d : Disc) (r : Bool),
    s.ports[p].mbx.run = some run → run.wait = .format vid false remap → run.dropped = false → s.sys.mode.serving = true →
    s.mountedIn vid = some b → s.bays[b].seq.st = .ready → s.bays[b].wp.mgmtDue = none → s.bays[b].seq.unmounting = none →
    s.bays[b].seq.disc = some d → d.mgmt = none → s.bays[b].rc.geometryFailed = false →
    Completes (.format p r) s (fun t => t.bays[b].wp.mgmtDue = some (.format remap (some p)) ∧ t.ports[p].mbx.run = some run))
  ∧ (∀ (s : State) (p : Port), accepts s p 0x113 = true → (s.sys.mode = .standalone ∨ s.sys.mode = .paired) →
    (mbxPay s.ports[p].mbx.req 0 1 = 1 ∨ mbxPay s.ports[p].mbx.req 0 1 = 2) → mbxPay s.ports[p].mbx.req 1 1 % 2 = 1 →
    Completes (.sanitize p) s (fun t => t.sys.mode = .sanitize ∧ t.sys.cameFrom = s.sys.mode ∧ t.sys.progress.op = 2
      ∧ t.sys.progress.total = s.stg.dies.length + 1))
  ∧ ∀ s : State, s.sys.mode = .sanitize → s.sys.progress.op = 2 → s.sys.progress.steps + 1 < s.sys.progress.total →
    Completes .sanitizeStepDone s (fun t => t.sys.progress = { s.sys.progress with steps := s.sys.progress.steps + 1 })

/-- The activation and held requests complete: a downloaded image of the running bay interface revision that verifies (one that
does not is answered 0x51, R314), or the image of the slot that does not run, is activated, in mode ACTIVATE (R443, R444), and a
request held through a mode is handled once the mode has ended (R307). -/
def Obligations.ActivationRequestsComplete : Prop :=
  (∀ (s : State) (p : Port) (d : Download), accepts s p 0x121 = true → s.sys.mode.serving = true →
    activateAction s.ports[p].mbx.req = 1 →
    s.sys.download = some d → d.complete = true → d.discarded = false →
    (imageSlot d.bytes 0).bayRev = s.sys.bayRev →
    Completes (.commitAndActivate p) s (fun t => if imageOk d.bytes then
        t.sys.mode = .activate ∧ t.sys.cameFrom = s.sys.mode
        ∧ ∃ a, t.sys.activation = some a ∧ a.slot = 1 - s.sys.runSlot ∧ a.port = some p
      else answered t p 0x51))
  ∧ (∀ (s : State) (p : Port), accepts s p 0x121 = true → s.sys.mode.serving = true → activateAction s.ports[p].mbx.req = 2 →
    s.flash.slots[1 - s.sys.runSlot].st ≠ .empty → s.flash.slots[1 - s.sys.runSlot].bayRev = s.sys.bayRev →
    Completes (.activateSlot p true) s (fun t => t.sys.mode = .activate ∧ t.sys.cameFrom = s.sys.mode
      ∧ ∃ a, t.sys.activation = some a ∧ a.slot = 1 - s.sys.runSlot ∧ a.port = some p))
  ∧ ∀ (s : State) (p : Port), s.ports[p].mbx.run = none → s.ports[p].mbx.held = true →
    s.mbxGate (mbxOpcode s.ports[p].mbx.req) ≠ .hold → mbxListed (mbxOpcode s.ports[p].mbx.req) = true →
    Completes (.heldRequestResume p) s (fun t => t.ports[p].mbx = { s.ports[p].mbx with held := false })

/-! ### The magazine handler (10_magazine_handler.md) -/

/-- The moves of the handler complete: an interpolated move is planned from the present positions (R254), a re-target holds the
new target and lets the path ramp to its stop point (R255), one axis moves alone by its profile (R227, R253), the axis to home
next starts its home move (R253), a lone axis in a position move advances by one period, its
bridges at the duty of its motion (R226), when it does not stall, and an axis at
rest takes its standstill mode (R257). -/
def Obligations.HandlerMovesComplete : Prop :=
  (∀ (s : State) (x z th : Int), s.axisWithin 0 x = true → s.axisWithin 1 z = true → s.axisWithin 2 th = true →
    s.mayMove = true → s.hnd.axes[(0 : AxisNo)].homed = true → s.hnd.axes[(1 : AxisNo)].homed = true →
    s.hnd.axes[(2 : AxisNo)].homed = true →
    Completes (.handlerInterpolatedMove x z th) s (fun t => t.hnd.path
      = planPath s.hnd.xyz #v[x, z, th] #v[s.axisProfile 0, s.axisProfile 1, s.axisProfile 2] false ∧ t.hnd.repeatUsed = false))
  ∧ (∀ (s : State) (x z th : Int) (m : PathMove), s.hnd.path = some m → s.axisWithin 0 x = true → s.axisWithin 1 z = true →
    s.axisWithin 2 th = true →
    Completes (.handlerRetarget x z th) s (fun t => t.hnd.path = some { m with mode := .stopping }
      ∧ t.hnd.pathHeld = some (x, z, th)))
  ∧ (∀ (s : State) (a : AxisNo) (x : Int), s.axisWithin a x = true → s.mayMove = true → s.hnd.axes[a].homed = true →
    Completes (.handlerAxisMove a x) s (fun t => t.hnd.axes[a] = s.hnd.axes[a].start (s.axisProfile a) x))
  ∧ (∀ (s : State) (a : AxisNo), s.mayMove = true → s.nextHome = some a →
    Completes .handlerHome s (fun t => t.hnd.axes[a].mode = .home))
  ∧ (∀ (s : State) (a : AxisNo), s.hnd.path = none → s.hnd.repeatDue = false → s.hnd.axes[a].mode = .position →
    (∀ c : AxisNo, c ≠ a → s.hnd.axes[c].moving = false) → s.axisStalls a (s.hnd.axes[a].period false) = false →
    Completes (.handlerPwmPeriod (Vector.replicate 4 false)) s (fun t => t.hnd.axes[a]
      = (s.hnd.axes[a].period false).drive (s.axisParam a Param.hndAxisRunDuty) (s.axisParam a Param.hndAxisStepPitch)))
  ∧ ∀ (s : State) (a : AxisNo), s.hnd.axes[a].moving = false → s.hnd.path = none → s.hnd.axes[a].standstill = 3 →
    Completes (.handlerStandstill a) s (fun t => t.hnd.axes[a].standstill
      = if s.sys.mode = .ripcord ∧ a = 3 then 2 else s.axisParam a Param.hndAxisStandstill)

/-- Move Disc, the inputs and the ownership of the handler complete (R260 to R270): a Move Disc on a device without the handler
is forwarded to a live peer, the last step of one ends it, a filter change counts an edge and is reported, a change in the quiet
time is reported at its end, a stuck input is masked, a stop ends in a resume or ends the Move Disc, and ownership is taken,
retried, made ready and released. -/
def Obligations.HandlerControlCompletes : Prop :=
  (∀ (s : State) (p : Port), accepts s p 0x140 = true → s.hnd.own = false → s.pair.role.role ≠ 0 → s.tetherLive = true →
    Completes (.moveDisc p) s (fun t => ∃ r, t.ports[p].mbx.run = some r ∧ r.wait = .moveDisc ∧ r.opcode = 0x140))
  ∧ (∀ (s : State) (m : MoveDisc), s.sys.mode ≠ .off → s.hnd.move = some m → m.step = 8 → m.awaitPeer = false →
    m.stopped = false → s.hnd.stopped = false → s.hnd.repeatDue = false → s.hnd.still = true → s.hnd.own = true →
    Completes .moveDiscStepDone s (fun t => t.hnd.move = none ∧ raisedSince s t (.dev .moveDone) = true))
  ∧ (∀ (s : State) (i : InputNo) (v : Bool), s.sys.mode ≠ .off → s.hnd.inputs[i].level ≠ v → s.hnd.inputs[i].quiet = false →
    Completes (.inputFilterChange i v) s (fun t => t.hnd.inputs[i].level = v
      ∧ t.hnd.inputs[i].edges = satInc 65535 s.hnd.inputs[i].edges ∧ t.hnd.inputs[i].reported = v
      ∧ raisedSince s t (.dev .inputChange) = true))
  ∧ (∀ (s : State) (i : InputNo), s.sys.mode ≠ .off → s.hnd.inputs[i].quiet = true →
    s.hnd.inputs[i].level ≠ s.hnd.inputs[i].reported →
    Completes (.inputQuietEnd i) s (fun t => t.hnd.inputs[i].reported = s.hnd.inputs[i].level
      ∧ raisedSince s t (.dev .inputChange) = true))
  ∧ (∀ (s : State) (i : InputNo), s.sys.mode ≠ .off → s.inActive i = true → s.hnd.inputs[i].masked = false →
    s.dn Param.hndInStuck ≠ 0 →
    Completes (.inputStuck i) s (fun t => t.hnd.inputs[i].masked = true ∧ raisedSince s t (.dev .inputStuck) = true))
  ∧ (∀ s : State, s.sys.mode ≠ .off → s.hnd.stopped = true → s.interlock = false → s.hnd.still = true → s.hnd.move = none →
    s.hnd.pathHeld = none →
    Completes .handlerResume s (fun t => t.hnd.stopped = false ∧ raisedSince s t (.dev .handlerResumed) = true))
  ∧ (∀ s : State, s.hnd.stopped = true → s.hnd.move.isSome = true →
    Completes .handlerStopWaitExpiry s (fun t => t.hnd.move = none))
  ∧ (∀ s : State, s.hnd.own = false → s.mayOwn = true →
    Completes (.ownershipTake false) s (fun t => t.hnd.own = true ∧ t.hnd.quietDone = false
      ∧ raisedSince s t (.dev .handlerOwnTaken) = true))
  ∧ (∀ s : State, s.hnd.own = false → s.mayOwn = true → s.hnd.ownPeer = true →
    Completes (.ownershipConflictRetry false) s (fun t => t.hnd.own = true ∧ t.hnd.ownPeer = false))
  ∧ (∀ s : State, s.hnd.own = true → Completes .encoderQuietWait s (fun t => t.hnd.quietDone = true))
  ∧ ∀ s : State, s.sys.mode ≠ .off → s.hnd.releaseDue = true → s.hnd.still = true → s.hnd.own = true →
    Completes .ownershipRelease s (fun t => t.hnd.own = false ∧ t.hnd.releaseDue = false
      ∧ raisedSince s t (.dev .handlerOwnReleased) = true)

/-! ### The Tether and the pair (14_pair_operation.md) -/

/-- The Tether's commands complete (R391 to R396, R400): training starts, ends up or fails once, a flit in sequence is accepted, a
NAK and a timeout replay the unacknowledged flits in order, heartbeats are counted out and taken in, the loss of heartbeats and
of PEER_OK_IN is noted, and an active PEER_OK_IN clears the broken wire. -/
def Obligations.TetherCompletes : Prop :=
  let flitOf := fun (o : Output) => match o with
    | .flit bytes _ => some bytes
    | _ => none
  let replays := fun (s t : State) (xs : List (BitVec 16 × TetherFlit)) => t.out.filterMap flitOf
    = (xs.map (fun x => flitBytes (usedLanes s.pair.lanes s.pair.width) x.1 (s.pair.expected - 1) x.2 true)).reverse
        ++ s.out.filterMap flitOf
  (∀ s : State, s.tetherClock = true → s.pair.link = .down → s.pair.lanes ≠ 0 →
    Completes .tetherTrainingStart s (fun t => t.pair.link = .training))
  ∧ (∀ (s : State) (who rel : BitVec 32), s.sys.mode ≠ .off → s.pair.link = .training →
    Completes (.tetherTrainingDone who rel) s (fun t => t.pair.link = .up ∧ t.pair.peerIdentity = who
      ∧ t.pair.width = trainedWidth s.pair.lanes (s.dn Param.pairLanes) ∧ raisedSince s t (.dev .tetherUp) = true))
  ∧ (∀ s : State, s.pair.link = .training → s.pair.failed + 1 < 3 →
    Completes .tetherTrainingTimeout s (fun t => t.pair.failed = s.pair.failed + 1 ∧ t.pair.link = .training))
  ∧ (∀ (s : State) (bytes : List Byte), s.pair.link = .up → flitGood bytes = true → flitListed (bytes.headD 0) = true →
    bytes.headD 0 ≠ 0 → ofLeBytes ((bytes.drop 2).take 2) = s.pair.expected.toNat → s.pair.replays = 0 →
    Completes (.flitReceive bytes) s (fun t => t.pair.expected = s.pair.expected + 1))
  ∧ (∀ (s : State) (n : BitVec 16), s.pair.link = .up →
    Completes (.nakReceive n) s (fun t => replays s t (s.pair.unacked.dropWhile (fun x => !decide (x.1 = n)))))
  ∧ (∀ s : State, s.pair.link = .up → Completes .ackTimeout s (fun t => replays s t s.pair.unacked))
  ∧ (∀ s : State, s.pair.link = .up → s.pair.peerOk = true → s.sys.parking = false → s.sys.parked = false →
    Completes .heartbeatSend s (fun t => t.pair.hbCount = s.pair.hbCount + 1))
  ∧ (∀ (s : State) (h : Heartbeat), s.pair.link = .up →
    Completes (.heartbeatReceive h) s (fun t => t.pair.hbLive = true ∧ t.pair.peerHb = some h))
  ∧ (∀ s : State, s.pair.hbLive = true → Completes .heartbeatMissing s (fun t => t.pair.hbLive = false))
  ∧ (∀ (s : State) (v : Bool) (n : Nat), s.pair.peerOkIn ≠ v → s.dn Param.pairPeerOkFilter ≤ n →
    Completes (.peerOkInChange v n) s (fun t => t.pair.peerOkIn = v))
  ∧ ∀ s : State, s.pair.peerOkIn = true → Completes .brokenWireClear s (fun t => t.pair.brokenWire = false)

/-- A takeover completes step by step (R402 to R404): role 3 with the sequence one higher, the peer's volumes become this
device's, a forwarded command resolves, PAIRED_DEGRADED follows, and the dark wait ends. -/
def Obligations.TakeoverCompletes : Prop :=
  (∀ (s : State) (k : Takeover), s.sys.mode = .takeover → s.pair.takeover = some k → k.roleWritten = false →
    Completes .takeoverRoleWrite s (fun t => t.pair.role.role = 3 ∧ t.pair.role.seq = s.pair.role.seq + 1
      ∧ t.pair.takeover = some { k with roleWritten := true }))
  ∧ (∀ (s : State) (k : Takeover), s.sys.mode = .takeover → s.pair.takeover = some k → k.roleWritten = true →
    k.committed = false →
    Completes .ownershipCommit s (fun t => (∀ v ∈ t.vols, v.ownPeer = false) ∧ (∀ d ∈ t.stg.dirty, d.mirror = false)
      ∧ t.pair.takeover = some { k with committed := true }))
  ∧ (∀ (s : State) (k : Takeover), s.sys.mode = .takeover → s.pair.takeover = some k → k.committed = true →
    k.resolved = false →
    Completes .forwardResolve s (fun t => t.pair.takeover = some { k with resolved := true }))
  ∧ (∀ (s : State) (k : Takeover), s.sys.mode = .takeover → s.pair.takeover = some k → k.resolved = true →
    Completes .takeoverDone s (fun t => t.sys.mode = .pairedDegraded ∧ t.pair.takeover = none
      ∧ raisedSince s t (.dev .takeoverDone) = true))
  ∧ ∀ s : State, s.sys.mode = .pairedDegraded → s.pair.peerOkIn = false →
    Completes .darkWaitExpiry s (fun t => t.pair.darkWait = true)

/-- The messages of the pair complete (R397 to R399): mirror data with room and a Ballast buffer for the Tether
is taken as a mirror copy, mirror commits end the
wait of their messages, a release frees the copies named, a volume of the peer enters the table, a forwarded command becomes
outstanding here, and a forwarded completion ends the command at the port that took it. -/
def Obligations.PairMessagesComplete : Prop :=
  (∀ (s : State) (msg : BitVec 32) (vid : VolId) (u n : Nat) (mask : BitVec 16) (xs : List (Nat × SectorData)),
    s.pair.link = .up → s.sys.mode = .paired → s.pair.uncommitted = [] → s.roomFor vid u = true →
    (s.ballastTake tetherOwner 65536).2.isSome = true →
    Completes (.mirrorData msg vid u n mask xs) s (fun t => (t.stg.dirty? vid u).isSome = true))
  ∧ (∀ (s : State) (ms : List (BitVec 32)),
    Completes (.mirrorCommit ms) s (fun t => t.pair.mirrorOut = s.pair.mirrorOut.filter (fun m => !ms.contains m.1)))
  ∧ (∀ (s : State) (vid : VolId) (us : List Nat),
    Completes (.mirrorRelease vid us) s (fun t => ∀ d ∈ t.stg.dirty, d.mirror = true → d.vid = vid → d.ucl ∉ us))
  ∧ (∀ (s : State) (vid : VolId) (slot : Nat) (dur : Byte) (remap ro fmt : Bool) (rs : List (Nat × Nat)),
    s.pair.link = .up → s.vol? vid = none →
    Completes (.volumeState (.volume vid slot dur remap ro fmt rs)) s (fun t => ∃ v, t.vol? vid = some v ∧ v.ownPeer = true
      ∧ v.durability = dur ∧ v.ranges = rs))
  ∧ (∀ (s : State) (n : BayNo) (st : BaySt), s.pair.link = .up → s.hnd.move = none →
    Completes (.volumeState (.bay n st)) s (fun t => t.pair.peerBays[n] = some st))
  ∧ (∀ (s : State) (f : ForwardCmd) (v : Volume), s.pair.link = .up → s.inPair = true → f.opcode ≠ 0x40 →
    s.vol? f.vid = some v → v.ownPeer = false →
    Completes (.forwardedCommand f) s (fun t => ∃ c, t.cmds = s.cmds ++ [c] ∧ c.id = { f.id with peer := true }
      ∧ c.opcode = f.opcode ∧ c.vid = f.vid ∧ c.data = f.data))
  ∧ ∀ (s : State) (c : CmdId) (x : Cmd) (st : Byte) (r : BitVec 64) (xs : List (Nat × SectorData)), s.pair.link = .up →
    s.cmd? c = some x → x.wait = .forwarded → s.sys.mode ≠ .ripcord →
    Completes (.forwardedCompletion c st r xs) s (fun t => t.cmds = s.cmds.eraseP (fun y => decide (y.id = c)))

/-- Joining, leaving and returning complete (R401, R405 to R409): a Join starts the resync, its end makes the device PAIRED with
a sequence above both, a Leave in each of its three forms ends the pair for this device, a resync of the Tether clears the
degraded latch, its progress is reported, a device whose peer left unbinds and stands alone, and a hand-back returns the
survivor to PAIRED. -/
def Obligations.PairMembershipCompletes : Prop :=
  (∀ (s : State) (p : Port) (j : JoinPeer), accepts s p 0x130 = true → s.tetherLive = true →
    mbxPay s.ports[p].mbx.req 0 4 = 0 → s.pair.awaiting = false → j.standalone = true → j.acceptJoin = true →
    j.releaseMajor.toNat = field s.sys.release 24 8 → j.releaseMinor.toNat = field s.sys.release 16 8 →
    (∀ v ∈ s.vols, v.ownPeer = false → v.vid ∉ j.volumes) → s.vols.length + j.volumes.length ≤ Config.maxVolumes →
    Completes (.pairJoin p j) s (fun t => t.pair.resync = some .join ∧ t.pair.peerIdentity = j.identity
      ∧ t.ports[p].mbx.run.isSome = true))
  ∧ (∀ (s : State) (p : Port) (h : Heartbeat), accepts s p 0x131 = true → mbxPay s.ports[p].mbx.req 0 1 % 2 = 0 →
    s.tetherLive = true → s.sys.mode = .paired → s.pair.peerHb = some h → h.mode = .paired →
    (∀ c ∈ s.cmds, c.wait ≠ .forwarded) →
    Completes (.pairLeave p) s (fun t => answered t p 0x00 ∧ t.sys.mode = .standalone ∧ t.pair.role = .reset))
  ∧ (∀ (s : State) (p : Port) (vs : List VolId), accepts s p 0x131 = true → mbxPay s.ports[p].mbx.req 0 1 % 2 = 1 →
    s.sys.mode = .pairedDegraded →
    Completes (.pairLeaveSelf p vs) s (fun t => answered t p 0x00 ∧ t.sys.mode = .standalone ∧ t.pair.role = .reset))
  ∧ (∀ (s : State) (p : Port), accepts s p 0x131 = true → mbxPay s.ports[p].mbx.req 0 1 % 4 = 3 → s.sys.mode = .standalone →
    s.tetherLive = false →
    Completes (.pairLeaveForced p) s (fun t => answered t p 0x00 ∧ t.pair.role = .reset ∧ t.flash.pairRecord = none))
  ∧ (∀ s : State, s.sys.mode ≠ .off → s.pair.resync = some .tether → s.tetherLive = true →
    Completes .tetherResyncEnd s (fun t => t.pair.degraded = false ∧ t.pair.resync = none
      ∧ raisedSince s t (.dev .tetherRestored) = true))
  ∧ (∀ s : State, s.sys.mode ≠ .off → s.pair.resync = some .join →
    Completes .pairResyncProgress s (fun t => raisedSince s t (.dev .pairResync) = true))
  ∧ (∀ (s : State) (n : BitVec 24), s.sys.mode = .standalone → s.tetherLive = true → s.pair.resync = some .join →
    Completes (.joinResyncEnd n) s (fun t => t.sys.mode = .paired ∧ t.pair.role.seq = seqAbove s.pair.role.seq n
      ∧ raisedSince s t (.dev .pairJoined) = true))
  ∧ (∀ (s : State) (r : RejoinPeer), s.pair.awaiting = true → s.sys.mode = .standalone → s.tetherLive = true →
    r.mode = .standalone → r.hasRecord = false →
    Completes (.rejoin r) s (fun t => t.pair.awaiting = false ∧ t.pair.role = .reset))
  ∧ ∀ s : State, s.tetherLive = true → s.sys.mode = .pairedDegraded →
    Completes .handback s (fun t => t.sys.mode = .paired ∧ t.pair.taken = [] ∧ t.pair.role.seq = s.pair.role.seq + 1
      ∧ raisedSince s t (.dev .handbackDone) = true)

/-! ### The optical front end (03_optical_front_end.md) -/

/-- The receivers' commands complete: a criterion that fires marks the receiver faulty (R75), the Relief line takes a lane (R76),
an accepted retry run returns the receiver to service (R78), and a head temperature enters the mean (R72). -/
def Obligations.ReceiversComplete : Prop :=
  (∀ (s : State) (b : BayNo) (r : RecvNo), s.dspRuns = true → s.sys.mode ≠ .off → (s.bays[b].afe.recv r).usable = true →
    Completes (.receiverFault b r .bias) s (fun t => t.bays[b].afe.recvs[r].faulty = true
      ∧ raisedSince s t (.bay b .receiverFault) = true))
  ∧ (∀ (s : State) (b : BayNo) (n : Beam), s.sys.mode ≠ .off → s.bays[b].afe.subst = some n →
    Completes (.reliefSubstitution b) s (fun t => t.bays[b].afe.relief = .carrier n true ∧ t.bays[b].afe.laneRelief[n] = true
      ∧ t.bays[b].afe.erasing[n] = false ∧ t.bays[b].afe.subst = none ∧ raisedSince s t (.bay b .reliefSubstituted) = true))
  ∧ (∀ (s : State) (b : BayNo) (n : Beam) (windows : List (List CalPart)) (c : CalRun) (first final : Trim), s.dspRuns = true →
    s.sys.mode ≠ .off → s.bays[b].afe.retryRecv = some (beamRecv n) →
    (s.bays[b].afe.beginRun n (beamRecv n) 5).through (s.bp b Param.afeGainTarget) (s.bn b Param.afeCalWindow) windows
      = some (c, first, final) → c.recv = beamRecv n → c.accepted first final = true →
    Completes (.receiverRetryRun b true windows) s (fun t => t.bays[b].afe.recvs[beamRecv n].faulty = false
      ∧ t.bays[b].afe.recvs[beamRecv n].rejects = 0 ∧ t.bays[b].afe.recvs[beamRecv n].trims = final
      ∧ raisedSince s t (.bay b .calDone) = true ∧ raisedSince s t (.bay b .receiverRecovered) = true))
  ∧ ∀ (s : State) (b : BayNo) (code : BitVec 12), Completes (.headTempSample b code) s (fun t => t.bays[b].afe.temps
      = (((code.toNat : Int) * s.bp b Param.afeTempScale + s.bp b Param.afeTempOffset * 256) :: s.bays[b].afe.temps).take 64)

/-- Calibration in the shadow completes step by step (R81, R82): the slot of a due receiver opens with the Relief line on its
input, the settled line starts its run, the planned switch gives the lane to the Relief line and starts the run on the receiver,
and a complete measurement window whose error asks for a further tap sets it. -/
def Obligations.CalibrationCompletes : Prop :=
  (∀ (s : State) (b : BayNo), calibratesIn s.bays[b].seq.st = true → s.bays[b].seq.st ≠ .writing → s.bays[b].afe.cal = none →
    s.bays[b].afe.subst = none → s.bays[b].afe.reliefFree = true → s.bays[b].afe.slotDue 0 = true →
    Completes (.calSlotOpen b) s (fun t => t.bays[b].afe.relief = .shadow 0
      ∧ ∃ c, t.bays[b].afe.cal = some c ∧ c.beam = 0 ∧ c.recv = reliefLine ∧ c.step = 1))
  ∧ (∀ (s : State) (b : BayNo) (c : CalRun), s.bays[b].afe.cal = some c → c.step = 1 →
    Completes (.reliefSettled b) s (fun t => t.bays[b].afe.cal = some { c with step := 2 }))
  ∧ (∀ (s : State) (b : BayNo) (l : Beam) (c : CalRun), s.bays[b].afe.cal = some c → c.beam = l → c.step = 4 →
    s.bays[b].slotWaits l = false →
    Completes (.laneSelectSwitch b l) s (fun t => t.bays[b].afe.laneRelief[l] = true ∧ t.bays[b].afe.relief = .carrier l false
      ∧ ∃ d, t.bays[b].afe.cal = some d ∧ d.recv = beamRecv l ∧ d.step = 5))
  ∧ ∀ (s : State) (b : BayNo) (c : CalRun) (w : List CalPart) (v dir : Int) (n : Nat), s.dspRuns = true →
    s.bays[b].afe.cal = some c → (c.step = 2 ∨ c.step = 5) → s.bays[b].seq.st ≠ .seeking → s.bays[b].seq.st ≠ .layerJump →
    s.bays[b].slotWaits c.beam = false → windowDone (s.bn b Param.afeCalWindow) c.trimIx w = true →
    search c.trimIx (c.cur.get c.trimIx) c.dir c.steps c.prev (windowError (s.bp b Param.afeGainTarget) c.trimIx w)
      = .more v dir n →
    Completes (.calMeasurement b w) s (fun t => t.bays[b].afe.cal
      = some { c with cur := c.cur.put c.trimIx v, dir := dir, steps := n,
                      prev := some (windowError (s.bp b Param.afeGainTarget) c.trimIx w) })

/-! ### The read channel (04_read_channel.md) -/

/-- The commands of a lane complete, each once the lane has taken the samples that come with it: a cluster whose entry is open is
acquired (R91, R131), its preamble, matched long enough, starts the lane (R92), a sync within the threshold is accepted at its
position (R112, R114), the timing correction at its bound ends frame lock (R89, R115), a frame record that is ready is released
(R116), a cluster whose postamble has passed ends (R97), a dropout that has ended is noted with EV_DEFECT (R109), and a long sum
defect is feedback loss (R110). -/
def Obligations.ReadChannelCompletes : Prop :=
  (∀ (s : State) (b : BayNo) (l : Beam) (home read : ClusterAddr) (first : Bool) (cycle : Rat) (xs : List (BitVec 8)),
    s.dspRuns = true → s.bays[b].laneReads l = true → (s.bays[b].dec.entryAt read).isSome = true →
    Completes (.clusterAcquisition b l home read .demand first cycle xs) s (fun t => t.bays[b].rc.lanes[l].addr = read
      ∧ t.bays[b].rc.lanes[l].home = home ∧ t.bays[b].rc.lanes[l].frame = 0 ∧ t.bays[b].rc.lanes[l].released = 0))
  ∧ (∀ (s : State) (b : BayNo) (l : Beam) (xs : List (BitVec 8)), let u := s.sampled b l xs
    s.dspRuns = true → u.bays[b].rc.lanes[l].phase = .searching →
    u.bays[b].rc.lanes[l].par.preDetect ≤ u.bays[b].rc.lanes[l].data.matched →
    Completes (.preambleDetect b l xs) s (fun t => t.bays[b].rc.lanes[l].phase = .acquiring
      ∧ t.bays[b].rc.lanes[l].data = zeroStart (u.dspCfg b l) u.bays[b].rc.lanes[l].data))
  ∧ (∀ (s : State) (b : BayNo) (l : Beam) (xs : List (BitVec 8)) (q : Int) (d : Nat), let u := s.sampled b l xs
    let x := u.bays[b].rc.lanes[l]
    s.dspRuns = true → x.phase = .locked → x.cold = false → x.frame < 384 →
    x.prediction + x.par.syncWin + 40 ≤ x.data.softCount → (∀ i < 40, flagged x.data.erased (x.prediction + (i : Nat)) = false) →
    syncSearch (x.data.hardFrom (x.prediction - x.par.syncWin) (2 * x.par.syncWin + 40)) x.frame x.par.syncWin x.par.syncThr
      = some (q, d) →
    Completes (.frameSyncSearch b l xs) s (fun t => t.bays[b].rc.lanes[l].phase = .locked
      ∧ t.bays[b].rc.lanes[l].frame = x.frame + 1
      ∧ t.bays[b].rc.lanes[l].prediction = nextSync x.frame (x.prediction + q)
      ∧ t.bays[b].rc.lanes[l].syncs = { frame := x.frame, position := x.prediction + q, offset := q, distance := d,
                                        inserted := false } :: x.syncs))
  ∧ (∀ (s : State) (b : BayNo) (l : Beam) (xs : List (BitVec 8)), let u := s.sampled b l xs
    s.dspRuns = true → s.sys.mode ≠ .off → u.bays[b].rc.lanes[l].phase = .locked → u.bays[b].rc.lanes[l].data.atBound = true →
    Completes (.timingRange b l xs) s (fun t => t.bays[b].rc.lanes[l].phase = .lost
      ∧ raisedSince s t (.bay b .timingRange) = true ∧ raisedSince s t (.bay b .frameLockLoss) = true))
  ∧ (∀ (s : State) (b : BayNo) (l : Beam) (xs : List (BitVec 8)), let u := s.sampled b l xs
    s.dspRuns = true → s.bays[b].seq.st ≠ .writing → 0 < u.bays[b].rc.lanes[l].released →
    u.recordReady b u.bays[b].rc.lanes[l] = true →
    Completes (.frameRecordRelease b l xs) s (fun t =>
      t.bays[b].rc.lanes[l].released = u.bays[b].rc.lanes[l].released + 1))
  ∧ (∀ (s : State) (b : BayNo) (l : Beam) (xs : List (BitVec 8)), let u := s.sampled b l xs
    s.dspRuns = true → u.bays[b].rc.lanes[l].phase = .locked → u.bays[b].rc.lanes[l].ended = true →
    Completes (.clusterEnd b l xs) s (fun t => t.bays[b].rc.lanes[l].phase = .idle
      ∧ t.bays[b].rc.lanes[l].endedLocked = true))
  ∧ (∀ (s : State) (b : BayNo) (l : Beam) (xs : List (BitVec 8)) (start n : Nat) (rest : List (Nat × Nat)),
    let u := s.sampled b l xs
    s.dspRuns = true → s.sys.mode ≠ .off → u.bays[b].rc.lanes[l].data.dropouts = (start, n) :: rest →
    Completes (.defectDropout b l xs) s (fun t => t.bays[b].rc.lanes[l].data.dropouts = rest
      ∧ raisedSince s t (.bay b .defect) = true))
  ∧ ∀ (s : State) (b : BayNo), s.rootRuns = true → s.sys.mode ≠ .off → s.bays[b].rc.sumDefect = true →
    s.bays[b].rc.sumLong = false → 2 * s.bn b Param.rdchDefectWin < 5 * s.bays[b].rc.sumPeriods →
    Completes (.sumDefectLong b) s (fun t => t.bays[b].rc.sumLong = true ∧ raisedSince s t (.bay b .sumDefectLong) = true)

/-! ### Decoding and recovery (05_decoding_and_scratch_recovery.md) -/

/-- Decoding completes: a decoder with an empty input buffer takes the codeword that is next with its class's iteration limit (R122,
R125), a decode ends in a holding entry (R129), the collector takes a result (R130), a cluster whose every codeword is good after
the outer code is delivered and its entry closed (R127, R131, R138), a cluster past its deadline is late and read again (R136), a
ladder step whose last decode has its result is reported (R139), the next step with a disc pass waits for it (R139, R140), and
Updraft starts (R143). -/
def Obligations.DecodingCompletes : Prop :=
  (∀ (s : State) (d : DecNo) (c : Codeword), s.dspRuns = true → s.pool.decs[d].inService = true →
    s.pool.decs[d].input.length < 2 → s.nextCodeword d = some c →
    Completes (.decoderDispatch d) s (fun t =>
      t.pool.decs[d].input = s.pool.decs[d].input ++ [{ c with limit := s.iterLimit c }]))
  ∧ (∀ (s : State) (d : DecNo) (c : Codeword) (rest : List Codeword) (flips : List (Fin 18576)), s.dspRuns = true →
    s.pool.decs[d].input = c :: rest → s.pool.decs[d].holding.length < 2 →
    Completes (.decodeComplete d flips) s (fun t => t.pool.decs[d].input = rest
      ∧ t.pool.decs[d].holding = s.pool.decs[d].holding ++ [decodeResult c flips]))
  ∧ (∀ (s : State) (d : DecNo) (r : DecodeResult) (rest : List DecodeResult), s.dspRuns = true →
    s.pool.nextResult = some d → s.pool.decs[d].holding = r :: rest → r.converged = false →
    Completes .collectorAccept s (fun t => t.pool.decs[d].holding = rest ∧ t.pool.lastDec = d))
  ∧ (∀ (s : State) (b : BayNo) (i : Fin 128) (e : Entry), s.dspRuns = true →
    lookupKey s.bays[b].dec.entries i.val = some e → e.decided = true → e.cls = .demand → e.ran = false → e.isVerify = false →
    (∀ k < 36, (e.checked k).isGood = true) →
    Completes (.outerCodeRun b i) s (fun t => lookupKey t.bays[b].dec.entries i.val = none))
  ∧ (∀ (s : State) (b : BayNo) (i : Fin 128) (e : Entry), s.sys.mode ≠ .off →
    lookupKey s.bays[b].dec.entries i.val = some e → e.cls = .demand → e.isVerify = false → e.frames = 384 → e.complete = false →
    e.late = false → e.reread = 0 →
    Completes (.deliveryDeadline b i) s (fun t => lookupKey t.bays[b].dec.entries i.val = some { e with late := true, reread := 1 }
      ∧ raisedSince s t (.bay b .clusterLate) = true))
  ∧ (∀ (s : State) (b : BayNo) (i : Fin 128) (e : Entry) (n : Nat), s.dspRuns = true → s.sys.mode ≠ .off →
    lookupKey s.bays[b].dec.entries i.val = some e → e.cls = .retry → e.stage = .summed n → e.decided = true →
    stepPasses e.ladder ≤ n + 1 →
    Completes (.ladderStep b i) s (fun t => raisedSince s t (.bay b .ladderStep) = true))
  ∧ (∀ (s : State) (b : BayNo) (i : Fin 128) (e : Entry), s.dspRuns = true →
    lookupKey s.bays[b].dec.entries i.val = some e → e.cls = .retry → e.stage = .idle →
    s.stepAllowed b (s.nextStep b e.ladder) = true → 0 < stepPasses (s.nextStep b e.ladder) →
    Completes (.ladderStep b i) s (fun t => lookupKey t.bays[b].dec.entries i.val
      = some { e with ladder := s.nextStep b e.ladder, stage := .pass 0, frames := 0 }))
  ∧ ∀ (s : State) (b : BayNo) (a : ClusterAddr) (n : Nat), s.bays[b].dec.updraftFrom = some (a, n) →
    s.bays[b].mounted = true → s.bays[b].seq.unmounting = none → s.bays[b].seq.demand = [] → s.bays[b].wp.jobs = [] →
    s.bays[b].wp.run = none → s.sys.mode.serving = true → s.bn b Param.decUpdEnable = 1 → 0 < n →
    s.atMinimum 2 (bayOwner b) = false → (∀ e ∈ s.bays[b].dec.entries, e.2.cls ≠ .demand) →
    Completes (.updraftStart b) s (fun t => t.bays[b].dec.updraft
        = some { next := a, left := min n (4032 + userClusters - posOfAddr a) }
      ∧ t.bays[b].dec.updraftFrom = none)

/-! ### Writing and verification (06_writing_and_verification.md) -/

/-- The laser driver link and the gate complete (R149 to R152, R169): a write frame goes out and sets a power register, a good answer
to a read of STATUS notes whether it is clear, as a poll does, and an index mark lost, or found beyond WR.SYNC_LOSS_WIN, in WRITING
cuts the gate with its cause bit. -/
def Obligations.LaserDriverCompletes : Prop :=
  (∀ (s : State) (b : BayNo) (req : LdlReq) (answer again : BitVec 32), req.write = true →
    (s.bays[b].wp.gate = false ∨ ¬ (0x11 ≤ req.reg.toNat ∧ req.reg.toNat ≤ 0x14)) →
    Completes (.ldlFrame b req answer again) s (fun t => t.out = .ldl b (ldlFrame req) :: s.out
      ∧ t.bays[b].wp.ldl = if 0x10 ≤ req.reg.toNat ∧ req.reg.toNat ≤ 0x14 then insertKey s.bays[b].wp.ldl req.reg.toNat req.data
          else s.bays[b].wp.ldl))
  ∧ (∀ (s : State) (b : BayNo) (req : LdlReq) (answer again : BitVec 32), req.write = false → req.reg = 0 →
    answerOk req answer = true →
    Completes (.ldlFrame b req answer again) s (fun t =>
      t.bays[b].wp.statusClear = !statusFaulty (BitVec.ofNat 16 (answer.toNat / 256))))
  ∧ (∀ (s : State) (b : BayNo) (v : BitVec 16), s.bays[b].seq.st ≠ .empty →
    Completes (.ldlStatusPoll b v) s (fun t => t.bays[b].wp.statusClear = !statusFaulty v))
  ∧ ∀ (s : State) (b : BayNo) (found : Option Int), s.bays[b].seq.st = .writing →
    (∀ d, found = some d → s.bn b Param.wrSyncLossWin < d.natAbs) →
    (∀ x, s.bays[b].wp.cutTime = some x → x.toNat + 2 < s.sys.time.toNat) →
    Completes (.wobbleIndexLoss b found) s (fun t => t.bays[b].wp.gate = false
      ∧ bitAt t.bays[b].wp.lastCut CutCause.frameSync.bit = true)

/-- A write run completes (R164 to R167, R170): it starts on the turn of the head job's first cluster, with the clusters of that
turn whose copies are in Ballast; a cluster that B1 read within every limit joins the job's written ones, and one that misses a
limit the replacement queue; the final verify revolution ends the run with the unread clusters unverified; and a pass of B1 leaves
unverified only the clusters it could not read. -/
def Obligations.WriteRunCompletes : Prop :=
  (∀ (s : State) (b : BayNo) (prior : List (ClusterAddr × Option ClusterRead)) (j : DestageJob) (js : List DestageJob) (x : WriteItem)
    (xs : List WriteItem) (v : State) (bufs : List (ClusterAddr × BitVec 32)) (items rest : List WriteItem),
    let u := (s.onWp b (fun w => w.queueRewrites)).preRead b prior
    s.bays[b].seq.st = .ready → s.mayWrite b = true → s.bays[b].wp.run = none → s.bays[b].seq.position = false →
    s.bays[b].srv.move = none → u.bays[b].wp.jobs = j :: js → j.todo = x :: xs →
    s.bays[b].clockReady (addrLayer x.home) (addrTurn x.home) = true →
    u.layerReady b (addrLayer x.home) (zoneOfTurn (addrTurn x.home)) = true →
    u.takeTurn b (addrLayer x.home) (addrTurn x.home) j.todo = (v, bufs, items, rest) → items ≠ [] →
    Completes (.writeRunStart b prior) s (fun t => t.bays[b].seq.st = .writing
      ∧ ∃ r, t.bays[b].wp.run = some r ∧ r.layer = addrLayer x.home ∧ r.turn = addrTurn x.home ∧ r.turnItems = items
        ∧ r.unjudged = [] ∧ r.finalRev = false ∧ r.bufs = bufs))
  ∧ (∀ (s : State) (b : BayNo) (r : WriteRun) (x : WriteItem) (i : Nat) (o : VerifyRead) (j : DestageJob) (js : List DestageJob),
    s.bays[b].seq.st = .writing → s.bays[b].wp.run = some r → s.bays[b].verified r.unjudged = some (x, i, o) →
    s.bays[b].wp.jobs = j :: js → s.missedLimit b o = none →
    Completes (.verifyCluster b) s (fun t => t.bays[b].wp.jobs = { j with written := j.written ++ [x] } :: js
      ∧ ∃ q, t.bays[b].wp.run = some q ∧ q.unjudged = r.unjudged.filter (fun y => !decide (y = x))))
  ∧ (∀ (s : State) (b : BayNo) (r : WriteRun) (x : WriteItem) (i : Nat) (o : VerifyRead) (k : Nat), s.sys.mode ≠ .off →
    s.bays[b].seq.st = .writing → s.bays[b].wp.run = some r → s.bays[b].verified r.unjudged = some (x, i, o) →
    s.missedLimit b o = some k →
    Completes (.verifyCluster b) s (fun t => t.bays[b].wp.replQueue
        = s.bays[b].wp.replQueue ++ [{ home := x.home, cause := 1, vid := x.vid, ucl := x.ucl, fill := [] }]
      ∧ raisedSince s t (.bay b .verifyFail) = true))
  ∧ (∀ (s : State) (b : BayNo) (r : WriteRun), s.bays[b].seq.st = .writing → s.bays[b].wp.run = some r → r.finalRev = true →
    Completes (.finalVerifyEnd b) s (fun t => t.bays[b].seq.st = .ready ∧ t.bays[b].wp.gate = false ∧ t.bays[b].wp.run = none
      ∧ t.bays[b].wp.unverified = s.bays[b].wp.unverified ++ r.unjudged))
  ∧ ∀ (s : State) (b : BayNo) (reads : List (Option ClusterRead)), s.bays[b].seq.st = .ready → s.bays[b].laneHasReceiver 1 = true →
    s.bays[b].mounted = true →
    Completes (.unverifiedVerifyPass b reads) s (fun t => t.bays[b].wp.unverified
      = ((s.bays[b].wp.unverified.zip reads).filter (fun p => p.2.isNone)).map (·.1) ++ s.bays[b].wp.unverified.drop reads.length)

/-- The work beside a write run completes: a replacement pass writes the queued cluster at the next ordinal, verifies it and enters it
in the defect list (R168), a calibration run that meets its limit sets the factor of its layer and area (R158), a geometry write
that finds B1's and B3's offsets learns the distances (R103), and the set of a destage run, written whole to both sequences, is
current with the next sequence number (R59, R61). -/
def Obligations.WriteSupportCompletes : Prop :=
  (∀ (s : State) (b : BayNo) (copies : List (ClusterAddr × ClusterRead)) (x : ReplItem) (d : Disc) (m : MgmtSet) (before : Option ClusterRead)
    (r : ClusterRead),
    let s0 := s.onWp b (fun w => w.queueRewrites)
    let s1 := s0.onWp b (fun w => { w with replQueue := [x] })
    let a := ordinalAddr m.nextOrdinal
    let s2 := ((s1.onMgmt b (fun q => { q with nextOrdinal := m.nextOrdinal + 1 })).loadPowers b (addrLayer a)
      (zoneOfTurn (addrTurn a))).record b a (s1.itemBits b a x.item)
    s.bays[b].seq.st = .ready → s.mayWrite b = true → s.bays[b].wp.run = none → s0.bays[b].wp.replQueue = [x] → x.cause ≠ 2 →
    s.bays[b].seq.disc = some d → d.mgmt = some m → d.unclean = false →
    (x.cause = 3 → rewriteAllowed m.nextOrdinal = true) → m.nextOrdinal < ordinals → 0 < s.bn b Param.wrReplTries →
    (s2.verdict b (addrLayer a) (s2.measure b a (s2.bays[b].itemMeta x.item) (s2.itemWords b x.item) r)).2 = true →
    Completes (.replacementPass b copies [{ before := before, after := some r }]) s (fun t => t.bays[b].wp.replQueue = []
      ∧ ∃ e n, t.bays[b].seq.disc = some e ∧ e.mgmt = some n ∧ n.nextOrdinal = m.nextOrdinal + 1
        ∧ n.defects = m.defects ++ [{ cause := BitVec.ofNat 6 x.cause, home := x.home, repl := a }]))
  ∧ (∀ (s : State) (b : BayNo) (layer : LayerNo) (outer : Bool) (probes : List Bool × List Bool) (tries again : List WriteTry) (f : Rat)
    (c : Option Rat),
    let p := s.testPointers b layer probes
    let used := if outer then p.1.2 else p.1.1
    let prev : Rat := ((if outer then s.bays[b].wp.kappaOut[layer] else s.bays[b].wp.kappaIn[layer] : Nat) : Rat) / 4096
    let n := s.bn b Param.wrOpcSteps
    let span := s.bn b Param.wrOpcSpan
    s.mayCalibrate b = true → used + n ≤ (testArea outer).2 → s.levelsOk b layer outer (stepFactor prev span n (n - 1)) = true →
    judgeRun prev span n (s.berLimit b) (p.2.runSteps b layer outer used prev span n tries).2 = (some f, c) →
    Completes (.powerCalibration b layer outer probes tries again) s (fun t =>
      (if outer then t.bays[b].wp.kappaOut[layer] else t.bays[b].wp.kappaIn[layer]) = (roundOpen 8 (f * 4096)).toNat
      ∧ bitAt t.bays[b].wp.opcDone (layer.val + if outer then 16 else 0) = true))
  ∧ (∀ (s : State) (b : BayNo) (layer : LayerNo) (probes : List Bool × List Bool) (recorded : List ClusterAddr)
    (first second : Vector (Option LaneRead) 4) (outer : Bool) (start n : Nat),
    let off := s.geometryOffsets b first
    s.bays[b].seq.st = .ready → s.mayWrite b = true → 256 ≤ s.bays[b].wp.clockGood →
    geometryPlace (s.testPointers b layer probes).1 = some (outer, start, n) → (off[0]).isSome = true → (off[2]).isSome = true →
    Completes (.geometryWrite b layer probes recorded first second) s (fun t => ∀ (i : Fin 3) (v : Nat), off[i] = some v →
      t.bays[b].rc.learnt[i] = some (distanceOf (if outer then 9 else 0) v)))
  ∧ ∀ (s s1 s2 : State) (b : BayNo) (tries1 tries2 : List WriteTry) (d : Disc) (m : MgmtSet) (j : DestageJob) (js : List DestageJob)
    (u1 u2 : Nat),
    let next := nextSet d m false j.written
    s.bays[b].seq.st = .ready → s.bays[b].wp.mgmtDue = some .destage → s.bays[b].wp.replQueue = [] → s.bays[b].seq.disc = some d →
    d.mounted = true → d.mgmt = some m → d.readOnly = false → s.bays[b].wp.jobs = j :: js →
    setFit (setClusters next) d.used1 d.used2 = .fits →
    State.writeCopy b next false tries1 0 d.used1 (s.onWp b (fun w => { w with mgmtDue := none })) = (s1, u1, .whole) →
    State.writeCopy b next true tries2 0 d.used2 s1 = (s2, u2, .whole) →
    Completes (.managementSetWrite b tries1 tries2) s (fun t => t.bays[b].wp.mgmtDue = none
      ∧ ∃ e, t.bays[b].seq.disc = some e ∧ e.mgmt = some next ∧ next.seq = m.seq + 1 ∧ e.used1 = u1 ∧ e.used2 = u2)

/-! ### The servo loops (07_servo_loops.md) -/

/-- The periods of the loops complete (R70, R71, R174 to R176, R186, R198): a servo period advances the counter of every input that
converted and takes the sum of its 4 conversions; a focus computation on time applies the law of its error, clamped; so does a tilt
computation; the sled loop latches its velocity command; and a deadline miss before the third in a row is counted and holds the
output. -/
def Obligations.ServoPeriodsComplete : Prop :=
  (∀ (s : State) (b : BayNo) (o : ServoObs), s.rootRuns = true →
    Completes (.servoPeriod b o) s (fun t => t.bays[b].srv.periods = s.bays[b].srv.periods + 1 ∧ t.bays[b].srv.cycle = o.cycle.val
      ∧ ∀ i : Fin 8, bitAt o.complete i.val = true →
        t.bays[b].srv.samples[i] = BitVec.ofNat 14 ((o.samples[i]).toList.map BitVec.toNat).sum
        ∧ t.bays[b].srv.counters[i] = s.bays[b].srv.counters[i] + 1))
  ∧ (∀ (s : State) (b : BayNo) (o : ServoObs),
    let u := ((((s.takePeriod fastParams b).onSrv b (fun v => { v with cycle := o.cycle.val })).takeSamples b o).sumPeriod b).rampPeriod b
    let x := u.bays[b].srv.focus
    let gain : Rat := if 0 < x.boost then (u.bp b Param.srvLandBoost : Rat) / 16 else 1
    let law := Config.servoLaw 0 (u.bn b Param.srvFocXover) (u.bn b Param.srvFocKa) x.filter x.integ (u.focusErr b * gain)
    s.rootRuns = true → s.bays[b].sHeld = false → u.bays[b].srv.parked = false → u.bays[b].srv.ramp = none → x.closed = true →
    x.lull = none → x.outs.length < 63 → u.bays[b].srv.hold = none → o.complete = 0xFF → o.focusOnTime = true →
    Completes (.servoPeriod b o) s (fun t => t.bays[b].srv.focus.drive
      = clampTo (u.bp b Param.srvFocDrvLimit) (roundOpen 10 (x.base + law.1 + u.focusFf b))))
  ∧ (∀ (s : State) (b : BayNo),
    let u := s.takePeriod [Param.srvTiltXover, Param.srvTiltKs] b
    let x := u.bays[b].srv.tilt
    let gain : Rat := if 0 < x.boost then (u.bp b Param.srvLandBoost : Rat) / 16 else 1
    let law := Config.servoLaw 2 (u.bn b Param.srvTiltXover) (u.bn b Param.srvTiltKs) x.filter x.integ (u.tiltErr b * gain)
    s.rootRuns = true → s.bays[b].sHeld = false → x.closed = true → u.bays[b].srv.hold = none → x.outs.length < 63 →
    Completes (.tiltPeriod b true) s (fun t => t.bays[b].srv.tilt.drive
      = clampTo (u.bp b Param.srvTiltDrvLimit) (roundOpen 10 (x.base + law.1))))
  ∧ (∀ (s : State) (b : BayNo),
    let u := s.takePeriod [Param.srvSledKp, Param.srvSledDeadband] b
    s.rootRuns = true → s.bays[b].sHeld = false → s.bays[b].sld.homed = true → s.bays[b].srv.sled.closed = true →
    s.bays[b].srv.sled.lull = none → s.bays[b].srv.tracking.lull = none →
    Completes (.sledLoopPeriod b) s (fun t => t.bays[b].srv.sled.drive = u.spiralV b
      + (if s.bays[b].srv.hold.isSome = true ∨ |s.bays[b].srv.lensOffset| ≤ (u.bp b Param.srvSledDeadband : Rat) then 0
         else roundOpen 13 (10 * u.bp b Param.srvSledKp * s.bays[b].srv.lensOffset / 64))))
  ∧ ∀ (s : State) (b : BayNo) (l : LoopId), s.rootRuns = true → s.sys.mode ≠ .off →
    (s.bays[b].srv.loop l).closed = true → (s.bays[b].srv.loop l).consecutive < 2 →
    Completes (.servoDeadlineMiss b l) s (fun t =>
      (t.bays[b].srv.loop l).overruns = satInc 0xFFFFFFFF (s.bays[b].srv.loop l).overruns
      ∧ (t.bays[b].srv.loop l).consecutive = (s.bays[b].srv.loop l).consecutive + 1
      ∧ (t.bays[b].srv.loop l).drive = (s.bays[b].srv.loop l).drive ∧ raisedSince s t (.bay b .servoHold) = true)

/-- The ways out of a Lull complete (R193, R194): the hold window of focus or tracking ends in a retract along the ramp to park; a loop whose
cause is gone resumes closed; a focus Lull starts a fresh sweep and a tracking Lull closes again at a crossing. -/
def Obligations.LullEndsComplete : Prop :=
  (∀ (s : State) (b : BayNo) (l : LoopId), l = .focus ∨ l = .tracking → (s.bays[b].srv.loop l).lull.isSome = true →
    Completes (.holdWindowExpiry b l) s (fun t => t.bays[b].srv.parked = true
      ∧ t.bays[b].srv.focus.closed = false ∧ t.bays[b].srv.acq = none ∧ t.bays[b].srv.move = none))
  ∧ (∀ (s : State) (b : BayNo) (l : LoopId), s.sys.mode ≠ .off → s.orders b = true →
    (s.bays[b].srv.loop l).lull.isSome = true → s.causeHolds b l = false →
    (l = .tracking → s.bays[b].srv.focus.closed = true) →
    Completes (.lullResume b l) s (fun t => (t.bays[b].srv.loop l).closed = true ∧ (t.bays[b].srv.loop l).lull = none
      ∧ raisedSince s t (.bay b .lullReleased) = true))
  ∧ (∀ (s : State) (b : BayNo), s.orders b = true → s.bays[b].srv.focus.lull.isSome = true →
    Completes (.lullReacquire b .focus) s (fun t => t.bays[b].srv.parked = false
      ∧ t.bays[b].srv.move = some (.begin (.sweep false)) ∧ ∃ a, t.bays[b].srv.acq = some a ∧ a.fromLull = true))
  ∧ ∀ (s : State) (b : BayNo), s.orders b = true → s.bays[b].srv.tracking.lull.isSome = true →
    s.bays[b].srv.focus.closed = true →
    Completes (.lullReacquire b .tracking) s (fun t => t.bays[b].srv.trackAcq = 2 ∧ t.bays[b].srv.tracking.lull = none
      ∧ t.bays[b].srv.reacquire = true)

/-- Acquisition completes (R40, R182, R183): focus starts its first sweep from park, the second follows a sweep that did not
close, tracking counts crossings, the revolution gives the runout table and S_t, a close that does not come ends with
EV_TRACK_ACQ_FAIL, and a turn whose word decodes gives layer, turn and zone. -/
def Obligations.AcquisitionCompletes : Prop :=
  (∀ (s : State) (b : BayNo) (layer : LayerNo), s.orders b = true → s.bays[b].seq.st = .focusAcq →
    s.bays[b].srv.parked = true → s.bays[b].srv.acq = none →
    Completes (.focusAcquisition b layer) s (fun t => t.bays[b].srv.parked = false
      ∧ t.bays[b].srv.move = some (.begin (.sweep false))
      ∧ ∃ a, t.bays[b].srv.acq = some a ∧ a.layer = layer ∧ a.p = 0 ∧ a.firstCount = none))
  ∧ (∀ (s : State) (b : BayNo) (a : FocusAcq), s.bays[b].srv.acq = some a → s.bays[b].srv.focus.closed = false →
    a.firstCount = none → (1000 * s.bn b Param.srvFocSweepMax : Nat) ≤ a.p →
    Completes (.focusSweepEnd b) s (fun t => t.bays[b].srv.move = some (.begin (.sweep true)) ∧ t.bays[b].srv.ramp.isSome = true
      ∧ ∃ a', t.bays[b].srv.acq = some a' ∧ a'.layer = a.layer ∧ a'.p = 0 ∧ a'.count = 0 ∧ a'.firstCount = some a.count))
  ∧ (∀ (s : State) (b : BayNo), s.orders b = true → s.bays[b].seq.st = .trackAcq → s.bays[b].srv.trackAcq = 0 →
    s.bays[b].srv.focus.locked = true → s.bays[b].srv.tracking.closed = false →
    Completes (.trackAcquisition b) s (fun t => t.bays[b].srv.trackAcq = 1 ∧ t.bays[b].srv.tracking.base = 0
      ∧ t.bays[b].srv.crossings = Vector.replicate 64 0))
  ∧ (∀ (s : State) (b : BayNo),
    let v := s.bays[b].srv
    let d := displacements v.crossings
    v.trackAcq = 1 → (d.foldl max 0 - d.foldl min 0) * 120 ≤ s.bp b Param.srvRunoutMax * 1000 →
    Completes (.runoutRevolution b) s (fun t => t.bays[b].srv.trackAcq = 2 ∧ t.bays[b].srv.slopeT = slopeOf v.tenMax v.tenMin
      ∧ t.bays[b].srv.runout = some (runoutTable v.crossings (s.bp b Param.srvTrkKa) |s.bays[b].spn.speedMeas|)))
  ∧ (∀ (s : State) (b : BayNo), s.sys.mode ≠ .off → s.bays[b].srv.trackAcq = 2 →
    Completes (.trackAcqTimeout b .noClose) s (fun t => t.bays[b].srv.trackAcq = 0 ∧ t.bays[b].srv.tracking.closed = false
      ∧ raisedSince s t (.bay b .trackAcqFail) = true))
  ∧ ∀ (s : State) (b : BayNo) (us : TurnUnits) (i : WobbleInfo), s.bays[b].srv.tracking.locked = true →
    s.bays[b].srv.focus.locked = true → (turnWord us).bind wobbleWord = some i →
    Completes (.wobbleAddressWord b us) s (fun t => t.bays[b].srv.place = some (i.layer, i.turn, i.zone))

/-- Jumps, seeks and offsets complete (R180, R184 to R187): each starts its move when none is in progress, a late stride jump and
a layer jump whose window passes end with their events, and a characterisation run makes the tables valid. -/
def Obligations.ServoMovesComplete : Prop :=
  (∀ (s : State) (b : BayNo) (l : LayerNo) (n z : Nat), s.orders b = true → s.bays[b].seq.st = .reading →
    s.bays[b].srv.place = some (l, n, z) → s.offsetsKnown b z l = true → s.bays[b].srv.skips = false →
    s.bays[b].srv.tracking.locked = true →
    Completes (.strideJump b) s (fun t => t.bays[b].srv.move = some (.begin .stride)))
  ∧ (∀ (s : State) (b : BayNo) (m : Move), s.sys.mode ≠ .off → s.bays[b].srv.move = some m → m.kind = .stride →
    s.bays[b].srv.queued = [] →
    Completes (.strideJumpLate b) s (fun t => t.bays[b].srv.move = none ∧ raisedSince s t (.bay b .strideJumpFault) = true))
  ∧ (∀ (s : State) (b : BayNo) (up : Bool), s.orders b = true → s.bays[b].canMove = true → s.bays[b].srv.trackAcq = 0 →
    s.bays[b].srv.move = none → (∀ l, s.bays[b].srv.layerNow = some l → if up then l.val < 15 else 0 < l.val) →
    Completes (.layerJump b up) s (fun t => t.bays[b].srv.move = some (.begin (.layer up)) ∧ t.bays[b].seq.st = .layerJump
      ∧ t.bays[b].srv.tracking.drive = s.bays[b].srv.tracking.heldDrive))
  ∧ (∀ (s : State) (b : BayNo) (m : Move) (up : Bool), s.sys.mode ≠ .off → s.bays[b].srv.move = some m → m.kind = .layer up →
    s.bays[b].srv.focus.closed = false → s.bays[b].srv.focus.lull = none → s.bays[b].srv.queued = [] →
    Completes (.layerJumpWindowEnd b) s (fun t => t.bays[b].srv.move = none ∧ t.bays[b].srv.focus.closed = true
      ∧ raisedSince s t (.bay b .layerJumpFail) = true))
  ∧ (∀ (s : State) (b : BayNo) (n : Int), s.orders b = true → s.bays[b].canMove = true → s.bays[b].srv.trackAcq = 0 →
    s.bays[b].srv.move = none → s.bays[b].srv.hold = none → n ≠ 0 → |n| ≤ s.bp b Param.srvJumpMax →
    Completes (.lensSeek b n) s (fun t => t.bays[b].srv.move = some (.begin (.lens n))))
  ∧ (∀ (s : State) (b : BayNo) (turn : Nat), s.orders b = true → s.bays[b].canMove = true → s.bays[b].srv.trackAcq = 0 →
    s.bays[b].srv.move = none → s.bays[b].sld.homed = true → turn ≤ 143754 →
    Completes (.sledSeek b turn) s (fun t => t.bays[b].srv.move = some (.begin (.sledSeek turn))
      ∧ t.bays[b].srv.tracking.closed = false ∧ t.bays[b].seq.st = .seeking))
  ∧ (∀ (s : State) (b : BayNo) (f c : Int), s.orders b = true → s.bays[b].srv.focus.closed = true →
    s.bays[b].wp.run = none → s.bays[b].seq.st ≠ .writing → s.bays[b].srv.move = none →
    Completes (.offsetApply b f c) s (fun t => t.bays[b].srv.move = some (.begin (.offset f c))))
  ∧ ∀ (s : State) (b : BayNo) (r : CharRun), s.sys.mode.serving = true → s.orders b = true → s.bays[b].seq.st = .ready →
    s.bays[b].busy = false → s.bays[b].srv.tablesValid = false → s.bays[b].canMove = true → s.bays[b].srv.move = none →
    Completes (.characterisationRun b (some r)) s (fun t => t.bays[b].srv.tables = learnTables r ∧ t.bays[b].srv.tablesValid = true
      ∧ t.bays[b].srv.tablesTemp = s.bays[b].afe.headTemp ∧ raisedSince s t (.bay b .ffTables) = true)

/-! ### The spindle and sled drives (08_spindle_and_sled_drives.md) -/

/-- The spindle's commands complete (R207 to R223): an edge moves the count it belongs to, a sinusoidal PWM period gives the phase
voltages, the pulses and, where they can be sensed, the phase currents, a Drogue period its on-fraction, the speed loop latches the
clamped reference of its law, a start order opens the measure
window, a window at rest decides for six-step, an index with agreeing edges makes the offset valid, an encoder loss goes to a
converged observer, an overspeed is noted, timeouts end with EV_SPINUP_FAIL, and a stop order stops. -/
def Obligations.SpindleCompletes : Prop :=
  (∀ (s : State) (b : BayNo) (up : Bool) (n : Nat),
    Completes (.encoderEdge (.spindle b) (if up then .up else .down) n) s (fun t =>
      t.bays[b].spn.count = if up then s.bays[b].spn.count + 1 else s.bays[b].spn.count - 1))
  ∧ (∀ (s : State) (b : BayNo) (up : Bool) (n : Nat),
    Completes (.encoderEdge (.sled b) (if up then .up else .down) n) s (fun t =>
      t.bays[b].sld.encoder = if up then s.bays[b].sld.encoder + 1 else s.bays[b].sld.encoder - 1))
  ∧ (∀ (s : State) (a : AxisNo) (up : Bool) (n : Nat),
    Completes (.encoderEdge (.axis a) (if up then .up else .down) n) s (fun t =>
      t.hnd.axes[a].encoder = if up then s.hnd.axes[a].encoder + 1 else s.hnd.axes[a].encoder - 1))
  ∧ (∀ (s : State) (b : BayNo) (u : BitVec 3) (n : Nat), (hallSector u).isSome = true →
    Completes (.encoderEdge (.spindle b) (.halls u) n) s (fun t => t.bays[b].spn = s.bays[b].spn.hallEdge u n))
  ∧ (∀ (s : State) (b : BayNo) (o : PwmObs),
    let u := (s.takePeriod [Param.spnCurBw] b).onSpn b Spindle.levelPeriod
    let volts := phaseVolts (u.bays[b].spn.theta (u.bp b Param.spnPolePairs)) (u.currentLoop b).1.1 (u.currentLoop b).1.2
    let ticks := volts.map (onTick (u.bn b Param.spnVbus))
    let p := shiftPulses ticks (10 * u.bp b Param.spnShuntTmin)
    s.bays[b].spn.level = .sinEncoder → s.bays[b].spn.disagree < 7 →
    Completes (.pwmPeriod b o) s (fun t => t.bays[b].spn.volts = volts ∧ t.bays[b].spn.pulses = p.1
      ∧ t.bays[b].spn.lows = lowSides p.1 (u.bp b Param.spnDeadtime)
      ∧ t.bays[b].spn.currents = (if p.2 then phaseCurrents ticks (u.shunt b o.shunt1) (u.shunt b o.shunt2)
          else s.bays[b].spn.currents)))
  ∧ (∀ (s : State) (b : BayNo) (o : PwmObs), s.bays[b].spn.level = .drogue →
    Completes (.pwmPeriod b o) s (fun t => t.bays[b].spn
      = s.bays[b].spn.drogueStep (s.shunt b o.drogueShunt) (s.bp b Param.spnDrogueI * 1000)))
  ∧ (∀ (s : State) (b : BayNo),
    let u := s.takePeriod [Param.spnSpdKp, Param.spnSpdKi] b
    let meas := s.bays[b].spn.measuredSpeed (u.bn b Param.spnPolePairs)
    let ref := rampTo s.bays[b].spn.speedRef (u.bp b Param.spnSpeed * 100) ((u.bp b Param.spnAccel : Rat) / 20)
    let law := u.speedLaw b ref meas s.bays[b].spn.spdInteg
    s.bays[b].spn.level = .sinEncoder → s.bays[b].spn.stopping = false →
    Completes (.speedLoopPeriod b) s (fun t => t.bays[b].spn.iqRef = clampTo (u.bp b Param.spnIMax) (roundOpen 15 law.1)
      ∧ t.bays[b].spn.speedRef = ref ∧ t.bays[b].spn.speedMeas = meas ∧ t.bays[b].spn.spdInteg = law.2))
  ∧ (∀ (s : State) (b : BayNo), s.orders b = true → s.bays[b].spn.barred = false →
    (s.bays[b].seq.st = .clamped ∨ s.bays[b].seq.st = .parked) →
    [Mode.off, .fill, .boot, .vent, .ripcord].contains s.sys.mode = false →
    (s.bays[b].spn.level = .off ∨ s.bays[b].spn.level = .coast) →
    Completes (.spindleStartOrder b) s (fun t => t.bays[b].seq.st = .spinup ∧ t.bays[b].spn.level = .measure
      ∧ t.bays[b].spn.starting = true ∧ t.bays[b].spn.windowCount = s.bays[b].spn.count))
  ∧ (∀ (s : State) (b : BayNo), s.sys.mode ≠ .off → s.bays[b].spn.level = .measure → s.bays[b].spn.encoderLost = false →
    s.bays[b].spn.stopping = false → edgeSpeed s.bays[b].spn.edges 4096 < 3000 →
    Completes (.startDecision b) s (fun t => t.bays[b].spn.level = .sixStep ∧ t.bays[b].spn.speedRef = 0
      ∧ raisedSince s t (.bay b .spindleStart) = true))
  ∧ (∀ (s : State) (b : BayNo),
    let xs := s.bays[b].spn.uEdges.map (impliedOffset (s.bp b Param.spnPolePairs) s.bays[b].spn.count)
    s.bays[b].spn.encoderLost = false → 2 ≤ xs.length → offsetsAgree xs = true →
    Completes (.encoderIndex b) s (fun t => t.bays[b].spn.index = some s.bays[b].spn.count
      ∧ t.bays[b].spn.elecOffset = BitVec.ofInt 16 (circularMean xs) ∧ t.bays[b].spn.offsetValid = true))
  ∧ (∀ (s : State) (b : BayNo) (c : EncLoss), s.sys.mode ≠ .off → s.bays[b].spn.level = .sinEncoder →
    s.bays[b].spn.loss (s.bn b Param.spnPolePairs) c = true → s.bays[b].spn.encoderLost = false → s.bays[b].spn.obsConverged = true →
    Completes (.encoderLoss b c) s (fun t => t.bays[b].spn.level = .sinObserver ∧ t.bays[b].spn.encoderLost = true
      ∧ t.bays[b].spn.offsetValid = false ∧ raisedSince s t (.bay b .spindleSensor) = true))
  ∧ (∀ (s : State) (b : BayNo), s.sys.mode ≠ .off →
    Completes (.encoderOverspeed (.sled b)) s (fun t => t.bays[b].sld.overspeed = true
      ∧ raisedSince s t (.bay b .encoderOverspeed) = true))
  ∧ (∀ (s : State) (a : AxisNo), s.sys.mode ≠ .off →
    Completes (.encoderOverspeed (.axis a)) s (fun t => t.hnd.axes[a].overspeed = true
      ∧ raisedSince s t (.dev .handlerEncOverspeed) = true))
  ∧ (∀ (s : State) (b : BayNo), s.sys.mode ≠ .off → s.bays[b].spn.level = .drogue →
    Completes (.drogueTimeout b) s (fun t => t.bays[b].spn.level = .off ∧ raisedSince s t (.bay b .spinupFail) = true))
  ∧ (∀ (s : State) (b : BayNo), s.sys.mode ≠ .off → s.bays[b].spn.starting = true → s.bays[b].spn.stopping = false →
    s.bays[b].spn.level ≠ .coast →
    Completes (.spinupTimeout b) s (fun t => t.bays[b].spn.starting = false
      ∧ raisedSince s t (.bay b .spinupFail) = true))
  ∧ ∀ (s : State) (b : BayNo), s.orders b = true →
    [BaySt.empty, .loading, .clamped, .spinup, .spindown, .unloading, .parked, .faulted].contains s.bays[b].seq.st = true →
    Completes (.spinDownOrder b) s (fun t => t.bays[b].spn = s.bays[b].spn.stop)

/-- The sled's commands complete (R225 to R231): a position move and a re-target within the limits, a home move, a velocity from
standstill, one period of a move that does not stall, the mark that ends a home move, and the standstill mode. -/
def Obligations.SledCompletes : Prop :=
  (∀ (s : State) (b : BayNo) (x : Int), s.sledOrders b = true → s.bays[b].sld.homed = true →
    s.bays[b].sld.mode = .standstill → s.sledWithin b x = true →
    Completes (.sledPositionMove b x) s (fun t => t.bays[b].sld = s.bays[b].sld.start (s.sledProfile b) x))
  ∧ (∀ (s : State) (b : BayNo) (x : Int), s.sledOrders b = true → s.bays[b].sld.homed = true →
    (s.bays[b].sld.mode = .position ∨ s.bays[b].sld.mode = .reversal) → s.sledWithin b x = true →
    Completes (.sledRetarget b x) s (fun t => t.bays[b].sld = s.bays[b].sld.retarget x))
  ∧ (∀ (s : State) (b : BayNo), s.sledOrders b = true → s.bays[b].sld.mode = .standstill →
    Completes (.sledHomeMove b) s (fun t => t.bays[b].sld.mode = .home
      ∧ t.bays[b].sld.target = s.bays[b].sld.counts - (s.bn b Param.sldLimitOut + 4000 : Nat)))
  ∧ (∀ (s : State) (b : BayNo) (v : Int), s.sledOrders b = true → s.bays[b].sld.homed = true →
    s.bays[b].sld.mode = .standstill → v ≠ 0 →
    Completes (.sledVelocityCommand b v) s (fun t => t.bays[b].sld.mode = .velocity ∧ t.bays[b].sld.velCmd = 10 * v))
  ∧ (∀ (s : State) (b : BayNo), s.bays[b].sld.mode = .home → s.bays[b].seq.mounting = false →
    Completes (.sledPwmPeriod b true) s (fun t => t.bays[b].sld = s.bays[b].sld.atMark))
  ∧ (∀ (s : State) (b : BayNo) (mark : Bool),
    let u := (s.onSld b (fun a => a.period (decide (s.sys.mode = .ripcord)))).driveSled b
    let y := u.bays[b].sld
    s.bays[b].sld.moving = true → s.bays[b].sld.mode ≠ .home → |y.deviation| ≤ s.bp b Param.sldStallWin → y.overspeed = false →
    Completes (.sledPwmPeriod b mark) s (fun t => t.bays[b].sld = y))
  ∧ ∀ (s : State) (b : BayNo), s.bays[b].sld.mode = .standstill → s.bays[b].sld.standstill = 3 →
    Completes (.sledStandstill b) s (fun t => t.bays[b].sld.standstill = s.bn b Param.sldStandstill)

/-! ### The bay sequencer (09_bay_operation.md) -/

/-- A disc's way through a bay completes (R237 to R240): a clamp that closes makes the bay CLAMPED, one that does not returns the
disc; a mount read whose 8 turns identify an SL16 disc (R41) finds the unused positions by its probes and reads the positions of a
largest set before them, one that does not returns the disc, and one that has read a valid set in force (R59) makes the bay READY
and its disc mounted with it; an idle bay spins down, a stopped spindle leads to PARKED, and an empty tray to EMPTY. That the mount
reads a largest set's 46 positions at a time is the model's choice (log entry 105). -/
def Obligations.BayStatesComplete : Prop :=
  (∀ (s : State) (b : BayNo), s.bays[b].seq.st = .loading → s.bays[b].seq.tray = true → s.bays[b].seq.unmounting = none →
    Completes (.clampConfirm b) s (fun t => t.bays[b].seq.st = .clamped ∧ t.bays[b].seq.clamp = true
      ∧ t.bays[b].seq.disc.isSome = true))
  ∧ (∀ (s : State) (b : BayNo), s.sys.mode ≠ .off → s.bays[b].seq.st = .loading → s.bays[b].seq.tray = true →
    s.bays[b].seq.clamp = false →
    Completes (.clampTimeout b) s (fun t => t.bays[b].seq.st = .unloading ∧ raisedSince s t (.bay b .mountFail) = true))
  ∧ (∀ (s : State) (b : BayNo) (d : Disc) (probes1 probes2 : List Bool), s.bays[b].seq.mounting = true →
    s.bays[b].seq.disc = some d → d.mounted = false → s.bays[b].seq.st = .reading → s.bays[b].srv.tracking.locked = true →
    s.bays[b].srv.trackAcq = 0 → s.bays[b].srv.move = none → s.bays[b].seq.scan = none → 8 ≤ s.bays[b].srv.ids.length →
    s.bays[b].srv.isSl16 = true → firstFree 14 0 mgmtPositions probes1 ≠ 0 →
    Completes (.mountRead b probes1 probes2) s (fun t => t.bays[b].seq.mounting = true ∧ ∃ m, t.bays[b].seq.scan = some m
      ∧ m.used1 = firstFree 14 0 mgmtPositions probes1 ∧ m.used2 = firstFree 14 0 mgmtPositions probes2
      ∧ m.low1 = m.used1 - 46 ∧ m.low2 = m.used2 - 46
      ∧ ∀ i, m.low1 ≤ i → i < m.used1 → (mgmtAddr false i, mgmtAddr false i) ∈ t.bays[b].seq.demand))
  ∧ (∀ (s : State) (b : BayNo) (d : Disc) (probes1 probes2 : List Bool), s.sys.mode ≠ .off → s.bays[b].seq.mounting = true →
    s.bays[b].seq.disc = some d → d.mounted = false → s.bays[b].seq.st = .reading → s.bays[b].srv.tracking.locked = true →
    s.bays[b].srv.trackAcq = 0 → s.bays[b].srv.move = none → s.bays[b].seq.scan = none → 8 ≤ s.bays[b].srv.ids.length →
    s.bays[b].srv.isSl16 = false →
    Completes (.mountRead b probes1 probes2) s (fun t => t.bays[b].seq.st = .spindown ∧ t.bays[b].seq.after = .unload
      ∧ raisedSince s t (.bay b .mountFail) = true))
  ∧ (∀ (s : State) (b : BayNo) (d : Disc) (m : MgmtScan) (c : MgmtSet) (probes1 probes2 : List Bool),
    s.bays[b].seq.mounting = true → s.bays[b].seq.disc = some d → d.mounted = false → s.bays[b].seq.st = .reading →
    s.bays[b].srv.tracking.locked = true → s.bays[b].srv.trackAcq = 0 → s.bays[b].srv.move = none →
    s.bays[b].seq.scan = some m → s.bays[b].scanning = false → m.lacks false = false → m.lacks true = false →
    currentSet (m.copy false) (m.copy true) = some c → c.vid = d.vid →
    Completes (.mountRead b probes1 probes2) s (fun t => t.bays[b].seq.st = .ready ∧ t.bays[b].seq.mounting = false
      ∧ ∃ e, t.bays[b].seq.disc = some e ∧ e.mounted = true ∧ e.mgmt = some c ∧ e.used1 = m.used1 ∧ e.used2 = m.used2
        ∧ (c.closed = true → e.readOnly = true)))
  ∧ (∀ (s : State) (b : BayNo), s.bays[b].seq.st = .ready → s.bays[b].busy = false → s.bayServes b = false →
    s.bn b Param.bayIdleSpindown ≠ 0 →
    Completes (.idleSpindown b) s (fun t => t.bays[b].seq.st = .spindown ∧ t.bays[b].seq.after = .park))
  ∧ (∀ (s : State) (b : BayNo), s.bays[b].seq.st = .spindown → s.bays[b].spn.level = .off → s.bays[b].seq.after = .park →
    s.bays[b].mounted = true →
    Completes (.spindownComplete b) s (fun t => t.bays[b].seq.st = .parked))
  ∧ ∀ (s : State) (b : BayNo), s.bays[b].seq.st = .unloading → s.bays[b].seq.faultAfter = none →
    Completes (.trayEmpty b) s (fun t => t.bays[b].seq.st = .empty ∧ t.bays[b].seq.disc = none
      ∧ t.bays[b].seq.tray = false ∧ t.bays[b].seq.clamp = false)

/-- The choice of work and what faults a bay complete (R242 to R249, R485): demand that a beam covers is read, a yield ends the run
at its turn, a guarantee puts the next run first, a slow visit begins at 2,700 rpm, a fault takes the bay to FAULTED, the coast
wait ends, a disc that stopped in RIPCORD is PARKED, and a disc clamped for a waiting mount is mounted. -/
def Obligations.BayWorkCompletes : Prop :=
  (∀ (s : State) (b : BayNo) (a : ClusterAddr), s.orders b = true → s.sys.mode.serving = true → s.bays[b].seq.st = .ready →
    s.bays[b].mounted = true → s.bays[b].srv.move = none → s.bays[b].srv.acq = none → s.bays[b].srv.trackAcq = 0 →
    s.bays[b].wp.run = none → s.bays[b].srv.focus.lull = none → s.bays[b].srv.tracking.lull = none →
    s.bays[b].srv.tilt.lull = none → s.bays[b].seq.mismatches ≠ 3 → s.bays[b].seq.checkDue = false →
    s.bays[b].srv.tracking.closed = true → s.bays[b].srv.tracking.locked = true → s.bays[b].seq.visiting = false →
    s.bays[b].seq.destageFirst = false → s.bays[b].demandTarget = some a → s.bays[b].covers a = true →
    Completes (.workChoice b) s (fun t => t.bays[b].seq.st = .reading))
  ∧ (∀ (s : State) (b : BayNo) (r : WriteRun), s.bays[b].wp.run = some r → s.bays[b].seq.demand ≠ [] → r.guaranteed = false →
    Completes (.writeYield b) s (fun t => t.bays[b].wp.run = some { r with endAtTurn := true }))
  ∧ (∀ (s : State) (b : BayNo), s.bays[b].destageWork = true → s.bays[b].wp.run = none →
    Completes (.destageGuarantee b) s (fun t => t.bays[b].seq.destageFirst = true))
  ∧ (∀ (s : State) (b : BayNo), s.orders b = true → s.sys.mode.serving = true → s.bays[b].seq.st = .ready →
    s.bays[b].mounted = true → s.bays[b].seq.slow ≠ [] → s.bays[b].seq.visiting = false → s.bays[b].wp.run = none →
    Completes (.slowVisit b) s (fun t => t.bays[b].seq.visiting = true ∧ t.bp b Param.spnSpeed = 2700
      ∧ raisedSince s t (.bay b .slowVisit) = true))
  ∧ (∀ (s : State) (b : BayNo) (c : FaultCause), [Mode.off, .fill, .boot].contains s.sys.mode = false →
    s.bays[b].seq.st ≠ .faulted →
    Completes (.bayFault b c) s (fun t => t.bays[b].seq.st = .faulted ∧ t.bays[b].seq.cause = some c
      ∧ t.bays[b].wp.run = none ∧ t.bays[b].srv.parked = true ∧ raisedSince s t (.bay b .bayFaulted) = true))
  ∧ (∀ (s : State) (b : BayNo), s.bays[b].seq.st = .faulted → s.bays[b].spn.level = .coast →
    Completes (.coastWaitExpiry b) s (fun t => t.bays[b].seq.coastDone = true))
  ∧ (∀ (s : State) (b : BayNo), s.sys.mode = .ripcord → s.bays[b].spn.level = .off → s.bays[b].seq.clamp = true →
    s.bays[b].mounted = true →
    Completes (.ripcordDiscStopped b) s (fun t => t.bays[b].seq.st = .parked))
  ∧ ∀ (s : State) (b : BayNo) (v : Volume), s.sys.mode.serving = true → s.mountWanted v.vid = true →
    s.vol? v.vid = some v → v.ownPeer = false → s.discIn v.vid = some b → s.bays[b].seq.st = .clamped →
    Completes (.remount v.vid) s (fun t => t.bays[b].seq.mounting = true)

/-! ### The staging tier (12_staging_flash.md) -/

/-- The programs of the staging tier complete (R330, R337, R340, R342): the oldest dirty cluster, a cluster to relocate and the
journal buffer are programmed, a checkpoint makes the map durable, an erase is journalled, and the clusters of a retired LUN are
listed to relocate. -/
def Obligations.StagingProgramsComplete : Prop :=
  (∀ (s u : State) (d : DirtyCluster) (ds : List DirtyCluster) (loc : BitVec 34) (ok again : Bool), s.stg.dirty = d :: ds →
    s.program (if s.sys.mode = .vent then 2 else 0) (s.dirtyWords d (if s.sys.mode = .vent then 2 else 0)) ok again
      = some (loc, u) →
    Completes (.clusterProgram ok again) s (fun t => ∃ e, t.stg.entry? d.vid d.ucl = some e ∧ e.loc = loc))
  ∧ (∀ (s u : State) (v : VolId) (n : Nat) (rest : List (VolId × Nat)) (e : MapEntry) (loc : BitVec 34) (again : Bool),
    s.sys.mode ≠ .vent → s.sys.mode ≠ .sanitize → s.stg.relocate = (v, n) :: rest → s.stg.entry? v n = some e →
    (s.onStg (fun g => { g with relocate := rest })).program 1 (({ e with progSeq := s.sys.progSeq + 1 } : MapEntry).words 1) true
      again = some (loc, u) →
    Completes (.gcCopy true again) s (fun t => t.stg.relocate = rest
      ∧ ∃ x, t.stg.entry? v n = some x ∧ x.loc = loc ∧ x.dataSeq = e.dataSeq))
  ∧ (∀ (s u : State) (ok again : Bool), s.stg.journal ≠ [] → s.programJournal ok again = some u →
    Completes (.journalPageProgram ok again) s (fun t => t.stg.journal = [] ∧ t.stg.nand = u.stg.nand))
  ∧ (∀ s : State, s.sys.mode ≠ .vent → 2 ≤ s.sys.mode.code →
    Completes .checkpoint s (fun t => t.stg.journal = [] ∧ t.stg.nand.entries = s.stg.map
      ∧ raisedSince s t (.dev .checkpoint) = true))
  ∧ (∀ (s : State) (l : Fin 16) (n : Nat) (c : ChanNo) (again : Bool), s.stg.mayErase l.val n = true →
    Completes (.blockErase l n c true again) s (fun t => .erased l.val n ∈ t.stg.journal))
  ∧ ∀ (s : State) (c : ChanNo) (l : Fin 16), s.stg.nand.retiredLuns.contains (c, l) = true →
    Completes (.lunRetire c l) s (fun t => ∀ e ∈ s.stg.map, locChan e.loc = c → locLun e.loc = l →
      (e.vid, e.ucl) ∈ t.stg.relocate)

/-- The other NAND commands complete (R320, R332, R334, R352): a read that decodes leaves the map as it is, one that its repeat
mends is transient, one that another class mends is a retry, a stripe rebuild lists its cluster to be relocated, a sector that none
of these gives is lost, its mask bit cleared; a timeout that its repeat mends is transient, the channels' temperatures are taken,
and ZQ calibration goes to every channel. -/
def Obligations.NandReadsComplete : Prop :=
  (∀ (s : State) (loc : BitVec 34) (k : Fin 16) (o : NandReadObs), (nandDecoded o.first).isSome = true →
    Completes (.nandCodewordRead loc k o) s (fun t => t.stg.map = s.stg.map ∧ t.stg.lastOp[locChan loc] = (0, loc.toNat)
      ∧ t.ev = s.ev))
  ∧ (∀ (s : State) (loc : BitVec 34) (k : Fin 16) (o : NandReadObs), s.sys.mode ≠ .off → nandDecoded o.first = none →
    (nandDecoded o.again).isSome = true →
    Completes (.nandCodewordRead loc k o) s (fun t => t.stg.map = s.stg.map
      ∧ raisedSince s t (.nand (locChan loc) .nandTransient) = true))
  ∧ (∀ (s : State) (loc : BitVec 34) (k : Fin 16) (o : NandReadObs), s.sys.mode ≠ .off → nandDecoded o.first = none →
    nandDecoded o.again = none →
    ((otherClasses (s.stg.readClass loc)).zip o.classes).any (fun x => (nandDecoded x.2).isSome) = true →
    Completes (.nandCodewordRead loc k o) s (fun t => t.stg.map = s.stg.map
      ∧ raisedSince s t (.nand (locChan loc) .nandReadRetry) = true))
  ∧ (∀ (s : State) (loc : BitVec 34) (k : Fin 16) (o : NandReadObs) (w : NandWord), s.sys.mode ≠ .off →
    nandDecoded o.first = none → nandDecoded o.again = none →
    ((otherClasses (s.stg.readClass loc)).zip o.classes).any (fun x => (nandDecoded x.2).isSome) = false →
    stripeWord o.stripe = some w →
    Completes (.nandCodewordRead loc k o) s (fun t => raisedSince s t (.nand (locChan loc) .nandStripeRebuild) = true
      ∧ ∀ e ∈ s.stg.map, e.loc = loc → (e.vid, e.ucl) ∈ t.stg.relocate))
  ∧ (∀ (s : State) (loc : BitVec 34) (k : Fin 16) (o : NandReadObs) (e : MapEntry), s.sys.mode ≠ .off →
    nandDecoded o.first = none → nandDecoded o.again = none →
    ((otherClasses (s.stg.readClass loc)).zip o.classes).any (fun x => (nandDecoded x.2).isSome) = false →
    stripeWord o.stripe = none → s.stg.map.find? (fun x => decide (x.loc = loc)) = some e →
    Completes (.nandCodewordRead loc k o) s (fun t => raisedSince s t (.nand (locChan loc) .nandUnrecovered) = true
      ∧ ∃ x, t.stg.entry? e.vid e.ucl = some x ∧ x.mask.getLsbD k.val = false ∧ x.lost.getLsbD k.val = true))
  ∧ (∀ (s : State) (c : ChanNo) (l : Fin 16) (op : NandOp), s.sys.mode ≠ .off →
    Completes (.nandOpTimeout c l op true) s (fun t => t.stg.lastOp[c] = (0xFF, l.val)
      ∧ raisedSince s t (.nand c .nandTransient) = true))
  ∧ (∀ (s : State) (ts : Vector (Option Int) 16), Completes (.retentionTick ts) s (fun t => ∀ c : ChanNo,
    t.stg.temps[c] = (ts[c]).getD (s.sys.tj - s.dp Param.stgNandTempDelta)))
  ∧ ∀ s : State, Completes .zqCalibration s (fun t => ∀ c : ChanNo, t.stg.lastOp[c] = (0xF9, 0))

/-! ### Memory, buffers and cache (13_memory_buffers_cache.md) -/

/-- DRAM and its error records complete (R362, R363, R369, R370): a clean read answers the core with the bytes of DRAM, and so does
one whose errors the code corrects, with EV_DRAM_CORRECTED; a partial write merges its bytes, the scrubber goes on, the oldest error leaves the FIFO for the log, and the counters are returned and
cleared. -/
def Obligations.DramCompletes : Prop :=
  (∀ (s : State) (addr : BitVec 40) (c : CoreNo) (o : DramObs) (w : List Nat), s.coresRun = true →
    addr.toNat < s.mem.bytes → dramDecode s.mem.x8 o.first = .clean w → w.all (· == 0) = true →
    Completes (.dramRead addr (.core c) o) s (fun t => t.mem = s.mem
      ∧ t.out = .coreRead (BitVec.ofNat 64 (memRead s.mem.cells (addr.toNat / 8 * 8) 8)) :: s.out))
  ∧ (∀ (s : State) (addr : BitVec 40) (bytes : List Byte) (r : Requester) (o : DramObs) (w : List Nat), s.coresRun = true →
    addr.toNat < s.mem.bytes → dramDecode s.mem.x8 o.first = .clean w → w.all (· == 0) = true →
    Completes (.dramPartialWrite addr bytes r o) s (fun t =>
      t.mem.cells = memWrite s.mem.cells addr.toNat (bytes.take (128 - addr.toNat % 128))))
  ∧ (∀ (s : State) (o : DramObs) (w : List Nat), s.scrubs = true → dramDecode s.mem.x8 o.first = .clean w →
    (s.mem.scrubPos.toNat + 1) * 128 < s.mem.bytes →
    Completes (.scrubRead o) s (fun t => t.mem.scrubPos = BitVec.ofNat 33 (s.mem.scrubPos.toNat + 1)
      ∧ t.mem.scrubCe = s.mem.scrubCe ∧ t.mem.scrubUe = s.mem.scrubUe))
  ∧ (∀ (s : State) (addr : BitVec 40) (c : CoreNo) (o : DramObs) (chip sym : Nat) (w : List Nat), s.coresRun = true →
    addr.toNat < s.mem.bytes → dramDecode s.mem.x8 o.first = .corrected chip sym w → w.all (· == 0) = true →
    Completes (.dramRead addr (.core c) o) s (fun t => t.mem.cells = s.mem.cells
      ∧ raisedSince s t (.dev .dramCorrected) = true
      ∧ ∃ rest, t.out = .coreRead (BitVec.ofNat 64 (memRead s.mem.cells (addr.toNat / 8 * 8) 8)) :: rest))
  ∧ (∀ s : State, s.coresRun = true →
    Completes .scrubRestart s (fun t => t.mem.scrubPos = 0 ∧ t.mem.scrubCe = 0 ∧ t.mem.scrubUe = 0))
  ∧ (∀ (s : State) (e : DramError) (rest : List DramError), s.coresRun = true → s.mem.fifo = e :: rest →
    Completes .derrPop s (fun t => t.mem.fifo = rest ∧ t.mem.log = logDramError s.mem.log e ∧ t.mem.derrPop = e.popWord
      ∧ t.out = .coreRead e.popWord :: s.out))
  ∧ (∀ s : State, s.coresRun = true →
    Completes .derrLostRead s (fun t => t.mem.derrLost = 0
      ∧ t.out = .coreRead (BitVec.ofNat 64 s.mem.derrLost.toNat) :: s.out))
  ∧ ∀ s : State, s.coresRun = true →
    Completes .cacheErrorsRead s (fun t => t.mem.cache.errCorrected = 0 ∧ t.mem.cache.errUncorrected = 0
      ∧ t.out = .coreRead (BitVec.ofNat 64
        (s.mem.cache.errUncorrected.toNat * 2 ^ 32 + s.mem.cache.errCorrected.toNat)) :: s.out)

/-- Ballast completes (R373, R374, R376): an allocation that the minima allow answers the handle of its buffer and sets its
ownership word, a free by the owner of a head takes its chain out of the pool's words, and a pass gives every buffer of the
chain to the new owner. -/
def Obligations.BallastCompletes : Prop :=
  (∀ (s : State) (o : Fin 12) (size i : Nat) (p : Fin 4) (b : BallastPool), s.coresRun = true → poolFor size = some p →
    bufsFor size ≤ 256 → s.mayTake p o (bufsFor size) = true →
    BallastPool.takeChain p.val o (bufsFor size) none s.mem.pools[p] = some (i, b) →
    Completes (.ballastAllocate o size) s (fun t => t.out = .ballast (handleOf p i) :: s.out
      ∧ t.mem.pools[p].words = b.words))
  ∧ (∀ (s : State) (o : Fin 12) (h : BitVec 32), s.coresRun = true →
    s.mem.pools[handlePool h].refusal o (handleIndex h) = none →
    Completes (.ballastFree o h) s (fun t => t.mem.pools[handlePool h].words
      = s.mem.pools[handlePool h].words.filter (fun w => !(s.mem.pools[handlePool h].chain 256 (handleIndex h)).contains w.1)))
  ∧ ∀ (s : State) (o n : Fin 12) (h : BitVec 32), s.coresRun = true →
    s.mem.pools[handlePool h].refusal o (handleIndex h) = none →
    Completes (.ballastPass o h n) s (fun t => t.mem.pools[handlePool h].words
      = s.mem.pools[handlePool h].words.map (fun w =>
          if (s.mem.pools[handlePool h].chain 256 (handleIndex h)).contains w.1 then (w.1, { w.2 with owner := n }) else w))

/-- Triplicated words complete (R368): a write outside an open set puts the value in all three banks, a set opens, a commit applies
every word staged, and a read of three banks that agree gives their value. -/
def Obligations.TriplicatedWordsComplete : Prop :=
  (∀ (s : State) (w : Fin 31) (v : BitVec 64), (∀ x ∈ s.mem.triple.staged, x.1 ≠ setOfWord w.val) →
    Completes (.tripleWrite (.word w v)) s (fun t => ∀ k : Fin 3, t.mem.triple.banks[k]
      = s.mem.triple.banks[k].set w.val v w.isLt))
  ∧ (∀ (s : State) (k : TripleSet), (∀ x ∈ s.mem.triple.staged, x.1 ≠ k) →
    Completes (.tripleWrite (.openSet k)) s (fun t => t.mem.triple.staged = s.mem.triple.staged ++ [(k, [])]))
  ∧ (∀ (s : State) (k : TripleSet) (x : TripleSet × List (Nat × BitVec 64)),
    s.mem.triple.staged.find? (fun y => decide (y.1 = k)) = some x →
    Completes (.tripleCommit k) s (fun t => t.mem.triple.banks = (s.mem.triple.putAll x.2).banks
      ∧ t.mem.triple.staged = s.mem.triple.staged.filter (fun y => !decide (y.1 = k))))
  ∧ ∀ (s : State) (w : Fin 31) (v : BitVec 64) (again : Vector (BitVec 64) 3),
    (∀ k : Fin 3, (w.val, k) ∉ s.mem.triple.faulty) →
    Completes (.tripleRead w #v[v, v, v] again) s (fun t => t.out = .coreRead v :: s.out
      ∧ ∀ k : Fin 3, t.mem.triple.banks[k] = s.mem.triple.banks[k].set w.val v w.isLt)

/-- The engine cache completes (R378 to R383): a load that hits gives the word of its line, a store with the cache disabled goes
to DRAM, a fill places its line clean, a writeback goes to DRAM, maintenance by address and of the whole cache cleans and drops,
and the cache is enabled and disabled. -/
def Obligations.CacheCompletes : Prop :=
  (∀ (s : State) (c : CoreNo) (addr : BitVec 40) (w : Nat) (x : CacheLine), s.coresRun = true → addr.toNat < s.mem.bytes →
    s.mem.cache.enabled = true → s.mem.cache.way? (BitVec.ofNat 34 (addr.toNat / 64)) = some w →
    lookupKey s.mem.cache.lines (lineSet (BitVec.ofNat 34 (addr.toNat / 64)) * 16 + w) = some x →
    Completes (.cacheAccess c addr .load) s (fun t => t.mem = s.mem ∧ t.out = .coreRead (lineWord x.data addr) :: s.out))
  ∧ (∀ (s : State) (c : CoreNo) (addr : BitVec 40) (v : BitVec 64), s.coresRun = true → addr.toNat < s.mem.bytes →
    s.mem.cache.enabled = false →
    Completes (.cacheAccess c addr (.store v)) s (fun t => t.mem.cache = s.mem.cache
      ∧ t.mem.cells = memWrite s.mem.cells (addr.toNat / 8 * 8) (leBytes 8 v.toNat)))
  ∧ (∀ (s : State) (l : BitVec 34) (w : Fin 16) (c : CoreNo), s.mem.cache.fills = [(l, w, c)] → s.mem.cache.leaving l = false →
    s.mem.cache.waiting = [] → s.mem.cache.maintWait = none →
    Completes (.cacheFillDone l) s (fun t => t.mem.cache.fills = []
      ∧ lookupKey t.mem.cache.lines (lineSet l * 16 + w.val) = some { tag := lineTag l, dirty := false, data := s.mem.line l }))
  ∧ (∀ (s : State) (l : BitVec 34) (d : BitVec 512),
    s.mem.cache.evicted.find? (fun e => decide (e.1 = l)) = some (l, d) → s.mem.cache.maintWait = none →
    Completes (.cacheWritebackAccept l) s (fun t => t.mem.cells = (s.mem.putLine l d).cells
      ∧ t.mem.cache.evicted = s.mem.cache.evicted.eraseP (fun e => decide (e.1 = l))))
  ∧ (∀ s : State, s.coresRun = true → s.mem.cache.busy = false → s.mem.cache.filling s.mem.cache.maintLine = false →
    s.mem.cache.leaving s.mem.cache.maintLine = false →
    Completes .cacheInvalidateLine s (fun t => t.mem = s.mem.dropLine s.mem.cache.maintLine)
      ∧ Completes .cacheCleanLine s (fun t => t.mem = s.mem.cleanLine s.mem.cache.maintLine)
      ∧ Completes .cacheCleanInvalidateLine s (fun t =>
        t.mem = (s.mem.cleanLine s.mem.cache.maintLine).dropLine s.mem.cache.maintLine))
  ∧ (∀ s : State, s.coresRun = true → s.mem.cache.busy = false →
    Completes .cacheInvalidateAll s (fun t => t.mem.cache.lines = [] ∧ t.mem.cache.side = [] ∧ t.mem.cells = s.mem.cells)
      ∧ Completes .cacheCleanAll s (fun t => t.mem = s.mem.cleanAll)
      ∧ Completes .cacheCleanInvalidateAll s (fun t => t.mem.cache.lines = [] ∧ t.mem.cells = s.mem.cleanAll.cells))
  ∧ ∀ s : State, s.coresRun = true →
    Completes .cacheEnable s (fun t => t.mem.cache.enabled = true ∧ t.mem.cache.lines = s.mem.cache.lines)
      ∧ Completes .cacheDisable s (fun t => t.mem.cache.enabled = false ∧ t.mem.cache.lines = s.mem.cache.lines)

/-! ### Power, clocks, resets and boot (16_power_clocks_reset_boot.md), and the board (18_electrical_and_package.md) -/

/-- Resets and boot complete (R343, R344, R360, R366, R434, R441, R442): power-on reset clears everything but what the boot flash
and NAND keep, the release of PORST_N enters FILL, a filled DRAM enters BOOT, an accepted slot boots, a warm flush and a
staging recovery follow, and a warm reset by the field, by the hold of a Ripcord or by a late activation enters BOOT with DRAM
kept. -/
def Obligations.BootCompletes : Prop :=
  (∀ (s : State) (c : PorCause), Completes (.powerOnReset c) s (fun t => t.sys.mode = .off ∧ t.cmds = [] ∧ t.flash = s.flash
    ∧ t.stg.nand = s.stg.nand ∧ t.pending = s.pending))
  ∧ (∀ (s : State) (x : BitVec 2), s.sys.mode = .off →
    Completes (.porstNRelease x) s (fun t => t.sys.mode = .fill ∧ t.sys.straps = x ∧ raisedSince s t (.dev .powerOn) = true))
  ∧ (∀ (s : State) (d : DramFound), s.sys.mode = .fill → s.sys.parking = false → s.sys.parked = false →
    s.sys.resetWaits = false → dramSupported d = true → 16 ≤ dramGib d → dramGib d ≤ 128 →
    Completes (.fillDone d) s (fun t => t.sys.mode = .boot ∧ t.mem.gib = dramGib d ∧ t.mem.x8 = d.x8 ∧ t.mem.cells = [] ∧ t.sys.filled = true))
  ∧ (∀ (s u : State) (o : BootObs) (k : Fin 2), s.sys.mode = .boot → s.sys.imageRuns = false → s.sys.noImage = false →
    s.sys.warmFlushDue = false → s.sys.parking = false → s.sys.parked = false → s.sys.resetWaits = false →
    s.chooseSlot o.imageOk = (some k, u) →
    Completes (.bootDone o) s (fun t => t.sys.imageRuns = true ∧ t.sys.runSlot = k ∧ t.sys.release = u.flash.slots[k].release
      ∧ raisedSince s t (.dev .bootDone) = true))
  ∧ (∀ s : State, s.sys.mode = .boot → s.sys.warmFlushDue = true →
    Completes .warmFlush s (fun t => t.sys.warmFlushDue = false ∧ t.stg.journal = []))
  ∧ (∀ (s : State) (xs : List RecoveredCluster), s.sys.mode = .boot → s.sys.imageRuns = true → s.sys.warmFlushDue = false →
    s.sys.recovered = false → s.sys.parking = false → s.sys.parked = false → s.sys.progress.op ≠ 2 →
    Completes (.stagingRecovery xs) s (fun t => t.sys.mode = .standalone ∧ t.sys.recovered = true ∧ t.cmds = []
      ∧ raisedSince s t (.dev .stagingRecovered) = true))
  ∧ (∀ (s : State) (p : Port), s.sys.mode ≠ .off → s.sys.mode ≠ .fill → s.sys.clocksGood = true →
    Completes (.deviceReset p 0xA5) s (fun t => t.sys.mode = .boot ∧ t.sys.resetCause = 2 ∧ t.mem.cells = s.mem.cells
      ∧ raisedSince s t (.dev .warmReset) = true))
  ∧ (∀ s : State, s.sys.mode = .ripcord → s.sys.parked = true → 0 < s.dp Param.devRipcordHold → s.sys.clocksGood = true →
    Completes .ripcordHoldExpiry s (fun t => t.sys.mode = .boot ∧ t.sys.resetCause = 1 ∧ t.sys.parked = false
      ∧ raisedSince s t (.dev .warmReset) = true))
  ∧ ∀ s : State, s.sys.mode = .activate → s.sys.clocksGood = true →
    Completes .activationTimeout s (fun t => t.sys.mode = .boot ∧ t.sys.resetCause = 3
      ∧ raisedSince s t (.dev .warmReset) = true)

/-- Vent, Ripcord, watchdogs and engines complete (R20, R346, R349, R433, R436, R437): a power failure starts the Vent, which ends
and resumes; lost clocks are noted, and REFCLK and root PLL loss park the device; the watchdog counts service words and its
expiry enters RIPCORD, whose park ends; and engines stall and restart. -/
def Obligations.SafetyCompletes : Prop :=
  (∀ s : State, s.sys.mode.serving = true →
    Completes .pwrfailAssert s (fun t => t.sys.mode = .vent ∧ t.sys.pwrfail = true ∧ t.sys.ventFrom = s.sys.mode
      ∧ raisedSince s t (.dev .ventStart) = true))
  ∧ (∀ s : State, s.sys.mode = .vent → s.sys.ventDone = false → s.sys.ventWatchdog = false → s.sys.ventFrom ≠ .ripcord →
    Completes .ventDone s (fun t => t.sys.ventDone = true ∧ t.stg.journal = [] ∧ raisedSince s t (.dev .ventDone) = true))
  ∧ (∀ s : State, s.sys.mode = .vent → s.sys.ventDone = true → s.sys.ventFrom = .standalone → s.sys.ventPaired = false →
    Completes .ventResume s (fun t => t.sys.mode = .standalone ∧ t.sys.pwrfail = false))
  ∧ (∀ s : State, s.sys.mode ≠ .off →
    Completes .refclkLoss s (fun t => t.sys.onOsc = true ∧ raisedSince s t (.dev .refclkLost) = true))
  ∧ (∀ s : State, s.sys.mode ≠ .off →
    Completes .rootPllLoss s (fun t => t.sys.pllLost[0] = true ∧ t.sys.onRefclk = true
      ∧ raisedSince s t (.dev .pllUnlock) = true))
  ∧ (∀ s : State, s.sys.mode ≠ .off →
    Completes .ddrPllLoss s (fun t => t.sys.pllLost[1] = true ∧ raisedSince s t (.dev .pllUnlock) = true))
  ∧ (∀ s : State, s.sys.mode ≠ .off →
    Completes .nandPllLoss s (fun t => t.sys.pllLost[2] = true ∧ t.sys.nandSlow = true
      ∧ raisedSince s t (.dev .pllUnlock) = true))
  ∧ (∀ s : State, s.sys.mode ≠ .off →
    Completes .pciePllLoss s (fun t => t.sys.pllLost[3] = true ∧ ∀ p : Port, t.ports[p].linkUp = false))
  ∧ (∀ s : State, s.sys.mode ≠ .off →
    Completes .tetherPllLoss s (fun t => t.sys.pllLost[4] = true ∧ t.pair.link = .down))
  ∧ (∀ s : State, s.sys.mode ≠ .off → s.sys.resetWaits = false →
    Completes .pllLock s (fun t => t.sys.pll = Vector.replicate 5 true ∧ t.sys.onOsc = false))
  ∧ (∀ (s : State) (c : CoreNo), s.sys.imageRuns = true → s.coresRun = true →
    Completes (.watchdogService c) s (fun t => t.sys.serviced[c] = true))
  ∧ (∀ s : State, s.sys.mode ≠ .off → s.sys.mode ≠ .ripcord → s.sys.keelStopped = false →
    s.sys.serviced.toList.all id = true →
    Completes .keelWatchdogExpiry s (fun t => t.sys.serviced = Vector.replicate 4 false ∧ t.sys.mode = s.sys.mode))
  ∧ (∀ s : State, s.sys.mode.serving = true → s.sys.keelStopped = false → s.sys.serviced.toList.all id = false →
    Completes .keelWatchdogExpiry s (fun t => t.sys.mode = .ripcord ∧ t.sys.parking = true
      ∧ raisedSince s t (.dev .ripcord) = true))
  ∧ (∀ s : State, s.sys.mode ≠ .off → s.sys.mode ≠ .ripcord →
    Completes .lockstepMismatch s (fun t => t.sys.keelStopped = true ∧ raisedSince s t (.dev .ripcord) = true))
  ∧ (∀ s : State, s.sys.parking = true → s.parkComplete = true →
    Completes .ripcordParkEnd s (fun t => t.sys.parking = false ∧ t.sys.parked = true))
  ∧ (∀ (s : State) (e : EngineId), s.sys.mode ≠ .off → s.sys.imageRuns = true → s.engineHeld e = false →
    Completes (.engineStall e) s (fun t => t.engineHeld e = true ∧ raisedSince s t (.dev .engineStalled) = true))
  ∧ ∀ (s : State) (e : EngineId), s.sys.imageRuns = true → s.engineHeld e = true →
    Completes (.engineRestart e) s (fun t => t.engineHeld e = false)

/-- Activation, the sensors and the board ports complete (R444, R446, R447, R482): the resume runs the new image and raises
EV_ACTIVATE_DONE, the hold-up code and the junction temperature are taken, SMBus answers its commands, and the TAP shifts out. -/
def Obligations.BoardCompletes : Prop :=
  (∀ (s : State) (a : Activation), s.sys.mode = .activate → s.sys.activation = some a → s.noneStarted = true →
    a.handover = false → s.sys.cameFrom = .standalone →
    Completes .activationResume s (fun t => t.sys.mode = .standalone ∧ t.sys.release = a.release ∧ t.sys.runSlot = a.slot
      ∧ t.sys.activation = none ∧ raisedSince s t (.dev .activateDone) = true))
  ∧ (∀ (s : State) (code : BitVec 10), s.sys.mode ≠ .off →
    Completes (.holdupSample code) s (fun t => t.sys.holdup = code))
  ∧ (∀ (s : State) (x : Int), s.sys.mode ≠ .off → Completes (.junctionSample x) s (fun t => t.sys.tj = x
      ∧ (s.dp Param.pwrTjWarn < x → s.sys.hot = false → t.sys.hot = true ∧ raisedSince s t (.dev .thermalWarn) = true)))
  ∧ (∀ (s : State) (a : BitVec 7) (c : Byte) (pec : Bool) (bs : List Byte), s.sys.mode ≠ .off →
    a.toNat = 0x58 + s.sys.straps.toNat → s.smbusAnswer c = some bs →
    Completes (.smbusTransaction a c pec) s (fun t => t.out = .smbus (smbusFrame a c pec bs) :: s.out))
  ∧ (∀ (s : State) (x : Bool), Completes (.jtagTapOperation (.bypass x)) s (fun t => t.out = .tdo [x] :: s.out))
  ∧ (∀ s : State, Completes (.jtagTapOperation .idcode) s (fun t =>
      t.out = .tdo ((List.range 32).map (fun i => idcode.testBit i)) :: s.out))
  ∧ (∀ (s : State) (xs ys : List Bool), Completes (.jtagTapOperation (.samplePreload xs ys)) s (fun t =>
      t.out = .tdo xs :: s.out ∧ t.sys.jtagCells = ys))
  ∧ ∀ s : State, Completes (.jtagTapOperation .extest) s (fun t => t.sys.extest = true ∧ t.out = s.out)

/-! ### Frames: what a command leaves unchanged -/

/-- Frames: when a command of the ports, of the event path and of the I/O queues (11_host_interface.md, 15_events_and_diagnostics.md, 17_host_visible_registers.md) answers a next state, every part of the
state its frame does not list reads as before. -/
def Obligations.PortFrames : Prop :=
  ∀ (i : Instr) (ps : List Part) (s t : State), portFrame i = some ps → exec i s = .next t → Unchanged ps s t

/-- Frames: when a mailbox command (11_host_interface.md) answers a next state, every part of the
state its frame does not list reads as before. -/
def Obligations.MailboxFrames : Prop :=
  ∀ (i : Instr) (ps : List Part) (s t : State), mailboxFrame i = some ps → exec i s = .next t → Unchanged ps s t

/-- Frames: when a command of power, boot, clocks, resets and the board (16_power_clocks_reset_boot.md, 18_electrical_and_package.md) answers a next state, every part of the
state its frame does not list reads as before. -/
def Obligations.PowerFrames : Prop :=
  ∀ (i : Instr) (ps : List Part) (s t : State), powerFrame i = some ps → exec i s = .next t → Unchanged ps s t

/-- Frames: when a command of the pair, of the Tether and of the magazine handler (10_magazine_handler.md, 14_pair_operation.md) answers a next state, every part of the
state its frame does not list reads as before. -/
def Obligations.PairFrames : Prop :=
  ∀ (i : Instr) (ps : List Part) (s t : State), pairFrame i = some ps → exec i s = .next t → Unchanged ps s t

/-- Frames: when a command of the front end, the read channel, decoding and writing (03_optical_front_end.md to 06_writing_and_verification.md) answers a next state, every part of the
state its frame does not list reads as before. -/
def Obligations.HeadFrames : Prop :=
  ∀ (i : Instr) (ps : List Part) (s t : State), headFrame i = some ps → exec i s = .next t → Unchanged ps s t

/-- Frames: when a command of the servo, the drives and the bay sequencer (07_servo_loops.md to 09_bay_operation.md) answers a next state, every part of the
state its frame does not list reads as before. -/
def Obligations.MotionFrames : Prop :=
  ∀ (i : Instr) (ps : List Part) (s t : State), motionFrame i = some ps → exec i s = .next t → Unchanged ps s t

/-- Frames: when a command of memory and of the staging tier (12_staging_flash.md, 13_memory_buffers_cache.md) answers a next state, every part of the
state its frame does not list reads as before. -/
def Obligations.StoreFrames : Prop :=
  ∀ (i : Instr) (ps : List Part) (s t : State), storeFrame i = some ps → exec i s = .next t → Unchanged ps s t

/-! ### Rules of single units -/

/-- R64: layer in [25:22], turn in [21:4], slot in [3:0]; an address is invalid when its turn is above 143,754 or its slot is not
less than the k of the turn's zone (R43, Table 2.3: k is 6 in zone 0 and one more from each further zone's first turn on). -/
def Obligations.ClusterAddressFields : Prop :=
  ∀ a : ClusterAddr, (addrLayer a).val = (a.extractLsb 25 22).toNat ∧ addrTurn a = (a.extractLsb 21 4).toNat
    ∧ addrSlot a = (a.extractLsb 3 0).toNat
    ∧ (addrValid a = false ↔ 143754 < (a.extractLsb 21 4).toNat
      ∨ 6 + ([12613, 28701, 44789, 60877, 76965, 93053, 109141, 125229, 141317].filter
          (fun t => decide (t ≤ (a.extractLsb 21 4).toNat))).length ≤ (a.extractLsb 3 0).toNat)

/-- The home address of every LBA of a volume (R65) is a valid address (R64) in the user area, outside the replacement area, and
the user cluster whose home it is, is the one located: locating loses nothing, and no two clusters share a home. -/
def Obligations.HomeAddressesValid : Prop :=
  ∀ lba : Nat, lba ≤ 0x15FFFFFF → addrValid (homeOf (lba / 16)) = true ∧ inReplacement (homeOf (lba / 16)) = false
    ∧ (addrLayer (homeOf (lba / 16))).val = lba / 16 / 1441792
    ∧ posOfAddr (homeOf (lba / 16)) = 4032 + lba / 16 % 1441792 ∧ uclOf (homeOf (lba / 16)) = some (lba / 16)

/-- R192: Lull of focus puts tracking into Lull at once, with the cause "coupled"; Lull of tracking sets the sled command to 0;
tilt Lull affects no other loop; a sled in Lull holds a command of 0, from its entry and at each period of its loop. -/
def Obligations.LullCoupling : Prop :=
  (∀ (s : State) (b : BayNo) (c : LullCause), s.bays[b].srv.focus.lull = none →
    (s.enterLull b .focus c).bays[b].srv.focus.lull = some c
    ∧ (s.enterLull b .focus c).bays[b].srv.tracking.lull
      = some (match s.bays[b].srv.tracking.lull with | none => .coupled | some d => d)
    ∧ (s.bays[b].srv.tracking.lull = none → (s.enterLull b .focus c).bays[b].srv.sled.drive = 0))
  ∧ (∀ (s : State) (b : BayNo) (c : LullCause), s.bays[b].srv.tracking.lull = none →
    (s.enterLull b .tracking c).bays[b].srv.tracking.lull = some c ∧ (s.enterLull b .tracking c).bays[b].srv.sled.drive = 0)
  ∧ (∀ (s : State) (b : BayNo) (c : LullCause),
    (s.enterLull b .tilt c).bays[b].srv.focus = s.bays[b].srv.focus
    ∧ (s.enterLull b .tilt c).bays[b].srv.tracking = s.bays[b].srv.tracking
    ∧ (s.enterLull b .tilt c).bays[b].srv.sled = s.bays[b].srv.sled)
  ∧ (∀ (s : State) (b : BayNo) (c : LullCause), s.bays[b].srv.sled.lull = none →
    (s.enterLull b .sled c).bays[b].srv.sled.lull = some c ∧ (s.enterLull b .sled c).bays[b].srv.sled.drive = 0)
  ∧ ∀ (s t : State) (b : BayNo), s.bays[b].srv.sled.lull.isSome = true → s.bays[b].srv.sled.drive = 0 →
    exec (.sledLoopPeriod b) s = .next t → t.bays[b].srv.sled.drive = 0

/-- R338: the map update of a copy takes effect only if the entry still names the victim location; an update that finds another
location, or no entry, is discarded, and nothing names the copy. -/
def Obligations.CopyRaces : Prop :=
  (∀ (s : State) (e x : MapEntry) (loc : BitVec 34), s.stg.entry? e.vid e.ucl = some x → x.loc = e.loc →
    (s.copied e loc).stg.entry? e.vid e.ucl = some { x with loc := loc, progSeq := s.sys.progSeq + 1 })
  ∧ (∀ (s : State) (e x : MapEntry) (loc : BitVec 34), s.stg.entry? e.vid e.ucl = some x → x.loc ≠ e.loc →
    (s.copied e loc).stg = s.stg)
  ∧ ∀ (s : State) (e : MapEntry) (loc : BitVec 34), s.stg.entry? e.vid e.ucl = none → (s.copied e loc).stg = s.stg

/-- A read of a triplicated word takes the bitwise majority (R368): while no bank of the word is marked, one bank that answers
anything at all is outvoted, the reader gets the value of the other two, and the bank is written back; when it still disagrees
it is marked faulty for the word, and no other word or bank is. -/
def Obligations.TripleMajority : Prop :=
  (∀ (a b c : BitVec 64) (i : Nat), (majority a b c).getLsbD i = true ↔
    (a.getLsbD i = true ∧ b.getLsbD i = true) ∨ (a.getLsbD i = true ∧ c.getLsbD i = true)
      ∨ (b.getLsbD i = true ∧ c.getLsbD i = true))
  ∧ ∀ (s : State) (w : Fin 31) (v x : BitVec 64) (k : Fin 3) (again : Vector (BitVec 64) 3),
    (∀ j : Fin 3, (w.val, j) ∉ s.mem.triple.faulty) → x ≠ v →
    Completes (.tripleRead w (#v[v, v, v].set k.val x k.isLt) again) s (fun t =>
      t.out = .coreRead v :: s.out
      ∧ (∀ j : Fin 3, t.mem.triple.banks[j][w] = if j = k then again[k] else v)
      ∧ (∀ (j : Fin 3) (u : Fin 31), u ≠ w → t.mem.triple.banks[j][u] = s.mem.triple.banks[j][u])
      ∧ t.mem.triple.faulty = if again[k] = v then s.mem.triple.faulty else s.mem.triple.faulty ++ [(w.val, k)])

/-- While the pools are sound, which every step keeps, an allocation of Ballast (R373) is refused with the handle 0xFFFF_FFFF and moves no buffer, or takes as many different buffers
as the size needs from the one pool of the size: every one was free, all now belong to the owner, the answer is the head's
handle, and every other buffer of every pool keeps its ownership word. -/
def Obligations.BallastExclusive : Prop :=
  ∀ (s t : State) (o : Fin 12) (size : Nat), s.coresRun = true → (∀ p : Fin 4, PoolSound s.mem.pools[p]) →
    exec (.ballastAllocate o size) s = .next t →
    (t.out = .ballast noHandle :: s.out ∧ ∀ p : Fin 4, t.mem.pools[p].words = s.mem.pools[p].words)
    ∨ ∃ (p : Fin 4) (ids : List Nat) (i : Nat), poolFor size = some p ∧ ids.length = bufsFor size ∧ ids.Nodup
      ∧ ids.getLast? = some i ∧ t.out = .ballast (handleOf p i) :: s.out
      ∧ (∀ j ∈ ids, lookupKey s.mem.pools[p].words j = none ∧ j ∉ s.mem.pools[p].out
        ∧ (lookupKey t.mem.pools[p].words j).map (·.owner) = some o)
      ∧ (∀ j, j ∉ ids → lookupKey t.mem.pools[p].words j = lookupKey s.mem.pools[p].words j)
      ∧ ∀ q : Fin 4, q ≠ p → t.mem.pools[q] = s.mem.pools[q]

/-- Bytes of DRAM: what is written is read back, little-endian (R7), and a partial write (R363) leaves every byte outside its block
as it was and, where the reads of its read-modify-write deliver what was written, every byte outside those it stores; such a read
leaves every byte; a store with the cache disabled (R383), an accepted writeback and the maintenance of one line (R381) leave every
byte outside those they store as it was. -/
def Obligations.DramBytesKept : Prop :=
  (∀ (m : List Host.Cell) (a : Nat) (bs : List Byte), memRead (memWrite m a bs) a bs.length = ofLeBytes bs)
  ∧ (∀ (s t : State) (addr : BitVec 40) (bytes : List Byte) (r : Requester) (o : DramObs),
    exec (.dramPartialWrite addr bytes r o) s = .next t →
    (∀ x : Nat, x / 128 ≠ addr.toNat / 128 → memByte t.mem.cells x = memByte s.mem.cells x)
    ∧ (readsRight s.mem.x8 o = true → ∀ x : Nat,
      x < addr.toNat ∨ addr.toNat + min bytes.length (128 - addr.toNat % 128) ≤ x →
      memByte t.mem.cells x = memByte s.mem.cells x))
  ∧ (∀ (s t : State) (addr : BitVec 40) (r : Requester) (o : DramObs), exec (.dramRead addr r o) s = .next t →
    readsRight s.mem.x8 o = true → t.mem.cells = s.mem.cells)
  ∧ (∀ (s t : State) (c : CoreNo) (addr : BitVec 40) (v : BitVec 64), exec (.cacheAccess c addr (.store v)) s = .next t →
    (s.mem.cache.enabled = true → t.mem.cells = s.mem.cells)
    ∧ ∀ x : Nat, x < addr.toNat / 8 * 8 ∨ addr.toNat / 8 * 8 + 8 ≤ x → memByte t.mem.cells x = memByte s.mem.cells x)
  ∧ (∀ (s t : State) (c : CoreNo) (addr : BitVec 40), exec (.cacheAccess c addr .load) s = .next t →
    t.mem.cells = s.mem.cells)
  ∧ (∀ (s t : State) (l : BitVec 34), s.mem.cache.maintWait = none → exec (.cacheWritebackAccept l) s = .next t →
    ∀ x : Nat, x < l.toNat * 64 ∨ l.toNat * 64 + 64 ≤ x → memByte t.mem.cells x = memByte s.mem.cells x)
  ∧ ∀ (s t : State) (i : Instr), i = .cacheCleanLine ∨ i = .cacheCleanInvalidateLine → exec i s = .next t →
    ∀ x : Nat, x < s.mem.cache.maintLine.toNat * 64 ∨ s.mem.cache.maintLine.toNat * 64 + 64 ≤ x →
    memByte t.mem.cells x = memByte s.mem.cells x

/-! ### Reset and what every step keeps -/

/-- The machine right after reset, as the spec states it: no event and no sequence number given out (R414), no Reel record
(R422), every queue pair disabled with its indexes at 0 (Table 17.9), every MSI-X entry masked with nothing pending (R463), no
alarm bit set (R421), the event rings disabled (Table 17.7), every Bridle cell free with no claims (Table 17.4), every bay EMPTY
(R236) with its write gate closed, its engines held and its loops open, no DRAM error recorded (R370), the engine cache disabled
(R378), Ballast with no buffer owned, and the triplicated words 0 (R367). -/
def Obligations.ResetState : Prop :=
  State.reset.pending = [] ∧ State.reset.ev.queue = [] ∧ State.reset.ev.nextSeq = 0 ∧ State.reset.ev.reel = []
  ∧ (∀ (p : Port) (q : QueueNo), State.reset.ports[p].queues[q].enabled = false ∧ State.reset.ports[p].queues[q].sqTail = 0
    ∧ State.reset.ports[p].queues[q].cqHead = 0 ∧ State.reset.ports[p].queues[q].halted = false)
  ∧ (∀ (p : Port) (v : Fin 65), State.reset.ports[p].msix[v].mask = true ∧ State.reset.ports[p].pending = 0)
  ∧ (∀ p : Port, State.reset.ports[p].alarm = 0 ∧ State.reset.ports[p].ring.enabled = false
    ∧ State.reset.ports[p].mbx.busy = false ∧ State.reset.ports[p].mbx.done = false)
  ∧ (∀ k : Fin 64, State.reset.bridle[k] = { owner := 0, claims := 0 })
  ∧ (∀ b : BayNo, State.reset.bays[b].seq.st = .empty ∧ State.reset.bays[b].wp.gate = false
    ∧ State.reset.bays[b].qHeld = true ∧ State.reset.bays[b].sHeld = true
    ∧ ∀ l : LoopId, (State.reset.bays[b].srv.loop l).closed = false)
  ∧ State.reset.mem.fifo = [] ∧ State.reset.mem.cells = [] ∧ State.reset.mem.cache.enabled = false
  ∧ (∀ p : Fin 4, State.reset.mem.pools[p].words = [])
  ∧ ∀ (k : Fin 3) (w : Fin 31), State.reset.mem.triple.banks[k][w] = 0

/-- The invariant holds at reset. -/
def Obligations.InvariantAtReset : Prop := Invariant State.reset

/-- Every step keeps the invariant, from every state that has it: DRAM stays in its canonical form, the firmware event queue never
holds more than its 1,024 records (R414, R417), and in every Ballast pool no buffer is free twice or free while it has an owner. -/
def Obligations.InvariantKept : Prop := ∀ s t : State, Invariant s → step s = .next t → Invariant t
end

