-- ==== Sys2Proof/Laws/Ballast.lean ====
section
/-! SUPPORT. Taking a buffer of Ballast whose on-chip cache holds one index: the pick of R375, which the spec leaves open, has no choice. -/

namespace Sys2Proof.Laws

open Sys2Proof.Machine

set_option Elab.async false

/-- A cache of one index gives that index. -/
theorem pick_one (p : Nat) (b : BallastPool) (i : Nat) (h : b.cache = [i]) : b.pick p = some i := by
  unfold BallastPool.pick
  rw [h, List.length_singleton, Nat.mod_one]
  rfl

/-- One buffer taken from such a pool (R373, R374). -/
theorem takeChain_one (p : Nat) (o : Fin 12) (b : BallastPool) (i : Nat) (h : b.cache = [i]) : BallastPool.takeChain p o 1 none b
    = some (i, ({ b with words := insertKey b.words i { owner := o, head := true, link := none }, count := b.count + 1,
                         cache := b.cache.filter (· ≠ i) } : BallastPool).refill) := by
  unfold BallastPool.takeChain
  rw [pick_one p b i h]
  rfl

/-- An allocation of one buffer that the minima allow (R373, R376). -/
theorem ballastTake_one (s : State) (o : Fin 12) (size : Nat) (p : Fin 4) (i : Nat) (hp : poolFor size = some p) (hn : bufsFor size = 1)
    (hm : s.mayTake p o 1 = true) (hc : s.mem.pools[p].cache = [i]) : (s.ballastTake o size).2 = some (handleOf p i) := by
  unfold State.ballastTake
  rw [hp, hn]
  dsimp only
  rw [if_neg (by decide), hm, takeChain_one _ _ _ i hc]
  rfl

/-- The copy of one cluster is fetched where Ballast has a buffer for staging (R25). -/
theorem fetchStaged_one (s : State) (x : WriteItem) (v : BitVec 32) (h : (s.ballastTake stagingOwner 65536).2 = some v) :
    (s.fetchStaged [x]).2.2 = [] := by
  unfold State.fetchStaged
  simp only [List.foldl_cons, List.foldl_nil]
  split
  · rfl
  · next t e => rw [e] at h; cases h

/-- A turn of one cluster takes it, where it may be recorded and its copy is fetched (R165). -/
theorem takeTurn_one (s : State) (b : BayNo) (layer : LayerNo) (turn : Nat) (x : WriteItem) (hs : splitTurn layer turn [x] = ([x], []))
    (hr : s.bays[b].mayRecord x = true) (hf : (s.fetchStaged [x]).2.2 = []) : (s.takeTurn b layer turn [x]).2.2.1 = [x] := by
  have e : [x].filter s.bays[b].mayRecord = [x] := by rw [List.filter_cons, if_pos hr, List.filter_nil]
  unfold State.takeTurn
  rw [hs]
  dsimp only
  rw [e]
  generalize s.fetchStaged [x] = f at *
  obtain ⟨t, bufs, short⟩ := f
  dsimp only at hf ⊢
  subst hf
  simpa using hr

/-- An allocation always answers a next state while the cores run. -/
theorem ballastAllocate_next (o : Fin 12) (size : Nat) (s : State) : ∃ t, exec (.ballastAllocate o size) s = .next t := by
  unfold exec execBallastAllocate
  dsimp only
  repeat' split
  all_goals exact ⟨_, rfl⟩

end Sys2Proof.Laws
end

