-- ==== Sys2Proof/Laws/Hide.lean ====
section
/-! SUPPORT. A frame as an equation: the state with the listed parts blanked is the same before and after. One lemma says what each named update of one unit needs for that. -/

namespace Sys2Proof.Laws

set_option Elab.async false

open Sys2Proof Sys2Proof.Machine Sys2Proof.Safety

/-- Device-wide control with its listed parts blanked. -/
def hideSys (ps : List Part) (y : Sys) : Sys :=
  { (if Part.sys ∈ ps then Sys.reset else y) with
    mode := if Part.mode ∈ ps then Sys.reset.mode else y.mode,
    freeCount := if Part.free ∈ ps then 0 else y.freeCount }

/-- The event path with its listed parts blanked. -/
def hideEv (ps : List Part) (v : EventPath) : EventPath :=
  let w := if Part.ev ∈ ps then EventPath.reset else v
  let r := if Part.retry ∈ ps then EventPath.reset else v
  let q := if Part.fwq ∈ ps then EventPath.reset else v
  { w with
    raised := if Part.raised ∈ ps then [] else v.raised,
    latches := if Part.raised ∈ ps then 0 else v.latches,
    queue := q.queue, nextSeq := q.nextSeq, tally := q.tally, drops := q.drops,
    transients := r.transients, persistents := r.persistents, retries := r.retries }

/-- A port with its listed parts blanked. -/
def hidePort (ps : List Part) (p : Port) (x : PortState) : PortState :=
  let q := if Part.queues p ∈ ps then PortState.reset else x
  let m := if Part.msix p ∈ ps then PortState.reset else x
  let l := if Part.link p ∈ ps then PortState.reset else x
  { queues := q.queues, lastServed := q.lastServed, held := q.held, heldVectors := q.heldVectors,
    msix := m.msix, pending := m.pending, msixEnable := m.msixEnable, msixMask := m.msixMask,
    relaxed := l.relaxed, linkUp := l.linkUp, linkGen := l.linkGen, linkWidth := l.linkWidth, perst := l.perst,
    d3hot := l.d3hot, cursor := l.cursor,
    mbx := if Part.mbx p ∈ ps then PortState.reset.mbx else x.mbx,
    ring := if Part.ring p ∈ ps then PortState.reset.ring else x.ring,
    alarm := if Part.alarm p ∈ ps then 0 else x.alarm }

/-- A bay with its listed parts blanked. -/
def hideBay (ps : List Part) (b : BayNo) (t : Bay) : Bay :=
  let h := if Part.held b ∈ ps then Bay.reset else t
  { afe := if Part.afe b ∈ ps then Bay.reset.afe else t.afe,
    rc := if Part.rc b ∈ ps then Bay.reset.rc else t.rc,
    dec := if Part.dec b ∈ ps then Bay.reset.dec else t.dec,
    wp := if Part.wp b ∈ ps then Bay.reset.wp else t.wp,
    srv := if Part.srv b ∈ ps then Bay.reset.srv else t.srv,
    spn := if Part.spn b ∈ ps then Bay.reset.spn else t.spn,
    sld := if Part.sld b ∈ ps then Bay.reset.sld else t.sld,
    seq := if Part.seq b ∈ ps then Bay.reset.seq else t.seq,
    qHeld := h.qHeld, sHeld := h.sHeld }

/-- Memory with its listed parts blanked. -/
def hideMem (ps : List Part) (m : Memory) : Memory :=
  { (if Part.mem ∈ ps then Memory.reset else m) with cells := if Part.dram ∈ ps then [] else m.cells }

/-- The state with its listed parts blanked. -/
def hide (ps : List Part) (s : State) : State :=
  { pending := if Part.pending ∈ ps then [] else s.pending,
    sys := hideSys ps s.sys, ev := hideEv ps s.ev,
    ports := Vector.ofFn (fun p => hidePort ps p s.ports[p]),
    bridle := if Part.bridle ∈ ps then State.reset.bridle else s.bridle,
    bridleTie := if Part.bridle ∈ ps then 0 else s.bridleTie,
    cmds := if Part.cmds ∈ ps then [] else s.cmds,
    vols := if Part.vols ∈ ps then [] else s.vols,
    params := if Part.params ∈ ps then .reset else s.params,
    flash := if Part.flash ∈ ps then .reset else s.flash,
    bays := Vector.ofFn (fun b => hideBay ps b s.bays[b]),
    pool := if Part.pool ∈ ps then .reset else s.pool,
    hnd := if Part.hnd ∈ ps then .reset else s.hnd,
    stg := if Part.stg ∈ ps then .reset .reset else s.stg,
    mem := hideMem ps s.mem,
    pair := if Part.pair ∈ ps then .reset else s.pair,
    out := if Part.out ∈ ps then [] else s.out }

/-! ### The frame that the equation says -/

theorem eq_or_of_ite {p : Prop} [Decidable p] {α : Type} {x y z : α} (h : (if p then x else y) = if p then x else z) :
    p ∨ y = z := by
  by_cases hp : p
  · exact Or.inl hp
  · exact Or.inr (by simpa [hp] using h)

theorem orIte {p : Prop} [Decidable p] {α : Type} {x y z : α} (h : p ∨ y = z) :
    (if p then x else y) = if p then x else z := by
  rcases h with h | h
  · rw [if_pos h, if_pos h]
  · rw [h]

theorem orProj {p : Prop} [Decidable p] {α β : Type} (g : α → β) {x y z : α} (h : p ∨ g y = g z) :
    g (if p then x else y) = g (if p then x else z) := by
  by_cases k : p
  · rw [if_pos k, if_pos k]
  · rw [if_neg k, if_neg k]; exact h.resolve_left k

theorem projOr {p : Prop} [Decidable p] {α β : Type} (g : α → β) {x y z : α}
    (h : g (if p then x else y) = g (if p then x else z)) : p ∨ g y = g z := by
  by_cases k : p
  · exact Or.inl k
  · rw [if_neg k, if_neg k] at h; exact Or.inr h

theorem and2 {p a b : Prop} (ha : p ∨ a) (hb : p ∨ b) : p ∨ (a ∧ b) := by
  rcases ha with ha | ha
  · exact Or.inl ha
  · exact hb.imp_right (fun hb => ⟨ha, hb⟩)

theorem and3 {p a b c : Prop} (ha : p ∨ a) (hb : p ∨ b) (hc : p ∨ c) : p ∨ (a ∧ b ∧ c) := and2 ha (and2 hb hc)

theorem and4 {p a b c d : Prop} (ha : p ∨ a) (hb : p ∨ b) (hc : p ∨ c) (hd : p ∨ d) : p ∨ (a ∧ b ∧ c ∧ d) :=
  and2 ha (and3 hb hc hd)

theorem and7 {p a b c d e f g : Prop} (ha : p ∨ a) (hb : p ∨ b) (hc : p ∨ c) (hd : p ∨ d) (he : p ∨ e) (hf : p ∨ f)
    (hg : p ∨ g) : p ∨ (a ∧ b ∧ c ∧ d ∧ e ∧ f ∧ g) := and4 ha hb hc (and4 hd he hf hg)

theorem unchanged_of_hide {ps : List Part} {s t : State} (h : hide ps t = hide ps s) : Unchanged ps s t := by
  have hsys : hideSys ps t.sys = hideSys ps s.sys := congrArg (·.sys) h
  have hev : hideEv ps t.ev = hideEv ps s.ev := congrArg (·.ev) h
  have hmem : hideMem ps t.mem = hideMem ps s.mem := congrArg (·.mem) h
  have hport : ∀ p : Port, hidePort ps p t.ports[p] = hidePort ps p s.ports[p] := by
    intro p
    have := congrArg (fun x : State => x.ports[p]) h
    simpa [hide] using this
  have hbay : ∀ b : BayNo, hideBay ps b t.bays[b] = hideBay ps b s.bays[b] := by
    intro b
    have := congrArg (fun x : State => x.bays[b]) h
    simpa [hide] using this
  constructor
  · exact eq_or_of_ite (congrArg (·.pending) h)
  · exact eq_or_of_ite (congrArg (·.mode) hsys)
  · exact eq_or_of_ite (congrArg (·.freeCount) hsys)
  · by_cases hp : Part.sys ∈ ps
    · exact Or.inl hp
    · refine Or.inr ?_
      simp only [hideSys, hp, if_false, Sys.mk.injEq] at hsys
      rcases hs : s.sys; rcases ht : t.sys
      simp_all
  · exact and2 (eq_or_of_ite (congrArg (·.raised) hev)) (eq_or_of_ite (congrArg (·.latches) hev))
  · exact and4 (projOr EventPath.queue (congrArg (·.queue) hev)) (projOr EventPath.nextSeq (congrArg (·.nextSeq) hev))
      (projOr EventPath.tally (congrArg (·.tally) hev)) (projOr EventPath.drops (congrArg (·.drops) hev))
  · exact and3 (projOr EventPath.transients (congrArg (·.transients) hev)) (projOr EventPath.persistents (congrArg (·.persistents) hev))
      (projOr EventPath.retries (congrArg (·.retries) hev))
  · by_cases hp : Part.ev ∈ ps
    · exact Or.inl hp
    · refine Or.inr ?_
      simp only [hideEv, hp, if_false, EventPath.mk.injEq] at hev
      rcases hs : s.ev; rcases ht : t.ev
      simp_all
  · intro p
    exact and4 (projOr PortState.queues (congrArg (·.queues) (hport p)))
      (projOr PortState.lastServed (congrArg (·.lastServed) (hport p)))
      (projOr PortState.held (congrArg (·.held) (hport p)))
      (projOr PortState.heldVectors (congrArg (·.heldVectors) (hport p)))
  · intro p
    exact and4 (projOr PortState.msix (congrArg (·.msix) (hport p)))
      (projOr PortState.pending (congrArg (·.pending) (hport p)))
      (projOr PortState.msixEnable (congrArg (·.msixEnable) (hport p)))
      (projOr PortState.msixMask (congrArg (·.msixMask) (hport p)))
  · exact fun p => eq_or_of_ite (congrArg (·.mbx) (hport p))
  · exact fun p => eq_or_of_ite (congrArg (·.ring) (hport p))
  · exact fun p => eq_or_of_ite (congrArg (·.alarm) (hport p))
  · intro p
    exact and7 (projOr PortState.relaxed (congrArg (·.relaxed) (hport p)))
      (projOr PortState.linkUp (congrArg (·.linkUp) (hport p)))
      (projOr PortState.linkGen (congrArg (·.linkGen) (hport p)))
      (projOr PortState.linkWidth (congrArg (·.linkWidth) (hport p)))
      (projOr PortState.perst (congrArg (·.perst) (hport p)))
      (projOr PortState.d3hot (congrArg (·.d3hot) (hport p)))
      (projOr PortState.cursor (congrArg (·.cursor) (hport p)))
  · rcases eq_or_of_ite (congrArg (·.bridle) h) with hp | h1
    · exact Or.inl hp
    · rcases eq_or_of_ite (congrArg (·.bridleTie) h) with hp | h2
      · exact Or.inl hp
      · exact Or.inr ⟨h1, h2⟩
  · exact eq_or_of_ite (congrArg (·.cmds) h)
  · exact eq_or_of_ite (congrArg (·.vols) h)
  · exact eq_or_of_ite (congrArg (·.params) h)
  · exact eq_or_of_ite (congrArg (·.flash) h)
  · exact fun b => eq_or_of_ite (congrArg (·.afe) (hbay b))
  · exact fun b => eq_or_of_ite (congrArg (·.rc) (hbay b))
  · exact fun b => eq_or_of_ite (congrArg (·.dec) (hbay b))
  · exact fun b => eq_or_of_ite (congrArg (·.wp) (hbay b))
  · exact fun b => eq_or_of_ite (congrArg (·.srv) (hbay b))
  · exact fun b => eq_or_of_ite (congrArg (·.spn) (hbay b))
  · exact fun b => eq_or_of_ite (congrArg (·.sld) (hbay b))
  · exact fun b => eq_or_of_ite (congrArg (·.seq) (hbay b))
  · intro b
    exact and2 (projOr Bay.qHeld (congrArg (·.qHeld) (hbay b))) (projOr Bay.sHeld (congrArg (·.sHeld) (hbay b)))
  · exact eq_or_of_ite (congrArg (·.pool) h)
  · exact eq_or_of_ite (congrArg (·.hnd) h)
  · exact eq_or_of_ite (congrArg (·.stg) h)
  · exact eq_or_of_ite (congrArg (·.cells) hmem)
  · by_cases hp : Part.mem ∈ ps
    · exact Or.inl hp
    · refine Or.inr ?_
      simp only [hideMem, hp, if_false, Memory.mk.injEq] at hmem
      rcases hs : s.mem; rcases ht : t.mem
      simp_all
  · exact eq_or_of_ite (congrArg (·.pair) h)
  · exact eq_or_of_ite (congrArg (·.out) h)

theorem hide_of_unchanged {ps : List Part} {s t : State} (h : Unchanged ps s t) : hide ps t = hide ps s := by
  have hsys : hideSys ps t.sys = hideSys ps s.sys := by
    rcases h.sys with k | k
    · simp only [hideSys, k, if_true, orIte h.mode, orIte h.free]
    · have hm := h.mode
      have hf := h.free
      have e : t.sys = { s.sys with mode := t.sys.mode, freeCount := t.sys.freeCount } :=
        congrArg (fun w : Sys => { w with mode := t.sys.mode, freeCount := t.sys.freeCount }) k
      generalize t.sys.mode = a at e hm
      generalize t.sys.freeCount = n at e hf
      rw [e]
      by_cases k : Part.sys ∈ ps <;> simp only [hideSys, k, if_true, if_false, orIte hm, orIte hf]
  have hev : hideEv ps t.ev = hideEv ps s.ev := by
    have kev : ∀ {α : Type} (g : EventPath → α), g { t.ev with
        raised := s.ev.raised, latches := s.ev.latches, queue := s.ev.queue, nextSeq := s.ev.nextSeq, tally := s.ev.tally, drops := s.ev.drops,
        transients := s.ev.transients, persistents := s.ev.persistents, retries := s.ev.retries } = g t.ev →
        g (if Part.ev ∈ ps then EventPath.reset else t.ev) = g (if Part.ev ∈ ps then EventPath.reset else s.ev) :=
      fun g hg => orProj g (h.ev.imp_right (fun e => hg.symm.trans (congrArg g e)))
    simp only [hideEv, EventPath.mk.injEq]
    exact ⟨orIte (h.raised.imp_right (·.1)), orProj EventPath.queue (h.fwq.imp_right (·.1)),
      orProj EventPath.nextSeq (h.fwq.imp_right (·.2.1)), orProj EventPath.tally (h.fwq.imp_right (·.2.2.1)),
      orProj EventPath.drops (h.fwq.imp_right (·.2.2.2)), kev EventPath.reel rfl,
      kev EventPath.reelNext rfl, kev EventPath.reelWrapped rfl,
      kev EventPath.reelRecord rfl, kev EventPath.reelLast rfl,
      kev EventPath.reelFrozen rfl, kev EventPath.trigSeen rfl,
      kev EventPath.postLeft rfl, orProj EventPath.transients (h.retry.imp_right (·.1)),
      orProj EventPath.persistents (h.retry.imp_right (·.2.1)), orProj EventPath.retries (h.retry.imp_right (·.2.2)),
      kev EventPath.diagWord rfl, kev EventPath.diagState rfl,
      kev EventPath.diagFails rfl, orIte (h.raised.imp_right (·.2))⟩
  have hmem : hideMem ps t.mem = hideMem ps s.mem := by
    rcases h.mem with k | k
    · simp only [hideMem, k, if_true, orIte h.dram]
    · have hd := h.dram
      have e : t.mem = { s.mem with cells := t.mem.cells } := congrArg (fun w : Memory => { w with cells := t.mem.cells }) k
      generalize t.mem.cells = a at e hd
      rw [e]
      by_cases k : Part.mem ∈ ps <;> simp only [hideMem, k, if_true, if_false, orIte hd]
  have hport : (fun p : Port => hidePort ps p t.ports[p]) = fun p : Port => hidePort ps p s.ports[p] := by
    funext p
    simp only [hidePort, PortState.mk.injEq]
    exact ⟨orProj PortState.queues ((h.queues p).imp_right (·.1)), orProj PortState.lastServed ((h.queues p).imp_right (·.2.1)),
      orProj PortState.msix ((h.msix p).imp_right (·.1)), orProj PortState.pending ((h.msix p).imp_right (·.2.1)),
      orProj PortState.msixEnable ((h.msix p).imp_right (·.2.2.1)), orProj PortState.msixMask ((h.msix p).imp_right (·.2.2.2)),
      orProj PortState.relaxed ((h.link p).imp_right (·.1)), orProj PortState.linkUp ((h.link p).imp_right (·.2.1)),
      orProj PortState.linkGen ((h.link p).imp_right (·.2.2.1)), orProj PortState.linkWidth ((h.link p).imp_right (·.2.2.2.1)),
      orProj PortState.perst ((h.link p).imp_right (·.2.2.2.2.1)), orProj PortState.d3hot ((h.link p).imp_right (·.2.2.2.2.2.1)),
      orProj PortState.held ((h.queues p).imp_right (·.2.2.1)),
      orProj PortState.heldVectors ((h.queues p).imp_right (·.2.2.2)), orIte (h.mbx p), orIte (h.ring p), orIte (h.alarm p),
      orProj PortState.cursor ((h.link p).imp_right (·.2.2.2.2.2.2))⟩
  have hbay : (fun b : BayNo => hideBay ps b t.bays[b]) = fun b : BayNo => hideBay ps b s.bays[b] := by
    funext b
    simp only [hideBay, Bay.mk.injEq]
    exact ⟨orIte (h.afe b), orIte (h.rc b), orIte (h.dec b), orIte (h.wp b), orIte (h.srv b), orIte (h.spn b),
      orIte (h.sld b), orIte (h.seq b), orProj Bay.qHeld ((h.held b).imp_right (·.1)),
      orProj Bay.sHeld ((h.held b).imp_right (·.2))⟩
  simp only [hide, hsys, hev, hmem, hport, hbay, orIte h.pending, orIte (h.bridle.imp_right (·.1)),
    orIte (h.bridle.imp_right (·.2)), orIte h.cmds, orIte h.vols, orIte h.params, orIte h.flash, orIte h.pool, orIte h.hnd,
    orIte h.stg, orIte h.pair, orIte h.out]

/-! ### Structure of a change -/

variable {ps : List Part}

theorem hide_ite {c : Prop} [Decidable c] {s t : State} :
    hide ps (if c then s else t) = if c then hide ps s else hide ps t := by split <;> rfl

theorem hide_foldl {α : Type} (f : State → α → State) (h : ∀ s x, hide ps (f s x) = hide ps s) (l : List α) (s : State) :
    hide ps (l.foldl f s) = hide ps s := by
  induction l generalizing s with
  | nil => rfl
  | cons x xs ih => rw [List.foldl_cons, ih, h]

theorem hide_eachBay (f : State → BayNo → State) (h : ∀ s b, hide ps (f s b) = hide ps s) (s : State) :
    hide ps (s.eachBay f) = hide ps s := hide_foldl f h _ s

theorem hide_eachPort (f : State → Port → State) (h : ∀ s p, hide ps (f s p) = hide ps s) (s : State) :
    hide ps (s.eachPort f) = hide ps s := by rw [State.eachPort, h, h]

/-! ### Updates of one unit -/

theorem hide_onSys {s : State} {f : Sys → Sys} (h : Part.sys ∈ ps)
    (hm : Part.mode ∈ ps ∨ (f s.sys).mode = s.sys.mode) (hf : Part.free ∈ ps ∨ (f s.sys).freeCount = s.sys.freeCount) :
    hide ps (s.onSys f) = hide ps s := by
  have : hideSys ps (f s.sys) = hideSys ps s.sys := by
    rcases hm with hm | hm <;> rcases hf with hf | hf <;> simp [hideSys, h, hm, hf]
  simp [hide, State.onSys, this]

theorem hide_onSys_free {s : State} (n : Sys → Nat) (h : Part.free ∈ ps) :
    hide ps (s.onSys (fun y => { y with freeCount := n y })) = hide ps s := by
  have : hideSys ps { s.sys with freeCount := n s.sys } = hideSys ps s.sys := by
    by_cases k : Part.sys ∈ ps <;> simp only [hideSys, h, k, if_true, if_false]
  simp [hide, State.onSys, this]

theorem hide_fresh {s : State} (h : Part.free ∈ ps) : hide ps s.fresh.2 = hide ps s := hide_onSys_free _ h

theorem hide_freeInt {s : State} {u : Nat} (h : Part.free ∈ ps) : hide ps (s.freeInt u).2 = hide ps s := hide_onSys_free _ h

theorem hide_onEv {s : State} {f : EventPath → EventPath}
    (h1 : Part.raised ∈ ps ∨ ((f s.ev).raised = s.ev.raised ∧ (f s.ev).latches = s.ev.latches))
    (h2 : Part.fwq ∈ ps ∨ ((f s.ev).queue = s.ev.queue ∧ (f s.ev).nextSeq = s.ev.nextSeq ∧ (f s.ev).tally = s.ev.tally
      ∧ (f s.ev).drops = s.ev.drops))
    (h3 : Part.retry ∈ ps ∨ ((f s.ev).transients = s.ev.transients ∧ (f s.ev).persistents = s.ev.persistents
      ∧ (f s.ev).retries = s.ev.retries))
    (h4 : Part.ev ∈ ps ∨ ((f s.ev).reel = s.ev.reel ∧ (f s.ev).reelNext = s.ev.reelNext
      ∧ (f s.ev).reelWrapped = s.ev.reelWrapped ∧ (f s.ev).reelRecord = s.ev.reelRecord ∧ (f s.ev).reelLast = s.ev.reelLast
      ∧ (f s.ev).reelFrozen = s.ev.reelFrozen ∧ (f s.ev).trigSeen = s.ev.trigSeen ∧ (f s.ev).postLeft = s.ev.postLeft
      ∧ (f s.ev).diagWord = s.ev.diagWord ∧ (f s.ev).diagState = s.ev.diagState ∧ (f s.ev).diagFails = s.ev.diagFails)) :
    hide ps (s.onEv f) = hide ps s := by
  have : hideEv ps (f s.ev) = hideEv ps s.ev := by
    simp only [hideEv, EventPath.mk.injEq]
    exact ⟨orIte (h1.imp_right (·.1)),
      orProj EventPath.queue (h2.imp_right (·.1)),
      orProj EventPath.nextSeq (h2.imp_right (·.2.1)),
      orProj EventPath.tally (h2.imp_right (·.2.2.1)),
      orProj EventPath.drops (h2.imp_right (·.2.2.2)),
      orProj EventPath.reel (h4.imp_right (·.1)),
      orProj EventPath.reelNext (h4.imp_right (·.2.1)),
      orProj EventPath.reelWrapped (h4.imp_right (·.2.2.1)),
      orProj EventPath.reelRecord (h4.imp_right (·.2.2.2.1)),
      orProj EventPath.reelLast (h4.imp_right (·.2.2.2.2.1)),
      orProj EventPath.reelFrozen (h4.imp_right (·.2.2.2.2.2.1)),
      orProj EventPath.trigSeen (h4.imp_right (·.2.2.2.2.2.2.1)),
      orProj EventPath.postLeft (h4.imp_right (·.2.2.2.2.2.2.2.1)),
      orProj EventPath.transients (h3.imp_right (·.1)),
      orProj EventPath.persistents (h3.imp_right (·.2.1)),
      orProj EventPath.retries (h3.imp_right (·.2.2)),
      orProj EventPath.diagWord (h4.imp_right (·.2.2.2.2.2.2.2.2.1)),
      orProj EventPath.diagState (h4.imp_right (·.2.2.2.2.2.2.2.2.2.1)),
      orProj EventPath.diagFails (h4.imp_right (·.2.2.2.2.2.2.2.2.2.2)), orIte (h1.imp_right (·.2))⟩
  simp [hide, State.onEv, this]

theorem hide_onPort {s : State} {p : Port} {f : PortState → PortState}
    (h1 : Part.queues p ∈ ps ∨ ((f s.ports[p]).queues = s.ports[p].queues ∧ (f s.ports[p]).lastServed = s.ports[p].lastServed
      ∧ (f s.ports[p]).held = s.ports[p].held ∧ (f s.ports[p]).heldVectors = s.ports[p].heldVectors))
    (h2 : Part.msix p ∈ ps ∨ ((f s.ports[p]).msix = s.ports[p].msix ∧ (f s.ports[p]).pending = s.ports[p].pending
      ∧ (f s.ports[p]).msixEnable = s.ports[p].msixEnable ∧ (f s.ports[p]).msixMask = s.ports[p].msixMask))
    (h3 : Part.link p ∈ ps ∨ ((f s.ports[p]).relaxed = s.ports[p].relaxed ∧ (f s.ports[p]).linkUp = s.ports[p].linkUp
      ∧ (f s.ports[p]).linkGen = s.ports[p].linkGen ∧ (f s.ports[p]).linkWidth = s.ports[p].linkWidth
      ∧ (f s.ports[p]).perst = s.ports[p].perst ∧ (f s.ports[p]).d3hot = s.ports[p].d3hot
      ∧ (f s.ports[p]).cursor = s.ports[p].cursor))
    (h4 : Part.mbx p ∈ ps ∨ (f s.ports[p]).mbx = s.ports[p].mbx)
    (h5 : Part.ring p ∈ ps ∨ (f s.ports[p]).ring = s.ports[p].ring)
    (h6 : Part.alarm p ∈ ps ∨ (f s.ports[p]).alarm = s.ports[p].alarm) :
    hide ps (s.onPort p f) = hide ps s := by
  have key : hidePort ps p (f s.ports[p]) = hidePort ps p s.ports[p] := by
    simp only [hidePort, PortState.mk.injEq]
    exact ⟨orProj PortState.queues (h1.imp_right (·.1)),
      orProj PortState.lastServed (h1.imp_right (·.2.1)),
      orProj PortState.msix (h2.imp_right (·.1)),
      orProj PortState.pending (h2.imp_right (·.2.1)),
      orProj PortState.msixEnable (h2.imp_right (·.2.2.1)),
      orProj PortState.msixMask (h2.imp_right (·.2.2.2)),
      orProj PortState.relaxed (h3.imp_right (·.1)),
      orProj PortState.linkUp (h3.imp_right (·.2.1)),
      orProj PortState.linkGen (h3.imp_right (·.2.2.1)),
      orProj PortState.linkWidth (h3.imp_right (·.2.2.2.1)),
      orProj PortState.perst (h3.imp_right (·.2.2.2.2.1)),
      orProj PortState.d3hot (h3.imp_right (·.2.2.2.2.2.1)),
      orProj PortState.held (h1.imp_right (·.2.2.1)),
      orProj PortState.heldVectors (h1.imp_right (·.2.2.2)),
      orIte h4,
      orIte h5,
      orIte h6,
      orProj PortState.cursor (h3.imp_right (·.2.2.2.2.2.2))⟩
  have : Vector.ofFn (fun q : Port => hidePort ps q (s.onPort p f).ports[q])
      = Vector.ofFn (fun q : Port => hidePort ps q s.ports[q]) := by
    congr 1
    funext q
    by_cases hq : q = p
    · subst hq; simpa [State.onPort] using key
    · have : ¬ p.val = q.val := fun e => hq (Fin.ext e.symm)
      simp [State.onPort, this]
  simp only [hide]
  rw [this]
  rfl

theorem hide_onBay {s : State} {b : BayNo} {f : Bay → Bay}
    (h1 : Part.afe b ∈ ps ∨ (f s.bays[b]).afe = s.bays[b].afe)
    (h2 : Part.rc b ∈ ps ∨ (f s.bays[b]).rc = s.bays[b].rc)
    (h3 : Part.dec b ∈ ps ∨ (f s.bays[b]).dec = s.bays[b].dec)
    (h4 : Part.wp b ∈ ps ∨ (f s.bays[b]).wp = s.bays[b].wp)
    (h5 : Part.srv b ∈ ps ∨ (f s.bays[b]).srv = s.bays[b].srv)
    (h6 : Part.spn b ∈ ps ∨ (f s.bays[b]).spn = s.bays[b].spn)
    (h7 : Part.sld b ∈ ps ∨ (f s.bays[b]).sld = s.bays[b].sld)
    (h8 : Part.seq b ∈ ps ∨ (f s.bays[b]).seq = s.bays[b].seq)
    (h9 : Part.held b ∈ ps ∨ ((f s.bays[b]).qHeld = s.bays[b].qHeld ∧ (f s.bays[b]).sHeld = s.bays[b].sHeld)) :
    hide ps (s.onBay b f) = hide ps s := by
  have key : hideBay ps b (f s.bays[b]) = hideBay ps b s.bays[b] := by
    simp only [hideBay, Bay.mk.injEq]
    exact ⟨orIte h1, orIte h2, orIte h3, orIte h4, orIte h5, orIte h6, orIte h7, orIte h8,
      orProj Bay.qHeld (h9.imp_right (·.1)), orProj Bay.sHeld (h9.imp_right (·.2))⟩
  have : Vector.ofFn (fun q : BayNo => hideBay ps q (s.onBay b f).bays[q])
      = Vector.ofFn (fun q : BayNo => hideBay ps q s.bays[q]) := by
    congr 1
    funext q
    by_cases hq : q = b
    · subst hq; simpa [State.onBay] using key
    · have : ¬ b.val = q.val := fun e => hq (Fin.ext e.symm)
      simp [State.onBay, this]
  simp only [hide]
  rw [this]
  rfl

theorem hide_onMem {s : State} {f : Memory → Memory} (h : Part.mem ∈ ps)
    (hd : Part.dram ∈ ps ∨ (f s.mem).cells = s.mem.cells) : hide ps (s.onMem f) = hide ps s := by
  have : hideMem ps (f s.mem) = hideMem ps s.mem := by rcases hd with hd | hd <;> simp [hideMem, h, hd]
  simp [hide, State.onMem, this]

theorem hide_onMem_cells {s : State} (g : Memory → List Host.Cell) (h : Part.dram ∈ ps) :
    hide ps (s.onMem (fun m => { m with cells := g m })) = hide ps s := by
  have : hideMem ps { s.mem with cells := g s.mem } = hideMem ps s.mem := by
    by_cases k : Part.mem ∈ ps <;> simp only [hideMem, h, k, if_true, if_false]
  simp [hide, State.onMem, this]

theorem hide_onPool {s : State} {f : Pool → Pool} (h : Part.pool ∈ ps) : hide ps (s.onPool f) = hide ps s := by
  simp [hide, State.onPool, h, hideMem]

theorem hide_onHnd {s : State} {f : Handler → Handler} (h : Part.hnd ∈ ps) : hide ps (s.onHnd f) = hide ps s := by
  simp [hide, State.onHnd, h, hideMem]

theorem hide_onStg {s : State} {f : Staging → Staging} (h : Part.stg ∈ ps) : hide ps (s.onStg f) = hide ps s := by
  simp [hide, State.onStg, h, hideMem]

theorem hide_onPair {s : State} {f : Pair → Pair} (h : Part.pair ∈ ps) : hide ps (s.onPair f) = hide ps s := by
  simp [hide, State.onPair, h, hideMem]

theorem hide_onFlash {s : State} {f : BootFlash → BootFlash} (h : Part.flash ∈ ps) : hide ps (s.onFlash f) = hide ps s := by
  simp [hide, State.onFlash, h, hideMem]

theorem hide_onAfe {s : State} {b : BayNo} {f : Afe → Afe} (h : Part.afe b ∈ ps) :
    hide ps (s.onAfe b f) = hide ps s := by
  simp only [State.onAfe]; exact hide_onBay (Or.inl h) (Or.inr rfl) (Or.inr rfl) (Or.inr rfl) (Or.inr rfl) (Or.inr rfl) (Or.inr rfl) (Or.inr rfl) (Or.inr ⟨rfl, rfl⟩)

theorem hide_onRc {s : State} {b : BayNo} {f : ReadChannel → ReadChannel} (h : Part.rc b ∈ ps) :
    hide ps (s.onRc b f) = hide ps s := by
  simp only [State.onRc]; exact hide_onBay (Or.inr rfl) (Or.inl h) (Or.inr rfl) (Or.inr rfl) (Or.inr rfl) (Or.inr rfl) (Or.inr rfl) (Or.inr rfl) (Or.inr ⟨rfl, rfl⟩)

theorem hide_onDec {s : State} {b : BayNo} {f : BayDecode → BayDecode} (h : Part.dec b ∈ ps) :
    hide ps (s.onDec b f) = hide ps s := by
  simp only [State.onDec]; exact hide_onBay (Or.inr rfl) (Or.inr rfl) (Or.inl h) (Or.inr rfl) (Or.inr rfl) (Or.inr rfl) (Or.inr rfl) (Or.inr rfl) (Or.inr ⟨rfl, rfl⟩)

theorem hide_onWp {s : State} {b : BayNo} {f : WritePath → WritePath} (h : Part.wp b ∈ ps) :
    hide ps (s.onWp b f) = hide ps s := by
  simp only [State.onWp]; exact hide_onBay (Or.inr rfl) (Or.inr rfl) (Or.inr rfl) (Or.inl h) (Or.inr rfl) (Or.inr rfl) (Or.inr rfl) (Or.inr rfl) (Or.inr ⟨rfl, rfl⟩)

theorem hide_onSrv {s : State} {b : BayNo} {f : Servo → Servo} (h : Part.srv b ∈ ps) :
    hide ps (s.onSrv b f) = hide ps s := by
  simp only [State.onSrv]; exact hide_onBay (Or.inr rfl) (Or.inr rfl) (Or.inr rfl) (Or.inr rfl) (Or.inl h) (Or.inr rfl) (Or.inr rfl) (Or.inr rfl) (Or.inr ⟨rfl, rfl⟩)

theorem hide_onSpn {s : State} {b : BayNo} {f : Spindle → Spindle} (h : Part.spn b ∈ ps) :
    hide ps (s.onSpn b f) = hide ps s := by
  simp only [State.onSpn]; exact hide_onBay (Or.inr rfl) (Or.inr rfl) (Or.inr rfl) (Or.inr rfl) (Or.inr rfl) (Or.inl h) (Or.inr rfl) (Or.inr rfl) (Or.inr ⟨rfl, rfl⟩)

theorem hide_onSld {s : State} {b : BayNo} {f : StepAxis → StepAxis} (h : Part.sld b ∈ ps) :
    hide ps (s.onSld b f) = hide ps s := by
  simp only [State.onSld]; exact hide_onBay (Or.inr rfl) (Or.inr rfl) (Or.inr rfl) (Or.inr rfl) (Or.inr rfl) (Or.inr rfl) (Or.inl h) (Or.inr rfl) (Or.inr ⟨rfl, rfl⟩)

theorem hide_onSeq {s : State} {b : BayNo} {f : Seq → Seq} (h : Part.seq b ∈ ps) :
    hide ps (s.onSeq b f) = hide ps s := by
  simp only [State.onSeq]; exact hide_onBay (Or.inr rfl) (Or.inr rfl) (Or.inr rfl) (Or.inr rfl) (Or.inr rfl) (Or.inr rfl) (Or.inr rfl) (Or.inl h) (Or.inr ⟨rfl, rfl⟩)

theorem hide_onLane {s : State} {b : BayNo} {l : Beam} {f : Lane → Lane} (h : Part.rc b ∈ ps) :
    hide ps (s.onLane b l f) = hide ps s := by
  simp only [State.onLane]; exact hide_onRc h

theorem hide_onDisc {s : State} {b : BayNo}  {f : Disc → Disc} (h : Part.seq b ∈ ps) :
    hide ps (s.onDisc b f) = hide ps s := by
  simp only [State.onDisc]; exact hide_onSeq h

theorem hide_onDecoder {s : State} {d : DecNo} {f : Decoder → Decoder} (h : Part.pool ∈ ps) : hide ps (s.onDecoder d f) = hide ps s := by
  simp only [State.onDecoder]; exact hide_onPool h

theorem hide_onAxis {s : State} {a : AxisNo} {f : StepAxis → StepAxis} (h : Part.hnd ∈ ps) : hide ps (s.onAxis a f) = hide ps s := by
  simp only [State.onAxis]; exact hide_onHnd h

theorem hide_onInput {s : State} {i : InputNo} {f : InputState → InputState} (h : Part.hnd ∈ ps) : hide ps (s.onInput i f) = hide ps s := by
  simp only [State.onInput]; exact hide_onHnd h

theorem hide_onCache {s : State}  {f : EngineCache → EngineCache} (h : Part.mem ∈ ps) : hide ps (s.onCache f) = hide ps s := by
  simp only [State.onCache]; exact hide_onMem h (Or.inr rfl)

theorem hide_onPoolB {s : State} {k : Fin 4} {f : BallastPool → BallastPool} (h : Part.mem ∈ ps) : hide ps (s.onPoolB k f) = hide ps s := by
  simp only [State.onPoolB]; exact hide_onMem h (Or.inr rfl)

theorem hide_onQueue {s : State} {p : Port} {q : QueueNo} {f : QueuePair → QueuePair} (h : Part.queues p ∈ ps) :
    hide ps (s.onQueue p q f) = hide ps s := by
  simp only [State.onQueue]; exact hide_onPort (Or.inl h) (Or.inr ⟨rfl, rfl, rfl, rfl⟩) (Or.inr ⟨rfl, rfl, rfl, rfl, rfl, rfl, rfl⟩) (Or.inr rfl) (Or.inr rfl) (Or.inr rfl)

theorem hide_onMbx {s : State} {p : Port}  {f : Mailbox → Mailbox} (h : Part.mbx p ∈ ps) :
    hide ps (s.onMbx p f) = hide ps s := by
  simp only [State.onMbx]; exact hide_onPort (Or.inr ⟨rfl, rfl, rfl, rfl⟩) (Or.inr ⟨rfl, rfl, rfl, rfl⟩) (Or.inr ⟨rfl, rfl, rfl, rfl, rfl, rfl, rfl⟩) (Or.inl h) (Or.inr rfl) (Or.inr rfl)

theorem hide_onRing {s : State} {p : Port}  {f : EvRing → EvRing} (h : Part.ring p ∈ ps) :
    hide ps (s.onRing p f) = hide ps s := by
  simp only [State.onRing]; exact hide_onPort (Or.inr ⟨rfl, rfl, rfl, rfl⟩) (Or.inr ⟨rfl, rfl, rfl, rfl⟩) (Or.inr ⟨rfl, rfl, rfl, rfl, rfl, rfl, rfl⟩) (Or.inr rfl) (Or.inl h) (Or.inr rfl)

theorem hide_onCmd {s : State} {c : CmdId} {f : Cmd → Cmd} (h : Part.cmds ∈ ps) : hide ps (s.onCmd c f) = hide ps s := by
  simp [hide, State.onCmd, h]

theorem hide_onVol {s : State} {v : VolId} {f : Volume → Volume} (h : Part.vols ∈ ps) : hide ps (s.onVol v f) = hide ps s := by
  simp [hide, State.onVol, h]

theorem hide_emit {s : State} {o : Output} (h : Part.out ∈ ps) : hide ps (s.emit o) = hide ps s := by
  simp [hide, State.emit, h]

theorem hide_setBridle {s : State} {x : Vector BridleCell 64} (h : Part.bridle ∈ ps) :
    hide ps { s with bridle := x } = hide ps s := by
  simp [hide, h]

theorem hide_setCmds {s : State} {x : List Cmd} (h : Part.cmds ∈ ps) : hide ps { s with cmds := x } = hide ps s := by
  simp [hide, h]

theorem hide_setVols {s : State} {x : List Volume} (h : Part.vols ∈ ps) : hide ps { s with vols := x } = hide ps s := by
  simp [hide, h]

theorem hide_setParams {s : State} {x : Params} (h : Part.params ∈ ps) : hide ps { s with params := x } = hide ps s := by
  simp [hide, h]

theorem hide_setStg {s : State} {x : Staging} (h : Part.stg ∈ ps) : hide ps { s with stg := x } = hide ps s := by
  simp [hide, h]

theorem hide_setTie {s : State} {x : Port} (h : Part.bridle ∈ ps) : hide ps { s with bridleTie := x } = hide ps s := by
  simp [hide, h]

theorem hide_onCell {s : State} {c : Fin 64} {f : BridleCell → BridleCell} (h : Part.bridle ∈ ps) :
    hide ps (s.onCell c f) = hide ps s := by
  simp [hide, State.onCell, h]

end Sys2Proof.Laws
end

