-- ==== Sys2Proof/Laws/HideOps.lean ====
section
/-! SUPPORT. What each shared operation of events, queues, mailboxes, bays, the handler and the resets may write. -/

namespace Sys2Proof.Laws

set_option Elab.async false

open Sys2Proof Sys2Proof.Machine Sys2Proof.Safety

variable {ps : List Part}

/-! ### Ops -/

theorem hide_writeSlot {s : State} {k : Fin 2} {x : Slot} (h0 : Part.sys ∈ ps) (h1 : Part.flash ∈ ps) :
    hide ps (State.writeSlot s k x) = hide ps s := by
  simp only [State.writeSlot, hide_onSys, hide_onFlash, or_true, h0, h1]

/-! ### Events -/

theorem hide_tailEvent {s : State} {a1 : Ev} (h0 : ∀ x, Part.srv x ∈ ps) :
    hide ps (State.tailEvent s a1) = hide ps s := by
  unfold State.tailEvent
  repeat' split
  all_goals simp only [hide_onSrv, h0]

theorem hide_raiseAt {s : State} {e : Ev} {sev : Severity} {fs : List PField} (h0 : Part.raised ∈ ps) (h1 : ∀ x,
    Part.alarm x ∈ ps) (h2 : ∀ x, Part.srv x ∈ ps) :
    hide ps (State.raiseAt s e sev fs) = hide ps s := by
  simp only [State.raiseAt, hide_tailEvent, hide_onEv, hide_eachPort, hide_onPort, ite_self, true_or, or_true, and_self,
      implies_true, hide_ite, h0, h1, h2]

theorem hide_raise {s : State} {e : Ev} {fs : List PField} (h0 : Part.raised ∈ ps) (h1 : ∀ x, Part.alarm x ∈ ps)
    (h2 : ∀ x, Part.srv x ∈ ps) :
    hide ps (State.raise s e fs) = hide ps s := by
  simp only [State.raise, hide_raiseAt, implies_true, h0, h1, h2]

theorem hide_raiseBay {s : State} {b : BayNo} {e : BayEvent} {fs : List PField} (h0 : Part.raised ∈ ps) (h1 : ∀ x,
    Part.alarm x ∈ ps) (h2 : Part.srv b ∈ ps) :
    hide ps (State.raiseBay s b e fs) = hide ps s := by
  simp only [State.raiseBay, State.raise, State.raiseAt, State.tailEvent, hide_onEv, hide_onSrv, hide_onPort,
      hide_eachPort,
    hide_ite, ite_self, true_or, or_true, and_self, implies_true, h0, h1, h2]

theorem hide_raisePort {s : State} {p : Port} {e : PortEvent} {fs : List PField} (h0 : Part.raised ∈ ps) (h1 : ∀ x,
    Part.alarm x ∈ ps) :
    hide ps (State.raisePort s p e fs) = hide ps s := by
  simp only [State.raisePort, State.raise, State.raiseAt, State.tailEvent, hide_onEv, hide_onPort, hide_eachPort,
    hide_ite, ite_self, true_or, or_true, and_self, implies_true, h0, h1]

theorem hide_raiseNand {s : State} {c : ChanNo} {e : NandEvent} {fs : List PField} (h0 : Part.raised ∈ ps) (h1 : ∀ x,
    Part.alarm x ∈ ps) :
    hide ps (State.raiseNand s c e fs) = hide ps s := by
  simp only [State.raiseNand, State.raise, State.raiseAt, State.tailEvent, hide_onEv, hide_onPort, hide_eachPort,
    hide_ite, ite_self, true_or, or_true, and_self, implies_true, h0, h1]

theorem hide_raiseDev {s : State} {e : DevEvent} {fs : List PField} (h0 : Part.raised ∈ ps) (h1 : ∀ x, Part.alarm x ∈ ps)
    :
    hide ps (State.raiseDev s e fs) = hide ps s := by
  simp only [State.raiseDev, State.raise, State.raiseAt, State.tailEvent, hide_onEv, hide_onPort, hide_eachPort,
    hide_ite, ite_self, true_or, or_true, and_self, implies_true, h0, h1]

theorem hide_logRetry {s : State} {src : Nat} {kind : Fin 11} {persistent : Bool} {action : Nat} {identity : BitVec 64}
    (h0 : Part.retry ∈ ps) :
    hide ps (State.logRetry s src kind persistent action identity) = hide ps s := by
  simp only [State.logRetry, hide_onEv, true_or, or_true, and_self, h0]

theorem hide_testLoses {s : State} {code : Nat} {needs : Nat → Bool} (h0 : Part.ev ∈ ps) :
    hide ps (State.testLoses s code needs) = hide ps s := by
  simp only [State.testLoses, hide_onEv, ite_self, true_or, or_true, and_self, hide_ite, h0]

/-! ### HostOps -/

theorem hide_putFlit {s : State} {seq : BitVec 16} {f : TetherFlit} {replayed : Bool} (h0 : Part.pair ∈ ps)
    (h1 : Part.out ∈ ps) :
    hide ps (State.putFlit s seq f replayed) = hide ps s := by
  simp only [State.putFlit, hide_emit, hide_onPair, h0, h1]

theorem hide_pump {fuel : Nat} {a1 : State} (h0 : Part.pair ∈ ps) (h1 : Part.out ∈ ps) :
    hide ps (State.pump fuel a1) = hide ps a1 := by
  induction fuel generalizing a1 with
  | zero => rfl
  | succ n ih =>
    rw [State.pump]
    split
    · rfl
    · split
      · rfl
      · rw [ih, hide_putFlit (by assumption) (by assumption), hide_onPair (by assumption)]

theorem hide_pumpAll {s : State} (h0 : Part.pair ∈ ps) (h1 : Part.out ∈ ps) :
    hide ps (State.pumpAll s) = hide ps s := by
  simp only [State.pumpAll, hide_pump, ite_self, hide_ite, h0, h1]

theorem hide_sendAbout {s : State} {kind : Byte} {vid : VolId} {ucl : Nat} {dataSeq : Nat} {body : List Byte} {n : Nat}
    (h0 : Part.pair ∈ ps) (h1 : Part.out ∈ ps) :
    hide ps (State.sendAbout s kind vid ucl dataSeq body n) = hide ps s := by
  simp only [State.sendAbout, hide_pumpAll, hide_onPair, h0, h1]

theorem hide_send {s : State} {kind : Byte} {xs : List Nat} (h0 : Part.pair ∈ ps) (h1 : Part.out ∈ ps) :
    hide ps (State.send s kind xs) = hide ps s := by
  simp only [State.send, hide_sendAbout, h0, h1]

theorem hide_sendFirst {s : State} {kind : Byte} {payload : List Byte} (h0 : Part.pair ∈ ps) (h1 : Part.out ∈ ps) :
    hide ps (State.sendFirst s kind payload) = hide ps s := by
  simp only [State.sendFirst, hide_pumpAll, hide_onPair, h0, h1]

theorem hide_signal {s : State} {p : Port} {v : Fin 65} (h0 : Part.queues p ∈ ps) (h1 : Part.msix p ∈ ps)
    (h2 : Part.out ∈ ps) :
    hide ps (State.signal s p v) = hide ps s := by
  simp only [State.signal, hide_onPort, hide_emit, ite_self, true_or, or_true, or_self, and_self, hide_ite, h0, h1, h2]

theorem hide_sendPending {s : State} {p : Port} (h0 : Part.queues p ∈ ps) (h1 : Part.msix p ∈ ps) (h2 : Part.out ∈ ps) :
    hide ps (State.sendPending s p) = hide ps s := by
  exact hide_foldl _ (fun s v => by
    dsimp only
    split
    · simp only [hide_signal, hide_onPort, true_or, or_true, and_self, *]
    · rfl) _ s

theorem hide_signalQueue {s : State} {p : Port} {q : QueueNo} (h0 : Part.queues p ∈ ps) (h1 : Part.msix p ∈ ps)
    (h2 : Part.out ∈ ps) :
    hide ps (State.signalQueue s p q) = hide ps s := by
  simp only [State.signalQueue, hide_onQueue, hide_signal, h0, h1, h2]

theorem hide_writeRecord {s : State} {p : Port} {c : Completion} (h0 : Part.queues p ∈ ps) (h1 : Part.msix p ∈ ps)
    (h2 : Part.out ∈ ps) :
    hide ps (State.writeRecord s p c) = hide ps s := by
  simp only [State.writeRecord, hide_onQueue, hide_emit, hide_signalQueue, ite_self, hide_ite, h0, h1, h2]

theorem hide_post {s : State} {p : Port} {c : Completion} (h0 : Part.queues p ∈ ps) (h1 : Part.msix p ∈ ps)
    (h2 : Part.out ∈ ps) :
    hide ps (State.post s p c) = hide ps s := by
  simp only [State.post, hide_onPort, hide_writeRecord, ite_self, true_or, or_true, or_self, and_self, hide_ite, h0, h1,
      h2]

theorem hide_giveData {s : State} {c : CmdId} {xs : List (Nat × SectorData)} (h0 : Part.pair ∈ ps) (h1 : Part.out ∈ ps) :
    hide ps (State.giveData s c xs) = hide ps s := by
  simp only [State.giveData, hide_sendAbout, hide_emit, ite_self, hide_ite, h0, h1]

theorem hide_tagWrite {s : State} {c : Cmd} (h0 : Part.stg ∈ ps) :
    hide ps (State.tagWrite s c) = hide ps s := by
  simp only [State.tagWrite, hide_onStg, h0]

theorem hide_complete {s : State} {id : CmdId} {status : Byte} {result : BitVec 64} (h0 : ∀ x, Part.queues x ∈ ps)
    (h1 : ∀ x, Part.msix x ∈ ps) (h2 : Part.cmds ∈ ps) (h3 : Part.stg ∈ ps) (h4 : Part.pair ∈ ps) (h5 : Part.out ∈ ps) :
    hide ps (State.complete s id status result) = hide ps s := by
  unfold State.complete
  repeat' split
  all_goals simp only [hide_tagWrite, hide_send, hide_post, hide_setCmds, h0, h1, h2, h3, h4, h5]

theorem hide_setWait {s : State} {id : CmdId} {w : CmdWait} (h0 : Part.cmds ∈ ps) :
    hide ps (State.setWait s id w) = hide ps s := by
  simp only [State.setWait, hide_onCmd, h0]

theorem hide_start {s : State} {id : CmdId} (h0 : Part.cmds ∈ ps) :
    hide ps (State.start s id) = hide ps s := by
  simp only [State.start, hide_onCmd, h0]

theorem hide_postResponse {s : State} {p : Port} {rsp : BitVec 512} (h0 : Part.queues p ∈ ps) (h1 : Part.msix p ∈ ps)
    (h2 : Part.mbx p ∈ ps) (h3 : Part.out ∈ ps) :
    hide ps (State.postResponse s p rsp) = hide ps s := by
  simp only [State.postResponse, hide_signal, hide_onMbx, h0, h1, h2, h3]

theorem hide_respond {s : State} {p : Port} {status : Byte} {results : List Byte} {buf : List Byte}
    (h0 : Part.queues p ∈ ps) (h1 : Part.msix p ∈ ps) (h2 : Part.mbx p ∈ ps) (h3 : Part.out ∈ ps) :
    hide ps (State.respond s p status results buf) = hide ps s := by
  simp only [State.respond, hide_emit, hide_postResponse, ite_self, hide_ite, h0, h1, h2, h3]

theorem hide_respondRun {s : State} {p : Port} {status : Byte} {results : List Byte} (h0 : Part.queues p ∈ ps)
    (h1 : Part.msix p ∈ ps) (h2 : Part.mbx p ∈ ps) (h3 : Part.out ∈ ps) :
    hide ps (State.respondRun s p status results) = hide ps s := by
  unfold State.respondRun
  repeat' split
  all_goals simp only [hide_onMbx, hide_postResponse, h0, h1, h2, h3]

theorem hide_beginRun {s : State} {p : Port} {w : MbxWait} (h0 : Part.mbx p ∈ ps) :
    hide ps (State.beginRun s p w) = hide ps s := by
  simp only [State.beginRun, hide_onMbx, h0]

theorem hide_serve {s : State} {p : Port} {opcode : Nat} {want : BitVec 512 → Bool} {body : State → BitVec 512 → State}
    (h0 : Part.sys ∈ ps) (h1 : Part.queues p ∈ ps) (h2 : Part.msix p ∈ ps) (h3 : Part.mbx p ∈ ps) (h4 : Part.out ∈ ps)
    (hb : ∀ t q, hide ps (body t q) = hide ps t) :
    hide ps (State.serve s p opcode want body) = hide ps s := by
  unfold State.serve
  dsimp only
  repeat' split
  all_goals simp only [hide_onSys, hide_onMbx, hide_respond, or_true, *]

/-! ### Ballast -/

theorem hide_freeBufs {s : State} {p : Fin 4} {is : List Nat} (h0 : Part.mem ∈ ps) :
    hide ps (State.freeBufs s p is) = hide ps s := by
  simp only [State.freeBufs, hide_onPoolB, h0]

theorem hide_applyRetired {s : State} {page : Nat} (h0 : Part.mem ∈ ps) :
    hide ps (State.applyRetired s page) = hide ps s := by
  simp only [State.applyRetired, hide_onPoolB, hide_foldl, implies_true, h0]

theorem hide_ballastLow {s : State} {p : Fin 4} {o : Fin 12} (h0 : Part.raised ∈ ps) (h1 : ∀ x, Part.alarm x ∈ ps)
    (h2 : Part.mem ∈ ps) :
    hide ps (State.ballastLow s p o) = hide ps s := by
  simp only [State.ballastLow, hide_raiseDev, hide_onPoolB, ite_self, implies_true, hide_ite, h0, h1, h2]

theorem hide_ballastTake {s : State} {o : Fin 12} {size : Nat} (h0 : Part.raised ∈ ps) (h1 : ∀ x, Part.alarm x ∈ ps)
    (h2 : Part.mem ∈ ps) :
    hide ps (State.ballastTake s o size).1 = hide ps s := by
  unfold State.ballastTake
  dsimp only
  repeat' split
  all_goals simp only [hide_ballastLow, hide_onPoolB, implies_true, h0, h1, h2]

theorem hide_ballastRefuse {s : State} {cause : Nat} {o : Fin 12} {h : BitVec 32} (h0 : Part.raised ∈ ps) (h1 : ∀ x,
    Part.alarm x ∈ ps) :
    hide ps (State.ballastRefuse s cause o h) = hide ps s := by
  simp only [State.ballastRefuse, hide_raiseDev, implies_true, h0, h1]

theorem hide_ballastGive {s : State} {o : Fin 12} {h : BitVec 32} (h0 : Part.raised ∈ ps) (h1 : ∀ x, Part.alarm x ∈ ps)
    (h2 : Part.mem ∈ ps) :
    hide ps (State.ballastGive s o h) = hide ps s := by
  unfold State.ballastGive
  dsimp only
  repeat' split
  all_goals simp only [hide_ballastRefuse, hide_freeBufs, implies_true, h0, h1, h2]

theorem hide_ballastPassTo {s : State} {o : Fin 12} {h : BitVec 32} {newOwner : Fin 12} (h0 : Part.raised ∈ ps)
    (h1 : ∀ x, Part.alarm x ∈ ps) (h2 : Part.mem ∈ ps) :
    hide ps (State.ballastPassTo s o h newOwner) = hide ps s := by
  unfold State.ballastPassTo
  dsimp only
  repeat' split
  all_goals simp only [hide_ballastRefuse, hide_onPoolB, implies_true, h0, h1, h2]

theorem hide_takeAll {s : State} {o : Fin 12} {sizes : List Nat} (h0 : Part.raised ∈ ps) (h1 : ∀ x, Part.alarm x ∈ ps)
    (h2 : Part.mem ∈ ps) :
    hide ps (State.takeAll s o sizes).1 = hide ps s := by
  suffices hs : ∀ (l : List Nat) (acc : State × Option (List (BitVec 32))),
      hide ps (l.foldl (fun (acc : State × Option (List (BitVec 32))) n =>
        match acc.2 with
        | none => acc
        | some hs => match acc.1.ballastTake o n with
          | (t, some h) => (t, some (hs ++ [h]))
          | (t, none) => (hs.foldl (fun u h => u.ballastGive o h) t, none)) acc).1 = hide ps acc.1 from hs sizes _
  intro l
  induction l with
  | nil => intro acc; rfl
  | cons n rest ih =>
    intro acc
    rw [List.foldl_cons, ih]
    split
    · rfl
    · split
      · rename_i h
        obtain rfl := congrArg Prod.fst h
        simp only [hide_ballastTake, implies_true, h0, h1, h2]
      · rename_i h
        obtain rfl := congrArg Prod.fst h
        simp only [hide_ballastTake, hide_ballastGive, hide_foldl, implies_true, h0, h1, h2]

theorem hide_giveAll {s : State} {o : Fin 12} {hs : List (BitVec 32)} (h0 : Part.raised ∈ ps) (h1 : ∀ x,
    Part.alarm x ∈ ps) (h2 : Part.mem ∈ ps) :
    hide ps (State.giveAll s o hs) = hide ps s := by
  simp only [State.giveAll, hide_ballastGive, hide_foldl, implies_true, h0, h1, h2]

theorem hide_passAll {s : State} {o : Fin 12} {hs : List (BitVec 32)} {newOwner : Fin 12} (h0 : Part.raised ∈ ps)
    (h1 : ∀ x, Part.alarm x ∈ ps) (h2 : Part.mem ∈ ps) :
    hide ps (State.passAll s o hs newOwner) = hide ps s := by
  simp only [State.passAll, hide_ballastPassTo, hide_foldl, implies_true, h0, h1, h2]

/-! ### WriteData -/

theorem hide_sendPulses {s : State} {b : BayNo} {r : WriteRun} {p : Int} {q : Int} (h0 : Part.wp b ∈ ps)
    (h1 : Part.out ∈ ps) :
    hide ps (State.sendPulses s b r p q) = hide ps s := by
  simp only [State.sendPulses, hide_onWp, hide_emit, ite_self, hide_ite, h0, h1]

theorem hide_busToSpace {s : State} {b : BayNo} {p : Int} (h0 : Part.wp b ∈ ps) (h1 : Part.out ∈ ps) :
    hide ps (State.busToSpace s b p) = hide ps s := by
  simp only [State.busToSpace, hide_onWp, hide_emit, h0, h1]

/-! ### BayOps -/

theorem hide_selectLane {s : State} {b : BayNo} {l : Beam} {relief : Bool} {erase : Bool} (h0 : Part.afe b ∈ ps)
    (h1 : Part.rc b ∈ ps) :
    hide ps (State.selectLane s b l relief erase) = hide ps s := by
  simp only [State.selectLane, hide_onLane, hide_onAfe, h0, h1]

theorem hide_abortCal {s : State} {b : BayNo} (h0 : Part.raised ∈ ps) (h1 : ∀ x, Part.alarm x ∈ ps)
    (h2 : Part.afe b ∈ ps) (h3 : Part.rc b ∈ ps) (h4 : Part.srv b ∈ ps) :
    hide ps (State.abortCal s b) = hide ps s := by
  unfold State.abortCal
  dsimp only
  repeat' split
  all_goals simp only [hide_onAfe, hide_selectLane, hide_raiseBay, implies_true, h0, h1, h2, h3, h4]

theorem hide_setBaySt {s : State} {b : BayNo} {new : BaySt} {row : Nat} (h0 : Part.sys ∈ ps) (h1 : Part.raised ∈ ps)
    (h2 : ∀ x, Part.alarm x ∈ ps) (h3 : Part.afe b ∈ ps) (h4 : Part.rc b ∈ ps) (h5 : Part.wp b ∈ ps)
    (h6 : Part.srv b ∈ ps) (h7 : Part.seq b ∈ ps) (h8 : Part.pair ∈ ps) (h9 : Part.out ∈ ps) :
    hide ps (State.setBaySt s b new row) = hide ps s := by
  simp only [State.setBaySt, hide_abortCal, hide_raiseBay, hide_onBay, hide_onSys, hide_send, ite_self, true_or, or_true,
      or_self, and_self, implies_true, hide_ite, h0, h1, h2, h3, h4, h5, h6, h7, h8, h9]

theorem hide_noteUnverified {s : State} {b : BayNo} {was : Nat} (h0 : Part.raised ∈ ps) (h1 : ∀ x, Part.alarm x ∈ ps)
    (h2 : Part.srv b ∈ ps) :
    hide ps (State.noteUnverified s b was) = hide ps s := by
  simp only [State.noteUnverified, hide_raiseBay, ite_self, implies_true, hide_ite, h0, h1, h2]

theorem hide_dropEntries {s : State} {b : BayNo} {which : Entry → Bool} (h0 : Part.raised ∈ ps) (h1 : ∀ x,
    Part.alarm x ∈ ps) (h2 : Part.dec b ∈ ps) (h3 : Part.seq b ∈ ps) (h4 : Part.pool ∈ ps) (h5 : Part.mem ∈ ps) :
    hide ps (State.dropEntries s b which) = hide ps s := by
  simp only [State.dropEntries, hide_giveAll, hide_onPool, hide_onBay, true_or, or_true, and_self, implies_true, h0, h1,
      h2, h3, h4, h5]

theorem hide_dropVerify {s : State} {b : BayNo} (h0 : Part.raised ∈ ps) (h1 : ∀ x, Part.alarm x ∈ ps)
    (h2 : Part.dec b ∈ ps) (h3 : Part.seq b ∈ ps) (h4 : Part.pool ∈ ps) (h5 : Part.mem ∈ ps) :
    hide ps (State.dropVerify s b) = hide ps s := by
  simp only [State.dropVerify, hide_dropEntries, implies_true, h0, h1, h2, h3, h4, h5]

theorem hide_dropScan {s : State} {b : BayNo} (h0 : Part.raised ∈ ps) (h1 : ∀ x, Part.alarm x ∈ ps)
    (h2 : Part.dec b ∈ ps) (h3 : Part.seq b ∈ ps) (h4 : Part.pool ∈ ps) (h5 : Part.mem ∈ ps) :
    hide ps (State.dropScan s b) = hide ps s := by
  simp only [State.dropScan, hide_onSeq, hide_dropEntries, implies_true, h0, h1, h2, h3, h4, h5]

theorem hide_freeRun {s : State} {b : BayNo} (h0 : Part.raised ∈ ps) (h1 : ∀ x, Part.alarm x ∈ ps) (h2 : Part.wp b ∈ ps)
    (h3 : Part.mem ∈ ps) :
    hide ps (State.freeRun s b) = hide ps s := by
  unfold State.freeRun
  repeat' split
  all_goals simp only [hide_giveAll, hide_onWp, implies_true, h0, h1, h2, h3]

theorem hide_cutGate {s : State} {b : BayNo} {cause : CutCause} (h0 : Part.raised ∈ ps) (h1 : Part.fwq ∈ ps) (h2 : ∀ x,
    Part.alarm x ∈ ps) (h3 : Part.dec b ∈ ps) (h4 : Part.wp b ∈ ps) (h5 : Part.srv b ∈ ps) (h6 : Part.seq b ∈ ps)
    (h7 : Part.pool ∈ ps) (h8 : Part.mem ∈ ps) (h9 : Part.out ∈ ps) :
    hide ps (State.cutGate s b cause) = hide ps s := by
  have hj : ∀ src bit now, hide ps (s.onEv (fun v => v.joinCut src bit now)) = hide ps s := fun src bit now =>
    hide_onEv (Or.inl (by assumption)) (Or.inl (by assumption)) (Or.inr ⟨rfl, rfl, rfl⟩)
      (Or.inr ⟨rfl, rfl, rfl, rfl, rfl, rfl, rfl, rfl, rfl, rfl, rfl⟩)
  unfold State.cutGate
  dsimp only
  repeat' split
  all_goals first | with_reducible rfl | simp only [hj, hide_onWp, hide_onSeq, hide_busToSpace, hide_freeRun,
      hide_dropVerify, hide_noteUnverified, hide_raiseBay, implies_true, h0, h2, h3, h4, h5, h6, h7, h8, h9]

theorem hide_cutAll {s : State} {cause : CutCause} (h0 : Part.raised ∈ ps) (h1 : Part.fwq ∈ ps) (h2 : ∀ x,
    Part.alarm x ∈ ps) (h3 : ∀ x, Part.dec x ∈ ps) (h4 : ∀ x, Part.wp x ∈ ps) (h5 : ∀ x, Part.srv x ∈ ps) (h6 : ∀ x,
    Part.seq x ∈ ps) (h7 : Part.pool ∈ ps) (h8 : Part.mem ∈ ps) (h9 : Part.out ∈ ps) :
    hide ps (State.cutAll s cause) = hide ps s := by
  simp only [State.cutAll, hide_eachBay, hide_cutGate, implies_true, h0, h1, h2, h3, h4, h5, h6, h7, h8, h9]

theorem hide_stopWriting {s : State} {b : BayNo} (h0 : Part.raised ∈ ps) (h1 : ∀ x, Part.alarm x ∈ ps)
    (h2 : Part.dec b ∈ ps) (h3 : Part.wp b ∈ ps) (h4 : Part.srv b ∈ ps) (h5 : Part.seq b ∈ ps) (h6 : Part.pool ∈ ps)
    (h7 : Part.mem ∈ ps) (h8 : Part.out ∈ ps) :
    hide ps (State.stopWriting s b) = hide ps s := by
  unfold State.stopWriting
  dsimp only
  repeat' split
  all_goals simp only [hide_onWp, hide_freeRun, hide_busToSpace, hide_sendPulses, hide_dropVerify, hide_noteUnverified,
      implies_true, h0, h1, h2, h3, h4, h5, h6, h7, h8]

theorem hide_parkFocus {s : State} {b : BayNo} (h0 : Part.srv b ∈ ps) :
    hide ps (State.parkFocus s b) = hide ps s := by
  simp only [State.parkFocus, hide_onSrv, h0]

theorem hide_drogue {s : State} {b : BayNo} (h0 : Part.raised ∈ ps) (h1 : ∀ x, Part.alarm x ∈ ps) (h2 : Part.srv b ∈ ps)
    (h3 : Part.spn b ∈ ps) :
    hide ps (State.drogue s b) = hide ps s := by
  simp only [State.drogue, hide_raiseBay, hide_onSpn, implies_true, h0, h1, h2, h3]

theorem hide_coastLevel {s : State} {b : BayNo} {cause : Nat} (h0 : Part.raised ∈ ps) (h1 : ∀ x, Part.alarm x ∈ ps)
    (h2 : Part.srv b ∈ ps) (h3 : Part.spn b ∈ ps) :
    hide ps (State.coastLevel s b cause) = hide ps s := by
  simp only [State.coastLevel, hide_raiseBay, hide_onSpn, implies_true, h0, h1, h2, h3]

theorem hide_invalidateTables {s : State} {b : BayNo} {reason : Nat} (h0 : Part.raised ∈ ps) (h1 : ∀ x,
    Part.alarm x ∈ ps) (h2 : Part.srv b ∈ ps) :
    hide ps (State.invalidateTables s b reason) = hide ps s := by
  simp only [State.invalidateTables, hide_raiseBay, hide_onSrv, ite_self, implies_true, hide_ite, h0, h1, h2]

theorem hide_faultBay {s : State} {b : BayNo} {cause : FaultCause} (h0 : Part.sys ∈ ps) (h1 : Part.raised ∈ ps)
    (h2 : Part.fwq ∈ ps) (h3 : ∀ x, Part.alarm x ∈ ps) (h4 : Part.afe b ∈ ps) (h5 : Part.rc b ∈ ps)
    (h6 : Part.dec b ∈ ps) (h7 : Part.wp b ∈ ps) (h8 : Part.srv b ∈ ps) (h9 : Part.spn b ∈ ps) (h10 : Part.sld b ∈ ps)
    (h11 : Part.seq b ∈ ps) (h12 : Part.pool ∈ ps) (h13 : Part.mem ∈ ps) (h14 : Part.pair ∈ ps) (h15 : Part.out ∈ ps) :
    hide ps (State.faultBay s b cause) = hide ps s := by
  simp only [State.faultBay, hide_parkFocus, hide_abortCal, hide_dropScan, hide_freeRun, hide_cutGate, hide_onBay,
      hide_raiseBay, hide_setBaySt, ite_self, true_or, or_true, or_self, and_self, implies_true, hide_ite, h0, h1, h2,
      h3, h4, h5, h6, h7, h8, h9, h10, h11, h12, h13, h14, h15]

/-! ### HandlerOps -/

theorem hide_startPath {s : State} {x : Int} {z : Int} {theta : Int} {fromRest : Bool} (h0 : Part.hnd ∈ ps) :
    hide ps (State.startPath s x z theta fromRest) = hide ps s := by
  simp only [State.startPath, hide_onHnd, h0]

theorem hide_startAxis {s : State} {a : AxisNo} {t : Int} (h0 : Part.hnd ∈ ps) :
    hide ps (State.startAxis s a t) = hide ps s := by
  simp only [State.startAxis, hide_onAxis, h0]

theorem hide_startHoming {s : State} (h0 : Part.hnd ∈ ps) :
    hide ps (State.startHoming s) = hide ps s := by
  unfold State.startHoming
  repeat' split
  all_goals simp only [hide_onAxis, h0]

theorem hide_setLoc {s : State} {c : BitVec 16} {st : LocState} (h0 : Part.hnd ∈ ps) (h1 : Part.pair ∈ ps)
    (h2 : Part.out ∈ ps) :
    hide ps (State.setLoc s c st) = hide ps s := by
  simp only [State.setLoc, hide_onHnd, hide_send, ite_self, hide_ite, h0, h1, h2]

theorem hide_answerRun {s : State} {p : Port} {status : Byte} (h0 : Part.queues p ∈ ps) (h1 : Part.msix p ∈ ps)
    (h2 : Part.mbx p ∈ ps) (h3 : Part.out ∈ ps) :
    hide ps (State.answerRun s p status) = hide ps s := by
  simp only [State.answerRun, hide_respondRun, hide_onMbx, ite_self, hide_ite, h0, h1, h2, h3]

theorem hide_endWaiters {s : State} {slot : BitVec 16} {w : CmdWait} {status : Byte} (h0 : ∀ x, Part.queues x ∈ ps)
    (h1 : ∀ x, Part.msix x ∈ ps) (h2 : Part.cmds ∈ ps) (h3 : Part.stg ∈ ps) (h4 : Part.pair ∈ ps) (h5 : Part.out ∈ ps) :
    hide ps (State.endWaiters s slot w status) = hide ps s := by
  exact hide_foldl _ (fun s c => by simp only [hide_complete, implies_true, *]) _ s

theorem hide_orderEnded {s : State} {src : BitVec 16} {dst : BitVec 16} {status : Byte} (h0 : ∀ x, Part.queues x ∈ ps)
    (h1 : ∀ x, Part.msix x ∈ ps) (h2 : Part.cmds ∈ ps) (h3 : Part.stg ∈ ps) (h4 : Part.pair ∈ ps) (h5 : Part.out ∈ ps) :
    hide ps (State.orderEnded s src dst status) = hide ps s := by
  simp only [State.orderEnded, hide_endWaiters, ite_self, implies_true, hide_ite, h0, h1, h2, h3, h4, h5]

theorem hide_endMove {s : State} {status : Byte} (h0 : Part.sys ∈ ps) (h1 : Part.raised ∈ ps) (h2 : ∀ x,
    Part.queues x ∈ ps) (h3 : ∀ x, Part.msix x ∈ ps) (h4 : ∀ x, Part.mbx x ∈ ps) (h5 : ∀ x, Part.alarm x ∈ ps)
    (h6 : Part.cmds ∈ ps) (h7 : ∀ x, Part.afe x ∈ ps) (h8 : ∀ x, Part.rc x ∈ ps) (h9 : ∀ x, Part.wp x ∈ ps) (h10 : ∀ x,
    Part.srv x ∈ ps) (h11 : ∀ x, Part.seq x ∈ ps) (h12 : Part.hnd ∈ ps) (h13 : Part.stg ∈ ps) (h14 : Part.pair ∈ ps)
    (h15 : Part.out ∈ ps) :
    hide ps (State.endMove s status) = hide ps s := by
  unfold State.endMove
  repeat' split
  all_goals simp only [hide_onHnd, hide_raiseDev, hide_setBaySt, hide_send, hide_answerRun, hide_orderEnded, ite_self,
      implies_true, hide_ite, h0, h1, h2, h3, h4, h5, h6, h7, h8, h9, h10, h11, h12, h13, h14, h15]

theorem hide_dropOwn {s : State} (h0 : Part.sys ∈ ps) (h1 : Part.raised ∈ ps) (h2 : ∀ x, Part.queues x ∈ ps) (h3 : ∀ x,
    Part.msix x ∈ ps) (h4 : ∀ x, Part.mbx x ∈ ps) (h5 : ∀ x, Part.alarm x ∈ ps) (h6 : Part.cmds ∈ ps) (h7 : ∀ x,
    Part.afe x ∈ ps) (h8 : ∀ x, Part.rc x ∈ ps) (h9 : ∀ x, Part.wp x ∈ ps) (h10 : ∀ x, Part.srv x ∈ ps) (h11 : ∀ x,
    Part.seq x ∈ ps) (h12 : Part.hnd ∈ ps) (h13 : Part.stg ∈ ps) (h14 : Part.pair ∈ ps) (h15 : Part.out ∈ ps) :
    hide ps (State.dropOwn s) = hide ps s := by
  simp only [State.dropOwn, hide_onHnd, hide_endMove, hide_raiseDev, ite_self, implies_true, hide_ite, h0, h1, h2, h3,
      h4, h5, h6, h7, h8, h9, h10, h11, h12, h13, h14, h15]

theorem hide_releaseWithPeerOk {s : State} (h0 : Part.sys ∈ ps) (h1 : Part.raised ∈ ps) (h2 : ∀ x, Part.queues x ∈ ps)
    (h3 : ∀ x, Part.msix x ∈ ps) (h4 : ∀ x, Part.mbx x ∈ ps) (h5 : ∀ x, Part.alarm x ∈ ps) (h6 : Part.cmds ∈ ps)
    (h7 : ∀ x, Part.afe x ∈ ps) (h8 : ∀ x, Part.rc x ∈ ps) (h9 : ∀ x, Part.wp x ∈ ps) (h10 : ∀ x, Part.srv x ∈ ps)
    (h11 : ∀ x, Part.seq x ∈ ps) (h12 : Part.hnd ∈ ps) (h13 : Part.stg ∈ ps) (h14 : Part.pair ∈ ps) (h15 : Part.out ∈ ps)
    :
    hide ps (State.releaseWithPeerOk s) = hide ps s := by
  simp only [State.releaseWithPeerOk, hide_dropOwn, hide_onHnd, ite_self, implies_true, hide_ite, h0, h1, h2, h3, h4, h5,
      h6, h7, h8, h9, h10, h11, h12, h13, h14, h15]

/-! ### Modes -/

theorem hide_drivePeerOk {s : State} (h0 : Part.sys ∈ ps) (h1 : Part.raised ∈ ps) (h2 : ∀ x, Part.queues x ∈ ps)
    (h3 : ∀ x, Part.msix x ∈ ps) (h4 : ∀ x, Part.mbx x ∈ ps) (h5 : ∀ x, Part.alarm x ∈ ps) (h6 : Part.cmds ∈ ps)
    (h7 : ∀ x, Part.afe x ∈ ps) (h8 : ∀ x, Part.rc x ∈ ps) (h9 : ∀ x, Part.wp x ∈ ps) (h10 : ∀ x, Part.srv x ∈ ps)
    (h11 : ∀ x, Part.seq x ∈ ps) (h12 : Part.hnd ∈ ps) (h13 : Part.stg ∈ ps) (h14 : Part.pair ∈ ps) (h15 : Part.out ∈ ps)
    :
    hide ps (State.drivePeerOk s) = hide ps s := by
  simp only [State.drivePeerOk, hide_releaseWithPeerOk, hide_onPair, ite_self, implies_true, hide_ite, h0, h1, h2, h3,
      h4, h5, h6, h7, h8, h9, h10, h11, h12, h13, h14, h15]

theorem hide_abandonDiag {s : State} (h0 : Part.ev ∈ ps) :
    hide ps (State.abandonDiag s) = hide ps s := by
  simp only [State.abandonDiag, hide_onEv, ite_self, true_or, or_true, and_self, hide_ite, h0]

theorem hide_setMode {s : State} {m : Mode} (h0 : Part.mode ∈ ps) (h1 : Part.sys ∈ ps) (h2 : Part.raised ∈ ps)
    (h3 : Part.ev ∈ ps) (h4 : ∀ x, Part.queues x ∈ ps) (h5 : ∀ x, Part.msix x ∈ ps) (h6 : ∀ x, Part.mbx x ∈ ps)
    (h7 : ∀ x, Part.alarm x ∈ ps) (h8 : Part.cmds ∈ ps) (h9 : ∀ x, Part.afe x ∈ ps) (h10 : ∀ x, Part.rc x ∈ ps)
    (h11 : ∀ x, Part.wp x ∈ ps) (h12 : ∀ x, Part.srv x ∈ ps) (h13 : ∀ x, Part.seq x ∈ ps) (h14 : Part.hnd ∈ ps)
    (h15 : Part.stg ∈ ps) (h16 : Part.pair ∈ ps) (h17 : Part.out ∈ ps) :
    hide ps (State.setMode s m) = hide ps s := by
  simp only [State.setMode, hide_abandonDiag, hide_drivePeerOk, hide_onSys, ite_self, true_or, or_true, implies_true,
      hide_ite, h0, h1, h2, h3, h4, h5, h6, h7, h8, h9, h10, h11, h12, h13, h14, h15, h16, h17]

theorem hide_ripcordBay {cause : RipcordCause} {s : State} {b : BayNo} (h0 : Part.raised ∈ ps) (h1 : ∀ x,
    Part.alarm x ∈ ps) (h2 : Part.afe b ∈ ps) (h3 : Part.rc b ∈ ps) (h4 : Part.wp b ∈ ps) (h5 : Part.srv b ∈ ps)
    (h6 : Part.spn b ∈ ps) (h7 : Part.sld b ∈ ps) :
    hide ps (State.ripcordBay cause s b) = hide ps s := by
  unfold State.ripcordBay
  repeat' split
  all_goals simp only [hide_onBay, hide_invalidateTables, hide_parkFocus, hide_abortCal, hide_coastLevel, hide_onSpn,
      hide_drogue, true_or, or_true, or_self, and_self, implies_true, h0, h1, h2, h3, h4, h5, h6, h7]

theorem hide_enterRipcord {s : State} (h0 : Part.mode ∈ ps) (h1 : Part.sys ∈ ps) (h2 : Part.raised ∈ ps)
    (h3 : Part.ev ∈ ps) (h4 : ∀ x, Part.queues x ∈ ps) (h5 : ∀ x, Part.msix x ∈ ps) (h6 : ∀ x, Part.mbx x ∈ ps)
    (h7 : ∀ x, Part.alarm x ∈ ps) (h8 : Part.cmds ∈ ps) (h9 : ∀ x, Part.afe x ∈ ps) (h10 : ∀ x, Part.rc x ∈ ps)
    (h11 : ∀ x, Part.wp x ∈ ps) (h12 : ∀ x, Part.srv x ∈ ps) (h13 : ∀ x, Part.seq x ∈ ps) (h14 : Part.hnd ∈ ps)
    (h15 : Part.stg ∈ ps) (h16 : Part.pair ∈ ps) (h17 : Part.out ∈ ps) :
    hide ps (State.enterRipcord s) = hide ps s := by
  simp only [State.enterRipcord, hide_setMode, hide_abandonDiag, hide_onHnd, hide_eachPort, hide_respondRun,
      implies_true, h0, h1, h2, h3, h4, h5, h6, h7, h8, h9, h10, h11, h12, h13, h14, h15, h16, h17]

theorem hide_ripcord {s : State} {cause : RipcordCause} (h0 : Part.mode ∈ ps) (h1 : Part.sys ∈ ps)
    (h2 : Part.raised ∈ ps) (h3 : Part.fwq ∈ ps) (h4 : Part.ev ∈ ps) (h5 : ∀ x, Part.queues x ∈ ps) (h6 : ∀ x,
    Part.msix x ∈ ps) (h7 : ∀ x, Part.mbx x ∈ ps) (h8 : ∀ x, Part.alarm x ∈ ps) (h9 : Part.cmds ∈ ps) (h10 : ∀ x,
    Part.afe x ∈ ps) (h11 : ∀ x, Part.rc x ∈ ps) (h12 : ∀ x, Part.dec x ∈ ps) (h13 : ∀ x, Part.wp x ∈ ps) (h14 : ∀ x,
    Part.srv x ∈ ps) (h15 : ∀ x, Part.spn x ∈ ps) (h16 : ∀ x, Part.sld x ∈ ps) (h17 : ∀ x, Part.seq x ∈ ps)
    (h18 : Part.pool ∈ ps) (h19 : Part.hnd ∈ ps) (h20 : Part.stg ∈ ps) (h21 : Part.mem ∈ ps) (h22 : Part.pair ∈ ps)
    (h23 : Part.out ∈ ps) :
    hide ps (State.ripcord s cause) = hide ps s := by
  have hr : ∀ t b, hide ps (State.ripcordBay cause t b) = hide ps t := fun t b => by simp only [hide_ripcordBay,
      implies_true, h2, h8, h10, h11, h13, h14, h15, h16]
  unfold State.ripcord
  split
  · rfl
  · dsimp only
    repeat' split
    all_goals simp only [hide_onSys, hide_enterRipcord, hide_releaseWithPeerOk, hide_eachBay _ hr, hide_onPair,
        hide_raiseDev,
      hide_cutAll, or_true, implies_true, h0, h1, h2, h3, h4, h5, h6, h7, h8, h9, h10, h11, h12, h13, h14, h17, h18, h19,
          h20, h21, h22, h23]

theorem hide_bayWarm {s : State} {b : BayNo} (h0 : Part.raised ∈ ps) (h1 : ∀ x, Part.alarm x ∈ ps) (h2 : Part.afe b ∈ ps)
    (h3 : Part.rc b ∈ ps) (h4 : Part.dec b ∈ ps) (h5 : Part.wp b ∈ ps) (h6 : Part.srv b ∈ ps) (h7 : Part.spn b ∈ ps)
    (h8 : Part.sld b ∈ ps) (h9 : Part.seq b ∈ ps) (h10 : Part.held b ∈ ps) :
    hide ps (State.bayWarm s b) = hide ps s := by
  simp only [State.bayWarm, hide_onBay, hide_abortCal, hide_raiseBay, ite_self, true_or, implies_true, hide_ite, h0, h1,
      h2, h3, h4, h5, h6, h7, h8, h9, h10]

theorem hide_warmReset {s : State} {cause : WarmCause} (h0 : Part.mode ∈ ps) (h1 : Part.free ∈ ps) (h2 : Part.sys ∈ ps)
    (h3 : Part.raised ∈ ps) (h4 : Part.fwq ∈ ps) (h5 : Part.retry ∈ ps) (h6 : Part.ev ∈ ps) (h7 : ∀ x,
    Part.queues x ∈ ps) (h8 : ∀ x, Part.msix x ∈ ps) (h9 : ∀ x, Part.mbx x ∈ ps) (h10 : ∀ x, Part.ring x ∈ ps)
    (h11 : ∀ x, Part.alarm x ∈ ps) (h12 : ∀ x, Part.link x ∈ ps) (h13 : Part.bridle ∈ ps) (h14 : Part.cmds ∈ ps)
    (h15 : Part.vols ∈ ps) (h16 : Part.params ∈ ps) (h17 : ∀ x, Part.afe x ∈ ps) (h18 : ∀ x, Part.rc x ∈ ps) (h19 : ∀ x,
    Part.dec x ∈ ps) (h20 : ∀ x, Part.wp x ∈ ps) (h21 : ∀ x, Part.srv x ∈ ps) (h22 : ∀ x, Part.spn x ∈ ps) (h23 : ∀ x,
    Part.sld x ∈ ps) (h24 : ∀ x, Part.seq x ∈ ps) (h25 : ∀ x, Part.held x ∈ ps) (h26 : Part.pool ∈ ps)
    (h27 : Part.hnd ∈ ps) (h28 : Part.stg ∈ ps) (h29 : Part.dram ∈ ps) (h30 : Part.mem ∈ ps) (h31 : Part.pair ∈ ps)
    (h32 : Part.out ∈ ps) :
    hide ps (State.warmReset s cause) = hide ps s := by
  have hb : ∀ t b, hide ps (State.bayWarm t b) = hide ps t := fun t b => by simp only [hide_bayWarm, implies_true, h3,
      h11, h17, h18, h19, h20, h21, h22, h23, h24, h25]
  have hm : hide ps (s.setMode .boot) = hide ps s := by simp only [hide_setMode, implies_true, h0, h2, h3, h6, h7, h8,
      h9, h11, h14, h17, h18, h20, h21, h24, h27, h28, h31, h32]
  have hw : hide ps ((s.setMode .boot).eachBay State.bayWarm) = hide ps s := (hide_eachBay _ hb _).trans hm
  unfold State.warmReset
  split
  · rfl
  · rw [hide_raiseDev ‹_› ‹_›]
    simp [hide, hideEv, hideMem, hideSys, hidePort, hideBay, h0, h1, h2, h3, h4, h5, h6, h7, h8, h9, h10, h11, h12, h13,
        h14, h15, h16, h17, h18, h19, h20, h21, h22, h23, h24, h25, h26, h27, h28, h29, h30, h31, h32]
  · split
    · simp only [hide_onSys, or_true, h0, h1, h2]
    · rw [hide_raiseDev ‹_› ‹_›, ← hw]
      generalize (s.setMode .boot).eachBay State.bayWarm = u
      simp [hide, hideEv, hideMem, hideSys, hidePort, h0, h1, h2, h3, h4, h5, h6, h7, h8, h9, h10, h11, h12, h13, h14,
          h15, h16, h26, h27, h28, h29, h30, h31, h32]

theorem hide_powerOnReset {s : State} (h0 : Part.mode ∈ ps) (h1 : Part.sys ∈ ps) (h2 : Part.raised ∈ ps)
    (h3 : Part.fwq ∈ ps) (h4 : Part.retry ∈ ps) (h5 : Part.ev ∈ ps) (h6 : ∀ x, Part.queues x ∈ ps) (h7 : ∀ x,
    Part.msix x ∈ ps) (h8 : ∀ x, Part.mbx x ∈ ps) (h9 : ∀ x, Part.ring x ∈ ps) (h10 : ∀ x, Part.alarm x ∈ ps) (h11 : ∀ x,
    Part.link x ∈ ps) (h12 : Part.bridle ∈ ps) (h13 : Part.cmds ∈ ps) (h14 : Part.vols ∈ ps) (h15 : Part.params ∈ ps)
    (h16 : ∀ x, Part.afe x ∈ ps) (h17 : ∀ x, Part.rc x ∈ ps) (h18 : ∀ x, Part.dec x ∈ ps) (h19 : ∀ x, Part.wp x ∈ ps)
    (h20 : ∀ x, Part.srv x ∈ ps) (h21 : ∀ x, Part.spn x ∈ ps) (h22 : ∀ x, Part.sld x ∈ ps) (h23 : ∀ x, Part.seq x ∈ ps)
    (h24 : ∀ x, Part.held x ∈ ps) (h25 : Part.pool ∈ ps) (h26 : Part.hnd ∈ ps) (h27 : Part.stg ∈ ps)
    (h28 : Part.dram ∈ ps) (h29 : Part.mem ∈ ps) (h30 : Part.pair ∈ ps) :
    hide ps (State.powerOnReset s) = hide ps s := by
  refine hide_of_unchanged ?_
  constructor
  all_goals first
    | exact Or.inl ‹_›
    | exact fun x => Or.inl (by solve_by_elim)
    | exact Or.inr rfl

theorem hide_queueResetOne {s : State} {p : Port} {q : QueueNo} (h0 : Part.raised ∈ ps) (h1 : Part.queues p ∈ ps)
    (h2 : ∀ x, Part.alarm x ∈ ps) (h3 : Part.cmds ∈ ps) :
    hide ps (State.queueResetOne s p q) = hide ps s := by
  simp only [State.queueResetOne, hide_onPort, hide_raisePort, hide_setCmds, ite_self, true_or, or_true, or_self,
      and_self, implies_true, hide_ite, h0, h1, h2, h3]

theorem hide_portReset {s : State} {p : Port} (h0 : Part.sys ∈ ps) (h1 : Part.queues p ∈ ps) (h2 : Part.msix p ∈ ps)
    (h3 : Part.mbx p ∈ ps) (h4 : Part.ring p ∈ ps) (h5 : Part.alarm p ∈ ps) (h6 : Part.link p ∈ ps)
    (h7 : Part.bridle ∈ ps) (h8 : Part.cmds ∈ ps) :
    hide ps (State.portReset s p) = hide ps s := by
  simp only [State.portReset]
  rw [hide_onSys h0 (Or.inr rfl) (Or.inr rfl), hide_onPort (Or.inl h1) (Or.inl h2) (Or.inl h6) (Or.inl h3) (Or.inl h4)
    (Or.inl h5)]
  simp only [hide, h7, h8, if_true]

theorem hide_endCommands {s : State} {status : Byte} (h0 : ∀ x, Part.queues x ∈ ps) (h1 : ∀ x, Part.msix x ∈ ps)
    (h2 : Part.cmds ∈ ps) (h3 : Part.stg ∈ ps) (h4 : Part.pair ∈ ps) (h5 : Part.out ∈ ps) :
    hide ps (State.endCommands s status) = hide ps s := by
  simp only [State.endCommands, hide_complete, hide_setCmds, hide_foldl, ite_self, implies_true, hide_ite, h0, h1, h2,
      h3, h4, h5]

theorem hide_leaveBoot {s : State} {m : Mode} (h0 : Part.mode ∈ ps) (h1 : Part.sys ∈ ps) (h2 : Part.raised ∈ ps)
    (h3 : Part.ev ∈ ps) (h4 : ∀ x, Part.queues x ∈ ps) (h5 : ∀ x, Part.msix x ∈ ps) (h6 : ∀ x, Part.mbx x ∈ ps)
    (h7 : ∀ x, Part.alarm x ∈ ps) (h8 : Part.cmds ∈ ps) (h9 : ∀ x, Part.afe x ∈ ps) (h10 : ∀ x, Part.rc x ∈ ps)
    (h11 : ∀ x, Part.wp x ∈ ps) (h12 : ∀ x, Part.srv x ∈ ps) (h13 : ∀ x, Part.seq x ∈ ps) (h14 : Part.hnd ∈ ps)
    (h15 : Part.stg ∈ ps) (h16 : Part.pair ∈ ps) (h17 : Part.out ∈ ps) :
    hide ps (State.leaveBoot s m) = hide ps s := by
  simp only [State.leaveBoot, hide_endCommands, hide_setMode, implies_true, h0, h1, h2, h3, h4, h5, h6, h7, h8, h9, h10,
      h11, h12, h13, h14, h15, h16, h17]

end Sys2Proof.Laws
end

