-- ==== Sys2Proof/Laws/HideUnits.lean ====
section
/-! SUPPORT. What each shared operation of the handler, the staging tier, memory, the pair and a bay's mount may write. -/

namespace Sys2Proof.Laws

set_option Elab.async false

open Sys2Proof Sys2Proof.Machine Sys2Proof.Safety

variable {ps : List Part}

/-! ### Handler -/

theorem hide_runStep {s : State} (h0 : Part.sys ∈ ps) (h1 : Part.raised ∈ ps) (h2 : ∀ x, Part.queues x ∈ ps) (h3 : ∀ x,
    Part.msix x ∈ ps) (h4 : ∀ x, Part.mbx x ∈ ps) (h5 : ∀ x, Part.alarm x ∈ ps) (h6 : Part.cmds ∈ ps) (h7 : ∀ x,
    Part.afe x ∈ ps) (h8 : ∀ x, Part.rc x ∈ ps) (h9 : ∀ x, Part.wp x ∈ ps) (h10 : ∀ x, Part.srv x ∈ ps) (h11 : ∀ x,
    Part.seq x ∈ ps) (h12 : Part.hnd ∈ ps) (h13 : Part.stg ∈ ps) (h14 : Part.pair ∈ ps) (h15 : Part.out ∈ ps) :
    hide ps (State.runStep s) = hide ps s := by
  unfold State.runStep
  repeat' split
  all_goals simp only [hide_startPath, hide_endMove, hide_raiseDev, hide_startAxis, hide_startHoming, hide_onAxis,
      ite_self, implies_true, hide_ite, h0, h1, h2, h3, h4, h5, h6, h7, h8, h9, h10, h11, h12, h13, h14, h15]

theorem hide_toStep {s : State} {n : Nat} {f : MoveDisc → MoveDisc} (h0 : Part.sys ∈ ps) (h1 : Part.raised ∈ ps)
    (h2 : ∀ x, Part.queues x ∈ ps) (h3 : ∀ x, Part.msix x ∈ ps) (h4 : ∀ x, Part.mbx x ∈ ps) (h5 : ∀ x, Part.alarm x ∈ ps)
    (h6 : Part.cmds ∈ ps) (h7 : ∀ x, Part.afe x ∈ ps) (h8 : ∀ x, Part.rc x ∈ ps) (h9 : ∀ x, Part.wp x ∈ ps) (h10 : ∀ x,
    Part.srv x ∈ ps) (h11 : ∀ x, Part.seq x ∈ ps) (h12 : Part.hnd ∈ ps) (h13 : Part.stg ∈ ps) (h14 : Part.pair ∈ ps)
    (h15 : Part.out ∈ ps) :
    hide ps (State.toStep s n f) = hide ps s := by
  simp only [State.toStep, hide_runStep, hide_onHnd, implies_true, h0, h1, h2, h3, h4, h5, h6, h7, h8, h9, h10, h11, h12,
      h13, h14, h15]

theorem hide_handlerStalled {s : State} {a : AxisNo} {dev : Int} (h0 : Part.sys ∈ ps) (h1 : Part.raised ∈ ps) (h2 : ∀ x,
    Part.queues x ∈ ps) (h3 : ∀ x, Part.msix x ∈ ps) (h4 : ∀ x, Part.mbx x ∈ ps) (h5 : ∀ x, Part.alarm x ∈ ps)
    (h6 : Part.cmds ∈ ps) (h7 : ∀ x, Part.afe x ∈ ps) (h8 : ∀ x, Part.rc x ∈ ps) (h9 : ∀ x, Part.wp x ∈ ps) (h10 : ∀ x,
    Part.srv x ∈ ps) (h11 : ∀ x, Part.seq x ∈ ps) (h12 : Part.hnd ∈ ps) (h13 : Part.stg ∈ ps) (h14 : Part.pair ∈ ps)
    (h15 : Part.out ∈ ps) :
    hide ps (State.handlerStalled s a dev) = hide ps s := by
  unfold State.handlerStalled
  dsimp only
  repeat' split
  all_goals simp only [hide_raiseDev, hide_onHnd, hide_endMove, implies_true, h0, h1, h2, h3, h4, h5, h6, h7, h8, h9,
      h10, h11, h12, h13, h14, h15]

theorem hide_driveAxis {s : State} {a : AxisNo} (h0 : Part.hnd ∈ ps) :
    hide ps (State.driveAxis s a) = hide ps s := by
  simp only [State.driveAxis, hide_onAxis, h0]

theorem hide_axisPeriod {s : State} {a : AxisNo} {mark : Bool} (h0 : Part.sys ∈ ps) (h1 : Part.raised ∈ ps) (h2 : ∀ x,
    Part.queues x ∈ ps) (h3 : ∀ x, Part.msix x ∈ ps) (h4 : ∀ x, Part.mbx x ∈ ps) (h5 : ∀ x, Part.alarm x ∈ ps)
    (h6 : Part.cmds ∈ ps) (h7 : ∀ x, Part.afe x ∈ ps) (h8 : ∀ x, Part.rc x ∈ ps) (h9 : ∀ x, Part.wp x ∈ ps) (h10 : ∀ x,
    Part.srv x ∈ ps) (h11 : ∀ x, Part.seq x ∈ ps) (h12 : Part.hnd ∈ ps) (h13 : Part.stg ∈ ps) (h14 : Part.pair ∈ ps)
    (h15 : Part.out ∈ ps) :
    hide ps (State.axisPeriod s a mark) = hide ps s := by
  unfold State.axisPeriod
  dsimp only
  repeat' split
  all_goals simp only [hide_raiseDev, hide_onAxis, hide_startHoming, hide_handlerStalled, hide_driveAxis, implies_true,
      h0, h1, h2, h3, h4, h5, h6, h7, h8, h9, h10, h11, h12, h13, h14, h15]

theorem hide_pathPeriod {s : State} (h0 : Part.sys ∈ ps) (h1 : Part.raised ∈ ps) (h2 : ∀ x, Part.queues x ∈ ps)
    (h3 : ∀ x, Part.msix x ∈ ps) (h4 : ∀ x, Part.mbx x ∈ ps) (h5 : ∀ x, Part.alarm x ∈ ps) (h6 : Part.cmds ∈ ps)
    (h7 : ∀ x, Part.afe x ∈ ps) (h8 : ∀ x, Part.rc x ∈ ps) (h9 : ∀ x, Part.wp x ∈ ps) (h10 : ∀ x, Part.srv x ∈ ps)
    (h11 : ∀ x, Part.seq x ∈ ps) (h12 : Part.hnd ∈ ps) (h13 : Part.stg ∈ ps) (h14 : Part.pair ∈ ps) (h15 : Part.out ∈ ps)
    :
    hide ps (State.pathPeriod s) = hide ps s := by
  unfold State.pathPeriod
  dsimp only
  repeat' split
  all_goals simp only [hide_driveAxis, hide_onHnd, hide_startPath, hide_handlerStalled, implies_true, h0, h1, h2, h3, h4,
      h5, h6, h7, h8, h9, h10, h11, h12, h13, h14, h15]

theorem hide_repeatStalled {s : State} (h0 : Part.sys ∈ ps) (h1 : Part.raised ∈ ps) (h2 : ∀ x, Part.queues x ∈ ps)
    (h3 : ∀ x, Part.msix x ∈ ps) (h4 : ∀ x, Part.mbx x ∈ ps) (h5 : ∀ x, Part.alarm x ∈ ps) (h6 : Part.cmds ∈ ps)
    (h7 : ∀ x, Part.afe x ∈ ps) (h8 : ∀ x, Part.rc x ∈ ps) (h9 : ∀ x, Part.wp x ∈ ps) (h10 : ∀ x, Part.srv x ∈ ps)
    (h11 : ∀ x, Part.seq x ∈ ps) (h12 : Part.hnd ∈ ps) (h13 : Part.stg ∈ ps) (h14 : Part.pair ∈ ps) (h15 : Part.out ∈ ps)
    :
    hide ps (State.repeatStalled s) = hide ps s := by
  unfold State.repeatStalled
  dsimp only
  repeat' split
  all_goals simp only [hide_onHnd, hide_runStep, hide_startPath, hide_startAxis, hide_startHoming, implies_true, h0, h1,
      h2, h3, h4, h5, h6, h7, h8, h9, h10, h11, h12, h13, h14, h15]

theorem hide_beginMove {s : State} {src : BitVec 16} {dst : BitVec 16} {declared : Bool} {port : Option Port}
    {fwd : Option CmdId} (h0 : Part.sys ∈ ps) (h1 : Part.raised ∈ ps) (h2 : ∀ x, Part.queues x ∈ ps) (h3 : ∀ x,
    Part.msix x ∈ ps) (h4 : ∀ x, Part.mbx x ∈ ps) (h5 : ∀ x, Part.alarm x ∈ ps) (h6 : Part.cmds ∈ ps) (h7 : ∀ x,
    Part.afe x ∈ ps) (h8 : ∀ x, Part.rc x ∈ ps) (h9 : ∀ x, Part.wp x ∈ ps) (h10 : ∀ x, Part.srv x ∈ ps) (h11 : ∀ x,
    Part.seq x ∈ ps) (h12 : Part.hnd ∈ ps) (h13 : Part.stg ∈ ps) (h14 : Part.pair ∈ ps) (h15 : Part.out ∈ ps) :
    hide ps (State.beginMove s src dst declared port fwd).1 = hide ps s := by
  unfold State.beginMove
  dsimp only
  repeat' split
  all_goals simp only [hide_onHnd, hide_setBaySt, hide_send, hide_runStep, hide_toStep, implies_true, h0, h1, h2, h3, h4,
      h5, h6, h7, h8, h9, h10, h11, h12, h13, h14, h15]

theorem hide_picked {s : State} {src : BitVec 16} (h0 : Part.vols ∈ ps) (h1 : Part.hnd ∈ ps) (h2 : Part.pair ∈ ps)
    (h3 : Part.out ∈ ps) :
    hide ps (State.picked s src) = hide ps s := by
  simp only [State.picked, hide_setLoc, hide_onHnd, hide_setVols, h0, h1, h2, h3]

theorem hide_setDown {s : State} {dst : BitVec 16} (h0 : Part.vols ∈ ps) (h1 : ∀ x, Part.seq x ∈ ps) (h2 : Part.hnd ∈ ps)
    (h3 : Part.pair ∈ ps) (h4 : Part.out ∈ ps) :
    hide ps (State.setDown s dst) = hide ps s := by
  unfold State.setDown
  repeat' split
  all_goals simp only [hide_setLoc, hide_onHnd, hide_onSeq, hide_setVols, h0, h1, h2, h3, h4]

theorem hide_handlerStop {s : State} {i : InputNo} (h0 : Part.sys ∈ ps) (h1 : Part.raised ∈ ps) (h2 : ∀ x,
    Part.alarm x ∈ ps) (h3 : ∀ x, Part.afe x ∈ ps) (h4 : ∀ x, Part.rc x ∈ ps) (h5 : ∀ x, Part.wp x ∈ ps) (h6 : ∀ x,
    Part.srv x ∈ ps) (h7 : ∀ x, Part.seq x ∈ ps) (h8 : Part.hnd ∈ ps) (h9 : Part.pair ∈ ps) (h10 : Part.out ∈ ps) :
    hide ps (State.handlerStop s i) = hide ps s := by
  unfold State.handlerStop
  dsimp only
  repeat' split
  all_goals simp only [hide_raiseDev, hide_onHnd, hide_setBaySt, implies_true, h0, h1, h2, h3, h4, h5, h6, h7, h8, h9,
      h10]

theorem hide_takeOwn {s : State} {peerActiveSoon : Bool} (h0 : Part.raised ∈ ps) (h1 : ∀ x, Part.alarm x ∈ ps)
    (h2 : Part.hnd ∈ ps) :
    hide ps (State.takeOwn s peerActiveSoon) = hide ps s := by
  simp only [State.takeOwn, hide_raiseDev, hide_onHnd, ite_self, implies_true, hide_ite, h0, h1, h2]

/-! ### StagingOps -/

theorem hide_writeRoot {s : State} {clean : Bool} {warm : Bool} (h0 : Part.stg ∈ ps) (h1 : Part.mem ∈ ps)
    (h2 : Part.out ∈ ps) :
    hide ps (State.writeRoot s clean warm) = hide ps s := by
  simp only [State.writeRoot, hide_emit, hide_onMem, hide_onStg, ite_self, or_true, hide_ite, h0, h1, h2]

theorem hide_saveVols {s : State} (h0 : Part.stg ∈ ps) :
    hide ps (State.saveVols s) = hide ps s := by
  simp only [State.saveVols, hide_onStg, h0]

theorem hide_nandPage {s : State} {loc : BitVec 34} {ws : List NandWord} (h0 : Part.stg ∈ ps) (h1 : Part.out ∈ ps) :
    hide ps (State.nandPage s loc ws) = hide ps s := by
  simp only [State.nandPage, hide_emit, hide_onStg, h0, h1]

theorem hide_stripeParity {s : State} {x : Superblock} {p : Nat} (h0 : Part.stg ∈ ps) (h1 : Part.out ∈ ps) :
    hide ps (State.stripeParity s x p) = hide ps s := by
  simp only [State.stripeParity, hide_onStg, hide_nandPage, ite_self, hide_ite, h0, h1]

theorem hide_member {s : State} {loc : BitVec 34} {ws : List NandWord} (h0 : Part.stg ∈ ps) (h1 : Part.out ∈ ps) :
    hide ps (State.member s loc ws) = hide ps s := by
  unfold State.member
  repeat' split
  all_goals simp only [hide_onStg, hide_stripeParity, ite_self, hide_ite, h0, h1]

theorem hide_closeStripe {s : State} {stream : Fin 4} (h0 : Part.stg ∈ ps) (h1 : Part.out ∈ ps) :
    hide ps (State.closeStripe s stream) = hide ps s := by
  unfold State.closeStripe
  repeat' split
  all_goals simp only [hide_stripeParity, hide_onStg, h0, h1]

theorem hide_dropDirty {s : State} {which : DirtyCluster → Bool} (h0 : Part.raised ∈ ps) (h1 : ∀ x, Part.alarm x ∈ ps)
    (h2 : Part.stg ∈ ps) (h3 : Part.mem ∈ ps) :
    hide ps (State.dropDirty s which) = hide ps s := by
  simp only [State.dropDirty, hide_giveAll, hide_onStg, implies_true, h0, h1, h2, h3]

theorem hide_programmed {s : State} {d : DirtyCluster} {loc : BitVec 34} (h0 : Part.sys ∈ ps) (h1 : Part.raised ∈ ps)
    (h2 : ∀ x, Part.alarm x ∈ ps) (h3 : Part.cmds ∈ ps) (h4 : Part.stg ∈ ps) (h5 : Part.mem ∈ ps) :
    hide ps (State.programmed s d loc) = hide ps s := by
  simp only [State.programmed, hide_dropDirty, hide_onSys, hide_onStg, hide_setCmds, or_true, implies_true, h0, h1, h2,
      h3, h4, h5]

theorem hide_copied {s : State} {e : MapEntry} {loc : BitVec 34} (h0 : Part.sys ∈ ps) (h1 : Part.stg ∈ ps) :
    hide ps (State.copied s e loc) = hide ps s := by
  simp only [State.copied, hide_onSys, hide_onStg, or_true, h0, h1]

theorem hide_settleStaged {s : State} (h0 : ∀ x, Part.queues x ∈ ps) (h1 : ∀ x, Part.msix x ∈ ps) (h2 : Part.cmds ∈ ps)
    (h3 : Part.stg ∈ ps) (h4 : Part.pair ∈ ps) (h5 : Part.out ∈ ps) :
    hide ps (State.settleStaged s) = hide ps s := by
  simp only [State.settleStaged, hide_complete, hide_foldl, implies_true, h0, h1, h2, h3, h4, h5]

theorem hide_settleFlush {s : State} (h0 : ∀ x, Part.queues x ∈ ps) (h1 : ∀ x, Part.msix x ∈ ps) (h2 : Part.cmds ∈ ps)
    (h3 : Part.stg ∈ ps) (h4 : Part.pair ∈ ps) (h5 : Part.out ∈ ps) :
    hide ps (State.settleFlush s) = hide ps s := by
  simp only [State.settleFlush, hide_complete, hide_foldl, ite_self, implies_true, hide_ite, h0, h1, h2, h3, h4, h5]

theorem hide_protectStaging {s : State} (h0 : Part.raised ∈ ps) (h1 : ∀ x, Part.alarm x ∈ ps) (h2 : Part.stg ∈ ps) :
    hide ps (State.protectStaging s) = hide ps s := by
  simp only [State.protectStaging, hide_raiseDev, hide_onStg, ite_self, implies_true, hide_ite, h0, h1, h2]

theorem hide_retireLun {s : State} {c : ChanNo} {l : Fin 16} (h0 : Part.raised ∈ ps) (h1 : Part.ev ∈ ps) (h2 : ∀ x,
    Part.alarm x ∈ ps) (h3 : Part.stg ∈ ps) :
    hide ps (State.retireLun s c l) = hide ps s := by
  simp only [State.retireLun, hide_testLoses, hide_raiseNand, hide_onStg, ite_self, implies_true, hide_ite, h0, h1, h2,
      h3]

theorem hide_proposeLun {s : State} {c : ChanNo} {l : Fin 16} (h0 : Part.raised ∈ ps) (h1 : Part.ev ∈ ps) (h2 : ∀ x,
    Part.alarm x ∈ ps) (h3 : Part.stg ∈ ps) :
    hide ps (State.proposeLun s c l) = hide ps s := by
  simp only [State.proposeLun, hide_raiseNand, hide_retireLun, ite_self, implies_true, hide_ite, h0, h1, h2, h3]

theorem hide_retireBlock {s : State} {c : ChanNo} {l : Fin 16} {b : Nat} (h0 : Part.raised ∈ ps) (h1 : Part.ev ∈ ps)
    (h2 : ∀ x, Part.alarm x ∈ ps) (h3 : Part.stg ∈ ps) :
    hide ps (State.retireBlock s c l b) = hide ps s := by
  simp only [State.retireBlock, hide_raiseNand, hide_onStg, hide_protectStaging, hide_proposeLun, ite_self, implies_true,
      hide_ite, h0, h1, h2, h3]

theorem hide_proposeBlock {s : State} {loc : BitVec 34} {op : Nat} (h0 : Part.raised ∈ ps) (h1 : Part.retry ∈ ps)
    (h2 : Part.ev ∈ ps) (h3 : ∀ x, Part.alarm x ∈ ps) (h4 : Part.stg ∈ ps) :
    hide ps (State.proposeBlock s loc op) = hide ps s := by
  simp only [State.proposeBlock, hide_logRetry, hide_raiseNand, hide_onStg, hide_retireBlock, ite_self, implies_true,
      hide_ite, h0, h1, h2, h3, h4]

theorem hide_nandTransient {s : State} {loc : BitVec 34} {op : Nat} (h0 : Part.raised ∈ ps) (h1 : Part.retry ∈ ps)
    (h2 : ∀ x, Part.alarm x ∈ ps) :
    hide ps (State.nandTransient s loc op) = hide ps s := by
  simp only [State.nandTransient, hide_logRetry, hide_raiseNand, implies_true, h0, h1, h2]

theorem hide_program {s : State} {stream : Fin 4} {ws : List NandWord} {ok again : Bool} {r : BitVec 34 × State}
    (h0 : Part.raised ∈ ps) (h1 : Part.retry ∈ ps) (h2 : Part.ev ∈ ps) (h3 : ∀ x, Part.alarm x ∈ ps) (h4 : Part.stg ∈ ps)
    (h5 : Part.out ∈ ps)
    (h : s.program stream ws ok again = some r) : hide ps r.2 = hide ps s := by
  unfold State.program at h
  dsimp only at h
  repeat' split at h
  all_goals first
    | (cases h; done)
    | (cases h; simp only [hide_member, hide_nandPage, hide_setStg, h4, h5]; done)
    | (simp only [Option.map_map, Option.map_eq_some_iff] at h
       obtain ⟨x, -, rfl⟩ := h
       simp only [Function.comp_apply, hide_nandTransient, hide_closeStripe, hide_proposeBlock, hide_member,
           hide_nandPage, hide_onStg, hide_setStg,
         implies_true, h0, h1, h2, h3, h4, h5])

theorem hide_programJournal {s : State} {ok again : Bool} {r : State} (h0 : Part.raised ∈ ps) (h1 : Part.retry ∈ ps)
    (h2 : Part.ev ∈ ps) (h3 : ∀ x, Part.alarm x ∈ ps) (h4 : Part.stg ∈ ps) (h5 : Part.out ∈ ps) (h6 : Part.sys ∈ ps)
    (h : s.programJournal ok again = some r) : hide ps r = hide ps s := by
  unfold State.programJournal at h
  simp only [Option.map_eq_some_iff] at h
  obtain ⟨x, hx, rfl⟩ := h
  rw [hide_onStg h4, hide_onSys h6 (Or.inr rfl) (Or.inr rfl), hide_program h0 h1 h2 h3 h4 h5 hx]

theorem hide_ventSpill {s : State} (h0 : Part.sys ∈ ps) (h1 : Part.raised ∈ ps) (h2 : Part.retry ∈ ps)
    (h3 : Part.ev ∈ ps) (h4 : ∀ x, Part.alarm x ∈ ps) (h5 : Part.stg ∈ ps) (h6 : Part.out ∈ ps) :
    hide ps (State.ventSpill s) = hide ps s := by
  unfold State.ventSpill
  split
  · rfl
  · cases e : s.programJournal true true with
    | none => rfl
    | some r =>
      exact hide_programJournal (by assumption) (by assumption) (by assumption) (by assumption) (by assumption)
          (by assumption) (by assumption) e

theorem hide_gcStart {s : State} (h0 : Part.raised ∈ ps) (h1 : ∀ x, Part.alarm x ∈ ps) (h2 : Part.stg ∈ ps) :
    hide ps (State.gcStart s) = hide ps s := by
  unfold State.gcStart
  dsimp only
  repeat' split
  all_goals simp only [hide_onStg, hide_raiseDev, implies_true, h0, h1, h2]

theorem hide_flushDirty {fuel : Nat} {a1 : State} (h0 : Part.sys ∈ ps) (h1 : Part.raised ∈ ps) (h2 : Part.retry ∈ ps)
    (h3 : Part.ev ∈ ps) (h4 : ∀ x, Part.alarm x ∈ ps) (h5 : Part.cmds ∈ ps) (h6 : Part.stg ∈ ps) (h7 : Part.mem ∈ ps)
    (h8 : Part.out ∈ ps) :
    hide ps (State.flushDirty fuel a1) = hide ps a1 := by
  induction fuel generalizing a1 with
  | zero => rfl
  | succ n ih =>
    rw [State.flushDirty]
    split
    · rfl
    · split
      · rename_i h
        have hp := hide_program (by assumption) (by assumption) (by assumption) (by assumption) (by assumption)
            (by assumption) h
        rw [ih]
        simp only [hide_ventSpill, hide_programmed, hp, implies_true, h0, h1, h2, h3, h4, h5, h6, h7, h8]
      · rfl

theorem hide_flushAll {s : State} {warm : Bool} (h0 : Part.sys ∈ ps) (h1 : Part.raised ∈ ps) (h2 : Part.retry ∈ ps)
    (h3 : Part.ev ∈ ps) (h4 : ∀ x, Part.alarm x ∈ ps) (h5 : Part.cmds ∈ ps) (h6 : Part.stg ∈ ps) (h7 : Part.mem ∈ ps)
    (h8 : Part.out ∈ ps) :
    hide ps (State.flushAll s warm) = hide ps s := by
  unfold State.flushAll
  dsimp only
  have h1 : hide ps (((State.flushDirty s.stg.dirty.length s).closeStripe 2).closeStripe 0) = hide ps s := by
    simp only [hide_flushDirty, hide_closeStripe, implies_true, h0, h1, h2, h3, h4, h5, h6, h7, h8]
  generalize ((State.flushDirty s.stg.dirty.length s).closeStripe 2).closeStripe 0 = u at h1
  rw [hide_writeRoot (by assumption) (by assumption) (by assumption), hide_closeStripe (by assumption)
      (by assumption), ← h1]
  split
  · rfl
  · cases e : u.programJournal true true with
    | none =>
      exact hide_onStg (by assumption)
    | some r =>
      exact hide_programJournal (by assumption) (by assumption) (by assumption) (by assumption) (by assumption)
          (by assumption) (by assumption) e

theorem hide_placeDirty {s : State} {d : DirtyCluster} (h0 : Part.raised ∈ ps) (h1 : ∀ x, Part.alarm x ∈ ps)
    (h2 : Part.stg ∈ ps) (h3 : Part.mem ∈ ps) :
    hide ps (State.placeDirty s d) = hide ps s := by
  simp only [State.placeDirty, hide_onStg, hide_giveAll, implies_true, h0, h1, h2, h3]

theorem hide_placeNew {s : State} {d : DirtyCluster} (h0 : Part.raised ∈ ps) (h1 : ∀ x, Part.alarm x ∈ ps)
    (h2 : Part.stg ∈ ps) (h3 : Part.mem ∈ ps) :
    hide ps (State.placeNew s d) = hide ps s := by
  unfold State.placeNew
  split
  · simp only [hide_placeDirty, implies_true, h0, h1, h2, h3]
  · split
    · rename_i h
      obtain rfl := congrArg Prod.fst h
      simp only [hide_placeDirty, hide_ballastTake, implies_true, h0, h1, h2, h3]
    · rename_i h
      obtain rfl := congrArg Prod.fst h
      simp only [hide_ballastTake, implies_true, h0, h1, h3]

theorem hide_tetherBuf {s : State} {d : DirtyCluster} (h0 : Part.raised ∈ ps) (h1 : ∀ x, Part.alarm x ∈ ps)
    (h2 : Part.mem ∈ ps) :
    hide ps (State.tetherBuf s d).1 = hide ps s := by
  unfold State.tetherBuf
  dsimp only
  repeat' split
  all_goals simp only [hide_ballastTake, implies_true, h0, h1, h2]

theorem hide_dropUncommitted {s : State} (h0 : Part.raised ∈ ps) (h1 : ∀ x, Part.alarm x ∈ ps) (h2 : Part.mem ∈ ps)
    (h3 : Part.pair ∈ ps) :
    hide ps (State.dropUncommitted s) = hide ps s := by
  simp only [State.dropUncommitted, hide_giveAll, hide_onPair, implies_true, h0, h1, h2, h3]

theorem hide_acceptMirror {s : State} {msg : BitVec 32} {d : DirtyCluster} (h0 : Part.raised ∈ ps) (h1 : ∀ x,
    Part.alarm x ∈ ps) (h2 : Part.cmds ∈ ps) (h3 : Part.stg ∈ ps) (h4 : Part.mem ∈ ps) (h5 : Part.pair ∈ ps)
    (h6 : Part.out ∈ ps) :
    hide ps (State.acceptMirror s msg d) = hide ps s := by
  simp only [State.acceptMirror, hide_placeDirty, hide_passAll, hide_send, hide_setCmds, implies_true, h0, h1, h2, h3,
      h4, h5, h6]

theorem hide_settleMirrors {fuel : Nat} {a1 : State} (h0 : Part.raised ∈ ps) (h1 : ∀ x, Part.alarm x ∈ ps)
    (h2 : Part.cmds ∈ ps) (h3 : Part.stg ∈ ps) (h4 : Part.mem ∈ ps) (h5 : Part.pair ∈ ps) (h6 : Part.out ∈ ps) :
    hide ps (State.settleMirrors fuel a1) = hide ps a1 := by
  induction fuel generalizing a1 with
  | zero => rfl
  | succ n ih =>
    rw [State.settleMirrors]
    split
    · rfl
    · split
      rename_i h
      obtain rfl := congrArg Prod.fst h
      split
      · rw [ih]; simp only [hide_tetherBuf, hide_acceptMirror, hide_onPair, implies_true, h0, h1, h2, h3, h4, h5, h6]
      · simp only [hide_tetherBuf, hide_onPair, implies_true, h0, h1, h4, h5]

/-! ### MemoryOps -/

theorem hide_setMemRegs {s : State} (h0 : Part.mem ∈ ps) :
    hide ps (State.setMemRegs s) = hide ps s := by
  simp only [State.setMemRegs, hide_onMem, or_true, h0]

theorem hide_proposePage {s : State} {page : Nat} (h0 : Part.raised ∈ ps) (h1 : Part.ev ∈ ps) (h2 : ∀ x,
    Part.alarm x ∈ ps) (h3 : Part.flash ∈ ps) (h4 : Part.mem ∈ ps) :
    hide ps (State.proposePage s page) = hide ps s := by
  simp only [State.proposePage, hide_raiseDev, hide_testLoses, hide_applyRetired, hide_onFlash, ite_self, implies_true,
      hide_ite, h0, h1, h2, h3, h4]

theorem hide_countPageCe {s : State} {page : Nat} (h0 : Part.raised ∈ ps) (h1 : Part.ev ∈ ps) (h2 : ∀ x,
    Part.alarm x ∈ ps) (h3 : Part.flash ∈ ps) (h4 : Part.mem ∈ ps) :
    hide ps (State.countPageCe s page) = hide ps s := by
  simp only [State.countPageCe, hide_onMem, hide_proposePage, ite_self, or_true, implies_true, hide_ite, h0, h1, h2, h3,
      h4]

theorem hide_dramResult {s : State} {addr : BitVec 40} {source : Nat} {o : DramObs} (h0 : Part.free ∈ ps)
    (h1 : Part.raised ∈ ps) (h2 : Part.retry ∈ ps) (h3 : Part.ev ∈ ps) (h4 : ∀ x, Part.alarm x ∈ ps)
    (h5 : Part.flash ∈ ps) (h6 : ∀ x, Part.srv x ∈ ps) (h7 : Part.dram ∈ ps) (h8 : Part.mem ∈ ps) :
    hide ps (State.dramResult s addr source o).2 = hide ps s := by
  have hp : ∀ (m : Memory) (e : DramError), (m.pushError e).cells = m.cells := by
    intro m e; unfold Memory.pushError; dsimp only; repeat' split
    all_goals rfl
  have hm : ∀ (t : State) (e : DramError), hide ps (t.onMem (fun m => m.pushError e)) = hide ps t := fun t e =>
    hide_onMem ‹_› (Or.inr (hp _ _))
  unfold State.dramResult
  dsimp only
  repeat' split
  all_goals simp only [hide_raiseDev, hide_raiseAt, hide_countPageCe, hide_logRetry, hide_freeInt, hide_onMem, hm,
      true_or, implies_true, h0, h1, h2, h3, h4, h5, h6, h7, h8]

theorem hide_abort {s : State} {r : Requester} {addr : BitVec 40} (h0 : Part.raised ∈ ps) (h1 : ∀ x, Part.alarm x ∈ ps)
    (h2 : Part.out ∈ ps) :
    hide ps (State.abort s r addr) = hide ps s := by
  simp only [State.abort, hide_raiseDev, hide_emit, implies_true, h0, h1, h2]

theorem hide_dirtyLost {s : State} {vid : VolId} {ucl : Nat} {sector : Fin 16} (h0 : Part.raised ∈ ps) (h1 : ∀ x,
    Part.alarm x ∈ ps) (h2 : Part.stg ∈ ps) :
    hide ps (State.dirtyLost s vid ucl sector) = hide ps s := by
  simp only [State.dirtyLost, hide_raiseDev, hide_onStg, ite_self, implies_true, hide_ite, h0, h1, h2]

theorem hide_busErrorTo {s : State} {r : Requester} {addr : BitVec 40} (h0 : Part.raised ∈ ps) (h1 : ∀ x,
    Part.queues x ∈ ps) (h2 : ∀ x, Part.msix x ∈ ps) (h3 : ∀ x, Part.alarm x ∈ ps) (h4 : Part.cmds ∈ ps) (h5 : ∀ x,
    Part.dec x ∈ ps) (h6 : Part.stg ∈ ps) (h7 : Part.mem ∈ ps) (h8 : Part.pair ∈ ps) (h9 : Part.out ∈ ps) :
    hide ps (State.busErrorTo s r addr) = hide ps s := by
  unfold State.busErrorTo
  repeat' split
  all_goals simp only [hide_abort, hide_raiseDev, hide_complete, hide_emit, hide_onDec, hide_dirtyLost, hide_onCache,
      implies_true, h0, h1, h2, h3, h4, h5, h6, h7, h8, h9]

theorem hide_syncTriple {s : State} (h0 : Part.sys ∈ ps) (h1 : Part.pair ∈ ps) :
    hide ps (State.syncTriple s) = hide ps s := by
  simp only [State.syncTriple, hide_onSys, hide_onPair, or_true, h0, h1]

theorem hide_setRole {s : State} {r : RoleWord} (h0 : Part.mem ∈ ps) (h1 : Part.pair ∈ ps) :
    hide ps (State.setRole s r) = hide ps s := by
  simp only [State.setRole, hide_onPair, hide_onMem, or_true, h0, h1]

theorem hide_setProgress {s : State} {p : Progress} (h0 : Part.sys ∈ ps) (h1 : Part.flash ∈ ps) (h2 : Part.mem ∈ ps) :
    hide ps (State.setProgress s p) = hide ps s := by
  simp only [State.setProgress, hide_onFlash, hide_onSys, hide_onMem, or_true, h0, h1, h2]

theorem hide_cacheServe {s : State} {l : BitVec 34} {addr : BitVec 40} {a : CoreAccess} (h0 : Part.mem ∈ ps)
    (h1 : Part.out ∈ ps) :
    hide ps (State.cacheServe s l addr a) = hide ps s := by
  unfold State.cacheServe
  dsimp only
  repeat' split
  all_goals simp only [hide_emit, hide_onCache, h0, h1]

theorem hide_prefetchLine {s : State} {n : Nat} (h0 : Part.mem ∈ ps) :
    hide ps (State.prefetchLine s n) = hide ps s := by
  simp only [State.prefetchLine, hide_onCache, ite_self, hide_ite, h0]

theorem hide_noteMiss {s : State} {c : CoreNo} {l : BitVec 34} (h0 : Part.mem ∈ ps) :
    hide ps (State.noteMiss s c l) = hide ps s := by
  simp only [State.noteMiss, hide_onCache, hide_prefetchLine, ite_self, hide_ite, h0]

theorem hide_maintByAddress {s : State} {code : Nat} (h0 : Part.dram ∈ ps) (h1 : Part.mem ∈ ps) :
    hide ps (State.maintByAddress s code) = hide ps s := by
  simp only [State.maintByAddress, hide_onCache, hide_onMem, ite_self, true_or, hide_ite, h0, h1]

theorem hide_maintAll {s : State} {f : Memory → Memory} (h0 : Part.dram ∈ ps) (h1 : Part.mem ∈ ps) :
    hide ps (State.maintAll s f) = hide ps s := by
  simp only [State.maintAll, hide_onCache, hide_onMem, ite_self, true_or, hide_ite, h0, h1]

theorem hide_maintRelease {s : State} {l : BitVec 34} (h0 : Part.dram ∈ ps) (h1 : Part.mem ∈ ps) :
    hide ps (State.maintRelease s l) = hide ps s := by
  unfold State.maintRelease
  repeat' split
  all_goals simp only [hide_onCache, hide_onMem, true_or, h0, h1]

/-! ### PairOps -/

theorem hide_sendMirror {s : State} {vid : VolId} {ucl : Nat} {own : Bool} (h0 : Part.pair ∈ ps) (h1 : Part.out ∈ ps) :
    hide ps (State.sendMirror s vid ucl own) = hide ps s := by
  simp only [State.sendMirror, hide_sendAbout, hide_onPair, h0, h1]

theorem hide_mirrorDone {s : State} {c : Cmd} (h0 : ∀ x, Part.queues x ∈ ps) (h1 : ∀ x, Part.msix x ∈ ps)
    (h2 : Part.cmds ∈ ps) (h3 : Part.stg ∈ ps) (h4 : Part.pair ∈ ps) (h5 : Part.out ∈ ps) :
    hide ps (State.mirrorDone s c) = hide ps s := by
  simp only [State.mirrorDone, hide_setWait, hide_complete, ite_self, implies_true, hide_ite, h0, h1, h2, h3, h4, h5]

theorem hide_settleMirrorOut {s : State} (h0 : ∀ x, Part.queues x ∈ ps) (h1 : ∀ x, Part.msix x ∈ ps)
    (h2 : Part.cmds ∈ ps) (h3 : Part.stg ∈ ps) (h4 : Part.pair ∈ ps) (h5 : Part.out ∈ ps) :
    hide ps (State.settleMirrorOut s) = hide ps s := by
  simp only [State.settleMirrorOut, hide_mirrorDone, hide_foldl, implies_true, h0, h1, h2, h3, h4, h5]

theorem hide_sendClusters {s : State} {xs : List (VolId × Nat)} (h0 : Part.pair ∈ ps) (h1 : Part.out ∈ ps) :
    hide ps (State.sendClusters s xs) = hide ps s := by
  simp only [State.sendClusters, hide_onPair, hide_sendMirror, hide_foldl, implies_true, h0, h1]

theorem hide_startTetherResync {s : State} (h0 : Part.pair ∈ ps) (h1 : Part.out ∈ ps) :
    hide ps (State.startTetherResync s) = hide ps s := by
  simp only [State.startTetherResync, hide_send, hide_sendClusters, hide_onPair, ite_self, hide_ite, h0, h1]

theorem hide_mirrorLost {s : State} (h0 : ∀ x, Part.queues x ∈ ps) (h1 : ∀ x, Part.msix x ∈ ps) (h2 : Part.cmds ∈ ps)
    (h3 : Part.stg ∈ ps) (h4 : Part.pair ∈ ps) (h5 : Part.out ∈ ps) :
    hide ps (State.mirrorLost s) = hide ps s := by
  simp only [State.mirrorLost, hide_onPair, hide_settleMirrorOut, implies_true, h0, h1, h2, h3, h4, h5]

theorem hide_failForwarded {s : State} {status : Byte} (h0 : ∀ x, Part.queues x ∈ ps) (h1 : ∀ x, Part.msix x ∈ ps)
    (h2 : Part.cmds ∈ ps) (h3 : Part.stg ∈ ps) (h4 : Part.pair ∈ ps) (h5 : Part.out ∈ ps) :
    hide ps (State.failForwarded s status) = hide ps s := by
  simp only [State.failForwarded, hide_complete, hide_foldl, implies_true, h0, h1, h2, h3, h4, h5]

theorem hide_failForwardedMove {s : State} {status : Byte} (h0 : ∀ x, Part.queues x ∈ ps) (h1 : ∀ x, Part.msix x ∈ ps)
    (h2 : ∀ x, Part.mbx x ∈ ps) (h3 : Part.cmds ∈ ps) (h4 : Part.hnd ∈ ps) (h5 : Part.stg ∈ ps) (h6 : Part.pair ∈ ps)
    (h7 : Part.out ∈ ps) :
    hide ps (State.failForwardedMove s status) = hide ps s := by
  unfold State.failForwardedMove
  repeat' split
  all_goals simp only [hide_orderEnded, hide_onHnd, hide_answerRun, implies_true, h0, h1, h2, h3, h4, h5, h6, h7]

theorem hide_degrade {s : State} (h0 : Part.raised ∈ ps) (h1 : ∀ x, Part.queues x ∈ ps) (h2 : ∀ x, Part.msix x ∈ ps)
    (h3 : ∀ x, Part.mbx x ∈ ps) (h4 : ∀ x, Part.alarm x ∈ ps) (h5 : Part.cmds ∈ ps) (h6 : Part.hnd ∈ ps)
    (h7 : Part.stg ∈ ps) (h8 : Part.pair ∈ ps) (h9 : Part.out ∈ ps) :
    hide ps (State.degrade s) = hide ps s := by
  simp only [State.degrade, hide_raiseDev, hide_onPair, hide_mirrorLost, hide_failForwardedMove, hide_failForwarded,
      implies_true, h0, h1, h2, h3, h4, h5, h6, h7, h8, h9]

theorem hide_setPairRole {s : State} {r : RoleWord} (h0 : Part.flash ∈ ps) (h1 : Part.mem ∈ ps) (h2 : Part.pair ∈ ps) :
    hide ps (State.setPairRole s r) = hide ps s := by
  simp only [State.setPairRole, hide_onFlash, hide_setRole, h0, h1, h2]

theorem hide_tellRole {s : State} (h0 : Part.pair ∈ ps) (h1 : Part.out ∈ ps) :
    hide ps (State.tellRole s) = hide ps s := by
  simp only [State.tellRole, hide_send, ite_self, hide_ite, h0, h1]

theorem hide_discardData {s : State} {which : VolId → Bool} (h0 : Part.raised ∈ ps) (h1 : ∀ x, Part.alarm x ∈ ps)
    (h2 : Part.stg ∈ ps) (h3 : Part.mem ∈ ps) :
    hide ps (State.discardData s which) = hide ps s := by
  simp only [State.discardData, hide_onStg, hide_dropDirty, implies_true, h0, h1, h2, h3]

theorem hide_unbind {s : State} {which : VolId → Bool} (h0 : Part.vols ∈ ps) (h1 : Part.stg ∈ ps) :
    hide ps (State.unbind s which) = hide ps s := by
  simp only [State.unbind, hide_saveVols, hide_setVols, h0, h1]

theorem hide_dropMirrors {s : State} (h0 : Part.raised ∈ ps) (h1 : ∀ x, Part.alarm x ∈ ps) (h2 : Part.vols ∈ ps)
    (h3 : Part.stg ∈ ps) (h4 : Part.mem ∈ ps) (h5 : Part.pair ∈ ps) :
    hide ps (State.dropMirrors s) = hide ps s := by
  simp only [State.dropMirrors, hide_onPair, hide_dropUncommitted, hide_unbind, hide_discardData, implies_true, h0, h1,
      h2, h3, h4, h5]

theorem hide_endPair {s : State} (h0 : Part.raised ∈ ps) (h1 : ∀ x, Part.alarm x ∈ ps) (h2 : Part.flash ∈ ps)
    (h3 : Part.mem ∈ ps) (h4 : Part.pair ∈ ps) :
    hide ps (State.endPair s) = hide ps s := by
  simp only [State.endPair, hide_onPair, hide_setPairRole, hide_dropUncommitted, implies_true, h0, h1, h2, h3, h4]

theorem hide_startTakeover {s : State} (h0 : Part.mode ∈ ps) (h1 : Part.sys ∈ ps) (h2 : Part.raised ∈ ps)
    (h3 : Part.ev ∈ ps) (h4 : ∀ x, Part.queues x ∈ ps) (h5 : ∀ x, Part.msix x ∈ ps) (h6 : ∀ x, Part.mbx x ∈ ps)
    (h7 : ∀ x, Part.alarm x ∈ ps) (h8 : Part.cmds ∈ ps) (h9 : ∀ x, Part.afe x ∈ ps) (h10 : ∀ x, Part.rc x ∈ ps)
    (h11 : ∀ x, Part.wp x ∈ ps) (h12 : ∀ x, Part.srv x ∈ ps) (h13 : ∀ x, Part.seq x ∈ ps) (h14 : Part.hnd ∈ ps)
    (h15 : Part.stg ∈ ps) (h16 : Part.mem ∈ ps) (h17 : Part.pair ∈ ps) (h18 : Part.out ∈ ps) :
    hide ps (State.startTakeover s) = hide ps s := by
  simp only [State.startTakeover, hide_raiseDev, hide_setMode, hide_mirrorLost, hide_onPair, hide_dropUncommitted,
      implies_true, h0, h1, h2, h3, h4, h5, h6, h7, h8, h9, h10, h11, h12, h13, h14, h15, h16, h17, h18]

theorem hide_peerLost {s : State} (h0 : Part.raised ∈ ps) (h1 : ∀ x, Part.queues x ∈ ps) (h2 : ∀ x, Part.msix x ∈ ps)
    (h3 : ∀ x, Part.alarm x ∈ ps) (h4 : Part.cmds ∈ ps) (h5 : Part.stg ∈ ps) (h6 : Part.pair ∈ ps) (h7 : Part.out ∈ ps) :
    hide ps (State.peerLost s) = hide ps s := by
  simp only [State.peerLost, hide_mirrorLost, hide_raiseDev, hide_onPair, ite_self, implies_true, hide_ite, h0, h1, h2,
      h3, h4, h5, h6, h7]

theorem hide_judgeBoth {s : State} (h0 : Part.mode ∈ ps) (h1 : Part.sys ∈ ps) (h2 : Part.raised ∈ ps) (h3 : Part.ev ∈ ps)
    (h4 : ∀ x, Part.queues x ∈ ps) (h5 : ∀ x, Part.msix x ∈ ps) (h6 : ∀ x, Part.mbx x ∈ ps) (h7 : ∀ x, Part.alarm x ∈ ps)
    (h8 : Part.cmds ∈ ps) (h9 : ∀ x, Part.afe x ∈ ps) (h10 : ∀ x, Part.rc x ∈ ps) (h11 : ∀ x, Part.wp x ∈ ps) (h12 : ∀ x,
    Part.srv x ∈ ps) (h13 : ∀ x, Part.seq x ∈ ps) (h14 : Part.hnd ∈ ps) (h15 : Part.stg ∈ ps) (h16 : Part.mem ∈ ps)
    (h17 : Part.pair ∈ ps) (h18 : Part.out ∈ ps) :
    hide ps (State.judgeBoth s) = hide ps s := by
  unfold State.judgeBoth
  repeat' split
  all_goals simp only [hide_startTakeover, hide_peerLost, hide_mirrorLost, hide_onSys, or_true, or_self, implies_true,
      h0, h1, h2, h3, h4, h5, h6, h7, h8, h9, h10, h11, h12, h13, h14, h15, h16, h17, h18]

theorem hide_returnTo {s : State} {m : Mode} (h0 : Part.mode ∈ ps) (h1 : Part.sys ∈ ps) (h2 : Part.raised ∈ ps)
    (h3 : Part.ev ∈ ps) (h4 : ∀ x, Part.queues x ∈ ps) (h5 : ∀ x, Part.msix x ∈ ps) (h6 : ∀ x, Part.mbx x ∈ ps)
    (h7 : ∀ x, Part.alarm x ∈ ps) (h8 : Part.cmds ∈ ps) (h9 : ∀ x, Part.afe x ∈ ps) (h10 : ∀ x, Part.rc x ∈ ps)
    (h11 : ∀ x, Part.wp x ∈ ps) (h12 : ∀ x, Part.srv x ∈ ps) (h13 : ∀ x, Part.seq x ∈ ps) (h14 : Part.hnd ∈ ps)
    (h15 : Part.stg ∈ ps) (h16 : Part.mem ∈ ps) (h17 : Part.pair ∈ ps) (h18 : Part.out ∈ ps) :
    hide ps (State.returnTo s m) = hide ps s := by
  simp only [State.returnTo, hide_setMode, hide_startTakeover, ite_self, implies_true, hide_ite, h0, h1, h2, h3, h4, h5,
      h6, h7, h8, h9, h10, h11, h12, h13, h14, h15, h16, h17, h18]

theorem hide_failJoin {s : State} {status : Byte} (h0 : Part.raised ∈ ps) (h1 : ∀ x, Part.queues x ∈ ps) (h2 : ∀ x,
    Part.msix x ∈ ps) (h3 : ∀ x, Part.mbx x ∈ ps) (h4 : ∀ x, Part.alarm x ∈ ps) (h5 : Part.vols ∈ ps)
    (h6 : Part.stg ∈ ps) (h7 : Part.mem ∈ ps) (h8 : Part.pair ∈ ps) (h9 : Part.out ∈ ps) :
    hide ps (State.failJoin s status) = hide ps s := by
  unfold State.failJoin
  dsimp only
  repeat' split
  all_goals simp only [hide_onPair, hide_dropMirrors, hide_respondRun, implies_true, h0, h1, h2, h3, h4, h5, h6, h7, h8,
      h9]

theorem hide_tetherStops {s : State} {dest : TetherSt} (h0 : Part.raised ∈ ps) (h1 : ∀ x, Part.queues x ∈ ps) (h2 : ∀ x,
    Part.msix x ∈ ps) (h3 : ∀ x, Part.mbx x ∈ ps) (h4 : ∀ x, Part.alarm x ∈ ps) (h5 : Part.vols ∈ ps)
    (h6 : Part.stg ∈ ps) (h7 : Part.mem ∈ ps) (h8 : Part.pair ∈ ps) (h9 : Part.out ∈ ps) :
    hide ps (State.tetherStops s dest) = hide ps s := by
  simp only [State.tetherStops, hide_onPair, hide_failJoin, ite_self, implies_true, hide_ite, h0, h1, h2, h3, h4, h5, h6,
      h7, h8, h9]

theorem hide_loadImage {s : State} {a : Activation} (h0 : Part.sys ∈ ps) :
    hide ps (State.loadImage s a) = hide ps s := by
  simp only [State.loadImage, hide_onSys, or_true, h0]

theorem hide_markValid {s : State} (h0 : Part.sys ∈ ps) (h1 : Part.flash ∈ ps) :
    hide ps (State.markValid s) = hide ps s := by
  simp only [State.markValid, hide_writeSlot, ite_self, hide_ite, h0, h1]

/-! ### BayWork -/

theorem hide_orderMove {s : State} {src : BitVec 16} {dst : BitVec 16} (h0 : Part.sys ∈ ps) (h1 : Part.raised ∈ ps)
    (h2 : ∀ x, Part.queues x ∈ ps) (h3 : ∀ x, Part.msix x ∈ ps) (h4 : ∀ x, Part.mbx x ∈ ps) (h5 : ∀ x, Part.alarm x ∈ ps)
    (h6 : Part.cmds ∈ ps) (h7 : ∀ x, Part.afe x ∈ ps) (h8 : ∀ x, Part.rc x ∈ ps) (h9 : ∀ x, Part.wp x ∈ ps) (h10 : ∀ x,
    Part.srv x ∈ ps) (h11 : ∀ x, Part.seq x ∈ ps) (h12 : Part.hnd ∈ ps) (h13 : Part.stg ∈ ps) (h14 : Part.pair ∈ ps)
    (h15 : Part.out ∈ ps) :
    hide ps (State.orderMove s src dst).1 = hide ps s := by
  unfold State.orderMove
  repeat' split
  all_goals simp only [hide_beginMove, hide_setBaySt, hide_onHnd, hide_send, implies_true, h0, h1, h2, h3, h4, h5, h6,
      h7, h8, h9, h10, h11, h12, h13, h14, h15]

theorem hide_undo {s : State} {b : BayNo} {cause : Nat} (h0 : Part.raised ∈ ps) (h1 : ∀ x, Part.alarm x ∈ ps)
    (h2 : Part.dec b ∈ ps) (h3 : Part.srv b ∈ ps) (h4 : Part.pool ∈ ps) (h5 : Part.mem ∈ ps) :
    hide ps (State.undo s b cause) = hide ps s := by
  simp only [State.undo, hide_onDec, hide_onPool, hide_giveAll, hide_raiseBay, implies_true, h0, h1, h2, h3, h4, h5]

theorem hide_undoWrite {s : State} {vid : VolId} {hits : Nat → Bool} (h0 : Part.raised ∈ ps) (h1 : ∀ x,
    Part.alarm x ∈ ps) (h2 : ∀ x, Part.dec x ∈ ps) (h3 : ∀ x, Part.srv x ∈ ps) (h4 : Part.pool ∈ ps) (h5 : Part.mem ∈ ps)
    :
    hide ps (State.undoWrite s vid hits) = hide ps s := by
  simp only [State.undoWrite, hide_eachBay, hide_undo, ite_self, implies_true, hide_ite, h0, h1, h2, h3, h4, h5]

theorem hide_spinDown {s : State} {b : BayNo} {after : AfterStop} {row : Nat} (h0 : Part.sys ∈ ps)
    (h1 : Part.raised ∈ ps) (h2 : ∀ x, Part.alarm x ∈ ps) (h3 : Part.afe b ∈ ps) (h4 : Part.rc b ∈ ps)
    (h5 : Part.wp b ∈ ps) (h6 : Part.srv b ∈ ps) (h7 : Part.spn b ∈ ps) (h8 : Part.sld b ∈ ps) (h9 : Part.seq b ∈ ps)
    (h10 : Part.pair ∈ ps) (h11 : Part.out ∈ ps) :
    hide ps (State.spinDown s b after row) = hide ps s := by
  simp only [State.spinDown, hide_onBay, hide_parkFocus, hide_abortCal, hide_setBaySt, ite_self, true_or, or_true,
      or_self, and_self, implies_true, hide_ite, h0, h1, h2, h3, h4, h5, h6, h7, h8, h9, h10, h11]

theorem hide_sendHome {s : State} {b : BayNo} (h0 : Part.sys ∈ ps) (h1 : Part.raised ∈ ps) (h2 : ∀ x, Part.queues x ∈ ps)
    (h3 : ∀ x, Part.msix x ∈ ps) (h4 : ∀ x, Part.mbx x ∈ ps) (h5 : ∀ x, Part.alarm x ∈ ps) (h6 : Part.cmds ∈ ps)
    (h7 : ∀ x, Part.afe x ∈ ps) (h8 : ∀ x, Part.rc x ∈ ps) (h9 : ∀ x, Part.wp x ∈ ps) (h10 : ∀ x, Part.srv x ∈ ps)
    (h11 : ∀ x, Part.seq x ∈ ps) (h12 : Part.hnd ∈ ps) (h13 : Part.stg ∈ ps) (h14 : Part.pair ∈ ps) (h15 : Part.out ∈ ps)
    :
    hide ps (State.sendHome s b) = hide ps s := by
  unfold State.sendHome
  try dsimp only
  repeat' split
  all_goals first
    | with_reducible rfl
    | (simp only [hide_endWaiters, implies_true, h2, h3, h6, h13, h14, h15]; done)
    | (rename _ = (_, _) => h
       obtain rfl := congrArg Prod.fst h
       simp only [hide_orderMove, hide_onSeq, hide_endWaiters, implies_true, h0, h1, h2, h3, h4, h5, h6, h7, h8, h9, h10,
           h11, h12, h13, h14, h15]; done)

theorem hide_unload {s : State} {b : BayNo} {row : Nat} (h0 : Part.sys ∈ ps) (h1 : Part.raised ∈ ps) (h2 : ∀ x,
    Part.queues x ∈ ps) (h3 : ∀ x, Part.msix x ∈ ps) (h4 : ∀ x, Part.mbx x ∈ ps) (h5 : ∀ x, Part.alarm x ∈ ps)
    (h6 : Part.cmds ∈ ps) (h7 : ∀ x, Part.afe x ∈ ps) (h8 : ∀ x, Part.rc x ∈ ps) (h9 : Part.dec b ∈ ps) (h10 : ∀ x,
    Part.wp x ∈ ps) (h11 : ∀ x, Part.srv x ∈ ps) (h12 : ∀ x, Part.seq x ∈ ps) (h13 : Part.hnd ∈ ps) (h14 : Part.stg ∈ ps)
    (h15 : Part.pair ∈ ps) (h16 : Part.out ∈ ps) :
    hide ps (State.unload s b row) = hide ps s := by
  have hf : ∀ t : State, hide ps (t.onBay b Bay.freshDisc) = hide ps t := fun t =>
    hide_onBay (Or.inr rfl) (by first | exact Or.inr rfl | exact Or.inl (by solve_by_elim))
        (by first | exact Or.inr rfl | exact Or.inl (by solve_by_elim))
        (by first | exact Or.inr rfl | exact Or.inl (by solve_by_elim))
        (by first | exact Or.inr rfl | exact Or.inl (by solve_by_elim)) (Or.inr rfl) (Or.inr rfl)
        (by first | exact Or.inr rfl | exact Or.inl (by solve_by_elim)) (Or.inr ⟨rfl, rfl⟩)
  unfold State.unload
  split
  · simp only [hf, hide_sendHome, hide_onSeq, hide_setBaySt, implies_true, h0, h1, h2, h3, h4, h5, h6, h7, h8, h10, h11,
      h12, h13, h14, h15, h16]
  · rfl

theorem hide_orderUnmount {s : State} {b : BayNo} {cmd : Option CmdId} (h0 : Part.sys ∈ ps) (h1 : Part.raised ∈ ps)
    (h2 : ∀ x, Part.queues x ∈ ps) (h3 : ∀ x, Part.msix x ∈ ps) (h4 : ∀ x, Part.mbx x ∈ ps) (h5 : ∀ x, Part.alarm x ∈ ps)
    (h6 : Part.cmds ∈ ps) (h7 : ∀ x, Part.afe x ∈ ps) (h8 : ∀ x, Part.rc x ∈ ps) (h9 : Part.dec b ∈ ps) (h10 : ∀ x,
    Part.wp x ∈ ps) (h11 : ∀ x, Part.srv x ∈ ps) (h12 : ∀ x, Part.seq x ∈ ps) (h13 : Part.pool ∈ ps)
    (h14 : Part.hnd ∈ ps) (h15 : Part.stg ∈ ps) (h16 : Part.mem ∈ ps) (h17 : Part.pair ∈ ps) (h18 : Part.out ∈ ps) :
    hide ps (State.orderUnmount s b cmd) = hide ps s := by
  unfold State.orderUnmount
  repeat' split
  all_goals simp only [hide_onBay, hide_unload, hide_undo, true_or, or_true, or_self, and_self, implies_true, h0, h1, h2,
      h3, h4, h5, h6, h7, h8, h9, h10, h11, h12, h13, h14, h15, h16, h17, h18]

theorem hide_placeDisc {s : State} {vid : VolId} (h0 : Part.sys ∈ ps) (h1 : Part.raised ∈ ps) (h2 : ∀ x,
    Part.queues x ∈ ps) (h3 : ∀ x, Part.msix x ∈ ps) (h4 : ∀ x, Part.mbx x ∈ ps) (h5 : ∀ x, Part.alarm x ∈ ps)
    (h6 : Part.cmds ∈ ps) (h7 : ∀ x, Part.afe x ∈ ps) (h8 : ∀ x, Part.rc x ∈ ps) (h9 : ∀ x, Part.dec x ∈ ps) (h10 : ∀ x,
    Part.wp x ∈ ps) (h11 : ∀ x, Part.srv x ∈ ps) (h12 : ∀ x, Part.seq x ∈ ps) (h13 : Part.pool ∈ ps)
    (h14 : Part.hnd ∈ ps) (h15 : Part.stg ∈ ps) (h16 : Part.mem ∈ ps) (h17 : Part.pair ∈ ps) (h18 : Part.out ∈ ps) :
    hide ps (State.placeDisc s vid) = hide ps s := by
  unfold State.placeDisc
  try dsimp only
  repeat' split
  all_goals first
    | with_reducible rfl
    | (simp only [hide_onSeq, hide_endWaiters, hide_orderUnmount, implies_true, h0, h1, h2, h3, h4, h5, h6, h7, h8, h9,
        h10, h11, h12, h13, h14, h15, h16, h17, h18]; done)
    | (rename _ = (_, _) => h
       obtain rfl := congrArg Prod.fst h
       simp only [hide_onSeq, hide_orderMove, hide_endWaiters, implies_true, h0, h1, h2, h3, h4, h5, h6, h7, h8, h10,
           h11, h12, h14, h15, h17, h18]; done)

theorem hide_mountDone {s : State} {vid : VolId} {b : BayNo} (h0 : ∀ x, Part.queues x ∈ ps) (h1 : ∀ x, Part.msix x ∈ ps)
    (h2 : Part.cmds ∈ ps) (h3 : Part.stg ∈ ps) (h4 : Part.pair ∈ ps) (h5 : Part.out ∈ ps) :
    hide ps (State.mountDone s vid b) = hide ps s := by
  simp only [State.mountDone, hide_complete, hide_setWait, hide_foldl, ite_self, implies_true, hide_ite, h0, h1, h2, h3,
      h4, h5]

theorem hide_mountsFailed {s : State} {vid : VolId} (h0 : ∀ x, Part.queues x ∈ ps) (h1 : ∀ x, Part.msix x ∈ ps)
    (h2 : Part.cmds ∈ ps) (h3 : Part.stg ∈ ps) (h4 : Part.pair ∈ ps) (h5 : Part.out ∈ ps) :
    hide ps (State.mountsFailed s vid) = hide ps s := by
  simp only [State.mountsFailed, hide_complete, hide_foldl, implies_true, h0, h1, h2, h3, h4, h5]

theorem hide_tellVol {s : State} {vid : VolId} (h0 : Part.pair ∈ ps) (h1 : Part.out ∈ ps) :
    hide ps (State.tellVol s vid) = hide ps s := by
  unfold State.tellVol
  repeat' split
  all_goals simp only [hide_sendAbout, h0, h1]

theorem hide_saveAll {s : State} (h0 : Part.flash ∈ ps) (h1 : Part.stg ∈ ps) :
    hide ps (State.saveAll s) = hide ps s := by
  simp only [State.saveAll, hide_saveVols, hide_onFlash, ite_self, hide_ite, h0, h1]

theorem hide_formatBegins {s : State} {vid : VolId} (h0 : Part.sys ∈ ps) (h1 : Part.flash ∈ ps) (h2 : Part.mem ∈ ps) :
    hide ps (State.formatBegins s vid) = hide ps s := by
  simp only [State.formatBegins, hide_setProgress, h0, h1, h2]

theorem hide_formatEnds {s : State} {p : Port} {status : Byte} (h0 : Part.sys ∈ ps) (h1 : Part.queues p ∈ ps)
    (h2 : Part.msix p ∈ ps) (h3 : Part.mbx p ∈ ps) (h4 : Part.flash ∈ ps) (h5 : Part.mem ∈ ps) (h6 : Part.out ∈ ps) :
    hide ps (State.formatEnds s p status) = hide ps s := by
  simp only [State.formatEnds, hide_setProgress, hide_respondRun, h0, h1, h2, h3, h4, h5, h6]

theorem hide_formatWritten {s : State} {b : BayNo} {vid : VolId} {remap : Bool} (h0 : Part.sys ∈ ps)
    (h1 : Part.vols ∈ ps) (h2 : Part.flash ∈ ps) (h3 : Part.stg ∈ ps) (h4 : Part.pair ∈ ps) (h5 : Part.out ∈ ps) :
    hide ps (State.formatWritten s b vid remap) = hide ps s := by
  simp only [State.formatWritten, hide_onVol, hide_onSys, hide_tellVol, hide_saveAll, or_true, h0, h1, h2, h3, h4, h5]

theorem hide_onEntry {s : State} {b : BayNo} {i : Nat} {f : Entry → Entry} (h0 : Part.dec b ∈ ps) :
    hide ps (State.onEntry s b i f) = hide ps s := by
  simp only [State.onEntry, hide_onDec, h0]

theorem hide_closeEntry {s : State} {b : BayNo} {i : Nat} (h0 : Part.raised ∈ ps) (h1 : ∀ x, Part.alarm x ∈ ps)
    (h2 : Part.dec b ∈ ps) (h3 : Part.seq b ∈ ps) (h4 : Part.pool ∈ ps) (h5 : Part.mem ∈ ps) :
    hide ps (State.closeEntry s b i) = hide ps s := by
  simp only [State.closeEntry, hide_giveAll, hide_onPool, hide_onBay, true_or, or_true, and_self, implies_true, h0, h1,
      h2, h3, h4, h5]

theorem hide_settleRead {s : State} {id : CmdId} (h0 : ∀ x, Part.queues x ∈ ps) (h1 : ∀ x, Part.msix x ∈ ps)
    (h2 : Part.cmds ∈ ps) (h3 : Part.stg ∈ ps) (h4 : Part.pair ∈ ps) (h5 : Part.out ∈ ps) :
    hide ps (State.settleRead s id) = hide ps s := by
  unfold State.settleRead
  repeat' split
  all_goals simp only [hide_complete, implies_true, h0, h1, h2, h3, h4, h5]

theorem hide_deliver {s : State} {id : CmdId} {ucl : Nat} {sec : Nat → Option SectorData} {status : Byte}
    {retried : Bool} (h0 : ∀ x, Part.queues x ∈ ps) (h1 : ∀ x, Part.msix x ∈ ps) (h2 : Part.cmds ∈ ps)
    (h3 : Part.stg ∈ ps) (h4 : Part.pair ∈ ps) (h5 : Part.out ∈ ps) :
    hide ps (State.deliver s id ucl sec status retried) = hide ps s := by
  unfold State.deliver
  repeat' split
  all_goals simp only [hide_giveData, hide_onCmd, hide_settleRead, implies_true, h0, h1, h2, h3, h4, h5]

theorem hide_finishEntry {s : State} {b : BayNo} {i : Nat} {status : Byte} (h0 : Part.raised ∈ ps) (h1 : ∀ x,
    Part.queues x ∈ ps) (h2 : ∀ x, Part.msix x ∈ ps) (h3 : ∀ x, Part.alarm x ∈ ps) (h4 : Part.cmds ∈ ps)
    (h5 : Part.dec b ∈ ps) (h6 : Part.seq b ∈ ps) (h7 : Part.pool ∈ ps) (h8 : Part.stg ∈ ps) (h9 : Part.mem ∈ ps)
    (h10 : Part.pair ∈ ps) (h11 : Part.out ∈ ps) :
    hide ps (State.finishEntry s b i status) = hide ps s := by
  unfold State.finishEntry
  repeat' split
  all_goals simp only [hide_deliver, hide_onSeq, hide_closeEntry, hide_foldl, implies_true, h0, h1, h2, h3, h4, h5, h6,
      h7, h8, h9, h10, h11]

theorem hide_failDisc {s : State} {b : BayNo} (h0 : Part.raised ∈ ps) (h1 : ∀ x, Part.queues x ∈ ps) (h2 : ∀ x,
    Part.msix x ∈ ps) (h3 : ∀ x, Part.alarm x ∈ ps) (h4 : Part.cmds ∈ ps) (h5 : Part.dec b ∈ ps) (h6 : Part.wp b ∈ ps)
    (h7 : Part.seq b ∈ ps) (h8 : Part.pool ∈ ps) (h9 : Part.stg ∈ ps) (h10 : Part.mem ∈ ps) (h11 : Part.pair ∈ ps)
    (h12 : Part.out ∈ ps) :
    hide ps (State.failDisc s b) = hide ps s := by
  have hb : ∀ t : State, hide ps (t.onBay b (fun t =>
      { t with wp := { t.wp with jobs := [], replQueue := [], run := none },
               seq := { t.seq with demand := [], retry := [], slow := [] } }))
      = hide ps t := by
    intro t
    simp only [hide_onBay, true_or, or_true, and_self, h5, h6, h7]
  unfold State.failDisc
  dsimp only
  rw [hide_onStg (by assumption), hb, hide_freeRun, hide_foldl, hide_foldl, hide_foldl]
  · intro t e; simp only [hide_finishEntry, implies_true, h0, h1, h2, h3, h4, h5, h7, h8, h9, h10, h11, h12]
  · intro t c; exact hide_foldl _ (fun t u => by simp only [hide_deliver, implies_true, h1, h2, h4, h9, h11, h12]) _ t
  · intro t j
    split
    · simp only [hide_complete, implies_true, h1, h2, h4, h9, h11, h12]
    · rfl
  all_goals solve_by_elim

end Sys2Proof.Laws
end

