-- ==== Sys2Proof/Laws/HideBays.lean ====
section
/-! SUPPORT. What each shared operation of the front end, the read channel, decoding, writing, the servo and the drives may write. -/

namespace Sys2Proof.Laws

set_option Elab.async false

open Sys2Proof Sys2Proof.Machine Sys2Proof.Safety

variable {ps : List Part}

/-! ### FrontEnd -/

theorem hide_onRecv {s : State} {b : BayNo} {r : RecvNo} {f : Receiver → Receiver} (h0 : Part.afe b ∈ ps) :
    hide ps (State.onRecv s b r f) = hide ps s := by
  simp only [State.onRecv, hide_onAfe, h0]

theorem hide_laneLost {s : State} {b : BayNo} {n : Beam} (h0 : Part.sys ∈ ps) (h1 : Part.raised ∈ ps)
    (h2 : Part.fwq ∈ ps) (h3 : ∀ x, Part.alarm x ∈ ps) (h4 : Part.afe b ∈ ps) (h5 : Part.rc b ∈ ps)
    (h6 : Part.dec b ∈ ps) (h7 : Part.wp b ∈ ps) (h8 : Part.srv b ∈ ps) (h9 : Part.spn b ∈ ps) (h10 : Part.sld b ∈ ps)
    (h11 : Part.seq b ∈ ps) (h12 : Part.pool ∈ ps) (h13 : Part.mem ∈ ps) (h14 : Part.pair ∈ ps) (h15 : Part.out ∈ ps) :
    hide ps (State.laneLost s b n) = hide ps s := by
  simp only [State.laneLost, hide_raiseBay, hide_onAfe, hide_faultBay, hide_setBaySt, hide_stopWriting, ite_self,
      implies_true, hide_ite, h0, h1, h2, h3, h4, h5, h6, h7, h8, h9, h10, h11, h12, h13, h14, h15]

theorem hide_orderRelief {s : State} {b : BayNo} {n : Beam} (h0 : Part.afe b ∈ ps) :
    hide ps (State.orderRelief s b n) = hide ps s := by
  simp only [State.orderRelief, hide_onAfe, h0]

theorem hide_relieveNext {s : State} {b : BayNo} (h0 : Part.afe b ∈ ps) :
    hide ps (State.relieveNext s b) = hide ps s := by
  unfold State.relieveNext
  dsimp only
  repeat' split
  all_goals simp only [hide_orderRelief, h0]

theorem hide_laneBack {s : State} {b : BayNo} {n : Beam} {atOnce : Bool} (h0 : Part.afe b ∈ ps) (h1 : Part.rc b ∈ ps) :
    hide ps (State.laneBack s b n atOnce) = hide ps s := by
  simp only [State.laneBack, hide_onAfe, hide_selectLane, h0, h1]

theorem hide_substitute {s : State} {b : BayNo} {n : Beam} (h0 : Part.sys ∈ ps) (h1 : Part.raised ∈ ps)
    (h2 : Part.fwq ∈ ps) (h3 : ∀ x, Part.alarm x ∈ ps) (h4 : Part.afe b ∈ ps) (h5 : Part.rc b ∈ ps)
    (h6 : Part.dec b ∈ ps) (h7 : Part.wp b ∈ ps) (h8 : Part.srv b ∈ ps) (h9 : Part.spn b ∈ ps) (h10 : Part.sld b ∈ ps)
    (h11 : Part.seq b ∈ ps) (h12 : Part.pool ∈ ps) (h13 : Part.mem ∈ ps) (h14 : Part.pair ∈ ps) (h15 : Part.out ∈ ps) :
    hide ps (State.substitute s b n) = hide ps s := by
  simp only [State.substitute, hide_orderRelief, hide_laneLost, ite_self, implies_true, hide_ite, h0, h1, h2, h3, h4, h5,
      h6, h7, h8, h9, h10, h11, h12, h13, h14, h15]

theorem hide_reliefFailed {s : State} {b : BayNo} (h0 : Part.sys ∈ ps) (h1 : Part.raised ∈ ps) (h2 : Part.fwq ∈ ps)
    (h3 : ∀ x, Part.alarm x ∈ ps) (h4 : Part.afe b ∈ ps) (h5 : Part.rc b ∈ ps) (h6 : Part.dec b ∈ ps)
    (h7 : Part.wp b ∈ ps) (h8 : Part.srv b ∈ ps) (h9 : Part.spn b ∈ ps) (h10 : Part.sld b ∈ ps) (h11 : Part.seq b ∈ ps)
    (h12 : Part.pool ∈ ps) (h13 : Part.mem ∈ ps) (h14 : Part.pair ∈ ps) (h15 : Part.out ∈ ps) :
    hide ps (State.reliefFailed s b) = hide ps s := by
  unfold State.reliefFailed
  dsimp only
  repeat' split
  all_goals simp only [hide_laneLost, hide_onAfe, hide_laneBack, implies_true, h0, h1, h2, h3, h4, h5, h6, h7, h8, h9,
      h10, h11, h12, h13, h14, h15]

theorem hide_proposeRetire {s : State} {b : BayNo} {r : RecvNo} (h0 : Part.raised ∈ ps) (h1 : Part.retry ∈ ps)
    (h2 : Part.ev ∈ ps) (h3 : ∀ x, Part.alarm x ∈ ps) (h4 : Part.afe b ∈ ps) (h5 : Part.srv b ∈ ps) :
    hide ps (State.proposeRetire s b r) = hide ps s := by
  simp only [State.proposeRetire, hide_raiseBay, hide_testLoses, hide_logRetry, hide_onRecv, ite_self, implies_true,
      hide_ite, h0, h1, h2, h3, h4, h5]

theorem hide_runEnds {s : State} {b : BayNo} {c : CalRun} {first : Trim} {final : Trim} (h0 : Part.raised ∈ ps)
    (h1 : ∀ x, Part.alarm x ∈ ps) (h2 : Part.afe b ∈ ps) (h3 : Part.srv b ∈ ps) :
    hide ps (State.runEnds s b c first final) = hide ps s := by
  simp only [State.runEnds, hide_raiseBay, hide_onRecv, hide_onAfe, ite_self, implies_true, hide_ite, h0, h1, h2, h3]

theorem hide_retiredInSlot {s : State} {b : BayNo} {c : CalRun} (h0 : Part.sys ∈ ps) (h1 : Part.raised ∈ ps)
    (h2 : Part.fwq ∈ ps) (h3 : ∀ x, Part.alarm x ∈ ps) (h4 : Part.afe b ∈ ps) (h5 : Part.rc b ∈ ps)
    (h6 : Part.dec b ∈ ps) (h7 : Part.wp b ∈ ps) (h8 : Part.srv b ∈ ps) (h9 : Part.spn b ∈ ps) (h10 : Part.sld b ∈ ps)
    (h11 : Part.seq b ∈ ps) (h12 : Part.pool ∈ ps) (h13 : Part.mem ∈ ps) (h14 : Part.pair ∈ ps) (h15 : Part.out ∈ ps) :
    hide ps (State.retiredInSlot s b c) = hide ps s := by
  simp only [State.retiredInSlot, hide_onAfe, hide_laneLost, ite_self, implies_true, hide_ite, h0, h1, h2, h3, h4, h5,
      h6, h7, h8, h9, h10, h11, h12, h13, h14, h15]

theorem hide_slotRunEnds {s : State} {b : BayNo} {c : CalRun} {first : Trim} {final : Trim} (h0 : Part.sys ∈ ps)
    (h1 : Part.raised ∈ ps) (h2 : Part.fwq ∈ ps) (h3 : Part.retry ∈ ps) (h4 : Part.ev ∈ ps) (h5 : ∀ x, Part.alarm x ∈ ps)
    (h6 : Part.afe b ∈ ps) (h7 : Part.rc b ∈ ps) (h8 : Part.dec b ∈ ps) (h9 : Part.wp b ∈ ps) (h10 : Part.srv b ∈ ps)
    (h11 : Part.spn b ∈ ps) (h12 : Part.sld b ∈ ps) (h13 : Part.seq b ∈ ps) (h14 : Part.pool ∈ ps) (h15 : Part.mem ∈ ps)
    (h16 : Part.pair ∈ ps) (h17 : Part.out ∈ ps) :
    hide ps (State.slotRunEnds s b c first final) = hide ps s := by
  simp only [State.slotRunEnds, hide_onAfe, hide_runEnds, hide_proposeRetire, hide_retiredInSlot, ite_self, implies_true,
      hide_ite, h0, h1, h2, h3, h4, h5, h6, h7, h8, h9, h10, h11, h12, h13, h14, h15, h16, h17]

/-! ### BayMoves -/

theorem hide_takePeriod {s : State} {ids : List Nat} {b : BayNo} (h0 : Part.params ∈ ps) :
    hide ps (State.takePeriod s ids b) = hide ps s := by
  simp only [State.takePeriod, hide_setParams, h0]

theorem hide_takeEffect {s : State} {e : PEffect} {b : BayNo} (h0 : Part.params ∈ ps) :
    hide ps (State.takeEffect s e b) = hide ps s := by
  simp only [State.takeEffect, hide_setParams, h0]

theorem hide_abandonMove {s : State} {b : BayNo} (h0 : Part.raised ∈ ps) (h1 : ∀ x, Part.alarm x ∈ ps)
    (h2 : Part.srv b ∈ ps) :
    hide ps (State.abandonMove s b) = hide ps s := by
  unfold State.abandonMove
  repeat' split
  all_goals simp only [hide_onSrv, hide_raiseBay, implies_true, h0, h1, h2]

theorem hide_lullLoop {s : State} {b : BayNo} {l : LoopId} {cause : LullCause} (h0 : Part.raised ∈ ps) (h1 : ∀ x,
    Part.alarm x ∈ ps) (h2 : Part.srv b ∈ ps) :
    hide ps (State.lullLoop s b l cause) = hide ps s := by
  simp only [State.lullLoop, hide_raiseBay, hide_onSrv, ite_self, implies_true, hide_ite, h0, h1, h2]

theorem hide_enterLull {s : State} {b : BayNo} {l : LoopId} {cause : LullCause} (h0 : Part.raised ∈ ps)
    (h1 : Part.fwq ∈ ps) (h2 : ∀ x, Part.alarm x ∈ ps) (h3 : Part.dec b ∈ ps) (h4 : Part.wp b ∈ ps)
    (h5 : Part.srv b ∈ ps) (h6 : Part.seq b ∈ ps) (h7 : Part.pool ∈ ps) (h8 : Part.mem ∈ ps) (h9 : Part.out ∈ ps) :
    hide ps (State.enterLull s b l cause) = hide ps s := by
  unfold State.enterLull
  repeat' split
  all_goals simp only [hide_lullLoop, hide_onSeq, hide_cutGate, hide_onSrv, hide_abandonMove, implies_true, h0, h1, h2,
      h3, h4, h5, h6, h7, h8, h9]

theorem hide_retract {s : State} {b : BayNo} (h0 : Part.sys ∈ ps) (h1 : Part.raised ∈ ps) (h2 : Part.fwq ∈ ps) (h3 : ∀ x,
    Part.alarm x ∈ ps) (h4 : Part.afe b ∈ ps) (h5 : Part.rc b ∈ ps) (h6 : Part.dec b ∈ ps) (h7 : Part.wp b ∈ ps)
    (h8 : Part.srv b ∈ ps) (h9 : Part.seq b ∈ ps) (h10 : Part.pool ∈ ps) (h11 : Part.mem ∈ ps) (h12 : Part.pair ∈ ps)
    (h13 : Part.out ∈ ps) :
    hide ps (State.retract s b) = hide ps s := by
  simp only [State.retract, hide_raiseBay, hide_abandonMove, hide_onSrv, hide_parkFocus, hide_invalidateTables,
      hide_cutGate, hide_onSeq, hide_setBaySt, implies_true, h0, h1, h2, h3, h4, h5, h6, h7, h8, h9, h10, h11, h12, h13]

theorem hide_stepPassed {s : State} {b : BayNo} {stage : MountStage} (h0 : Part.retry ∈ ps) (h1 : Part.seq b ∈ ps) :
    hide ps (State.stepPassed s b stage) = hide ps s := by
  simp only [State.stepPassed, hide_onSeq, hide_logRetry, ite_self, hide_ite, h0, h1]

theorem hide_mountFails {s : State} {b : BayNo} {stage : MountStage} (h0 : Part.sys ∈ ps) (h1 : Part.raised ∈ ps)
    (h2 : ∀ x, Part.queues x ∈ ps) (h3 : ∀ x, Part.msix x ∈ ps) (h4 : ∀ x, Part.mbx x ∈ ps) (h5 : ∀ x, Part.alarm x ∈ ps)
    (h6 : Part.cmds ∈ ps) (h7 : Part.flash ∈ ps) (h8 : ∀ x, Part.afe x ∈ ps) (h9 : ∀ x, Part.rc x ∈ ps)
    (h10 : Part.dec b ∈ ps) (h11 : ∀ x, Part.wp x ∈ ps) (h12 : ∀ x, Part.srv x ∈ ps) (h13 : Part.spn b ∈ ps)
    (h14 : Part.sld b ∈ ps) (h15 : ∀ x, Part.seq x ∈ ps) (h16 : Part.pool ∈ ps) (h17 : Part.hnd ∈ ps)
    (h18 : Part.stg ∈ ps) (h19 : Part.mem ∈ ps) (h20 : Part.pair ∈ ps) (h21 : Part.out ∈ ps) :
    hide ps (State.mountFails s b stage) = hide ps s := by
  unfold State.mountFails
  repeat' split
  all_goals simp only [hide_raiseBay, hide_mountsFailed, hide_formatEnds, hide_onBay, hide_dropScan, hide_unload,
      hide_spinDown, ite_self, true_or, or_true, or_self, and_self, implies_true, hide_ite, h0, h1, h2, h3, h4, h5, h6,
      h7, h8, h9, h10, h11, h12, h13, h14, h15, h16, h17, h18, h19, h20, h21]

theorem hide_mountStepFailed {s : State} {b : BayNo} {stage : MountStage} (h0 : Part.sys ∈ ps) (h1 : Part.raised ∈ ps)
    (h2 : Part.retry ∈ ps) (h3 : ∀ x, Part.queues x ∈ ps) (h4 : ∀ x, Part.msix x ∈ ps) (h5 : ∀ x, Part.mbx x ∈ ps)
    (h6 : ∀ x, Part.alarm x ∈ ps) (h7 : Part.cmds ∈ ps) (h8 : Part.flash ∈ ps) (h9 : ∀ x, Part.afe x ∈ ps) (h10 : ∀ x,
    Part.rc x ∈ ps) (h11 : Part.dec b ∈ ps) (h12 : ∀ x, Part.wp x ∈ ps) (h13 : ∀ x, Part.srv x ∈ ps)
    (h14 : Part.spn b ∈ ps) (h15 : Part.sld b ∈ ps) (h16 : ∀ x, Part.seq x ∈ ps) (h17 : Part.pool ∈ ps)
    (h18 : Part.hnd ∈ ps) (h19 : Part.stg ∈ ps) (h20 : Part.mem ∈ ps) (h21 : Part.pair ∈ ps) (h22 : Part.out ∈ ps) :
    hide ps (State.mountStepFailed s b stage) = hide ps s := by
  simp only [State.mountStepFailed, hide_mountFails, hide_logRetry, hide_onSeq, ite_self, implies_true, hide_ite, h0, h1,
      h2, h3, h4, h5, h6, h7, h8, h9, h10, h11, h12, h13, h14, h15, h16, h17, h18, h19, h20, h21, h22]

theorem hide_acquisitionFailed {s : State} {b : BayNo} {stage : MountStage} (h0 : Part.sys ∈ ps) (h1 : Part.raised ∈ ps)
    (h2 : Part.fwq ∈ ps) (h3 : Part.retry ∈ ps) (h4 : ∀ x, Part.queues x ∈ ps) (h5 : ∀ x, Part.msix x ∈ ps) (h6 : ∀ x,
    Part.mbx x ∈ ps) (h7 : ∀ x, Part.alarm x ∈ ps) (h8 : Part.cmds ∈ ps) (h9 : Part.flash ∈ ps) (h10 : ∀ x,
    Part.afe x ∈ ps) (h11 : ∀ x, Part.rc x ∈ ps) (h12 : Part.dec b ∈ ps) (h13 : ∀ x, Part.wp x ∈ ps) (h14 : ∀ x,
    Part.srv x ∈ ps) (h15 : Part.spn b ∈ ps) (h16 : Part.sld b ∈ ps) (h17 : ∀ x, Part.seq x ∈ ps) (h18 : Part.pool ∈ ps)
    (h19 : Part.hnd ∈ ps) (h20 : Part.stg ∈ ps) (h21 : Part.mem ∈ ps) (h22 : Part.pair ∈ ps) (h23 : Part.out ∈ ps) :
    hide ps (State.acquisitionFailed s b stage) = hide ps s := by
  simp only [State.acquisitionFailed, hide_mountStepFailed, hide_faultBay, hide_onSeq, ite_self, implies_true, hide_ite,
      h0, h1, h2, h3, h4, h5, h6, h7, h8, h9, h10, h11, h12, h13, h14, h15, h16, h17, h18, h19, h20, h21, h22, h23]

theorem hide_takeUp {s : State} {b : BayNo} {new : BaySt} (h0 : Part.sys ∈ ps) (h1 : Part.raised ∈ ps) (h2 : ∀ x,
    Part.alarm x ∈ ps) (h3 : Part.afe b ∈ ps) (h4 : Part.rc b ∈ ps) (h5 : Part.wp b ∈ ps) (h6 : Part.srv b ∈ ps)
    (h7 : Part.seq b ∈ ps) (h8 : Part.pair ∈ ps) (h9 : Part.out ∈ ps) :
    hide ps (State.takeUp s b new) = hide ps s := by
  simp only [State.takeUp, hide_setBaySt, implies_true, h0, h1, h2, h3, h4, h5, h6, h7, h8, h9]

theorem hide_startMove {s0 : State} {b : BayNo} {k : MoveKind} (h0 : Part.sys ∈ ps) (h1 : Part.raised ∈ ps) (h2 : ∀ x,
    Part.alarm x ∈ ps) (h3 : Part.afe b ∈ ps) (h4 : Part.rc b ∈ ps) (h5 : Part.wp b ∈ ps) (h6 : Part.srv b ∈ ps)
    (h7 : Part.sld b ∈ ps) (h8 : Part.seq b ∈ ps) (h9 : Part.pair ∈ ps) (h10 : Part.out ∈ ps) :
    hide ps (State.startMove s0 b k) = hide ps s0 := by
  unfold State.startMove
  repeat' split
  all_goals simp only [hide_onRc, hide_onBay, hide_takeUp, hide_onSrv, hide_onSld, hide_raiseBay, ite_self, true_or,
      or_true, or_self, and_self, implies_true, hide_ite, h0, h1, h2, h3, h4, h5, h6, h7, h8, h9, h10]

theorem hide_orderServoMove {s : State} {b : BayNo} {k : MoveKind} (h0 : Part.sys ∈ ps) (h1 : Part.raised ∈ ps)
    (h2 : ∀ x, Part.alarm x ∈ ps) (h3 : Part.afe b ∈ ps) (h4 : Part.rc b ∈ ps) (h5 : Part.wp b ∈ ps)
    (h6 : Part.srv b ∈ ps) (h7 : Part.sld b ∈ ps) (h8 : Part.seq b ∈ ps) (h9 : Part.pair ∈ ps) (h10 : Part.out ∈ ps) :
    hide ps (State.orderServoMove s b k) = hide ps s := by
  simp only [State.orderServoMove, hide_onSrv, hide_startMove, ite_self, implies_true, hide_ite, h0, h1, h2, h3, h4, h5,
      h6, h7, h8, h9, h10]

theorem hide_moveDone {s : State} {b : BayNo} (h0 : Part.sys ∈ ps) (h1 : Part.raised ∈ ps) (h2 : ∀ x, Part.alarm x ∈ ps)
    (h3 : Part.afe b ∈ ps) (h4 : Part.rc b ∈ ps) (h5 : Part.wp b ∈ ps) (h6 : Part.srv b ∈ ps) (h7 : Part.sld b ∈ ps)
    (h8 : Part.seq b ∈ ps) (h9 : Part.pair ∈ ps) (h10 : Part.out ∈ ps) :
    hide ps (State.moveDone s b) = hide ps s := by
  unfold State.moveDone
  repeat' split
  all_goals simp only [hide_onSrv, hide_startMove, hide_setBaySt, implies_true, h0, h1, h2, h3, h4, h5, h6, h7, h8, h9,
      h10]

theorem hide_layerFound {s : State} {b : BayNo} {was : Option LayerNo} {up : Bool} {found : LayerNo} (h0 : Part.sys ∈ ps)
    (h1 : Part.raised ∈ ps) (h2 : ∀ x, Part.alarm x ∈ ps) (h3 : Part.afe b ∈ ps) (h4 : Part.rc b ∈ ps)
    (h5 : Part.wp b ∈ ps) (h6 : Part.srv b ∈ ps) (h7 : Part.sld b ∈ ps) (h8 : Part.seq b ∈ ps) (h9 : Part.pair ∈ ps)
    (h10 : Part.out ∈ ps) :
    hide ps (State.layerFound s b was up found) = hide ps s := by
  simp only [State.layerFound, hide_moveDone, hide_raiseBay, ite_self, implies_true, hide_ite, h0, h1, h2, h3, h4, h5,
      h6, h7, h8, h9, h10]

/-! ### Lanes -/

theorem hide_noteAsync {s : State} {b : BayNo} {l : Beam} (h0 : Part.raised ∈ ps) (h1 : ∀ x, Part.alarm x ∈ ps)
    (h2 : Part.rc b ∈ ps) (h3 : Part.srv b ∈ ps) :
    hide ps (State.noteAsync s b l) = hide ps s := by
  simp only [State.noteAsync, hide_onLane, hide_raiseBay, ite_self, implies_true, hide_ite, h0, h1, h2, h3]

theorem hide_sampled {s : State} {b : BayNo} {l : Beam} {samples : List (BitVec 8)} (h0 : Part.raised ∈ ps) (h1 : ∀ x,
    Part.alarm x ∈ ps) (h2 : Part.rc b ∈ ps) (h3 : Part.srv b ∈ ps) :
    hide ps (State.sampled s b l samples) = hide ps s := by
  simp only [State.sampled, hide_noteAsync, hide_onLane, ite_self, implies_true, hide_ite, h0, h1, h2, h3]

/-! ### ReadChannel -/

theorem hide_lateUnread {s : State} {b : BayNo} {home : ClusterAddr} {read : ClusterAddr} (h0 : Part.raised ∈ ps)
    (h1 : ∀ x, Part.alarm x ∈ ps) (h2 : Part.srv b ∈ ps) (h3 : Part.seq b ∈ ps) :
    hide ps (State.lateUnread s b home read) = hide ps s := by
  simp only [State.lateUnread, hide_onSeq, hide_raiseBay, implies_true, h0, h1, h2, h3]

theorem hide_openFresh {s : State} {b : BayNo} {l : Beam} {home : ClusterAddr} {read : ClusterAddr} {seq : BitVec 32}
    {reqs : List CmdId} {cls : CwClass} {use : EntryUse} (h0 : Part.free ∈ ps) (h1 : Part.raised ∈ ps) (h2 : ∀ x,
    Part.alarm x ∈ ps) (h3 : Part.dec b ∈ ps) (h4 : Part.srv b ∈ ps) (h5 : Part.seq b ∈ ps) (h6 : Part.mem ∈ ps) :
    hide ps (State.openFresh s b l home read seq reqs cls use).1 = hide ps s := by
  unfold State.openFresh
  try dsimp only
  repeat' split
  all_goals first
    | with_reducible rfl
    | (simp only [hide_lateUnread, hide_onDec, hide_raiseBay, hide_onSeq, implies_true, h1, h2, h3, h4, h5]; done)
    | (rename _ = (_, _) => h
       obtain rfl := congrArg Prod.fst h
       simp only [hide_fresh, hide_lateUnread, hide_onDec, hide_takeAll, hide_onSeq, implies_true, h0, h1, h2, h3, h4,
           h5, h6]; done)

theorem hide_openVerify {s : State} {b : BayNo} {l : Beam} {read : ClusterAddr} {seq : BitVec 32} (h0 : Part.free ∈ ps)
    (h1 : Part.raised ∈ ps) (h2 : ∀ x, Part.alarm x ∈ ps) (h3 : Part.dec b ∈ ps) (h4 : Part.srv b ∈ ps)
    (h5 : Part.seq b ∈ ps) (h6 : Part.mem ∈ ps) :
    hide ps (State.openVerify s b l read seq) = hide ps s := by
  unfold State.openVerify
  dsimp only
  repeat' split
  all_goals simp only [hide_openFresh, implies_true, h0, h1, h2, h3, h4, h5, h6]

theorem hide_openEntry {s : State} {b : BayNo} {l : Beam} {home : ClusterAddr} {read : ClusterAddr} {cls : CwClass}
    {seq : BitVec 32} (h0 : Part.free ∈ ps) (h1 : Part.raised ∈ ps) (h2 : ∀ x, Part.alarm x ∈ ps) (h3 : Part.dec b ∈ ps)
    (h4 : Part.srv b ∈ ps) (h5 : Part.seq b ∈ ps) (h6 : Part.mem ∈ ps) :
    hide ps (State.openEntry s b l home read cls seq).1 = hide ps s := by
  unfold State.openEntry
  dsimp only
  repeat' split
  all_goals simp only [hide_onSeq, hide_onEntry, hide_openFresh, implies_true, h0, h1, h2, h3, h4, h5, h6]

theorem hide_takeCluster {s : State} {b : BayNo} {l : Beam} {home : ClusterAddr} {read : ClusterAddr} {cls : CwClass}
    {seq : BitVec 32} {cold : Bool} {first : Bool} {cycle : ℚ} (h0 : Part.rc b ∈ ps) :
    hide ps (State.takeCluster s b l home read cls seq cold first cycle) = hide ps s := by
  simp only [State.takeCluster, hide_onLane, h0]

theorem hide_alignLane {s : State} {b : BayNo} {m : Beam} {diff : Int} {cold : Bool} (h0 : Part.raised ∈ ps) (h1 : ∀ x,
    Part.alarm x ∈ ps) (h2 : Part.rc b ∈ ps) (h3 : Part.srv b ∈ ps) :
    hide ps (State.alignLane s b m diff cold) = hide ps s := by
  simp only [State.alignLane, hide_onLane, hide_raiseBay, ite_self, implies_true, hide_ite, h0, h1, h2, h3]

theorem hide_learnOffset {s : State} {b : BayNo} {m : Beam} (h0 : Part.rc b ∈ ps) :
    hide ps (State.learnOffset s b m) = hide ps s := by
  simp only [State.learnOffset, hide_onRc, ite_self, hide_ite, h0]

theorem hide_align {s : State} {b : BayNo} {l : Beam} {f : Nat} (h0 : Part.raised ∈ ps) (h1 : ∀ x, Part.alarm x ∈ ps)
    (h2 : Part.rc b ∈ ps) (h3 : Part.srv b ∈ ps) :
    hide ps (State.align s b l f) = hide ps s := by
  unfold State.align
  split
  · rfl
  · dsimp only
    generalize List.filter _ _ = others
    rename_i ref _
    have ha : hide ps (if l = ref ∧ (s.bays[b].rc.lanes[ref]).cold = true ∧ f = 0 then s.alignLane b ref 0 true else s)
        = hide ps s := by
      split
      · simp only [hide_alignLane, implies_true, h0, h1, h2, h3]
      · rfl
    split
    · refine (hide_foldl _ (fun t m => ?_) _ _).trans ((hide_foldl _ (fun t m => ?_) _ _).trans ha)
      · split
        · simp only [hide_learnOffset, h2]
        · rfl
      · simp only [hide_alignLane, implies_true, h0, h1, h2, h3]
    · refine (hide_foldl _ (fun t m => ?_) _ _).trans ha
      simp only [hide_alignLane, implies_true, h0, h1, h2, h3]

theorem hide_lockLoss {s : State} {b : BayNo} {l : Beam} {f : Nat} {cause : Nat} (h0 : Part.raised ∈ ps) (h1 : ∀ x,
    Part.alarm x ∈ ps) (h2 : Part.rc b ∈ ps) (h3 : Part.srv b ∈ ps) :
    hide ps (State.lockLoss s b l f cause) = hide ps s := by
  simp only [State.lockLoss, hide_raiseBay, hide_onLane, implies_true, h0, h1, h2, h3]

theorem hide_insertSync {s : State} {b : BayNo} {l : Beam} {counted : Bool} (h0 : Part.raised ∈ ps) (h1 : ∀ x,
    Part.alarm x ∈ ps) (h2 : Part.rc b ∈ ps) (h3 : Part.srv b ∈ ps) :
    hide ps (State.insertSync s b l counted) = hide ps s := by
  simp only [State.insertSync, hide_onLane, hide_raiseBay, hide_lockLoss, ite_self, implies_true, hide_ite, h0, h1, h2,
      h3]

theorem hide_acceptSync {s : State} {b : BayNo} {l : Beam} {x : Int} {d : Nat} (h0 : Part.raised ∈ ps) (h1 : ∀ x,
    Part.alarm x ∈ ps) (h2 : Part.rc b ∈ ps) (h3 : Part.srv b ∈ ps) :
    hide ps (State.acceptSync s b l x d) = hide ps s := by
  simp only [State.acceptSync, hide_onLane, hide_noteAsync, hide_align, implies_true, h0, h1, h2, h3]

theorem hide_acqFails {s : State} {b : BayNo} {l : Beam} (h0 : Part.raised ∈ ps) (h1 : ∀ x, Part.alarm x ∈ ps)
    (h2 : Part.rc b ∈ ps) (h3 : Part.srv b ∈ ps) :
    hide ps (State.acqFails s b l) = hide ps s := by
  simp only [State.acqFails, hide_raiseBay, hide_onLane, implies_true, h0, h1, h2, h3]

theorem hide_keepPass {s : State} {b : BayNo} {i : Nat} {k : Nat} {soft : List Int} {erased : Nat}
    (h0 : Part.raised ∈ ps) (h1 : ∀ x, Part.alarm x ∈ ps) (h2 : Part.dec b ∈ ps) (h3 : Part.mem ∈ ps) :
    hide ps (State.keepPass s b i k soft erased) = hide ps s := by
  unfold State.keepPass
  try dsimp only
  repeat' split
  all_goals first
    | with_reducible rfl
    | (simp only [hide_giveAll, hide_onEntry, implies_true, h0, h1, h2, h3]; done)
    | (rename _ = (_, _) => h
       obtain rfl := congrArg Prod.fst h
       simp only [hide_takeAll, hide_giveAll, hide_onEntry, implies_true, h0, h1, h2, h3]; done)

theorem hide_enqueue {s : State} {b : BayNo} {i : Nat} {k : Nat} {soft : List Int} {erased : Nat} (h0 : Part.dec b ∈ ps)
    (h1 : Part.pool ∈ ps) :
    hide ps (State.enqueue s b i k soft erased) = hide ps s := by
  unfold State.enqueue
  repeat' split
  all_goals simp only [hide_onPool, hide_onEntry, h0, h1]

theorem hide_submit {s : State} {b : BayNo} {i : Nat} {k : Nat} {soft : List Int} (h0 : Part.raised ∈ ps) (h1 : ∀ x,
    Part.alarm x ∈ ps) (h2 : Part.dec b ∈ ps) (h3 : Part.pool ∈ ps) (h4 : Part.mem ∈ ps) :
    hide ps (State.submit s b i k soft) = hide ps s := by
  unfold State.submit
  repeat' split
  all_goals simp only [hide_keepPass, hide_onEntry, hide_enqueue, ite_self, implies_true, hide_ite, h0, h1, h2, h3, h4]

theorem hide_recordFrame {s : State} {b : BayNo} {i : Nat} {r : FrameRecord} {fs : List Bool} (h0 : Part.raised ∈ ps)
    (h1 : ∀ x, Part.alarm x ∈ ps) (h2 : Part.dec b ∈ ps) (h3 : Part.pool ∈ ps) (h4 : Part.mem ∈ ps) :
    hide ps (State.recordFrame s b i r fs) = hide ps s := by
  unfold State.recordFrame
  repeat' split
  all_goals simp only [hide_onEntry, hide_submit, hide_foldl, implies_true, h0, h1, h2, h3, h4]

theorem hide_addressMismatch {s : State} {b : BayNo} {l : Beam} {read : ClusterAddr} (h0 : Part.sys ∈ ps)
    (h1 : Part.raised ∈ ps) (h2 : Part.fwq ∈ ps) (h3 : ∀ x, Part.alarm x ∈ ps) (h4 : Part.afe b ∈ ps)
    (h5 : Part.rc b ∈ ps) (h6 : Part.dec b ∈ ps) (h7 : Part.wp b ∈ ps) (h8 : Part.srv b ∈ ps) (h9 : Part.spn b ∈ ps)
    (h10 : Part.sld b ∈ ps) (h11 : Part.seq b ∈ ps) (h12 : Part.pool ∈ ps) (h13 : Part.mem ∈ ps) (h14 : Part.pair ∈ ps)
    (h15 : Part.out ∈ ps) :
    hide ps (State.addressMismatch s b l read) = hide ps s := by
  unfold State.addressMismatch
  dsimp only
  repeat' split
  all_goals simp only [hide_raiseBay, hide_onSeq, hide_faultBay, hide_setBaySt, hide_stopWriting, hide_closeEntry,
      hide_onEntry, hide_lateUnread, hide_onLane, implies_true, h0, h1, h2, h3, h4, h5, h6, h7, h8, h9, h10, h11, h12,
      h13, h14, h15]

theorem hide_judgeAddress {s : State} {b : BayNo} {l : Beam} {r : FrameRecord} (h0 : Part.sys ∈ ps)
    (h1 : Part.raised ∈ ps) (h2 : Part.fwq ∈ ps) (h3 : ∀ x, Part.alarm x ∈ ps) (h4 : Part.afe b ∈ ps)
    (h5 : Part.rc b ∈ ps) (h6 : Part.dec b ∈ ps) (h7 : Part.wp b ∈ ps) (h8 : Part.srv b ∈ ps) (h9 : Part.spn b ∈ ps)
    (h10 : Part.sld b ∈ ps) (h11 : Part.seq b ∈ ps) (h12 : Part.pool ∈ ps) (h13 : Part.mem ∈ ps) (h14 : Part.pair ∈ ps)
    (h15 : Part.out ∈ ps) :
    hide ps (State.judgeAddress s b l r) = hide ps s := by
  unfold State.judgeAddress
  repeat' split
  all_goals simp only [hide_raiseBay, hide_layerFound, hide_onSrv, hide_onSeq, hide_addressMismatch, implies_true, h0,
      h1, h2, h3, h4, h5, h6, h7, h8, h9, h10, h11, h12, h13, h14, h15]

theorem hide_writeBack {s : State} {b : BayNo} {l : Beam} {run : StartEntry} (h0 : Part.rc b ∈ ps) :
    hide ps (State.writeBack s b l run) = hide ps s := by
  simp only [State.writeBack, hide_onRc, h0]

theorem hide_feedbackLoss {s : State} {b : BayNo} {l : LoopId} (h0 : Part.raised ∈ ps) (h1 : Part.fwq ∈ ps) (h2 : ∀ x,
    Part.alarm x ∈ ps) (h3 : Part.dec b ∈ ps) (h4 : Part.wp b ∈ ps) (h5 : Part.srv b ∈ ps) (h6 : Part.seq b ∈ ps)
    (h7 : Part.pool ∈ ps) (h8 : Part.mem ∈ ps) (h9 : Part.out ∈ ps) :
    hide ps (State.feedbackLoss s b l) = hide ps s := by
  simp only [State.feedbackLoss, hide_enterLull, ite_self, implies_true, hide_ite, h0, h1, h2, h3, h4, h5, h6, h7, h8, h9]

/-! ### Decoding -/

theorem hide_retireDecoder {s : State} {d : DecNo} (h0 : Part.raised ∈ ps) (h1 : Part.ev ∈ ps) (h2 : ∀ x,
    Part.alarm x ∈ ps) (h3 : Part.pool ∈ ps) :
    hide ps (State.retireDecoder s d) = hide ps s := by
  simp only [State.retireDecoder, hide_testLoses, hide_raiseDev, hide_onDecoder, hide_onPool, implies_true, h0, h1, h2,
      h3]

theorem hide_checkFails {s : State} {d : DecNo} {c : Codeword} (h0 : Part.raised ∈ ps) (h1 : Part.retry ∈ ps)
    (h2 : Part.ev ∈ ps) (h3 : ∀ x, Part.alarm x ∈ ps) (h4 : Part.pool ∈ ps) :
    hide ps (State.checkFails s d c) = hide ps s := by
  unfold State.checkFails
  repeat' split
  all_goals simp only [hide_raiseDev, hide_onPool, hide_retireDecoder, hide_logRetry, ite_self, implies_true, hide_ite,
      h0, h1, h2, h3, h4]

theorem hide_collect {s : State} {r : DecodeResult} (h0 : ∀ x, Part.dec x ∈ ps) :
    hide ps (State.collect s r) = hide ps s := by
  unfold State.collect
  dsimp only
  repeat' split
  all_goals simp only [hide_onEntry, h0]

theorem hide_metaMismatch {s : State} {b : BayNo} {e : Entry} {i : Nat} {m : Metadata} (h0 : Part.raised ∈ ps) (h1 : ∀ x,
    Part.alarm x ∈ ps) (h2 : Part.srv b ∈ ps) :
    hide ps (State.metaMismatch s b e i m) = hide ps s := by
  simp only [State.metaMismatch, hide_raiseBay, implies_true, h0, h1, h2]

theorem hide_runOuter {s : State} {b : BayNo} {i : Nat} (h0 : Part.raised ∈ ps) (h1 : ∀ x, Part.alarm x ∈ ps)
    (h2 : Part.dec b ∈ ps) (h3 : Part.srv b ∈ ps) (h4 : Part.mem ∈ ps) :
    hide ps (State.runOuter s b i) = hide ps s := by
  unfold State.runOuter
  split
  · rfl
  · have hf : ∀ (u : State) (e : Entry), hide ps ((List.range 32).foldl (fun (t : State) k => match e.misplaced k with
        | some m => t.metaMismatch b e k m
        | none => t) u) = hide ps u := by
      intro u e
      refine hide_foldl _ (fun t k => ?_) _ _
      split
      · simp only [hide_metaMismatch, implies_true, h0, h1, h3]
      · rfl
    dsimp only
    repeat' split
    all_goals
      simp only [hide_raiseBay, hide_giveAll, hide_onEntry, implies_true, h0, h1, h2, h3, h4]
      exact hf _ _

theorem hide_stageWeak {s : State} {b : BayNo} {e : Entry} (h0 : Part.sys ∈ ps) (h1 : Part.raised ∈ ps) (h2 : ∀ x,
    Part.alarm x ∈ ps) (h3 : Part.dec b ∈ ps) (h4 : Part.stg ∈ ps) (h5 : Part.mem ∈ ps) :
    hide ps (State.stageWeak s b e) = hide ps s := by
  unfold State.stageWeak
  repeat' split
  all_goals simp only [hide_placeNew, hide_onSys, hide_onDec, ite_self, or_true, implies_true, hide_ite, h0, h1, h2, h3,
      h4, h5]

theorem hide_judgeWeak {s : State} {b : BayNo} {e : Entry} (h0 : Part.sys ∈ ps) (h1 : Part.raised ∈ ps) (h2 : ∀ x,
    Part.alarm x ∈ ps) (h3 : Part.dec b ∈ ps) (h4 : Part.srv b ∈ ps) (h5 : Part.stg ∈ ps) (h6 : Part.mem ∈ ps) :
    hide ps (State.judgeWeak s b e) = hide ps s := by
  simp only [State.judgeWeak, hide_raiseBay, hide_stageWeak, ite_self, implies_true, hide_ite, h0, h1, h2, h3, h4, h5, h6]

theorem hide_toStore {s : State} {b : BayNo} {i : Nat} {e : Entry} (h0 : Part.raised ∈ ps) (h1 : ∀ x, Part.alarm x ∈ ps)
    (h2 : Part.dec b ∈ ps) (h3 : Part.seq b ∈ ps) (h4 : Part.pool ∈ ps) (h5 : Part.mem ∈ ps) :
    hide ps (State.toStore s b i e) = hide ps s := by
  simp only [State.toStore, hide_closeEntry, hide_onEntry, hide_giveAll, hide_onDec, implies_true, h0, h1, h2, h3, h4, h5]

theorem hide_scheduleReread {s : State} {b : BayNo} {i : Nat} {e : Entry} {kind : Nat} (h0 : Part.dec b ∈ ps)
    (h1 : Part.seq b ∈ ps) :
    hide ps (State.scheduleReread s b i e kind) = hide ps s := by
  simp only [State.scheduleReread, hide_onSeq, hide_onEntry, h0, h1]

theorem hide_clusterDone {s : State} {b : BayNo} {i : Nat} {e : Entry} (h0 : Part.sys ∈ ps) (h1 : Part.raised ∈ ps)
    (h2 : Part.retry ∈ ps) (h3 : ∀ x, Part.queues x ∈ ps) (h4 : ∀ x, Part.msix x ∈ ps) (h5 : ∀ x, Part.alarm x ∈ ps)
    (h6 : Part.cmds ∈ ps) (h7 : Part.dec b ∈ ps) (h8 : Part.srv b ∈ ps) (h9 : Part.seq b ∈ ps) (h10 : Part.pool ∈ ps)
    (h11 : Part.stg ∈ ps) (h12 : Part.mem ∈ ps) (h13 : Part.pair ∈ ps) (h14 : Part.out ∈ ps) :
    hide ps (State.clusterDone s b i e) = hide ps s := by
  simp only [State.clusterDone, hide_logRetry, hide_raiseBay, hide_onSeq, hide_judgeWeak, hide_finishEntry, ite_self,
      implies_true, hide_ite, h0, h1, h2, h3, h4, h5, h6, h7, h8, h9, h10, h11, h12, h13, h14]

theorem hide_passFails {s : State} {b : BayNo} {i : Nat} {e : Entry} (h0 : Part.raised ∈ ps) (h1 : Part.retry ∈ ps)
    (h2 : ∀ x, Part.alarm x ∈ ps) (h3 : Part.dec b ∈ ps) (h4 : Part.srv b ∈ ps) (h5 : Part.seq b ∈ ps) :
    hide ps (State.passFails s b i e) = hide ps s := by
  simp only [State.passFails, hide_logRetry, hide_raiseBay, hide_onSeq, hide_onEntry, hide_scheduleReread, ite_self,
      implies_true, hide_ite, h0, h1, h2, h3, h4, h5]

theorem hide_submitKept {s : State} {b : BayNo} {i : Nat} {e : Entry} {alone : Bool} (h0 : Part.dec b ∈ ps)
    (h1 : Part.pool ∈ ps) :
    hide ps (State.submitKept s b i e alone) = hide ps s := by
  unfold State.submitKept
  refine hide_foldl _ (fun t k => ?_) _ _
  split
  · rfl
  · rfl
  · exact hide_foldl _ (fun u p => by simp only [hide_enqueue, h0, h1]) _ _

theorem hide_awaitPass {s : State} {b : BayNo} {i : Nat} {k : Nat} {n : Nat} (h0 : Part.dec b ∈ ps)
    (h1 : Part.seq b ∈ ps) :
    hide ps (State.awaitPass s b i k n) = hide ps s := by
  unfold State.awaitPass
  repeat' split
  all_goals simp only [hide_onEntry, hide_onSeq, h0, h1]

theorem hide_ladderEnds {s : State} {b : BayNo} {i : Nat} {k : Nat} {e : Entry} (h0 : Part.raised ∈ ps) (h1 : ∀ x,
    Part.queues x ∈ ps) (h2 : ∀ x, Part.msix x ∈ ps) (h3 : ∀ x, Part.alarm x ∈ ps) (h4 : Part.cmds ∈ ps)
    (h5 : Part.dec b ∈ ps) (h6 : Part.srv b ∈ ps) (h7 : Part.seq b ∈ ps) (h8 : Part.pool ∈ ps) (h9 : Part.stg ∈ ps)
    (h10 : Part.mem ∈ ps) (h11 : Part.pair ∈ ps) (h12 : Part.out ∈ ps) :
    hide ps (State.ladderEnds s b i k e) = hide ps s := by
  simp only [State.ladderEnds, hide_finishEntry, hide_raiseBay, implies_true, h0, h1, h2, h3, h4, h5, h6, h7, h8, h9,
      h10, h11, h12]

theorem hide_ladderNext {s : State} {b : BayNo} {i : Nat} {k : Nat} {e : Entry} (h0 : Part.raised ∈ ps) (h1 : ∀ x,
    Part.queues x ∈ ps) (h2 : ∀ x, Part.msix x ∈ ps) (h3 : ∀ x, Part.alarm x ∈ ps) (h4 : Part.cmds ∈ ps)
    (h5 : Part.dec b ∈ ps) (h6 : Part.srv b ∈ ps) (h7 : Part.seq b ∈ ps) (h8 : Part.pool ∈ ps) (h9 : Part.stg ∈ ps)
    (h10 : Part.mem ∈ ps) (h11 : Part.pair ∈ ps) (h12 : Part.out ∈ ps) :
    hide ps (State.ladderNext s b i k e) = hide ps s := by
  simp only [State.ladderNext, hide_ladderEnds, hide_awaitPass, hide_submitKept, hide_onEntry, ite_self, implies_true,
      hide_ite, h0, h1, h2, h3, h4, h5, h6, h7, h8, h9, h10, h11, h12]

theorem hide_ladderJudge {s : State} {b : BayNo} {i : Nat} {n : Nat} (h0 : Part.sys ∈ ps) (h1 : Part.raised ∈ ps)
    (h2 : Part.retry ∈ ps) (h3 : ∀ x, Part.queues x ∈ ps) (h4 : ∀ x, Part.msix x ∈ ps) (h5 : ∀ x, Part.alarm x ∈ ps)
    (h6 : Part.cmds ∈ ps) (h7 : Part.dec b ∈ ps) (h8 : Part.srv b ∈ ps) (h9 : Part.seq b ∈ ps) (h10 : Part.pool ∈ ps)
    (h11 : Part.stg ∈ ps) (h12 : Part.mem ∈ ps) (h13 : Part.pair ∈ ps) (h14 : Part.out ∈ ps) :
    hide ps (State.ladderJudge s b i n) = hide ps s := by
  unfold State.ladderJudge
  dsimp only
  repeat' split
  all_goals simp only [hide_runOuter, hide_onEntry, hide_raiseBay, hide_clusterDone, hide_awaitPass, hide_ladderNext,
      implies_true, h0, h1, h2, h3, h4, h5, h6, h7, h8, h9, h10, h11, h12, h13, h14]

/-! ### IoOps -/

theorem hide_forward {s : State} {c : Cmd} {data : List SectorData} (h0 : ∀ x, Part.queues x ∈ ps) (h1 : ∀ x,
    Part.msix x ∈ ps) (h2 : Part.cmds ∈ ps) (h3 : Part.stg ∈ ps) (h4 : Part.pair ∈ ps) (h5 : Part.out ∈ ps) :
    hide ps (State.forward s c data) = hide ps s := by
  simp only [State.forward, hide_complete, hide_sendAbout, hide_onCmd, ite_self, implies_true, hide_ite, h0, h1, h2, h3,
      h4, h5]

theorem hide_dmaError {s : State} {p : Port} {q : QueueNo} {cid : Nat} (h0 : Part.raised ∈ ps) (h1 : ∀ x,
    Part.alarm x ∈ ps) :
    hide ps (State.dmaError s p q cid) = hide ps s := by
  simp only [State.dmaError, hide_raisePort, implies_true, h0, h1]

theorem hide_dmaFail {s : State} {id : CmdId} {e : DmaErr} (h0 : Part.raised ∈ ps) (h1 : ∀ x, Part.queues x ∈ ps)
    (h2 : ∀ x, Part.msix x ∈ ps) (h3 : ∀ x, Part.alarm x ∈ ps) (h4 : Part.cmds ∈ ps) (h5 : Part.stg ∈ ps)
    (h6 : Part.pair ∈ ps) (h7 : Part.out ∈ ps) :
    hide ps (State.dmaFail s id e) = hide ps s := by
  simp only [State.dmaFail, hide_complete, hide_dmaError, implies_true, h0, h1, h2, h3, h4, h5, h6, h7]

theorem hide_expired {s : State} {id : CmdId} {which : Nat} (h0 : Part.raised ∈ ps) (h1 : ∀ x, Part.alarm x ∈ ps) :
    hide ps (State.expired s id which) = hide ps s := by
  simp only [State.expired, hide_raisePort, ite_self, implies_true, hide_ite, h0, h1]

theorem hide_haltQueue {s : State} {p : Port} {q : QueueNo} (h0 : Part.free ∈ ps) (h1 : Part.raised ∈ ps)
    (h2 : Part.queues p ∈ ps) (h3 : ∀ x, Part.alarm x ∈ ps) :
    hide ps (State.haltQueue s p q) = hide ps s := by
  simp only [State.haltQueue, hide_freeInt, hide_dmaError, hide_raisePort, hide_onQueue, implies_true, h0, h1, h2, h3]

theorem hide_touchStore {s : State} {b : BayNo} {a : ClusterAddr} (h0 : Part.raised ∈ ps) (h1 : ∀ x, Part.alarm x ∈ ps)
    (h2 : Part.dec b ∈ ps) (h3 : Part.mem ∈ ps) :
    hide ps (State.touchStore s b a) = hide ps s := by
  simp only [State.touchStore, hide_giveAll, hide_onDec, implies_true, h0, h1, h2, h3]

theorem hide_attach {s : State} {b : BayNo} {i : Nat} {id : CmdId} (h0 : Part.dec b ∈ ps) (h1 : Part.pool ∈ ps) :
    hide ps (State.attach s b i id) = hide ps s := by
  simp only [State.attach, hide_onPool, hide_onEntry, h0, h1]

theorem hide_wantCluster {s : State} {b : BayNo} {id : CmdId} {u : Nat} (h0 : Part.raised ∈ ps) (h1 : ∀ x,
    Part.queues x ∈ ps) (h2 : ∀ x, Part.msix x ∈ ps) (h3 : ∀ x, Part.alarm x ∈ ps) (h4 : Part.cmds ∈ ps)
    (h5 : Part.dec b ∈ ps) (h6 : Part.seq b ∈ ps) (h7 : Part.pool ∈ ps) (h8 : Part.stg ∈ ps) (h9 : Part.mem ∈ ps)
    (h10 : Part.pair ∈ ps) (h11 : Part.out ∈ ps) :
    hide ps (State.wantCluster s b id u) = hide ps s := by
  unfold State.wantCluster
  dsimp only
  repeat' split
  all_goals simp only [hide_touchStore, hide_deliver, hide_onSeq, hide_attach, implies_true, h0, h1, h2, h3, h4, h5, h6,
      h7, h8, h9, h10, h11]

theorem hide_serveSectors {s : State} {c : Cmd} {v : Volume} {b : Option BayNo} (h0 : Part.raised ∈ ps) (h1 : ∀ x,
    Part.queues x ∈ ps) (h2 : ∀ x, Part.msix x ∈ ps) (h3 : ∀ x, Part.alarm x ∈ ps) (h4 : Part.cmds ∈ ps) (h5 : ∀ x,
    Part.dec x ∈ ps) (h6 : ∀ x, Part.seq x ∈ ps) (h7 : Part.pool ∈ ps) (h8 : Part.stg ∈ ps) (h9 : Part.mem ∈ ps)
    (h10 : Part.pair ∈ ps) (h11 : Part.out ∈ ps) :
    hide ps (State.serveSectors s c v b) = hide ps s := by
  unfold State.serveSectors
  repeat' split
  all_goals simp only [hide_onCmd, hide_giveData, hide_wantCluster, hide_onDec, hide_settleRead, hide_foldl, ite_self,
      implies_true, hide_ite, h0, h1, h2, h3, h4, h5, h6, h7, h8, h9, h10, h11]

theorem hide_serveRead {s : State} {c : Cmd} {v : Volume} (h0 : Part.sys ∈ ps) (h1 : Part.raised ∈ ps) (h2 : ∀ x,
    Part.queues x ∈ ps) (h3 : ∀ x, Part.msix x ∈ ps) (h4 : ∀ x, Part.mbx x ∈ ps) (h5 : ∀ x, Part.alarm x ∈ ps)
    (h6 : Part.cmds ∈ ps) (h7 : ∀ x, Part.afe x ∈ ps) (h8 : ∀ x, Part.rc x ∈ ps) (h9 : ∀ x, Part.dec x ∈ ps) (h10 : ∀ x,
    Part.wp x ∈ ps) (h11 : ∀ x, Part.srv x ∈ ps) (h12 : ∀ x, Part.seq x ∈ ps) (h13 : Part.pool ∈ ps)
    (h14 : Part.hnd ∈ ps) (h15 : Part.stg ∈ ps) (h16 : Part.mem ∈ ps) (h17 : Part.pair ∈ ps) (h18 : Part.out ∈ ps) :
    hide ps (State.serveRead s c v) = hide ps s := by
  unfold State.serveRead
  dsimp only
  repeat' split
  all_goals simp only [hide_serveSectors, hide_placeDisc, hide_setWait, hide_complete, implies_true, h0, h1, h2, h3, h4,
      h5, h6, h7, h8, h9, h10, h11, h12, h13, h14, h15, h16, h17, h18]

theorem hide_placeWrite {s : State} {c : Cmd} {data : List SectorData} (h0 : Part.sys ∈ ps) (h1 : Part.raised ∈ ps)
    (h2 : ∀ x, Part.alarm x ∈ ps) (h3 : Part.stg ∈ ps) (h4 : Part.mem ∈ ps) :
    hide ps (State.placeWrite s c data) = hide ps s := by
  simp only [State.placeWrite, hide_placeNew, hide_onSys, hide_foldl, or_true, implies_true, h0, h1, h2, h3, h4]

theorem hide_applyWrite {s : State} {c : Cmd} {data : List SectorData} (h0 : Part.sys ∈ ps) (h1 : Part.raised ∈ ps)
    (h2 : ∀ x, Part.queues x ∈ ps) (h3 : ∀ x, Part.msix x ∈ ps) (h4 : ∀ x, Part.alarm x ∈ ps) (h5 : Part.cmds ∈ ps)
    (h6 : ∀ x, Part.dec x ∈ ps) (h7 : ∀ x, Part.srv x ∈ ps) (h8 : Part.pool ∈ ps) (h9 : Part.stg ∈ ps)
    (h10 : Part.mem ∈ ps) (h11 : Part.pair ∈ ps) (h12 : Part.out ∈ ps) :
    hide ps (State.applyWrite s c data) = hide ps s := by
  simp only [State.applyWrite, hide_eachBay, hide_placeWrite, hide_onDec, hide_undoWrite, hide_onCmd, hide_setWait,
      hide_sendMirror, hide_onPair, hide_complete, hide_foldl, ite_self, implies_true, hide_ite, h0, h1, h2, h3, h4, h5,
      h6, h7, h8, h9, h10, h11, h12]

theorem hide_serveWrite {s : State} {c : Cmd} {v : Volume} {data : List SectorData} (h0 : Part.sys ∈ ps)
    (h1 : Part.raised ∈ ps) (h2 : ∀ x, Part.queues x ∈ ps) (h3 : ∀ x, Part.msix x ∈ ps) (h4 : ∀ x, Part.mbx x ∈ ps)
    (h5 : ∀ x, Part.alarm x ∈ ps) (h6 : Part.cmds ∈ ps) (h7 : Part.vols ∈ ps) (h8 : ∀ x, Part.afe x ∈ ps) (h9 : ∀ x,
    Part.rc x ∈ ps) (h10 : ∀ x, Part.dec x ∈ ps) (h11 : ∀ x, Part.wp x ∈ ps) (h12 : ∀ x, Part.srv x ∈ ps) (h13 : ∀ x,
    Part.seq x ∈ ps) (h14 : Part.pool ∈ ps) (h15 : Part.hnd ∈ ps) (h16 : Part.stg ∈ ps) (h17 : Part.mem ∈ ps)
    (h18 : Part.pair ∈ ps) (h19 : Part.out ∈ ps) :
    hide ps (State.serveWrite s c v data) = hide ps s := by
  unfold State.serveWrite
  try dsimp only
  repeat' split
  all_goals first
    | with_reducible rfl
    | (simp only [hide_onVol, hide_placeDisc, hide_setWait, hide_complete, hide_applyWrite, hide_expired, hide_gcStart,
        implies_true, h0, h1, h2, h3, h4, h5, h6, h7, h8, h9, h10, h11, h12, h13, h14, h15, h16, h17, h18, h19]; done)

theorem hide_queueJob {s : State} {b : BayNo} {cmd : Option CmdId} {v : Volume} {us : List Nat} (h0 : Part.wp b ∈ ps)
    (h1 : Part.stg ∈ ps) :
    hide ps (State.queueJob s b cmd v us) = hide ps s := by
  simp only [State.queueJob, hide_onStg, hide_onWp, h0, h1]

theorem hide_serveDestage {s : State} {c : Cmd} {v : Volume} (h0 : Part.sys ∈ ps) (h1 : Part.raised ∈ ps) (h2 : ∀ x,
    Part.queues x ∈ ps) (h3 : ∀ x, Part.msix x ∈ ps) (h4 : ∀ x, Part.mbx x ∈ ps) (h5 : ∀ x, Part.alarm x ∈ ps)
    (h6 : Part.cmds ∈ ps) (h7 : ∀ x, Part.afe x ∈ ps) (h8 : ∀ x, Part.rc x ∈ ps) (h9 : ∀ x, Part.dec x ∈ ps) (h10 : ∀ x,
    Part.wp x ∈ ps) (h11 : ∀ x, Part.srv x ∈ ps) (h12 : ∀ x, Part.seq x ∈ ps) (h13 : Part.pool ∈ ps)
    (h14 : Part.hnd ∈ ps) (h15 : Part.stg ∈ ps) (h16 : Part.mem ∈ ps) (h17 : Part.pair ∈ ps) (h18 : Part.out ∈ ps) :
    hide ps (State.serveDestage s c v) = hide ps s := by
  unfold State.serveDestage
  dsimp only
  repeat' split
  all_goals simp only [hide_placeDisc, hide_setWait, hide_complete, hide_onCmd, hide_queueJob, implies_true, h0, h1, h2,
      h3, h4, h5, h6, h7, h8, h9, h10, h11, h12, h13, h14, h15, h16, h17, h18]

/-! ### Writing -/

theorem hide_sendLdl {s : State} {b : BayNo} {req : LdlReq} (h0 : Part.wp b ∈ ps) (h1 : Part.out ∈ ps) :
    hide ps (State.sendLdl s b req) = hide ps s := by
  simp only [State.sendLdl, hide_emit, hide_onWp, ite_self, hide_ite, h0, h1]

theorem hide_readStatus {s : State} {b : BayNo} {v : BitVec 16} (h0 : Part.sys ∈ ps) (h1 : Part.raised ∈ ps)
    (h2 : Part.fwq ∈ ps) (h3 : ∀ x, Part.alarm x ∈ ps) (h4 : Part.afe b ∈ ps) (h5 : Part.rc b ∈ ps)
    (h6 : Part.dec b ∈ ps) (h7 : Part.wp b ∈ ps) (h8 : Part.srv b ∈ ps) (h9 : Part.spn b ∈ ps) (h10 : Part.sld b ∈ ps)
    (h11 : Part.seq b ∈ ps) (h12 : Part.pool ∈ ps) (h13 : Part.mem ∈ ps) (h14 : Part.pair ∈ ps) (h15 : Part.out ∈ ps) :
    hide ps (State.readStatus s b v) = hide ps s := by
  simp only [State.readStatus, hide_onWp, hide_faultBay, hide_raiseBay, ite_self, implies_true, hide_ite, h0, h1, h2, h3,
      h4, h5, h6, h7, h8, h9, h10, h11, h12, h13, h14, h15]

theorem hide_answered {s : State} {b : BayNo} {req : LdlReq} {answer : BitVec 32} (h0 : Part.sys ∈ ps)
    (h1 : Part.raised ∈ ps) (h2 : Part.fwq ∈ ps) (h3 : ∀ x, Part.alarm x ∈ ps) (h4 : Part.afe b ∈ ps)
    (h5 : Part.rc b ∈ ps) (h6 : Part.dec b ∈ ps) (h7 : Part.wp b ∈ ps) (h8 : Part.srv b ∈ ps) (h9 : Part.spn b ∈ ps)
    (h10 : Part.sld b ∈ ps) (h11 : Part.seq b ∈ ps) (h12 : Part.pool ∈ ps) (h13 : Part.mem ∈ ps) (h14 : Part.pair ∈ ps)
    (h15 : Part.out ∈ ps) :
    hide ps (State.answered s b req answer) = hide ps s := by
  simp only [State.answered, hide_readStatus, ite_self, implies_true, hide_ite, h0, h1, h2, h3, h4, h5, h6, h7, h8, h9,
      h10, h11, h12, h13, h14, h15]

theorem hide_loadPowersAt {s : State} {b : BayNo} {block : List Byte} {k : ℚ} (h0 : Part.wp b ∈ ps) (h1 : Part.out ∈ ps) :
    hide ps (State.loadPowersAt s b block k) = hide ps s := by
  simp only [State.loadPowersAt, hide_sendLdl, hide_foldl, implies_true, h0, h1]

theorem hide_loadPowers {s : State} {b : BayNo} {layer : LayerNo} {zone : Nat} (h0 : Part.wp b ∈ ps) (h1 : Part.out ∈ ps)
    :
    hide ps (State.loadPowers s b layer zone) = hide ps s := by
  simp only [State.loadPowers, hide_loadPowersAt, h0, h1]

theorem hide_record {s : State} {b : BayNo} {a : ClusterAddr} {bits : List Bool} (h0 : Part.out ∈ ps) :
    hide ps (State.record s b a bits) = hide ps s := by
  simp only [State.record, hide_emit, h0]

theorem hide_onJob {s : State} {b : BayNo} {f : DestageJob → DestageJob} (h0 : Part.wp b ∈ ps) :
    hide ps (State.onJob s b f) = hide ps s := by
  simp only [State.onJob, hide_onWp, h0]

theorem hide_preRead {s : State} {b : BayNo} {prior : List (ClusterAddr × Option ClusterRead)} (h0 : Part.wp b ∈ ps)
    (h1 : Part.seq b ∈ ps) :
    hide ps (State.preRead s b prior) = hide ps s := by
  simp only [State.preRead, hide_onBay, true_or, or_true, and_self, h0, h1]

theorem hide_fetchStaged {s : State} {items : List WriteItem} (h0 : Part.raised ∈ ps) (h1 : ∀ x, Part.alarm x ∈ ps)
    (h2 : Part.mem ∈ ps) :
    hide ps (State.fetchStaged s items).1 = hide ps s := by
  suffices hs : ∀ (l : List WriteItem) (acc : State × List (ClusterAddr × BitVec 32) × List WriteItem),
      hide ps (l.foldl (fun (acc : State × List (ClusterAddr × BitVec 32) × List WriteItem) (x : WriteItem) =>
        match acc.1.ballastTake stagingOwner 65536 with
        | (t, some h) => (t, acc.2.1 ++ [(x.home, h)], acc.2.2)
        | (t, none) => (t, acc.2.1, acc.2.2 ++ [x])) acc).1 = hide ps acc.1 from hs items _
  intro l
  induction l with
  | nil => intro acc; rfl
  | cons n rest ih =>
    intro acc
    rw [List.foldl_cons, ih]
    split <;>
    · rename_i h
      obtain rfl := congrArg Prod.fst h
      simp only [hide_ballastTake, implies_true, h0, h1, h2]

theorem hide_beginTurn {s : State} {b : BayNo} {layer : LayerNo} {turn : Nat} {items : List WriteItem}
    {rest : List WriteItem} {fresh : Bool} {bufs : List (ClusterAddr × BitVec 32)} (h0 : Part.wp b ∈ ps)
    (h1 : Part.out ∈ ps) :
    hide ps (State.beginTurn s b layer turn items rest fresh bufs) = hide ps s := by
  simp only [State.beginTurn, hide_loadPowers, hide_onWp, hide_onJob, ite_self, hide_ite, h0, h1]

theorem hide_takeTurn {s : State} {b : BayNo} {layer : LayerNo} {turn : Nat} {todo : List WriteItem}
    (h0 : Part.raised ∈ ps) (h1 : ∀ x, Part.alarm x ∈ ps) (h2 : Part.mem ∈ ps) :
    hide ps (State.takeTurn s b layer turn todo).1 = hide ps s := by
  simp only [State.takeTurn, hide_fetchStaged, implies_true, h0, h1, h2]

theorem hide_turnEnds {s : State} {b : BayNo} (h0 : Part.raised ∈ ps) (h1 : ∀ x, Part.alarm x ∈ ps) (h2 : Part.wp b ∈ ps)
    (h3 : Part.mem ∈ ps) (h4 : Part.out ∈ ps) :
    hide ps (State.turnEnds s b) = hide ps s := by
  unfold State.turnEnds
  dsimp only
  repeat' split
  all_goals first
    | with_reducible rfl
    | (simp only [hide_onWp, hide_beginTurn, h2, h4]; done)
    | (rename _ = (_, _) => h
       have h := congrArg Prod.fst h
       dsimp only at h
       subst h
       simp only [hide_onWp, hide_takeTurn, hide_beginTurn, implies_true, h0, h1, h2, h3, h4]; done)

theorem hide_setGate {s : State} {b : BayNo} (h0 : Part.wp b ∈ ps) :
    hide ps (State.setGate s b) = hide ps s := by
  unfold State.setGate
  dsimp only
  repeat' split
  all_goals simp only [hide_onWp, h0]

theorem hide_writePeriod {s : State} {b : BayNo} {was : Nat} (h0 : Part.raised ∈ ps) (h1 : ∀ x, Part.alarm x ∈ ps)
    (h2 : Part.wp b ∈ ps) (h3 : Part.mem ∈ ps) (h4 : Part.out ∈ ps) :
    hide ps (State.writePeriod s b was) = hide ps s := by
  unfold State.writePeriod
  dsimp only
  repeat' split
  all_goals simp only [hide_onWp, hide_sendPulses, hide_setGate, hide_turnEnds, implies_true, h0, h1, h2, h3, h4]

theorem hide_clockPeriod {s : State} {b : BayNo} {errs : List ℚ} (h0 : Part.raised ∈ ps) (h1 : Part.fwq ∈ ps) (h2 : ∀ x,
    Part.alarm x ∈ ps) (h3 : Part.dec b ∈ ps) (h4 : Part.wp b ∈ ps) (h5 : Part.srv b ∈ ps) (h6 : Part.seq b ∈ ps)
    (h7 : Part.pool ∈ ps) (h8 : Part.mem ∈ ps) (h9 : Part.out ∈ ps) :
    hide ps (State.clockPeriod s b errs) = hide ps s := by
  simp only [State.clockPeriod, hide_onWp, hide_cutGate, hide_foldl, ite_self, implies_true, hide_ite, h0, h1, h2, h3,
      h4, h5, h6, h7, h8, h9]

theorem hide_noteVerify {s : State} {b : BayNo} {layer : LayerNo} {failed : Bool} (h0 : Part.wp b ∈ ps) :
    hide ps (State.noteVerify s b layer failed) = hide ps s := by
  simp only [State.noteVerify, hide_onWp, h0]

theorem hide_verdict {s : State} {b : BayNo} {layer : LayerNo} {o : VerifyRead} (h0 : Part.raised ∈ ps) (h1 : ∀ x,
    Part.alarm x ∈ ps) (h2 : Part.wp b ∈ ps) (h3 : Part.srv b ∈ ps) :
    hide ps (State.verdict s b layer o).1 = hide ps s := by
  unfold State.verdict
  repeat' split
  all_goals simp only [hide_noteVerify, hide_raiseBay, implies_true, h0, h1, h2, h3]

theorem hide_countWritten {s : State} {b : BayNo} (h0 : Part.cmds ∈ ps) :
    hide ps (State.countWritten s b) = hide ps s := by
  unfold State.countWritten
  repeat' split
  all_goals simp only [hide_onCmd, h0]

theorem hide_judge {s : State} {b : BayNo} {x : WriteItem} {o : VerifyRead} (h0 : Part.raised ∈ ps) (h1 : ∀ x,
    Part.alarm x ∈ ps) (h2 : Part.cmds ∈ ps) (h3 : Part.wp b ∈ ps) (h4 : Part.srv b ∈ ps) :
    hide ps (State.judge s b x o) = hide ps s := by
  unfold State.judge
  try dsimp only
  repeat' split
  all_goals first
    | with_reducible rfl
    | (simp only [hide_countWritten, hide_onWp, hide_onJob, h2, h3]; done)
    | (rename _ = (_, _) => h
       obtain rfl := congrArg Prod.fst h
       simp only [hide_verdict, hide_countWritten, hide_onWp, hide_onJob, implies_true, h0, h1, h2, h3, h4]; done)

theorem hide_freeStaged {s : State} {b : BayNo} {home : ClusterAddr} (h0 : Part.raised ∈ ps) (h1 : ∀ x,
    Part.alarm x ∈ ps) (h2 : Part.wp b ∈ ps) (h3 : Part.mem ∈ ps) :
    hide ps (State.freeStaged s b home) = hide ps s := by
  unfold State.freeStaged
  repeat' split
  all_goals simp only [hide_giveAll, hide_onWp, implies_true, h0, h1, h2, h3]

theorem hide_onMgmt {s : State} {b : BayNo} {f : MgmtSet → MgmtSet} (h0 : Part.seq b ∈ ps) :
    hide ps (State.onMgmt s b f) = hide ps s := by
  simp only [State.onMgmt, hide_onDisc, h0]

theorem hide_replacedAt {s : State} {b : BayNo} {x : ReplItem} {n : Nat} (h0 : Part.raised ∈ ps) (h1 : ∀ x,
    Part.alarm x ∈ ps) (h2 : Part.wp b ∈ ps) (h3 : Part.srv b ∈ ps) (h4 : Part.seq b ∈ ps) :
    hide ps (State.replacedAt s b x n) = hide ps s := by
  simp only [State.replacedAt, hide_raiseBay, hide_onJob, hide_onMgmt, implies_true, h0, h1, h2, h3, h4]

theorem hide_tryReplace {b : BayNo} {x : ReplItem} {a2 : List WriteTry} {left : Nat} {a4 : State} (h0 : Part.raised ∈ ps)
    (h1 : ∀ x, Part.alarm x ∈ ps) (h2 : Part.wp b ∈ ps) (h3 : Part.srv b ∈ ps) (h4 : Part.seq b ∈ ps)
    (h5 : Part.out ∈ ps) :
    hide ps (State.tryReplace b x a2 left a4).1 = hide ps a4 := by
  have hv : ∀ (u s3 : State) (layer : LayerNo) (r : VerifyRead) (ok : Bool), u.verdict b layer r = (s3,
      ok) → hide ps s3 = hide ps u := by
    intro u s3 layer r ok h
    obtain rfl := congrArg Prod.fst h
    simp only [hide_verdict, implies_true, h0, h1, h2, h3]
  induction a2 generalizing left a4 with
  | nil =>
    rw [State.tryReplace]
    split <;> rfl
  | cons w rest ih =>
    rw [State.tryReplace]
    dsimp only
    split
    · rfl
    · split
      · split
        · simp only [hide_onMgmt, hide_replacedAt, implies_true, h0, h1, h2, h3, h4]
        · rw [ih]; simp only [hide_onMgmt, h4]
      · split
        · simp only [hide_onMgmt, hide_record, hide_loadPowers, h2, h4, h5]
        · split
          · rename_i h
            rw [hide_replacedAt, hv _ _ _ _ _ h]
            all_goals first | assumption | (simp only [hide_onMgmt, hide_record, hide_loadPowers, h2, h4, h5]; done)
          · rename_i h
            rw [ih, hv _ _ _ _ _ h]; simp only [hide_onMgmt, hide_record, hide_loadPowers, h2, h4, h5]

theorem hide_dropWeak {s : State} {x : ReplItem} (h0 : Part.stg ∈ ps) :
    hide ps (State.dropWeak s x) = hide ps s := by
  simp only [State.dropWeak, hide_onStg, h0]

theorem hide_replaceOne {s : State} {b : BayNo} {m : MgmtSet} {x : ReplItem} {tries : List WriteTry}
    (h0 : Part.raised ∈ ps) (h1 : ∀ x, Part.alarm x ∈ ps) (h2 : Part.wp b ∈ ps) (h3 : Part.srv b ∈ ps)
    (h4 : Part.seq b ∈ ps) (h5 : Part.stg ∈ ps) (h6 : Part.out ∈ ps) :
    hide ps (State.replaceOne s b m x tries).1 = hide ps s := by
  unfold State.replaceOne
  try dsimp only
  repeat' split
  all_goals first
    | with_reducible rfl
    | (simp only [hide_dropWeak, hide_onJob, hide_raiseBay, implies_true, h0, h1, h2, h3, h5]; done)
    | (rename _ = (_, _) => h
       obtain rfl := congrArg Prod.fst h
       simp only [hide_onJob, hide_tryReplace, hide_raiseBay, implies_true, h0, h1, h2, h3, h4, h6]; done)

theorem hide_replaceAll {b : BayNo} {a1 : List ReplItem} {a2 : List WriteTry} {a3 : State} (h0 : Part.raised ∈ ps)
    (h1 : ∀ x, Part.alarm x ∈ ps) (h2 : Part.wp b ∈ ps) (h3 : Part.srv b ∈ ps) (h4 : Part.seq b ∈ ps)
    (h5 : Part.stg ∈ ps) (h6 : Part.out ∈ ps) :
    hide ps (State.replaceAll b a1 a2 a3) = hide ps a3 := by
  induction a1 generalizing a2 a3 with
  | nil => simp only [State.replaceAll, hide_onWp, h2]
  | cons x rest ih =>
    rw [State.replaceAll]
    split
    · rfl
    · rename_i m _
      have h := @hide_replaceOne ps a3 b m x a2 (by assumption) (by assumption) (by assumption) (by assumption)
          (by assumption) (by assumption) (by assumption)
      split
      · rename_i e
        rw [ih, ← h, e]
      · rename_i e
        rw [hide_onWp (by assumption), ← h, e]

theorem hide_testPointers {s : State} {b : BayNo} {layer : LayerNo} {probes : List Bool × List Bool}
    (h0 : Part.wp b ∈ ps) :
    hide ps (State.testPointers s b layer probes).2 = hide ps s := by
  unfold State.testPointers
  repeat' split
  all_goals simp only [hide_onWp, h0]

theorem hide_useTest {s : State} {b : BayNo} {layer : LayerNo} {outer : Bool} {n : Nat} (h0 : Part.wp b ∈ ps) :
    hide ps (State.useTest s b layer outer n) = hide ps s := by
  simp only [State.useTest, hide_onWp, h0]

theorem hide_runSteps {s : State} {b : BayNo} {layer : LayerNo} {outer : Bool} {used : Nat} {prev : ℚ} {span : Nat}
    {n : Nat} {tries : List WriteTry} (h0 : Part.wp b ∈ ps) (h1 : Part.out ∈ ps) :
    hide ps (State.runSteps s b layer outer used prev span n tries).1 = hide ps s := by
  suffices hs : ∀ (l : List Nat) (acc : State × List Nat),
      hide ps (l.foldl (fun (acc : State × List Nat) i =>
        let a := addrOfPos layer.val ((testArea outer).1 + used + i)
        let w := tries.getD i { before := none, after := none }
        if acc.1.bays[b].unclean && w.before.isSome then (acc.1, acc.2 ++ [668737])
        else
          let t := (acc.1.loadPowersAt b (s.testBlock b layer outer)
              (stepFactor prev span n i)).record b a (acc.1.bays[b].testBits a)
          let e := match w.after with
            | some r => rawErrors r.soft (codedBits (testWords a))
            | none => 668737
          (t, acc.2 ++ [e])) acc).1 = hide ps acc.1 by
    refine (hs _ _).trans ?_
    simp only [hide_useTest, h0]
  intro l
  induction l with
  | nil => intro acc; rfl
  | cons k rest ih =>
    intro acc
    rw [List.foldl_cons, ih]
    dsimp only
    split
    · rfl
    · simp only [hide_record, hide_loadPowersAt, h0, h1]

theorem hide_calibrated {s : State} {b : BayNo} {layer : LayerNo} {outer : Bool} (h0 : Part.wp b ∈ ps) :
    hide ps (State.calibrated s b layer outer) = hide ps s := by
  simp only [State.calibrated, hide_onWp, h0]

theorem hide_opcAccept {s : State} {b : BayNo} {layer : LayerNo} {outer : Bool} {f : ℚ} (h0 : Part.raised ∈ ps)
    (h1 : ∀ x, Part.alarm x ∈ ps) (h2 : Part.wp b ∈ ps) (h3 : Part.srv b ∈ ps) :
    hide ps (State.opcAccept s b layer outer f) = hide ps s := by
  simp only [State.opcAccept, hide_raiseBay, hide_onBay, true_or, or_true, or_self, and_self, implies_true, h0, h1, h2,
      h3]

theorem hide_areaFull {s : State} {b : BayNo} {layer : LayerNo} (h0 : Part.raised ∈ ps) (h1 : ∀ x, Part.alarm x ∈ ps)
    (h2 : Part.wp b ∈ ps) (h3 : Part.srv b ∈ ps) :
    hide ps (State.areaFull s b layer) = hide ps s := by
  simp only [State.areaFull, hide_raiseBay, hide_onWp, ite_self, implies_true, hide_ite, h0, h1, h2, h3]

theorem hide_opcRun {s : State} {b : BayNo} {layer : LayerNo} {outer : Bool} {used : Nat} {prev : ℚ}
    {tries : List WriteTry} (h0 : Part.raised ∈ ps) (h1 : ∀ x, Part.alarm x ∈ ps) (h2 : Part.wp b ∈ ps)
    (h3 : Part.srv b ∈ ps) (h4 : Part.out ∈ ps) :
    hide ps (State.opcRun s b layer outer used prev tries).1 = hide ps s := by
  unfold State.opcRun
  dsimp only
  repeat' split
  all_goals simp only [hide_areaFull, hide_raiseBay, hide_useTest, hide_runSteps, implies_true, h0, h1, h2, h3, h4]

theorem hide_learnGeometry {s : State} {b : BayNo} {zone : Nat} {off : Vector (Option Nat) 3} (h0 : Part.rc b ∈ ps) :
    hide ps (State.learnGeometry s b zone off) = hide ps s := by
  simp only [State.learnGeometry, hide_onRc, h0]

theorem hide_geometryTurns {s : State} {b : BayNo} {layer : LayerNo} {outer : Bool} {first : Nat}
    {recorded : List ClusterAddr} (h0 : Part.wp b ∈ ps) (h1 : Part.out ∈ ps) :
    hide ps (State.geometryTurns s b layer outer first recorded) = hide ps s := by
  simp only [State.geometryTurns, hide_record, hide_loadPowersAt, hide_foldl, ite_self, implies_true, hide_ite, h0, h1]

theorem hide_geometryFails {s : State} {b : BayNo} (h0 : Part.raised ∈ ps) (h1 : ∀ x, Part.queues x ∈ ps) (h2 : ∀ x,
    Part.msix x ∈ ps) (h3 : ∀ x, Part.alarm x ∈ ps) (h4 : Part.cmds ∈ ps) (h5 : Part.rc b ∈ ps) (h6 : Part.wp b ∈ ps)
    (h7 : Part.srv b ∈ ps) (h8 : Part.stg ∈ ps) (h9 : Part.pair ∈ ps) (h10 : Part.out ∈ ps) :
    hide ps (State.geometryFails s b) = hide ps s := by
  unfold State.geometryFails
  dsimp only
  rw [hide_onWp (by assumption)]
  refine (hide_foldl _ (fun x j => ?_) _ _).trans ?_
  · split
    · simp only [hide_complete, implies_true, h1, h2, h4, h8, h9, h10]
    · rfl
  · simp only [hide_raiseBay, hide_onRc, implies_true, h0, h3, h5, h7]

theorem hide_geometryOnce {s : State} {b : BayNo} {layer : LayerNo} {recorded : List ClusterAddr}
    {reads : Vector (Option LaneRead) 4} (h0 : Part.rc b ∈ ps) (h1 : Part.wp b ∈ ps) (h2 : Part.out ∈ ps) :
    hide ps (State.geometryOnce s b layer recorded reads).1 = hide ps s := by
  unfold State.geometryOnce
  repeat' split
  all_goals simp only [hide_learnGeometry, hide_useTest, hide_geometryTurns, h0, h1, h2]

theorem hide_releaseStaged {s : State} {xs : List WriteItem} (h0 : Part.stg ∈ ps) (h1 : Part.pair ∈ ps)
    (h2 : Part.out ∈ ps) :
    hide ps (State.releaseStaged s xs) = hide ps s := by
  unfold State.releaseStaged
  dsimp only
  repeat' split
  all_goals simp only [hide_onStg, hide_onPair, hide_sendAbout, h0, h1, h2]

theorem hide_volFromSet {s : State} {d : Disc} {m : MgmtSet} {readOnly : Bool} (h0 : Part.vols ∈ ps)
    (h1 : Part.flash ∈ ps) (h2 : Part.stg ∈ ps) (h3 : Part.pair ∈ ps) (h4 : Part.out ∈ ps) :
    hide ps (State.volFromSet s d m readOnly) = hide ps s := by
  simp only [State.volFromSet, hide_tellVol, hide_saveAll, hide_onVol, h0, h1, h2, h3, h4]

theorem hide_volFollows {s : State} {b : BayNo} (h0 : Part.vols ∈ ps) (h1 : Part.flash ∈ ps) (h2 : Part.stg ∈ ps)
    (h3 : Part.pair ∈ ps) (h4 : Part.out ∈ ps) :
    hide ps (State.volFollows s b) = hide ps s := by
  unfold State.volFollows
  repeat' split
  all_goals simp only [hide_volFromSet, h0, h1, h2, h3, h4]

theorem hide_unseal {s : State} {vid : VolId} (h0 : Part.stg ∈ ps) :
    hide ps (State.unseal s vid) = hide ps s := by
  simp only [State.unseal, hide_onStg, h0]

theorem hide_endJob {s : State} {b : BayNo} (h0 : ∀ x, Part.queues x ∈ ps) (h1 : ∀ x, Part.msix x ∈ ps)
    (h2 : Part.cmds ∈ ps) (h3 : Part.wp b ∈ ps) (h4 : Part.stg ∈ ps) (h5 : Part.pair ∈ ps) (h6 : Part.out ∈ ps) :
    hide ps (State.endJob s b) = hide ps s := by
  unfold State.endJob
  dsimp only
  repeat' split
  all_goals simp only [hide_onWp, hide_unseal, hide_complete, implies_true, h0, h1, h2, h3, h4, h5, h6]

theorem hide_writeCopy {b : BayNo} {m : MgmtSet} {second : Bool} {a3 : List WriteTry} {k : Nat} {used : Nat} {a6 : State}
    (h0 : Part.raised ∈ ps) (h1 : ∀ x, Part.alarm x ∈ ps) (h2 : Part.wp b ∈ ps) (h3 : Part.srv b ∈ ps)
    (h4 : Part.out ∈ ps) :
    hide ps (State.writeCopy b m second a3 k used a6).1 = hide ps a6 := by
  have hv : ∀ (u s3 : State) (layer : LayerNo) (r : VerifyRead) (ok : Bool), u.verdict b layer r = (s3,
      ok) → hide ps s3 = hide ps u := by
    intro u s3 layer r ok h
    obtain rfl := congrArg Prod.fst h
    simp only [hide_verdict, implies_true, h0, h1, h2, h3]
  induction a3 generalizing k used a6 with
  | nil =>
    rw [State.writeCopy]
    repeat' split
    all_goals rfl
  | cons w rest ih =>
    rw [State.writeCopy]
    dsimp only
    split
    · rfl
    · split
      · rfl
      · split
        · exact ih
        · split
          · rw [ih]; simp only [hide_record, hide_loadPowers, h2, h4]
          · split
            · rename_i h
              rw [ih, hv _ _ _ _ _ h]; simp only [hide_record, hide_loadPowers, h2, h4]
            · rename_i h
              rw [ih, hv _ _ _ _ _ h]; simp only [hide_record, hide_loadPowers, h2, h4]

theorem hide_writeSet {s : State} {b : BayNo} {d : Disc} {m : MgmtSet} {tries1 : List WriteTry} {tries2 : List WriteTry}
    (h0 : Part.raised ∈ ps) (h1 : ∀ x, Part.alarm x ∈ ps) (h2 : Part.wp b ∈ ps) (h3 : Part.srv b ∈ ps)
    (h4 : Part.seq b ∈ ps) (h5 : Part.out ∈ ps) :
    hide ps (State.writeSet s b d m tries1 tries2).1 = hide ps s := by
  unfold State.writeSet
  dsimp only
  repeat' split
  all_goals simp only [hide_onDisc, hide_writeCopy, implies_true, h0, h1, h2, h3, h4, h5]

theorem hide_destageSet {s : State} {b : BayNo} {done : List WriteItem} {count : Nat} (h0 : ∀ x, Part.queues x ∈ ps)
    (h1 : ∀ x, Part.msix x ∈ ps) (h2 : Part.cmds ∈ ps) (h3 : Part.vols ∈ ps) (h4 : Part.flash ∈ ps)
    (h5 : Part.dec b ∈ ps) (h6 : Part.wp b ∈ ps) (h7 : Part.stg ∈ ps) (h8 : Part.pair ∈ ps) (h9 : Part.out ∈ ps) :
    hide ps (State.destageSet s b done count) = hide ps s := by
  unfold State.destageSet
  repeat' split
  all_goals simp only [hide_onJob, hide_onCmd, hide_endJob, hide_onDec, hide_releaseStaged, hide_volFollows,
      implies_true, h0, h1, h2, h3, h4, h5, h6, h7, h8, h9]

theorem hide_destageRefused {s : State} {b : BayNo} {vid : VolId} (h0 : ∀ x, Part.queues x ∈ ps) (h1 : ∀ x,
    Part.msix x ∈ ps) (h2 : Part.cmds ∈ ps) (h3 : Part.vols ∈ ps) (h4 : Part.flash ∈ ps) (h5 : Part.wp b ∈ ps)
    (h6 : Part.stg ∈ ps) (h7 : Part.pair ∈ ps) (h8 : Part.out ∈ ps) :
    hide ps (State.destageRefused s b vid) = hide ps s := by
  simp only [State.destageRefused, hide_onJob, hide_endJob, hide_unseal, hide_onWp, hide_volFollows, implies_true, h0,
      h1, h2, h3, h4, h5, h6, h7, h8]

/-! ### ServoOps -/

theorem hide_takeSamples {s : State} {b : BayNo} {o : ServoObs} (h0 : Part.raised ∈ ps) (h1 : ∀ x, Part.alarm x ∈ ps)
    (h2 : Part.srv b ∈ ps) :
    hide ps (State.takeSamples s b o) = hide ps s := by
  simp only [State.takeSamples, hide_onSrv, hide_raiseBay, hide_foldl, ite_self, implies_true, hide_ite, h0, h1, h2]

theorem hide_endHold {s : State} {b : BayNo} (h0 : Part.raised ∈ ps) (h1 : ∀ x, Part.alarm x ∈ ps) (h2 : Part.srv b ∈ ps)
    :
    hide ps (State.endHold s b) = hide ps s := by
  unfold State.endHold
  repeat' split
  all_goals simp only [hide_raiseBay, hide_onSrv, implies_true, h0, h1, h2]

theorem hide_sumPeriod {s : State} {b : BayNo} (h0 : Part.raised ∈ ps) (h1 : ∀ x, Part.alarm x ∈ ps)
    (h2 : Part.rc b ∈ ps) (h3 : Part.srv b ∈ ps) :
    hide ps (State.sumPeriod s b) = hide ps s := by
  simp only [State.sumPeriod, hide_onRc, hide_endHold, hide_onBay, ite_self, true_or, or_true, and_self, implies_true,
      hide_ite, h0, h1, h2, h3]

theorem hide_overrun {s : State} {b : BayNo} {l : LoopId} (h0 : Part.raised ∈ ps) (h1 : Part.fwq ∈ ps) (h2 : ∀ x,
    Part.alarm x ∈ ps) (h3 : Part.dec b ∈ ps) (h4 : Part.wp b ∈ ps) (h5 : Part.srv b ∈ ps) (h6 : Part.seq b ∈ ps)
    (h7 : Part.pool ∈ ps) (h8 : Part.mem ∈ ps) (h9 : Part.out ∈ ps) :
    hide ps (State.overrun s b l) = hide ps s := by
  simp only [State.overrun, hide_raiseBay, hide_onSrv, hide_enterLull, ite_self, implies_true, hide_ite, h0, h1, h2, h3,
      h4, h5, h6, h7, h8, h9]

theorem hide_compute {s : State} {b : BayNo} {l : LoopId} {err : ℚ} {ff : ℚ} {cut : Bool} {stopped : Bool}
    (h0 : Part.srv b ∈ ps) :
    hide ps (State.compute s b l err ff cut stopped) = hide ps s := by
  simp only [State.compute, hide_onSrv, h0]

theorem hide_law {s : State} {b : BayNo} {l : LoopId} {onTime : Bool} {err : ℚ} {ff : ℚ} {cut : Bool}
    (h0 : Part.raised ∈ ps) (h1 : Part.fwq ∈ ps) (h2 : ∀ x, Part.alarm x ∈ ps) (h3 : Part.dec b ∈ ps)
    (h4 : Part.wp b ∈ ps) (h5 : Part.srv b ∈ ps) (h6 : Part.seq b ∈ ps) (h7 : Part.pool ∈ ps) (h8 : Part.mem ∈ ps)
    (h9 : Part.out ∈ ps) :
    hide ps (State.law s b l onTime err ff cut) = hide ps s := by
  simp only [State.law, hide_onSrv, hide_enterLull, hide_overrun, hide_compute, ite_self, implies_true, hide_ite, h0, h1,
      h2, h3, h4, h5, h6, h7, h8, h9]

theorem hide_rampPeriod {s : State} {b : BayNo} (h0 : Part.srv b ∈ ps) :
    hide ps (State.rampPeriod s b) = hide ps s := by
  unfold State.rampPeriod
  repeat' split
  all_goals simp only [hide_onSrv, h0]

theorem hide_closeFocus {s : State} {b : BayNo} (h0 : Part.free ∈ ps) (h1 : Part.raised ∈ ps) (h2 : ∀ x,
    Part.alarm x ∈ ps) (h3 : Part.rc b ∈ ps) (h4 : Part.srv b ∈ ps) :
    hide ps (State.closeFocus s b) = hide ps s := by
  simp only [State.closeFocus, hide_freeInt, hide_endHold, hide_onRc, hide_onSrv, implies_true, h0, h1, h2, h3, h4]

theorem hide_closeTracking {s : State} {b : BayNo} (h0 : Part.raised ∈ ps) (h1 : ∀ x, Part.alarm x ∈ ps)
    (h2 : Part.srv b ∈ ps) :
    hide ps (State.closeTracking s b) = hide ps s := by
  simp only [State.closeTracking, hide_onSrv, hide_raiseBay, ite_self, implies_true, hide_ite, h0, h1, h2]

theorem hide_tailPeriod {s : State} {b : BayNo} {dropped : Bool} {i : Fin 2} (h0 : Part.raised ∈ ps) (h1 : ∀ x,
    Part.alarm x ∈ ps) (h2 : Part.srv b ∈ ps) :
    hide ps (State.tailPeriod s b dropped i) = hide ps s := by
  unfold State.tailPeriod
  dsimp only
  repeat' split
  all_goals simp only [hide_onSrv, hide_raiseBay, implies_true, h0, h1, h2]

/-! ### Servo -/

theorem hide_focusPeriod {s : State} {b : BayNo} {fen : ℚ} (h0 : Part.free ∈ ps) (h1 : Part.sys ∈ ps)
    (h2 : Part.raised ∈ ps) (h3 : Part.retry ∈ ps) (h4 : ∀ x, Part.alarm x ∈ ps) (h5 : Part.afe b ∈ ps)
    (h6 : Part.rc b ∈ ps) (h7 : Part.wp b ∈ ps) (h8 : Part.srv b ∈ ps) (h9 : Part.sld b ∈ ps) (h10 : Part.seq b ∈ ps)
    (h11 : Part.pair ∈ ps) (h12 : Part.out ∈ ps) :
    hide ps (State.focusPeriod s b fen) = hide ps s := by
  unfold State.focusPeriod
  dsimp only
  repeat' split
  all_goals simp only [hide_onSrv, hide_closeFocus, hide_raiseBay, hide_stepPassed, hide_moveDone, hide_setBaySt,
      implies_true, h0, h1, h2, h3, h4, h5, h6, h7, h8, h9, h10, h11, h12]

theorem hide_trackPeriod {s : State} {b : BayNo} {ten : ℚ} (h0 : Part.raised ∈ ps) (h1 : ∀ x, Part.alarm x ∈ ps)
    (h2 : Part.srv b ∈ ps) :
    hide ps (State.trackPeriod s b ten) = hide ps s := by
  simp only [State.trackPeriod, hide_onSrv, hide_closeTracking, ite_self, implies_true, hide_ite, h0, h1, h2]

theorem hide_jumpPeriod {s : State} {b : BayNo} {m : Move} {ten : ℚ} (h0 : Part.sys ∈ ps) (h1 : Part.raised ∈ ps)
    (h2 : ∀ x, Part.alarm x ∈ ps) (h3 : Part.afe b ∈ ps) (h4 : Part.rc b ∈ ps) (h5 : Part.wp b ∈ ps)
    (h6 : Part.srv b ∈ ps) (h7 : Part.sld b ∈ ps) (h8 : Part.seq b ∈ ps) (h9 : Part.pair ∈ ps) (h10 : Part.out ∈ ps) :
    hide ps (State.jumpPeriod s b m ten) = hide ps s := by
  simp only [State.jumpPeriod, hide_onSrv, hide_raiseBay, hide_moveDone, ite_self, implies_true, hide_ite, h0, h1, h2,
      h3, h4, h5, h6, h7, h8, h9, h10]

theorem hide_movePeriod {s : State} {b : BayNo} {ten : ℚ} (h0 : Part.sys ∈ ps) (h1 : Part.raised ∈ ps) (h2 : ∀ x,
    Part.alarm x ∈ ps) (h3 : Part.afe b ∈ ps) (h4 : Part.rc b ∈ ps) (h5 : Part.wp b ∈ ps) (h6 : Part.srv b ∈ ps)
    (h7 : Part.sld b ∈ ps) (h8 : Part.seq b ∈ ps) (h9 : Part.pair ∈ ps) (h10 : Part.out ∈ ps) :
    hide ps (State.movePeriod s b ten) = hide ps s := by
  unfold State.movePeriod
  repeat' split
  all_goals simp only [hide_onSrv, hide_jumpPeriod, hide_moveDone, implies_true, h0, h1, h2, h3, h4, h5, h6, h7, h8, h9,
      h10]

theorem hide_lensPeriod {s : State} {b : BayNo} (h0 : Part.raised ∈ ps) (h1 : ∀ x, Part.alarm x ∈ ps)
    (h2 : Part.srv b ∈ ps) :
    hide ps (State.lensPeriod s b) = hide ps s := by
  simp only [State.lensPeriod, hide_onSrv, hide_raiseBay, ite_self, implies_true, hide_ite, h0, h1, h2]

theorem hide_servoLaws {s : State} {b : BayNo} {o : ServoObs} (h0 : Part.free ∈ ps) (h1 : Part.sys ∈ ps)
    (h2 : Part.raised ∈ ps) (h3 : Part.fwq ∈ ps) (h4 : Part.retry ∈ ps) (h5 : ∀ x, Part.alarm x ∈ ps)
    (h6 : Part.afe b ∈ ps) (h7 : Part.rc b ∈ ps) (h8 : Part.dec b ∈ ps) (h9 : Part.wp b ∈ ps) (h10 : Part.srv b ∈ ps)
    (h11 : Part.sld b ∈ ps) (h12 : Part.seq b ∈ ps) (h13 : Part.pool ∈ ps) (h14 : Part.mem ∈ ps) (h15 : Part.pair ∈ ps)
    (h16 : Part.out ∈ ps) :
    hide ps (State.servoLaws s b o) = hide ps s := by
  simp only [State.servoLaws, hide_law, hide_enterLull, hide_lensPeriod, hide_movePeriod, hide_trackPeriod,
      hide_focusPeriod, hide_onSrv, ite_self, implies_true, hide_ite, h0, h1, h2, h3, h4, h5, h6, h7, h8, h9, h10, h11,
      h12, h13, h14, h15, h16]

theorem hide_startSweep {s : State} {b : BayNo} {layer : LayerNo} {fromLull : Bool} (h0 : Part.srv b ∈ ps) :
    hide ps (State.startSweep s b layer fromLull) = hide ps s := by
  simp only [State.startSweep, hide_onSrv, h0]

theorem hide_seekFound {s : State} {b : BayNo} {target : Nat} {turn : Nat} (h0 : Part.sys ∈ ps) (h1 : Part.raised ∈ ps)
    (h2 : ∀ x, Part.alarm x ∈ ps) (h3 : Part.afe b ∈ ps) (h4 : Part.rc b ∈ ps) (h5 : Part.wp b ∈ ps)
    (h6 : Part.srv b ∈ ps) (h7 : Part.sld b ∈ ps) (h8 : Part.seq b ∈ ps) (h9 : Part.pair ∈ ps) (h10 : Part.out ∈ ps) :
    hide ps (State.seekFound s b target turn) = hide ps s := by
  simp only [State.seekFound, hide_startMove, hide_onSrv, hide_moveDone, ite_self, implies_true, hide_ite, h0, h1, h2,
      h3, h4, h5, h6, h7, h8, h9, h10]

theorem hide_positionChecked {s : State} {b : BayNo} {was : Option (LayerNo × Nat × Nat)} {turn : Nat}
    (h0 : Part.sys ∈ ps) (h1 : Part.raised ∈ ps) (h2 : ∀ x, Part.alarm x ∈ ps) (h3 : Part.afe b ∈ ps)
    (h4 : Part.rc b ∈ ps) (h5 : Part.wp b ∈ ps) (h6 : Part.srv b ∈ ps) (h7 : Part.sld b ∈ ps) (h8 : Part.seq b ∈ ps)
    (h9 : Part.pair ∈ ps) (h10 : Part.out ∈ ps) :
    hide ps (State.positionChecked s b was turn) = hide ps s := by
  unfold State.positionChecked
  repeat' split
  all_goals simp only [hide_onSeq, hide_orderServoMove, ite_self, implies_true, hide_ite, h0, h1, h2, h3, h4, h5, h6, h7,
      h8, h9, h10]

theorem hide_placeKnown {s : State} {b : BayNo} {was : Option (LayerNo × Nat × Nat)} {i : WobbleInfo}
    (h0 : Part.sys ∈ ps) (h1 : Part.raised ∈ ps) (h2 : Part.retry ∈ ps) (h3 : ∀ x, Part.alarm x ∈ ps)
    (h4 : Part.afe b ∈ ps) (h5 : Part.rc b ∈ ps) (h6 : Part.wp b ∈ ps) (h7 : Part.srv b ∈ ps) (h8 : Part.sld b ∈ ps)
    (h9 : Part.seq b ∈ ps) (h10 : Part.pair ∈ ps) (h11 : Part.out ∈ ps) :
    hide ps (State.placeKnown s b was i) = hide ps s := by
  unfold State.placeKnown
  dsimp only
  repeat' split
  all_goals simp only [hide_raiseBay, hide_onBay, hide_stepPassed, hide_setBaySt, hide_layerFound, hide_seekFound,
      hide_positionChecked, true_or, or_true, or_self, and_self, implies_true, h0, h1, h2, h3, h4, h5, h6, h7, h8, h9,
      h10, h11]

/-! ### Drives -/

theorem hide_rotorLoss {s : State} {b : BayNo} {cause : Nat} (h0 : Part.sys ∈ ps) (h1 : Part.raised ∈ ps)
    (h2 : Part.fwq ∈ ps) (h3 : ∀ x, Part.alarm x ∈ ps) (h4 : Part.afe b ∈ ps) (h5 : Part.rc b ∈ ps)
    (h6 : Part.dec b ∈ ps) (h7 : Part.wp b ∈ ps) (h8 : Part.srv b ∈ ps) (h9 : Part.spn b ∈ ps) (h10 : Part.sld b ∈ ps)
    (h11 : Part.seq b ∈ ps) (h12 : Part.pool ∈ ps) (h13 : Part.mem ∈ ps) (h14 : Part.pair ∈ ps) (h15 : Part.out ∈ ps) :
    hide ps (State.rotorLoss s b cause) = hide ps s := by
  simp only [State.rotorLoss, hide_coastLevel, hide_cutGate, hide_onBay, hide_setBaySt, hide_parkFocus, hide_abandonMove,
      hide_faultBay, ite_self, true_or, or_true, or_self, and_self, implies_true, hide_ite, h0, h1, h2, h3, h4, h5, h6,
      h7, h8, h9, h10, h11, h12, h13, h14, h15]

theorem hide_loseEncoder {s : State} {b : BayNo} {cause : Nat} (h0 : Part.sys ∈ ps) (h1 : Part.raised ∈ ps)
    (h2 : Part.fwq ∈ ps) (h3 : ∀ x, Part.alarm x ∈ ps) (h4 : Part.afe b ∈ ps) (h5 : Part.rc b ∈ ps)
    (h6 : Part.dec b ∈ ps) (h7 : Part.wp b ∈ ps) (h8 : Part.srv b ∈ ps) (h9 : Part.spn b ∈ ps) (h10 : Part.sld b ∈ ps)
    (h11 : Part.seq b ∈ ps) (h12 : Part.pool ∈ ps) (h13 : Part.mem ∈ ps) (h14 : Part.pair ∈ ps) (h15 : Part.out ∈ ps) :
    hide ps (State.loseEncoder s b cause) = hide ps s := by
  simp only [State.loseEncoder, hide_raiseBay, hide_onSpn, hide_rotorLoss, ite_self, implies_true, hide_ite, h0, h1, h2,
      h3, h4, h5, h6, h7, h8, h9, h10, h11, h12, h13, h14, h15]

theorem hide_sinePeriod {s : State} {b : BayNo} {o : PwmObs} (h0 : Part.raised ∈ ps) (h1 : ∀ x, Part.alarm x ∈ ps)
    (h2 : Part.srv b ∈ ps) (h3 : Part.spn b ∈ ps) :
    hide ps (State.sinePeriod s b o) = hide ps s := by
  simp only [State.sinePeriod, hide_onSpn, hide_raiseBay, ite_self, implies_true, hide_ite, h0, h1, h2, h3]

theorem hide_sixStepPeriod {s : State} {b : BayNo} {o : PwmObs} (h0 : Part.raised ∈ ps) (h1 : ∀ x, Part.alarm x ∈ ps)
    (h2 : Part.srv b ∈ ps) (h3 : Part.spn b ∈ ps) :
    hide ps (State.sixStepPeriod s b o) = hide ps s := by
  simp only [State.sixStepPeriod, hide_onSpn, hide_raiseBay, ite_self, implies_true, hide_ite, h0, h1, h2, h3]

theorem hide_observe {s : State} {b : BayNo} (h0 : Part.spn b ∈ ps) :
    hide ps (State.observe s b) = hide ps s := by
  simp only [State.observe, hide_onSpn, h0]

theorem hide_compareAngles {s : State} {b : BayNo} (h0 : Part.sys ∈ ps) (h1 : Part.raised ∈ ps) (h2 : Part.fwq ∈ ps)
    (h3 : ∀ x, Part.alarm x ∈ ps) (h4 : Part.afe b ∈ ps) (h5 : Part.rc b ∈ ps) (h6 : Part.dec b ∈ ps)
    (h7 : Part.wp b ∈ ps) (h8 : Part.srv b ∈ ps) (h9 : Part.spn b ∈ ps) (h10 : Part.sld b ∈ ps) (h11 : Part.seq b ∈ ps)
    (h12 : Part.pool ∈ ps) (h13 : Part.mem ∈ ps) (h14 : Part.pair ∈ ps) (h15 : Part.out ∈ ps) :
    hide ps (State.compareAngles s b) = hide ps s := by
  simp only [State.compareAngles, hide_onSpn, hide_rotorLoss, ite_self, implies_true, hide_ite, h0, h1, h2, h3, h4, h5,
      h6, h7, h8, h9, h10, h11, h12, h13, h14, h15]

theorem hide_drivenPeriod {was : State} {b : BayNo} {o : PwmObs} (h0 : Part.sys ∈ ps) (h1 : Part.raised ∈ ps)
    (h2 : Part.fwq ∈ ps) (h3 : ∀ x, Part.alarm x ∈ ps) (h4 : Part.params ∈ ps) (h5 : Part.afe b ∈ ps)
    (h6 : Part.rc b ∈ ps) (h7 : Part.dec b ∈ ps) (h8 : Part.wp b ∈ ps) (h9 : Part.srv b ∈ ps) (h10 : Part.spn b ∈ ps)
    (h11 : Part.sld b ∈ ps) (h12 : Part.seq b ∈ ps) (h13 : Part.pool ∈ ps) (h14 : Part.mem ∈ ps) (h15 : Part.pair ∈ ps)
    (h16 : Part.out ∈ ps) :
    hide ps (State.drivenPeriod was b o) = hide ps was := by
  simp only [State.drivenPeriod, hide_onSpn, hide_takePeriod, hide_observe, hide_sixStepPeriod, hide_compareAngles,
      hide_sinePeriod, ite_self, implies_true, hide_ite, h0, h1, h2, h3, h4, h5, h6, h7, h8, h9, h10, h11, h12, h13, h14,
      h15, h16]

theorem hide_atSpeed {s : State} {b : BayNo} (h0 : Part.sys ∈ ps) (h1 : Part.raised ∈ ps) (h2 : Part.retry ∈ ps)
    (h3 : ∀ x, Part.alarm x ∈ ps) (h4 : Part.afe b ∈ ps) (h5 : Part.rc b ∈ ps) (h6 : Part.wp b ∈ ps)
    (h7 : Part.srv b ∈ ps) (h8 : Part.spn b ∈ ps) (h9 : Part.seq b ∈ ps) (h10 : Part.pair ∈ ps) (h11 : Part.out ∈ ps) :
    hide ps (State.atSpeed s b) = hide ps s := by
  simp only [State.atSpeed, hide_onSpn, hide_stepPassed, hide_onSeq, hide_setBaySt, ite_self, implies_true, hide_ite, h0,
      h1, h2, h3, h4, h5, h6, h7, h8, h9, h10, h11]

theorem hide_judgeSpeed {s : State} {b : BayNo} (h0 : Part.sys ∈ ps) (h1 : Part.raised ∈ ps) (h2 : Part.retry ∈ ps)
    (h3 : ∀ x, Part.alarm x ∈ ps) (h4 : Part.afe b ∈ ps) (h5 : Part.rc b ∈ ps) (h6 : Part.wp b ∈ ps)
    (h7 : Part.srv b ∈ ps) (h8 : Part.spn b ∈ ps) (h9 : Part.seq b ∈ ps) (h10 : Part.pair ∈ ps) (h11 : Part.out ∈ ps) :
    hide ps (State.judgeSpeed s b) = hide ps s := by
  simp only [State.judgeSpeed, hide_onSpn, hide_atSpeed, hide_raiseBay, ite_self, implies_true, hide_ite, h0, h1, h2, h3,
      h4, h5, h6, h7, h8, h9, h10, h11]

theorem hide_startFailed {s : State} {b : BayNo} (h0 : Part.sys ∈ ps) (h1 : Part.raised ∈ ps) (h2 : Part.fwq ∈ ps)
    (h3 : Part.retry ∈ ps) (h4 : ∀ x, Part.queues x ∈ ps) (h5 : ∀ x, Part.msix x ∈ ps) (h6 : ∀ x, Part.mbx x ∈ ps)
    (h7 : ∀ x, Part.alarm x ∈ ps) (h8 : Part.cmds ∈ ps) (h9 : Part.flash ∈ ps) (h10 : ∀ x, Part.afe x ∈ ps) (h11 : ∀ x,
    Part.rc x ∈ ps) (h12 : Part.dec b ∈ ps) (h13 : ∀ x, Part.wp x ∈ ps) (h14 : ∀ x, Part.srv x ∈ ps)
    (h15 : Part.spn b ∈ ps) (h16 : Part.sld b ∈ ps) (h17 : ∀ x, Part.seq x ∈ ps) (h18 : Part.pool ∈ ps)
    (h19 : Part.hnd ∈ ps) (h20 : Part.stg ∈ ps) (h21 : Part.mem ∈ ps) (h22 : Part.pair ∈ ps) (h23 : Part.out ∈ ps) :
    hide ps (State.startFailed s b) = hide ps s := by
  simp only [State.startFailed, hide_mountStepFailed, hide_faultBay, hide_onSeq, ite_self, implies_true, hide_ite, h0,
      h1, h2, h3, h4, h5, h6, h7, h8, h9, h10, h11, h12, h13, h14, h15, h16, h17, h18, h19, h20, h21, h22, h23]

theorem hide_sledToMount {s : State} {b : BayNo} (h0 : Part.raised ∈ ps) (h1 : ∀ x, Part.alarm x ∈ ps)
    (h2 : Part.srv b ∈ ps) (h3 : Part.sld b ∈ ps) :
    hide ps (State.sledToMount s b) = hide ps s := by
  simp only [State.sledToMount, hide_onSld, hide_raiseBay, ite_self, implies_true, hide_ite, h0, h1, h2, h3]

theorem hide_sledStalled {s : State} {b : BayNo} {cause : Nat} (h0 : Part.sys ∈ ps) (h1 : Part.raised ∈ ps)
    (h2 : Part.fwq ∈ ps) (h3 : Part.retry ∈ ps) (h4 : ∀ x, Part.alarm x ∈ ps) (h5 : Part.afe b ∈ ps)
    (h6 : Part.rc b ∈ ps) (h7 : Part.dec b ∈ ps) (h8 : Part.wp b ∈ ps) (h9 : Part.srv b ∈ ps) (h10 : Part.spn b ∈ ps)
    (h11 : Part.sld b ∈ ps) (h12 : Part.seq b ∈ ps) (h13 : Part.pool ∈ ps) (h14 : Part.mem ∈ ps) (h15 : Part.pair ∈ ps)
    (h16 : Part.out ∈ ps) :
    hide ps (State.sledStalled s b cause) = hide ps s := by
  simp only [State.sledStalled, hide_raiseBay, hide_onSld, hide_faultBay, hide_logRetry, hide_onBay, ite_self, true_or,
      or_true, or_self, and_self, implies_true, hide_ite, h0, h1, h2, h3, h4, h5, h6, h7, h8, h9, h10, h11, h12, h13,
      h14, h15, h16]

theorem hide_sledEnded {s : State} {b : BayNo} (h0 : Part.retry ∈ ps) (h1 : Part.seq b ∈ ps) :
    hide ps (State.sledEnded s b) = hide ps s := by
  simp only [State.sledEnded, hide_onSeq, hide_logRetry, ite_self, hide_ite, h0, h1]

theorem hide_driveSled {s : State} {b : BayNo} (h0 : Part.sld b ∈ ps) :
    hide ps (State.driveSled s b) = hide ps s := by
  simp only [State.driveSled, hide_onSld, h0]

/-! ### Sequencer -/

theorem hide_volMounted {s : State} {vid : VolId} {set : Option MgmtSet} (h0 : Part.vols ∈ ps) (h1 : Part.flash ∈ ps)
    (h2 : Part.stg ∈ ps) (h3 : Part.pair ∈ ps) (h4 : Part.out ∈ ps) :
    hide ps (State.volMounted s vid set) = hide ps s := by
  simp only [State.volMounted, hide_tellVol, hide_saveAll, hide_onVol, h0, h1, h2, h3, h4]

theorem hide_resumeFormat {s : State} {b : BayNo} {vid : VolId} {set : Option MgmtSet} (h0 : Part.free ∈ ps)
    (h1 : Part.wp b ∈ ps) :
    hide ps (State.resumeFormat s b vid set) = hide ps s := by
  simp only [State.resumeFormat, hide_freeInt, hide_onWp, ite_self, hide_ite, h0, h1]

theorem hide_mountFound {s : State} {b : BayNo} {set : Option MgmtSet} {used1 : Nat} {used2 : Nat} (h0 : Part.free ∈ ps)
    (h1 : Part.sys ∈ ps) (h2 : Part.raised ∈ ps) (h3 : Part.retry ∈ ps) (h4 : ∀ x, Part.queues x ∈ ps) (h5 : ∀ x,
    Part.msix x ∈ ps) (h6 : ∀ x, Part.alarm x ∈ ps) (h7 : Part.cmds ∈ ps) (h8 : Part.vols ∈ ps) (h9 : Part.flash ∈ ps)
    (h10 : Part.afe b ∈ ps) (h11 : Part.rc b ∈ ps) (h12 : Part.dec b ∈ ps) (h13 : Part.wp b ∈ ps) (h14 : Part.srv b ∈ ps)
    (h15 : Part.seq b ∈ ps) (h16 : Part.pool ∈ ps) (h17 : Part.stg ∈ ps) (h18 : Part.mem ∈ ps) (h19 : Part.pair ∈ ps)
    (h20 : Part.out ∈ ps) :
    hide ps (State.mountFound s b set used1 used2) = hide ps s := by
  simp only [State.mountFound, hide_stepPassed, hide_onDisc, hide_dropScan, hide_onBay, hide_mountDone,
      hide_resumeFormat, hide_setBaySt, hide_volMounted, true_or, or_true, or_self, and_self, implies_true, h0, h1, h2,
      h3, h4, h5, h6, h7, h8, h9, h10, h11, h12, h13, h14, h15, h16, h17, h18, h19, h20]

theorem hide_scanOn {s : State} {b : BayNo} {m : MgmtScan} (h0 : Part.free ∈ ps) (h1 : Part.sys ∈ ps)
    (h2 : Part.raised ∈ ps) (h3 : Part.retry ∈ ps) (h4 : ∀ x, Part.queues x ∈ ps) (h5 : ∀ x, Part.msix x ∈ ps) (h6 : ∀ x,
    Part.mbx x ∈ ps) (h7 : ∀ x, Part.alarm x ∈ ps) (h8 : Part.cmds ∈ ps) (h9 : Part.vols ∈ ps) (h10 : Part.flash ∈ ps)
    (h11 : ∀ x, Part.afe x ∈ ps) (h12 : ∀ x, Part.rc x ∈ ps) (h13 : Part.dec b ∈ ps) (h14 : ∀ x, Part.wp x ∈ ps)
    (h15 : ∀ x, Part.srv x ∈ ps) (h16 : Part.spn b ∈ ps) (h17 : Part.sld b ∈ ps) (h18 : ∀ x, Part.seq x ∈ ps)
    (h19 : Part.pool ∈ ps) (h20 : Part.hnd ∈ ps) (h21 : Part.stg ∈ ps) (h22 : Part.mem ∈ ps) (h23 : Part.pair ∈ ps)
    (h24 : Part.out ∈ ps) :
    hide ps (State.scanOn s b m) = hide ps s := by
  unfold State.scanOn
  repeat' split
  all_goals simp only [hide_onSeq, hide_mountFound, hide_mountFails, implies_true, h0, h1, h2, h3, h4, h5, h6, h7, h8,
      h9, h10, h11, h12, h13, h14, h15, h16, h17, h18, h19, h20, h21, h22, h23, h24]

theorem hide_atMount {s : State} {b : BayNo} (h0 : Part.params ∈ ps) :
    hide ps (State.atMount s b) = hide ps s := by
  simp only [State.atMount, hide_takeEffect, hide_setParams, h0]

theorem hide_carryWork {s : State} {src : BayNo} {dst : BayNo} (h0 : Part.raised ∈ ps) (h1 : ∀ x, Part.alarm x ∈ ps)
    (h2 : Part.dec src ∈ ps) (h3 : Part.dec dst ∈ ps) (h4 : Part.wp src ∈ ps) (h5 : Part.wp dst ∈ ps)
    (h6 : Part.seq src ∈ ps) (h7 : Part.seq dst ∈ ps) (h8 : Part.pool ∈ ps) (h9 : Part.mem ∈ ps) :
    hide ps (State.carryWork s src dst) = hide ps s := by
  simp only [State.carryWork, hide_onBay, hide_onPool, hide_passAll, true_or, or_true, and_self, implies_true, h0, h1,
      h2, h3, h4, h5, h6, h7, h8, h9]

theorem hide_remountFrom {s : State} {b : BayNo} (h0 : Part.sys ∈ ps) (h1 : Part.raised ∈ ps) (h2 : ∀ x,
    Part.queues x ∈ ps) (h3 : ∀ x, Part.msix x ∈ ps) (h4 : ∀ x, Part.mbx x ∈ ps) (h5 : ∀ x, Part.alarm x ∈ ps)
    (h6 : Part.cmds ∈ ps) (h7 : ∀ x, Part.afe x ∈ ps) (h8 : ∀ x, Part.rc x ∈ ps) (h9 : ∀ x, Part.dec x ∈ ps) (h10 : ∀ x,
    Part.wp x ∈ ps) (h11 : ∀ x, Part.srv x ∈ ps) (h12 : ∀ x, Part.seq x ∈ ps) (h13 : Part.pool ∈ ps)
    (h14 : Part.hnd ∈ ps) (h15 : Part.stg ∈ ps) (h16 : Part.mem ∈ ps) (h17 : Part.pair ∈ ps) (h18 : Part.out ∈ ps) :
    hide ps (State.remountFrom s b) = hide ps s := by
  have hf : ∀ t : State, hide ps (t.onBay b Bay.freshDisc) = hide ps t := fun t =>
    hide_onBay (Or.inr rfl) (by first | exact Or.inr rfl | exact Or.inl (by solve_by_elim))
        (by first | exact Or.inr rfl | exact Or.inl (by solve_by_elim))
        (by first | exact Or.inr rfl | exact Or.inl (by solve_by_elim))
        (by first | exact Or.inr rfl | exact Or.inl (by solve_by_elim)) (Or.inr rfl) (Or.inr rfl)
        (by first | exact Or.inr rfl | exact Or.inl (by solve_by_elim)) (Or.inr ⟨rfl, rfl⟩)
  unfold State.remountFrom
  try dsimp only
  repeat' split
  all_goals first
    | with_reducible rfl
    | (simp only [hide_carryWork, hide_failDisc, hide_orderUnmount, implies_true, h0, h1, h2, h3, h4, h5, h6, h7, h8, h9,
        h10, h11, h12, h13, h14, h15, h16, h17, h18]; done)
    | (rename _ = (_, _) => h
       obtain rfl := congrArg Prod.fst h
       simp only [hf, hide_undo, hide_setBaySt, hide_onSeq, hide_orderMove, hide_carryWork, hide_failDisc, implies_true,
           h0, h1, h2, h3, h4, h5, h6, h7, h8, h9, h10, h11, h12, h13, h14, h15, h16, h17, h18]; done)

theorem hide_goRead {s : State} {b : BayNo} {a : ClusterAddr} (h0 : Part.sys ∈ ps) (h1 : Part.raised ∈ ps) (h2 : ∀ x,
    Part.alarm x ∈ ps) (h3 : Part.afe b ∈ ps) (h4 : Part.rc b ∈ ps) (h5 : Part.wp b ∈ ps) (h6 : Part.srv b ∈ ps)
    (h7 : Part.sld b ∈ ps) (h8 : Part.seq b ∈ ps) (h9 : Part.pair ∈ ps) (h10 : Part.out ∈ ps) :
    hide ps (State.goRead s b a) = hide ps s := by
  unfold State.goRead
  dsimp only
  repeat' split
  all_goals simp only [hide_takeUp, hide_startMove, implies_true, h0, h1, h2, h3, h4, h5, h6, h7, h8, h9, h10]

theorem hide_rest {s : State} {b : BayNo} (h0 : Part.sys ∈ ps) (h1 : Part.raised ∈ ps) (h2 : ∀ x, Part.alarm x ∈ ps)
    (h3 : Part.afe b ∈ ps) (h4 : Part.rc b ∈ ps) (h5 : Part.wp b ∈ ps) (h6 : Part.srv b ∈ ps) (h7 : Part.seq b ∈ ps)
    (h8 : Part.pair ∈ ps) (h9 : Part.out ∈ ps) :
    hide ps (State.rest s b) = hide ps s := by
  simp only [State.rest, hide_onRc, hide_setBaySt, ite_self, implies_true, hide_ite, h0, h1, h2, h3, h4, h5, h6, h7, h8,
      h9]

theorem hide_unmountStep {s : State} {b : BayNo} (h0 : Part.sys ∈ ps) (h1 : Part.raised ∈ ps) (h2 : ∀ x,
    Part.alarm x ∈ ps) (h3 : Part.afe b ∈ ps) (h4 : Part.rc b ∈ ps) (h5 : Part.wp b ∈ ps) (h6 : Part.srv b ∈ ps)
    (h7 : Part.spn b ∈ ps) (h8 : Part.sld b ∈ ps) (h9 : Part.seq b ∈ ps) (h10 : Part.stg ∈ ps) (h11 : Part.pair ∈ ps)
    (h12 : Part.out ∈ ps) :
    hide ps (State.unmountStep s b) = hide ps s := by
  unfold State.unmountStep
  dsimp only
  repeat' split
  all_goals simp only [hide_rest, hide_unseal, hide_onWp, hide_spinDown, implies_true, h0, h1, h2, h3, h4, h5, h6, h7,
      h8, h9, h10, h11, h12]

theorem hide_autoDestage {s : State} {b : BayNo} (h0 : Part.wp b ∈ ps) (h1 : Part.stg ∈ ps) :
    hide ps (State.autoDestage s b) = hide ps s := by
  unfold State.autoDestage
  repeat' split
  all_goals simp only [hide_queueJob, ite_self, hide_ite, h0, h1]

theorem hide_updraftEnds {s : State} {b : BayNo} (h0 : Part.dec b ∈ ps) :
    hide ps (State.updraftEnds s b) = hide ps s := by
  unfold State.updraftEnds
  dsimp only
  repeat' split
  all_goals simp only [hide_onDec, h0]

theorem hide_setSpeed {s : State} {b : BayNo} {rpm : Int} (h0 : Part.params ∈ ps) :
    hide ps (State.setSpeed s b rpm) = hide ps s := by
  simp only [State.setSpeed, hide_setParams, h0]

theorem hide_visitOn {s : State} {b : BayNo} (h0 : Part.sys ∈ ps) (h1 : Part.raised ∈ ps) (h2 : ∀ x, Part.alarm x ∈ ps)
    (h3 : Part.params ∈ ps) (h4 : Part.afe b ∈ ps) (h5 : Part.rc b ∈ ps) (h6 : Part.wp b ∈ ps) (h7 : Part.srv b ∈ ps)
    (h8 : Part.sld b ∈ ps) (h9 : Part.seq b ∈ ps) (h10 : Part.pair ∈ ps) (h11 : Part.out ∈ ps) :
    hide ps (State.visitOn s b) = hide ps s := by
  unfold State.visitOn
  repeat' split
  all_goals simp only [hide_goRead, hide_rest, hide_setSpeed, hide_onSeq, implies_true, h0, h1, h2, h3, h4, h5, h6, h7,
      h8, h9, h10, h11]

theorem hide_serveMount {s : State} {b : BayNo} (h0 : Part.sys ∈ ps) (h1 : Part.raised ∈ ps) (h2 : ∀ x,
    Part.alarm x ∈ ps) (h3 : Part.params ∈ ps) (h4 : Part.afe b ∈ ps) (h5 : Part.rc b ∈ ps) (h6 : Part.wp b ∈ ps)
    (h7 : Part.srv b ∈ ps) (h8 : Part.sld b ∈ ps) (h9 : Part.seq b ∈ ps) (h10 : Part.pair ∈ ps) (h11 : Part.out ∈ ps) :
    hide ps (State.serveMount s b) = hide ps s := by
  unfold State.serveMount
  dsimp only
  repeat' split
  all_goals simp only [hide_visitOn, hide_goRead, hide_takeUp, implies_true, h0, h1, h2, h3, h4, h5, h6, h7, h8, h9, h10,
      h11]

theorem hide_serveClass {s : State} {b : BayNo} (h0 : Part.sys ∈ ps) (h1 : Part.raised ∈ ps) (h2 : ∀ x,
    Part.alarm x ∈ ps) (h3 : Part.params ∈ ps) (h4 : Part.afe b ∈ ps) (h5 : Part.rc b ∈ ps) (h6 : Part.wp b ∈ ps)
    (h7 : Part.srv b ∈ ps) (h8 : Part.spn b ∈ ps) (h9 : Part.sld b ∈ ps) (h10 : Part.seq b ∈ ps) (h11 : Part.stg ∈ ps)
    (h12 : Part.pair ∈ ps) (h13 : Part.out ∈ ps) :
    hide ps (State.serveClass s b) = hide ps s := by
  unfold State.serveClass
  dsimp only
  repeat' split
  all_goals simp only [hide_visitOn, hide_rest, hide_goRead, hide_unmountStep, hide_autoDestage, implies_true, h0, h1,
      h2, h3, h4, h5, h6, h7, h8, h9, h10, h11, h12, h13]

theorem hide_positionFailed {s : State} {b : BayNo} (h0 : Part.sys ∈ ps) (h1 : Part.raised ∈ ps) (h2 : ∀ x,
    Part.alarm x ∈ ps) (h3 : Part.afe b ∈ ps) (h4 : Part.rc b ∈ ps) (h5 : Part.wp b ∈ ps) (h6 : Part.srv b ∈ ps)
    (h7 : Part.sld b ∈ ps) (h8 : Part.seq b ∈ ps) (h9 : Part.pair ∈ ps) (h10 : Part.out ∈ ps) :
    hide ps (State.positionFailed s b) = hide ps s := by
  simp only [State.positionFailed, hide_onSeq, hide_startMove, hide_setBaySt, implies_true, h0, h1, h2, h3, h4, h5, h6,
      h7, h8, h9, h10]

end Sys2Proof.Laws
end

