-- ==== Sys2Proof/Laws/HideHost.lean ====
section
/-! SUPPORT. What each shared operation of registers, commands, boot, parameters, the recorder and the mailbox may write. -/

namespace Sys2Proof.Laws

set_option Elab.async false

open Sys2Proof Sys2Proof.Machine Sys2Proof.Safety

variable {ps : List Part}

/-! ### RegOps -/

theorem hide_rangeEvent {s : State} {p : Port} {q : QueueNo} (h0 : Part.raised ∈ ps) (h1 : Part.queues p ∈ ps) (h2 : ∀ x,
    Part.alarm x ∈ ps) :
    hide ps (State.rangeEvent s p q) = hide ps s := by
  simp only [State.rangeEvent, hide_raisePort, hide_onQueue, ite_self, implies_true, hide_ite, h0, h1, h2]

theorem hide_writeSqTail {s : State} {p : Port} {q : QueueNo} {v : BitVec 12} (h0 : Part.raised ∈ ps)
    (h1 : Part.queues p ∈ ps) (h2 : ∀ x, Part.alarm x ∈ ps) :
    hide ps (State.writeSqTail s p q v) = hide ps s := by
  simp only [State.writeSqTail, hide_onQueue, hide_rangeEvent, ite_self, implies_true, hide_ite, h0, h1, h2]

theorem hide_writeCqHead {s : State} {p : Port} {q : QueueNo} {v : BitVec 12} (h0 : Part.raised ∈ ps)
    (h1 : Part.queues p ∈ ps) (h2 : ∀ x, Part.alarm x ∈ ps) :
    hide ps (State.writeCqHead s p q v) = hide ps s := by
  simp only [State.writeCqHead, hide_onQueue, hide_rangeEvent, ite_self, implies_true, hide_ite, h0, h1, h2]

theorem hide_writeCell {s : State} {p : Port} {c : Fin 64} {w : AccWidth} {v : BitVec 64} (h0 : Part.raised ∈ ps)
    (h1 : ∀ x, Part.alarm x ∈ ps) (h2 : Part.bridle ∈ ps) :
    hide ps (State.writeCell s p c w v) = hide ps s := by
  simp only [State.writeCell, hide_onCell, hide_raisePort, ite_self, implies_true, hide_ite, h0, h1, h2]

theorem hide_clearAlarm {s : State} {p : Port} {word : Nat} {v : BitVec 64} (h0 : Part.alarm p ∈ ps) :
    hide ps (State.clearAlarm s p word v) = hide ps s := by
  simp only [State.clearAlarm, hide_onPort, true_or, or_true, and_self, h0]

theorem hide_freezeReel {s : State} {cause : Nat} (h0 : Part.raised ∈ ps) (h1 : Part.ev ∈ ps) (h2 : ∀ x,
    Part.alarm x ∈ ps) :
    hide ps (State.freezeReel s cause) = hide ps s := by
  unfold State.freezeReel
  split
  · rfl
  · rw [hide_raiseDev (by assumption) (by assumption)]
    exact hide_onEv (Or.inr ⟨rfl, rfl⟩) (Or.inr ⟨rfl, rfl, rfl, rfl⟩) (Or.inr ⟨rfl, rfl, rfl⟩) (Or.inl (by assumption))

theorem hide_thawReel {s : State} (h0 : Part.raised ∈ ps) (h1 : Part.ev ∈ ps) (h2 : ∀ x, Part.alarm x ∈ ps) :
    hide ps (State.thawReel s) = hide ps s := by
  simp only [State.thawReel, hide_raiseDev, hide_onEv, ite_self, true_or, or_true, or_self, and_self, implies_true,
      hide_ite, h0, h1, h2]

theorem hide_answerUnlisted {s : State} {p : Port} (h0 : Part.queues p ∈ ps) (h1 : Part.msix p ∈ ps)
    (h2 : Part.mbx p ∈ ps) (h3 : Part.out ∈ ps) :
    hide ps (State.answerUnlisted s p) = hide ps s := by
  unfold State.answerUnlisted
  dsimp only
  repeat' split
  all_goals simp only [hide_respond, h0, h1, h2, h3]

theorem hide_ringMailbox {s : State} {p : Port} (h0 : Part.raised ∈ ps) (h1 : Part.queues p ∈ ps) (h2 : Part.msix p ∈ ps)
    (h3 : Part.mbx p ∈ ps) (h4 : ∀ x, Part.alarm x ∈ ps) (h5 : Part.out ∈ ps) :
    hide ps (State.ringMailbox s p) = hide ps s := by
  simp only [State.ringMailbox, hide_raisePort, hide_onMbx, hide_answerUnlisted, ite_self, implies_true, hide_ite, h0,
      h1, h2, h3, h4, h5]

theorem hide_resetPairs {s : State} {p : Port} {mask : BitVec 64} (h0 : Part.raised ∈ ps) (h1 : Part.queues p ∈ ps)
    (h2 : ∀ x, Part.alarm x ∈ ps) (h3 : Part.cmds ∈ ps) :
    hide ps (State.resetPairs s p mask) = hide ps s := by
  simp only [State.resetPairs, hide_queueResetOne, hide_foldl, ite_self, implies_true, hide_ite, h0, h1, h2, h3]

theorem hide_writeDoorbell {s : State} {p : Port} {q : QueueNo} {head : Bool} {w : AccWidth} {v : BitVec 64}
    (h0 : Part.raised ∈ ps) (h1 : Part.queues p ∈ ps) (h2 : ∀ x, Part.alarm x ∈ ps) :
    hide ps (State.writeDoorbell s p q head w v) = hide ps s := by
  simp only [State.writeDoorbell, hide_writeCqHead, hide_writeSqTail, ite_self, implies_true, hide_ite, h0, h1, h2]

theorem hide_writeQueueReg {s : State} {p : Port} {q : QueueNo} {off : Nat} {w : AccWidth} {v : BitVec 64}
    (h0 : Part.queues p ∈ ps) :
    hide ps (State.writeQueueReg s p q off w v) = hide ps s := by
  unfold State.writeQueueReg
  repeat' split
  all_goals simp only [hide_onQueue, ite_self, hide_ite, h0]

theorem hide_writeMsix {s : State} {p : Port} {i : Fin 65} {ctrl : Bool} {w : AccWidth} {v : BitVec 64}
    (h0 : Part.queues p ∈ ps) (h1 : Part.msix p ∈ ps) (h2 : Part.out ∈ ps) :
    hide ps (State.writeMsix s p i ctrl w v) = hide ps s := by
  simp only [State.writeMsix, hide_onPort, hide_sendPending, ite_self, true_or, or_true, or_self, and_self, hide_ite, h0,
      h1, h2]

theorem hide_writeBar0 {s : State} {p : Port} {off : Nat} {w : AccWidth} {v : BitVec 64} (h0 : Part.mode ∈ ps)
    (h1 : Part.free ∈ ps) (h2 : Part.sys ∈ ps) (h3 : Part.raised ∈ ps) (h4 : Part.fwq ∈ ps) (h5 : Part.retry ∈ ps)
    (h6 : Part.ev ∈ ps) (h7 : ∀ x, Part.queues x ∈ ps) (h8 : ∀ x, Part.msix x ∈ ps) (h9 : ∀ x, Part.mbx x ∈ ps)
    (h10 : ∀ x, Part.ring x ∈ ps) (h11 : ∀ x, Part.alarm x ∈ ps) (h12 : ∀ x, Part.link x ∈ ps) (h13 : Part.bridle ∈ ps)
    (h14 : Part.cmds ∈ ps) (h15 : Part.vols ∈ ps) (h16 : Part.params ∈ ps) (h17 : ∀ x, Part.afe x ∈ ps) (h18 : ∀ x,
    Part.rc x ∈ ps) (h19 : ∀ x, Part.dec x ∈ ps) (h20 : ∀ x, Part.wp x ∈ ps) (h21 : ∀ x, Part.srv x ∈ ps) (h22 : ∀ x,
    Part.spn x ∈ ps) (h23 : ∀ x, Part.sld x ∈ ps) (h24 : ∀ x, Part.seq x ∈ ps) (h25 : ∀ x, Part.held x ∈ ps)
    (h26 : Part.pool ∈ ps) (h27 : Part.hnd ∈ ps) (h28 : Part.stg ∈ ps) (h29 : Part.dram ∈ ps) (h30 : Part.mem ∈ ps)
    (h31 : Part.pair ∈ ps) (h32 : Part.out ∈ ps) :
    hide ps (State.writeBar0 s p off w v) = hide ps s := by
  unfold State.writeBar0
  simp only [apply_dite (hide ps), apply_ite (hide ps), dite_eq_ite, hide_resetPairs, hide_warmReset, hide_writeCell,
      hide_onMbx, hide_ringMailbox, hide_onRing, hide_clearAlarm, hide_onPort, hide_freezeReel, hide_thawReel,
      hide_writeDoorbell, hide_writeQueueReg, hide_writeMsix, ite_self, true_or, or_self, and_self, implies_true, h0, h1,
      h2, h3, h4, h5, h6, h7, h8, h9, h10, h11, h12, h13, h14, h15, h16, h17, h18, h19, h20, h21, h22, h23, h24, h25,
      h26, h27, h28, h29, h30, h31, h32]

theorem hide_maintain {s : State} {code : Nat} (h0 : Part.dram ∈ ps) (h1 : Part.mem ∈ ps) :
    hide ps (State.maintain s code) = hide ps s := by
  unfold State.maintain
  repeat' split
  all_goals simp only [hide_maintByAddress, hide_maintAll, h0, h1]

theorem hide_writeControl {s : State} {off : Nat} {v : BitVec 64} (h0 : Part.dram ∈ ps) (h1 : Part.mem ∈ ps) :
    hide ps (State.writeControl s off v) = hide ps s := by
  simp only [State.writeControl, hide_onCache, hide_maintain, hide_onMem, ite_self, true_or, or_self, hide_ite, h0, h1]

theorem hide_writeConfig {s : State} {p : Port} {bit : ConfigBit} {v : Bool} (h0 : Part.queues p ∈ ps)
    (h1 : Part.msix p ∈ ps) (h2 : Part.link p ∈ ps) (h3 : Part.out ∈ ps) :
    hide ps (State.writeConfig s p bit v) = hide ps s := by
  unfold State.writeConfig
  repeat' split
  all_goals simp only [hide_onPort, hide_sendPending, true_or, or_true, or_self, and_self, h0, h1, h2, h3]

/-! ### HostPort -/

theorem hide_releaseHeld {s : State} {p : Port} (h0 : Part.queues p ∈ ps) (h1 : Part.msix p ∈ ps) (h2 : Part.out ∈ ps) :
    hide ps (State.releaseHeld s p) = hide ps s := by
  unfold State.releaseHeld
  dsimp only
  rw [hide_foldl, hide_foldl, hide_onPort (Or.inl ‹_›) (Or.inr ⟨rfl, rfl, rfl, rfl⟩)
    (Or.inr ⟨rfl, rfl, rfl, rfl, rfl, rfl, rfl⟩) (Or.inr rfl) (Or.inr rfl) (Or.inr rfl)]
  · intro t c; simp only [hide_writeRecord, h0, h1, h2]
  · intro t v
    split
    · simp only [hide_signal, h0, h1, h2]
    · rfl

theorem hide_dropLink {s : State} {p : Port} (h0 : Part.raised ∈ ps) (h1 : ∀ x, Part.alarm x ∈ ps)
    (h2 : Part.link p ∈ ps) :
    hide ps (State.dropLink s p) = hide ps s := by
  simp only [State.dropLink, hide_raisePort, hide_onPort, ite_self, true_or, or_true, or_self, and_self, implies_true,
      hide_ite, h0, h1, h2]

theorem hide_readCell {s : State} {p : Port} {cell : Fin 64} (h0 : Part.bridle ∈ ps) (h1 : Part.out ∈ ps) :
    hide ps (State.readCell s p cell) = hide ps s := by
  simp only [State.readCell, hide_emit, hide_onCell, ite_self, hide_ite, h0, h1]

theorem hide_readWindowEnd {s : State} {p : Port} (h0 : Part.link p ∈ ps) (h1 : Part.out ∈ ps) :
    hide ps (State.readWindowEnd s p) = hide ps s := by
  simp only [State.readWindowEnd, hide_onPort, hide_emit, true_or, or_true, and_self, h0, h1]

theorem hide_readBar0 {s : State} {p : Port} {offset : BitVec 16} {size : Nat} (h0 : Part.link p ∈ ps)
    (h1 : Part.bridle ∈ ps) (h2 : Part.out ∈ ps) :
    hide ps (State.readBar0 s p offset size) = hide ps s := by
  unfold State.readBar0
  dsimp only
  repeat' split
  all_goals simp only [hide_emit, hide_readCell, hide_readWindowEnd, h0, h1, h2]

/-! ### Io -/

theorem hide_cancelTarget {s : State} {p : Port} {spec : BitVec 64} (h0 : ∀ x, Part.queues x ∈ ps) (h1 : ∀ x,
    Part.msix x ∈ ps) (h2 : Part.cmds ∈ ps) (h3 : Part.stg ∈ ps) (h4 : Part.pair ∈ ps) (h5 : Part.out ∈ ps) :
    hide ps (State.cancelTarget s p spec).1 = hide ps s := by
  unfold State.cancelTarget
  dsimp only
  repeat' split
  all_goals simp only [hide_complete, implies_true, h0, h1, h2, h3, h4, h5]

theorem hide_takeCmd {s : State} {id : CmdId} {r : BitVec 512} (h0 : Part.sys ∈ ps) (h1 : ∀ x, Part.queues x ∈ ps)
    (h2 : ∀ x, Part.msix x ∈ ps) (h3 : Part.cmds ∈ ps) (h4 : Part.stg ∈ ps) (h5 : Part.pair ∈ ps) (h6 : Part.out ∈ ps) :
    hide ps (State.takeCmd s id r) = hide ps s := by
  unfold State.takeCmd
  dsimp only
  repeat' split
  all_goals simp only [hide_onSys, hide_cancelTarget, hide_setCmds, or_true, implies_true, h0, h1, h2, h3, h4, h5, h6]

theorem hide_fetchOne {s : State} {p : Port} {q : QueueNo} {a3 : HostRecord} (h0 : Part.free ∈ ps) (h1 : Part.sys ∈ ps)
    (h2 : Part.raised ∈ ps) (h3 : ∀ x, Part.queues x ∈ ps) (h4 : ∀ x, Part.msix x ∈ ps) (h5 : ∀ x, Part.alarm x ∈ ps)
    (h6 : Part.cmds ∈ ps) (h7 : Part.stg ∈ ps) (h8 : Part.pair ∈ ps) (h9 : Part.out ∈ ps) :
    hide ps (State.fetchOne s p q a3) = hide ps s := by
  unfold State.fetchOne
  dsimp only
  repeat' split
  all_goals simp only [hide_haltQueue, hide_onQueue, hide_post, hide_takeCmd, implies_true, h0, h1, h2, h3, h4, h5, h6,
      h7, h8, h9]

theorem hide_fetchAll {s : State} {p : Port} {q : QueueNo} {recs : List HostRecord} (h0 : Part.free ∈ ps)
    (h1 : Part.sys ∈ ps) (h2 : Part.raised ∈ ps) (h3 : ∀ x, Part.queues x ∈ ps) (h4 : ∀ x, Part.msix x ∈ ps) (h5 : ∀ x,
    Part.alarm x ∈ ps) (h6 : Part.cmds ∈ ps) (h7 : Part.stg ∈ ps) (h8 : Part.pair ∈ ps) (h9 : Part.out ∈ ps) :
    hide ps (State.fetchAll s p q recs) = hide ps s := by
  simp only [State.fetchAll, hide_fetchOne, hide_foldl, ite_self, implies_true, hide_ite, h0, h1, h2, h3, h4, h5, h6, h7,
      h8, h9]

theorem hide_orUnknown {s : State} {id : CmdId} {o : Nat} (h0 : ∀ x, Part.queues x ∈ ps) (h1 : ∀ x, Part.msix x ∈ ps)
    (h2 : Part.cmds ∈ ps) (h3 : Part.stg ∈ ps) (h4 : Part.pair ∈ ps) (h5 : Part.out ∈ ps) :
    hide ps (State.orUnknown s id o) = hide ps s := by
  unfold State.orUnknown
  repeat' split
  all_goals simp only [hide_complete, implies_true, h0, h1, h2, h3, h4, h5]

theorem hide_writeFetch {s : State} {c : Cmd} {ext : ExtentRead} {data : WriteData} (h0 : Part.raised ∈ ps) (h1 : ∀ x,
    Part.queues x ∈ ps) (h2 : ∀ x, Part.msix x ∈ ps) (h3 : ∀ x, Part.alarm x ∈ ps) (h4 : Part.cmds ∈ ps)
    (h5 : Part.stg ∈ ps) (h6 : Part.pair ∈ ps) (h7 : Part.out ∈ ps) :
    hide ps (State.writeFetch s c ext data).1 = hide ps s := by
  unfold State.writeFetch
  repeat' split
  all_goals simp only [hide_dmaFail, hide_complete, implies_true, h0, h1, h2, h3, h4, h5, h6, h7]

theorem hide_serveFlush {s : State} {c : Cmd} (h0 : ∀ x, Part.queues x ∈ ps) (h1 : ∀ x, Part.msix x ∈ ps)
    (h2 : Part.cmds ∈ ps) (h3 : Part.stg ∈ ps) (h4 : Part.pair ∈ ps) (h5 : Part.out ∈ ps) :
    hide ps (State.serveFlush s c) = hide ps s := by
  simp only [State.serveFlush, hide_complete, hide_onCmd, ite_self, implies_true, hide_ite, h0, h1, h2, h3, h4, h5]

theorem hide_servePrefetch {s : State} {c : Cmd} (h0 : Part.sys ∈ ps) (h1 : Part.raised ∈ ps) (h2 : ∀ x,
    Part.queues x ∈ ps) (h3 : ∀ x, Part.msix x ∈ ps) (h4 : ∀ x, Part.mbx x ∈ ps) (h5 : ∀ x, Part.alarm x ∈ ps)
    (h6 : Part.cmds ∈ ps) (h7 : ∀ x, Part.afe x ∈ ps) (h8 : ∀ x, Part.rc x ∈ ps) (h9 : ∀ x, Part.dec x ∈ ps) (h10 : ∀ x,
    Part.wp x ∈ ps) (h11 : ∀ x, Part.srv x ∈ ps) (h12 : ∀ x, Part.seq x ∈ ps) (h13 : Part.pool ∈ ps)
    (h14 : Part.hnd ∈ ps) (h15 : Part.stg ∈ ps) (h16 : Part.mem ∈ ps) (h17 : Part.pair ∈ ps) (h18 : Part.out ∈ ps) :
    hide ps (State.servePrefetch s c) = hide ps s := by
  unfold State.servePrefetch
  repeat' split
  all_goals simp only [hide_complete, hide_onDec, hide_placeDisc, hide_setWait, ite_self, implies_true, hide_ite, h0, h1,
      h2, h3, h4, h5, h6, h7, h8, h9, h10, h11, h12, h13, h14, h15, h16, h17, h18]

theorem hide_unmountLoose {s : State} {c : Cmd} {v : Volume} (h0 : Part.sys ∈ ps) (h1 : Part.raised ∈ ps) (h2 : ∀ x,
    Part.queues x ∈ ps) (h3 : ∀ x, Part.msix x ∈ ps) (h4 : ∀ x, Part.mbx x ∈ ps) (h5 : ∀ x, Part.alarm x ∈ ps)
    (h6 : Part.cmds ∈ ps) (h7 : ∀ x, Part.afe x ∈ ps) (h8 : ∀ x, Part.rc x ∈ ps) (h9 : ∀ x, Part.wp x ∈ ps) (h10 : ∀ x,
    Part.srv x ∈ ps) (h11 : ∀ x, Part.seq x ∈ ps) (h12 : Part.hnd ∈ ps) (h13 : Part.stg ∈ ps) (h14 : Part.pair ∈ ps)
    (h15 : Part.out ∈ ps) :
    hide ps (State.unmountLoose s c v) = hide ps s := by
  unfold State.unmountLoose
  try dsimp only
  repeat' split
  all_goals first
    | with_reducible rfl
    | (simp only [hide_complete, hide_onCmd, implies_true, h2, h3, h6, h13, h14, h15]; done)
    | (rename _ = (_, _) => h
       obtain rfl := congrArg Prod.fst h
       simp only [hide_complete, hide_orderMove, hide_onCmd, implies_true, h0, h1, h2, h3, h4, h5, h6, h7, h8, h9, h10,
           h11, h12, h13, h14, h15]; done)

theorem hide_locate {s : State} {v : Volume} {lba : Nat} (h0 : Part.free ∈ ps) :
    hide ps (State.locate s v lba).2 = hide ps s := by
  unfold State.locate
  dsimp only
  repeat' split
  all_goals simp only [hide_freeInt, h0]

/-! ### Power -/

theorem hide_trySlot {s : State} {k : Fin 2} {imageOk : Bool} (h0 : Part.sys ∈ ps) (h1 : Part.raised ∈ ps) (h2 : ∀ x,
    Part.alarm x ∈ ps) (h3 : Part.flash ∈ ps) :
    hide ps (State.trySlot s k imageOk).2 = hide ps s := by
  unfold State.trySlot
  dsimp only
  repeat' split
  all_goals simp only [hide_raiseDev, hide_writeSlot, implies_true, h0, h1, h2, h3]

theorem hide_chooseSlot {s : State} {ok : Vector Bool 2} (h0 : Part.sys ∈ ps) (h1 : Part.raised ∈ ps) (h2 : ∀ x,
    Part.alarm x ∈ ps) (h3 : Part.flash ∈ ps) :
    hide ps (State.chooseSlot s ok).2 = hide ps s := by
  have hs : ∀ (t : State) (a : Fin 2) (k : Bool), hide ps (t.trySlot a k).2 = hide ps t := fun t a k => by
    simp only [hide_trySlot, implies_true, h0, h1, h2, h3]
  unfold State.chooseSlot
  dsimp only
  split
  · rename_i e
    rw [← hs s, e]
  · rename_i s1 e
    have h1 : hide ps s1 = hide ps s := by rw [← hs s, e]
    split
    · rename_i e2
      rw [hide_raiseDev (by assumption) (by assumption), ← h1, ← hs s1, e2]
    · rename_i e2
      rw [← h1, ← hs s1, e2]

theorem hide_discover {s : State} {c : ChanNo} {ce : Nat} {p : NandPart} {rate : Nat} (h0 : Part.raised ∈ ps) (h1 : ∀ x,
    Part.alarm x ∈ ps) (h2 : Part.out ∈ ps) :
    hide ps (State.discover s c ce p rate) = hide ps s := by
  simp only [State.discover, hide_emit, hide_raiseDev, hide_foldl, ite_self, implies_true, hide_ite, h0, h1, h2]

theorem hide_findNand {s : State} {n : NandFound} (h0 : Part.raised ∈ ps) (h1 : ∀ x, Part.alarm x ∈ ps)
    (h2 : Part.stg ∈ ps) (h3 : Part.out ∈ ps) :
    hide ps (State.findNand s n) = hide ps s := by
  have hd : ∀ (rate : Nat) (l : List ChanNo) (u : State), hide ps (l.foldl (fun (t : State) c =>
      (n.chips[c].zipIdx).foldl (fun (u : State) p => u.discover c p.2 p.1 rate) t) u) = hide ps u := fun rate l u =>
    hide_foldl _ (fun t c => hide_foldl _ (fun u p => by simp only [hide_discover, implies_true, h0, h1, h3]) _ _) _ _
  unfold State.findNand
  dsimp only
  generalize hg : List.foldl max 0 (List.filter _ _) = rate
  clear hg
  have hd' := hd rate (List.finRange 16) s
  generalize List.foldl _ s (List.finRange 16) = s1 at hd'
  have k2 : hide ps (if nandDiffers n then s1.raiseDev .nandGeometry else s1) = hide ps s := by
    split <;> simp only [hide_raiseDev, hd', implies_true, h0, h1]
  generalize (if nandDiffers n then s1.raiseDev .nandGeometry else s1) = s2 at k2
  generalize hs : s2.onStg _ = s3
  have k3 : hide ps s3 = hide ps s := by rw [← hs, hide_onStg (by assumption), k2]
  split <;> simp only [hide_raiseDev, hide_onStg, k3, implies_true, h0, h1, h2]

theorem hide_carve {s : State} (h0 : Part.raised ∈ ps) (h1 : ∀ x, Part.alarm x ∈ ps) (h2 : Part.params ∈ ps)
    (h3 : Part.mem ∈ ps) :
    hide ps (State.carve s) = hide ps s := by
  unfold State.carve
  dsimp only
  rw [hide_foldl]
  · refine (hide_onMem (f := fun m => { m with pagesDue := [] }) (by assumption) (Or.inr rfl)).trans ?_
    rw [hide_onMem (by assumption) (Or.inr rfl)]
    split
    · rfl
    · rw [hide_raiseDev (by assumption) (by assumption), hide_setParams (by assumption)]
  · intro t x; simp only [hide_applyRetired, h3]

theorem hide_writeLimits {s : State} (h0 : Part.mem ∈ ps) :
    hide ps (State.writeLimits s) = hide ps s := by
  simp only [State.writeLimits, hide_onMem, or_true, h0]

theorem hide_takeRecords {s : State} (h0 : Part.sys ∈ ps) (h1 : Part.flash ∈ ps) (h2 : Part.mem ∈ ps)
    (h3 : Part.pair ∈ ps) :
    hide ps (State.takeRecords s) = hide ps s := by
  unfold State.takeRecords
  dsimp only
  repeat' split
  all_goals simp only [hide_setRole, hide_setProgress, h0, h1, h2, h3]

theorem hide_takeTrays {s : State} {trays : BitVec 8} (h0 : ∀ x, Part.seq x ∈ ps) :
    hide ps (State.takeTrays s trays) = hide ps s := by
  simp only [State.takeTrays, hide_eachBay, hide_onSeq, implies_true, h0]

theorem hide_rebuild {s : State} {found : List RecoveredCluster} (h0 : Part.sys ∈ ps) (h1 : Part.vols ∈ ps)
    (h2 : Part.stg ∈ ps) :
    hide ps (State.rebuild s found) = hide ps s := by
  simp only [State.rebuild, hide_onStg, hide_onSys, hide_setVols, ite_self, or_true, hide_ite, h0, h1, h2]

theorem hide_judgeVent {s : State} (h0 : Part.raised ∈ ps) (h1 : ∀ x, Part.alarm x ∈ ps) (h2 : Part.stg ∈ ps) :
    hide ps (State.judgeVent s) = hide ps s := by
  unfold State.judgeVent
  repeat' split
  all_goals simp only [hide_raiseDev, hide_onStg, implies_true, h0, h1, h2]

theorem hide_judgeSpares {s : State} (h0 : Part.stg ∈ ps) :
    hide ps (State.judgeSpares s) = hide ps s := by
  simp only [State.judgeSpares, hide_onStg, ite_self, hide_ite, h0]

theorem hide_endBoot {s : State} (h0 : Part.mode ∈ ps) (h1 : Part.sys ∈ ps) (h2 : Part.raised ∈ ps) (h3 : Part.ev ∈ ps)
    (h4 : ∀ x, Part.queues x ∈ ps) (h5 : ∀ x, Part.msix x ∈ ps) (h6 : ∀ x, Part.mbx x ∈ ps) (h7 : ∀ x, Part.alarm x ∈ ps)
    (h8 : Part.cmds ∈ ps) (h9 : Part.flash ∈ ps) (h10 : ∀ x, Part.afe x ∈ ps) (h11 : ∀ x, Part.rc x ∈ ps) (h12 : ∀ x,
    Part.wp x ∈ ps) (h13 : ∀ x, Part.srv x ∈ ps) (h14 : ∀ x, Part.seq x ∈ ps) (h15 : Part.hnd ∈ ps) (h16 : Part.stg ∈ ps)
    (h17 : Part.pair ∈ ps) (h18 : Part.out ∈ ps) :
    hide ps (State.endBoot s) = hide ps s := by
  simp only [State.endBoot, hide_onPair, hide_leaveBoot, hide_onSys, hide_markValid, ite_self, or_true, or_self,
      implies_true, hide_ite, h0, h1, h2, h3, h4, h5, h6, h7, h8, h9, h10, h11, h12, h13, h14, h15, h16, h17, h18]

theorem hide_ventBay {s : State} {b : BayNo} (h0 : Part.sys ∈ ps) (h1 : Part.raised ∈ ps) (h2 : ∀ x, Part.alarm x ∈ ps)
    (h3 : Part.afe b ∈ ps) (h4 : Part.rc b ∈ ps) (h5 : Part.wp b ∈ ps) (h6 : Part.srv b ∈ ps) (h7 : Part.spn b ∈ ps)
    (h8 : Part.seq b ∈ ps) (h9 : Part.pair ∈ ps) (h10 : Part.out ∈ ps) :
    hide ps (State.ventBay s b) = hide ps s := by
  simp only [State.ventBay, hide_parkFocus, hide_abortCal, hide_onBay, hide_setBaySt, ite_self, true_or, or_true,
      or_self, and_self, implies_true, hide_ite, h0, h1, h2, h3, h4, h5, h6, h7, h8, h9, h10]

theorem hide_startVent {s : State} (h0 : Part.mode ∈ ps) (h1 : Part.sys ∈ ps) (h2 : Part.raised ∈ ps) (h3 : Part.ev ∈ ps)
    (h4 : ∀ x, Part.queues x ∈ ps) (h5 : ∀ x, Part.msix x ∈ ps) (h6 : ∀ x, Part.mbx x ∈ ps) (h7 : ∀ x, Part.alarm x ∈ ps)
    (h8 : Part.cmds ∈ ps) (h9 : ∀ x, Part.afe x ∈ ps) (h10 : ∀ x, Part.rc x ∈ ps) (h11 : ∀ x, Part.wp x ∈ ps) (h12 : ∀ x,
    Part.srv x ∈ ps) (h13 : ∀ x, Part.spn x ∈ ps) (h14 : ∀ x, Part.seq x ∈ ps) (h15 : Part.hnd ∈ ps)
    (h16 : Part.stg ∈ ps) (h17 : Part.pair ∈ ps) (h18 : Part.out ∈ ps) :
    hide ps (State.startVent s) = hide ps s := by
  simp only [State.startVent, hide_raiseDev, hide_onSys, hide_eachBay, hide_setMode, hide_ventBay, hide_onHnd, or_true,
      or_self, implies_true, h0, h1, h2, h3, h4, h5, h6, h7, h8, h9, h10, h11, h12, h13, h14, h15, h16, h17, h18]

theorem hide_resumePaired {s : State} (h0 : Part.mode ∈ ps) (h1 : Part.sys ∈ ps) (h2 : Part.raised ∈ ps)
    (h3 : Part.ev ∈ ps) (h4 : ∀ x, Part.queues x ∈ ps) (h5 : ∀ x, Part.msix x ∈ ps) (h6 : ∀ x, Part.mbx x ∈ ps)
    (h7 : ∀ x, Part.alarm x ∈ ps) (h8 : Part.cmds ∈ ps) (h9 : Part.flash ∈ ps) (h10 : ∀ x, Part.afe x ∈ ps) (h11 : ∀ x,
    Part.rc x ∈ ps) (h12 : ∀ x, Part.wp x ∈ ps) (h13 : ∀ x, Part.srv x ∈ ps) (h14 : ∀ x, Part.seq x ∈ ps)
    (h15 : Part.hnd ∈ ps) (h16 : Part.stg ∈ ps) (h17 : Part.mem ∈ ps) (h18 : Part.pair ∈ ps) (h19 : Part.out ∈ ps) :
    hide ps (State.resumePaired s) = hide ps s := by
  unfold State.resumePaired
  dsimp only
  repeat' split
  all_goals simp only [hide_loadImage, hide_onSys, hide_startTakeover, hide_onPair, hide_setMode, hide_endCommands,
      hide_onFlash, or_true, or_self, implies_true, h0, h1, h2, h3, h4, h5, h6, h7, h8, h9, h10, h11, h12, h13, h14, h15,
      h16, h17, h18, h19]

theorem hide_pllLoss {s : State} {k : Fin 5} (h0 : Part.sys ∈ ps) (h1 : Part.raised ∈ ps) (h2 : ∀ x, Part.alarm x ∈ ps) :
    hide ps (State.pllLoss s k) = hide ps s := by
  simp only [State.pllLoss, hide_raiseDev, hide_onSys, or_true, implies_true, h0, h1, h2]

theorem hide_rootCoast {s : State} {b : BayNo} (h0 : Part.raised ∈ ps) (h1 : ∀ x, Part.alarm x ∈ ps)
    (h2 : Part.srv b ∈ ps) (h3 : Part.spn b ∈ ps) :
    hide ps (State.rootCoast s b) = hide ps s := by
  unfold State.rootCoast
  repeat' split
  all_goals simp only [hide_coastLevel, implies_true, h0, h1, h2, h3]

theorem hide_linkDown {s : State} {p : Port} (h0 : Part.raised ∈ ps) (h1 : ∀ x, Part.alarm x ∈ ps)
    (h2 : Part.link p ∈ ps) :
    hide ps (State.linkDown s p) = hide ps s := by
  simp only [State.linkDown, hide_raisePort, hide_onPort, ite_self, true_or, or_true, or_self, and_self, implies_true,
      hide_ite, h0, h1, h2]

theorem hide_holdEngine {s : State} {e : EngineId} {v : Bool} (h0 : Part.sys ∈ ps) (h1 : ∀ x, Part.held x ∈ ps) :
    hide ps (State.holdEngine s e v) = hide ps s := by
  unfold State.holdEngine
  repeat' split
  all_goals simp only [hide_onBay, hide_onSys, true_or, or_true, h0, h1]

/-! ### Settings -/

theorem hide_accept {s : State} {i : ParamInfo} {inst : Nat} {v : Int} (h0 : Part.params ∈ ps) :
    hide ps (State.accept s i inst v) = hide ps s := by
  simp only [State.accept, hide_setParams, h0]

theorem hide_afterAccept {s : State} {id : Nat} {inst : Nat} {old : Int} {v : Int} (h0 : Part.sys ∈ ps)
    (h1 : Part.raised ∈ ps) (h2 : ∀ x, Part.alarm x ∈ ps) (h3 : ∀ x, Part.srv x ∈ ps) (h4 : Part.stg ∈ ps)
    (h5 : Part.mem ∈ ps) :
    hide ps (State.afterAccept s id inst old v) = hide ps s := by
  unfold State.afterAccept
  repeat' split
  all_goals simp only [hide_onStg, hide_setMemRegs, hide_onSys, hide_invalidateTables, or_true, implies_true, h0, h1, h2,
      h3, h4, h5]

theorem hide_setLong {s : State} {p : Port} {r : BitVec 512} {id : Nat} {a4 : BufRead} (h0 : Part.raised ∈ ps)
    (h1 : Part.queues p ∈ ps) (h2 : Part.msix p ∈ ps) (h3 : Part.mbx p ∈ ps) (h4 : ∀ x, Part.alarm x ∈ ps)
    (h5 : Part.params ∈ ps) (h6 : Part.out ∈ ps) :
    hide ps (State.setLong s p r id a4) = hide ps s := by
  unfold State.setLong
  repeat' split
  all_goals simp only [hide_respond, hide_raisePort, hide_raiseDev, hide_setParams, ite_self, implies_true, hide_ite, h0,
      h1, h2, h3, h4, h5, h6]

theorem hide_modeAccepted {s : State} {v : Int} (h0 : Part.params ∈ ps) :
    hide ps (State.modeAccepted s v) = hide ps s := by
  unfold State.modeAccepted
  repeat' split
  all_goals simp only [hide_accept, h0]

theorem hide_allDue {s : State} (h0 : ∀ x, Part.afe x ∈ ps) :
    hide ps (State.allDue s) = hide ps s := by
  simp only [State.allDue, hide_eachBay, hide_onAfe, implies_true, h0]

theorem hide_serveBaySet {s : State} {p : Port} {id top : Nat} {body : State → BayNo → Nat → State × Byte}
    (h0 : Part.sys ∈ ps) (h1 : Part.queues p ∈ ps) (h2 : Part.msix p ∈ ps) (h3 : Part.mbx p ∈ ps) (h4 : Part.out ∈ ps)
    (hb : ∀ t b v, hide ps (body t b v).1 = hide ps t) :
    hide ps (State.serveBaySet s p id top body) = hide ps s := by
  unfold State.serveBaySet
  rw [hide_serve (by assumption) (by assumption) (by assumption) (by assumption) (by assumption)]
  intro t q
  dsimp only
  cases requestBay q with
  | none => simp only [hide_respond, h1, h2, h3, h4]
  | some b =>
    dsimp only
    split
    · have := hb t b (requestValue q).toNat
      rcases e : body t b (requestValue q).toNat with ⟨u, st⟩
      rw [e] at this
      simp only [hide_respond, h1, h2, h3, h4, this]
    · simp only [hide_respond, h1, h2, h3, h4]

theorem hide_serveDevSet {s : State} {p : Port} {id top : Nat} {body : State → Nat → State} (h0 : Part.sys ∈ ps)
    (h1 : Part.queues p ∈ ps) (h2 : Part.msix p ∈ ps) (h3 : Part.mbx p ∈ ps) (h4 : Part.out ∈ ps)
    (hb : ∀ t v, hide ps (body t v) = hide ps t) :
    hide ps (State.serveDevSet s p id top body) = hide ps s := by
  unfold State.serveDevSet
  rw [hide_serve (by assumption) (by assumption) (by assumption) (by assumption) (by assumption)]
  intro t q
  split <;> simp only [hide_respond, h1, h2, h3, h4, hb]

theorem hide_startTest {s : State} {p : Port} {r : BitVec 512} (h0 : Part.ev ∈ ps) (h1 : Part.queues p ∈ ps)
    (h2 : Part.msix p ∈ ps) (h3 : Part.mbx p ∈ ps) (h4 : Part.params ∈ ps) (h5 : Part.out ∈ ps) :
    hide ps (State.startTest s p r) = hide ps s := by
  unfold State.startTest
  repeat' split
  all_goals simp only [hide_respond, hide_accept, hide_onEv, true_or, or_true, and_self, h0, h1, h2, h3, h4, h5]

theorem hide_marched {s : State} {mib : Nat} (h0 : Part.dram ∈ ps) :
    hide ps (State.marched s mib) = hide ps s := by
  unfold State.marched
  rw [hide_onMem_cells _ (by assumption)]

/-! ### Recorder -/

theorem hide_reelRecord {s : State} {e : Raised} {seq : BitVec 32} (h0 : Part.raised ∈ ps) (h1 : Part.ev ∈ ps) (h2 : ∀ x,
    Part.alarm x ∈ ps) :
    hide ps (State.reelRecord s e seq) = hide ps s := by

  have hr : ∀ (w reelSev freezeSrc post : Nat) (m : Mode),
      ((s.ev.record e seq w reelSev freezeSrc post m).1.raised = s.ev.raised
        ∧ (s.ev.record e seq w reelSev freezeSrc post m).1.latches = s.ev.latches)
      ∧ ((s.ev.record e seq w reelSev freezeSrc post m).1.queue = s.ev.queue
        ∧ (s.ev.record e seq w reelSev freezeSrc post m).1.nextSeq = s.ev.nextSeq
        ∧ (s.ev.record e seq w reelSev freezeSrc post m).1.tally = s.ev.tally
        ∧ (s.ev.record e seq w reelSev freezeSrc post m).1.drops = s.ev.drops)
      ∧ ((s.ev.record e seq w reelSev freezeSrc post m).1.transients = s.ev.transients
        ∧ (s.ev.record e seq w reelSev freezeSrc post m).1.persistents = s.ev.persistents
        ∧ (s.ev.record e seq w reelSev freezeSrc post m).1.retries = s.ev.retries) := by
    intro w a b c m
    unfold EventPath.record
    split
    · exact ⟨⟨rfl, rfl⟩, ⟨rfl, rfl, rfl, rfl⟩, rfl, rfl, rfl⟩
    · dsimp only
      split
      · generalize hv : EventPath.writeBlocks _ _ = v1
        have g : (v1.raised = s.ev.raised ∧ v1.latches = s.ev.latches) ∧ (v1.queue = s.ev.queue ∧ v1.nextSeq =
            s.ev.nextSeq ∧ v1.tally = s.ev.tally
            ∧ v1.drops = s.ev.drops) ∧ (v1.transients = s.ev.transients ∧ v1.persistents = s.ev.persistents
            ∧ v1.retries = s.ev.retries) := by
          rw [← hv]
          generalize s.ev = v0
          cases v0
          exact ⟨⟨rfl, rfl⟩, ⟨rfl, rfl, rfl, rfl⟩, rfl, rfl, rfl⟩
        clear hv
        cases v1
        repeat' split
        all_goals exact g
      · exact ⟨⟨rfl, rfl⟩, ⟨rfl, rfl, rfl, rfl⟩, rfl, rfl, rfl⟩
  unfold State.reelRecord
  split
  rename_i v cause heq
  obtain ⟨g1, g2, g3⟩ := hr (s.dn Param.evtCoalesce) (s.dn Param.evtReelSev) (s.dn Param.evtReelFreezeSrc)
    (s.dn Param.evtReelPost) s.sys.mode
  rw [heq] at g1 g2 g3
  have hv : hide ps (s.onEv (fun _ => v)) = hide ps s :=
    hide_onEv (Or.inr g1) (Or.inr g2) (Or.inr g3) (Or.inl (by assumption))
  dsimp only
  split <;> simp only [hide_raiseDev, hv, implies_true, h0, h2]

theorem hide_placeSummary {s : State} (h0 : Part.raised ∈ ps) (h1 : Part.fwq ∈ ps) (h2 : Part.ev ∈ ps) (h3 : ∀ x,
    Part.alarm x ∈ ps) :
    hide ps (State.placeSummary s) = hide ps s := by
  unfold State.placeSummary
  split
  · dsimp only
    rw [hide_reelRecord (by assumption) (by assumption) (by assumption)]
    exact hide_onEv (Or.inl (by assumption)) (Or.inl (by assumption)) (Or.inr ⟨rfl, rfl, rfl⟩) (Or.inl (by assumption))
  · rfl

theorem hide_signalEvent {s : State} {p : Port} {sev : Severity} (h0 : Part.queues p ∈ ps) (h1 : Part.msix p ∈ ps)
    (h2 : Part.ring p ∈ ps) (h3 : Part.out ∈ ps) :
    hide ps (State.signalEvent s p sev) = hide ps s := by
  simp only [State.signalEvent, hide_signal, hide_onRing, ite_self, hide_ite, h0, h1, h2, h3]

theorem hide_writeEvent {s : State} {p : Port} {x : EvRecord} (h0 : Part.queues p ∈ ps) (h1 : Part.msix p ∈ ps)
    (h2 : Part.ring p ∈ ps) (h3 : Part.out ∈ ps) :
    hide ps (State.writeEvent s p x) = hide ps s := by
  simp only [State.writeEvent, hide_emit, hide_signalEvent, hide_onRing, h0, h1, h2, h3]

theorem hide_ringSummary {s : State} {p : Port} (h0 : Part.queues p ∈ ps) (h1 : Part.msix p ∈ ps) (h2 : Part.ring p ∈ ps)
    (h3 : Part.out ∈ ps) :
    hide ps (State.ringSummary s p) = hide ps s := by
  simp only [State.ringSummary, hide_onRing, hide_writeEvent, ite_self, hide_ite, h0, h1, h2, h3]

theorem hide_ringDrop {s : State} {p : Port} {x : EvRecord} (h0 : Part.fwq ∈ ps) (h1 : Part.ring p ∈ ps) :
    hide ps (State.ringDrop s p x) = hide ps s := by
  simp only [State.ringDrop, hide_onEv, hide_onRing, true_or, or_true, and_self, h0, h1]

theorem hide_copyRecord {s : State} {p : Port} {x : EvRecord} (h0 : Part.fwq ∈ ps) (h1 : Part.queues p ∈ ps)
    (h2 : Part.msix p ∈ ps) (h3 : Part.ring p ∈ ps) (h4 : Part.out ∈ ps) :
    hide ps (State.copyRecord s p x) = hide ps s := by
  simp only [State.copyRecord, hide_ringSummary, hide_writeEvent, hide_ringDrop, ite_self, hide_ite, h0, h1, h2, h3, h4]

theorem hide_respondArea {s : State} {p : Port} {r : BitVec 512} {area : List Byte} (h0 : Part.queues p ∈ ps)
    (h1 : Part.msix p ∈ ps) (h2 : Part.mbx p ∈ ps) (h3 : Part.out ∈ ps) :
    hide ps (State.respondArea s p r area) = hide ps s := by
  simp only [State.respondArea, hide_respond, ite_self, hide_ite, h0, h1, h2, h3]

/-! ### Pair -/

theorem hide_sendNak {s : State} (h0 : Part.pair ∈ ps) (h1 : Part.out ∈ ps) :
    hide ps (State.sendNak s) = hide ps s := by
  simp only [State.sendNak, hide_sendFirst, h0, h1]

theorem hide_takeAck {s : State} {ack : BitVec 16} (h0 : Part.pair ∈ ps) (h1 : Part.out ∈ ps) :
    hide ps (State.takeAck s ack) = hide ps s := by
  simp only [State.takeAck, hide_onPair, hide_pumpAll, ite_self, hide_ite, h0, h1]

theorem hide_badFlit {s : State} {bad : BitVec 4} (h0 : Part.raised ∈ ps) (h1 : Part.retry ∈ ps) (h2 : Part.ev ∈ ps)
    (h3 : ∀ x, Part.queues x ∈ ps) (h4 : ∀ x, Part.msix x ∈ ps) (h5 : ∀ x, Part.mbx x ∈ ps) (h6 : ∀ x, Part.alarm x ∈ ps)
    (h7 : Part.vols ∈ ps) (h8 : Part.stg ∈ ps) (h9 : Part.mem ∈ ps) (h10 : Part.pair ∈ ps) (h11 : Part.out ∈ ps) :
    hide ps (State.badFlit s bad) = hide ps s := by
  simp only [State.badFlit, hide_onPair, hide_sendNak, hide_logRetry, hide_raiseDev, hide_testLoses, hide_tetherStops,
      ite_self, implies_true, hide_ite, h0, h1, h2, h3, h4, h5, h6, h7, h8, h9, h10, h11]

theorem hide_replay {s : State} {xs : List (BitVec 16 × TetherFlit)} (h0 : Part.pair ∈ ps) (h1 : Part.out ∈ ps) :
    hide ps (State.replay s xs) = hide ps s := by
  simp only [State.replay, hide_putFlit, hide_foldl, implies_true, h0, h1]

theorem hide_sentEnded {s : State} {status : Byte} (h0 : Part.sys ∈ ps) (h1 : Part.raised ∈ ps) (h2 : ∀ x,
    Part.queues x ∈ ps) (h3 : ∀ x, Part.msix x ∈ ps) (h4 : ∀ x, Part.alarm x ∈ ps) (h5 : Part.cmds ∈ ps)
    (h6 : Part.vols ∈ ps) (h7 : ∀ x, Part.afe x ∈ ps) (h8 : ∀ x, Part.rc x ∈ ps) (h9 : ∀ x, Part.wp x ∈ ps) (h10 : ∀ x,
    Part.srv x ∈ ps) (h11 : ∀ x, Part.seq x ∈ ps) (h12 : Part.hnd ∈ ps) (h13 : Part.stg ∈ ps) (h14 : Part.pair ∈ ps)
    (h15 : Part.out ∈ ps) :
    hide ps (State.sentEnded s status) = hide ps s := by
  unfold State.sentEnded
  repeat' split
  all_goals simp only [hide_onHnd, hide_onSeq, hide_setBaySt, hide_orderEnded, hide_setVols, ite_self, implies_true,
      hide_ite, h0, h1, h2, h3, h4, h5, h6, h7, h8, h9, h10, h11, h12, h13, h14, h15]

/-! ### Mailbox -/

theorem hide_endUnstarted {s : State} {which : Cmd → Bool} {status : Byte} (h0 : ∀ x, Part.queues x ∈ ps) (h1 : ∀ x,
    Part.msix x ∈ ps) (h2 : Part.cmds ∈ ps) (h3 : Part.stg ∈ ps) (h4 : Part.pair ∈ ps) (h5 : Part.out ∈ ps) :
    hide ps (State.endUnstarted s which status) = hide ps s := by
  simp only [State.endUnstarted, hide_complete, hide_foldl, implies_true, h0, h1, h2, h3, h4, h5]

theorem hide_removeVolume {s : State} {vid : VolId} (h0 : Part.raised ∈ ps) (h1 : ∀ x, Part.queues x ∈ ps) (h2 : ∀ x,
    Part.msix x ∈ ps) (h3 : ∀ x, Part.alarm x ∈ ps) (h4 : Part.cmds ∈ ps) (h5 : Part.vols ∈ ps) (h6 : Part.flash ∈ ps)
    (h7 : Part.stg ∈ ps) (h8 : Part.mem ∈ ps) (h9 : Part.pair ∈ ps) (h10 : Part.out ∈ ps) :
    hide ps (State.removeVolume s vid) = hide ps s := by
  simp only [State.removeVolume, hide_endUnstarted, hide_unbind, hide_discardData, hide_saveAll, implies_true, h0, h1,
      h2, h3, h4, h5, h6, h7, h8, h9, h10]

theorem hide_deleteNow {s : State} {vid : VolId} {discard : Bool} (h0 : Part.raised ∈ ps) (h1 : ∀ x, Part.queues x ∈ ps)
    (h2 : ∀ x, Part.msix x ∈ ps) (h3 : ∀ x, Part.alarm x ∈ ps) (h4 : Part.cmds ∈ ps) (h5 : Part.vols ∈ ps)
    (h6 : Part.flash ∈ ps) (h7 : Part.stg ∈ ps) (h8 : Part.mem ∈ ps) (h9 : Part.pair ∈ ps) (h10 : Part.out ∈ ps) :
    hide ps (State.deleteNow s vid discard).1 = hide ps s := by
  unfold State.deleteNow
  repeat' split
  all_goals simp only [hide_removeVolume, implies_true, h0, h1, h2, h3, h4, h5, h6, h7, h8, h9, h10]

theorem hide_formatAt {s : State} {p : Port} {b : BayNo} {certify : Bool} {remap : Bool} {recorded : Bool}
    (h0 : Part.sys ∈ ps) (h1 : Part.queues p ∈ ps) (h2 : Part.msix p ∈ ps) (h3 : Part.mbx p ∈ ps) (h4 : Part.flash ∈ ps)
    (h5 : Part.wp b ∈ ps) (h6 : Part.mem ∈ ps) (h7 : Part.out ∈ ps) :
    hide ps (State.formatAt s p b certify remap recorded) = hide ps s := by
  simp only [State.formatAt, hide_formatEnds, hide_onWp, ite_self, hide_ite, h0, h1, h2, h3, h4, h5, h6, h7]

theorem hide_sanitizeDram {s : State} (h0 : Part.raised ∈ ps) (h1 : ∀ x, Part.alarm x ∈ ps) (h2 : ∀ x, Part.dec x ∈ ps)
    (h3 : Part.stg ∈ ps) (h4 : Part.dram ∈ ps) (h5 : Part.mem ∈ ps) :
    hide ps (State.sanitizeDram s) = hide ps s := by
  unfold State.sanitizeDram
  dsimp only
  rw [hide_eachBay, hide_onMem_cells _ (by assumption), hide_dropDirty]
  all_goals first | assumption | (intro t b; simp only [hide_giveAll, hide_onDec, implies_true, h0, h1, h2, h5])

theorem hide_sanitizeEnds {s : State} (h0 : Part.mode ∈ ps) (h1 : Part.sys ∈ ps) (h2 : Part.raised ∈ ps)
    (h3 : Part.ev ∈ ps) (h4 : ∀ x, Part.queues x ∈ ps) (h5 : ∀ x, Part.msix x ∈ ps) (h6 : ∀ x, Part.mbx x ∈ ps)
    (h7 : ∀ x, Part.alarm x ∈ ps) (h8 : Part.cmds ∈ ps) (h9 : Part.flash ∈ ps) (h10 : ∀ x, Part.afe x ∈ ps) (h11 : ∀ x,
    Part.rc x ∈ ps) (h12 : ∀ x, Part.wp x ∈ ps) (h13 : ∀ x, Part.srv x ∈ ps) (h14 : ∀ x, Part.seq x ∈ ps)
    (h15 : Part.hnd ∈ ps) (h16 : Part.stg ∈ ps) (h17 : Part.mem ∈ ps) (h18 : Part.pair ∈ ps) (h19 : Part.out ∈ ps) :
    hide ps (State.sanitizeEnds s) = hide ps s := by
  unfold State.sanitizeEnds
  dsimp only
  repeat' split
  all_goals simp only [hide_onStg, hide_setProgress, hide_markValid, hide_returnTo, hide_respondRun, implies_true, h0,
      h1, h2, h3, h4, h5, h6, h7, h8, h9, h10, h11, h12, h13, h14, h15, h16, h17, h18, h19]

theorem hide_commitImage {s : State} {bs : List Byte} (h0 : Part.sys ∈ ps) (h1 : Part.flash ∈ ps) :
    hide ps (State.commitImage s bs) = hide ps s := by
  simp only [State.commitImage, hide_onSys, hide_onFlash, or_true, h0, h1]

theorem hide_commit {s : State} (h0 : Part.sys ∈ ps) (h1 : Part.flash ∈ ps) :
    hide ps (State.commit s).1 = hide ps s := by
  unfold State.commit
  repeat' split
  all_goals simp only [hide_commitImage, h0, h1]

theorem hide_activate {s : State} {p : Port} {k : Fin 2} (h0 : Part.mode ∈ ps) (h1 : Part.sys ∈ ps)
    (h2 : Part.raised ∈ ps) (h3 : Part.ev ∈ ps) (h4 : ∀ x, Part.queues x ∈ ps) (h5 : ∀ x, Part.msix x ∈ ps) (h6 : ∀ x,
    Part.mbx x ∈ ps) (h7 : ∀ x, Part.alarm x ∈ ps) (h8 : Part.cmds ∈ ps) (h9 : ∀ x, Part.afe x ∈ ps) (h10 : ∀ x,
    Part.rc x ∈ ps) (h11 : ∀ x, Part.wp x ∈ ps) (h12 : ∀ x, Part.srv x ∈ ps) (h13 : ∀ x, Part.seq x ∈ ps)
    (h14 : Part.hnd ∈ ps) (h15 : Part.stg ∈ ps) (h16 : Part.pair ∈ ps) (h17 : Part.out ∈ ps) :
    hide ps (State.activate s p k) = hide ps s := by
  simp only [State.activate, hide_onSys, hide_beginRun, hide_endUnstarted, hide_setMode, or_true, or_self, implies_true,
      h0, h1, h2, h3, h4, h5, h6, h7, h8, h9, h10, h11, h12, h13, h14, h15, h16, h17]

/-! ### Memory -/

theorem hide_scrubNext {s : State} (h0 : Part.raised ∈ ps) (h1 : ∀ x, Part.alarm x ∈ ps) (h2 : Part.mem ∈ ps) :
    hide ps (State.scrubNext s) = hide ps s := by
  simp only [State.scrubNext, hide_onMem, hide_raiseDev, ite_self, or_true, implies_true, hide_ite, h0, h1, h2]

theorem hide_tripleRepair {s : State} {w : Fin 31} {v : BitVec 64} {again : BitVec 64} {bank : Fin 3}
    (h0 : Part.raised ∈ ps) (h1 : Part.retry ∈ ps) (h2 : ∀ x, Part.alarm x ∈ ps) (h3 : Part.mem ∈ ps) :
    hide ps (State.tripleRepair s w v again bank) = hide ps s := by
  simp only [State.tripleRepair, hide_raiseDev, hide_onMem, hide_logRetry, ite_self, or_true, implies_true, hide_ite, h0,
      h1, h2, h3]

theorem hide_uncached {s : State} {addr : BitVec 40} {a : CoreAccess} (h0 : Part.dram ∈ ps) (h1 : Part.out ∈ ps) :
    hide ps (State.uncached s addr a) = hide ps s := by
  unfold State.uncached
  dsimp only
  split
  · rw [hide_emit (by assumption)]
  · rw [hide_onMem_cells _ (by assumption)]

/-! ### Staging -/

theorem hide_judgeFull {s : State} (h0 : Part.raised ∈ ps) (h1 : ∀ x, Part.alarm x ∈ ps) (h2 : ∀ x, Part.seq x ∈ ps)
    (h3 : Part.stg ∈ ps) :
    hide ps (State.judgeFull s) = hide ps s := by
  simp only [State.judgeFull, hide_eachBay, hide_raiseDev, hide_onStg, hide_onSeq, ite_self, implies_true, hide_ite, h0,
      h1, h2, h3]

theorem hide_nandLost {s : State} {loc : BitVec 34} {sector : Fin 16} (h0 : Part.raised ∈ ps) (h1 : ∀ x,
    Part.alarm x ∈ ps) (h2 : Part.stg ∈ ps) :
    hide ps (State.nandLost s loc sector) = hide ps s := by
  unfold State.nandLost
  repeat' split
  all_goals simp only [hide_raiseNand, hide_onStg, implies_true, h0, h1, h2]

theorem hide_nandRebuilt {s : State} {loc : BitVec 34} {sector : Fin 16} {w : NandWord} (h0 : Part.raised ∈ ps)
    (h1 : Part.retry ∈ ps) (h2 : Part.ev ∈ ps) (h3 : ∀ x, Part.alarm x ∈ ps) (h4 : Part.stg ∈ ps) :
    hide ps (State.nandRebuilt s loc sector w) = hide ps s := by
  simp only [State.nandRebuilt, hide_raiseNand, hide_onStg, hide_proposeBlock, ite_self, implies_true, hide_ite, h0, h1,
      h2, h3, h4]

theorem hide_nandRead {s : State} {loc : BitVec 34} {cls : Nat} (h0 : Part.stg ∈ ps) (h1 : Part.out ∈ ps) :
    hide ps (State.nandRead s loc cls) = hide ps s := by
  simp only [State.nandRead, hide_onStg, hide_emit, h0, h1]

theorem hide_copyOne {s : State} {e : MapEntry} {ok : Bool} {again : Bool} (h0 : Part.sys ∈ ps) (h1 : Part.raised ∈ ps)
    (h2 : Part.retry ∈ ps) (h3 : Part.ev ∈ ps) (h4 : ∀ x, Part.alarm x ∈ ps) (h5 : Part.stg ∈ ps) (h6 : Part.out ∈ ps) :
    hide ps (State.copyOne s e ok again) = hide ps s := by
  unfold State.copyOne
  dsimp only
  split
  · rfl
  · rename_i h
    have hp := hide_program (ps := ps) (by assumption) (by assumption) (by assumption) (by assumption) (by assumption)
        (by assumption)  h
    simp only [hide_copied, hp, h0, h5]

theorem hide_erasedSb {s : State} {l : Nat} {b : Nat} (h0 : Part.raised ∈ ps) (h1 : ∀ x, Part.alarm x ∈ ps) (h2 : ∀ x,
    Part.seq x ∈ ps) (h3 : Part.stg ∈ ps) :
    hide ps (State.erasedSb s l b) = hide ps s := by
  simp only [State.erasedSb, hide_onStg, hide_judgeFull, hide_gcStart, implies_true, h0, h1, h2, h3]

theorem hide_metadataPage {s : State} (h0 : Part.sys ∈ ps) (h1 : Part.raised ∈ ps) (h2 : Part.retry ∈ ps)
    (h3 : Part.ev ∈ ps) (h4 : ∀ x, Part.alarm x ∈ ps) (h5 : Part.stg ∈ ps) (h6 : Part.out ∈ ps) :
    hide ps (State.metadataPage s) = hide ps s := by
  unfold State.metadataPage
  dsimp only
  split
  · rename_i h
    have hp := hide_program (ps := ps) (by assumption) (by assumption) (by assumption) (by assumption) (by assumption)
        (by assumption)  h
    simp only [hide_onSys, hp, or_true, h0]
  · rfl

end Sys2Proof.Laws
end

