-- ==== Sys2Proof/Laws/FrameBays.lean ====
section
/-! SUPPORT. What each meaning of the handler, the head and the drives may write. -/

namespace Sys2Proof.Laws

set_option Elab.async false

open Sys2Proof Sys2Proof.Machine Sys2Proof.Safety

variable {ps : List Part}

/-! ### Handler -/

theorem hide_execHandlerInterpolatedMove {x : Int} {z : Int} {theta : Int} {s : State} {tn : State}
    (h0 : Part.raised ∈ ps) (h1 : ∀ x, Part.alarm x ∈ ps) (h2 : Part.hnd ∈ ps)
    (hx : execHandlerInterpolatedMove x z theta s = .next tn) :
    hide ps tn = hide ps s := by
  unfold execHandlerInterpolatedMove at hx
  repeat' split at hx
  all_goals
    obtain rfl := Host.Outcome.next.inj hx
    first | with_reducible rfl | simp only [hide_raiseDev, hide_onHnd, hide_startPath, implies_true, h0, h1, h2]

theorem hide_execHandlerRetarget {x : Int} {z : Int} {theta : Int} {s : State} {tn : State} (h0 : Part.raised ∈ ps)
    (h1 : ∀ x, Part.alarm x ∈ ps) (h2 : Part.hnd ∈ ps) (hx : execHandlerRetarget x z theta s = .next tn) :
    hide ps tn = hide ps s := by
  unfold execHandlerRetarget at hx
  repeat' split at hx
  all_goals
    obtain rfl := Host.Outcome.next.inj hx
    first | with_reducible rfl | simp only [hide_raiseDev, hide_onHnd, implies_true, h0, h1, h2]

theorem hide_execHandlerAxisMove {a : AxisNo} {target : Int} {s : State} {tn : State} (h0 : Part.raised ∈ ps) (h1 : ∀ x,
    Part.alarm x ∈ ps) (h2 : Part.hnd ∈ ps) (hx : execHandlerAxisMove a target s = .next tn) :
    hide ps tn = hide ps s := by
  unfold execHandlerAxisMove at hx
  repeat' split at hx
  all_goals
    obtain rfl := Host.Outcome.next.inj hx
    first | with_reducible rfl | simp only [hide_raiseDev, hide_onHnd, hide_startAxis, hide_onAxis, implies_true, h0, h1,
        h2]

theorem hide_execHandlerHome {s : State} {tn : State} (h0 : Part.hnd ∈ ps) (hx : execHandlerHome s = .next tn) :
    hide ps tn = hide ps s := by
  unfold execHandlerHome at hx
  repeat' split at hx
  all_goals
    obtain rfl := Host.Outcome.next.inj hx
    first | with_reducible rfl | simp only [hide_onHnd, hide_startHoming, h0]

theorem hide_execHandlerPwmPeriod {marks : Vector Bool 4} {s : State} {tn : State} (h0 : Part.sys ∈ ps)
    (h1 : Part.raised ∈ ps) (h2 : ∀ x, Part.queues x ∈ ps) (h3 : ∀ x, Part.msix x ∈ ps) (h4 : ∀ x, Part.mbx x ∈ ps)
    (h5 : ∀ x, Part.alarm x ∈ ps) (h6 : Part.cmds ∈ ps) (h7 : ∀ x, Part.afe x ∈ ps) (h8 : ∀ x, Part.rc x ∈ ps) (h9 : ∀ x,
    Part.wp x ∈ ps) (h10 : ∀ x, Part.srv x ∈ ps) (h11 : ∀ x, Part.seq x ∈ ps) (h12 : Part.hnd ∈ ps) (h13 : Part.stg ∈ ps)
    (h14 : Part.pair ∈ ps) (h15 : Part.out ∈ ps) (hx : execHandlerPwmPeriod marks s = .next tn) :
    hide ps tn = hide ps s := by
  unfold execHandlerPwmPeriod at hx
  obtain rfl := Host.Outcome.next.inj hx
  simp only [hide_pathPeriod, hide_axisPeriod, hide_repeatStalled, hide_foldl, implies_true, h0, h1, h2, h3, h4, h5, h6,
      h7, h8, h9, h10, h11, h12, h13, h14, h15]

theorem hide_execHandlerStandstill {a : AxisNo} {s : State} {tn : State} (h0 : Part.hnd ∈ ps)
    (hx : execHandlerStandstill a s = .next tn) :
    hide ps tn = hide ps s := by
  unfold execHandlerStandstill at hx
  dsimp only at hx
  repeat' split at hx
  all_goals
    obtain rfl := Host.Outcome.next.inj hx
    first | with_reducible rfl | simp only [hide_onAxis, h0]

theorem hide_execMoveDisc {p : Port} {s : State} {tn : State} (h0 : Part.sys ∈ ps) (h1 : Part.raised ∈ ps) (h2 : ∀ x,
    Part.queues x ∈ ps) (h3 : ∀ x, Part.msix x ∈ ps) (h4 : ∀ x, Part.mbx x ∈ ps) (h5 : ∀ x, Part.alarm x ∈ ps)
    (h6 : Part.cmds ∈ ps) (h7 : ∀ x, Part.afe x ∈ ps) (h8 : ∀ x, Part.rc x ∈ ps) (h9 : ∀ x, Part.wp x ∈ ps) (h10 : ∀ x,
    Part.srv x ∈ ps) (h11 : ∀ x, Part.seq x ∈ ps) (h12 : Part.hnd ∈ ps) (h13 : Part.stg ∈ ps) (h14 : Part.pair ∈ ps)
    (h15 : Part.out ∈ ps) (hx : execMoveDisc p s = .next tn) :
    hide ps tn = hide ps s := by
  unfold execMoveDisc at hx
  obtain rfl := Host.Outcome.next.inj hx
  refine hide_serve (by solve_by_elim) (by solve_by_elim) (by solve_by_elim) (by solve_by_elim) (by solve_by_elim)
      (fun t r => ?_)
  dsimp only
  repeat' split
  all_goals first
    | (simp only [hide_beginRun, hide_respondRun, hide_send, hide_respond, h2, h3, h4, h14, h15]; done)
    | ((repeat (rename _ = (_, _) => h; have h' := congrArg Prod.fst h; clear h; dsimp only at h'; subst h'))
       simp only [hide_beginMove, hide_beginRun, hide_respondRun, implies_true, h0, h1, h2, h3, h4, h5, h6, h7, h8, h9,
           h10, h11, h12, h13, h14, h15]; done)

theorem hide_execMoveDiscStepDone {s : State} {tn : State} (h0 : Part.sys ∈ ps) (h1 : Part.raised ∈ ps) (h2 : ∀ x,
    Part.queues x ∈ ps) (h3 : ∀ x, Part.msix x ∈ ps) (h4 : ∀ x, Part.mbx x ∈ ps) (h5 : ∀ x, Part.alarm x ∈ ps)
    (h6 : Part.cmds ∈ ps) (h7 : Part.vols ∈ ps) (h8 : ∀ x, Part.afe x ∈ ps) (h9 : ∀ x, Part.rc x ∈ ps) (h10 : ∀ x,
    Part.wp x ∈ ps) (h11 : ∀ x, Part.srv x ∈ ps) (h12 : ∀ x, Part.seq x ∈ ps) (h13 : Part.hnd ∈ ps) (h14 : Part.stg ∈ ps)
    (h15 : Part.pair ∈ ps) (h16 : Part.out ∈ ps) (hx : execMoveDiscStepDone s = .next tn) :
    hide ps tn = hide ps s := by
  unfold execMoveDiscStepDone at hx
  repeat' split at hx
  all_goals
    obtain rfl := Host.Outcome.next.inj hx
    first | with_reducible rfl | simp only [hide_runStep, hide_toStep, hide_picked, hide_raiseDev, hide_setDown,
        hide_endMove, hide_setLoc, implies_true, h0, h1, h2, h3, h4, h5, h6, h7, h8, h9, h10, h11, h12, h13, h14, h15,
        h16]

theorem hide_execInputFilterChange {i : InputNo} {level : Bool} {s : State} {tn : State} (h0 : Part.sys ∈ ps)
    (h1 : Part.raised ∈ ps) (h2 : Part.fwq ∈ ps) (h3 : ∀ x, Part.alarm x ∈ ps) (h4 : ∀ x, Part.afe x ∈ ps) (h5 : ∀ x,
    Part.rc x ∈ ps) (h6 : ∀ x, Part.dec x ∈ ps) (h7 : ∀ x, Part.wp x ∈ ps) (h8 : ∀ x, Part.srv x ∈ ps) (h9 : ∀ x,
    Part.seq x ∈ ps) (h10 : Part.pool ∈ ps) (h11 : Part.hnd ∈ ps) (h12 : Part.mem ∈ ps) (h13 : Part.pair ∈ ps)
    (h14 : Part.out ∈ ps) (hx : execInputFilterChange i level s = .next tn) :
    hide ps tn = hide ps s := by
  unfold execInputFilterChange at hx
  dsimp only at hx
  repeat' split at hx
  all_goals
    obtain rfl := Host.Outcome.next.inj hx
    first | with_reducible rfl | simp only [hide_onInput, hide_handlerStop, hide_cutAll, hide_raiseDev, implies_true, h0,
        h1, h2, h3, h4, h5, h6, h7, h8, h9, h10, h11, h12, h13, h14]

theorem hide_execInputQuietEnd {i : InputNo} {s : State} {tn : State} (h0 : Part.raised ∈ ps) (h1 : ∀ x,
    Part.alarm x ∈ ps) (h2 : Part.hnd ∈ ps) (hx : execInputQuietEnd i s = .next tn) :
    hide ps tn = hide ps s := by
  unfold execInputQuietEnd at hx
  dsimp only at hx
  repeat' split at hx
  all_goals
    obtain rfl := Host.Outcome.next.inj hx
    first | with_reducible rfl | simp only [hide_onInput, hide_raiseDev, implies_true, h0, h1, h2]

theorem hide_execInputStuck {i : InputNo} {s : State} {tn : State} (h0 : Part.raised ∈ ps) (h1 : ∀ x, Part.alarm x ∈ ps)
    (h2 : Part.hnd ∈ ps) (hx : execInputStuck i s = .next tn) :
    hide ps tn = hide ps s := by
  unfold execInputStuck at hx
  repeat' split at hx
  all_goals
    obtain rfl := Host.Outcome.next.inj hx
    first | with_reducible rfl | simp only [hide_onInput, hide_raiseDev, implies_true, h0, h1, h2]

theorem hide_execHandlerResume {s : State} {tn : State} (h0 : Part.sys ∈ ps) (h1 : Part.raised ∈ ps) (h2 : ∀ x,
    Part.queues x ∈ ps) (h3 : ∀ x, Part.msix x ∈ ps) (h4 : ∀ x, Part.mbx x ∈ ps) (h5 : ∀ x, Part.alarm x ∈ ps)
    (h6 : Part.cmds ∈ ps) (h7 : ∀ x, Part.afe x ∈ ps) (h8 : ∀ x, Part.rc x ∈ ps) (h9 : ∀ x, Part.wp x ∈ ps) (h10 : ∀ x,
    Part.srv x ∈ ps) (h11 : ∀ x, Part.seq x ∈ ps) (h12 : Part.hnd ∈ ps) (h13 : Part.stg ∈ ps) (h14 : Part.pair ∈ ps)
    (h15 : Part.out ∈ ps) (hx : execHandlerResume s = .next tn) :
    hide ps tn = hide ps s := by
  unfold execHandlerResume at hx
  dsimp only at hx
  repeat' split at hx
  all_goals
    obtain rfl := Host.Outcome.next.inj hx
    first | with_reducible rfl | simp only [hide_raiseDev, hide_onHnd, hide_setBaySt, hide_repeatStalled, hide_runStep,
        hide_startPath, implies_true, h0, h1, h2, h3, h4, h5, h6, h7, h8, h9, h10, h11, h12, h13, h14, h15]

theorem hide_execHandlerStopWaitExpiry {s : State} {tn : State} (h0 : Part.sys ∈ ps) (h1 : Part.raised ∈ ps) (h2 : ∀ x,
    Part.queues x ∈ ps) (h3 : ∀ x, Part.msix x ∈ ps) (h4 : ∀ x, Part.mbx x ∈ ps) (h5 : ∀ x, Part.alarm x ∈ ps)
    (h6 : Part.cmds ∈ ps) (h7 : ∀ x, Part.afe x ∈ ps) (h8 : ∀ x, Part.rc x ∈ ps) (h9 : ∀ x, Part.wp x ∈ ps) (h10 : ∀ x,
    Part.srv x ∈ ps) (h11 : ∀ x, Part.seq x ∈ ps) (h12 : Part.hnd ∈ ps) (h13 : Part.stg ∈ ps) (h14 : Part.pair ∈ ps)
    (h15 : Part.out ∈ ps) (hx : execHandlerStopWaitExpiry s = .next tn) :
    hide ps tn = hide ps s := by
  unfold execHandlerStopWaitExpiry at hx
  repeat' split at hx
  all_goals
    obtain rfl := Host.Outcome.next.inj hx
    first | with_reducible rfl | simp only [hide_endMove, implies_true, h0, h1, h2, h3, h4, h5, h6, h7, h8, h9, h10, h11,
        h12, h13, h14, h15]

theorem hide_execOwnershipTake {peerActiveSoon : Bool} {s : State} {tn : State} (h0 : Part.raised ∈ ps) (h1 : ∀ x,
    Part.alarm x ∈ ps) (h2 : Part.hnd ∈ ps) (hx : execOwnershipTake peerActiveSoon s = .next tn) :
    hide ps tn = hide ps s := by
  unfold execOwnershipTake at hx
  repeat' split at hx
  all_goals
    obtain rfl := Host.Outcome.next.inj hx
    first | with_reducible rfl | simp only [hide_takeOwn, implies_true, h0, h1, h2]

theorem hide_execOwnershipConflictRetry {peerActiveSoon : Bool} {s : State} {tn : State} (h0 : Part.raised ∈ ps)
    (h1 : ∀ x, Part.alarm x ∈ ps) (h2 : Part.hnd ∈ ps) (hx : execOwnershipConflictRetry peerActiveSoon s = .next tn) :
    hide ps tn = hide ps s := by
  unfold execOwnershipConflictRetry at hx
  repeat' split at hx
  all_goals
    obtain rfl := Host.Outcome.next.inj hx
    first | with_reducible rfl | simp only [hide_takeOwn, implies_true, h0, h1, h2]

theorem hide_execEncoderQuietWait {s : State} {tn : State} (h0 : Part.hnd ∈ ps) (hx : execEncoderQuietWait s = .next tn) :
    hide ps tn = hide ps s := by
  unfold execEncoderQuietWait at hx
  repeat' split at hx
  all_goals
    obtain rfl := Host.Outcome.next.inj hx
    first | with_reducible rfl | simp only [hide_onHnd, h0]

theorem hide_execOwnershipRelease {s : State} {tn : State} (h0 : Part.sys ∈ ps) (h1 : Part.raised ∈ ps) (h2 : ∀ x,
    Part.queues x ∈ ps) (h3 : ∀ x, Part.msix x ∈ ps) (h4 : ∀ x, Part.mbx x ∈ ps) (h5 : ∀ x, Part.alarm x ∈ ps)
    (h6 : Part.cmds ∈ ps) (h7 : ∀ x, Part.afe x ∈ ps) (h8 : ∀ x, Part.rc x ∈ ps) (h9 : ∀ x, Part.wp x ∈ ps) (h10 : ∀ x,
    Part.srv x ∈ ps) (h11 : ∀ x, Part.seq x ∈ ps) (h12 : Part.hnd ∈ ps) (h13 : Part.stg ∈ ps) (h14 : Part.pair ∈ ps)
    (h15 : Part.out ∈ ps) (hx : execOwnershipRelease s = .next tn) :
    hide ps tn = hide ps s := by
  unfold execOwnershipRelease at hx
  repeat' split at hx
  all_goals
    obtain rfl := Host.Outcome.next.inj hx
    first | with_reducible rfl | simp only [hide_dropOwn, implies_true, h0, h1, h2, h3, h4, h5, h6, h7, h8, h9, h10, h11,
        h12, h13, h14, h15]

/-! ### FrontEnd -/

theorem hide_execReceiverFault {b : BayNo} {r : RecvNo} {cause : RecvFault} {s : State} {tn : State} (h0 : Part.sys ∈ ps)
    (h1 : Part.raised ∈ ps) (h2 : Part.fwq ∈ ps) (h3 : ∀ x, Part.alarm x ∈ ps) (h4 : Part.afe b ∈ ps)
    (h5 : Part.rc b ∈ ps) (h6 : Part.dec b ∈ ps) (h7 : Part.wp b ∈ ps) (h8 : Part.srv b ∈ ps) (h9 : Part.spn b ∈ ps)
    (h10 : Part.sld b ∈ ps) (h11 : Part.seq b ∈ ps) (h12 : Part.pool ∈ ps) (h13 : Part.mem ∈ ps) (h14 : Part.pair ∈ ps)
    (h15 : Part.out ∈ ps) (hx : execReceiverFault b r cause s = .next tn) :
    hide ps tn = hide ps s := by
  unfold execReceiverFault at hx
  dsimp only at hx
  repeat' split at hx
  all_goals
    obtain rfl := Host.Outcome.next.inj hx
    first | with_reducible rfl | simp only [hide_onRecv, hide_abortCal, hide_raiseBay, hide_substitute,
        hide_reliefFailed, implies_true, h0, h1, h2, h3, h4, h5, h6, h7, h8, h9, h10, h11, h12, h13, h14, h15]

theorem hide_execReliefSubstitution {b : BayNo} {s : State} {tn : State} (h0 : Part.raised ∈ ps) (h1 : ∀ x,
    Part.alarm x ∈ ps) (h2 : Part.afe b ∈ ps) (h3 : Part.rc b ∈ ps) (h4 : Part.srv b ∈ ps)
    (hx : execReliefSubstitution b s = .next tn) :
    hide ps tn = hide ps s := by
  unfold execReliefSubstitution at hx
  repeat' split at hx
  all_goals
    obtain rfl := Host.Outcome.next.inj hx
    first | with_reducible rfl | simp only [hide_raiseBay, hide_onAfe, hide_selectLane, implies_true, h0, h1, h2, h3, h4]

theorem hide_execHeadTempSample {b : BayNo} {code : BitVec 12} {s : State} {tn : State} (h0 : Part.raised ∈ ps)
    (h1 : ∀ x, Part.alarm x ∈ ps) (h2 : Part.afe b ∈ ps) (h3 : Part.wp b ∈ ps) (h4 : Part.srv b ∈ ps)
    (hx : execHeadTempSample b code s = .next tn) :
    hide ps tn = hide ps s := by
  unfold execHeadTempSample at hx
  obtain rfl := Host.Outcome.next.inj hx
  simp only [hide_onAfe, hide_onBay, hide_raiseBay, hide_invalidateTables, ite_self, true_or, or_true, or_self, and_self,
      implies_true, hide_ite, h0, h1, h2, h3, h4]

theorem hide_execCalSlotOpen {b : BayNo} {s : State} {tn : State} (h0 : Part.afe b ∈ ps)
    (hx : execCalSlotOpen b s = .next tn) :
    hide ps tn = hide ps s := by
  unfold execCalSlotOpen at hx
  dsimp only at hx
  repeat' split at hx
  all_goals
    obtain rfl := Host.Outcome.next.inj hx
    first | with_reducible rfl | simp only [hide_onAfe, h0]

theorem hide_execReliefSettled {b : BayNo} {s : State} {tn : State} (h0 : Part.afe b ∈ ps)
    (hx : execReliefSettled b s = .next tn) :
    hide ps tn = hide ps s := by
  unfold execReliefSettled at hx
  obtain rfl := Host.Outcome.next.inj hx
  simp only [hide_onAfe, h0]

theorem hide_execLaneSelectSwitch {b : BayNo} {l : Beam} {s : State} {tn : State} (h0 : Part.afe b ∈ ps)
    (h1 : Part.rc b ∈ ps) (hx : execLaneSelectSwitch b l s = .next tn) :
    hide ps tn = hide ps s := by
  unfold execLaneSelectSwitch at hx
  dsimp only at hx
  repeat' split at hx
  all_goals
    obtain rfl := Host.Outcome.next.inj hx
    first | with_reducible rfl | simp only [hide_onAfe, hide_selectLane, hide_laneBack, hide_relieveNext, h0, h1]

theorem hide_execCalMeasurement {b : BayNo} {window : List CalPart} {s : State} {tn : State} (h0 : Part.sys ∈ ps)
    (h1 : Part.raised ∈ ps) (h2 : Part.fwq ∈ ps) (h3 : Part.retry ∈ ps) (h4 : Part.ev ∈ ps) (h5 : ∀ x, Part.alarm x ∈ ps)
    (h6 : Part.afe b ∈ ps) (h7 : Part.rc b ∈ ps) (h8 : Part.dec b ∈ ps) (h9 : Part.wp b ∈ ps) (h10 : Part.srv b ∈ ps)
    (h11 : Part.spn b ∈ ps) (h12 : Part.sld b ∈ ps) (h13 : Part.seq b ∈ ps) (h14 : Part.pool ∈ ps) (h15 : Part.mem ∈ ps)
    (h16 : Part.pair ∈ ps) (h17 : Part.out ∈ ps) (hx : execCalMeasurement b window s = .next tn) :
    hide ps tn = hide ps s := by
  unfold execCalMeasurement at hx
  dsimp only at hx
  repeat' split at hx
  all_goals
    obtain rfl := Host.Outcome.next.inj hx
    first | with_reducible rfl | simp only [hide_onAfe, hide_slotRunEnds, implies_true, h0, h1, h2, h3, h4, h5, h6, h7,
        h8, h9, h10, h11, h12, h13, h14, h15, h16, h17]

theorem hide_execReceiverRetryRun {b : BayNo} {clear : Bool} {windows : List (List CalPart)} {s : State} {tn : State}
    (h0 : Part.raised ∈ ps) (h1 : Part.retry ∈ ps) (h2 : Part.ev ∈ ps) (h3 : ∀ x, Part.alarm x ∈ ps)
    (h4 : Part.afe b ∈ ps) (h5 : Part.srv b ∈ ps) (hx : execReceiverRetryRun b clear windows s = .next tn) :
    hide ps tn = hide ps s := by
  unfold execReceiverRetryRun at hx
  dsimp only at hx
  repeat' split at hx
  all_goals
    obtain rfl := Host.Outcome.next.inj hx
    first | with_reducible rfl | simp only [hide_runEnds, hide_onRecv, hide_logRetry, hide_raiseBay, hide_proposeRetire,
        implies_true, h0, h1, h2, h3, h4, h5]

/-! ### ReadChannel -/

theorem hide_execClusterAcquisition {b : BayNo} {l : Beam} {home : ClusterAddr} {read : ClusterAddr} {cls : CwClass}
    {first : Bool} {cycle : ℚ} {samples : List (BitVec 8)} {s : State} {tn : State} (h0 : Part.free ∈ ps)
    (h1 : Part.raised ∈ ps) (h2 : ∀ x, Part.alarm x ∈ ps) (h3 : Part.params ∈ ps) (h4 : Part.rc b ∈ ps)
    (h5 : Part.dec b ∈ ps) (h6 : Part.srv b ∈ ps) (h7 : Part.seq b ∈ ps) (h8 : Part.mem ∈ ps)
    (hx : execClusterAcquisition b l home read cls first cycle samples s = .next tn) :
    hide ps tn = hide ps s := by
  unfold execClusterAcquisition at hx
  dsimp only at hx
  repeat' split at hx
  all_goals
    obtain rfl := Host.Outcome.next.inj hx
    first | with_reducible rfl | simp only [hide_takeEffect, hide_sampled, hide_openVerify, hide_openEntry, hide_onRc,
        hide_takeCluster, implies_true, h0, h1, h2, h3, h4, h5, h6, h7, h8]

theorem hide_execPreambleDetect {b : BayNo} {l : Beam} {samples : List (BitVec 8)} {s : State} {tn : State}
    (h0 : Part.raised ∈ ps) (h1 : ∀ x, Part.alarm x ∈ ps) (h2 : Part.rc b ∈ ps) (h3 : Part.srv b ∈ ps)
    (hx : execPreambleDetect b l samples s = .next tn) :
    hide ps tn = hide ps s := by
  unfold execPreambleDetect at hx
  dsimp only at hx
  repeat' split at hx
  all_goals
    obtain rfl := Host.Outcome.next.inj hx
    first | with_reducible rfl | simp only [hide_sampled, hide_onLane, implies_true, h0, h1, h2, h3]

theorem hide_execFrameSyncSearch {b : BayNo} {l : Beam} {samples : List (BitVec 8)} {s : State} {tn : State}
    (h0 : Part.raised ∈ ps) (h1 : ∀ x, Part.alarm x ∈ ps) (h2 : Part.rc b ∈ ps) (h3 : Part.srv b ∈ ps)
    (hx : execFrameSyncSearch b l samples s = .next tn) :
    hide ps tn = hide ps s := by
  unfold execFrameSyncSearch at hx
  dsimp only at hx
  repeat' split at hx
  all_goals
    obtain rfl := Host.Outcome.next.inj hx
    first | with_reducible rfl | simp only [hide_sampled, hide_acqFails, hide_acceptSync, hide_insertSync, implies_true,
        h0, h1, h2, h3]

theorem hide_execTimingRange {b : BayNo} {l : Beam} {samples : List (BitVec 8)} {s : State} {tn : State}
    (h0 : Part.raised ∈ ps) (h1 : ∀ x, Part.alarm x ∈ ps) (h2 : Part.rc b ∈ ps) (h3 : Part.srv b ∈ ps)
    (hx : execTimingRange b l samples s = .next tn) :
    hide ps tn = hide ps s := by
  unfold execTimingRange at hx
  dsimp only at hx
  repeat' split at hx
  all_goals
    obtain rfl := Host.Outcome.next.inj hx
    first | with_reducible rfl | simp only [hide_sampled, hide_lockLoss, hide_raiseBay, implies_true, h0, h1, h2, h3]

theorem hide_execFrameRecordRelease {b : BayNo} {l : Beam} {samples : List (BitVec 8)} {s : State} {tn : State}
    (h0 : Part.sys ∈ ps) (h1 : Part.raised ∈ ps) (h2 : Part.fwq ∈ ps) (h3 : ∀ x, Part.alarm x ∈ ps)
    (h4 : Part.afe b ∈ ps) (h5 : Part.rc b ∈ ps) (h6 : Part.dec b ∈ ps) (h7 : Part.wp b ∈ ps) (h8 : Part.srv b ∈ ps)
    (h9 : Part.spn b ∈ ps) (h10 : Part.sld b ∈ ps) (h11 : Part.seq b ∈ ps) (h12 : Part.pool ∈ ps) (h13 : Part.mem ∈ ps)
    (h14 : Part.pair ∈ ps) (h15 : Part.out ∈ ps) (hx : execFrameRecordRelease b l samples s = .next tn) :
    hide ps tn = hide ps s := by
  unfold execFrameRecordRelease at hx
  dsimp only at hx
  repeat' split at hx
  all_goals
    obtain rfl := Host.Outcome.next.inj hx
    first | with_reducible rfl | simp only [hide_sampled, hide_onLane, hide_judgeAddress, hide_recordFrame, implies_true,
        h0, h1, h2, h3, h4, h5, h6, h7, h8, h9, h10, h11, h12, h13, h14, h15]

theorem hide_execClusterEnd {b : BayNo} {l : Beam} {samples : List (BitVec 8)} {s : State} {tn : State}
    (h0 : Part.raised ∈ ps) (h1 : ∀ x, Part.alarm x ∈ ps) (h2 : Part.rc b ∈ ps) (h3 : Part.dec b ∈ ps)
    (h4 : Part.srv b ∈ ps) (h5 : Part.pool ∈ ps) (h6 : Part.mem ∈ ps) (hx : execClusterEnd b l samples s = .next tn) :
    hide ps tn = hide ps s := by
  unfold execClusterEnd at hx
  dsimp only at hx
  repeat' split at hx
  all_goals
    obtain rfl := Host.Outcome.next.inj hx
    first | with_reducible rfl | simp only [hide_sampled, hide_onLane, hide_raiseBay, hide_writeBack, hide_undo,
        implies_true, h0, h1, h2, h3, h4, h5, h6]

theorem hide_execDefectDropout {b : BayNo} {l : Beam} {samples : List (BitVec 8)} {s : State} {tn : State}
    (h0 : Part.raised ∈ ps) (h1 : ∀ x, Part.alarm x ∈ ps) (h2 : Part.rc b ∈ ps) (h3 : Part.srv b ∈ ps)
    (hx : execDefectDropout b l samples s = .next tn) :
    hide ps tn = hide ps s := by
  unfold execDefectDropout at hx
  dsimp only at hx
  repeat' split at hx
  all_goals
    obtain rfl := Host.Outcome.next.inj hx
    first | with_reducible rfl | simp only [hide_sampled, hide_raiseBay, hide_onLane, implies_true, h0, h1, h2, h3]

theorem hide_execSumDefectLong {b : BayNo} {s : State} {tn : State} (h0 : Part.raised ∈ ps) (h1 : Part.fwq ∈ ps)
    (h2 : ∀ x, Part.alarm x ∈ ps) (h3 : Part.rc b ∈ ps) (h4 : Part.dec b ∈ ps) (h5 : Part.wp b ∈ ps)
    (h6 : Part.srv b ∈ ps) (h7 : Part.seq b ∈ ps) (h8 : Part.pool ∈ ps) (h9 : Part.mem ∈ ps) (h10 : Part.out ∈ ps)
    (hx : execSumDefectLong b s = .next tn) :
    hide ps tn = hide ps s := by
  unfold execSumDefectLong at hx
  dsimp only at hx
  repeat' split at hx
  all_goals
    obtain rfl := Host.Outcome.next.inj hx
    first | with_reducible rfl | simp only [hide_raiseBay, hide_onRc, hide_feedbackLoss, hide_cutGate, implies_true, h0,
        h1, h2, h3, h4, h5, h6, h7, h8, h9, h10]

/-! ### Decoding -/

theorem hide_execDecoderDispatch {d : DecNo} {s : State} {tn : State} (h0 : Part.pool ∈ ps)
    (hx : execDecoderDispatch d s = .next tn) :
    hide ps tn = hide ps s := by
  unfold execDecoderDispatch at hx
  dsimp only at hx
  repeat' split at hx
  all_goals
    obtain rfl := Host.Outcome.next.inj hx
    first | with_reducible rfl | simp only [hide_onDecoder, hide_onPool, h0]

theorem hide_execDecodeComplete {d : DecNo} {flips : List (Fin 18576)} {s : State} {tn : State} (h0 : Part.raised ∈ ps)
    (h1 : ∀ x, Part.alarm x ∈ ps) (h2 : Part.pool ∈ ps) (hx : execDecodeComplete d flips s = .next tn) :
    hide ps tn = hide ps s := by
  unfold execDecodeComplete at hx
  dsimp only at hx
  repeat' split at hx
  all_goals
    obtain rfl := Host.Outcome.next.inj hx
    first | with_reducible rfl | simp only [hide_raiseDev, hide_onDecoder, implies_true, h0, h1, h2]

theorem hide_execCollectorAccept {s : State} {tn : State} (h0 : Part.raised ∈ ps) (h1 : Part.retry ∈ ps)
    (h2 : Part.ev ∈ ps) (h3 : ∀ x, Part.alarm x ∈ ps) (h4 : ∀ x, Part.dec x ∈ ps) (h5 : Part.pool ∈ ps)
    (hx : execCollectorAccept s = .next tn) :
    hide ps tn = hide ps s := by
  unfold execCollectorAccept at hx
  repeat' split at hx
  all_goals
    obtain rfl := Host.Outcome.next.inj hx
    first | with_reducible rfl | simp only [hide_onDecoder, hide_onPool, hide_checkFails, hide_logRetry, hide_raiseDev,
        hide_collect, implies_true, h0, h1, h2, h3, h4, h5]

theorem hide_execOuterCodeRun {b : BayNo} {entry : Fin 128} {s : State} {tn : State} (h0 : Part.sys ∈ ps)
    (h1 : Part.raised ∈ ps) (h2 : Part.retry ∈ ps) (h3 : ∀ x, Part.queues x ∈ ps) (h4 : ∀ x, Part.msix x ∈ ps) (h5 : ∀ x,
    Part.alarm x ∈ ps) (h6 : Part.cmds ∈ ps) (h7 : Part.dec b ∈ ps) (h8 : Part.srv b ∈ ps) (h9 : Part.seq b ∈ ps)
    (h10 : Part.pool ∈ ps) (h11 : Part.stg ∈ ps) (h12 : Part.mem ∈ ps) (h13 : Part.pair ∈ ps) (h14 : Part.out ∈ ps)
    (hx : execOuterCodeRun b entry s = .next tn) :
    hide ps tn = hide ps s := by
  unfold execOuterCodeRun at hx
  dsimp only at hx
  repeat' split at hx
  all_goals
    obtain rfl := Host.Outcome.next.inj hx
    first | with_reducible rfl | simp only [hide_runOuter, hide_toStore, hide_judgeWeak, hide_closeEntry,
        hide_clusterDone, hide_passFails, implies_true, h0, h1, h2, h3, h4, h5, h6, h7, h8, h9, h10, h11, h12, h13, h14]

theorem hide_execDeliveryDeadline {b : BayNo} {entry : Fin 128} {s : State} {tn : State} (h0 : Part.raised ∈ ps)
    (h1 : ∀ x, Part.alarm x ∈ ps) (h2 : Part.dec b ∈ ps) (h3 : Part.srv b ∈ ps) (h4 : Part.seq b ∈ ps)
    (hx : execDeliveryDeadline b entry s = .next tn) :
    hide ps tn = hide ps s := by
  unfold execDeliveryDeadline at hx
  repeat' split at hx
  all_goals
    obtain rfl := Host.Outcome.next.inj hx
    first | with_reducible rfl | simp only [hide_raiseBay, hide_onEntry, hide_scheduleReread, implies_true, h0, h1, h2,
        h3, h4]

theorem hide_execLadderStep {b : BayNo} {entry : Fin 128} {s : State} {tn : State} (h0 : Part.sys ∈ ps)
    (h1 : Part.raised ∈ ps) (h2 : Part.retry ∈ ps) (h3 : ∀ x, Part.queues x ∈ ps) (h4 : ∀ x, Part.msix x ∈ ps) (h5 : ∀ x,
    Part.alarm x ∈ ps) (h6 : Part.cmds ∈ ps) (h7 : Part.dec b ∈ ps) (h8 : Part.srv b ∈ ps) (h9 : Part.seq b ∈ ps)
    (h10 : Part.pool ∈ ps) (h11 : Part.stg ∈ ps) (h12 : Part.mem ∈ ps) (h13 : Part.pair ∈ ps) (h14 : Part.out ∈ ps)
    (hx : execLadderStep b entry s = .next tn) :
    hide ps tn = hide ps s := by
  unfold execLadderStep at hx
  repeat' split at hx
  all_goals
    obtain rfl := Host.Outcome.next.inj hx
    first | with_reducible rfl | simp only [hide_ladderNext, hide_submitKept, hide_onEntry, hide_onSeq, hide_ladderJudge,
        implies_true, h0, h1, h2, h3, h4, h5, h6, h7, h8, h9, h10, h11, h12, h13, h14]

theorem hide_execUpdraftStart {b : BayNo} {s : State} {tn : State} (h0 : Part.dec b ∈ ps)
    (hx : execUpdraftStart b s = .next tn) :
    hide ps tn = hide ps s := by
  unfold execUpdraftStart at hx
  dsimp only at hx
  repeat' split at hx
  all_goals
    obtain rfl := Host.Outcome.next.inj hx
    first | with_reducible rfl | simp only [hide_onDec, h0]

/-! ### Writing -/

theorem hide_execLdlFrame {b : BayNo} {req : LdlReq} {answer : BitVec 32} {again : BitVec 32} {s : State} {tn : State}
    (h0 : Part.sys ∈ ps) (h1 : Part.raised ∈ ps) (h2 : Part.fwq ∈ ps) (h3 : Part.retry ∈ ps) (h4 : ∀ x,
    Part.alarm x ∈ ps) (h5 : Part.afe b ∈ ps) (h6 : Part.rc b ∈ ps) (h7 : Part.dec b ∈ ps) (h8 : Part.wp b ∈ ps)
    (h9 : ∀ x, Part.srv x ∈ ps) (h10 : Part.spn b ∈ ps) (h11 : Part.sld b ∈ ps) (h12 : Part.seq b ∈ ps)
    (h13 : Part.pool ∈ ps) (h14 : Part.mem ∈ ps) (h15 : Part.pair ∈ ps) (h16 : Part.out ∈ ps)
    (hx : execLdlFrame b req answer again s = .next tn) :
    hide ps tn = hide ps s := by
  unfold execLdlFrame at hx
  dsimp only at hx
  repeat' split at hx
  all_goals
    obtain rfl := Host.Outcome.next.inj hx
    first | with_reducible rfl | simp only [hide_sendLdl, hide_answered, hide_logRetry, hide_raiseBay, hide_raiseAt,
        hide_faultBay, hide_onWp, implies_true, h0, h1, h2, h3, h4, h5, h6, h7, h8, h9, h10, h11, h12, h13, h14, h15, h16]

theorem hide_execLdlStatusPoll {b : BayNo} {status : BitVec 16} {s : State} {tn : State} (h0 : Part.sys ∈ ps)
    (h1 : Part.raised ∈ ps) (h2 : Part.fwq ∈ ps) (h3 : ∀ x, Part.alarm x ∈ ps) (h4 : Part.afe b ∈ ps)
    (h5 : Part.rc b ∈ ps) (h6 : Part.dec b ∈ ps) (h7 : Part.wp b ∈ ps) (h8 : Part.srv b ∈ ps) (h9 : Part.spn b ∈ ps)
    (h10 : Part.sld b ∈ ps) (h11 : Part.seq b ∈ ps) (h12 : Part.pool ∈ ps) (h13 : Part.mem ∈ ps) (h14 : Part.pair ∈ ps)
    (h15 : Part.out ∈ ps) (hx : execLdlStatusPoll b status s = .next tn) :
    hide ps tn = hide ps s := by
  unfold execLdlStatusPoll at hx
  repeat' split at hx
  all_goals
    obtain rfl := Host.Outcome.next.inj hx
    first | with_reducible rfl | simp only [hide_readStatus, hide_sendLdl, implies_true, h0, h1, h2, h3, h4, h5, h6, h7,
        h8, h9, h10, h11, h12, h13, h14, h15]

theorem hide_execWriteRunStart {b : BayNo} {prior : List (ClusterAddr × Option ClusterRead)} {s : State} {tn : State}
    (h0 : Part.sys ∈ ps) (h1 : Part.raised ∈ ps) (h2 : ∀ x, Part.alarm x ∈ ps) (h3 : Part.afe b ∈ ps)
    (h4 : Part.rc b ∈ ps) (h5 : Part.wp b ∈ ps) (h6 : Part.srv b ∈ ps) (h7 : Part.seq b ∈ ps) (h8 : Part.mem ∈ ps)
    (h9 : Part.pair ∈ ps) (h10 : Part.out ∈ ps) (hx : execWriteRunStart b prior s = .next tn) :
    hide ps tn = hide ps s := by
  unfold execWriteRunStart at hx
  dsimp only at hx
  repeat' split at hx
  all_goals
    obtain rfl := Host.Outcome.next.inj hx
    first | with_reducible rfl | simp only [hide_preRead, hide_onWp, hide_takeTurn, hide_setBaySt, hide_onSeq,
        hide_beginTurn, implies_true, h0, h1, h2, h3, h4, h5, h6, h7, h8, h9, h10]

theorem hide_execFinalVerifyEnd {b : BayNo} {s : State} {tn : State} (h0 : Part.sys ∈ ps) (h1 : Part.raised ∈ ps)
    (h2 : ∀ x, Part.alarm x ∈ ps) (h3 : Part.afe b ∈ ps) (h4 : Part.rc b ∈ ps) (h5 : Part.dec b ∈ ps)
    (h6 : Part.wp b ∈ ps) (h7 : Part.srv b ∈ ps) (h8 : Part.seq b ∈ ps) (h9 : Part.pool ∈ ps) (h10 : Part.mem ∈ ps)
    (h11 : Part.pair ∈ ps) (h12 : Part.out ∈ ps) (hx : execFinalVerifyEnd b s = .next tn) :
    hide ps tn = hide ps s := by
  unfold execFinalVerifyEnd at hx
  repeat' split at hx
  all_goals
    obtain rfl := Host.Outcome.next.inj hx
    first | with_reducible rfl | simp only [hide_setBaySt, hide_dropVerify, hide_onWp, hide_freeRun, implies_true, h0,
        h1, h2, h3, h4, h5, h6, h7, h8, h9, h10, h11, h12]

theorem hide_execVerifyCluster {b : BayNo} {s : State} {tn : State} (h0 : Part.raised ∈ ps) (h1 : ∀ x, Part.alarm x ∈ ps)
    (h2 : Part.cmds ∈ ps) (h3 : Part.dec b ∈ ps) (h4 : Part.wp b ∈ ps) (h5 : Part.srv b ∈ ps) (h6 : Part.seq b ∈ ps)
    (h7 : Part.pool ∈ ps) (h8 : Part.mem ∈ ps) (hx : execVerifyCluster b s = .next tn) :
    hide ps tn = hide ps s := by
  unfold execVerifyCluster at hx
  repeat' split at hx
  all_goals
    obtain rfl := Host.Outcome.next.inj hx
    first | with_reducible rfl | simp only [hide_judge, hide_freeStaged, hide_closeEntry, hide_onWp, implies_true, h0,
        h1, h2, h3, h4, h5, h6, h7, h8]

theorem hide_execUnverifiedVerifyPass {b : BayNo} {reads : List (Option ClusterRead)} {s : State} {tn : State}
    (h0 : Part.raised ∈ ps) (h1 : ∀ x, Part.alarm x ∈ ps) (h2 : Part.cmds ∈ ps) (h3 : Part.wp b ∈ ps)
    (h4 : Part.srv b ∈ ps) (hx : execUnverifiedVerifyPass b reads s = .next tn) :
    hide ps tn = hide ps s := by
  have hf : ∀ (u : State) (p : WriteItem × Option ClusterRead), hide ps (match p.2 with
      | some r => u.judge b p.1 (u.measure b p.1.home (u.bays[b].itemMeta p.1) (u.itemWords b p.1) r)
      | none => u) = hide ps u := fun u p => by
    split
    · simp only [hide_judge, implies_true, h0, h1, h2, h3, h4]
    · rfl
  unfold execUnverifiedVerifyPass at hx
  dsimp only at hx
  (repeat' split at hx) <;> obtain rfl := Host.Outcome.next.inj hx <;> first
    | with_reducible rfl
    | (simp only [hide_onWp, h3]; done)
    | (rw [hide_onWp (by assumption)]; refine (hide_foldl _ hf _ _).trans ?_; simp only [hide_onWp, h3]; done)

theorem hide_execWobbleIndexLoss {b : BayNo} {found : Option Int} {s : State} {tn : State} (h0 : Part.raised ∈ ps)
    (h1 : Part.fwq ∈ ps) (h2 : ∀ x, Part.alarm x ∈ ps) (h3 : Part.dec b ∈ ps) (h4 : Part.wp b ∈ ps)
    (h5 : Part.srv b ∈ ps) (h6 : Part.seq b ∈ ps) (h7 : Part.pool ∈ ps) (h8 : Part.mem ∈ ps) (h9 : Part.out ∈ ps)
    (hx : execWobbleIndexLoss b found s = .next tn) :
    hide ps tn = hide ps s := by
  unfold execWobbleIndexLoss at hx
  dsimp only at hx
  repeat' split at hx
  all_goals
    obtain rfl := Host.Outcome.next.inj hx
    first | with_reducible rfl | simp only [hide_cutGate, implies_true, h0, h1, h2, h3, h4, h5, h6, h7, h8, h9]

theorem hide_execReplacementPass {b : BayNo} {copies : List (ClusterAddr × ClusterRead)} {tries : List WriteTry}
    {s : State} {tn : State} (h0 : Part.raised ∈ ps) (h1 : ∀ x, Part.alarm x ∈ ps) (h2 : Part.wp b ∈ ps)
    (h3 : Part.srv b ∈ ps) (h4 : Part.seq b ∈ ps) (h5 : Part.stg ∈ ps) (h6 : Part.out ∈ ps)
    (hx : execReplacementPass b copies tries s = .next tn) :
    hide ps tn = hide ps s := by
  unfold execReplacementPass at hx
  dsimp only at hx
  repeat' split at hx
  all_goals
    obtain rfl := Host.Outcome.next.inj hx
    first | with_reducible rfl | simp only [hide_onWp, hide_replaceAll, implies_true, h0, h1, h2, h3, h4, h5, h6]

theorem hide_execPowerCalibration {b : BayNo} {layer : LayerNo} {outer : Bool} {probes : List Bool × List Bool}
    {tries : List WriteTry} {again : List WriteTry} {s : State} {tn : State} (h0 : Part.raised ∈ ps) (h1 : ∀ x,
    Part.alarm x ∈ ps) (h2 : Part.wp b ∈ ps) (h3 : Part.srv b ∈ ps) (h4 : Part.out ∈ ps)
    (hx : execPowerCalibration b layer outer probes tries again s = .next tn) :
    hide ps tn = hide ps s := by
  unfold execPowerCalibration at hx
  try dsimp only at hx
  (repeat' split at hx) <;> obtain rfl := Host.Outcome.next.inj hx <;> clear hx <;> first
    | with_reducible rfl
    | (simp only [hide_raiseBay, hide_opcAccept, hide_calibrated, implies_true, h0, h1, h2, h3]; done)
    | ((repeat (rename _ = (_, _) => h; have h' := congrArg Prod.fst h; clear h; dsimp only at h'; subst h'))
       simp only [hide_testPointers, hide_raiseBay, hide_opcRun, hide_opcAccept, hide_calibrated, implies_true, h0, h1,
           h2, h3, h4]; done)

theorem hide_execGeometryWrite {b : BayNo} {layer : LayerNo} {probes : List Bool × List Bool}
    {recorded : List ClusterAddr} {first : Vector (Option LaneRead) 4} {second : Vector (Option LaneRead) 4} {s : State}
    {tn : State} (h0 : Part.raised ∈ ps) (h1 : ∀ x, Part.queues x ∈ ps) (h2 : ∀ x, Part.msix x ∈ ps) (h3 : ∀ x,
    Part.alarm x ∈ ps) (h4 : Part.cmds ∈ ps) (h5 : Part.rc b ∈ ps) (h6 : Part.wp b ∈ ps) (h7 : Part.srv b ∈ ps)
    (h8 : Part.stg ∈ ps) (h9 : Part.pair ∈ ps) (h10 : Part.out ∈ ps)
    (hx : execGeometryWrite b layer probes recorded first second s = .next tn) :
    hide ps tn = hide ps s := by
  unfold execGeometryWrite at hx
  try dsimp only at hx
  (repeat' split at hx) <;> obtain rfl := Host.Outcome.next.inj hx <;> clear hx <;> first
    | with_reducible rfl
    | (simp only [hide_onWp, hide_geometryFails, implies_true, h0, h1, h2, h3, h4, h5, h6, h7, h8, h9, h10]; done)
    | ((repeat (rename _ = (_, _) => h; have h' := congrArg Prod.fst h; clear h; dsimp only at h'; subst h'))
       simp only [hide_testPointers, hide_geometryOnce, hide_onWp, hide_geometryFails, implies_true, h0, h1, h2, h3, h4,
           h5, h6, h7, h8, h9, h10]; done)

theorem hide_execManagementSetWrite {b : BayNo} {tries1 : List WriteTry} {tries2 : List WriteTry} {s : State}
    {tn : State} (h0 : Part.sys ∈ ps) (h1 : Part.raised ∈ ps) (h2 : ∀ x, Part.queues x ∈ ps) (h3 : ∀ x, Part.msix x ∈ ps)
    (h4 : ∀ x, Part.mbx x ∈ ps) (h5 : ∀ x, Part.alarm x ∈ ps) (h6 : Part.cmds ∈ ps) (h7 : Part.vols ∈ ps)
    (h8 : Part.flash ∈ ps) (h9 : Part.afe b ∈ ps) (h10 : Part.rc b ∈ ps) (h11 : Part.dec b ∈ ps) (h12 : Part.wp b ∈ ps)
    (h13 : Part.srv b ∈ ps) (h14 : Part.spn b ∈ ps) (h15 : Part.sld b ∈ ps) (h16 : Part.seq b ∈ ps) (h17 : Part.stg ∈ ps)
    (h18 : Part.mem ∈ ps) (h19 : Part.pair ∈ ps) (h20 : Part.out ∈ ps)
    (hx : execManagementSetWrite b tries1 tries2 s = .next tn) :
    hide ps tn = hide ps s := by
  unfold execManagementSetWrite at hx
  try dsimp only at hx
  (repeat' split at hx) <;> obtain rfl := Host.Outcome.next.inj hx <;> clear hx <;> first
    | with_reducible rfl
    | (simp only [hide_onWp, hide_formatEnds, hide_formatWritten, hide_destageSet, hide_destageRefused, hide_spinDown,
        hide_volFollows, implies_true, h0, h1, h2, h3, h4, h5, h6, h7, h8, h9, h10, h11, h12, h13, h14, h15, h16, h17,
        h18, h19, h20]; done)
    | ((repeat (rename _ = (_, _) => h; have h' := congrArg Prod.fst h; clear h; dsimp only at h'; subst h'))
       simp only [hide_onWp, hide_formatEnds, hide_writeSet, hide_formatWritten, hide_destageSet, hide_destageRefused,
           hide_spinDown, hide_volFollows, implies_true, h0, h1, h2, h3, h4, h5, h6, h7, h8, h9, h10, h11, h12, h13, h14,
           h15, h16, h17, h18, h19, h20]; done)

/-! ### Servo -/

theorem hide_execServoPeriod {b : BayNo} {o : ServoObs} {s : State} {tn : State} (h0 : Part.free ∈ ps)
    (h1 : Part.sys ∈ ps) (h2 : Part.raised ∈ ps) (h3 : Part.fwq ∈ ps) (h4 : Part.retry ∈ ps) (h5 : ∀ x,
    Part.alarm x ∈ ps) (h6 : Part.params ∈ ps) (h7 : Part.afe b ∈ ps) (h8 : Part.rc b ∈ ps) (h9 : Part.dec b ∈ ps)
    (h10 : Part.wp b ∈ ps) (h11 : Part.srv b ∈ ps) (h12 : Part.sld b ∈ ps) (h13 : Part.seq b ∈ ps) (h14 : Part.pool ∈ ps)
    (h15 : Part.mem ∈ ps) (h16 : Part.pair ∈ ps) (h17 : Part.out ∈ ps) (hx : execServoPeriod b o s = .next tn) :
    hide ps tn = hide ps s := by
  unfold execServoPeriod at hx
  repeat' split at hx
  all_goals
    obtain rfl := Host.Outcome.next.inj hx
    first | with_reducible rfl | simp only [hide_rampPeriod, hide_sumPeriod, hide_takeSamples, hide_onSrv,
        hide_takePeriod, hide_servoLaws, hide_tailPeriod, hide_writePeriod, hide_clockPeriod, implies_true, h0, h1, h2,
        h3, h4, h5, h6, h7, h8, h9, h10, h11, h12, h13, h14, h15, h16, h17]

theorem hide_execTiltPeriod {b : BayNo} {onTime : Bool} {s : State} {tn : State} (h0 : Part.raised ∈ ps)
    (h1 : Part.fwq ∈ ps) (h2 : ∀ x, Part.alarm x ∈ ps) (h3 : Part.params ∈ ps) (h4 : Part.dec b ∈ ps)
    (h5 : Part.wp b ∈ ps) (h6 : Part.srv b ∈ ps) (h7 : Part.seq b ∈ ps) (h8 : Part.pool ∈ ps) (h9 : Part.mem ∈ ps)
    (h10 : Part.out ∈ ps) (hx : execTiltPeriod b onTime s = .next tn) :
    hide ps tn = hide ps s := by
  unfold execTiltPeriod at hx
  dsimp only at hx
  repeat' split at hx
  all_goals
    obtain rfl := Host.Outcome.next.inj hx
    first | with_reducible rfl | simp only [hide_takePeriod, hide_onSrv, hide_overrun, hide_compute, hide_enterLull,
        implies_true, h0, h1, h2, h3, h4, h5, h6, h7, h8, h9, h10]

theorem hide_execSledLoopPeriod {b : BayNo} {was : State} {tn : State} (h0 : Part.raised ∈ ps) (h1 : Part.fwq ∈ ps)
    (h2 : ∀ x, Part.alarm x ∈ ps) (h3 : Part.params ∈ ps) (h4 : Part.dec b ∈ ps) (h5 : Part.wp b ∈ ps)
    (h6 : Part.srv b ∈ ps) (h7 : Part.sld b ∈ ps) (h8 : Part.seq b ∈ ps) (h9 : Part.pool ∈ ps) (h10 : Part.mem ∈ ps)
    (h11 : Part.out ∈ ps) (hx : execSledLoopPeriod b was = .next tn) :
    hide ps tn = hide ps was := by
  unfold execSledLoopPeriod at hx
  dsimp only at hx
  repeat' split at hx
  all_goals
    obtain rfl := Host.Outcome.next.inj hx
    first | with_reducible rfl | simp only [hide_takePeriod, hide_onBay, hide_overrun, true_or, or_true, or_self,
        and_self, implies_true, h0, h1, h2, h3, h4, h5, h6, h7, h8, h9, h10, h11]

theorem hide_execServoDeadlineMiss {b : BayNo} {loop : LoopId} {s : State} {tn : State} (h0 : Part.raised ∈ ps)
    (h1 : Part.fwq ∈ ps) (h2 : ∀ x, Part.alarm x ∈ ps) (h3 : Part.dec b ∈ ps) (h4 : Part.wp b ∈ ps)
    (h5 : Part.srv b ∈ ps) (h6 : Part.seq b ∈ ps) (h7 : Part.pool ∈ ps) (h8 : Part.mem ∈ ps) (h9 : Part.out ∈ ps)
    (hx : execServoDeadlineMiss b loop s = .next tn) :
    hide ps tn = hide ps s := by
  unfold execServoDeadlineMiss at hx
  repeat' split at hx
  all_goals
    obtain rfl := Host.Outcome.next.inj hx
    first | with_reducible rfl | simp only [hide_overrun, implies_true, h0, h1, h2, h3, h4, h5, h6, h7, h8, h9]

theorem hide_execHoldWindowExpiry {b : BayNo} {loop : LoopId} {s : State} {tn : State} (h0 : Part.sys ∈ ps)
    (h1 : Part.raised ∈ ps) (h2 : Part.fwq ∈ ps) (h3 : ∀ x, Part.alarm x ∈ ps) (h4 : Part.afe b ∈ ps)
    (h5 : Part.rc b ∈ ps) (h6 : Part.dec b ∈ ps) (h7 : Part.wp b ∈ ps) (h8 : Part.srv b ∈ ps) (h9 : Part.seq b ∈ ps)
    (h10 : Part.pool ∈ ps) (h11 : Part.mem ∈ ps) (h12 : Part.pair ∈ ps) (h13 : Part.out ∈ ps)
    (hx : execHoldWindowExpiry b loop s = .next tn) :
    hide ps tn = hide ps s := by
  unfold execHoldWindowExpiry at hx
  repeat' split at hx
  all_goals
    obtain rfl := Host.Outcome.next.inj hx
    first | with_reducible rfl | simp only [hide_retract, implies_true, h0, h1, h2, h3, h4, h5, h6, h7, h8, h9, h10, h11,
        h12, h13]

theorem hide_execLullResume {b : BayNo} {loop : LoopId} {s : State} {tn : State} (h0 : Part.raised ∈ ps) (h1 : ∀ x,
    Part.alarm x ∈ ps) (h2 : Part.srv b ∈ ps) (hx : execLullResume b loop s = .next tn) :
    hide ps tn = hide ps s := by
  unfold execLullResume at hx
  dsimp only at hx
  repeat' split at hx
  all_goals
    obtain rfl := Host.Outcome.next.inj hx
    first | with_reducible rfl | simp only [hide_raiseBay, hide_onSrv, implies_true, h0, h1, h2]

theorem hide_execLullReacquire {b : BayNo} {loop : LoopId} {s : State} {tn : State} (h0 : Part.sys ∈ ps)
    (h1 : Part.raised ∈ ps) (h2 : Part.fwq ∈ ps) (h3 : ∀ x, Part.alarm x ∈ ps) (h4 : Part.afe b ∈ ps)
    (h5 : Part.rc b ∈ ps) (h6 : Part.dec b ∈ ps) (h7 : Part.wp b ∈ ps) (h8 : Part.srv b ∈ ps) (h9 : Part.seq b ∈ ps)
    (h10 : Part.pool ∈ ps) (h11 : Part.mem ∈ ps) (h12 : Part.pair ∈ ps) (h13 : Part.out ∈ ps)
    (hx : execLullReacquire b loop s = .next tn) :
    hide ps tn = hide ps s := by
  unfold execLullReacquire at hx
  dsimp only at hx
  repeat' split at hx
  all_goals
    obtain rfl := Host.Outcome.next.inj hx
    first | with_reducible rfl | simp only [hide_startSweep, hide_retract, hide_onSrv, implies_true, h0, h1, h2, h3, h4,
        h5, h6, h7, h8, h9, h10, h11, h12, h13]

theorem hide_execFocusAcquisition {b : BayNo} {layer : LayerNo} {s : State} {tn : State} (h0 : Part.srv b ∈ ps)
    (hx : execFocusAcquisition b layer s = .next tn) :
    hide ps tn = hide ps s := by
  unfold execFocusAcquisition at hx
  dsimp only at hx
  repeat' split at hx
  all_goals
    obtain rfl := Host.Outcome.next.inj hx
    first | with_reducible rfl | simp only [hide_startSweep, h0]

theorem hide_execFocusSweepEnd {b : BayNo} {s : State} {tn : State} (h0 : Part.sys ∈ ps) (h1 : Part.raised ∈ ps)
    (h2 : Part.fwq ∈ ps) (h3 : Part.retry ∈ ps) (h4 : ∀ x, Part.queues x ∈ ps) (h5 : ∀ x, Part.msix x ∈ ps) (h6 : ∀ x,
    Part.mbx x ∈ ps) (h7 : ∀ x, Part.alarm x ∈ ps) (h8 : Part.cmds ∈ ps) (h9 : Part.flash ∈ ps) (h10 : ∀ x,
    Part.afe x ∈ ps) (h11 : ∀ x, Part.rc x ∈ ps) (h12 : Part.dec b ∈ ps) (h13 : ∀ x, Part.wp x ∈ ps) (h14 : ∀ x,
    Part.srv x ∈ ps) (h15 : Part.spn b ∈ ps) (h16 : Part.sld b ∈ ps) (h17 : ∀ x, Part.seq x ∈ ps) (h18 : Part.pool ∈ ps)
    (h19 : Part.hnd ∈ ps) (h20 : Part.stg ∈ ps) (h21 : Part.mem ∈ ps) (h22 : Part.pair ∈ ps) (h23 : Part.out ∈ ps)
    (hx : execFocusSweepEnd b s = .next tn) :
    hide ps tn = hide ps s := by
  unfold execFocusSweepEnd at hx
  dsimp only at hx
  repeat' split at hx
  all_goals
    obtain rfl := Host.Outcome.next.inj hx
    first | with_reducible rfl | simp only [hide_onSrv, hide_acquisitionFailed, hide_raiseBay, hide_parkFocus,
        implies_true, h0, h1, h2, h3, h4, h5, h6, h7, h8, h9, h10, h11, h12, h13, h14, h15, h16, h17, h18, h19, h20, h21,
        h22, h23]

theorem hide_execTrackAcquisition {b : BayNo} {s : State} {tn : State} (h0 : Part.srv b ∈ ps)
    (hx : execTrackAcquisition b s = .next tn) :
    hide ps tn = hide ps s := by
  unfold execTrackAcquisition at hx
  dsimp only at hx
  repeat' split at hx
  all_goals
    obtain rfl := Host.Outcome.next.inj hx
    first | with_reducible rfl | simp only [hide_onSrv, h0]

theorem hide_execRunoutRevolution {b : BayNo} {s : State} {tn : State} (h0 : Part.sys ∈ ps) (h1 : Part.raised ∈ ps)
    (h2 : Part.fwq ∈ ps) (h3 : Part.retry ∈ ps) (h4 : ∀ x, Part.queues x ∈ ps) (h5 : ∀ x, Part.msix x ∈ ps) (h6 : ∀ x,
    Part.mbx x ∈ ps) (h7 : ∀ x, Part.alarm x ∈ ps) (h8 : Part.cmds ∈ ps) (h9 : Part.flash ∈ ps) (h10 : ∀ x,
    Part.afe x ∈ ps) (h11 : ∀ x, Part.rc x ∈ ps) (h12 : Part.dec b ∈ ps) (h13 : ∀ x, Part.wp x ∈ ps) (h14 : ∀ x,
    Part.srv x ∈ ps) (h15 : Part.spn b ∈ ps) (h16 : Part.sld b ∈ ps) (h17 : ∀ x, Part.seq x ∈ ps) (h18 : Part.pool ∈ ps)
    (h19 : Part.hnd ∈ ps) (h20 : Part.stg ∈ ps) (h21 : Part.mem ∈ ps) (h22 : Part.pair ∈ ps) (h23 : Part.out ∈ ps)
    (hx : execRunoutRevolution b s = .next tn) :
    hide ps tn = hide ps s := by
  unfold execRunoutRevolution at hx
  dsimp only at hx
  repeat' split at hx
  all_goals
    obtain rfl := Host.Outcome.next.inj hx
    first | with_reducible rfl | simp only [hide_raiseBay, hide_onSrv, hide_acquisitionFailed, implies_true, h0, h1, h2,
        h3, h4, h5, h6, h7, h8, h9, h10, h11, h12, h13, h14, h15, h16, h17, h18, h19, h20, h21, h22, h23]

theorem hide_execTrackAcqTimeout {b : BayNo} {why : TrackFail} {s : State} {tn : State} (h0 : Part.sys ∈ ps)
    (h1 : Part.raised ∈ ps) (h2 : Part.fwq ∈ ps) (h3 : Part.retry ∈ ps) (h4 : ∀ x, Part.queues x ∈ ps) (h5 : ∀ x,
    Part.msix x ∈ ps) (h6 : ∀ x, Part.mbx x ∈ ps) (h7 : ∀ x, Part.alarm x ∈ ps) (h8 : Part.cmds ∈ ps)
    (h9 : Part.flash ∈ ps) (h10 : ∀ x, Part.afe x ∈ ps) (h11 : ∀ x, Part.rc x ∈ ps) (h12 : Part.dec b ∈ ps) (h13 : ∀ x,
    Part.wp x ∈ ps) (h14 : ∀ x, Part.srv x ∈ ps) (h15 : Part.spn b ∈ ps) (h16 : Part.sld b ∈ ps) (h17 : ∀ x,
    Part.seq x ∈ ps) (h18 : Part.pool ∈ ps) (h19 : Part.hnd ∈ ps) (h20 : Part.stg ∈ ps) (h21 : Part.mem ∈ ps)
    (h22 : Part.pair ∈ ps) (h23 : Part.out ∈ ps) (hx : execTrackAcqTimeout b why s = .next tn) :
    hide ps tn = hide ps s := by
  unfold execTrackAcqTimeout at hx
  dsimp only at hx
  repeat' split at hx
  all_goals
    obtain rfl := Host.Outcome.next.inj hx
    first | with_reducible rfl | simp only [hide_acquisitionFailed, hide_raiseBay, hide_onSrv, hide_abandonMove,
        implies_true, h0, h1, h2, h3, h4, h5, h6, h7, h8, h9, h10, h11, h12, h13, h14, h15, h16, h17, h18, h19, h20, h21,
        h22, h23]

theorem hide_execWobbleAddressWord {b : BayNo} {units : TurnUnits} {s : State} {tn : State} (h0 : Part.sys ∈ ps)
    (h1 : Part.raised ∈ ps) (h2 : Part.retry ∈ ps) (h3 : ∀ x, Part.alarm x ∈ ps) (h4 : Part.afe b ∈ ps)
    (h5 : Part.rc b ∈ ps) (h6 : Part.wp b ∈ ps) (h7 : Part.srv b ∈ ps) (h8 : Part.sld b ∈ ps) (h9 : Part.seq b ∈ ps)
    (h10 : Part.pair ∈ ps) (h11 : Part.out ∈ ps) (hx : execWobbleAddressWord b units s = .next tn) :
    hide ps tn = hide ps s := by
  unfold execWobbleAddressWord at hx
  dsimp only at hx
  repeat' split at hx
  all_goals
    obtain rfl := Host.Outcome.next.inj hx
    first | with_reducible rfl | simp only [hide_onSrv, hide_layerFound, hide_placeKnown, implies_true, h0, h1, h2, h3,
        h4, h5, h6, h7, h8, h9, h10, h11]

theorem hide_execStrideJump {b : BayNo} {s : State} {tn : State} (h0 : Part.sys ∈ ps) (h1 : Part.raised ∈ ps) (h2 : ∀ x,
    Part.alarm x ∈ ps) (h3 : Part.afe b ∈ ps) (h4 : Part.rc b ∈ ps) (h5 : Part.wp b ∈ ps) (h6 : Part.srv b ∈ ps)
    (h7 : Part.sld b ∈ ps) (h8 : Part.seq b ∈ ps) (h9 : Part.pair ∈ ps) (h10 : Part.out ∈ ps)
    (hx : execStrideJump b s = .next tn) :
    hide ps tn = hide ps s := by
  unfold execStrideJump at hx
  dsimp only at hx
  repeat' split at hx
  all_goals
    obtain rfl := Host.Outcome.next.inj hx
    first | with_reducible rfl | simp only [hide_raiseBay, hide_startMove, implies_true, h0, h1, h2, h3, h4, h5, h6, h7,
        h8, h9, h10]

theorem hide_execStrideJumpLate {b : BayNo} {s : State} {tn : State} (h0 : Part.sys ∈ ps) (h1 : Part.raised ∈ ps)
    (h2 : ∀ x, Part.alarm x ∈ ps) (h3 : Part.afe b ∈ ps) (h4 : Part.rc b ∈ ps) (h5 : Part.wp b ∈ ps)
    (h6 : Part.srv b ∈ ps) (h7 : Part.sld b ∈ ps) (h8 : Part.seq b ∈ ps) (h9 : Part.pair ∈ ps) (h10 : Part.out ∈ ps)
    (hx : execStrideJumpLate b s = .next tn) :
    hide ps tn = hide ps s := by
  unfold execStrideJumpLate at hx
  repeat' split at hx
  all_goals
    obtain rfl := Host.Outcome.next.inj hx
    first | with_reducible rfl | simp only [hide_moveDone, hide_raiseBay, implies_true, h0, h1, h2, h3, h4, h5, h6, h7,
        h8, h9, h10]

theorem hide_execLayerJump {b : BayNo} {toHigher : Bool} {s : State} {tn : State} (h0 : Part.sys ∈ ps)
    (h1 : Part.raised ∈ ps) (h2 : ∀ x, Part.alarm x ∈ ps) (h3 : Part.afe b ∈ ps) (h4 : Part.rc b ∈ ps)
    (h5 : Part.wp b ∈ ps) (h6 : Part.srv b ∈ ps) (h7 : Part.sld b ∈ ps) (h8 : Part.seq b ∈ ps) (h9 : Part.pair ∈ ps)
    (h10 : Part.out ∈ ps) (hx : execLayerJump b toHigher s = .next tn) :
    hide ps tn = hide ps s := by
  unfold execLayerJump at hx
  dsimp only at hx
  repeat' split at hx
  all_goals
    obtain rfl := Host.Outcome.next.inj hx
    first | with_reducible rfl | simp only [hide_orderServoMove, implies_true, h0, h1, h2, h3, h4, h5, h6, h7, h8, h9,
        h10]

theorem hide_execLayerJumpWindowEnd {b : BayNo} {s : State} {tn : State} (h0 : Part.sys ∈ ps) (h1 : Part.raised ∈ ps)
    (h2 : ∀ x, Part.alarm x ∈ ps) (h3 : Part.afe b ∈ ps) (h4 : Part.rc b ∈ ps) (h5 : Part.wp b ∈ ps)
    (h6 : Part.srv b ∈ ps) (h7 : Part.sld b ∈ ps) (h8 : Part.seq b ∈ ps) (h9 : Part.pair ∈ ps) (h10 : Part.out ∈ ps)
    (hx : execLayerJumpWindowEnd b s = .next tn) :
    hide ps tn = hide ps s := by
  unfold execLayerJumpWindowEnd at hx
  dsimp only at hx
  repeat' split at hx
  all_goals
    obtain rfl := Host.Outcome.next.inj hx
    first | with_reducible rfl | simp only [hide_onSrv, hide_moveDone, hide_raiseBay, implies_true, h0, h1, h2, h3, h4,
        h5, h6, h7, h8, h9, h10]

theorem hide_execLensSeek {b : BayNo} {tracks : Int} {s : State} {tn : State} (h0 : Part.sys ∈ ps)
    (h1 : Part.raised ∈ ps) (h2 : ∀ x, Part.alarm x ∈ ps) (h3 : Part.afe b ∈ ps) (h4 : Part.rc b ∈ ps)
    (h5 : Part.wp b ∈ ps) (h6 : Part.srv b ∈ ps) (h7 : Part.sld b ∈ ps) (h8 : Part.seq b ∈ ps) (h9 : Part.pair ∈ ps)
    (h10 : Part.out ∈ ps) (hx : execLensSeek b tracks s = .next tn) :
    hide ps tn = hide ps s := by
  unfold execLensSeek at hx
  dsimp only at hx
  repeat' split at hx
  all_goals
    obtain rfl := Host.Outcome.next.inj hx
    first | with_reducible rfl | simp only [hide_orderServoMove, implies_true, h0, h1, h2, h3, h4, h5, h6, h7, h8, h9,
        h10]

theorem hide_execSledSeek {b : BayNo} {turn : Nat} {s : State} {tn : State} (h0 : Part.sys ∈ ps) (h1 : Part.raised ∈ ps)
    (h2 : ∀ x, Part.alarm x ∈ ps) (h3 : Part.afe b ∈ ps) (h4 : Part.rc b ∈ ps) (h5 : Part.wp b ∈ ps)
    (h6 : Part.srv b ∈ ps) (h7 : Part.sld b ∈ ps) (h8 : Part.seq b ∈ ps) (h9 : Part.pair ∈ ps) (h10 : Part.out ∈ ps)
    (hx : execSledSeek b turn s = .next tn) :
    hide ps tn = hide ps s := by
  unfold execSledSeek at hx
  dsimp only at hx
  repeat' split at hx
  all_goals
    obtain rfl := Host.Outcome.next.inj hx
    first | with_reducible rfl | simp only [hide_orderServoMove, implies_true, h0, h1, h2, h3, h4, h5, h6, h7, h8, h9,
        h10]

theorem hide_execOffsetApply {b : BayNo} {focusNm : Int} {tiltCdeg : Int} {s : State} {tn : State} (h0 : Part.sys ∈ ps)
    (h1 : Part.raised ∈ ps) (h2 : ∀ x, Part.alarm x ∈ ps) (h3 : Part.afe b ∈ ps) (h4 : Part.rc b ∈ ps)
    (h5 : Part.wp b ∈ ps) (h6 : Part.srv b ∈ ps) (h7 : Part.sld b ∈ ps) (h8 : Part.seq b ∈ ps) (h9 : Part.pair ∈ ps)
    (h10 : Part.out ∈ ps) (hx : execOffsetApply b focusNm tiltCdeg s = .next tn) :
    hide ps tn = hide ps s := by
  unfold execOffsetApply at hx
  dsimp only at hx
  repeat' split at hx
  all_goals
    obtain rfl := Host.Outcome.next.inj hx
    first | with_reducible rfl | simp only [hide_orderServoMove, implies_true, h0, h1, h2, h3, h4, h5, h6, h7, h8, h9,
        h10]

theorem hide_execCharacterisationRun {b : BayNo} {run : Option CharRun} {s : State} {tn : State} (h0 : Part.raised ∈ ps)
    (h1 : ∀ x, Part.alarm x ∈ ps) (h2 : Part.srv b ∈ ps) (hx : execCharacterisationRun b run s = .next tn) :
    hide ps tn = hide ps s := by
  unfold execCharacterisationRun at hx
  dsimp only at hx
  repeat' split at hx
  all_goals
    obtain rfl := Host.Outcome.next.inj hx
    first | with_reducible rfl | simp only [hide_raiseBay, hide_onSrv, implies_true, h0, h1, h2]

/-! ### Drives -/

theorem hide_execEncoderEdge {e : EncId} {k : EdgeKind} {time10ns : Nat} {s : State} {tn : State} (h0 : Part.raised ∈ ps)
    (h1 : ∀ x, Part.alarm x ∈ ps) (h2 : ∀ x, Part.srv x ∈ ps) (h3 : ∀ x, Part.spn x ∈ ps) (h4 : ∀ x, Part.sld x ∈ ps)
    (h5 : Part.hnd ∈ ps) (hx : execEncoderEdge e k time10ns s = .next tn) :
    hide ps tn = hide ps s := by
  unfold execEncoderEdge at hx
  repeat' split at hx
  all_goals
    obtain rfl := Host.Outcome.next.inj hx
    first | with_reducible rfl | simp only [hide_onSpn, hide_raiseBay, hide_onSld, hide_onAxis, implies_true, h0, h1, h2,
        h3, h4, h5]

theorem hide_execEncoderLoss {b : BayNo} {cause : EncLoss} {s : State} {tn : State} (h0 : Part.sys ∈ ps)
    (h1 : Part.raised ∈ ps) (h2 : Part.fwq ∈ ps) (h3 : ∀ x, Part.alarm x ∈ ps) (h4 : Part.afe b ∈ ps)
    (h5 : Part.rc b ∈ ps) (h6 : Part.dec b ∈ ps) (h7 : Part.wp b ∈ ps) (h8 : Part.srv b ∈ ps) (h9 : Part.spn b ∈ ps)
    (h10 : Part.sld b ∈ ps) (h11 : Part.seq b ∈ ps) (h12 : Part.pool ∈ ps) (h13 : Part.mem ∈ ps) (h14 : Part.pair ∈ ps)
    (h15 : Part.out ∈ ps) (hx : execEncoderLoss b cause s = .next tn) :
    hide ps tn = hide ps s := by
  unfold execEncoderLoss at hx
  repeat' split at hx
  all_goals
    obtain rfl := Host.Outcome.next.inj hx
    first | with_reducible rfl | simp only [hide_loseEncoder, implies_true, h0, h1, h2, h3, h4, h5, h6, h7, h8, h9, h10,
        h11, h12, h13, h14, h15]

theorem hide_execEncoderOverspeed {e : EncId} {s : State} {tn : State} (h0 : Part.sys ∈ ps) (h1 : Part.raised ∈ ps)
    (h2 : Part.fwq ∈ ps) (h3 : ∀ x, Part.alarm x ∈ ps) (h4 : ∀ x, Part.afe x ∈ ps) (h5 : ∀ x, Part.rc x ∈ ps) (h6 : ∀ x,
    Part.dec x ∈ ps) (h7 : ∀ x, Part.wp x ∈ ps) (h8 : ∀ x, Part.srv x ∈ ps) (h9 : ∀ x, Part.spn x ∈ ps) (h10 : ∀ x,
    Part.sld x ∈ ps) (h11 : ∀ x, Part.seq x ∈ ps) (h12 : Part.pool ∈ ps) (h13 : Part.hnd ∈ ps) (h14 : Part.mem ∈ ps)
    (h15 : Part.pair ∈ ps) (h16 : Part.out ∈ ps) (hx : execEncoderOverspeed e s = .next tn) :
    hide ps tn = hide ps s := by
  unfold execEncoderOverspeed at hx
  repeat' split at hx
  all_goals
    obtain rfl := Host.Outcome.next.inj hx
    first | with_reducible rfl | simp only [hide_loseEncoder, hide_raiseBay, hide_onSld, hide_onAxis, hide_raiseDev,
        implies_true, h0, h1, h2, h3, h4, h5, h6, h7, h8, h9, h10, h11, h12, h13, h14, h15, h16]

theorem hide_execEncoderIndex {b : BayNo} {s : State} {tn : State} (h0 : Part.raised ∈ ps) (h1 : ∀ x, Part.alarm x ∈ ps)
    (h2 : Part.dec b ∈ ps) (h3 : Part.srv b ∈ ps) (h4 : Part.spn b ∈ ps) (hx : execEncoderIndex b s = .next tn) :
    hide ps tn = hide ps s := by
  unfold execEncoderIndex at hx
  dsimp only at hx
  repeat' split at hx
  all_goals
    obtain rfl := Host.Outcome.next.inj hx
    first | with_reducible rfl | simp only [hide_onBay, hide_onSpn, hide_raiseBay, true_or, or_true, or_self, and_self,
        implies_true, h0, h1, h2, h3, h4]

theorem hide_execPwmPeriod {b : BayNo} {o : PwmObs} {s : State} {tn : State} (h0 : Part.sys ∈ ps) (h1 : Part.raised ∈ ps)
    (h2 : Part.fwq ∈ ps) (h3 : ∀ x, Part.alarm x ∈ ps) (h4 : Part.params ∈ ps) (h5 : Part.afe b ∈ ps)
    (h6 : Part.rc b ∈ ps) (h7 : Part.dec b ∈ ps) (h8 : Part.wp b ∈ ps) (h9 : Part.srv b ∈ ps) (h10 : Part.spn b ∈ ps)
    (h11 : Part.sld b ∈ ps) (h12 : Part.seq b ∈ ps) (h13 : Part.pool ∈ ps) (h14 : Part.mem ∈ ps) (h15 : Part.pair ∈ ps)
    (h16 : Part.out ∈ ps) (hx : execPwmPeriod b o s = .next tn) :
    hide ps tn = hide ps s := by
  unfold execPwmPeriod at hx
  repeat' split at hx
  all_goals
    obtain rfl := Host.Outcome.next.inj hx
    first | with_reducible rfl | simp only [hide_onSpn, hide_raiseBay, hide_drivenPeriod, ite_self, implies_true,
        hide_ite, h0, h1, h2, h3, h4, h5, h6, h7, h8, h9, h10, h11, h12, h13, h14, h15, h16]

theorem hide_execSpeedLoopPeriod {b : BayNo} {was : State} {tn : State} (h0 : Part.sys ∈ ps) (h1 : Part.raised ∈ ps)
    (h2 : Part.retry ∈ ps) (h3 : ∀ x, Part.alarm x ∈ ps) (h4 : Part.params ∈ ps) (h5 : Part.afe b ∈ ps)
    (h6 : Part.rc b ∈ ps) (h7 : Part.wp b ∈ ps) (h8 : Part.srv b ∈ ps) (h9 : Part.spn b ∈ ps) (h10 : Part.seq b ∈ ps)
    (h11 : Part.pair ∈ ps) (h12 : Part.out ∈ ps) (hx : execSpeedLoopPeriod b was = .next tn) :
    hide ps tn = hide ps was := by
  unfold execSpeedLoopPeriod at hx
  dsimp only at hx
  repeat' split at hx
  all_goals
    obtain rfl := Host.Outcome.next.inj hx
    first | with_reducible rfl | simp only [hide_takePeriod, hide_onSpn, hide_drogue, hide_judgeSpeed, implies_true, h0,
        h1, h2, h3, h4, h5, h6, h7, h8, h9, h10, h11, h12]

theorem hide_execSpindleStartOrder {b : BayNo} {s : State} {tn : State} (h0 : Part.sys ∈ ps) (h1 : Part.raised ∈ ps)
    (h2 : ∀ x, Part.alarm x ∈ ps) (h3 : Part.afe b ∈ ps) (h4 : Part.rc b ∈ ps) (h5 : Part.wp b ∈ ps)
    (h6 : Part.srv b ∈ ps) (h7 : Part.spn b ∈ ps) (h8 : Part.sld b ∈ ps) (h9 : Part.seq b ∈ ps) (h10 : Part.pair ∈ ps)
    (h11 : Part.out ∈ ps) (hx : execSpindleStartOrder b s = .next tn) :
    hide ps tn = hide ps s := by
  unfold execSpindleStartOrder at hx
  dsimp only at hx
  repeat' split at hx
  all_goals
    obtain rfl := Host.Outcome.next.inj hx
    first | with_reducible rfl | simp only [hide_raiseBay, hide_onSpn, hide_setBaySt, hide_sledToMount, hide_onSeq,
        implies_true, h0, h1, h2, h3, h4, h5, h6, h7, h8, h9, h10, h11]

theorem hide_execStartDecision {b : BayNo} {s : State} {tn : State} (h0 : Part.raised ∈ ps) (h1 : ∀ x, Part.alarm x ∈ ps)
    (h2 : Part.srv b ∈ ps) (h3 : Part.spn b ∈ ps) (hx : execStartDecision b s = .next tn) :
    hide ps tn = hide ps s := by
  unfold execStartDecision at hx
  dsimp only at hx
  repeat' split at hx
  all_goals
    obtain rfl := Host.Outcome.next.inj hx
    first | with_reducible rfl | simp only [hide_drogue, hide_onSpn, hide_raiseBay, implies_true, h0, h1, h2, h3]

theorem hide_execDrogueTimeout {b : BayNo} {s : State} {tn : State} (h0 : Part.sys ∈ ps) (h1 : Part.raised ∈ ps)
    (h2 : Part.fwq ∈ ps) (h3 : Part.retry ∈ ps) (h4 : ∀ x, Part.queues x ∈ ps) (h5 : ∀ x, Part.msix x ∈ ps) (h6 : ∀ x,
    Part.mbx x ∈ ps) (h7 : ∀ x, Part.alarm x ∈ ps) (h8 : Part.cmds ∈ ps) (h9 : Part.flash ∈ ps) (h10 : ∀ x,
    Part.afe x ∈ ps) (h11 : ∀ x, Part.rc x ∈ ps) (h12 : Part.dec b ∈ ps) (h13 : ∀ x, Part.wp x ∈ ps) (h14 : ∀ x,
    Part.srv x ∈ ps) (h15 : Part.spn b ∈ ps) (h16 : Part.sld b ∈ ps) (h17 : ∀ x, Part.seq x ∈ ps) (h18 : Part.pool ∈ ps)
    (h19 : Part.hnd ∈ ps) (h20 : Part.stg ∈ ps) (h21 : Part.mem ∈ ps) (h22 : Part.pair ∈ ps) (h23 : Part.out ∈ ps)
    (hx : execDrogueTimeout b s = .next tn) :
    hide ps tn = hide ps s := by
  unfold execDrogueTimeout at hx
  repeat' split at hx
  all_goals
    obtain rfl := Host.Outcome.next.inj hx
    first | with_reducible rfl | simp only [hide_onSpn, hide_startFailed, hide_raiseBay, implies_true, h0, h1, h2, h3,
        h4, h5, h6, h7, h8, h9, h10, h11, h12, h13, h14, h15, h16, h17, h18, h19, h20, h21, h22, h23]

theorem hide_execSpinupTimeout {b : BayNo} {s : State} {tn : State} (h0 : Part.sys ∈ ps) (h1 : Part.raised ∈ ps)
    (h2 : Part.fwq ∈ ps) (h3 : Part.retry ∈ ps) (h4 : ∀ x, Part.queues x ∈ ps) (h5 : ∀ x, Part.msix x ∈ ps) (h6 : ∀ x,
    Part.mbx x ∈ ps) (h7 : ∀ x, Part.alarm x ∈ ps) (h8 : Part.cmds ∈ ps) (h9 : Part.flash ∈ ps) (h10 : ∀ x,
    Part.afe x ∈ ps) (h11 : ∀ x, Part.rc x ∈ ps) (h12 : Part.dec b ∈ ps) (h13 : ∀ x, Part.wp x ∈ ps) (h14 : ∀ x,
    Part.srv x ∈ ps) (h15 : Part.spn b ∈ ps) (h16 : Part.sld b ∈ ps) (h17 : ∀ x, Part.seq x ∈ ps) (h18 : Part.pool ∈ ps)
    (h19 : Part.hnd ∈ ps) (h20 : Part.stg ∈ ps) (h21 : Part.mem ∈ ps) (h22 : Part.pair ∈ ps) (h23 : Part.out ∈ ps)
    (hx : execSpinupTimeout b s = .next tn) :
    hide ps tn = hide ps s := by
  unfold execSpinupTimeout at hx
  dsimp only at hx
  repeat' split at hx
  all_goals
    obtain rfl := Host.Outcome.next.inj hx
    first | with_reducible rfl | simp only [hide_startFailed, hide_raiseBay, hide_onSpn, implies_true, h0, h1, h2, h3,
        h4, h5, h6, h7, h8, h9, h10, h11, h12, h13, h14, h15, h16, h17, h18, h19, h20, h21, h22, h23]

theorem hide_execSpinDownOrder {b : BayNo} {s : State} {tn : State} (h0 : Part.spn b ∈ ps)
    (hx : execSpinDownOrder b s = .next tn) :
    hide ps tn = hide ps s := by
  unfold execSpinDownOrder at hx
  dsimp only at hx
  repeat' split at hx
  all_goals
    obtain rfl := Host.Outcome.next.inj hx
    first | with_reducible rfl | simp only [hide_onSpn, h0]

theorem hide_execSledPositionMove {b : BayNo} {target : Int} {s : State} {tn : State} (h0 : Part.raised ∈ ps) (h1 : ∀ x,
    Part.alarm x ∈ ps) (h2 : Part.srv b ∈ ps) (h3 : Part.sld b ∈ ps) (h4 : Part.seq b ∈ ps)
    (hx : execSledPositionMove b target s = .next tn) :
    hide ps tn = hide ps s := by
  unfold execSledPositionMove at hx
  dsimp only at hx
  repeat' split at hx
  all_goals
    obtain rfl := Host.Outcome.next.inj hx
    first | with_reducible rfl | simp only [hide_raiseBay, hide_onSld, hide_onSeq, implies_true, h0, h1, h2, h3, h4]

theorem hide_execSledRetarget {b : BayNo} {target : Int} {s : State} {tn : State} (h0 : Part.raised ∈ ps) (h1 : ∀ x,
    Part.alarm x ∈ ps) (h2 : Part.srv b ∈ ps) (h3 : Part.sld b ∈ ps) (hx : execSledRetarget b target s = .next tn) :
    hide ps tn = hide ps s := by
  unfold execSledRetarget at hx
  dsimp only at hx
  repeat' split at hx
  all_goals
    obtain rfl := Host.Outcome.next.inj hx
    first | with_reducible rfl | simp only [hide_raiseBay, hide_onSld, implies_true, h0, h1, h2, h3]

theorem hide_execSledHomeMove {b : BayNo} {s : State} {tn : State} (h0 : Part.sld b ∈ ps)
    (hx : execSledHomeMove b s = .next tn) :
    hide ps tn = hide ps s := by
  unfold execSledHomeMove at hx
  repeat' split at hx
  all_goals
    obtain rfl := Host.Outcome.next.inj hx
    first | with_reducible rfl | simp only [hide_onSld, h0]

theorem hide_execSledVelocityCommand {b : BayNo} {v : Int} {s : State} {tn : State} (h0 : Part.sld b ∈ ps)
    (hx : execSledVelocityCommand b v s = .next tn) :
    hide ps tn = hide ps s := by
  unfold execSledVelocityCommand at hx
  dsimp only at hx
  repeat' split at hx
  all_goals
    obtain rfl := Host.Outcome.next.inj hx
    first | with_reducible rfl | simp only [hide_onSld, h0]

theorem hide_execSledPwmPeriod {b : BayNo} {mark : Bool} {s : State} {tn : State} (h0 : Part.sys ∈ ps)
    (h1 : Part.raised ∈ ps) (h2 : Part.fwq ∈ ps) (h3 : Part.retry ∈ ps) (h4 : ∀ x, Part.alarm x ∈ ps)
    (h5 : Part.afe b ∈ ps) (h6 : Part.rc b ∈ ps) (h7 : Part.dec b ∈ ps) (h8 : Part.wp b ∈ ps) (h9 : Part.srv b ∈ ps)
    (h10 : Part.spn b ∈ ps) (h11 : Part.sld b ∈ ps) (h12 : Part.seq b ∈ ps) (h13 : Part.pool ∈ ps) (h14 : Part.mem ∈ ps)
    (h15 : Part.pair ∈ ps) (h16 : Part.out ∈ ps) (hx : execSledPwmPeriod b mark s = .next tn) :
    hide ps tn = hide ps s := by
  unfold execSledPwmPeriod at hx
  dsimp only at hx
  repeat' split at hx
  all_goals
    obtain rfl := Host.Outcome.next.inj hx
    first | with_reducible rfl | simp only [hide_sledEnded, hide_onSld, hide_sledToMount, hide_sledStalled,
        hide_driveSled, implies_true, h0, h1, h2, h3, h4, h5, h6, h7, h8, h9, h10, h11, h12, h13, h14, h15, h16]

theorem hide_execSledStandstill {b : BayNo} {s : State} {tn : State} (h0 : Part.sld b ∈ ps)
    (hx : execSledStandstill b s = .next tn) :
    hide ps tn = hide ps s := by
  unfold execSledStandstill at hx
  dsimp only at hx
  repeat' split at hx
  all_goals
    obtain rfl := Host.Outcome.next.inj hx
    first | with_reducible rfl | simp only [hide_onSld, h0]

/-! ### Sequencer -/

theorem hide_execClampConfirm {b : BayNo} {s : State} {tn : State} (h0 : Part.sys ∈ ps) (h1 : Part.raised ∈ ps)
    (h2 : ∀ x, Part.queues x ∈ ps) (h3 : ∀ x, Part.msix x ∈ ps) (h4 : ∀ x, Part.mbx x ∈ ps) (h5 : ∀ x, Part.alarm x ∈ ps)
    (h6 : Part.cmds ∈ ps) (h7 : ∀ x, Part.afe x ∈ ps) (h8 : ∀ x, Part.rc x ∈ ps) (h9 : Part.dec b ∈ ps) (h10 : ∀ x,
    Part.wp x ∈ ps) (h11 : ∀ x, Part.srv x ∈ ps) (h12 : ∀ x, Part.seq x ∈ ps) (h13 : Part.hnd ∈ ps) (h14 : Part.stg ∈ ps)
    (h15 : Part.pair ∈ ps) (h16 : Part.out ∈ ps) (hx : execClampConfirm b s = .next tn) :
    hide ps tn = hide ps s := by
  have hf : hide ps (s.onBay b (fun t => { t.freshDisc with
      seq := { t.freshDisc.seq with clamp := true, disc := some (t.seq.disc.getD strayDisc) } })) = hide ps s :=
    hide_onBay (Or.inr rfl) (by first | exact Or.inr rfl | exact Or.inl (by solve_by_elim))
        (by first | exact Or.inr rfl | exact Or.inl (by solve_by_elim))
        (by first | exact Or.inr rfl | exact Or.inl (by solve_by_elim))
        (by first | exact Or.inr rfl | exact Or.inl (by solve_by_elim)) (Or.inr rfl) (Or.inr rfl)
        (by first | exact Or.inr rfl | exact Or.inl (by solve_by_elim)) (Or.inr ⟨rfl, rfl⟩)
  unfold execClampConfirm at hx
  dsimp only at hx
  split at hx
  · obtain rfl := Host.Outcome.next.inj hx; with_reducible rfl
  · obtain rfl := Host.Outcome.next.inj hx
    split <;> simp only [hf, hide_setBaySt, hide_unload, implies_true, h0, h1, h2, h3, h4, h5, h6, h7, h8, h9, h10, h11,
        h12, h13, h14, h15, h16]

theorem hide_execClampTimeout {b : BayNo} {s : State} {tn : State} (h0 : Part.sys ∈ ps) (h1 : Part.raised ∈ ps)
    (h2 : ∀ x, Part.queues x ∈ ps) (h3 : ∀ x, Part.msix x ∈ ps) (h4 : ∀ x, Part.mbx x ∈ ps) (h5 : ∀ x, Part.alarm x ∈ ps)
    (h6 : Part.cmds ∈ ps) (h7 : Part.flash ∈ ps) (h8 : ∀ x, Part.afe x ∈ ps) (h9 : ∀ x, Part.rc x ∈ ps)
    (h10 : Part.dec b ∈ ps) (h11 : ∀ x, Part.wp x ∈ ps) (h12 : ∀ x, Part.srv x ∈ ps) (h13 : Part.spn b ∈ ps)
    (h14 : Part.sld b ∈ ps) (h15 : ∀ x, Part.seq x ∈ ps) (h16 : Part.pool ∈ ps) (h17 : Part.hnd ∈ ps)
    (h18 : Part.stg ∈ ps) (h19 : Part.mem ∈ ps) (h20 : Part.pair ∈ ps) (h21 : Part.out ∈ ps)
    (hx : execClampTimeout b s = .next tn) :
    hide ps tn = hide ps s := by
  unfold execClampTimeout at hx
  dsimp only at hx
  repeat' split at hx
  all_goals
    obtain rfl := Host.Outcome.next.inj hx
    first | with_reducible rfl | simp only [hide_mountFails, implies_true, h0, h1, h2, h3, h4, h5, h6, h7, h8, h9, h10,
        h11, h12, h13, h14, h15, h16, h17, h18, h19, h20, h21]

theorem hide_execTrayEmpty {b : BayNo} {s : State} {tn : State} (h0 : Part.sys ∈ ps) (h1 : Part.raised ∈ ps) (h2 : ∀ x,
    Part.alarm x ∈ ps) (h3 : Part.afe b ∈ ps) (h4 : Part.rc b ∈ ps) (h5 : Part.wp b ∈ ps) (h6 : Part.srv b ∈ ps)
    (h7 : Part.seq b ∈ ps) (h8 : Part.pair ∈ ps) (h9 : Part.out ∈ ps) (hx : execTrayEmpty b s = .next tn) :
    hide ps tn = hide ps s := by
  unfold execTrayEmpty at hx
  dsimp only at hx
  repeat' split at hx
  all_goals
    obtain rfl := Host.Outcome.next.inj hx
    first | with_reducible rfl | simp only [hide_onSeq, hide_setBaySt, hide_raiseBay, implies_true, h0, h1, h2, h3, h4,
        h5, h6, h7, h8, h9]

theorem hide_execIdleSpindown {b : BayNo} {s : State} {tn : State} (h0 : Part.sys ∈ ps) (h1 : Part.raised ∈ ps)
    (h2 : ∀ x, Part.alarm x ∈ ps) (h3 : Part.afe b ∈ ps) (h4 : Part.rc b ∈ ps) (h5 : Part.wp b ∈ ps)
    (h6 : Part.srv b ∈ ps) (h7 : Part.spn b ∈ ps) (h8 : Part.sld b ∈ ps) (h9 : Part.seq b ∈ ps) (h10 : Part.pair ∈ ps)
    (h11 : Part.out ∈ ps) (hx : execIdleSpindown b s = .next tn) :
    hide ps tn = hide ps s := by
  unfold execIdleSpindown at hx
  dsimp only at hx
  repeat' split at hx
  all_goals
    obtain rfl := Host.Outcome.next.inj hx
    first | with_reducible rfl | simp only [hide_spinDown, implies_true, h0, h1, h2, h3, h4, h5, h6, h7, h8, h9, h10, h11]

theorem hide_execSpindownComplete {b : BayNo} {s : State} {tn : State} (h0 : Part.sys ∈ ps) (h1 : Part.raised ∈ ps)
    (h2 : ∀ x, Part.queues x ∈ ps) (h3 : ∀ x, Part.msix x ∈ ps) (h4 : ∀ x, Part.mbx x ∈ ps) (h5 : ∀ x, Part.alarm x ∈ ps)
    (h6 : Part.cmds ∈ ps) (h7 : ∀ x, Part.afe x ∈ ps) (h8 : ∀ x, Part.rc x ∈ ps) (h9 : Part.dec b ∈ ps) (h10 : ∀ x,
    Part.wp x ∈ ps) (h11 : ∀ x, Part.srv x ∈ ps) (h12 : ∀ x, Part.seq x ∈ ps) (h13 : Part.hnd ∈ ps) (h14 : Part.stg ∈ ps)
    (h15 : Part.pair ∈ ps) (h16 : Part.out ∈ ps) (hx : execSpindownComplete b s = .next tn) :
    hide ps tn = hide ps s := by
  unfold execSpindownComplete at hx
  dsimp only at hx
  repeat' split at hx
  all_goals
    obtain rfl := Host.Outcome.next.inj hx
    first | with_reducible rfl | simp only [hide_unload, hide_setBaySt, implies_true, h0, h1, h2, h3, h4, h5, h6, h7, h8,
        h9, h10, h11, h12, h13, h14, h15, h16]

theorem hide_execMountRead {b : BayNo} {probes1 : List Bool} {probes2 : List Bool} {s : State} {tn : State}
    (h0 : Part.free ∈ ps) (h1 : Part.sys ∈ ps) (h2 : Part.raised ∈ ps) (h3 : Part.retry ∈ ps) (h4 : ∀ x,
    Part.queues x ∈ ps) (h5 : ∀ x, Part.msix x ∈ ps) (h6 : ∀ x, Part.mbx x ∈ ps) (h7 : ∀ x, Part.alarm x ∈ ps)
    (h8 : Part.cmds ∈ ps) (h9 : Part.vols ∈ ps) (h10 : Part.params ∈ ps) (h11 : Part.flash ∈ ps) (h12 : ∀ x,
    Part.afe x ∈ ps) (h13 : ∀ x, Part.rc x ∈ ps) (h14 : Part.dec b ∈ ps) (h15 : ∀ x, Part.wp x ∈ ps) (h16 : ∀ x,
    Part.srv x ∈ ps) (h17 : Part.spn b ∈ ps) (h18 : Part.sld b ∈ ps) (h19 : ∀ x, Part.seq x ∈ ps) (h20 : Part.pool ∈ ps)
    (h21 : Part.hnd ∈ ps) (h22 : Part.stg ∈ ps) (h23 : Part.mem ∈ ps) (h24 : Part.pair ∈ ps) (h25 : Part.out ∈ ps)
    (hx : execMountRead b probes1 probes2 s = .next tn) :
    hide ps tn = hide ps s := by
  unfold execMountRead at hx
  dsimp only at hx
  repeat' split at hx
  all_goals
    obtain rfl := Host.Outcome.next.inj hx
    first | with_reducible rfl | simp only [hide_scanOn, hide_mountFails, hide_onSeq, hide_atMount, implies_true, h0, h1,
        h2, h3, h4, h5, h6, h7, h8, h9, h10, h11, h12, h13, h14, h15, h16, h17, h18, h19, h20, h21, h22, h23, h24, h25]

theorem hide_execRipcordDiscStopped {b : BayNo} {s : State} {tn : State} (h0 : Part.sys ∈ ps) (h1 : Part.raised ∈ ps)
    (h2 : ∀ x, Part.alarm x ∈ ps) (h3 : Part.afe b ∈ ps) (h4 : Part.rc b ∈ ps) (h5 : Part.wp b ∈ ps)
    (h6 : Part.srv b ∈ ps) (h7 : Part.seq b ∈ ps) (h8 : Part.pair ∈ ps) (h9 : Part.out ∈ ps)
    (hx : execRipcordDiscStopped b s = .next tn) :
    hide ps tn = hide ps s := by
  unfold execRipcordDiscStopped at hx
  dsimp only at hx
  repeat' split at hx
  all_goals
    obtain rfl := Host.Outcome.next.inj hx
    first | with_reducible rfl | simp only [hide_setBaySt, implies_true, h0, h1, h2, h3, h4, h5, h6, h7, h8, h9]

theorem hide_execBayFault {b : BayNo} {cause : FaultCause} {s : State} {tn : State} (h0 : Part.sys ∈ ps)
    (h1 : Part.raised ∈ ps) (h2 : Part.fwq ∈ ps) (h3 : ∀ x, Part.alarm x ∈ ps) (h4 : Part.afe b ∈ ps)
    (h5 : Part.rc b ∈ ps) (h6 : Part.dec b ∈ ps) (h7 : Part.wp b ∈ ps) (h8 : Part.srv b ∈ ps) (h9 : Part.spn b ∈ ps)
    (h10 : Part.sld b ∈ ps) (h11 : Part.seq b ∈ ps) (h12 : Part.pool ∈ ps) (h13 : Part.mem ∈ ps) (h14 : Part.pair ∈ ps)
    (h15 : Part.out ∈ ps) (hx : execBayFault b cause s = .next tn) :
    hide ps tn = hide ps s := by
  unfold execBayFault at hx
  repeat' split at hx
  all_goals
    obtain rfl := Host.Outcome.next.inj hx
    first | with_reducible rfl | simp only [hide_faultBay, implies_true, h0, h1, h2, h3, h4, h5, h6, h7, h8, h9, h10,
        h11, h12, h13, h14, h15]

theorem hide_execCoastWaitExpiry {b : BayNo} {s : State} {tn : State} (h0 : Part.seq b ∈ ps)
    (hx : execCoastWaitExpiry b s = .next tn) :
    hide ps tn = hide ps s := by
  unfold execCoastWaitExpiry at hx
  repeat' split at hx
  all_goals
    obtain rfl := Host.Outcome.next.inj hx
    first | with_reducible rfl | simp only [hide_onSeq, h0]

theorem hide_execRemount {vid : VolId} {s : State} {tn : State} (h0 : Part.sys ∈ ps) (h1 : Part.raised ∈ ps) (h2 : ∀ x,
    Part.queues x ∈ ps) (h3 : ∀ x, Part.msix x ∈ ps) (h4 : ∀ x, Part.mbx x ∈ ps) (h5 : ∀ x, Part.alarm x ∈ ps)
    (h6 : Part.cmds ∈ ps) (h7 : ∀ x, Part.afe x ∈ ps) (h8 : ∀ x, Part.rc x ∈ ps) (h9 : ∀ x, Part.dec x ∈ ps) (h10 : ∀ x,
    Part.wp x ∈ ps) (h11 : ∀ x, Part.srv x ∈ ps) (h12 : ∀ x, Part.seq x ∈ ps) (h13 : Part.pool ∈ ps)
    (h14 : Part.hnd ∈ ps) (h15 : Part.stg ∈ ps) (h16 : Part.mem ∈ ps) (h17 : Part.pair ∈ ps) (h18 : Part.out ∈ ps)
    (hx : execRemount vid s = .next tn) :
    hide ps tn = hide ps s := by
  unfold execRemount at hx
  repeat' split at hx
  all_goals
    obtain rfl := Host.Outcome.next.inj hx
    first | with_reducible rfl | simp only [hide_remountFrom, hide_onSeq, hide_raiseDev, hide_failDisc, hide_placeDisc,
        implies_true, h0, h1, h2, h3, h4, h5, h6, h7, h8, h9, h10, h11, h12, h13, h14, h15, h16, h17, h18]

theorem hide_execWorkChoice {b : BayNo} {s : State} {tn : State} (h0 : Part.sys ∈ ps) (h1 : Part.raised ∈ ps) (h2 : ∀ x,
    Part.queues x ∈ ps) (h3 : ∀ x, Part.msix x ∈ ps) (h4 : ∀ x, Part.mbx x ∈ ps) (h5 : ∀ x, Part.alarm x ∈ ps)
    (h6 : Part.cmds ∈ ps) (h7 : Part.params ∈ ps) (h8 : ∀ x, Part.afe x ∈ ps) (h9 : ∀ x, Part.rc x ∈ ps)
    (h10 : Part.dec b ∈ ps) (h11 : ∀ x, Part.wp x ∈ ps) (h12 : ∀ x, Part.srv x ∈ ps) (h13 : Part.spn b ∈ ps)
    (h14 : Part.sld b ∈ ps) (h15 : ∀ x, Part.seq x ∈ ps) (h16 : Part.hnd ∈ ps) (h17 : Part.stg ∈ ps)
    (h18 : Part.pair ∈ ps) (h19 : Part.out ∈ ps) (hx : execWorkChoice b s = .next tn) :
    hide ps tn = hide ps s := by
  unfold execWorkChoice at hx
  dsimp only at hx
  simp only [← apply_ite Host.Outcome.next] at hx
  obtain rfl := Host.Outcome.next.inj hx
  repeat' split
  all_goals first | with_reducible rfl | simp only [hide_sendHome, hide_rest, hide_positionFailed, hide_onSrv,
      hide_onSeq, hide_serveMount, hide_serveClass, hide_updraftEnds, ite_self, implies_true, hide_ite, h0, h1, h2, h3,
      h4, h5, h6, h7, h8, h9, h10, h11, h12, h13, h14, h15, h16, h17, h18, h19]

theorem hide_execWriteYield {b : BayNo} {s : State} {tn : State} (h0 : Part.wp b ∈ ps)
    (hx : execWriteYield b s = .next tn) :
    hide ps tn = hide ps s := by
  unfold execWriteYield at hx
  dsimp only at hx
  repeat' split at hx
  all_goals
    obtain rfl := Host.Outcome.next.inj hx
    first | with_reducible rfl | simp only [hide_onWp, h0]

theorem hide_execDestageGuarantee {b : BayNo} {s : State} {tn : State} (h0 : Part.seq b ∈ ps)
    (hx : execDestageGuarantee b s = .next tn) :
    hide ps tn = hide ps s := by
  unfold execDestageGuarantee at hx
  repeat' split at hx
  all_goals
    obtain rfl := Host.Outcome.next.inj hx
    first | with_reducible rfl | simp only [hide_onSeq, h0]

theorem hide_execSlowVisit {b : BayNo} {s : State} {tn : State} (h0 : Part.raised ∈ ps) (h1 : ∀ x, Part.alarm x ∈ ps)
    (h2 : Part.params ∈ ps) (h3 : Part.srv b ∈ ps) (h4 : Part.seq b ∈ ps) (hx : execSlowVisit b s = .next tn) :
    hide ps tn = hide ps s := by
  unfold execSlowVisit at hx
  dsimp only at hx
  repeat' split at hx
  all_goals
    obtain rfl := Host.Outcome.next.inj hx
    first | with_reducible rfl | simp only [hide_raiseBay, hide_setSpeed, hide_onSeq, implies_true, h0, h1, h2, h3, h4]

/-! ### Board -/

theorem hide_execSmbusTransaction {addr : BitVec 7} {command : Byte} {pec : Bool} {s : State} {tn : State}
    (h0 : Part.out ∈ ps) (hx : execSmbusTransaction addr command pec s = .next tn) :
    hide ps tn = hide ps s := by
  unfold execSmbusTransaction at hx
  repeat' split at hx
  all_goals
    obtain rfl := Host.Outcome.next.inj hx
    first | with_reducible rfl | simp only [hide_emit, h0]

theorem hide_execJtagTapOperation {op : JtagOp} {s : State} {tn : State} (h0 : Part.sys ∈ ps) (h1 : Part.out ∈ ps)
    (hx : execJtagTapOperation op s = .next tn) :
    hide ps tn = hide ps s := by
  unfold execJtagTapOperation at hx
  repeat' split at hx
  all_goals
    obtain rfl := Host.Outcome.next.inj hx
    first | with_reducible rfl | simp only [hide_onSys, hide_emit, or_true, h0, h1]

end Sys2Proof.Laws
end

