-- ==== Sys2Proof/Laws/FrameHost.lean ====
section
/-! SUPPORT. What each meaning of the ports, the commands, the mailbox, the recorder and power may write. -/

namespace Sys2Proof.Laws

set_option Elab.async false

open Sys2Proof Sys2Proof.Machine Sys2Proof.Safety

variable {ps : List Part}

/-! ### HostPort -/

theorem hide_execD3hotEntry {p : Port} {s : State} {tn : State} (h0 : Part.raised ∈ ps) (h1 : ∀ x, Part.alarm x ∈ ps)
    (h2 : Part.link p ∈ ps) (hx : execD3hotEntry p s = .next tn) :
    hide ps tn = hide ps s := by
  unfold execD3hotEntry at hx
  obtain rfl := Host.Outcome.next.inj hx
  simp only [hide_raisePort, hide_onPort, ite_self, true_or, or_true, or_self, and_self, implies_true, hide_ite, h0, h1,
      h2]

theorem hide_execD0Return {p : Port} {s : State} {tn : State} (h0 : Part.raised ∈ ps) (h1 : Part.queues p ∈ ps)
    (h2 : Part.msix p ∈ ps) (h3 : ∀ x, Part.alarm x ∈ ps) (h4 : Part.link p ∈ ps) (h5 : Part.out ∈ ps)
    (hx : execD0Return p s = .next tn) :
    hide ps tn = hide ps s := by
  unfold execD0Return at hx
  obtain rfl := Host.Outcome.next.inj hx
  simp only [hide_releaseHeld, hide_raisePort, hide_onPort, ite_self, true_or, or_true, or_self, and_self, implies_true,
      hide_ite, h0, h1, h2, h3, h4, h5]

theorem hide_execPortLinkUp {p : Port} {gen : Fin 5} {width : Fin 5} {s : State} {tn : State} (h0 : Part.raised ∈ ps)
    (h1 : ∀ x, Part.alarm x ∈ ps) (h2 : Part.link p ∈ ps) (hx : execPortLinkUp p gen width s = .next tn) :
    hide ps tn = hide ps s := by
  unfold execPortLinkUp at hx
  obtain rfl := Host.Outcome.next.inj hx
  simp only [hide_raisePort, hide_onPort, ite_self, true_or, or_true, or_self, and_self, implies_true, hide_ite, h0, h1,
      h2]

theorem hide_execPortLinkDown {p : Port} {s : State} {tn : State} (h0 : Part.raised ∈ ps) (h1 : ∀ x, Part.alarm x ∈ ps)
    (h2 : Part.link p ∈ ps) (hx : execPortLinkDown p s = .next tn) :
    hide ps tn = hide ps s := by
  unfold execPortLinkDown at hx
  obtain rfl := Host.Outcome.next.inj hx
  simp only [hide_dropLink, implies_true, h0, h1, h2]

theorem hide_execHotReset {p : Port} {s : State} {tn : State} (h0 : Part.sys ∈ ps) (h1 : Part.raised ∈ ps)
    (h2 : Part.queues p ∈ ps) (h3 : Part.msix p ∈ ps) (h4 : Part.mbx p ∈ ps) (h5 : Part.ring p ∈ ps) (h6 : ∀ x,
    Part.alarm x ∈ ps) (h7 : Part.link p ∈ ps) (h8 : Part.bridle ∈ ps) (h9 : Part.cmds ∈ ps)
    (hx : execHotReset p s = .next tn) :
    hide ps tn = hide ps s := by
  unfold execHotReset at hx
  obtain rfl := Host.Outcome.next.inj hx
  simp only [hide_raisePort, hide_portReset, ite_self, implies_true, hide_ite, h0, h1, h2, h3, h4, h5, h6, h7, h8, h9]

theorem hide_execFlr {p : Port} {s : State} {tn : State} (h0 : Part.sys ∈ ps) (h1 : Part.raised ∈ ps)
    (h2 : Part.queues p ∈ ps) (h3 : Part.msix p ∈ ps) (h4 : Part.mbx p ∈ ps) (h5 : Part.ring p ∈ ps) (h6 : ∀ x,
    Part.alarm x ∈ ps) (h7 : Part.link p ∈ ps) (h8 : Part.bridle ∈ ps) (h9 : Part.cmds ∈ ps)
    (hx : execFlr p s = .next tn) :
    hide ps tn = hide ps s := by
  unfold execFlr at hx
  obtain rfl := Host.Outcome.next.inj hx
  simp only [hide_raisePort, hide_portReset, ite_self, implies_true, hide_ite, h0, h1, h2, h3, h4, h5, h6, h7, h8, h9]

theorem hide_execFundamentalReset {p : Port} {s : State} {tn : State} (h0 : Part.sys ∈ ps) (h1 : Part.raised ∈ ps)
    (h2 : Part.queues p ∈ ps) (h3 : Part.msix p ∈ ps) (h4 : Part.mbx p ∈ ps) (h5 : Part.ring p ∈ ps) (h6 : ∀ x,
    Part.alarm x ∈ ps) (h7 : Part.link p ∈ ps) (h8 : Part.bridle ∈ ps) (h9 : Part.cmds ∈ ps)
    (hx : execFundamentalReset p s = .next tn) :
    hide ps tn = hide ps s := by
  unfold execFundamentalReset at hx
  obtain rfl := Host.Outcome.next.inj hx
  simp only [hide_onPort, hide_dropLink, hide_portReset, ite_self, true_or, or_self, and_self, implies_true, hide_ite,
      h0, h1, h2, h3, h4, h5, h6, h7, h8, h9]

theorem hide_execPerstRelease {p : Port} {s : State} {tn : State} (h0 : Part.link p ∈ ps)
    (hx : execPerstRelease p s = .next tn) :
    hide ps tn = hide ps s := by
  unfold execPerstRelease at hx
  obtain rfl := Host.Outcome.next.inj hx
  simp only [hide_onPort, true_or, or_true, and_self, h0]

theorem hide_execQueueReset {p : Port} {mask : BitVec 64} {s : State} {tn : State} (h0 : Part.raised ∈ ps)
    (h1 : Part.queues p ∈ ps) (h2 : ∀ x, Part.alarm x ∈ ps) (h3 : Part.cmds ∈ ps)
    (hx : execQueueReset p mask s = .next tn) :
    hide ps tn = hide ps s := by
  unfold execQueueReset at hx
  obtain rfl := Host.Outcome.next.inj hx
  simp only [hide_resetPairs, ite_self, implies_true, hide_ite, h0, h1, h2, h3]

theorem hide_execSqTailWrite {p : Port} {q : QueueNo} {v : BitVec 12} {s : State} {tn : State} (h0 : Part.raised ∈ ps)
    (h1 : Part.queues p ∈ ps) (h2 : ∀ x, Part.alarm x ∈ ps) (hx : execSqTailWrite p q v s = .next tn) :
    hide ps tn = hide ps s := by
  unfold execSqTailWrite at hx
  obtain rfl := Host.Outcome.next.inj hx
  simp only [hide_writeSqTail, ite_self, implies_true, hide_ite, h0, h1, h2]

theorem hide_execCqHeadWrite {p : Port} {q : QueueNo} {v : BitVec 12} {s : State} {tn : State} (h0 : Part.raised ∈ ps)
    (h1 : Part.queues p ∈ ps) (h2 : ∀ x, Part.alarm x ∈ ps) (hx : execCqHeadWrite p q v s = .next tn) :
    hide ps tn = hide ps s := by
  unfold execCqHeadWrite at hx
  obtain rfl := Host.Outcome.next.inj hx
  simp only [hide_writeCqHead, ite_self, implies_true, hide_ite, h0, h1, h2]

theorem hide_execQueueEnable {p : Port} {q : QueueNo} {qcfg : BitVec 64} {s : State} {tn : State}
    (h0 : Part.queues p ∈ ps) (hx : execQueueEnable p q qcfg s = .next tn) :
    hide ps tn = hide ps s := by
  unfold execQueueEnable at hx
  obtain rfl := Host.Outcome.next.inj hx
  simp only [hide_onQueue, ite_self, hide_ite, h0]

theorem hide_execEventRingEnable {p : Port} {cfg : BitVec 64} {s : State} {tn : State} (h0 : Part.ring p ∈ ps)
    (hx : execEventRingEnable p cfg s = .next tn) :
    hide ps tn = hide ps s := by
  unfold execEventRingEnable at hx
  obtain rfl := Host.Outcome.next.inj hx
  simp only [hide_onRing, ite_self, hide_ite, h0]

theorem hide_execEventRingDisable {p : Port} {s : State} {tn : State} (h0 : Part.ring p ∈ ps)
    (hx : execEventRingDisable p s = .next tn) :
    hide ps tn = hide ps s := by
  unfold execEventRingDisable at hx
  obtain rfl := Host.Outcome.next.inj hx
  simp only [hide_onRing, ite_self, hide_ite, h0]

theorem hide_execEventRingHeadWrite {p : Port} {v : BitVec 12} {s : State} {tn : State} (h0 : Part.ring p ∈ ps)
    (hx : execEventRingHeadWrite p v s = .next tn) :
    hide ps tn = hide ps s := by
  unfold execEventRingHeadWrite at hx
  obtain rfl := Host.Outcome.next.inj hx
  simp only [hide_onRing, ite_self, hide_ite, h0]

theorem hide_execBridleRead {p : Port} {cell : Fin 64} {width : AccWidth} {tie : Bool} {s : State} {tn : State}
    (h0 : Part.bridle ∈ ps) (h1 : Part.out ∈ ps) (hx : execBridleRead p cell width tie s = .next tn) :
    hide ps tn = hide ps s := by
  unfold execBridleRead at hx
  dsimp only at hx
  repeat' split at hx
  all_goals
    obtain rfl := Host.Outcome.next.inj hx
    first | with_reducible rfl | simp only [hide_emit, hide_readCell, hide_onCell, hide_setTie, h0, h1]

theorem hide_execBridleWrite {p : Port} {cell : Fin 64} {width : AccWidth} {v : BitVec 64} {s : State} {tn : State}
    (h0 : Part.raised ∈ ps) (h1 : ∀ x, Part.alarm x ∈ ps) (h2 : Part.bridle ∈ ps)
    (hx : execBridleWrite p cell width v s = .next tn) :
    hide ps tn = hide ps s := by
  unfold execBridleWrite at hx
  obtain rfl := Host.Outcome.next.inj hx
  simp only [hide_writeCell, ite_self, implies_true, hide_ite, h0, h1, h2]

theorem hide_execAlarmClear {p : Port} {word : Fin 18} {v : BitVec 64} {s : State} {tn : State} (h0 : Part.alarm p ∈ ps)
    (hx : execAlarmClear p word v s = .next tn) :
    hide ps tn = hide ps s := by
  unfold execAlarmClear at hx
  obtain rfl := Host.Outcome.next.inj hx
  simp only [hide_clearAlarm, ite_self, hide_ite, h0]

theorem hide_execReelFreezeBit {p : Port} {s : State} {tn : State} (h0 : Part.raised ∈ ps) (h1 : Part.ev ∈ ps) (h2 : ∀ x,
    Part.alarm x ∈ ps) (hx : execReelFreezeBit p s = .next tn) :
    hide ps tn = hide ps s := by
  unfold execReelFreezeBit at hx
  obtain rfl := Host.Outcome.next.inj hx
  simp only [hide_freezeReel, ite_self, implies_true, hide_ite, h0, h1, h2]

theorem hide_execReelThawBit {p : Port} {s : State} {tn : State} (h0 : Part.raised ∈ ps) (h1 : Part.ev ∈ ps) (h2 : ∀ x,
    Part.alarm x ∈ ps) (hx : execReelThawBit p s = .next tn) :
    hide ps tn = hide ps s := by
  unfold execReelThawBit at hx
  obtain rfl := Host.Outcome.next.inj hx
  simp only [hide_thawReel, ite_self, implies_true, hide_ite, h0, h1, h2]

theorem hide_execReelWindowAdvance {p : Port} {s : State} {tn : State} (h0 : Part.link p ∈ ps) (h1 : Part.out ∈ ps)
    (hx : execReelWindowAdvance p s = .next tn) :
    hide ps tn = hide ps s := by
  unfold execReelWindowAdvance at hx
  obtain rfl := Host.Outcome.next.inj hx
  simp only [hide_readWindowEnd, ite_self, hide_ite, h0, h1]

theorem hide_execBar0BadAccess {p : Port} {isRead : Bool} {offset : BitVec 16} {size : Nat} {s : State} {tn : State}
    (h0 : Part.link p ∈ ps) (h1 : Part.bridle ∈ ps) (h2 : Part.out ∈ ps)
    (hx : execBar0BadAccess p isRead offset size s = .next tn) :
    hide ps tn = hide ps s := by
  unfold execBar0BadAccess at hx
  obtain rfl := Host.Outcome.next.inj hx
  simp only [hide_readBar0, hide_emit, ite_self, hide_ite, h0, h1, h2]

theorem hide_execRegisterWrite {sp : RegSpace} {offset : BitVec 16} {width : AccWidth} {v : BitVec 64} {s : State}
    {tn : State} (h0 : Part.mode ∈ ps) (h1 : Part.free ∈ ps) (h2 : Part.sys ∈ ps) (h3 : Part.raised ∈ ps)
    (h4 : Part.fwq ∈ ps) (h5 : Part.retry ∈ ps) (h6 : Part.ev ∈ ps) (h7 : ∀ x, Part.queues x ∈ ps) (h8 : ∀ x,
    Part.msix x ∈ ps) (h9 : ∀ x, Part.mbx x ∈ ps) (h10 : ∀ x, Part.ring x ∈ ps) (h11 : ∀ x, Part.alarm x ∈ ps)
    (h12 : ∀ x, Part.link x ∈ ps) (h13 : Part.bridle ∈ ps) (h14 : Part.cmds ∈ ps) (h15 : Part.vols ∈ ps)
    (h16 : Part.params ∈ ps) (h17 : ∀ x, Part.afe x ∈ ps) (h18 : ∀ x, Part.rc x ∈ ps) (h19 : ∀ x, Part.dec x ∈ ps)
    (h20 : ∀ x, Part.wp x ∈ ps) (h21 : ∀ x, Part.srv x ∈ ps) (h22 : ∀ x, Part.spn x ∈ ps) (h23 : ∀ x, Part.sld x ∈ ps)
    (h24 : ∀ x, Part.seq x ∈ ps) (h25 : ∀ x, Part.held x ∈ ps) (h26 : Part.pool ∈ ps) (h27 : Part.hnd ∈ ps)
    (h28 : Part.stg ∈ ps) (h29 : Part.dram ∈ ps) (h30 : Part.mem ∈ ps) (h31 : Part.pair ∈ ps) (h32 : Part.out ∈ ps)
    (hx : execRegisterWrite sp offset width v s = .next tn) :
    hide ps tn = hide ps s := by
  unfold execRegisterWrite at hx
  repeat' split at hx
  all_goals
    obtain rfl := Host.Outcome.next.inj hx
    first | with_reducible rfl | simp only [hide_writeBar0, hide_writeControl, hide_writeConfig, implies_true, h0, h1,
        h2, h3, h4, h5, h6, h7, h8, h9, h10, h11, h12, h13, h14, h15, h16, h17, h18, h19, h20, h21, h22, h23, h24, h25,
        h26, h27, h28, h29, h30, h31, h32]

/-! ### Io -/

theorem hide_execCommandFetch {p : Port} {recs : List HostRecord} {s : State} {tn : State} (h0 : Part.free ∈ ps)
    (h1 : Part.sys ∈ ps) (h2 : Part.raised ∈ ps) (h3 : ∀ x, Part.queues x ∈ ps) (h4 : ∀ x, Part.msix x ∈ ps) (h5 : ∀ x,
    Part.alarm x ∈ ps) (h6 : Part.cmds ∈ ps) (h7 : Part.stg ∈ ps) (h8 : Part.pair ∈ ps) (h9 : Part.out ∈ ps)
    (hx : execCommandFetch p recs s = .next tn) :
    hide ps tn = hide ps s := by
  unfold execCommandFetch at hx
  repeat' split at hx
  all_goals
    obtain rfl := Host.Outcome.next.inj hx
    first | with_reducible rfl | simp only [hide_fetchAll, hide_onPort, true_or, or_true, or_self, and_self,
        implies_true, h0, h1, h2, h3, h4, h5, h6, h7, h8, h9]

theorem hide_execCommandEligible {id : CmdId} {s : State} {tn : State} (h0 : Part.cmds ∈ ps)
    (hx : execCommandEligible id s = .next tn) :
    hide ps tn = hide ps s := by
  unfold execCommandEligible at hx
  repeat' split at hx
  all_goals
    obtain rfl := Host.Outcome.next.inj hx
    first | with_reducible rfl | simp only [hide_onCmd, h0]

theorem hide_execRead {id : CmdId} {ext : ExtentRead} {s : State} {tn : State} (h0 : Part.sys ∈ ps)
    (h1 : Part.raised ∈ ps) (h2 : ∀ x, Part.queues x ∈ ps) (h3 : ∀ x, Part.msix x ∈ ps) (h4 : ∀ x, Part.mbx x ∈ ps)
    (h5 : ∀ x, Part.alarm x ∈ ps) (h6 : Part.cmds ∈ ps) (h7 : ∀ x, Part.afe x ∈ ps) (h8 : ∀ x, Part.rc x ∈ ps) (h9 : ∀ x,
    Part.dec x ∈ ps) (h10 : ∀ x, Part.wp x ∈ ps) (h11 : ∀ x, Part.srv x ∈ ps) (h12 : ∀ x, Part.seq x ∈ ps)
    (h13 : Part.pool ∈ ps) (h14 : Part.hnd ∈ ps) (h15 : Part.stg ∈ ps) (h16 : Part.mem ∈ ps) (h17 : Part.pair ∈ ps)
    (h18 : Part.out ∈ ps) (hx : execRead id ext s = .next tn) :
    hide ps tn = hide ps s := by
  unfold execRead at hx
  repeat' split at hx
  all_goals
    obtain rfl := Host.Outcome.next.inj hx
    first | with_reducible rfl | simp only [hide_orUnknown, hide_dmaFail, hide_complete, hide_onCmd, hide_forward,
        hide_serveRead, implies_true, h0, h1, h2, h3, h4, h5, h6, h7, h8, h9, h10, h11, h12, h13, h14, h15, h16, h17, h18]

theorem hide_execWrite {id : CmdId} {ext : ExtentRead} {data : WriteData} {s : State} {tn : State} (h0 : Part.sys ∈ ps)
    (h1 : Part.raised ∈ ps) (h2 : ∀ x, Part.queues x ∈ ps) (h3 : ∀ x, Part.msix x ∈ ps) (h4 : ∀ x, Part.mbx x ∈ ps)
    (h5 : ∀ x, Part.alarm x ∈ ps) (h6 : Part.cmds ∈ ps) (h7 : Part.vols ∈ ps) (h8 : ∀ x, Part.afe x ∈ ps) (h9 : ∀ x,
    Part.rc x ∈ ps) (h10 : ∀ x, Part.dec x ∈ ps) (h11 : ∀ x, Part.wp x ∈ ps) (h12 : ∀ x, Part.srv x ∈ ps) (h13 : ∀ x,
    Part.seq x ∈ ps) (h14 : Part.pool ∈ ps) (h15 : Part.hnd ∈ ps) (h16 : Part.stg ∈ ps) (h17 : Part.mem ∈ ps)
    (h18 : Part.pair ∈ ps) (h19 : Part.out ∈ ps) (hx : execWrite id ext data s = .next tn) :
    hide ps tn = hide ps s := by
  have key : ∀ s0 : State, hide ps s0 = hide ps s → hide ps (match s0.served id 2 with
      | none => s.orUnknown id 2
      | some (c, v) =>
        match s0.writeFetch c ext data with
        | (t, none) => t
        | (t, some xs) => if v.ownPeer then t.forward c xs else t.serveWrite c v xs) = hide ps s := by
    intro s0 k
    split
    · simp only [hide_orUnknown, implies_true, h2, h3, h6, h16, h18, h19]
    · split
      · rename_i h
        obtain rfl := congrArg Prod.fst h
        simp only [k, hide_writeFetch, implies_true, h1, h2, h3, h5, h6, h16, h18, h19]
      · rename_i h
        obtain rfl := congrArg Prod.fst h
        split <;> simp only [k, hide_writeFetch, hide_forward, hide_serveWrite, implies_true, h0, h1, h2, h3, h4, h5, h6,
            h7, h8, h9, h10, h11, h12, h13, h14, h15, h16, h17, h18, h19]
  unfold execWrite at hx
  obtain rfl := Host.Outcome.next.inj hx
  refine key _ ?_
  repeat' split
  all_goals first | with_reducible rfl | simp only [hide_setWait, h6]

theorem hide_execFlush {id : CmdId} {s : State} {tn : State} (h0 : ∀ x, Part.queues x ∈ ps) (h1 : ∀ x, Part.msix x ∈ ps)
    (h2 : Part.cmds ∈ ps) (h3 : Part.stg ∈ ps) (h4 : Part.pair ∈ ps) (h5 : Part.out ∈ ps)
    (hx : execFlush id s = .next tn) :
    hide ps tn = hide ps s := by
  unfold execFlush at hx
  repeat' split at hx
  all_goals
    obtain rfl := Host.Outcome.next.inj hx
    first | with_reducible rfl | simp only [hide_orUnknown, hide_forward, hide_serveFlush, implies_true, h0, h1, h2, h3,
        h4, h5]

theorem hide_execVerify {id : CmdId} {s : State} {tn : State} (h0 : Part.sys ∈ ps) (h1 : Part.raised ∈ ps) (h2 : ∀ x,
    Part.queues x ∈ ps) (h3 : ∀ x, Part.msix x ∈ ps) (h4 : ∀ x, Part.mbx x ∈ ps) (h5 : ∀ x, Part.alarm x ∈ ps)
    (h6 : Part.cmds ∈ ps) (h7 : ∀ x, Part.afe x ∈ ps) (h8 : ∀ x, Part.rc x ∈ ps) (h9 : ∀ x, Part.dec x ∈ ps) (h10 : ∀ x,
    Part.wp x ∈ ps) (h11 : ∀ x, Part.srv x ∈ ps) (h12 : ∀ x, Part.seq x ∈ ps) (h13 : Part.pool ∈ ps)
    (h14 : Part.hnd ∈ ps) (h15 : Part.stg ∈ ps) (h16 : Part.mem ∈ ps) (h17 : Part.pair ∈ ps) (h18 : Part.out ∈ ps)
    (hx : execVerify id s = .next tn) :
    hide ps tn = hide ps s := by
  unfold execVerify at hx
  repeat' split at hx
  all_goals
    obtain rfl := Host.Outcome.next.inj hx
    first | with_reducible rfl | simp only [hide_orUnknown, hide_forward, hide_serveRead, implies_true, h0, h1, h2, h3,
        h4, h5, h6, h7, h8, h9, h10, h11, h12, h13, h14, h15, h16, h17, h18]

theorem hide_execCancel {id : CmdId} {s : State} {tn : State} (h0 : ∀ x, Part.queues x ∈ ps) (h1 : ∀ x, Part.msix x ∈ ps)
    (h2 : Part.cmds ∈ ps) (h3 : Part.stg ∈ ps) (h4 : Part.pair ∈ ps) (h5 : Part.out ∈ ps)
    (hx : execCancel id s = .next tn) :
    hide ps tn = hide ps s := by
  unfold execCancel at hx
  repeat' split at hx
  all_goals
    obtain rfl := Host.Outcome.next.inj hx
    first | with_reducible rfl | simp only [hide_complete, implies_true, h0, h1, h2, h3, h4, h5]

theorem hide_execPrefetch {id : CmdId} {s : State} {tn : State} (h0 : Part.sys ∈ ps) (h1 : Part.raised ∈ ps) (h2 : ∀ x,
    Part.queues x ∈ ps) (h3 : ∀ x, Part.msix x ∈ ps) (h4 : ∀ x, Part.mbx x ∈ ps) (h5 : ∀ x, Part.alarm x ∈ ps)
    (h6 : Part.cmds ∈ ps) (h7 : ∀ x, Part.afe x ∈ ps) (h8 : ∀ x, Part.rc x ∈ ps) (h9 : ∀ x, Part.dec x ∈ ps) (h10 : ∀ x,
    Part.wp x ∈ ps) (h11 : ∀ x, Part.srv x ∈ ps) (h12 : ∀ x, Part.seq x ∈ ps) (h13 : Part.pool ∈ ps)
    (h14 : Part.hnd ∈ ps) (h15 : Part.stg ∈ ps) (h16 : Part.mem ∈ ps) (h17 : Part.pair ∈ ps) (h18 : Part.out ∈ ps)
    (hx : execPrefetch id s = .next tn) :
    hide ps tn = hide ps s := by
  unfold execPrefetch at hx
  repeat' split at hx
  all_goals
    obtain rfl := Host.Outcome.next.inj hx
    first | with_reducible rfl | simp only [hide_orUnknown, hide_forward, hide_servePrefetch, implies_true, h0, h1, h2,
        h3, h4, h5, h6, h7, h8, h9, h10, h11, h12, h13, h14, h15, h16, h17, h18]

theorem hide_execDestage {id : CmdId} {s : State} {tn : State} (h0 : Part.sys ∈ ps) (h1 : Part.raised ∈ ps) (h2 : ∀ x,
    Part.queues x ∈ ps) (h3 : ∀ x, Part.msix x ∈ ps) (h4 : ∀ x, Part.mbx x ∈ ps) (h5 : ∀ x, Part.alarm x ∈ ps)
    (h6 : Part.cmds ∈ ps) (h7 : ∀ x, Part.afe x ∈ ps) (h8 : ∀ x, Part.rc x ∈ ps) (h9 : ∀ x, Part.dec x ∈ ps) (h10 : ∀ x,
    Part.wp x ∈ ps) (h11 : ∀ x, Part.srv x ∈ ps) (h12 : ∀ x, Part.seq x ∈ ps) (h13 : Part.pool ∈ ps)
    (h14 : Part.hnd ∈ ps) (h15 : Part.stg ∈ ps) (h16 : Part.mem ∈ ps) (h17 : Part.pair ∈ ps) (h18 : Part.out ∈ ps)
    (hx : execDestage id s = .next tn) :
    hide ps tn = hide ps s := by
  unfold execDestage at hx
  repeat' split at hx
  all_goals
    obtain rfl := Host.Outcome.next.inj hx
    first | with_reducible rfl | simp only [hide_orUnknown, hide_forward, hide_serveDestage, implies_true, h0, h1, h2,
        h3, h4, h5, h6, h7, h8, h9, h10, h11, h12, h13, h14, h15, h16, h17, h18]

theorem hide_execMount {id : CmdId} {s : State} {tn : State} (h0 : Part.sys ∈ ps) (h1 : Part.raised ∈ ps) (h2 : ∀ x,
    Part.queues x ∈ ps) (h3 : ∀ x, Part.msix x ∈ ps) (h4 : ∀ x, Part.mbx x ∈ ps) (h5 : ∀ x, Part.alarm x ∈ ps)
    (h6 : Part.cmds ∈ ps) (h7 : ∀ x, Part.afe x ∈ ps) (h8 : ∀ x, Part.rc x ∈ ps) (h9 : ∀ x, Part.dec x ∈ ps) (h10 : ∀ x,
    Part.wp x ∈ ps) (h11 : ∀ x, Part.srv x ∈ ps) (h12 : ∀ x, Part.seq x ∈ ps) (h13 : Part.pool ∈ ps)
    (h14 : Part.hnd ∈ ps) (h15 : Part.stg ∈ ps) (h16 : Part.mem ∈ ps) (h17 : Part.pair ∈ ps) (h18 : Part.out ∈ ps)
    (hx : execMount id s = .next tn) :
    hide ps tn = hide ps s := by
  unfold execMount at hx
  repeat' split at hx
  all_goals
    obtain rfl := Host.Outcome.next.inj hx
    first | with_reducible rfl | simp only [hide_orUnknown, hide_forward, hide_complete, hide_placeDisc, hide_setWait,
        implies_true, h0, h1, h2, h3, h4, h5, h6, h7, h8, h9, h10, h11, h12, h13, h14, h15, h16, h17, h18]

theorem hide_execUnmount {id : CmdId} {s : State} {tn : State} (h0 : Part.sys ∈ ps) (h1 : Part.raised ∈ ps) (h2 : ∀ x,
    Part.queues x ∈ ps) (h3 : ∀ x, Part.msix x ∈ ps) (h4 : ∀ x, Part.mbx x ∈ ps) (h5 : ∀ x, Part.alarm x ∈ ps)
    (h6 : Part.cmds ∈ ps) (h7 : ∀ x, Part.afe x ∈ ps) (h8 : ∀ x, Part.rc x ∈ ps) (h9 : ∀ x, Part.dec x ∈ ps) (h10 : ∀ x,
    Part.wp x ∈ ps) (h11 : ∀ x, Part.srv x ∈ ps) (h12 : ∀ x, Part.seq x ∈ ps) (h13 : Part.pool ∈ ps)
    (h14 : Part.hnd ∈ ps) (h15 : Part.stg ∈ ps) (h16 : Part.mem ∈ ps) (h17 : Part.pair ∈ ps) (h18 : Part.out ∈ ps)
    (hx : execUnmount id s = .next tn) :
    hide ps tn = hide ps s := by
  unfold execUnmount at hx
  repeat' split at hx
  all_goals
    obtain rfl := Host.Outcome.next.inj hx
    first | with_reducible rfl | simp only [hide_orUnknown, hide_forward, hide_onCmd, hide_orderUnmount,
        hide_unmountLoose, implies_true, h0, h1, h2, h3, h4, h5, h6, h7, h8, h9, h10, h11, h12, h13, h14, h15, h16, h17,
        h18]

theorem hide_execLocate {id : CmdId} {s : State} {tn : State} (h0 : Part.free ∈ ps) (h1 : ∀ x, Part.queues x ∈ ps)
    (h2 : ∀ x, Part.msix x ∈ ps) (h3 : Part.cmds ∈ ps) (h4 : Part.stg ∈ ps) (h5 : Part.pair ∈ ps) (h6 : Part.out ∈ ps)
    (hx : execLocate id s = .next tn) :
    hide ps tn = hide ps s := by
  unfold execLocate at hx
  dsimp only at hx
  repeat' split at hx
  all_goals
    obtain rfl := Host.Outcome.next.inj hx
    first | with_reducible rfl | simp only [hide_orUnknown, hide_forward, hide_locate, hide_complete, implies_true, h0,
        h1, h2, h3, h4, h5, h6]

theorem hide_execMountWaitExpiry {id : CmdId} {s : State} {tn : State} (h0 : Part.raised ∈ ps) (h1 : ∀ x,
    Part.queues x ∈ ps) (h2 : ∀ x, Part.msix x ∈ ps) (h3 : ∀ x, Part.alarm x ∈ ps) (h4 : Part.cmds ∈ ps)
    (h5 : Part.stg ∈ ps) (h6 : Part.pair ∈ ps) (h7 : Part.out ∈ ps) (hx : execMountWaitExpiry id s = .next tn) :
    hide ps tn = hide ps s := by
  unfold execMountWaitExpiry at hx
  repeat' split at hx
  all_goals
    obtain rfl := Host.Outcome.next.inj hx
    first | with_reducible rfl | simp only [hide_complete, hide_expired, implies_true, h0, h1, h2, h3, h4, h5, h6, h7]

theorem hide_execSpaceWaitExpiry {id : CmdId} {s : State} {tn : State} (h0 : Part.raised ∈ ps) (h1 : ∀ x,
    Part.queues x ∈ ps) (h2 : ∀ x, Part.msix x ∈ ps) (h3 : ∀ x, Part.alarm x ∈ ps) (h4 : Part.cmds ∈ ps)
    (h5 : Part.stg ∈ ps) (h6 : Part.pair ∈ ps) (h7 : Part.out ∈ ps) (hx : execSpaceWaitExpiry id s = .next tn) :
    hide ps tn = hide ps s := by
  unfold execSpaceWaitExpiry at hx
  repeat' split at hx
  all_goals
    obtain rfl := Host.Outcome.next.inj hx
    first | with_reducible rfl | simp only [hide_complete, hide_expired, implies_true, h0, h1, h2, h3, h4, h5, h6, h7]

theorem hide_execAggregationTimer {p : Port} {q : QueueNo} {s : State} {tn : State} (h0 : Part.queues p ∈ ps)
    (h1 : Part.msix p ∈ ps) (h2 : Part.out ∈ ps) (hx : execAggregationTimer p q s = .next tn) :
    hide ps tn = hide ps s := by
  unfold execAggregationTimer at hx
  obtain rfl := Host.Outcome.next.inj hx
  simp only [hide_signalQueue, ite_self, hide_ite, h0, h1, h2]

theorem hide_execHostReadError {p : Port} {what : DmaTarget} {e : DmaErr} {s : State} {tn : State} (h0 : Part.free ∈ ps)
    (h1 : Part.raised ∈ ps) (h2 : ∀ x, Part.queues x ∈ ps) (h3 : ∀ x, Part.msix x ∈ ps) (h4 : Part.mbx p ∈ ps) (h5 : ∀ x,
    Part.alarm x ∈ ps) (h6 : Part.cmds ∈ ps) (h7 : Part.stg ∈ ps) (h8 : Part.pair ∈ ps) (h9 : Part.out ∈ ps)
    (hx : execHostReadError p what e s = .next tn) :
    hide ps tn = hide ps s := by
  unfold execHostReadError at hx
  repeat' split at hx
  all_goals
    obtain rfl := Host.Outcome.next.inj hx
    first | with_reducible rfl | simp only [hide_haltQueue, hide_dmaFail, hide_respond, hide_raisePort, ite_self,
        implies_true, hide_ite, h0, h1, h2, h3, h4, h5, h6, h7, h8, h9]

/-! ### Power -/

theorem hide_execPowerOnReset {a0 : PorCause} {s : State} {tn : State} (h0 : Part.mode ∈ ps) (h1 : Part.sys ∈ ps)
    (h2 : Part.raised ∈ ps) (h3 : Part.fwq ∈ ps) (h4 : Part.retry ∈ ps) (h5 : Part.ev ∈ ps) (h6 : ∀ x,
    Part.queues x ∈ ps) (h7 : ∀ x, Part.msix x ∈ ps) (h8 : ∀ x, Part.mbx x ∈ ps) (h9 : ∀ x, Part.ring x ∈ ps) (h10 : ∀ x,
    Part.alarm x ∈ ps) (h11 : ∀ x, Part.link x ∈ ps) (h12 : Part.bridle ∈ ps) (h13 : Part.cmds ∈ ps)
    (h14 : Part.vols ∈ ps) (h15 : Part.params ∈ ps) (h16 : ∀ x, Part.afe x ∈ ps) (h17 : ∀ x, Part.rc x ∈ ps) (h18 : ∀ x,
    Part.dec x ∈ ps) (h19 : ∀ x, Part.wp x ∈ ps) (h20 : ∀ x, Part.srv x ∈ ps) (h21 : ∀ x, Part.spn x ∈ ps) (h22 : ∀ x,
    Part.sld x ∈ ps) (h23 : ∀ x, Part.seq x ∈ ps) (h24 : ∀ x, Part.held x ∈ ps) (h25 : Part.pool ∈ ps)
    (h26 : Part.hnd ∈ ps) (h27 : Part.stg ∈ ps) (h28 : Part.dram ∈ ps) (h29 : Part.mem ∈ ps) (h30 : Part.pair ∈ ps)
    (hx : execPowerOnReset a0 s = .next tn) :
    hide ps tn = hide ps s := by
  unfold execPowerOnReset at hx
  obtain rfl := Host.Outcome.next.inj hx
  simp only [hide_powerOnReset, implies_true, h0, h1, h2, h3, h4, h5, h6, h7, h8, h9, h10, h11, h12, h13, h14, h15, h16,
      h17, h18, h19, h20, h21, h22, h23, h24, h25, h26, h27, h28, h29, h30]

theorem hide_execPorstNRelease {straps : BitVec 2} {s : State} {tn : State} (h0 : Part.mode ∈ ps) (h1 : Part.sys ∈ ps)
    (h2 : Part.raised ∈ ps) (h3 : Part.ev ∈ ps) (h4 : ∀ x, Part.queues x ∈ ps) (h5 : ∀ x, Part.msix x ∈ ps) (h6 : ∀ x,
    Part.mbx x ∈ ps) (h7 : ∀ x, Part.alarm x ∈ ps) (h8 : Part.cmds ∈ ps) (h9 : ∀ x, Part.afe x ∈ ps) (h10 : ∀ x,
    Part.rc x ∈ ps) (h11 : ∀ x, Part.wp x ∈ ps) (h12 : ∀ x, Part.srv x ∈ ps) (h13 : ∀ x, Part.seq x ∈ ps)
    (h14 : Part.hnd ∈ ps) (h15 : Part.stg ∈ ps) (h16 : Part.pair ∈ ps) (h17 : Part.out ∈ ps)
    (hx : execPorstNRelease straps s = .next tn) :
    hide ps tn = hide ps s := by
  unfold execPorstNRelease at hx
  repeat' split at hx
  all_goals
    obtain rfl := Host.Outcome.next.inj hx
    first | with_reducible rfl | simp only [hide_onSys, hide_raiseDev, hide_setMode, or_true, or_self, implies_true, h0,
        h1, h2, h3, h4, h5, h6, h7, h8, h9, h10, h11, h12, h13, h14, h15, h16, h17]

theorem hide_execDeviceReset {a0 : Port} {key : Byte} {s : State} {tn : State} (h0 : Part.mode ∈ ps)
    (h1 : Part.free ∈ ps) (h2 : Part.sys ∈ ps) (h3 : Part.raised ∈ ps) (h4 : Part.fwq ∈ ps) (h5 : Part.retry ∈ ps)
    (h6 : Part.ev ∈ ps) (h7 : ∀ x, Part.queues x ∈ ps) (h8 : ∀ x, Part.msix x ∈ ps) (h9 : ∀ x, Part.mbx x ∈ ps)
    (h10 : ∀ x, Part.ring x ∈ ps) (h11 : ∀ x, Part.alarm x ∈ ps) (h12 : ∀ x, Part.link x ∈ ps) (h13 : Part.bridle ∈ ps)
    (h14 : Part.cmds ∈ ps) (h15 : Part.vols ∈ ps) (h16 : Part.params ∈ ps) (h17 : ∀ x, Part.afe x ∈ ps) (h18 : ∀ x,
    Part.rc x ∈ ps) (h19 : ∀ x, Part.dec x ∈ ps) (h20 : ∀ x, Part.wp x ∈ ps) (h21 : ∀ x, Part.srv x ∈ ps) (h22 : ∀ x,
    Part.spn x ∈ ps) (h23 : ∀ x, Part.sld x ∈ ps) (h24 : ∀ x, Part.seq x ∈ ps) (h25 : ∀ x, Part.held x ∈ ps)
    (h26 : Part.pool ∈ ps) (h27 : Part.hnd ∈ ps) (h28 : Part.stg ∈ ps) (h29 : Part.dram ∈ ps) (h30 : Part.mem ∈ ps)
    (h31 : Part.pair ∈ ps) (h32 : Part.out ∈ ps) (hx : execDeviceReset a0 key s = .next tn) :
    hide ps tn = hide ps s := by
  unfold execDeviceReset at hx
  repeat' split at hx
  all_goals
    obtain rfl := Host.Outcome.next.inj hx
    first | with_reducible rfl | simp only [hide_warmReset, implies_true, h0, h1, h2, h3, h4, h5, h6, h7, h8, h9, h10,
        h11, h12, h13, h14, h15, h16, h17, h18, h19, h20, h21, h22, h23, h24, h25, h26, h27, h28, h29, h30, h31, h32]

theorem hide_execFillDone {dram : DramFound} {s : State} {tn : State} (h0 : Part.mode ∈ ps) (h1 : Part.sys ∈ ps)
    (h2 : Part.raised ∈ ps) (h3 : Part.ev ∈ ps) (h4 : ∀ x, Part.queues x ∈ ps) (h5 : ∀ x, Part.msix x ∈ ps) (h6 : ∀ x,
    Part.mbx x ∈ ps) (h7 : ∀ x, Part.alarm x ∈ ps) (h8 : Part.cmds ∈ ps) (h9 : ∀ x, Part.afe x ∈ ps) (h10 : ∀ x,
    Part.rc x ∈ ps) (h11 : ∀ x, Part.wp x ∈ ps) (h12 : ∀ x, Part.srv x ∈ ps) (h13 : ∀ x, Part.seq x ∈ ps)
    (h14 : Part.hnd ∈ ps) (h15 : Part.stg ∈ ps) (h16 : Part.dram ∈ ps) (h17 : Part.mem ∈ ps) (h18 : Part.pair ∈ ps)
    (h19 : Part.out ∈ ps) (hx : execFillDone dram s = .next tn) :
    hide ps tn = hide ps s := by
  unfold execFillDone at hx
  repeat' split at hx
  all_goals
    obtain rfl := Host.Outcome.next.inj hx
    first | with_reducible rfl | simp only [hide_raiseAt, hide_setMode, hide_onSys, hide_onMem, true_or, or_true,
        or_self, implies_true, h0, h1, h2, h3, h4, h5, h6, h7, h8, h9, h10, h11, h12, h13, h14, h15, h16, h17, h18, h19]

theorem hide_execBootDone {o : BootObs} {s : State} {tn : State} (h0 : Part.sys ∈ ps) (h1 : Part.raised ∈ ps) (h2 : ∀ x,
    Part.alarm x ∈ ps) (h3 : Part.params ∈ ps) (h4 : Part.flash ∈ ps) (h5 : ∀ x, Part.srv x ∈ ps) (h6 : ∀ x,
    Part.seq x ∈ ps) (h7 : ∀ x, Part.held x ∈ ps) (h8 : Part.stg ∈ ps) (h9 : Part.mem ∈ ps) (h10 : Part.pair ∈ ps)
    (h11 : Part.out ∈ ps) (hx : execBootDone o s = .next tn) :
    hide ps tn = hide ps s := by
  have hc : hide ps (s.chooseSlot o.imageOk).2 = hide ps s := by simp only [hide_chooseSlot, implies_true, h0, h1, h2, h4]
  unfold execBootDone at hx
  split at hx
  · obtain rfl := Host.Outcome.next.inj hx; with_reducible rfl
  · split at hx
    · rename_i e
      rw [e] at hc
      obtain rfl := Host.Outcome.next.inj hx
      simp only [hc, hide_onSys, hide_raiseAt, or_true, implies_true, h0, h1, h2, h5]
    · rename_i k s1 e
      rw [e] at hc
      dsimp only at hx hc
      generalize e2 : s1.onSys _ = s2 at hx
      have g2 : hide ps s2 = hide ps s := by rw [← e2, hide_onSys (by assumption) (Or.inr rfl) (Or.inr rfl), hc]
      generalize e3 : s2.eachBay _ = s3 at hx
      have g3 : hide ps s3 = hide ps s := by
        rw [← e3, hide_eachBay, g2]
        intro t b
        simp only [hide_onBay, true_or, or_true, or_self, h5, h6, h7]
      generalize e4 : s3.raiseDev _ _ = s4 at hx
      have g4 : hide ps s4 = hide ps s := by rw [← e4, hide_raiseDev (by assumption) (by assumption), g3]
      generalize e5 : (if (decide (s1.sys.resetCause = 0) || decide (s1.stg.pages = 0)) = true then
        (s4.findNand o.nand).takeRecords else s4) = s5 at hx
      have g5 : hide ps s5 = hide ps s := by
        rw [← e5]
        split <;> simp only [hide_takeRecords, hide_findNand, g4, implies_true, h0, h1, h2, h4, h8, h9, h10, h11]
      generalize e6 : State.setMemRegs _ = s6 at hx
      have g6 : hide ps s6 = hide ps s := by
        rw [← e6]
        simp only [hide_setMemRegs, hide_writeLimits, hide_takeTrays, hide_carve, hide_onStg, g5, implies_true, h1, h2,
            h3, h6, h8, h9]
      split at hx
      · obtain rfl := Host.Outcome.next.inj hx
        rw [hide_onMem (by assumption) (Or.inr rfl), g6]
      · obtain rfl := Host.Outcome.next.inj hx
        exact g6

theorem hide_execWarmFlush {s : State} {tn : State} (h0 : Part.sys ∈ ps) (h1 : Part.raised ∈ ps) (h2 : Part.retry ∈ ps)
    (h3 : Part.ev ∈ ps) (h4 : ∀ x, Part.alarm x ∈ ps) (h5 : Part.cmds ∈ ps) (h6 : Part.stg ∈ ps) (h7 : Part.mem ∈ ps)
    (h8 : Part.out ∈ ps) (hx : execWarmFlush s = .next tn) :
    hide ps tn = hide ps s := by
  unfold execWarmFlush at hx
  repeat' split at hx
  all_goals
    obtain rfl := Host.Outcome.next.inj hx
    first | with_reducible rfl | simp only [hide_onSys, hide_flushAll, or_true, implies_true, h0, h1, h2, h3, h4, h5, h6,
        h7, h8]

theorem hide_execStagingRecovery {found : List RecoveredCluster} {s : State} {tn : State} (h0 : Part.mode ∈ ps)
    (h1 : Part.sys ∈ ps) (h2 : Part.raised ∈ ps) (h3 : Part.ev ∈ ps) (h4 : ∀ x, Part.queues x ∈ ps) (h5 : ∀ x,
    Part.msix x ∈ ps) (h6 : ∀ x, Part.mbx x ∈ ps) (h7 : ∀ x, Part.alarm x ∈ ps) (h8 : Part.cmds ∈ ps)
    (h9 : Part.vols ∈ ps) (h10 : Part.flash ∈ ps) (h11 : ∀ x, Part.afe x ∈ ps) (h12 : ∀ x, Part.rc x ∈ ps) (h13 : ∀ x,
    Part.wp x ∈ ps) (h14 : ∀ x, Part.srv x ∈ ps) (h15 : ∀ x, Part.seq x ∈ ps) (h16 : Part.hnd ∈ ps) (h17 : Part.stg ∈ ps)
    (h18 : Part.pair ∈ ps) (h19 : Part.out ∈ ps) (hx : execStagingRecovery found s = .next tn) :
    hide ps tn = hide ps s := by
  unfold execStagingRecovery at hx
  repeat' split at hx
  all_goals
    obtain rfl := Host.Outcome.next.inj hx
    first | with_reducible rfl | simp only [hide_judgeSpares, hide_judgeVent, hide_rebuild, hide_raiseDev, hide_onStg,
        hide_endBoot, implies_true, h0, h1, h2, h3, h4, h5, h6, h7, h8, h9, h10, h11, h12, h13, h14, h15, h16, h17, h18,
        h19]

theorem hide_execPwrfailAssert {s : State} {tn : State} (h0 : Part.mode ∈ ps) (h1 : Part.sys ∈ ps)
    (h2 : Part.raised ∈ ps) (h3 : Part.fwq ∈ ps) (h4 : Part.ev ∈ ps) (h5 : ∀ x, Part.queues x ∈ ps) (h6 : ∀ x,
    Part.msix x ∈ ps) (h7 : ∀ x, Part.mbx x ∈ ps) (h8 : ∀ x, Part.alarm x ∈ ps) (h9 : Part.cmds ∈ ps) (h10 : ∀ x,
    Part.afe x ∈ ps) (h11 : ∀ x, Part.rc x ∈ ps) (h12 : ∀ x, Part.dec x ∈ ps) (h13 : ∀ x, Part.wp x ∈ ps) (h14 : ∀ x,
    Part.srv x ∈ ps) (h15 : ∀ x, Part.spn x ∈ ps) (h16 : ∀ x, Part.seq x ∈ ps) (h17 : Part.pool ∈ ps)
    (h18 : Part.hnd ∈ ps) (h19 : Part.stg ∈ ps) (h20 : Part.mem ∈ ps) (h21 : Part.pair ∈ ps) (h22 : Part.out ∈ ps)
    (hx : execPwrfailAssert s = .next tn) :
    hide ps tn = hide ps s := by
  unfold execPwrfailAssert at hx
  repeat' split at hx
  all_goals
    obtain rfl := Host.Outcome.next.inj hx
    first | with_reducible rfl | simp only [hide_raiseDev, hide_onSys, hide_startVent, hide_cutAll, or_true, or_self,
        implies_true, h0, h1, h2, h3, h4, h5, h6, h7, h8, h9, h10, h11, h12, h13, h14, h15, h16, h17, h18, h19, h20, h21,
        h22]

theorem hide_execVentDone {s : State} {tn : State} (h0 : Part.mode ∈ ps) (h1 : Part.sys ∈ ps) (h2 : Part.raised ∈ ps)
    (h3 : Part.retry ∈ ps) (h4 : Part.ev ∈ ps) (h5 : ∀ x, Part.queues x ∈ ps) (h6 : ∀ x, Part.msix x ∈ ps) (h7 : ∀ x,
    Part.mbx x ∈ ps) (h8 : ∀ x, Part.alarm x ∈ ps) (h9 : Part.cmds ∈ ps) (h10 : ∀ x, Part.afe x ∈ ps) (h11 : ∀ x,
    Part.rc x ∈ ps) (h12 : ∀ x, Part.wp x ∈ ps) (h13 : ∀ x, Part.srv x ∈ ps) (h14 : ∀ x, Part.seq x ∈ ps)
    (h15 : Part.hnd ∈ ps) (h16 : Part.stg ∈ ps) (h17 : Part.mem ∈ ps) (h18 : Part.pair ∈ ps) (h19 : Part.out ∈ ps)
    (hx : execVentDone s = .next tn) :
    hide ps tn = hide ps s := by
  unfold execVentDone at hx
  dsimp only at hx
  repeat' split at hx
  all_goals
    obtain rfl := Host.Outcome.next.inj hx
    first | with_reducible rfl | simp only [hide_flushAll, hide_raiseDev, hide_onSys, hide_enterRipcord, or_true,
        or_self, implies_true, h0, h1, h2, h3, h4, h5, h6, h7, h8, h9, h10, h11, h12, h13, h14, h15, h16, h17, h18, h19]

theorem hide_execVentResume {s : State} {tn : State} (h0 : Part.mode ∈ ps) (h1 : Part.sys ∈ ps) (h2 : Part.raised ∈ ps)
    (h3 : Part.ev ∈ ps) (h4 : ∀ x, Part.queues x ∈ ps) (h5 : ∀ x, Part.msix x ∈ ps) (h6 : ∀ x, Part.mbx x ∈ ps)
    (h7 : ∀ x, Part.alarm x ∈ ps) (h8 : Part.cmds ∈ ps) (h9 : Part.flash ∈ ps) (h10 : ∀ x, Part.afe x ∈ ps) (h11 : ∀ x,
    Part.rc x ∈ ps) (h12 : ∀ x, Part.wp x ∈ ps) (h13 : ∀ x, Part.srv x ∈ ps) (h14 : ∀ x, Part.seq x ∈ ps)
    (h15 : Part.hnd ∈ ps) (h16 : Part.stg ∈ ps) (h17 : Part.mem ∈ ps) (h18 : Part.pair ∈ ps) (h19 : Part.out ∈ ps)
    (hx : execVentResume s = .next tn) :
    hide ps tn = hide ps s := by
  unfold execVentResume at hx
  dsimp only at hx
  repeat' split at hx
  all_goals
    obtain rfl := Host.Outcome.next.inj hx
    first | with_reducible rfl | simp only [hide_onStg, hide_onSys, hide_setMode, hide_gcStart, hide_resumePaired,
        or_true, or_self, implies_true, h0, h1, h2, h3, h4, h5, h6, h7, h8, h9, h10, h11, h12, h13, h14, h15, h16, h17,
        h18, h19]

theorem hide_execRefclkLoss {s : State} {tn : State} (h0 : Part.mode ∈ ps) (h1 : Part.sys ∈ ps) (h2 : Part.raised ∈ ps)
    (h3 : Part.fwq ∈ ps) (h4 : Part.ev ∈ ps) (h5 : ∀ x, Part.queues x ∈ ps) (h6 : ∀ x, Part.msix x ∈ ps) (h7 : ∀ x,
    Part.mbx x ∈ ps) (h8 : ∀ x, Part.alarm x ∈ ps) (h9 : Part.cmds ∈ ps) (h10 : ∀ x, Part.afe x ∈ ps) (h11 : ∀ x,
    Part.rc x ∈ ps) (h12 : ∀ x, Part.dec x ∈ ps) (h13 : ∀ x, Part.wp x ∈ ps) (h14 : ∀ x, Part.srv x ∈ ps) (h15 : ∀ x,
    Part.spn x ∈ ps) (h16 : ∀ x, Part.sld x ∈ ps) (h17 : ∀ x, Part.seq x ∈ ps) (h18 : Part.pool ∈ ps)
    (h19 : Part.hnd ∈ ps) (h20 : Part.stg ∈ ps) (h21 : Part.mem ∈ ps) (h22 : Part.pair ∈ ps) (h23 : Part.out ∈ ps)
    (hx : execRefclkLoss s = .next tn) :
    hide ps tn = hide ps s := by
  unfold execRefclkLoss at hx
  repeat' split at hx
  all_goals
    obtain rfl := Host.Outcome.next.inj hx
    first | with_reducible rfl | simp only [hide_raiseDev, hide_onSys, hide_ripcord, or_true, or_self, implies_true, h0,
        h1, h2, h3, h4, h5, h6, h7, h8, h9, h10, h11, h12, h13, h14, h15, h16, h17, h18, h19, h20, h21, h22, h23]

theorem hide_execRootPllLoss {s : State} {tn : State} (h0 : Part.mode ∈ ps) (h1 : Part.sys ∈ ps) (h2 : Part.raised ∈ ps)
    (h3 : Part.fwq ∈ ps) (h4 : Part.ev ∈ ps) (h5 : ∀ x, Part.queues x ∈ ps) (h6 : ∀ x, Part.msix x ∈ ps) (h7 : ∀ x,
    Part.mbx x ∈ ps) (h8 : ∀ x, Part.alarm x ∈ ps) (h9 : Part.cmds ∈ ps) (h10 : ∀ x, Part.afe x ∈ ps) (h11 : ∀ x,
    Part.rc x ∈ ps) (h12 : ∀ x, Part.dec x ∈ ps) (h13 : ∀ x, Part.wp x ∈ ps) (h14 : ∀ x, Part.srv x ∈ ps) (h15 : ∀ x,
    Part.spn x ∈ ps) (h16 : ∀ x, Part.sld x ∈ ps) (h17 : ∀ x, Part.seq x ∈ ps) (h18 : Part.pool ∈ ps)
    (h19 : Part.hnd ∈ ps) (h20 : Part.stg ∈ ps) (h21 : Part.mem ∈ ps) (h22 : Part.pair ∈ ps) (h23 : Part.out ∈ ps)
    (hx : execRootPllLoss s = .next tn) :
    hide ps tn = hide ps s := by
  unfold execRootPllLoss at hx
  repeat' split at hx
  all_goals
    obtain rfl := Host.Outcome.next.inj hx
    first | with_reducible rfl | simp only [hide_onSys, hide_pllLoss, hide_eachBay, hide_rootCoast, hide_ripcord,
        or_true, or_self, implies_true, h0, h1, h2, h3, h4, h5, h6, h7, h8, h9, h10, h11, h12, h13, h14, h15, h16, h17,
        h18, h19, h20, h21, h22, h23]

theorem hide_execDdrPllLoss {s : State} {tn : State} (h0 : Part.sys ∈ ps) (h1 : Part.raised ∈ ps) (h2 : ∀ x,
    Part.alarm x ∈ ps) (hx : execDdrPllLoss s = .next tn) :
    hide ps tn = hide ps s := by
  unfold execDdrPllLoss at hx
  repeat' split at hx
  all_goals
    obtain rfl := Host.Outcome.next.inj hx
    first | with_reducible rfl | simp only [hide_pllLoss, implies_true, h0, h1, h2]

theorem hide_execNandPllLoss {s : State} {tn : State} (h0 : Part.sys ∈ ps) (h1 : Part.raised ∈ ps) (h2 : ∀ x,
    Part.alarm x ∈ ps) (hx : execNandPllLoss s = .next tn) :
    hide ps tn = hide ps s := by
  unfold execNandPllLoss at hx
  repeat' split at hx
  all_goals
    obtain rfl := Host.Outcome.next.inj hx
    first | with_reducible rfl | simp only [hide_onSys, hide_pllLoss, or_true, implies_true, h0, h1, h2]

theorem hide_execPciePllLoss {s : State} {tn : State} (h0 : Part.sys ∈ ps) (h1 : Part.raised ∈ ps) (h2 : ∀ x,
    Part.alarm x ∈ ps) (h3 : ∀ x, Part.link x ∈ ps) (hx : execPciePllLoss s = .next tn) :
    hide ps tn = hide ps s := by
  unfold execPciePllLoss at hx
  repeat' split at hx
  all_goals
    obtain rfl := Host.Outcome.next.inj hx
    first | with_reducible rfl | simp only [hide_eachPort, hide_pllLoss, hide_linkDown, implies_true, h0, h1, h2, h3]

theorem hide_execTetherPllLoss {s : State} {tn : State} (h0 : Part.sys ∈ ps) (h1 : Part.raised ∈ ps) (h2 : ∀ x,
    Part.queues x ∈ ps) (h3 : ∀ x, Part.msix x ∈ ps) (h4 : ∀ x, Part.mbx x ∈ ps) (h5 : ∀ x, Part.alarm x ∈ ps)
    (h6 : Part.vols ∈ ps) (h7 : Part.stg ∈ ps) (h8 : Part.mem ∈ ps) (h9 : Part.pair ∈ ps) (h10 : Part.out ∈ ps)
    (hx : execTetherPllLoss s = .next tn) :
    hide ps tn = hide ps s := by
  unfold execTetherPllLoss at hx
  repeat' split at hx
  all_goals
    obtain rfl := Host.Outcome.next.inj hx
    first | with_reducible rfl | simp only [hide_tetherStops, hide_pllLoss, implies_true, h0, h1, h2, h3, h4, h5, h6, h7,
        h8, h9, h10]

theorem hide_execPllLock {s : State} {tn : State} (h0 : Part.mode ∈ ps) (h1 : Part.free ∈ ps) (h2 : Part.sys ∈ ps)
    (h3 : Part.raised ∈ ps) (h4 : Part.fwq ∈ ps) (h5 : Part.retry ∈ ps) (h6 : Part.ev ∈ ps) (h7 : ∀ x,
    Part.queues x ∈ ps) (h8 : ∀ x, Part.msix x ∈ ps) (h9 : ∀ x, Part.mbx x ∈ ps) (h10 : ∀ x, Part.ring x ∈ ps)
    (h11 : ∀ x, Part.alarm x ∈ ps) (h12 : ∀ x, Part.link x ∈ ps) (h13 : Part.bridle ∈ ps) (h14 : Part.cmds ∈ ps)
    (h15 : Part.vols ∈ ps) (h16 : Part.params ∈ ps) (h17 : ∀ x, Part.afe x ∈ ps) (h18 : ∀ x, Part.rc x ∈ ps) (h19 : ∀ x,
    Part.dec x ∈ ps) (h20 : ∀ x, Part.wp x ∈ ps) (h21 : ∀ x, Part.srv x ∈ ps) (h22 : ∀ x, Part.spn x ∈ ps) (h23 : ∀ x,
    Part.sld x ∈ ps) (h24 : ∀ x, Part.seq x ∈ ps) (h25 : ∀ x, Part.held x ∈ ps) (h26 : Part.pool ∈ ps)
    (h27 : Part.hnd ∈ ps) (h28 : Part.stg ∈ ps) (h29 : Part.dram ∈ ps) (h30 : Part.mem ∈ ps) (h31 : Part.pair ∈ ps)
    (h32 : Part.out ∈ ps) (hx : execPllLock s = .next tn) :
    hide ps tn = hide ps s := by
  unfold execPllLock at hx
  repeat' split at hx
  all_goals
    obtain rfl := Host.Outcome.next.inj hx
    first | with_reducible rfl | simp only [hide_onSys, hide_warmReset, or_self, implies_true, h0, h1, h2, h3, h4, h5,
        h6, h7, h8, h9, h10, h11, h12, h13, h14, h15, h16, h17, h18, h19, h20, h21, h22, h23, h24, h25, h26, h27, h28,
        h29, h30, h31, h32]

theorem hide_execWatchdogService {c : CoreNo} {s : State} {tn : State} (h0 : Part.sys ∈ ps)
    (hx : execWatchdogService c s = .next tn) :
    hide ps tn = hide ps s := by
  unfold execWatchdogService at hx
  repeat' split at hx
  all_goals
    obtain rfl := Host.Outcome.next.inj hx
    first | with_reducible rfl | simp only [hide_onSys, or_true, h0]

theorem hide_execKeelWatchdogExpiry {s : State} {tn : State} (h0 : Part.mode ∈ ps) (h1 : Part.sys ∈ ps)
    (h2 : Part.raised ∈ ps) (h3 : Part.fwq ∈ ps) (h4 : Part.ev ∈ ps) (h5 : ∀ x, Part.queues x ∈ ps) (h6 : ∀ x,
    Part.msix x ∈ ps) (h7 : ∀ x, Part.mbx x ∈ ps) (h8 : ∀ x, Part.alarm x ∈ ps) (h9 : Part.cmds ∈ ps) (h10 : ∀ x,
    Part.afe x ∈ ps) (h11 : ∀ x, Part.rc x ∈ ps) (h12 : ∀ x, Part.dec x ∈ ps) (h13 : ∀ x, Part.wp x ∈ ps) (h14 : ∀ x,
    Part.srv x ∈ ps) (h15 : ∀ x, Part.spn x ∈ ps) (h16 : ∀ x, Part.sld x ∈ ps) (h17 : ∀ x, Part.seq x ∈ ps)
    (h18 : Part.pool ∈ ps) (h19 : Part.hnd ∈ ps) (h20 : Part.stg ∈ ps) (h21 : Part.mem ∈ ps) (h22 : Part.pair ∈ ps)
    (h23 : Part.out ∈ ps) (hx : execKeelWatchdogExpiry s = .next tn) :
    hide ps tn = hide ps s := by
  unfold execKeelWatchdogExpiry at hx
  repeat' split at hx
  all_goals
    obtain rfl := Host.Outcome.next.inj hx
    first | with_reducible rfl | simp only [hide_onSys, hide_ripcord, or_true, or_self, implies_true, h0, h1, h2, h3, h4,
        h5, h6, h7, h8, h9, h10, h11, h12, h13, h14, h15, h16, h17, h18, h19, h20, h21, h22, h23]

theorem hide_execLockstepMismatch {s : State} {tn : State} (h0 : Part.mode ∈ ps) (h1 : Part.sys ∈ ps)
    (h2 : Part.raised ∈ ps) (h3 : Part.fwq ∈ ps) (h4 : Part.ev ∈ ps) (h5 : ∀ x, Part.queues x ∈ ps) (h6 : ∀ x,
    Part.msix x ∈ ps) (h7 : ∀ x, Part.mbx x ∈ ps) (h8 : ∀ x, Part.alarm x ∈ ps) (h9 : Part.cmds ∈ ps) (h10 : ∀ x,
    Part.afe x ∈ ps) (h11 : ∀ x, Part.rc x ∈ ps) (h12 : ∀ x, Part.dec x ∈ ps) (h13 : ∀ x, Part.wp x ∈ ps) (h14 : ∀ x,
    Part.srv x ∈ ps) (h15 : ∀ x, Part.spn x ∈ ps) (h16 : ∀ x, Part.sld x ∈ ps) (h17 : ∀ x, Part.seq x ∈ ps)
    (h18 : Part.pool ∈ ps) (h19 : Part.hnd ∈ ps) (h20 : Part.stg ∈ ps) (h21 : Part.mem ∈ ps) (h22 : Part.pair ∈ ps)
    (h23 : Part.out ∈ ps) (hx : execLockstepMismatch s = .next tn) :
    hide ps tn = hide ps s := by
  unfold execLockstepMismatch at hx
  repeat' split at hx
  all_goals
    obtain rfl := Host.Outcome.next.inj hx
    first | with_reducible rfl | simp only [hide_onSys, hide_ripcord, or_true, or_self, implies_true, h0, h1, h2, h3, h4,
        h5, h6, h7, h8, h9, h10, h11, h12, h13, h14, h15, h16, h17, h18, h19, h20, h21, h22, h23]

theorem hide_execRipcordParkEnd {s : State} {tn : State} (h0 : Part.sys ∈ ps) (hx : execRipcordParkEnd s = .next tn) :
    hide ps tn = hide ps s := by
  unfold execRipcordParkEnd at hx
  repeat' split at hx
  all_goals
    obtain rfl := Host.Outcome.next.inj hx
    first | with_reducible rfl | simp only [hide_onSys, or_true, h0]

theorem hide_execRipcordHoldExpiry {s : State} {tn : State} (h0 : Part.mode ∈ ps) (h1 : Part.free ∈ ps)
    (h2 : Part.sys ∈ ps) (h3 : Part.raised ∈ ps) (h4 : Part.fwq ∈ ps) (h5 : Part.retry ∈ ps) (h6 : Part.ev ∈ ps)
    (h7 : ∀ x, Part.queues x ∈ ps) (h8 : ∀ x, Part.msix x ∈ ps) (h9 : ∀ x, Part.mbx x ∈ ps) (h10 : ∀ x, Part.ring x ∈ ps)
    (h11 : ∀ x, Part.alarm x ∈ ps) (h12 : ∀ x, Part.link x ∈ ps) (h13 : Part.bridle ∈ ps) (h14 : Part.cmds ∈ ps)
    (h15 : Part.vols ∈ ps) (h16 : Part.params ∈ ps) (h17 : ∀ x, Part.afe x ∈ ps) (h18 : ∀ x, Part.rc x ∈ ps) (h19 : ∀ x,
    Part.dec x ∈ ps) (h20 : ∀ x, Part.wp x ∈ ps) (h21 : ∀ x, Part.srv x ∈ ps) (h22 : ∀ x, Part.spn x ∈ ps) (h23 : ∀ x,
    Part.sld x ∈ ps) (h24 : ∀ x, Part.seq x ∈ ps) (h25 : ∀ x, Part.held x ∈ ps) (h26 : Part.pool ∈ ps)
    (h27 : Part.hnd ∈ ps) (h28 : Part.stg ∈ ps) (h29 : Part.dram ∈ ps) (h30 : Part.mem ∈ ps) (h31 : Part.pair ∈ ps)
    (h32 : Part.out ∈ ps) (hx : execRipcordHoldExpiry s = .next tn) :
    hide ps tn = hide ps s := by
  unfold execRipcordHoldExpiry at hx
  repeat' split at hx
  all_goals
    obtain rfl := Host.Outcome.next.inj hx
    first | with_reducible rfl | simp only [hide_warmReset, implies_true, h0, h1, h2, h3, h4, h5, h6, h7, h8, h9, h10,
        h11, h12, h13, h14, h15, h16, h17, h18, h19, h20, h21, h22, h23, h24, h25, h26, h27, h28, h29, h30, h31, h32]

theorem hide_execEngineStall {e : EngineId} {s : State} {tn : State} (h0 : Part.sys ∈ ps) (h1 : Part.raised ∈ ps)
    (h2 : Part.fwq ∈ ps) (h3 : ∀ x, Part.alarm x ∈ ps) (h4 : ∀ x, Part.dec x ∈ ps) (h5 : ∀ x, Part.wp x ∈ ps) (h6 : ∀ x,
    Part.srv x ∈ ps) (h7 : ∀ x, Part.seq x ∈ ps) (h8 : ∀ x, Part.held x ∈ ps) (h9 : Part.pool ∈ ps) (h10 : Part.mem ∈ ps)
    (h11 : Part.out ∈ ps) (hx : execEngineStall e s = .next tn) :
    hide ps tn = hide ps s := by
  unfold execEngineStall at hx
  repeat' split at hx
  all_goals
    obtain rfl := Host.Outcome.next.inj hx
    first | with_reducible rfl | simp only [hide_raiseDev, hide_holdEngine, hide_cutGate, implies_true, h0, h1, h2, h3,
        h4, h5, h6, h7, h8, h9, h10, h11]

theorem hide_execEngineRestart {e : EngineId} {s : State} {tn : State} (h0 : Part.sys ∈ ps) (h1 : Part.raised ∈ ps)
    (h2 : Part.fwq ∈ ps) (h3 : ∀ x, Part.alarm x ∈ ps) (h4 : ∀ x, Part.afe x ∈ ps) (h5 : ∀ x, Part.rc x ∈ ps) (h6 : ∀ x,
    Part.dec x ∈ ps) (h7 : ∀ x, Part.wp x ∈ ps) (h8 : ∀ x, Part.srv x ∈ ps) (h9 : ∀ x, Part.spn x ∈ ps) (h10 : ∀ x,
    Part.sld x ∈ ps) (h11 : ∀ x, Part.seq x ∈ ps) (h12 : ∀ x, Part.held x ∈ ps) (h13 : Part.pool ∈ ps)
    (h14 : Part.mem ∈ ps) (h15 : Part.pair ∈ ps) (h16 : Part.out ∈ ps) (hx : execEngineRestart e s = .next tn) :
    hide ps tn = hide ps s := by
  unfold execEngineRestart at hx
  repeat' split at hx
  all_goals
    obtain rfl := Host.Outcome.next.inj hx
    first | with_reducible rfl | simp only [hide_holdEngine, hide_faultBay, implies_true, h0, h1, h2, h3, h4, h5, h6, h7,
        h8, h9, h10, h11, h12, h13, h14, h15, h16]

theorem hide_execActivationResume {s : State} {tn : State} (h0 : Part.mode ∈ ps) (h1 : Part.sys ∈ ps)
    (h2 : Part.raised ∈ ps) (h3 : Part.ev ∈ ps) (h4 : ∀ x, Part.queues x ∈ ps) (h5 : ∀ x, Part.msix x ∈ ps) (h6 : ∀ x,
    Part.mbx x ∈ ps) (h7 : ∀ x, Part.alarm x ∈ ps) (h8 : Part.cmds ∈ ps) (h9 : Part.vols ∈ ps) (h10 : Part.flash ∈ ps)
    (h11 : ∀ x, Part.afe x ∈ ps) (h12 : ∀ x, Part.rc x ∈ ps) (h13 : ∀ x, Part.wp x ∈ ps) (h14 : ∀ x, Part.srv x ∈ ps)
    (h15 : ∀ x, Part.seq x ∈ ps) (h16 : Part.hnd ∈ ps) (h17 : Part.stg ∈ ps) (h18 : Part.mem ∈ ps) (h19 : Part.pair ∈ ps)
    (h20 : Part.out ∈ ps) (hx : execActivationResume s = .next tn) :
    hide ps tn = hide ps s := by
  unfold execActivationResume at hx
  dsimp only at hx
  repeat' split at hx
  all_goals
    obtain rfl := Host.Outcome.next.inj hx
    first | with_reducible rfl | simp only [hide_onStg, hide_tellRole, hide_send, hide_raiseDev, hide_onPair,
        hide_loadImage, hide_markValid, hide_returnTo, hide_respondRun, hide_setVols, implies_true, h0, h1, h2, h3, h4,
        h5, h6, h7, h8, h9, h10, h11, h12, h13, h14, h15, h16, h17, h18, h19, h20]

theorem hide_execActivationTimeout {s : State} {tn : State} (h0 : Part.mode ∈ ps) (h1 : Part.free ∈ ps)
    (h2 : Part.sys ∈ ps) (h3 : Part.raised ∈ ps) (h4 : Part.fwq ∈ ps) (h5 : Part.retry ∈ ps) (h6 : Part.ev ∈ ps)
    (h7 : ∀ x, Part.queues x ∈ ps) (h8 : ∀ x, Part.msix x ∈ ps) (h9 : ∀ x, Part.mbx x ∈ ps) (h10 : ∀ x, Part.ring x ∈ ps)
    (h11 : ∀ x, Part.alarm x ∈ ps) (h12 : ∀ x, Part.link x ∈ ps) (h13 : Part.bridle ∈ ps) (h14 : Part.cmds ∈ ps)
    (h15 : Part.vols ∈ ps) (h16 : Part.params ∈ ps) (h17 : ∀ x, Part.afe x ∈ ps) (h18 : ∀ x, Part.rc x ∈ ps) (h19 : ∀ x,
    Part.dec x ∈ ps) (h20 : ∀ x, Part.wp x ∈ ps) (h21 : ∀ x, Part.srv x ∈ ps) (h22 : ∀ x, Part.spn x ∈ ps) (h23 : ∀ x,
    Part.sld x ∈ ps) (h24 : ∀ x, Part.seq x ∈ ps) (h25 : ∀ x, Part.held x ∈ ps) (h26 : Part.pool ∈ ps)
    (h27 : Part.hnd ∈ ps) (h28 : Part.stg ∈ ps) (h29 : Part.dram ∈ ps) (h30 : Part.mem ∈ ps) (h31 : Part.pair ∈ ps)
    (h32 : Part.out ∈ ps) (hx : execActivationTimeout s = .next tn) :
    hide ps tn = hide ps s := by
  unfold execActivationTimeout at hx
  repeat' split at hx
  all_goals
    obtain rfl := Host.Outcome.next.inj hx
    first | with_reducible rfl | simp only [hide_warmReset, implies_true, h0, h1, h2, h3, h4, h5, h6, h7, h8, h9, h10,
        h11, h12, h13, h14, h15, h16, h17, h18, h19, h20, h21, h22, h23, h24, h25, h26, h27, h28, h29, h30, h31, h32]

theorem hide_execHoldupSample {code : BitVec 10} {s : State} {tn : State} (h0 : Part.sys ∈ ps) (h1 : Part.raised ∈ ps)
    (h2 : ∀ x, Part.alarm x ∈ ps) (hx : execHoldupSample code s = .next tn) :
    hide ps tn = hide ps s := by
  unfold execHoldupSample at hx
  dsimp only at hx
  repeat' split at hx
  all_goals
    obtain rfl := Host.Outcome.next.inj hx
    first | with_reducible rfl | simp only [hide_onSys, hide_raiseDev, or_true, implies_true, h0, h1, h2]

theorem hide_execJunctionSample {t : Int} {s : State} {tn : State} (h0 : Part.sys ∈ ps) (h1 : Part.raised ∈ ps)
    (h2 : ∀ x, Part.alarm x ∈ ps) (hx : execJunctionSample t s = .next tn) :
    hide ps tn = hide ps s := by
  unfold execJunctionSample at hx
  dsimp only at hx
  repeat' split at hx
  all_goals
    obtain rfl := Host.Outcome.next.inj hx
    first | with_reducible rfl | simp only [hide_onSys, hide_raiseDev, or_true, implies_true, h0, h1, h2]

/-! ### Settings -/

theorem hide_execSetParameter {p : Port} {buf : BufRead} {s : State} {tn : State} (h0 : Part.sys ∈ ps)
    (h1 : Part.raised ∈ ps) (h2 : Part.queues p ∈ ps) (h3 : Part.msix p ∈ ps) (h4 : Part.mbx p ∈ ps) (h5 : ∀ x,
    Part.alarm x ∈ ps) (h6 : Part.params ∈ ps) (h7 : ∀ x, Part.srv x ∈ ps) (h8 : Part.stg ∈ ps) (h9 : Part.mem ∈ ps)
    (h10 : Part.out ∈ ps) (hx : execSetParameter p buf s = .next tn) :
    hide ps tn = hide ps s := by
  unfold execSetParameter at hx
  obtain rfl := Host.Outcome.next.inj hx
  refine hide_serve h0 h2 h3 h4 h10 (fun t r => ?_)
  repeat' split
  all_goals first | with_reducible rfl | simp only [hide_respond, hide_setLong, hide_afterAccept, hide_accept, ite_self,
      implies_true, hide_ite, h0, h1, h2, h3, h4, h5, h6, h7, h8, h9, h10]

theorem hide_execGetParameter {p : Port} {s : State} {tn : State} (h0 : Part.sys ∈ ps) (h1 : Part.queues p ∈ ps)
    (h2 : Part.msix p ∈ ps) (h3 : Part.mbx p ∈ ps) (h4 : Part.out ∈ ps) (hx : execGetParameter p s = .next tn) :
    hide ps tn = hide ps s := by
  unfold execGetParameter at hx
  obtain rfl := Host.Outcome.next.inj hx
  refine hide_serve h0 h1 h2 h3 h4 (fun t r => ?_)
  repeat' split
  all_goals first | with_reducible rfl | simp only [hide_respond, h1, h2, h3, h4]

theorem hide_execPolicySet {p : Port} {s : State} {tn : State} (h0 : Part.sys ∈ ps) (h1 : Part.queues p ∈ ps)
    (h2 : Part.msix p ∈ ps) (h3 : Part.mbx p ∈ ps) (h4 : Part.params ∈ ps) (h5 : Part.out ∈ ps)
    (hx : execPolicySet p s = .next tn) :
    hide ps tn = hide ps s := by
  unfold execPolicySet at hx
  obtain rfl := Host.Outcome.next.inj hx
  refine hide_serve h0 h1 h2 h3 h5 (fun t r => ?_)
  split
  · rw [hide_respond (by assumption) (by assumption) (by assumption) (by assumption), hide_foldl]
    intro u k
    split
    · simp only [hide_accept, h4]
    · with_reducible rfl
  · simp only [hide_respond, h1, h2, h3, h5]

theorem hide_execModeReqCalibrate {p : Port} {s : State} {tn : State} (h0 : Part.mode ∈ ps) (h1 : Part.sys ∈ ps)
    (h2 : Part.raised ∈ ps) (h3 : Part.ev ∈ ps) (h4 : ∀ x, Part.queues x ∈ ps) (h5 : ∀ x, Part.msix x ∈ ps) (h6 : ∀ x,
    Part.mbx x ∈ ps) (h7 : ∀ x, Part.alarm x ∈ ps) (h8 : Part.cmds ∈ ps) (h9 : Part.params ∈ ps) (h10 : ∀ x,
    Part.afe x ∈ ps) (h11 : ∀ x, Part.rc x ∈ ps) (h12 : ∀ x, Part.wp x ∈ ps) (h13 : ∀ x, Part.srv x ∈ ps) (h14 : ∀ x,
    Part.seq x ∈ ps) (h15 : Part.hnd ∈ ps) (h16 : Part.stg ∈ ps) (h17 : Part.pair ∈ ps) (h18 : Part.out ∈ ps)
    (hx : execModeReqCalibrate p s = .next tn) :
    hide ps tn = hide ps s := by
  unfold execModeReqCalibrate at hx
  obtain rfl := Host.Outcome.next.inj hx
  simp only [hide_serve, hide_respond, hide_allDue, hide_setMode, hide_modeAccepted, ite_self, implies_true, hide_ite,
      h0, h1, h2, h3, h4, h5, h6, h7, h8, h9, h10, h11, h12, h13, h14, h15, h16, h17, h18]

theorem hide_execModeReqQuiesce {p : Port} {s : State} {tn : State} (h0 : Part.mode ∈ ps) (h1 : Part.sys ∈ ps)
    (h2 : Part.raised ∈ ps) (h3 : Part.ev ∈ ps) (h4 : ∀ x, Part.queues x ∈ ps) (h5 : ∀ x, Part.msix x ∈ ps) (h6 : ∀ x,
    Part.mbx x ∈ ps) (h7 : ∀ x, Part.alarm x ∈ ps) (h8 : Part.cmds ∈ ps) (h9 : Part.params ∈ ps) (h10 : ∀ x,
    Part.afe x ∈ ps) (h11 : ∀ x, Part.rc x ∈ ps) (h12 : ∀ x, Part.wp x ∈ ps) (h13 : ∀ x, Part.srv x ∈ ps) (h14 : ∀ x,
    Part.seq x ∈ ps) (h15 : Part.hnd ∈ ps) (h16 : Part.stg ∈ ps) (h17 : Part.pair ∈ ps) (h18 : Part.out ∈ ps)
    (hx : execModeReqQuiesce p s = .next tn) :
    hide ps tn = hide ps s := by
  unfold execModeReqQuiesce at hx
  obtain rfl := Host.Outcome.next.inj hx
  simp only [hide_serve, hide_respond, hide_setMode, hide_onSys, hide_modeAccepted, ite_self, or_true, or_self,
      implies_true, hide_ite, h0, h1, h2, h3, h4, h5, h6, h7, h8, h9, h10, h11, h12, h13, h14, h15, h16, h17, h18]

theorem hide_execModeReqDiagnostic {p : Port} {s : State} {tn : State} (h0 : Part.mode ∈ ps) (h1 : Part.sys ∈ ps)
    (h2 : Part.raised ∈ ps) (h3 : Part.ev ∈ ps) (h4 : ∀ x, Part.queues x ∈ ps) (h5 : ∀ x, Part.msix x ∈ ps) (h6 : ∀ x,
    Part.mbx x ∈ ps) (h7 : ∀ x, Part.alarm x ∈ ps) (h8 : Part.cmds ∈ ps) (h9 : Part.params ∈ ps) (h10 : ∀ x,
    Part.afe x ∈ ps) (h11 : ∀ x, Part.rc x ∈ ps) (h12 : ∀ x, Part.wp x ∈ ps) (h13 : ∀ x, Part.srv x ∈ ps) (h14 : ∀ x,
    Part.seq x ∈ ps) (h15 : Part.hnd ∈ ps) (h16 : Part.stg ∈ ps) (h17 : Part.pair ∈ ps) (h18 : Part.out ∈ ps)
    (hx : execModeReqDiagnostic p s = .next tn) :
    hide ps tn = hide ps s := by
  unfold execModeReqDiagnostic at hx
  obtain rfl := Host.Outcome.next.inj hx
  simp only [hide_serve, hide_respond, hide_setMode, hide_modeAccepted, ite_self, implies_true, hide_ite, h0, h1, h2, h3,
      h4, h5, h6, h7, h8, h9, h10, h11, h12, h13, h14, h15, h16, h17, h18]

theorem hide_execModeReqServe {p : Port} {s : State} {tn : State} (h0 : Part.mode ∈ ps) (h1 : Part.sys ∈ ps)
    (h2 : Part.raised ∈ ps) (h3 : Part.ev ∈ ps) (h4 : ∀ x, Part.queues x ∈ ps) (h5 : ∀ x, Part.msix x ∈ ps) (h6 : ∀ x,
    Part.mbx x ∈ ps) (h7 : ∀ x, Part.alarm x ∈ ps) (h8 : Part.cmds ∈ ps) (h9 : Part.params ∈ ps) (h10 : ∀ x,
    Part.afe x ∈ ps) (h11 : ∀ x, Part.rc x ∈ ps) (h12 : ∀ x, Part.wp x ∈ ps) (h13 : ∀ x, Part.srv x ∈ ps) (h14 : ∀ x,
    Part.seq x ∈ ps) (h15 : Part.hnd ∈ ps) (h16 : Part.stg ∈ ps) (h17 : Part.mem ∈ ps) (h18 : Part.pair ∈ ps)
    (h19 : Part.out ∈ ps) (hx : execModeReqServe p s = .next tn) :
    hide ps tn = hide ps s := by
  unfold execModeReqServe at hx
  obtain rfl := Host.Outcome.next.inj hx
  refine hide_serve h1 (h4 p) (h5 p) (h6 p) h19 (fun t r => ?_)
  repeat' split
  all_goals first | with_reducible rfl | simp only [hide_modeAccepted, hide_respond, hide_setMode, hide_returnTo,
      implies_true, h0, h1, h2, h3, h4, h5, h6, h7, h8, h9, h10, h11, h12, h13, h14, h15, h16, h17, h18, h19]

theorem hide_execCalibrationComplete {s : State} {tn : State} (h0 : Part.mode ∈ ps) (h1 : Part.sys ∈ ps)
    (h2 : Part.raised ∈ ps) (h3 : Part.ev ∈ ps) (h4 : ∀ x, Part.queues x ∈ ps) (h5 : ∀ x, Part.msix x ∈ ps) (h6 : ∀ x,
    Part.mbx x ∈ ps) (h7 : ∀ x, Part.alarm x ∈ ps) (h8 : Part.cmds ∈ ps) (h9 : ∀ x, Part.afe x ∈ ps) (h10 : ∀ x,
    Part.rc x ∈ ps) (h11 : ∀ x, Part.wp x ∈ ps) (h12 : ∀ x, Part.srv x ∈ ps) (h13 : ∀ x, Part.seq x ∈ ps)
    (h14 : Part.hnd ∈ ps) (h15 : Part.stg ∈ ps) (h16 : Part.pair ∈ ps) (h17 : Part.out ∈ ps)
    (hx : execCalibrationComplete s = .next tn) :
    hide ps tn = hide ps s := by
  unfold execCalibrationComplete at hx
  repeat' split at hx
  all_goals
    obtain rfl := Host.Outcome.next.inj hx
    first | with_reducible rfl | simp only [hide_setMode, implies_true, h0, h1, h2, h3, h4, h5, h6, h7, h8, h9, h10, h11,
        h12, h13, h14, h15, h16, h17]

theorem hide_execCalReq {p : Port} {s : State} {tn : State} (h0 : Part.sys ∈ ps) (h1 : Part.queues p ∈ ps)
    (h2 : Part.msix p ∈ ps) (h3 : Part.mbx p ∈ ps) (h4 : ∀ x, Part.afe x ∈ ps) (h5 : Part.out ∈ ps)
    (hx : execCalReq p s = .next tn) :
    hide ps tn = hide ps s := by
  unfold execCalReq at hx
  obtain rfl := Host.Outcome.next.inj hx
  simp only [hide_serveBaySet, hide_onAfe, implies_true, h0, h1, h2, h3, h4, h5]

theorem hide_execOpcReq {p : Port} {s : State} {tn : State} (h0 : Part.sys ∈ ps) (h1 : Part.queues p ∈ ps)
    (h2 : Part.msix p ∈ ps) (h3 : Part.mbx p ∈ ps) (h4 : ∀ x, Part.wp x ∈ ps) (h5 : Part.out ∈ ps)
    (hx : execOpcReq p s = .next tn) :
    hide ps tn = hide ps s := by
  unfold execOpcReq at hx
  obtain rfl := Host.Outcome.next.inj hx
  simp only [hide_serveBaySet, hide_onWp, implies_true, h0, h1, h2, h3, h4, h5]

theorem hide_execBayReturn {p : Port} {s : State} {tn : State} (h0 : Part.sys ∈ ps) (h1 : Part.raised ∈ ps)
    (h2 : Part.queues p ∈ ps) (h3 : Part.msix p ∈ ps) (h4 : Part.mbx p ∈ ps) (h5 : ∀ x, Part.alarm x ∈ ps) (h6 : ∀ x,
    Part.afe x ∈ ps) (h7 : ∀ x, Part.rc x ∈ ps) (h8 : ∀ x, Part.wp x ∈ ps) (h9 : ∀ x, Part.srv x ∈ ps) (h10 : ∀ x,
    Part.seq x ∈ ps) (h11 : Part.pair ∈ ps) (h12 : Part.out ∈ ps) (hx : execBayReturn p s = .next tn) :
    hide ps tn = hide ps s := by
  unfold execBayReturn at hx
  obtain rfl := Host.Outcome.next.inj hx
  refine hide_serveBaySet h0 h2 h3 h4 h12 (fun t b v => ?_)
  repeat' split
  all_goals first | with_reducible rfl | simp only [hide_onSeq, hide_setBaySt, implies_true, h0, h1, h5, h6, h7, h8, h9,
      h10, h11, h12]

theorem hide_execHndReturn {p : Port} {s : State} {tn : State} (h0 : Part.sys ∈ ps) (h1 : Part.queues p ∈ ps)
    (h2 : Part.msix p ∈ ps) (h3 : Part.mbx p ∈ ps) (h4 : Part.hnd ∈ ps) (h5 : Part.out ∈ ps)
    (hx : execHndReturn p s = .next tn) :
    hide ps tn = hide ps s := by
  unfold execHndReturn at hx
  obtain rfl := Host.Outcome.next.inj hx
  simp only [hide_serveDevSet, hide_onHnd, ite_self, implies_true, hide_ite, h0, h1, h2, h3, h4, h5]

theorem hide_execInClear {p : Port} {s : State} {tn : State} (h0 : Part.sys ∈ ps) (h1 : Part.queues p ∈ ps)
    (h2 : Part.msix p ∈ ps) (h3 : Part.mbx p ∈ ps) (h4 : Part.hnd ∈ ps) (h5 : Part.out ∈ ps)
    (hx : execInClear p s = .next tn) :
    hide ps tn = hide ps s := by
  unfold execInClear at hx
  obtain rfl := Host.Outcome.next.inj hx
  simp only [hide_serveDevSet, hide_onHnd, implies_true, h0, h1, h2, h3, h4, h5]

theorem hide_execStateClear {p : Port} {s : State} {tn : State} (h0 : Part.sys ∈ ps) (h1 : Part.queues p ∈ ps)
    (h2 : Part.msix p ∈ ps) (h3 : Part.mbx p ∈ ps) (h4 : Part.stg ∈ ps) (h5 : Part.mem ∈ ps) (h6 : Part.out ∈ ps)
    (hx : execStateClear p s = .next tn) :
    hide ps tn = hide ps s := by
  unfold execStateClear at hx
  obtain rfl := Host.Outcome.next.inj hx
  simp only [hide_serveDevSet, hide_writeRoot, hide_onStg, ite_self, implies_true, hide_ite, h0, h1, h2, h3, h4, h5, h6]

theorem hide_execDiagLaneLoopback {p : Port} {s : State} {tn : State} (h0 : Part.sys ∈ ps) (h1 : Part.ev ∈ ps)
    (h2 : Part.queues p ∈ ps) (h3 : Part.msix p ∈ ps) (h4 : Part.mbx p ∈ ps) (h5 : Part.params ∈ ps) (h6 : Part.out ∈ ps)
    (hx : execDiagLaneLoopback p s = .next tn) :
    hide ps tn = hide ps s := by
  unfold execDiagLaneLoopback at hx
  obtain rfl := Host.Outcome.next.inj hx
  simp only [hide_serve, hide_startTest, implies_true, h0, h1, h2, h3, h4, h5, h6]

theorem hide_execDiagDecoders {p : Port} {s : State} {tn : State} (h0 : Part.sys ∈ ps) (h1 : Part.ev ∈ ps)
    (h2 : Part.queues p ∈ ps) (h3 : Part.msix p ∈ ps) (h4 : Part.mbx p ∈ ps) (h5 : Part.params ∈ ps) (h6 : Part.out ∈ ps)
    (hx : execDiagDecoders p s = .next tn) :
    hide ps tn = hide ps s := by
  unfold execDiagDecoders at hx
  obtain rfl := Host.Outcome.next.inj hx
  simp only [hide_serve, hide_startTest, implies_true, h0, h1, h2, h3, h4, h5, h6]

theorem hide_execDiagDram {p : Port} {s : State} {tn : State} (h0 : Part.sys ∈ ps) (h1 : Part.ev ∈ ps)
    (h2 : Part.queues p ∈ ps) (h3 : Part.msix p ∈ ps) (h4 : Part.mbx p ∈ ps) (h5 : Part.params ∈ ps) (h6 : Part.out ∈ ps)
    (hx : execDiagDram p s = .next tn) :
    hide ps tn = hide ps s := by
  unfold execDiagDram at hx
  obtain rfl := Host.Outcome.next.inj hx
  simp only [hide_serve, hide_startTest, implies_true, h0, h1, h2, h3, h4, h5, h6]

theorem hide_execDiagNand {p : Port} {s : State} {tn : State} (h0 : Part.sys ∈ ps) (h1 : Part.ev ∈ ps)
    (h2 : Part.queues p ∈ ps) (h3 : Part.msix p ∈ ps) (h4 : Part.mbx p ∈ ps) (h5 : Part.params ∈ ps) (h6 : Part.out ∈ ps)
    (hx : execDiagNand p s = .next tn) :
    hide ps tn = hide ps s := by
  unfold execDiagNand at hx
  obtain rfl := Host.Outcome.next.inj hx
  simp only [hide_serve, hide_startTest, implies_true, h0, h1, h2, h3, h4, h5, h6]

theorem hide_execDiagTetherNear {p : Port} {s : State} {tn : State} (h0 : Part.sys ∈ ps) (h1 : Part.ev ∈ ps)
    (h2 : Part.queues p ∈ ps) (h3 : Part.msix p ∈ ps) (h4 : Part.mbx p ∈ ps) (h5 : Part.params ∈ ps) (h6 : Part.out ∈ ps)
    (hx : execDiagTetherNear p s = .next tn) :
    hide ps tn = hide ps s := by
  unfold execDiagTetherNear at hx
  obtain rfl := Host.Outcome.next.inj hx
  simp only [hide_serve, hide_startTest, implies_true, h0, h1, h2, h3, h4, h5, h6]

theorem hide_execDiagTetherFar {p : Port} {s : State} {tn : State} (h0 : Part.sys ∈ ps) (h1 : Part.ev ∈ ps)
    (h2 : Part.queues p ∈ ps) (h3 : Part.msix p ∈ ps) (h4 : Part.mbx p ∈ ps) (h5 : Part.params ∈ ps) (h6 : Part.out ∈ ps)
    (hx : execDiagTetherFar p s = .next tn) :
    hide ps tn = hide ps s := by
  unfold execDiagTetherFar at hx
  obtain rfl := Host.Outcome.next.inj hx
  simp only [hide_serve, hide_startTest, implies_true, h0, h1, h2, h3, h4, h5, h6]

theorem hide_execDiagTestEnd {failures : BitVec 16} {firstFail : Byte} {corrected : BitVec 32} {s : State} {tn : State}
    (h0 : Part.raised ∈ ps) (h1 : Part.ev ∈ ps) (h2 : ∀ x, Part.alarm x ∈ ps) (h3 : Part.dram ∈ ps)
    (hx : execDiagTestEnd failures firstFail corrected s = .next tn) :
    hide ps tn = hide ps s := by
  unfold execDiagTestEnd at hx
  repeat' split at hx
  all_goals
    obtain rfl := Host.Outcome.next.inj hx
    first | with_reducible rfl | simp only [hide_marched, hide_onEv, hide_raiseDev, ite_self, true_or, or_true, or_self,
        and_self, implies_true, hide_ite, h0, h1, h2, h3]

/-! ### Recorder -/

theorem hide_execEventQueueEntry {s : State} {tn : State} (h0 : Part.raised ∈ ps) (h1 : Part.fwq ∈ ps)
    (h2 : Part.retry ∈ ps) (h3 : Part.ev ∈ ps) (h4 : ∀ x, Part.alarm x ∈ ps) (hx : execEventQueueEntry s = .next tn) :
    hide ps tn = hide ps s := by
  unfold execEventQueueEntry at hx
  obtain rfl := Host.Outcome.next.inj hx
  split
  · simp only [hide_placeSummary, implies_true, h0, h1, h3, h4]
  · rename_i e rest _
    have k1 : hide ps (s.onEv (fun v => { v with raised := rest })).placeSummary = hide ps s := by
      simp only [hide_placeSummary, hide_onEv, true_or, or_self, and_self, implies_true, h0, h1, h2, h3, h4]
    dsimp only
    generalize (s.onEv (fun v => { v with raised := rest })).placeSummary = s1 at k1
    generalize s1.ev.place e (s1.dn Param.evtCoalesce) = r
    have hv : ∀ v : EventPath, hide ps (s1.onEv (fun _ => v)) = hide ps s1 := fun v =>
      hide_onEv (Or.inl (by assumption)) (Or.inl (by assumption)) (Or.inl (by assumption)) (Or.inl (by assumption))
    split
    · rw [hide_reelRecord (by assumption) (by assumption) (by assumption), hv, k1]
    · rw [hide_reelRecord (by assumption) (by assumption) (by assumption), hv, k1]

theorem hide_execEventRingCopy {p : Port} {s : State} {tn : State} (h0 : Part.raised ∈ ps) (h1 : Part.fwq ∈ ps)
    (h2 : Part.ev ∈ ps) (h3 : Part.queues p ∈ ps) (h4 : Part.msix p ∈ ps) (h5 : Part.ring p ∈ ps) (h6 : ∀ x,
    Part.alarm x ∈ ps) (h7 : Part.out ∈ ps) (hx : execEventRingCopy p s = .next tn) :
    hide ps tn = hide ps s := by
  unfold execEventRingCopy at hx
  obtain rfl := Host.Outcome.next.inj hx
  simp only [hide_ringSummary, hide_copyRecord, hide_placeSummary, hide_onEv, hide_foldl, ite_self, true_or, or_true,
      or_self, and_self, implies_true, hide_ite, h0, h1, h2, h3, h4, h5, h6, h7]

theorem hide_execEventVectorTimer {p : Port} {s : State} {tn : State} (h0 : Part.queues p ∈ ps) (h1 : Part.msix p ∈ ps)
    (h2 : Part.ring p ∈ ps) (h3 : Part.out ∈ ps) (hx : execEventVectorTimer p s = .next tn) :
    hide ps tn = hide ps s := by
  unfold execEventVectorTimer at hx
  obtain rfl := Host.Outcome.next.inj hx
  simp only [hide_onRing, hide_signal, ite_self, hide_ite, h0, h1, h2, h3]

theorem hide_execAerCorrectable {p : Port} {s : State} {tn : State} (h0 : Part.raised ∈ ps) (h1 : ∀ x, Part.alarm x ∈ ps)
    (hx : execAerCorrectable p s = .next tn) :
    hide ps tn = hide ps s := by
  unfold execAerCorrectable at hx
  obtain rfl := Host.Outcome.next.inj hx
  simp only [hide_raisePort, implies_true, h0, h1]

theorem hide_execReelFreeze {p : Port} {s : State} {tn : State} (h0 : Part.sys ∈ ps) (h1 : Part.raised ∈ ps)
    (h2 : Part.ev ∈ ps) (h3 : Part.queues p ∈ ps) (h4 : Part.msix p ∈ ps) (h5 : Part.mbx p ∈ ps) (h6 : ∀ x,
    Part.alarm x ∈ ps) (h7 : Part.out ∈ ps) (hx : execReelFreeze p s = .next tn) :
    hide ps tn = hide ps s := by
  unfold execReelFreeze at hx
  obtain rfl := Host.Outcome.next.inj hx
  simp only [hide_serve, hide_respond, hide_freezeReel, ite_self, implies_true, hide_ite, h0, h1, h2, h3, h4, h5, h6, h7]

theorem hide_execReelThaw {p : Port} {s : State} {tn : State} (h0 : Part.sys ∈ ps) (h1 : Part.raised ∈ ps)
    (h2 : Part.ev ∈ ps) (h3 : Part.queues p ∈ ps) (h4 : Part.msix p ∈ ps) (h5 : Part.mbx p ∈ ps) (h6 : ∀ x,
    Part.alarm x ∈ ps) (h7 : Part.out ∈ ps) (hx : execReelThaw p s = .next tn) :
    hide ps tn = hide ps s := by
  unfold execReelThaw at hx
  obtain rfl := Host.Outcome.next.inj hx
  simp only [hide_serve, hide_respond, hide_thawReel, implies_true, h0, h1, h2, h3, h4, h5, h6, h7]

theorem hide_execReelReadBlocks {p : Port} {s : State} {tn : State} (h0 : Part.sys ∈ ps) (h1 : Part.queues p ∈ ps)
    (h2 : Part.msix p ∈ ps) (h3 : Part.mbx p ∈ ps) (h4 : Part.out ∈ ps) (hx : execReelReadBlocks p s = .next tn) :
    hide ps tn = hide ps s := by
  unfold execReelReadBlocks at hx
  obtain rfl := Host.Outcome.next.inj hx
  simp only [hide_serve, hide_respondArea, hide_respond, ite_self, implies_true, hide_ite, h0, h1, h2, h3, h4]

theorem hide_execReadDropCounters {p : Port} {s : State} {tn : State} (h0 : Part.sys ∈ ps) (h1 : Part.queues p ∈ ps)
    (h2 : Part.msix p ∈ ps) (h3 : Part.mbx p ∈ ps) (h4 : Part.out ∈ ps) (hx : execReadDropCounters p s = .next tn) :
    hide ps tn = hide ps s := by
  unfold execReadDropCounters at hx
  obtain rfl := Host.Outcome.next.inj hx
  simp only [hide_serve, hide_respondArea, implies_true, h0, h1, h2, h3, h4]

theorem hide_execReadClearDropCounters {p : Port} {s : State} {tn : State} (h0 : Part.sys ∈ ps) (h1 : Part.fwq ∈ ps)
    (h2 : Part.queues p ∈ ps) (h3 : Part.msix p ∈ ps) (h4 : Part.mbx p ∈ ps) (h5 : Part.out ∈ ps)
    (hx : execReadClearDropCounters p s = .next tn) :
    hide ps tn = hide ps s := by
  unfold execReadClearDropCounters at hx
  obtain rfl := Host.Outcome.next.inj hx
  simp only [hide_serve, hide_respondArea, hide_onEv, ite_self, true_or, or_true, and_self, implies_true, hide_ite, h0,
      h1, h2, h3, h4, h5]

theorem hide_execTailArm {p : Port} {s : State} {tn : State} (h0 : Part.sys ∈ ps) (h1 : Part.queues p ∈ ps)
    (h2 : Part.msix p ∈ ps) (h3 : Part.mbx p ∈ ps) (h4 : ∀ x, Part.srv x ∈ ps) (h5 : Part.out ∈ ps)
    (hx : execTailArm p s = .next tn) :
    hide ps tn = hide ps s := by
  unfold execTailArm at hx
  obtain rfl := Host.Outcome.next.inj hx
  refine hide_serve h0 h1 h2 h3 h5 (fun t r => ?_)
  repeat' split
  all_goals first | with_reducible rfl | simp only [hide_respond, hide_onSrv, h1, h2, h3, h4, h5]

theorem hide_execTailRead {p : Port} {s : State} {tn : State} (h0 : Part.sys ∈ ps) (h1 : Part.queues p ∈ ps)
    (h2 : Part.msix p ∈ ps) (h3 : Part.mbx p ∈ ps) (h4 : Part.out ∈ ps) (hx : execTailRead p s = .next tn) :
    hide ps tn = hide ps s := by
  unfold execTailRead at hx
  obtain rfl := Host.Outcome.next.inj hx
  refine hide_serve h0 h1 h2 h3 h4 (fun t r => ?_)
  repeat' split
  all_goals first | with_reducible rfl | simp only [hide_respond, hide_respondArea, ite_self, hide_ite, h1, h2, h3, h4]

/-! ### Mailbox -/

theorem hide_execIdentify {p : Port} {s : State} {tn : State} (h0 : Part.sys ∈ ps) (h1 : Part.queues p ∈ ps)
    (h2 : Part.msix p ∈ ps) (h3 : Part.mbx p ∈ ps) (h4 : Part.out ∈ ps) (hx : execIdentify p s = .next tn) :
    hide ps tn = hide ps s := by
  unfold execIdentify at hx
  obtain rfl := Host.Outcome.next.inj hx
  simp only [hide_serve, hide_respond, implies_true, h0, h1, h2, h3, h4]

theorem hide_execGetLog {p : Port} {s : State} {tn : State} (h0 : Part.sys ∈ ps) (h1 : Part.queues p ∈ ps)
    (h2 : Part.msix p ∈ ps) (h3 : Part.mbx p ∈ ps) (h4 : Part.out ∈ ps) (hx : execGetLog p s = .next tn) :
    hide ps tn = hide ps s := by
  unfold execGetLog at hx
  obtain rfl := Host.Outcome.next.inj hx
  refine hide_serve h0 h1 h2 h3 h4 (fun t r => ?_)
  repeat' split
  all_goals first | with_reducible rfl | simp only [hide_respond, hide_respondArea, h1, h2, h3, h4]

theorem hide_execCreateVolume {p : Port} {s : State} {tn : State} (h0 : Part.sys ∈ ps) (h1 : Part.queues p ∈ ps)
    (h2 : Part.msix p ∈ ps) (h3 : Part.mbx p ∈ ps) (h4 : Part.vols ∈ ps) (h5 : Part.flash ∈ ps) (h6 : Part.stg ∈ ps)
    (h7 : Part.pair ∈ ps) (h8 : Part.out ∈ ps) (hx : execCreateVolume p s = .next tn) :
    hide ps tn = hide ps s := by
  unfold execCreateVolume at hx
  obtain rfl := Host.Outcome.next.inj hx
  simp only [hide_serve, hide_respond, hide_tellVol, hide_saveAll, hide_setVols, ite_self, implies_true, hide_ite, h0,
      h1, h2, h3, h4, h5, h6, h7, h8]

theorem hide_execModifyDurability {p : Port} {s : State} {tn : State} (h0 : Part.sys ∈ ps) (h1 : Part.queues p ∈ ps)
    (h2 : Part.msix p ∈ ps) (h3 : Part.mbx p ∈ ps) (h4 : Part.vols ∈ ps) (h5 : Part.flash ∈ ps) (h6 : Part.stg ∈ ps)
    (h7 : Part.pair ∈ ps) (h8 : Part.out ∈ ps) (hx : execModifyDurability p s = .next tn) :
    hide ps tn = hide ps s := by
  unfold execModifyDurability at hx
  obtain rfl := Host.Outcome.next.inj hx
  simp only [hide_serve, hide_respond, hide_tellVol, hide_saveAll, hide_onVol, ite_self, implies_true, hide_ite, h0, h1,
      h2, h3, h4, h5, h6, h7, h8]

theorem hide_execDeleteVolume {p : Port} {s : State} {tn : State} (h0 : Part.sys ∈ ps) (h1 : Part.raised ∈ ps) (h2 : ∀ x,
    Part.queues x ∈ ps) (h3 : ∀ x, Part.msix x ∈ ps) (h4 : ∀ x, Part.mbx x ∈ ps) (h5 : ∀ x, Part.alarm x ∈ ps)
    (h6 : Part.cmds ∈ ps) (h7 : Part.vols ∈ ps) (h8 : Part.flash ∈ ps) (h9 : ∀ x, Part.afe x ∈ ps) (h10 : ∀ x,
    Part.rc x ∈ ps) (h11 : ∀ x, Part.dec x ∈ ps) (h12 : ∀ x, Part.wp x ∈ ps) (h13 : ∀ x, Part.srv x ∈ ps) (h14 : ∀ x,
    Part.seq x ∈ ps) (h15 : Part.pool ∈ ps) (h16 : Part.hnd ∈ ps) (h17 : Part.stg ∈ ps) (h18 : Part.mem ∈ ps)
    (h19 : Part.pair ∈ ps) (h20 : Part.out ∈ ps) (hx : execDeleteVolume p s = .next tn) :
    hide ps tn = hide ps s := by
  unfold execDeleteVolume at hx
  obtain rfl := Host.Outcome.next.inj hx
  repeat' split
  all_goals first
    | with_reducible rfl
    | (simp only [hide_respondRun, h2, h3, h4, h20]; done)
    | (rename _ = (_, _) => h; have h' := congrArg Prod.fst h; clear h; dsimp only at h'; subst h'; simp only
        [hide_deleteNow, hide_respondRun, implies_true, h1, h2, h3, h4, h5, h6, h7, h8, h17, h18, h19, h20]; done)
    | (refine hide_serve (by solve_by_elim) (by solve_by_elim) (by solve_by_elim) (by solve_by_elim) (by solve_by_elim)
        (fun t r => ?_)
       dsimp only
       repeat' split
       all_goals simp only [hide_deleteNow, hide_respond, hide_beginRun, hide_endUnstarted, hide_orderUnmount,
           implies_true, h0, h1, h2, h3, h4, h5, h6, h7, h8, h9, h10, h11, h12, h13, h14, h15, h16, h17, h18, h19, h20])

theorem hide_execFormat {p : Port} {recorded : Bool} {s : State} {tn : State} (h0 : Part.sys ∈ ps)
    (h1 : Part.raised ∈ ps) (h2 : ∀ x, Part.queues x ∈ ps) (h3 : ∀ x, Part.msix x ∈ ps) (h4 : ∀ x, Part.mbx x ∈ ps)
    (h5 : ∀ x, Part.alarm x ∈ ps) (h6 : Part.cmds ∈ ps) (h7 : Part.flash ∈ ps) (h8 : ∀ x, Part.afe x ∈ ps) (h9 : ∀ x,
    Part.rc x ∈ ps) (h10 : ∀ x, Part.dec x ∈ ps) (h11 : ∀ x, Part.wp x ∈ ps) (h12 : ∀ x, Part.srv x ∈ ps) (h13 : ∀ x,
    Part.seq x ∈ ps) (h14 : Part.pool ∈ ps) (h15 : Part.hnd ∈ ps) (h16 : Part.stg ∈ ps) (h17 : Part.mem ∈ ps)
    (h18 : Part.pair ∈ ps) (h19 : Part.out ∈ ps) (hx : execFormat p recorded s = .next tn) :
    hide ps tn = hide ps s := by
  unfold execFormat at hx
  obtain rfl := Host.Outcome.next.inj hx
  dsimp only
  repeat' split
  all_goals first
    | with_reducible rfl
    | (simp only [hide_formatAt, hide_placeDisc, implies_true, h0, h1, h2, h3, h4, h5, h6, h7, h8, h9, h10, h11, h12,
        h13, h14, h15, h16, h17, h18, h19]; done)
    | (refine hide_serve (by solve_by_elim) (by solve_by_elim) (by solve_by_elim) (by solve_by_elim) (by solve_by_elim)
        (fun t r => ?_)
       repeat' split
       all_goals simp only [hide_formatAt, hide_placeDisc, hide_respond, hide_beginRun, hide_formatBegins, implies_true,
           h0, h1, h2, h3, h4, h5, h6, h7, h8, h9, h10, h11, h12, h13, h14, h15, h16, h17, h18, h19])

theorem hide_execSanitize {p : Port} {s : State} {tn : State} (h0 : Part.mode ∈ ps) (h1 : Part.sys ∈ ps)
    (h2 : Part.raised ∈ ps) (h3 : Part.ev ∈ ps) (h4 : ∀ x, Part.queues x ∈ ps) (h5 : ∀ x, Part.msix x ∈ ps) (h6 : ∀ x,
    Part.mbx x ∈ ps) (h7 : ∀ x, Part.alarm x ∈ ps) (h8 : Part.cmds ∈ ps) (h9 : Part.flash ∈ ps) (h10 : ∀ x,
    Part.afe x ∈ ps) (h11 : ∀ x, Part.rc x ∈ ps) (h12 : ∀ x, Part.wp x ∈ ps) (h13 : ∀ x, Part.srv x ∈ ps) (h14 : ∀ x,
    Part.seq x ∈ ps) (h15 : Part.hnd ∈ ps) (h16 : Part.stg ∈ ps) (h17 : Part.mem ∈ ps) (h18 : Part.pair ∈ ps)
    (h19 : Part.out ∈ ps) (hx : execSanitize p s = .next tn) :
    hide ps tn = hide ps s := by
  unfold execSanitize at hx
  obtain rfl := Host.Outcome.next.inj hx
  simp only [hide_serve, hide_respond, hide_setProgress, hide_beginRun, hide_setMode, hide_onSys, hide_endUnstarted,
      ite_self, or_true, or_self, implies_true, hide_ite, h0, h1, h2, h3, h4, h5, h6, h7, h8, h9, h10, h11, h12, h13,
      h14, h15, h16, h17, h18, h19]

theorem hide_execSanitizeStepDone {s : State} {tn : State} (h0 : Part.mode ∈ ps) (h1 : Part.sys ∈ ps)
    (h2 : Part.raised ∈ ps) (h3 : Part.ev ∈ ps) (h4 : ∀ x, Part.queues x ∈ ps) (h5 : ∀ x, Part.msix x ∈ ps) (h6 : ∀ x,
    Part.mbx x ∈ ps) (h7 : ∀ x, Part.alarm x ∈ ps) (h8 : Part.cmds ∈ ps) (h9 : Part.flash ∈ ps) (h10 : ∀ x,
    Part.afe x ∈ ps) (h11 : ∀ x, Part.rc x ∈ ps) (h12 : ∀ x, Part.dec x ∈ ps) (h13 : ∀ x, Part.wp x ∈ ps) (h14 : ∀ x,
    Part.srv x ∈ ps) (h15 : ∀ x, Part.seq x ∈ ps) (h16 : Part.hnd ∈ ps) (h17 : Part.stg ∈ ps) (h18 : Part.dram ∈ ps)
    (h19 : Part.mem ∈ ps) (h20 : Part.pair ∈ ps) (h21 : Part.out ∈ ps) (hx : execSanitizeStepDone s = .next tn) :
    hide ps tn = hide ps s := by
  unfold execSanitizeStepDone at hx
  dsimp only at hx
  repeat' split at hx
  all_goals
    obtain rfl := Host.Outcome.next.inj hx
    first | with_reducible rfl | simp only [hide_onStg, hide_sanitizeDram, hide_sanitizeEnds, hide_setProgress,
        implies_true, h0, h1, h2, h3, h4, h5, h6, h7, h8, h9, h10, h11, h12, h13, h14, h15, h16, h17, h18, h19, h20, h21]

theorem hide_execFirmwareDownload {p : Port} {buf : BufRead} {s : State} {tn : State} (h0 : Part.sys ∈ ps)
    (h1 : Part.raised ∈ ps) (h2 : Part.queues p ∈ ps) (h3 : Part.msix p ∈ ps) (h4 : Part.mbx p ∈ ps) (h5 : ∀ x,
    Part.alarm x ∈ ps) (h6 : Part.out ∈ ps) (hx : execFirmwareDownload p buf s = .next tn) :
    hide ps tn = hide ps s := by
  unfold execFirmwareDownload at hx
  obtain rfl := Host.Outcome.next.inj hx
  refine hide_serve h0 h2 h3 h4 h6 (fun t r => ?_)
  repeat' split
  all_goals first | with_reducible rfl | simp only [hide_respond, hide_raisePort, hide_onSys, ite_self, or_true,
      implies_true, hide_ite, h0, h1, h2, h3, h4, h5, h6]

theorem hide_execFirmwareCommit {p : Port} {s : State} {tn : State} (h0 : Part.sys ∈ ps) (h1 : Part.queues p ∈ ps)
    (h2 : Part.msix p ∈ ps) (h3 : Part.mbx p ∈ ps) (h4 : Part.flash ∈ ps) (h5 : Part.out ∈ ps)
    (hx : execFirmwareCommit p s = .next tn) :
    hide ps tn = hide ps s := by
  unfold execFirmwareCommit at hx
  obtain rfl := Host.Outcome.next.inj hx
  simp only [hide_serve, hide_commit, hide_respond, ite_self, implies_true, hide_ite, h0, h1, h2, h3, h4, h5]

theorem hide_execCommitAndActivate {p : Port} {s : State} {tn : State} (h0 : Part.mode ∈ ps) (h1 : Part.sys ∈ ps)
    (h2 : Part.raised ∈ ps) (h3 : Part.ev ∈ ps) (h4 : ∀ x, Part.queues x ∈ ps) (h5 : ∀ x, Part.msix x ∈ ps) (h6 : ∀ x,
    Part.mbx x ∈ ps) (h7 : ∀ x, Part.alarm x ∈ ps) (h8 : Part.cmds ∈ ps) (h9 : Part.flash ∈ ps) (h10 : ∀ x,
    Part.afe x ∈ ps) (h11 : ∀ x, Part.rc x ∈ ps) (h12 : ∀ x, Part.wp x ∈ ps) (h13 : ∀ x, Part.srv x ∈ ps) (h14 : ∀ x,
    Part.seq x ∈ ps) (h15 : Part.hnd ∈ ps) (h16 : Part.stg ∈ ps) (h17 : Part.pair ∈ ps) (h18 : Part.out ∈ ps)
    (hx : execCommitAndActivate p s = .next tn) :
    hide ps tn = hide ps s := by
  unfold execCommitAndActivate at hx
  obtain rfl := Host.Outcome.next.inj hx
  simp only [hide_serve, hide_commit, hide_respond, hide_activate, ite_self, implies_true, hide_ite, h0, h1, h2, h3, h4,
      h5, h6, h7, h8, h9, h10, h11, h12, h13, h14, h15, h16, h17, h18]

theorem hide_execActivateSlot {p : Port} {imageOk : Bool} {s : State} {tn : State} (h0 : Part.mode ∈ ps)
    (h1 : Part.sys ∈ ps) (h2 : Part.raised ∈ ps) (h3 : Part.ev ∈ ps) (h4 : ∀ x, Part.queues x ∈ ps) (h5 : ∀ x,
    Part.msix x ∈ ps) (h6 : ∀ x, Part.mbx x ∈ ps) (h7 : ∀ x, Part.alarm x ∈ ps) (h8 : Part.cmds ∈ ps) (h9 : ∀ x,
    Part.afe x ∈ ps) (h10 : ∀ x, Part.rc x ∈ ps) (h11 : ∀ x, Part.wp x ∈ ps) (h12 : ∀ x, Part.srv x ∈ ps) (h13 : ∀ x,
    Part.seq x ∈ ps) (h14 : Part.hnd ∈ ps) (h15 : Part.stg ∈ ps) (h16 : Part.pair ∈ ps) (h17 : Part.out ∈ ps)
    (hx : execActivateSlot p imageOk s = .next tn) :
    hide ps tn = hide ps s := by
  unfold execActivateSlot at hx
  obtain rfl := Host.Outcome.next.inj hx
  simp only [hide_serve, hide_respond, hide_activate, ite_self, implies_true, hide_ite, h0, h1, h2, h3, h4, h5, h6, h7,
      h8, h9, h10, h11, h12, h13, h14, h15, h16, h17]

theorem hide_execHeldRequestResume {p : Port} {s : State} {tn : State} (h0 : Part.queues p ∈ ps) (h1 : Part.msix p ∈ ps)
    (h2 : Part.mbx p ∈ ps) (h3 : Part.out ∈ ps) (hx : execHeldRequestResume p s = .next tn) :
    hide ps tn = hide ps s := by
  unfold execHeldRequestResume at hx
  dsimp only at hx
  repeat' split at hx
  all_goals
    obtain rfl := Host.Outcome.next.inj hx
    first | with_reducible rfl | simp only [hide_respondRun, hide_onMbx, hide_answerUnlisted, h0, h1, h2, h3]

end Sys2Proof.Laws
end

