-- ==== Sys2Proof/Laws/FrameStore.lean ====
section
/-! SUPPORT. What each meaning of the pair, memory and the staging tier may write. -/

namespace Sys2Proof.Laws

set_option Elab.async false

open Sys2Proof Sys2Proof.Machine Sys2Proof.Safety

variable {ps : List Part}

/-! ### Pair -/

theorem hide_execTetherTrainingStart {s : State} {tn : State} (h0 : Part.pair ∈ ps)
    (hx : execTetherTrainingStart s = .next tn) :
    hide ps tn = hide ps s := by
  unfold execTetherTrainingStart at hx
  repeat' split at hx
  all_goals
    obtain rfl := Host.Outcome.next.inj hx
    first | with_reducible rfl | simp only [hide_onPair, h0]

theorem hide_execTetherTrainingDone {peerIdentity : BitVec 32} {peerRelease : BitVec 32} {s : State} {tn : State}
    (h0 : Part.raised ∈ ps) (h1 : ∀ x, Part.alarm x ∈ ps) (h2 : Part.pair ∈ ps) (h3 : Part.out ∈ ps)
    (hx : execTetherTrainingDone peerIdentity peerRelease s = .next tn) :
    hide ps tn = hide ps s := by
  unfold execTetherTrainingDone at hx
  repeat' split at hx
  all_goals
    obtain rfl := Host.Outcome.next.inj hx
    first | with_reducible rfl | simp only [hide_raiseDev, hide_onPair, hide_putFlit, hide_sendFirst, hide_foldl,
        ite_self, implies_true, hide_ite, h0, h1, h2, h3]

theorem hide_execTetherTrainingTimeout {s : State} {tn : State} (h0 : Part.raised ∈ ps) (h1 : ∀ x, Part.queues x ∈ ps)
    (h2 : ∀ x, Part.msix x ∈ ps) (h3 : ∀ x, Part.mbx x ∈ ps) (h4 : ∀ x, Part.alarm x ∈ ps) (h5 : Part.vols ∈ ps)
    (h6 : Part.stg ∈ ps) (h7 : Part.mem ∈ ps) (h8 : Part.pair ∈ ps) (h9 : Part.out ∈ ps)
    (hx : execTetherTrainingTimeout s = .next tn) :
    hide ps tn = hide ps s := by
  unfold execTetherTrainingTimeout at hx
  repeat' split at hx
  all_goals
    obtain rfl := Host.Outcome.next.inj hx
    first | with_reducible rfl | simp only [hide_onPair, hide_tetherStops, implies_true, h0, h1, h2, h3, h4, h5, h6, h7,
        h8, h9]

theorem hide_execFlitReceive {bytes : List Byte} {s : State} {tn : State} (h0 : Part.raised ∈ ps) (h1 : Part.retry ∈ ps)
    (h2 : Part.ev ∈ ps) (h3 : ∀ x, Part.queues x ∈ ps) (h4 : ∀ x, Part.msix x ∈ ps) (h5 : ∀ x, Part.mbx x ∈ ps)
    (h6 : ∀ x, Part.alarm x ∈ ps) (h7 : Part.vols ∈ ps) (h8 : Part.stg ∈ ps) (h9 : Part.mem ∈ ps) (h10 : Part.pair ∈ ps)
    (h11 : Part.out ∈ ps) (hx : execFlitReceive bytes s = .next tn) :
    hide ps tn = hide ps s := by
  unfold execFlitReceive at hx
  dsimp only at hx
  repeat' split at hx
  all_goals
    obtain rfl := Host.Outcome.next.inj hx
    first | with_reducible rfl | simp only [hide_badFlit, hide_takeAck, hide_sendNak, hide_onPair, hide_putFlit,
        hide_logRetry, hide_raiseDev, implies_true, h0, h1, h2, h3, h4, h5, h6, h7, h8, h9, h10, h11]

theorem hide_execNakReceive {seq : BitVec 16} {s : State} {tn : State} (h0 : Part.pair ∈ ps) (h1 : Part.out ∈ ps)
    (hx : execNakReceive seq s = .next tn) :
    hide ps tn = hide ps s := by
  unfold execNakReceive at hx
  repeat' split at hx
  all_goals
    obtain rfl := Host.Outcome.next.inj hx
    first | with_reducible rfl | simp only [hide_replay, h0, h1]

theorem hide_execAckTimeout {s : State} {tn : State} (h0 : Part.pair ∈ ps) (h1 : Part.out ∈ ps)
    (hx : execAckTimeout s = .next tn) :
    hide ps tn = hide ps s := by
  unfold execAckTimeout at hx
  repeat' split at hx
  all_goals
    obtain rfl := Host.Outcome.next.inj hx
    first | with_reducible rfl | simp only [hide_replay, h0, h1]

theorem hide_execHeartbeatSend {s : State} {tn : State} (h0 : Part.pair ∈ ps) (h1 : Part.out ∈ ps)
    (hx : execHeartbeatSend s = .next tn) :
    hide ps tn = hide ps s := by
  unfold execHeartbeatSend at hx
  repeat' split at hx
  all_goals
    obtain rfl := Host.Outcome.next.inj hx
    first | with_reducible rfl | simp only [hide_sendFirst, hide_onPair, h0, h1]

theorem hide_execHeartbeatReceive {h : Heartbeat} {s : State} {tn : State} (h0 : Part.raised ∈ ps) (h1 : ∀ x,
    Part.alarm x ∈ ps) (h2 : Part.pair ∈ ps) (h3 : Part.out ∈ ps) (hx : execHeartbeatReceive h s = .next tn) :
    hide ps tn = hide ps s := by
  unfold execHeartbeatReceive at hx
  dsimp only at hx
  repeat' split at hx
  all_goals
    obtain rfl := Host.Outcome.next.inj hx
    first | with_reducible rfl | simp only [hide_onPair, hide_raiseDev, hide_startTetherResync, implies_true, h0, h1, h2,
        h3]

theorem hide_execHeartbeatMissing {s : State} {tn : State} (h0 : Part.mode ∈ ps) (h1 : Part.sys ∈ ps)
    (h2 : Part.raised ∈ ps) (h3 : Part.ev ∈ ps) (h4 : ∀ x, Part.queues x ∈ ps) (h5 : ∀ x, Part.msix x ∈ ps) (h6 : ∀ x,
    Part.mbx x ∈ ps) (h7 : ∀ x, Part.alarm x ∈ ps) (h8 : Part.cmds ∈ ps) (h9 : Part.vols ∈ ps) (h10 : ∀ x,
    Part.afe x ∈ ps) (h11 : ∀ x, Part.rc x ∈ ps) (h12 : ∀ x, Part.wp x ∈ ps) (h13 : ∀ x, Part.srv x ∈ ps) (h14 : ∀ x,
    Part.seq x ∈ ps) (h15 : Part.hnd ∈ ps) (h16 : Part.stg ∈ ps) (h17 : Part.mem ∈ ps) (h18 : Part.pair ∈ ps)
    (h19 : Part.out ∈ ps) (hx : execHeartbeatMissing s = .next tn) :
    hide ps tn = hide ps s := by
  unfold execHeartbeatMissing at hx
  dsimp only at hx
  repeat' split at hx
  all_goals
    obtain rfl := Host.Outcome.next.inj hx
    first | with_reducible rfl | simp only [hide_onPair, hide_failJoin, hide_degrade, hide_judgeBoth, implies_true, h0,
        h1, h2, h3, h4, h5, h6, h7, h8, h9, h10, h11, h12, h13, h14, h15, h16, h17, h18, h19]

theorem hide_execPeerOkInChange {level : Bool} {samples : Nat} {s : State} {tn : State} (h0 : Part.mode ∈ ps)
    (h1 : Part.sys ∈ ps) (h2 : Part.raised ∈ ps) (h3 : Part.ev ∈ ps) (h4 : ∀ x, Part.queues x ∈ ps) (h5 : ∀ x,
    Part.msix x ∈ ps) (h6 : ∀ x, Part.mbx x ∈ ps) (h7 : ∀ x, Part.alarm x ∈ ps) (h8 : Part.cmds ∈ ps) (h9 : ∀ x,
    Part.afe x ∈ ps) (h10 : ∀ x, Part.rc x ∈ ps) (h11 : ∀ x, Part.wp x ∈ ps) (h12 : ∀ x, Part.srv x ∈ ps) (h13 : ∀ x,
    Part.seq x ∈ ps) (h14 : Part.hnd ∈ ps) (h15 : Part.stg ∈ ps) (h16 : Part.mem ∈ ps) (h17 : Part.pair ∈ ps)
    (h18 : Part.out ∈ ps) (hx : execPeerOkInChange level samples s = .next tn) :
    hide ps tn = hide ps s := by
  unfold execPeerOkInChange at hx
  dsimp only at hx
  repeat' split at hx
  all_goals
    obtain rfl := Host.Outcome.next.inj hx
    first | with_reducible rfl | simp only [hide_onPair, hide_raiseDev, hide_judgeBoth, implies_true, h0, h1, h2, h3, h4,
        h5, h6, h7, h8, h9, h10, h11, h12, h13, h14, h15, h16, h17, h18]

theorem hide_execBrokenWireClear {s : State} {tn : State} (h0 : Part.pair ∈ ps) (hx : execBrokenWireClear s = .next tn) :
    hide ps tn = hide ps s := by
  unfold execBrokenWireClear at hx
  repeat' split at hx
  all_goals
    obtain rfl := Host.Outcome.next.inj hx
    first | with_reducible rfl | simp only [hide_onPair, h0]

theorem hide_execTakeoverRoleWrite {s : State} {tn : State} (h0 : Part.flash ∈ ps) (h1 : Part.mem ∈ ps)
    (h2 : Part.pair ∈ ps) (hx : execTakeoverRoleWrite s = .next tn) :
    hide ps tn = hide ps s := by
  unfold execTakeoverRoleWrite at hx
  repeat' split at hx
  all_goals
    obtain rfl := Host.Outcome.next.inj hx
    first | with_reducible rfl | simp only [hide_onPair, hide_setPairRole, h0, h1, h2]

theorem hide_execOwnershipCommit {s : State} {tn : State} (h0 : Part.vols ∈ ps) (h1 : Part.flash ∈ ps)
    (h2 : Part.stg ∈ ps) (h3 : Part.pair ∈ ps) (hx : execOwnershipCommit s = .next tn) :
    hide ps tn = hide ps s := by
  unfold execOwnershipCommit at hx
  repeat' split at hx
  all_goals
    obtain rfl := Host.Outcome.next.inj hx
    first | with_reducible rfl | simp only [hide_onStg, hide_onFlash, hide_saveVols, hide_onPair, hide_setVols, h0, h1,
        h2, h3]

theorem hide_execForwardResolve {s : State} {tn : State} (h0 : ∀ x, Part.queues x ∈ ps) (h1 : ∀ x, Part.msix x ∈ ps)
    (h2 : ∀ x, Part.mbx x ∈ ps) (h3 : Part.cmds ∈ ps) (h4 : Part.hnd ∈ ps) (h5 : Part.stg ∈ ps) (h6 : Part.pair ∈ ps)
    (h7 : Part.out ∈ ps) (hx : execForwardResolve s = .next tn) :
    hide ps tn = hide ps s := by
  unfold execForwardResolve at hx
  repeat' split at hx
  all_goals
    obtain rfl := Host.Outcome.next.inj hx
    first | with_reducible rfl | simp only [hide_complete, hide_setWait, hide_onPair, hide_failForwardedMove, hide_foldl,
        ite_self, implies_true, hide_ite, h0, h1, h2, h3, h4, h5, h6, h7]

theorem hide_execTakeoverDone {s : State} {tn : State} (h0 : Part.mode ∈ ps) (h1 : Part.sys ∈ ps) (h2 : Part.raised ∈ ps)
    (h3 : Part.ev ∈ ps) (h4 : ∀ x, Part.queues x ∈ ps) (h5 : ∀ x, Part.msix x ∈ ps) (h6 : ∀ x, Part.mbx x ∈ ps)
    (h7 : ∀ x, Part.alarm x ∈ ps) (h8 : Part.cmds ∈ ps) (h9 : ∀ x, Part.afe x ∈ ps) (h10 : ∀ x, Part.rc x ∈ ps)
    (h11 : ∀ x, Part.wp x ∈ ps) (h12 : ∀ x, Part.srv x ∈ ps) (h13 : ∀ x, Part.seq x ∈ ps) (h14 : Part.hnd ∈ ps)
    (h15 : Part.stg ∈ ps) (h16 : Part.pair ∈ ps) (h17 : Part.out ∈ ps) (hx : execTakeoverDone s = .next tn) :
    hide ps tn = hide ps s := by
  unfold execTakeoverDone at hx
  repeat' split at hx
  all_goals
    obtain rfl := Host.Outcome.next.inj hx
    first | with_reducible rfl | simp only [hide_raiseDev, hide_onPair, hide_setMode, implies_true, h0, h1, h2, h3, h4,
        h5, h6, h7, h8, h9, h10, h11, h12, h13, h14, h15, h16, h17]

theorem hide_execDarkWaitExpiry {s : State} {tn : State} (h0 : Part.pair ∈ ps) (hx : execDarkWaitExpiry s = .next tn) :
    hide ps tn = hide ps s := by
  unfold execDarkWaitExpiry at hx
  repeat' split at hx
  all_goals
    obtain rfl := Host.Outcome.next.inj hx
    first | with_reducible rfl | simp only [hide_onPair, h0]

theorem hide_execMirrorData {msg : BitVec 32} {vid : VolId} {ucl : Nat} {dataSeq : Nat} {mask : BitVec 16}
    {sectors : List (Nat × SectorData)} {s : State} {tn : State} (h0 : Part.raised ∈ ps) (h1 : ∀ x, Part.alarm x ∈ ps)
    (h2 : Part.cmds ∈ ps) (h3 : Part.stg ∈ ps) (h4 : Part.mem ∈ ps) (h5 : Part.pair ∈ ps) (h6 : Part.out ∈ ps)
    (hx : execMirrorData msg vid ucl dataSeq mask sectors s = .next tn) :
    hide ps tn = hide ps s := by
  unfold execMirrorData at hx
  dsimp only at hx
  repeat' split at hx
  all_goals
    obtain rfl := Host.Outcome.next.inj hx
    first | with_reducible rfl | simp only [hide_tetherBuf, hide_acceptMirror, hide_onPair, implies_true, h0, h1, h2, h3,
        h4, h5, h6]

theorem hide_execMirrorCommit {msgs : List (BitVec 32)} {s : State} {tn : State} (h0 : ∀ x, Part.queues x ∈ ps)
    (h1 : ∀ x, Part.msix x ∈ ps) (h2 : Part.cmds ∈ ps) (h3 : Part.stg ∈ ps) (h4 : Part.pair ∈ ps) (h5 : Part.out ∈ ps)
    (hx : execMirrorCommit msgs s = .next tn) :
    hide ps tn = hide ps s := by
  unfold execMirrorCommit at hx
  obtain rfl := Host.Outcome.next.inj hx
  simp only [hide_onPair, hide_settleMirrorOut, implies_true, h0, h1, h2, h3, h4, h5]

theorem hide_execMirrorRelease {vid : VolId} {ucls : List Nat} {s : State} {tn : State} (h0 : Part.raised ∈ ps)
    (h1 : ∀ x, Part.alarm x ∈ ps) (h2 : Part.stg ∈ ps) (h3 : Part.mem ∈ ps)
    (hx : execMirrorRelease vid ucls s = .next tn) :
    hide ps tn = hide ps s := by
  unfold execMirrorRelease at hx
  obtain rfl := Host.Outcome.next.inj hx
  simp only [hide_onStg, hide_dropDirty, implies_true, h0, h1, h2, h3]

theorem hide_execVolumeState {m : VolStateMsg} {s : State} {tn : State} (h0 : Part.sys ∈ ps) (h1 : Part.raised ∈ ps)
    (h2 : ∀ x, Part.queues x ∈ ps) (h3 : ∀ x, Part.msix x ∈ ps) (h4 : ∀ x, Part.mbx x ∈ ps) (h5 : ∀ x, Part.alarm x ∈ ps)
    (h6 : Part.cmds ∈ ps) (h7 : Part.vols ∈ ps) (h8 : ∀ x, Part.afe x ∈ ps) (h9 : ∀ x, Part.rc x ∈ ps) (h10 : ∀ x,
    Part.wp x ∈ ps) (h11 : ∀ x, Part.srv x ∈ ps) (h12 : ∀ x, Part.seq x ∈ ps) (h13 : Part.hnd ∈ ps) (h14 : Part.stg ∈ ps)
    (h15 : Part.pair ∈ ps) (h16 : Part.out ∈ ps) (hx : execVolumeState m s = .next tn) :
    hide ps tn = hide ps s := by
  unfold execVolumeState at hx
  dsimp only at hx
  repeat' split at hx
  all_goals
    obtain rfl := Host.Outcome.next.inj hx
    first | with_reducible rfl | simp only [hide_saveVols, hide_setBaySt, hide_onHnd, hide_onPair, hide_runStep,
        hide_toStep, hide_setVols, implies_true, h0, h1, h2, h3, h4, h5, h6, h7, h8, h9, h10, h11, h12, h13, h14, h15,
        h16]

theorem hide_execForwardedCommand {f : ForwardCmd} {s : State} {tn : State} (h0 : Part.sys ∈ ps) (h1 : Part.raised ∈ ps)
    (h2 : ∀ x, Part.queues x ∈ ps) (h3 : ∀ x, Part.msix x ∈ ps) (h4 : ∀ x, Part.mbx x ∈ ps) (h5 : ∀ x, Part.alarm x ∈ ps)
    (h6 : Part.cmds ∈ ps) (h7 : ∀ x, Part.afe x ∈ ps) (h8 : ∀ x, Part.rc x ∈ ps) (h9 : ∀ x, Part.wp x ∈ ps) (h10 : ∀ x,
    Part.srv x ∈ ps) (h11 : ∀ x, Part.seq x ∈ ps) (h12 : Part.hnd ∈ ps) (h13 : Part.stg ∈ ps) (h14 : Part.pair ∈ ps)
    (h15 : Part.out ∈ ps) (hx : execForwardedCommand f s = .next tn) :
    hide ps tn = hide ps s := by
  unfold execForwardedCommand at hx
  dsimp only at hx
  (repeat' split at hx) <;> obtain rfl := Host.Outcome.next.inj hx <;> first
    | with_reducible rfl
    | (simp only [hide_send, hide_onSys, hide_setCmds, or_true, h0, h6, h14, h15]; done)
    | (rename_i h; obtain rfl := congrArg Prod.fst h; simp only [hide_send, hide_beginMove, implies_true, h0, h1, h2, h3,
        h4, h5, h6, h7, h8, h9, h10, h11, h12, h13, h14, h15]; done)

theorem hide_execForwardedCompletion {c : CmdId} {status : Byte} {result : BitVec 64} {sectors : List (Nat × SectorData)}
    {s : State} {tn : State} (h0 : Part.sys ∈ ps) (h1 : Part.raised ∈ ps) (h2 : ∀ x, Part.queues x ∈ ps) (h3 : ∀ x,
    Part.msix x ∈ ps) (h4 : ∀ x, Part.mbx x ∈ ps) (h5 : ∀ x, Part.alarm x ∈ ps) (h6 : Part.cmds ∈ ps)
    (h7 : Part.vols ∈ ps) (h8 : ∀ x, Part.afe x ∈ ps) (h9 : ∀ x, Part.rc x ∈ ps) (h10 : ∀ x, Part.wp x ∈ ps) (h11 : ∀ x,
    Part.srv x ∈ ps) (h12 : ∀ x, Part.seq x ∈ ps) (h13 : Part.hnd ∈ ps) (h14 : Part.stg ∈ ps) (h15 : Part.pair ∈ ps)
    (h16 : Part.out ∈ ps) (hx : execForwardedCompletion c status result sectors s = .next tn) :
    hide ps tn = hide ps s := by
  unfold execForwardedCompletion at hx
  repeat' split at hx
  all_goals
    obtain rfl := Host.Outcome.next.inj hx
    first | with_reducible rfl | simp only [hide_complete, hide_giveData, hide_sentEnded, hide_answerRun, implies_true,
        h0, h1, h2, h3, h4, h5, h6, h7, h8, h9, h10, h11, h12, h13, h14, h15, h16]

theorem hide_execTetherResyncEnd {s : State} {tn : State} (h0 : Part.mode ∈ ps) (h1 : Part.sys ∈ ps)
    (h2 : Part.raised ∈ ps) (h3 : Part.ev ∈ ps) (h4 : ∀ x, Part.queues x ∈ ps) (h5 : ∀ x, Part.msix x ∈ ps) (h6 : ∀ x,
    Part.mbx x ∈ ps) (h7 : ∀ x, Part.alarm x ∈ ps) (h8 : Part.cmds ∈ ps) (h9 : Part.flash ∈ ps) (h10 : ∀ x,
    Part.afe x ∈ ps) (h11 : ∀ x, Part.rc x ∈ ps) (h12 : ∀ x, Part.wp x ∈ ps) (h13 : ∀ x, Part.srv x ∈ ps) (h14 : ∀ x,
    Part.seq x ∈ ps) (h15 : Part.hnd ∈ ps) (h16 : Part.stg ∈ ps) (h17 : Part.pair ∈ ps) (h18 : Part.out ∈ ps)
    (hx : execTetherResyncEnd s = .next tn) :
    hide ps tn = hide ps s := by
  unfold execTetherResyncEnd at hx
  repeat' split at hx
  all_goals
    obtain rfl := Host.Outcome.next.inj hx
    first | with_reducible rfl | simp only [hide_raiseDev, hide_onPair, hide_markValid, hide_setMode, implies_true, h0,
        h1, h2, h3, h4, h5, h6, h7, h8, h9, h10, h11, h12, h13, h14, h15, h16, h17, h18]

theorem hide_execPairResyncProgress {s : State} {tn : State} (h0 : Part.raised ∈ ps) (h1 : ∀ x, Part.alarm x ∈ ps)
    (hx : execPairResyncProgress s = .next tn) :
    hide ps tn = hide ps s := by
  unfold execPairResyncProgress at hx
  repeat' split at hx
  all_goals
    obtain rfl := Host.Outcome.next.inj hx
    first | with_reducible rfl | simp only [hide_raiseDev, implies_true, h0, h1]

theorem hide_execJoinResyncEnd {peerSequence : BitVec 24} {s : State} {tn : State} (h0 : Part.mode ∈ ps)
    (h1 : Part.sys ∈ ps) (h2 : Part.raised ∈ ps) (h3 : Part.ev ∈ ps) (h4 : ∀ x, Part.queues x ∈ ps) (h5 : ∀ x,
    Part.msix x ∈ ps) (h6 : ∀ x, Part.mbx x ∈ ps) (h7 : ∀ x, Part.alarm x ∈ ps) (h8 : Part.cmds ∈ ps)
    (h9 : Part.flash ∈ ps) (h10 : ∀ x, Part.afe x ∈ ps) (h11 : ∀ x, Part.rc x ∈ ps) (h12 : ∀ x, Part.wp x ∈ ps)
    (h13 : ∀ x, Part.srv x ∈ ps) (h14 : ∀ x, Part.seq x ∈ ps) (h15 : Part.hnd ∈ ps) (h16 : Part.stg ∈ ps)
    (h17 : Part.mem ∈ ps) (h18 : Part.pair ∈ ps) (h19 : Part.out ∈ ps) (hx : execJoinResyncEnd peerSequence s = .next tn)
    :
    hide ps tn = hide ps s := by
  unfold execJoinResyncEnd at hx
  dsimp only at hx
  repeat' split at hx
  all_goals
    obtain rfl := Host.Outcome.next.inj hx
    first | with_reducible rfl | simp only [hide_onPair, hide_setPairRole, hide_raiseDev, hide_setMode, hide_tellRole,
        hide_releaseWithPeerOk, hide_respondRun, implies_true, h0, h1, h2, h3, h4, h5, h6, h7, h8, h9, h10, h11, h12,
        h13, h14, h15, h16, h17, h18, h19]

theorem hide_execRejoin {r : RejoinPeer} {s : State} {tn : State} (h0 : Part.raised ∈ ps) (h1 : ∀ x, Part.alarm x ∈ ps)
    (h2 : Part.vols ∈ ps) (h3 : Part.flash ∈ ps) (h4 : Part.stg ∈ ps) (h5 : Part.mem ∈ ps) (h6 : Part.pair ∈ ps)
    (h7 : Part.out ∈ ps) (hx : execRejoin r s = .next tn) :
    hide ps tn = hide ps s := by
  unfold execRejoin at hx
  dsimp only at hx
  repeat' split at hx
  all_goals
    obtain rfl := Host.Outcome.next.inj hx
    first | with_reducible rfl | simp only [hide_discardData, hide_onPair, hide_saveVols, hide_sendClusters,
        hide_endPair, hide_unbind, hide_startTetherResync, hide_setVols, implies_true, h0, h1, h2, h3, h4, h5, h6, h7]

theorem hide_execHandback {s : State} {tn : State} (h0 : Part.mode ∈ ps) (h1 : Part.sys ∈ ps) (h2 : Part.raised ∈ ps)
    (h3 : Part.ev ∈ ps) (h4 : ∀ x, Part.queues x ∈ ps) (h5 : ∀ x, Part.msix x ∈ ps) (h6 : ∀ x, Part.mbx x ∈ ps)
    (h7 : ∀ x, Part.alarm x ∈ ps) (h8 : Part.cmds ∈ ps) (h9 : Part.vols ∈ ps) (h10 : Part.flash ∈ ps) (h11 : ∀ x,
    Part.afe x ∈ ps) (h12 : ∀ x, Part.rc x ∈ ps) (h13 : ∀ x, Part.wp x ∈ ps) (h14 : ∀ x, Part.srv x ∈ ps) (h15 : ∀ x,
    Part.seq x ∈ ps) (h16 : Part.hnd ∈ ps) (h17 : Part.stg ∈ ps) (h18 : Part.mem ∈ ps) (h19 : Part.pair ∈ ps)
    (h20 : Part.out ∈ ps) (hx : execHandback s = .next tn) :
    hide ps tn = hide ps s := by
  unfold execHandback at hx
  dsimp only at hx
  repeat' split at hx
  all_goals
    obtain rfl := Host.Outcome.next.inj hx
    first | with_reducible rfl | simp only [hide_onStg, hide_setPairRole, hide_onPair, hide_raiseDev, hide_setMode,
        hide_saveVols, hide_tellRole, hide_markValid, hide_respondRun, hide_setVols, implies_true, h0, h1, h2, h3, h4,
        h5, h6, h7, h8, h9, h10, h11, h12, h13, h14, h15, h16, h17, h18, h19, h20]

theorem hide_execPairJoin {p : Port} {peer : JoinPeer} {s : State} {tn : State} (h0 : Part.sys ∈ ps)
    (h1 : Part.queues p ∈ ps) (h2 : Part.msix p ∈ ps) (h3 : Part.mbx p ∈ ps) (h4 : Part.pair ∈ ps) (h5 : Part.out ∈ ps)
    (hx : execPairJoin p peer s = .next tn) :
    hide ps tn = hide ps s := by
  unfold execPairJoin at hx
  obtain rfl := Host.Outcome.next.inj hx
  simp only [hide_serve, hide_respond, hide_beginRun, hide_onPair, hide_sendClusters, ite_self, implies_true, hide_ite,
      h0, h1, h2, h3, h4, h5]

theorem hide_execPairLeave {p : Port} {s : State} {tn : State} (h0 : Part.mode ∈ ps) (h1 : Part.sys ∈ ps)
    (h2 : Part.raised ∈ ps) (h3 : Part.ev ∈ ps) (h4 : ∀ x, Part.queues x ∈ ps) (h5 : ∀ x, Part.msix x ∈ ps) (h6 : ∀ x,
    Part.mbx x ∈ ps) (h7 : ∀ x, Part.alarm x ∈ ps) (h8 : Part.cmds ∈ ps) (h9 : Part.vols ∈ ps) (h10 : Part.flash ∈ ps)
    (h11 : ∀ x, Part.afe x ∈ ps) (h12 : ∀ x, Part.rc x ∈ ps) (h13 : ∀ x, Part.wp x ∈ ps) (h14 : ∀ x, Part.srv x ∈ ps)
    (h15 : ∀ x, Part.seq x ∈ ps) (h16 : Part.hnd ∈ ps) (h17 : Part.stg ∈ ps) (h18 : Part.mem ∈ ps) (h19 : Part.pair ∈ ps)
    (h20 : Part.out ∈ ps) (hx : execPairLeave p s = .next tn) :
    hide ps tn = hide ps s := by
  unfold execPairLeave at hx
  obtain rfl := Host.Outcome.next.inj hx
  simp only [hide_serve, hide_respond, hide_send, hide_raiseDev, hide_settleMirrorOut, hide_setMode, hide_endPair,
      hide_dropMirrors, ite_self, implies_true, hide_ite, h0, h1, h2, h3, h4, h5, h6, h7, h8, h9, h10, h11, h12, h13,
      h14, h15, h16, h17, h18, h19, h20]

theorem hide_execPairLeaveSelf {p : Port} {peerVolumes : List VolId} {s : State} {tn : State} (h0 : Part.mode ∈ ps)
    (h1 : Part.sys ∈ ps) (h2 : Part.raised ∈ ps) (h3 : Part.ev ∈ ps) (h4 : ∀ x, Part.queues x ∈ ps) (h5 : ∀ x,
    Part.msix x ∈ ps) (h6 : ∀ x, Part.mbx x ∈ ps) (h7 : ∀ x, Part.alarm x ∈ ps) (h8 : Part.cmds ∈ ps)
    (h9 : Part.vols ∈ ps) (h10 : Part.flash ∈ ps) (h11 : ∀ x, Part.afe x ∈ ps) (h12 : ∀ x, Part.rc x ∈ ps) (h13 : ∀ x,
    Part.wp x ∈ ps) (h14 : ∀ x, Part.srv x ∈ ps) (h15 : ∀ x, Part.seq x ∈ ps) (h16 : Part.hnd ∈ ps) (h17 : Part.stg ∈ ps)
    (h18 : Part.mem ∈ ps) (h19 : Part.pair ∈ ps) (h20 : Part.out ∈ ps)
    (hx : execPairLeaveSelf p peerVolumes s = .next tn) :
    hide ps tn = hide ps s := by
  unfold execPairLeaveSelf at hx
  obtain rfl := Host.Outcome.next.inj hx
  refine hide_serve h1 (h4 p) (h5 p) (h6 p) h20 (fun t r => ?_)
  repeat' split
  all_goals first | with_reducible rfl | simp only [hide_failForwardedMove, hide_failForwarded, hide_respond,
      hide_raiseDev, hide_settleMirrorOut, hide_setMode, hide_endPair, hide_dropMirrors, hide_unbind, hide_discardData,
      implies_true, h0, h1, h2, h3, h4, h5, h6, h7, h8, h9, h10, h11, h12, h13, h14, h15, h16, h17, h18, h19, h20]

theorem hide_execPairLeaveForced {p : Port} {s : State} {tn : State} (h0 : Part.sys ∈ ps) (h1 : Part.raised ∈ ps)
    (h2 : Part.queues p ∈ ps) (h3 : Part.msix p ∈ ps) (h4 : Part.mbx p ∈ ps) (h5 : ∀ x, Part.alarm x ∈ ps)
    (h6 : Part.vols ∈ ps) (h7 : Part.flash ∈ ps) (h8 : Part.stg ∈ ps) (h9 : Part.mem ∈ ps) (h10 : Part.pair ∈ ps)
    (h11 : Part.out ∈ ps) (hx : execPairLeaveForced p s = .next tn) :
    hide ps tn = hide ps s := by
  unfold execPairLeaveForced at hx
  obtain rfl := Host.Outcome.next.inj hx
  simp only [hide_serve, hide_respond, hide_saveVols, hide_endPair, hide_setVols, implies_true, h0, h1, h2, h3, h4, h5,
      h6, h7, h8, h9, h10, h11]

/-! ### Memory -/

theorem hide_execDramRead {addr : BitVec 40} {r : Requester} {o : DramObs} {s : State} {tn : State} (h0 : Part.free ∈ ps)
    (h1 : Part.raised ∈ ps) (h2 : Part.retry ∈ ps) (h3 : Part.ev ∈ ps) (h4 : ∀ x, Part.queues x ∈ ps) (h5 : ∀ x,
    Part.msix x ∈ ps) (h6 : ∀ x, Part.alarm x ∈ ps) (h7 : Part.cmds ∈ ps) (h8 : Part.flash ∈ ps) (h9 : ∀ x,
    Part.dec x ∈ ps) (h10 : ∀ x, Part.srv x ∈ ps) (h11 : Part.stg ∈ ps) (h12 : Part.dram ∈ ps) (h13 : Part.mem ∈ ps)
    (h14 : Part.pair ∈ ps) (h15 : Part.out ∈ ps) (hx : execDramRead addr r o s = .next tn) :
    hide ps tn = hide ps s := by
  unfold execDramRead at hx
  (repeat' split at hx) <;> first
    | (simp only [reduceCtorEq] at hx; done)
    | (obtain rfl := Host.Outcome.next.inj hx; with_reducible rfl)
    | (obtain rfl := Host.Outcome.next.inj hx
       rename _ = (_, _) => h
       obtain rfl := congrArg Prod.snd h
       simp only [hide_dramResult, hide_emit, hide_busErrorTo, implies_true, h0, h1, h2, h3, h4, h5, h6, h7, h8, h9, h10,
           h11, h12, h13, h14, h15]; done)

theorem hide_execDramPartialWrite {addr : BitVec 40} {bytes : List Byte} {r : Requester} {o : DramObs} {s : State}
    {tn : State} (h0 : Part.free ∈ ps) (h1 : Part.raised ∈ ps) (h2 : Part.retry ∈ ps) (h3 : Part.ev ∈ ps) (h4 : ∀ x,
    Part.queues x ∈ ps) (h5 : ∀ x, Part.msix x ∈ ps) (h6 : ∀ x, Part.alarm x ∈ ps) (h7 : Part.cmds ∈ ps)
    (h8 : Part.flash ∈ ps) (h9 : ∀ x, Part.dec x ∈ ps) (h10 : ∀ x, Part.srv x ∈ ps) (h11 : Part.stg ∈ ps)
    (h12 : Part.dram ∈ ps) (h13 : Part.mem ∈ ps) (h14 : Part.pair ∈ ps) (h15 : Part.out ∈ ps)
    (hx : execDramPartialWrite addr bytes r o s = .next tn) :
    hide ps tn = hide ps s := by
  unfold execDramPartialWrite at hx
  (repeat' split at hx) <;> first
    | (simp only [reduceCtorEq] at hx; done)
    | (obtain rfl := Host.Outcome.next.inj hx; with_reducible rfl)
    | (obtain rfl := Host.Outcome.next.inj hx; rename_i h; obtain rfl := congrArg Prod.snd h; simp only [hide_dramResult,
        hide_onMem, hide_busErrorTo, true_or, implies_true, h0, h1, h2, h3, h4, h5, h6, h7, h8, h9, h10, h11, h12, h13,
        h14, h15]; done)

theorem hide_execScrubRead {o : DramObs} {s : State} {tn : State} (h0 : Part.free ∈ ps) (h1 : Part.raised ∈ ps)
    (h2 : Part.retry ∈ ps) (h3 : Part.ev ∈ ps) (h4 : ∀ x, Part.alarm x ∈ ps) (h5 : Part.flash ∈ ps) (h6 : ∀ x,
    Part.srv x ∈ ps) (h7 : Part.dram ∈ ps) (h8 : Part.mem ∈ ps) (hx : execScrubRead o s = .next tn) :
    hide ps tn = hide ps s := by
  unfold execScrubRead at hx
  dsimp only at hx
  repeat' split at hx
  all_goals
    obtain rfl := Host.Outcome.next.inj hx
    first | with_reducible rfl | simp only [hide_dramResult, hide_onMem, hide_proposePage, hide_raiseDev, hide_scrubNext,
        or_self, implies_true, h0, h1, h2, h3, h4, h5, h6, h7, h8]

theorem hide_execScrubRestart {s : State} {tn : State} (h0 : Part.mem ∈ ps) (hx : execScrubRestart s = .next tn) :
    hide ps tn = hide ps s := by
  unfold execScrubRestart at hx
  repeat' split at hx
  all_goals
    obtain rfl := Host.Outcome.next.inj hx
    first | with_reducible rfl | simp only [hide_onMem, or_true, h0]

theorem hide_execDerrPop {s : State} {tn : State} (h0 : Part.mem ∈ ps) (h1 : Part.out ∈ ps)
    (hx : execDerrPop s = .next tn) :
    hide ps tn = hide ps s := by
  unfold execDerrPop at hx
  repeat' split at hx
  all_goals
    obtain rfl := Host.Outcome.next.inj hx
    first | with_reducible rfl | simp only [hide_emit, hide_onMem, or_true, h0, h1]

theorem hide_execDerrLostRead {s : State} {tn : State} (h0 : Part.mem ∈ ps) (h1 : Part.out ∈ ps)
    (hx : execDerrLostRead s = .next tn) :
    hide ps tn = hide ps s := by
  unfold execDerrLostRead at hx
  repeat' split at hx
  all_goals
    obtain rfl := Host.Outcome.next.inj hx
    first | with_reducible rfl | simp only [hide_emit, hide_onMem, or_true, h0, h1]

theorem hide_execCacheErrorsRead {s : State} {tn : State} (h0 : Part.mem ∈ ps) (h1 : Part.out ∈ ps)
    (hx : execCacheErrorsRead s = .next tn) :
    hide ps tn = hide ps s := by
  unfold execCacheErrorsRead at hx
  repeat' split at hx
  all_goals
    obtain rfl := Host.Outcome.next.inj hx
    first | with_reducible rfl | simp only [hide_emit, hide_onCache, h0, h1]

theorem hide_execBallastAllocate {owner : Fin 12} {size : Nat} {s : State} {tn : State} (h0 : Part.raised ∈ ps)
    (h1 : ∀ x, Part.alarm x ∈ ps) (h2 : Part.mem ∈ ps) (h3 : Part.out ∈ ps)
    (hx : execBallastAllocate owner size s = .next tn) :
    hide ps tn = hide ps s := by
  unfold execBallastAllocate at hx
  dsimp only at hx
  repeat' split at hx
  all_goals
    obtain rfl := Host.Outcome.next.inj hx
    first | with_reducible rfl | simp only [hide_ballastTake, hide_emit, implies_true, h0, h1, h2, h3]

theorem hide_execBallastFree {owner : Fin 12} {handle : BitVec 32} {s : State} {tn : State} (h0 : Part.raised ∈ ps)
    (h1 : ∀ x, Part.alarm x ∈ ps) (h2 : Part.mem ∈ ps) (hx : execBallastFree owner handle s = .next tn) :
    hide ps tn = hide ps s := by
  unfold execBallastFree at hx
  repeat' split at hx
  all_goals
    obtain rfl := Host.Outcome.next.inj hx
    first | with_reducible rfl | simp only [hide_ballastGive, implies_true, h0, h1, h2]

theorem hide_execBallastPass {owner : Fin 12} {handle : BitVec 32} {newOwner : Fin 12} {s : State} {tn : State}
    (h0 : Part.raised ∈ ps) (h1 : ∀ x, Part.alarm x ∈ ps) (h2 : Part.mem ∈ ps)
    (hx : execBallastPass owner handle newOwner s = .next tn) :
    hide ps tn = hide ps s := by
  unfold execBallastPass at hx
  repeat' split at hx
  all_goals
    obtain rfl := Host.Outcome.next.inj hx
    first | with_reducible rfl | simp only [hide_ballastPassTo, implies_true, h0, h1, h2]

theorem hide_execTripleWrite {op : TripleOp} {s : State} {tn : State} (h0 : Part.sys ∈ ps) (h1 : Part.mem ∈ ps)
    (h2 : Part.pair ∈ ps) (hx : execTripleWrite op s = .next tn) :
    hide ps tn = hide ps s := by
  unfold execTripleWrite at hx
  dsimp only at hx
  repeat' split at hx
  all_goals
    obtain rfl := Host.Outcome.next.inj hx
    first | with_reducible rfl | simp only [hide_onMem, hide_syncTriple, or_true, h0, h1, h2]

theorem hide_execTripleCommit {set : TripleSet} {s : State} {tn : State} (h0 : Part.sys ∈ ps) (h1 : Part.mem ∈ ps)
    (h2 : Part.pair ∈ ps) (hx : execTripleCommit set s = .next tn) :
    hide ps tn = hide ps s := by
  unfold execTripleCommit at hx
  repeat' split at hx
  all_goals
    obtain rfl := Host.Outcome.next.inj hx
    first | with_reducible rfl | simp only [hide_syncTriple, hide_onMem, or_true, h0, h1, h2]

theorem hide_execTripleRead {word : Fin 31} {banks : Vector (BitVec 64) 3} {again : Vector (BitVec 64) 3} {s : State}
    {tn : State} (h0 : Part.raised ∈ ps) (h1 : Part.retry ∈ ps) (h2 : ∀ x, Part.alarm x ∈ ps) (h3 : ∀ x, Part.srv x ∈ ps)
    (h4 : Part.mem ∈ ps) (h5 : Part.out ∈ ps) (hx : execTripleRead word banks again s = .next tn) :
    hide ps tn = hide ps s := by
  unfold execTripleRead at hx
  dsimp only at hx
  repeat' split at hx
  all_goals
    obtain rfl := Host.Outcome.next.inj hx
    first | with_reducible rfl | simp only [hide_onMem, hide_emit, hide_tripleRepair, hide_raiseAt, hide_abort,
        hide_foldl, or_true, implies_true, h0, h1, h2, h3, h4, h5]

theorem hide_execCacheAccess {core : CoreNo} {addr : BitVec 40} {a : CoreAccess} {s : State} {tn : State}
    (h0 : Part.dram ∈ ps) (h1 : Part.mem ∈ ps) (h2 : Part.out ∈ ps) (hx : execCacheAccess core addr a s = .next tn) :
    hide ps tn = hide ps s := by
  unfold execCacheAccess at hx
  try dsimp only at hx
  (repeat' split at hx) <;> first
    | (simp only [reduceCtorEq] at hx; done)
    | (obtain rfl := Host.Outcome.next.inj hx; with_reducible rfl)
    | (obtain rfl := Host.Outcome.next.inj hx; simp only [hide_uncached, hide_cacheServe, hide_onCache, hide_noteMiss,
        h0, h1, h2]; done)

theorem hide_execCacheFillDone {line : BitVec 34} {s : State} {tn : State} (h0 : Part.dram ∈ ps) (h1 : Part.mem ∈ ps)
    (h2 : Part.out ∈ ps) (hx : execCacheFillDone line s = .next tn) :
    hide ps tn = hide ps s := by
  unfold execCacheFillDone at hx
  dsimp only at hx
  repeat' split at hx
  all_goals
    obtain rfl := Host.Outcome.next.inj hx
    first | with_reducible rfl | simp only [hide_onCache, hide_maintRelease, hide_cacheServe, hide_foldl, implies_true,
        h0, h1, h2]

theorem hide_execCacheWritebackAccept {line : BitVec 34} {s : State} {tn : State} (h0 : Part.dram ∈ ps)
    (h1 : Part.mem ∈ ps) (hx : execCacheWritebackAccept line s = .next tn) :
    hide ps tn = hide ps s := by
  unfold execCacheWritebackAccept at hx
  repeat' split at hx
  all_goals
    obtain rfl := Host.Outcome.next.inj hx
    first | with_reducible rfl | simp only [hide_maintRelease, hide_onCache, hide_onMem, true_or, h0, h1]

theorem hide_execCacheInvalidateLine {s : State} {tn : State} (h0 : Part.dram ∈ ps) (h1 : Part.mem ∈ ps)
    (hx : execCacheInvalidateLine s = .next tn) :
    hide ps tn = hide ps s := by
  unfold execCacheInvalidateLine at hx
  repeat' split at hx
  all_goals
    obtain rfl := Host.Outcome.next.inj hx
    first | with_reducible rfl | simp only [hide_maintByAddress, h0, h1]

theorem hide_execCacheCleanLine {s : State} {tn : State} (h0 : Part.dram ∈ ps) (h1 : Part.mem ∈ ps)
    (hx : execCacheCleanLine s = .next tn) :
    hide ps tn = hide ps s := by
  unfold execCacheCleanLine at hx
  repeat' split at hx
  all_goals
    obtain rfl := Host.Outcome.next.inj hx
    first | with_reducible rfl | simp only [hide_maintByAddress, h0, h1]

theorem hide_execCacheCleanInvalidateLine {s : State} {tn : State} (h0 : Part.dram ∈ ps) (h1 : Part.mem ∈ ps)
    (hx : execCacheCleanInvalidateLine s = .next tn) :
    hide ps tn = hide ps s := by
  unfold execCacheCleanInvalidateLine at hx
  repeat' split at hx
  all_goals
    obtain rfl := Host.Outcome.next.inj hx
    first | with_reducible rfl | simp only [hide_maintByAddress, h0, h1]

theorem hide_execCacheInvalidateAll {s : State} {tn : State} (h0 : Part.dram ∈ ps) (h1 : Part.mem ∈ ps)
    (hx : execCacheInvalidateAll s = .next tn) :
    hide ps tn = hide ps s := by
  unfold execCacheInvalidateAll at hx
  repeat' split at hx
  all_goals
    obtain rfl := Host.Outcome.next.inj hx
    first | with_reducible rfl | simp only [hide_maintAll, h0, h1]

theorem hide_execCacheCleanAll {s : State} {tn : State} (h0 : Part.dram ∈ ps) (h1 : Part.mem ∈ ps)
    (hx : execCacheCleanAll s = .next tn) :
    hide ps tn = hide ps s := by
  unfold execCacheCleanAll at hx
  repeat' split at hx
  all_goals
    obtain rfl := Host.Outcome.next.inj hx
    first | with_reducible rfl | simp only [hide_maintAll, h0, h1]

theorem hide_execCacheCleanInvalidateAll {s : State} {tn : State} (h0 : Part.dram ∈ ps) (h1 : Part.mem ∈ ps)
    (hx : execCacheCleanInvalidateAll s = .next tn) :
    hide ps tn = hide ps s := by
  unfold execCacheCleanInvalidateAll at hx
  repeat' split at hx
  all_goals
    obtain rfl := Host.Outcome.next.inj hx
    first | with_reducible rfl | simp only [hide_maintAll, h0, h1]

theorem hide_execCacheEnable {s : State} {tn : State} (h0 : Part.mem ∈ ps) (hx : execCacheEnable s = .next tn) :
    hide ps tn = hide ps s := by
  unfold execCacheEnable at hx
  repeat' split at hx
  all_goals
    obtain rfl := Host.Outcome.next.inj hx
    first | with_reducible rfl | simp only [hide_onCache, h0]

theorem hide_execCacheDisable {s : State} {tn : State} (h0 : Part.mem ∈ ps) (hx : execCacheDisable s = .next tn) :
    hide ps tn = hide ps s := by
  unfold execCacheDisable at hx
  repeat' split at hx
  all_goals
    obtain rfl := Host.Outcome.next.inj hx
    first | with_reducible rfl | simp only [hide_onCache, h0]

/-! ### Staging -/

theorem hide_execClusterProgram {ok : Bool} {again : Bool} {s : State} {tn : State} (h0 : Part.sys ∈ ps)
    (h1 : Part.raised ∈ ps) (h2 : Part.retry ∈ ps) (h3 : Part.ev ∈ ps) (h4 : ∀ x, Part.queues x ∈ ps) (h5 : ∀ x,
    Part.msix x ∈ ps) (h6 : ∀ x, Part.alarm x ∈ ps) (h7 : Part.cmds ∈ ps) (h8 : ∀ x, Part.seq x ∈ ps)
    (h9 : Part.stg ∈ ps) (h10 : Part.mem ∈ ps) (h11 : Part.pair ∈ ps) (h12 : Part.out ∈ ps)
    (hx : execClusterProgram ok again s = .next tn) :
    hide ps tn = hide ps s := by
  unfold execClusterProgram at hx
  dsimp only at hx
  (repeat' split at hx) <;> obtain rfl := Host.Outcome.next.inj hx <;> clear hx <;> first
    | with_reducible rfl
    | (simp only [hide_judgeFull, hide_programmed, hide_gcStart, hide_settleStaged, hide_ventSpill, hide_settleMirrors,
        implies_true, h0, h1, h2, h3, h4, h5, h6, h7, h8, h9, h10, h11, h12]; done)
    | (rename State.program _ _ _ _ _ = some _ => h
       have hp := hide_program (ps := ps) (by assumption) (by assumption) (by assumption) (by assumption) (by assumption)
           (by assumption)  h
       simp only [hp, hide_judgeFull, hide_programmed, hide_gcStart, hide_settleStaged, hide_ventSpill,
           hide_settleMirrors, implies_true, h0, h1, h2, h3, h4, h5, h6, h7, h8, h9, h10, h11, h12]; done)

theorem hide_execNandCodewordRead {loc : BitVec 34} {sector : Fin 16} {o : NandReadObs} {s : State} {tn : State}
    (h0 : Part.raised ∈ ps) (h1 : Part.retry ∈ ps) (h2 : Part.ev ∈ ps) (h3 : ∀ x, Part.alarm x ∈ ps) (h4 : Part.stg ∈ ps)
    (h5 : Part.out ∈ ps) (hx : execNandCodewordRead loc sector o s = .next tn) :
    hide ps tn = hide ps s := by
  unfold execNandCodewordRead at hx
  dsimp only at hx
  repeat' split at hx
  all_goals
    obtain rfl := Host.Outcome.next.inj hx
    first | with_reducible rfl | simp only [hide_nandRead, hide_nandTransient, hide_logRetry, hide_raiseNand,
        hide_nandRebuilt, hide_nandLost, hide_foldl, implies_true, h0, h1, h2, h3, h4, h5]

theorem hide_execNandOpTimeout {c : ChanNo} {lun : Fin 16} {op : NandOp} {again : Bool} {s : State} {tn : State}
    (h0 : Part.raised ∈ ps) (h1 : Part.retry ∈ ps) (h2 : Part.ev ∈ ps) (h3 : ∀ x, Part.alarm x ∈ ps) (h4 : Part.stg ∈ ps)
    (h5 : Part.out ∈ ps) (hx : execNandOpTimeout c lun op again s = .next tn) :
    hide ps tn = hide ps s := by
  unfold execNandOpTimeout at hx
  repeat' split at hx
  all_goals
    obtain rfl := Host.Outcome.next.inj hx
    first | with_reducible rfl | simp only [hide_emit, hide_onStg, hide_nandTransient, hide_proposeLun, hide_logRetry,
        implies_true, h0, h1, h2, h3, h4, h5]

theorem hide_execGcCopy {ok : Bool} {again : Bool} {s : State} {tn : State} (h0 : Part.sys ∈ ps) (h1 : Part.raised ∈ ps)
    (h2 : Part.retry ∈ ps) (h3 : Part.ev ∈ ps) (h4 : ∀ x, Part.alarm x ∈ ps) (h5 : Part.stg ∈ ps) (h6 : Part.out ∈ ps)
    (hx : execGcCopy ok again s = .next tn) :
    hide ps tn = hide ps s := by
  unfold execGcCopy at hx
  dsimp only at hx
  repeat' split at hx
  all_goals
    obtain rfl := Host.Outcome.next.inj hx
    first | with_reducible rfl | simp only [hide_onStg, hide_copyOne, hide_gcStart, implies_true, h0, h1, h2, h3, h4, h5,
        h6]

theorem hide_execJournalPageProgram {ok : Bool} {again : Bool} {s : State} {tn : State} (h0 : Part.sys ∈ ps)
    (h1 : Part.raised ∈ ps) (h2 : Part.retry ∈ ps) (h3 : Part.ev ∈ ps) (h4 : ∀ x, Part.queues x ∈ ps) (h5 : ∀ x,
    Part.msix x ∈ ps) (h6 : ∀ x, Part.alarm x ∈ ps) (h7 : Part.cmds ∈ ps) (h8 : Part.stg ∈ ps) (h9 : Part.pair ∈ ps)
    (h10 : Part.out ∈ ps) (hx : execJournalPageProgram ok again s = .next tn) :
    hide ps tn = hide ps s := by
  unfold execJournalPageProgram at hx
  (repeat' split at hx) <;> obtain rfl := Host.Outcome.next.inj hx <;> clear hx <;> first
    | with_reducible rfl
    | (rename State.programJournal _ _ _ = some _ => h
       have hp := hide_programJournal (ps := ps) (by assumption) (by assumption) (by assumption) (by assumption)
           (by assumption) (by assumption)  (by assumption) h
       simp only [hp, hide_settleFlush, hide_onStg, implies_true, h4, h5, h7, h8, h9, h10]; done)

theorem hide_execBlockErase {lun : Fin 16} {block : Nat} {c : ChanNo} {ok : Bool} {again : Bool} {s : State} {tn : State}
    (h0 : Part.raised ∈ ps) (h1 : Part.retry ∈ ps) (h2 : Part.ev ∈ ps) (h3 : ∀ x, Part.alarm x ∈ ps) (h4 : ∀ x,
    Part.seq x ∈ ps) (h5 : Part.stg ∈ ps) (h6 : Part.out ∈ ps) (hx : execBlockErase lun block c ok again s = .next tn) :
    hide ps tn = hide ps s := by
  unfold execBlockErase at hx
  dsimp only at hx
  repeat' split at hx
  all_goals
    obtain rfl := Host.Outcome.next.inj hx
    first | with_reducible rfl | simp only [hide_emit, hide_onStg, hide_erasedSb, hide_nandTransient, hide_proposeBlock,
        hide_foldl, implies_true, h0, h1, h2, h3, h4, h5, h6]

theorem hide_execCheckpoint {s : State} {tn : State} (h0 : Part.free ∈ ps) (h1 : Part.sys ∈ ps) (h2 : Part.raised ∈ ps)
    (h3 : Part.retry ∈ ps) (h4 : Part.ev ∈ ps) (h5 : ∀ x, Part.queues x ∈ ps) (h6 : ∀ x, Part.msix x ∈ ps) (h7 : ∀ x,
    Part.alarm x ∈ ps) (h8 : Part.cmds ∈ ps) (h9 : Part.stg ∈ ps) (h10 : Part.mem ∈ ps) (h11 : Part.pair ∈ ps)
    (h12 : Part.out ∈ ps) (hx : execCheckpoint s = .next tn) :
    hide ps tn = hide ps s := by
  unfold execCheckpoint at hx
  dsimp only at hx
  repeat' split at hx
  all_goals
    obtain rfl := Host.Outcome.next.inj hx
    first | with_reducible rfl | simp only [hide_freeInt, hide_metadataPage, hide_writeRoot, hide_onStg,
        hide_settleFlush, hide_raiseDev, hide_foldl, implies_true, h0, h1, h2, h3, h4, h5, h6, h7, h8, h9, h10, h11, h12]

theorem hide_execRetentionTick {sensors : Vector (Option Int) 16} {s : State} {tn : State} (h0 : Part.raised ∈ ps)
    (h1 : ∀ x, Part.alarm x ∈ ps) (h2 : Part.stg ∈ ps) (hx : execRetentionTick sensors s = .next tn) :
    hide ps tn = hide ps s := by
  unfold execRetentionTick at hx
  obtain rfl := Host.Outcome.next.inj hx
  simp only [hide_gcStart, hide_onStg, implies_true, h0, h1, h2]

theorem hide_execZqCalibration {s : State} {tn : State} (h0 : Part.stg ∈ ps) (h1 : Part.out ∈ ps)
    (hx : execZqCalibration s = .next tn) :
    hide ps tn = hide ps s := by
  unfold execZqCalibration at hx
  obtain rfl := Host.Outcome.next.inj hx
  simp only [hide_emit, hide_onStg, hide_foldl, implies_true, h0, h1]

theorem hide_execLunRetire {c : ChanNo} {lun : Fin 16} {s : State} {tn : State} (h0 : Part.stg ∈ ps)
    (hx : execLunRetire c lun s = .next tn) :
    hide ps tn = hide ps s := by
  unfold execLunRetire at hx
  repeat' split at hx
  all_goals
    obtain rfl := Host.Outcome.next.inj hx
    first | with_reducible rfl | simp only [hide_onStg, h0]

end Sys2Proof.Laws
end

