-- ==== Sys2Proof/Laws/Frames.lean ====
section
/-! SUPPORT. Membership in the lists the frames are written with. -/

namespace Sys2Proof.Laws

set_option Elab.async false

open Sys2Proof Sys2Proof.Machine Sys2Proof.Safety

theorem mem_every {f : BayNo → Part} {x : Part} : x ∈ every f ↔ ∃ b, f b = x := by
  simp only [every, List.mem_map, List.mem_finRange, true_and]

theorem mem_both {f : Port → Part} {x : Part} : x ∈ both f ↔ ∃ p, f p = x := by
  simp only [both, List.mem_cons, List.not_mem_nil, or_false]
  constructor
  · rintro (h | h)
    · exact ⟨0, h.symm⟩
    · exact ⟨1, h.symm⟩
  · rintro ⟨p, rfl⟩
    match p with
    | 0 => exact Or.inl rfl
    | 1 => exact Or.inr rfl

/-- A command's frame from its meaning's: the parts it writes are all listed. -/
theorem frame_of_hide {ps : List Part} {i : Instr} {s t : State} (h : exec i s = .next t)
    (hh : exec i s = .next t → hide ps t = hide ps s) : Unchanged ps s t := unchanged_of_hide (hh h)

end Sys2Proof.Laws
end

