-- ==== Sys2Proof/Laws/State.lean ====
section
/-! SUPPORT. What each named update of the state leaves alone and what it changes: one lemma per field and update. -/

namespace Sys2Proof.Laws

open Sys2Proof Sys2Proof.Machine

variable (s : State)

/-! ### onSys -/

@[simp] theorem onSys_pending (f : Sys → Sys) : (s.onSys f).pending = s.pending := rfl
@[simp] theorem onSys_ev (f : Sys → Sys) : (s.onSys f).ev = s.ev := rfl
@[simp] theorem onSys_ports (f : Sys → Sys) : (s.onSys f).ports = s.ports := rfl
@[simp] theorem onSys_bridle (f : Sys → Sys) : (s.onSys f).bridle = s.bridle := rfl
@[simp] theorem onSys_bridleTie (f : Sys → Sys) : (s.onSys f).bridleTie = s.bridleTie := rfl
@[simp] theorem onSys_cmds (f : Sys → Sys) : (s.onSys f).cmds = s.cmds := rfl
@[simp] theorem onSys_vols (f : Sys → Sys) : (s.onSys f).vols = s.vols := rfl
@[simp] theorem onSys_params (f : Sys → Sys) : (s.onSys f).params = s.params := rfl
@[simp] theorem onSys_flash (f : Sys → Sys) : (s.onSys f).flash = s.flash := rfl
@[simp] theorem onSys_bays (f : Sys → Sys) : (s.onSys f).bays = s.bays := rfl
@[simp] theorem onSys_pool (f : Sys → Sys) : (s.onSys f).pool = s.pool := rfl
@[simp] theorem onSys_hnd (f : Sys → Sys) : (s.onSys f).hnd = s.hnd := rfl
@[simp] theorem onSys_stg (f : Sys → Sys) : (s.onSys f).stg = s.stg := rfl
@[simp] theorem onSys_mem (f : Sys → Sys) : (s.onSys f).mem = s.mem := rfl
@[simp] theorem onSys_pair (f : Sys → Sys) : (s.onSys f).pair = s.pair := rfl
@[simp] theorem onSys_out (f : Sys → Sys) : (s.onSys f).out = s.out := rfl
@[simp] theorem onSys_sys (f : Sys → Sys) : (s.onSys f).sys = f s.sys := rfl

/-! ### onEv -/

@[simp] theorem onEv_pending (f : EventPath → EventPath) : (s.onEv f).pending = s.pending := rfl
@[simp] theorem onEv_sys (f : EventPath → EventPath) : (s.onEv f).sys = s.sys := rfl
@[simp] theorem onEv_ports (f : EventPath → EventPath) : (s.onEv f).ports = s.ports := rfl
@[simp] theorem onEv_bridle (f : EventPath → EventPath) : (s.onEv f).bridle = s.bridle := rfl
@[simp] theorem onEv_bridleTie (f : EventPath → EventPath) : (s.onEv f).bridleTie = s.bridleTie := rfl
@[simp] theorem onEv_cmds (f : EventPath → EventPath) : (s.onEv f).cmds = s.cmds := rfl
@[simp] theorem onEv_vols (f : EventPath → EventPath) : (s.onEv f).vols = s.vols := rfl
@[simp] theorem onEv_params (f : EventPath → EventPath) : (s.onEv f).params = s.params := rfl
@[simp] theorem onEv_flash (f : EventPath → EventPath) : (s.onEv f).flash = s.flash := rfl
@[simp] theorem onEv_bays (f : EventPath → EventPath) : (s.onEv f).bays = s.bays := rfl
@[simp] theorem onEv_pool (f : EventPath → EventPath) : (s.onEv f).pool = s.pool := rfl
@[simp] theorem onEv_hnd (f : EventPath → EventPath) : (s.onEv f).hnd = s.hnd := rfl
@[simp] theorem onEv_stg (f : EventPath → EventPath) : (s.onEv f).stg = s.stg := rfl
@[simp] theorem onEv_mem (f : EventPath → EventPath) : (s.onEv f).mem = s.mem := rfl
@[simp] theorem onEv_pair (f : EventPath → EventPath) : (s.onEv f).pair = s.pair := rfl
@[simp] theorem onEv_out (f : EventPath → EventPath) : (s.onEv f).out = s.out := rfl
@[simp] theorem onEv_ev (f : EventPath → EventPath) : (s.onEv f).ev = f s.ev := rfl

/-! ### onPort -/

@[simp] theorem onPort_pending (p : Port) (f : PortState → PortState) : (s.onPort p f).pending = s.pending := rfl
@[simp] theorem onPort_sys (p : Port) (f : PortState → PortState) : (s.onPort p f).sys = s.sys := rfl
@[simp] theorem onPort_ev (p : Port) (f : PortState → PortState) : (s.onPort p f).ev = s.ev := rfl
@[simp] theorem onPort_bridle (p : Port) (f : PortState → PortState) : (s.onPort p f).bridle = s.bridle := rfl
@[simp] theorem onPort_bridleTie (p : Port) (f : PortState → PortState) : (s.onPort p f).bridleTie = s.bridleTie := rfl
@[simp] theorem onPort_cmds (p : Port) (f : PortState → PortState) : (s.onPort p f).cmds = s.cmds := rfl
@[simp] theorem onPort_vols (p : Port) (f : PortState → PortState) : (s.onPort p f).vols = s.vols := rfl
@[simp] theorem onPort_params (p : Port) (f : PortState → PortState) : (s.onPort p f).params = s.params := rfl
@[simp] theorem onPort_flash (p : Port) (f : PortState → PortState) : (s.onPort p f).flash = s.flash := rfl
@[simp] theorem onPort_bays (p : Port) (f : PortState → PortState) : (s.onPort p f).bays = s.bays := rfl
@[simp] theorem onPort_pool (p : Port) (f : PortState → PortState) : (s.onPort p f).pool = s.pool := rfl
@[simp] theorem onPort_hnd (p : Port) (f : PortState → PortState) : (s.onPort p f).hnd = s.hnd := rfl
@[simp] theorem onPort_stg (p : Port) (f : PortState → PortState) : (s.onPort p f).stg = s.stg := rfl
@[simp] theorem onPort_mem (p : Port) (f : PortState → PortState) : (s.onPort p f).mem = s.mem := rfl
@[simp] theorem onPort_pair (p : Port) (f : PortState → PortState) : (s.onPort p f).pair = s.pair := rfl
@[simp] theorem onPort_out (p : Port) (f : PortState → PortState) : (s.onPort p f).out = s.out := rfl

/-! ### onQueue -/

@[simp] theorem onQueue_pending (p : Port) (q : QueueNo) (f : QueuePair → QueuePair) : (s.onQueue p q f).pending = s.pending := rfl
@[simp] theorem onQueue_sys (p : Port) (q : QueueNo) (f : QueuePair → QueuePair) : (s.onQueue p q f).sys = s.sys := rfl
@[simp] theorem onQueue_ev (p : Port) (q : QueueNo) (f : QueuePair → QueuePair) : (s.onQueue p q f).ev = s.ev := rfl
@[simp] theorem onQueue_bridle (p : Port) (q : QueueNo) (f : QueuePair → QueuePair) : (s.onQueue p q f).bridle = s.bridle := rfl
@[simp] theorem onQueue_bridleTie (p : Port) (q : QueueNo) (f : QueuePair → QueuePair) : (s.onQueue p q f).bridleTie = s.bridleTie := rfl
@[simp] theorem onQueue_cmds (p : Port) (q : QueueNo) (f : QueuePair → QueuePair) : (s.onQueue p q f).cmds = s.cmds := rfl
@[simp] theorem onQueue_vols (p : Port) (q : QueueNo) (f : QueuePair → QueuePair) : (s.onQueue p q f).vols = s.vols := rfl
@[simp] theorem onQueue_params (p : Port) (q : QueueNo) (f : QueuePair → QueuePair) : (s.onQueue p q f).params = s.params := rfl
@[simp] theorem onQueue_flash (p : Port) (q : QueueNo) (f : QueuePair → QueuePair) : (s.onQueue p q f).flash = s.flash := rfl
@[simp] theorem onQueue_bays (p : Port) (q : QueueNo) (f : QueuePair → QueuePair) : (s.onQueue p q f).bays = s.bays := rfl
@[simp] theorem onQueue_pool (p : Port) (q : QueueNo) (f : QueuePair → QueuePair) : (s.onQueue p q f).pool = s.pool := rfl
@[simp] theorem onQueue_hnd (p : Port) (q : QueueNo) (f : QueuePair → QueuePair) : (s.onQueue p q f).hnd = s.hnd := rfl
@[simp] theorem onQueue_stg (p : Port) (q : QueueNo) (f : QueuePair → QueuePair) : (s.onQueue p q f).stg = s.stg := rfl
@[simp] theorem onQueue_mem (p : Port) (q : QueueNo) (f : QueuePair → QueuePair) : (s.onQueue p q f).mem = s.mem := rfl
@[simp] theorem onQueue_pair (p : Port) (q : QueueNo) (f : QueuePair → QueuePair) : (s.onQueue p q f).pair = s.pair := rfl
@[simp] theorem onQueue_out (p : Port) (q : QueueNo) (f : QueuePair → QueuePair) : (s.onQueue p q f).out = s.out := rfl

/-! ### onMbx -/

@[simp] theorem onMbx_pending (p : Port) (f : Mailbox → Mailbox) : (s.onMbx p f).pending = s.pending := rfl
@[simp] theorem onMbx_sys (p : Port) (f : Mailbox → Mailbox) : (s.onMbx p f).sys = s.sys := rfl
@[simp] theorem onMbx_ev (p : Port) (f : Mailbox → Mailbox) : (s.onMbx p f).ev = s.ev := rfl
@[simp] theorem onMbx_bridle (p : Port) (f : Mailbox → Mailbox) : (s.onMbx p f).bridle = s.bridle := rfl
@[simp] theorem onMbx_bridleTie (p : Port) (f : Mailbox → Mailbox) : (s.onMbx p f).bridleTie = s.bridleTie := rfl
@[simp] theorem onMbx_cmds (p : Port) (f : Mailbox → Mailbox) : (s.onMbx p f).cmds = s.cmds := rfl
@[simp] theorem onMbx_vols (p : Port) (f : Mailbox → Mailbox) : (s.onMbx p f).vols = s.vols := rfl
@[simp] theorem onMbx_params (p : Port) (f : Mailbox → Mailbox) : (s.onMbx p f).params = s.params := rfl
@[simp] theorem onMbx_flash (p : Port) (f : Mailbox → Mailbox) : (s.onMbx p f).flash = s.flash := rfl
@[simp] theorem onMbx_bays (p : Port) (f : Mailbox → Mailbox) : (s.onMbx p f).bays = s.bays := rfl
@[simp] theorem onMbx_pool (p : Port) (f : Mailbox → Mailbox) : (s.onMbx p f).pool = s.pool := rfl
@[simp] theorem onMbx_hnd (p : Port) (f : Mailbox → Mailbox) : (s.onMbx p f).hnd = s.hnd := rfl
@[simp] theorem onMbx_stg (p : Port) (f : Mailbox → Mailbox) : (s.onMbx p f).stg = s.stg := rfl
@[simp] theorem onMbx_mem (p : Port) (f : Mailbox → Mailbox) : (s.onMbx p f).mem = s.mem := rfl
@[simp] theorem onMbx_pair (p : Port) (f : Mailbox → Mailbox) : (s.onMbx p f).pair = s.pair := rfl
@[simp] theorem onMbx_out (p : Port) (f : Mailbox → Mailbox) : (s.onMbx p f).out = s.out := rfl

/-! ### onRing -/

@[simp] theorem onRing_pending (p : Port) (f : EvRing → EvRing) : (s.onRing p f).pending = s.pending := rfl
@[simp] theorem onRing_sys (p : Port) (f : EvRing → EvRing) : (s.onRing p f).sys = s.sys := rfl
@[simp] theorem onRing_ev (p : Port) (f : EvRing → EvRing) : (s.onRing p f).ev = s.ev := rfl
@[simp] theorem onRing_bridle (p : Port) (f : EvRing → EvRing) : (s.onRing p f).bridle = s.bridle := rfl
@[simp] theorem onRing_bridleTie (p : Port) (f : EvRing → EvRing) : (s.onRing p f).bridleTie = s.bridleTie := rfl
@[simp] theorem onRing_cmds (p : Port) (f : EvRing → EvRing) : (s.onRing p f).cmds = s.cmds := rfl
@[simp] theorem onRing_vols (p : Port) (f : EvRing → EvRing) : (s.onRing p f).vols = s.vols := rfl
@[simp] theorem onRing_params (p : Port) (f : EvRing → EvRing) : (s.onRing p f).params = s.params := rfl
@[simp] theorem onRing_flash (p : Port) (f : EvRing → EvRing) : (s.onRing p f).flash = s.flash := rfl
@[simp] theorem onRing_bays (p : Port) (f : EvRing → EvRing) : (s.onRing p f).bays = s.bays := rfl
@[simp] theorem onRing_pool (p : Port) (f : EvRing → EvRing) : (s.onRing p f).pool = s.pool := rfl
@[simp] theorem onRing_hnd (p : Port) (f : EvRing → EvRing) : (s.onRing p f).hnd = s.hnd := rfl
@[simp] theorem onRing_stg (p : Port) (f : EvRing → EvRing) : (s.onRing p f).stg = s.stg := rfl
@[simp] theorem onRing_mem (p : Port) (f : EvRing → EvRing) : (s.onRing p f).mem = s.mem := rfl
@[simp] theorem onRing_pair (p : Port) (f : EvRing → EvRing) : (s.onRing p f).pair = s.pair := rfl
@[simp] theorem onRing_out (p : Port) (f : EvRing → EvRing) : (s.onRing p f).out = s.out := rfl

/-! ### onBay -/

@[simp] theorem onBay_pending (b : BayNo) (f : Bay → Bay) : (s.onBay b f).pending = s.pending := rfl
@[simp] theorem onBay_sys (b : BayNo) (f : Bay → Bay) : (s.onBay b f).sys = s.sys := rfl
@[simp] theorem onBay_ev (b : BayNo) (f : Bay → Bay) : (s.onBay b f).ev = s.ev := rfl
@[simp] theorem onBay_ports (b : BayNo) (f : Bay → Bay) : (s.onBay b f).ports = s.ports := rfl
@[simp] theorem onBay_bridle (b : BayNo) (f : Bay → Bay) : (s.onBay b f).bridle = s.bridle := rfl
@[simp] theorem onBay_bridleTie (b : BayNo) (f : Bay → Bay) : (s.onBay b f).bridleTie = s.bridleTie := rfl
@[simp] theorem onBay_cmds (b : BayNo) (f : Bay → Bay) : (s.onBay b f).cmds = s.cmds := rfl
@[simp] theorem onBay_vols (b : BayNo) (f : Bay → Bay) : (s.onBay b f).vols = s.vols := rfl
@[simp] theorem onBay_params (b : BayNo) (f : Bay → Bay) : (s.onBay b f).params = s.params := rfl
@[simp] theorem onBay_flash (b : BayNo) (f : Bay → Bay) : (s.onBay b f).flash = s.flash := rfl
@[simp] theorem onBay_pool (b : BayNo) (f : Bay → Bay) : (s.onBay b f).pool = s.pool := rfl
@[simp] theorem onBay_hnd (b : BayNo) (f : Bay → Bay) : (s.onBay b f).hnd = s.hnd := rfl
@[simp] theorem onBay_stg (b : BayNo) (f : Bay → Bay) : (s.onBay b f).stg = s.stg := rfl
@[simp] theorem onBay_mem (b : BayNo) (f : Bay → Bay) : (s.onBay b f).mem = s.mem := rfl
@[simp] theorem onBay_pair (b : BayNo) (f : Bay → Bay) : (s.onBay b f).pair = s.pair := rfl
@[simp] theorem onBay_out (b : BayNo) (f : Bay → Bay) : (s.onBay b f).out = s.out := rfl

/-! ### onAfe -/

@[simp] theorem onAfe_pending (b : BayNo) (f : Afe → Afe) : (s.onAfe b f).pending = s.pending := rfl
@[simp] theorem onAfe_sys (b : BayNo) (f : Afe → Afe) : (s.onAfe b f).sys = s.sys := rfl
@[simp] theorem onAfe_ev (b : BayNo) (f : Afe → Afe) : (s.onAfe b f).ev = s.ev := rfl
@[simp] theorem onAfe_ports (b : BayNo) (f : Afe → Afe) : (s.onAfe b f).ports = s.ports := rfl
@[simp] theorem onAfe_bridle (b : BayNo) (f : Afe → Afe) : (s.onAfe b f).bridle = s.bridle := rfl
@[simp] theorem onAfe_bridleTie (b : BayNo) (f : Afe → Afe) : (s.onAfe b f).bridleTie = s.bridleTie := rfl
@[simp] theorem onAfe_cmds (b : BayNo) (f : Afe → Afe) : (s.onAfe b f).cmds = s.cmds := rfl
@[simp] theorem onAfe_vols (b : BayNo) (f : Afe → Afe) : (s.onAfe b f).vols = s.vols := rfl
@[simp] theorem onAfe_params (b : BayNo) (f : Afe → Afe) : (s.onAfe b f).params = s.params := rfl
@[simp] theorem onAfe_flash (b : BayNo) (f : Afe → Afe) : (s.onAfe b f).flash = s.flash := rfl
@[simp] theorem onAfe_pool (b : BayNo) (f : Afe → Afe) : (s.onAfe b f).pool = s.pool := rfl
@[simp] theorem onAfe_hnd (b : BayNo) (f : Afe → Afe) : (s.onAfe b f).hnd = s.hnd := rfl
@[simp] theorem onAfe_stg (b : BayNo) (f : Afe → Afe) : (s.onAfe b f).stg = s.stg := rfl
@[simp] theorem onAfe_mem (b : BayNo) (f : Afe → Afe) : (s.onAfe b f).mem = s.mem := rfl
@[simp] theorem onAfe_pair (b : BayNo) (f : Afe → Afe) : (s.onAfe b f).pair = s.pair := rfl
@[simp] theorem onAfe_out (b : BayNo) (f : Afe → Afe) : (s.onAfe b f).out = s.out := rfl

/-! ### onRc -/

@[simp] theorem onRc_pending (b : BayNo) (f : ReadChannel → ReadChannel) : (s.onRc b f).pending = s.pending := rfl
@[simp] theorem onRc_sys (b : BayNo) (f : ReadChannel → ReadChannel) : (s.onRc b f).sys = s.sys := rfl
@[simp] theorem onRc_ev (b : BayNo) (f : ReadChannel → ReadChannel) : (s.onRc b f).ev = s.ev := rfl
@[simp] theorem onRc_ports (b : BayNo) (f : ReadChannel → ReadChannel) : (s.onRc b f).ports = s.ports := rfl
@[simp] theorem onRc_bridle (b : BayNo) (f : ReadChannel → ReadChannel) : (s.onRc b f).bridle = s.bridle := rfl
@[simp] theorem onRc_bridleTie (b : BayNo) (f : ReadChannel → ReadChannel) : (s.onRc b f).bridleTie = s.bridleTie := rfl
@[simp] theorem onRc_cmds (b : BayNo) (f : ReadChannel → ReadChannel) : (s.onRc b f).cmds = s.cmds := rfl
@[simp] theorem onRc_vols (b : BayNo) (f : ReadChannel → ReadChannel) : (s.onRc b f).vols = s.vols := rfl
@[simp] theorem onRc_params (b : BayNo) (f : ReadChannel → ReadChannel) : (s.onRc b f).params = s.params := rfl
@[simp] theorem onRc_flash (b : BayNo) (f : ReadChannel → ReadChannel) : (s.onRc b f).flash = s.flash := rfl
@[simp] theorem onRc_pool (b : BayNo) (f : ReadChannel → ReadChannel) : (s.onRc b f).pool = s.pool := rfl
@[simp] theorem onRc_hnd (b : BayNo) (f : ReadChannel → ReadChannel) : (s.onRc b f).hnd = s.hnd := rfl
@[simp] theorem onRc_stg (b : BayNo) (f : ReadChannel → ReadChannel) : (s.onRc b f).stg = s.stg := rfl
@[simp] theorem onRc_mem (b : BayNo) (f : ReadChannel → ReadChannel) : (s.onRc b f).mem = s.mem := rfl
@[simp] theorem onRc_pair (b : BayNo) (f : ReadChannel → ReadChannel) : (s.onRc b f).pair = s.pair := rfl
@[simp] theorem onRc_out (b : BayNo) (f : ReadChannel → ReadChannel) : (s.onRc b f).out = s.out := rfl

/-! ### onLane -/

@[simp] theorem onLane_pending (b : BayNo) (l : Beam) (f : Lane → Lane) : (s.onLane b l f).pending = s.pending := rfl
@[simp] theorem onLane_sys (b : BayNo) (l : Beam) (f : Lane → Lane) : (s.onLane b l f).sys = s.sys := rfl
@[simp] theorem onLane_ev (b : BayNo) (l : Beam) (f : Lane → Lane) : (s.onLane b l f).ev = s.ev := rfl
@[simp] theorem onLane_ports (b : BayNo) (l : Beam) (f : Lane → Lane) : (s.onLane b l f).ports = s.ports := rfl
@[simp] theorem onLane_bridle (b : BayNo) (l : Beam) (f : Lane → Lane) : (s.onLane b l f).bridle = s.bridle := rfl
@[simp] theorem onLane_bridleTie (b : BayNo) (l : Beam) (f : Lane → Lane) : (s.onLane b l f).bridleTie = s.bridleTie := rfl
@[simp] theorem onLane_cmds (b : BayNo) (l : Beam) (f : Lane → Lane) : (s.onLane b l f).cmds = s.cmds := rfl
@[simp] theorem onLane_vols (b : BayNo) (l : Beam) (f : Lane → Lane) : (s.onLane b l f).vols = s.vols := rfl
@[simp] theorem onLane_params (b : BayNo) (l : Beam) (f : Lane → Lane) : (s.onLane b l f).params = s.params := rfl
@[simp] theorem onLane_flash (b : BayNo) (l : Beam) (f : Lane → Lane) : (s.onLane b l f).flash = s.flash := rfl
@[simp] theorem onLane_pool (b : BayNo) (l : Beam) (f : Lane → Lane) : (s.onLane b l f).pool = s.pool := rfl
@[simp] theorem onLane_hnd (b : BayNo) (l : Beam) (f : Lane → Lane) : (s.onLane b l f).hnd = s.hnd := rfl
@[simp] theorem onLane_stg (b : BayNo) (l : Beam) (f : Lane → Lane) : (s.onLane b l f).stg = s.stg := rfl
@[simp] theorem onLane_mem (b : BayNo) (l : Beam) (f : Lane → Lane) : (s.onLane b l f).mem = s.mem := rfl
@[simp] theorem onLane_pair (b : BayNo) (l : Beam) (f : Lane → Lane) : (s.onLane b l f).pair = s.pair := rfl
@[simp] theorem onLane_out (b : BayNo) (l : Beam) (f : Lane → Lane) : (s.onLane b l f).out = s.out := rfl

/-! ### onDec -/

@[simp] theorem onDec_pending (b : BayNo) (f : BayDecode → BayDecode) : (s.onDec b f).pending = s.pending := rfl
@[simp] theorem onDec_sys (b : BayNo) (f : BayDecode → BayDecode) : (s.onDec b f).sys = s.sys := rfl
@[simp] theorem onDec_ev (b : BayNo) (f : BayDecode → BayDecode) : (s.onDec b f).ev = s.ev := rfl
@[simp] theorem onDec_ports (b : BayNo) (f : BayDecode → BayDecode) : (s.onDec b f).ports = s.ports := rfl
@[simp] theorem onDec_bridle (b : BayNo) (f : BayDecode → BayDecode) : (s.onDec b f).bridle = s.bridle := rfl
@[simp] theorem onDec_bridleTie (b : BayNo) (f : BayDecode → BayDecode) : (s.onDec b f).bridleTie = s.bridleTie := rfl
@[simp] theorem onDec_cmds (b : BayNo) (f : BayDecode → BayDecode) : (s.onDec b f).cmds = s.cmds := rfl
@[simp] theorem onDec_vols (b : BayNo) (f : BayDecode → BayDecode) : (s.onDec b f).vols = s.vols := rfl
@[simp] theorem onDec_params (b : BayNo) (f : BayDecode → BayDecode) : (s.onDec b f).params = s.params := rfl
@[simp] theorem onDec_flash (b : BayNo) (f : BayDecode → BayDecode) : (s.onDec b f).flash = s.flash := rfl
@[simp] theorem onDec_pool (b : BayNo) (f : BayDecode → BayDecode) : (s.onDec b f).pool = s.pool := rfl
@[simp] theorem onDec_hnd (b : BayNo) (f : BayDecode → BayDecode) : (s.onDec b f).hnd = s.hnd := rfl
@[simp] theorem onDec_stg (b : BayNo) (f : BayDecode → BayDecode) : (s.onDec b f).stg = s.stg := rfl
@[simp] theorem onDec_mem (b : BayNo) (f : BayDecode → BayDecode) : (s.onDec b f).mem = s.mem := rfl
@[simp] theorem onDec_pair (b : BayNo) (f : BayDecode → BayDecode) : (s.onDec b f).pair = s.pair := rfl
@[simp] theorem onDec_out (b : BayNo) (f : BayDecode → BayDecode) : (s.onDec b f).out = s.out := rfl

/-! ### onWp -/

@[simp] theorem onWp_pending (b : BayNo) (f : WritePath → WritePath) : (s.onWp b f).pending = s.pending := rfl
@[simp] theorem onWp_sys (b : BayNo) (f : WritePath → WritePath) : (s.onWp b f).sys = s.sys := rfl
@[simp] theorem onWp_ev (b : BayNo) (f : WritePath → WritePath) : (s.onWp b f).ev = s.ev := rfl
@[simp] theorem onWp_ports (b : BayNo) (f : WritePath → WritePath) : (s.onWp b f).ports = s.ports := rfl
@[simp] theorem onWp_bridle (b : BayNo) (f : WritePath → WritePath) : (s.onWp b f).bridle = s.bridle := rfl
@[simp] theorem onWp_bridleTie (b : BayNo) (f : WritePath → WritePath) : (s.onWp b f).bridleTie = s.bridleTie := rfl
@[simp] theorem onWp_cmds (b : BayNo) (f : WritePath → WritePath) : (s.onWp b f).cmds = s.cmds := rfl
@[simp] theorem onWp_vols (b : BayNo) (f : WritePath → WritePath) : (s.onWp b f).vols = s.vols := rfl
@[simp] theorem onWp_params (b : BayNo) (f : WritePath → WritePath) : (s.onWp b f).params = s.params := rfl
@[simp] theorem onWp_flash (b : BayNo) (f : WritePath → WritePath) : (s.onWp b f).flash = s.flash := rfl
@[simp] theorem onWp_pool (b : BayNo) (f : WritePath → WritePath) : (s.onWp b f).pool = s.pool := rfl
@[simp] theorem onWp_hnd (b : BayNo) (f : WritePath → WritePath) : (s.onWp b f).hnd = s.hnd := rfl
@[simp] theorem onWp_stg (b : BayNo) (f : WritePath → WritePath) : (s.onWp b f).stg = s.stg := rfl
@[simp] theorem onWp_mem (b : BayNo) (f : WritePath → WritePath) : (s.onWp b f).mem = s.mem := rfl
@[simp] theorem onWp_pair (b : BayNo) (f : WritePath → WritePath) : (s.onWp b f).pair = s.pair := rfl
@[simp] theorem onWp_out (b : BayNo) (f : WritePath → WritePath) : (s.onWp b f).out = s.out := rfl

/-! ### onSrv -/

@[simp] theorem onSrv_pending (b : BayNo) (f : Servo → Servo) : (s.onSrv b f).pending = s.pending := rfl
@[simp] theorem onSrv_sys (b : BayNo) (f : Servo → Servo) : (s.onSrv b f).sys = s.sys := rfl
@[simp] theorem onSrv_ev (b : BayNo) (f : Servo → Servo) : (s.onSrv b f).ev = s.ev := rfl
@[simp] theorem onSrv_ports (b : BayNo) (f : Servo → Servo) : (s.onSrv b f).ports = s.ports := rfl
@[simp] theorem onSrv_bridle (b : BayNo) (f : Servo → Servo) : (s.onSrv b f).bridle = s.bridle := rfl
@[simp] theorem onSrv_bridleTie (b : BayNo) (f : Servo → Servo) : (s.onSrv b f).bridleTie = s.bridleTie := rfl
@[simp] theorem onSrv_cmds (b : BayNo) (f : Servo → Servo) : (s.onSrv b f).cmds = s.cmds := rfl
@[simp] theorem onSrv_vols (b : BayNo) (f : Servo → Servo) : (s.onSrv b f).vols = s.vols := rfl
@[simp] theorem onSrv_params (b : BayNo) (f : Servo → Servo) : (s.onSrv b f).params = s.params := rfl
@[simp] theorem onSrv_flash (b : BayNo) (f : Servo → Servo) : (s.onSrv b f).flash = s.flash := rfl
@[simp] theorem onSrv_pool (b : BayNo) (f : Servo → Servo) : (s.onSrv b f).pool = s.pool := rfl
@[simp] theorem onSrv_hnd (b : BayNo) (f : Servo → Servo) : (s.onSrv b f).hnd = s.hnd := rfl
@[simp] theorem onSrv_stg (b : BayNo) (f : Servo → Servo) : (s.onSrv b f).stg = s.stg := rfl
@[simp] theorem onSrv_mem (b : BayNo) (f : Servo → Servo) : (s.onSrv b f).mem = s.mem := rfl
@[simp] theorem onSrv_pair (b : BayNo) (f : Servo → Servo) : (s.onSrv b f).pair = s.pair := rfl
@[simp] theorem onSrv_out (b : BayNo) (f : Servo → Servo) : (s.onSrv b f).out = s.out := rfl

/-! ### onSpn -/

@[simp] theorem onSpn_pending (b : BayNo) (f : Spindle → Spindle) : (s.onSpn b f).pending = s.pending := rfl
@[simp] theorem onSpn_sys (b : BayNo) (f : Spindle → Spindle) : (s.onSpn b f).sys = s.sys := rfl
@[simp] theorem onSpn_ev (b : BayNo) (f : Spindle → Spindle) : (s.onSpn b f).ev = s.ev := rfl
@[simp] theorem onSpn_ports (b : BayNo) (f : Spindle → Spindle) : (s.onSpn b f).ports = s.ports := rfl
@[simp] theorem onSpn_bridle (b : BayNo) (f : Spindle → Spindle) : (s.onSpn b f).bridle = s.bridle := rfl
@[simp] theorem onSpn_bridleTie (b : BayNo) (f : Spindle → Spindle) : (s.onSpn b f).bridleTie = s.bridleTie := rfl
@[simp] theorem onSpn_cmds (b : BayNo) (f : Spindle → Spindle) : (s.onSpn b f).cmds = s.cmds := rfl
@[simp] theorem onSpn_vols (b : BayNo) (f : Spindle → Spindle) : (s.onSpn b f).vols = s.vols := rfl
@[simp] theorem onSpn_params (b : BayNo) (f : Spindle → Spindle) : (s.onSpn b f).params = s.params := rfl
@[simp] theorem onSpn_flash (b : BayNo) (f : Spindle → Spindle) : (s.onSpn b f).flash = s.flash := rfl
@[simp] theorem onSpn_pool (b : BayNo) (f : Spindle → Spindle) : (s.onSpn b f).pool = s.pool := rfl
@[simp] theorem onSpn_hnd (b : BayNo) (f : Spindle → Spindle) : (s.onSpn b f).hnd = s.hnd := rfl
@[simp] theorem onSpn_stg (b : BayNo) (f : Spindle → Spindle) : (s.onSpn b f).stg = s.stg := rfl
@[simp] theorem onSpn_mem (b : BayNo) (f : Spindle → Spindle) : (s.onSpn b f).mem = s.mem := rfl
@[simp] theorem onSpn_pair (b : BayNo) (f : Spindle → Spindle) : (s.onSpn b f).pair = s.pair := rfl
@[simp] theorem onSpn_out (b : BayNo) (f : Spindle → Spindle) : (s.onSpn b f).out = s.out := rfl

/-! ### onSld -/

@[simp] theorem onSld_pending (b : BayNo) (f : StepAxis → StepAxis) : (s.onSld b f).pending = s.pending := rfl
@[simp] theorem onSld_sys (b : BayNo) (f : StepAxis → StepAxis) : (s.onSld b f).sys = s.sys := rfl
@[simp] theorem onSld_ev (b : BayNo) (f : StepAxis → StepAxis) : (s.onSld b f).ev = s.ev := rfl
@[simp] theorem onSld_ports (b : BayNo) (f : StepAxis → StepAxis) : (s.onSld b f).ports = s.ports := rfl
@[simp] theorem onSld_bridle (b : BayNo) (f : StepAxis → StepAxis) : (s.onSld b f).bridle = s.bridle := rfl
@[simp] theorem onSld_bridleTie (b : BayNo) (f : StepAxis → StepAxis) : (s.onSld b f).bridleTie = s.bridleTie := rfl
@[simp] theorem onSld_cmds (b : BayNo) (f : StepAxis → StepAxis) : (s.onSld b f).cmds = s.cmds := rfl
@[simp] theorem onSld_vols (b : BayNo) (f : StepAxis → StepAxis) : (s.onSld b f).vols = s.vols := rfl
@[simp] theorem onSld_params (b : BayNo) (f : StepAxis → StepAxis) : (s.onSld b f).params = s.params := rfl
@[simp] theorem onSld_flash (b : BayNo) (f : StepAxis → StepAxis) : (s.onSld b f).flash = s.flash := rfl
@[simp] theorem onSld_pool (b : BayNo) (f : StepAxis → StepAxis) : (s.onSld b f).pool = s.pool := rfl
@[simp] theorem onSld_hnd (b : BayNo) (f : StepAxis → StepAxis) : (s.onSld b f).hnd = s.hnd := rfl
@[simp] theorem onSld_stg (b : BayNo) (f : StepAxis → StepAxis) : (s.onSld b f).stg = s.stg := rfl
@[simp] theorem onSld_mem (b : BayNo) (f : StepAxis → StepAxis) : (s.onSld b f).mem = s.mem := rfl
@[simp] theorem onSld_pair (b : BayNo) (f : StepAxis → StepAxis) : (s.onSld b f).pair = s.pair := rfl
@[simp] theorem onSld_out (b : BayNo) (f : StepAxis → StepAxis) : (s.onSld b f).out = s.out := rfl

/-! ### onSeq -/

@[simp] theorem onSeq_pending (b : BayNo) (f : Seq → Seq) : (s.onSeq b f).pending = s.pending := rfl
@[simp] theorem onSeq_sys (b : BayNo) (f : Seq → Seq) : (s.onSeq b f).sys = s.sys := rfl
@[simp] theorem onSeq_ev (b : BayNo) (f : Seq → Seq) : (s.onSeq b f).ev = s.ev := rfl
@[simp] theorem onSeq_ports (b : BayNo) (f : Seq → Seq) : (s.onSeq b f).ports = s.ports := rfl
@[simp] theorem onSeq_bridle (b : BayNo) (f : Seq → Seq) : (s.onSeq b f).bridle = s.bridle := rfl
@[simp] theorem onSeq_bridleTie (b : BayNo) (f : Seq → Seq) : (s.onSeq b f).bridleTie = s.bridleTie := rfl
@[simp] theorem onSeq_cmds (b : BayNo) (f : Seq → Seq) : (s.onSeq b f).cmds = s.cmds := rfl
@[simp] theorem onSeq_vols (b : BayNo) (f : Seq → Seq) : (s.onSeq b f).vols = s.vols := rfl
@[simp] theorem onSeq_params (b : BayNo) (f : Seq → Seq) : (s.onSeq b f).params = s.params := rfl
@[simp] theorem onSeq_flash (b : BayNo) (f : Seq → Seq) : (s.onSeq b f).flash = s.flash := rfl
@[simp] theorem onSeq_pool (b : BayNo) (f : Seq → Seq) : (s.onSeq b f).pool = s.pool := rfl
@[simp] theorem onSeq_hnd (b : BayNo) (f : Seq → Seq) : (s.onSeq b f).hnd = s.hnd := rfl
@[simp] theorem onSeq_stg (b : BayNo) (f : Seq → Seq) : (s.onSeq b f).stg = s.stg := rfl
@[simp] theorem onSeq_mem (b : BayNo) (f : Seq → Seq) : (s.onSeq b f).mem = s.mem := rfl
@[simp] theorem onSeq_pair (b : BayNo) (f : Seq → Seq) : (s.onSeq b f).pair = s.pair := rfl
@[simp] theorem onSeq_out (b : BayNo) (f : Seq → Seq) : (s.onSeq b f).out = s.out := rfl

/-! ### onDisc -/

@[simp] theorem onDisc_pending (b : BayNo) (f : Disc → Disc) : (s.onDisc b f).pending = s.pending := rfl
@[simp] theorem onDisc_sys (b : BayNo) (f : Disc → Disc) : (s.onDisc b f).sys = s.sys := rfl
@[simp] theorem onDisc_ev (b : BayNo) (f : Disc → Disc) : (s.onDisc b f).ev = s.ev := rfl
@[simp] theorem onDisc_ports (b : BayNo) (f : Disc → Disc) : (s.onDisc b f).ports = s.ports := rfl
@[simp] theorem onDisc_bridle (b : BayNo) (f : Disc → Disc) : (s.onDisc b f).bridle = s.bridle := rfl
@[simp] theorem onDisc_bridleTie (b : BayNo) (f : Disc → Disc) : (s.onDisc b f).bridleTie = s.bridleTie := rfl
@[simp] theorem onDisc_cmds (b : BayNo) (f : Disc → Disc) : (s.onDisc b f).cmds = s.cmds := rfl
@[simp] theorem onDisc_vols (b : BayNo) (f : Disc → Disc) : (s.onDisc b f).vols = s.vols := rfl
@[simp] theorem onDisc_params (b : BayNo) (f : Disc → Disc) : (s.onDisc b f).params = s.params := rfl
@[simp] theorem onDisc_flash (b : BayNo) (f : Disc → Disc) : (s.onDisc b f).flash = s.flash := rfl
@[simp] theorem onDisc_pool (b : BayNo) (f : Disc → Disc) : (s.onDisc b f).pool = s.pool := rfl
@[simp] theorem onDisc_hnd (b : BayNo) (f : Disc → Disc) : (s.onDisc b f).hnd = s.hnd := rfl
@[simp] theorem onDisc_stg (b : BayNo) (f : Disc → Disc) : (s.onDisc b f).stg = s.stg := rfl
@[simp] theorem onDisc_mem (b : BayNo) (f : Disc → Disc) : (s.onDisc b f).mem = s.mem := rfl
@[simp] theorem onDisc_pair (b : BayNo) (f : Disc → Disc) : (s.onDisc b f).pair = s.pair := rfl
@[simp] theorem onDisc_out (b : BayNo) (f : Disc → Disc) : (s.onDisc b f).out = s.out := rfl

/-! ### onPool -/

@[simp] theorem onPool_pending (f : Pool → Pool) : (s.onPool f).pending = s.pending := rfl
@[simp] theorem onPool_sys (f : Pool → Pool) : (s.onPool f).sys = s.sys := rfl
@[simp] theorem onPool_ev (f : Pool → Pool) : (s.onPool f).ev = s.ev := rfl
@[simp] theorem onPool_ports (f : Pool → Pool) : (s.onPool f).ports = s.ports := rfl
@[simp] theorem onPool_bridle (f : Pool → Pool) : (s.onPool f).bridle = s.bridle := rfl
@[simp] theorem onPool_bridleTie (f : Pool → Pool) : (s.onPool f).bridleTie = s.bridleTie := rfl
@[simp] theorem onPool_cmds (f : Pool → Pool) : (s.onPool f).cmds = s.cmds := rfl
@[simp] theorem onPool_vols (f : Pool → Pool) : (s.onPool f).vols = s.vols := rfl
@[simp] theorem onPool_params (f : Pool → Pool) : (s.onPool f).params = s.params := rfl
@[simp] theorem onPool_flash (f : Pool → Pool) : (s.onPool f).flash = s.flash := rfl
@[simp] theorem onPool_bays (f : Pool → Pool) : (s.onPool f).bays = s.bays := rfl
@[simp] theorem onPool_hnd (f : Pool → Pool) : (s.onPool f).hnd = s.hnd := rfl
@[simp] theorem onPool_stg (f : Pool → Pool) : (s.onPool f).stg = s.stg := rfl
@[simp] theorem onPool_mem (f : Pool → Pool) : (s.onPool f).mem = s.mem := rfl
@[simp] theorem onPool_pair (f : Pool → Pool) : (s.onPool f).pair = s.pair := rfl
@[simp] theorem onPool_out (f : Pool → Pool) : (s.onPool f).out = s.out := rfl
@[simp] theorem onPool_pool (f : Pool → Pool) : (s.onPool f).pool = f s.pool := rfl

/-! ### onDecoder -/

@[simp] theorem onDecoder_pending (d : DecNo) (f : Decoder → Decoder) : (s.onDecoder d f).pending = s.pending := rfl
@[simp] theorem onDecoder_sys (d : DecNo) (f : Decoder → Decoder) : (s.onDecoder d f).sys = s.sys := rfl
@[simp] theorem onDecoder_ev (d : DecNo) (f : Decoder → Decoder) : (s.onDecoder d f).ev = s.ev := rfl
@[simp] theorem onDecoder_ports (d : DecNo) (f : Decoder → Decoder) : (s.onDecoder d f).ports = s.ports := rfl
@[simp] theorem onDecoder_bridle (d : DecNo) (f : Decoder → Decoder) : (s.onDecoder d f).bridle = s.bridle := rfl
@[simp] theorem onDecoder_bridleTie (d : DecNo) (f : Decoder → Decoder) : (s.onDecoder d f).bridleTie = s.bridleTie := rfl
@[simp] theorem onDecoder_cmds (d : DecNo) (f : Decoder → Decoder) : (s.onDecoder d f).cmds = s.cmds := rfl
@[simp] theorem onDecoder_vols (d : DecNo) (f : Decoder → Decoder) : (s.onDecoder d f).vols = s.vols := rfl
@[simp] theorem onDecoder_params (d : DecNo) (f : Decoder → Decoder) : (s.onDecoder d f).params = s.params := rfl
@[simp] theorem onDecoder_flash (d : DecNo) (f : Decoder → Decoder) : (s.onDecoder d f).flash = s.flash := rfl
@[simp] theorem onDecoder_bays (d : DecNo) (f : Decoder → Decoder) : (s.onDecoder d f).bays = s.bays := rfl
@[simp] theorem onDecoder_hnd (d : DecNo) (f : Decoder → Decoder) : (s.onDecoder d f).hnd = s.hnd := rfl
@[simp] theorem onDecoder_stg (d : DecNo) (f : Decoder → Decoder) : (s.onDecoder d f).stg = s.stg := rfl
@[simp] theorem onDecoder_mem (d : DecNo) (f : Decoder → Decoder) : (s.onDecoder d f).mem = s.mem := rfl
@[simp] theorem onDecoder_pair (d : DecNo) (f : Decoder → Decoder) : (s.onDecoder d f).pair = s.pair := rfl
@[simp] theorem onDecoder_out (d : DecNo) (f : Decoder → Decoder) : (s.onDecoder d f).out = s.out := rfl

/-! ### onHnd -/

@[simp] theorem onHnd_pending (f : Handler → Handler) : (s.onHnd f).pending = s.pending := rfl
@[simp] theorem onHnd_sys (f : Handler → Handler) : (s.onHnd f).sys = s.sys := rfl
@[simp] theorem onHnd_ev (f : Handler → Handler) : (s.onHnd f).ev = s.ev := rfl
@[simp] theorem onHnd_ports (f : Handler → Handler) : (s.onHnd f).ports = s.ports := rfl
@[simp] theorem onHnd_bridle (f : Handler → Handler) : (s.onHnd f).bridle = s.bridle := rfl
@[simp] theorem onHnd_bridleTie (f : Handler → Handler) : (s.onHnd f).bridleTie = s.bridleTie := rfl
@[simp] theorem onHnd_cmds (f : Handler → Handler) : (s.onHnd f).cmds = s.cmds := rfl
@[simp] theorem onHnd_vols (f : Handler → Handler) : (s.onHnd f).vols = s.vols := rfl
@[simp] theorem onHnd_params (f : Handler → Handler) : (s.onHnd f).params = s.params := rfl
@[simp] theorem onHnd_flash (f : Handler → Handler) : (s.onHnd f).flash = s.flash := rfl
@[simp] theorem onHnd_bays (f : Handler → Handler) : (s.onHnd f).bays = s.bays := rfl
@[simp] theorem onHnd_pool (f : Handler → Handler) : (s.onHnd f).pool = s.pool := rfl
@[simp] theorem onHnd_stg (f : Handler → Handler) : (s.onHnd f).stg = s.stg := rfl
@[simp] theorem onHnd_mem (f : Handler → Handler) : (s.onHnd f).mem = s.mem := rfl
@[simp] theorem onHnd_pair (f : Handler → Handler) : (s.onHnd f).pair = s.pair := rfl
@[simp] theorem onHnd_out (f : Handler → Handler) : (s.onHnd f).out = s.out := rfl
@[simp] theorem onHnd_hnd (f : Handler → Handler) : (s.onHnd f).hnd = f s.hnd := rfl

/-! ### onAxis -/

@[simp] theorem onAxis_pending (a : AxisNo) (f : StepAxis → StepAxis) : (s.onAxis a f).pending = s.pending := rfl
@[simp] theorem onAxis_sys (a : AxisNo) (f : StepAxis → StepAxis) : (s.onAxis a f).sys = s.sys := rfl
@[simp] theorem onAxis_ev (a : AxisNo) (f : StepAxis → StepAxis) : (s.onAxis a f).ev = s.ev := rfl
@[simp] theorem onAxis_ports (a : AxisNo) (f : StepAxis → StepAxis) : (s.onAxis a f).ports = s.ports := rfl
@[simp] theorem onAxis_bridle (a : AxisNo) (f : StepAxis → StepAxis) : (s.onAxis a f).bridle = s.bridle := rfl
@[simp] theorem onAxis_bridleTie (a : AxisNo) (f : StepAxis → StepAxis) : (s.onAxis a f).bridleTie = s.bridleTie := rfl
@[simp] theorem onAxis_cmds (a : AxisNo) (f : StepAxis → StepAxis) : (s.onAxis a f).cmds = s.cmds := rfl
@[simp] theorem onAxis_vols (a : AxisNo) (f : StepAxis → StepAxis) : (s.onAxis a f).vols = s.vols := rfl
@[simp] theorem onAxis_params (a : AxisNo) (f : StepAxis → StepAxis) : (s.onAxis a f).params = s.params := rfl
@[simp] theorem onAxis_flash (a : AxisNo) (f : StepAxis → StepAxis) : (s.onAxis a f).flash = s.flash := rfl
@[simp] theorem onAxis_bays (a : AxisNo) (f : StepAxis → StepAxis) : (s.onAxis a f).bays = s.bays := rfl
@[simp] theorem onAxis_pool (a : AxisNo) (f : StepAxis → StepAxis) : (s.onAxis a f).pool = s.pool := rfl
@[simp] theorem onAxis_stg (a : AxisNo) (f : StepAxis → StepAxis) : (s.onAxis a f).stg = s.stg := rfl
@[simp] theorem onAxis_mem (a : AxisNo) (f : StepAxis → StepAxis) : (s.onAxis a f).mem = s.mem := rfl
@[simp] theorem onAxis_pair (a : AxisNo) (f : StepAxis → StepAxis) : (s.onAxis a f).pair = s.pair := rfl
@[simp] theorem onAxis_out (a : AxisNo) (f : StepAxis → StepAxis) : (s.onAxis a f).out = s.out := rfl

/-! ### onInput -/

@[simp] theorem onInput_pending (i : InputNo) (f : InputState → InputState) : (s.onInput i f).pending = s.pending := rfl
@[simp] theorem onInput_sys (i : InputNo) (f : InputState → InputState) : (s.onInput i f).sys = s.sys := rfl
@[simp] theorem onInput_ev (i : InputNo) (f : InputState → InputState) : (s.onInput i f).ev = s.ev := rfl
@[simp] theorem onInput_ports (i : InputNo) (f : InputState → InputState) : (s.onInput i f).ports = s.ports := rfl
@[simp] theorem onInput_bridle (i : InputNo) (f : InputState → InputState) : (s.onInput i f).bridle = s.bridle := rfl
@[simp] theorem onInput_bridleTie (i : InputNo) (f : InputState → InputState) : (s.onInput i f).bridleTie = s.bridleTie := rfl
@[simp] theorem onInput_cmds (i : InputNo) (f : InputState → InputState) : (s.onInput i f).cmds = s.cmds := rfl
@[simp] theorem onInput_vols (i : InputNo) (f : InputState → InputState) : (s.onInput i f).vols = s.vols := rfl
@[simp] theorem onInput_params (i : InputNo) (f : InputState → InputState) : (s.onInput i f).params = s.params := rfl
@[simp] theorem onInput_flash (i : InputNo) (f : InputState → InputState) : (s.onInput i f).flash = s.flash := rfl
@[simp] theorem onInput_bays (i : InputNo) (f : InputState → InputState) : (s.onInput i f).bays = s.bays := rfl
@[simp] theorem onInput_pool (i : InputNo) (f : InputState → InputState) : (s.onInput i f).pool = s.pool := rfl
@[simp] theorem onInput_stg (i : InputNo) (f : InputState → InputState) : (s.onInput i f).stg = s.stg := rfl
@[simp] theorem onInput_mem (i : InputNo) (f : InputState → InputState) : (s.onInput i f).mem = s.mem := rfl
@[simp] theorem onInput_pair (i : InputNo) (f : InputState → InputState) : (s.onInput i f).pair = s.pair := rfl
@[simp] theorem onInput_out (i : InputNo) (f : InputState → InputState) : (s.onInput i f).out = s.out := rfl

/-! ### onStg -/

@[simp] theorem onStg_pending (f : Staging → Staging) : (s.onStg f).pending = s.pending := rfl
@[simp] theorem onStg_sys (f : Staging → Staging) : (s.onStg f).sys = s.sys := rfl
@[simp] theorem onStg_ev (f : Staging → Staging) : (s.onStg f).ev = s.ev := rfl
@[simp] theorem onStg_ports (f : Staging → Staging) : (s.onStg f).ports = s.ports := rfl
@[simp] theorem onStg_bridle (f : Staging → Staging) : (s.onStg f).bridle = s.bridle := rfl
@[simp] theorem onStg_bridleTie (f : Staging → Staging) : (s.onStg f).bridleTie = s.bridleTie := rfl
@[simp] theorem onStg_cmds (f : Staging → Staging) : (s.onStg f).cmds = s.cmds := rfl
@[simp] theorem onStg_vols (f : Staging → Staging) : (s.onStg f).vols = s.vols := rfl
@[simp] theorem onStg_params (f : Staging → Staging) : (s.onStg f).params = s.params := rfl
@[simp] theorem onStg_flash (f : Staging → Staging) : (s.onStg f).flash = s.flash := rfl
@[simp] theorem onStg_bays (f : Staging → Staging) : (s.onStg f).bays = s.bays := rfl
@[simp] theorem onStg_pool (f : Staging → Staging) : (s.onStg f).pool = s.pool := rfl
@[simp] theorem onStg_hnd (f : Staging → Staging) : (s.onStg f).hnd = s.hnd := rfl
@[simp] theorem onStg_mem (f : Staging → Staging) : (s.onStg f).mem = s.mem := rfl
@[simp] theorem onStg_pair (f : Staging → Staging) : (s.onStg f).pair = s.pair := rfl
@[simp] theorem onStg_out (f : Staging → Staging) : (s.onStg f).out = s.out := rfl
@[simp] theorem onStg_stg (f : Staging → Staging) : (s.onStg f).stg = f s.stg := rfl

/-! ### onMem -/

@[simp] theorem onMem_pending (f : Memory → Memory) : (s.onMem f).pending = s.pending := rfl
@[simp] theorem onMem_sys (f : Memory → Memory) : (s.onMem f).sys = s.sys := rfl
@[simp] theorem onMem_ev (f : Memory → Memory) : (s.onMem f).ev = s.ev := rfl
@[simp] theorem onMem_ports (f : Memory → Memory) : (s.onMem f).ports = s.ports := rfl
@[simp] theorem onMem_bridle (f : Memory → Memory) : (s.onMem f).bridle = s.bridle := rfl
@[simp] theorem onMem_bridleTie (f : Memory → Memory) : (s.onMem f).bridleTie = s.bridleTie := rfl
@[simp] theorem onMem_cmds (f : Memory → Memory) : (s.onMem f).cmds = s.cmds := rfl
@[simp] theorem onMem_vols (f : Memory → Memory) : (s.onMem f).vols = s.vols := rfl
@[simp] theorem onMem_params (f : Memory → Memory) : (s.onMem f).params = s.params := rfl
@[simp] theorem onMem_flash (f : Memory → Memory) : (s.onMem f).flash = s.flash := rfl
@[simp] theorem onMem_bays (f : Memory → Memory) : (s.onMem f).bays = s.bays := rfl
@[simp] theorem onMem_pool (f : Memory → Memory) : (s.onMem f).pool = s.pool := rfl
@[simp] theorem onMem_hnd (f : Memory → Memory) : (s.onMem f).hnd = s.hnd := rfl
@[simp] theorem onMem_stg (f : Memory → Memory) : (s.onMem f).stg = s.stg := rfl
@[simp] theorem onMem_pair (f : Memory → Memory) : (s.onMem f).pair = s.pair := rfl
@[simp] theorem onMem_out (f : Memory → Memory) : (s.onMem f).out = s.out := rfl
@[simp] theorem onMem_mem (f : Memory → Memory) : (s.onMem f).mem = f s.mem := rfl

/-! ### onCache -/

@[simp] theorem onCache_pending (f : EngineCache → EngineCache) : (s.onCache f).pending = s.pending := rfl
@[simp] theorem onCache_sys (f : EngineCache → EngineCache) : (s.onCache f).sys = s.sys := rfl
@[simp] theorem onCache_ev (f : EngineCache → EngineCache) : (s.onCache f).ev = s.ev := rfl
@[simp] theorem onCache_ports (f : EngineCache → EngineCache) : (s.onCache f).ports = s.ports := rfl
@[simp] theorem onCache_bridle (f : EngineCache → EngineCache) : (s.onCache f).bridle = s.bridle := rfl
@[simp] theorem onCache_bridleTie (f : EngineCache → EngineCache) : (s.onCache f).bridleTie = s.bridleTie := rfl
@[simp] theorem onCache_cmds (f : EngineCache → EngineCache) : (s.onCache f).cmds = s.cmds := rfl
@[simp] theorem onCache_vols (f : EngineCache → EngineCache) : (s.onCache f).vols = s.vols := rfl
@[simp] theorem onCache_params (f : EngineCache → EngineCache) : (s.onCache f).params = s.params := rfl
@[simp] theorem onCache_flash (f : EngineCache → EngineCache) : (s.onCache f).flash = s.flash := rfl
@[simp] theorem onCache_bays (f : EngineCache → EngineCache) : (s.onCache f).bays = s.bays := rfl
@[simp] theorem onCache_pool (f : EngineCache → EngineCache) : (s.onCache f).pool = s.pool := rfl
@[simp] theorem onCache_hnd (f : EngineCache → EngineCache) : (s.onCache f).hnd = s.hnd := rfl
@[simp] theorem onCache_stg (f : EngineCache → EngineCache) : (s.onCache f).stg = s.stg := rfl
@[simp] theorem onCache_pair (f : EngineCache → EngineCache) : (s.onCache f).pair = s.pair := rfl
@[simp] theorem onCache_out (f : EngineCache → EngineCache) : (s.onCache f).out = s.out := rfl

/-! ### onPoolB -/

@[simp] theorem onPoolB_pending (p : Fin 4) (f : BallastPool → BallastPool) : (s.onPoolB p f).pending = s.pending := rfl
@[simp] theorem onPoolB_sys (p : Fin 4) (f : BallastPool → BallastPool) : (s.onPoolB p f).sys = s.sys := rfl
@[simp] theorem onPoolB_ev (p : Fin 4) (f : BallastPool → BallastPool) : (s.onPoolB p f).ev = s.ev := rfl
@[simp] theorem onPoolB_ports (p : Fin 4) (f : BallastPool → BallastPool) : (s.onPoolB p f).ports = s.ports := rfl
@[simp] theorem onPoolB_bridle (p : Fin 4) (f : BallastPool → BallastPool) : (s.onPoolB p f).bridle = s.bridle := rfl
@[simp] theorem onPoolB_bridleTie (p : Fin 4) (f : BallastPool → BallastPool) : (s.onPoolB p f).bridleTie = s.bridleTie := rfl
@[simp] theorem onPoolB_cmds (p : Fin 4) (f : BallastPool → BallastPool) : (s.onPoolB p f).cmds = s.cmds := rfl
@[simp] theorem onPoolB_vols (p : Fin 4) (f : BallastPool → BallastPool) : (s.onPoolB p f).vols = s.vols := rfl
@[simp] theorem onPoolB_params (p : Fin 4) (f : BallastPool → BallastPool) : (s.onPoolB p f).params = s.params := rfl
@[simp] theorem onPoolB_flash (p : Fin 4) (f : BallastPool → BallastPool) : (s.onPoolB p f).flash = s.flash := rfl
@[simp] theorem onPoolB_bays (p : Fin 4) (f : BallastPool → BallastPool) : (s.onPoolB p f).bays = s.bays := rfl
@[simp] theorem onPoolB_pool (p : Fin 4) (f : BallastPool → BallastPool) : (s.onPoolB p f).pool = s.pool := rfl
@[simp] theorem onPoolB_hnd (p : Fin 4) (f : BallastPool → BallastPool) : (s.onPoolB p f).hnd = s.hnd := rfl
@[simp] theorem onPoolB_stg (p : Fin 4) (f : BallastPool → BallastPool) : (s.onPoolB p f).stg = s.stg := rfl
@[simp] theorem onPoolB_pair (p : Fin 4) (f : BallastPool → BallastPool) : (s.onPoolB p f).pair = s.pair := rfl
@[simp] theorem onPoolB_out (p : Fin 4) (f : BallastPool → BallastPool) : (s.onPoolB p f).out = s.out := rfl

/-! ### onPair -/

@[simp] theorem onPair_pending (f : Pair → Pair) : (s.onPair f).pending = s.pending := rfl
@[simp] theorem onPair_sys (f : Pair → Pair) : (s.onPair f).sys = s.sys := rfl
@[simp] theorem onPair_ev (f : Pair → Pair) : (s.onPair f).ev = s.ev := rfl
@[simp] theorem onPair_ports (f : Pair → Pair) : (s.onPair f).ports = s.ports := rfl
@[simp] theorem onPair_bridle (f : Pair → Pair) : (s.onPair f).bridle = s.bridle := rfl
@[simp] theorem onPair_bridleTie (f : Pair → Pair) : (s.onPair f).bridleTie = s.bridleTie := rfl
@[simp] theorem onPair_cmds (f : Pair → Pair) : (s.onPair f).cmds = s.cmds := rfl
@[simp] theorem onPair_vols (f : Pair → Pair) : (s.onPair f).vols = s.vols := rfl
@[simp] theorem onPair_params (f : Pair → Pair) : (s.onPair f).params = s.params := rfl
@[simp] theorem onPair_flash (f : Pair → Pair) : (s.onPair f).flash = s.flash := rfl
@[simp] theorem onPair_bays (f : Pair → Pair) : (s.onPair f).bays = s.bays := rfl
@[simp] theorem onPair_pool (f : Pair → Pair) : (s.onPair f).pool = s.pool := rfl
@[simp] theorem onPair_hnd (f : Pair → Pair) : (s.onPair f).hnd = s.hnd := rfl
@[simp] theorem onPair_stg (f : Pair → Pair) : (s.onPair f).stg = s.stg := rfl
@[simp] theorem onPair_mem (f : Pair → Pair) : (s.onPair f).mem = s.mem := rfl
@[simp] theorem onPair_out (f : Pair → Pair) : (s.onPair f).out = s.out := rfl
@[simp] theorem onPair_pair (f : Pair → Pair) : (s.onPair f).pair = f s.pair := rfl

/-! ### onFlash -/

@[simp] theorem onFlash_pending (f : BootFlash → BootFlash) : (s.onFlash f).pending = s.pending := rfl
@[simp] theorem onFlash_sys (f : BootFlash → BootFlash) : (s.onFlash f).sys = s.sys := rfl
@[simp] theorem onFlash_ev (f : BootFlash → BootFlash) : (s.onFlash f).ev = s.ev := rfl
@[simp] theorem onFlash_ports (f : BootFlash → BootFlash) : (s.onFlash f).ports = s.ports := rfl
@[simp] theorem onFlash_bridle (f : BootFlash → BootFlash) : (s.onFlash f).bridle = s.bridle := rfl
@[simp] theorem onFlash_bridleTie (f : BootFlash → BootFlash) : (s.onFlash f).bridleTie = s.bridleTie := rfl
@[simp] theorem onFlash_cmds (f : BootFlash → BootFlash) : (s.onFlash f).cmds = s.cmds := rfl
@[simp] theorem onFlash_vols (f : BootFlash → BootFlash) : (s.onFlash f).vols = s.vols := rfl
@[simp] theorem onFlash_params (f : BootFlash → BootFlash) : (s.onFlash f).params = s.params := rfl
@[simp] theorem onFlash_bays (f : BootFlash → BootFlash) : (s.onFlash f).bays = s.bays := rfl
@[simp] theorem onFlash_pool (f : BootFlash → BootFlash) : (s.onFlash f).pool = s.pool := rfl
@[simp] theorem onFlash_hnd (f : BootFlash → BootFlash) : (s.onFlash f).hnd = s.hnd := rfl
@[simp] theorem onFlash_stg (f : BootFlash → BootFlash) : (s.onFlash f).stg = s.stg := rfl
@[simp] theorem onFlash_mem (f : BootFlash → BootFlash) : (s.onFlash f).mem = s.mem := rfl
@[simp] theorem onFlash_pair (f : BootFlash → BootFlash) : (s.onFlash f).pair = s.pair := rfl
@[simp] theorem onFlash_out (f : BootFlash → BootFlash) : (s.onFlash f).out = s.out := rfl
@[simp] theorem onFlash_flash (f : BootFlash → BootFlash) : (s.onFlash f).flash = f s.flash := rfl

/-! ### onCmd -/

@[simp] theorem onCmd_pending (c : CmdId) (f : Cmd → Cmd) : (s.onCmd c f).pending = s.pending := rfl
@[simp] theorem onCmd_sys (c : CmdId) (f : Cmd → Cmd) : (s.onCmd c f).sys = s.sys := rfl
@[simp] theorem onCmd_ev (c : CmdId) (f : Cmd → Cmd) : (s.onCmd c f).ev = s.ev := rfl
@[simp] theorem onCmd_ports (c : CmdId) (f : Cmd → Cmd) : (s.onCmd c f).ports = s.ports := rfl
@[simp] theorem onCmd_bridle (c : CmdId) (f : Cmd → Cmd) : (s.onCmd c f).bridle = s.bridle := rfl
@[simp] theorem onCmd_bridleTie (c : CmdId) (f : Cmd → Cmd) : (s.onCmd c f).bridleTie = s.bridleTie := rfl
@[simp] theorem onCmd_vols (c : CmdId) (f : Cmd → Cmd) : (s.onCmd c f).vols = s.vols := rfl
@[simp] theorem onCmd_params (c : CmdId) (f : Cmd → Cmd) : (s.onCmd c f).params = s.params := rfl
@[simp] theorem onCmd_flash (c : CmdId) (f : Cmd → Cmd) : (s.onCmd c f).flash = s.flash := rfl
@[simp] theorem onCmd_bays (c : CmdId) (f : Cmd → Cmd) : (s.onCmd c f).bays = s.bays := rfl
@[simp] theorem onCmd_pool (c : CmdId) (f : Cmd → Cmd) : (s.onCmd c f).pool = s.pool := rfl
@[simp] theorem onCmd_hnd (c : CmdId) (f : Cmd → Cmd) : (s.onCmd c f).hnd = s.hnd := rfl
@[simp] theorem onCmd_stg (c : CmdId) (f : Cmd → Cmd) : (s.onCmd c f).stg = s.stg := rfl
@[simp] theorem onCmd_mem (c : CmdId) (f : Cmd → Cmd) : (s.onCmd c f).mem = s.mem := rfl
@[simp] theorem onCmd_pair (c : CmdId) (f : Cmd → Cmd) : (s.onCmd c f).pair = s.pair := rfl
@[simp] theorem onCmd_out (c : CmdId) (f : Cmd → Cmd) : (s.onCmd c f).out = s.out := rfl

/-! ### onVol -/

@[simp] theorem onVol_pending (v : VolId) (f : Volume → Volume) : (s.onVol v f).pending = s.pending := rfl
@[simp] theorem onVol_sys (v : VolId) (f : Volume → Volume) : (s.onVol v f).sys = s.sys := rfl
@[simp] theorem onVol_ev (v : VolId) (f : Volume → Volume) : (s.onVol v f).ev = s.ev := rfl
@[simp] theorem onVol_ports (v : VolId) (f : Volume → Volume) : (s.onVol v f).ports = s.ports := rfl
@[simp] theorem onVol_bridle (v : VolId) (f : Volume → Volume) : (s.onVol v f).bridle = s.bridle := rfl
@[simp] theorem onVol_bridleTie (v : VolId) (f : Volume → Volume) : (s.onVol v f).bridleTie = s.bridleTie := rfl
@[simp] theorem onVol_cmds (v : VolId) (f : Volume → Volume) : (s.onVol v f).cmds = s.cmds := rfl
@[simp] theorem onVol_params (v : VolId) (f : Volume → Volume) : (s.onVol v f).params = s.params := rfl
@[simp] theorem onVol_flash (v : VolId) (f : Volume → Volume) : (s.onVol v f).flash = s.flash := rfl
@[simp] theorem onVol_bays (v : VolId) (f : Volume → Volume) : (s.onVol v f).bays = s.bays := rfl
@[simp] theorem onVol_pool (v : VolId) (f : Volume → Volume) : (s.onVol v f).pool = s.pool := rfl
@[simp] theorem onVol_hnd (v : VolId) (f : Volume → Volume) : (s.onVol v f).hnd = s.hnd := rfl
@[simp] theorem onVol_stg (v : VolId) (f : Volume → Volume) : (s.onVol v f).stg = s.stg := rfl
@[simp] theorem onVol_mem (v : VolId) (f : Volume → Volume) : (s.onVol v f).mem = s.mem := rfl
@[simp] theorem onVol_pair (v : VolId) (f : Volume → Volume) : (s.onVol v f).pair = s.pair := rfl
@[simp] theorem onVol_out (v : VolId) (f : Volume → Volume) : (s.onVol v f).out = s.out := rfl

/-! ### emit -/

@[simp] theorem emit_pending (o : Output) : (s.emit o).pending = s.pending := rfl
@[simp] theorem emit_sys (o : Output) : (s.emit o).sys = s.sys := rfl
@[simp] theorem emit_ev (o : Output) : (s.emit o).ev = s.ev := rfl
@[simp] theorem emit_ports (o : Output) : (s.emit o).ports = s.ports := rfl
@[simp] theorem emit_bridle (o : Output) : (s.emit o).bridle = s.bridle := rfl
@[simp] theorem emit_bridleTie (o : Output) : (s.emit o).bridleTie = s.bridleTie := rfl
@[simp] theorem emit_cmds (o : Output) : (s.emit o).cmds = s.cmds := rfl
@[simp] theorem emit_vols (o : Output) : (s.emit o).vols = s.vols := rfl
@[simp] theorem emit_params (o : Output) : (s.emit o).params = s.params := rfl
@[simp] theorem emit_flash (o : Output) : (s.emit o).flash = s.flash := rfl
@[simp] theorem emit_bays (o : Output) : (s.emit o).bays = s.bays := rfl
@[simp] theorem emit_pool (o : Output) : (s.emit o).pool = s.pool := rfl
@[simp] theorem emit_hnd (o : Output) : (s.emit o).hnd = s.hnd := rfl
@[simp] theorem emit_stg (o : Output) : (s.emit o).stg = s.stg := rfl
@[simp] theorem emit_mem (o : Output) : (s.emit o).mem = s.mem := rfl
@[simp] theorem emit_pair (o : Output) : (s.emit o).pair = s.pair := rfl
@[simp] theorem emit_out (o : Output) : (s.emit o).out = o :: s.out := rfl

/-! ### Ports and bays by number -/

@[simp] theorem onPort_same (p : Port) (f : PortState → PortState) : (s.onPort p f).ports[p.val] = f s.ports[p.val] := by
  simp [State.onPort]

theorem onPort_other {p q : Port} (h : q ≠ p) (f : PortState → PortState) : (s.onPort p f).ports[q.val] = s.ports[q.val] := by
  have : p.val ≠ q.val := fun e => h (Fin.ext e.symm)
  simp [State.onPort, this]

@[simp] theorem onBay_same (b : BayNo) (f : Bay → Bay) : (s.onBay b f).bays[b.val] = f s.bays[b.val] := by
  simp [State.onBay]

theorem onBay_other {b c : BayNo} (h : c ≠ b) (f : Bay → Bay) : (s.onBay b f).bays[c.val] = s.bays[c.val] := by
  have : b.val ≠ c.val := fun e => h (Fin.ext e.symm)
  simp [State.onBay, this]

@[simp] theorem onAfe_same (b : BayNo) (f : Afe → Afe) :
    (s.onAfe b f).bays[b.val] = (let t := s.bays[b.val]; { t with afe := f t.afe }) := by
  simp [State.onAfe]

theorem onAfe_other {b c : BayNo} (h : c ≠ b) (f : Afe → Afe) : (s.onAfe b f).bays[c.val] = s.bays[c.val] := by
  simp [State.onAfe, onBay_other s h]

@[simp] theorem onRc_same (b : BayNo) (f : ReadChannel → ReadChannel) :
    (s.onRc b f).bays[b.val] = (let t := s.bays[b.val]; { t with rc := f t.rc }) := by
  simp [State.onRc]

theorem onRc_other {b c : BayNo} (h : c ≠ b) (f : ReadChannel → ReadChannel) : (s.onRc b f).bays[c.val] = s.bays[c.val] := by
  simp [State.onRc, onBay_other s h]

@[simp] theorem onDec_same (b : BayNo) (f : BayDecode → BayDecode) :
    (s.onDec b f).bays[b.val] = (let t := s.bays[b.val]; { t with dec := f t.dec }) := by
  simp [State.onDec]

theorem onDec_other {b c : BayNo} (h : c ≠ b) (f : BayDecode → BayDecode) : (s.onDec b f).bays[c.val] = s.bays[c.val] := by
  simp [State.onDec, onBay_other s h]

@[simp] theorem onWp_same (b : BayNo) (f : WritePath → WritePath) :
    (s.onWp b f).bays[b.val] = (let t := s.bays[b.val]; { t with wp := f t.wp }) := by
  simp [State.onWp]

theorem onWp_other {b c : BayNo} (h : c ≠ b) (f : WritePath → WritePath) : (s.onWp b f).bays[c.val] = s.bays[c.val] := by
  simp [State.onWp, onBay_other s h]

@[simp] theorem onSrv_same (b : BayNo) (f : Servo → Servo) :
    (s.onSrv b f).bays[b.val] = (let t := s.bays[b.val]; { t with srv := f t.srv }) := by
  simp [State.onSrv]

theorem onSrv_other {b c : BayNo} (h : c ≠ b) (f : Servo → Servo) : (s.onSrv b f).bays[c.val] = s.bays[c.val] := by
  simp [State.onSrv, onBay_other s h]

@[simp] theorem onSpn_same (b : BayNo) (f : Spindle → Spindle) :
    (s.onSpn b f).bays[b.val] = (let t := s.bays[b.val]; { t with spn := f t.spn }) := by
  simp [State.onSpn]

theorem onSpn_other {b c : BayNo} (h : c ≠ b) (f : Spindle → Spindle) : (s.onSpn b f).bays[c.val] = s.bays[c.val] := by
  simp [State.onSpn, onBay_other s h]

@[simp] theorem onSld_same (b : BayNo) (f : StepAxis → StepAxis) :
    (s.onSld b f).bays[b.val] = (let t := s.bays[b.val]; { t with sld := f t.sld }) := by
  simp [State.onSld]

theorem onSld_other {b c : BayNo} (h : c ≠ b) (f : StepAxis → StepAxis) : (s.onSld b f).bays[c.val] = s.bays[c.val] := by
  simp [State.onSld, onBay_other s h]

@[simp] theorem onSeq_same (b : BayNo) (f : Seq → Seq) :
    (s.onSeq b f).bays[b.val] = (let t := s.bays[b.val]; { t with seq := f t.seq }) := by
  simp [State.onSeq]

theorem onSeq_other {b c : BayNo} (h : c ≠ b) (f : Seq → Seq) : (s.onSeq b f).bays[c.val] = s.bays[c.val] := by
  simp [State.onSeq, onBay_other s h]

@[simp] theorem onMbx_same (p : Port) (f : Mailbox → Mailbox) :
    (s.onMbx p f).ports[p.val] = (let t := s.ports[p.val]; { t with mbx := f t.mbx }) := by
  simp [State.onMbx]

@[simp] theorem onRing_same (p : Port) (f : EvRing → EvRing) :
    (s.onRing p f).ports[p.val] = (let t := s.ports[p.val]; { t with ring := f t.ring }) := by
  simp [State.onRing]

@[simp] theorem onQueue_same (p : Port) (q : QueueNo) (f : QueuePair → QueuePair) :
    (s.onQueue p q f).ports[p.val].queues[q.val] = f s.ports[p.val].queues[q.val] := by
  simp [State.onQueue]

end Sys2Proof.Laws
end

