-- ==== Sys2Proof/Laws/Raise.lean ====
section
/-! SUPPORT. Everything that raising an event does (R12, R421, R422): it appends one raised event, sets an alarm bit and may fire a tail, and leaves the rest. -/

namespace Sys2Proof.Laws

set_option Elab.async false

open Sys2Proof Sys2Proof.Machine

variable (s : State)

/-! ### Firing tails -/

@[simp] theorem fireTails_counters (v : Servo) (test : TailCfg → Bool) : (v.fireTails test).counters = v.counters := rfl
@[simp] theorem fireTails_samples (v : Servo) (test : TailCfg → Bool) : (v.fireTails test).samples = v.samples := rfl
@[simp] theorem fireTails_stale (v : Servo) (test : TailCfg → Bool) : (v.fireTails test).stale = v.stale := rfl
@[simp] theorem fireTails_history (v : Servo) (test : TailCfg → Bool) : (v.fireTails test).history = v.history := rfl
@[simp] theorem fireTails_tiltSum (v : Servo) (test : TailCfg → Bool) : (v.fireTails test).tiltSum = v.tiltSum := rfl
@[simp] theorem fireTails_cycle (v : Servo) (test : TailCfg → Bool) : (v.fireTails test).cycle = v.cycle := rfl
@[simp] theorem fireTails_tiltWord (v : Servo) (test : TailCfg → Bool) : (v.fireTails test).tiltWord = v.tiltWord := rfl
@[simp] theorem fireTails_focus (v : Servo) (test : TailCfg → Bool) : (v.fireTails test).focus = v.focus := rfl
@[simp] theorem fireTails_tracking (v : Servo) (test : TailCfg → Bool) : (v.fireTails test).tracking = v.tracking := rfl
@[simp] theorem fireTails_tilt (v : Servo) (test : TailCfg → Bool) : (v.fireTails test).tilt = v.tilt := rfl
@[simp] theorem fireTails_sled (v : Servo) (test : TailCfg → Bool) : (v.fireTails test).sled = v.sled := rfl
@[simp] theorem fireTails_hold (v : Servo) (test : TailCfg → Bool) : (v.fireTails test).hold = v.hold := rfl
@[simp] theorem fireTails_parked (v : Servo) (test : TailCfg → Bool) : (v.fireTails test).parked = v.parked := rfl
@[simp] theorem fireTails_ramp (v : Servo) (test : TailCfg → Bool) : (v.fireTails test).ramp = v.ramp := rfl
@[simp] theorem fireTails_acq (v : Servo) (test : TailCfg → Bool) : (v.fireTails test).acq = v.acq := rfl
@[simp] theorem fireTails_trackAcq (v : Servo) (test : TailCfg → Bool) : (v.fireTails test).trackAcq = v.trackAcq := rfl
@[simp] theorem fireTails_reacquire (v : Servo) (test : TailCfg → Bool) : (v.fireTails test).reacquire = v.reacquire := rfl
@[simp] theorem fireTails_move (v : Servo) (test : TailCfg → Bool) : (v.fireTails test).move = v.move := rfl
@[simp] theorem fireTails_queued (v : Servo) (test : TailCfg → Bool) : (v.fireTails test).queued = v.queued := rfl
@[simp] theorem fireTails_slopeF (v : Servo) (test : TailCfg → Bool) : (v.fireTails test).slopeF = v.slopeF := rfl
@[simp] theorem fireTails_slopeT (v : Servo) (test : TailCfg → Bool) : (v.fireTails test).slopeT = v.slopeT := rfl
@[simp] theorem fireTails_travel (v : Servo) (test : TailCfg → Bool) : (v.fireTails test).travel = v.travel := rfl
@[simp] theorem fireTails_runout (v : Servo) (test : TailCfg → Bool) : (v.fireTails test).runout = v.runout := rfl
@[simp] theorem fireTails_tables (v : Servo) (test : TailCfg → Bool) : (v.fireTails test).tables = v.tables := rfl
@[simp] theorem fireTails_tablesValid (v : Servo) (test : TailCfg → Bool) : (v.fireTails test).tablesValid = v.tablesValid := rfl
@[simp] theorem fireTails_tablesTemp (v : Servo) (test : TailCfg → Bool) : (v.fireTails test).tablesTemp = v.tablesTemp := rfl
@[simp] theorem fireTails_recovery (v : Servo) (test : TailCfg → Bool) : (v.fireTails test).recovery = v.recovery := rfl
@[simp] theorem fireTails_lens (v : Servo) (test : TailCfg → Bool) : (v.fireTails test).lens = v.lens := rfl
@[simp] theorem fireTails_lensAbove (v : Servo) (test : TailCfg → Bool) : (v.fireTails test).lensAbove = v.lensAbove := rfl
@[simp] theorem fireTails_lastTen (v : Servo) (test : TailCfg → Bool) : (v.fireTails test).lastTen = v.lastTen := rfl
@[simp] theorem fireTails_lastFen (v : Servo) (test : TailCfg → Bool) : (v.fireTails test).lastFen = v.lastFen := rfl
@[simp] theorem fireTails_crossings (v : Servo) (test : TailCfg → Bool) : (v.fireTails test).crossings = v.crossings := rfl
@[simp] theorem fireTails_tenMax (v : Servo) (test : TailCfg → Bool) : (v.fireTails test).tenMax = v.tenMax := rfl
@[simp] theorem fireTails_tenMin (v : Servo) (test : TailCfg → Bool) : (v.fireTails test).tenMin = v.tenMin := rfl
@[simp] theorem fireTails_ripple (v : Servo) (test : TailCfg → Bool) : (v.fireTails test).ripple = v.ripple := rfl
@[simp] theorem fireTails_crossAge (v : Servo) (test : TailCfg → Bool) : (v.fireTails test).crossAge = v.crossAge := rfl
@[simp] theorem fireTails_refineSum (v : Servo) (test : TailCfg → Bool) : (v.fireTails test).refineSum = v.refineSum := rfl
@[simp] theorem fireTails_refineCount (v : Servo) (test : TailCfg → Bool) : (v.fireTails test).refineCount = v.refineCount := rfl
@[simp] theorem fireTails_refineAge (v : Servo) (test : TailCfg → Bool) : (v.fireTails test).refineAge = v.refineAge := rfl
@[simp] theorem fireTails_place (v : Servo) (test : TailCfg → Bool) : (v.fireTails test).place = v.place := rfl
@[simp] theorem fireTails_pair (v : Servo) (test : TailCfg → Bool) : (v.fireTails test).pair = v.pair := rfl
@[simp] theorem fireTails_ids (v : Servo) (test : TailCfg → Bool) : (v.fireTails test).ids = v.ids := rfl
@[simp] theorem fireTails_offFocus (v : Servo) (test : TailCfg → Bool) : (v.fireTails test).offFocus = v.offFocus := rfl
@[simp] theorem fireTails_offTilt (v : Servo) (test : TailCfg → Bool) : (v.fireTails test).offTilt = v.offTilt := rfl
@[simp] theorem fireTails_periods (v : Servo) (test : TailCfg → Bool) : (v.fireTails test).periods = v.periods := rfl

/-! ### raiseAt -/

@[simp] theorem raiseAt_pending (e : Ev) (sev : Severity) (fs : List PField) : (s.raiseAt e sev fs).pending = s.pending := by
  unfold State.raiseAt
  split
  · rfl
  · dsimp only; split <;> cases e <;> rfl

@[simp] theorem raiseAt_sys (e : Ev) (sev : Severity) (fs : List PField) : (s.raiseAt e sev fs).sys = s.sys := by
  unfold State.raiseAt
  split
  · rfl
  · dsimp only; split <;> cases e <;> rfl

@[simp] theorem raiseAt_bridle (e : Ev) (sev : Severity) (fs : List PField) : (s.raiseAt e sev fs).bridle = s.bridle := by
  unfold State.raiseAt
  split
  · rfl
  · dsimp only; split <;> cases e <;> rfl

@[simp] theorem raiseAt_bridleTie (e : Ev) (sev : Severity) (fs : List PField) : (s.raiseAt e sev fs).bridleTie = s.bridleTie := by
  unfold State.raiseAt
  split
  · rfl
  · dsimp only; split <;> cases e <;> rfl

@[simp] theorem raiseAt_cmds (e : Ev) (sev : Severity) (fs : List PField) : (s.raiseAt e sev fs).cmds = s.cmds := by
  unfold State.raiseAt
  split
  · rfl
  · dsimp only; split <;> cases e <;> rfl

@[simp] theorem raiseAt_vols (e : Ev) (sev : Severity) (fs : List PField) : (s.raiseAt e sev fs).vols = s.vols := by
  unfold State.raiseAt
  split
  · rfl
  · dsimp only; split <;> cases e <;> rfl

@[simp] theorem raiseAt_params (e : Ev) (sev : Severity) (fs : List PField) : (s.raiseAt e sev fs).params = s.params := by
  unfold State.raiseAt
  split
  · rfl
  · dsimp only; split <;> cases e <;> rfl

@[simp] theorem raiseAt_flash (e : Ev) (sev : Severity) (fs : List PField) : (s.raiseAt e sev fs).flash = s.flash := by
  unfold State.raiseAt
  split
  · rfl
  · dsimp only; split <;> cases e <;> rfl

@[simp] theorem raiseAt_pool (e : Ev) (sev : Severity) (fs : List PField) : (s.raiseAt e sev fs).pool = s.pool := by
  unfold State.raiseAt
  split
  · rfl
  · dsimp only; split <;> cases e <;> rfl

@[simp] theorem raiseAt_hnd (e : Ev) (sev : Severity) (fs : List PField) : (s.raiseAt e sev fs).hnd = s.hnd := by
  unfold State.raiseAt
  split
  · rfl
  · dsimp only; split <;> cases e <;> rfl

@[simp] theorem raiseAt_stg (e : Ev) (sev : Severity) (fs : List PField) : (s.raiseAt e sev fs).stg = s.stg := by
  unfold State.raiseAt
  split
  · rfl
  · dsimp only; split <;> cases e <;> rfl

@[simp] theorem raiseAt_mem (e : Ev) (sev : Severity) (fs : List PField) : (s.raiseAt e sev fs).mem = s.mem := by
  unfold State.raiseAt
  split
  · rfl
  · dsimp only; split <;> cases e <;> rfl

@[simp] theorem raiseAt_pair (e : Ev) (sev : Severity) (fs : List PField) : (s.raiseAt e sev fs).pair = s.pair := by
  unfold State.raiseAt
  split
  · rfl
  · dsimp only; split <;> cases e <;> rfl

@[simp] theorem raiseAt_out (e : Ev) (sev : Severity) (fs : List PField) : (s.raiseAt e sev fs).out = s.out := by
  unfold State.raiseAt
  split
  · rfl
  · dsimp only; split <;> cases e <;> rfl

/-- Outside OFF an event is appended to those that wait for the firmware queue. -/
theorem raiseAt_raised (e : Ev) (sev : Severity) (fs : List PField) (h : s.sys.mode ≠ .off) :
    ∃ r, (s.raiseAt e sev fs).ev.raised = s.ev.raised ++ [r] ∧ r.src = e.src ∧ r.sev = sev ∧ r.payload = payload fs
      ∧ r.time = s.sys.time := by
  refine ⟨{ src := e.src, sev := sev, payload := payload fs, time := s.sys.time, latched := latched s e.src (payload fs) }, ?_, rfl, rfl, rfl, rfl⟩
  unfold State.raiseAt
  rw [if_neg h]
  dsimp only
  split <;> cases e <;> rfl

/-- The event path after an event: one record more waits for the firmware queue, outside OFF. -/
@[simp] theorem raiseAt_ev (e : Ev) (sev : Severity) (fs : List PField) :
    (s.raiseAt e sev fs).ev = { s.ev with latches := s.ev.latches + (if s.sys.mode = .off then 0 else 1), raised := s.ev.raised ++
      (if s.sys.mode = .off then [] else
      [{ src := e.src, sev := sev, payload := payload fs, time := s.sys.time, latched := latched s e.src (payload fs) }]) } := by
  unfold State.raiseAt
  split
  · simp only [List.append_nil, Nat.add_zero]
  · dsimp only; split <;> cases e <;> rfl

theorem tailEvent_bay (e : Ev) (b : BayNo) : ∃ t, (s.tailEvent e).bays[b.val] = { s.bays[b.val] with srv := { s.bays[b.val].srv with tails := t } } := by
  unfold State.tailEvent
  split
  · rename_i c x
    by_cases h : b = c
    · subst h
      exact ⟨_, by rw [onSrv_same]; rfl⟩
    · exact ⟨_, by rw [onSrv_other s h]⟩
  · exact ⟨_, rfl⟩

/-- A bay after an event differs from before in its tails alone. -/
theorem raiseAt_bay (e : Ev) (sev : Severity) (fs : List PField) (b : BayNo) :
    ∃ t, (s.raiseAt e sev fs).bays[b.val] = { s.bays[b.val] with srv := { s.bays[b.val].srv with tails := t } } := by
  unfold State.raiseAt
  split
  · exact ⟨_, rfl⟩
  · dsimp only
    split
    · simpa [State.eachPort] using tailEvent_bay (s.onEv _) e b
    · simpa using tailEvent_bay (s.onEv _) e b

theorem tailEvent_ports (e : Ev) : (s.tailEvent e).ports = s.ports := by
  cases e <;> rfl

/-- A port after an event differs from before in its Alarm Summary alone. -/
theorem raiseAt_port (e : Ev) (sev : Severity) (fs : List PField) (p : Port) :
    ∃ a, (s.raiseAt e sev fs).ports[p.val] = { s.ports[p.val] with alarm := a } := by
  unfold State.raiseAt
  split
  · exact ⟨_, rfl⟩
  · dsimp only
    split
    · match p with
      | 0 => exact ⟨_, by simp [State.eachPort, State.onPort, tailEvent_ports]; rfl⟩
      | 1 => exact ⟨_, by simp [State.eachPort, State.onPort, tailEvent_ports]; rfl⟩
    · refine ⟨s.ports[p.val].alarm, ?_⟩
      cases e <;> rfl

@[simp] theorem raiseAt_bay_afe (e : Ev) (sev : Severity) (fs : List PField) (b : BayNo) :
    (s.raiseAt e sev fs).bays[b.val].afe = s.bays[b.val].afe := by
  obtain ⟨t, h⟩ := raiseAt_bay s e sev fs b; rw [h]

@[simp] theorem raiseAt_bay_rc (e : Ev) (sev : Severity) (fs : List PField) (b : BayNo) :
    (s.raiseAt e sev fs).bays[b.val].rc = s.bays[b.val].rc := by
  obtain ⟨t, h⟩ := raiseAt_bay s e sev fs b; rw [h]

@[simp] theorem raiseAt_bay_dec (e : Ev) (sev : Severity) (fs : List PField) (b : BayNo) :
    (s.raiseAt e sev fs).bays[b.val].dec = s.bays[b.val].dec := by
  obtain ⟨t, h⟩ := raiseAt_bay s e sev fs b; rw [h]

@[simp] theorem raiseAt_bay_wp (e : Ev) (sev : Severity) (fs : List PField) (b : BayNo) :
    (s.raiseAt e sev fs).bays[b.val].wp = s.bays[b.val].wp := by
  obtain ⟨t, h⟩ := raiseAt_bay s e sev fs b; rw [h]

@[simp] theorem raiseAt_bay_spn (e : Ev) (sev : Severity) (fs : List PField) (b : BayNo) :
    (s.raiseAt e sev fs).bays[b.val].spn = s.bays[b.val].spn := by
  obtain ⟨t, h⟩ := raiseAt_bay s e sev fs b; rw [h]

@[simp] theorem raiseAt_bay_sld (e : Ev) (sev : Severity) (fs : List PField) (b : BayNo) :
    (s.raiseAt e sev fs).bays[b.val].sld = s.bays[b.val].sld := by
  obtain ⟨t, h⟩ := raiseAt_bay s e sev fs b; rw [h]

@[simp] theorem raiseAt_bay_seq (e : Ev) (sev : Severity) (fs : List PField) (b : BayNo) :
    (s.raiseAt e sev fs).bays[b.val].seq = s.bays[b.val].seq := by
  obtain ⟨t, h⟩ := raiseAt_bay s e sev fs b; rw [h]

@[simp] theorem raiseAt_bay_qHeld (e : Ev) (sev : Severity) (fs : List PField) (b : BayNo) :
    (s.raiseAt e sev fs).bays[b.val].qHeld = s.bays[b.val].qHeld := by
  obtain ⟨t, h⟩ := raiseAt_bay s e sev fs b; rw [h]

@[simp] theorem raiseAt_bay_sHeld (e : Ev) (sev : Severity) (fs : List PField) (b : BayNo) :
    (s.raiseAt e sev fs).bays[b.val].sHeld = s.bays[b.val].sHeld := by
  obtain ⟨t, h⟩ := raiseAt_bay s e sev fs b; rw [h]

@[simp] theorem raiseAt_srv_counters (e : Ev) (sev : Severity) (fs : List PField) (b : BayNo) :
    (s.raiseAt e sev fs).bays[b.val].srv.counters = s.bays[b.val].srv.counters := by
  obtain ⟨t, h⟩ := raiseAt_bay s e sev fs b; rw [h]

@[simp] theorem raiseAt_srv_samples (e : Ev) (sev : Severity) (fs : List PField) (b : BayNo) :
    (s.raiseAt e sev fs).bays[b.val].srv.samples = s.bays[b.val].srv.samples := by
  obtain ⟨t, h⟩ := raiseAt_bay s e sev fs b; rw [h]

@[simp] theorem raiseAt_srv_stale (e : Ev) (sev : Severity) (fs : List PField) (b : BayNo) :
    (s.raiseAt e sev fs).bays[b.val].srv.stale = s.bays[b.val].srv.stale := by
  obtain ⟨t, h⟩ := raiseAt_bay s e sev fs b; rw [h]

@[simp] theorem raiseAt_srv_history (e : Ev) (sev : Severity) (fs : List PField) (b : BayNo) :
    (s.raiseAt e sev fs).bays[b.val].srv.history = s.bays[b.val].srv.history := by
  obtain ⟨t, h⟩ := raiseAt_bay s e sev fs b; rw [h]

@[simp] theorem raiseAt_srv_tiltSum (e : Ev) (sev : Severity) (fs : List PField) (b : BayNo) :
    (s.raiseAt e sev fs).bays[b.val].srv.tiltSum = s.bays[b.val].srv.tiltSum := by
  obtain ⟨t, h⟩ := raiseAt_bay s e sev fs b; rw [h]

@[simp] theorem raiseAt_srv_cycle (e : Ev) (sev : Severity) (fs : List PField) (b : BayNo) :
    (s.raiseAt e sev fs).bays[b.val].srv.cycle = s.bays[b.val].srv.cycle := by
  obtain ⟨t, h⟩ := raiseAt_bay s e sev fs b; rw [h]

@[simp] theorem raiseAt_srv_tiltWord (e : Ev) (sev : Severity) (fs : List PField) (b : BayNo) :
    (s.raiseAt e sev fs).bays[b.val].srv.tiltWord = s.bays[b.val].srv.tiltWord := by
  obtain ⟨t, h⟩ := raiseAt_bay s e sev fs b; rw [h]

@[simp] theorem raiseAt_srv_focus (e : Ev) (sev : Severity) (fs : List PField) (b : BayNo) :
    (s.raiseAt e sev fs).bays[b.val].srv.focus = s.bays[b.val].srv.focus := by
  obtain ⟨t, h⟩ := raiseAt_bay s e sev fs b; rw [h]

@[simp] theorem raiseAt_srv_tracking (e : Ev) (sev : Severity) (fs : List PField) (b : BayNo) :
    (s.raiseAt e sev fs).bays[b.val].srv.tracking = s.bays[b.val].srv.tracking := by
  obtain ⟨t, h⟩ := raiseAt_bay s e sev fs b; rw [h]

@[simp] theorem raiseAt_srv_tilt (e : Ev) (sev : Severity) (fs : List PField) (b : BayNo) :
    (s.raiseAt e sev fs).bays[b.val].srv.tilt = s.bays[b.val].srv.tilt := by
  obtain ⟨t, h⟩ := raiseAt_bay s e sev fs b; rw [h]

@[simp] theorem raiseAt_srv_sled (e : Ev) (sev : Severity) (fs : List PField) (b : BayNo) :
    (s.raiseAt e sev fs).bays[b.val].srv.sled = s.bays[b.val].srv.sled := by
  obtain ⟨t, h⟩ := raiseAt_bay s e sev fs b; rw [h]

@[simp] theorem raiseAt_srv_hold (e : Ev) (sev : Severity) (fs : List PField) (b : BayNo) :
    (s.raiseAt e sev fs).bays[b.val].srv.hold = s.bays[b.val].srv.hold := by
  obtain ⟨t, h⟩ := raiseAt_bay s e sev fs b; rw [h]

@[simp] theorem raiseAt_srv_parked (e : Ev) (sev : Severity) (fs : List PField) (b : BayNo) :
    (s.raiseAt e sev fs).bays[b.val].srv.parked = s.bays[b.val].srv.parked := by
  obtain ⟨t, h⟩ := raiseAt_bay s e sev fs b; rw [h]

@[simp] theorem raiseAt_srv_ramp (e : Ev) (sev : Severity) (fs : List PField) (b : BayNo) :
    (s.raiseAt e sev fs).bays[b.val].srv.ramp = s.bays[b.val].srv.ramp := by
  obtain ⟨t, h⟩ := raiseAt_bay s e sev fs b; rw [h]

@[simp] theorem raiseAt_srv_acq (e : Ev) (sev : Severity) (fs : List PField) (b : BayNo) :
    (s.raiseAt e sev fs).bays[b.val].srv.acq = s.bays[b.val].srv.acq := by
  obtain ⟨t, h⟩ := raiseAt_bay s e sev fs b; rw [h]

@[simp] theorem raiseAt_srv_trackAcq (e : Ev) (sev : Severity) (fs : List PField) (b : BayNo) :
    (s.raiseAt e sev fs).bays[b.val].srv.trackAcq = s.bays[b.val].srv.trackAcq := by
  obtain ⟨t, h⟩ := raiseAt_bay s e sev fs b; rw [h]

@[simp] theorem raiseAt_srv_reacquire (e : Ev) (sev : Severity) (fs : List PField) (b : BayNo) :
    (s.raiseAt e sev fs).bays[b.val].srv.reacquire = s.bays[b.val].srv.reacquire := by
  obtain ⟨t, h⟩ := raiseAt_bay s e sev fs b; rw [h]

@[simp] theorem raiseAt_srv_move (e : Ev) (sev : Severity) (fs : List PField) (b : BayNo) :
    (s.raiseAt e sev fs).bays[b.val].srv.move = s.bays[b.val].srv.move := by
  obtain ⟨t, h⟩ := raiseAt_bay s e sev fs b; rw [h]

@[simp] theorem raiseAt_srv_queued (e : Ev) (sev : Severity) (fs : List PField) (b : BayNo) :
    (s.raiseAt e sev fs).bays[b.val].srv.queued = s.bays[b.val].srv.queued := by
  obtain ⟨t, h⟩ := raiseAt_bay s e sev fs b; rw [h]

@[simp] theorem raiseAt_srv_slopeF (e : Ev) (sev : Severity) (fs : List PField) (b : BayNo) :
    (s.raiseAt e sev fs).bays[b.val].srv.slopeF = s.bays[b.val].srv.slopeF := by
  obtain ⟨t, h⟩ := raiseAt_bay s e sev fs b; rw [h]

@[simp] theorem raiseAt_srv_slopeT (e : Ev) (sev : Severity) (fs : List PField) (b : BayNo) :
    (s.raiseAt e sev fs).bays[b.val].srv.slopeT = s.bays[b.val].srv.slopeT := by
  obtain ⟨t, h⟩ := raiseAt_bay s e sev fs b; rw [h]

@[simp] theorem raiseAt_srv_travel (e : Ev) (sev : Severity) (fs : List PField) (b : BayNo) :
    (s.raiseAt e sev fs).bays[b.val].srv.travel = s.bays[b.val].srv.travel := by
  obtain ⟨t, h⟩ := raiseAt_bay s e sev fs b; rw [h]

@[simp] theorem raiseAt_srv_runout (e : Ev) (sev : Severity) (fs : List PField) (b : BayNo) :
    (s.raiseAt e sev fs).bays[b.val].srv.runout = s.bays[b.val].srv.runout := by
  obtain ⟨t, h⟩ := raiseAt_bay s e sev fs b; rw [h]

@[simp] theorem raiseAt_srv_tables (e : Ev) (sev : Severity) (fs : List PField) (b : BayNo) :
    (s.raiseAt e sev fs).bays[b.val].srv.tables = s.bays[b.val].srv.tables := by
  obtain ⟨t, h⟩ := raiseAt_bay s e sev fs b; rw [h]

@[simp] theorem raiseAt_srv_tablesValid (e : Ev) (sev : Severity) (fs : List PField) (b : BayNo) :
    (s.raiseAt e sev fs).bays[b.val].srv.tablesValid = s.bays[b.val].srv.tablesValid := by
  obtain ⟨t, h⟩ := raiseAt_bay s e sev fs b; rw [h]

@[simp] theorem raiseAt_srv_tablesTemp (e : Ev) (sev : Severity) (fs : List PField) (b : BayNo) :
    (s.raiseAt e sev fs).bays[b.val].srv.tablesTemp = s.bays[b.val].srv.tablesTemp := by
  obtain ⟨t, h⟩ := raiseAt_bay s e sev fs b; rw [h]

@[simp] theorem raiseAt_srv_recovery (e : Ev) (sev : Severity) (fs : List PField) (b : BayNo) :
    (s.raiseAt e sev fs).bays[b.val].srv.recovery = s.bays[b.val].srv.recovery := by
  obtain ⟨t, h⟩ := raiseAt_bay s e sev fs b; rw [h]

@[simp] theorem raiseAt_srv_lens (e : Ev) (sev : Severity) (fs : List PField) (b : BayNo) :
    (s.raiseAt e sev fs).bays[b.val].srv.lens = s.bays[b.val].srv.lens := by
  obtain ⟨t, h⟩ := raiseAt_bay s e sev fs b; rw [h]

@[simp] theorem raiseAt_srv_lensAbove (e : Ev) (sev : Severity) (fs : List PField) (b : BayNo) :
    (s.raiseAt e sev fs).bays[b.val].srv.lensAbove = s.bays[b.val].srv.lensAbove := by
  obtain ⟨t, h⟩ := raiseAt_bay s e sev fs b; rw [h]

@[simp] theorem raiseAt_srv_lastTen (e : Ev) (sev : Severity) (fs : List PField) (b : BayNo) :
    (s.raiseAt e sev fs).bays[b.val].srv.lastTen = s.bays[b.val].srv.lastTen := by
  obtain ⟨t, h⟩ := raiseAt_bay s e sev fs b; rw [h]

@[simp] theorem raiseAt_srv_lastFen (e : Ev) (sev : Severity) (fs : List PField) (b : BayNo) :
    (s.raiseAt e sev fs).bays[b.val].srv.lastFen = s.bays[b.val].srv.lastFen := by
  obtain ⟨t, h⟩ := raiseAt_bay s e sev fs b; rw [h]

@[simp] theorem raiseAt_srv_crossings (e : Ev) (sev : Severity) (fs : List PField) (b : BayNo) :
    (s.raiseAt e sev fs).bays[b.val].srv.crossings = s.bays[b.val].srv.crossings := by
  obtain ⟨t, h⟩ := raiseAt_bay s e sev fs b; rw [h]

@[simp] theorem raiseAt_srv_tenMax (e : Ev) (sev : Severity) (fs : List PField) (b : BayNo) :
    (s.raiseAt e sev fs).bays[b.val].srv.tenMax = s.bays[b.val].srv.tenMax := by
  obtain ⟨t, h⟩ := raiseAt_bay s e sev fs b; rw [h]

@[simp] theorem raiseAt_srv_tenMin (e : Ev) (sev : Severity) (fs : List PField) (b : BayNo) :
    (s.raiseAt e sev fs).bays[b.val].srv.tenMin = s.bays[b.val].srv.tenMin := by
  obtain ⟨t, h⟩ := raiseAt_bay s e sev fs b; rw [h]

@[simp] theorem raiseAt_srv_ripple (e : Ev) (sev : Severity) (fs : List PField) (b : BayNo) :
    (s.raiseAt e sev fs).bays[b.val].srv.ripple = s.bays[b.val].srv.ripple := by
  obtain ⟨t, h⟩ := raiseAt_bay s e sev fs b; rw [h]

@[simp] theorem raiseAt_srv_crossAge (e : Ev) (sev : Severity) (fs : List PField) (b : BayNo) :
    (s.raiseAt e sev fs).bays[b.val].srv.crossAge = s.bays[b.val].srv.crossAge := by
  obtain ⟨t, h⟩ := raiseAt_bay s e sev fs b; rw [h]

@[simp] theorem raiseAt_srv_refineSum (e : Ev) (sev : Severity) (fs : List PField) (b : BayNo) :
    (s.raiseAt e sev fs).bays[b.val].srv.refineSum = s.bays[b.val].srv.refineSum := by
  obtain ⟨t, h⟩ := raiseAt_bay s e sev fs b; rw [h]

@[simp] theorem raiseAt_srv_refineCount (e : Ev) (sev : Severity) (fs : List PField) (b : BayNo) :
    (s.raiseAt e sev fs).bays[b.val].srv.refineCount = s.bays[b.val].srv.refineCount := by
  obtain ⟨t, h⟩ := raiseAt_bay s e sev fs b; rw [h]

@[simp] theorem raiseAt_srv_refineAge (e : Ev) (sev : Severity) (fs : List PField) (b : BayNo) :
    (s.raiseAt e sev fs).bays[b.val].srv.refineAge = s.bays[b.val].srv.refineAge := by
  obtain ⟨t, h⟩ := raiseAt_bay s e sev fs b; rw [h]

@[simp] theorem raiseAt_srv_place (e : Ev) (sev : Severity) (fs : List PField) (b : BayNo) :
    (s.raiseAt e sev fs).bays[b.val].srv.place = s.bays[b.val].srv.place := by
  obtain ⟨t, h⟩ := raiseAt_bay s e sev fs b; rw [h]

@[simp] theorem raiseAt_srv_pair (e : Ev) (sev : Severity) (fs : List PField) (b : BayNo) :
    (s.raiseAt e sev fs).bays[b.val].srv.pair = s.bays[b.val].srv.pair := by
  obtain ⟨t, h⟩ := raiseAt_bay s e sev fs b; rw [h]

@[simp] theorem raiseAt_srv_ids (e : Ev) (sev : Severity) (fs : List PField) (b : BayNo) :
    (s.raiseAt e sev fs).bays[b.val].srv.ids = s.bays[b.val].srv.ids := by
  obtain ⟨t, h⟩ := raiseAt_bay s e sev fs b; rw [h]

@[simp] theorem raiseAt_srv_offFocus (e : Ev) (sev : Severity) (fs : List PField) (b : BayNo) :
    (s.raiseAt e sev fs).bays[b.val].srv.offFocus = s.bays[b.val].srv.offFocus := by
  obtain ⟨t, h⟩ := raiseAt_bay s e sev fs b; rw [h]

@[simp] theorem raiseAt_srv_offTilt (e : Ev) (sev : Severity) (fs : List PField) (b : BayNo) :
    (s.raiseAt e sev fs).bays[b.val].srv.offTilt = s.bays[b.val].srv.offTilt := by
  obtain ⟨t, h⟩ := raiseAt_bay s e sev fs b; rw [h]

@[simp] theorem raiseAt_srv_periods (e : Ev) (sev : Severity) (fs : List PField) (b : BayNo) :
    (s.raiseAt e sev fs).bays[b.val].srv.periods = s.bays[b.val].srv.periods := by
  obtain ⟨t, h⟩ := raiseAt_bay s e sev fs b; rw [h]

@[simp] theorem raiseAt_port_queues (e : Ev) (sev : Severity) (fs : List PField) (p : Port) :
    (s.raiseAt e sev fs).ports[p.val].queues = s.ports[p.val].queues := by
  obtain ⟨a, h⟩ := raiseAt_port s e sev fs p; rw [h]

@[simp] theorem raiseAt_port_lastServed (e : Ev) (sev : Severity) (fs : List PField) (p : Port) :
    (s.raiseAt e sev fs).ports[p.val].lastServed = s.ports[p.val].lastServed := by
  obtain ⟨a, h⟩ := raiseAt_port s e sev fs p; rw [h]

@[simp] theorem raiseAt_port_msix (e : Ev) (sev : Severity) (fs : List PField) (p : Port) :
    (s.raiseAt e sev fs).ports[p.val].msix = s.ports[p.val].msix := by
  obtain ⟨a, h⟩ := raiseAt_port s e sev fs p; rw [h]

@[simp] theorem raiseAt_port_pending (e : Ev) (sev : Severity) (fs : List PField) (p : Port) :
    (s.raiseAt e sev fs).ports[p.val].pending = s.ports[p.val].pending := by
  obtain ⟨a, h⟩ := raiseAt_port s e sev fs p; rw [h]

@[simp] theorem raiseAt_port_msixEnable (e : Ev) (sev : Severity) (fs : List PField) (p : Port) :
    (s.raiseAt e sev fs).ports[p.val].msixEnable = s.ports[p.val].msixEnable := by
  obtain ⟨a, h⟩ := raiseAt_port s e sev fs p; rw [h]

@[simp] theorem raiseAt_port_msixMask (e : Ev) (sev : Severity) (fs : List PField) (p : Port) :
    (s.raiseAt e sev fs).ports[p.val].msixMask = s.ports[p.val].msixMask := by
  obtain ⟨a, h⟩ := raiseAt_port s e sev fs p; rw [h]

@[simp] theorem raiseAt_port_relaxed (e : Ev) (sev : Severity) (fs : List PField) (p : Port) :
    (s.raiseAt e sev fs).ports[p.val].relaxed = s.ports[p.val].relaxed := by
  obtain ⟨a, h⟩ := raiseAt_port s e sev fs p; rw [h]

@[simp] theorem raiseAt_port_linkUp (e : Ev) (sev : Severity) (fs : List PField) (p : Port) :
    (s.raiseAt e sev fs).ports[p.val].linkUp = s.ports[p.val].linkUp := by
  obtain ⟨a, h⟩ := raiseAt_port s e sev fs p; rw [h]

@[simp] theorem raiseAt_port_linkGen (e : Ev) (sev : Severity) (fs : List PField) (p : Port) :
    (s.raiseAt e sev fs).ports[p.val].linkGen = s.ports[p.val].linkGen := by
  obtain ⟨a, h⟩ := raiseAt_port s e sev fs p; rw [h]

@[simp] theorem raiseAt_port_linkWidth (e : Ev) (sev : Severity) (fs : List PField) (p : Port) :
    (s.raiseAt e sev fs).ports[p.val].linkWidth = s.ports[p.val].linkWidth := by
  obtain ⟨a, h⟩ := raiseAt_port s e sev fs p; rw [h]

@[simp] theorem raiseAt_port_perst (e : Ev) (sev : Severity) (fs : List PField) (p : Port) :
    (s.raiseAt e sev fs).ports[p.val].perst = s.ports[p.val].perst := by
  obtain ⟨a, h⟩ := raiseAt_port s e sev fs p; rw [h]

@[simp] theorem raiseAt_port_d3hot (e : Ev) (sev : Severity) (fs : List PField) (p : Port) :
    (s.raiseAt e sev fs).ports[p.val].d3hot = s.ports[p.val].d3hot := by
  obtain ⟨a, h⟩ := raiseAt_port s e sev fs p; rw [h]

@[simp] theorem raiseAt_port_held (e : Ev) (sev : Severity) (fs : List PField) (p : Port) :
    (s.raiseAt e sev fs).ports[p.val].held = s.ports[p.val].held := by
  obtain ⟨a, h⟩ := raiseAt_port s e sev fs p; rw [h]

@[simp] theorem raiseAt_port_heldVectors (e : Ev) (sev : Severity) (fs : List PField) (p : Port) :
    (s.raiseAt e sev fs).ports[p.val].heldVectors = s.ports[p.val].heldVectors := by
  obtain ⟨a, h⟩ := raiseAt_port s e sev fs p; rw [h]

@[simp] theorem raiseAt_port_mbx (e : Ev) (sev : Severity) (fs : List PField) (p : Port) :
    (s.raiseAt e sev fs).ports[p.val].mbx = s.ports[p.val].mbx := by
  obtain ⟨a, h⟩ := raiseAt_port s e sev fs p; rw [h]

@[simp] theorem raiseAt_port_ring (e : Ev) (sev : Severity) (fs : List PField) (p : Port) :
    (s.raiseAt e sev fs).ports[p.val].ring = s.ports[p.val].ring := by
  obtain ⟨a, h⟩ := raiseAt_port s e sev fs p; rw [h]

@[simp] theorem raiseAt_port_cursor (e : Ev) (sev : Severity) (fs : List PField) (p : Port) :
    (s.raiseAt e sev fs).ports[p.val].cursor = s.ports[p.val].cursor := by
  obtain ⟨a, h⟩ := raiseAt_port s e sev fs p; rw [h]

/-! ### The unit-specific names -/

@[simp] theorem raise_eq (e : Ev) (fs : List PField) : s.raise e fs = s.raiseAt e e.sev fs := rfl
@[simp] theorem raiseBay_eq (b : BayNo) (e : BayEvent) (fs : List PField) : s.raiseBay b e fs = s.raiseAt (.bay b e) e.sev fs := rfl
@[simp] theorem raisePort_eq (p : Port) (e : PortEvent) (fs : List PField) :
    s.raisePort p e fs = s.raiseAt (.port p e) e.sev fs := rfl
@[simp] theorem raiseNand_eq (c : ChanNo) (e : NandEvent) (fs : List PField) :
    s.raiseNand c e fs = s.raiseAt (.nand c e) e.sev fs := rfl
@[simp] theorem raiseDev_eq (e : DevEvent) (fs : List PField) : s.raiseDev e fs = s.raiseAt (.dev e) e.sev fs := rfl

end Sys2Proof.Laws
end

