-- ==== Sys2Proof/Laws/Host.lean ====
section
/-! SUPPORT. What signalling, posting, sending and completing leave alone: the end of a command takes it off the outstanding list and touches the ports, the pair, the staged clusters' tags and the output only. -/

namespace Sys2Proof.Laws

set_option Elab.async false

open Sys2Proof Sys2Proof.Machine

variable (s : State)

/-! ### signal -/

@[simp] theorem signal_pending (p : Port) (v : Fin 65) : (s.signal p v).pending = s.pending := by
  unfold State.signal; dsimp only; split; · rfl
  split; · rfl
  split <;> rfl

@[simp] theorem signal_sys (p : Port) (v : Fin 65) : (s.signal p v).sys = s.sys := by
  unfold State.signal; dsimp only; split; · rfl
  split; · rfl
  split <;> rfl

@[simp] theorem signal_ev (p : Port) (v : Fin 65) : (s.signal p v).ev = s.ev := by
  unfold State.signal; dsimp only; split; · rfl
  split; · rfl
  split <;> rfl

@[simp] theorem signal_bridle (p : Port) (v : Fin 65) : (s.signal p v).bridle = s.bridle := by
  unfold State.signal; dsimp only; split; · rfl
  split; · rfl
  split <;> rfl

@[simp] theorem signal_bridleTie (p : Port) (v : Fin 65) : (s.signal p v).bridleTie = s.bridleTie := by
  unfold State.signal; dsimp only; split; · rfl
  split; · rfl
  split <;> rfl

@[simp] theorem signal_cmds (p : Port) (v : Fin 65) : (s.signal p v).cmds = s.cmds := by
  unfold State.signal; dsimp only; split; · rfl
  split; · rfl
  split <;> rfl

@[simp] theorem signal_vols (p : Port) (v : Fin 65) : (s.signal p v).vols = s.vols := by
  unfold State.signal; dsimp only; split; · rfl
  split; · rfl
  split <;> rfl

@[simp] theorem signal_params (p : Port) (v : Fin 65) : (s.signal p v).params = s.params := by
  unfold State.signal; dsimp only; split; · rfl
  split; · rfl
  split <;> rfl

@[simp] theorem signal_flash (p : Port) (v : Fin 65) : (s.signal p v).flash = s.flash := by
  unfold State.signal; dsimp only; split; · rfl
  split; · rfl
  split <;> rfl

@[simp] theorem signal_bays (p : Port) (v : Fin 65) : (s.signal p v).bays = s.bays := by
  unfold State.signal; dsimp only; split; · rfl
  split; · rfl
  split <;> rfl

@[simp] theorem signal_pool (p : Port) (v : Fin 65) : (s.signal p v).pool = s.pool := by
  unfold State.signal; dsimp only; split; · rfl
  split; · rfl
  split <;> rfl

@[simp] theorem signal_hnd (p : Port) (v : Fin 65) : (s.signal p v).hnd = s.hnd := by
  unfold State.signal; dsimp only; split; · rfl
  split; · rfl
  split <;> rfl

@[simp] theorem signal_stg (p : Port) (v : Fin 65) : (s.signal p v).stg = s.stg := by
  unfold State.signal; dsimp only; split; · rfl
  split; · rfl
  split <;> rfl

@[simp] theorem signal_mem (p : Port) (v : Fin 65) : (s.signal p v).mem = s.mem := by
  unfold State.signal; dsimp only; split; · rfl
  split; · rfl
  split <;> rfl

@[simp] theorem signal_pair (p : Port) (v : Fin 65) : (s.signal p v).pair = s.pair := by
  unfold State.signal; dsimp only; split; · rfl
  split; · rfl
  split <;> rfl

/-! ### signalQueue -/

@[simp] theorem signalQueue_pending (p : Port) (q : QueueNo) : (s.signalQueue p q).pending = s.pending := by
  simp [State.signalQueue, State.onQueue]

@[simp] theorem signalQueue_sys (p : Port) (q : QueueNo) : (s.signalQueue p q).sys = s.sys := by
  simp [State.signalQueue, State.onQueue]

@[simp] theorem signalQueue_ev (p : Port) (q : QueueNo) : (s.signalQueue p q).ev = s.ev := by
  simp [State.signalQueue, State.onQueue]

@[simp] theorem signalQueue_bridle (p : Port) (q : QueueNo) : (s.signalQueue p q).bridle = s.bridle := by
  simp [State.signalQueue, State.onQueue]

@[simp] theorem signalQueue_bridleTie (p : Port) (q : QueueNo) : (s.signalQueue p q).bridleTie = s.bridleTie := by
  simp [State.signalQueue, State.onQueue]

@[simp] theorem signalQueue_cmds (p : Port) (q : QueueNo) : (s.signalQueue p q).cmds = s.cmds := by
  simp [State.signalQueue, State.onQueue]

@[simp] theorem signalQueue_vols (p : Port) (q : QueueNo) : (s.signalQueue p q).vols = s.vols := by
  simp [State.signalQueue, State.onQueue]

@[simp] theorem signalQueue_params (p : Port) (q : QueueNo) : (s.signalQueue p q).params = s.params := by
  simp [State.signalQueue, State.onQueue]

@[simp] theorem signalQueue_flash (p : Port) (q : QueueNo) : (s.signalQueue p q).flash = s.flash := by
  simp [State.signalQueue, State.onQueue]

@[simp] theorem signalQueue_bays (p : Port) (q : QueueNo) : (s.signalQueue p q).bays = s.bays := by
  simp [State.signalQueue, State.onQueue]

@[simp] theorem signalQueue_pool (p : Port) (q : QueueNo) : (s.signalQueue p q).pool = s.pool := by
  simp [State.signalQueue, State.onQueue]

@[simp] theorem signalQueue_hnd (p : Port) (q : QueueNo) : (s.signalQueue p q).hnd = s.hnd := by
  simp [State.signalQueue, State.onQueue]

@[simp] theorem signalQueue_stg (p : Port) (q : QueueNo) : (s.signalQueue p q).stg = s.stg := by
  simp [State.signalQueue, State.onQueue]

@[simp] theorem signalQueue_mem (p : Port) (q : QueueNo) : (s.signalQueue p q).mem = s.mem := by
  simp [State.signalQueue, State.onQueue]

@[simp] theorem signalQueue_pair (p : Port) (q : QueueNo) : (s.signalQueue p q).pair = s.pair := by
  simp [State.signalQueue, State.onQueue]

/-! ### writeRecord -/

@[simp] theorem writeRecord_pending (p : Port) (c : Completion) : (s.writeRecord p c).pending = s.pending := by
  unfold State.writeRecord; dsimp only; split; · rfl
  split <;> simp

@[simp] theorem writeRecord_sys (p : Port) (c : Completion) : (s.writeRecord p c).sys = s.sys := by
  unfold State.writeRecord; dsimp only; split; · rfl
  split <;> simp

@[simp] theorem writeRecord_ev (p : Port) (c : Completion) : (s.writeRecord p c).ev = s.ev := by
  unfold State.writeRecord; dsimp only; split; · rfl
  split <;> simp

@[simp] theorem writeRecord_bridle (p : Port) (c : Completion) : (s.writeRecord p c).bridle = s.bridle := by
  unfold State.writeRecord; dsimp only; split; · rfl
  split <;> simp

@[simp] theorem writeRecord_bridleTie (p : Port) (c : Completion) : (s.writeRecord p c).bridleTie = s.bridleTie := by
  unfold State.writeRecord; dsimp only; split; · rfl
  split <;> simp

@[simp] theorem writeRecord_cmds (p : Port) (c : Completion) : (s.writeRecord p c).cmds = s.cmds := by
  unfold State.writeRecord; dsimp only; split; · rfl
  split <;> simp

@[simp] theorem writeRecord_vols (p : Port) (c : Completion) : (s.writeRecord p c).vols = s.vols := by
  unfold State.writeRecord; dsimp only; split; · rfl
  split <;> simp

@[simp] theorem writeRecord_params (p : Port) (c : Completion) : (s.writeRecord p c).params = s.params := by
  unfold State.writeRecord; dsimp only; split; · rfl
  split <;> simp

@[simp] theorem writeRecord_flash (p : Port) (c : Completion) : (s.writeRecord p c).flash = s.flash := by
  unfold State.writeRecord; dsimp only; split; · rfl
  split <;> simp

@[simp] theorem writeRecord_bays (p : Port) (c : Completion) : (s.writeRecord p c).bays = s.bays := by
  unfold State.writeRecord; dsimp only; split; · rfl
  split <;> simp

@[simp] theorem writeRecord_pool (p : Port) (c : Completion) : (s.writeRecord p c).pool = s.pool := by
  unfold State.writeRecord; dsimp only; split; · rfl
  split <;> simp

@[simp] theorem writeRecord_hnd (p : Port) (c : Completion) : (s.writeRecord p c).hnd = s.hnd := by
  unfold State.writeRecord; dsimp only; split; · rfl
  split <;> simp

@[simp] theorem writeRecord_stg (p : Port) (c : Completion) : (s.writeRecord p c).stg = s.stg := by
  unfold State.writeRecord; dsimp only; split; · rfl
  split <;> simp

@[simp] theorem writeRecord_mem (p : Port) (c : Completion) : (s.writeRecord p c).mem = s.mem := by
  unfold State.writeRecord; dsimp only; split; · rfl
  split <;> simp

@[simp] theorem writeRecord_pair (p : Port) (c : Completion) : (s.writeRecord p c).pair = s.pair := by
  unfold State.writeRecord; dsimp only; split; · rfl
  split <;> simp

/-! ### post -/

@[simp] theorem post_pending (p : Port) (c : Completion) : (s.post p c).pending = s.pending := by
  unfold State.post; split <;> simp

@[simp] theorem post_sys (p : Port) (c : Completion) : (s.post p c).sys = s.sys := by
  unfold State.post; split <;> simp

@[simp] theorem post_ev (p : Port) (c : Completion) : (s.post p c).ev = s.ev := by
  unfold State.post; split <;> simp

@[simp] theorem post_bridle (p : Port) (c : Completion) : (s.post p c).bridle = s.bridle := by
  unfold State.post; split <;> simp

@[simp] theorem post_bridleTie (p : Port) (c : Completion) : (s.post p c).bridleTie = s.bridleTie := by
  unfold State.post; split <;> simp

@[simp] theorem post_cmds (p : Port) (c : Completion) : (s.post p c).cmds = s.cmds := by
  unfold State.post; split <;> simp

@[simp] theorem post_vols (p : Port) (c : Completion) : (s.post p c).vols = s.vols := by
  unfold State.post; split <;> simp

@[simp] theorem post_params (p : Port) (c : Completion) : (s.post p c).params = s.params := by
  unfold State.post; split <;> simp

@[simp] theorem post_flash (p : Port) (c : Completion) : (s.post p c).flash = s.flash := by
  unfold State.post; split <;> simp

@[simp] theorem post_bays (p : Port) (c : Completion) : (s.post p c).bays = s.bays := by
  unfold State.post; split <;> simp

@[simp] theorem post_pool (p : Port) (c : Completion) : (s.post p c).pool = s.pool := by
  unfold State.post; split <;> simp

@[simp] theorem post_hnd (p : Port) (c : Completion) : (s.post p c).hnd = s.hnd := by
  unfold State.post; split <;> simp

@[simp] theorem post_stg (p : Port) (c : Completion) : (s.post p c).stg = s.stg := by
  unfold State.post; split <;> simp

@[simp] theorem post_mem (p : Port) (c : Completion) : (s.post p c).mem = s.mem := by
  unfold State.post; split <;> simp

@[simp] theorem post_pair (p : Port) (c : Completion) : (s.post p c).pair = s.pair := by
  unfold State.post; split <;> simp

/-! ### pump and send -/

@[simp] theorem pump_pending (n : Nat) (s : State) : (State.pump n s).pending = s.pending := by
  induction n generalizing s with
  | zero => rfl
  | succ n ih =>
    unfold State.pump
    split
    · rfl
    · split
      · rfl
      · rw [ih]; rfl

@[simp] theorem pump_sys (n : Nat) (s : State) : (State.pump n s).sys = s.sys := by
  induction n generalizing s with
  | zero => rfl
  | succ n ih =>
    unfold State.pump
    split
    · rfl
    · split
      · rfl
      · rw [ih]; rfl

@[simp] theorem pump_ev (n : Nat) (s : State) : (State.pump n s).ev = s.ev := by
  induction n generalizing s with
  | zero => rfl
  | succ n ih =>
    unfold State.pump
    split
    · rfl
    · split
      · rfl
      · rw [ih]; rfl

@[simp] theorem pump_ports (n : Nat) (s : State) : (State.pump n s).ports = s.ports := by
  induction n generalizing s with
  | zero => rfl
  | succ n ih =>
    unfold State.pump
    split
    · rfl
    · split
      · rfl
      · rw [ih]; rfl

@[simp] theorem pump_bridle (n : Nat) (s : State) : (State.pump n s).bridle = s.bridle := by
  induction n generalizing s with
  | zero => rfl
  | succ n ih =>
    unfold State.pump
    split
    · rfl
    · split
      · rfl
      · rw [ih]; rfl

@[simp] theorem pump_bridleTie (n : Nat) (s : State) : (State.pump n s).bridleTie = s.bridleTie := by
  induction n generalizing s with
  | zero => rfl
  | succ n ih =>
    unfold State.pump
    split
    · rfl
    · split
      · rfl
      · rw [ih]; rfl

@[simp] theorem pump_cmds (n : Nat) (s : State) : (State.pump n s).cmds = s.cmds := by
  induction n generalizing s with
  | zero => rfl
  | succ n ih =>
    unfold State.pump
    split
    · rfl
    · split
      · rfl
      · rw [ih]; rfl

@[simp] theorem pump_vols (n : Nat) (s : State) : (State.pump n s).vols = s.vols := by
  induction n generalizing s with
  | zero => rfl
  | succ n ih =>
    unfold State.pump
    split
    · rfl
    · split
      · rfl
      · rw [ih]; rfl

@[simp] theorem pump_params (n : Nat) (s : State) : (State.pump n s).params = s.params := by
  induction n generalizing s with
  | zero => rfl
  | succ n ih =>
    unfold State.pump
    split
    · rfl
    · split
      · rfl
      · rw [ih]; rfl

@[simp] theorem pump_flash (n : Nat) (s : State) : (State.pump n s).flash = s.flash := by
  induction n generalizing s with
  | zero => rfl
  | succ n ih =>
    unfold State.pump
    split
    · rfl
    · split
      · rfl
      · rw [ih]; rfl

@[simp] theorem pump_bays (n : Nat) (s : State) : (State.pump n s).bays = s.bays := by
  induction n generalizing s with
  | zero => rfl
  | succ n ih =>
    unfold State.pump
    split
    · rfl
    · split
      · rfl
      · rw [ih]; rfl

@[simp] theorem pump_pool (n : Nat) (s : State) : (State.pump n s).pool = s.pool := by
  induction n generalizing s with
  | zero => rfl
  | succ n ih =>
    unfold State.pump
    split
    · rfl
    · split
      · rfl
      · rw [ih]; rfl

@[simp] theorem pump_hnd (n : Nat) (s : State) : (State.pump n s).hnd = s.hnd := by
  induction n generalizing s with
  | zero => rfl
  | succ n ih =>
    unfold State.pump
    split
    · rfl
    · split
      · rfl
      · rw [ih]; rfl

@[simp] theorem pump_stg (n : Nat) (s : State) : (State.pump n s).stg = s.stg := by
  induction n generalizing s with
  | zero => rfl
  | succ n ih =>
    unfold State.pump
    split
    · rfl
    · split
      · rfl
      · rw [ih]; rfl

@[simp] theorem pump_mem (n : Nat) (s : State) : (State.pump n s).mem = s.mem := by
  induction n generalizing s with
  | zero => rfl
  | succ n ih =>
    unfold State.pump
    split
    · rfl
    · split
      · rfl
      · rw [ih]; rfl

/-! ### Messages -/

@[simp] theorem pumpAll_pending : s.pumpAll.pending = s.pending := by
  unfold State.pumpAll; split <;> simp

@[simp] theorem pumpAll_sys : s.pumpAll.sys = s.sys := by
  unfold State.pumpAll; split <;> simp

@[simp] theorem pumpAll_ev : s.pumpAll.ev = s.ev := by
  unfold State.pumpAll; split <;> simp

@[simp] theorem pumpAll_ports : s.pumpAll.ports = s.ports := by
  unfold State.pumpAll; split <;> simp

@[simp] theorem pumpAll_bridle : s.pumpAll.bridle = s.bridle := by
  unfold State.pumpAll; split <;> simp

@[simp] theorem pumpAll_bridleTie : s.pumpAll.bridleTie = s.bridleTie := by
  unfold State.pumpAll; split <;> simp

@[simp] theorem pumpAll_cmds : s.pumpAll.cmds = s.cmds := by
  unfold State.pumpAll; split <;> simp

@[simp] theorem pumpAll_vols : s.pumpAll.vols = s.vols := by
  unfold State.pumpAll; split <;> simp

@[simp] theorem pumpAll_params : s.pumpAll.params = s.params := by
  unfold State.pumpAll; split <;> simp

@[simp] theorem pumpAll_flash : s.pumpAll.flash = s.flash := by
  unfold State.pumpAll; split <;> simp

@[simp] theorem pumpAll_bays : s.pumpAll.bays = s.bays := by
  unfold State.pumpAll; split <;> simp

@[simp] theorem pumpAll_pool : s.pumpAll.pool = s.pool := by
  unfold State.pumpAll; split <;> simp

@[simp] theorem pumpAll_hnd : s.pumpAll.hnd = s.hnd := by
  unfold State.pumpAll; split <;> simp

@[simp] theorem pumpAll_stg : s.pumpAll.stg = s.stg := by
  unfold State.pumpAll; split <;> simp

@[simp] theorem pumpAll_mem : s.pumpAll.mem = s.mem := by
  unfold State.pumpAll; split <;> simp

@[simp] theorem sendAbout_pending (k : Byte) (v : VolId) (u d : Nat) (body : List Byte) (n : Nat) :
    (s.sendAbout k v u d body n).pending = s.pending := by
  unfold State.sendAbout; simp

@[simp] theorem sendAbout_sys (k : Byte) (v : VolId) (u d : Nat) (body : List Byte) (n : Nat) :
    (s.sendAbout k v u d body n).sys = s.sys := by
  unfold State.sendAbout; simp

@[simp] theorem sendAbout_ev (k : Byte) (v : VolId) (u d : Nat) (body : List Byte) (n : Nat) :
    (s.sendAbout k v u d body n).ev = s.ev := by
  unfold State.sendAbout; simp

@[simp] theorem sendAbout_ports (k : Byte) (v : VolId) (u d : Nat) (body : List Byte) (n : Nat) :
    (s.sendAbout k v u d body n).ports = s.ports := by
  unfold State.sendAbout; simp

@[simp] theorem sendAbout_bridle (k : Byte) (v : VolId) (u d : Nat) (body : List Byte) (n : Nat) :
    (s.sendAbout k v u d body n).bridle = s.bridle := by
  unfold State.sendAbout; simp

@[simp] theorem sendAbout_bridleTie (k : Byte) (v : VolId) (u d : Nat) (body : List Byte) (n : Nat) :
    (s.sendAbout k v u d body n).bridleTie = s.bridleTie := by
  unfold State.sendAbout; simp

@[simp] theorem sendAbout_cmds (k : Byte) (v : VolId) (u d : Nat) (body : List Byte) (n : Nat) :
    (s.sendAbout k v u d body n).cmds = s.cmds := by
  unfold State.sendAbout; simp

@[simp] theorem sendAbout_vols (k : Byte) (v : VolId) (u d : Nat) (body : List Byte) (n : Nat) :
    (s.sendAbout k v u d body n).vols = s.vols := by
  unfold State.sendAbout; simp

@[simp] theorem sendAbout_params (k : Byte) (v : VolId) (u d : Nat) (body : List Byte) (n : Nat) :
    (s.sendAbout k v u d body n).params = s.params := by
  unfold State.sendAbout; simp

@[simp] theorem sendAbout_flash (k : Byte) (v : VolId) (u d : Nat) (body : List Byte) (n : Nat) :
    (s.sendAbout k v u d body n).flash = s.flash := by
  unfold State.sendAbout; simp

@[simp] theorem sendAbout_bays (k : Byte) (v : VolId) (u d : Nat) (body : List Byte) (n : Nat) :
    (s.sendAbout k v u d body n).bays = s.bays := by
  unfold State.sendAbout; simp

@[simp] theorem sendAbout_pool (k : Byte) (v : VolId) (u d : Nat) (body : List Byte) (n : Nat) :
    (s.sendAbout k v u d body n).pool = s.pool := by
  unfold State.sendAbout; simp

@[simp] theorem sendAbout_hnd (k : Byte) (v : VolId) (u d : Nat) (body : List Byte) (n : Nat) :
    (s.sendAbout k v u d body n).hnd = s.hnd := by
  unfold State.sendAbout; simp

@[simp] theorem sendAbout_stg (k : Byte) (v : VolId) (u d : Nat) (body : List Byte) (n : Nat) :
    (s.sendAbout k v u d body n).stg = s.stg := by
  unfold State.sendAbout; simp

@[simp] theorem sendAbout_mem (k : Byte) (v : VolId) (u d : Nat) (body : List Byte) (n : Nat) :
    (s.sendAbout k v u d body n).mem = s.mem := by
  unfold State.sendAbout; simp

@[simp] theorem send_pending (k : Byte) (p : List Nat) : (s.send k p).pending = s.pending := by
  unfold State.send; simp

@[simp] theorem send_sys (k : Byte) (p : List Nat) : (s.send k p).sys = s.sys := by
  unfold State.send; simp

@[simp] theorem send_ev (k : Byte) (p : List Nat) : (s.send k p).ev = s.ev := by
  unfold State.send; simp

@[simp] theorem send_ports (k : Byte) (p : List Nat) : (s.send k p).ports = s.ports := by
  unfold State.send; simp

@[simp] theorem send_bridle (k : Byte) (p : List Nat) : (s.send k p).bridle = s.bridle := by
  unfold State.send; simp

@[simp] theorem send_bridleTie (k : Byte) (p : List Nat) : (s.send k p).bridleTie = s.bridleTie := by
  unfold State.send; simp

@[simp] theorem send_cmds (k : Byte) (p : List Nat) : (s.send k p).cmds = s.cmds := by
  unfold State.send; simp

@[simp] theorem send_vols (k : Byte) (p : List Nat) : (s.send k p).vols = s.vols := by
  unfold State.send; simp

@[simp] theorem send_params (k : Byte) (p : List Nat) : (s.send k p).params = s.params := by
  unfold State.send; simp

@[simp] theorem send_flash (k : Byte) (p : List Nat) : (s.send k p).flash = s.flash := by
  unfold State.send; simp

@[simp] theorem send_bays (k : Byte) (p : List Nat) : (s.send k p).bays = s.bays := by
  unfold State.send; simp

@[simp] theorem send_pool (k : Byte) (p : List Nat) : (s.send k p).pool = s.pool := by
  unfold State.send; simp

@[simp] theorem send_hnd (k : Byte) (p : List Nat) : (s.send k p).hnd = s.hnd := by
  unfold State.send; simp

@[simp] theorem send_stg (k : Byte) (p : List Nat) : (s.send k p).stg = s.stg := by
  unfold State.send; simp

@[simp] theorem send_mem (k : Byte) (p : List Nat) : (s.send k p).mem = s.mem := by
  unfold State.send; simp

@[simp] theorem sendFirst_pending (k : Byte) (p : List Byte) : (s.sendFirst k p).pending = s.pending := by
  unfold State.sendFirst; simp

@[simp] theorem sendFirst_sys (k : Byte) (p : List Byte) : (s.sendFirst k p).sys = s.sys := by
  unfold State.sendFirst; simp

@[simp] theorem sendFirst_ev (k : Byte) (p : List Byte) : (s.sendFirst k p).ev = s.ev := by
  unfold State.sendFirst; simp

@[simp] theorem sendFirst_ports (k : Byte) (p : List Byte) : (s.sendFirst k p).ports = s.ports := by
  unfold State.sendFirst; simp

@[simp] theorem sendFirst_bridle (k : Byte) (p : List Byte) : (s.sendFirst k p).bridle = s.bridle := by
  unfold State.sendFirst; simp

@[simp] theorem sendFirst_bridleTie (k : Byte) (p : List Byte) : (s.sendFirst k p).bridleTie = s.bridleTie := by
  unfold State.sendFirst; simp

@[simp] theorem sendFirst_cmds (k : Byte) (p : List Byte) : (s.sendFirst k p).cmds = s.cmds := by
  unfold State.sendFirst; simp

@[simp] theorem sendFirst_vols (k : Byte) (p : List Byte) : (s.sendFirst k p).vols = s.vols := by
  unfold State.sendFirst; simp

@[simp] theorem sendFirst_params (k : Byte) (p : List Byte) : (s.sendFirst k p).params = s.params := by
  unfold State.sendFirst; simp

@[simp] theorem sendFirst_flash (k : Byte) (p : List Byte) : (s.sendFirst k p).flash = s.flash := by
  unfold State.sendFirst; simp

@[simp] theorem sendFirst_bays (k : Byte) (p : List Byte) : (s.sendFirst k p).bays = s.bays := by
  unfold State.sendFirst; simp

@[simp] theorem sendFirst_pool (k : Byte) (p : List Byte) : (s.sendFirst k p).pool = s.pool := by
  unfold State.sendFirst; simp

@[simp] theorem sendFirst_hnd (k : Byte) (p : List Byte) : (s.sendFirst k p).hnd = s.hnd := by
  unfold State.sendFirst; simp

@[simp] theorem sendFirst_stg (k : Byte) (p : List Byte) : (s.sendFirst k p).stg = s.stg := by
  unfold State.sendFirst; simp

@[simp] theorem sendFirst_mem (k : Byte) (p : List Byte) : (s.sendFirst k p).mem = s.mem := by
  unfold State.sendFirst; simp

/-! ### giveData -/

@[simp] theorem giveData_pending (c : CmdId) (xs : List (Nat × SectorData)) : (s.giveData c xs).pending = s.pending := by
  unfold State.giveData; split; · rfl
  split <;> simp

@[simp] theorem giveData_sys (c : CmdId) (xs : List (Nat × SectorData)) : (s.giveData c xs).sys = s.sys := by
  unfold State.giveData; split; · rfl
  split <;> simp

@[simp] theorem giveData_ev (c : CmdId) (xs : List (Nat × SectorData)) : (s.giveData c xs).ev = s.ev := by
  unfold State.giveData; split; · rfl
  split <;> simp

@[simp] theorem giveData_ports (c : CmdId) (xs : List (Nat × SectorData)) : (s.giveData c xs).ports = s.ports := by
  unfold State.giveData; split; · rfl
  split <;> simp

@[simp] theorem giveData_bridle (c : CmdId) (xs : List (Nat × SectorData)) : (s.giveData c xs).bridle = s.bridle := by
  unfold State.giveData; split; · rfl
  split <;> simp

@[simp] theorem giveData_bridleTie (c : CmdId) (xs : List (Nat × SectorData)) : (s.giveData c xs).bridleTie = s.bridleTie := by
  unfold State.giveData; split; · rfl
  split <;> simp

@[simp] theorem giveData_cmds (c : CmdId) (xs : List (Nat × SectorData)) : (s.giveData c xs).cmds = s.cmds := by
  unfold State.giveData; split; · rfl
  split <;> simp

@[simp] theorem giveData_vols (c : CmdId) (xs : List (Nat × SectorData)) : (s.giveData c xs).vols = s.vols := by
  unfold State.giveData; split; · rfl
  split <;> simp

@[simp] theorem giveData_params (c : CmdId) (xs : List (Nat × SectorData)) : (s.giveData c xs).params = s.params := by
  unfold State.giveData; split; · rfl
  split <;> simp

@[simp] theorem giveData_flash (c : CmdId) (xs : List (Nat × SectorData)) : (s.giveData c xs).flash = s.flash := by
  unfold State.giveData; split; · rfl
  split <;> simp

@[simp] theorem giveData_bays (c : CmdId) (xs : List (Nat × SectorData)) : (s.giveData c xs).bays = s.bays := by
  unfold State.giveData; split; · rfl
  split <;> simp

@[simp] theorem giveData_pool (c : CmdId) (xs : List (Nat × SectorData)) : (s.giveData c xs).pool = s.pool := by
  unfold State.giveData; split; · rfl
  split <;> simp

@[simp] theorem giveData_hnd (c : CmdId) (xs : List (Nat × SectorData)) : (s.giveData c xs).hnd = s.hnd := by
  unfold State.giveData; split; · rfl
  split <;> simp

@[simp] theorem giveData_stg (c : CmdId) (xs : List (Nat × SectorData)) : (s.giveData c xs).stg = s.stg := by
  unfold State.giveData; split; · rfl
  split <;> simp

@[simp] theorem giveData_mem (c : CmdId) (xs : List (Nat × SectorData)) : (s.giveData c xs).mem = s.mem := by
  unfold State.giveData; split; · rfl
  split <;> simp

/-! ### tagWrite -/

@[simp] theorem tagWrite_pending (c : Cmd) : (s.tagWrite c).pending = s.pending := by
  rfl

@[simp] theorem tagWrite_sys (c : Cmd) : (s.tagWrite c).sys = s.sys := by
  rfl

@[simp] theorem tagWrite_ev (c : Cmd) : (s.tagWrite c).ev = s.ev := by
  rfl

@[simp] theorem tagWrite_ports (c : Cmd) : (s.tagWrite c).ports = s.ports := by
  rfl

@[simp] theorem tagWrite_bridle (c : Cmd) : (s.tagWrite c).bridle = s.bridle := by
  rfl

@[simp] theorem tagWrite_bridleTie (c : Cmd) : (s.tagWrite c).bridleTie = s.bridleTie := by
  rfl

@[simp] theorem tagWrite_cmds (c : Cmd) : (s.tagWrite c).cmds = s.cmds := by
  rfl

@[simp] theorem tagWrite_vols (c : Cmd) : (s.tagWrite c).vols = s.vols := by
  rfl

@[simp] theorem tagWrite_params (c : Cmd) : (s.tagWrite c).params = s.params := by
  rfl

@[simp] theorem tagWrite_flash (c : Cmd) : (s.tagWrite c).flash = s.flash := by
  rfl

@[simp] theorem tagWrite_bays (c : Cmd) : (s.tagWrite c).bays = s.bays := by
  rfl

@[simp] theorem tagWrite_pool (c : Cmd) : (s.tagWrite c).pool = s.pool := by
  rfl

@[simp] theorem tagWrite_hnd (c : Cmd) : (s.tagWrite c).hnd = s.hnd := by
  rfl

@[simp] theorem tagWrite_mem (c : Cmd) : (s.tagWrite c).mem = s.mem := by
  rfl

@[simp] theorem tagWrite_pair (c : Cmd) : (s.tagWrite c).pair = s.pair := by
  rfl

@[simp] theorem tagWrite_out (c : Cmd) : (s.tagWrite c).out = s.out := by
  rfl

/-! ### complete -/

@[simp] theorem complete_pending (id : CmdId) (st : Byte) (r : BitVec 64) : (s.complete id st r).pending = s.pending := by
  unfold State.complete
  split
  · rfl
  · split
    · rfl
    · dsimp only
      split
      · split <;> simp
      · split
        · split <;> simp
        · split <;> simp

@[simp] theorem complete_sys (id : CmdId) (st : Byte) (r : BitVec 64) : (s.complete id st r).sys = s.sys := by
  unfold State.complete
  split
  · rfl
  · split
    · rfl
    · dsimp only
      split
      · split <;> simp
      · split
        · split <;> simp
        · split <;> simp

@[simp] theorem complete_ev (id : CmdId) (st : Byte) (r : BitVec 64) : (s.complete id st r).ev = s.ev := by
  unfold State.complete
  split
  · rfl
  · split
    · rfl
    · dsimp only
      split
      · split <;> simp
      · split
        · split <;> simp
        · split <;> simp

@[simp] theorem complete_bridle (id : CmdId) (st : Byte) (r : BitVec 64) : (s.complete id st r).bridle = s.bridle := by
  unfold State.complete
  split
  · rfl
  · split
    · rfl
    · dsimp only
      split
      · split <;> simp
      · split
        · split <;> simp
        · split <;> simp

@[simp] theorem complete_bridleTie (id : CmdId) (st : Byte) (r : BitVec 64) : (s.complete id st r).bridleTie = s.bridleTie := by
  unfold State.complete
  split
  · rfl
  · split
    · rfl
    · dsimp only
      split
      · split <;> simp
      · split
        · split <;> simp
        · split <;> simp

@[simp] theorem complete_vols (id : CmdId) (st : Byte) (r : BitVec 64) : (s.complete id st r).vols = s.vols := by
  unfold State.complete
  split
  · rfl
  · split
    · rfl
    · dsimp only
      split
      · split <;> simp
      · split
        · split <;> simp
        · split <;> simp

@[simp] theorem complete_params (id : CmdId) (st : Byte) (r : BitVec 64) : (s.complete id st r).params = s.params := by
  unfold State.complete
  split
  · rfl
  · split
    · rfl
    · dsimp only
      split
      · split <;> simp
      · split
        · split <;> simp
        · split <;> simp

@[simp] theorem complete_flash (id : CmdId) (st : Byte) (r : BitVec 64) : (s.complete id st r).flash = s.flash := by
  unfold State.complete
  split
  · rfl
  · split
    · rfl
    · dsimp only
      split
      · split <;> simp
      · split
        · split <;> simp
        · split <;> simp

@[simp] theorem complete_bays (id : CmdId) (st : Byte) (r : BitVec 64) : (s.complete id st r).bays = s.bays := by
  unfold State.complete
  split
  · rfl
  · split
    · rfl
    · dsimp only
      split
      · split <;> simp
      · split
        · split <;> simp
        · split <;> simp

@[simp] theorem complete_pool (id : CmdId) (st : Byte) (r : BitVec 64) : (s.complete id st r).pool = s.pool := by
  unfold State.complete
  split
  · rfl
  · split
    · rfl
    · dsimp only
      split
      · split <;> simp
      · split
        · split <;> simp
        · split <;> simp

@[simp] theorem complete_hnd (id : CmdId) (st : Byte) (r : BitVec 64) : (s.complete id st r).hnd = s.hnd := by
  unfold State.complete
  split
  · rfl
  · split
    · rfl
    · dsimp only
      split
      · split <;> simp
      · split
        · split <;> simp
        · split <;> simp

@[simp] theorem complete_mem (id : CmdId) (st : Byte) (r : BitVec 64) : (s.complete id st r).mem = s.mem := by
  unfold State.complete
  split
  · rfl
  · split
    · rfl
    · dsimp only
      split
      · split <;> simp
      · split
        · split <;> simp
        · split <;> simp

/-- The end of a command takes the oldest with its identity off the outstanding list. -/
theorem complete_cmds (id : CmdId) (st : Byte) (r : BitVec 64) (hm : s.sys.mode ≠ .ripcord) (h : (s.cmd? id).isSome) :
    (s.complete id st r).cmds = s.cmds.eraseP (fun x => decide (x.id = id)) := by
  unfold State.complete
  rw [if_neg hm]
  split
  · rename_i h0; simp [h0] at h
  · dsimp only
    split
    · split <;> simp
    · split
      · split <;> simp
      · split <;> simp

/-- The rings, register words and flags of a port that signalling and posting leave alone. -/
theorem signal_port (p q : Port) (v : Fin 65) : ∃ a b,
    (s.signal p v).ports[q.val] = { s.ports[q.val] with heldVectors := a, pending := b } := by
  by_cases h : q = p
  · subst h
    unfold State.signal
    dsimp only
    split
    · exact ⟨_, _, by rw [onPort_same]⟩
    · split
      · exact ⟨_, _, rfl⟩
      · split
        · exact ⟨_, _, by rw [onPort_same]⟩
        · exact ⟨_, _, rfl⟩
  · unfold State.signal
    dsimp only
    split
    · exact ⟨_, _, by rw [onPort_other s h]⟩
    · split
      · exact ⟨_, _, rfl⟩
      · split
        · exact ⟨_, _, by rw [onPort_other s h]⟩
        · exact ⟨_, _, rfl⟩

/-! ### Mailbox responses -/

/-- A response stands in the response words with DONE set and BUSY clear, and no request in progress (R457). -/
theorem postResponse_mbx (p : Port) (rsp : BitVec 512) :
    (s.postResponse p rsp).ports[p.val].mbx
      = { s.ports[p.val].mbx with rsp := rsp, done := true, busy := false, held := false, run := none } := by
  unfold State.postResponse
  obtain ⟨a, b, h⟩ := signal_port (s.onMbx p (fun m => { m with rsp := rsp, done := true, busy := false, held := false, run := none })) p p 0
  rw [h, onMbx_same]

/-! ### postResponse -/

@[simp] theorem postResponse_pending (p : Port) (rsp : BitVec 512) : (s.postResponse p rsp).pending = s.pending := by
  simp [State.postResponse]

@[simp] theorem postResponse_sys (p : Port) (rsp : BitVec 512) : (s.postResponse p rsp).sys = s.sys := by
  simp [State.postResponse]

@[simp] theorem postResponse_ev (p : Port) (rsp : BitVec 512) : (s.postResponse p rsp).ev = s.ev := by
  simp [State.postResponse]

@[simp] theorem postResponse_bridle (p : Port) (rsp : BitVec 512) : (s.postResponse p rsp).bridle = s.bridle := by
  simp [State.postResponse]

@[simp] theorem postResponse_bridleTie (p : Port) (rsp : BitVec 512) : (s.postResponse p rsp).bridleTie = s.bridleTie := by
  simp [State.postResponse]

@[simp] theorem postResponse_cmds (p : Port) (rsp : BitVec 512) : (s.postResponse p rsp).cmds = s.cmds := by
  simp [State.postResponse]

@[simp] theorem postResponse_vols (p : Port) (rsp : BitVec 512) : (s.postResponse p rsp).vols = s.vols := by
  simp [State.postResponse]

@[simp] theorem postResponse_params (p : Port) (rsp : BitVec 512) : (s.postResponse p rsp).params = s.params := by
  simp [State.postResponse]

@[simp] theorem postResponse_flash (p : Port) (rsp : BitVec 512) : (s.postResponse p rsp).flash = s.flash := by
  simp [State.postResponse]

@[simp] theorem postResponse_bays (p : Port) (rsp : BitVec 512) : (s.postResponse p rsp).bays = s.bays := by
  simp [State.postResponse]

@[simp] theorem postResponse_pool (p : Port) (rsp : BitVec 512) : (s.postResponse p rsp).pool = s.pool := by
  simp [State.postResponse]

@[simp] theorem postResponse_hnd (p : Port) (rsp : BitVec 512) : (s.postResponse p rsp).hnd = s.hnd := by
  simp [State.postResponse]

@[simp] theorem postResponse_stg (p : Port) (rsp : BitVec 512) : (s.postResponse p rsp).stg = s.stg := by
  simp [State.postResponse]

@[simp] theorem postResponse_mem (p : Port) (rsp : BitVec 512) : (s.postResponse p rsp).mem = s.mem := by
  simp [State.postResponse]

@[simp] theorem postResponse_pair (p : Port) (rsp : BitVec 512) : (s.postResponse p rsp).pair = s.pair := by
  simp [State.postResponse]

/-! ### respond -/

@[simp] theorem respond_pending (p : Port) (st : Byte) (rs bs : List Byte) : (s.respond p st rs bs).pending = s.pending := by
  unfold State.respond; dsimp only; split <;> simp

@[simp] theorem respond_sys (p : Port) (st : Byte) (rs bs : List Byte) : (s.respond p st rs bs).sys = s.sys := by
  unfold State.respond; dsimp only; split <;> simp

@[simp] theorem respond_ev (p : Port) (st : Byte) (rs bs : List Byte) : (s.respond p st rs bs).ev = s.ev := by
  unfold State.respond; dsimp only; split <;> simp

@[simp] theorem respond_bridle (p : Port) (st : Byte) (rs bs : List Byte) : (s.respond p st rs bs).bridle = s.bridle := by
  unfold State.respond; dsimp only; split <;> simp

@[simp] theorem respond_bridleTie (p : Port) (st : Byte) (rs bs : List Byte) : (s.respond p st rs bs).bridleTie = s.bridleTie := by
  unfold State.respond; dsimp only; split <;> simp

@[simp] theorem respond_cmds (p : Port) (st : Byte) (rs bs : List Byte) : (s.respond p st rs bs).cmds = s.cmds := by
  unfold State.respond; dsimp only; split <;> simp

@[simp] theorem respond_vols (p : Port) (st : Byte) (rs bs : List Byte) : (s.respond p st rs bs).vols = s.vols := by
  unfold State.respond; dsimp only; split <;> simp

@[simp] theorem respond_params (p : Port) (st : Byte) (rs bs : List Byte) : (s.respond p st rs bs).params = s.params := by
  unfold State.respond; dsimp only; split <;> simp

@[simp] theorem respond_flash (p : Port) (st : Byte) (rs bs : List Byte) : (s.respond p st rs bs).flash = s.flash := by
  unfold State.respond; dsimp only; split <;> simp

@[simp] theorem respond_bays (p : Port) (st : Byte) (rs bs : List Byte) : (s.respond p st rs bs).bays = s.bays := by
  unfold State.respond; dsimp only; split <;> simp

@[simp] theorem respond_pool (p : Port) (st : Byte) (rs bs : List Byte) : (s.respond p st rs bs).pool = s.pool := by
  unfold State.respond; dsimp only; split <;> simp

@[simp] theorem respond_hnd (p : Port) (st : Byte) (rs bs : List Byte) : (s.respond p st rs bs).hnd = s.hnd := by
  unfold State.respond; dsimp only; split <;> simp

@[simp] theorem respond_stg (p : Port) (st : Byte) (rs bs : List Byte) : (s.respond p st rs bs).stg = s.stg := by
  unfold State.respond; dsimp only; split <;> simp

@[simp] theorem respond_mem (p : Port) (st : Byte) (rs bs : List Byte) : (s.respond p st rs bs).mem = s.mem := by
  unfold State.respond; dsimp only; split <;> simp

@[simp] theorem respond_pair (p : Port) (st : Byte) (rs bs : List Byte) : (s.respond p st rs bs).pair = s.pair := by
  unfold State.respond; dsimp only; split <;> simp

/-! ### respondRun -/

@[simp] theorem respondRun_pending (p : Port) (st : Byte) (rs : List Byte) : (s.respondRun p st rs).pending = s.pending := by
  unfold State.respondRun; split; · rfl
  split <;> simp

@[simp] theorem respondRun_sys (p : Port) (st : Byte) (rs : List Byte) : (s.respondRun p st rs).sys = s.sys := by
  unfold State.respondRun; split; · rfl
  split <;> simp

@[simp] theorem respondRun_ev (p : Port) (st : Byte) (rs : List Byte) : (s.respondRun p st rs).ev = s.ev := by
  unfold State.respondRun; split; · rfl
  split <;> simp

@[simp] theorem respondRun_bridle (p : Port) (st : Byte) (rs : List Byte) : (s.respondRun p st rs).bridle = s.bridle := by
  unfold State.respondRun; split; · rfl
  split <;> simp

@[simp] theorem respondRun_bridleTie (p : Port) (st : Byte) (rs : List Byte) : (s.respondRun p st rs).bridleTie = s.bridleTie := by
  unfold State.respondRun; split; · rfl
  split <;> simp

@[simp] theorem respondRun_cmds (p : Port) (st : Byte) (rs : List Byte) : (s.respondRun p st rs).cmds = s.cmds := by
  unfold State.respondRun; split; · rfl
  split <;> simp

@[simp] theorem respondRun_vols (p : Port) (st : Byte) (rs : List Byte) : (s.respondRun p st rs).vols = s.vols := by
  unfold State.respondRun; split; · rfl
  split <;> simp

@[simp] theorem respondRun_params (p : Port) (st : Byte) (rs : List Byte) : (s.respondRun p st rs).params = s.params := by
  unfold State.respondRun; split; · rfl
  split <;> simp

@[simp] theorem respondRun_flash (p : Port) (st : Byte) (rs : List Byte) : (s.respondRun p st rs).flash = s.flash := by
  unfold State.respondRun; split; · rfl
  split <;> simp

@[simp] theorem respondRun_bays (p : Port) (st : Byte) (rs : List Byte) : (s.respondRun p st rs).bays = s.bays := by
  unfold State.respondRun; split; · rfl
  split <;> simp

@[simp] theorem respondRun_pool (p : Port) (st : Byte) (rs : List Byte) : (s.respondRun p st rs).pool = s.pool := by
  unfold State.respondRun; split; · rfl
  split <;> simp

@[simp] theorem respondRun_hnd (p : Port) (st : Byte) (rs : List Byte) : (s.respondRun p st rs).hnd = s.hnd := by
  unfold State.respondRun; split; · rfl
  split <;> simp

@[simp] theorem respondRun_stg (p : Port) (st : Byte) (rs : List Byte) : (s.respondRun p st rs).stg = s.stg := by
  unfold State.respondRun; split; · rfl
  split <;> simp

@[simp] theorem respondRun_mem (p : Port) (st : Byte) (rs : List Byte) : (s.respondRun p st rs).mem = s.mem := by
  unfold State.respondRun; split; · rfl
  split <;> simp

@[simp] theorem respondRun_pair (p : Port) (st : Byte) (rs : List Byte) : (s.respondRun p st rs).pair = s.pair := by
  unfold State.respondRun; split; · rfl
  split <;> simp

/-! ### Blocks of bytes (R7) -/

theorem ofLeBytes_div (bs : List Byte) (i : Nat) : ofLeBytes bs / 256 ^ i % 256 = (bs.getD i 0).toNat := by
  induction bs generalizing i with
  | nil => simp [ofLeBytes]
  | cons b rest ih =>
    cases i with
    | zero => simp [ofLeBytes]; omega
    | succ i =>
      have h := b.isLt
      have : (b.toNat + 256 * ofLeBytes rest) / 256 = ofLeBytes rest := by omega
      simp only [ofLeBytes, Nat.pow_succ', ← Nat.div_div_eq_div_mul, this]
      simpa using ih i

/-- Byte `i` of a block is byte `i` of the list it was made of. -/
theorem byteAt_block512 (bs : List Byte) (i : Nat) (h : i < 64) : byteAt (block512 bs) i = bs.getD i 0 := by
  unfold byteAt block512 field
  apply BitVec.eq_of_toNat_eq
  have e : (2 : Nat) ^ 512 = 256 ^ i * (256 * 256 ^ (63 - i)) := by
    rw [← Nat.pow_succ', ← Nat.pow_add]
    have : i + (63 - i + 1) = 64 := by omega
    rw [this, show (256 : Nat) = 2 ^ 8 from rfl, ← Nat.pow_mul]
  have e2 : (2 : Nat) ^ (8 * i) = 256 ^ i := by rw [Nat.pow_mul]
  simp only [BitVec.toNat_ofNat, e, e2]
  rw [Nat.mod_mul_right_div_self, show (2 : Nat) ^ 8 = 256 from rfl, Nat.mod_mul_right_mod, Nat.mod_mod, ofLeBytes_div]

theorem length_leBytes (n v : Nat) : (leBytes n v).length = n := by
  induction n generalizing v with
  | zero => rfl
  | succ n ih => simp [leBytes, ih]

/-- Payload byte 0 of a response is its status (R305). -/
@[simp] theorem byteAt_responseBlock (opcode target tag len : Nat) (status : Byte) (results : List Byte) :
    byteAt (responseBlock opcode target tag len status results) 8 = status := by
  unfold responseBlock
  rw [byteAt_block512 _ _ (by decide)]
  simp [List.getD, length_leBytes, List.getElem?_append]

/-- The words of a response block stand in the response of the mailbox, and its status is answered. -/
theorem respond_mbx (p : Port) (st : Byte) (rs bs : List Byte) :
    (s.respond p st rs bs).ports[p.val].mbx.done = true ∧ (s.respond p st rs bs).ports[p.val].mbx.busy = false
      ∧ (s.respond p st rs bs).ports[p.val].mbx.run = none
      ∧ byteAt (s.respond p st rs bs).ports[p.val].mbx.rsp 8 = st := by
  unfold State.respond
  dsimp only
  split <;> simp [postResponse_mbx]

end Sys2Proof.Laws
end

