-- ==== Sys2Proof/Laws/Media.lean ====
section
/-! SUPPORT. What is recorded of a cluster gives back on reading: the metadata and CRC of a codeword (R52), the codeword itself (R51), the bits of its bytes (R50). -/

namespace Sys2Proof.Laws

open Sys2Proof.Machine

set_option Elab.async false

/-- A field of a sum of shifted parts that lies within the low part. -/
theorem extract_low {n k : Nat} (a c off w : Nat) (ha : a < 2 ^ k) (h : off + w ≤ k) (hn : off + w ≤ n) :
    (BitVec.ofNat n (a + 2 ^ k * c)).extractLsb' off w = BitVec.ofNat w (a >>> off) := by
  apply BitVec.eq_of_getLsbD_eq
  intro i hi
  rw [BitVec.getLsbD_extractLsb', BitVec.getLsbD_ofNat, BitVec.getLsbD_ofNat, Nat.add_comm a, Nat.testBit_two_pow_mul_add _ ha,
    Nat.testBit_shiftRight]
  simp [hi, show off + i < n by omega, show off + i < k by omega]

/-- A field of a sum of shifted parts that lies within the high part. -/
theorem extract_high {n k : Nat} (a c off w : Nat) (ha : a < 2 ^ k) (h : k ≤ off) (hn : off + w ≤ n) :
    (BitVec.ofNat n (a + 2 ^ k * c)).extractLsb' off w = BitVec.ofNat w (c >>> (off - k)) := by
  apply BitVec.eq_of_getLsbD_eq
  intro i hi
  rw [BitVec.getLsbD_extractLsb', BitVec.getLsbD_ofNat, BitVec.getLsbD_ofNat, Nat.add_comm a, Nat.testBit_two_pow_mul_add _ ha,
    Nat.testBit_shiftRight]
  simp [hi, show off + i < n by omega, show ¬ off + i < k by omega, show off + i - k = off - k + i by omega]

/-- One bit of the CRC-32 keeps its width. -/
theorem crc32Bit_lt {c : Nat} (h : c < 2 ^ 32) : crc32Bit c < 2 ^ 32 := by
  unfold crc32Bit
  split
  · exact Nat.xor_lt_two_pow (by omega) (by decide)
  · omega

/-- One byte of the CRC-32 keeps its width. -/
theorem crc32Byte_lt {c : Nat} (b : Byte) (h : c < 2 ^ 32) : crc32Byte c b < 2 ^ 32 := by
  have hx : c ^^^ b.toNat < 2 ^ 32 := Nat.xor_lt_two_pow h (lt_trans b.isLt (by decide))
  exact crc32Bit_lt (crc32Bit_lt (crc32Bit_lt (crc32Bit_lt (crc32Bit_lt (crc32Bit_lt (crc32Bit_lt (crc32Bit_lt hx)))))))

/-- The CRC-32 is 32 bits wide. -/
theorem crc32_lt (bs : List Byte) : crc32 bs < 2 ^ 32 := by
  have h : ∀ (xs : List Byte) (c : Nat), c < 2 ^ 32 → xs.foldl crc32Byte c < 2 ^ 32 := by
    intro xs
    induction xs with
    | nil => exact fun _ hc => hc
    | cons x xs ih => exact fun c hc => ih _ (crc32Byte_lt x hc)
  exact Nat.xor_lt_two_pow (h bs _ (by decide)) (by decide)

/-- The first bytes of a sum of shifted parts are those of its low part. -/
theorem wordBytes_low {n k : Nat} (m : Nat) (a : BitVec k) (c : Nat) (h : 8 * m ≤ k) (hn : k ≤ n) :
    wordBytes m (BitVec.ofNat n (a.toNat + 2 ^ k * c)) = wordBytes m a := by
  apply List.map_congr_left
  intro i hi
  have hi' : i < m := List.mem_range.mp hi
  rw [extract_low a.toNat c (8 * i) 8 a.isLt (by omega) (by omega)]
  apply BitVec.eq_of_toNat_eq
  simp [BitVec.extractLsb'_toNat]

/-- A codeword as it is made carries a CRC that holds (R52). -/
theorem makeCw_crcOk (half : BitVec 16384) (m : Metadata) : cwCrcOk (makeCw half m) = true := by
  unfold cwCrcOk makeCw cwCrc
  dsimp only
  rw [decide_eq_true_eq, wordBytes_low 2060 _ _ (by omega) (by omega), extract_high _ _ _ _ (BitVec.isLt _) (by omega) (by omega)]
  simp only [Nat.sub_self, BitVec.toNat_ofNat, Nat.reduceAdd]
  exact (Nat.mod_eq_of_lt (crc32_lt _)).symm

/-- The CRC-32 of a NAND codeword as it is programmed holds (R323). -/
theorem nandWord_good (d : SectorData) (dataSeq progSeq : Nat) (vid : VolId) (ucl : Nat) (mask : BitVec 16) (sector stream kind : Nat) :
    nandGood (nandWord d dataSeq progSeq vid ucl mask sector stream kind) = true := by
  unfold nandGood nandWord nandField
  dsimp only
  rw [decide_eq_true_eq, wordBytes_low 4124 _ _ (by omega) (by omega), extract_high _ _ _ _ (BitVec.isLt _) (by omega) (by omega)]
  simp only [Nat.sub_self, BitVec.toNat_ofNat, Nat.reduceAdd]
  exact (Nat.mod_eq_of_lt (crc32_lt _)).symm

/-- A NAND codeword as it is programmed counts as decoded (R323). -/
theorem nandDecoded_word (d : SectorData) (dataSeq progSeq : Nat) (vid : VolId) (ucl : Nat) (mask : BitVec 16) (sector stream kind : Nat) :
    nandDecoded (some (nandWord d dataSeq progSeq vid ucl mask sector stream kind))
      = some (nandWord d dataSeq progSeq vid ucl mask sector stream kind) := by
  unfold nandDecoded
  rw [Option.filter_some, if_pos (nandWord_good ..)]

/-- A sum of two shifted parts is as wide as both. -/
theorem pack_lt {a v p q : Nat} (ha : a < p) (hv : v < q) : a + p * v < p * q :=
  calc a + p * v < p * (v + 1) := by rw [Nat.mul_add, Nat.mul_one]; omega
    _ ≤ p * q := Nat.mul_le_mul_left _ hv

/-- One bit as a flag. -/
theorem flag_of_mod {n : Nat} {b : Bool} (h : n % 2 = b2n b) : (BitVec.ofNat 1 n == 1) = b := by
  have e : BitVec.ofNat 1 n = BitVec.ofNat 1 (b2n b) := BitVec.eq_of_toNat_eq (by rw [BitVec.toNat_ofNat, BitVec.toNat_ofNat]; omega)
  rw [e]; cases b <;> decide

/-- A field of the metadata that follows a codeword's data bytes. -/
theorem makeCw_field (half : BitVec 16384) (v c off w : Nat) (hv : v < 2 ^ 96) (h : off + w ≤ 96) :
    (BitVec.ofNat 16512 ((BitVec.ofNat 16480 (half.toNat + 2 ^ 16384 * v)).toNat + 2 ^ 16480 * c)).extractLsb' (16384 + off) w
      = BitVec.ofNat w (v >>> off) := by
  have e : 2 ^ 16480 = 2 ^ 16384 * 2 ^ 96 := by rw [← Nat.pow_add]
  have hb : half.toNat + 2 ^ 16384 * v < 2 ^ 16480 := by rw [e]; apply pack_lt _ hv; exact half.isLt
  rw [extract_low _ _ _ _ (BitVec.isLt _) (by omega) (by omega), BitVec.toNat_ofNat, Nat.mod_eq_of_lt hb]
  apply BitVec.eq_of_getLsbD_eq
  intro i hi
  rw [BitVec.getLsbD_ofNat, BitVec.getLsbD_ofNat, Nat.testBit_shiftRight, Nat.testBit_shiftRight, Nat.add_comm half.toNat,
    Nat.testBit_two_pow_mul_add _ half.isLt]
  simp [show ¬ 16384 + off + i < 16384 by omega, show 16384 + off + i - 16384 = off + i by omega]

/-- The metadata of a codeword as it is made read back as they were given (R52). -/
theorem makeCw_info (half : BitVec 16384) (m : Metadata) : cwInfo (makeCw half m) = m := by
  obtain ⟨index, home, vid, lba, management, replacement, unwritten, remap⟩ := m
  have h1 := index.isLt
  have h2 := home.isLt
  have h3 := vid.isLt
  have h4 := lba.isLt
  have h5 := remap.isLt
  have h6 : b2n unwritten ≤ 1 := by cases unwritten <;> decide
  have h7 : b2n replacement ≤ 1 := by cases replacement <;> decide
  have h8 : b2n management ≤ 1 := by cases management <;> decide
  unfold cwInfo makeCw
  dsimp only
  have hv : home.toNat + 2 ^ 26 * index.toNat + 2 ^ 32 * vid.toNat + 2 ^ 48 * lba.toNat
      + 2 ^ 80 * (b2n unwritten + 2 * b2n replacement + 4 * b2n management) + 2 ^ 88 * remap.toNat < 2 ^ 96 := by omega
  simp only [makeCw_field half _ _ _ _ hv (show 26 + 6 ≤ 96 by omega), makeCw_field half _ _ _ _ hv (show 0 + 26 ≤ 96 by omega),
    makeCw_field half _ _ _ _ hv (show 32 + 16 ≤ 96 by omega), makeCw_field half _ _ _ _ hv (show 48 + 32 ≤ 96 by omega),
    makeCw_field half _ _ _ _ hv (show 82 + 1 ≤ 96 by omega), makeCw_field half _ _ _ _ hv (show 81 + 1 ≤ 96 by omega),
    makeCw_field half _ _ _ _ hv (show 80 + 1 ≤ 96 by omega), makeCw_field half _ _ _ _ hv (show 88 + 8 ≤ 96 by omega)]
  congr 1
  · apply BitVec.eq_of_toNat_eq; rw [BitVec.toNat_ofNat, Nat.shiftRight_eq_div_pow]; omega
  · apply BitVec.eq_of_toNat_eq; rw [BitVec.toNat_ofNat, Nat.shiftRight_eq_div_pow]; omega
  · apply BitVec.eq_of_toNat_eq; rw [BitVec.toNat_ofNat, Nat.shiftRight_eq_div_pow]; omega
  · apply BitVec.eq_of_toNat_eq; rw [BitVec.toNat_ofNat, Nat.shiftRight_eq_div_pow]; omega
  · exact flag_of_mod (by rw [Nat.shiftRight_eq_div_pow]; omega)
  · exact flag_of_mod (by rw [Nat.shiftRight_eq_div_pow]; omega)
  · exact flag_of_mod (by rw [Nat.shiftRight_eq_div_pow]; omega)
  · apply BitVec.eq_of_toNat_eq; rw [BitVec.toNat_ofNat, Nat.shiftRight_eq_div_pow]; omega

/-! ### The code of a codeword (R50, R51) -/


/-- Bits of a word that others have been joined to. -/
theorem foldl_or_bit {n : Nat} (f : Nat → BitVec n) (i : Nat) : ∀ (l : List Nat) (c : BitVec n),
    (l.foldl (fun c r => c ||| f r) c).getLsbD i = (c.getLsbD i || l.any (fun r => (f r).getLsbD i))
  | [], c => by simp
  | r :: l, c => by
    rw [List.foldl_cons, foldl_or_bit f i l, BitVec.getLsbD_or, List.any_cons, Bool.or_assoc]

/-- A parity block in its place. -/
theorem placed_bit (v : BitVec 258) (r i : Nat) (hr : r < 8) : (v.setWidth 18576 <<< (16512 + 258 * r)).getLsbD i
    = (decide (16512 + 258 * r ≤ i) && v.getLsbD (i - (16512 + 258 * r))) := by
  rw [BitVec.getLsbD_shiftLeft, BitVec.getLsbD_setWidth]
  by_cases h : 16512 + 258 * r ≤ i
  · by_cases h2 : i < 16770 + 258 * r
    · simp [h, show i < 18576 by omega, show ¬ i < 16512 + 258 * r by omega, show i - (16512 + 258 * r) < 18576 by omega]
    · rw [BitVec.getLsbD_of_ge v _ (by omega)]; simp
  · simp [h, show i < 16512 + 258 * r by omega]

/-- Bits of an encoded word. -/
theorem ldpcEncode_bit (w : BitVec 16512) (i : Nat) (h : i < 18576) : (ldpcEncode w).getLsbD i = (w.getLsbD i
    || (List.range 8).any (fun r => decide (16512 + 258 * r ≤ i) && ((ldpcParity w).getD r 0).getLsbD (i - (16512 + 258 * r)))) := by
  unfold ldpcEncode
  rw [foldl_or_bit (fun r => ((ldpcParity w).getD r 0).setWidth 18576 <<< (16512 + 258 * r)), BitVec.getLsbD_setWidth]
  simp only [h, decide_true, Bool.true_and]
  congr 1
  rw [Bool.eq_iff_iff, List.any_eq_true, List.any_eq_true]
  constructor <;> (rintro ⟨r, hr, hb⟩; refine ⟨r, hr, ?_⟩; have := placed_bit ((ldpcParity w).getD r 0) r i (List.mem_range.mp hr); simp_all)

/-- The information blocks of an encoded word (R51). -/
theorem ldpcBlock_info (w : BitVec 16512) (col : Nat) (h : col < 64) : ldpcBlock (ldpcEncode w) col = ldpcBlock w col := by
  apply BitVec.eq_of_getLsbD_eq
  intro i hi
  unfold ldpcBlock
  rw [BitVec.getLsbD_extractLsb', BitVec.getLsbD_extractLsb', ldpcEncode_bit _ _ (by omega)]
  have : (List.range 8).any (fun r => decide (16512 + 258 * r ≤ 258 * col + i)
      && ((ldpcParity w).getD r 0).getLsbD (258 * col + i - (16512 + 258 * r))) = false := by
    rw [List.any_eq_false]
    intro r _
    simp [show ¬ 16512 + 258 * r ≤ 258 * col + i by omega]
  rw [this, Bool.or_false]

/-- The parity blocks of an encoded word (R51). -/
theorem ldpcBlock_parity (w : BitVec 16512) (k : Nat) (h : k < 8) : ldpcBlock (ldpcEncode w) (64 + k) = (ldpcParity w).getD k 0 := by
  apply BitVec.eq_of_getLsbD_eq
  intro i hi
  unfold ldpcBlock
  rw [BitVec.getLsbD_extractLsb', ldpcEncode_bit _ _ (by omega), BitVec.getLsbD_of_ge w _ (by omega)]
  have e : 258 * (64 + k) + i - (16512 + 258 * k) = i := by omega
  rw [Bool.eq_iff_iff]
  simp only [hi, decide_true, Bool.true_and, Bool.false_or, List.any_eq_true, List.mem_range, Bool.and_eq_true, decide_eq_true_eq]
  constructor
  · rintro ⟨r, hr, hle, hb⟩
    by_cases hk : r = k
    · subst hk; rwa [e] at hb
    · rw [BitVec.getLsbD_of_ge _ _ (by omega)] at hb; exact absurd hb (by decide)
  · intro hb
    exact ⟨k, h, by omega, by rwa [e]⟩

/-- The information bits of an encoded word are its first (R50). -/
theorem ldpcEncode_setWidth (w : BitVec 16512) : (ldpcEncode w).setWidth 16512 = w := by
  apply BitVec.eq_of_getLsbD_eq
  intro i hi
  rw [BitVec.getLsbD_setWidth, ldpcEncode_bit _ _ (by omega)]
  have : (List.range 8).any (fun r => decide (16512 + 258 * r ≤ i) && ((ldpcParity w).getD r 0).getLsbD (i - (16512 + 258 * r))) = false := by
    rw [List.any_eq_false]
    intro r _
    simp [show ¬ 16512 + 258 * r ≤ i by omega]
  rw [this, Bool.or_false, decide_eq_true hi, Bool.true_and]

/-- The row sums of an encoded word over its information blocks are those of its information. -/
theorem rowSyndrome_info (w : BitVec 16512) (r : Nat) : ldpcRowSyndrome (ldpcEncode w) r 64 = ldpcRowSyndrome w r 64 := by
  unfold ldpcRowSyndrome
  have : ∀ (l : List (Nat × Nat)), (∀ x ∈ l, x.1 < 64) → ∀ acc : BitVec 258,
      l.foldl (fun acc x => acc ^^^ (ldpcBlock (ldpcEncode w) x.1).rotateRight x.2) acc
        = l.foldl (fun acc x => acc ^^^ (ldpcBlock w x.1).rotateRight x.2) acc := by
    intro l
    induction l with
    | nil => intro _ acc; simp only [List.foldl_nil]
    | cons x l ih =>
      intro h acc
      rw [List.foldl_cons, List.foldl_cons, ldpcBlock_info w x.1 (h x List.mem_cons_self)]
      exact ih (fun y hy => h y (List.mem_cons_of_mem _ hy)) _
  apply this
  intro x hx
  exact of_decide_eq_true (List.mem_filter.mp hx).2

/-- The block columns of a row: those of the information, then its own parity's and the one before (R51). -/
theorem ldpcRow_parts : ∀ r < 8, (ldpcRow r).filter (fun x => decide (x.1 < 72))
    = (ldpcRow r).filter (fun x => decide (x.1 < 64)) ++ (if r = 0 then [(64, 0)] else [(63 + r, 0), (64 + r, 0)]) := by
  decide +kernel

/-- Every word the encoder gives is a codeword (R51). -/
theorem isCodeword_encode (w : BitVec 16512) : isCodeword (ldpcEncode w) = true := by
  unfold isCodeword ldpcSyndrome
  rw [List.all_eq_true]
  intro x hx
  obtain ⟨r, hr, rfl⟩ := List.mem_map.mp hx
  rw [List.mem_range] at hr
  have hp : ∀ k < 8, (ldpcParity w).getD k 0 = ldpcRowSyndrome w k 64 ^^^ (if k = 0 then 0 else (ldpcParity w).getD (k - 1) 0) := by
    intro k hk
    have e : List.range 8 = [0, 1, 2, 3, 4, 5, 6, 7] := rfl
    unfold ldpcParity
    rw [e]
    simp only [List.foldl_cons, List.foldl_nil, List.nil_append, List.cons_append]
    interval_cases k <;> simp
  have h := rowSyndrome_info w r
  unfold ldpcRowSyndrome at h ⊢
  rw [ldpcRow_parts r hr, List.foldl_append, h]
  have hr' := hp r hr
  rw [ldpcRowSyndrome] at hr'
  have z : ∀ v : BitVec 258, v.rotateRight 0 = v := fun v => by
    apply BitVec.eq_of_getLsbD_eq; intro i hi; simp [hi]
  by_cases h0 : r = 0
  · subst h0
    simp only [if_true, List.foldl_cons, List.foldl_nil, z]
    rw [show (64 : Nat) = 64 + 0 from rfl, ldpcBlock_parity w 0 (by decide), hr']
    simp
  · simp only [h0, if_false, List.foldl_cons, List.foldl_nil, z]
    rw [show 63 + r = 64 + (r - 1) by omega, ldpcBlock_parity w (r - 1) (by omega), ldpcBlock_parity w r hr, hr']
    simp [h0]
/-! ### The bits of each byte (R50) -/


/-- A byte repeated, by its bytes. -/
def repeated (b : Nat) : Nat → Nat
  | 0 => 0
  | k + 1 => 2 ^ (8 * k) * b + repeated b k

/-- A repeated byte is as wide as its bytes. -/
theorem repeated_lt {b : Nat} (hb : b < 256) : ∀ k, repeated b k < 2 ^ (8 * k)
  | 0 => by simp [repeated]
  | k + 1 => by
    have h := repeated_lt hb k
    have e : 2 ^ (8 * (k + 1)) = 2 ^ (8 * k) * 256 := by rw [Nat.mul_add, Nat.pow_add]
    have h2 : 2 ^ (8 * k) * (b + 1) ≤ 2 ^ (8 * k) * 256 := Nat.mul_le_mul_left _ hb
    rw [repeated, e]
    rw [Nat.mul_add, Nat.mul_one] at h2
    omega

/-- 255 times a repeated byte is the byte shifted past them all, less itself. -/
theorem repeated_mul (b : Nat) : ∀ k, 255 * repeated b k + b = b * 2 ^ (8 * k)
  | 0 => by simp [repeated]
  | k + 1 => by
    have h := repeated_mul b k
    have e : 2 ^ (8 * (k + 1)) = 256 * 2 ^ (8 * k) := by rw [Nat.mul_add, Nat.pow_add, Nat.mul_comm]
    rw [repeated, e, Nat.mul_left_comm b, ← h, Nat.mul_add, Nat.mul_comm (2 ^ (8 * k)) b, ← h]
    omega

/-- A repeated byte as a multiple of 0x01 repeated. -/
theorem repeated_one (b : Nat) (k : Nat) : b * ((2 ^ (8 * k) - 1) / 255) = repeated b k := by
  have h := repeated_mul 1 k
  have e : (2 ^ (8 * k) - 1) / 255 = repeated 1 k := by omega
  rw [e]
  clear h e
  induction k with
  | zero => simp [repeated]
  | succ k ih => rw [repeated, repeated, Nat.mul_add, ih, Nat.mul_one, Nat.mul_comm]

/-- Bits of a repeated byte. -/
theorem repeated_testBit {b : Nat} (hb : b < 256) : ∀ k i, i < 8 * k → (repeated b k).testBit i = b.testBit (i % 8)
  | 0, i, h => by omega
  | k + 1, i, h => by
    rw [repeated, Nat.testBit_two_pow_mul_add _ (repeated_lt hb k)]
    by_cases hk : i < 8 * k
    · rw [if_pos hk, repeated_testBit hb k i hk]
    · rw [if_neg hk, show i % 8 = i - 8 * k by omega]

/-- Bits of a byte repeated over a word of whole bytes. -/
theorem packMask_bit {b : Nat} (hb : b < 256) (k i : Nat) (h : i < 8 * k) : (packMask (8 * k) b).getLsbD i = b.testBit (i % 8) := by
  unfold packMask
  rw [BitVec.getLsbD_ofNat, repeated_one, repeated_testBit hb k i h, decide_eq_true h, Bool.true_and]

/-- Two fields of each byte change places, by a mask and a shift. -/
theorem swap_bit {k : Nat} (x : BitVec (8 * k)) (m s i : Nat) (hm : m < 256) (h : i < 8 * k) :
    (((x >>> s) &&& packMask (8 * k) m) ||| ((x &&& packMask (8 * k) m) <<< s)).getLsbD i
      = ((x.getLsbD (i + s) && m.testBit (i % 8)) || (decide (s ≤ i) && x.getLsbD (i - s) && m.testBit ((i - s) % 8))) := by
  rw [BitVec.getLsbD_or, BitVec.getLsbD_and, BitVec.getLsbD_ushiftRight, BitVec.getLsbD_shiftLeft, BitVec.getLsbD_and,
    packMask_bit hm k i h, Nat.add_comm s i]
  by_cases hs : s ≤ i
  · rw [packMask_bit hm k _ (by omega)]
    simp [h, hs, show ¬ i < s by omega]
  · simp [hs, show i < s by omega]

/-- Where a bit of a byte goes when two fields of each byte change places. -/
theorem swap_field {k : Nat} (x : BitVec (8 * k)) (m s q j j' : Nat) (hm : m < 256) (hq : q < k) (hj : j < 8) (hs : s < 8)
    (h : (m.testBit j = true ∧ m.testBit ((j + 8 - s) % 8) = false ∧ j' = j + s)
      ∨ (m.testBit j = false ∧ s ≤ j ∧ m.testBit (j - s) = true ∧ j' = j - s)) :
    (((x >>> s) &&& packMask (8 * k) m) ||| ((x &&& packMask (8 * k) m) <<< s)).getLsbD (8 * q + j) = x.getLsbD (8 * q + j') := by
  rw [swap_bit x m s _ hm (by omega), show (8 * q + j) % 8 = j by omega]
  obtain ⟨h1, h2, rfl⟩ | ⟨h1, h2, h3, rfl⟩ := h
  · have e : s ≤ 8 * q + j → (8 * q + j - s) % 8 = (j + 8 - s) % 8 := by omega
    by_cases hle : s ≤ 8 * q + j
    · simp [h1, h2, e hle, Nat.add_assoc]
    · simp [h1, hle, Nat.add_assoc]
  · rw [show (8 * q + j - s) % 8 = j - s by omega, show 8 * q + j - s = 8 * q + (j - s) by omega, h1, h3]
    simp [show s ≤ 8 * q + j by omega]

/-- The bits of each byte in the opposite order (R50). -/
theorem reverseBytes_bit {k : Nat} (x : BitVec (8 * k)) (q j : Nat) (hq : q < k) (hj : j < 8) :
    (reverseBytes x).getLsbD (8 * q + j) = x.getLsbD (8 * q + (7 - j)) := by
  unfold reverseBytes
  dsimp only
  have h4 := fun j j' hj h => swap_field x 0x0F 4 q j j' (by decide) hq hj (by decide) h
  have h2 := fun j j' hj h => swap_field (((x >>> 4) &&& packMask (8 * k) 0x0F) ||| ((x &&& packMask (8 * k) 0x0F) <<< 4))
    0x33 2 q j j' (by decide) hq hj (by decide) h
  have h1 := fun (y : BitVec (8 * k)) j j' hj h => swap_field y 0x55 1 q j j' (by decide) hq hj (by decide) h
  interval_cases j
  · rw [h1 _ 0 1 (by decide) (by decide), h2 1 3 (by decide) (by decide), h4 3 7 (by decide) (by decide)]
  · rw [h1 _ 1 0 (by decide) (by decide), h2 0 2 (by decide) (by decide), h4 2 6 (by decide) (by decide)]
  · rw [h1 _ 2 3 (by decide) (by decide), h2 3 1 (by decide) (by decide), h4 1 5 (by decide) (by decide)]
  · rw [h1 _ 3 2 (by decide) (by decide), h2 2 0 (by decide) (by decide), h4 0 4 (by decide) (by decide)]
  · rw [h1 _ 4 5 (by decide) (by decide), h2 5 7 (by decide) (by decide), h4 7 3 (by decide) (by decide)]
  · rw [h1 _ 5 4 (by decide) (by decide), h2 4 6 (by decide) (by decide), h4 6 2 (by decide) (by decide)]
  · rw [h1 _ 6 7 (by decide) (by decide), h2 7 5 (by decide) (by decide), h4 5 1 (by decide) (by decide)]
  · rw [h1 _ 7 6 (by decide) (by decide), h2 6 4 (by decide) (by decide), h4 4 0 (by decide) (by decide)]

/-- Turning the bits of each byte twice changes nothing. -/
theorem reverseBytes_twice {k : Nat} (x : BitVec (8 * k)) : reverseBytes (reverseBytes x) = x := by
  apply BitVec.eq_of_getLsbD_eq
  intro i hi
  obtain ⟨q, j, hj, rfl⟩ : ∃ q j, j < 8 ∧ i = 8 * q + j := ⟨i / 8, i % 8, by omega, by omega⟩
  have h := reverseBytes_bit (reverseBytes x) q j (by omega) hj
  rw [h, reverseBytes_bit x q (7 - j) (by omega) (by omega), show 7 - (7 - j) = j by omega]

/-- The bytes of a codeword come back from what is recorded of it (R50). -/
theorem cwOfBits_cwEncode (d : CwData) : cwOfBits (cwEncode d) = d := by
  unfold cwOfBits cwEncode
  rw [ldpcEncode_setWidth]
  have h := reverseBytes_twice (k := 2064) d.bytes
  exact congrArg CwData.mk h

/-- What the encoder gives of a codeword's bytes is a codeword (R51). -/
theorem isCodeword_cwEncode (d : CwData) : isCodeword (cwEncode d) = true := isCodeword_encode _

end Sys2Proof.Laws
end

