-- ==== Sys2Proof/Laws/Memory.lean ====
section
/-! SUPPORT. Bytes of DRAM: what a write reads back as, what it leaves alone, and that every operation keeps the canonical form. -/

namespace Sys2Proof.Laws

set_option Elab.async false

open Sys2Proof Sys2Proof.Machine

/-! ### Lists by key -/

theorem lookupKey_insertKey {α : Type} (l : List (Nat × α)) (i j : Nat) (x : α) :
    lookupKey (insertKey l i x) j = if j = i then some x else lookupKey l j := by
  induction l with
  | nil => simp only [insertKey, lookupKey, eq_comm]
  | cons c rest ih =>
    obtain ⟨k, v⟩ := c
    simp only [insertKey]
    split
    · simp only [lookupKey, eq_comm]
    · split
      · subst_vars; simp only [lookupKey, eq_comm]; split <;> rfl
      · simp only [lookupKey, ih]; split
        · subst_vars; rw [if_neg]; intro h; subst h; contradiction
        · rfl

theorem lookupKey_eraseKey {α : Type} (l : List (Nat × α)) (i j : Nat) :
    lookupKey (eraseKey l i) j = if j = i then none else lookupKey l j := by
  induction l with
  | nil => simp only [eraseKey, lookupKey, ite_self]
  | cons c rest ih =>
    obtain ⟨k, v⟩ := c
    simp only [eraseKey]
    by_cases h : k = i
    · subst h; simp only [if_true, ih, lookupKey]
      by_cases h : j = k
      · simp only [h, if_true]
      · simp only [h, if_false, Ne.symm h]
    · simp only [h, if_false, lookupKey, ih]
      by_cases h2 : k = j
      · subst h2; simp only [if_true, h, if_false]
      · simp only [h2, if_false]

/-! ### Reading back -/

theorem memByte_memPut (m : List Host.Cell) (a x : Nat) (v : Byte) :
    memByte (memPut m a v) x = if x = a then v else memByte m x := by
  unfold memByte memPut
  by_cases h : v = 0
  · simp only [h, if_true, lookupKey_eraseKey]; split <;> rfl
  · simp only [h, if_false, lookupKey_insertKey]; split <;> rfl

/-- A write of bytes leaves every other byte alone. -/
theorem memByte_memWrite_of_outside (bs : List Byte) (m : List Host.Cell) (a x : Nat) (h : x < a ∨ a + bs.length ≤ x) :
    memByte (memWrite m a bs) x = memByte m x := by
  induction bs generalizing m a with
  | nil => rfl
  | cons b rest ih =>
    simp only [List.length_cons] at h
    rw [memWrite, ih _ _ (by omega), memByte_memPut, if_neg (by omega)]

/-- A byte written reads back. -/
theorem memByte_memWrite (bs : List Byte) (m : List Host.Cell) (a k : Nat) (h : k < bs.length) :
    memByte (memWrite m a bs) (a + k) = bs[k] := by
  induction bs generalizing m a k with
  | nil => exact absurd h (Nat.not_lt_zero _)
  | cons b rest ih =>
    rw [memWrite]
    match k with
    | 0 => rw [memByte_memWrite_of_outside _ _ _ _ (by omega), memByte_memPut, if_pos (by omega)]; rfl
    | k + 1 =>
      have := ih (memPut m a b) (a + 1) k (by simpa using h)
      rw [show a + (k + 1) = a + 1 + k by omega, this]; rfl

/-- What is written is read back, little-endian (R7). -/
theorem memRead_memWrite (m : List Host.Cell) (a : Nat) (bs : List Byte) :
    memRead (memWrite m a bs) a bs.length = ofLeBytes bs := by
  unfold memRead
  congr 1
  apply List.ext_getElem
  · simp only [List.length_map, List.length_range]
  · intro k h1 h2
    simp only [List.getElem_map, List.getElem_range]
    exact memByte_memWrite bs m a k h2

/-! ### The canonical form -/

theorem cellsWf_tail {c : Host.Cell} {m : List Host.Cell} (h : cellsWf (c :: m) = true) : cellsWf m = true := by
  match m with
  | [] => rfl
  | d :: rest => simp only [cellsWf, Bool.and_eq_true] at h; exact h.2

theorem cellsWf_head {c : Host.Cell} {m : List Host.Cell} (h : cellsWf (c :: m) = true) : c.2 ≠ 0 := by
  match m with
  | [] => exact of_decide_eq_true h
  | d :: rest => simp only [cellsWf, Bool.and_eq_true] at h; exact (of_decide_eq_true h.1).1

/-- Every address after the first is above it. -/
theorem cellsWf_lt {c : Host.Cell} {m : List Host.Cell} (h : cellsWf (c :: m) = true) : ∀ d ∈ m, c.1 < d.1 := by
  induction m generalizing c with
  | nil => intro d hd; exact absurd hd List.not_mem_nil
  | cons e rest ih =>
    simp only [cellsWf, Bool.and_eq_true] at h
    have hc := (of_decide_eq_true h.1).2
    intro d hd
    rcases List.mem_cons.1 hd with rfl | hd
    · exact hc
    · exact Nat.lt_trans hc (ih h.2 d hd)

theorem cellsWf_cons {c : Host.Cell} {m : List Host.Cell} (hm : cellsWf m = true) (hc : c.2 ≠ 0)
    (hl : ∀ d ∈ m, c.1 < d.1) : cellsWf (c :: m) = true := by
  match m with
  | [] => exact decide_eq_true hc
  | d :: rest =>
    simp only [cellsWf, Bool.and_eq_true]
    exact ⟨decide_eq_true ⟨hc, hl d List.mem_cons_self⟩, hm⟩

/-- Leaving out cells keeps the form. -/
theorem cellsWf_sublist {m n : List Host.Cell} (h : n.Sublist m) (hm : cellsWf m = true) : cellsWf n = true := by
  induction h with
  | slnil => exact hm
  | cons _ _ ih => exact ih (cellsWf_tail hm)
  | cons_cons c h ih =>
    exact cellsWf_cons (ih (cellsWf_tail hm)) (cellsWf_head hm) (fun d hd => cellsWf_lt hm d (h.subset hd))

theorem eraseKey_sublist {α : Type} (l : List (Nat × α)) (i : Nat) : (eraseKey l i).Sublist l := by
  induction l with
  | nil => exact List.Sublist.slnil
  | cons c rest ih =>
    obtain ⟨k, v⟩ := c
    simp only [eraseKey]
    split
    · exact ih.cons _
    · exact ih.cons_cons _

theorem mem_insertKey {α : Type} {l : List (Nat × α)} {i : Nat} {x : α} {d : Nat × α} (h : d ∈ insertKey l i x) :
    d = (i, x) ∨ d ∈ l := by
  induction l with
  | nil => exact Or.inl (List.mem_singleton.1 h)
  | cons c rest ih =>
    obtain ⟨k, v⟩ := c
    simp only [insertKey] at h
    split at h
    · exact (List.mem_cons.1 h)
    · split at h
      · exact (List.mem_cons.1 h).imp_right (List.mem_cons_of_mem _)
      · rcases List.mem_cons.1 h with h | h
        · exact Or.inr (h ▸ List.mem_cons_self)
        · exact (ih h).imp_right (List.mem_cons_of_mem _)

theorem cellsWf_insertKey (m : List Host.Cell) (a : Nat) (v : Byte) (hv : v ≠ 0) (h : cellsWf m = true) :
    cellsWf (insertKey m a v) = true := by
  induction m with
  | nil => exact decide_eq_true hv
  | cons c rest ih =>
    obtain ⟨k, w⟩ := c
    have ht := cellsWf_tail h
    have hl := cellsWf_lt h
    simp only [insertKey]
    split
    · refine cellsWf_cons h hv (fun d hd => ?_)
      rcases List.mem_cons.1 hd with rfl | hd
      · assumption
      · exact Nat.lt_trans (by assumption) (hl d hd)
    · split
      · subst_vars; exact cellsWf_cons ht hv hl
      · refine cellsWf_cons (ih ht) (cellsWf_head h) (fun d hd => ?_)
        rcases mem_insertKey hd with rfl | hd
        · show k < a; omega
        · exact hl d hd

/-- A write of one byte keeps the form. -/
theorem cellsWf_memPut (m : List Host.Cell) (a : Nat) (v : Byte) (h : cellsWf m = true) : cellsWf (memPut m a v) = true := by
  unfold memPut
  split
  · exact cellsWf_sublist (eraseKey_sublist m a) h
  · exact cellsWf_insertKey m a v (by assumption) h

/-- A write of bytes keeps the form. -/
theorem cellsWf_memWrite (bs : List Byte) (m : List Host.Cell) (a : Nat) (h : cellsWf m = true) :
    cellsWf (memWrite m a bs) = true := by
  induction bs generalizing m a with
  | nil => exact h
  | cons b rest ih => exact ih _ _ (cellsWf_memPut m a b h)

/-- A write of a line keeps the form. -/
theorem Memory.wf_putLine (m : Memory) (l : BitVec 34) (d : BitVec 512) (h : m.wf = true) : (m.putLine l d).wf = true :=
  cellsWf_memWrite _ _ _ h

/-- Cleaning a line keeps the form. -/
theorem Memory.wf_cleanLine (m : Memory) (l : BitVec 34) (h : m.wf = true) : (m.cleanLine l).wf = true := by
  unfold Memory.cleanLine
  split
  · exact h
  · dsimp only
    split
    · split
      · exact Memory.wf_putLine m l _ h
      · exact h
    · exact h

/-- Dropping a line keeps the form. -/
theorem Memory.wf_dropLine (m : Memory) (l : BitVec 34) (h : m.wf = true) : (m.dropLine l).wf = true := h

/-- Maintenance of a line keeps the form. -/
theorem Memory.wf_maintLineOp (m : Memory) (code : Nat) (l : BitVec 34) (h : m.wf = true) :
    (m.maintLineOp code l).wf = true := by
  unfold Memory.maintLineOp
  split
  · exact h
  · exact Memory.wf_cleanLine m l h
  · exact Memory.wf_cleanLine m l h

/-- Cleaning the cache keeps the form. -/
theorem Memory.wf_cleanAll (m : Memory) (h : m.wf = true) : m.cleanAll.wf = true := by
  unfold Memory.cleanAll
  generalize m.cache.lines = ls
  induction ls generalizing m with
  | nil => exact h
  | cons kv rest ih =>
    rw [List.foldl_cons]
    apply ih
    split
    · exact Memory.wf_putLine m _ _ h
    · exact h

/-- Leaving out the bytes of a range keeps the form. -/
theorem cellsWf_filter (m : List Host.Cell) (p : Host.Cell → Bool) (h : cellsWf m = true) : cellsWf (m.filter p) = true :=
  cellsWf_sublist List.filter_sublist h

/-- Memory at reset is in its canonical form. -/
theorem Memory.wf_reset : Memory.reset.wf = true := rfl

end Sys2Proof.Laws
end

