-- ==== Sys2Proof/Laws/Serve.lean ====
section
/-! SUPPORT. A mailbox request that is accepted is served by its command, and an answer shows its status. -/

namespace Sys2Proof.Laws

set_option Elab.async false

open Sys2Proof Sys2Proof.Machine Sys2Proof.Safety

/-- A request that is answered shows the response. -/
theorem answered_respond (s : State) (p : Port) (st : Byte) (rs bs : List Byte) : answered (s.respond p st rs bs) p st :=
  ⟨(respond_mbx s p st rs bs).1, (respond_mbx s p st rs bs).2.1, (respond_mbx s p st rs bs).2.2.2⟩

/-- An answer is seen through any change that leaves the ports alone. -/
theorem answered_of_ports {s t : State} (h : t.ports = s.ports) {p : Port} {st : Byte} : answered t p st ↔ answered s p st := by
  unfold answered
  rw [h]

/-- A request that is accepted is served by the body of its command. -/
theorem serve_of_accepts {s : State} {p : Port} {op : Nat} {want : BitVec 512 → Bool} {body : State → BitVec 512 → State}
    (h : accepts s p op = true) (hw : want s.ports[p.val].mbx.req = true) :
    s.serve p op want body
      = body (if mbxWhole op then s.onSys (fun y => { y with lastMbxPort := p }) else s) s.ports[p.val].mbx.req := by
  simp only [accepts, Fin.getElem_fin, Bool.and_eq_true, Bool.not_eq_true', decide_eq_true_eq] at h
  obtain ⟨⟨⟨⟨⟨h1, h2⟩, h3⟩, h4⟩, h5⟩, h6⟩ := h
  unfold State.serve
  have h3' : (s.ports[p.val].mbx.run).isSome = false := by cases hr : s.ports[p.val].mbx.run <;> simp_all
  simp only [Fin.getElem_fin, h1, h2, h3', h4, h5, h6, hw, Bool.not_true, Bool.or_self, ne_eq, not_true_eq_false, decide_false,
    Bool.false_eq_true, if_false]

end Sys2Proof.Laws
end

