-- ==== Sys2Proof/Laws/Verify.lean ====
section
/-! SUPPORT. A clean read of a written cluster, every soft value on its side of 0, passes the limits of Table 6.4 (R166). -/

namespace Sys2Proof.Laws

open Sys2Proof.Machine

set_option Elab.async false

/-- The soft value of a clean read. -/
def cleanSoft (x : Bool) : Int := if x then 31 else -31

/-- A clean read of recorded codewords, with the cluster address field that stands before them. -/
def cleanRead (field : List Byte) (cws : List CwData) : ClusterRead :=
  { locked := true, inserted := 0, field := field, fieldErased := [],
    soft := (codedBits cws).map (fun x => (cleanSoft x, false)), erasedRun := 0, receiver := false }

/-- Hard decisions, bit by bit. -/
theorem hardSum_testBit : ∀ (l : List Int) (i : Nat),
    (l.reverse.foldl (fun acc v => 2 * acc + (if 0 < v then 1 else 0)) 0).testBit i = decide (0 < l.getD i 0)
  | [], i => by simp
  | v :: l, i => by
    rw [List.reverse_cons, List.foldl_append, List.foldl_cons, List.foldl_nil]
    have h := hardSum_testBit l
    cases i with
    | zero =>
      rw [Nat.testBit_zero]
      by_cases hv : 0 < v <;> simp [hv]
    | succ i =>
      rw [Nat.testBit_succ, List.getD_cons_succ, ← h i]
      congr 1
      by_cases hv : 0 < v
      · simp only [hv, if_true]; omega
      · simp only [hv, if_false]; omega

/-- The hard decisions of a clean codeword are its bits (R108). -/
theorem hardBits_clean (c : BitVec 18576) : hardBits ((List.range cwBits).map (fun i => cleanSoft (c.getLsbD i))) = c := by
  apply BitVec.eq_of_getLsbD_eq
  intro i hi
  unfold hardBits
  rw [BitVec.getLsbD_ofNat, hardSum_testBit, decide_eq_true hi, Bool.true_and, List.getD_eq_getElem?_getD, List.getElem?_map,
    List.getElem?_range (show i < cwBits from hi)]
  simp only [Option.map_some, Option.getD_some, cleanSoft]
  have hb : ∀ x : Bool, decide ((0 : Int) < if x = true then 31 else -31) = x := by decide
  exact hb _

/-- A clean codeword converges before the first iteration, to itself (R122). -/
theorem ldpcDecode_clean (d : CwData) (limit : Nat) :
    ldpcDecode ((List.range cwBits).map (fun i => cleanSoft ((cwEncode d).getLsbD i))) limit
      = { converged := true, iters := 0, word := cwEncode d } := by
  unfold ldpcDecode
  rw [hardBits_clean, isCodeword_cwEncode, if_pos rfl]

/-- A piece of lists of one length joined. -/
theorem flatMap_piece {α β : Type} (f : α → List β) (n : Nat) (hf : ∀ a, (f a).length = n) : ∀ (l : List α) (i : Nat) (h : i < l.length),
    ((l.flatMap f).drop (i * n)).take n = f l[i]
  | a :: l, 0, _ => by
    rw [Nat.zero_mul, List.drop_zero, List.flatMap_cons, List.take_left' (hf a)]; rfl
  | a :: l, i + 1, h => by
    have e : (i + 1) * n = n + i * n := by rw [Nat.succ_mul, Nat.add_comm]
    rw [List.flatMap_cons, e, ← List.drop_drop, List.drop_left' (hf a)]
    exact flatMap_piece f n hf l i (by simpa using h)

/-- Codeword `i` of a clean read. -/
theorem readCodeword_clean (field : List Byte) (cws : List CwData) (i : Nat) (h : i < cws.length) :
    readCodeword (cleanRead field cws) i = ((List.range cwBits).map (fun k => cleanSoft ((cwEncode cws[i]).getLsbD k)), 0) := by
  have e : (((cleanRead field cws).soft).drop (i * cwBits)).take cwBits
      = (List.range cwBits).map (fun k => (cleanSoft ((cwEncode cws[i]).getLsbD k), false)) := by
    have hp := flatMap_piece (fun d => (List.range cwBits).map (fun k => (cwEncode d).getLsbD k)) cwBits
      (fun d => by rw [List.length_map, List.length_range]) cws i h
    unfold cleanRead codedBits
    dsimp only
    rw [← List.map_drop, ← List.map_take, hp, List.map_map]
    rfl
  unfold readCodeword
  rw [e]
  dsimp only
  rw [List.map_map]
  refine Prod.ext rfl ?_
  dsimp only
  rw [List.length_eq_zero_iff, List.filter_eq_nil_iff]
  intro x hx
  obtain ⟨k, _, rfl⟩ := List.mem_map.mp hx
  simp

/-- No codeword without erased bits is skipped (R123). -/
theorem skips_zero (s : State) : s.skips 0 = false := by
  unfold State.skips
  simp

/-- Every codeword of a clean read of 36 decodes to itself. -/
theorem decodes_clean (s : State) (field : List Byte) (cws : List CwData) (h : cws.length = 36) :
    s.decodes (cleanRead field cws) = cws.map (fun d => some { converged := true, iters := 0, word := cwEncode d }) := by
  unfold State.decodes
  apply List.ext_getElem
  · simp [h]
  · intro i h1 h2
    have hi : i < cws.length := by simpa using h2
    simp only [List.getElem_map, List.getElem_range, readCodeword_clean field cws i hi, skips_zero, Bool.false_eq_true, if_false,
      ldpcDecode_clean]

/-- A clean read has no raw bit errors. -/
theorem rawErrors_clean (bits : List Bool) : rawErrors (bits.map (fun x => (cleanSoft x, false))) bits = 0 := by
  unfold rawErrors
  rw [List.length_eq_zero_iff, List.filter_eq_nil_iff]
  intro x hx
  rw [List.zip_map_left] at hx
  obtain ⟨y, hy, rfl⟩ := List.mem_map.mp hx
  have : y.1 = y.2 := by
    clear hx
    induction bits with
    | nil => simp at hy
    | cons b bs ih =>
      rw [List.zip_cons_cons, List.mem_cons] at hy
      obtain rfl | hy := hy
      · rfl
      · exact ih hy
  obtain ⟨y1, y2⟩ := y
  cases this
  cases y1 <;> decide

/-- The metadata of a cluster as it is written pass every check of R128. -/
theorem metaMask_written (m : ClusterMeta) (half : BitVec 16384) (unwritten : Bool) (i : Nat) (h : i < 64) :
    metaMaskOf m i (cwInfo (makeCw half
      { index := BitVec.ofNat 6 i, home := m.home, vid := m.vid, lba := m.lba, management := m.management, replacement := m.replacement,
        unwritten := unwritten, remap := m.remap })) = 0 := by
  rw [makeCw_info]
  unfold metaMaskOf
  simp only [BitVec.toNat_ofNat, Nat.mod_eq_of_lt h, ne_eq, not_true, decide_false]
  decide

/-- A cluster of 16 sectors has 36 codewords. -/
theorem clusterCodewords_length (m : ClusterMeta) (halves : List (BitVec 16384 × Bool)) (h : halves.length = 32) :
    (clusterCodewords m halves).length = 36 := by
  have hp : ∀ (l : List (BitVec 16512)) (reg : List (BitVec 16512)), reg.length = 4 →
      (l.foldl (fun (reg : List (BitVec 16512)) w =>
        let top := w ^^^ reg.headD 0
        (List.range 4).map (fun i => reg.getD (i + 1) 0 ^^^ packedScale ((rsGenerator gf256 4).getD (3 - i) 0) top)) reg).length = 4 := by
    intro l
    induction l with
    | nil => exact fun _ h => h
    | cons x l ih => exact fun reg _ => ih _ (by rw [List.length_map, List.length_range])
  unfold clusterCodewords outerParity
  rw [List.length_append, List.length_mapIdx, h, List.length_map, hp _ _ (by rw [List.length_replicate])]

/-- The address information of a clean read, where its field decodes. -/
theorem readInfo_clean (field : List Byte) (a : ClusterAddr) (id : BitVec 64) (cws : List CwData)
    (ha : decodeAddrField [] field = some (addrInfo a id)) : readInfo (cleanRead field cws) = some (addrInfo a id) := by
  unfold readInfo cleanRead
  exact ha

/-- A clean read measures without a fault against Table 6.4, where the address field reads. -/
theorem measure_clean (s : State) (b : BayNo) (a : ClusterAddr) (m : ClusterMeta) (halves : List (BitVec 16384 × Bool))
    (h : halves.length = 32) (field : List Byte) (id : BitVec 64) (ha : decodeAddrField [] field = some (addrInfo a id))
    (hg : s.bays[b].infoAgrees a (addrInfo a id) = true) :
    s.measure b a m (clusterCodewords m halves) (cleanRead field (clusterCodewords m halves))
      = { locked := true, inserted := 0, addressOk := true, rawErrors := 0, converged := true, iters := 0, crcMeta := true, eraseRun := 0,
          eraseSum := 0, receiver := false } := by
  have hl := clusterCodewords_length m halves h
  have hfold : ∀ (l : List CwData) (n : Nat), ((l.map (fun _ => 0)).foldl max n) = n := by
    intro l
    induction l with
    | nil => exact fun _ => rfl
    | cons x l ih => intro n; rw [List.map_cons, List.foldl_cons, Nat.max_zero]; exact ih n
  unfold State.measure
  rw [decodes_clean s _ _ hl, readInfo_clean field a id _ ha]
  dsimp only
  rw [hg]
  simp only [cleanRead, rawErrors_clean, List.all_map, List.map_map, Function.comp_def, hfold]
  rw [VerifyRead.mk.injEq]
  refine ⟨rfl, rfl, rfl, rfl, List.all_eq_true.mpr (fun _ _ => rfl), rfl, ?_, rfl, ?_, rfl⟩
  · rw [List.all_eq_true]
    rintro ⟨x, i⟩ hx
    rw [List.mem_zipIdx_iff_getElem?] at hx
    dsimp only at hx ⊢
    have hi : i < 32 := by
      by_contra hc
      rw [List.getElem?_eq_none (by rw [List.length_take]; omega)] at hx
      exact absurd hx (by simp)
    rw [List.getElem?_take_of_lt hi, List.getElem?_map, clusterCodewords, List.getElem?_append_left (by rw [List.length_mapIdx]; omega),
      List.getElem?_mapIdx, List.getElem?_eq_getElem (by omega)] at hx
    simp only [Option.map_some, Option.some.injEq] at hx
    subst hx
    simp only [cwOfBits_cwEncode, makeCw_crcOk, Bool.true_and, decide_eq_true_eq]
    exact metaMask_written m _ _ i (by omega)
  · rw [List.length_eq_zero_iff, List.filter_eq_nil_iff]
    intro x hx
    obtain ⟨k, _, rfl⟩ := List.mem_map.mp hx
    simp

/-- A clean read misses no limit. -/
theorem missedLimit_clean (s : State) (b : BayNo) :
    s.missedLimit b { locked := true, inserted := 0, addressOk := true, rawErrors := 0, converged := true, iters := 0, crcMeta := true,
                      eraseRun := 0, eraseSum := 0, receiver := false } = none := by
  unfold State.missedLimit
  simp

/-- A read that misses no limit and has no raw bit errors passes without an event. -/
theorem verdict_pass (s : State) (b : BayNo) (layer : LayerNo) (o : VerifyRead) (h : s.missedLimit b o = none) (he : o.rawErrors = 0) :
    s.verdict b layer o = (s.noteVerify b layer false, true) := by
  unfold State.verdict
  rw [h, he]
  dsimp only
  rw [if_neg (Nat.not_lt_zero _)]

/-- A clean read of a written cluster passes verification (R166): the bay's history takes a success, and no event is raised. -/
theorem verdict_clean (s : State) (b : BayNo) (layer : LayerNo) (a : ClusterAddr) (m : ClusterMeta)
    (halves : List (BitVec 16384 × Bool)) (h : halves.length = 32) (field : List Byte) (id : BitVec 64)
    (ha : decodeAddrField [] field = some (addrInfo a id))
    (hg : s.bays[b].infoAgrees a (addrInfo a id) = true) :
    s.verdict b layer (s.measure b a m (clusterCodewords m halves) (cleanRead field (clusterCodewords m halves)))
      = (s.noteVerify b layer false, true) := by
  rw [measure_clean s b a m halves h field id ha hg]
  exact verdict_pass s b layer _ (missedLimit_clean s b) rfl

/-- A data codeword that converged to what was written, its metadata as expected, is good (R127, R128). -/
theorem checked_written (e : Entry) (i n : Nat) (half : BitVec 16384) (m : Metadata) (h : e.cw i = .converged (makeCw half m) n)
    (hm : e.metaMask i m = 0) : e.checked i = .good (makeCw half m) := by
  unfold Entry.checked
  rw [h]
  dsimp only
  rw [if_pos (Or.inr ⟨makeCw_crcOk half m, by rw [makeCw_info]; exact hm⟩)]

/-! ### Clean writes -/

/-- What a frame on the laser driver link leaves of the sequencer. -/
theorem sendLdl_seq (s : State) (b c : BayNo) (req : LdlReq) : (s.sendLdl b req).bays[c].seq = s.bays[c].seq := by
  unfold State.sendLdl
  split <;> (simp [State.emit, State.onWp, State.onBay, Vector.getElem_set]; try (split <;> simp_all))

/-- Loading powers leaves the sequencer. -/
theorem loadPowersAt_seq (s : State) (b c : BayNo) (block : List Byte) (k : Rat) : (s.loadPowersAt b block k).bays[c].seq = s.bays[c].seq := by
  have h : ∀ (l : List (Nat × Nat)) (t : State), (l.foldl (fun (t : State) p =>
      t.sendLdl b { write := true, reg := BitVec.ofNat 7 (0x11 + p.2), data := BitVec.ofNat 16 p.1 }) t).bays[c].seq = t.bays[c].seq := by
    intro l
    induction l with
    | nil => exact fun _ => rfl
    | cons x l ih => intro t; rw [List.foldl_cons, ih, sendLdl_seq]
  exact h _ _

/-- Recording a cluster leaves the sequencer. -/
theorem record_seq (s : State) (b c : BayNo) (a : ClusterAddr) (bits : List Bool) : (s.record b a bits).bays[c].seq = s.bays[c].seq := rfl

/-- What a bay knows of address information is in its sequencer. -/
theorem infoAgrees_congr (t u : Bay) (h : t.seq = u.seq) (a : ClusterAddr) (info : BitVec 48) : t.infoAgrees a info = u.infoAgrees a info := by
  unfold Bay.infoAgrees Bay.expectedInfo Bay.discId
  rw [h]

/-- The verify history leaves the sequencer. -/
theorem noteVerify_seq (s : State) (b c : BayNo) (layer : LayerNo) (f : Bool) : (s.noteVerify b layer f).bays[c].seq = s.bays[c].seq := by
  unfold State.noteVerify
  simp only [State.onWp, State.onBay, Vector.getElem_set, Fin.getElem_fin]
  split <;> simp_all

/-- What the metadata of a cluster of a set share (R52). -/
def setMeta (m : MgmtSet) (a : ClusterAddr) : ClusterMeta :=
  { home := a, vid := m.vid, lba := 0, management := true, replacement := false, remap := 0 }

/-- The halves of sectors of a cluster of a set. -/
def setHalves (m : MgmtSet) (k : Nat) : List (BitVec 16384 × Bool) :=
  (List.range 32).map (fun i => (packBytes 16384 (((setCluster m k).drop (2048 * i)).take 2048), false))

/-- The codewords of a cluster of a set are those of a cluster with its metadata. -/
theorem setCodewords_eq (m : MgmtSet) (k : Nat) (a : ClusterAddr) : setCodewords m k a = clusterCodewords (setMeta m a) (setHalves m k) := by
  unfold setCodewords setMeta setHalves
  rfl

/-- A cluster of a set that is written at the next position and passes is followed by the next cluster (R59). -/
theorem writeCopy_step (s s1 t : State) (b : BayNo) (m : MgmtSet) (second : Bool) (r : ClusterRead) (rest : List WriteTry) (k used : Nat)
    (a : ClusterAddr) (hk : k < setClusters m) (hu : used < mgmtPositions) (hA : mgmtAddr second used = a)
    (h1 : s1 = (s.loadPowers b (addrLayer a) (zoneOfTurn (addrTurn a))).record b a (recordedBits a m.discId (setCodewords m k a)))
    (hv : s1.verdict b (addrLayer a) (s1.measure b a (setMeta m a) (setCodewords m k a) r) = (t, true)) :
    State.writeCopy b m second ({ before := none, after := some r } :: rest) k used s = State.writeCopy b m second rest (k + 1) (used + 1) t := by
  rw [State.writeCopy]
  rw [if_neg (by omega), if_neg (by omega)]
  subst hA h1
  dsimp only
  rw [Option.isSome_none, Bool.and_false, if_neg (by decide)]
  unfold setMeta at hv
  rw [hv]

/-- A copy of a set of one cluster that is written and read back clean is whole, at the next position (R59). -/
theorem writeCopy_clean (s : State) (b : BayNo) (m : MgmtSet) (second : Bool) (used : Nat) (field : List Byte) (hm : setClusters m = 1)
    (hu : used < mgmtPositions)
    (ha : decodeAddrField [] field = some (addrInfo (mgmtAddr second used) m.discId))
    (hg : s.bays[b].infoAgrees (mgmtAddr second used) (addrInfo (mgmtAddr second used) m.discId) = true) :
    ∃ t, State.writeCopy b m second
      [{ before := none, after := some (cleanRead field (setCodewords m 0 (mgmtAddr second used))) }] 0 used s
        = (t, used + 1, .whole) ∧ ∀ c : BayNo, t.bays[c].seq = s.bays[c].seq := by
  generalize hA : mgmtAddr second used = a at *
  have hs : ∀ t : State, State.writeCopy b m second [] 1 (used + 1) t = (t, used + 1, .whole) := by
    intro t
    rw [State.writeCopy, if_pos (by omega)]
  obtain ⟨s1, h1⟩ : ∃ s1, s1 = (s.loadPowers b (addrLayer a) (zoneOfTurn (addrTurn a))).record b a
      (recordedBits a m.discId (setCodewords m 0 a)) := ⟨_, rfl⟩
  have hseq : ∀ c : BayNo, s1.bays[c].seq = s.bays[c].seq := by
    intro c
    rw [h1, record_seq]
    exact loadPowersAt_seq s b c _ _
  have hv := verdict_clean s1 b (addrLayer a) a (setMeta m a) (setHalves m 0) (by simp [setHalves]) field m.discId ha
    (by rw [infoAgrees_congr _ _ (hseq b)]; exact hg)
  rw [← setCodewords_eq] at hv
  refine ⟨s1.noteVerify b (addrLayer a) false, ?_, fun c => by rw [noteVerify_seq, hseq]⟩
  rw [writeCopy_step s s1 (s1.noteVerify b (addrLayer a) false) b m second _ [] 0 used a (by omega) hu hA h1 hv, hs]

end Sys2Proof.Laws
end

