-- ==== Sys2Proof/Tests/Slice0.lean ====
section
/-! SUPPORT. Tests: the checks of WellFormed refuse, small steps on fixed values, and for each statement with hypotheses a state and operands that meet them. -/

namespace Sys2Proof.Tests

open Sys2Proof Sys2Proof.Machine Sys2Proof.Safety Sys2Proof.Laws

set_option Elab.async false

/-! ### Small states -/

/-- A bay at its loops with a mounted disc. -/
def mset : MgmtSet :=
  { seq := 1, vid := 1, remap := false, clean := false, closed := false, preRead := false, discId := 0, defects := [],
    ranges := [], nextOrdinal := 0 }
def disc : Disc :=
  { vid := 1, slot := 0, mounted := true, mgmt := some mset, used1 := 1, used2 := 1, readOnly := false, unclean := false,
    preRead := [] }
def vol : Volume := { newVolume 1 0 0 with known := true, formatted := true }

def sb (b : Nat) (st : SbState) : Superblock :=
  { lun := 0, block := b, st := st, next := 0, erases := 0, firstProgram := 0, tempSum := 0, programs := 0, age := 0,
    closedAt := 0, xor := [] }

/-- The device in STANDALONE, its clocks good, its image running, its links up. -/
def up : State :=
  { State.reset with
      sys :=
        { State.reset.sys with
            mode := .standalone, filled := true, imageRuns := true, recovered := true, porst := false,
            pll := Vector.replicate 5 true, fHeld := Vector.replicate 4 false, mHeld := Vector.replicate 2 false },
      ports := State.reset.ports.map (fun p => { p with linkUp := true }),
      mem := { State.reset.mem with gib := 16 },
      stg :=
        { State.reset.stg with
            luns := [0], pages := 1024, blocks := 16, limit := 64,
            sbs := [sb 0 .reserve, sb 1 .reserve, sb 2 .free, sb 3 .free, sb 4 .free, sb 5 .toErase] },
      vols := [vol] }

def inMode (m : Mode) : State := up.onSys (fun y => { y with mode := m })

/-- Bay 0 with the mounted disc of volume 1, its loops closed, READY. -/
def ready : State :=
  up.onBay 0 (fun t => { t with
    qHeld := false, sHeld := false,
    srv :=
      { t.srv with
          parked := false, focus := { t.srv.focus with closed := true, locked := true },
          tracking := { t.srv.tracking with closed := true, locked := true },
          sled := { t.srv.sled with closed := true }, tilt := { t.srv.tilt with closed := true } },
    spn := { t.spn with level := .sinEncoder },
    sld := { t.sld with homed := true },
    seq := { t.seq with st := .ready, tray := true, clamp := true, disc := some disc } })

/-- Bay 0 as `ready`, in a state of Table 9.2. -/
def bayIn (x : BaySt) : State := ready.onSeq 0 (fun q => { q with st := x })

def cid : CmdId := ⟨false, 0, 0, 1⟩
def cmd (op : Nat) : Cmd :=
  { id := cid, order := 0, opcode := BitVec.ofNat 8 op, flags := 0, vid := 1, lba := 0, count := 1, addr := 0, len := 0,
    spec := 0, exts := [], eligible := true, started := false, dropped := false, wait := .none, code := 0, data := [], retried := false,
    done := [], cover := [], written := 0, replaced := 0 }

/-- `s` with one outstanding command. -/
def with1 (s : State) (c : Cmd) : State := { s with cmds := [c] }

/-- `s` with a mailbox request at port 0: opcode, target, and payload as a number, byte 0 lowest. -/
def asks (s : State) (op target pay : Nat) : State :=
  s.onMbx 0 (fun m => { m with busy := true, req := BitVec.ofNat 512 (op + target * 2 ^ 16 + pay * 2 ^ 64) })

/-- `s` with a Set Parameter request: ID, instance and value. -/
def setsP (s : State) (target id v : Nat) : State := asks s 0x102 target (id + v * 2 ^ 64)

def item : WriteItem := { home := homeOf 0, vid := 1, ucl := 0, cause := 0, fill := [] }
def job : DestageJob := { cmd := none, vid := 1, todo := [item], written := [], replaced := 0, failed := none }
def run : WriteRun :=
  { layer := 0, turn := addrTurn (homeOf 0), unjudged := [item], turnItems := [], endAtTurn := false, finalRev := false, turns := 0,
    guaranteed := false, bufs := [] }
def entry : Entry :=
  { use := .host, addr := homeOf 0, home := homeOf 0, vid := 1, seq := 0, seqs := [], beam := 1, failedBeam := 1, par := .reset,
    cls := .demand, gen := 0, cws := Vector.replicate 36 .failed, bufs := [], parity := [], soft := [],
    erased := Vector.replicate 36 0, kept := Vector.replicate 36 [], tried := 0, frames := 384, submitted := 36, requests := [],
    late := false, promoted := false, reread := 0, ran := false, judged := false, identical := false, ladder := 0, stage := .idle,
    metaFail := false, maxIters := 0, repaired := 0, status := none }
def codeword : Codeword :=
  { bay := 0, beam := 1, entry := 0, cw := 0, cls := .demand, gen := 0, seq := 0, erased := 0, soft := [], repeatOf := none,
    avoid := none, limit := 0 }
def result (converged : Bool) : DecodeResult := { cw := codeword, converged := converged, iters := 1, corrected := 0, word := 0 }
def mapEntry : MapEntry :=
  { vid := 1, ucl := 0, mask := 1, loc := 5, sealed := false, dataSeq := 0, progSeq := 0, sectors := [], lost := 0,
    queues := [] }
def dirtyCluster : DirtyCluster :=
  { vid := 1, ucl := 0, mask := 1, dataSeq := 0, sectors := [(0, 0)], lost := 0, mirror := false, queues := [], buf := none }
def image : List Byte := [0x52, 0x4B, 0x5A, 0x46] ++ List.replicate 4092 0
def infoModeReq : ParamInfo := ⟨0x0100, .device, .oneOf [3, 7, 8, 12], 3, .immediate, false⟩
def infoHold : ParamInfo := ⟨0x0103, .device, .span 0 60000, 100, .immediate, false⟩
/-- The device owns the handler, at rest and homed. -/
def owns (s : State) : State :=
  s.onHnd (fun h => { h with own := true, quietDone := true, axes := h.axes.map (fun a => { a with homed := true }) })
def path0 : PathMove :=
  { start := #v[0, 0, 0], disp := #v[10, 0, 0], s := 0, v := 0, mode := .moving, profile := ⟨1, 1, 1, 1, 1, 1, 1, 1⟩,
    fromRest := true }
def move8 : MoveDisc :=
  { src := 0, dst := 1, port := none, forwarded := none, step := 8, picked := true, released := true, repeated := false,
    stalls := 0, stopped := false, awaitPeer := false }
/-- The Tether is up and live, the device in a pair. -/
def paired (s : State) : State :=
  s.onPair (fun p => { p with link := .up, hbLive := true, role := { role := 1, peer := 7, seq := 5 } })
/-- The bytes of a flit with a payload, sent under a sequence number. -/
def flitOf (q : BitVec 16) (kind : Byte) (payload : List Byte) : List Byte :=
  flitBytes [0, 1, 2, 3] q 0 { kind := kind, last := true, payload := payload } false
def hb : Heartbeat :=
  { identity := 7, mode := .paired, sequence := 5, peerOk := true, peerOkIn := true, degraded := false, count := 0 }
def calRun : CalRun :=
  { beam := 0, recv := 0, step := 1, passB := false, trimIx := 0, old := .reset, cur := .reset, dir := 0, steps := 0,
    prev := none, resultA := none, failed := false }
/-- Bay 0 with a lane in a phase. -/
def laneIn (ph : LanePhase) (frame released : Nat) : State :=
  (bayIn .reading).onLane 0 1 (fun l => { l with phase := ph, frame := frame, released := released, addr := homeOf 0, home := homeOf 0 })
def startEntry0 : StartEntry :=
  { freq := 0, gain := 0, offset := 0, asym := 0, eq := Vector.replicate 15 0, outer := Vector.replicate 7 0,
    inner := Vector.replicate 7 0, beamOffset := 400 }
/-- Bay 0 with one open entry. -/
def opened (st : BaySt) (e : Entry) : State := (bayIn st).onDec 0 (fun d => { d with entries := [(0, e)] })
/-- Bay 0 READY to write: everything calibrated, the geometry known, one destage job. -/
def mayBurn (st : BaySt) : State :=
  ((bayIn st).onWp 0 (fun w =>
    { w with
        statusClear := true, opcDone := 0xFFFFFFFF, opcFirst := 0xFFFF, jobs := [job], testNext := Vector.replicate 16 (some (0, 0)) })).onRc 0 (fun r =>
    { r with learnt := Vector.replicate 3 (some 400), start := [(1, startEntry0)] })
/-- The same with a write strategy of its own in force. -/
def burnSet : State :=
  { mayBurn .ready with
      params := { up.params with strategyInForce := Vector.replicate 8 (some (List.replicate 12800 1)) } }
def servoObs : ServoObs :=
  { samples := Vector.replicate 8 (Vector.replicate 4 5), complete := 0xFF, cycle := 0, clock := [], focusOnTime := true,
    trackOnTime := true }
def acq0 : FocusAcq :=
  { layer := 0, periods := 0, p := 0, count := 0, firstCount := none, above := false, posPeak := false, negPeak := false,
    fenMax := 0, fenMin := 0, pMax := 0, pMin := 0, zero := none, lastZero := none, firstZero := none, fromLull := false }
def moveOf (k : MoveKind) : Move := .begin k
def char0 : CharRun :=
  { track := [(3, true, 5, 40)], focus := [(false, -20)] }
def pwm0 : PwmObs := { shunt1 := 2048, shunt2 := 2048, drogueShunt := 2048 }
def nandPart0 : NandPart :=
  { signature := true, goodPage := true, luns := 1, planes := 4, pageBytes := 16384, spareBytes := 2048, pagesPerBlock := 1024,
    blocksPerPlane := 512, bitsPerCell := 3, tR := 50, tProg := 600, tBers := 3000, rates := [1600], zq := true }
def nandFound0 : NandFound := { chips := Vector.replicate 16 [nandPart0], blank := true }
def dramFound0 : DramFound := { alike := true, standard := true, x8 := true, density := 32, ranks := 2, chips := 10 }
def dramErr0 : DramError :=
  { time := 0, block := 5, rank := false, chip := 3, symbols := 1, kind := 0, source := 0, count := 1 }
def dramClean : DramObs := { rank := false, first := [], again := [] }
def nandObs (f a : Option NandWord) (cs : List (Option NandWord)) : NandReadObs := { first := f, again := a, classes := cs, stripe := [] }
/-- Pool 0 of Ballast with one buffer: with the words given, and where there is none, free in the cache. -/
def pool1 (ws : List (Nat × BufWord)) : State :=
  up.onPoolB 0 (fun b => { b with size := 1, words := ws, cache := if ws.isEmpty then [0] else [] })
/-- `s` with buffers free in pool 2 beside the minima of every owner. -/
def buffered (s : State) : State := s.onPoolB 2 (fun b => { b with size := 100000, cache := [0], ring := [(1, 99999)] })
/-- The engine cache on, with its one line of address 0. -/
def cached : State :=
  up.onCache (fun c => { c with enabled := true, lines := [(lineSet 0 * 16, { tag := 0, dirty := false, data := 9 })] })
def activation0 : Activation :=
  { port := some 0, release := 0x01000000, slot := 1, bayRev := 1, handover := false, passed := false, start := 0 }
/-- The location and the state that a program of NAND gives. -/
def programmed (x : Option (BitVec 34 × State)) : BitVec 34 × State := x.getD (0, up)
/-- The state after a command. -/
def after (i : Instr) (s : State) : State := match exec i s with | .next t => t | _ => s
/-- A command that answers a next state answers the one `after` names. -/
theorem next_after {i : Instr} {s : State} (h : (match exec i s with | .next _ => true | _ => false) = true) :
    exec i s = .next (after i s) := by
  unfold after
  split at h
  · next t ht => rw [ht]
  · cases h
/-- An event record that no ring has taken. -/
def critical : Raised := (up.raiseDev .ripcord).ev.raised.head (by decide)
def eventRecord : EvRecord := EvRecord.ofRaised critical 0
/-- Both slots of the flash hold a valid image. -/
def slotsValid (s : State) : State :=
  s.onFlash (fun f => { f with dirs := f.dirs.map (fun d => { d with slots := d.slots.map (fun x => { x with st := .valid }) }) })
/-- A run of the retry of receiver 2: eight measurement windows at the gain target. -/
def retryable : State := (ready.onAfe 0 (fun a => { a with relief := .carrier 2 true })).onRecv 0 2 (fun r => { r with faulty := true })
def frames (v : Int) : List CalPart := List.replicate (1 + retryable.bn 0 Param.afeCalWindow) ⟨v * 256, 1⟩
def windows4 : List (List CalPart) :=
  [[⟨0, 256⟩, ⟨0, 4096⟩], frames (retryable.bp 0 Param.afeGainTarget), frames 0, frames 0]
def retried : CalRun × Trim × Trim :=
  ((retryable.bays[0].afe.beginRun 2 (beamRecv 2) 5).through (retryable.bp 0 Param.afeGainTarget)
    (retryable.bn 0 Param.afeCalWindow) (windows4 ++ windows4)).getD (calRun, .reset, .reset)
/-- A locked lane whose next sync stands at its prediction. -/
def syncLane : State :=
  (laneIn .locked 0 0).onLane 0 1 (fun l =>
    { l with
        prediction := l.par.syncWin,
        data :=
          { l.data with
              softCount := 2 * l.par.syncWin + 40,
              soft := (List.replicate l.par.syncWin (-31) ++ (syncPattern 0).map (fun (x : Bool) => if x then (31 : Int) else -31)
                ++ List.replicate l.par.syncWin (-31)).reverse } })
/-- A lane whose data have been changed. -/
def laneData (s : State) (f : Datapath → Datapath) : State := s.onLane 0 1 (fun l => { l with data := f l.data })
/-- Bay 0 before the turn of its job, its write clock steady. -/
def burnAt : State :=
  (buffered (mayBurn .ready)).onBay 0 (fun t =>
    { t with
        srv := { t.srv with place := some (addrLayer (homeOf 0), addrTurn (homeOf 0) - 1, 0) },
        wp := { t.wp with clockGood := 256 } })
def turnOf : State × List (ClusterAddr × BitVec 32) × List WriteItem × List WriteItem :=
  ((burnAt.onWp 0 (fun w => w.queueRewrites)).preRead 0 []).takeTurn 0 (addrLayer (homeOf 0)) (addrTurn (homeOf 0)) [item]
theorem parts4 {α β γ δ : Type} (x : α × β × γ × δ) : x = (x.1, x.2.1, x.2.2.1, x.2.2.2) := rfl
def tally : VerifyTally :=
  { item := item, raw := 0, run := 0, longest := 0, addressOk := true, locked := true, inserted := 0, receiver := false }
/-- The verify read of the cluster of a run, its codewords as given. -/
def verifyEntry (f : Fin 36 → CwState) : Entry := { entry with use := .verify tally, cws := Vector.ofFn f }
def verifies (f : Fin 36 → CwState) : State :=
  ((mayBurn .writing).onWp 0 (fun w => { w with gate := true, run := some run })).onDec 0 (fun d => { d with entries := [(0, verifyEntry f)] })
def writtenInfo (i : Nat) : Metadata :=
  { index := BitVec.ofNat 6 i, home := homeOf 0, vid := 1, lba := 0, management := false, replacement := false, unwritten := false,
    remap := 0 }
def writtenCw (i : Fin 36) : CwState := .converged (makeCw 0 (writtenInfo i)) 0
/-- What a lane read of a geometry turn. -/
def laneRead0 (start : Nat) : Option LaneRead :=
  some { start := start, bits := List.replicate 1600 false ++ syncPattern 0 ++ List.replicate 400 false }
def geoReads : Vector (Option LaneRead) 4 := #v[laneRead0 0, laneRead0 400, laneRead0 800, laneRead0 1200]
/-- A bay that may calibrate: a step that reads without errors between steps that could not be read. -/
def opcTries : List WriteTry :=
  List.replicate 5 { before := none, after := none } ++
    [{ before := none, after := some { locked := true, inserted := 0, field := [], fieldErased := [], soft := [], erasedRun := 0, receiver := false } }]
/-- A mount read that has read one management cluster. -/
def scan1 : MgmtScan := { used1 := 1, used2 := 0, low1 := 0, low2 := 0, got := [(mgmtAddr false 0, some (setBytes mset))] }
def unmounted : Disc := { disc with mounted := false, mgmt := none }
/-- Bay 0 in a mount read, with the words of its first turns. -/
def mountRead0 (ids : List (Option Bool)) (scan : Option MgmtScan) : State :=
  ((bayIn .reading).onSeq 0 (fun q => { q with mounting := true, disc := some unmounted, scan := scan })).onSrv 0 (fun v => { v with ids := ids })
/-- A wobble turn as its units carry a word. -/
def goodWord : NandWord := nandWord 7 1 1 1 0 1 0 0 0
def opFails : NandReadObs := nandObs none none [none, none]
def dirtyUp : State := up.onStg (fun g => { g with dirty := [dirtyCluster] })
def relocUp : State := up.onStg (fun g => { g with relocate := [(1, 0)], map := [mapEntry] })
def journalUp : State := up.onStg (fun g => { g with journal := [.erased 0 0] })
def bootUp : State := slotsValid ((inMode .boot).onSys (fun y => { y with imageRuns := false }))
/-- The units of a turn that carries a wobble address word. -/
def unitsOf (w : BitVec 63) : TurnUnits := Vector.ofFn (fun i : Fin 64 => if i = 0 then 0xFFFF else if w.getLsbD (63 - i.val) then 0x00FF else 0)
def roomy : State := up.onPoolB 0 (fun b => { b with size := 100000, cache := [0], ring := [(1, 99999)] })
def taken1 : Nat × BallastPool := (BallastPool.takeChain 0 5 1 none roomy.mem.pools[0]).getD (0, roomy.mem.pools[0])
/-- Pool 3 with buffers free beside the minima of every owner. -/
def roomy3 : State := up.onPoolB 3 (fun b => { b with size := 200, cache := [0], ring := [(1, 199)] })
theorem goodWord_reads : nandDecoded (some goodWord) = some goodWord := nandDecoded_word ..
theorem goodWord_isSome : (nandDecoded (some goodWord)).isSome = true := by rw [goodWord_reads]; rfl
theorem goodWord_stripe : stripeWord [some goodWord] = some goodWord := by
  have h := goodWord_reads
  generalize goodWord = w at h ⊢
  simpa [stripeWord] using h
theorem goodWord_any (cs : List Nat) (h : 1 < cs.length) :
    (cs.zip [none, some goodWord]).any (fun x => (nandDecoded x.2).isSome) = true := by
  have g := goodWord_isSome
  generalize goodWord = w at g ⊢
  match cs, h with
  | a :: b :: l, _ => simp [g]
/-- The state and the location that a program gives. -/
theorem programmed_some {x : Option (BitVec 34 × State)} (h : x.isSome = true) : x = some ((programmed x).1, (programmed x).2) := by
  cases x with
  | none => cases h
  | some y => rfl
theorem getD_some {α : Type} {x : Option α} (d : α) (h : x.isSome = true) : x = some (x.getD d) := by
  cases x with
  | none => cases h
  | some y => rfl

/-! ### WellFormed refuses -/

theorem test_ill_linkShape : (Instr.portLinkUp 0 1 3).illness = some .linkShape := by decide
theorem test_ill_accessSize : (Instr.bar0BadAccess 0 true 2 0).illness = some .accessSize := by decide
theorem test_ill_memorySize : (Instr.fillDone { dramFound0 with chips := 0 }).illness = some .memorySize := by decide
theorem test_ill_nandShape : (Instr.bootDone
    { imageOk := #v[true, true], nand := { chips := Vector.replicate 16 [{ nandPart0 with planes := 0 }], blank := true }, trays := 0,
      gripperDisc := false }).illness = some .nandShape := by decide
theorem test_ill_clusterWords : (Instr.stagingRecovery [{ loc := 5, words := [] }]).illness = some .clusterWords := by decide
theorem test_ill_stripeMembers : (Instr.nandCodewordRead 5 0 { opFails with stripe := List.replicate 16 none }).illness
    = some .stripeMembers := by decide
theorem test_ill_wobbleCycle : (Instr.clusterAcquisition 0 1 0 0 .demand false 32256 []).illness = some .wobbleCycle := by decide +kernel
theorem test_ill_addressField : (Instr.unverifiedVerifyPass 0 [some { locked := true, inserted := 0, field := [], fieldErased := [], soft := [], erasedRun := 0, receiver := false }]).illness = some .addressField := by decide
theorem test_ill_symbolTwice : (Instr.scrubRead { dramClean with first := [(3, 1), (3, 2)] }).illness = some .symbolTwice := by decide
theorem test_ill_noSample : (Instr.peerOkInChange true 0).illness = some .noSample := by decide
theorem test_ill_sectorIndex : (Instr.mirrorData 1 1 0 0 1 [(16, 0)]).illness = some .sectorIndex := by decide +kernel
theorem test_ill_dataLength : (Instr.forwardedCommand
    { id := cid, opcode := 2, flags := 0, vid := 1, lba := 0, count := 0, data := [0] }).illness = some .dataLength := by decide +kernel
theorem test_ill_scanLength : (Instr.jtagTapOperation (.samplePreload [true] [])).illness = some .scanLength := by decide
theorem test_ill_blockSpan : (Instr.dramPartialWrite 127 [1, 2] (.core 0) dramClean).illness = some .blockSpan := by decide

/-! ### Small steps -/

/-- No row of the table gives bits, so no word spells a command. -/
theorem test_decodeTableWord : decodeTableWord 32 5 = none := by decide

/-- The worked example of R65: LBA 0x0FEDCBA9 lies in the cluster at 0x02D7AE54. -/
theorem test_homeOf_example : homeOf (0x0FEDCBA9 / 16) = 0x02D7AE54 := by decide +kernel

/-- R43: the turn 143,754 is the last; at its zone's k of 15 the slot 14 is the last. -/
theorem test_addrValid_last : addrValid (BitVec.ofNat 26 (143754 * 16 + 14)) = true
    ∧ addrValid (BitVec.ofNat 26 (143754 * 16 + 15)) = false ∧ addrValid (BitVec.ofNat 26 (143755 * 16)) = false := by
  decide +kernel

/-- R41: a wobble word with five errors decodes, one with six does not. -/
theorem test_wobble_five : wobbleWord 0x41f89d422f5e7bcd = wobbleWord 0x51f89c402f5c7bc5 := by decide +kernel
theorem test_wobble_six : wobbleWord 0x41f89f422f5e7bcd = none := by decide +kernel

/-- The front of the queue runs and leaves the queue. -/
theorem test_step_front : ((match step { up with pending := [.rootPllLoss, .warmFlush] } with
    | .next t => (t.pending, t.sys.pllLost[0]) | _ => ([], false)) = ([.warmFlush], true)) := by decide +kernel

/-- R455: a read of a free Bridle cell claims it, and the next claim by the other port fails. -/
theorem test_bridle_claim : (after (.bridleRead 0 9 .full false) up).bridle[9] = { owner := ownerCode 0, claims := 1 } := by
  decide +kernel
theorem test_bridle_held : (after (.bridleRead 1 9 .full false) (after (.bridleRead 0 9 .full false) up)).bridle[9].owner
    = ownerCode 0 := by decide +kernel

/-- R310: a home slot above 0x3FF is refused with 0x11. -/
theorem test_createVolume_slot :
    byteAt (after (.createVolume 0) (asks up 0x110 2 0x10400)).ports[0].mbx.rsp 8 = 0x11 := by decide +kernel

/-- R7: DRAM holds a value's low byte at the lower address. -/
theorem test_dram_order : memRead (after (.dramPartialWrite 64 [0x34, 0x12] (.core 0) dramClean) up).mem.cells 64 2 = 0x1234 := by
  decide +kernel

/-- R368: the bank that differs is outvoted. -/
theorem test_triple_vote : (after (.tripleRead 4 #v[6, 5, 5] #v[5, 5, 5]) up).out = [.coreRead 5] := by decide +kernel

/-- R192: Lull of focus takes tracking with it. -/
theorem test_lull_coupled : (ready.enterLull 0 .focus .overrun).bays[0].srv.tracking.lull = some .coupled := by decide +kernel

/-- R275: a misaligned read ends in Unsupported Request. -/
theorem test_bar0_misaligned : (after (.bar0BadAccess 0 true 6 4) up).out = [.unsupported 0 6] := by decide +kernel

/-- R373: a request for no bytes is refused. -/
theorem test_ballast_none : (after (.ballastAllocate 0 0) up).out = [.ballast noHandle] := by decide +kernel


/-! ### Clean reads -/

/-- A written cluster, read clean, misses no limit. -/
theorem written_passes : (verifies writtenCw).missedLimit 0 ((verifyEntry writtenCw).measured tally) = none := by
  have hm : ∀ i < 32, (verifyEntry writtenCw).metaMask i (writtenInfo i) = 0 := by decide +kernel
  have hc : ∀ i (h : i < 36), (verifyEntry writtenCw).cw i = .converged (makeCw 0 (writtenInfo i)) 0 := by
    intro i h
    unfold Entry.cw verifyEntry writtenCw
    dsimp only
    rw [Vector.toList_ofFn, List.getD_eq_getElem?_getD, List.getElem?_ofFn, dif_pos h]
    rfl
  have h : (verifyEntry writtenCw).measured tally
      = { locked := true, inserted := 0, addressOk := true, rawErrors := 0, converged := true, iters := 0, crcMeta := true, eraseRun := 0,
          eraseSum := 0, receiver := false } := by
    unfold Entry.measured
    rw [VerifyRead.mk.injEq]
    refine ⟨rfl, rfl, rfl, rfl, by decide +kernel, rfl, List.all_eq_true.mpr ?_, rfl, by decide +kernel, rfl⟩
    intro i hi
    have hi' : i < 32 := List.mem_range.mp hi
    rw [checked_written _ i 0 0 (writtenInfo i) (hc i (by omega)) (hm i hi')]
    rfl
  rw [h]
  exact missedLimit_clean _ _

/-- Address fields as R49 encodes them: of the first replacement position, and of the second positions of the management areas. -/
def replField : List Byte :=
  [116, 206, 34, 4, 0, 0, 37, 180, 84, 156, 56, 106, 143, 6, 251, 148, 49, 250, 252, 52, 4, 218, 156, 176, 74, 88, 7, 67, 152, 125, 123,
    133, 106, 167]
def mgmtField1 : List Byte :=
  [1, 32, 0, 8, 0, 0, 22, 112, 126, 241, 29, 174, 75, 44, 154, 229, 211, 72, 165, 182, 181, 39, 43, 8, 36, 39, 59, 94, 27, 155, 1, 203,
    46, 80]
def mgmtField2 : List Byte :=
  [177, 12, 35, 8, 0, 0, 219, 233, 59, 210, 195, 145, 218, 56, 163, 219, 72, 189, 109, 148, 231, 113, 27, 232, 140, 80, 51, 184, 245, 102,
    115, 153, 61, 255]
theorem replField_reads : decodeAddrField [] replField = some (addrInfo (ordinalAddr mset.nextOrdinal) 0) := by decide +kernel
theorem mgmtField1_reads : decodeAddrField [] mgmtField1 = some (addrInfo (mgmtAddr false 1) 0) := by decide +kernel
theorem mgmtField2_reads : decodeAddrField [] mgmtField2 = some (addrInfo (mgmtAddr true 1) 0) := by decide +kernel

/-- The replacement of one cluster, and the state in which it is written. -/
def replItem : ReplItem := { home := homeOf 0, cause := 1, vid := 1, ucl := 0, fill := [] }
def replS : State := (mayBurn .ready).onWp 0 (fun w => { w with replQueue := [replItem], jobs := [] })
def replS1 : State := (((replS.onWp 0 (fun w => w.queueRewrites)).onWp 0 (fun w => { w with replQueue := [replItem] })).onMgmt 0 (fun q =>
  { q with nextOrdinal := mset.nextOrdinal + 1 }))
def replS2 : State :=
  let a := ordinalAddr mset.nextOrdinal
  (replS1.loadPowers 0 (addrLayer a) (zoneOfTurn (addrTurn a))).record 0 a
    (((((replS.onWp 0 (fun w => w.queueRewrites)).onWp 0 (fun w => { w with replQueue := [replItem] }))).itemBits 0 a replItem.item))
def replRead : ClusterRead := cleanRead replField (replS2.itemWords 0 replItem.item)

theorem halves_length (f : Nat → Option SectorData) : (sectorHalves f).length = 32 := by
  unfold sectorHalves
  rw [List.length_flatMap, List.map_congr_left (g := fun _ => 2) (fun k _ => by cases f k <;> rfl)]
  rfl

theorem replacement_passes : (replS2.verdict 0 (addrLayer (ordinalAddr mset.nextOrdinal))
    (replS2.measure 0 (ordinalAddr mset.nextOrdinal) (replS2.bays[0].itemMeta replItem.item) (replS2.itemWords 0 replItem.item) replRead)).2
      = true := by
  unfold replRead State.itemWords
  have hs : replS2.bays[(0 : BayNo)].seq = replS1.bays[(0 : BayNo)].seq := by
    unfold replS2
    dsimp only
    rw [record_seq]
    exact loadPowersAt_seq _ _ _ _ _
  rw [show replS2.bays[0] = replS2.bays[(0 : BayNo)] from rfl, verdict_clean replS2 0 _ _ _ _ (halves_length _) replField 0 replField_reads
    (by rw [infoAgrees_congr _ _ hs]; decide +kernel)]

/-- The set of a destage run, written to both sequences. -/
def setS : State := (mayBurn .ready).onWp 0 (fun w => { w with mgmtDue := some .destage, jobs := [{ job with todo := [] }] })
def setNext : MgmtSet := nextSet disc mset false []
def setTry (field : List Byte) (second : Bool) : List WriteTry :=
  [{ before := none, after := some (cleanRead field (setCodewords setNext 0 (mgmtAddr second 1))) }]

/-- The turn of the job's one cluster takes it. -/
theorem turn_items : turnOf.2.2.1 = [item] :=
  takeTurn_one _ 0 _ _ item (by decide +kernel) (by decide +kernel)
    (fetchStaged_one _ item _ (ballastTake_one _ stagingOwner 65536 2 0 (by decide +kernel) (by decide +kernel) (by decide +kernel)
      (by decide +kernel)))

/-- Bay 0 before a geometry write, RDCH.ACQ_WIN at its least. -/
def geoS : State :=
  let s := (mayBurn .ready).onWp 0 (fun w => { w with clockGood := 256 })
  { s with params := { s.params with inForce := [(paramKey 0 Param.rdchAcqWin, 64)] } }
theorem geo_offsets : geoS.geometryOffsets 0 geoReads = #v[some 400, some 800, some 1200] := by decide +kernel

/-! ### Every hypothesis is met somewhere -/

theorem wit_StepRunsFront :
    (∃ (s : State) (c : Instr) (rest : List Instr), s.pending = c :: rest)
    ∧ (∃ s : State, s.pending = []) :=
  ⟨⟨{ up with pending := [.warmFlush] }, .warmFlush, [], by decide +kernel⟩,
   ⟨up, by decide +kernel⟩⟩

theorem wit_IoCommandsComplete :
    (∃ (s : State) (id : CmdId) (ext : ExtentRead) (c : Cmd) (v : Volume), s.served id 1 = some (c, v) ∧ v.ownPeer = false ∧
        (c.id.peer = false → extentErr ext = none ∧ extentsStatus c ext = none) ∧ (∀ l ∈ c.lbas, ((s.copyOf v
        l).direct).isSome))
    ∧ (∃ (s : State) (id : CmdId) (c : Cmd) (v : Volume), s.served id 4 = some (c, v) ∧ v.ownPeer = false ∧ (∀ l ∈ c.lbas,
        ((s.copyOf v l).direct).isSome))
    ∧ (∃ (s : State) (id : CmdId) (c : Cmd) (v : Volume), s.served id 3 = some (c, v) ∧ v.ownPeer = false ∧ (∀ x ∈ c.cover,
        s.stg.dirty? x.1 x.2 = none) ∧ s.stg.journal = [])
    ∧ (∃ (s : State) (id : CmdId) (c : Cmd), s.runnable id 5 = some c ∧ c.done ≠ [])
    ∧ (∃ (s : State) (id : CmdId) (c : Cmd) (v : Volume) (b : BayNo), s.served id 9 = some (c, v) ∧ v.ownPeer = false ∧ s.servedIn
        c.vid = some b)
    ∧ (∃ (s : State) (id : CmdId) (c : Cmd) (v : Volume), s.served id 11 = some (c, v) ∧ v.ownPeer = false)
    ∧ (∃ (s : State) (id : CmdId) (c : Cmd), s.sys.mode ≠ .ripcord ∧ s.cmd? id = some c ∧ c.wait = .mount)
    ∧ (∃ (s : State) (id : CmdId) (c : Cmd), s.sys.mode ≠ .ripcord ∧ s.cmd? id = some c ∧ c.wait = .space) :=
  ⟨⟨with1 up (cmd 1), cid, .inline, cmd 1, vol, by decide +kernel⟩,
   ⟨with1 up (cmd 4), cid, cmd 4, vol, by decide +kernel⟩,
   ⟨with1 up (cmd 3), cid, cmd 3, vol, by decide +kernel⟩,
   ⟨with1 up { cmd 5 with done := [(0, 0)] }, cid, { cmd 5 with done := [(0, 0)] }, by decide +kernel⟩,
   ⟨with1 ready (cmd 9), cid, cmd 9, vol, 0, by decide +kernel⟩,
   ⟨with1 up (cmd 11), cid, cmd 11, vol, by decide +kernel⟩,
   ⟨with1 up { cmd 9 with wait := .mount }, cid, { cmd 9 with wait := .mount }, by decide +kernel⟩,
   ⟨with1 up { cmd 2 with wait := .space }, cid, { cmd 2 with wait := .space }, by decide +kernel⟩⟩

theorem wit_IoWorkCompletes :
    (∃ (s : State) (id : CmdId) (ext : ExtentRead) (data : WriteData) (xs : List SectorData) (c : Cmd) (v : Volume), s.served
        id 2 = some (c, v) ∧ v.ownPeer = false ∧ s.writeFetch c ext data = (s, some xs) ∧ v.known = true ∧ s.writeCheck v c =
        none ∧ s.meetsSeal c = false ∧ s.writeRoom c = true ∧ s.mirrors = false)
    ∧ (∃ (s : State) (id : CmdId) (c : Cmd) (v : Volume) (b : BayNo), s.served id 6 = some (c, v) ∧ v.ownPeer = false ∧ s.servedIn
        c.vid = some b)
    ∧ (∃ (s : State) (id : CmdId) (c : Cmd) (v : Volume) (b : BayNo) (us : List Nat), s.served id 8 = some (c, v) ∧ v.ownPeer =
        false ∧ s.servedIn c.vid = some b ∧ s.destageable b v.vid (s.destageCover c) = us ∧ s.destageRefusal b v us = none ∧
        us ≠ [] ∧ (∀ u ∈ us, s.stg.dirty? c.vid u = none))
    ∧ (∃ (s : State) (id : CmdId) (c : Cmd) (v : Volume) (b : BayNo), s.served id 10 = some (c, v) ∧ v.ownPeer = false ∧ (∀ d ∈
        s.cmds, d.vid = c.vid → d.id ≠ id → d.started = false) ∧ s.discIn c.vid = some b ∧ s.bays[b].seq.unmounting = none ∧
        s.bays[b].seq.st ≠ .unloading ∧ s.bays[b].seq.st ≠ .clamped)
    ∧ (∃ (s : State) (p : Port) (q : QueueNo) (r : BitVec 512), s.fetches p = true ∧ s.ports[p].nextPair = some q ∧ 0 < min (s.dn
        Param.qpFetchBurst) (min s.ports[p].queues[q].waiting s.ports[p].queues[q].slots) ∧ s.ports[p].queues[q].halted =
        false ∧ recOpcode r ≠ 5 ∧ recordStatus r (s.cmds.any (fun c => decide (c.id = ⟨false, p, q, recCid r⟩) && !c.dropped))
        (s.vol? (recVid r)).isSome = none ∧ s.sys.mode ≠ .sanitize ∧ s.pair.awaiting = false)
    ∧ (∃ (s : State) (id : CmdId) (c : Cmd), s.cmd? id = some c ∧ s.noHazard c = true) :=
  ⟨⟨with1 (buffered up) (cmd 2), cid, .inline, .ok [7], [7], cmd 2, vol, by decide +kernel, by decide +kernel, rfl,
    by decide +kernel, by decide +kernel, by decide +kernel, by decide +kernel, by decide +kernel⟩,
   ⟨with1 ready (cmd 6), cid, cmd 6, vol, 0, by decide +kernel⟩,
   ⟨(with1 ready (cmd 8)).onStg (fun g => { g with map := [mapEntry] }), cid, cmd 8, vol, 0, [0], by decide +kernel⟩,
   ⟨with1 ready (cmd 10), cid, cmd 10, vol, 0, by decide +kernel⟩,
   ⟨up.onQueue 0 0 (fun q => { q with enabled := true, entries := 8, sqTail := 1 }), 0, 0,
     0x1000000000000000100000000001000000000000000100070001, by decide +kernel⟩,
   ⟨with1 up { cmd 1 with eligible := false }, cid, { cmd 1 with eligible := false }, by decide +kernel⟩⟩

theorem wit_PortStatesComplete :
    (∃ (s : State) (p : Port), s.answers p = true ∧ s.ports[p].d3hot = false)
    ∧ (∃ (s : State) (p : Port), s.answers p = true ∧ s.ports[p].d3hot = true)
    ∧ (∃ (s : State) (p : Port) (gen width : Fin 5), s.answers p = true ∧ s.sys.pll[3] = true ∧ s.sys.pllLost[3] = false ∧ 1 ≤
        gen.val ∧ gen.val ≤ (s.linkCap p).1 ∧ width.val ≠ 0 ∧ width.val ≠ 3 ∧ width.val ≤ (s.linkCap p).2)
    ∧ (∃ (s : State) (p : Port), s.ports[p].linkUp = true)
    ∧ (∃ (s : State) (p : Port), s.answers p = true) :=
  ⟨⟨up, 0, by decide +kernel⟩,
   ⟨up.onPort 1 (fun p => { p with d3hot := true }), 1, by decide +kernel⟩,
   ⟨up, 0, 4, 4, by decide +kernel⟩,
   ⟨up, 0, by decide +kernel⟩,
   ⟨up, 1, by decide +kernel⟩⟩

theorem wit_QueueRegistersComplete :
    (∃ (s : State) (p : Port) (q : QueueNo), s.answers p = true ∧ s.ports[p].queues[q].enabled = true)
    ∧ (∃ (s : State) (p : Port) (q : QueueNo) (v : BitVec 12), s.answers p = true ∧ s.ports[p].queues[q].enabled = true ∧ v.toNat <
        s.ports[p].queues[q].entries.toNat)
    ∧ (∃ (s : State) (p : Port) (q : QueueNo) (v : BitVec 12), s.answers p = true ∧ s.ports[p].queues[q].enabled = true ∧ v.toNat <
        s.ports[p].queues[q].entries.toNat ∧ s.ports[p].queues[q].released v ≤ s.ports[p].queues[q].posted)
    ∧ (∃ (s : State) (p : Port) (q : QueueNo) (v : BitVec 64), s.answers p = true ∧ s.ports[p].queues[q].enabled = false ∧ v.getLsbD
        63 = true ∧ 2 ≤ field v 0 13 ∧ field v 0 13 ≤ 4096 ∧ 1 ≤ field v 16 7 ∧ field v 16 7 ≤ 64) :=
  ⟨⟨up.onQueue 0 63 (fun q => { q with enabled := true, entries := 8 }), 0, 63, by decide +kernel⟩,
   ⟨up.onQueue 0 0 (fun q => { q with enabled := true, entries := 8 }), 0, 0, 7, by decide +kernel⟩,
   ⟨up.onQueue 0 0 (fun q => { q with enabled := true, entries := 8, cqTail := 3 }), 0, 0, 3, by decide +kernel⟩,
   ⟨up, 1, 0, 0x8000000000401000, by decide +kernel⟩⟩

theorem wit_PortRegistersComplete :
    (∃ (s : State) (p : Port) (v : BitVec 64), s.answers p = true ∧ s.ports[p].ring.enabled = false ∧ v.getLsbD 31 = true ∧ 64
        ≤ field v 0 13 ∧ field v 0 13 ≤ 4096)
    ∧ (∃ (s : State) (p : Port), s.answers p = true)
    ∧ (∃ (s : State) (p : Port) (v : BitVec 12), s.answers p = true ∧ s.ports[p].ring.enabled = true ∧ v.toNat <
        s.ports[p].ring.entries.toNat ∧ (v.toNat + s.ports[p].ring.entries.toNat - s.ports[p].ring.head.toNat) %
        s.ports[p].ring.entries.toNat ≤ s.ports[p].ring.posted)
    ∧ (∃ (s : State) (p : Port) (c : Fin 64), s.answers p = true ∧ s.bridle[c].owner = 0)
    ∧ (∃ (s : State) (p : Port) (c : Fin 64) (v : BitVec 64), s.answers p = true ∧ s.bridle[c].owner = ownerCode p ∧ field v 56 8 =
        0)
    ∧ (∃ (s : State) (p : Port), s.answers p = true ∧ s.ev.reelFrozen = false)
    ∧ (∃ (s : State) (p : Port), s.answers p = true ∧ s.ev.reelFrozen = true)
    ∧ (∃ (s : State) (p : Port) (off : BitVec 16) (n : Nat), s.answers p = true ∧ accessOk off n = false)
    ∧ (∃ s : State, s.coresRun = true)
    ∧ (∃ (s : State) (p : Port) (q : QueueNo), 0 < s.ports[p].queues[q].unsignalled)
    ∧ (∃ (s : State) (p : Port) (q : QueueNo), s.sys.mode ≠ .off ∧ s.ports[p].queues[q].enabled = true ∧ s.ports[p].queues[q].halted
        = false) :=
  ⟨⟨up, 0, 0x80001000, by decide +kernel⟩,
   ⟨up, 0, by decide +kernel⟩,
   ⟨up.onRing 0 (fun r => { r with enabled := true, entries := 64, tail := 2 }), 0, 1, by decide +kernel⟩,
   ⟨up, 1, 63, by decide +kernel⟩,
   ⟨up.onCell 5 (fun c => { c with owner := ownerCode 0 }), 0, 5, 0, by decide +kernel⟩,
   ⟨up, 0, by decide +kernel⟩,
   ⟨up.onEv (fun e => { e with reelFrozen := true }), 0, by decide +kernel⟩,
   ⟨up, 0, 2, 4, by decide +kernel⟩,
   ⟨up, by decide +kernel⟩,
   ⟨up.onQueue 0 0 (fun q => { q with unsignalled := 1 }), 0, 0, by decide +kernel⟩,
   ⟨up.onQueue 0 0 (fun q => { q with enabled := true }), 0, 0, by decide +kernel⟩⟩

theorem wit_EventPathCompletes :
    (∃ (s : State) (e : Raised) (rest : List Raised), s.ev.raised = e :: rest ∧ s.ev.summaryDue = false ∧ s.ev.queue.any (fun
        r => r.repeats e (s.dn Param.evtCoalesce)) = false ∧ mayPlace Config.eventCapacity Config.eventReserve
        s.ev.queue.length e.sev = true)
    ∧ (∃ s : State, s.copies = true ∧ s.ports[(0 : Port)].ring.enabled = false ∧ s.ports[(1 : Port)].ring.enabled = false ∧
        s.ev.tally.isZero = true)
    ∧ (∃ (s : State) (p : Port) (x : EvRecord), s.copies = true ∧ s.ports[p].ring.enabled = true ∧ s.ports[1 - p].ring.enabled =
        false ∧ s.ev.queue = [x] ∧ x.taken[p] = false ∧ s.hostSev p ≤ x.sev.code ∧ s.ports[p].ring.tally.isZero = true ∧
        s.ports[p].ring.mayPlace x.sev = true ∧ s.ev.tally.isZero = true)
    ∧ (∃ s : State, s.copies = false)
    ∧ (∃ (s : State) (p : Port), s.ports[p].ring.signalDue = false)
    ∧ (∃ s : State, s.sys.mode ≠ .off)
    ∧ (∃ s : State, s.sys.mode ≠ .off ∧ s.ev.diagState = 1) :=
  ⟨⟨up.raiseDev .reelFrozen, (up.raiseDev .reelFrozen).ev.raised.head (by decide), [], rfl, by decide +kernel,
    by decide +kernel, by decide +kernel⟩,
   ⟨up, by decide +kernel⟩,
   ⟨(up.onRing 0 (fun r => { r with enabled := true, entries := 64 })).onEv (fun e => { e with queue := [eventRecord] }), 0,
     eventRecord, by decide +kernel⟩,
   ⟨State.reset, by decide +kernel⟩,
   ⟨up, 0, by decide +kernel⟩,
   ⟨up, by decide +kernel⟩,
   ⟨up.onEv (fun e => { e with diagState := 1 }), by decide +kernel⟩⟩

theorem wit_MailboxReportsComplete :
    (∃ (s : State) (p : Port), accepts s p 0x100 = true ∧ 0 < mbxBufLen s.ports[p].mbx.req)
    ∧ (∃ (s : State) (p : Port) (i : ParamInfo) (n : Nat), accepts s p 0x101 = true ∧ requestParam s.ports[p].mbx.req = some (i, n))
    ∧ (∃ (s : State) (p : Port), accepts s p 0x103 = true ∧ mbxPay s.ports[p].mbx.req 0 1 = 2 ∧ mbxPay s.ports[p].mbx.req 4 4 <
        s.sys.progress.bytes.length)
    ∧ (∃ (s : State) (p : Port), accepts s p 0x150 = true ∧ mbxPay s.ports[p].mbx.req 0 1 = 1)
    ∧ (∃ (s : State) (p : Port), accepts s p 0x150 = true ∧ mbxPay s.ports[p].mbx.req 0 1 = 0)
    ∧ (∃ (s : State) (p : Port), accepts s p 0x151 = true ∧ mbxPay s.ports[p].mbx.req 0 1 = 0 ∧ mbxPay s.ports[p].mbx.req 4 4 <
        (s.ev.reel.flatMap blockBytes).length)
    ∧ (∃ (s : State) (p : Port), accepts s p 0x151 = true ∧ mbxPay s.ports[p].mbx.req 0 1 = 1 ∧ mbxPay s.ports[p].mbx.req 4 4 <
        s.ev.dropBytes.length)
    ∧ (∃ (s : State) (p : Port), accepts s p 0x151 = true ∧ mbxPay s.ports[p].mbx.req 0 1 = 2 ∧ mbxPay s.ports[p].mbx.req 4 4 <
        s.ev.dropBytes.length ∧ mbxPay s.ports[p].mbx.req 4 4 < 4 * Config.sources)
    ∧ (∃ (s : State) (p : Port) (b : BayNo) (c : TailCfg), accepts s p 0x152 = true ∧ targetBay s.ports[p].mbx.req = some b ∧
        tailCfgOf s.ports[p].mbx.req = some c ∧ c.trigger ≠ 0)
    ∧ (∃ (s : State) (p : Port) (b : BayNo) (i : Fin 2), accepts s p 0x153 = true ∧ targetBay s.ports[p].mbx.req = some b ∧ mbxPay
        s.ports[p].mbx.req 0 1 = i.val ∧ s.bays[b].srv.tails[i].running = false ∧ mbxPay s.ports[p].mbx.req 4 4 <
        (s.bays[b].srv.tails[i].bytes b i).length) :=
  ⟨⟨asks up 0x100 0 (64 * 2 ^ 384), 0, by decide +kernel⟩,
   ⟨asks up 0x101 0 Param.devModeReq, 0, infoModeReq, 8, by decide +kernel⟩,
   ⟨asks up 0x103 0 2, 0, by decide +kernel⟩,
   ⟨asks up 0x150 0 1, 0, by decide +kernel⟩,
   ⟨asks up 0x150 0 0, 0, by decide +kernel⟩,
   ⟨asks (up.onEv (fun e => { e with reel := [0] })) 0x151 0 0, 0, by decide +kernel⟩,
   ⟨asks up 0x151 0 1, 0, by decide +kernel⟩,
   ⟨asks up 0x151 0 2, 0, by decide +kernel⟩,
   ⟨asks up 0x152 7 (2 ^ 48 + 2 ^ 64), 0, 7,
     { stopOnFull := false, nodes := Vector.replicate 4 0, decimation := 1, trigger := 1, levelCh := 0, level := 0, eventOff := 0, pre := 0 },
     by decide +kernel⟩,
   ⟨asks up 0x153 0 0, 0, 0, 0, by decide +kernel⟩⟩

theorem wit_MailboxSettingsComplete :
    (∃ (s : State) (p : Port) (i : ParamInfo) (n : Nat), accepts s p 0x102 = true ∧ requestParam s.ports[p].mbx.req = some (i,
        n) ∧ ownRow (mbxPay s.ports[p].mbx.req 0 2) = false ∧ ownValue (mbxPay s.ports[p].mbx.req 0 2) (requestValue
        s.ports[p].mbx.req) = false ∧ i.range ≠ .long ∧ s.accepts i n (requestValue s.ports[p].mbx.req) = true)
    ∧ (∃ (s : State) (p : Port), accepts s p 0x104 = true ∧ (∀ k < 8, mbxPay s.ports[p].mbx.req k 1 ≤ 1))
    ∧ (∃ (s : State) (p : Port), accepts s p 0x120 = true ∧ mbxPay s.ports[p].mbx.req 0 4 = 0)
    ∧ (∃ (s : State) (p : Port) (d : Download), accepts s p 0x121 = true ∧ activateAction s.ports[p].mbx.req = 0 ∧ s.sys.download =
        some d ∧ d.complete = true ∧ d.discarded = false)
    ∧ (∃ (s : State) (p : Port) (b : BayNo), accepts s p 0x102 = true ∧ namesParam Param.afeCalReq s.ports[p].mbx.req = true ∧
        requestBay s.ports[p].mbx.req = some b ∧ 0 ≤ requestValue s.ports[p].mbx.req ∧ requestValue s.ports[p].mbx.req ≤ 0x1F)
    ∧ (∃ (s : State) (p : Port) (b : BayNo), accepts s p 0x102 = true ∧ namesParam Param.wrOpcReq s.ports[p].mbx.req = true ∧
        requestBay s.ports[p].mbx.req = some b ∧ 0 ≤ requestValue s.ports[p].mbx.req ∧ requestValue s.ports[p].mbx.req ≤
        0xFFFF)
    ∧ (∃ (s : State) (p : Port) (b : BayNo), accepts s p 0x102 = true ∧ namesParam Param.bayReturn s.ports[p].mbx.req = true ∧
        requestBay s.ports[p].mbx.req = some b ∧ requestValue s.ports[p].mbx.req = 1 ∧ s.bays[b].seq.st = .faulted ∧
        s.bays[b].seq.tray = false)
    ∧ (∃ (s : State) (p : Port), accepts s p 0x102 = true ∧ namesParam Param.hndReturn s.ports[p].mbx.req = true ∧ requestValue
        s.ports[p].mbx.req = 1)
    ∧ (∃ (s : State) (p : Port), accepts s p 0x102 = true ∧ namesParam Param.hndInClear s.ports[p].mbx.req = true ∧ 0 ≤ requestValue
        s.ports[p].mbx.req ∧ requestValue s.ports[p].mbx.req ≤ 0xFFF)
    ∧ (∃ (s : State) (p : Port), accepts s p 0x102 = true ∧ namesParam Param.stgStateClear s.ports[p].mbx.req = true ∧ requestValue
        s.ports[p].mbx.req = 1) :=
  ⟨⟨setsP up 0 Param.devRipcordHold 70, 0, infoHold, 8, by decide +kernel⟩,
   ⟨asks up 0x104 0 0x0101010101010101, 0, by decide +kernel⟩,
   ⟨asks up 0x120 0 0, 0, by decide +kernel⟩,
   ⟨asks (up.onSys (fun y => { y with download := some { bytes := image, complete := true, port := 0, discarded := false } }))
     0x121 0 0, 0, { bytes := image, complete := true, port := 0, discarded := false }, by decide +kernel, by decide +kernel,
     rfl, by decide +kernel, by decide +kernel⟩,
   ⟨setsP up 7 Param.afeCalReq 0x1F, 0, 7, by decide +kernel⟩,
   ⟨setsP up 7 Param.wrOpcReq 0xFFFF, 0, 7, by decide +kernel⟩,
   ⟨setsP (up.onSeq 0 (fun q => { q with st := .faulted })) 0 Param.bayReturn 1, 0, 0, by decide +kernel⟩,
   ⟨setsP up 0 Param.hndReturn 1, 0, by decide +kernel⟩,
   ⟨setsP up 0 Param.hndInClear 0xFFF, 0, by decide +kernel⟩,
   ⟨setsP up 0 Param.stgStateClear 1, 0, by decide +kernel⟩⟩

theorem wit_ModeRequestsComplete :
    (∃ (s : State) (p : Port), accepts s p 0x102 = true ∧ setsTo Param.devModeReq 7 s.ports[p].mbx.req = true ∧ s.sys.mode =
        .standalone)
    ∧ (∃ (s : State) (p : Port), accepts s p 0x102 = true ∧ setsTo Param.devModeReq 8 s.ports[p].mbx.req = true ∧ s.sys.mode.serving
        = true)
    ∧ (∃ (s : State) (p : Port), accepts s p 0x102 = true ∧ setsTo Param.devModeReq 12 s.ports[p].mbx.req = true ∧ s.sys.mode =
        .standalone)
    ∧ (∃ (s : State) (p : Port), accepts s p 0x102 = true ∧ setsTo Param.devModeReq 3 s.ports[p].mbx.req = true ∧ s.sys.mode =
        .diagnostic)
    ∧ (∃ s : State, s.sys.mode = .calibrate ∧ s.calibrationsDone = true) :=
  ⟨⟨setsP up 0 Param.devModeReq 7, 0, by decide +kernel⟩,
   ⟨setsP (inMode .paired) 0 Param.devModeReq 8, 0, by decide +kernel⟩,
   ⟨setsP up 0 Param.devModeReq 12, 0, by decide +kernel⟩,
   ⟨setsP (inMode .diagnostic) 0 Param.devModeReq 3, 0, by decide +kernel⟩,
   ⟨inMode .calibrate, by decide +kernel⟩⟩

theorem wit_DiagnosticTestsStart :
    ∃ (s : State) (p : Port) (i : Instr) (code : Int), (i, code) ∈ [(Instr.diagLaneLoopback p, (1 : Int)), (.diagDecoders p,
      2), (.diagDram p, 3), (.diagNand p, 4), (.diagTetherNear p, 5), (.diagTetherFar p, 6)] ∧ accepts s p 0x102 = true ∧
      setsTest code s.ports[p].mbx.req = true ∧ s.sys.mode = .diagnostic ∧ s.ev.diagState ≠ 1 ∧ diagWordOk (requestValue
      s.ports[p].mbx.req) = true :=
  ⟨setsP (inMode .diagnostic) 0 Param.evtDiagRun 0x3C0F06, 0, .diagTetherFar 0, 6, by decide +kernel⟩

theorem wit_VolumeRequestsComplete :
    (∃ (s : State) (p : Port), accepts s p 0x110 = true ∧ createModify s.ports[p].mbx.req = false ∧ s.vol? (mbxTarget
        s.ports[p].mbx.req) = none ∧ mbxTarget s.ports[p].mbx.req ≠ 0 ∧ mbxTarget s.ports[p].mbx.req ≠ 0xFFFF ∧ (∀ v ∈ s.vols,
        v.slot ≠ createSlot s.ports[p].mbx.req) ∧ (createSlot s.ports[p].mbx.req).toNat ≤ 0x3FF ∧ (createCode
        s.ports[p].mbx.req).toNat ≤ 3 ∧ s.vols.length < Config.maxVolumes)
    ∧ (∃ (s : State) (p : Port) (v : Volume), accepts s p 0x110 = true ∧ createModify s.ports[p].mbx.req = true ∧ s.vol? (mbxTarget
        s.ports[p].mbx.req) = some v ∧ (createCode s.ports[p].mbx.req).toNat ≤ 3)
    ∧ (∃ (s : State) (p : Port), accepts s p 0x111 = true ∧ (s.vol? (mbxTarget s.ports[p].mbx.req)).isSome = true ∧ s.undestaged
        (mbxTarget s.ports[p].mbx.req) = false ∧ s.mountedIn (mbxTarget s.ports[p].mbx.req) = none)
    ∧ (∃ (s : State) (p : Port) (run : MbxRun) (vid : VolId) (remap : Bool) (b : BayNo) (d : Disc), s.ports[p].mbx.run = some run ∧
        run.wait = .format vid false remap ∧ run.dropped = false ∧ s.sys.mode.serving = true ∧ s.mountedIn vid = some b ∧
        s.bays[b].seq.st = .ready ∧ s.bays[b].wp.mgmtDue = none ∧ s.bays[b].seq.unmounting = none ∧ s.bays[b].seq.disc = some
        d ∧ d.mgmt = none ∧ s.bays[b].rc.geometryFailed = false)
    ∧ (∃ (s : State) (p : Port), accepts s p 0x113 = true ∧ (s.sys.mode = .standalone ∨ s.sys.mode = .paired) ∧ (mbxPay
        s.ports[p].mbx.req 0 1 = 1 ∨ mbxPay s.ports[p].mbx.req 0 1 = 2) ∧ mbxPay s.ports[p].mbx.req 1 1 % 2 = 1)
    ∧ (∃ s : State, s.sys.mode = .sanitize ∧ s.sys.progress.op = 2 ∧ s.sys.progress.steps + 1 < s.sys.progress.total) :=
  ⟨⟨asks up 0x110 2 (1 + 2 ^ 16), 0, by decide +kernel⟩,
   ⟨asks up 0x110 1 (1 + 2 ^ 16 + 2 ^ 24), 0, vol, by decide +kernel⟩,
   ⟨asks up 0x111 1 0, 0, by decide +kernel⟩,
   ⟨(ready.onMbx 0 (fun m =>
     { m with busy := true, run := some { opcode := 0x112, target := 1, tag := 0, wait := .format 1 false false, dropped := false } })).onDisc
     0 (fun d => { d with mgmt := none }), 0,
     { opcode := 0x112, target := 1, tag := 0, wait := .format 1 false false, dropped := false }, 1, false, 0,
     { disc with mgmt := none }, by decide +kernel⟩,
   ⟨asks up 0x113 0 (1 + 2 ^ 8), 0, by decide +kernel⟩,
   ⟨(inMode .sanitize).onSys (fun y => { y with progress := { y.progress with op := 2, total := 4 } }), by decide +kernel⟩⟩

theorem wit_ActivationRequestsComplete :
    (∃ (s : State) (p : Port) (d : Download), accepts s p 0x121 = true ∧ s.sys.mode.serving = true ∧ activateAction
        s.ports[p].mbx.req = 1 ∧ s.sys.download = some d ∧ d.complete = true ∧ d.discarded = false ∧ (imageSlot d.bytes
        0).bayRev = s.sys.bayRev)
    ∧ (∃ (s : State) (p : Port), accepts s p 0x121 = true ∧ s.sys.mode.serving = true ∧ activateAction s.ports[p].mbx.req = 2 ∧
        s.flash.slots[1 - s.sys.runSlot].st ≠ .empty ∧ s.flash.slots[1 - s.sys.runSlot].bayRev = s.sys.bayRev)
    ∧ (∃ (s : State) (p : Port), s.ports[p].mbx.run = none ∧ s.ports[p].mbx.held = true ∧ s.mbxGate (mbxOpcode s.ports[p].mbx.req) ≠
        .hold ∧ mbxListed (mbxOpcode s.ports[p].mbx.req) = true) :=
  ⟨⟨asks (up.onSys (fun y => { y with download := some { bytes := image, complete := true, port := 0, discarded := false } }))
    0x121 0 1, 0, { bytes := image, complete := true, port := 0, discarded := false }, by decide +kernel, by decide +kernel,
    by decide +kernel, rfl, by decide +kernel, by decide +kernel, by decide +kernel⟩,
   ⟨asks (slotsValid up) 0x121 0 2, 0, by decide +kernel⟩,
   ⟨(asks up 0x102 0 0).onMbx 0 (fun m => { m with held := true }), 0, by decide +kernel⟩⟩

theorem wit_HandlerMovesComplete :
    (∃ (s : State) (x z th : Int), s.axisWithin 0 x = true ∧ s.axisWithin 1 z = true ∧ s.axisWithin 2 th = true ∧ s.mayMove =
        true ∧ s.hnd.axes[(0 : AxisNo)].homed = true ∧ s.hnd.axes[(1 : AxisNo)].homed = true ∧ s.hnd.axes[(2 : AxisNo)].homed
        = true)
    ∧ (∃ (s : State) (x z th : Int) (m : PathMove), s.hnd.path = some m ∧ s.axisWithin 0 x = true ∧ s.axisWithin 1 z = true ∧
        s.axisWithin 2 th = true)
    ∧ (∃ (s : State) (a : AxisNo) (x : Int), s.axisWithin a x = true ∧ s.mayMove = true ∧ s.hnd.axes[a].homed = true)
    ∧ (∃ (s : State) (a : AxisNo), s.mayMove = true ∧ s.nextHome = some a)
    ∧ (∃ (s : State) (a : AxisNo), s.hnd.path = none ∧ s.hnd.repeatDue = false ∧ s.hnd.axes[a].mode = .position ∧ (∀ c : AxisNo, c ≠
        a → s.hnd.axes[c].moving = false) ∧ s.axisStalls a (s.hnd.axes[a].period false) = false)
    ∧ (∃ (s : State) (a : AxisNo), s.hnd.axes[a].moving = false ∧ s.hnd.path = none ∧ s.hnd.axes[a].standstill = 3) :=
  ⟨⟨owns up, 100, 100, 100, by decide +kernel⟩,
   ⟨(owns up).onHnd (fun h => { h with path := some path0 }), 5, 5, 5, path0, by decide +kernel⟩,
   ⟨owns up, 3, 10, by decide +kernel⟩,
   ⟨(owns up).onAxis 1 (fun a => { a with homed := false }), 1, by decide +kernel⟩,
   ⟨(owns up).onAxis 1 (fun a =>
     { a with mode := .position, target := 1000, profile := ⟨100, 100, 100, 100, 100, 100, 100, 100⟩ }), 1, by decide +kernel⟩,
   ⟨up.onAxis 2 (fun a => { a with standstill := 3 }), 2, by decide +kernel⟩⟩

theorem wit_HandlerControlCompletes :
    (∃ (s : State) (p : Port), accepts s p 0x140 = true ∧ s.hnd.own = false ∧ s.pair.role.role ≠ 0 ∧ s.tetherLive = true)
    ∧ (∃ (s : State) (m : MoveDisc), s.sys.mode ≠ .off ∧ s.hnd.move = some m ∧ m.step = 8 ∧ m.awaitPeer = false ∧ m.stopped = false
        ∧ s.hnd.stopped = false ∧ s.hnd.repeatDue = false ∧ s.hnd.still = true ∧ s.hnd.own = true)
    ∧ (∃ (s : State) (i : InputNo) (v : Bool), s.sys.mode ≠ .off ∧ s.hnd.inputs[i].level ≠ v ∧ s.hnd.inputs[i].quiet = false)
    ∧ (∃ (s : State) (i : InputNo), s.sys.mode ≠ .off ∧ s.hnd.inputs[i].quiet = true ∧ s.hnd.inputs[i].level ≠
        s.hnd.inputs[i].reported)
    ∧ (∃ (s : State) (i : InputNo), s.sys.mode ≠ .off ∧ s.inActive i = true ∧ s.hnd.inputs[i].masked = false ∧ s.dn Param.hndInStuck
        ≠ 0)
    ∧ (∃ s : State, s.sys.mode ≠ .off ∧ s.hnd.stopped = true ∧ s.interlock = false ∧ s.hnd.still = true ∧ s.hnd.move = none ∧
        s.hnd.pathHeld = none)
    ∧ (∃ s : State, s.hnd.stopped = true ∧ s.hnd.move.isSome = true)
    ∧ (∃ s : State, s.hnd.own = false ∧ s.mayOwn = true)
    ∧ (∃ s : State, s.hnd.own = false ∧ s.mayOwn = true ∧ s.hnd.ownPeer = true)
    ∧ (∃ s : State, s.hnd.own = true)
    ∧ (∃ s : State, s.sys.mode ≠ .off ∧ s.hnd.releaseDue = true ∧ s.hnd.still = true ∧ s.hnd.own = true) :=
  ⟨⟨asks (paired up) 0x140 0 0, 0, by decide +kernel⟩,
   ⟨(owns up).onHnd (fun h => { h with move := some move8 }), move8, by decide +kernel⟩,
   ⟨up, 11, !up.hnd.inputs[11].level, by decide +kernel⟩,
   ⟨up.onInput 3 (fun x => { x with quiet := true, level := !x.reported }), 3, by decide +kernel⟩,
   ⟨up.onInput 0 (fun x => { x with level := true }), 0, by decide +kernel⟩,
   ⟨up.onHnd (fun h => { h with stopped := true }), by decide +kernel⟩,
   ⟨up.onHnd (fun h => { h with stopped := true, move := some move8 }), by decide +kernel⟩,
   ⟨up, by decide +kernel⟩,
   ⟨up.onHnd (fun h => { h with ownPeer := true }), by decide +kernel⟩,
   ⟨owns up, by decide +kernel⟩,
   ⟨(owns up).onHnd (fun h => { h with releaseDue := true }), by decide +kernel⟩⟩

theorem wit_TetherCompletes :
    (∃ s : State, s.tetherClock = true ∧ s.pair.link = .down ∧ s.pair.lanes ≠ 0)
    ∧ (∃ s : State, s.sys.mode ≠ .off ∧ s.pair.link = .training)
    ∧ (∃ s : State, s.pair.link = .training ∧ s.pair.failed + 1 < 3)
    ∧ (∃ (s : State) (bytes : List Byte), s.pair.link = .up ∧ flitGood bytes = true ∧ flitListed (bytes.headD 0) = true ∧
        bytes.headD 0 ≠ 0 ∧ ofLeBytes ((bytes.drop 2).take 2) = s.pair.expected.toNat ∧ s.pair.replays = 0)
    ∧ (∃ s : State, s.pair.link = .up)
    ∧ (∃ s : State, s.pair.link = .up ∧ s.pair.peerOk = true ∧ s.sys.parking = false ∧ s.sys.parked = false)
    ∧ (∃ s : State, s.pair.hbLive = true)
    ∧ (∃ (s : State) (v : Bool) (n : Nat), s.pair.peerOkIn ≠ v ∧ s.dn Param.pairPeerOkFilter ≤ n)
    ∧ (∃ s : State, s.pair.peerOkIn = true) :=
  ⟨⟨up.onPair (fun p => { p with link := .down, lanes := 0xF }), by decide +kernel⟩,
   ⟨up.onPair (fun p => { p with link := .training, lanes := 0xF }), by decide +kernel⟩,
   ⟨up.onPair (fun p => { p with link := .training, failed := 1 }), by decide +kernel⟩,
   ⟨paired up, flitOf (paired up).pair.expected 0x10 [1, 2], by decide +kernel⟩,
   ⟨(paired up).onPair (fun p =>
     { p with unacked := [(1, { kind := 0x10, last := true, payload := [] }), (2, { kind := 0x10, last := true, payload := [] }), (3, { kind := 0x10, last := true, payload := [] })] }),
     by decide +kernel⟩,
   ⟨(paired up).onPair (fun p => { p with peerOk := true }), by decide +kernel⟩,
   ⟨paired up, by decide +kernel⟩,
   ⟨up.onPair (fun p => { p with peerOkIn := false }), true, 1000000, by decide +kernel⟩,
   ⟨up.onPair (fun p => { p with peerOkIn := true, brokenWire := true }), by decide +kernel⟩⟩

theorem wit_TakeoverCompletes :
    (∃ (s : State) (k : Takeover), s.sys.mode = .takeover ∧ s.pair.takeover = some k ∧ k.roleWritten = false)
    ∧ (∃ (s : State) (k : Takeover), s.sys.mode = .takeover ∧ s.pair.takeover = some k ∧ k.roleWritten = true ∧ k.committed = false)
    ∧ (∃ (s : State) (k : Takeover), s.sys.mode = .takeover ∧ s.pair.takeover = some k ∧ k.committed = true ∧ k.resolved = false)
    ∧ (∃ (s : State) (k : Takeover), s.sys.mode = .takeover ∧ s.pair.takeover = some k ∧ k.resolved = true)
    ∧ (∃ s : State, s.sys.mode = .pairedDegraded ∧ s.pair.peerOkIn = false) :=
  ⟨⟨(paired (inMode .takeover)).onPair (fun p => { p with takeover := some ⟨false, false, false⟩ }), ⟨false, false, false⟩,
    by decide +kernel⟩,
   ⟨(paired (inMode .takeover)).onPair (fun p => { p with takeover := some ⟨true, false, false⟩ }), ⟨true, false, false⟩,
     by decide +kernel⟩,
   ⟨(paired (inMode .takeover)).onPair (fun p => { p with takeover := some ⟨true, true, false⟩ }), ⟨true, true, false⟩,
     by decide +kernel⟩,
   ⟨(paired (inMode .takeover)).onPair (fun p => { p with takeover := some ⟨true, true, true⟩ }), ⟨true, true, true⟩,
     by decide +kernel⟩,
   ⟨inMode .pairedDegraded, by decide +kernel⟩⟩

theorem wit_PairMessagesComplete :
    (∃ (s : State) (vid : VolId) (u : Nat), s.pair.link = .up ∧ s.sys.mode = .paired ∧ s.pair.uncommitted = [] ∧ s.roomFor vid
        u = true ∧ (s.ballastTake tetherOwner 65536).2.isSome = true)
    ∧ (∃ (s : State) (vid : VolId), s.pair.link = .up ∧ s.vol? vid = none)
    ∧ (∃ s : State, s.pair.link = .up ∧ s.hnd.move = none)
    ∧ (∃ (s : State) (f : ForwardCmd) (v : Volume), s.pair.link = .up ∧ s.inPair = true ∧ f.opcode ≠ 0x40 ∧ s.vol? f.vid = some v ∧
        v.ownPeer = false)
    ∧ (∃ (s : State) (c : CmdId) (x : Cmd), s.pair.link = .up ∧ s.cmd? c = some x ∧ x.wait = .forwarded ∧ s.sys.mode ≠ .ripcord) :=
  ⟨⟨paired (buffered (inMode .paired)), 1, 0, by decide +kernel, by decide +kernel, by decide +kernel, by decide +kernel, by
    rw [ballastTake_one _ tetherOwner 65536 2 0 (by decide +kernel) (by decide +kernel) (by decide +kernel)
    (by decide +kernel)]; rfl⟩,
   ⟨paired (inMode .paired), 2, by decide +kernel⟩,
   ⟨paired (inMode .paired), by decide +kernel⟩,
   ⟨paired (inMode .paired), { id := ⟨true, 0, 0, 3⟩, opcode := 1, flags := 0, vid := 1, lba := 0, count := 1, data := [] },
     vol, by decide +kernel⟩,
   ⟨with1 (paired (inMode .paired)) { cmd 1 with wait := .forwarded }, cid, { cmd 1 with wait := .forwarded },
     by decide +kernel⟩⟩

theorem wit_PairMembershipCompletes :
    (∃ (s : State) (p : Port) (j : JoinPeer), accepts s p 0x130 = true ∧ s.tetherLive = true ∧ mbxPay s.ports[p].mbx.req 0 4 =
        0 ∧ s.pair.awaiting = false ∧ j.standalone = true ∧ j.acceptJoin = true ∧ j.releaseMajor.toNat = field s.sys.release
        24 8 ∧ j.releaseMinor.toNat = field s.sys.release 16 8 ∧ (∀ v ∈ s.vols, v.ownPeer = false → v.vid ∉ j.volumes) ∧
        s.vols.length + j.volumes.length ≤ Config.maxVolumes)
    ∧ (∃ (s : State) (p : Port) (h : Heartbeat), accepts s p 0x131 = true ∧ mbxPay s.ports[p].mbx.req 0 1 % 2 = 0 ∧ s.tetherLive =
        true ∧ s.sys.mode = .paired ∧ s.pair.peerHb = some h ∧ h.mode = .paired ∧ (∀ c ∈ s.cmds, c.wait ≠ .forwarded))
    ∧ (∃ (s : State) (p : Port), accepts s p 0x131 = true ∧ mbxPay s.ports[p].mbx.req 0 1 % 2 = 1 ∧ s.sys.mode = .pairedDegraded)
    ∧ (∃ (s : State) (p : Port), accepts s p 0x131 = true ∧ mbxPay s.ports[p].mbx.req 0 1 % 4 = 3 ∧ s.sys.mode = .standalone ∧
        s.tetherLive = false)
    ∧ (∃ s : State, s.sys.mode ≠ .off ∧ s.pair.resync = some .tether ∧ s.tetherLive = true)
    ∧ (∃ s : State, s.sys.mode ≠ .off ∧ s.pair.resync = some .join)
    ∧ (∃ s : State, s.sys.mode = .standalone ∧ s.tetherLive = true ∧ s.pair.resync = some .join)
    ∧ (∃ (s : State) (r : RejoinPeer), s.pair.awaiting = true ∧ s.sys.mode = .standalone ∧ s.tetherLive = true ∧ r.mode =
        .standalone ∧ r.hasRecord = false)
    ∧ (∃ s : State, s.tetherLive = true ∧ s.sys.mode = .pairedDegraded) :=
  ⟨⟨asks (up.onPair (fun p => { p with link := .up, hbLive := true })) 0x130 0 0, 0,
    { identity := 7, standalone := true, acceptJoin := true, releaseMajor := 0, releaseMinor := 0, volumes := [2], sequence := 3 },
    by decide +kernel⟩,
   ⟨asks ((paired (inMode .paired)).onPair (fun p => { p with peerHb := some hb })) 0x131 0 0, 0, hb, by decide +kernel⟩,
   ⟨asks (paired (inMode .pairedDegraded)) 0x131 0 1, 0, by decide +kernel⟩,
   ⟨asks (up.onFlash (fun f => { f with pairRecord := some { role := 1, peer := 7, seq := 5 } })) 0x131 0 3, 0,
     by decide +kernel⟩,
   ⟨(paired (inMode .paired)).onPair (fun p => { p with resync := some .tether, degraded := true }), by decide +kernel⟩,
   ⟨(paired up).onPair (fun p => { p with resync := some .join }), by decide +kernel⟩,
   ⟨(paired up).onPair (fun p => { p with resync := some .join }), by decide +kernel⟩,
   ⟨(paired up).onPair (fun p => { p with awaiting := true }),
     { mode := .standalone, sequence := 4, hasRecord := false, volumes := [] }, by decide +kernel⟩,
   ⟨paired (inMode .pairedDegraded), by decide +kernel⟩⟩

theorem wit_ReceiversComplete :
    (∃ (s : State) (b : BayNo) (r : RecvNo), s.dspRuns = true ∧ s.sys.mode ≠ .off ∧ (s.bays[b].afe.recv r).usable = true)
    ∧ (∃ (s : State) (b : BayNo) (n : Beam), s.sys.mode ≠ .off ∧ s.bays[b].afe.subst = some n)
    ∧ (∃ (s : State) (b : BayNo) (n : Beam) (windows : List (List CalPart)) (c : CalRun) (first final : Trim), s.dspRuns = true ∧
        s.sys.mode ≠ .off ∧ s.bays[b].afe.retryRecv = some (beamRecv n) ∧ (s.bays[b].afe.beginRun n (beamRecv n) 5).through
        (s.bp b Param.afeGainTarget) (s.bn b Param.afeCalWindow) windows = some (c, first, final) ∧ c.recv = beamRecv n ∧
        c.accepted first final = true) :=
  ⟨⟨ready, 0, 4, by decide +kernel⟩,
   ⟨ready.onAfe 0 (fun a => { a with subst := some 2 }), 0, 2, by decide +kernel⟩,
   ⟨retryable, 0, 2, windows4 ++ windows4, retried.1, retried.2.1, retried.2.2, by decide +kernel⟩⟩

theorem wit_CalibrationCompletes :
    (∃ (s : State) (b : BayNo), calibratesIn s.bays[b].seq.st = true ∧ s.bays[b].seq.st ≠ .writing ∧ s.bays[b].afe.cal = none
        ∧ s.bays[b].afe.subst = none ∧ s.bays[b].afe.reliefFree = true ∧ s.bays[b].afe.slotDue 0 = true)
    ∧ (∃ (s : State) (b : BayNo) (c : CalRun), s.bays[b].afe.cal = some c ∧ c.step = 1)
    ∧ (∃ (s : State) (b : BayNo) (l : Beam) (c : CalRun), s.bays[b].afe.cal = some c ∧ c.beam = l ∧ c.step = 4 ∧ s.bays[b].slotWaits
        l = false)
    ∧ (∃ (s : State) (b : BayNo) (c : CalRun) (w : List CalPart) (v dir : Int) (n : Nat), s.dspRuns = true ∧ s.bays[b].afe.cal =
        some c ∧ (c.step = 2 ∨ c.step = 5) ∧ s.bays[b].seq.st ≠ .seeking ∧ s.bays[b].seq.st ≠ .layerJump ∧ s.bays[b].slotWaits
        c.beam = false ∧ windowDone (s.bn b Param.afeCalWindow) c.trimIx w = true ∧ search c.trimIx (c.cur.get c.trimIx) c.dir
        c.steps c.prev (windowError (s.bp b Param.afeGainTarget) c.trimIx w) = .more v dir n) :=
  ⟨⟨ready.onRecv 0 0 (fun r => { r with due := true }), 0, by decide +kernel⟩,
   ⟨ready.onAfe 0 (fun a => { a with cal := some calRun }), 0, calRun, by decide +kernel⟩,
   ⟨ready.onAfe 0 (fun a => { a with cal := some { calRun with step := 4 } }), 0, 0, { calRun with step := 4 },
     by decide +kernel⟩,
   ⟨ready.onAfe 0 (fun a => { a with cal := some { calRun with step := 2 } }), 0, { calRun with step := 2 }, [⟨0, 256⟩,
     ⟨-4096000000, 4096⟩], 1, 1, 1, by decide +kernel⟩⟩

theorem wit_ReadChannelCompletes :
    (∃ (s : State) (b : BayNo) (l : Beam) (read : ClusterAddr), s.dspRuns = true ∧ s.bays[b].laneReads l = true ∧
        (s.bays[b].dec.entryAt read).isSome = true)
    ∧ (∃ (s : State) (b : BayNo) (l : Beam) (xs : List (BitVec 8)), 
        let u := s.sampled b l xs
        s.dspRuns = true ∧ u.bays[b].rc.lanes[l].phase = .searching ∧ u.bays[b].rc.lanes[l].par.preDetect ≤
        u.bays[b].rc.lanes[l].data.matched)
    ∧ (∃ (s : State) (b : BayNo) (l : Beam) (xs : List (BitVec 8)) (q : Int) (d : Nat), 
        let u := s.sampled b l xs
        let x := u.bays[b].rc.lanes[l]
        s.dspRuns = true ∧ x.phase = .locked ∧ x.cold = false ∧ x.frame < 384 ∧ x.prediction + x.par.syncWin + 40 ≤
        x.data.softCount ∧ (∀ i < 40, flagged x.data.erased (x.prediction + (i : Nat)) = false) ∧ syncSearch (x.data.hardFrom
        (x.prediction - x.par.syncWin) (2 * x.par.syncWin + 40)) x.frame x.par.syncWin x.par.syncThr = some (q, d))
    ∧ (∃ (s : State) (b : BayNo) (l : Beam) (xs : List (BitVec 8)), 
        let u := s.sampled b l xs
        s.dspRuns = true ∧ s.sys.mode ≠ .off ∧ u.bays[b].rc.lanes[l].phase = .locked ∧ u.bays[b].rc.lanes[l].data.atBound =
        true)
    ∧ (∃ (s : State) (b : BayNo) (l : Beam) (xs : List (BitVec 8)), 
        let u := s.sampled b l xs
        s.dspRuns = true ∧ s.bays[b].seq.st ≠ .writing ∧ 0 < u.bays[b].rc.lanes[l].released ∧ u.recordReady b
        u.bays[b].rc.lanes[l] = true)
    ∧ (∃ (s : State) (b : BayNo) (l : Beam) (xs : List (BitVec 8)), 
        let u := s.sampled b l xs
        s.dspRuns = true ∧ u.bays[b].rc.lanes[l].phase = .locked ∧ u.bays[b].rc.lanes[l].ended = true)
    ∧ (∃ (s : State) (b : BayNo) (l : Beam) (xs : List (BitVec 8)) (start n : Nat) (rest : List (Nat × Nat)), 
        let u := s.sampled b l xs
        s.dspRuns = true ∧ s.sys.mode ≠ .off ∧ u.bays[b].rc.lanes[l].data.dropouts = (start, n) :: rest)
    ∧ (∃ (s : State) (b : BayNo), s.rootRuns = true ∧ s.sys.mode ≠ .off ∧ s.bays[b].rc.sumDefect = true ∧ s.bays[b].rc.sumLong =
        false ∧ 2 * s.bn b Param.rdchDefectWin < 5 * s.bays[b].rc.sumPeriods) :=
  ⟨⟨opened .reading entry, 0, 1, homeOf 0, by decide +kernel⟩,
   ⟨laneData (laneIn .searching 0 0) (fun d => { d with matched := 5000 }), 0, 1, [], by dsimp only; decide +kernel⟩,
   ⟨syncLane, 0, 1, [], 0, 0, by dsimp only; decide +kernel⟩,
   ⟨laneData (laneIn .locked 5 0) (fun d => { d with freq := timingBound }), 0, 1, [], by dsimp only; decide +kernel⟩,
   ⟨(laneIn .lost 384 383).onLane 0 1 (fun l => { l with lossFrame := some 10 }), 0, 1, [], by dsimp only; decide +kernel⟩,
   ⟨((laneIn .locked 384 384).onLane 0 1 (fun l =>
     { l with syncs := [{ frame := 383, position := 0, offset := 0, distance := 0, inserted := false }] })).onLane 0 1 (fun l
     => { l with data := { l.data with count := 2400 } }), 0, 1, [], by dsimp only; decide +kernel⟩,
   ⟨laneData (laneIn .locked 9 0) (fun d => { d with dropouts := [(383, 9)] }), 0, 1, [], 383, 9, [],
     by dsimp only; decide +kernel⟩,
   ⟨ready.onRc 0 (fun r => { r with sumDefect := true, sumPeriods := 100000 }), 0, by decide +kernel⟩⟩

theorem wit_DecodingCompletes :
    (∃ (s : State) (d : DecNo) (c : Codeword), s.dspRuns = true ∧ s.pool.decs[d].inService = true ∧
        s.pool.decs[d].input.length < 2 ∧ s.nextCodeword d = some c)
    ∧ (∃ (s : State) (d : DecNo) (c : Codeword) (rest : List Codeword), s.dspRuns = true ∧ s.pool.decs[d].input = c :: rest ∧
        s.pool.decs[d].holding.length < 2)
    ∧ (∃ (s : State) (d : DecNo) (r : DecodeResult) (rest : List DecodeResult), s.dspRuns = true ∧ s.pool.nextResult = some d ∧
        s.pool.decs[d].holding = r :: rest ∧ r.converged = false)
    ∧ (∃ (s : State) (b : BayNo) (i : Fin 128) (e : Entry), s.dspRuns = true ∧ lookupKey s.bays[b].dec.entries i.val = some e ∧
        e.decided = true ∧ e.cls = .demand ∧ e.ran = false ∧ e.isVerify = false ∧ (∀ k < 36, (e.checked k).isGood = true))
    ∧ (∃ (s : State) (b : BayNo) (i : Fin 128) (e : Entry), s.sys.mode ≠ .off ∧ lookupKey s.bays[b].dec.entries i.val = some e ∧
        e.cls = .demand ∧ e.isVerify = false ∧ e.frames = 384 ∧ e.complete = false ∧ e.late = false ∧ e.reread = 0)
    ∧ (∃ (s : State) (b : BayNo) (i : Fin 128) (e : Entry) (n : Nat), s.dspRuns = true ∧ s.sys.mode ≠ .off ∧ lookupKey
        s.bays[b].dec.entries i.val = some e ∧ e.cls = .retry ∧ e.stage = .summed n ∧ e.decided = true ∧ stepPasses e.ladder ≤
        n + 1)
    ∧ (∃ (s : State) (b : BayNo) (i : Fin 128) (e : Entry), s.dspRuns = true ∧ lookupKey s.bays[b].dec.entries i.val = some e ∧
        e.cls = .retry ∧ e.stage = .idle ∧ s.stepAllowed b (s.nextStep b e.ladder) = true ∧ 0 < stepPasses (s.nextStep b
        e.ladder))
    ∧ (∃ (s : State) (b : BayNo) (a : ClusterAddr) (n : Nat), s.bays[b].dec.updraftFrom = some (a, n) ∧ s.bays[b].mounted = true ∧
        s.bays[b].seq.unmounting = none ∧ s.bays[b].seq.demand = [] ∧ s.bays[b].wp.jobs = [] ∧ s.bays[b].wp.run = none ∧
        s.sys.mode.serving = true ∧ s.bn b Param.decUpdEnable = 1 ∧ 0 < n ∧ s.atMinimum 2 (bayOwner b) = false ∧ (∀ e ∈
        s.bays[b].dec.entries, e.2.cls ≠ .demand)) :=
  ⟨⟨(ready.onPool (fun p => { p with waiting := [codeword] })).onDecoder 15 (fun d => { d with inService := true }), 15,
    codeword, by decide +kernel⟩,
   ⟨ready.onDecoder 0 (fun d => { d with input := [codeword] }), 0, codeword, [], by decide +kernel⟩,
   ⟨ready.onDecoder 3 (fun d => { d with holding := [result false] }), 3, result false, [], by decide +kernel⟩,
   ⟨opened .reading { entry with cws := Vector.replicate 36 (.good ⟨0⟩) }, 0, 0,
     { entry with cws := Vector.replicate 36 (.good ⟨0⟩) }, by decide +kernel⟩,
   ⟨opened .reading entry, 0, 0, entry, by decide +kernel⟩,
   ⟨opened .reading { entry with cls := .retry, ladder := 3, stage := .summed 0 }, 0, 0,
     { entry with cls := .retry, ladder := 3, stage := .summed 0 }, 0, by decide +kernel⟩,
   ⟨opened .reading { entry with cls := .retry, ladder := 2 }, 0, 0, { entry with cls := .retry, ladder := 2 },
     by decide +kernel⟩,
   ⟨(buffered ready).onDec 0 (fun d => { d with updraftFrom := some (homeOf 5, 3) }), 0, homeOf 5, 3, by decide +kernel⟩⟩

theorem wit_LaserDriverCompletes :
    (∃ (s : State) (b : BayNo) (req : LdlReq), req.write = true ∧ (s.bays[b].wp.gate = false ∨ ¬ (0x11 ≤ req.reg.toNat ∧
        req.reg.toNat ≤ 0x14)))
    ∧ (∃ (req : LdlReq) (answer : BitVec 32), req.write = false ∧ req.reg = 0 ∧ answerOk req answer = true)
    ∧ (∃ (s : State) (b : BayNo), s.bays[b].seq.st ≠ .empty)
    ∧ (∃ (s : State) (b : BayNo) (found : Option Int), s.bays[b].seq.st = .writing ∧ (∀ d, found = some d → s.bn b
        Param.wrSyncLossWin < d.natAbs) ∧ (∀ x, s.bays[b].wp.cutTime = some x → x.toNat + 2 < s.sys.time.toNat)) :=
  ⟨⟨ready, 0, { write := true, reg := 0x11, data := 5 }, by decide +kernel⟩,
   ⟨{ write := false, reg := 0, data := 0 }, ldlFrame { write := false, reg := 0, data := 0 }, by decide +kernel⟩,
   ⟨ready, 0, by decide +kernel⟩,
   ⟨(bayIn .writing).onWp 0 (fun w => { w with gate := true, run := some run, jobs := [job] }), 0, none, by decide +kernel,
     (fun d h => by cases h), (fun x h => by cases (show (none : Option (BitVec 64)) = some x from h))⟩⟩

theorem wit_WriteRunCompletes_0 :
    ∃ (s : State) (b : BayNo) (prior : List (ClusterAddr × Option ClusterRead)) (j : DestageJob) (js : List DestageJob) (x :
      WriteItem) (xs : List WriteItem) (v : State) (bufs : List (ClusterAddr × BitVec 32)) (items rest : List WriteItem), 
        let u := (s.onWp b (fun w => w.queueRewrites)).preRead b prior
        s.bays[b].seq.st = .ready ∧ s.mayWrite b = true ∧ s.bays[b].wp.run = none ∧ s.bays[b].seq.position = false ∧
      s.bays[b].srv.move = none ∧ u.bays[b].wp.jobs = j :: js ∧ j.todo = x :: xs ∧ s.bays[b].clockReady (addrLayer x.home)
      (addrTurn x.home) = true ∧ u.layerReady b (addrLayer x.home) (zoneOfTurn (addrTurn x.home)) = true ∧ u.takeTurn b
      (addrLayer x.home) (addrTurn x.home) j.todo = (v, bufs, items, rest) ∧ items ≠ [] :=
  ⟨burnAt, 0, [], job, [], item, [], turnOf.1, turnOf.2.1, turnOf.2.2.1, turnOf.2.2.2, by decide +kernel, by decide +kernel,
    by decide +kernel, by decide +kernel, by decide +kernel, by decide +kernel, by decide +kernel, by decide +kernel, by decide +kernel,
    parts4 turnOf, by rw [turn_items]; decide⟩

theorem wit_WriteRunCompletes_1 :
    ∃ (s : State) (b : BayNo) (r : WriteRun) (x : WriteItem) (i : Nat) (o : VerifyRead) (j : DestageJob) (js : List
      DestageJob), s.bays[b].seq.st = .writing ∧ s.bays[b].wp.run = some r ∧ s.bays[b].verified r.unjudged = some (x, i, o) ∧
      s.bays[b].wp.jobs = j :: js ∧ s.missedLimit b o = none :=
  ⟨verifies writtenCw, 0, run, item, 0, (verifyEntry writtenCw).measured tally, job, [], by decide +kernel, by decide +kernel, rfl,
    by decide +kernel, written_passes⟩

theorem wit_WriteRunCompletes :
    (∃ (s : State) (b : BayNo) (r : WriteRun) (x : WriteItem) (i : Nat) (o : VerifyRead) (k : Nat), s.sys.mode ≠ .off ∧
        s.bays[b].seq.st = .writing ∧ s.bays[b].wp.run = some r ∧ s.bays[b].verified r.unjudged = some (x, i, o) ∧
        s.missedLimit b o = some k)
    ∧ (∃ (s : State) (b : BayNo) (r : WriteRun), s.bays[b].seq.st = .writing ∧ s.bays[b].wp.run = some r ∧ r.finalRev = true)
    ∧ (∃ (s : State) (b : BayNo), s.bays[b].seq.st = .ready ∧ s.bays[b].laneHasReceiver 1 = true ∧ s.bays[b].mounted = true) :=
  ⟨⟨verifies (fun _ => .failed), 0, run, item, 0, (verifyEntry (fun _ => .failed)).measured tally, 4, by decide +kernel⟩,
   ⟨(mayBurn .writing).onWp 0 (fun w => { w with gate := true, run := some { run with finalRev := true } }), 0,
     { run with finalRev := true }, by decide +kernel⟩,
   ⟨(mayBurn .ready).onWp 0 (fun w => { w with unverified := [item] }), 0, by decide +kernel⟩⟩

theorem wit_WriteSupportCompletes_0 :
    ∃ (s : State) (b : BayNo) (x : ReplItem) (d : Disc) (m : MgmtSet) (r : ClusterRead), 
        let s0 := s.onWp b (fun w => w.queueRewrites)
        let s1 := s0.onWp b (fun w => { w with replQueue := [x] })
        let a := ordinalAddr m.nextOrdinal
        let s2 := ((s1.onMgmt b (fun q => { q with nextOrdinal := m.nextOrdinal + 1 })).loadPowers b (addrLayer a) (zoneOfTurn
      (addrTurn a))).record b a (s1.itemBits b a x.item)
        s.bays[b].seq.st = .ready ∧ s.mayWrite b = true ∧ s.bays[b].wp.run = none ∧ s0.bays[b].wp.replQueue = [x] ∧ x.cause ≠
      2 ∧ s.bays[b].seq.disc = some d ∧ d.mgmt = some m ∧ d.unclean = false ∧ (x.cause = 3 → rewriteAllowed m.nextOrdinal =
      true) ∧ m.nextOrdinal < ordinals ∧ 0 < s.bn b Param.wrReplTries ∧ (s2.verdict b (addrLayer a) (s2.measure b a
      (s2.bays[b].itemMeta x.item) (s2.itemWords b x.item) r)).2 = true :=
  ⟨replS, 0, replItem, disc, mset, replRead, by decide +kernel, by decide +kernel, by decide +kernel, by decide +kernel,
    by decide +kernel, by decide +kernel, by decide +kernel, by decide +kernel, by decide +kernel, by decide +kernel, by decide +kernel,
    replacement_passes⟩

theorem wit_WriteSupportCompletes_1 :
    ∃ (s : State) (b : BayNo) (layer : LayerNo) (outer : Bool) (probes : List Bool × List Bool) (tries : List WriteTry) (f :
      Rat) (c : Option Rat), 
        let p := s.testPointers b layer probes
        let used := if outer then p.1.2 else p.1.1
        let prev : Rat := ((if outer then s.bays[b].wp.kappaOut[layer] else s.bays[b].wp.kappaIn[layer] : Nat) : Rat) / 4096
        let n := s.bn b Param.wrOpcSteps
        let span := s.bn b Param.wrOpcSpan
        s.mayCalibrate b = true ∧ used + n ≤ (testArea outer).2 ∧ s.levelsOk b layer outer (stepFactor prev span n (n - 1)) =
      true ∧ judgeRun prev span n (s.berLimit b) (p.2.runSteps b layer outer used prev span n tries).2 = (some f, c) :=
  ⟨burnSet, 0, 3, false, ([], []), opcTries, stepFactor 1 (burnSet.bn 0 Param.wrOpcSpan) (burnSet.bn 0 Param.wrOpcSteps) 5,
    none, by decide +kernel, by decide +kernel, by decide +kernel, by decide +kernel⟩

theorem wit_WriteSupportCompletes_2 :
    ∃ (s : State) (b : BayNo) (layer : LayerNo) (probes : List Bool × List Bool) (first : Vector (Option LaneRead) 4) (outer :
      Bool) (start n : Nat), 
        let off := s.geometryOffsets b first
        s.bays[b].seq.st = .ready ∧ s.mayWrite b = true ∧ 256 ≤ s.bays[b].wp.clockGood ∧ geometryPlace (s.testPointers b layer
      probes).1 = some (outer, start, n) ∧ (off[0]).isSome = true ∧ (off[2]).isSome = true :=
  ⟨geoS, 0, 3, ([], []), geoReads, false, 0, 24, by decide +kernel, by decide +kernel, by decide +kernel, by decide +kernel,
    by rw [geo_offsets]; rfl, by rw [geo_offsets]; rfl⟩

theorem wit_WriteSupportCompletes_3 :
    ∃ (s s1 s2 : State) (b : BayNo) (tries1 tries2 : List WriteTry) (d : Disc) (m : MgmtSet) (j : DestageJob) (js : List
      DestageJob) (u1 u2 : Nat), 
        let next := nextSet d m false j.written
        s.bays[b].seq.st = .ready ∧ s.bays[b].wp.mgmtDue = some .destage ∧ s.bays[b].wp.replQueue = [] ∧ s.bays[b].seq.disc =
      some d ∧ d.mounted = true ∧ d.mgmt = some m ∧ d.readOnly = false ∧ s.bays[b].wp.jobs = j :: js ∧ setFit (setClusters
      next) d.used1 d.used2 = .fits ∧ State.writeCopy b next false tries1 0 d.used1 (s.onWp b (fun w =>
      { w with mgmtDue := none })) = (s1, u1, .whole) ∧ State.writeCopy b next true tries2 0 d.used2 s1 = (s2, u2, .whole) :=
  by
  obtain ⟨t1, h1, q1⟩ := writeCopy_clean (setS.onWp 0 (fun w => { w with mgmtDue := none })) 0 setNext false 1 mgmtField1
    (by decide +kernel) (by decide +kernel) mgmtField1_reads (by decide +kernel)
  obtain ⟨t2, h2, -⟩ := writeCopy_clean t1 0 setNext true 1 mgmtField2 (by decide +kernel) (by decide +kernel) mgmtField2_reads
    (by rw [infoAgrees_congr _ _ (q1 0)]; decide +kernel)
  have e1 : State.writeCopy 0 (nextSet disc mset false ({ job with todo := [] } : DestageJob).written) false (setTry mgmtField1 false) 0
      disc.used1 (setS.onWp 0 (fun w => { w with mgmtDue := none })) = (t1, 2, .whole) := h1
  have e2 : State.writeCopy 0 (nextSet disc mset false ({ job with todo := [] } : DestageJob).written) true (setTry mgmtField2 true) 0
      disc.used2 t1 = (t2, 2, .whole) := h2
  refine ⟨setS, t1, t2, 0, setTry mgmtField1 false, setTry mgmtField2 true, disc, mset, { job with todo := [] }, [], 2, 2,
    ?_, ?_, ?_, ?_, ?_, ?_, ?_, ?_, ?_, e1, e2⟩
  all_goals decide +kernel

theorem wit_ServoPeriodsComplete :
    (∃ s : State, s.rootRuns = true)
    ∧ (∃ (s : State) (b : BayNo) (o : ServoObs), 
        let u := ((((s.takePeriod fastParams b).onSrv b (fun v => { v with cycle := o.cycle.val })).takeSamples b o).sumPeriod
        b).rampPeriod b
        let x := u.bays[b].srv.focus
        let gain : Rat := if 0 < x.boost then (u.bp b Param.srvLandBoost : Rat) / 16 else 1
        let law := Config.servoLaw 0 (u.bn b Param.srvFocXover) (u.bn b Param.srvFocKa) x.filter x.integ (u.focusErr b * gain)
        s.rootRuns = true ∧ s.bays[b].sHeld = false ∧ u.bays[b].srv.parked = false ∧ u.bays[b].srv.ramp = none ∧ x.closed =
        true ∧ x.lull = none ∧ x.outs.length < 63 ∧ u.bays[b].srv.hold = none ∧ o.complete = 0xFF ∧ o.focusOnTime = true)
    ∧ (∃ (s : State) (b : BayNo), 
        let u := s.takePeriod [Param.srvTiltXover, Param.srvTiltKs] b
        let x := u.bays[b].srv.tilt
        let gain : Rat := if 0 < x.boost then (u.bp b Param.srvLandBoost : Rat) / 16 else 1
        let law := Config.servoLaw 2 (u.bn b Param.srvTiltXover) (u.bn b Param.srvTiltKs) x.filter x.integ (u.tiltErr b *
        gain)
        s.rootRuns = true ∧ s.bays[b].sHeld = false ∧ x.closed = true ∧ u.bays[b].srv.hold = none ∧ x.outs.length < 63)
    ∧ (∃ (s : State) (b : BayNo), 
        let u := s.takePeriod [Param.srvSledKp, Param.srvSledDeadband] b
        s.rootRuns = true ∧ s.bays[b].sHeld = false ∧ s.bays[b].sld.homed = true ∧ s.bays[b].srv.sled.closed = true ∧
        s.bays[b].srv.sled.lull = none ∧ s.bays[b].srv.tracking.lull = none)
    ∧ (∃ (s : State) (b : BayNo) (l : LoopId), s.rootRuns = true ∧ s.sys.mode ≠ .off ∧ (s.bays[b].srv.loop l).closed = true ∧
        (s.bays[b].srv.loop l).consecutive < 2) :=
  ⟨⟨ready, by decide +kernel⟩,
   ⟨ready, 0, servoObs, by dsimp only; decide +kernel⟩,
   ⟨ready, 0, by dsimp only; decide +kernel⟩,
   ⟨ready, 0, by dsimp only; decide +kernel⟩,
   ⟨ready, 0, .tracking, by decide +kernel⟩⟩

theorem wit_LullEndsComplete :
    (∃ (s : State) (b : BayNo) (l : LoopId), (l = .focus ∨ l = .tracking) ∧ (s.bays[b].srv.loop l).lull.isSome = true)
    ∧ (∃ (s : State) (b : BayNo) (l : LoopId), s.sys.mode ≠ .off ∧ s.orders b = true ∧ (s.bays[b].srv.loop l).lull.isSome = true ∧
        s.causeHolds b l = false ∧ (l = .tracking → s.bays[b].srv.focus.closed = true))
    ∧ (∃ (s : State) (b : BayNo), s.orders b = true ∧ s.bays[b].srv.focus.lull.isSome = true)
    ∧ (∃ (s : State) (b : BayNo), s.orders b = true ∧ s.bays[b].srv.tracking.lull.isSome = true ∧ s.bays[b].srv.focus.closed = true) :=
  ⟨⟨ready.onSrv 0 (fun v => { v with focus := { v.focus with lull := some .overrun } }), 0, .focus, by decide +kernel⟩,
   ⟨ready.onSrv 0 (fun v => { v with tracking := { v.tracking with lull := some .overrun } }), 0, .tracking,
     by decide +kernel⟩,
   ⟨ready.onSrv 0 (fun v => { v with focus := { v.focus with lull := some .overrun } }), 0, by decide +kernel⟩,
   ⟨ready.onSrv 0 (fun v => { v with tracking := { v.tracking with lull := some .overrun } }), 0, by decide +kernel⟩⟩

theorem wit_AcquisitionCompletes :
    (∃ (s : State) (b : BayNo), s.orders b = true ∧ s.bays[b].seq.st = .focusAcq ∧ s.bays[b].srv.parked = true ∧
        s.bays[b].srv.acq = none)
    ∧ (∃ (s : State) (b : BayNo) (a : FocusAcq), s.bays[b].srv.acq = some a ∧ s.bays[b].srv.focus.closed = false ∧ a.firstCount =
        none ∧ (1000 * s.bn b Param.srvFocSweepMax : Nat) ≤ a.p)
    ∧ (∃ (s : State) (b : BayNo), s.orders b = true ∧ s.bays[b].seq.st = .trackAcq ∧ s.bays[b].srv.trackAcq = 0 ∧
        s.bays[b].srv.focus.locked = true ∧ s.bays[b].srv.tracking.closed = false)
    ∧ (∃ (s : State) (b : BayNo), 
        let v := s.bays[b].srv
        let d := displacements v.crossings
        v.trackAcq = 1 ∧ (d.foldl max 0 - d.foldl min 0) * 120 ≤ s.bp b Param.srvRunoutMax * 1000)
    ∧ (∃ (s : State) (b : BayNo), s.sys.mode ≠ .off ∧ s.bays[b].srv.trackAcq = 2)
    ∧ (∃ (s : State) (b : BayNo) (us : TurnUnits) (i : WobbleInfo), s.bays[b].srv.tracking.locked = true ∧
        s.bays[b].srv.focus.locked = true ∧ (turnWord us).bind wobbleWord = some i) :=
  ⟨⟨(bayIn .focusAcq).onSrv 0 (fun v => { v with parked := true }), 0, by decide +kernel⟩,
   ⟨(bayIn .focusAcq).onSrv 0 (fun v =>
     { v with acq := some { acq0 with p := 1000000 }, focus := { v.focus with closed := false } }), 0,
     { acq0 with p := 1000000 }, by decide +kernel⟩,
   ⟨(bayIn .trackAcq).onSrv 0 (fun v => { v with tracking := { v.tracking with closed := false } }), 0, by decide +kernel⟩,
   ⟨(bayIn .trackAcq).onSrv 0 (fun v => { v with trackAcq := 1 }), 0, by dsimp only; decide +kernel⟩,
   ⟨(bayIn .trackAcq).onSrv 0 (fun v => { v with trackAcq := 2 }), 0, by decide +kernel⟩,
   ⟨ready, 0, unitsOf 0x51f89c402f5c7bc5, { format := 0xA, layer := 3, layerCount := 0xF, turn := 80000, zone := 5 },
     by decide +kernel⟩⟩

theorem wit_ServoMovesComplete :
    (∃ (s : State) (b : BayNo) (l : LayerNo) (n z : Nat), s.orders b = true ∧ s.bays[b].seq.st = .reading ∧
        s.bays[b].srv.place = some (l, n, z) ∧ s.offsetsKnown b z l = true ∧ s.bays[b].srv.skips = false ∧
        s.bays[b].srv.tracking.locked = true)
    ∧ (∃ (s : State) (b : BayNo) (m : Move), s.sys.mode ≠ .off ∧ s.bays[b].srv.move = some m ∧ m.kind = .stride ∧
        s.bays[b].srv.queued = [])
    ∧ (∃ (s : State) (b : BayNo) (up : Bool), s.orders b = true ∧ s.bays[b].canMove = true ∧ s.bays[b].srv.trackAcq = 0 ∧
        s.bays[b].srv.move = none ∧ (∀ l, s.bays[b].srv.layerNow = some l → if up then l.val < 15 else 0 < l.val))
    ∧ (∃ (s : State) (b : BayNo) (m : Move) (up : Bool), s.sys.mode ≠ .off ∧ s.bays[b].srv.move = some m ∧ m.kind = .layer up ∧
        s.bays[b].srv.focus.closed = false ∧ s.bays[b].srv.focus.lull = none ∧ s.bays[b].srv.queued = [])
    ∧ (∃ (s : State) (b : BayNo) (n : Int), s.orders b = true ∧ s.bays[b].canMove = true ∧ s.bays[b].srv.trackAcq = 0 ∧
        s.bays[b].srv.move = none ∧ s.bays[b].srv.hold = none ∧ n ≠ 0 ∧ |n| ≤ s.bp b Param.srvJumpMax)
    ∧ (∃ (s : State) (b : BayNo) (turn : Nat), s.orders b = true ∧ s.bays[b].canMove = true ∧ s.bays[b].srv.trackAcq = 0 ∧
        s.bays[b].srv.move = none ∧ s.bays[b].sld.homed = true ∧ turn ≤ 143754)
    ∧ (∃ (s : State) (b : BayNo), s.orders b = true ∧ s.bays[b].srv.focus.closed = true ∧ s.bays[b].wp.run = none ∧ s.bays[b].seq.st
        ≠ .writing ∧ s.bays[b].srv.move = none)
    ∧ (∃ (s : State) (b : BayNo), s.sys.mode.serving = true ∧ s.orders b = true ∧ s.bays[b].seq.st = .ready ∧ s.bays[b].busy = false
        ∧ s.bays[b].srv.tablesValid = false ∧ s.bays[b].canMove = true ∧ s.bays[b].srv.move = none) :=
  ⟨⟨(bayIn .reading).onBay 0 (fun t =>
    { t with srv := { t.srv with place := some (3, 80000, 5) }, rc := { t.rc with start := [(5 * 64 + 3 * 4 + 1, startEntry0), (5 * 64 + 3 * 4 + 3, startEntry0)] } }),
    0, 3, 80000, 5, by decide +kernel⟩,
   ⟨(bayIn .reading).onSrv 0 (fun v => { v with move := some (moveOf .stride) }), 0, moveOf .stride, by decide +kernel⟩,
   ⟨ready, 0, true, by decide +kernel⟩,
   ⟨(bayIn .layerJump).onSrv 0 (fun v =>
     { v with move := some (moveOf (.layer true)), focus := { v.focus with closed := false } }), 0, moveOf (.layer true),
     true, by decide +kernel⟩,
   ⟨ready, 0, -5, by decide +kernel⟩,
   ⟨ready, 0, 143754, by decide +kernel⟩,
   ⟨ready, 0, by decide +kernel⟩,
   ⟨ready, 0, by decide +kernel⟩⟩

theorem wit_SpindleCompletes :
    (∃ u : BitVec 3, (hallSector u).isSome = true)
    ∧ (∃ (s : State) (b : BayNo), 
        let u := (s.takePeriod [Param.spnCurBw] b).onSpn b Spindle.levelPeriod
        let volts := phaseVolts (u.bays[b].spn.theta (u.bp b Param.spnPolePairs)) (u.currentLoop b).1.1 (u.currentLoop b).1.2
        let ticks := volts.map (onTick (u.bn b Param.spnVbus))
        let p := shiftPulses ticks (10 * u.bp b Param.spnShuntTmin)
        s.bays[b].spn.level = .sinEncoder ∧ s.bays[b].spn.disagree < 7)
    ∧ (∃ (s : State) (b : BayNo), s.bays[b].spn.level = .drogue)
    ∧ (∃ (s : State) (b : BayNo), 
        let u := s.takePeriod [Param.spnSpdKp, Param.spnSpdKi] b
        let meas := s.bays[b].spn.measuredSpeed (u.bn b Param.spnPolePairs)
        let ref := rampTo s.bays[b].spn.speedRef (u.bp b Param.spnSpeed * 100) ((u.bp b Param.spnAccel : Rat) / 20)
        let law := u.speedLaw b ref meas s.bays[b].spn.spdInteg
        s.bays[b].spn.level = .sinEncoder ∧ s.bays[b].spn.stopping = false)
    ∧ (∃ (s : State) (b : BayNo), s.orders b = true ∧ s.bays[b].spn.barred = false ∧ (s.bays[b].seq.st = .clamped ∨ s.bays[b].seq.st
        = .parked) ∧ [Mode.off, .fill, .boot, .vent, .ripcord].contains s.sys.mode = false ∧ (s.bays[b].spn.level = .off ∨
        s.bays[b].spn.level = .coast))
    ∧ (∃ (s : State) (b : BayNo), s.sys.mode ≠ .off ∧ s.bays[b].spn.level = .measure ∧ s.bays[b].spn.encoderLost = false ∧
        s.bays[b].spn.stopping = false ∧ edgeSpeed s.bays[b].spn.edges 4096 < 3000)
    ∧ (∃ (s : State) (b : BayNo), 
        let xs := s.bays[b].spn.uEdges.map (impliedOffset (s.bp b Param.spnPolePairs) s.bays[b].spn.count)
        s.bays[b].spn.encoderLost = false ∧ 2 ≤ xs.length ∧ offsetsAgree xs = true)
    ∧ (∃ (s : State) (b : BayNo) (c : EncLoss), s.sys.mode ≠ .off ∧ s.bays[b].spn.level = .sinEncoder ∧ s.bays[b].spn.loss (s.bn b
        Param.spnPolePairs) c = true ∧ s.bays[b].spn.encoderLost = false ∧ s.bays[b].spn.obsConverged = true)
    ∧ (∃ s : State, s.sys.mode ≠ .off)
    ∧ (∃ (s : State) (b : BayNo), s.sys.mode ≠ .off ∧ s.bays[b].spn.level = .drogue)
    ∧ (∃ (s : State) (b : BayNo), s.sys.mode ≠ .off ∧ s.bays[b].spn.starting = true ∧ s.bays[b].spn.stopping = false ∧
        s.bays[b].spn.level ≠ .coast)
    ∧ (∃ (s : State) (b : BayNo), s.orders b = true ∧ [BaySt.empty, .loading, .clamped, .spinup, .spindown, .unloading, .parked,
        .faulted].contains s.bays[b].seq.st = true) :=
  ⟨⟨0b101, by decide +kernel⟩,
   ⟨ready, 0, by dsimp only; decide +kernel⟩,
   ⟨ready.onSpn 0 (fun p => { p with level := .drogue }), 0, by decide +kernel⟩,
   ⟨ready, 0, by dsimp only; decide +kernel⟩,
   ⟨(bayIn .clamped).onSpn 0 (fun p => { p with level := .off }), 0, by decide +kernel⟩,
   ⟨ready.onSpn 0 (fun p => { p with level := .measure }), 0, by decide +kernel⟩,
   ⟨ready.onSpn 0 (fun p => { p with uEdges := [0, 0] }), 0, by dsimp only; decide +kernel⟩,
   ⟨ready.onSpn 0 (fun p => { p with obsConverged := true }), 0, .noEdge, by decide +kernel⟩,
   ⟨ready, by decide +kernel⟩,
   ⟨ready.onSpn 0 (fun p => { p with level := .drogue }), 0, by decide +kernel⟩,
   ⟨(bayIn .spinup).onSpn 0 (fun p => { p with starting := true }), 0, by decide +kernel⟩,
   ⟨bayIn .faulted, 0, by decide +kernel⟩⟩

theorem wit_SledCompletes :
    (∃ (s : State) (b : BayNo) (x : Int), s.sledOrders b = true ∧ s.bays[b].sld.homed = true ∧ s.bays[b].sld.mode =
        .standstill ∧ s.sledWithin b x = true)
    ∧ (∃ (s : State) (b : BayNo) (x : Int), s.sledOrders b = true ∧ s.bays[b].sld.homed = true ∧ (s.bays[b].sld.mode = .position ∨
        s.bays[b].sld.mode = .reversal) ∧ s.sledWithin b x = true)
    ∧ (∃ (s : State) (b : BayNo), s.sledOrders b = true ∧ s.bays[b].sld.mode = .standstill)
    ∧ (∃ (s : State) (b : BayNo) (v : Int), s.sledOrders b = true ∧ s.bays[b].sld.homed = true ∧ s.bays[b].sld.mode = .standstill ∧
        v ≠ 0)
    ∧ (∃ (s : State) (b : BayNo), s.bays[b].sld.mode = .home ∧ s.bays[b].seq.mounting = false)
    ∧ (∃ (s : State) (b : BayNo), 
        let u := (s.onSld b (fun a => a.period (decide (s.sys.mode = .ripcord)))).driveSled b
        let y := u.bays[b].sld
        s.bays[b].sld.moving = true ∧ s.bays[b].sld.mode ≠ .home ∧ |y.deviation| ≤ s.bp b Param.sldStallWin ∧ y.overspeed =
        false)
    ∧ (∃ (s : State) (b : BayNo), s.bays[b].sld.mode = .standstill ∧ s.bays[b].sld.standstill = 3) :=
  ⟨⟨ready, 0, 20000, by decide +kernel⟩,
   ⟨ready.onSld 0 (fun x => { x with mode := .position }), 0, 20000, by decide +kernel⟩,
   ⟨ready, 0, by decide +kernel⟩,
   ⟨ready, 0, -7, by decide +kernel⟩,
   ⟨ready.onSld 0 (fun x => { x with mode := .home }), 0, by decide +kernel⟩,
   ⟨ready.onSld 0 (fun x =>
     { x with mode := .position, target := 1000, profile := ⟨100, 100, 100, 100, 100, 100, 100, 100⟩ }), 0,
     by dsimp only; decide +kernel⟩,
   ⟨ready.onSld 0 (fun x => { x with standstill := 3 }), 0, by decide +kernel⟩⟩

theorem wit_BayStatesComplete :
    (∃ (s : State) (b : BayNo), s.bays[b].seq.st = .loading ∧ s.bays[b].seq.tray = true ∧ s.bays[b].seq.unmounting = none)
    ∧ (∃ (s : State) (b : BayNo), s.sys.mode ≠ .off ∧ s.bays[b].seq.st = .loading ∧ s.bays[b].seq.tray = true ∧ s.bays[b].seq.clamp
        = false)
    ∧ (∃ (s : State) (b : BayNo) (d : Disc) (probes1 : List Bool), s.bays[b].seq.mounting = true ∧ s.bays[b].seq.disc = some d ∧
        d.mounted = false ∧ s.bays[b].seq.st = .reading ∧ s.bays[b].srv.tracking.locked = true ∧ s.bays[b].srv.trackAcq = 0 ∧
        s.bays[b].srv.move = none ∧ s.bays[b].seq.scan = none ∧ 8 ≤ s.bays[b].srv.ids.length ∧ s.bays[b].srv.isSl16 = true ∧
        firstFree 14 0 mgmtPositions probes1 ≠ 0)
    ∧ (∃ (s : State) (b : BayNo) (d : Disc), s.sys.mode ≠ .off ∧ s.bays[b].seq.mounting = true ∧ s.bays[b].seq.disc = some d ∧
        d.mounted = false ∧ s.bays[b].seq.st = .reading ∧ s.bays[b].srv.tracking.locked = true ∧ s.bays[b].srv.trackAcq = 0 ∧
        s.bays[b].srv.move = none ∧ s.bays[b].seq.scan = none ∧ 8 ≤ s.bays[b].srv.ids.length ∧ s.bays[b].srv.isSl16 = false)
    ∧ (∃ (s : State) (b : BayNo) (d : Disc) (m : MgmtScan) (c : MgmtSet), s.bays[b].seq.mounting = true ∧ s.bays[b].seq.disc = some
        d ∧ d.mounted = false ∧ s.bays[b].seq.st = .reading ∧ s.bays[b].srv.tracking.locked = true ∧ s.bays[b].srv.trackAcq =
        0 ∧ s.bays[b].srv.move = none ∧ s.bays[b].seq.scan = some m ∧ s.bays[b].scanning = false ∧ m.lacks false = false ∧
        m.lacks true = false ∧ currentSet (m.copy false) (m.copy true) = some c ∧ c.vid = d.vid)
    ∧ (∃ (s : State) (b : BayNo), s.bays[b].seq.st = .ready ∧ s.bays[b].busy = false ∧ s.bayServes b = false ∧ s.bn b
        Param.bayIdleSpindown ≠ 0)
    ∧ (∃ (s : State) (b : BayNo), s.bays[b].seq.st = .spindown ∧ s.bays[b].spn.level = .off ∧ s.bays[b].seq.after = .park ∧
        s.bays[b].mounted = true)
    ∧ (∃ (s : State) (b : BayNo), s.bays[b].seq.st = .unloading ∧ s.bays[b].seq.faultAfter = none) :=
  ⟨⟨bayIn .loading, 0, by decide +kernel⟩,
   ⟨(bayIn .loading).onSeq 0 (fun q => { q with clamp := false }), 0, by decide +kernel⟩,
   ⟨mountRead0 (List.replicate 8 (some true)) none, 0, unmounted, [true], by decide +kernel⟩,
   ⟨mountRead0 (List.replicate 8 none) none, 0, unmounted, by decide +kernel⟩,
   ⟨mountRead0 [] (some scan1), 0, unmounted, scan1, mset, by decide +kernel⟩,
   ⟨ready, 0, by decide +kernel⟩,
   ⟨(bayIn .spindown).onSpn 0 (fun p => { p with level := .off }), 0, by decide +kernel⟩,
   ⟨bayIn .unloading, 0, by decide +kernel⟩⟩

theorem wit_BayWorkCompletes :
    (∃ (s : State) (b : BayNo) (a : ClusterAddr), s.orders b = true ∧ s.sys.mode.serving = true ∧ s.bays[b].seq.st = .ready ∧
        s.bays[b].mounted = true ∧ s.bays[b].srv.move = none ∧ s.bays[b].srv.acq = none ∧ s.bays[b].srv.trackAcq = 0 ∧
        s.bays[b].wp.run = none ∧ s.bays[b].srv.focus.lull = none ∧ s.bays[b].srv.tracking.lull = none ∧
        s.bays[b].srv.tilt.lull = none ∧ s.bays[b].seq.mismatches ≠ 3 ∧ s.bays[b].seq.checkDue = false ∧
        s.bays[b].srv.tracking.closed = true ∧ s.bays[b].srv.tracking.locked = true ∧ s.bays[b].seq.visiting = false ∧
        s.bays[b].seq.destageFirst = false ∧ s.bays[b].demandTarget = some a ∧ s.bays[b].covers a = true)
    ∧ (∃ (s : State) (b : BayNo) (r : WriteRun), s.bays[b].wp.run = some r ∧ s.bays[b].seq.demand ≠ [] ∧ r.guaranteed = false)
    ∧ (∃ (s : State) (b : BayNo), s.bays[b].destageWork = true ∧ s.bays[b].wp.run = none)
    ∧ (∃ (s : State) (b : BayNo), s.orders b = true ∧ s.sys.mode.serving = true ∧ s.bays[b].seq.st = .ready ∧ s.bays[b].mounted =
        true ∧ s.bays[b].seq.slow ≠ [] ∧ s.bays[b].seq.visiting = false ∧ s.bays[b].wp.run = none)
    ∧ (∃ (s : State) (b : BayNo), [Mode.off, .fill, .boot].contains s.sys.mode = false ∧ s.bays[b].seq.st ≠ .faulted)
    ∧ (∃ (s : State) (b : BayNo), s.bays[b].seq.st = .faulted ∧ s.bays[b].spn.level = .coast)
    ∧ (∃ (s : State) (b : BayNo), s.sys.mode = .ripcord ∧ s.bays[b].spn.level = .off ∧ s.bays[b].seq.clamp = true ∧
        s.bays[b].mounted = true)
    ∧ (∃ (s : State) (b : BayNo) (v : Volume), s.sys.mode.serving = true ∧ s.mountWanted v.vid = true ∧ s.vol? v.vid = some v ∧
        v.ownPeer = false ∧ s.discIn v.vid = some b ∧ s.bays[b].seq.st = .clamped) :=
  ⟨⟨ready.onBay 0 (fun t =>
    { t with srv := { t.srv with place := some (0, addrTurn (homeOf 0), 0) }, seq := { t.seq with demand := [(homeOf 0, homeOf 0)] } }),
    0, homeOf 0, by decide +kernel⟩,
   ⟨(mayBurn .writing).onBay 0 (fun t =>
     { t with wp := { t.wp with run := some run }, seq := { t.seq with demand := [(homeOf 0, homeOf 0)] } }), 0, run,
     by decide +kernel⟩,
   ⟨mayBurn .ready, 0, by decide +kernel⟩,
   ⟨ready.onSeq 0 (fun q => { q with slow := [0] }), 0, by decide +kernel⟩,
   ⟨ready, 0, by decide +kernel⟩,
   ⟨(bayIn .faulted).onSpn 0 (fun p => { p with level := .coast }), 0, by decide +kernel⟩,
   ⟨((bayIn .spindown).onSys (fun y => { y with mode := .ripcord })).onSpn 0 (fun p => { p with level := .off }), 0,
     by decide +kernel⟩,
   ⟨with1 (bayIn .clamped) { cmd 9 with wait := .mount }, 0, vol, by decide +kernel⟩⟩

theorem wit_StagingProgramsComplete :
    (∃ (s u : State) (d : DirtyCluster) (ds : List DirtyCluster) (loc : BitVec 34) (ok again : Bool), s.stg.dirty = d :: ds ∧
        s.program (if s.sys.mode = .vent then 2 else 0) (s.dirtyWords d (if s.sys.mode = .vent then 2 else 0)) ok again = some
        (loc, u))
    ∧ (∃ (s u : State) (v : VolId) (n : Nat) (rest : List (VolId × Nat)) (e : MapEntry) (loc : BitVec 34) (again : Bool), s.sys.mode
        ≠ .vent ∧ s.sys.mode ≠ .sanitize ∧ s.stg.relocate = (v, n) :: rest ∧ s.stg.entry? v n = some e ∧ (s.onStg (fun g =>
        { g with relocate := rest })).program 1 (({ e with progSeq := s.sys.progSeq + 1 } : MapEntry).words 1) true again =
        some (loc, u))
    ∧ (∃ (s u : State) (ok again : Bool), s.stg.journal ≠ [] ∧ s.programJournal ok again = some u)
    ∧ (∃ s : State, s.sys.mode ≠ .vent ∧ 2 ≤ s.sys.mode.code)
    ∧ (∃ (s : State) (l : Fin 16) (n : Nat), s.stg.mayErase l.val n = true)
    ∧ (∃ (s : State) (c : ChanNo) (l : Fin 16), s.stg.nand.retiredLuns.contains (c, l) = true) :=
  ⟨⟨dirtyUp, (programmed (dirtyUp.program 0 (dirtyUp.dirtyWords dirtyCluster 0) true false)).2, dirtyCluster, [], (programmed
    (dirtyUp.program 0 (dirtyUp.dirtyWords dirtyCluster 0) true false)).1, true, false, by decide +kernel, programmed_some
    (by decide +kernel)⟩,
   ⟨relocUp, (programmed ((relocUp.onStg (fun g => { g with relocate := [] })).program 1
     (({ mapEntry with progSeq := relocUp.sys.progSeq + 1 } : MapEntry).words 1) true false)).2, 1, 0, [], mapEntry,
     (programmed ((relocUp.onStg (fun g => { g with relocate := [] })).program 1
     (({ mapEntry with progSeq := relocUp.sys.progSeq + 1 } : MapEntry).words 1) true false)).1, false, by decide +kernel,
     by decide +kernel, by decide +kernel, by decide +kernel, programmed_some (by decide +kernel)⟩,
   ⟨journalUp, (journalUp.programJournal true false).getD up, true, false, by decide +kernel, getD_some up
     (by decide +kernel)⟩,
   ⟨up, by decide +kernel⟩,
   ⟨up, 0, 5, by decide +kernel⟩,
   ⟨up.onStg (fun g => { g with nand := { g.nand with retiredLuns := [(3, 0)] } }), 3, 0, by decide +kernel⟩⟩

theorem wit_NandReadsComplete_0 :
    ∃ o : NandReadObs, (nandDecoded o.first).isSome = true :=
  ⟨nandObs (some goodWord) none [], goodWord_isSome⟩

theorem wit_NandReadsComplete_1 :
    ∃ (s : State) (o : NandReadObs), s.sys.mode ≠ .off ∧ nandDecoded o.first = none ∧ (nandDecoded o.again).isSome = true :=
  ⟨up, nandObs none (some goodWord) [], by decide +kernel, rfl, goodWord_isSome⟩

theorem wit_NandReadsComplete_2 :
    ∃ (s : State) (loc : BitVec 34) (o : NandReadObs), s.sys.mode ≠ .off ∧ nandDecoded o.first = none ∧ nandDecoded o.again =
      none ∧ ((otherClasses (s.stg.readClass loc)).zip o.classes).any (fun x => (nandDecoded x.2).isSome) = true :=
  ⟨up, 5, nandObs none none [none, some goodWord], by decide +kernel, rfl, rfl, goodWord_any _ (by decide +kernel)⟩

theorem wit_NandReadsComplete_3 :
    ∃ (s : State) (loc : BitVec 34) (o : NandReadObs) (w : NandWord), s.sys.mode ≠ .off ∧ nandDecoded o.first = none ∧
      nandDecoded o.again = none ∧ ((otherClasses (s.stg.readClass loc)).zip o.classes).any (fun x => (nandDecoded
      x.2).isSome) = false ∧ stripeWord o.stripe = some w :=
  ⟨up, 5, { opFails with stripe := [some goodWord] }, goodWord, by decide +kernel, rfl, rfl, by decide +kernel, goodWord_stripe⟩

theorem wit_NandReadsComplete :
    (∃ (s : State) (loc : BitVec 34) (o : NandReadObs) (e : MapEntry), s.sys.mode ≠ .off ∧ nandDecoded o.first = none ∧
        nandDecoded o.again = none ∧ ((otherClasses (s.stg.readClass loc)).zip o.classes).any (fun x => (nandDecoded
        x.2).isSome) = false ∧ stripeWord o.stripe = none ∧ s.stg.map.find? (fun x => decide (x.loc = loc)) = some e)
    ∧ (∃ s : State, s.sys.mode ≠ .off) :=
  ⟨⟨up.onStg (fun g => { g with map := [mapEntry] }), 5, opFails, mapEntry, by decide +kernel⟩,
   ⟨up, by decide +kernel⟩⟩

theorem wit_DramCompletes :
    (∃ (s : State) (addr : BitVec 40) (o : DramObs) (w : List Nat), s.coresRun = true ∧ addr.toNat < s.mem.bytes ∧ dramDecode
        s.mem.x8 o.first = .clean w ∧ w.all (· == 0) = true)
    ∧ (∃ (s : State) (o : DramObs) (w : List Nat), s.scrubs = true ∧ dramDecode s.mem.x8 o.first = .clean w ∧ (s.mem.scrubPos.toNat
        + 1) * 128 < s.mem.bytes)
    ∧ (∃ (s : State) (addr : BitVec 40) (o : DramObs) (chip sym : Nat) (w : List Nat), s.coresRun = true ∧ addr.toNat < s.mem.bytes
        ∧ dramDecode s.mem.x8 o.first = .corrected chip sym w ∧ w.all (· == 0) = true)
    ∧ (∃ s : State, s.coresRun = true)
    ∧ (∃ (s : State) (e : DramError) (rest : List DramError), s.coresRun = true ∧ s.mem.fifo = e :: rest) :=
  ⟨⟨up, 0x3FFFFFFFF, dramClean, List.replicate 80 0, by decide +kernel⟩,
   ⟨up.onMem (fun m => { m with scrubOn := true, scrubInterval := 1 }), dramClean, List.replicate 80 0, by decide +kernel⟩,
   ⟨up, 0x3FFFFFFFF, { dramClean with first := [(0, 1)] }, 0, 1, List.replicate 80 0, by decide +kernel⟩,
   ⟨up, by decide +kernel⟩,
   ⟨up.onMem (fun m => { m with fifo := [dramErr0] }), dramErr0, [], by decide +kernel⟩⟩

theorem wit_BallastCompletes_0 :
    ∃ (s : State) (o : Fin 12) (size i : Nat) (p : Fin 4) (b : BallastPool), s.coresRun = true ∧ poolFor size = some p ∧
      bufsFor size ≤ 256 ∧ s.mayTake p o (bufsFor size) = true ∧ BallastPool.takeChain p.val o (bufsFor size) none
      s.mem.pools[p] = some (i, b) :=
  ⟨roomy, 5, 64, 0, 0, _, by decide +kernel, by decide +kernel, by decide +kernel, by decide +kernel,
    takeChain_one 0 5 _ 0 (by decide +kernel)⟩

theorem wit_BallastCompletes :
    ∃ (s : State) (o : Fin 12) (h : BitVec 32), s.coresRun = true ∧ s.mem.pools[handlePool h].refusal o (handleIndex h) = none
      :=
  ⟨pool1 [(0, { owner := 11, head := true, link := none })], 11, 0, by decide +kernel⟩

theorem wit_TriplicatedWordsComplete :
    (∃ (s : State) (w : Fin 31), (∀ x ∈ s.mem.triple.staged, x.1 ≠ setOfWord w.val))
    ∧ (∃ (s : State) (k : TripleSet), (∀ x ∈ s.mem.triple.staged, x.1 ≠ k))
    ∧ (∃ (s : State) (k : TripleSet) (x : TripleSet × List (Nat × BitVec 64)), s.mem.triple.staged.find? (fun y => decide (y.1 = k))
        = some x)
    ∧ (∃ (s : State) (w : Fin 31), (∀ k : Fin 3, (w.val, k) ∉ s.mem.triple.faulty)) :=
  ⟨⟨up, 30, by decide +kernel⟩,
   ⟨up, .progress, by decide +kernel⟩,
   ⟨up.onMem (fun m => { m with triple := { m.triple with staged := [(.mapRoot, [(1, 2)])] } }), .mapRoot, (.mapRoot, [(1,
     2)]), by decide +kernel⟩,
   ⟨up, 0, by decide +kernel⟩⟩

theorem wit_CacheCompletes :
    (∃ (s : State) (addr : BitVec 40) (w : Nat) (x : CacheLine), s.coresRun = true ∧ addr.toNat < s.mem.bytes ∧
        s.mem.cache.enabled = true ∧ s.mem.cache.way? (BitVec.ofNat 34 (addr.toNat / 64)) = some w ∧ lookupKey
        s.mem.cache.lines (lineSet (BitVec.ofNat 34 (addr.toNat / 64)) * 16 + w) = some x)
    ∧ (∃ (s : State) (addr : BitVec 40), s.coresRun = true ∧ addr.toNat < s.mem.bytes ∧ s.mem.cache.enabled = false)
    ∧ (∃ (s : State) (l : BitVec 34) (w : Fin 16) (c : CoreNo), s.mem.cache.fills = [(l, w, c)] ∧ s.mem.cache.leaving l = false ∧
        s.mem.cache.waiting = [] ∧ s.mem.cache.maintWait = none)
    ∧ (∃ (s : State) (l : BitVec 34) (d : BitVec 512), s.mem.cache.evicted.find? (fun e => decide (e.1 = l)) = some (l, d) ∧
        s.mem.cache.maintWait = none)
    ∧ (∃ s : State, s.coresRun = true ∧ s.mem.cache.busy = false ∧ s.mem.cache.filling s.mem.cache.maintLine = false ∧
        s.mem.cache.leaving s.mem.cache.maintLine = false)
    ∧ (∃ s : State, s.coresRun = true ∧ s.mem.cache.busy = false)
    ∧ (∃ s : State, s.coresRun = true) :=
  ⟨⟨cached, 0, 0, { tag := 0, dirty := false, data := 9 }, by decide +kernel⟩,
   ⟨up, 0x3FFFFFFF8, by decide +kernel⟩,
   ⟨up.onCache (fun c => { c with enabled := true, fills := [(0, 15, 2)] }), 0, 15, 2, by decide +kernel⟩,
   ⟨up.onCache (fun c => { c with enabled := true, evicted := [(1, 7)] }), 1, 7, by decide +kernel⟩,
   ⟨cached, by decide +kernel⟩,
   ⟨cached, by decide +kernel⟩,
   ⟨up, by decide +kernel⟩⟩

theorem wit_BootCompletes :
    (∃ s : State, s.sys.mode = .off)
    ∧ (∃ (s : State) (d : DramFound), s.sys.mode = .fill ∧ s.sys.parking = false ∧ s.sys.parked = false ∧ s.sys.resetWaits = false ∧
        dramSupported d = true ∧ 16 ≤ dramGib d ∧ dramGib d ≤ 128)
    ∧ (∃ (s u : State) (o : BootObs) (k : Fin 2), s.sys.mode = .boot ∧ s.sys.imageRuns = false ∧ s.sys.noImage = false ∧
        s.sys.warmFlushDue = false ∧ s.sys.parking = false ∧ s.sys.parked = false ∧ s.sys.resetWaits = false ∧ s.chooseSlot
        o.imageOk = (some k, u))
    ∧ (∃ s : State, s.sys.mode = .boot ∧ s.sys.warmFlushDue = true)
    ∧ (∃ s : State, s.sys.mode = .boot ∧ s.sys.imageRuns = true ∧ s.sys.warmFlushDue = false ∧ s.sys.recovered = false ∧
        s.sys.parking = false ∧ s.sys.parked = false ∧ s.sys.progress.op ≠ 2)
    ∧ (∃ s : State, s.sys.mode ≠ .off ∧ s.sys.mode ≠ .fill ∧ s.sys.clocksGood = true)
    ∧ (∃ s : State, s.sys.mode = .ripcord ∧ s.sys.parked = true ∧ 0 < s.dp Param.devRipcordHold ∧ s.sys.clocksGood = true)
    ∧ (∃ s : State, s.sys.mode = .activate ∧ s.sys.clocksGood = true) :=
  ⟨⟨State.reset, by decide +kernel⟩,
   ⟨inMode .fill, dramFound0, by decide +kernel⟩,
   ⟨bootUp, (bootUp.chooseSlot #v[true, true]).2,
     { imageOk := #v[true, true], nand := nandFound0, trays := 0, gripperDisc := false }, 0, by decide +kernel,
     by decide +kernel, by decide +kernel, by decide +kernel, by decide +kernel, by decide +kernel, by decide +kernel,
     Prod.ext (by decide +kernel) rfl⟩,
   ⟨(inMode .boot).onSys (fun y => { y with warmFlushDue := true }), by decide +kernel⟩,
   ⟨(inMode .boot).onSys (fun y => { y with recovered := false }), by decide +kernel⟩,
   ⟨up, by decide +kernel⟩,
   ⟨(inMode .ripcord).onSys (fun y => { y with parked := true }), by decide +kernel⟩,
   ⟨inMode .activate, by decide +kernel⟩⟩

theorem wit_SafetyCompletes :
    (∃ s : State, s.sys.mode.serving = true)
    ∧ (∃ s : State, s.sys.mode = .vent ∧ s.sys.ventDone = false ∧ s.sys.ventWatchdog = false ∧ s.sys.ventFrom ≠ .ripcord)
    ∧ (∃ s : State, s.sys.mode = .vent ∧ s.sys.ventDone = true ∧ s.sys.ventFrom = .standalone ∧ s.sys.ventPaired = false)
    ∧ (∃ s : State, s.sys.mode ≠ .off)
    ∧ (∃ s : State, s.sys.mode ≠ .off ∧ s.sys.resetWaits = false)
    ∧ (∃ s : State, s.sys.imageRuns = true ∧ s.coresRun = true)
    ∧ (∃ s : State, s.sys.mode ≠ .off ∧ s.sys.mode ≠ .ripcord ∧ s.sys.keelStopped = false ∧ s.sys.serviced.toList.all id = true)
    ∧ (∃ s : State, s.sys.mode.serving = true ∧ s.sys.keelStopped = false ∧ s.sys.serviced.toList.all id = false)
    ∧ (∃ s : State, s.sys.mode ≠ .off ∧ s.sys.mode ≠ .ripcord)
    ∧ (∃ s : State, s.sys.parking = true ∧ s.parkComplete = true)
    ∧ (∃ (s : State) (e : EngineId), s.sys.mode ≠ .off ∧ s.sys.imageRuns = true ∧ s.engineHeld e = false)
    ∧ (∃ (s : State) (e : EngineId), s.sys.imageRuns = true ∧ s.engineHeld e = true) :=
  ⟨⟨up, by decide +kernel⟩,
   ⟨inMode .vent, by decide +kernel⟩,
   ⟨(inMode .vent).onSys (fun y => { y with ventDone := true }), by decide +kernel⟩,
   ⟨up, by decide +kernel⟩,
   ⟨up, by decide +kernel⟩,
   ⟨up, by decide +kernel⟩,
   ⟨up.onSys (fun y => { y with serviced := Vector.replicate 4 true }), by decide +kernel⟩,
   ⟨up, by decide +kernel⟩,
   ⟨up, by decide +kernel⟩,
   ⟨(inMode .ripcord).onSys (fun y => { y with parking := true }), by decide +kernel⟩,
   ⟨up, .m 1, by decide +kernel⟩,
   ⟨up, .q 7, by decide +kernel⟩⟩

theorem wit_BoardCompletes :
    (∃ (s : State) (a : Activation), s.sys.mode = .activate ∧ s.sys.activation = some a ∧ s.noneStarted = true ∧ a.handover =
        false ∧ s.sys.cameFrom = .standalone)
    ∧ (∃ s : State, s.sys.mode ≠ .off)
    ∧ (∃ (s : State) (a : BitVec 7) (c : Byte) (bs : List Byte), s.sys.mode ≠ .off ∧ a.toNat = 0x58 + s.sys.straps.toNat ∧
        s.smbusAnswer c = some bs) :=
  ⟨⟨(inMode .activate).onSys (fun y => { y with activation := some activation0 }), activation0, by decide +kernel⟩,
   ⟨up, by decide +kernel⟩,
   ⟨up, 0x58, 1, [3], by decide +kernel⟩⟩

theorem wit_PortFrames :
    ∃ (i : Instr) (ps : List Part) (s t : State), portFrame i = some ps ∧ exec i s = .next t :=
  ⟨.d3hotEntry 0, (portFrame (.d3hotEntry 0)).getD [], up, after (.d3hotEntry 0) up, by decide +kernel, next_after
    (by decide +kernel)⟩

theorem wit_MailboxFrames :
    ∃ (i : Instr) (ps : List Part) (s t : State), mailboxFrame i = some ps ∧ exec i s = .next t :=
  ⟨.identify 0, (mailboxFrame (.identify 0)).getD [], asks up 0x100 0 (64 * 2 ^ 384), after (.identify 0) (asks up 0x100 0 (64
    * 2 ^ 384)), by decide +kernel, next_after (by decide +kernel)⟩

theorem wit_PowerFrames :
    ∃ (i : Instr) (ps : List Part) (s t : State), powerFrame i = some ps ∧ exec i s = .next t :=
  ⟨.pwrfailAssert, (powerFrame .pwrfailAssert).getD [], up, after .pwrfailAssert up, by decide +kernel, next_after
    (by decide +kernel)⟩

theorem wit_PairFrames :
    ∃ (i : Instr) (ps : List Part) (s t : State), pairFrame i = some ps ∧ exec i s = .next t :=
  ⟨.heartbeatReceive hb, (pairFrame (.heartbeatReceive hb)).getD [], paired up, after (.heartbeatReceive hb) (paired up),
    by decide +kernel, next_after (by decide +kernel)⟩

theorem wit_HeadFrames :
    ∃ (i : Instr) (ps : List Part) (s t : State), headFrame i = some ps ∧ exec i s = .next t :=
  ⟨.preambleDetect 0 1 [], (headFrame (.preambleDetect 0 1 [])).getD [], laneIn .searching 0 0, after (.preambleDetect 0 1 [])
    (laneIn .searching 0 0), by decide +kernel, next_after (by decide +kernel)⟩

theorem wit_MotionFrames :
    ∃ (i : Instr) (ps : List Part) (s t : State), motionFrame i = some ps ∧ exec i s = .next t :=
  ⟨.layerJump 0 true, (motionFrame (.layerJump 0 true)).getD [], ready, after (.layerJump 0 true) ready, by decide +kernel,
    next_after (by decide +kernel)⟩

theorem wit_StoreFrames :
    ∃ (i : Instr) (ps : List Part) (s t : State), storeFrame i = some ps ∧ exec i s = .next t :=
  ⟨.derrPop, (storeFrame .derrPop).getD [], up.onMem (fun m => { m with fifo := [dramErr0] }), after .derrPop (up.onMem (fun m
    => { m with fifo := [dramErr0] })), by decide +kernel, next_after (by decide +kernel)⟩

theorem wit_HomeAddressesValid :
    ∃ lba : Nat, lba ≤ 0x15FFFFFF :=
  ⟨0x15FFFFFF, by decide +kernel⟩

theorem wit_LullCoupling :
    (∃ (s : State) (b : BayNo), s.bays[b].srv.focus.lull = none)
    ∧ (∃ (s : State) (b : BayNo), s.bays[b].srv.tracking.lull = none)
    ∧ (∃ (s : State) (b : BayNo), s.bays[b].srv.sled.lull = none)
    ∧ (∃ (s t : State) (b : BayNo), s.bays[b].srv.sled.lull.isSome = true ∧ s.bays[b].srv.sled.drive = 0 ∧ exec (.sledLoopPeriod b)
        s = .next t) :=
  ⟨⟨ready, 0, by decide +kernel⟩,
   ⟨ready, 7, by decide +kernel⟩,
   ⟨ready, 0, by decide +kernel⟩,
   ⟨ready.onSrv 0 (fun v => { v with sled := { v.sled with lull := some .overrun } }), after (.sledLoopPeriod 0) (ready.onSrv
     0 (fun v => { v with sled := { v.sled with lull := some .overrun } })), 0, by decide +kernel, by decide +kernel,
     next_after (by decide +kernel)⟩⟩

theorem wit_CopyRaces :
    (∃ (s : State) (e x : MapEntry), s.stg.entry? e.vid e.ucl = some x ∧ x.loc = e.loc)
    ∧ (∃ (s : State) (e x : MapEntry), s.stg.entry? e.vid e.ucl = some x ∧ x.loc ≠ e.loc)
    ∧ (∃ (s : State) (e : MapEntry), s.stg.entry? e.vid e.ucl = none) :=
  ⟨⟨up.onStg (fun g => { g with map := [mapEntry] }), mapEntry, mapEntry, by decide +kernel⟩,
   ⟨up.onStg (fun g => { g with map := [mapEntry] }), { mapEntry with loc := 6 }, mapEntry, by decide +kernel⟩,
   ⟨up, mapEntry, by decide +kernel⟩⟩

theorem wit_TripleMajority :
    ∃ (s : State) (w : Fin 31) (v x : BitVec 64), (∀ j : Fin 3, (w.val, j) ∉ s.mem.triple.faulty) ∧ x ≠ v :=
  ⟨up, 30, 5, 6, by decide +kernel⟩

theorem wit_BallastExclusive_0 :
    ∃ (s t : State) (o : Fin 12) (size : Nat), s.coresRun = true ∧ (∀ p : Fin 4, PoolSound s.mem.pools[p]) ∧ exec
      (.ballastAllocate o size) s = .next t :=
  by
  obtain ⟨t, h⟩ := ballastAllocate_next 0 1048576 roomy3
  have e : ∀ p : Fin 4, roomy3.mem.pools[p].words = [] := by decide +kernel
  exact ⟨roomy3, t, 0, 1048576, by decide +kernel, fun p => ⟨by revert p; decide +kernel, by revert p; decide +kernel,
    fun i h => by rw [e p] at h; cases h⟩, h⟩

theorem wit_DramBytesKept :
    (∃ (s t : State) (addr : BitVec 40) (bytes : List Byte) (r : Requester) (o : DramObs), exec (.dramPartialWrite addr bytes
        r o) s = .next t)
    ∧ (∃ (s t : State) (addr : BitVec 40) (r : Requester) (o : DramObs), exec (.dramRead addr r o) s = .next t ∧ readsRight s.mem.x8
        o = true)
    ∧ (∃ (s t : State) (c : CoreNo) (addr : BitVec 40) (v : BitVec 64), exec (.cacheAccess c addr (.store v)) s = .next t)
    ∧ (∃ (s t : State) (c : CoreNo) (addr : BitVec 40), exec (.cacheAccess c addr .load) s = .next t)
    ∧ (∃ (s t : State) (l : BitVec 34), s.mem.cache.maintWait = none ∧ exec (.cacheWritebackAccept l) s = .next t)
    ∧ (∃ (s t : State) (i : Instr), (i = .cacheCleanLine ∨ i = .cacheCleanInvalidateLine) ∧ exec i s = .next t) :=
  ⟨⟨up, after (.dramPartialWrite 5 [1, 2] (.core 0) dramClean) up, 5, [1, 2], .core 0, dramClean, next_after
    (by decide +kernel)⟩,
   ⟨up, after (.dramRead 5 (.core 0) dramClean) up, 5, .core 0, dramClean, next_after (by decide +kernel), by decide +kernel⟩,
   ⟨up, after (.cacheAccess 0 8 (.store 7)) up, 0, 8, 7, next_after (by decide +kernel)⟩,
   ⟨cached, after (.cacheAccess 0 0 .load) cached, 0, 0, next_after (by decide +kernel)⟩,
   ⟨up.onCache (fun c => { c with enabled := true, evicted := [(1, 7)] }), after (.cacheWritebackAccept 1) (up.onCache (fun c
     => { c with enabled := true, evicted := [(1, 7)] })), 1, by decide +kernel, next_after (by decide +kernel)⟩,
   ⟨cached, after .cacheCleanLine cached, .cacheCleanLine, by decide +kernel, next_after (by decide +kernel)⟩⟩

theorem wit_InvariantKept : ∃ s t : State, Invariant s ∧ step s = .next t :=
  have e : ∀ p : Fin 4, State.reset.mem.pools[p].words = [] := by decide +kernel
  ⟨State.reset, tick State.reset, ⟨by decide +kernel, by decide +kernel, fun p => ⟨by revert p; decide +kernel, by revert p; decide +kernel,
    fun i h => by rw [e p] at h; cases h⟩⟩, rfl⟩

end Sys2Proof.Tests
end

section
/-! PROOFS. The bytes of DRAM that an access leaves as they were (R363, R381, R383): the proof of the statement about them. -/

namespace Sys2Proof.Proofs

open Sys2Proof Sys2Proof.Machine Sys2Proof.Safety Sys2Proof.Laws

/-! ### One part of the state, from a frame -/

/-- Every part of the state. -/
def allParts : List Part :=
  [.pending, .mode, .free, .sys, .raised, .fwq, .retry, .ev, .bridle, .cmds, .vols, .params, .flash, .pool, .hnd, .stg, .dram,
    .mem, .pair, .out]
  ++ both .queues ++ both .msix ++ both .mbx ++ both .ring ++ both .alarm ++ both .link
  ++ every .afe ++ every .rc ++ every .dec ++ every .wp ++ every .srv ++ every .spn ++ every .sld ++ every .seq ++ every .held

theorem mem_allParts (x : Part) : x ∈ allParts := by
  cases x <;> simp [allParts, mem_both, mem_every]

/-- Every part of the state but one: a frame of these says that the one has not changed. -/
def allBut (x : Part) : List Part := allParts.filter (fun y => decide (y ≠ x))

@[simp] theorem mem_allBut {x y : Part} : y ∈ allBut x ↔ y ≠ x := by
  simp [allBut, mem_allParts]

theorem cells_of_hide {s t : State} (h : hide (allBut .dram) t = hide (allBut .dram) s) : t.mem.cells = s.mem.cells :=
  (unchanged_of_hide h).dram.resolve_left (by simp)

theorem params_of_hide {s t : State} (h : hide (allBut .params) t = hide (allBut .params) s) : t.params = s.params :=
  (unchanged_of_hide h).params.resolve_left (by simp)

/-! ### Operations that leave the bytes of DRAM -/

section
variable (s : State)

@[simp] theorem busErrorTo_cells (r : Requester) (addr : BitVec 40) : (s.busErrorTo r addr).mem.cells = s.mem.cells :=
  cells_of_hide (by simp [hide_busErrorTo])

@[simp] theorem countPageCe_cells (page : Nat) : (s.countPageCe page).mem.cells = s.mem.cells :=
  cells_of_hide (by simp [hide_countPageCe])

@[simp] theorem noteMiss_cells (c : CoreNo) (l : BitVec 34) : (s.noteMiss c l).mem.cells = s.mem.cells :=
  cells_of_hide (by simp [hide_noteMiss])

@[simp] theorem cacheServe_cells (l : BitVec 34) (addr : BitVec 40) (a : CoreAccess) :
    (s.cacheServe l addr a).mem.cells = s.mem.cells :=
  cells_of_hide (by simp [hide_cacheServe])

@[simp] theorem onCache_cells (f : EngineCache → EngineCache) : (s.onCache f).mem.cells = s.mem.cells := rfl

@[simp] theorem logRetry_mem (src : Nat) (kind : Fin 11) (persistent : Bool) (action : Nat) (identity : BitVec 64) :
    (s.logRetry src kind persistent action identity).mem = s.mem := rfl

end

@[simp] theorem pushError_cells (m : Memory) (e : DramError) : (m.pushError e).cells = m.cells := by
  unfold Memory.pushError
  dsimp only
  split <;> split <;> rfl

/-! ### Block reads (R362, R364) -/

/-- An error of no symbol leaves the block. -/
theorem spoil_of_right {wrong : List Nat} (h : wrong.all (· == 0) = true) (m : Memory) (addr : Nat) :
    m.spoil addr wrong = m := by
  unfold Memory.spoil
  rw [if_pos h]

/-- An error of a block's symbols leaves every byte outside the block. -/
theorem memByte_spoil_of_outside (m : Memory) (addr x : Nat) (wrong : List Nat) (h : x / 128 ≠ addr / 128) :
    memByte (m.spoil addr wrong).cells x = memByte m.cells x := by
  unfold Memory.spoil
  split
  · rfl
  · exact memByte_memWrite_of_outside _ _ _ _ (by rw [List.length_map, List.length_range]; omega)

/-- What a read that corrects an error writes back wrong of the block (R364). -/
def writtenBack : DramDecode → List Nat
  | .corrected _ _ wrong => wrong
  | _ => []

/-- A block read changes the bytes of DRAM by what it writes back only. -/
theorem dramResult_cells (s : State) (addr : BitVec 40) (source : Nat) (o : DramObs) :
    (s.dramResult addr source o).2.mem.cells
      = (s.mem.spoil addr.toNat (writtenBack (dramDecode s.mem.x8 o.first))).cells := by
  unfold State.dramResult
  cases dramDecode s.mem.x8 o.first with
  | clean wrong => rfl
  | corrected chip sym wrong =>
    dsimp only
    split <;> simp [writtenBack]
  | uncorrectable =>
    rw [show writtenBack .uncorrectable = [] from rfl, spoil_of_right rfl]
    cases dramDecode s.mem.x8 o.again <;> simp [State.freeInt]

/-- A decode that takes no error for another (R362). -/
def decodesRight : DramDecode → Bool
  | .clean w => w.all (· == 0)
  | .corrected _ _ w => w.all (· == 0)
  | .uncorrectable => true

theorem readsRight_iff {x8 : Bool} {o : DramObs} :
    readsRight x8 o = true ↔ decodesRight (dramDecode x8 o.first) = true ∧ decodesRight (dramDecode x8 o.again) = true := by
  unfold readsRight
  cases dramDecode x8 o.first <;> cases dramDecode x8 o.again <;> simp [decodesRight]

theorem writtenBack_right {d : DramDecode} (h : decodesRight d = true) : (writtenBack d).all (· == 0) = true := by
  cases d with
  | clean w => rfl
  | corrected chip sym w => exact h
  | uncorrectable => rfl

/-- A block read leaves every byte outside its block. -/
theorem dramResult_byte_of_outside (s : State) (addr : BitVec 40) (source : Nat) (o : DramObs) {x : Nat}
    (h : x / 128 ≠ addr.toNat / 128) :
    memByte (s.dramResult addr source o).2.mem.cells x = memByte s.mem.cells x := by
  rw [dramResult_cells]
  exact memByte_spoil_of_outside _ _ _ _ h

/-- A block read that delivers what was written leaves every byte. -/
theorem dramResult_cells_of_right {s : State} {o : DramObs} (h : readsRight s.mem.x8 o = true) (addr : BitVec 40)
    (source : Nat) : (s.dramResult addr source o).2.mem.cells = s.mem.cells := by
  rw [dramResult_cells, spoil_of_right (writtenBack_right (readsRight_iff.1 h).1)]

/-- Where reads deliver what was written, the data delivered holds no error. -/
theorem dramResult_right {s : State} {o : DramObs} (h : readsRight s.mem.x8 o = true) {addr : BitVec 40} {source : Nat}
    {wrong : List Nat} (hw : (s.dramResult addr source o).1 = some wrong) : wrong.all (· == 0) = true := by
  obtain ⟨hfirst, hagain⟩ := readsRight_iff.1 h
  unfold State.dramResult at hw
  cases hf : dramDecode s.mem.x8 o.first with
  | clean w =>
    rw [hf] at hw hfirst
    cases hw
    exact hfirst
  | corrected chip sym w =>
    have : wrong = [] := by
      rw [hf] at hw
      dsimp only at hw
      split at hw <;> exact (Option.some.inj hw).symm
    rw [this]; rfl
  | uncorrectable =>
    rw [hf] at hw
    cases ha : dramDecode s.mem.x8 o.again with
    | clean w =>
      rw [ha] at hw hagain
      cases hw
      exact hagain
    | corrected chip sym w =>
      rw [ha] at hw hagain
      cases hw
      exact hagain
    | uncorrectable =>
      rw [ha] at hw
      cases hw

/-- The bytes of DRAM after a read are those that the block read leaves, or, where it is not made, those before. -/
theorem exec_dramRead_cells {s t : State} {addr : BitVec 40} {r : Requester} {o : DramObs}
    (h : exec (.dramRead addr r o) s = .next t) :
    t.mem.cells = s.mem.cells ∨ t.mem.cells = (s.dramResult addr 0 o).2.mem.cells := by
  change execDramRead addr r o s = .next t at h
  unfold execDramRead at h
  split at h
  · cases h; exact .inl rfl
  split at h
  · cases h
  right
  generalize s.dramResult addr 0 o = d at h ⊢
  obtain ⟨_ | wrong, s1⟩ := d
  · cases h; exact busErrorTo_cells s1 r addr
  · cases r <;> (cases h; rfl)

/-- The bytes of DRAM after a partial write (R363): those before where it is not made, those that its read leaves where that is
uncorrectable, and otherwise the bytes stored over the data of its read. -/
theorem exec_dramPartialWrite_cells {s t : State} {addr : BitVec 40} {bytes : List Byte} {r : Requester} {o : DramObs}
    (h : exec (.dramPartialWrite addr bytes r o) s = .next t) :
    t.mem.cells = s.mem.cells ∨ t.mem.cells = (s.dramResult addr 1 o).2.mem.cells
    ∨ ∃ wrong, (s.dramResult addr 1 o).1 = some wrong
      ∧ t.mem.cells = memWrite ((s.dramResult addr 1 o).2.mem.spoil addr.toNat wrong).cells addr.toNat
          (bytes.take (128 - addr.toNat % 128)) := by
  change execDramPartialWrite addr bytes r o s = .next t at h
  unfold execDramPartialWrite at h
  split at h
  · cases h; exact .inl rfl
  split at h
  · cases h
  right
  generalize s.dramResult addr 1 o = d at h ⊢
  obtain ⟨_ | wrong, s1⟩ := d
  · cases h; exact .inl (busErrorTo_cells s1 r addr)
  · cases h; exact .inr ⟨wrong, rfl, rfl⟩

/-- A partial write leaves every byte outside its block. -/
theorem exec_dramPartialWrite_byte_of_block {s t : State} {addr : BitVec 40} {bytes : List Byte} {r : Requester} {o : DramObs}
    (h : exec (.dramPartialWrite addr bytes r o) s = .next t) {x : Nat} (hx : x / 128 ≠ addr.toNat / 128) :
    memByte t.mem.cells x = memByte s.mem.cells x := by
  obtain hc | hc | ⟨wrong, -, hc⟩ := exec_dramPartialWrite_cells h
  · rw [hc]
  · rw [hc, dramResult_byte_of_outside _ _ _ _ hx]
  · rw [hc, memByte_memWrite_of_outside _ _ _ _ (by rw [List.length_take]; omega), memByte_spoil_of_outside _ _ _ _ hx,
      dramResult_byte_of_outside _ _ _ _ hx]

/-- A partial write whose reads deliver what was written leaves every byte that it does not store. -/
theorem exec_dramPartialWrite_byte_of_right {s t : State} {addr : BitVec 40} {bytes : List Byte} {r : Requester} {o : DramObs}
    (h : exec (.dramPartialWrite addr bytes r o) s = .next t) (hr : readsRight s.mem.x8 o = true) {x : Nat}
    (hx : x < addr.toNat ∨ addr.toNat + min bytes.length (128 - addr.toNat % 128) ≤ x) :
    memByte t.mem.cells x = memByte s.mem.cells x := by
  obtain hc | hc | ⟨wrong, hw, hc⟩ := exec_dramPartialWrite_cells h
  · rw [hc]
  · rw [hc, dramResult_cells_of_right hr]
  · rw [hc, memByte_memWrite_of_outside _ _ _ _ (by rw [List.length_take]; omega), spoil_of_right (dramResult_right hr hw),
      dramResult_cells_of_right hr]

/-- A read that delivers what was written leaves every byte. -/
theorem exec_dramRead_cells_of_right {s t : State} {addr : BitVec 40} {r : Requester} {o : DramObs}
    (h : exec (.dramRead addr r o) s = .next t) (hr : readsRight s.mem.x8 o = true) : t.mem.cells = s.mem.cells := by
  obtain hc | hc := exec_dramRead_cells h
  · exact hc
  · rw [hc, dramResult_cells_of_right hr]

/-! ### The engine cache (R378 to R383) -/

/-- An access of a core goes to DRAM while the cache is disabled (R383), and leaves every byte there otherwise: the cache serves it,
or it waits for a fill. -/
theorem exec_cacheAccess_cells {s t : State} {c : CoreNo} {addr : BitVec 40} {a : CoreAccess}
    (h : exec (.cacheAccess c addr a) s = .next t) :
    t.mem.cells = s.mem.cells ∨ s.mem.cache.enabled = false ∧ t.mem.cells = (s.uncached addr a).mem.cells := by
  change execCacheAccess c addr a s = .next t at h
  unfold execCacheAccess at h
  split at h
  · cases h; exact .inl rfl
  split at h
  · cases h
  split at h
  next he => cases h; exact .inr ⟨by simpa using he, rfl⟩
  left
  dsimp only at h
  split at h
  · cases h; simp
  split at h
  · cases h; simp
  split at h <;> (cases h; simp)

/-- A load leaves every byte of DRAM. -/
theorem exec_load_cells {s t : State} {c : CoreNo} {addr : BitVec 40} (h : exec (.cacheAccess c addr .load) s = .next t) :
    t.mem.cells = s.mem.cells := by
  obtain hc | ⟨-, hc⟩ := exec_cacheAccess_cells h
  · exact hc
  · rw [hc]; rfl

/-- A store leaves every byte of DRAM while the cache is enabled. -/
theorem exec_store_cells_of_enabled {s t : State} {c : CoreNo} {addr : BitVec 40} {v : BitVec 64}
    (h : exec (.cacheAccess c addr (.store v)) s = .next t) (he : s.mem.cache.enabled = true) : t.mem.cells = s.mem.cells := by
  obtain hc | ⟨hd, -⟩ := exec_cacheAccess_cells h
  · exact hc
  · rw [he] at hd; cases hd

/-- A store leaves every byte of DRAM but the 8 at the boundary at or below its address (log entry 34). -/
theorem exec_store_byte_of_outside {s t : State} {c : CoreNo} {addr : BitVec 40} {v : BitVec 64}
    (h : exec (.cacheAccess c addr (.store v)) s = .next t) {x : Nat}
    (hx : x < addr.toNat / 8 * 8 ∨ addr.toNat / 8 * 8 + 8 ≤ x) : memByte t.mem.cells x = memByte s.mem.cells x := by
  obtain hc | ⟨-, hc⟩ := exec_cacheAccess_cells h
  · rw [hc]
  · rw [hc]
    exact memByte_memWrite_of_outside _ _ _ _ (by rwa [length_leBytes])

/-- A line written back leaves every byte outside it. -/
theorem memByte_putLine_of_outside (m : Memory) (l : BitVec 34) (d : BitVec 512) {x : Nat}
    (hx : x < l.toNat * 64 ∨ l.toNat * 64 + 64 ≤ x) : memByte (m.putLine l d).cells x = memByte m.cells x :=
  memByte_memWrite_of_outside _ _ _ _ (by rwa [length_leBytes])

/-- Cleaning a line leaves every byte of DRAM outside it. -/
theorem memByte_cleanLine_of_outside (m : Memory) (l : BitVec 34) {x : Nat}
    (hx : x < l.toNat * 64 ∨ l.toNat * 64 + 64 ≤ x) : memByte (m.cleanLine l).cells x = memByte m.cells x := by
  unfold Memory.cleanLine
  split
  · rfl
  dsimp only
  split
  · split
    · exact memByte_putLine_of_outside m l _ hx
    · rfl
  · rfl

/-- Maintenance of a line leaves every byte of DRAM outside it. -/
theorem memByte_maintLineOp_of_outside (m : Memory) (code : Nat) (l : BitVec 34) {x : Nat}
    (hx : x < l.toNat * 64 ∨ l.toNat * 64 + 64 ≤ x) : memByte (m.maintLineOp code l).cells x = memByte m.cells x := by
  unfold Memory.maintLineOp
  split
  · rfl
  · exact memByte_cleanLine_of_outside m l hx
  · exact memByte_cleanLine_of_outside m l hx

/-- Maintenance by address leaves every byte of DRAM outside the line of its register, whether it is applied, waits or is
rejected (R381, R382). -/
theorem memByte_maintByAddress_of_outside (s : State) (code : Nat) {x : Nat}
    (hx : x < s.mem.cache.maintLine.toNat * 64 ∨ s.mem.cache.maintLine.toNat * 64 + 64 ≤ x) :
    memByte (s.maintByAddress code).mem.cells x = memByte s.mem.cells x := by
  unfold State.maintByAddress
  dsimp only
  split
  · rfl
  split
  · rfl
  · exact memByte_maintLineOp_of_outside _ _ _ hx

/-- A clean of one line by the maintenance registers is maintenance by address, while the cores run. -/
theorem exec_cleanLine_cases {s t : State} {i : Instr} (hi : i = .cacheCleanLine ∨ i = .cacheCleanInvalidateLine)
    (h : exec i s = .next t) : t = s ∨ ∃ code, t = s.maintByAddress code := by
  obtain rfl | rfl := hi
  · change execCacheCleanLine s = .next t at h
    unfold execCacheCleanLine at h
    split at h <;> cases h
    · exact .inr ⟨2, rfl⟩
    · exact .inl rfl
  · change execCacheCleanInvalidateLine s = .next t at h
    unfold execCacheCleanInvalidateLine at h
    split at h <;> cases h
    · exact .inr ⟨3, rfl⟩
    · exact .inl rfl

/-- The clean of one line leaves every byte of DRAM outside it. -/
theorem exec_cleanLine_byte_of_outside {s t : State} {i : Instr} (hi : i = .cacheCleanLine ∨ i = .cacheCleanInvalidateLine)
    (h : exec i s = .next t) {x : Nat}
    (hx : x < s.mem.cache.maintLine.toNat * 64 ∨ s.mem.cache.maintLine.toNat * 64 + 64 ≤ x) :
    memByte t.mem.cells x = memByte s.mem.cells x := by
  obtain rfl | ⟨code, rfl⟩ := exec_cleanLine_cases hi h
  · rfl
  · exact memByte_maintByAddress_of_outside s code hx

/-- Where no maintenance waits, none is applied. -/
theorem maintRelease_of_none {s : State} (h : s.mem.cache.maintWait = none) (l : BitVec 34) : s.maintRelease l = s := by
  unfold State.maintRelease
  rw [h]

/-- An accepted writeback, with no maintenance waiting, leaves every byte of DRAM outside its line. -/
theorem exec_writebackAccept_byte_of_outside {s t : State} {l : BitVec 34} (hm : s.mem.cache.maintWait = none)
    (h : exec (.cacheWritebackAccept l) s = .next t) {x : Nat} (hx : x < l.toNat * 64 ∨ l.toNat * 64 + 64 ≤ x) :
    memByte t.mem.cells x = memByte s.mem.cells x := by
  change execCacheWritebackAccept l s = .next t at h
  unfold execCacheWritebackAccept at h
  split at h
  · cases h; rfl
  next e _ =>
    cases h
    rw [maintRelease_of_none]
    · exact memByte_putLine_of_outside s.mem l e.2 hx
    · exact hm

/-- Settles O57: each operation writes only the bytes it stores, by the rule that a write of bytes leaves the others. -/
theorem dramBytesKept : Obligations.DramBytesKept := by
  unfold Obligations.DramBytesKept
  refine ⟨memRead_memWrite, ?partialWrite, ?read, ?store, ?load, ?writeback, ?clean⟩
  case partialWrite =>
    intro s t addr bytes r o h
    exact ⟨fun x hx => exec_dramPartialWrite_byte_of_block h hx, fun hr x hx => exec_dramPartialWrite_byte_of_right h hr hx⟩
  case read => exact fun s t addr r o h hr => exec_dramRead_cells_of_right h hr
  case store =>
    intro s t c addr v h
    exact ⟨exec_store_cells_of_enabled h, fun x hx => exec_store_byte_of_outside h hx⟩
  case load => exact fun s t c addr h => exec_load_cells h
  case writeback => exact fun s t l hm h x hx => exec_writebackAccept_byte_of_outside hm h hx
  case clean => exact fun s t i hi h x hx => exec_cleanLine_byte_of_outside hi h hx

end Sys2Proof.Proofs
end

section
/-! PROOFS. The mailbox requests that set a value (R10, R11, R35, R314, R443) complete: the proof of the statement about them. -/

namespace Sys2Proof.Proofs

open Sys2Proof Sys2Proof.Machine Sys2Proof.Safety Sys2Proof.Laws

/-! ### Serving a request that sets a value -/

/-- The state in which a request that acts on the device as a whole is served (R307): its port is noted. -/
def noted (s : State) (p : Port) : State := s.onSys (fun y => { y with lastMbxPort := p })

/-- A request of an opcode that acts on the device as a whole, when it is accepted, is served with its port noted. -/
theorem serve_whole {s : State} {p : Port} {op : Nat} {want : BitVec 512 → Bool} {body : State → BitVec 512 → State}
    (h : accepts s p op = true) (hop : mbxWhole op = true) (hw : want s.ports[p].mbx.req = true) :
    s.serve p op want body = body (noted s p) s.ports[p].mbx.req := by
  rw [serve_of_accepts h hw, if_pos hop]
  rfl

/-- An accepted Set Parameter of a bay-level parameter that acts, within its range, acts on its bay and is answered. -/
theorem serveBaySet_of_accepts {s : State} {p : Port} {id top : Nat} {body : State → BayNo → Nat → State × Byte} {b : BayNo}
    (h : accepts s p 0x102 = true) (hn : namesParam id s.ports[p].mbx.req = true)
    (hb : requestBay s.ports[p].mbx.req = some b)
    (hv : 0 ≤ requestValue s.ports[p].mbx.req ∧ requestValue s.ports[p].mbx.req ≤ top) :
    s.serveBaySet p id top body
      = (body (noted s p) b (requestValue s.ports[p].mbx.req).toNat).1.respond p
          (body (noted s p) b (requestValue s.ports[p].mbx.req).toNat).2 := by
  unfold State.serveBaySet
  rw [serve_whole h rfl hn]
  dsimp only
  rw [hb]
  dsimp only
  rw [if_pos hv]

/-- An accepted Set Parameter of a device-level parameter that acts, within its range, acts and is answered 0x00. -/
theorem serveDevSet_of_accepts {s : State} {p : Port} {id top : Nat} {body : State → Nat → State}
    (h : accepts s p 0x102 = true) (hn : namesParam id s.ports[p].mbx.req = true)
    (hv : 0 ≤ requestValue s.ports[p].mbx.req ∧ requestValue s.ports[p].mbx.req ≤ top) :
    s.serveDevSet p id top body
      = (body (noted s p) (requestValue s.ports[p].mbx.req).toNat).respond p 0x00 := by
  unfold State.serveDevSet
  rw [serve_whole h rfl hn, if_pos hv]

/-! ### Parameter values and policies (R11, R35) -/

@[simp] theorem afterAccept_params (s : State) (id inst : Nat) (old v : Int) :
    (s.afterAccept id inst old v).params = s.params :=
  params_of_hide (by simp [hide_afterAccept])

/-- A value in range and in agreement is the one last accepted (R10, R11). -/
theorem setParameter_completes {s : State} {p : Port} (buf : BufRead) {i : ParamInfo} {n : Nat}
    (h : accepts s p 0x102 = true) (hi : requestParam s.ports[p].mbx.req = some (i, n))
    (hrow : ownRow (mbxPay s.ports[p].mbx.req 0 2) = false)
    (hval : ownValue (mbxPay s.ports[p].mbx.req 0 2) (requestValue s.ports[p].mbx.req) = false) (hl : i.range ≠ .long)
    (ha : s.accepts i n (requestValue s.ports[p].mbx.req) = true) :
    Completes (.setParameter p buf) s (fun t => answered t p 0x00
      ∧ t.params = s.params.accept n i (requestValue s.ports[p].mbx.req)) := by
  refine ⟨_, rfl, ?_⟩
  have ha' : (noted s p).accepts i n (requestValue s.ports[p].mbx.req) = true := ha
  rw [serve_whole h rfl (by rw [hrow, hval]; rfl)]
  dsimp only
  rw [hi]
  dsimp only
  rw [if_neg hl, if_pos ha']
  exact ⟨answered_respond _ _ _ _ _, by rw [respond_params, afterAccept_params]; rfl⟩

/-- A value whose effect term is Immediate is in force at once (Table 0.5), and no other value in force changes. -/
theorem value_accept {i : ParamInfo} (hi : i.effect = .immediate) (q : Params) (n m id : Nat) (v : Int) :
    (q.accept n i v).value m id = if paramKey m id = paramKey n i.id then v else q.value m id := by
  unfold Params.accept Params.value
  rw [hi]
  dsimp only
  rw [lookupKey_insertKey]
  by_cases h : paramKey m id = paramKey n i.id
  · rw [if_pos h, if_pos h]
  · rw [if_neg h, if_neg h]

/-- The row of a policy entry (R35). -/
def policyRow (k : Nat) : ParamInfo := ⟨Param.polRetireReceiver + k, .device, .span 0 1, 1, .immediate, false⟩

theorem paramInfo_policy : ∀ k < 8, paramInfo (Param.polRetireReceiver + k) = some (policyRow k) := by
  decide

/-- An accepted policy entry is in force, and the other entries stay. -/
theorem dp_accept_policy (s : State) (j k : Nat) (v : Int) :
    (s.accept (policyRow j) 8 v).dp (Param.polRetireReceiver + k)
      = if k = j then v else s.dp (Param.polRetireReceiver + k) := by
  refine (value_accept (i := policyRow j) rfl s.params 8 8 _ v).trans (if_congr ?_ rfl rfl)
  dsimp only [paramKey, policyRow]
  omega

/-- Policy entries accepted in turn are all in force, whatever their order. -/
theorem dp_foldl_policy {setOne : State → Nat → State} {f : Nat → Int}
    (hset : ∀ u, ∀ j < 8, setOne u j = u.accept (policyRow j) 8 (f j)) (k : Nat) (ks : List Nat) (hks : ∀ j ∈ ks, j < 8)
    (s : State) :
    (ks.foldl setOne s).dp (Param.polRetireReceiver + k) = if k ∈ ks then f k else s.dp (Param.polRetireReceiver + k) := by
  induction ks generalizing s with
  | nil => simp
  | cons j ks ih =>
    rw [List.foldl_cons, ih (fun i hi => hks i (List.mem_cons_of_mem _ hi)), hset s j (hks j List.mem_cons_self),
      dp_accept_policy]
    by_cases hk : k ∈ ks
    · simp [hk]
    · by_cases hj : k = j
      · simp [hj]
      · simp [hk, hj]

@[simp] theorem respond_dp (s : State) (p : Port) (st : Byte) (rs bs : List Byte) (id : Nat) :
    (s.respond p st rs bs).dp id = s.dp id := by
  unfold State.dp
  rw [respond_params]

/-- A policy set writes its eight entries (R35). -/
theorem policySet_completes {s : State} {p : Port} (h : accepts s p 0x104 = true)
    (hk : ∀ k < 8, mbxPay s.ports[p].mbx.req k 1 ≤ 1) :
    Completes (.policySet p) s (fun t => answered t p 0x00
      ∧ ∀ k < 8, t.dp (Param.polRetireReceiver + k) = mbxPay s.ports[p].mbx.req k 1) := by
  refine ⟨_, rfl, ?_⟩
  rw [serve_whole h rfl rfl]
  dsimp only
  rw [if_pos (by simpa using hk)]
  refine ⟨answered_respond _ _ _ _ _, fun k hk8 => ?_⟩
  rw [respond_dp, dp_foldl_policy (f := fun k => mbxPay s.ports[p].mbx.req k 1) ?_ k _ (by simp), if_pos (by simpa using hk8)]
  intro u j hj
  rw [paramInfo_policy j hj]

/-! ### Firmware (R314, R443) -/

/-- A download from offset 0 starts a new image (R314). -/
theorem firmwareDownload_completes {s : State} {p : Port} (bs : List Byte) (h : accepts s p 0x120 = true)
    (h0 : mbxPay s.ports[p].mbx.req 0 4 = 0) :
    Completes (.firmwareDownload p (.ok bs)) s (fun t => answered t p 0x00 ∧ t.sys.download = some
      { bytes := bs.take (mbxLen s.ports[p].mbx.req), complete := decide (mbxPay s.ports[p].mbx.req 4 1 % 2 = 1), port := p,
        discarded := false }) := by
  refine ⟨_, rfl, ?_⟩
  rw [serve_whole h rfl rfl]
  dsimp only
  rw [if_pos h0]
  exact ⟨answered_respond _ _ _ _ _, by rw [respond_sys, onSys_sys]⟩

/-- The directory record in use after a write is the one written (R439). -/
@[simp] theorem writeDir_dir (f : BootFlash) (slots : Vector Slot 2) (k : Fin 2) :
    (f.writeDir slots k).dir = { slots := slots, preferred := k, seq := f.dir.seq + 1 } := by
  simp [BootFlash.dir, BootFlash.writeDir]

/-- A committed image stands in the slot that does not run as a trial, and that slot is preferred (R443). -/
theorem commitImage_slot (s : State) (bs : List Byte) :
    (s.commitImage bs).flash.slots[s.inactive].st = .trial ∧ (s.commitImage bs).flash.preferred = s.inactive := by
  unfold State.commitImage BootFlash.slots BootFlash.preferred
  dsimp only
  rw [onSys_flash, onFlash_flash, writeDir_dir]
  refine ⟨?_, rfl⟩
  simp [imageSlot]

/-- A complete image is committed where it verifies, and refused with 0x51 otherwise (R314, R443). -/
theorem commit_of_complete {s : State} {d : Download} (hd : s.sys.download = some d) (hc : d.complete = true)
    (hk : d.discarded = false) :
    s.commit = if imageOk d.bytes then (s.commitImage d.bytes, 0x00) else (s, 0x51) := by
  unfold State.commit
  rw [hd]
  dsimp only
  rw [hc, hk]
  cases imageOk d.bytes <;> rfl

/-- A commit fills the slot that does not run with an image that verifies, and is answered 0x51 with one that does not. -/
theorem firmwareCommit_completes {s : State} {p : Port} {d : Download} (h : accepts s p 0x121 = true)
    (ha : activateAction s.ports[p].mbx.req = 0) (hd : s.sys.download = some d) (hc : d.complete = true)
    (hk : d.discarded = false) :
    Completes (.firmwareCommit p) s (fun t => if imageOk d.bytes then
        answered t p 0x00 ∧ t.flash.slots[1 - s.sys.runSlot].st = .trial ∧ t.flash.preferred = 1 - s.sys.runSlot
      else answered t p 0x51) := by
  refine ⟨_, rfl, ?_⟩
  have hcommit := commit_of_complete (s := noted s p) hd hc hk
  rw [serve_whole h rfl (by rw [ha]; rfl)]
  dsimp only
  rw [if_pos ha, hcommit]
  by_cases hok : imageOk d.bytes = true
  · rw [if_pos hok, if_pos hok]
    refine ⟨answered_respond _ _ _ _ _, ?_⟩
    rw [respond_flash]
    exact commitImage_slot (noted s p) d.bytes
  · rw [if_neg hok, if_neg hok]
    exact answered_respond _ _ _ _ _

/-! ### Parameters whose writing acts (R80, R159, R251, R256, R267, R348) -/

/-- The receivers whose bits are written as 1 become due (R80). -/
theorem calReq_completes {s : State} {p : Port} {b : BayNo} (h : accepts s p 0x102 = true)
    (hn : namesParam Param.afeCalReq s.ports[p].mbx.req = true) (hb : requestBay s.ports[p].mbx.req = some b)
    (h0 : 0 ≤ requestValue s.ports[p].mbx.req) (h1 : requestValue s.ports[p].mbx.req ≤ 0x1F) :
    Completes (.calReq p) s (fun t => answered t p 0x00 ∧ ∀ i : RecvNo,
      (requestValue s.ports[p].mbx.req).toNat.testBit i.val = true → t.bays[b].afe.recvs[i].due = true) := by
  refine ⟨_, rfl, ?_⟩
  rw [serveBaySet_of_accepts h hn hb ⟨h0, h1⟩]
  refine ⟨answered_respond _ _ _ _ _, fun i hi => ?_⟩
  simp only [Fin.getElem_fin] at hi
  simp [hi]

/-- A layer that becomes due is due, and the others stay as they were (R159). -/
theorem makeDue_opcDue_bit (w : WritePath) (l i : LayerNo) :
    (w.makeDue l).opcDue.getLsbD i.val = (w.opcDue.getLsbD i.val || decide (l = i)) := by
  unfold WritePath.makeDue
  split
  next hl =>
    by_cases e : l = i
    · subst e
      simpa [bitAt] using hl
    · simp [e]
  next hl =>
    dsimp only [setBit]
    rw [if_pos rfl, BitVec.getLsbD_or, BitVec.getLsbD_ofNat, Nat.testBit_two_pow, decide_eq_true i.isLt, Bool.true_and]
    simp only [Fin.ext_iff]

/-- The layers of a list that a condition names become due, and the others stay as they were (R159). -/
theorem foldl_makeDue_bit (which : LayerNo → Bool) (i : LayerNo) (ls : List LayerNo) (w : WritePath) :
    (ls.foldl (fun (x : WritePath) l => if which l then x.makeDue l else x) w).opcDue.getLsbD i.val
      = (w.opcDue.getLsbD i.val || (which i && decide (i ∈ ls))) := by
  induction ls generalizing w with
  | nil => simp
  | cons l ls ih =>
    rw [List.foldl_cons, ih]
    by_cases hl : which l = true
    · rw [if_pos hl, makeDue_opcDue_bit, Bool.or_assoc]
      by_cases e : l = i
      · subst e; simp [hl]
      · simp [e, Ne.symm e]
    · rw [if_neg hl]
      by_cases e : i = l
      · subst e; simp [hl]
      · simp [e]

/-- The layers whose bits a number has become due (R159). -/
theorem makeAllDue_testBit (w : WritePath) (v : Nat) :
    (w.makeAllDue (fun l => v.testBit l.val)).opcDue = w.opcDue ||| BitVec.ofNat 16 v := by
  apply BitVec.eq_of_getLsbD_eq
  intro i hi
  rw [WritePath.makeAllDue, foldl_makeDue_bit _ ⟨i, hi⟩, BitVec.getLsbD_or, BitVec.getLsbD_ofNat]
  simp only [List.mem_finRange, decide_true, hi, Bool.and_true, Bool.true_and]

/-- The layers whose bits are written as 1 become due (R159). -/
theorem opcReq_completes {s : State} {p : Port} {b : BayNo} (h : accepts s p 0x102 = true)
    (hn : namesParam Param.wrOpcReq s.ports[p].mbx.req = true) (hb : requestBay s.ports[p].mbx.req = some b)
    (h0 : 0 ≤ requestValue s.ports[p].mbx.req) (h1 : requestValue s.ports[p].mbx.req ≤ 0xFFFF) :
    Completes (.opcReq p) s (fun t => answered t p 0x00
      ∧ t.bays[b].wp.opcDue = s.bays[b].wp.opcDue ||| BitVec.ofNat 16 (requestValue s.ports[p].mbx.req).toNat) := by
  refine ⟨_, rfl, ?_⟩
  rw [serveBaySet_of_accepts h hn hb ⟨h0, h1⟩]
  exact ⟨answered_respond _ _ _ _ _, by simp [makeAllDue_testBit, noted]⟩

/-- A bay takes the state that a row of Table 9.7 leads to. -/
theorem setBaySt_st {s : State} {b : BayNo} {new : BaySt} {row : Nat} (hne : s.bays[b].seq.st ≠ new)
    (hr : bayRow row s.bays[b].seq.st new = true) : (s.setBaySt b new row).bays[b].seq.st = new := by
  unfold State.setBaySt
  dsimp only
  rw [if_neg (not_or_intro hne (by rw [hr]; decide))]
  repeat' split
  all_goals simp

/-- 1 returns a FAULTED bay with no disc on the tray to EMPTY (R251). -/
theorem bayReturn_completes {s : State} {p : Port} {b : BayNo} (h : accepts s p 0x102 = true)
    (hn : namesParam Param.bayReturn s.ports[p].mbx.req = true) (hb : requestBay s.ports[p].mbx.req = some b)
    (hv : requestValue s.ports[p].mbx.req = 1) (hf : s.bays[b].seq.st = .faulted) (ht : s.bays[b].seq.tray = false) :
    Completes (.bayReturn p) s (fun t => answered t p 0x00 ∧ t.bays[b].seq.st = .empty ∧ t.bays[b].seq.cause = none) := by
  refine ⟨_, rfl, ?_⟩
  have hfree : (noted s p).bays[b].seq.st = .faulted ∧ (noted s p).bays[b].seq.tray = false := ⟨hf, ht⟩
  have hst : ((noted s p).setBaySt b .empty 22).bays[b].seq.st = .empty :=
    setBaySt_st (by rw [hfree.1]; decide) (by rw [hfree.1]; rfl)
  rw [serveBaySet_of_accepts h hn hb (by rw [hv]; decide), hv]
  dsimp only
  rw [if_neg (by decide), if_pos hfree]
  refine ⟨answered_respond _ _ _ _ _, ?_, ?_⟩
  · simpa using hst
  · simp

/-- 1 clears a faulted handler (R256). -/
theorem hndReturn_completes {s : State} {p : Port} (h : accepts s p 0x102 = true)
    (hn : namesParam Param.hndReturn s.ports[p].mbx.req = true) (hv : requestValue s.ports[p].mbx.req = 1) :
    Completes (.hndReturn p) s (fun t => answered t p 0x00 ∧ t.hnd.faulted = false) := by
  refine ⟨_, rfl, ?_⟩
  rw [serveDevSet_of_accepts h hn (by rw [hv]; decide), hv]
  dsimp only
  rw [if_pos (by decide)]
  exact ⟨answered_respond _ _ _ _ _, by simp⟩

/-- The edge counters whose bits are written as 1 are cleared (R267). -/
theorem inClear_completes {s : State} {p : Port} (h : accepts s p 0x102 = true)
    (hn : namesParam Param.hndInClear s.ports[p].mbx.req = true) (h0 : 0 ≤ requestValue s.ports[p].mbx.req)
    (h1 : requestValue s.ports[p].mbx.req ≤ 0xFFF) :
    Completes (.inClear p) s (fun t => answered t p 0x00 ∧ ∀ i : InputNo,
      (requestValue s.ports[p].mbx.req).toNat.testBit i.val = true → t.hnd.inputs[i].edges = 0) := by
  refine ⟨_, rfl, ?_⟩
  rw [serveDevSet_of_accepts h hn ⟨h0, h1⟩]
  refine ⟨answered_respond _ _ _ _ _, fun i hi => ?_⟩
  simp only [Fin.getElem_fin] at hi
  simp [hi]

/-- A root record leaves the flag of an incomplete Vent (R348). -/
@[simp] theorem writeRoot_incomplete (s : State) (clean warm : Bool) :
    (s.writeRoot clean warm).stg.incomplete = s.stg.incomplete := by
  simp [State.writeRoot, apply_ite State.stg]

/-- 1 clears the flag of an incomplete Vent (R348). -/
theorem stateClear_completes {s : State} {p : Port} (h : accepts s p 0x102 = true)
    (hn : namesParam Param.stgStateClear s.ports[p].mbx.req = true) (hv : requestValue s.ports[p].mbx.req = 1) :
    Completes (.stateClear p) s (fun t => answered t p 0x00 ∧ t.stg.incomplete = false) := by
  refine ⟨_, rfl, ?_⟩
  rw [serveDevSet_of_accepts h hn (by rw [hv]; decide), hv]
  dsimp only
  rw [if_pos (by decide)]
  exact ⟨answered_respond _ _ _ _ _, by simp⟩

/-- Settles O9: an accepted request is served by its command, whose effect each lemma above reads off. -/
theorem mailboxSettingsComplete : Obligations.MailboxSettingsComplete := by
  unfold Obligations.MailboxSettingsComplete
  exact ⟨fun _ _ buf _ _ h hi hrow hval hl ha => setParameter_completes buf h hi hrow hval hl ha,
    fun _ _ h hk => policySet_completes h hk,
    fun _ _ bs h h0 => firmwareDownload_completes bs h h0,
    fun _ _ _ h ha hd hc hk => firmwareCommit_completes h ha hd hc hk,
    fun _ _ _ h hn hb h0 h1 => calReq_completes h hn hb h0 h1,
    fun _ _ _ h hn hb h0 h1 => opcReq_completes h hn hb h0 h1,
    fun _ _ _ h hn hb hv hf ht => bayReturn_completes h hn hb hv hf ht,
    fun _ _ h hn hv => hndReturn_completes h hn hv,
    fun _ _ h hn h0 h1 => inClear_completes h hn h0 h1,
    fun _ _ h hn hv => stateClear_completes h hn hv⟩

end Sys2Proof.Proofs
end

section
/-! PROOFS. A Write of a cluster that is staged under a later data sequence (R330, R398) is not placed: the refutation of the statement about the I/O commands that leave work behind. -/

namespace Sys2Proof.Proofs

open Sys2Proof Sys2Proof.Machine Sys2Proof.Safety Sys2Proof.Laws

/-! ### Operations that leave the staging tier -/

theorem stg_of_hide {s t : State} (h : hide (allBut .stg) t = hide (allBut .stg) s) : t.stg = s.stg :=
  (unchanged_of_hide h).stg.resolve_left (by simp)

section
variable (s : State)

@[simp] theorem giveAll_stg (o : Fin 12) (hs : List (BitVec 32)) : (s.giveAll o hs).stg = s.stg :=
  stg_of_hide (by simp [hide_giveAll])

@[simp] theorem ballastTake_stg (o : Fin 12) (size : Nat) : (s.ballastTake o size).1.stg = s.stg :=
  stg_of_hide (by simp [hide_ballastTake])

@[simp] theorem undoWrite_stg (vid : VolId) (hits : Nat → Bool) : (s.undoWrite vid hits).stg = s.stg :=
  stg_of_hide (by simp [hide_undoWrite])

@[simp] theorem setWait_stg (id : CmdId) (w : CmdWait) : (s.setWait id w).stg = s.stg := rfl

theorem eachBay_onDec_stg (f : State → BayNo → BayDecode → BayDecode) :
    (s.eachBay (fun t b => t.onDec b (f t b))).stg = s.stg :=
  stg_of_hide (hide_eachBay _ (fun _ _ => hide_onDec (by simp)) s)

theorem foldl_sendMirror_stg (own : Bool) (xs : List (VolId × Nat)) :
    (xs.foldl (fun t x => t.sendMirror x.1 x.2 own) s).stg = s.stg :=
  stg_of_hide (hide_foldl _ (fun _ _ => hide_sendMirror (by simp) (by simp)) xs s)

end

/-! ### A completion keeps which clusters are dirty -/

theorem dirty?_tagWrite (s : State) (c : Cmd) (vid : VolId) (u : Nat) :
    ((s.tagWrite c).stg.dirty? vid u).isSome = (s.stg.dirty? vid u).isSome := by
  simp only [State.tagWrite, onStg_stg, Staging.dirty?, List.find?_map, Option.isSome_map]
  congr 2
  funext d
  simp only [Function.comp]
  split <;> rfl

theorem dirty?_complete (s : State) (id : CmdId) (st : Byte) (r : BitVec 64) (vid : VolId) (u : Nat) :
    ((s.complete id st r).stg.dirty? vid u).isSome = (s.stg.dirty? vid u).isSome := by
  unfold State.complete
  split
  · rfl
  split
  · rfl
  next c _ =>
    have key : ∀ {cs : List Cmd}, ((if c.opcode = 2 ∧ st = 0 then State.tagWrite { s with cmds := cs } c
        else { s with cmds := cs }).stg.dirty? vid u).isSome = (s.stg.dirty? vid u).isSome := by
      intro cs
      split
      · exact dirty?_tagWrite _ c vid u
      · rfl
    dsimp only
    split
    · rw [send_stg, key]
    split
    · exact key
    · rw [post_stg, key]

/-! ### A staged copy of a later data sequence stays -/

/-- A cluster is staged under a data sequence later than `n`, and is not dirty. -/
def StagedLater (g : Staging) (n : Nat) (vid : VolId) (u : Nat) : Prop :=
  g.dirty? vid u = none ∧ ∃ e, g.entry? vid u = some e ∧ n < e.dataSeq

theorem place_of_stagedLater {g : Staging} {d : DirtyCluster} (h : StagedLater g d.dataSeq d.vid d.ucl) : g.place d = g := by
  obtain ⟨hd, e, he, hl⟩ := h
  unfold Staging.place
  rw [hd, he]
  exact if_pos hl

theorem placeDirty_stg (s : State) (d : DirtyCluster) : (s.placeDirty d).stg = s.stg.place d := by
  unfold State.placeDirty
  rw [giveAll_stg]
  rfl

theorem placeNew_stg_of_stagedLater {s : State} {d : DirtyCluster} (h : StagedLater s.stg d.dataSeq d.vid d.ucl) :
    (s.placeNew d).stg = s.stg := by
  have ht := ballastTake_stg s stagingOwner 65536
  unfold State.placeNew
  rw [h.1, if_neg (by decide)]
  generalize s.ballastTake stagingOwner 65536 = r at ht ⊢
  obtain ⟨t, _ | hd⟩ := r
  · exact ht
  · dsimp only at ht ⊢
    rw [placeDirty_stg, ht]
    exact place_of_stagedLater h

/-- A Write of one cluster, staged under a data sequence later than the Write's own, places nothing. -/
theorem placeWrite_stg_of_stagedLater {s : State} {c : Cmd} {xs : List SectorData} {u : Nat} (hc : c.clusterList = [(c.vid, u)])
    (h : StagedLater s.stg (s.sys.dataSeq + 1) c.vid u) : (s.placeWrite c xs).stg = s.stg := by
  unfold State.placeWrite
  rw [hc]
  exact placeNew_stg_of_stagedLater h

/-- A Write's wait or completion at its point keeps which clusters are dirty. -/
theorem dirty?_settle (s : State) (c : Cmd) (vid : VolId) (u : Nat) :
    ((if s.point c = .staged then s.setWait c.id .staged else s.complete c.id 0x00 0).stg.dirty? vid u).isSome
      = (s.stg.dirty? vid u).isSome := by
  split
  · rw [setWait_stg]
  · rw [dirty?_complete]

/-- What an applied Write leaves dirty is what its placing leaves dirty: its mirroring and its completion change no buffer. -/
theorem dirty?_applyWrite (s : State) (c : Cmd) (xs : List SectorData) (vid : VolId) (u : Nat) :
    ((s.applyWrite c xs).stg.dirty? vid u).isSome = ((s.placeWrite c xs).stg.dirty? vid u).isSome := by
  unfold State.applyWrite
  extract_lets mine s0 s1 s2 first s3
  have h2 : s2.stg = (s.placeWrite c xs).stg := by
    rw [onCmd_stg, undoWrite_stg, eachBay_onDec_stg]
  clear_value s2
  have h3 : s3.stg = s2.stg := by
    unfold s3
    split <;> rfl
  split
  · rw [setWait_stg, foldl_sendMirror_stg, h2]
  · rw [dirty?_settle, h3, h2]

/-! ### A Write that is applied -/

/-- A command that may be served is outstanding and waits for nothing. -/
theorem served_cmd {s : State} {id : CmdId} {o : Nat} {c : Cmd} {v : Volume} (h : s.served id o = some (c, v)) :
    s.cmd? id = some c ∧ c.wait = .none := by
  unfold State.served State.runnable at h
  split at h
  · next c' hr =>
    split at hr
    · next x hx =>
      split at hr
      · next hc =>
        obtain ⟨-, -, hw, -⟩ := hc
        split at h
        · cases hr
          cases h
          exact ⟨hx, hw⟩
        · cases h
      · cases hr
    · cases hr
  · cases h

/-- A Write that passes the checks of R291 and has room is applied. -/
theorem serveWrite_of_room {s : State} {c : Cmd} {v : Volume} (xs : List SectorData) (hk : v.known = true)
    (hc : s.writeCheck v c = none) (hm : s.meetsSeal c = false) (hr : s.writeRoom c = true) :
    s.serveWrite c v xs = s.applyWrite c xs := by
  unfold State.serveWrite
  rw [hk, if_neg (by decide), hc]
  dsimp only
  rw [hm, if_neg Bool.false_ne_true, if_pos hr]

/-- A Write whose data is here, that passes its checks and has room is applied (R291). -/
theorem exec_write_of_room {s : State} {id : CmdId} {ext : ExtentRead} {data : WriteData} {xs : List SectorData} {c : Cmd}
    {v : Volume} (hs : s.served id 2 = some (c, v)) (ho : v.ownPeer = false) (hf : s.writeFetch c ext data = (s, some xs))
    (hk : v.known = true) (hc : s.writeCheck v c = none) (hm : s.meetsSeal c = false) (hr : s.writeRoom c = true) :
    exec (.write id ext data) s = .next (s.applyWrite c xs) := by
  obtain ⟨hcmd, hw⟩ := served_cmd hs
  change execWrite id ext data s = _
  unfold execWrite
  rw [hcmd]
  dsimp only
  rw [if_neg (by rw [hw]; simp), hs]
  dsimp only
  rw [hf]
  dsimp only
  rw [ho, if_neg Bool.false_ne_true, serveWrite_of_room xs hk hc hm hr]

/-- A Write of one cluster, staged under a later data sequence, that passes its checks and has room leaves the cluster not dirty. -/
theorem exec_write_of_stagedLater {s t : State} {id : CmdId} {ext : ExtentRead} {data : WriteData} {xs : List SectorData}
    {c : Cmd} {v : Volume} {u : Nat} (hs : s.served id 2 = some (c, v)) (ho : v.ownPeer = false)
    (hf : s.writeFetch c ext data = (s, some xs)) (hk : v.known = true) (hc : s.writeCheck v c = none)
    (hm : s.meetsSeal c = false) (hr : s.writeRoom c = true) (hl : c.clusterList = [(c.vid, u)])
    (h : StagedLater s.stg (s.sys.dataSeq + 1) c.vid u) (ht : exec (.write id ext data) s = .next t) :
    (t.stg.dirty? c.vid u).isSome = false := by
  rw [exec_write_of_room hs ho hf hk hc hm hr] at ht
  obtain rfl := Host.Outcome.next.inj ht
  rw [dirty?_applyWrite, placeWrite_stg_of_stagedLater hl h, h.1]
  rfl

/-! ### The counterexample -/

/-- A Write of the first sector of volume 1, fetched and eligible. -/
def takenWrite : Cmd :=
  { id := ⟨false, 0, 0, 1⟩, order := 0, opcode := 2, flags := 0, vid := 1, lba := 0, count := 1, addr := 0, len := 0, spec := 0,
    exts := [], eligible := true, started := false, dropped := false, wait := .none, code := 0, data := [], retried := false,
    done := [], cover := [], written := 0, replaced := 0 }

/-- Volume 1, owned by this device, its recorded ranges known. -/
def takenVol : Volume := { newVolume 1 0 0 with known := true }

/-- The staged copy of the volume's first cluster, in superblock 2, under data sequence 5. -/
def takenCopy : MapEntry :=
  { vid := 1, ucl := 0, mask := 1, loc := location 0 2 0, sealed := false, dataSeq := 5, progSeq := 1, sectors := [(0, 9)],
    lost := 0, queues := [] }

/-- A superblock of LUN 0 in a state, with its next free place. -/
def blockIn (b : Nat) (st : SbState) (next : Nat) : Superblock :=
  { lun := 0, block := b, st := st, next := next, erases := 0, firstProgram := 0, tempSum := 0, programs := 0, age := 0,
    closedAt := 0, xor := [] }

/-- The survivor of a takeover (R402) that has placed no Write of its own: volume 1 is its own now, and the mirror copy that it
staged for the peer stands in its map under the peer's data sequence, beyond its own count. -/
def survivor : State :=
  { State.reset with
      sys := { State.reset.sys with mode := .pairedDegraded },
      pair := { State.reset.pair with role := { State.reset.pair.role with role := 3 } },
      cmds := [takenWrite], vols := [takenVol],
      stg :=
        { State.reset.stg with
            luns := [0], pages := 1024, blocks := 16, limit := 64,
            sbs := [blockIn 0 .reserve 0, blockIn 1 .reserve 0, blockIn 2 (.opened 0) 1], map := [takenCopy] },
      mem :=
        { State.reset.mem with
            gib := 16,
            pools := State.reset.mem.pools.set 2
              { State.reset.mem.pools[2] with size := 100000, cache := [0], ring := [(1, 99999)] } } }

/-- The staged copy is of a later data sequence than the Write gets. -/
theorem survivor_stagedLater : StagedLater survivor.stg (survivor.sys.dataSeq + 1) 1 0 :=
  ⟨rfl, takenCopy, rfl, by decide⟩

/-- Refutes O3, in its first part: a Write that passes its checks and has room is not placed where its cluster is staged under
a later data sequence. -/
theorem not_ioWorkCompletes : ¬ Obligations.IoWorkCompletes := by
  unfold Obligations.IoWorkCompletes
  intro h
  have hs : survivor.served takenWrite.id 2 = some (takenWrite, takenVol) := by decide +kernel
  have hf : survivor.writeFetch takenWrite .inline (.ok [7]) = (survivor, some [7]) := rfl
  have hc : survivor.writeCheck takenVol takenWrite = none := by decide +kernel
  have hm : survivor.meetsSeal takenWrite = false := by decide +kernel
  have hr : survivor.writeRoom takenWrite = true := by decide +kernel
  obtain ⟨t, ht, hd⟩ := h.1 survivor takenWrite.id .inline (.ok [7]) [7] takenWrite takenVol hs rfl hf rfl hc hm hr rfl
  have hlost : (t.stg.dirty? 1 0).isSome = false :=
    exec_write_of_stagedLater hs rfl hf rfl hc hm hr rfl survivor_stagedLater ht
  have hplaced : (t.stg.dirty? 1 0).isSome = true := hd (1, 0) (by decide)
  rw [hlost] at hplaced
  cases hplaced

end Sys2Proof.Proofs
end

section
/-! PROOFS. The mode requests and the end of calibration (R29, R31, R80) complete: the proof of the statement about them. -/

namespace Sys2Proof.Proofs

open Sys2Proof Sys2Proof.Machine Sys2Proof.Safety Sys2Proof.Laws

/-! ### Changing mode (R29, R396) -/

@[simp] theorem abandonDiag_sys (s : State) : s.abandonDiag.sys = s.sys := by
  unfold State.abandonDiag
  split <;> rfl

/-- In a mode with PEER_OK active, PEER_OK is driven and nothing else changes (R396). -/
theorem drivePeerOk_of_peerOk {s : State} (h : s.sys.mode.peerOk = true) :
    s.drivePeerOk = s.onPair (fun q => { q with peerOk := true }) := by
  unfold State.drivePeerOk
  dsimp only
  rw [h, Bool.not_true, Bool.and_false, if_neg Bool.false_ne_true]

/-- A change of mode that Table 1.7 has, into a mode with PEER_OK active, changes nothing else of the device-wide control. -/
theorem setMode_sys {s : State} {m : Mode} (hmay : s.sys.mode.may m = true) (hp : m.peerOk = true) :
    (s.setMode m).sys = { s.sys with mode := m } := by
  unfold State.setMode
  rw [if_pos hmay]
  dsimp only
  rw [drivePeerOk_of_peerOk hp, onPair_sys, onSys_sys]
  split
  · rw [abandonDiag_sys]
  · rfl

/-- QUIESCE may be entered from every serving mode (Table 1.7). -/
theorem may_quiesce_of_serving {m : Mode} (h : m.serving = true) : m.may .quiesce = true := by
  revert h
  cases m <;> decide

@[simp] theorem modeAccepted_sys (s : State) (v : Int) : (s.modeAccepted v).sys = s.sys := by
  unfold State.modeAccepted
  split <;> rfl

/-! ### Receivers due (R80) -/

/-- Every receiver of a bay's front end is due. -/
def ReceiversDue (t : Bay) : Prop := ∀ i : RecvNo, t.afe.recvs[i].due = true

/-- A front end with every receiver due: what CALIBRATE makes of each bay's (R80). -/
def withAllDue (a : Afe) : Afe := { a with recvs := a.recvs.map (fun (x : Receiver) => { x with due := true }) }

/-- A bay's receivers are due once they are made due, and stay so when those of another bay are. -/
theorem due_onAfe {s : State} {b c : BayNo} (h : b = c ∨ ReceiversDue s.bays[b]) :
    ReceiversDue (s.onAfe c withAllDue).bays[b] := by
  by_cases e : b = c
  · subst e
    simp [ReceiversDue, withAllDue]
  · rw [show (s.onAfe c withAllDue).bays[b] = s.bays[b] from onAfe_other s e withAllDue]
    exact h.resolve_left e

/-- The bays of a list have their receivers due once each of them has been made so. -/
theorem due_foldl {b : BayNo} (l : List BayNo) (s : State) (h : b ∈ l ∨ ReceiversDue s.bays[b]) :
    ReceiversDue (l.foldl (fun t c => t.onAfe c withAllDue) s).bays[b] := by
  induction l generalizing s with
  | nil => exact h.resolve_left List.not_mem_nil
  | cons c l ih =>
    rw [List.mem_cons, or_assoc, or_left_comm] at h
    exact ih _ (h.imp_right due_onAfe)

/-- Every receiver of every bay is due once CALIBRATE is asked for (R80). -/
theorem due_allDue (s : State) (b : BayNo) : ReceiversDue s.allDue.bays[b] :=
  due_foldl _ s (.inl (List.mem_finRange b))

@[simp] theorem allDue_mode (s : State) : s.allDue.sys.mode = s.sys.mode :=
  (unchanged_of_hide (hide_allDue (ps := every .afe) (fun b => mem_every.2 ⟨b, rfl⟩))).mode.resolve_left (by simp [mem_every])

/-! ### The requests (R31) -/

section
variable {s : State} {p : Port} (h : accepts s p 0x102 = true)
include h

/-- CALIBRATE is entered from STANDALONE, with every receiver due. -/
theorem modeReqCalibrate_completes (hv : setsTo Param.devModeReq 7 s.ports[p].mbx.req = true) (hm : s.sys.mode = .standalone) :
    Completes (.modeReqCalibrate p) s (fun t => answered t p 0x00 ∧ t.sys.mode = .calibrate
      ∧ ∀ (b : BayNo) (i : RecvNo), t.bays[b].afe.recvs[i].due = true) := by
  refine ⟨_, rfl, ?_⟩
  have hn : (noted s p).sys.mode = .standalone := hm
  rw [serve_whole h rfl hv, if_pos hn]
  refine ⟨answered_respond _ _ _ _ _, ?_, ?_⟩
  · rw [respond_sys, allDue_mode, setMode_sys (by rw [modeAccepted_sys, hn]; rfl) rfl]
  · rw [respond_bays]
    exact due_allDue _

/-- QUIESCE is entered from a serving mode, which is noted. -/
theorem modeReqQuiesce_completes (hv : setsTo Param.devModeReq 8 s.ports[p].mbx.req = true) (hm : s.sys.mode.serving = true) :
    Completes (.modeReqQuiesce p) s (fun t => answered t p 0x00 ∧ t.sys.mode = .quiesce ∧ t.sys.cameFrom = s.sys.mode) := by
  refine ⟨_, rfl, ?_⟩
  have hn : (noted s p).sys.mode.serving = true := hm
  rw [serve_whole h rfl hv, if_pos hn]
  refine ⟨answered_respond _ _ _ _ _, ?_⟩
  rw [respond_sys, setMode_sys (by rw [onSys_sys, modeAccepted_sys]; exact may_quiesce_of_serving hm) rfl]
  exact ⟨rfl, rfl⟩

/-- DIAGNOSTIC is entered from STANDALONE. -/
theorem modeReqDiagnostic_completes (hv : setsTo Param.devModeReq 12 s.ports[p].mbx.req = true)
    (hm : s.sys.mode = .standalone) :
    Completes (.modeReqDiagnostic p) s (fun t => answered t p 0x00 ∧ t.sys.mode = .diagnostic) := by
  refine ⟨_, rfl, ?_⟩
  have hn : (noted s p).sys.mode = .standalone := hm
  rw [serve_whole h rfl hv, if_pos hn]
  refine ⟨answered_respond _ _ _ _ _, ?_⟩
  rw [respond_sys, setMode_sys (by rw [modeAccepted_sys, hn]; rfl) rfl]

/-- STANDALONE is returned to from DIAGNOSTIC. -/
theorem modeReqServe_completes (hv : setsTo Param.devModeReq 3 s.ports[p].mbx.req = true) (hm : s.sys.mode = .diagnostic) :
    Completes (.modeReqServe p) s (fun t => answered t p 0x00 ∧ t.sys.mode = .standalone) := by
  refine ⟨_, rfl, ?_⟩
  have hn : (noted s p).sys.mode = .diagnostic := hm
  rw [serve_whole h rfl hv]
  dsimp only
  rw [hn]
  refine ⟨answered_respond _ _ _ _ _, ?_⟩
  rw [respond_sys, setMode_sys (by rw [modeAccepted_sys, hn]; rfl) rfl]

end

/-- The end of calibration returns the device to STANDALONE (R29). -/
theorem calibrationComplete_completes {s : State} (hm : s.sys.mode = .calibrate) (hd : s.calibrationsDone = true) :
    Completes .calibrationComplete s (fun t => t.sys.mode = .standalone) := by
  refine ⟨_, if_pos ⟨hm, hd⟩, ?_⟩
  dsimp only
  rw [setMode_sys (by rw [hm]; rfl) rfl]

/-- Settles O10: each mode that is asked for is one that Table 1.7 has from the present one, and PEER_OK stays active in it. -/
theorem modeRequestsComplete : Obligations.ModeRequestsComplete := by
  unfold Obligations.ModeRequestsComplete
  exact ⟨fun _ _ h hv hm => modeReqCalibrate_completes h hv hm, fun _ _ h hv hm => modeReqQuiesce_completes h hv hm,
    fun _ _ h hv hm => modeReqDiagnostic_completes h hv hm, fun _ _ h hv hm => modeReqServe_completes h hv hm,
    fun _ hm hd => calibrationComplete_completes hm hd⟩

end Sys2Proof.Proofs
end

section
/-! PROOFS. The cluster addresses of the SL16 format (R43, R64, R65, Table 2.3): fields, validity, and the home address of a user cluster: the proofs of the statements about them. -/

namespace Sys2Proof.Proofs

open Sys2Proof Sys2Proof.Machine

/-! ### Fields of an address (R64) -/

theorem addrLayer_eq_extract (a : ClusterAddr) : (addrLayer a).val = (a.extractLsb 25 22).toNat := by
  have h := a.isLt
  rw [BitVec.extractLsb_toNat, Nat.shiftRight_eq_div_pow]
  dsimp only [addrLayer]
  omega

theorem addrTurn_eq_extract (a : ClusterAddr) : addrTurn a = (a.extractLsb 21 4).toNat := by
  rw [BitVec.extractLsb_toNat, Nat.shiftRight_eq_div_pow]
  rfl

theorem addrSlot_eq_extract (a : ClusterAddr) : addrSlot a = (a.extractLsb 3 0).toNat := by
  rw [BitVec.extractLsb_toNat, Nat.shiftRight_zero]
  rfl

section
variable {layer turn slot : Nat} (hl : layer < 16) (ht : turn < 2 ^ 18) (hs : slot < 16)
include hl ht hs

/-- The three fields fill the 26 bits without a carry. -/
theorem mkAddr_toNat : (mkAddr layer turn slot).toNat = layer * 0x400000 + turn * 16 + slot := by
  rw [mkAddr, BitVec.toNat_ofNat, Nat.mod_eq_of_lt]
  omega

theorem addrLayer_mkAddr : (addrLayer (mkAddr layer turn slot)).val = layer := by
  dsimp only [addrLayer]
  rw [mkAddr_toNat hl ht hs]
  omega

theorem addrTurn_mkAddr : addrTurn (mkAddr layer turn slot) = turn := by
  rw [addrTurn, mkAddr_toNat hl ht hs]
  omega

theorem addrSlot_mkAddr : addrSlot (mkAddr layer turn slot) = slot := by
  rw [addrSlot, mkAddr_toNat hl ht hs]
  omega

end

/-! ### Zones (R43, Table 2.3) -/

/-- The first turns of the zones after zone 0 (Table 2.3). -/
def laterFirstTurns : List Nat := [12613, 28701, 44789, 60877, 76965, 93053, 109141, 125229, 141317]

/-- The zone of a turn is the number of later zones that have begun by it: zone 0 begins at turn 0. -/
theorem zoneOfTurn_eq_length (t : Nat) : zoneOfTurn t = (laterFirstTurns.filter (fun u => decide (u ≤ t))).length := by
  have htable : zoneTable.map Prod.fst = 0 :: laterFirstTurns := rfl
  have hcount : (zoneTable.filter (fun z => decide (z.1 ≤ t))).length
      = ((zoneTable.map Prod.fst).filter (fun u => decide (u ≤ t))).length := by
    rw [List.filter_map, List.length_map]
    rfl
  rw [zoneOfTurn, hcount, htable, List.filter_cons_of_pos (by simp), List.length_cons, Nat.add_sub_cancel]

theorem addrValid_eq_false_iff (a : ClusterAddr) :
    addrValid a = false ↔ lastTurn < addrTurn a ∨ 6 + zoneOfTurn (addrTurn a) ≤ addrSlot a := by
  rw [addrValid, decide_eq_false_iff_not, not_and_or, Nat.not_le, Nat.not_lt]

/-- Settles O51: the fields are the address's bits, and the zone of a turn counts the first turns of Table 2.3 that it reaches. -/
theorem clusterAddressFields : Obligations.ClusterAddressFields := by
  unfold Obligations.ClusterAddressFields
  intro a
  refine ⟨addrLayer_eq_extract a, addrTurn_eq_extract a, addrSlot_eq_extract a, ?_⟩
  rw [addrValid_eq_false_iff, zoneOfTurn_eq_length, addrTurn_eq_extract, addrSlot_eq_extract]
  rfl

/-- The first turn and the first position behind a zone: those of the next zone, and behind zone 9 those behind the layer's last
turn (Table 2.3). -/
def zoneEnd (z : Nat) : Nat × Nat := zoneTable.getD (z + 1) (143755, 1463640)

/-- A turn of a zone holds 6 clusters and one more for each zone before it, so the zone's positions are its turns times that. -/
theorem zoneEnd_pos : ∀ z < 10, (zoneStart z).1 ≤ (zoneEnd z).1
    ∧ (zoneEnd z).2 = (zoneStart z).2 + ((zoneEnd z).1 - (zoneStart z).1) * (6 + z) := by
  decide

theorem zoneEnd_turn_le : ∀ z < 10, (zoneEnd z).1 ≤ lastTurn + 1 := by
  decide

/-- Of the zones the first `z + 1` begin no later than zone `z`, and the others not before its end. -/
theorem zoneTable_sorted : ∀ z < 10,
    (∀ x ∈ zoneTable.take (z + 1), x.1 ≤ (zoneStart z).1 ∧ x.2 ≤ (zoneStart z).2)
    ∧ ∀ x ∈ zoneTable.drop (z + 1), (zoneEnd z).1 ≤ x.1 ∧ (zoneEnd z).2 ≤ x.2 := by
  decide

/-- A test that the first `n` elements of a list pass, and no later one, keeps `n`. -/
theorem length_filter_of_split {α : Type} {l : List α} {p : α → Bool} {n : Nat} (hn : n ≤ l.length)
    (htake : ∀ x ∈ l.take n, p x = true) (hdrop : ∀ x ∈ l.drop n, p x = false) : (l.filter p).length = n := by
  rw [← List.take_append_drop n l, List.filter_append, List.filter_eq_self.2 htake,
    List.filter_eq_nil_iff.2 (fun x hx => by simp [hdrop x hx]), List.append_nil, List.length_take, Nat.min_eq_left hn]

theorem zoneOfTurn_eq {z t : Nat} (hz : z < 10) (h0 : (zoneStart z).1 ≤ t) (h1 : t < (zoneEnd z).1) : zoneOfTurn t = z := by
  obtain ⟨hbefore, hafter⟩ := zoneTable_sorted z hz
  rw [zoneOfTurn, length_filter_of_split (l := zoneTable) (n := z + 1) hz, Nat.add_sub_cancel]
  · exact fun x hx => decide_eq_true ((hbefore x hx).1.trans h0)
  · exact fun x hx => decide_eq_false (Nat.not_le.2 (h1.trans_le (hafter x hx).1))

theorem zoneOfPos_eq {z p : Nat} (hz : z < 10) (h0 : (zoneStart z).2 ≤ p) (h1 : p < (zoneEnd z).2) : zoneOfPos p = z := by
  obtain ⟨hbefore, hafter⟩ := zoneTable_sorted z hz
  rw [zoneOfPos, length_filter_of_split (l := zoneTable) (n := z + 1) hz, Nat.add_sub_cancel]
  · exact fun x hx => decide_eq_true ((hbefore x hx).2.trans h0)
  · exact fun x hx => decide_eq_false (Nat.not_le.2 (h1.trans_le (hafter x hx).2))

/-- Every position of a layer lies in a zone: in the last that begins no later than it. -/
theorem exists_zone {p : Nat} (hp : p < 1463640) : ∃ z < 10, (zoneStart z).2 ≤ p ∧ p < (zoneEnd z).2 := by
  have hlast : Nat.findGreatest (fun z => (zoneStart z).2 ≤ p) 9 ≤ 9 := Nat.findGreatest_le 9
  have hstart := Nat.findGreatest_spec (P := fun z => (zoneStart z).2 ≤ p) (Nat.zero_le 9) (Nat.zero_le p)
  have hnext := Nat.findGreatest_is_greatest (P := fun z => (zoneStart z).2 ≤ p) (n := 9) (Nat.lt_succ_self _)
  generalize Nat.findGreatest (fun z => (zoneStart z).2 ≤ p) 9 = z at hlast hstart hnext
  refine ⟨z, Nat.lt_succ_of_le hlast, hstart, ?_⟩
  rcases hlast.lt_or_eq with hz | rfl
  · have hend : ∀ z < 9, zoneEnd z = zoneStart (z + 1) := by decide
    rw [hend z hz]
    exact Nat.not_le.1 (hnext hz)
  · exact hp

/-! ### Positions and home addresses (R65) -/

/-- The address of a position: its turn lies in the position's zone, and its slot in the turn. -/
theorem addrOfPos_fields (layer : Nat) {p : Nat} (hp : p < 1463640) :
    ∃ z < 10, ∃ turn ≤ lastTurn, ∃ slot < 6 + z, addrOfPos layer p = mkAddr layer turn slot ∧ zoneOfTurn turn = z
      ∧ (zoneStart z).2 + (turn - (zoneStart z).1) * (6 + z) + slot = p := by
  obtain ⟨z, hz, h0, h1⟩ := exists_zone hp
  obtain ⟨hle, hend⟩ := zoneEnd_pos z hz
  have hk : 0 < 6 + z := by omega
  have hturn : (zoneStart z).1 + (p - (zoneStart z).2) / (6 + z) < (zoneEnd z).1 := by
    have hdiv : (p - (zoneStart z).2) / (6 + z) < (zoneEnd z).1 - (zoneStart z).1 := (Nat.div_lt_iff_lt_mul hk).2 (by omega)
    omega
  refine ⟨z, hz, (zoneStart z).1 + (p - (zoneStart z).2) / (6 + z), ?_, (p - (zoneStart z).2) % (6 + z), Nat.mod_lt _ hk, ?_,
    zoneOfTurn_eq hz (Nat.le_add_right _ _) hturn, ?_⟩
  · exact Nat.le_of_lt_succ (hturn.trans_le (zoneEnd_turn_le z hz))
  · rw [addrOfPos, zoneOfPos_eq hz h0 h1]
  · rw [Nat.add_sub_cancel_left, Nat.add_assoc, Nat.div_add_mod', Nat.add_sub_cancel' h0]

section
variable {layer p : Nat} (hl : layer < 16) (hp : p < 1463640)
include hl hp

/-- Every position of a layer has a valid address in that layer, and the address gives the position back. -/
theorem addrOfPos_valid : addrValid (addrOfPos layer p) = true ∧ (addrLayer (addrOfPos layer p)).val = layer
    ∧ posOfAddr (addrOfPos layer p) = p := by
  obtain ⟨z, hz, turn, ht, slot, hs, haddr, hzone, hpos⟩ := addrOfPos_fields layer hp
  have ht18 : turn < 2 ^ 18 := ht.trans_lt (by decide)
  have hs16 : slot < 16 := by omega
  rw [haddr]
  refine ⟨?_, addrLayer_mkAddr hl ht18 hs16, ?_⟩
  · rw [addrValid, addrTurn_mkAddr hl ht18 hs16, addrSlot_mkAddr hl ht18 hs16, hzone]
    exact decide_eq_true ⟨ht, hs⟩
  · rw [posOfAddr, addrTurn_mkAddr hl ht18 hs16, addrSlot_mkAddr hl ht18 hs16, hzone]
    exact hpos

end

/-- A valid address in the user area is the home of the user cluster that its layer and position count (Table 2.9). -/
theorem uclOf_eq {a : ClusterAddr} {n : Nat} (hv : addrValid a = true) (hn : n < userClusters) (hpos : posOfAddr a = 4032 + n) :
    uclOf a = some ((addrLayer a).val * userClusters + n) := by
  unfold uclOf
  dsimp only
  rw [hpos, if_pos ⟨Nat.le_add_right _ _, Nat.add_lt_add_left hn _, hv⟩, Nat.add_sub_cancel_left]

/-- Settles O52: a home is the address of a position below the replacement area, and such an address gives its position back. -/
theorem homeAddressesValid : Obligations.HomeAddressesValid := by
  unfold Obligations.HomeAddressesValid
  intro lba hlba
  have hn : lba / 16 % userClusters < userClusters := Nat.mod_lt _ (by decide)
  have hbound : 4032 + userClusters = 1445824 := rfl
  have hlast : lba / 16 / userClusters < 16 := by
    rw [Nat.div_div_eq_div_mul]
    exact (Nat.div_lt_iff_lt_mul (by decide)).2 (hlba.trans_lt (by decide))
  obtain ⟨hvalid, hlayer, hpos⟩ := addrOfPos_valid (p := 4032 + lba / 16 % userClusters) hlast (by omega)
  refine ⟨hvalid, ?_, hlayer, hpos, ?_⟩
  · rw [inReplacement, homeOf, hpos]
    exact decide_eq_false (by omega)
  · rw [homeOf, uclOf_eq hvalid hn hpos, hlayer, Nat.div_add_mod']

end Sys2Proof.Proofs
end

section
/-! PROOFS. Operations that only add to the events that wait (R414) and keep a property of one bay's servo, and what the end of a failed acquisition (R240, R248, R249) is by them. -/

namespace Sys2Proof.Proofs

open Sys2Proof Sys2Proof.Machine Sys2Proof.Safety Sys2Proof.Laws

/-! ### What is kept -/

/-- From `s` to `t` events are only added behind those that wait, of whose payloads a merged write-gate cut may change one (R33),
and the servo of bay `b` still has the property `P`. -/
structure Keeps (P : Servo → Prop) (b : BayNo) (s t : State) : Prop where
  events : s.ev.raised.map (·.src) <+: t.ev.raised.map (·.src)
  servo : P s.bays[b].srv → P t.bays[b].srv

/-- A property of a servo on which its tails have no bearing: every event may fire them. -/
def TailBlind (P : Servo → Prop) : Prop := ∀ v x, P v → P { v with tails := x }

/-- Every part of the state but the events that wait and the servo of a bay. -/
def besides (b : BayNo) : List Part := allParts.filter (fun x => decide (x ≠ .raised ∧ x ≠ .srv b))

@[simp] theorem mem_besides {b : BayNo} {x : Part} : x ∈ besides b ↔ x ≠ .raised ∧ x ≠ .srv b := by
  simp [besides, mem_allParts]

section
variable {P : Servo → Prop} {b : BayNo} {s t u : State}

theorem Keeps.refl (P : Servo → Prop) (b : BayNo) (s : State) : Keeps P b s s := ⟨List.prefix_rfl, id⟩

theorem Keeps.ite {c : Prop} [Decidable c] (ht : Keeps P b s t) (hu : Keeps P b s u) : Keeps P b s (if c then t else u) := by
  split
  · exact ht
  · exact hu

variable (h : Keeps P b s t)
include h

/-- A frame that has neither the events nor the servo in it. -/
theorem Keeps.frame (hf : hide (besides b) u = hide (besides b) t) : Keeps P b s u := by
  have hsame := unchanged_of_hide hf
  have hraised := hsame.raised.resolve_left (by simp)
  have hsrv := (hsame.srv b).resolve_left (by simp)
  exact ⟨by rw [hraised.1]; exact h.events, by rw [hsrv]; exact h.servo⟩

/-- A change of a bay that keeps the property. -/
theorem Keeps.onBay {c : BayNo} {f : Bay → Bay} (hf : ∀ v, P v.srv → P (f v).srv := by exact fun _ => id) :
    Keeps P b s (t.onBay c f) := by
  refine ⟨h.events, fun hs => ?_⟩
  by_cases hc : b = c
  · subst hc
    rw [show (t.onBay b f).bays[b] = f t.bays[b] from onBay_same t b f]
    exact hf _ (h.servo hs)
  · rw [show (t.onBay c f).bays[b] = t.bays[b] from onBay_other t hc f]
    exact h.servo hs

theorem Keeps.onSrv {c : BayNo} {f : Servo → Servo} (hf : ∀ v, P v → P (f v) := by exact fun _ => id) :
    Keeps P b s (t.onSrv c f) := by
  unfold State.onSrv
  exact h.onBay fun v => hf v.srv

theorem Keeps.onSeq {c : BayNo} {f : Seq → Seq} : Keeps P b s (t.onSeq c f) := h.frame (hide_onSeq (by simp))

theorem Keeps.onWp {c : BayNo} {f : WritePath → WritePath} : Keeps P b s (t.onWp c f) := h.frame (hide_onWp (by simp))

theorem Keeps.onHnd {f : Handler → Handler} : Keeps P b s (t.onHnd f) := h.frame (hide_onHnd (by simp))

theorem Keeps.send {kind : Byte} {xs : List Nat} : Keeps P b s (t.send kind xs) := h.frame (hide_send (by simp) (by simp))

theorem Keeps.endWaiters {slot : BitVec 16} {w : CmdWait} {status : Byte} : Keeps P b s (t.endWaiters slot w status) :=
  h.frame (hide_endWaiters (by simp) (by simp) (by simp) (by simp) (by simp) (by simp))

/-! ### Raising an event -/

variable (hP : TailBlind P)
include hP

theorem Keeps.raiseAt {e : Ev} {sev : Severity} {fs : List PField} : Keeps P b s (t.raiseAt e sev fs) := by
  refine ⟨h.events.trans ?_, fun hs => ?_⟩
  · rw [raiseAt_ev, List.map_append]
    exact List.prefix_append _ _
  · obtain ⟨x, hx⟩ := raiseAt_bay t e sev fs b
    rw [show (t.raiseAt e sev fs).bays[b] = _ from hx]
    exact hP _ x (h.servo hs)

theorem Keeps.raiseBay {c : BayNo} {e : BayEvent} {fs : List PField} : Keeps P b s (t.raiseBay c e fs) := h.raiseAt hP

theorem Keeps.raiseDev {e : DevEvent} {fs : List PField} : Keeps P b s (t.raiseDev e fs) := h.raiseAt hP

/-! ### Bays (R85, R169, R237) -/

theorem Keeps.abortCal {c : BayNo} : Keeps P b s (t.abortCal c) := by
  unfold State.abortCal
  extract_lets a
  split
  · exact h
  · extract_lets running t1 t2
    have h1 : Keeps P b s t1 := h.frame (hide_onAfe (by simp))
    have h2 : Keeps P b s t2 := .ite (h1.frame (hide_selectLane (by simp) (by simp))) h1
    exact .ite (h2.raiseBay hP) h2

theorem Keeps.setBaySt {c : BayNo} {new : BaySt} {row : Nat} : Keeps P b s (t.setBaySt c new row) := by
  unfold State.setBaySt
  extract_lets old t0 t1 t2
  have h0 : Keeps P b s t0 := .ite h (h.abortCal hP)
  have h1 : Keeps P b s t1 := h0.onBay.raiseBay hP
  have h2 : Keeps P b s t2 := .ite (h1.frame (hide_onSys (by simp) (.inr rfl) (.inr rfl))) h1
  exact .ite h (.ite h2.send h2)

theorem Keeps.giveAll {o : Fin 12} {hs : List (BitVec 32)} : Keeps P b s (t.giveAll o hs) := by
  unfold State.giveAll
  induction hs generalizing t with
  | nil => exact h
  | cons x xs ih =>
    refine ih ?_
    unfold State.ballastGive
    dsimp only
    split
    · exact h.raiseDev hP
    · exact h.frame (hide_freeBufs (by simp))

theorem Keeps.dropEntries {c : BayNo} {which : Entry → Bool} : Keeps P b s (t.dropEntries c which) :=
  .giveAll (.frame (.onBay h) (hide_onPool (by simp))) hP

theorem Keeps.dropScan {c : BayNo} : Keeps P b s (t.dropScan c) := (h.dropEntries hP).onSeq

theorem Keeps.freeRun {c : BayNo} : Keeps P b s (t.freeRun c) := by
  unfold State.freeRun
  split
  · exact h.onWp.giveAll hP
  · exact h

omit hP in
/-- A cause that joins a cut changes the payload of an event that waits, and no source. -/
theorem Keeps.joinCut {src bit : Nat} {now : BitVec 64} : Keeps P b s (t.onEv (fun v => v.joinCut src bit now)) := by
  have hsrc : (t.ev.joinCut src bit now).raised.map (·.src) = t.ev.raised.map (·.src) := by
    refine (List.map_map ..).trans (List.map_congr_left fun r _ => ?_)
    dsimp only [Function.comp]
    split <;> rfl
  exact ⟨by rw [onEv_ev, hsrc]; exact h.events, h.servo⟩

theorem Keeps.cutGate {c : BayNo} {cause : CutCause} : Keeps P b s (t.cutGate c cause) := by
  unfold State.cutGate
  extract_lets t0 now again bit pos addr t1
  have h1 : Keeps P b s t1 := ((h.freeRun hP).frame (hide_busToSpace (by simp) (by simp))).onWp.onSeq
  have hcut : Keeps P b s (t1.raiseBay c .writeGateCut [.u8 (2 ^ cause.bit), .u32 addr]) := h1.raiseBay hP
  exact .ite h (.ite h.joinCut.onWp (.dropEntries (.ite hcut (hcut.raiseBay hP)) hP))

/-! ### The end of a Move Disc (R262) and its start (R260, R399) -/

theorem Keeps.endMove {status : Byte} : Keeps P b s (t.endMove status) := by
  unfold State.endMove
  split
  · exact h
  · extract_lets t1 t2 t3 t4
    have h2 : Keeps P b s t2 := .ite h.onHnd (h.onHnd.raiseDev hP)
    have h3 : Keeps P b s t3 := by
      dsimp only [t3]
      split
      · exact .ite (h2.setBaySt hP) h2
      · exact h2
    have h4 : Keeps P b s t4 := by
      dsimp only [t4]
      split
      · exact h3.send
      · exact h3
    split
    · exact h4.frame (hide_answerRun (by simp) (by simp) (by simp) (by simp))
    · exact h4
    · exact h4.frame (hide_orderEnded (by simp) (by simp) (by simp) (by simp) (by simp) (by simp))

theorem Keeps.runStep : Keeps P b s t.runStep := by
  have hrefuse : Keeps P b s ((t.raiseDev .handlerLimit).endMove 0x26) := (h.raiseDev hP).endMove hP
  have hpath : ∀ (c : Prop) [Decidable c] (x z θ : Int),
      Keeps P b s (if c then t.startPath x z θ false else (t.raiseDev .handlerLimit).endMove 0x26) :=
    fun _ _ _ _ _ => .ite (h.frame (hide_startPath (by simp))) hrefuse
  have haxis : ∀ (c : Prop) [Decidable c] (a : AxisNo) (x : Int),
      Keeps P b s (if c then t.startAxis a x else (t.raiseDev .handlerLimit).endMove 0x26) :=
    fun _ _ _ _ => .ite (h.frame (hide_startAxis (by simp))) hrefuse
  unfold State.runStep
  split
  · exact h
  · refine .ite h ?_
    dsimp only
    split
    case h_1 => exact h.frame (hide_startHoming (by simp))
    case h_2 | h_6 => exact hpath _ _ _ _
    case h_8 => exact .ite (haxis _ _ _) (h.frame (hide_onAxis (by simp)))
    all_goals exact haxis _ _ _

theorem Keeps.toStep {n : Nat} : Keeps P b s (t.toStep n) := h.onHnd.runStep hP

theorem Keeps.beginMove {src dst : BitVec 16} {declared : Bool} {port : Option Port} {fwd : Option CmdId} :
    Keeps P b s (t.beginMove src dst declared port fwd).1 := by
  unfold State.beginMove
  split
  · exact h
  · split
    · exact h
    · extract_lets m t1 t2 t3
      have h2 : Keeps P b s t2 := by
        dsimp only [t2]
        split
        · exact h.onHnd.setBaySt hP
        · exact h.onHnd
      have h3 : Keeps P b s t3 := .ite h2.send h2
      split
      · exact h3
      · split
        · exact h3.runStep hP
        · exact h3.toStep hP

theorem Keeps.orderMove {src dst : BitVec 16} : Keeps P b s (t.orderMove src dst).1 := by
  unfold State.orderMove
  split
  · exact h.beginMove hP
  · split
    · extract_lets t1
      have h1 : Keeps P b s t1 := by
        dsimp only [t1]
        split
        · exact h.setBaySt hP
        · exact h
      dsimp only
      exact h1.send.onHnd
    · exact h

theorem Keeps.of_orderMove {src dst : BitVec 16} {o : Option Byte} (heq : t.orderMove src dst = (u, o)) : Keeps P b s u := by
  have hmove := h.orderMove hP (src := src) (dst := dst)
  rw [heq] at hmove
  exact hmove

theorem Keeps.sendHome {c : BayNo} : Keeps P b s (t.sendHome c) := by
  unfold State.sendHome
  split
  · exact h
  · refine .ite h ?_
    split
    · rename_i heq
      exact h.onSeq.of_orderMove hP heq
    · rename_i heq
      exact (h.onSeq.of_orderMove hP heq).endWaiters

end

/-- An event raised between two stretches that keep the events is raised from the first's start to the second's end. -/
theorem raisedSince_of_keeps {P Q : Servo → Prop} {b c : BayNo} {s t u : State} {e : Ev} {sev : Severity} {fs : List PField}
    (hbefore : Keeps P b s t) (hm : t.sys.mode ≠ .off) (hafter : Keeps Q c (t.raiseAt e sev fs) u) :
    raisedSince s u e = true := by
  obtain ⟨r, hr, hsrc, -⟩ := raiseAt_raised t e sev fs hm
  obtain ⟨old, hold⟩ := hbefore.events
  obtain ⟨new, hnew⟩ := hafter.events
  have hdrop : (u.ev.raised.drop s.ev.raised.length).map (·.src) = old ++ e.src :: new := by
    rw [List.map_drop, ← hnew, hr, List.map_append, ← hold, List.append_assoc, List.append_assoc,
      List.drop_left' (List.length_map _), ← hsrc]
    rfl
  obtain ⟨x, hx, hxe⟩ := List.mem_map.1 (hdrop ▸ List.mem_append_right old List.mem_cons_self)
  exact List.any_eq_true.2 ⟨x, hx, decide_eq_true hxe⟩

/-! ### The end of a failed acquisition (R240, R248, R249) -/

/-- Tracking is open and no acquisition of it runs. -/
def TrackOpen (v : Servo) : Prop := v.trackAcq = 0 ∧ v.tracking.closed = false

theorem tailBlind_trackOpen : TailBlind TrackOpen := fun _ _ h => h

theorem trackOpen_park (v : Servo) : TrackOpen v.park := ⟨rfl, rfl⟩

section
variable {b c : BayNo} {s t : State} (h : Keeps TrackOpen b s t)
include h

theorem Keeps.parkFocus : Keeps TrackOpen b s (t.parkFocus c) := by
  unfold State.parkFocus
  exact h.onSrv fun v _ => trackOpen_park v

theorem Keeps.spinDown {after : AfterStop} {row : Nat} : Keeps TrackOpen b s (t.spinDown c after row) := by
  unfold State.spinDown
  extract_lets t1
  have h1 : Keeps TrackOpen b s t1 := .onBay (h.abortCal tailBlind_trackOpen).parkFocus
  exact .ite (h1.setBaySt tailBlind_trackOpen) h

/-- What a bay forgets of its disc is no matter of tracking. -/
theorem Keeps.unload {row : Nat} : Keeps TrackOpen b s (t.unload c row) := by
  unfold State.unload
  have hfresh : Keeps TrackOpen b s ((t.setBaySt c .unloading row).onBay c Bay.freshDisc) :=
    (h.setBaySt tailBlind_trackOpen).onBay
  exact .ite (hfresh.onSeq.sendHome tailBlind_trackOpen) h

theorem Keeps.mountFails {stage : MountStage} : Keeps TrackOpen b s (t.mountFails c stage) := by
  unfold State.mountFails
  extract_lets t1 t2 t3 t4
  have h2 : Keeps TrackOpen b s t2 := (h.raiseBay tailBlind_trackOpen).frame
    (hide_mountsFailed (by simp) (by simp) (by simp) (by simp) (by simp) (by simp))
  have h3 : Keeps TrackOpen b s t3 := by
    dsimp only [t3]
    split
    · exact h2.frame (hide_formatEnds (by simp) (by simp) (by simp) (by simp) (by simp) (by simp) (by simp))
    · exact h2
  have h4 : Keeps TrackOpen b s t4 := (h3.dropScan tailBlind_trackOpen).onBay
  exact .ite h4.unload h4.spinDown

theorem Keeps.mountStepFailed {stage : MountStage} : Keeps TrackOpen b s (t.mountStepFailed c stage) := by
  unfold State.mountStepFailed
  exact .ite (h.frame (hide_logRetry (by simp))).mountFails h.onSeq

theorem Keeps.faultBay {cause : FaultCause} : Keeps TrackOpen b s (t.faultBay c cause) := by
  unfold State.faultBay
  extract_lets t1 t2
  have h1 : Keeps TrackOpen b s t1 := by
    refine Keeps.parkFocus (.abortCal (.dropScan (.freeRun (.cutGate h ?_) ?_) ?_) ?_) <;> exact tailBlind_trackOpen
  have h2 : Keeps TrackOpen b s t2 := h1.onBay
  exact .ite h (.raiseBay (h2.setBaySt tailBlind_trackOpen) tailBlind_trackOpen)

theorem Keeps.acquisitionFailed {stage : MountStage} : Keeps TrackOpen b s (t.acquisitionFailed c stage) := by
  unfold State.acquisitionFailed
  exact .ite h.mountStepFailed (.ite h.faultBay h.onSeq)

end

end Sys2Proof.Proofs
end

section
/-! PROOFS. Acquisition of focus, tracking and position (R40, R182, R183) completes: the proof of the statement about it. -/

namespace Sys2Proof.Proofs

open Sys2Proof Sys2Proof.Machine Sys2Proof.Safety Sys2Proof.Laws

variable {s : State} {b : BayNo}

/-! ### Focus (R182, Table 7.4) -/

/-- Focus leaves park on its first sweep. -/
theorem focusAcquisition_completes {layer : LayerNo} (ho : s.orders b = true) (hst : s.bays[b].seq.st = .focusAcq)
    (hp : s.bays[b].srv.parked = true) (ha : s.bays[b].srv.acq = none) :
    Completes (.focusAcquisition b layer) s (fun t => t.bays[b].srv.parked = false
      ∧ t.bays[b].srv.move = some (.begin (.sweep false))
      ∧ ∃ a, t.bays[b].srv.acq = some a ∧ a.layer = layer ∧ a.p = 0 ∧ a.firstCount = none) := by
  have hgo : (s.orders b && decide (s.bays[b].seq.st = .focusAcq) && s.bays[b].srv.parked && s.bays[b].srv.acq.isNone) = true := by
    rw [ho, hst, hp, ha]
    rfl
  refine ⟨_, if_pos hgo, ?_⟩
  simp [State.startSweep]

/-- The second sweep follows a first one that did not close. -/
theorem focusSweepEnd_completes {a : FocusAcq} (ha : s.bays[b].srv.acq = some a) (hc : s.bays[b].srv.focus.closed = false)
    (hf : a.firstCount = none) (hp : (1000 * s.bn b Param.srvFocSweepMax : Nat) ≤ a.p) :
    Completes (.focusSweepEnd b) s (fun t => t.bays[b].srv.move = some (.begin (.sweep true)) ∧ t.bays[b].srv.ramp.isSome = true
      ∧ ∃ a', t.bays[b].srv.acq = some a' ∧ a'.layer = a.layer ∧ a'.p = 0 ∧ a'.count = 0 ∧ a'.firstCount = some a.count) := by
  have hend : ¬(s.bays[b].srv.focus.closed = true ∨ a.p < 1000 * s.bn b Param.srvFocSweepMax) :=
    not_or_intro (by rw [hc]; decide) (not_lt.2 (mod_cast hp))
  change ∃ t, execFocusSweepEnd b s = .next t ∧ _
  unfold execFocusSweepEnd
  dsimp only
  rw [ha]
  dsimp only
  rw [if_neg hend, hf]
  exact ⟨_, rfl, by simp⟩

/-! ### Tracking (R183, Table 7.5) -/

/-- Tracking acquisition opens the loop and counts crossings from 0. -/
theorem trackAcquisition_completes (ho : s.orders b = true) (hst : s.bays[b].seq.st = .trackAcq)
    (ha : s.bays[b].srv.trackAcq = 0) (hf : s.bays[b].srv.focus.locked = true) (hc : s.bays[b].srv.tracking.closed = false) :
    Completes (.trackAcquisition b) s (fun t => t.bays[b].srv.trackAcq = 1 ∧ t.bays[b].srv.tracking.base = 0
      ∧ t.bays[b].srv.crossings = Vector.replicate 64 0) := by
  have hgo : (s.orders b && decide (s.bays[b].seq.st = .trackAcq ∧ s.bays[b].srv.trackAcq = 0) && s.bays[b].srv.focus.locked
      && !s.bays[b].srv.tracking.closed) = true := by
    rw [ho, hst, ha, hf, hc]
    rfl
  refine ⟨_, if_pos hgo, ?_⟩
  simp [Loop.openAt]

/-- A revolution whose runout stays within SRV.RUNOUT_MAX gives the runout table and S_t. -/
theorem runoutRevolution_completes (ha : s.bays[b].srv.trackAcq = 1)
    (hspan : ((displacements s.bays[b].srv.crossings).foldl max 0 - (displacements s.bays[b].srv.crossings).foldl min 0) * 120
      ≤ s.bp b Param.srvRunoutMax * 1000) :
    Completes (.runoutRevolution b) s (fun t => t.bays[b].srv.trackAcq = 2
      ∧ t.bays[b].srv.slopeT = slopeOf s.bays[b].srv.tenMax s.bays[b].srv.tenMin
      ∧ t.bays[b].srv.runout
        = some (runoutTable s.bays[b].srv.crossings (s.bp b Param.srvTrkKa) |s.bays[b].spn.speedMeas|)) := by
  refine ⟨_, (if_neg (not_not_intro ha)).trans (if_neg (not_lt.2 hspan)), ?_⟩
  simp

/-- The abandoned move leaves the mode, and at most adds the event of a stride jump. -/
theorem abandonMove_mode (s : State) (b : BayNo) : (s.abandonMove b).sys.mode = s.sys.mode := by
  unfold State.abandonMove
  split
  · split <;> simp
  · rfl

theorem abandonMove_keeps (s : State) (b : BayNo) : Keeps (fun _ => True) b s (s.abandonMove b) := by
  have hstart : Keeps (fun _ => True) b s (s.onSrv b (fun v => { v with move := none, queued := [] })) :=
    (Keeps.refl _ b s).onSrv
  unfold State.abandonMove
  split
  · exact .ite (hstart.raiseBay fun _ _ => id) hstart
  · exact hstart

/-- The state in which a failure of tracking acquisition is raised: the move is abandoned, and tracking and the sled are open. -/
def trackingOpened (s : State) (b : BayNo) : State :=
  (s.abandonMove b).onSrv b (fun w => { w with trackAcq := 0, tracking := w.tracking.openAt 0, sled := w.sled.openAt 0 })

theorem trackingOpened_keeps (s : State) (b : BayNo) : Keeps (fun _ => True) b s (trackingOpened s b) :=
  (abandonMove_keeps s b).onSrv

theorem trackingOpened_open (s : State) (b : BayNo) : TrackOpen (trackingOpened s b).bays[b].srv := by
  simp [trackingOpened, TrackOpen, Loop.openAt]

/-- Tracking that has not closed in time ends its acquisition open, with EV_TRACK_ACQ_FAIL. -/
theorem trackAcqTimeout_completes (hm : s.sys.mode ≠ .off) (ha : s.bays[b].srv.trackAcq = 2) :
    Completes (.trackAcqTimeout b .noClose) s (fun t => t.bays[b].srv.trackAcq = 0 ∧ t.bays[b].srv.tracking.closed = false
      ∧ raisedSince s t (.bay b .trackAcqFail) = true) := by
  refine ⟨(((trackingOpened s b).raiseBay b .trackAcqFail [.u8 1]).acquisitionFailed b .track), if_pos ha, ?_⟩
  have hmode : (trackingOpened s b).sys.mode ≠ .off := by
    rw [trackingOpened, onSrv_sys, abandonMove_mode]
    exact hm
  have hraise := (Keeps.refl TrackOpen b (trackingOpened s b)).raiseBay tailBlind_trackOpen (c := b) (e := .trackAcqFail)
    (fs := [.u8 1])
  have hfail := (Keeps.refl TrackOpen b ((trackingOpened s b).raiseBay b .trackAcqFail [.u8 1])).acquisitionFailed (c := b)
    (stage := .track)
  obtain ⟨hacq, hclosed⟩ := hfail.servo (hraise.servo (trackingOpened_open s b))
  exact ⟨hacq, hclosed, raisedSince_of_keeps (trackingOpened_keeps s b) hmode hfail⟩

/-! ### Position (R39 to R41, R185, R186) -/

/-- A servo knows its place. -/
def AtPlace (x : LayerNo × Nat × Nat) (v : Servo) : Prop := v.place = some x

theorem tailBlind_atPlace (x : LayerNo × Nat × Nat) : TailBlind (AtPlace x) := fun _ _ h => h

section
variable {x : LayerNo × Nat × Nat} {c : BayNo} {t : State} (h : Keeps (AtPlace x) b s t)
include h

theorem Keeps.takeUp {new : BaySt} : Keeps (AtPlace x) b s (t.takeUp c new) := h.setBaySt (tailBlind_atPlace x)

/-- A move that starts leaves the place as it was known. -/
theorem Keeps.startMove {k : MoveKind} : Keeps (AtPlace x) b s (t.startMove c k) := by
  unfold State.startMove
  extract_lets t1
  have h1 : Keeps (AtPlace x) b s t1 := .ite h (h.frame (hide_onRc (by simp)))
  split
  case h_1 => exact h1.onBay
  case h_2 =>
    extract_lets t2
    have h2 : Keeps (AtPlace x) b s t2 := h1.onBay
    exact .ite h2.takeUp h2
  case h_3 => exact h1.onSrv.takeUp
  case h_4 =>
    extract_lets target t2 t3
    have h2 : Keeps (AtPlace x) b s t2 := h1.onSrv
    have h3 : Keeps (AtPlace x) b s t3 := .ite (h2.frame (hide_onSld (by simp))) (h2.raiseBay (tailBlind_atPlace x))
    exact h3.takeUp
  case h_5 => exact h1.onSrv

theorem Keeps.moveDone : Keeps (AtPlace x) b s (t.moveDone c) := by
  unfold State.moveDone
  extract_lets t1
  have h1 : Keeps (AtPlace x) b s t1 := h.onSrv
  split
  · exact h1.startMove
  · exact .ite (.ite (h1.setBaySt (tailBlind_atPlace x)) (h1.setBaySt (tailBlind_atPlace x))) h1

theorem Keeps.layerFound {was : Option LayerNo} {up : Bool} {found : LayerNo} :
    Keeps (AtPlace x) b s (t.layerFound c was up found) := by
  unfold State.layerFound
  exact Keeps.moveDone (.ite h (h.raiseBay (tailBlind_atPlace x)))

theorem Keeps.seekFound {target turn : Nat} : Keeps (AtPlace x) b s (t.seekFound c target turn) := by
  unfold State.seekFound
  have hagain : ∀ k, Keeps (AtPlace x) b s ((t.onSrv c (fun v => { v with move := none })).startMove c k) :=
    fun _ => h.onSrv.startMove
  exact .ite h.moveDone (.ite (hagain _) (hagain _))

theorem Keeps.positionChecked {was : Option (LayerNo × Nat × Nat)} {turn : Nat} :
    Keeps (AtPlace x) b s (t.positionChecked c was turn) := by
  unfold State.positionChecked
  refine .ite ?_ h
  dsimp only
  split
  · refine .ite ?_ h.onSeq
    unfold State.orderServoMove
    exact .ite h.onSeq.onSrv h.onSeq.startMove
  · exact h.onSeq

theorem Keeps.stepPassed {stage : MountStage} : Keeps (AtPlace x) b s (t.stepPassed c stage) :=
  h.frame (hide_stepPassed (by simp) (by simp))

/-- What follows from a place that has become known leaves it known. -/
theorem Keeps.placeKnown {was : Option (LayerNo × Nat × Nat)} {i : WobbleInfo} :
    Keeps (AtPlace x) b s (t.placeKnown c was i) := by
  unfold State.placeKnown
  extract_lets v t1 t2
  have h1 : Keeps (AtPlace x) b s t1 := h.onBay.raiseBay (tailBlind_atPlace x)
  have h2 : Keeps (AtPlace x) b s t2 := .ite h1 h1.stepPassed
  refine .ite (.ite (h2.setBaySt (tailBlind_atPlace x)) h2) ?_
  split
  · split
    · exact .ite h.layerFound h
    · exact .ite h.onBay.seekFound h
    · exact h
  · exact h.positionChecked

end

/-- A turn whose word decodes gives layer, turn and zone. -/
theorem wobbleAddressWord_completes {us : TurnUnits} {i : WobbleInfo} (ht : s.bays[b].srv.tracking.locked = true)
    (hf : s.bays[b].srv.focus.locked = true) (hw : (turnWord us).bind wobbleWord = some i) :
    Completes (.wobbleAddressWord b us) s (fun t => t.bays[b].srv.place = some (i.layer, i.turn, i.zone)) := by
  have hread : ¬(!s.bays[b].srv.tracking.locked || !s.bays[b].srv.focus.locked) = true := by
    rw [ht, hf]
    decide
  change ∃ t, execWobbleAddressWord b us s = .next t ∧ _
  unfold execWobbleAddressWord
  dsimp only
  rw [if_neg hread, hw]
  refine ⟨_, rfl, (Keeps.refl (AtPlace (i.layer, i.turn, i.zone)) b _).placeKnown.servo ?_⟩
  simp [AtPlace]

/-- Settles O29: each step of an acquisition does what its rule says; a timeout's event still waits, and the loop is still open,
after whatever the failure ends (R240, R248), and a place still stands after whatever move its word ends. -/
theorem acquisitionCompletes : Obligations.AcquisitionCompletes := by
  unfold Obligations.AcquisitionCompletes
  exact ⟨fun _ _ _ ho hst hp ha => focusAcquisition_completes ho hst hp ha,
    fun _ _ _ ha hc hf hp => focusSweepEnd_completes ha hc hf hp,
    fun _ _ ho hst ha hf hc => trackAcquisition_completes ho hst ha hf hc,
    fun _ _ ha hspan => runoutRevolution_completes ha hspan,
    fun _ _ hm ha => trackAcqTimeout_completes hm ha,
    fun _ _ _ _ ht hf hw => wobbleAddressWord_completes ht hf hw⟩

end Sys2Proof.Proofs
end

section
/-! PROOFS. Calibration in the shadow (R81, R82) completes step by step: the proof of the statement about it. -/

namespace Sys2Proof.Proofs

open Sys2Proof Sys2Proof.Machine Sys2Proof.Safety Sys2Proof.Laws

variable {s : State} {b : BayNo}

/-- With the Relief line free, the slot of a beam waits for nothing but B0 in WRITING. -/
theorem slotWaits_of_reliefFree {t : Bay} {n : Beam} (hfree : t.afe.reliefFree = true) (hst : t.seq.st ≠ .writing) :
    t.slotWaits n = false := by
  simp [Bay.slotWaits, hfree, hst]

/-- The slot of B0 opens with the Relief line on its input, whatever else is due: it is the first in order. -/
theorem calSlotOpen_completes (hst : calibratesIn s.bays[b].seq.st = true) (hw : s.bays[b].seq.st ≠ .writing)
    (hcal : s.bays[b].afe.cal = none) (hsub : s.bays[b].afe.subst = none) (hfree : s.bays[b].afe.reliefFree = true)
    (hdue : s.bays[b].afe.slotDue 0 = true) :
    Completes (.calSlotOpen b) s (fun t => t.bays[b].afe.relief = .shadow 0
      ∧ ∃ c, t.bays[b].afe.cal = some c ∧ c.beam = 0 ∧ c.recv = reliefLine ∧ c.step = 1) := by
  have hserves : ¬(!calibratesIn s.bays[b].seq.st || s.bays[b].afe.cal.isSome || s.bays[b].afe.subst.isSome) = true := by
    rw [hst, hcal, hsub]
    decide
  have hopen : (List.finRange 4).filter (fun n : Beam => !s.bays[b].slotWaits n) = List.finRange 4 :=
    List.filter_eq_self.2 fun n _ => by rw [slotWaits_of_reliefFree hfree hw, Bool.not_false]
  have hfirst : (List.finRange 4).find?
      (fun n : Beam => s.bays[b].afe.slotDue n || ((s.bays[b].afe.recv reliefLine).due && !bitAt s.bays[b].afe.reliefDone n.val))
      = some 0 := List.find?_cons_of_pos (Bool.or_eq_true_iff.2 (.inl hdue))
  change ∃ t, execCalSlotOpen b s = .next t ∧ _
  unfold execCalSlotOpen
  dsimp only
  rw [if_neg hserves, if_pos hfree, hopen, hfirst]
  exact ⟨_, rfl, by simp, by simp [Afe.beginRun]⟩

/-- The settled Relief line starts the run of its slot. -/
theorem reliefSettled_completes {c : CalRun} (hcal : s.bays[b].afe.cal = some c) (hstep : c.step = 1) :
    Completes (.reliefSettled b) s (fun t => t.bays[b].afe.cal = some { c with step := 2 }) := by
  refine ⟨_, rfl, ?_⟩
  have hc : s.bays[b.val].afe.cal = some c := hcal
  simp [hc, hstep]

/-- The planned switch gives the lane to the Relief line and starts the run on its receiver. -/
theorem laneSelectSwitch_completes {l : Beam} {c : CalRun} (hcal : s.bays[b].afe.cal = some c) (hbeam : c.beam = l)
    (hstep : c.step = 4) (hwait : s.bays[b].slotWaits l = false) :
    Completes (.laneSelectSwitch b l) s (fun t => t.bays[b].afe.laneRelief[l] = true ∧ t.bays[b].afe.relief = .carrier l false
      ∧ ∃ d, t.bays[b].afe.cal = some d ∧ d.recv = beamRecv l ∧ d.step = 5) := by
  have hgo : ¬(c.beam ≠ l ∨ s.bays[b].slotWaits l = true) := by
    rw [hwait]
    simp [hbeam]
  change ∃ t, execLaneSelectSwitch b l s = .next t ∧ _
  unfold execLaneSelectSwitch
  dsimp only
  rw [hcal]
  dsimp only
  rw [if_neg hgo, if_pos hstep]
  exact ⟨_, rfl, by simp [State.selectLane, State.onLane], by simp, by simp [Afe.beginRun]⟩

/-- A measurement that asks for a further tap leaves its run going, with that tap set. -/
theorem measured_of_more {c : CalRun} {e : Rat} {v dir : Int} {n : Nat}
    (h : search c.trimIx (c.cur.get c.trimIx) c.dir c.steps c.prev e = .more v dir n) :
    c.measured e = .going { c with cur := c.cur.put c.trimIx v, dir := dir, steps := n, prev := some e } := by
  unfold CalRun.measured
  rw [h]

/-- A complete window whose error asks for a further tap sets it. -/
theorem calMeasurement_completes {c : CalRun} {w : List CalPart} {v dir : Int} {n : Nat} (hruns : s.dspRuns = true)
    (hcal : s.bays[b].afe.cal = some c) (hstep : c.step = 2 ∨ c.step = 5) (hseek : s.bays[b].seq.st ≠ .seeking)
    (hjump : s.bays[b].seq.st ≠ .layerJump) (hwait : s.bays[b].slotWaits c.beam = false)
    (hdone : windowDone (s.bn b Param.afeCalWindow) c.trimIx w = true)
    (hmore : search c.trimIx (c.cur.get c.trimIx) c.dir c.steps c.prev (windowError (s.bp b Param.afeGainTarget) c.trimIx w)
      = .more v dir n) :
    Completes (.calMeasurement b w) s (fun t => t.bays[b].afe.cal
      = some { c with cur := c.cur.put c.trimIx v, dir := dir, steps := n,
                      prev := some (windowError (s.bp b Param.afeGainTarget) c.trimIx w) }) := by
  have htaken : ¬(¬(c.step = 2 ∨ c.step = 5) ∨ s.bays[b].seq.st = .seeking ∨ s.bays[b].seq.st = .layerJump
      ∨ s.bays[b].slotWaits c.beam = true ∨ windowDone (s.bn b Param.afeCalWindow) c.trimIx w = false) := by
    simp only [hstep, hseek, hjump, hwait, hdone]
    decide
  change ∃ t, execCalMeasurement b w s = .next t ∧ _
  unfold execCalMeasurement
  dsimp only
  rw [hruns, hcal]
  dsimp only
  rw [if_neg (by decide), if_neg htaken, measured_of_more hmore]
  exact ⟨_, rfl, by simp⟩

/-- Settles O21: each step of a slot does what its rule says. -/
theorem calibrationCompletes : Obligations.CalibrationCompletes := by
  unfold Obligations.CalibrationCompletes
  exact ⟨fun _ _ hst hw hcal hsub hfree hdue => calSlotOpen_completes hst hw hcal hsub hfree hdue,
    fun _ _ _ hcal hstep => reliefSettled_completes hcal hstep,
    fun _ _ _ _ hcal hbeam hstep hwait => laneSelectSwitch_completes hcal hbeam hstep hwait,
    fun _ _ _ _ _ _ _ hruns hcal hstep hseek hjump hwait hdone hmore =>
      calMeasurement_completes hruns hcal hstep hseek hjump hwait hdone hmore⟩

end Sys2Proof.Proofs
end

section
/-! PROOFS. The commands of the receivers (R72, R75 to R79) complete: the proof of the statement about them. -/

namespace Sys2Proof.Proofs

open Sys2Proof Sys2Proof.Machine Sys2Proof.Safety Sys2Proof.Laws

/-! ### A receiver marked faulty (R75) -/

/-- Receiver `r` of bay `b` is marked faulty. -/
def recvFaulty (s : State) (b : BayNo) (r : RecvNo) : Bool := s.bays[b].afe.recvs[r].faulty

section
variable (s : State) (b : BayNo) (r : RecvNo)

theorem afe_of_hide {s t : State} {b : BayNo} (h : hide (allBut (.afe b)) t = hide (allBut (.afe b)) s) :
    t.bays[b].afe = s.bays[b].afe := ((unchanged_of_hide h).afe b).resolve_left (by simp)

theorem recvFaulty_of_hide {s t : State} {b : BayNo} {r : RecvNo} (h : hide (allBut (.afe b)) t = hide (allBut (.afe b)) s) :
    recvFaulty t b r = recvFaulty s b r := by
  rw [recvFaulty, afe_of_hide h, recvFaulty]

/-- A change of the bay that leaves the receiver's mark. -/
theorem onBay_recvFaulty {f : Bay → Bay} (hf : ∀ x, (f x).afe.recvs[r].faulty = x.afe.recvs[r].faulty := by exact fun _ => rfl) :
    recvFaulty (s.onBay b f) b r = recvFaulty s b r := by
  rw [recvFaulty, show (s.onBay b f).bays[b] = f s.bays[b] from onBay_same s b f]
  exact hf _

theorem onRecv_recv (f : Receiver → Receiver) : (s.onRecv b r f).bays[b].afe.recvs[r] = f s.bays[b].afe.recvs[r] := by
  simp [State.onRecv]

@[simp] theorem raiseAt_recvFaulty (e : Ev) (sev : Severity) (fs : List PField) :
    recvFaulty (s.raiseAt e sev fs) b r = recvFaulty s b r := by
  simp [recvFaulty]

@[simp] theorem setTrims_faulty (a : Afe) (q : RecvNo) (n : Beam) (x : Trim) :
    (a.setTrims q n x).recvs[r].faulty = a.recvs[r].faulty := by
  unfold Afe.setTrims
  split
  · rfl
  · by_cases hq : q.val = r.val <;> simp [hq]

@[simp] theorem selectLane_recvFaulty (l : Beam) (relief erase : Bool) :
    recvFaulty (s.selectLane b l relief erase) b r = recvFaulty s b r := by
  unfold State.selectLane
  exact (recvFaulty_of_hide (hide_onLane (by simp))).trans (onBay_recvFaulty s b r)

/-- A calibration that is abandoned gives back trims, and leaves every mark. -/
@[simp] theorem abortCal_recvFaulty : recvFaulty (s.abortCal b) b r = recvFaulty s b r := by
  unfold State.abortCal
  extract_lets a
  split
  · rfl
  · extract_lets running s1 s2
    have h1 : recvFaulty s1 b r = recvFaulty s b r := by
      refine onBay_recvFaulty s b r fun x => ?_
      cases running
      · rfl
      · exact setTrims_faulty r x.afe _ _ _
    have h2 : recvFaulty s2 b r = recvFaulty s b r := by
      dsimp only [s2]
      split
      · rw [selectLane_recvFaulty, h1]
      · exact h1
    split
    · rw [raiseBay_eq, raiseAt_recvFaulty, h2]
    · exact h2

@[simp] theorem setBaySt_recvFaulty (new : BaySt) (row : Nat) : recvFaulty (s.setBaySt b new row) b r = recvFaulty s b r := by
  unfold State.setBaySt
  extract_lets old s0 s1 s2
  have h0 : recvFaulty s0 b r = recvFaulty s b r := by
    dsimp only [s0]
    split
    · rfl
    · exact abortCal_recvFaulty s b r
  have h1 : recvFaulty s1 b r = recvFaulty s b r :=
    (raiseAt_recvFaulty ..).trans ((onBay_recvFaulty s0 b r).trans h0)
  have h2 : recvFaulty s2 b r = recvFaulty s b r := by
    dsimp only [s2]
    split
    · exact h1
    · exact h1
  split
  · rfl
  · split
    · rw [recvFaulty_of_hide (hide_send (by simp) (by simp)), h2]
    · exact h2

theorem parkFocus_recvFaulty : recvFaulty (s.parkFocus b) b r = recvFaulty s b r := recvFaulty_of_hide (hide_parkFocus (by simp))

@[simp] theorem faultBay_recvFaulty (cause : FaultCause) : recvFaulty (s.faultBay b cause) b r = recvFaulty s b r := by
  have hcut : recvFaulty (((s.cutGate b .bayFault).freeRun b).dropScan b) b r = recvFaulty s b r :=
    recvFaulty_of_hide (by simp [hide_dropScan, hide_freeRun, hide_cutGate])
  unfold State.faultBay
  extract_lets s1 s2
  have h1 : recvFaulty s1 b r = recvFaulty s b r := by
    dsimp only [s1]
    rw [parkFocus_recvFaulty, abortCal_recvFaulty, hcut]
  have h2 : recvFaulty s2 b r = recvFaulty s b r := (onBay_recvFaulty s1 b r).trans h1
  split
  · rfl
  · rw [raiseBay_eq, raiseAt_recvFaulty, setBaySt_recvFaulty, h2]

@[simp] theorem stopWriting_recvFaulty : recvFaulty (s.stopWriting b) b r = recvFaulty s b r :=
  recvFaulty_of_hide (by simp [hide_stopWriting])

@[simp] theorem laneLost_recvFaulty (n : Beam) : recvFaulty (s.laneLost b n) b r = recvFaulty s b r := by
  unfold State.laneLost
  extract_lets s1 lanes s2
  have h2 : recvFaulty s2 b r = recvFaulty s b r :=
    (raiseAt_recvFaulty ..).trans ((raiseAt_recvFaulty ..).trans (onBay_recvFaulty s b r))
  split
  · rw [faultBay_recvFaulty, h2]
  · split
    · rw [setBaySt_recvFaulty, stopWriting_recvFaulty, h2]
    · exact h2

theorem substitute_recvFaulty (n : Beam) : recvFaulty (s.substitute b n) b r = recvFaulty s b r := by
  unfold State.substitute
  split
  · exact onBay_recvFaulty s b r
  · exact laneLost_recvFaulty s b r n

@[simp] theorem laneBack_recvFaulty (n : Beam) (atOnce : Bool) :
    recvFaulty (s.laneBack b n atOnce) b r = recvFaulty s b r :=
  (onBay_recvFaulty _ b r).trans (selectLane_recvFaulty s b r n false atOnce)

theorem reliefFailed_recvFaulty : recvFaulty (s.reliefFailed b) b r = recvFaulty s b r := by
  unfold State.reliefFailed
  dsimp only
  split
  · exact (laneLost_recvFaulty ..).trans (onBay_recvFaulty s b r)
  · split
    · exact laneBack_recvFaulty s b r _ true
    · rw [laneLost_recvFaulty, laneBack_recvFaulty]
  · rfl

end

/-! ### The events of a lost lane (R79, R246, R249) -/

section
variable {b c : BayNo} {s t : State} (h : Keeps TrackOpen b s t)
include h

theorem Keeps.stopWriting : Keeps TrackOpen b s (t.stopWriting c) := by
  unfold State.stopWriting
  extract_lets bay
  refine .ite h ?_
  split
  · exact h.onWp
  · extract_lets pos stop t1
    have h1 : Keeps TrackOpen b s t1 := by
      refine Keeps.onWp (.freeRun (.frame h ?_) tailBlind_trackOpen)
      simp [hide_busToSpace, hide_sendPulses]
    refine Keeps.dropEntries ?_ tailBlind_trackOpen
    unfold State.noteUnverified
    exact .ite h1 (h1.raiseBay tailBlind_trackOpen)

theorem Keeps.laneLost {n : Beam} : Keeps TrackOpen b s (t.laneLost c n) := by
  unfold State.laneLost
  extract_lets t1 lanes t2
  have h2 : Keeps TrackOpen b s t2 :=
    ((h.frame (hide_onAfe (by simp))).raiseBay tailBlind_trackOpen).raiseBay tailBlind_trackOpen
  exact .ite h2.faultBay (.ite (h2.stopWriting.setBaySt tailBlind_trackOpen) h2)

theorem Keeps.substitute {n : Beam} : Keeps TrackOpen b s (t.substitute c n) :=
  .ite (h.frame (hide_orderRelief (by simp))) h.laneLost

theorem Keeps.laneBack {n : Beam} {atOnce : Bool} : Keeps TrackOpen b s (t.laneBack c n atOnce) :=
  (h.frame (hide_selectLane (by simp) (by simp))).frame (hide_onAfe (by simp))

theorem Keeps.reliefFailed : Keeps TrackOpen b s (t.reliefFailed c) := by
  unfold State.reliefFailed
  dsimp only
  split
  · exact (h.frame (hide_onAfe (by simp))).laneLost
  · exact .ite h.laneBack h.laneBack.laneLost
  · exact h

end

/-! ### The commands -/

variable {s : State} {b : BayNo}

/-- The state in which the loss of a receiver begins to tell: its fault is raised, the calibration is abandoned, and it is marked
faulty. -/
def receiverMarked (s : State) (b : BayNo) (r : RecvNo) (fs : List PField) : State :=
  ((s.raiseBay b .receiverFault fs).abortCal b).onRecv b r (fun x => { x with faulty := true })

theorem receiverMarked_recvFaulty (s : State) (b : BayNo) (r : RecvNo) (fs : List PField) :
    recvFaulty (receiverMarked s b r fs) b r = true :=
  congrArg Receiver.faulty (onRecv_recv _ b r _)

theorem receiverMarked_keeps (s : State) (b : BayNo) (r : RecvNo) (fs : List PField) :
    Keeps TrackOpen b (s.raiseBay b .receiverFault fs) (receiverMarked s b r fs) :=
  ((Keeps.refl TrackOpen b _).abortCal tailBlind_trackOpen).frame (hide_onAfe (by simp))

/-- The bias monitor marks a usable receiver faulty, and whatever its loss leads to leaves it so. -/
theorem receiverFault_completes {r : RecvNo} (hruns : s.dspRuns = true) (hm : s.sys.mode ≠ .off)
    (hu : (s.bays[b].afe.recv r).usable = true) :
    Completes (.receiverFault b r .bias) s (fun t => t.bays[b].afe.recvs[r].faulty = true
      ∧ raisedSince s t (.bay b .receiverFault) = true) := by
  have hkept : ∀ u fs, recvFaulty u b r = recvFaulty (receiverMarked s b r fs) b r →
      Keeps TrackOpen b (s.raiseBay b .receiverFault fs) u →
      recvFaulty u b r = true ∧ raisedSince s u (.bay b .receiverFault) = true := fun u fs hf hk =>
    ⟨hf.trans (receiverMarked_recvFaulty s b r fs), raisedSince_of_keeps (Keeps.refl TrackOpen b s) hm hk⟩
  change ∃ t, execReceiverFault b r .bias s = .next t ∧ _
  unfold execReceiverFault
  dsimp only
  rw [hruns, hu, if_neg (by decide), if_neg (by simp [State.faultMet])]
  split
  · exact ⟨_, rfl, hkept _ _ (substitute_recvFaulty _ b r _) (receiverMarked_keeps s b r _).substitute⟩
  · exact ⟨_, rfl, hkept _ _ (reliefFailed_recvFaulty _ b r) (receiverMarked_keeps s b r _).reliefFailed⟩

/-- The settled Relief line takes the lane it was ordered for. -/
theorem reliefSubstitution_completes {n : Beam} (hm : s.sys.mode ≠ .off) (hsub : s.bays[b].afe.subst = some n) :
    Completes (.reliefSubstitution b) s (fun t => t.bays[b].afe.relief = .carrier n true ∧ t.bays[b].afe.laneRelief[n] = true
      ∧ t.bays[b].afe.erasing[n] = false ∧ t.bays[b].afe.subst = none ∧ raisedSince s t (.bay b .reliefSubstituted) = true) := by
  change ∃ t, execReliefSubstitution b s = .next t ∧ _
  unfold execReliefSubstitution
  rw [hsub]
  have hlane : Keeps TrackOpen b s (s.selectLane b n true false) :=
    (Keeps.refl TrackOpen b s).frame (hide_selectLane (by simp) (by simp))
  refine ⟨_, rfl, by simp, ?_, by simp, by simp, ?_⟩
  · simp [State.selectLane, State.onLane]
  · exact raisedSince_of_keeps (hlane.frame (hide_onAfe (by simp))) hm (Keeps.refl TrackOpen b _)

/-- One conversion enters the last 64, whatever it makes due or out of range. -/
theorem headTempSample_completes (code : BitVec 12) : Completes (.headTempSample b code) s (fun t => t.bays[b].afe.temps
    = (((code.toNat : Int) * s.bp b Param.afeTempScale + s.bp b Param.afeTempOffset * 256) :: s.bays[b].afe.temps).take 64) := by
  change ∃ t, execHeadTempSample b code s = .next t ∧ _
  unfold execHeadTempSample
  extract_lets temp s1 avg above far s2 s3
  have h2 : s2.bays[b].afe.temps = (temp :: s.bays[b].afe.temps).take 64 := by simp [s2, s1]
  have h3 : s3.bays[b].afe = s2.bays[b].afe := by
    refine afe_of_hide ?_
    dsimp only [s3]
    split
    · exact hide_raiseBay (by simp) (by simp) (by simp)
    · rfl
  refine ⟨_, rfl, .trans ?_ h2⟩
  split
  · rw [afe_of_hide (hide_invalidateTables (by simp) (by simp) (by simp)), h3]
  · rw [h3]

/-! ### The retry run (R78) -/

theorem beamRecv_ne_reliefLine (n : Beam) : beamRecv n ≠ reliefLine := fun h => absurd (congrArg Fin.val h) (Nat.ne_of_lt n.isLt)

/-- The state in which an accepted run is reported: its final trims are loaded, it has served its receiver, and the count of
rejections is 0 (R83). -/
def runAccepted (s : State) (b : BayNo) (c : CalRun) (final : Trim) : State :=
  (s.onAfe b (fun a => (a.setTrims c.recv c.beam final).served c)).onRecv b c.recv (fun r => { r with rejects := 0 })

theorem runEnds_of_accepted {c : CalRun} {first final : Trim} (ha : c.accepted first final = true) :
    s.runEnds b c first final = (runAccepted s b c final).raiseBay b .calDone [.u8 c.recv.val, .u32 c.old.word, .u32 final.word] :=
  if_pos ha

/-- A receiver other than the Relief line that has been served has the trims that were loaded. -/
theorem served_setTrims_trims (a : Afe) {c : CalRun} (final : Trim) (hr : c.recv ≠ reliefLine) :
    ((a.setTrims c.recv c.beam final).served c).recvs[c.recv].trims = final := by
  have hset : a.setTrims c.recv c.beam final
      = { a with recvs := a.recvs.set c.recv.val { a.recvs[c.recv] with trims := final } c.recv.isLt } := if_neg hr
  unfold Afe.served
  dsimp only
  rw [hset, if_neg hr]
  simp

/-- An accepted run of a beam receiver gives it the final trims and clears the count of its rejections. -/
theorem runAccepted_recv {c : CalRun} {r : RecvNo} (final : Trim) (hr : c.recv = r) (hne : r ≠ reliefLine) :
    (runAccepted s b c final).bays[b].afe.recvs[r].trims = final ∧ (runAccepted s b c final).bays[b].afe.recvs[r].rejects = 0 := by
  subst hr
  rw [runAccepted, onRecv_recv, show (s.onAfe b _).bays[b] = _ from onAfe_same s b _]
  exact ⟨served_setTrims_trims s.bays[b].afe final hne, rfl⟩

theorem runAccepted_keeps (s : State) (b : BayNo) (c : CalRun) (final : Trim) :
    Keeps TrackOpen b s (runAccepted s b c final) :=
  ((Keeps.refl TrackOpen b s).frame (hide_onAfe (by simp))).frame (hide_onAfe (by simp))

/-- A receiver returns to service (R78): its mark is cleared, with EV_RECEIVER_RECOVERED and its entry in the retry log. -/
def recvReturned (s : State) (b : BayNo) (r : RecvNo) : State :=
  ((s.onRecv b r (fun x => { x with faulty := false })).raiseBay b .receiverRecovered [.u8 r.val]).logRetry
    (Ev.bay b .receiverRecovered).src 0 false 0 (bayUnit b r.val)

theorem recvReturned_recv (s : State) (b : BayNo) (r : RecvNo) :
    (recvReturned s b r).bays[b].afe.recvs[r] = { s.bays[b].afe.recvs[r] with faulty := false } := by
  rw [recvReturned, afe_of_hide (hide_logRetry (by simp)), afe_of_hide (hide_raiseBay (by simp) (by simp) (by simp)), onRecv_recv]

theorem recvReturned_keeps (s : State) (b : BayNo) (r : RecvNo) : Keeps TrackOpen b s (recvReturned s b r) :=
  (((Keeps.refl TrackOpen b s).frame (hide_onAfe (by simp))).raiseBay tailBlind_trackOpen).frame (hide_logRetry (by simp))

theorem recvReturned_raises {s0 s : State} {b : BayNo} (r : RecvNo) (hm : s.sys.mode ≠ .off) (h : Keeps TrackOpen b s0 s) :
    raisedSince s0 (recvReturned s b r) (.bay b .receiverRecovered) = true :=
  raisedSince_of_keeps (h.frame (hide_onAfe (by simp))) hm ((Keeps.refl TrackOpen b _).frame (hide_logRetry (by simp)))

/-- An accepted retry run whose fault check stays clear returns the receiver to service with the run's trims. -/
theorem receiverRetryRun_completes {n : Beam} {windows : List (List CalPart)} {c : CalRun} {first final : Trim}
    (hruns : s.dspRuns = true) (hm : s.sys.mode ≠ .off) (hretry : s.bays[b].afe.retryRecv = some (beamRecv n))
    (hthrough : (s.bays[b].afe.beginRun n (beamRecv n) 5).through (s.bp b Param.afeGainTarget) (s.bn b Param.afeCalWindow) windows
      = some (c, first, final)) (hr : c.recv = beamRecv n) (ha : c.accepted first final = true) :
    Completes (.receiverRetryRun b true windows) s (fun t => t.bays[b].afe.recvs[beamRecv n].faulty = false
      ∧ t.bays[b].afe.recvs[beamRecv n].rejects = 0 ∧ t.bays[b].afe.recvs[beamRecv n].trims = final
      ∧ raisedSince s t (.bay b .calDone) = true ∧ raisedSince s t (.bay b .receiverRecovered) = true) := by
  have hinput : (if h : (beamRecv n).val < 4 then (⟨(beamRecv n).val, h⟩ : Beam) else 0) = n := dif_pos n.isLt
  have hgo : (true && c.accepted first final) = true := by rw [ha, Bool.and_self]
  have hkeeps := runAccepted_keeps s b c final
  obtain ⟨htrims, hrejects⟩ := runAccepted_recv (s := s) (b := b) final hr (beamRecv_ne_reliefLine n)
  change ∃ t, execReceiverRetryRun b true windows s = .next t ∧ _
  unfold execReceiverRetryRun
  dsimp only
  rw [hruns, if_neg (by decide), hretry]
  dsimp only
  rw [hinput, hthrough]
  dsimp only
  rw [if_pos hgo, runEnds_of_accepted ha]
  refine ⟨recvReturned _ b (beamRecv n), rfl, ?_⟩
  rw [recvReturned_recv, afe_of_hide (hide_raiseBay (by simp) (by simp) (by simp))]
  exact ⟨rfl, hrejects, htrims, raisedSince_of_keeps hkeeps hm (recvReturned_keeps _ b _),
    recvReturned_raises _ (by rw [raiseBay_eq, raiseAt_sys]; exact hm) (hkeeps.raiseBay tailBlind_trackOpen)⟩

/-- Settles O20: each command of the receivers does what its rule says; a receiver stays marked, and its event waits, whatever the
loss of its lane leads to (R79, R246, R249). -/
theorem receiversComplete : Obligations.ReceiversComplete := by
  unfold Obligations.ReceiversComplete
  exact ⟨fun _ _ _ hruns hm hu => receiverFault_completes hruns hm hu,
    fun _ _ _ hm hsub => reliefSubstitution_completes hm hsub,
    fun _ _ _ _ _ _ _ hruns hm hretry hthrough hr ha => receiverRetryRun_completes hruns hm hretry hthrough hr ha,
    fun _ _ code => headTempSample_completes code⟩

end Sys2Proof.Proofs
end

section
/-! PROOFS. What a servo period leaves of the readings its samples gave (R70, R71): the words and counters of the detector inputs, the period count and the wobble cycle, and the focus drive once it has been latched (R175). -/

namespace Sys2Proof.Proofs

open Sys2Proof Sys2Proof.Machine Sys2Proof.Safety Sys2Proof.Laws

/-! ### Readings -/

/-- What a servo has read and what it drives focus with (R71, R175). -/
structure Readings where
  samples : Vector (BitVec 14) 8
  counters : Vector (BitVec 4) 8
  stale : Vector Nat 8
  cycle : Nat
  periods : Nat
  drive : Int

/-- The readings of a servo. -/
def readings (v : Servo) : Readings :=
  { samples := v.samples, counters := v.counters, stale := v.stale, cycle := v.cycle, periods := v.periods, drive := v.focus.drive }

/-- A property on which nothing of a servo but its readings has a bearing. -/
def OfReadings (P : Servo → Prop) : Prop := ∀ v w, P v → readings w = readings v → P w

/-- A property on which a loop has no bearing. -/
def LoopBlind (P : Servo → Prop) (l : LoopId) : Prop := ∀ f v, P v → P (v.onLoop f l)

/-- Of the loops only focus has a reading. -/
theorem OfReadings.loopBlind {P : Servo → Prop} (hP : OfReadings P) {l : LoopId} (hl : l ≠ .focus) : LoopBlind P l := by
  intro f v hv
  cases l with
  | focus => exact absurd rfl hl
  | tracking | tilt | sled => exact hP v _ hv rfl

theorem onSrv_srv (s : State) (b : BayNo) (f : Servo → Servo) : (s.onSrv b f).bays[b].srv = f s.bays[b].srv :=
  congrArg Bay.srv (onSrv_same s b f)

theorem OfReadings.tailBlind {P : Servo → Prop} (hP : OfReadings P) : TailBlind P := fun v _ hv => hP v _ hv rfl

section
variable {P : Servo → Prop} {b : BayNo} {s t : State} (h : Keeps P b s t) (hP : OfReadings P)
include h hP

/-- A change of the servo that leaves its readings. -/
theorem Keeps.unread {f : Servo → Servo} (hf : ∀ v, readings (f v) = readings v := by exact fun _ => rfl) :
    Keeps P b s (t.onSrv b f) := h.onSrv fun v hv => hP v _ hv (hf v)

/-- A change of the servo as it stands that leaves its readings. -/
theorem Keeps.unreadHere {f : Servo → Servo} (hf : readings (f t.bays[b].srv) = readings t.bays[b].srv) :
    Keeps P b s (t.onSrv b f) := by
  refine ⟨h.events, fun hs => hP _ _ (h.servo hs) ?_⟩
  rw [onSrv_srv]
  exact hf

theorem Keeps.unreadBay {f : Bay → Bay} (hf : ∀ v, readings (f v).srv = readings v.srv := by exact fun _ => rfl) :
    Keeps P b s (t.onBay b f) := h.onBay fun v hv => hP v.srv _ hv (hf v)

theorem Keeps.raiseRead {c : BayNo} {e : BayEvent} {fs : List PField} : Keeps P b s (t.raiseBay c e fs) := h.raiseBay hP.tailBlind

/-! ### Lull (R191, R192) and overruns (R197, R198) -/

theorem Keeps.abandonMove : Keeps P b s (t.abandonMove b) := by
  unfold State.abandonMove
  extract_lets t1
  have h1 : Keeps P b s t1 := h.unread hP
  split
  · exact .ite (h1.raiseRead hP) h1
  · exact h1

theorem Keeps.lullLoop {l : LoopId} {cause : LullCause} (hl : LoopBlind P l) : Keeps P b s (t.lullLoop b l cause) := by
  unfold State.lullLoop
  refine .ite h (Keeps.raiseRead (.onSrv h fun v hv => ?_) hP)
  exact hP _ _ (hl _ v hv) rfl

theorem Keeps.enterLull {l : LoopId} {cause : LullCause} (hl : LoopBlind P l) : Keeps P b s (t.enterLull b l cause) := by
  unfold State.enterLull
  extract_lets t1
  have h1 : Keeps P b s t1 := h.lullLoop hP hl
  refine .ite h ?_
  split
  · exact .onSeq (.cutGate (.unread ((h1.lullLoop hP (hP.loopBlind (by decide))).abandonMove hP) hP) hP.tailBlind)
  · exact .onSeq (.cutGate ((h1.abandonMove hP).unread hP) hP.tailBlind)
  · exact .onSeq (h1.cutGate hP.tailBlind)
  · exact h1.onSeq

theorem Keeps.overrun {l : LoopId} (hl : LoopBlind P l) : Keeps P b s (t.overrun b l) := by
  unfold State.overrun
  extract_lets n t1
  have h1 : Keeps P b s t1 := (h.onSrv fun v => hl _ v).raiseRead hP
  exact .ite (h1.enterLull hP hl) h1

/-! ### The laws (R174) -/

theorem Keeps.law {l : LoopId} {onTime cut : Bool} {err ff : Rat} (hl : LoopBlind P l) :
    Keeps P b s (t.law b l onTime err ff cut) := by
  unfold State.law
  extract_lets v x t1
  have h1 : Keeps P b s t1 := h.onSrv fun v => hl _ v
  exact .ite (h.onSrv fun v => hl _ v) (.ite ((h.enterLull hP hl).onSrv fun v => hl _ v)
    (.ite (h.overrun hP hl) (.ite (h1.enterLull hP hl) h1)))

/-! ### Closing (R182, R183) -/

theorem Keeps.endHold : Keeps P b s (t.endHold b) := by
  unfold State.endHold
  split
  · exact h
  · refine Keeps.raiseRead (h.unread hP fun v => ?_) hP
    simp only [readings, Servo.boostLoops]
    split <;> rfl

theorem Keeps.closeFocus : Keeps P b s (t.closeFocus b) := by
  unfold State.closeFocus
  have h0 : Keeps P b s (t.freeInt 14).2 := h.frame (hide_freeInt (by simp))
  exact Keeps.endHold (.frame (h0.unread hP) (hide_onRc (by simp))) hP

theorem Keeps.closeTracking : Keeps P b s (t.closeTracking b) := by
  unfold State.closeTracking
  extract_lets t1
  have h1 : Keeps P b s t1 := h.unread hP
  exact .ite (h1.raiseRead hP) h1

/-! ### Moves (R181, R184 to R186) -/

theorem Keeps.startMoveRead {k : MoveKind} : Keeps P b s (t.startMove b k) := by
  unfold State.startMove
  extract_lets t1
  have h1 : Keeps P b s t1 := .ite h (h.frame (hide_onRc (by simp)))
  split
  case h_1 => exact h1.unreadBay hP
  case h_2 =>
    extract_lets t2
    have h2 : Keeps P b s t2 := h1.unreadBay hP
    exact .ite (h2.setBaySt hP.tailBlind) h2
  case h_3 => exact (h1.unread hP).setBaySt hP.tailBlind
  case h_4 =>
    extract_lets target t2 t3
    have h2 : Keeps P b s t2 := h1.unread hP
    have h3 : Keeps P b s t3 := .ite (h2.frame (hide_onSld (by simp))) (h2.raiseRead hP)
    exact h3.setBaySt hP.tailBlind
  case h_5 => exact h1.unread hP

theorem Keeps.moveDoneRead : Keeps P b s (t.moveDone b) := by
  unfold State.moveDone
  extract_lets t1
  have h1 : Keeps P b s t1 := h.unread hP
  split
  · exact h1.startMoveRead hP
  · exact .ite (.ite (h1.setBaySt hP.tailBlind) (h1.setBaySt hP.tailBlind)) h1

/-! ### The sum signal (R110, R188) and the retract ramp (R193) -/

theorem Keeps.sumPeriod : Keeps P b s (t.sumPeriod b) := by
  unfold State.sumPeriod
  extract_lets r sum inside t1 n
  have h1 : Keeps P b s t1 := h.frame (hide_onRc (by simp))
  exact .ite (.ite ((h1.frame (hide_onRc (by simp))).endHold hP) (h1.unreadBay hP))
    (.ite (h1.frame (hide_onRc (by simp))) (h1.unreadBay hP))

/-- The ramp has a bearing on the reading of the focus drive alone. -/
theorem Keeps.rampPeriod (hl : LoopBlind P .focus) : Keeps P b s (t.rampPeriod b) := by
  unfold State.rampPeriod
  split
  · exact h
  · extract_lets x park ends at_
    refine h.onSrv fun v hv => ?_
    exact hP _ _ (hl (fun y => { y with drive := at_ _ park }) v hv) rfl

/-! ### A period of focus (R182, Table 7.7) -/

omit h hP in
theorem noteTravel_readings (v : Servo) (n : Nat) (zero last : Option Rat) : readings (v.noteTravel n zero last) = readings v := by
  unfold Servo.noteTravel
  split
  · split <;> rfl
  · rfl

omit h hP in
theorem judge_drive (x : Loop) (inside : Bool) (n : Nat) : (x.judge inside n).drive = x.drive := by
  unfold Loop.judge
  split
  · rfl
  · split <;> rfl

/-- The sample of an open focus loop: a sweep goes on or closes, or a layer jump's window closes. -/
theorem Keeps.focusPeriod {fen : Rat} : Keeps P b s (t.focusPeriod b fen) := by
  unfold State.focusPeriod
  extract_lets v bright crossed inside f t1 t2
  refine .ite h (.ite ?_ ?_)
  · split
    · extract_lets a1 closes u1 u2
      have h1 : Keeps P b s u1 := by
        refine h.unread hP fun w => ?_
        rw [noteTravel_readings]
        split
        · exact noteTravel_readings ..
        · rfl
      have h2 : Keeps P b s u2 := (h1.unread hP).closeFocus hP
      exact .ite (.ite (h2.raiseRead hP) h2) (h1.unread hP)
    · split
      · extract_lets x inWindow
        exact .ite (h.closeFocus hP) h
      · exact h
    · exact h
  · have h1 : Keeps P b s t1 := h.unreadHere hP (by rw [readings, judge_drive, readings])
    have h2 : Keeps P b s t2 := h1.unread hP
    refine .ite ?_ h1
    split
    · extract_lets t3
      have h3 : Keeps P b s t3 := Keeps.frame ((h2.unread hP).raiseRead hP) (hide_stepPassed (by simp) (by simp))
      exact (h3.setBaySt hP.tailBlind).moveDoneRead hP
    · split
      · split
        · exact h2.unread hP
        · exact h2
      · exact h2

/-! ### A period of tracking, of a move and of the lens offset (R177, R181 to R186) -/

omit h hP in
theorem refinePeriod_readings (v : Servo) (drive : Int) (u : Fin 64) : readings (v.refinePeriod drive u) = readings v := by
  unfold Servo.refinePeriod Servo.refine
  split
  · rfl
  · dsimp only
    split
    · split <;> rfl
    · rfl

theorem Keeps.trackPeriod {ten : Rat} : Keeps P b s (t.trackPeriod b ten) := by
  unfold State.trackPeriod
  extract_lets v u crossed t1 x
  have h1 : Keeps P b s t1 := h.unread hP
  refine .ite h1 (.ite ?_ (.ite h1 (.ite (h1.unread hP) ?_)))
  · exact .ite (h1.unread hP) (.ite (h1.closeTracking hP) h1)
  · exact h1.unread hP fun w => refinePeriod_readings _ _ _

theorem Keeps.jumpPeriod {m : Move} {ten : Rat} : Keeps P b s (t.jumpPeriod b m ten) := by
  unfold State.jumpPeriod
  dsimp only
  refine .ite (h.unread hP) (.ite ?_ (h.unread hP))
  exact Keeps.moveDoneRead (.ite h (h.raiseRead hP)) hP

theorem Keeps.movePeriod {ten : Rat} : Keeps P b s (t.movePeriod b ten) := by
  unfold State.movePeriod
  split
  · exact h
  · extract_lets next
    have hnext : Keeps P b s next := h.unread hP
    split
    · exact h.jumpPeriod hP
    · exact h.jumpPeriod hP
    · exact .ite ((h.unread hP).moveDoneRead hP) hnext
    · exact .ite (h.unread hP) hnext
    · exact hnext
    · exact hnext

theorem Keeps.lensPeriod : Keeps P b s (t.lensPeriod b) := by
  unfold State.lensPeriod
  extract_lets v x t1 above t2
  have h2 : Keeps P b s t2 := (h.unread hP).unread hP
  exact .ite (.ite (h2.raiseRead hP) h2) h

/-! ### The tails and the write clock (R162, R199 to R202) -/

theorem Keeps.tailPeriod {dropped : Bool} {i : Fin 2} : Keeps P b s (t.tailPeriod b dropped i) := by
  unfold State.tailPeriod
  extract_lets x
  split
  · exact h
  · extract_lets y t1 u t2
    have h1 : Keeps P b s t1 := .ite (h.unread hP) h
    have h2 : Keeps P b s t2 := h1.unread hP
    exact .ite h (.ite (h.unread hP) (.ite h2 (h2.raiseRead hP)))

omit hP in
theorem Keeps.foldl {α : Type} {f : State → α → State} (hf : ∀ u a, Keeps P b s u → Keeps P b s (f u a)) (l : List α) :
    Keeps P b s (l.foldl f t) := by
  induction l generalizing t with
  | nil => exact h
  | cons a l ih => exact ih (hf t a h)

theorem Keeps.clockPeriod {errs : List Rat} : Keeps P b s (t.clockPeriod b errs) := by
  refine h.foldl (fun u e hu => ?_) errs
  extract_lets bad u1
  have h1 : Keeps P b s u1 := hu.onWp
  exact .ite (h1.cutGate hP.tailBlind) h1

/-! ### The rest of a period (R175) -/

omit h in
/-- The laws of a period keep what the law of focus has kept. -/
theorem Keeps.servoLaws {o : ServoObs}
    (hfocus : Keeps P b s (t.law b .focus (o.focusOnTime && !t.bays[b].sHeld) (t.focusErr b) (t.focusFf b)
      t.bays[b].srv.focusOpenMove)) : Keeps P b s (t.servoLaws b o) := by
  unfold State.servoLaws
  extract_lets held t1 t2 v t3 fen ten t4
  have h2 : Keeps P b s t2 := hfocus.law hP (hP.loopBlind (by decide))
  have h3 : Keeps P b s t3 := .ite (h2.enterLull hP (hP.loopBlind (by decide))) h2
  have h4 : Keeps P b s t4 := (((h3.focusPeriod hP).trackPeriod hP).movePeriod hP).lensPeriod hP
  exact .ite h2 (h4.unread hP)

end

end Sys2Proof.Proofs
end

section
/-! PROOFS. The periods of the servo loops (R70, R71, R174 to R176, R186, R197, R198) complete: the proof of the statement about them. -/

namespace Sys2Proof.Proofs

open Sys2Proof Sys2Proof.Machine Sys2Proof.Safety Sys2Proof.Laws

/-! ### The words of a period (R70, R71) -/

/-- What stands of an input's words: the last sample, the counter, and the stale words in a row. -/
def wordOf (v : Servo) (i : Fin 8) : BitVec 14 × BitVec 4 × Nat := (v.samples[i], v.counters[i], v.stale[i])

theorem takeWord_same (v : Servo) {o : ServoObs} {i : Fin 8} (hi : bitAt o.complete i.val = true) :
    wordOf (v.takeWord o i) i = (inputSample o i, v.counters[i] + 1, 0) := by
  simp [wordOf, Servo.takeWord, hi]

theorem takeWord_other (v : Servo) (o : ServoObs) {i j : Fin 8} (hij : j ≠ i) : wordOf (v.takeWord o j) i = wordOf v i := by
  have hne : ¬j.val = i.val := Fin.val_ne_of_ne hij
  unfold wordOf Servo.takeWord
  cases hj : bitAt o.complete j.val <;> simp [hne]

theorem takeWords_other {o : ServoObs} {i : Fin 8} {l : List (Fin 8)} (hi : i ∉ l) (v : Servo) :
    wordOf (l.foldl (fun w j => w.takeWord o j) v) i = wordOf v i := by
  induction l generalizing v with
  | nil => rfl
  | cons j l ih =>
    obtain ⟨hij, hl⟩ := not_or.1 (mt List.mem_cons.2 hi)
    rw [List.foldl_cons, ih hl, takeWord_other v o (Ne.symm hij)]

/-- Every input that converted has its word taken, once. -/
theorem takeWords_same {o : ServoObs} {i : Fin 8} (hc : bitAt o.complete i.val = true) {l : List (Fin 8)} (hl : l.Nodup)
    (hi : i ∈ l) (v : Servo) :
    wordOf (l.foldl (fun w j => w.takeWord o j) v) i = (inputSample o i, v.counters[i] + 1, 0) := by
  induction l generalizing v with
  | nil => exact absurd hi List.not_mem_nil
  | cons j l ih =>
    obtain ⟨hj, hl⟩ := List.nodup_cons.1 hl
    rw [List.foldl_cons]
    rcases List.mem_cons.1 hi with rfl | hi
    · rw [takeWords_other hj, takeWord_same v hc]
    · have hne : j ≠ i := fun e => hj (e ▸ hi)
      have hcount : (v.takeWord o j).counters[i] = v.counters[i] := congrArg (fun x => x.2.1) (takeWord_other v o hne)
      rw [ih hl hi, hcount]

/-- The words of a period have been taken by a servo that had the counters `cs`: the period count is `n`, the wobble cycle that of the
period, and every input that converted has its sample, the next count and no stale word. -/
structure WordsTaken (o : ServoObs) (cs : Vector (BitVec 4) 8) (n : Nat) (v : Servo) : Prop where
  periods : v.periods = n
  cycle : v.cycle = o.cycle.val
  words : ∀ i : Fin 8, bitAt o.complete i.val = true → wordOf v i = (inputSample o i, cs[i] + 1, 0)

theorem wordsTaken_ofReadings (o : ServoObs) (cs : Vector (BitVec 4) 8) (n : Nat) : OfReadings (WordsTaken o cs n) := by
  intro v w ⟨hn, hc, hw⟩ h
  refine ⟨(congrArg Readings.periods h).trans hn, (congrArg Readings.cycle h).trans hc, fun i hi => .trans ?_ (hw i hi)⟩
  rw [wordOf, show w.samples = v.samples from congrArg Readings.samples h,
    show w.counters = v.counters from congrArg Readings.counters h, show w.stale = v.stale from congrArg Readings.stale h, wordOf]

section
variable {o : ServoObs} {cs : Vector (BitVec 4) 8} {n : Nat}

theorem wordsTaken_loopBlind : LoopBlind (WordsTaken o cs n) .focus := fun _ _ ⟨hn, hc, hw⟩ => ⟨hn, hc, hw⟩

theorem takeTilt_readings (v : Servo) : readings v.takeTilt = readings v := by
  unfold Servo.takeTilt
  dsimp only
  split <;> rfl

theorem takeWords_counts (l : List (Fin 8)) (v : Servo) :
    (l.foldl (fun w j => w.takeWord o j) v).periods = v.periods ∧ (l.foldl (fun w j => w.takeWord o j) v).cycle = v.cycle := by
  induction l generalizing v with
  | nil => exact ⟨rfl, rfl⟩
  | cons j l ih => exact ih (v.takeWord o j)

/-- A servo that takes the words of a period has taken them. -/
theorem wordsTaken_takeWords (v : Servo) (hc : v.cycle = o.cycle.val) :
    WordsTaken o v.counters v.periods (((List.finRange 8).foldl (fun w i => w.takeWord o i) v).takeTilt) := by
  obtain ⟨hn, hcycle⟩ := takeWords_counts (o := o) (List.finRange 8) v
  refine wordsTaken_ofReadings o _ _ _ _ ⟨hn, hcycle.trans hc, fun i hi => ?_⟩ (takeTilt_readings _)
  exact takeWords_same hi (List.nodup_finRange 8) (List.mem_finRange i) v

end

/-! ### A servo period (R175) -/

variable {s : State} {b : BayNo}

/-- The state in which the laws of a period compute: the parameters are in force, the words taken, and the sum-signal detector and the
ramp have had their period. -/
def periodBegun (s : State) (b : BayNo) (o : ServoObs) : State :=
  ((((s.takePeriod fastParams b).onSrv b (fun v => { v with cycle := o.cycle.val })).takeSamples b o).sumPeriod b).rampPeriod b

theorem periodBegun_wordsTaken (s : State) (b : BayNo) (o : ServoObs) :
    WordsTaken o s.bays[b].srv.counters s.bays[b].srv.periods (periodBegun s b o).bays[b].srv := by
  let started := (s.takePeriod fastParams b).onSrv b (fun v => { v with cycle := o.cycle.val })
  let taken := started.onSrv b (fun v => ((List.finRange 8).foldl (fun (w : Servo) i => w.takeWord o i) v).takeTilt)
  have hstarted : started.bays[b].srv = { s.bays[b].srv with cycle := o.cycle.val } := onSrv_srv (s.takePeriod fastParams b) b _
  have htaken : WordsTaken o s.bays[b].srv.counters s.bays[b].srv.periods taken.bays[b].srv := by
    rw [onSrv_srv, hstarted]
    exact wordsTaken_takeWords { s.bays[b].srv with cycle := o.cycle.val } rfl
  have hstalls : Keeps (WordsTaken o s.bays[b].srv.counters s.bays[b].srv.periods) b taken (started.takeSamples b o) :=
    (Keeps.refl _ b taken).foldl (fun u _ hu => .ite hu (hu.raiseRead (wordsTaken_ofReadings o _ _))) _
  exact ((hstalls.sumPeriod (wordsTaken_ofReadings o _ _)).rampPeriod (wordsTaken_ofReadings o _ _) wordsTaken_loopBlind).servo htaken

theorem srv_of_hide {s t : State} {b : BayNo} (h : hide (allBut (.srv b)) t = hide (allBut (.srv b)) s) :
    t.bays[b].srv = s.bays[b].srv := ((unchanged_of_hide h).srv b).resolve_left (by simp)

/-- With the root PLL in lock, a servo period leaves what the law of focus has left, with a period more counted. -/
theorem servoPeriod_completes_of {o : ServoObs} {P Q : Servo → Prop} (hP : OfReadings P) (hQ : OfReadings Q)
    (hruns : s.rootRuns = true) (hcount : ∀ v, P v → Q { v with periods := v.periods + 1 })
    (hfocus : P ((periodBegun s b o).law b .focus (o.focusOnTime && !(periodBegun s b o).bays[b].sHeld)
      ((periodBegun s b o).focusErr b) ((periodBegun s b o).focusFf b)
      (periodBegun s b o).bays[b].srv.focusOpenMove).bays[b].srv) :
    Completes (.servoPeriod b o) s (fun t => Q t.bays[b].srv) := by
  change ∃ t, execServoPeriod b o s = .next t ∧ _
  unfold execServoPeriod
  rw [hruns, if_neg (by decide)]
  extract_lets was s1 s2 dropped s3
  have h3 : P s3.bays[b].srv :=
    ((((Keeps.refl P b _).servoLaws hP).tailPeriod hP).tailPeriod hP).servo hfocus
  have hcounted : Q (s3.onSrv b (fun v => { v with periods := v.periods + 1 })).bays[b].srv := by
    rw [onSrv_srv]
    exact hcount _ h3
  refine ⟨_, rfl, ?_⟩
  rw [srv_of_hide (hide_writePeriod (by simp) (by simp) (by simp) (by simp) (by simp))]
  exact ((Keeps.refl Q b _).clockPeriod hQ).servo hcounted

/-- A period advances the counter of every input that converted and takes the sum of its 4 conversions. -/
theorem servoPeriod_completes_words {o : ServoObs} (hruns : s.rootRuns = true) :
    Completes (.servoPeriod b o) s (fun t => t.bays[b].srv.periods = s.bays[b].srv.periods + 1
      ∧ t.bays[b].srv.cycle = o.cycle.val ∧ ∀ i : Fin 8, bitAt o.complete i.val = true →
        t.bays[b].srv.samples[i] = BitVec.ofNat 14 ((o.samples[i]).toList.map BitVec.toNat).sum
        ∧ t.bays[b].srv.counters[i] = s.bays[b].srv.counters[i] + 1) := by
  have hP := wordsTaken_ofReadings o s.bays[b].srv.counters s.bays[b].srv.periods
  obtain ⟨t, ht, hn, hc, hw⟩ := servoPeriod_completes_of hP
    (wordsTaken_ofReadings o s.bays[b].srv.counters (s.bays[b].srv.periods + 1)) hruns
    (fun v hv => ⟨congrArg (· + 1) hv.periods, hv.cycle, hv.words⟩)
    (((Keeps.refl _ b _).law hP wordsTaken_loopBlind).servo (periodBegun_wordsTaken s b o))
  exact ⟨t, ht, hn, hc, fun i hi =>
    ⟨congrArg (fun x => x.1) (hw i hi), congrArg (fun x => x.2.1) (hw i hi)⟩⟩

/-! ### A law on time (R174, R176) -/

@[simp] theorem loop_onLoop (v : Servo) (f : Loop → Loop) (l : LoopId) : (v.onLoop f l).loop l = f (v.loop l) := by
  cases l <;> rfl

/-- The law of a closed loop at an error, under its landing boost: its output, next filter states and next integrator. -/
def loopLaw (s : State) (b : BayNo) (l : LoopId) (err : Rat) : Rat × List Rat × Int :=
  let x := s.bays[b].srv.loop l
  let gain : Rat := if 0 < x.boost then (s.bp b Param.srvLandBoost : Rat) / 16 else 1
  Config.servoLaw l.code (s.loopGains b l).1 (s.loopGains b l).2 x.filter x.integ (err * gain)

/-- A closed loop whose input is not cut applies its law. -/
theorem compute_loop {l : LoopId} {err ff : Rat} (hc : (s.bays[b].srv.loop l).closed = true) :
    (s.compute b l err ff false false).bays[b].srv.loop l
      = (s.bays[b].srv.loop l).apply (s.driveLimit b l)
        (roundOpen 10 ((s.bays[b].srv.loop l).base + (loopLaw s b l err).1 + ff)) (loopLaw s b l err).2.1 (loopLaw s b l err).2.2
        false := by
  unfold State.compute
  dsimp only
  rw [onSrv_srv, loop_onLoop, hc]
  rfl

/-- A computation on time latches its output, held within the drive limit. -/
theorem compute_drive {l : LoopId} {err ff : Rat} (hc : (s.bays[b].srv.loop l).closed = true) :
    ((s.compute b l err ff false false).bays[b].srv.loop l).drive
      = clampTo (s.driveLimit b l) (roundOpen 10 ((s.bays[b].srv.loop l).base + (loopLaw s b l err).1 + ff)) := by
  rw [compute_loop hc]
  rfl

/-- A loop of fewer than 64 outputs has no dead input (R190). -/
theorem deadInput_of_few {l : LoopId} (h : (s.bays[b].srv.loop l).outs.length < 64) : s.deadInput b l = false := by
  unfold State.deadInput
  dsimp only
  rw [decide_eq_false fun hd => absurd hd.1 (not_le.2 h), Bool.and_false, Bool.false_and]

theorem compute_alive {l : LoopId} {err ff : Rat} (hc : (s.bays[b].srv.loop l).closed = true)
    (hn : (s.bays[b].srv.loop l).outs.length < 63) : (s.compute b l err ff false false).deadInput b l = false := by
  refine deadInput_of_few ?_
  rw [compute_loop hc]
  exact (List.length_take_le' ..).trans_lt (Nat.succ_lt_succ hn)

/-- A closed loop in service, on time, with no hold and all its inputs fresh, computes. -/
theorem law_drive {l : LoopId} {err ff : Rat} (hp : s.bays[b].srv.parked = false) (hr : s.bays[b].srv.ramp = none)
    (hl : (s.bays[b].srv.loop l).lull = none) (hc : (s.bays[b].srv.loop l).closed = true)
    (hf : s.bays[b].srv.frozen l = false) (hh : s.bays[b].srv.hold = none) (hn : (s.bays[b].srv.loop l).outs.length < 63) :
    ((s.law b l true err ff false).bays[b].srv.loop l).drive
      = clampTo (s.driveLimit b l) (roundOpen 10 ((s.bays[b].srv.loop l).base + (loopLaw s b l err).1 + ff)) := by
  have hlaw : s.law b l true err ff false = s.compute b l err ff false false := by
    unfold State.law
    dsimp only
    simp only [hp, hr, hl, hf, hh, compute_alive hc hn, Option.isSome_none, Bool.false_and, Bool.and_false, Bool.or_self,
      Bool.not_true, Bool.false_eq_true, if_false]
  rw [hlaw, compute_drive hc]

/-! ### Focus in a period (R174 to R176) -/

theorem focusDrive_ofReadings (d : Int) : OfReadings (fun v => v.focus.drive = d) :=
  fun _ _ hv h => (congrArg Readings.drive h).trans hv

/-- No input of a servo whose words are all fresh is frozen (R189). -/
theorem frozen_of_complete {o : ServoObs} {cs : Vector (BitVec 4) 8} {n : Nat} {v : Servo} (hw : WordsTaken o cs n v)
    (ho : o.complete = 0xFF) (l : LoopId) : v.frozen l = false := by
  have hall : ∀ i : Fin 8, bitAt (0xFF : BitVec 8) i.val = true := by decide
  refine List.any_eq_false.2 fun i _ => ?_
  have hfresh : v.stale[i] = 0 := congrArg (fun x => x.2.2) (hw.words i (by rw [ho]; exact hall i))
  rw [hfresh]
  decide

theorem focusOpenMove_of_closed {v : Servo} (hc : v.focus.closed = true) : v.focusOpenMove = false := by
  unfold Servo.focusOpenMove
  split
  · split
    · rw [hc]
      rfl
    · rfl
  · rfl

theorem periodBegun_sHeld (s : State) (b : BayNo) (o : ServoObs) : (periodBegun s b o).bays[b].sHeld = s.bays[b].sHeld := by
  have hframe : hide (allBut (.held b)) (periodBegun s b o) = hide (allBut (.held b)) s := by
    simp [periodBegun, hide_rampPeriod, hide_sumPeriod, hide_takeSamples, hide_onSrv, hide_takePeriod]
  exact (((unchanged_of_hide hframe).held b).resolve_left (by simp)).2

/-- A focus computation on time applies the law of its error, and nothing after it in the period moves the drive. -/
theorem servoPeriod_completes_focus {o : ServoObs} {u : State} (hu : periodBegun s b o = u) (hruns : s.rootRuns = true)
    (hs : s.bays[b].sHeld = false) (hp : u.bays[b].srv.parked = false) (hr : u.bays[b].srv.ramp = none)
    (hc : u.bays[b].srv.focus.closed = true) (hl : u.bays[b].srv.focus.lull = none) (hn : u.bays[b].srv.focus.outs.length < 63)
    (hh : u.bays[b].srv.hold = none) (ho : o.complete = 0xFF) (ht : o.focusOnTime = true) :
    Completes (.servoPeriod b o) s (fun t => t.bays[b].srv.focus.drive = clampTo (u.driveLimit b .focus)
      (roundOpen 10 (u.bays[b].srv.focus.base + (loopLaw u b .focus (u.focusErr b)).1 + u.focusFf b))) := by
  have hfrozen := frozen_of_complete (periodBegun_wordsTaken s b o) ho .focus
  have hheld := periodBegun_sHeld s b o
  refine servoPeriod_completes_of (focusDrive_ofReadings _) (focusDrive_ofReadings _) hruns (fun _ hv => hv) ?_
  rw [hu] at hfrozen hheld ⊢
  rw [hheld, hs, ht, focusOpenMove_of_closed hc]
  exact law_drive (l := .focus) hp hr hl hc hfrozen hh hn

/-! ### Tilt (R174 to R176) -/

/-- How far an offset change has come is told by the move. -/
theorem offsetPart_of_move {s t : State} {b : BayNo} (h : t.bays[b].srv.move = s.bays[b].srv.move) :
    t.offsetPart b = s.offsetPart b := by
  have htime : ∀ (m : Move) (x y : Int), m.kind = .offset x y → t.moveTime b m = s.moveTime b m := by
    intro m x y hk
    unfold State.moveTime
    rw [hk]
    rfl
  unfold State.offsetPart
  rw [h]
  cases s.bays[b].srv.move with
  | none => rfl
  | some m =>
    dsimp only
    cases hk : m.kind with
    | offset x y => exact congrArg (fun z => profilePos (z / 200)) (htime m x y hk)
    | _ => rfl

/-- A servo puts its tilt words into their histories (R190), as its tilt law begins. -/
def tiltNoted (w : Servo) : Servo :=
  let first := w.history.set 6 (((w.tiltWord.1 : Int) :: w.history[6]).take 64)
  { w with history := first.set 7 (((w.tiltWord.2 : Int) :: w.history[7]).take 64) }

theorem tiltNoted_loop (s : State) (b : BayNo) : (s.onSrv b tiltNoted).bays[b].srv.loop .tilt = s.bays[b].srv.tilt := by
  rw [onSrv_srv]
  rfl

/-- The tilt error does not look at the histories. -/
theorem tiltNoted_tiltErr (s : State) (b : BayNo) : (s.onSrv b tiltNoted).tiltErr b = s.tiltErr b := by
  have hpart : (s.onSrv b tiltNoted).offsetPart b = s.offsetPart b := offsetPart_of_move (by rw [onSrv_srv]; rfl)
  unfold State.tiltErr State.tiltRef
  rw [hpart, onSrv_srv]
  rfl

/-- Nor does the tilt law. -/
theorem tiltNoted_loopLaw (s : State) (b : BayNo) (err : Rat) :
    loopLaw (s.onSrv b tiltNoted) b .tilt err = loopLaw s b .tilt err := by
  unfold loopLaw
  rw [tiltNoted_loop]
  rfl

/-- A tilt computation on time applies the law of its error. -/
theorem tiltPeriod_completes (hruns : s.rootRuns = true) (hs : s.bays[b].sHeld = false) :
    let u := s.takePeriod [Param.srvTiltXover, Param.srvTiltKs] b
    u.bays[b].srv.tilt.closed = true → u.bays[b].srv.hold = none → u.bays[b].srv.tilt.outs.length < 63 →
    Completes (.tiltPeriod b true) s (fun t => t.bays[b].srv.tilt.drive = clampTo (u.driveLimit b .tilt)
      (roundOpen 10 (u.bays[b].srv.tilt.base + (loopLaw u b .tilt (u.tiltErr b)).1))) := by
  intro u hc hh hn
  let u1 := u.onSrv b tiltNoted
  have htilt : u1.bays[b].srv.loop .tilt = u.bays[b].srv.tilt := tiltNoted_loop u b
  have hc1 : (u1.bays[b].srv.loop .tilt).closed = true := by rw [htilt, hc]
  have halive : (u1.compute b .tilt (u1.tiltErr b) 0 false false).deadInput b .tilt = false :=
    compute_alive hc1 (by rw [htilt]; exact hn)
  have hdrive : ((u1.compute b .tilt (u1.tiltErr b) 0 false false).bays[b].srv.loop .tilt).drive
      = clampTo (u.driveLimit b .tilt) (roundOpen 10 (u.bays[b].srv.tilt.base + (loopLaw u b .tilt (u.tiltErr b)).1)) := by
    rw [compute_drive hc1, htilt, tiltNoted_loopLaw, tiltNoted_tiltErr, add_zero]
    rfl
  change ∃ t, execTiltPeriod b true s = .next t ∧ _
  unfold execTiltPeriod
  rw [hruns, if_neg (by decide)]
  extract_lets v s1 s2
  rw [hs, if_neg (by rw [show v.tilt.closed = true from hc]; decide), if_neg (by decide),
    if_neg (by rw [show v.hold = none from hh]; decide), if_neg (by rw [show s2.deadInput b .tilt = false from halive]; decide)]
  exact ⟨_, rfl, hdrive⟩

/-! ### The sled loop (R186) -/

/-- The sled loop of a homed sled latches its velocity command. -/
theorem sledLoopPeriod_completes (hruns : s.rootRuns = true) (hs : s.bays[b].sHeld = false) (hhome : s.bays[b].sld.homed = true)
    (hc : s.bays[b].srv.sled.closed = true) (hl : s.bays[b].srv.sled.lull = none) (ht : s.bays[b].srv.tracking.lull = none) :
    let u := s.takePeriod [Param.srvSledKp, Param.srvSledDeadband] b
    Completes (.sledLoopPeriod b) s (fun t => t.bays[b].srv.sled.drive = u.spiralV b
      + (if s.bays[b].srv.hold.isSome = true ∨ |s.bays[b].srv.lensOffset| ≤ (u.bp b Param.srvSledDeadband : Rat) then 0
         else roundOpen 13 (10 * u.bp b Param.srvSledKp * s.bays[b].srv.lensOffset / 64))) := by
  intro u
  have hbay : u.bays[b] = s.bays[b] := rfl
  change ∃ t, execSledLoopPeriod b s = .next t ∧ _
  unfold execSledLoopPeriod
  rw [hruns, if_neg (by decide)]
  dsimp only
  rw [hbay, hhome, hl, ht, hc, hs, if_neg (by decide), if_neg (by decide), if_neg (by decide), if_neg (by decide)]
  refine ⟨_, rfl, ?_⟩
  rw [show (u.onBay b _).bays[b] = _ from onBay_same u b _]
  rfl

/-! ### A missed deadline (R197, R198) -/

theorem raiseBay_loop (s : State) (b c : BayNo) (e : BayEvent) (fs : List PField) (l : LoopId) :
    (s.raiseBay c e fs).bays[b].srv.loop l = s.bays[b].srv.loop l := by
  cases l <;> simp [Servo.loop]

/-- A miss before the third in a row is counted, holds the output and is told. -/
theorem servoDeadlineMiss_completes {l : LoopId} (hruns : s.rootRuns = true) (hm : s.sys.mode ≠ .off)
    (hc : (s.bays[b].srv.loop l).closed = true) (hn : (s.bays[b].srv.loop l).consecutive < 2) :
    Completes (.servoDeadlineMiss b l) s (fun t =>
      (t.bays[b].srv.loop l).overruns = satInc 0xFFFFFFFF (s.bays[b].srv.loop l).overruns
      ∧ (t.bays[b].srv.loop l).consecutive = (s.bays[b].srv.loop l).consecutive + 1
      ∧ (t.bays[b].srv.loop l).drive = (s.bays[b].srv.loop l).drive ∧ raisedSince s t (.bay b .servoHold) = true) := by
  have hcount : satInc 255 (s.bays[b].srv.loop l).consecutive = (s.bays[b].srv.loop l).consecutive + 1 := if_pos (by omega)
  have hkeeps := Keeps.refl (fun _ => True) b s
  change ∃ t, execServoDeadlineMiss b l s = .next t ∧ _
  unfold execServoDeadlineMiss
  rw [hruns, if_neg (by decide), hc, if_neg (by decide)]
  unfold State.overrun
  dsimp only
  rw [hcount, if_neg (by omega)]
  refine ⟨_, rfl, ?_⟩
  rw [raiseBay_loop, onSrv_srv, loop_onLoop]
  exact ⟨rfl, rfl, rfl, raisedSince_of_keeps hkeeps.onSrv hm (Keeps.refl (fun _ => True) b _)⟩

/-- Settles O27: what a period has read, and the drive it has given focus, stand after everything the same period leads to (a Lull,
R191; the end of a move, R181; a cut of the write gate, R169). -/
theorem servoPeriodsComplete : Obligations.ServoPeriodsComplete := by
  unfold Obligations.ServoPeriodsComplete
  refine ⟨fun _ _ _ hruns => servoPeriod_completes_words hruns, ?_,
    fun _ _ hruns hs hc hh hn => tiltPeriod_completes hruns hs hc hh hn,
    fun _ _ hruns hs hhome hc hl ht => sledLoopPeriod_completes hruns hs hhome hc hl ht,
    fun _ _ _ hruns hm hc hn => servoDeadlineMiss_completes hruns hm hc hn⟩
  intro s b o u
  have hu : periodBegun s b o = u := rfl
  clear_value u
  exact fun hruns hs hp hr hc hl hn hh ho ht => servoPeriod_completes_focus hu hruns hs hp hr hc hl hn hh ho ht

end Sys2Proof.Proofs
end

section
/-! PROOFS. The commands of a lane of the read channel (R89 to R92, R97, R109 to R116, R131) complete: the proof of the statement about them. -/

namespace Sys2Proof.Proofs

open Sys2Proof Sys2Proof.Machine Sys2Proof.Safety Sys2Proof.Laws

/-! ### Lanes and their bay -/

theorem rc_of_hide {s t : State} {b : BayNo} (h : hide (allBut (.rc b)) t = hide (allBut (.rc b)) s) :
    t.bays[b].rc = s.bays[b].rc := ((unchanged_of_hide h).rc b).resolve_left (by simp)

theorem dec_of_hide {s t : State} {b : BayNo} (h : hide (allBut (.dec b)) t = hide (allBut (.dec b)) s) :
    t.bays[b].dec = s.bays[b].dec := ((unchanged_of_hide h).dec b).resolve_left (by simp)

theorem seq_of_hide {s t : State} {b : BayNo} (h : hide (allBut (.seq b)) t = hide (allBut (.seq b)) s) :
    t.bays[b].seq = s.bays[b].seq := ((unchanged_of_hide h).seq b).resolve_left (by simp)

section
variable (s : State) (b : BayNo) (l : Beam)

theorem onLane_lane (f : Lane → Lane) : (s.onLane b l f).bays[b].rc.lanes[l] = f s.bays[b].rc.lanes[l] := by
  simp [State.onLane]

theorem onLane_lane_other {m : Beam} (h : l ≠ m) (f : Lane → Lane) :
    (s.onLane b m f).bays[b].rc.lanes[l] = s.bays[b].rc.lanes[l] := by
  simp [State.onLane, Fin.val_ne_of_ne h.symm]

theorem onRc_lanes {f : ReadChannel → ReadChannel} (hf : ∀ r, (f r).lanes = r.lanes := by exact fun _ => rfl) :
    (s.onRc b f).bays[b].rc.lanes = s.bays[b].rc.lanes := by
  rw [show (s.onRc b f).bays[b] = _ from onRc_same s b f]
  exact hf _

theorem raiseBay_rc (c : BayNo) (e : BayEvent) (fs : List PField) : (s.raiseBay c e fs).bays[b].rc = s.bays[b].rc :=
  raiseAt_bay_rc s _ _ fs b

theorem sampled_sys (xs : List (BitVec 8)) : (s.sampled b l xs).sys = s.sys := by
  have hnote : ∀ u : State, (u.noteAsync b l).sys = u.sys := fun u => by
    unfold State.noteAsync
    dsimp only
    split
    · rfl
    · split
      · rfl
      · rw [raiseBay_eq, raiseAt_sys, onLane_sys]
  unfold State.sampled
  split
  · rfl
  · exact hnote _

theorem sampled_seq (xs : List (BitVec 8)) : (s.sampled b l xs).bays[b].seq = s.bays[b].seq :=
  seq_of_hide (hide_sampled (by simp) (by simp) (by simp) (by simp))

end

/-! ### Events since a state -/

/-- From `s` to `t` events are only added, whatever becomes of the servo. -/
abbrev KeepsEvents (b : BayNo) (s t : State) : Prop := Keeps (fun _ => True) b s t

section
variable {b : BayNo} {s t : State} (h : KeepsEvents b s t)
include h

theorem Keeps.raised {c : BayNo} {e : BayEvent} {fs : List PField} : KeepsEvents b s (t.raiseBay c e fs) :=
  h.raiseBay fun _ _ _ => trivial

theorem Keeps.onLane {c : BayNo} {l : Beam} {f : Lane → Lane} : KeepsEvents b s (t.onLane c l f) :=
  h.frame (hide_onLane (by simp))

theorem Keeps.noteAsync {c : BayNo} {l : Beam} : KeepsEvents b s (t.noteAsync c l) := by
  unfold State.noteAsync
  exact .ite h (.ite h.onLane h.onLane.raised)

theorem Keeps.sampled {c : BayNo} {l : Beam} {xs : List (BitVec 8)} : KeepsEvents b s (t.sampled c l xs) := by
  unfold State.sampled
  exact .ite h h.onLane.noteAsync

theorem Keeps.feedbackLoss {l : LoopId} : KeepsEvents b s (t.feedbackLoss b l) := by
  unfold State.feedbackLoss
  exact .ite (h.enterLull (fun _ _ _ _ => trivial) fun _ _ _ => trivial) h

end

/-! ### The flywheel (R111 to R115) -/

/-- Where a lane's flywheel stands: its phase, the frame whose sync is next and the prediction of it, and the syncs so far. -/
def flywheel (s : State) (b : BayNo) (l : Beam) : LanePhase × Nat × Int × List SyncRec :=
  (s.bays[b].rc.lanes[l].phase, s.bays[b].rc.lanes[l].frame, s.bays[b].rc.lanes[l].prediction, s.bays[b].rc.lanes[l].syncs)

section
variable (s : State) (b : BayNo) (l : Beam)

theorem flywheel_eq : flywheel s b l = (s.bays[b].rc.lanes[l].phase, s.bays[b].rc.lanes[l].frame,
    s.bays[b].rc.lanes[l].prediction, s.bays[b].rc.lanes[l].syncs) := rfl

theorem flywheel_onLane (m : Beam) {f : Lane → Lane}
    (hf : ∀ x, ((f x).phase, (f x).frame, (f x).prediction, (f x).syncs) = (x.phase, x.frame, x.prediction, x.syncs)
      := by exact fun _ => rfl) : flywheel (s.onLane b m f) b l = flywheel s b l := by
  unfold flywheel
  by_cases h : l = m
  · subst h
    rw [onLane_lane]
    exact hf _
  · rw [onLane_lane_other s b l h]

theorem flywheel_raiseBay (c : BayNo) (e : BayEvent) (fs : List PField) :
    flywheel (s.raiseBay c e fs) b l = flywheel s b l := by
  unfold flywheel
  rw [raiseBay_rc]

theorem flywheel_noteAsync (m : Beam) : flywheel (s.noteAsync b m) b l = flywheel s b l := by
  unfold State.noteAsync
  dsimp only
  split
  · rfl
  · split
    · exact flywheel_onLane s b l m
    · exact (flywheel_raiseBay _ b l b _ _).trans (flywheel_onLane s b l m)

theorem flywheel_alignLane (m : Beam) (diff : Int) (cold : Bool) :
    flywheel (s.alignLane b m diff cold) b l = flywheel s b l := by
  unfold State.alignLane
  extract_lets x d bad s1
  have h1 : flywheel s1 b l = flywheel s b l := flywheel_onLane s b l m
  split
  · rw [flywheel_raiseBay, h1]
  · exact h1

theorem flywheel_learnOffset (m : Beam) : flywheel (s.learnOffset b m) b l = flywheel s b l := by
  unfold State.learnOffset
  dsimp only
  split
  · rfl
  · simp [flywheel]

theorem flywheel_foldl {g : State → Beam → State} (hg : ∀ t m, flywheel (g t m) b l = flywheel t b l) (ms : List Beam) :
    flywheel (ms.foldl g s) b l = flywheel s b l := by
  induction ms generalizing s with
  | nil => rfl
  | cons m ms ih => rw [List.foldl_cons, ih, hg]

/-- The depths that a sync fixes (R102) are no matter of the flywheel. -/
theorem flywheel_align (m : Beam) (f : Nat) : flywheel (s.align b m f) b l = flywheel s b l := by
  unfold State.align
  split
  · rfl
  · extract_lets r others s0 s1
    have h0 : flywheel s0 b l = flywheel s b l := by
      dsimp only [s0]
      split
      · exact flywheel_alignLane s b l _ 0 true
      · rfl
    have h1 : flywheel s1 b l = flywheel s b l :=
      (flywheel_foldl _ b l (fun t n => flywheel_alignLane t b l n _ _) others).trans h0
    split
    · refine (flywheel_foldl _ b l (fun t n => ?_) _).trans h1
      split
      · exact flywheel_learnOffset t b l n
      · rfl
    · exact h1

/-- An accepted sync moves the flywheel on by a frame, from its position. -/
theorem flywheel_acceptSync (q : Int) (d : Nat) {x : Lane} (hx : s.bays[b].rc.lanes[l] = x) :
    flywheel (s.acceptSync b l q d) b l = (.locked, x.frame + 1, nextSync x.frame (x.prediction + q),
      { frame := x.frame, position := x.prediction + q, offset := q, distance := d, inserted := false } :: x.syncs) := by
  unfold State.acceptSync
  dsimp only
  rw [flywheel_noteAsync, flywheel_align, flywheel, onLane_lane, hx]

end

/-! ### Acquisition (R91, R92, R131) -/

variable {s : State} {b : BayNo} {l : Beam} {xs : List (BitVec 8)}

/-- A cluster whose entry is open is acquired, whether or not it starts a further pass. -/
theorem openEntry_goes {home read : ClusterAddr} {cls : CwClass} {seq : BitVec 32}
    (h : (s.bays[b].dec.entryAt read).isSome = true) : (s.openEntry b l home read cls seq).2 = true := by
  obtain ⟨x, hx⟩ := Option.isSome_iff_exists.1 h
  unfold State.openEntry
  dsimp only
  rw [hx]
  dsimp only
  split
  · rfl
  · rfl

/-- A lane that takes up a cluster stands before its first frame. -/
theorem takeCluster_lane {home read : ClusterAddr} {cls : CwClass} {seq : BitVec 32} {cold first : Bool} {cycle : Rat} {x : Lane}
    (hx : (s.takeCluster b l home read cls seq cold first cycle).bays[b].rc.lanes[l] = x) :
    x.addr = read ∧ x.home = home ∧ x.frame = 0 ∧ x.released = 0 := by
  unfold State.takeCluster at hx
  dsimp only at hx
  rw [onLane_lane] at hx
  subst hx
  exact ⟨rfl, rfl, rfl, rfl⟩

theorem clusterAcquisition_completes {home read : ClusterAddr} {cls : CwClass} {first : Bool} {cycle : Rat}
    (hruns : s.dspRuns = true) (hreads : s.bays[b].laneReads l = true) (hopen : (s.bays[b].dec.entryAt read).isSome = true) :
    Completes (.clusterAcquisition b l home read cls first cycle xs) s (fun t => t.bays[b].rc.lanes[l].addr = read
      ∧ t.bays[b].rc.lanes[l].home = home ∧ t.bays[b].rc.lanes[l].frame = 0 ∧ t.bays[b].rc.lanes[l].released = 0) := by
  have hdec : ((s.sampled b l xs).takeEffect .nextCluster b).bays[b].dec = s.bays[b].dec :=
    dec_of_hide (by simp [hide_takeEffect, hide_sampled])
  change ∃ t, execClusterAcquisition b l home read cls first cycle xs s = .next t ∧ _
  unfold execClusterAcquisition
  dsimp only
  rw [hruns, hreads, if_neg (by decide), if_neg (by decide)]
  generalize hp : ite (s.bays[b].seq.st = .writing) _ _ = p
  obtain ⟨s1, go⟩ := p
  have hgo : go = true := by
    split at hp
    · exact (congrArg Prod.snd hp).symm
    · exact (congrArg Prod.snd hp).symm.trans (openEntry_goes (hdec ▸ hopen))
  subst hgo
  refine ⟨_, rfl, ?_⟩
  rw [onRc_lanes]
  exact takeCluster_lane rfl

theorem preambleDetect_completes (hruns : s.dspRuns = true)
    (hphase : (s.sampled b l xs).bays[b].rc.lanes[l].phase = .searching)
    (hmatch : (s.sampled b l xs).bays[b].rc.lanes[l].par.preDetect ≤ (s.sampled b l xs).bays[b].rc.lanes[l].data.matched) :
    Completes (.preambleDetect b l xs) s (fun t => t.bays[b].rc.lanes[l].phase = .acquiring
      ∧ t.bays[b].rc.lanes[l].data
        = zeroStart ((s.sampled b l xs).dspCfg b l) (s.sampled b l xs).bays[b].rc.lanes[l].data) := by
  change ∃ t, execPreambleDetect b l xs s = .next t ∧ _
  unfold execPreambleDetect
  dsimp only
  rw [hruns, if_neg (by decide), if_pos ⟨hphase, hmatch⟩]
  refine ⟨_, rfl, ?_⟩
  rw [onLane_lane]
  exact ⟨rfl, rfl⟩

/-! ### Syncs and lock loss (R89, R112, R114, R115) -/

/-- A sync without flagged bits, found within the threshold once its window has passed the detector, is accepted. -/
theorem frameSyncSearch_accepts {x : Lane} {q : Int} {d : Nat} (hx : (s.sampled b l xs).bays[b].rc.lanes[l] = x)
    (hruns : s.dspRuns = true) (hphase : x.phase = .locked) (hcold : x.cold = false) (hframe : x.frame < 384)
    (hpast : x.prediction + x.par.syncWin + 40 ≤ x.data.softCount)
    (hclear : ∀ i < 40, flagged x.data.erased (x.prediction + (i : Nat)) = false)
    (hfound : syncSearch (x.data.hardFrom (x.prediction - x.par.syncWin) (2 * x.par.syncWin + 40)) x.frame x.par.syncWin
      x.par.syncThr = some (q, d)) :
    execFrameSyncSearch b l xs s = .next ((s.sampled b l xs).acceptSync b l q d) := by
  have hwindow : x.window = x.par.syncWin := by simp [Lane.window, hcold]
  have herased : (List.range 40).any (fun (i : Nat) => flagged x.data.erased (x.prediction + i)) = false :=
    List.any_eq_false.2 fun i hi => by rw [hclear i (List.mem_range.1 hi)]; decide
  unfold execFrameSyncSearch
  dsimp only
  rw [hruns, if_neg (by decide), hx, hwindow, if_neg (by omega), hphase]
  dsimp only
  rw [herased, if_neg (by decide), hfound]

/-- The sync that is accepted moves the flywheel on by its frame. -/
theorem frameSyncSearch_completes {x : Lane} {q : Int} {d : Nat} (hx : (s.sampled b l xs).bays[b].rc.lanes[l] = x)
    (haccepts : execFrameSyncSearch b l xs s = .next ((s.sampled b l xs).acceptSync b l q d)) :
    Completes (.frameSyncSearch b l xs) s (fun t => t.bays[b].rc.lanes[l].phase = .locked
      ∧ t.bays[b].rc.lanes[l].frame = x.frame + 1
      ∧ t.bays[b].rc.lanes[l].prediction = nextSync x.frame (x.prediction + q)
      ∧ t.bays[b].rc.lanes[l].syncs = { frame := x.frame, position := x.prediction + q, offset := q, distance := d,
                                        inserted := false } :: x.syncs) := by
  have hfly := flywheel_acceptSync _ b l q d hx
  simp only [flywheel_eq, Prod.mk.injEq] at hfly
  exact ⟨_, haccepts, hfly⟩

/-- The timing correction at its bound ends frame lock, with both events. -/
theorem timingRange_completes (hruns : s.dspRuns = true) (hm : s.sys.mode ≠ .off)
    (hphase : (s.sampled b l xs).bays[b].rc.lanes[l].phase = .locked)
    (hbound : (s.sampled b l xs).bays[b].rc.lanes[l].data.atBound = true) :
    Completes (.timingRange b l xs) s (fun t => t.bays[b].rc.lanes[l].phase = .lost
      ∧ raisedSince s t (.bay b .timingRange) = true ∧ raisedSince s t (.bay b .frameLockLoss) = true) := by
  have hm0 : (s.sampled b l xs).sys.mode ≠ .off := by rwa [sampled_sys]
  have hsampled : KeepsEvents b s (s.sampled b l xs) := (Keeps.refl _ b s).sampled
  change ∃ t, execTimingRange b l xs s = .next t ∧ _
  unfold execTimingRange
  dsimp only
  rw [hruns, if_neg (by decide), hphase, hbound, if_neg (by decide)]
  refine ⟨_, rfl, ?_, ?_, ?_⟩
  · unfold State.lockLoss
    rw [raiseBay_rc, onLane_lane]
  · exact raisedSince_of_keeps hsampled hm0 (Keeps.raised (Keeps.onLane (Keeps.refl _ b _)))
  · refine raisedSince_of_keeps hsampled.raised.onLane ?_ (Keeps.refl (fun _ => True) b _)
    rwa [onLane_sys, raiseBay_eq, raiseAt_sys]

/-! ### Frame records and the end of a cluster (R97, R116) -/

/-- A record behind frame 0 is released and, where the cluster's entry is open, counted into it. -/
theorem frameRecordRelease_completes (hruns : s.dspRuns = true) (hst : s.bays[b].seq.st ≠ .writing)
    (hlater : 0 < (s.sampled b l xs).bays[b].rc.lanes[l].released)
    (hready : (s.sampled b l xs).recordReady b (s.sampled b l xs).bays[b].rc.lanes[l] = true) :
    Completes (.frameRecordRelease b l xs) s (fun t =>
      t.bays[b].rc.lanes[l].released = (s.sampled b l xs).bays[b].rc.lanes[l].released + 1) := by
  have hgo : ¬(!(s.sampled b l xs).recordReady b (s.sampled b l xs).bays[b].rc.lanes[l]
      || decide ((s.sampled b l xs).bays[b].seq.st = .writing) && decide (l ≠ 1)) = true := by
    rw [hready, sampled_seq, decide_eq_false hst, Bool.false_and]
    decide
  have hframe : ¬((s.sampled b l xs).bays[b].frameRecord l (s.sampled b l xs).bays[b].rc.lanes[l].released).frame = 0 :=
    Nat.ne_of_gt hlater
  have hkept : ∀ {t : State}, t.bays[b].rc = ((s.sampled b l xs).onLane b l
      (fun y => { y with released := y.released + 1 })).bays[b].rc →
      t.bays[b].rc.lanes[l].released = (s.sampled b l xs).bays[b].rc.lanes[l].released + 1 := fun h => by
    rw [h, onLane_lane]
  change ∃ t, execFrameRecordRelease b l xs s = .next t ∧ _
  unfold execFrameRecordRelease
  dsimp only
  rw [hruns, if_neg (by decide), if_neg hgo, if_neg hframe]
  split
  · split
    · exact ⟨_, rfl, hkept (rc_of_hide (hide_recordFrame (by simp) (by simp) (by simp) (by simp) (by simp)))⟩
    · exact ⟨_, rfl, hkept rfl⟩
  · exact ⟨_, rfl, hkept rfl⟩

/-- A cluster that ends in frame lock leaves its lane idle, whatever is written back of it. -/
theorem clusterEnd_completes (hruns : s.dspRuns = true) (hphase : (s.sampled b l xs).bays[b].rc.lanes[l].phase = .locked)
    (hended : (s.sampled b l xs).bays[b].rc.lanes[l].ended = true) :
    Completes (.clusterEnd b l xs) s (fun t => t.bays[b].rc.lanes[l].phase = .idle
      ∧ t.bays[b].rc.lanes[l].endedLocked = true) := by
  change ∃ t, execClusterEnd b l xs s = .next t ∧ _
  unfold execClusterEnd
  extract_lets s0 t x run ended s1
  have hx : x.phase = .locked := hphase
  have hdone : ¬(!x.ended) = true := by
    rw [show x.ended = true from hended]
    decide
  have hlane : ∀ {v : State} (u : State), v.bays[b].rc = (ended u).bays[b].rc →
      v.bays[b].rc.lanes[l].phase = .idle ∧ v.bays[b].rc.lanes[l].endedLocked = true := fun u hv => by
    rw [hv, onLane_lane]
    exact ⟨rfl, decide_eq_true hx⟩
  rw [hruns, if_neg (by decide), if_neg hdone]
  split
  · split
    · exact ⟨_, rfl, hlane _ rfl⟩
    · refine ⟨_, rfl, hlane (s1.writeBack b l run) (rc_of_hide ?_)⟩
      rw [hide_undo (by simp) (by simp) (by simp) (by simp) (by simp) (by simp),
        hide_raiseBay (by simp) (by simp) (by simp)]
  · exact ⟨_, rfl, hlane _ rfl⟩

/-! ### Defects (R109, R110) -/

/-- The first dropout that has ended is noted and taken from those that wait. -/
theorem defectDropout_completes {start n : Nat} {rest : List (Nat × Nat)} (hruns : s.dspRuns = true) (hm : s.sys.mode ≠ .off)
    (hdrop : (s.sampled b l xs).bays[b].rc.lanes[l].data.dropouts = (start, n) :: rest) :
    Completes (.defectDropout b l xs) s (fun t => t.bays[b].rc.lanes[l].data.dropouts = rest
      ∧ raisedSince s t (.bay b .defect) = true) := by
  change ∃ t, execDefectDropout b l xs s = .next t ∧ _
  unfold execDefectDropout
  dsimp only
  rw [hruns, if_neg (by decide), hdrop]
  refine ⟨_, rfl, ?_, ?_⟩
  · rw [raiseBay_rc, onLane_lane]
  · refine raisedSince_of_keeps (Keeps.onLane (Keeps.sampled (Keeps.refl _ b s))) ?_ (Keeps.refl (fun _ => True) b _)
    rwa [onLane_sys, sampled_sys]

/-- A sum defect beyond the window is feedback loss, noted whatever the cut of the gate and the Lull lead to. -/
theorem sumDefectLong_completes (hruns : s.rootRuns = true) (hm : s.sys.mode ≠ .off) (hdefect : s.bays[b].rc.sumDefect = true)
    (hlong : s.bays[b].rc.sumLong = false) (hwin : 2 * s.bn b Param.rdchDefectWin < 5 * s.bays[b].rc.sumPeriods) :
    Completes (.sumDefectLong b) s (fun t => t.bays[b].rc.sumLong = true
      ∧ raisedSince s t (.bay b .sumDefectLong) = true) := by
  have hgo : (s.bays[b].rc.sumDefect && !s.bays[b].rc.sumLong
      && decide (2 * s.bn b Param.rdchDefectWin < 5 * s.bays[b].rc.sumPeriods)) = true := by
    rw [hdefect, hlong, decide_eq_true hwin]
    decide
  have hmarked : KeepsEvents b s (s.onRc b (fun x => { x with sumLong := true })) :=
    (Keeps.refl _ b s).frame (hide_onRc (by simp))
  change ∃ t, execSumDefectLong b s = .next t ∧ _
  unfold execSumDefectLong
  dsimp only
  rw [hruns, if_neg (by decide), if_pos hgo]
  refine ⟨_, rfl, ?_, ?_⟩
  · rw [rc_of_hide (s := (s.onRc b (fun x => { x with sumLong := true })).raiseBay b .sumDefectLong [.u8 0])
      (by simp [hide_feedbackLoss, hide_cutGate]), raiseBay_rc]
    exact congrArg (fun t : Bay => t.rc.sumLong) (onRc_same s b _)
  · exact raisedSince_of_keeps hmarked hm
      (((Keeps.refl (fun _ => True) b _).cutGate fun _ _ _ => trivial).feedbackLoss.feedbackLoss)

/-- Settles O22: each command of a lane does what its rule says, once the lane has taken its samples. -/
theorem readChannelCompletes : Obligations.ReadChannelCompletes := by
  unfold Obligations.ReadChannelCompletes
  exact ⟨fun _ _ _ _ _ _ _ _ hruns hreads hopen => clusterAcquisition_completes hruns hreads hopen,
    fun _ _ _ _ hruns hphase hmatch => preambleDetect_completes hruns hphase hmatch,
    fun _ _ _ _ _ _ hruns hphase hcold hframe hpast hclear hfound =>
      frameSyncSearch_completes rfl (frameSyncSearch_accepts rfl hruns hphase hcold hframe hpast hclear hfound),
    fun _ _ _ _ hruns hm hphase hbound => timingRange_completes hruns hm hphase hbound,
    fun _ _ _ _ hruns hst hlater hready => frameRecordRelease_completes hruns hst hlater hready,
    fun _ _ _ _ hruns hphase hended => clusterEnd_completes hruns hphase hended,
    fun _ _ _ _ _ _ _ hruns hm hdrop => defectDropout_completes hruns hm hdrop,
    fun _ _ hruns hm hdefect hlong hwin => sumDefectLong_completes hruns hm hdefect hlong hwin⟩

end Sys2Proof.Proofs
end

section
/-! PROOFS. What the shared operations leave of a bay's write path, and the laser driver link and the write gate (R149 to R152, R169): the proof of the statement about them. -/

namespace Sys2Proof.Proofs

open Sys2Proof Sys2Proof.Machine Sys2Proof.Safety Sys2Proof.Laws

/-! ### The write path of a bay -/

theorem wp_of_hide {s t : State} {b : BayNo} (h : hide (allBut (.wp b)) t = hide (allBut (.wp b)) s) :
    t.bays[b].wp = s.bays[b].wp := ((unchanged_of_hide h).wp b).resolve_left (by simp)

section
variable (s : State) (b : BayNo)

theorem onBay_wp (f : Bay → Bay) : (s.onBay b f).bays[b].wp = (f s.bays[b]).wp := congrArg Bay.wp (onBay_same s b f)

theorem onWp_wp (f : WritePath → WritePath) : (s.onWp b f).bays[b].wp = f s.bays[b].wp := onBay_wp s b _

theorem raiseBay_wp (c : BayNo) (e : BayEvent) (fs : List PField) : (s.raiseBay c e fs).bays[b].wp = s.bays[b].wp :=
  raiseAt_bay_wp s _ _ fs b

theorem raiseBay_seq (c : BayNo) (e : BayEvent) (fs : List PField) : (s.raiseBay c e fs).bays[b].seq = s.bays[b].seq :=
  raiseAt_bay_seq s _ _ fs b

/-- The buffers of a run that are freed are listed with the run alone. -/
theorem freeRun_wp : ∃ r, (s.freeRun b).bays[b].wp = { s.bays[b].wp with run := r } := by
  unfold State.freeRun
  split
  · exact ⟨_, by rw [wp_of_hide (hide_giveAll (by simp) (by simp) (by simp)), onWp_wp]⟩
  · exact ⟨_, rfl⟩

theorem busToSpace_wp (p : Int) : (s.busToSpace b p).bays[b].wp = { s.bays[b].wp with bus := 0 } := onWp_wp _ b _

/-- A change of state leaves the write path, or drops its gate. -/
theorem setBaySt_wp (new : BaySt) (row : Nat) : (s.setBaySt b new row).bays[b].wp = s.bays[b].wp
    ∨ (s.setBaySt b new row).bays[b].wp = { s.bays[b].wp with gate := false } := by
  unfold State.setBaySt
  extract_lets old s0 s1 s2
  have h0 : s0.bays[b].wp = s.bays[b].wp := by
    dsimp only [s0]
    split
    · rfl
    · exact wp_of_hide (hide_abortCal (by simp) (by simp) (by simp) (by simp) (by simp))
  have h1 : s1.bays[b].wp = if new = .writing then s.bays[b].wp else { s.bays[b].wp with gate := false } := by
    dsimp only [s1]
    rw [raiseBay_wp, onBay_wp]
    dsimp only
    rw [h0]
  have h2 : s2.bays[b].wp = s1.bays[b].wp := by
    dsimp only [s2]
    split
    · rfl
    · rfl
  have hend : (if s2.mirrors then s2.send 0x13 [0x400 + b.val, new.code] else s2).bays[b].wp = s1.bays[b].wp := by
    split
    · rw [wp_of_hide (hide_send (by simp) (by simp)), h2]
    · exact h2
  split
  · exact .inl rfl
  · rw [hend, h1]
    split
    · exact .inl rfl
    · exact .inr rfl

/-! ### The cut of the gate (R169, R170) -/

theorem afterCut_gate (w : WritePath) (pos : Int) : (w.afterCut pos).gate = false := by
  unfold WritePath.afterCut
  split
  · rfl
  · rfl

/-- Recording that ends asks for a fresh read of STATUS (R151): it never takes the last one for clear. -/
theorem afterCut_statusClear {w : WritePath} (h : w.statusClear = false) (pos : Int) : (w.afterCut pos).statusClear = false := by
  unfold WritePath.afterCut
  split
  · exact h
  · rfl

/-- The last cut of the gate was within 2 µs of now (R33). -/
def cutNear (s : State) (b : BayNo) : Bool :=
  match s.bays[b].wp.cutTime with
  | some x => decide (s.sys.time.toNat ≤ x.toNat + 2)
  | none => false

variable {s b}

/-- The first cause of a cut in WRITING ends recording where B0 stands, and is the mask of the cut. -/
theorem cutGate_wp (hst : s.bays[b].seq.st = .writing) (hfirst : cutNear s b = false) (cause : CutCause) :
    ∃ (w : WritePath) (pos : Int), w.statusClear = s.bays[b].wp.statusClear ∧ (s.cutGate b cause).bays[b].wp
      = { w.afterCut pos with lastCut := BitVec.ofNat 7 (2 ^ cause.bit), cutTime := some s.sys.time } := by
  obtain ⟨r, hr⟩ := freeRun_wp s b
  unfold State.cutGate
  extract_lets t now again bit pos addr s1
  have h1 : s1.bays[b].wp = { { s.bays[b].wp with run := r, bus := 0 }.afterCut pos with lastCut := bit, cutTime := some now } := by
    dsimp only [s1]
    rw [wp_of_hide (hide_onSeq (by simp)), onWp_wp, busToSpace_wp, hr]
  have hagain : again = false := hfirst
  rw [if_neg (not_not_intro hst), hagain, if_neg Bool.false_ne_true,
    wp_of_hide (t := State.dropVerify _ b) (s := s1) (by simp [hide_dropVerify, hide_noteUnverified, hide_raiseAt]), h1]
  exact ⟨{ s.bays[b].wp with run := r, bus := 0 }, pos, rfl, rfl⟩

/-- A cut never takes the last STATUS for clear. -/
theorem cutGate_statusClear (h : s.bays[b].wp.statusClear = false) (cause : CutCause) :
    (s.cutGate b cause).bays[b].wp.statusClear = false := by
  by_cases hst : s.bays[b].seq.st = .writing
  · cases hfirst : cutNear s b with
    | false =>
      obtain ⟨w, pos, hw, hcut⟩ := cutGate_wp hst hfirst cause
      rw [hcut]
      exact afterCut_statusClear (hw.trans h) pos
    | true =>
      unfold State.cutGate
      extract_lets t now again
      have hagain : again = true := hfirst
      rw [if_neg (not_not_intro hst), if_pos hagain, onWp_wp]
      exact h
  · unfold State.cutGate
    dsimp only
    rw [if_pos hst]
    exact h

/-- Nor does a fault of the bay, which cuts the gate and ends the run (R249). -/
theorem faultBay_statusClear (h : s.bays[b].wp.statusClear = false) (cause : FaultCause) :
    (s.faultBay b cause).bays[b].wp.statusClear = false := by
  obtain ⟨r, hr⟩ := freeRun_wp (s.cutGate b .bayFault) b
  unfold State.faultBay
  extract_lets s1 s2
  have h1 : s1.bays[b].wp.statusClear = false := by
    dsimp only [s1]
    rw [wp_of_hide (t := State.parkFocus _ b) (s := (s.cutGate b .bayFault).freeRun b)
      (by simp [hide_parkFocus, hide_abortCal, hide_dropScan]), hr]
    exact cutGate_statusClear h .bayFault
  clear_value s1
  have h2 : s2.bays[b].wp.statusClear = false := by
    dsimp only [s2]
    rw [onBay_wp]
    exact h1
  split
  · exact h
  · rw [raiseBay_wp]
    obtain hwp | hwp := setBaySt_wp s2 b .faulted 20
    · rw [hwp, h2]
    · rw [hwp]
      exact h2

end

/-! ### The laser driver link (R149 to R152) -/

section
variable {s : State} {b : BayNo}

/-- A frame goes out first of all that the device has put out. -/
theorem sendLdl_out (s : State) (b : BayNo) (req : LdlReq) : (s.sendLdl b req).out = .ldl b (ldlFrame req) :: s.out := by
  unfold State.sendLdl
  dsimp only
  split
  · rfl
  · rfl

/-- A write frame sets the power register it names (R150). -/
theorem sendLdl_ldl {req : LdlReq} (hw : req.write = true) : (s.sendLdl b req).bays[b].wp.ldl
    = if 0x10 ≤ req.reg.toNat ∧ req.reg.toNat ≤ 0x14 then insertKey s.bays[b].wp.ldl req.reg.toNat req.data
      else s.bays[b].wp.ldl := by
  unfold State.sendLdl
  dsimp only
  simp only [hw, true_and]
  split
  · rw [onWp_wp]
    rfl
  · rfl

/-- A read of STATUS notes whether it is clear (R151), though a fault takes the bay to FAULTED. -/
theorem readStatus_statusClear (s : State) (b : BayNo) (v : BitVec 16) :
    (s.readStatus b v).bays[b].wp.statusClear = !statusFaulty v := by
  have hnoted : (s.onWp b (fun w => { w with statusClear := !statusFaulty v })).bays[b].wp.statusClear = !statusFaulty v :=
    congrArg WritePath.statusClear (onWp_wp s b _)
  unfold State.readStatus
  dsimp only
  split
  next hfault =>
    have hunclear : (!statusFaulty v) = false := by rw [hfault]; rfl
    exact (faultBay_statusClear (by rw [raiseBay_wp, hnoted, hunclear]) .laser).trans hunclear.symm
  · exact hnoted

/-- A write frame is sent, where it loads no write power under a high gate (R151). -/
theorem ldlFrame_write_completes {req : LdlReq} (answer again : BitVec 32) (hw : req.write = true)
    (hgate : s.bays[b].wp.gate = false ∨ ¬(0x11 ≤ req.reg.toNat ∧ req.reg.toNat ≤ 0x14)) :
    Completes (.ldlFrame b req answer again) s (fun t => t.out = .ldl b (ldlFrame req) :: s.out
      ∧ t.bays[b].wp.ldl = if 0x10 ≤ req.reg.toNat ∧ req.reg.toNat ≤ 0x14 then insertKey s.bays[b].wp.ldl req.reg.toNat req.data
          else s.bays[b].wp.ldl) := by
  have hloads : ¬((req.write && decide (0x11 ≤ req.reg.toNat ∧ req.reg.toNat ≤ 0x14)) && s.bays[b].wp.gate) = true := by
    intro hl
    simp only [hw, Bool.true_and, Bool.and_eq_true, decide_eq_true_eq] at hl
    obtain ⟨hreg, hhigh⟩ := hl
    obtain hlow | hother := hgate
    · exact absurd (hlow.symm.trans hhigh) Bool.false_ne_true
    · exact hother hreg
  change ∃ t, execLdlFrame b req answer again s = .next t ∧ _
  unfold execLdlFrame
  dsimp only
  rw [if_neg hloads, if_pos hw]
  exact ⟨_, rfl, sendLdl_out s b req, sendLdl_ldl hw⟩

/-- A good answer to a read of STATUS is judged, as a poll of it is. -/
theorem ldlFrame_status_completes {req : LdlReq} {answer : BitVec 32} (again : BitVec 32) (hr : req.write = false)
    (hreg : req.reg = 0) (hok : answerOk req answer = true) :
    Completes (.ldlFrame b req answer again) s (fun t =>
      t.bays[b].wp.statusClear = !statusFaulty (BitVec.ofNat 16 (answer.toNat / 256))) := by
  change ∃ t, execLdlFrame b req answer again s = .next t ∧ _
  unfold execLdlFrame State.answered
  dsimp only
  rw [hr, if_neg (by simp), if_neg Bool.false_ne_true, if_pos hok, if_pos hreg]
  exact ⟨_, rfl, readStatus_statusClear _ b _⟩

theorem ldlStatusPoll_completes (v : BitVec 16) (hst : s.bays[b].seq.st ≠ .empty) :
    Completes (.ldlStatusPoll b v) s (fun t => t.bays[b].wp.statusClear = !statusFaulty v) := by
  change ∃ t, execLdlStatusPoll b v s = .next t ∧ _
  unfold execLdlStatusPoll
  rw [if_neg hst]
  exact ⟨_, rfl, readStatus_statusClear _ b v⟩

/-- An index mark that is lost, or found beyond the window, cuts the gate with its own cause alone (R169). -/
theorem wobbleIndexLoss_completes {found : Option Int} (hst : s.bays[b].seq.st = .writing)
    (hfar : ∀ d, found = some d → s.bn b Param.wrSyncLossWin < d.natAbs)
    (hfirst : ∀ x, s.bays[b].wp.cutTime = some x → x.toNat + 2 < s.sys.time.toNat) :
    Completes (.wobbleIndexLoss b found) s (fun t => t.bays[b].wp.gate = false
      ∧ bitAt t.bays[b].wp.lastCut CutCause.frameSync.bit = true) := by
  have hnear : cutNear s b = false := by
    unfold cutNear
    split
    next x hx => exact decide_eq_false (Nat.not_le.2 (hfirst x hx))
    · rfl
  have hcut : execWobbleIndexLoss b found s = .next (s.cutGate b .frameSync) := by
    unfold execWobbleIndexLoss
    cases found with
    | none => rfl
    | some d => exact if_neg (by simpa using hfar d rfl)
  obtain ⟨w, pos, -, hwp⟩ := cutGate_wp hst hnear .frameSync
  refine ⟨_, hcut, ?_, ?_⟩
  · rw [hwp]
    exact afterCut_gate w pos
  · rw [hwp]
    exact (by decide : bitAt (BitVec.ofNat 7 (2 ^ CutCause.frameSync.bit)) CutCause.frameSync.bit = true)

end

/-- Settles O24: a frame that is sent, a STATUS that is read and a cut of the gate, as the lemmas above say of each. -/
theorem laserDriverCompletes : Obligations.LaserDriverCompletes := by
  unfold Obligations.LaserDriverCompletes
  exact ⟨fun _ _ _ answer again hw hgate => ldlFrame_write_completes answer again hw hgate,
    fun _ _ _ _ again hr hreg hok => ldlFrame_status_completes again hr hreg hok,
    fun _ _ v hst => ldlStatusPoll_completes v hst,
    fun _ _ _ hst hfar hfirst => wobbleIndexLoss_completes hst hfar hfirst⟩

end Sys2Proof.Proofs
end

section
/-! PROOFS. The commands of a write run (R164 to R167, R170) complete: the proof of the statement about them. -/

namespace Sys2Proof.Proofs

open Sys2Proof Sys2Proof.Machine Sys2Proof.Safety Sys2Proof.Laws

/-! ### The work of a write path -/

/-- The work that a write path holds: its jobs, its replacement queue, its unverified clusters, the set that is due, and the
clusters of its run that await B1. -/
structure WriteWork where
  jobs : List DestageJob
  replQueue : List ReplItem
  unverified : List WriteItem
  mgmtDue : Option MgmtDue
  unjudged : Option (List WriteItem)

/-- The work of bay `b`. -/
def writeWork (s : State) (b : BayNo) : WriteWork :=
  let w := s.bays[b].wp
  { jobs := w.jobs, replQueue := w.replQueue, unverified := w.unverified, mgmtDue := w.mgmtDue, unjudged := w.run.map (·.unjudged) }

section
variable (s : State) (b : BayNo)

theorem writeWork_of_wp {s t : State} {b : BayNo} (h : t.bays[b].wp = s.bays[b].wp) : writeWork t b = writeWork s b := by
  unfold writeWork
  rw [h]

theorem sendLdl_work (req : LdlReq) : writeWork (s.sendLdl b req) b = writeWork s b := by
  unfold State.sendLdl
  dsimp only
  split
  · simp [writeWork]
  · rfl

theorem loadPowersAt_work (block : List Byte) (k : Rat) : writeWork (s.loadPowersAt b block k) b = writeWork s b := by
  unfold State.loadPowersAt
  induction (powersOf block k).zipIdx generalizing s with
  | nil => rfl
  | cons p ps ih => rw [List.foldl_cons, ih, sendLdl_work]

theorem loadPowers_work (layer : LayerNo) (zone : Nat) : writeWork (s.loadPowers b layer zone) b = writeWork s b :=
  loadPowersAt_work s b _ _

theorem record_work (a : ClusterAddr) (bits : List Bool) : writeWork (s.record b a bits) b = writeWork s b := rfl

/-- The history of verification (R159) is no matter of the work, though it may end the run at its turn. -/
theorem noteVerify_work (layer : LayerNo) (failed : Bool) : writeWork (s.noteVerify b layer failed) b = writeWork s b := by
  unfold State.noteVerify writeWork
  rw [onWp_wp]
  dsimp only
  split
  · unfold WritePath.makeDue
    split
    · simp [Function.comp_def]
    · simp [Function.comp_def]
  · rfl

theorem raiseBay_work (c : BayNo) (e : BayEvent) (fs : List PField) : writeWork (s.raiseBay c e fs) b = writeWork s b :=
  writeWork_of_wp (raiseBay_wp s b c e fs)

theorem verdict_work (layer : LayerNo) (o : VerifyRead) : writeWork (s.verdict b layer o).1 b = writeWork s b := by
  unfold State.verdict
  split
  · rw [noteVerify_work, raiseBay_work]
  · rw [noteVerify_work]
    split
    · exact raiseBay_work s b b _ _
    · rfl

/-- A read passes when it misses no limit of Table 6.4 (R166). -/
theorem verdict_passes (layer : LayerNo) (o : VerifyRead) : (s.verdict b layer o).2 = (s.missedLimit b o).isNone := by
  unfold State.verdict
  split
  next h => rw [h]; rfl
  next h => rw [h]; rfl

theorem bn_congr {s t : State} (h : t.params = s.params) (b : BayNo) : t.bn b = s.bn b := by
  funext id
  unfold State.bn State.bp
  rw [h]

/-- The limits of Table 6.4 are parameters. -/
theorem missedLimit_congr {s t : State} (h : t.params = s.params) (b : BayNo) (o : VerifyRead) :
    t.missedLimit b o = s.missedLimit b o := by
  unfold State.missedLimit State.berLimit
  rw [bn_congr h]

/-! ### Judging a read (R166) -/

variable {s b} {x : WriteItem} {o : VerifyRead}

theorem countWritten_wp : (s.countWritten b).bays[b].wp = s.bays[b].wp := wp_of_hide (hide_countWritten (by simp))

theorem countWritten_work : writeWork (s.countWritten b) b = writeWork s b := writeWork_of_wp countWritten_wp

/-- A read within every limit joins its cluster to the written ones of the head job. -/
theorem judge_work_of_pass {j : DestageJob} {js : List DestageJob} (hj : s.bays[b].wp.jobs = j :: js)
    (h : s.missedLimit b o = none) :
    writeWork (s.judge b x o) b = { writeWork s b with jobs := { j with written := j.written ++ [x] } :: js } := by
  have hwork := verdict_work s b (addrLayer x.home) o
  have hpass := verdict_passes s b (addrLayer x.home) o
  unfold State.judge
  generalize s.verdict b (addrLayer x.home) o = p at hwork hpass
  obtain ⟨u, ok⟩ := p
  obtain rfl : ok = true := by rw [h] at hpass; exact hpass
  have hju : u.bays[b].wp.jobs = j :: js := (congrArg WriteWork.jobs hwork).trans hj
  dsimp only at hwork ⊢
  rw [countWritten_work, ← hwork]
  unfold writeWork State.onJob
  rw [onWp_wp, hju]

/-- A read that misses a limit is an event, and its cluster is queued for replacement. -/
theorem judge_eq_of_miss {k : Nat} (h : s.missedLimit b o = some k) :
    s.judge b x o = (((s.raiseBay b .verifyFail [.u8 k]).noteVerify b (addrLayer x.home) true).onWp b (fun w =>
      { w with replQueue := w.replQueue ++ [{ home := x.home, cause := 1, vid := x.vid, ucl := x.ucl, fill := [] }] })).countWritten b := by
  unfold State.judge State.verdict
  rw [h]

theorem judge_work_of_miss {k : Nat} (h : s.missedLimit b o = some k) :
    writeWork (s.judge b x o) b = { writeWork s b with replQueue := (writeWork s b).replQueue
      ++ [{ home := x.home, cause := 1, vid := x.vid, ucl := x.ucl, fill := [] }] } := by
  have hwork : writeWork ((s.raiseBay b .verifyFail [.u8 k]).noteVerify b (addrLayer x.home) true) b = writeWork s b := by
    rw [noteVerify_work, raiseBay_work]
  rw [judge_eq_of_miss h, countWritten_work, ← hwork]
  unfold writeWork
  rw [onWp_wp]

/-- No judgement is of unverified clusters. -/
theorem judge_unverified (s : State) (b : BayNo) (x : WriteItem) (o : VerifyRead) :
    (s.judge b x o).bays[b].wp.unverified = s.bays[b].wp.unverified := by
  have hwork := congrArg WriteWork.unverified (verdict_work s b (addrLayer x.home) o)
  unfold State.judge
  generalize s.verdict b (addrLayer x.home) o = p at hwork
  obtain ⟨u, _ | _⟩ := p
  · dsimp only
    rw [countWritten_wp, onWp_wp]
    exact hwork
  · dsimp only
    rw [countWritten_wp, State.onJob, onWp_wp]
    exact hwork

end

/-! ### Events since a state -/

section
variable {b : BayNo} {s t : State} (h : KeepsEvents b s t)
include h

theorem Keeps.closeEntry {c : BayNo} {i : Nat} : KeepsEvents b s (t.closeEntry c i) :=
  .giveAll (.frame h.onBay (hide_onPool (by simp))) fun _ _ _ => trivial

theorem Keeps.freeStaged {c : BayNo} {home : ClusterAddr} : KeepsEvents b s (t.freeStaged c home) := by
  unfold State.freeStaged
  split
  · exact h.onWp.giveAll fun _ _ _ => trivial
  · exact h

end

/-! ### Verification of a cluster (R163, R166) -/

/-- The state in which the verify read of a run's cluster, entry `i`, is judged: the cluster awaits B1 no more, and its entry and
the buffer of its copy are free. -/
def judgedIn (s : State) (b : BayNo) (x : WriteItem) (i : Nat) : State :=
  ((s.onWp b (fun w =>
    { w with run := w.run.map (fun (q : WriteRun) => { q with unjudged := q.unjudged.filter (fun y => !decide (y = x)) }) })).closeEntry
      b i).freeStaged b x.home

section
variable {s : State} {b : BayNo} {r : WriteRun} {x : WriteItem} {i : Nat} {o : VerifyRead}

theorem freeStaged_work (s : State) (b : BayNo) (home : ClusterAddr) : writeWork (s.freeStaged b home) b = writeWork s b := by
  unfold State.freeStaged
  split
  next r hr =>
    rw [writeWork_of_wp (wp_of_hide (hide_giveAll (by simp) (by simp) (by simp)))]
    simp [writeWork, Function.comp_def]
  · rfl

theorem judgedIn_work (hr : s.bays[b].wp.run = some r) : writeWork (judgedIn s b x i) b
    = { writeWork s b with unjudged := some (r.unjudged.filter (fun y => !decide (y = x))) } := by
  unfold judgedIn
  rw [freeStaged_work, writeWork_of_wp (wp_of_hide (hide_closeEntry (by simp) (by simp) (by simp) (by simp) (by simp) (by simp)))]
  unfold writeWork
  rw [onWp_wp, hr]
  rfl

theorem mode_of_hide {s t : State} (h : hide (allBut .mode) t = hide (allBut .mode) s) : t.sys.mode = s.sys.mode :=
  (unchanged_of_hide h).mode.resolve_left (by simp)

theorem judgedIn_missedLimit : (judgedIn s b x i).missedLimit b o = s.missedLimit b o :=
  missedLimit_congr (params_of_hide (by simp [judgedIn, hide_freeStaged, hide_closeEntry, hide_onWp])) b o

theorem judgedIn_mode (s : State) (b : BayNo) (x : WriteItem) (i : Nat) : (judgedIn s b x i).sys.mode = s.sys.mode :=
  mode_of_hide (by simp [judgedIn, hide_freeStaged, hide_closeEntry, hide_onWp])

theorem judgedIn_keepsEvents (s : State) (b : BayNo) (x : WriteItem) (i : Nat) : KeepsEvents b s (judgedIn s b x i) :=
  (Keeps.onWp (Keeps.refl _ b s)).closeEntry.freeStaged

variable (hst : s.bays[b].seq.st = .writing) (hr : s.bays[b].wp.run = some r)
  (hv : s.bays[b].verified r.unjudged = some (x, i, o))
include hst hr hv

/-- A verify read that is complete is judged. -/
theorem execVerifyCluster_eq : execVerifyCluster b s = .next ((judgedIn s b x i).judge b x o) := by
  unfold execVerifyCluster
  rw [hr]
  dsimp only
  rw [hv]
  exact if_pos hst

/-- A cluster read within every limit joins the job's written ones, and awaits B1 no more. -/
theorem verifyCluster_pass_completes {j : DestageJob} {js : List DestageJob} (hj : s.bays[b].wp.jobs = j :: js)
    (ho : s.missedLimit b o = none) :
    Completes (.verifyCluster b) s (fun t => t.bays[b].wp.jobs = { j with written := j.written ++ [x] } :: js
      ∧ ∃ q, t.bays[b].wp.run = some q ∧ q.unjudged = r.unjudged.filter (fun y => !decide (y = x))) := by
  have hwork := judgedIn_work (x := x) (i := i) hr
  have hjudged := judge_work_of_pass (x := x) ((congrArg WriteWork.jobs hwork).trans hj) (judgedIn_missedLimit.trans ho)
  rw [hwork] at hjudged
  exact ⟨_, execVerifyCluster_eq hst hr hv, congrArg WriteWork.jobs hjudged,
    Option.map_eq_some_iff.1 (congrArg WriteWork.unjudged hjudged)⟩

/-- A cluster whose read misses a limit joins the replacement queue, with its event. -/
theorem verifyCluster_miss_completes {k : Nat} (hm : s.sys.mode ≠ .off) (ho : s.missedLimit b o = some k) :
    Completes (.verifyCluster b) s (fun t => t.bays[b].wp.replQueue
        = s.bays[b].wp.replQueue ++ [{ home := x.home, cause := 1, vid := x.vid, ucl := x.ucl, fill := [] }]
      ∧ raisedSince s t (.bay b .verifyFail) = true) := by
  have hmiss : (judgedIn s b x i).missedLimit b o = some k := judgedIn_missedLimit.trans ho
  have hjudged := judge_work_of_miss (x := x) hmiss
  rw [judgedIn_work hr] at hjudged
  refine ⟨_, execVerifyCluster_eq hst hr hv, congrArg WriteWork.replQueue hjudged, ?_⟩
  rw [judge_eq_of_miss hmiss]
  have hafter : KeepsEvents b ((judgedIn s b x i).raiseBay b .verifyFail [.u8 k])
      (((judgedIn s b x i).raiseBay b .verifyFail [.u8 k]).noteVerify b (addrLayer x.home) true) :=
    (Keeps.refl _ b _).frame (hide_noteVerify (by simp))
  exact raisedSince_of_keeps (judgedIn_keepsEvents s b x i) (by rwa [judgedIn_mode])
    (hafter.onWp.frame (hide_countWritten (by simp)))

end

/-! ### The start of a run (R160 to R165) -/

section
variable {s : State} {b : BayNo}

theorem onSeq_seq (s : State) (b : BayNo) (f : Seq → Seq) : (s.onSeq b f).bays[b].seq = f s.bays[b].seq :=
  congrArg Bay.seq (onSeq_same s b f)

/-- A turn that B0 takes up afresh begins a run of that turn's clusters, none of which awaits B1. -/
theorem beginTurn_run (s : State) (b : BayNo) (layer : LayerNo) (turn : Nat) (items rest : List WriteItem)
    (bufs : List (ClusterAddr × BitVec 32)) :
    ∃ r, (s.beginTurn b layer turn items rest true bufs).bays[b].wp.run = some r ∧ r.layer = layer ∧ r.turn = turn
      ∧ r.turnItems = items ∧ r.unjudged = [] ∧ r.finalRev = false ∧ r.bufs = bufs := by
  unfold State.beginTurn
  extract_lets guaranteed was same s1
  have hwas : was = none := by
    dsimp only [was]
    split
    · rfl
    · rfl
  rw [onWp_wp, hwas]
  exact ⟨_, rfl, rfl, rfl, rfl, rfl, rfl, rfl⟩

/-- The reads of an unclean disc (R61) and the rewrites that are queued leave the bay's state. -/
theorem preRead_st (s : State) (b : BayNo) (prior : List (ClusterAddr × Option ClusterRead)) :
    ((s.onWp b (fun w => w.queueRewrites)).preRead b prior).bays[b].seq.st = s.bays[b].seq.st := by
  unfold State.preRead
  simp

theorem takeTurn_seq {s v : State} {b : BayNo} {layer : LayerNo} {turn : Nat} {todo : List WriteItem}
    {p : List (ClusterAddr × BitVec 32) × List WriteItem × List WriteItem} (h : s.takeTurn b layer turn todo = (v, p)) :
    v.bays[b].seq = s.bays[b].seq := by
  have hv : (s.takeTurn b layer turn todo).1 = v := by rw [h]
  rw [← hv]
  exact seq_of_hide (hide_takeTurn (by simp) (by simp) (by simp))

/-- The powers are loaded before the run is set up, and the change to WRITING leaves the run as it is. -/
theorem writeRunStart_completes {prior : List (ClusterAddr × Option ClusterRead)} {j : DestageJob} {js : List DestageJob}
    {x : WriteItem} {xs : List WriteItem} {u v : State} {bufs : List (ClusterAddr × BitVec 32)} {items rest : List WriteItem}
    (hu : (s.onWp b (fun w => w.queueRewrites)).preRead b prior = u)
    (hst : s.bays[b].seq.st = .ready) (hmay : s.mayWrite b = true) (hrun : s.bays[b].wp.run = none)
    (hpos : s.bays[b].seq.position = false) (hmove : s.bays[b].srv.move = none) (hj : u.bays[b].wp.jobs = j :: js)
    (htodo : j.todo = x :: xs) (hclock : s.bays[b].clockReady (addrLayer x.home) (addrTurn x.home) = true)
    (hlayer : u.layerReady b (addrLayer x.home) (zoneOfTurn (addrTurn x.home)) = true)
    (htake : u.takeTurn b (addrLayer x.home) (addrTurn x.home) j.todo = (v, bufs, items, rest)) (hitems : items ≠ []) :
    Completes (.writeRunStart b prior) s (fun t => t.bays[b].seq.st = .writing
      ∧ ∃ r, t.bays[b].wp.run = some r ∧ r.layer = addrLayer x.home ∧ r.turn = addrTurn x.home ∧ r.turnItems = items
        ∧ r.unjudged = [] ∧ r.finalRev = false ∧ r.bufs = bufs) := by
  have hgo : ¬(s.bays[b].seq.st ≠ .ready ∨ s.mayWrite b = false ∨ s.bays[b].wp.run.isSome = true ∨ s.bays[b].seq.position = true
      ∨ s.bays[b].srv.move.isSome = true) := by
    rw [hst, hmay, hrun, hpos, hmove]
    simp
  obtain ⟨r, hr, hspec⟩ := beginTurn_run v b (addrLayer x.home) (addrTurn x.home) items rest bufs
  generalize hw : ((v.beginTurn b (addrLayer x.home) (addrTurn x.home) items rest true bufs).onSeq b (fun q =>
    { q with destageFirst := false })) = w
  have hwst : w.bays[b].seq.st = .ready := by
    rw [← hw, onSeq_seq]
    dsimp only
    rw [seq_of_hide (hide_beginTurn (by simp) (by simp)), takeTurn_seq htake, ← hu, preRead_st, hst]
  have hwrun : w.bays[b].wp.run = some r := by
    rw [← hw, wp_of_hide (hide_onSeq (by simp)), hr]
  have hexec : execWriteRunStart b prior s = .next (w.setBaySt b .writing 11) := by
    unfold execWriteRunStart
    dsimp only
    rw [if_neg hgo, hu, hj]
    dsimp only
    rw [htodo] at htake ⊢
    dsimp only
    rw [hclock, hlayer, htake, Bool.and_self, if_pos rfl]
    dsimp only
    rw [if_neg (by simpa using hitems), hw]
  refine ⟨_, hexec, setBaySt_st (by rw [hwst]; decide) (by rw [hwst]; rfl), r, ?_, hspec⟩
  obtain hwp | hwp := setBaySt_wp w b .writing 11
  · rw [hwp, hwrun]
  · rw [hwp, hwrun]

/-! ### The end of a run, and the clusters it left (R167, R170) -/

theorem dropEntries_st (s : State) (b : BayNo) (which : Entry → Bool) :
    (s.dropEntries b which).bays[b].seq.st = s.bays[b].seq.st := by
  unfold State.dropEntries
  rw [seq_of_hide (hide_giveAll (by simp) (by simp) (by simp))]
  simp

theorem setDue_unverified (w : WritePath) : w.setDue.unverified = w.unverified := rfl

/-- The run ends before its bay is READY again, so that the change of state finds the gate low. -/
theorem finalVerifyEnd_completes {r : WriteRun} (hst : s.bays[b].seq.st = .writing) (hr : s.bays[b].wp.run = some r)
    (hfin : r.finalRev = true) :
    Completes (.finalVerifyEnd b) s (fun t => t.bays[b].seq.st = .ready ∧ t.bays[b].wp.gate = false ∧ t.bays[b].wp.run = none
      ∧ t.bays[b].wp.unverified = s.bays[b].wp.unverified ++ r.unjudged) := by
  obtain ⟨q, hq⟩ := freeRun_wp s b
  have hexec : execFinalVerifyEnd b s = .next ((((s.freeRun b).onWp b (fun w =>
      { w.setDue with run := none, gate := false, statusClear := false, unverified := w.unverified ++ r.unjudged })).dropVerify b).setBaySt
        b .ready 12) := by
    unfold execFinalVerifyEnd
    rw [hr]
    exact if_pos ⟨hfin, hst⟩
  generalize hu : ((s.freeRun b).onWp b (fun w =>
    { w.setDue with run := none, gate := false, statusClear := false, unverified := w.unverified ++ r.unjudged })).dropVerify b = u at hexec
  have hust : u.bays[b].seq.st = .writing := by
    rw [← hu, State.dropVerify, dropEntries_st, seq_of_hide (hide_onWp (by simp)),
      seq_of_hide (hide_freeRun (by simp) (by simp) (by simp) (by simp)), hst]
  have huwp : u.bays[b].wp.gate = false ∧ u.bays[b].wp.run = none
      ∧ u.bays[b].wp.unverified = s.bays[b].wp.unverified ++ r.unjudged := by
    rw [← hu, wp_of_hide (hide_dropVerify (by simp) (by simp) (by simp) (by simp) (by simp) (by simp)), onWp_wp, hq]
    exact ⟨rfl, rfl, rfl⟩
  obtain ⟨hgate, hrun, hun⟩ := huwp
  refine ⟨_, hexec, setBaySt_st (by rw [hust]; decide) (by rw [hust]; rfl), ?_⟩
  obtain hwp | hwp := setBaySt_wp u b .ready 12
  · rw [hwp]
    exact ⟨hgate, hrun, hun⟩
  · rw [hwp]
    exact ⟨rfl, hrun, hun⟩

/-- Steps that each leave the unverified clusters leave them in turn. -/
theorem foldl_unverified {f : State → WriteItem × Option ClusterRead → State}
    (hf : ∀ u p, (f u p).bays[b].wp.unverified = u.bays[b].wp.unverified) (ps : List (WriteItem × Option ClusterRead)) (s : State) :
    (ps.foldl f s).bays[b].wp.unverified = s.bays[b].wp.unverified := by
  induction ps generalizing s with
  | nil => rfl
  | cons p ps ih => rw [List.foldl_cons, ih, hf]

/-- The clusters that stay are set aside before any read is judged. -/
theorem unverifiedVerifyPass_completes (reads : List (Option ClusterRead)) (hst : s.bays[b].seq.st = .ready)
    (hlane : s.bays[b].laneHasReceiver 1 = true) (hmounted : s.bays[b].mounted = true) :
    Completes (.unverifiedVerifyPass b reads) s (fun t => t.bays[b].wp.unverified
      = ((s.bays[b].wp.unverified.zip reads).filter (fun p => p.2.isNone)).map (·.1) ++ s.bays[b].wp.unverified.drop reads.length) := by
  change ∃ t, execUnverifiedVerifyPass b reads s = .next t ∧ _
  unfold execUnverifiedVerifyPass
  extract_lets t xs made s1 s2
  rw [if_pos ⟨hst, hlane, hmounted⟩]
  have h1 : s1.bays[b].wp.unverified = ((xs.zip reads).filter (fun p => !made p)).map (·.1) ++ xs.drop reads.length :=
    congrArg WritePath.unverified (onWp_wp s b _)
  have h2 : s2.bays[b].wp.unverified = s1.bays[b].wp.unverified := by
    refine foldl_unverified (fun u p => ?_) _ s1
    split
    · exact judge_unverified u b _ _
    · rfl
  refine ⟨_, rfl, ?_⟩
  rw [onWp_wp, setDue_unverified, h2, h1]
  simp only [made, Option.not_isSome]
  rfl

end

/-- Settles O25: a run that starts and one that ends, a read that is judged within a run, and the reads of a pass after it. -/
theorem writeRunCompletes : Obligations.WriteRunCompletes := by
  unfold Obligations.WriteRunCompletes
  exact ⟨fun _ _ _ _ _ _ _ _ _ _ _ hst hmay hrun hpos hmove hj htodo hclock hlayer htake hitems =>
      writeRunStart_completes rfl hst hmay hrun hpos hmove hj htodo hclock hlayer htake hitems,
    fun _ _ _ _ _ _ _ _ hst hr hv hj ho => verifyCluster_pass_completes hst hr hv hj ho,
    fun _ _ _ _ _ _ _ hm hst hr hv ho => verifyCluster_miss_completes hst hr hv hm ho,
    fun _ _ _ hst hr hfin => finalVerifyEnd_completes hst hr hfin,
    fun _ _ reads hst hlane hmounted => unverifiedVerifyPass_completes reads hst hlane hmounted⟩

end Sys2Proof.Proofs
end

section
/-! PROOFS. The work beside a write run (R59, R61, R103, R158, R168) completes: the proof of the statement about it. -/

namespace Sys2Proof.Proofs

open Sys2Proof Sys2Proof.Machine Sys2Proof.Safety Sys2Proof.Laws

/-! ### Replacement (R56, R58, R168) -/

section
variable {s : State} {b : BayNo} {x : ReplItem} {m : MgmtSet} {r : ClusterRead}

/-- Changes that agree on the present write path are one change. -/
theorem onWp_congr {f g : WritePath → WritePath} (h : f s.bays[b].wp = g s.bays[b].wp) : s.onWp b f = s.onWp b g := by
  unfold State.onWp State.onBay
  dsimp only
  rw [h]

/-- Only a remap rewrite takes sectors from the disc copies (R354). -/
theorem fillRepl_of_cause (hc : x.cause ≠ 2) (copies : List (ClusterAddr × ClusterRead)) : s.fillRepl b copies x = x := by
  unfold State.fillRepl
  split
  next h2 => exact absurd h2 hc
  · rfl

theorem onMgmt_disc (s : State) (b : BayNo) (f : MgmtSet → MgmtSet) :
    (s.onMgmt b f).bays[b].seq.disc = s.bays[b].seq.disc.map (fun d => { d with mgmt := d.mgmt.map f }) := by
  simp [State.onMgmt, State.onDisc]

/-- The next ordinal is no part of what a cluster is recorded with. -/
theorem itemBits_onOrdinal (s : State) (b : BayNo) (n : Nat) (a : ClusterAddr) (w : WriteItem) :
    (s.onMgmt b (fun q => { q with nextOrdinal := n })).itemBits b a w = s.itemBits b a w := by
  have hid : (s.onMgmt b (fun q => { q with nextOrdinal := n })).bays[b].discId = s.bays[b].discId := by
    unfold Bay.discId
    rw [onMgmt_disc]
    cases s.bays[b].seq.disc with
    | none => rfl
    | some d => cases hd : d.mgmt <;> simp [hd]
  have hremap : (s.onMgmt b (fun q => { q with nextOrdinal := n })).bays[b].remapCount w = s.bays[b].remapCount w := by
    unfold Bay.remapCount
    rw [onMgmt_disc]
    cases s.bays[b].seq.disc with
    | none => rfl
    | some d => cases hd : d.mgmt <;> simp [hd, remapsOf]
  unfold State.itemBits State.itemWords Bay.itemMeta
  rw [hid, hremap]
  rfl

/-- The state in which a write of a queued cluster at the next ordinal is read back: the ordinal is used up, and the cluster recorded. -/
def replWritten (s : State) (b : BayNo) (x : ReplItem) (n : Nat) : State :=
  ((s.onMgmt b (fun q => { q with nextOrdinal := n + 1 })).loadPowers b (addrLayer (ordinalAddr n))
    (zoneOfTurn (addrTurn (ordinalAddr n)))).record b (ordinalAddr n) (s.itemBits b (ordinalAddr n) x.item)

/-- The verdict on the read of that write (R166). -/
def replVerdict (s : State) (b : BayNo) (x : ReplItem) (n : Nat) (r : ClusterRead) : State × Bool :=
  let u := replWritten s b x n
  u.verdict b (addrLayer (ordinalAddr n)) (u.measure b (ordinalAddr n) (u.bays[b].itemMeta x.item) (u.itemWords b x.item) r)

variable (hset : s.bays[b].seq.disc.bind (·.mgmt) = some m)
include hset

/-- A first write that passes its verification replaces the cluster at the next ordinal. -/
theorem tryReplace_passes (hclean : s.bays[b].unclean = false) (hn : m.nextOrdinal < ordinals) {left : Nat} (hleft : 0 < left)
    (before : Option ClusterRead) (hv : (replVerdict s b x m.nextOrdinal r).2 = true) :
    State.tryReplace b x [{ before := before, after := some r }] left s
      = ((replVerdict s b x m.nextOrdinal r).1.replacedAt b x m.nextOrdinal, [], .replaced) := by
  rw [State.tryReplace, hset]
  dsimp only [Option.map_some, Option.getD_some]
  rw [if_neg (by omega), hclean, if_neg Bool.false_ne_true]
  dsimp only
  rw [itemBits_onOrdinal]
  unfold replVerdict replWritten at hv ⊢
  dsimp only at hv ⊢
  generalize State.verdict _ b _ _ = p at hv ⊢
  obtain ⟨u, ok⟩ := p
  obtain rfl : ok = true := hv
  rfl

/-- A pass over one cluster, not a remap rewrite and with the ordinals open to it, replaces it. -/
theorem replaceAll_passes (hc : x.cause ≠ 2) (hallowed : x.cause = 3 → rewriteAllowed m.nextOrdinal = true)
    (hclean : s.bays[b].unclean = false) (hn : m.nextOrdinal < ordinals) (hleft : 0 < s.bn b Param.wrReplTries)
    (before : Option ClusterRead) (hv : (replVerdict s b x m.nextOrdinal r).2 = true) :
    State.replaceAll b [x] [{ before := before, after := some r }] s
      = ((replVerdict s b x m.nextOrdinal r).1.replacedAt b x m.nextOrdinal).onWp b (fun w => { w with replQueue := [] }) := by
  have hopen : ¬((x.cause = 2 ∨ x.cause = 3) ∧ rewriteAllowed m.nextOrdinal = false) := by
    rintro ⟨h2 | h3, hrefused⟩
    · exact hc h2
    · rw [hallowed h3] at hrefused
      cases hrefused
  have hfilled : s.replFilled x = true := by
    unfold State.replFilled
    rw [decide_eq_true hc, Bool.true_or]
  have hone : s.replaceOne b m x [{ before := before, after := some r }]
      = ((replVerdict s b x m.nextOrdinal r).1.replacedAt b x m.nextOrdinal, [], true) := by
    unfold State.replaceOne
    rw [if_neg hopen, hfilled, if_neg (by decide), tryReplace_passes hset hclean hn hleft before hv]
  rw [State.replaceAll, hset]
  dsimp only
  rw [hone]
  dsimp only
  rw [State.replaceAll]

omit hset in
/-- A replaced cluster is entered in the defect list of the disc's set (R56). -/
theorem replacedAt_disc (s : State) (b : BayNo) (x : ReplItem) (n : Nat) :
    (s.replacedAt b x n).bays[b].seq.disc = s.bays[b].seq.disc.map (fun d => { d with mgmt := d.mgmt.map (fun q =>
      { q with defects := q.defects ++ [{ cause := BitVec.ofNat 6 x.cause, home := x.home, repl := ordinalAddr n }],
               ranges := addRange q.ranges x.ucl }) }) := by
  unfold State.replacedAt
  dsimp only
  rw [raiseBay_seq, seq_of_hide (hide_onJob (by simp)), onMgmt_disc]

omit hset in
/-- A write in the replacement area uses up its ordinal on the disc, whatever its verdict. -/
theorem replVerdict_disc (s : State) (b : BayNo) (x : ReplItem) (n : Nat) (r : ClusterRead) :
    (replVerdict s b x n r).1.bays[b].seq.disc
      = s.bays[b].seq.disc.map (fun d => { d with mgmt := d.mgmt.map (fun q => { q with nextOrdinal := n + 1 }) }) := by
  unfold replVerdict replWritten
  dsimp only
  rw [seq_of_hide (hide_verdict (by simp) (by simp) (by simp) (by simp)), seq_of_hide (hide_record (by simp)),
    seq_of_hide (hide_loadPowers (by simp) (by simp)), onMgmt_disc]

end

/-- The fill of the queue leaves its one cluster as it is, and the pass then replaces it. -/
theorem replacementPass_completes {s : State} {b : BayNo} (copies : List (ClusterAddr × ClusterRead)) {x : ReplItem} {d : Disc}
    {m : MgmtSet} (before : Option ClusterRead) {r : ClusterRead} {s0 s1 : State} (h0 : s.onWp b (fun w => w.queueRewrites) = s0)
    (h1 : s0.onWp b (fun w => { w with replQueue := [x] }) = s1) (hst : s.bays[b].seq.st = .ready) (hmay : s.mayWrite b = true)
    (hrun : s.bays[b].wp.run = none) (hqueue : s0.bays[b].wp.replQueue = [x]) (hc : x.cause ≠ 2)
    (hdisc : s.bays[b].seq.disc = some d) (hset : d.mgmt = some m) (hclean : d.unclean = false)
    (hallowed : x.cause = 3 → rewriteAllowed m.nextOrdinal = true) (hn : m.nextOrdinal < ordinals)
    (htries : 0 < s.bn b Param.wrReplTries) (hv : (replVerdict s1 b x m.nextOrdinal r).2 = true) :
    Completes (.replacementPass b copies [{ before := before, after := some r }]) s (fun t => t.bays[b].wp.replQueue = []
      ∧ ∃ e n, t.bays[b].seq.disc = some e ∧ e.mgmt = some n ∧ n.nextOrdinal = m.nextOrdinal + 1
        ∧ n.defects = m.defects ++ [{ cause := BitVec.ofNat 6 x.cause, home := x.home, repl := ordinalAddr m.nextOrdinal }]) := by
  have hgo : ¬(s.bays[b].seq.st ≠ .ready ∨ s.mayWrite b = false ∨ s.bays[b].wp.run.isSome = true) := by
    rw [hst, hmay, hrun]
    simp
  have hfill : s0.onWp b (fun w => { w with replQueue := w.replQueue.map (s0.fillRepl b copies) }) = s1 := by
    rw [← h1]
    exact onWp_congr (by rw [hqueue, List.map_singleton, fillRepl_of_cause hc])
  have hq1 : s1.bays[b].wp.replQueue = [x] := by rw [← h1, onWp_wp]
  have hdisc1 : s1.bays[b].seq.disc = some d := by
    rw [← h1, ← h0, seq_of_hide (hide_onWp (by simp)), seq_of_hide (hide_onWp (by simp)), hdisc]
  have hset1 : s1.bays[b].seq.disc.bind (·.mgmt) = some m := by rw [hdisc1]; exact hset
  have hclean1 : s1.bays[b].unclean = false := by
    unfold Bay.unclean
    rw [hdisc1]
    exact hclean
  have htries1 : 0 < s1.bn b Param.wrReplTries := by rwa [bn_congr (by rw [← h1, ← h0, onWp_params, onWp_params])]
  have hexec : execReplacementPass b copies [{ before := before, after := some r }] s
      = .next ((((replVerdict s1 b x m.nextOrdinal r).1.replacedAt b x m.nextOrdinal).onWp b (fun w =>
          { w with replQueue := [] })).onWp b (fun w => { w.setDue with statusClear := false })) := by
    unfold execReplacementPass
    dsimp only
    rw [if_neg hgo, h0, hfill, hq1, if_neg (List.cons_ne_nil _ _),
      replaceAll_passes hset1 hc hallowed hclean1 hn htries1 before hv]
  refine ⟨_, hexec, ?_, ?_⟩
  · rw [onWp_wp, onWp_wp]
    rfl
  · rw [seq_of_hide (hide_onWp (by simp)), seq_of_hide (hide_onWp (by simp)), replacedAt_disc, replVerdict_disc, hdisc1]
    exact ⟨_, _, rfl, by dsimp only; rw [hset]; rfl, rfl, rfl⟩

/-! ### Test positions (R157) -/

section
variable {s : State} {b : BayNo} {layer : LayerNo} {probes : List Bool × List Bool}

/-- The pointers of a layer, once found, stand in the write path. -/
theorem testPointers_wp (s : State) (b : BayNo) (layer : LayerNo) (probes : List Bool × List Bool) :
    ∃ v, (s.testPointers b layer probes).2.bays[b].wp = { s.bays[b].wp with testNext := v }
      ∧ v[layer] = some (s.testPointers b layer probes).1 := by
  unfold State.testPointers
  split
  next p hp => exact ⟨_, rfl, hp⟩
  · exact ⟨_, onWp_wp s b _, by simp⟩

theorem testPointers_params (s : State) (b : BayNo) (layer : LayerNo) (probes : List Bool × List Bool) :
    (s.testPointers b layer probes).2.params = s.params :=
  params_of_hide (hide_testPointers (by simp))

/-! ### Power calibration (R158 to R161) -/

theorem levelsOk_congr {t : State} (h : t.params = s.params) (outer : Bool) (top : Rat) :
    t.levelsOk b layer outer top = s.levelsOk b layer outer top := by
  simp only [State.levelsOk, State.testBlock, State.strategyBlock, State.strategySet, h]

theorem berLimit_congr {t : State} (h : t.params = s.params) : t.berLimit b = s.berLimit b := by
  unfold State.berLimit
  rw [bn_congr h]

/-- A run with positions and levels to spare is judged by the errors of its steps. -/
theorem opcRun_judged {outer : Bool} {used : Nat} {prev : Rat} {tries : List WriteTry}
    (hroom : used + s.bn b Param.wrOpcSteps ≤ (testArea outer).2)
    (hlevels : s.levelsOk b layer outer
      (stepFactor prev (s.bn b Param.wrOpcSpan) (s.bn b Param.wrOpcSteps) (s.bn b Param.wrOpcSteps - 1)) = true) :
    s.opcRun b layer outer used prev tries
      = ((s.runSteps b layer outer used prev (s.bn b Param.wrOpcSpan) (s.bn b Param.wrOpcSteps) tries).1,
          some (judgeRun prev (s.bn b Param.wrOpcSpan) (s.bn b Param.wrOpcSteps) (s.berLimit b)
            (s.runSteps b layer outer used prev (s.bn b Param.wrOpcSpan) (s.bn b Param.wrOpcSteps) tries).2)) := by
  unfold State.opcRun
  dsimp only
  rw [if_neg (by omega), hlevels, if_neg (by decide)]

/-- The factor of an area of a layer. -/
def areaKappa (w : WritePath) (layer : LayerNo) (outer : Bool) : Nat := if outer then w.kappaOut[layer] else w.kappaIn[layer]

theorem bitAt_setBit {n i : Nat} (x : BitVec n) (h : i < n) : bitAt (setBit x i true) i = true := by
  unfold bitAt setBit
  rw [if_pos rfl, BitVec.getLsbD_or, BitVec.getLsbD_ofNat, Nat.testBit_two_pow_self, decide_eq_true h, Bool.and_true, Bool.or_true]

/-- An accepted factor is that of its area, which is done in this mount (R158, R159). -/
theorem opcAccept_wp (s : State) (b : BayNo) (layer : LayerNo) (outer : Bool) (f : Rat) :
    areaKappa (s.opcAccept b layer outer f).bays[b].wp layer outer = (roundOpen 8 (f * 4096)).toNat
      ∧ bitAt (s.opcAccept b layer outer f).bays[b].wp.opcDone (layer.val + if outer then 16 else 0) = true := by
  unfold State.opcAccept
  dsimp only
  rw [raiseBay_wp, onBay_wp]
  refine ⟨?_, bitAt_setBit _ (by split <;> omega)⟩
  unfold areaKappa
  cases outer
  · simp
  · simp

/-- That an area has been calibrated changes no factor. -/
theorem calibrated_wp (s : State) (b : BayNo) (layer : LayerNo) (outer : Bool) :
    (s.calibrated b layer outer).bays[b].wp.kappaIn = s.bays[b].wp.kappaIn
      ∧ (s.calibrated b layer outer).bays[b].wp.kappaOut = s.bays[b].wp.kappaOut
      ∧ (s.calibrated b layer outer).bays[b].wp.opcDone = s.bays[b].wp.opcDone := by
  unfold State.calibrated
  rw [onWp_wp]
  dsimp only
  generalize setBit s.bays[b].wp.opcRan _ true = ran
  split
  · exact ⟨rfl, rfl, rfl⟩
  · exact ⟨rfl, rfl, rfl⟩

/-- A first run that is accepted sets the factor, and the account of areas done leaves it. -/
theorem powerCalibration_completes {outer : Bool} {tries : List WriteTry} (again : List WriteTry) {f : Rat} {c : Option Rat}
    {p : (Nat × Nat) × State} {used n span : Nat} {prev : Rat} (hp : s.testPointers b layer probes = p)
    (hused : (if outer then p.1.2 else p.1.1) = used)
    (hprev : ((areaKappa s.bays[b].wp layer outer : Nat) : Rat) / 4096 = prev) (hsteps : s.bn b Param.wrOpcSteps = n)
    (hspan : s.bn b Param.wrOpcSpan = span) (hmay : s.mayCalibrate b = true) (hroom : used + n ≤ (testArea outer).2)
    (hlevels : s.levelsOk b layer outer (stepFactor prev span n (n - 1)) = true)
    (hjudge : judgeRun prev span n (s.berLimit b) (p.2.runSteps b layer outer used prev span n tries).2 = (some f, c)) :
    Completes (.powerCalibration b layer outer probes tries again) s (fun t =>
      areaKappa t.bays[b].wp layer outer = (roundOpen 8 (f * 4096)).toNat
      ∧ bitAt t.bays[b].wp.opcDone (layer.val + if outer then 16 else 0) = true) := by
  obtain ⟨v, hwp, -⟩ := testPointers_wp s b layer probes
  have hparams := testPointers_params s b layer probes
  rw [hp] at hwp hparams
  obtain ⟨p, s1⟩ := p
  dsimp only at hwp hparams hused hjudge
  have hsteps1 : s1.bn b Param.wrOpcSteps = n := (congrFun (bn_congr hparams b) _).trans hsteps
  have hspan1 : s1.bn b Param.wrOpcSpan = span := (congrFun (bn_congr hparams b) _).trans hspan
  have hprev1 : ((areaKappa s1.bays[b].wp layer outer : Nat) : Rat) / 4096 = prev := by
    rw [← hprev, hwp]
    rfl
  unfold areaKappa at hprev1
  have hrun := opcRun_judged (s := s1) (b := b) (layer := layer) (outer := outer) (used := used) (prev := prev) (tries := tries)
    (by rwa [hsteps1]) (by rwa [levelsOk_congr hparams, hsteps1, hspan1])
  rw [hsteps1, hspan1, berLimit_congr hparams, hjudge] at hrun
  have hexec : execPowerCalibration b layer outer probes tries again s
      = .next (((s1.runSteps b layer outer used prev span n tries).1.opcAccept b layer outer f).calibrated b layer outer) := by
    unfold execPowerCalibration
    rw [hmay, if_neg (by decide), hp]
    dsimp only
    rw [hused, hprev1, hrun]
  obtain ⟨hin, hout, hdone⟩ :=
    calibrated_wp ((s1.runSteps b layer outer used prev span n tries).1.opcAccept b layer outer f) b layer outer
  obtain ⟨hk, hd⟩ := opcAccept_wp (s1.runSteps b layer outer used prev span n tries).1 b layer outer f
  refine ⟨_, hexec, ?_, ?_⟩
  · unfold areaKappa at hk ⊢
    rwa [hin, hout]
  · rwa [hdone]

/-! ### Geometry writes (R103) -/

theorem geometryOffsets_congr {t : State} (h : t.params = s.params) (reads : Vector (Option LaneRead) 4) :
    t.geometryOffsets b reads = s.geometryOffsets b reads := by
  have hsync : t.geometrySync b = s.geometrySync b := by
    funext x
    unfold State.geometrySync
    rw [bn_congr h]
  unfold State.geometryOffsets
  rw [hsync]

/-- An offset that is found is learnt as its distance. -/
theorem learnGeometry_learnt (s : State) (b : BayNo) (zone : Nat) {off : Vector (Option Nat) 3} {i : Fin 3} {v : Nat}
    (h : off[i] = some v) : (s.learnGeometry b zone off).bays[b].rc.learnt[i] = some (distanceOf zone v) := by
  simp only [Fin.getElem_fin] at h
  simp [State.learnGeometry, h]

/-- A geometry write with room for its turns learns what its read finds, and answers whether B1 and B3 were found. -/
theorem geometryOnce_eq {recorded : List ClusterAddr} {reads : Vector (Option LaneRead) 4} {outer : Bool} {start n : Nat}
    (hplace : (s.bays[b].wp.testNext[layer]).bind geometryPlace = some (outer, start, n)) :
    s.geometryOnce b layer recorded reads
      = (((s.geometryTurns b layer outer start recorded).useTest b layer outer n).learnGeometry b (if outer then 9 else 0)
          (s.geometryOffsets b reads),
        ((s.geometryOffsets b reads)[0]).isSome && ((s.geometryOffsets b reads)[2]).isSome) := by
  unfold State.geometryOnce
  rw [hplace]

/-- A first write whose read finds B1 and B3 needs no repeat, and its offsets stand. -/
theorem geometryWrite_completes (recorded : List ClusterAddr) {first : Vector (Option LaneRead) 4}
    (second : Vector (Option LaneRead) 4) {outer : Bool} {start n : Nat} {off : Vector (Option Nat) 3}
    (hoff : s.geometryOffsets b first = off) (hst : s.bays[b].seq.st = .ready) (hmay : s.mayWrite b = true)
    (hclock : 256 ≤ s.bays[b].wp.clockGood)
    (hplace : geometryPlace (s.testPointers b layer probes).1 = some (outer, start, n)) (hB1 : (off[0]).isSome = true)
    (hB3 : (off[2]).isSome = true) :
    Completes (.geometryWrite b layer probes recorded first second) s (fun t => ∀ (i : Fin 3) (v : Nat), off[i] = some v →
      t.bays[b].rc.learnt[i] = some (distanceOf (if outer then 9 else 0) v)) := by
  obtain ⟨v, hwp, hv⟩ := testPointers_wp s b layer probes
  have hparams := testPointers_params s b layer probes
  have hgo : ¬(s.bays[b].seq.st ≠ .ready ∨ s.mayWrite b = false ∨ s.bays[b].wp.clockGood < 256) := by
    rw [hst, hmay]
    simpa using hclock
  have hplace1 : ((s.testPointers b layer probes).2.bays[b].wp.testNext[layer]).bind geometryPlace = some (outer, start, n) := by
    rw [hwp]
    dsimp only
    rw [hv]
    exact hplace
  have honce := geometryOnce_eq (recorded := recorded) (reads := first) hplace1
  rw [geometryOffsets_congr hparams, hoff, hB1, hB3] at honce
  change ∃ t, execGeometryWrite b layer probes recorded first second s = .next t ∧ _
  unfold execGeometryWrite
  dsimp only
  rw [if_neg hgo, honce]
  refine ⟨_, rfl, fun i o ho => ?_⟩
  rw [rc_of_hide (hide_onWp (by simp))]
  exact learnGeometry_learnt _ b _ ho

end

/-! ### Management sets (R59, R61, R62) -/

section
variable {s s1 s2 : State} {b : BayNo} {d : Disc} {m x : MgmtSet} {tries1 tries2 : List WriteTry} {u1 u2 : Nat}

/-- A cluster of a set that has been written leaves the work. -/
theorem written_work (s : State) (b : BayNo) (layer : LayerNo) (zone : Nat) (a : ClusterAddr) (bits : List Bool) :
    writeWork ((s.loadPowers b layer zone).record b a bits) b = writeWork s b := by
  rw [record_work, loadPowers_work]

/-- The writing of a copy of a set leaves the work, whatever its writes meet. -/
theorem writeCopy_work (b : BayNo) (m : MgmtSet) (second : Bool) (tries : List WriteTry) (k used : Nat) (s : State) :
    writeWork (State.writeCopy b m second tries k used s).1 b = writeWork s b := by
  induction tries generalizing k used s with
  | nil =>
    rw [State.writeCopy]
    split
    · rfl
    · split
      · rfl
      · rfl
  | cons w rest ih =>
    have hverdict : ∀ (u : State) (p : State × Bool) (layer : LayerNo) (o : VerifyRead), writeWork u b = writeWork s b →
        u.verdict b layer o = p → writeWork p.1 b = writeWork s b := fun u p layer o hu hp => by
      rw [← hp, verdict_work, hu]
    rw [State.writeCopy]
    split
    · rfl
    split
    · rfl
    dsimp only
    split
    · rw [ih]
    split
    · rw [ih, written_work]
    split
    next u hp => rw [ih, hverdict _ _ _ _ (written_work ..) hp]
    next u hp => rw [ih, hverdict _ _ _ _ (written_work ..) hp]


/-- The writing of a copy of a set leaves the sequencer with its disc, and the work. -/
theorem writeCopy_leaves {b : BayNo} {m : MgmtSet} {second : Bool} {tries : List WriteTry} {k used v : Nat} {s t : State}
    {e : CopyEnd} (h : State.writeCopy b m second tries k used s = (t, v, e)) :
    t.bays[b].seq = s.bays[b].seq ∧ writeWork t b = writeWork s b := by
  have hseq : (State.writeCopy b m second tries k used s).1.bays[b].seq = s.bays[b].seq :=
    seq_of_hide (hide_writeCopy (by simp) (by simp) (by simp) (by simp) (by simp))
  have hwork := writeCopy_work b m second tries k used s
  rw [h] at hseq hwork
  exact ⟨hseq, hwork⟩

/-- A set that fits and is written whole to both sequences is current (R59, R61). -/
theorem writeSet_current (hro : d.readOnly = false) (hfit : setFit (setClusters x) d.used1 d.used2 = .fits)
    (hfirst : State.writeCopy b x false tries1 0 d.used1 s = (s1, u1, .whole))
    (hsecond : State.writeCopy b x true tries2 0 d.used2 s1 = (s2, u2, .whole)) :
    s.writeSet b d x tries1 tries2 = ((s2.onDisc b (fun e => { e with used1 := u1, used2 := u2 })).onDisc b (fun e =>
      { e with mgmt := some x, readOnly := false }), .current) := by
  unfold State.writeSet
  extract_lets refuse put
  have hput : put x false = ((s2.onDisc b (fun e => { e with used1 := u1, used2 := u2 })).onDisc b (fun e =>
      { e with mgmt := some x, readOnly := false }), .current) := by
    dsimp only [put]
    rw [hfirst]
    dsimp only
    rw [hsecond]
    dsimp only
    rw [if_neg (by decide), if_neg (by decide)]
  clear_value put
  rw [hro, if_neg Bool.false_ne_true, hfit]
  exact hput

theorem onDisc_disc (s : State) (b : BayNo) (f : Disc → Disc) : (s.onDisc b f).bays[b].seq.disc = s.bays[b].seq.disc.map f := by
  simp [State.onDisc]

/-- The end of a job (R295) is no matter of the set that is due. -/
theorem endJob_mgmtDue (s : State) (b : BayNo) : (s.endJob b).bays[b].wp.mgmtDue = s.bays[b].wp.mgmtDue := by
  unfold State.endJob
  dsimp only
  split
  · rfl
  next j rest hj =>
    split
    · have hended : (s.onWp b (fun w => { w with jobs := rest })).bays[b].wp.mgmtDue = s.bays[b].wp.mgmtDue := by
        rw [onWp_wp]
      rw [← hended]
      refine congrArg WritePath.mgmtDue (wp_of_hide ?_)
      split
      · split
        · simp [hide_complete, hide_unseal]
        · simp [hide_complete]
      · split
        · simp [hide_unseal]
        · rfl
    · rfl

/-- A set that is current asks for no further one. -/
theorem destageSet_mgmtDue (s : State) (b : BayNo) (done : List WriteItem) (count : Nat) :
    (s.destageSet b done count).bays[b].wp.mgmtDue = s.bays[b].wp.mgmtDue := by
  unfold State.destageSet
  extract_lets t1 t2
  have h1 : t1.bays[b].wp.mgmtDue = s.bays[b].wp.mgmtDue := by
    dsimp only [t1]
    rw [State.onJob, onWp_wp]
  have h2 : t2.bays[b].wp = t1.bays[b].wp := by
    refine wp_of_hide ?_
    dsimp only [t2]
    split
    · split
      · exact hide_onCmd (by simp)
      · rfl
    · rfl
  rw [endJob_mgmtDue, ← h1, ← h2]
  exact congrArg WritePath.mgmtDue (wp_of_hide (by simp [hide_onDec, hide_releaseStaged, hide_volFollows]))

/-- Neither copy's writes touch the disc or make a set due, and what follows a current set leaves both. -/
theorem managementSetWrite_completes {j : DestageJob} {js : List DestageJob} (hx : nextSet d m false j.written = x)
    (hst : s.bays[b].seq.st = .ready) (hdue : s.bays[b].wp.mgmtDue = some .destage) (hqueue : s.bays[b].wp.replQueue = [])
    (hdisc : s.bays[b].seq.disc = some d) (hmounted : d.mounted = true) (hset : d.mgmt = some m) (hro : d.readOnly = false)
    (hjobs : s.bays[b].wp.jobs = j :: js) (hfit : setFit (setClusters x) d.used1 d.used2 = .fits)
    (hfirst : State.writeCopy b x false tries1 0 d.used1 (s.onWp b (fun w => { w with mgmtDue := none })) = (s1, u1, .whole))
    (hsecond : State.writeCopy b x true tries2 0 d.used2 s1 = (s2, u2, .whole)) :
    Completes (.managementSetWrite b tries1 tries2) s (fun t => t.bays[b].wp.mgmtDue = none
      ∧ ∃ e, t.bays[b].seq.disc = some e ∧ e.mgmt = some x ∧ x.seq = m.seq + 1 ∧ e.used1 = u1 ∧ e.used2 = u2) := by
  have hgo : ¬(s.bays[b].seq.st ≠ .ready ∨ s.bays[b].mounted = false ∨ s.bays[b].wp.replQueue ≠ []) := by
    have hbay : s.bays[b].mounted = true := by
      unfold Bay.mounted
      rw [hdisc]
      exact hmounted
    rw [hst, hbay, hqueue]
    simp
  generalize hs3 : (s2.onDisc b (fun e => { e with used1 := u1, used2 := u2 })).onDisc b (fun e =>
    { e with mgmt := some x, readOnly := false }) = s3
  have hwrite := writeSet_current hro hfit hfirst hsecond
  rw [hs3] at hwrite
  have hexec : execManagementSetWrite b tries1 tries2 s = .next (s3.destageSet b j.written j.replaced) := by
    unfold execManagementSetWrite
    dsimp only
    rw [hdue, hdisc]
    dsimp only
    rw [if_neg hgo, hset]
    dsimp only
    rw [hjobs]
    dsimp only
    rw [hx, hwrite]
  obtain ⟨hseq1, hwork1⟩ := writeCopy_leaves hfirst
  obtain ⟨hseq2, hwork2⟩ := writeCopy_leaves hsecond
  have hdue2 : s2.bays[b].wp.mgmtDue = none :=
    (congrArg WriteWork.mgmtDue (hwork2.trans hwork1)).trans (congrArg WritePath.mgmtDue (onWp_wp s b _))
  have hdisc2 : s2.bays[b].seq.disc = some d := by rw [hseq2, hseq1, seq_of_hide (hide_onWp (by simp)), hdisc]
  have hdue3 : s3.bays[b].wp = s2.bays[b].wp := by
    rw [← hs3]
    exact wp_of_hide (by simp [hide_onDisc])
  have hdisc3 : s3.bays[b].seq.disc = some { d with used1 := u1, used2 := u2, mgmt := some x, readOnly := false } := by
    rw [← hs3, onDisc_disc, onDisc_disc, hdisc2]
    rfl
  refine ⟨_, hexec, ?_, { d with used1 := u1, used2 := u2, mgmt := some x, readOnly := false }, ?_, rfl, by rw [← hx]; rfl, rfl, rfl⟩
  · rw [destageSet_mgmtDue, hdue3, hdue2]
  · rw [seq_of_hide (s := s3) (by simp [hide_destageSet]), hdisc3]

end

/-- Settles O26: a replacement, a calibration run, a geometry write and a set, as the lemmas above say of each. -/
theorem writeSupportCompletes : Obligations.WriteSupportCompletes := by
  unfold Obligations.WriteSupportCompletes
  refine ⟨fun _ _ copies _ _ _ before _ => ?_, fun _ _ _ outer _ _ again _ _ => ?_, fun _ _ _ _ recorded _ second _ _ _ => ?_, ?_⟩
  · intro s0 s1 a s2 hst hmay hrun hqueue hc hdisc hset hclean hallowed hn htries hv
    exact replacementPass_completes copies before rfl rfl hst hmay hrun hqueue hc hdisc hset hclean hallowed hn htries hv
  · intro p used prev n span hmay hroom hlevels hjudge
    exact powerCalibration_completes again rfl rfl rfl rfl rfl hmay hroom hlevels hjudge
  · intro off hst hmay hclock hplace hB1 hB3
    exact geometryWrite_completes recorded second rfl hst hmay hclock hplace hB1 hB3
  · intro s s1 s2 b tries1 tries2 d m j js u1 u2 next hst hdue hqueue hdisc hmounted hset hro hjobs hfit hfirst hsecond
    exact managementSetWrite_completes rfl hst hdue hqueue hdisc hmounted hset hro hjobs hfit hfirst hsecond

end Sys2Proof.Proofs
end

section
/-! PROOFS. Which loops a Lull takes with it (R191, R192): the proof of the statement about it. -/

namespace Sys2Proof.Proofs

open Sys2Proof Sys2Proof.Machine Sys2Proof.Safety Sys2Proof.Laws

variable {s : State} {b : BayNo}

/-! ### Operations that leave the loops -/

/-- Tails have no bearing on the loops. -/
theorem tailBlind_loop (f : LoopId → Loop) : TailBlind (fun v => v.loop = f) := fun _ _ hv => hv

theorem onSeq_loop (s : State) (b : BayNo) (f : Seq → Seq) : (s.onSeq b f).bays[b].srv.loop = s.bays[b].srv.loop :=
  congrArg Servo.loop (srv_of_hide (hide_onSeq (by simp)))

/-- A cut of the write gate (R169) is no matter of the loops. -/
theorem cutGate_loop (s : State) (b : BayNo) (cause : CutCause) : (s.cutGate b cause).bays[b].srv.loop = s.bays[b].srv.loop :=
  ((Keeps.refl (fun v => v.loop = s.bays[b].srv.loop) b s).cutGate (tailBlind_loop _)).servo rfl

/-- Nor is a move that is abandoned (R196). -/
theorem abandonMove_loop (s : State) (b : BayNo) : (s.abandonMove b).bays[b].srv.loop = s.bays[b].srv.loop := by
  have hstart : Keeps (fun v => v.loop = s.bays[b].srv.loop) b s (s.onSrv b (fun v => { v with move := none, queued := [] })) :=
    (Keeps.refl _ b s).onSrv
  unfold State.abandonMove
  split
  · exact (Keeps.ite (hstart.raiseBay (tailBlind_loop _)) hstart).servo rfl
  · exact hstart.servo rfl

/-! ### One loop enters Lull (R191) -/

theorem lullLoop_of_lull {l : LoopId} (c : LullCause) (h : (s.bays[b].srv.loop l).lull.isSome = true) : s.lullLoop b l c = s :=
  if_pos h

/-- A loop that enters Lull has the cause of the Lull that it was in already, or else the cause given. -/
theorem lullLoop_lull (s : State) (b : BayNo) (l : LoopId) (c : LullCause) :
    ((s.lullLoop b l c).bays[b].srv.loop l).lull = some ((s.bays[b].srv.loop l).lull.getD c) := by
  cases h : (s.bays[b].srv.loop l).lull with
  | some d => rw [lullLoop_of_lull c (by rw [h]; rfl), h, Option.getD_some]
  | none =>
    unfold State.lullLoop
    rw [h, if_neg (by decide), raiseBay_loop, onSrv_srv]
    cases l <;> rfl

/-- Tracking and the sled that enter Lull leave the sled at a command of 0. -/
theorem lullLoop_sledDrive {l : LoopId} (c : LullCause) (hl : l = .tracking ∨ l = .sled)
    (h : (s.bays[b].srv.loop l).lull = none) : ((s.lullLoop b l c).bays[b].srv.loop .sled).drive = 0 := by
  unfold State.lullLoop
  rw [h, if_neg (by decide), raiseBay_loop, onSrv_srv]
  rcases hl with rfl | rfl
  · rfl
  · rfl

/-- A loop that enters Lull leaves every other loop, but that tracking sets the sled's command. -/
theorem lullLoop_other {l m : LoopId} (c : LullCause) (hm : m ≠ l) (hsled : m = .sled → l ≠ .tracking) :
    (s.lullLoop b l c).bays[b].srv.loop m = s.bays[b].srv.loop m := by
  unfold State.lullLoop
  split
  · rfl
  rw [raiseBay_loop, onSrv_srv]
  cases m with
  | sled => cases l with
    | sled => exact absurd rfl hm
    | tracking => exact absurd rfl (hsled rfl)
    | focus | tilt => rfl
  | focus => cases l with
    | focus => exact absurd rfl hm
    | tracking | tilt | sled => rfl
  | tracking => cases l with
    | tracking => exact absurd rfl hm
    | focus | tilt | sled => rfl
  | tilt => cases l with
    | tilt => exact absurd rfl hm
    | focus | tracking | sled => rfl

/-! ### What follows (R192) -/

/-- Focus takes tracking with it, and what else follows leaves the loops. -/
theorem enterLull_focus_loop (c : LullCause) (h : s.bays[b].srv.focus.lull = none) :
    (s.enterLull b .focus c).bays[b].srv.loop = ((s.lullLoop b .focus c).lullLoop b .tracking .coupled).bays[b].srv.loop := by
  have hnot : ¬(s.bays[b].srv.loop .focus).lull.isSome = true := by
    rw [show (s.bays[b].srv.loop .focus).lull = none from h]
    decide
  unfold State.enterLull
  rw [if_neg hnot]
  dsimp only
  rw [onSeq_loop, cutGate_loop, onSrv_srv]
  exact abandonMove_loop _ b

/-- Of any other loop that enters Lull, what follows leaves the loops. -/
theorem enterLull_loop {l : LoopId} (c : LullCause) (hl : l ≠ .focus) :
    (s.enterLull b l c).bays[b].srv.loop = (s.lullLoop b l c).bays[b].srv.loop := by
  unfold State.enterLull
  split
  case isTrue h => rw [lullLoop_of_lull c h]
  case isFalse =>
    cases l with
    | focus => exact absurd rfl hl
    | tracking =>
      dsimp only
      rw [onSeq_loop, cutGate_loop, onSrv_srv]
      exact abandonMove_loop _ b
    | tilt =>
      dsimp only
      rw [onSeq_loop, cutGate_loop]
    | sled => exact onSeq_loop ..

/-- A Lull of focus couples tracking into Lull, with the sled at a command of 0 where tracking was in none. -/
theorem enterLull_focus_couples (c : LullCause) (h : s.bays[b].srv.focus.lull = none) :
    (s.enterLull b .focus c).bays[b].srv.focus.lull = some c
      ∧ (s.enterLull b .focus c).bays[b].srv.tracking.lull = some (s.bays[b].srv.tracking.lull.getD .coupled)
      ∧ (s.bays[b].srv.tracking.lull = none → (s.enterLull b .focus c).bays[b].srv.sled.drive = 0) := by
  have hloop := enterLull_focus_loop c h
  have hcoupled := lullLoop_lull (s.lullLoop b .focus c) b .tracking .coupled
  have htracking : (s.lullLoop b .focus c).bays[b].srv.loop .tracking = s.bays[b].srv.tracking :=
    lullLoop_other c (by decide) (by decide)
  rw [htracking] at hcoupled
  refine ⟨?_, (congrArg Loop.lull (congrFun hloop .tracking)).trans hcoupled, fun ht => ?_⟩
  · have hfocus := lullLoop_lull s b .focus c
    rw [show (s.bays[b].srv.loop .focus).lull = none from h] at hfocus
    have hkept := congrFun hloop .focus
    rw [lullLoop_other .coupled (by decide) (by decide)] at hkept
    exact (congrArg Loop.lull hkept).trans hfocus
  · exact (congrArg Loop.drive (congrFun hloop .sled)).trans
      (lullLoop_sledDrive .coupled (.inl rfl) (by rw [htracking, ht]))

/-- Tracking or the sled enters Lull with its cause, and the sled's command is 0. -/
theorem enterLull_stopsSled {l : LoopId} (c : LullCause) (hl : l = .tracking ∨ l = .sled)
    (h : (s.bays[b].srv.loop l).lull = none) :
    ((s.enterLull b l c).bays[b].srv.loop l).lull = some c ∧ (s.enterLull b l c).bays[b].srv.sled.drive = 0 := by
  have hloop := enterLull_loop (s := s) (b := b) c (l := l) (by rcases hl with rfl | rfl <;> decide)
  have hcause := lullLoop_lull s b l c
  rw [h] at hcause
  exact ⟨(congrArg Loop.lull (congrFun hloop l)).trans hcause,
    (congrArg Loop.drive (congrFun hloop .sled)).trans (lullLoop_sledDrive c hl h)⟩

/-- A Lull of tilt affects no other loop. -/
theorem enterLull_tilt_other {m : LoopId} (c : LullCause) (hm : m ≠ .tilt) :
    (s.enterLull b .tilt c).bays[b].srv.loop m = s.bays[b].srv.loop m :=
  (congrFun (enterLull_loop c (by decide)) m).trans (lullLoop_other c hm fun _ => by decide)

/-- A period of a sled in Lull latches a command of 0, or is not made. -/
theorem sledLoopPeriod_lulled {t : State} (hl : s.bays[b].srv.sled.lull.isSome = true) (hd : s.bays[b].srv.sled.drive = 0)
    (h : exec (.sledLoopPeriod b) s = .next t) : t.bays[b].srv.sled.drive = 0 := by
  change execSledLoopPeriod b s = .next t at h
  unfold execSledLoopPeriod at h
  split at h
  case isTrue =>
    obtain rfl := Host.Outcome.next.inj h
    exact hd
  dsimp only at h
  split at h
  case isTrue =>
    obtain rfl := Host.Outcome.next.inj h
    exact hd
  case isFalse =>
    rw [show (s.takePeriod [Param.srvSledKp, Param.srvSledDeadband] b).bays[b] = s.bays[b] from rfl, hl, if_pos (by rfl)] at h
    obtain rfl := Host.Outcome.next.inj h
    exact congrArg (fun (x : Bay) => x.srv.sled.drive) (onBay_same _ b _)

/-- Settles O53: by what each loop does that enters Lull, as nothing else that a Lull brings (a move abandoned, a write gate cut)
touches a loop. -/
theorem lullCoupling : Obligations.LullCoupling := by
  unfold Obligations.LullCoupling
  refine ⟨fun s b c h => ?_,
    fun _ _ c h => enterLull_stopsSled (l := .tracking) c (.inl rfl) h,
    fun _ _ c => ⟨enterLull_tilt_other (m := .focus) c (by decide), enterLull_tilt_other (m := .tracking) c (by decide),
      enterLull_tilt_other (m := .sled) c (by decide)⟩,
    fun _ _ c h => enterLull_stopsSled (l := .sled) c (.inr rfl) h,
    fun _ _ _ hl hd h => sledLoopPeriod_lulled hl hd h⟩
  obtain ⟨hfocus, hcoupled, hsled⟩ := enterLull_focus_couples c h
  refine ⟨hfocus, hcoupled.trans ?_, hsled⟩
  cases s.bays[b].srv.tracking.lull with
  | none => rfl
  | some d => rfl

end Sys2Proof.Proofs
end

section
/-! PROOFS. Jumps, seeks, offsets and the characterisation run (R180, R184 to R187) complete: the proof of the statement about them. -/

namespace Sys2Proof.Proofs

open Sys2Proof Sys2Proof.Machine Sys2Proof.Safety Sys2Proof.Laws

variable {s : State} {b : BayNo}

/-! ### Taking up a state of work (Table 9.2) -/

theorem onBay_srv (s : State) (b : BayNo) (f : Bay → Bay) : (s.onBay b f).bays[b].srv = (f s.bays[b]).srv :=
  congrArg Bay.srv (onBay_same s b f)

/-- The servo of a bay whose lanes change is as it was. -/
theorem onRc_srv (s : State) (b : BayNo) (f : ReadChannel → ReadChannel) : (s.onRc b f).bays[b].srv = s.bays[b].srv :=
  onBay_srv s b _

/-- What a bay takes up is no matter of a property on which the tails have no bearing. -/
theorem takeUp_servo {P : Servo → Prop} (hP : TailBlind P) {new : BaySt} (h : P s.bays[b].srv) : P (s.takeUp b new).bays[b].srv :=
  ((Keeps.refl P b s).setBaySt hP).servo h

/-- The states from which a move may leave the track. -/
def inWork (a : BaySt) : Prop := a = .trackAcq ∨ a = .ready ∨ a = .reading ∨ a = .seeking ∨ a = .layerJump

theorem inWork_of_canMove {t : Bay} (h : t.canMove = true) : inWork t.seq.st := by
  unfold Bay.canMove at h
  simpa [inWork] using (Bool.and_eq_true_iff.1 h).2

/-- From each of them a row of Table 9.2 leads to SEEKING and to LAYER_JUMP. -/
theorem bayRow_workRow {a new : BaySt} (h : inWork a) (hnew : new = .seeking ∨ new = .layerJump) :
    bayRow (workRow a) a new = true := by
  rcases hnew with rfl | rfl
  · rcases h with rfl | rfl | rfl | rfl | rfl <;> rfl
  · rcases h with rfl | rfl | rfl | rfl | rfl <;> rfl

theorem takeUp_st {new : BaySt} (h : inWork s.bays[b].seq.st) (hnew : new = .seeking ∨ new = .layerJump) :
    (s.takeUp b new).bays[b].seq.st = new := by
  by_cases hne : s.bays[b].seq.st = new
  · rw [State.takeUp, State.setBaySt, if_pos (.inl hne), hne]
  · exact setBaySt_st hne (bayRow_workRow h hnew)

/-! ### The start of a move (R181, R184 to R186) -/

/-- A servo that was `was` has begun a move: a layer jump with the tracking drive held (R185), a sled seek with tracking open (R186). -/
structure HasBegun (was : Servo) (k : MoveKind) (v : Servo) : Prop where
  move : v.move = some (.begin k)
  held : ∀ up, k = .layer up → v.tracking.drive = was.tracking.heldDrive
  opened : ∀ turn, k = .sledSeek turn → v.tracking.closed = false

theorem tailBlind_hasBegun (was : Servo) (k : MoveKind) : TailBlind (HasBegun was k) := fun _ _ ⟨hm, hh, ho⟩ => ⟨hm, hh, ho⟩

/-- A move that starts is the move in progress, whatever its kind. -/
theorem startMove_hasBegun (s : State) (b : BayNo) (k : MoveKind) :
    HasBegun s.bays[b].srv k (s.startMove b k).bays[b].srv := by
  have hblind := tailBlind_hasBegun s.bays[b].srv k
  unfold State.startMove
  extract_lets t p
  have ht : t.bays[b].srv = s.bays[b].srv := by
    dsimp only [t]
    split
    · rfl
    · exact onRc_srv ..
  split
  case h_1 =>
    rw [onBay_srv]
    exact ⟨rfl, nofun, nofun⟩
  case h_2 n =>
    extract_lets t1
    have h1 : HasBegun s.bays[b].srv (.lens n) t1.bays[b].srv := by
      rw [onBay_srv]
      exact ⟨rfl, nofun, nofun⟩
    split
    · exact takeUp_servo hblind h1
    · exact h1
  case h_3 up =>
    refine takeUp_servo hblind ?_
    rw [onSrv_srv, ht]
    exact ⟨rfl, fun _ _ => rfl, nofun⟩
  case h_4 turn =>
    extract_lets target t1 t2
    have h1 : HasBegun s.bays[b].srv (.sledSeek turn) t1.bays[b].srv := by
      rw [onSrv_srv]
      exact ⟨rfl, nofun, fun _ _ => rfl⟩
    have h2 : Keeps (HasBegun s.bays[b].srv (.sledSeek turn)) b t1 t2 :=
      .ite ((Keeps.refl _ b t1).frame (hide_onSld (by simp))) ((Keeps.refl _ b t1).raiseBay hblind)
    exact takeUp_servo hblind (h2.servo h1)
  case h_5 hlayer hseek =>
    rw [onSrv_srv]
    exact ⟨rfl, fun up e => (hlayer up e).elim, fun turn e => (hseek turn e).elim⟩

/-- A layer jump takes the bay to LAYER_JUMP (R185). -/
theorem startMove_layer_st {up : Bool} (h : inWork s.bays[b].seq.st) :
    (s.startMove b (.layer up)).bays[b].seq.st = .layerJump := by
  refine takeUp_st ?_ (.inr rfl)
  rw [seq_of_hide (s := s)]
  · exact h
  · simp [hide_onSrv, hide_onRc]

/-- A sled seek takes the bay to SEEKING (R186). -/
theorem startMove_sledSeek_st {turn : Nat} (h : inWork s.bays[b].seq.st) :
    (s.startMove b (.sledSeek turn)).bays[b].seq.st = .seeking := by
  have hseq : ∀ f, ((s.onRc b ReadChannel.leave).onSrv b f).bays[b].seq = s.bays[b].seq := fun f =>
    seq_of_hide (by simp [hide_onSrv, hide_onRc])
  refine takeUp_st ?_ (.inl rfl)
  rw [if_neg (show ¬MoveKind.sledSeek turn = .stride from nofun)]
  split
  · rw [seq_of_hide (hide_onSld (by simp)), hseq]
    exact h
  · rw [raiseBay_seq, hseq]
    exact h

/-- A move that is ordered when none is in progress starts at once (R181). -/
theorem orderServoMove_of_none (k : MoveKind) (h : s.bays[b].srv.move = none) :
    s.orderServoMove b k = s.startMove b k := by
  unfold State.orderServoMove
  rw [h, if_neg (by decide)]

/-! ### The end of a move (R181) -/

/-- A move that ends with none waiting leaves the servo without a move, and focus as it was. -/
theorem moveDone_ends (hq : s.bays[b].srv.queued = []) :
    (s.moveDone b).bays[b].srv.move = none ∧ (s.moveDone b).bays[b].srv.focus = s.bays[b].srv.focus := by
  have hblind : TailBlind (fun v => v.move = none ∧ v.focus = s.bays[b].srv.focus) := fun _ _ h => h
  have hended := Keeps.refl (fun v => v.move = none ∧ v.focus = s.bays[b].srv.focus) b
    (s.onSrv b (fun v => { v with move := none, queued := v.queued.drop 1 }))
  unfold State.moveDone
  rw [hq]
  refine (Keeps.ite (.ite (hended.setBaySt hblind) (hended.setBaySt hblind)) hended).servo ?_
  rw [onSrv_srv]
  exact ⟨rfl, rfl⟩

theorem moveDone_keepsEvents (s : State) (b : BayNo) : KeepsEvents b s (s.moveDone b) :=
  (Keeps.refl _ b s).moveDoneRead fun _ _ _ _ => trivial

/-! ### Jumps (R184, R185) -/

theorem strideJump_completes {l : LayerNo} {n z : Nat} (ho : s.orders b = true) (hst : s.bays[b].seq.st = .reading)
    (hplace : s.bays[b].srv.place = some (l, n, z)) (hknown : s.offsetsKnown b z l = true)
    (hskips : s.bays[b].srv.skips = false) (hlocked : s.bays[b].srv.tracking.locked = true) :
    Completes (.strideJump b) s (fun t => t.bays[b].srv.move = some (.begin .stride)) := by
  have hgo : ¬(!s.orders b || decide (s.bays[b].seq.st ≠ .reading) || !s.offsetsKnown b z l) = true := by
    rw [ho, hst, hknown]
    decide
  refine ⟨s.startMove b .stride, ?_, (startMove_hasBegun s b .stride).move⟩
  change execStrideJump b s = _
  unfold execStrideJump
  dsimp only
  rw [hplace]
  dsimp only
  rw [if_neg hgo, hskips, if_neg (by decide), if_pos hlocked]

/-- A stride jump that is late ends with its event. -/
theorem strideJumpLate_completes {m : Move} (hm : s.sys.mode ≠ .off) (hmove : s.bays[b].srv.move = some m)
    (hk : m.kind = .stride) (hq : s.bays[b].srv.queued = []) :
    Completes (.strideJumpLate b) s (fun t => t.bays[b].srv.move = none
      ∧ raisedSince s t (.bay b .strideJumpFault) = true) := by
  refine ⟨(s.raiseBay b .strideJumpFault [.u8 0]).moveDone b, ?_, (moveDone_ends (by simpa using hq)).1,
    raisedSince_of_keeps (Keeps.refl (fun _ => True) b s) hm (moveDone_keepsEvents _ b)⟩
  change execStrideJumpLate b s = _
  unfold execStrideJumpLate
  rw [hmove]
  exact if_pos hk

/-- A layer jump starts on a layer that has one beyond it. -/
theorem layerJump_completes {up : Bool} (ho : s.orders b = true) (hcan : s.bays[b].canMove = true)
    (hacq : s.bays[b].srv.trackAcq = 0) (hmove : s.bays[b].srv.move = none)
    (hlayer : ∀ l, s.bays[b].srv.layerNow = some l → if up then l.val < 15 else 0 < l.val) :
    Completes (.layerJump b up) s (fun t => t.bays[b].srv.move = some (.begin (.layer up)) ∧ t.bays[b].seq.st = .layerJump
      ∧ t.bays[b].srv.tracking.drive = s.bays[b].srv.tracking.heldDrive) := by
  have hbegun := startMove_hasBegun s b (.layer up)
  refine ⟨s.startMove b (.layer up), ?_, hbegun.move, startMove_layer_st (inWork_of_canMove hcan), hbegun.held up rfl⟩
  change execLayerJump b up s = _
  unfold execLayerJump
  dsimp only
  rw [ho, hcan, hacq, orderServoMove_of_none _ hmove]
  cases hnow : s.bays[b].srv.layerNow with
  | none => rfl
  | some l =>
    have hbeyond := hlayer l hnow
    cases up with
    | true => exact if_pos (by simpa using hbeyond)
    | false => exact if_pos (by simpa using hbeyond)

/-- The state in which the failure of a layer jump is raised (Table 7.7): the lens is back, focus closes where it started, and tracking
is to close there again. -/
def lensReturned (s : State) (b : BayNo) : State :=
  s.onSrv b (fun w => { w with focus := w.focus.close (s.landPeriods b), trackAcq := 2 })

theorem lensReturned_srv (s : State) (b : BayNo) : (lensReturned s b).bays[b].srv
    = { s.bays[b].srv with focus := s.bays[b].srv.focus.close (s.landPeriods b), trackAcq := 2 } := onSrv_srv s b _

/-- A layer jump whose window passes without an S-curve ends with focus closed again. -/
theorem layerJumpWindowEnd_completes {m : Move} {up : Bool} (hm : s.sys.mode ≠ .off) (hmove : s.bays[b].srv.move = some m)
    (hk : m.kind = .layer up) (hopen : s.bays[b].srv.focus.closed = false) (hlull : s.bays[b].srv.focus.lull = none)
    (hq : s.bays[b].srv.queued = []) :
    Completes (.layerJumpWindowEnd b) s (fun t => t.bays[b].srv.move = none ∧ t.bays[b].srv.focus.closed = true
      ∧ raisedSince s t (.bay b .layerJumpFail) = true) := by
  have hwaiting : ((lensReturned s b).raiseBay b .layerJumpFail [.u8 0]).bays[b].srv.queued = [] :=
    (raiseAt_srv_queued ..).trans ((congrArg Servo.queued (lensReturned_srv s b)).trans hq)
  have hclosed : ((lensReturned s b).raiseBay b .layerJumpFail [.u8 0]).bays[b].srv.focus.closed = true :=
    congrArg Loop.closed ((raiseAt_srv_focus ..).trans (congrArg Servo.focus (lensReturned_srv s b)))
  have hlayer : decide (m.kind = .layer true ∨ m.kind = .layer false) = true := by
    rw [hk]
    cases up <;> rfl
  obtain ⟨hnone, hfocus⟩ := moveDone_ends hwaiting
  refine ⟨_, ?_, hnone, by rw [hfocus, hclosed],
    raisedSince_of_keeps (Keeps.refl (fun _ => True) b s).onSrv hm (moveDone_keepsEvents _ b)⟩
  change execLayerJumpWindowEnd b s = _
  unfold execLayerJumpWindowEnd
  dsimp only
  rw [hmove]
  dsimp only
  rw [hlayer, hopen, hlull]
  rfl

/-! ### Seeks and offsets (R186, R187) -/

theorem lensSeek_completes {n : Int} (ho : s.orders b = true) (hcan : s.bays[b].canMove = true)
    (hacq : s.bays[b].srv.trackAcq = 0) (hmove : s.bays[b].srv.move = none) (hhold : s.bays[b].srv.hold = none) (hn : n ≠ 0)
    (hmax : |n| ≤ s.bp b Param.srvJumpMax) :
    Completes (.lensSeek b n) s (fun t => t.bays[b].srv.move = some (.begin (.lens n))) := by
  refine ⟨s.startMove b (.lens n), ?_, (startMove_hasBegun s b (.lens n)).move⟩
  change execLensSeek b n s = _
  unfold execLensSeek
  dsimp only
  rw [ho, hcan, decide_eq_true ⟨hn, hmax⟩, hacq, hhold, orderServoMove_of_none _ hmove]
  rfl

/-- A sled seek of a homed sled to a turn of the disc opens tracking. -/
theorem sledSeek_completes {turn : Nat} (ho : s.orders b = true) (hcan : s.bays[b].canMove = true)
    (hacq : s.bays[b].srv.trackAcq = 0) (hmove : s.bays[b].srv.move = none) (hhome : s.bays[b].sld.homed = true)
    (hturn : turn ≤ 143754) :
    Completes (.sledSeek b turn) s (fun t => t.bays[b].srv.move = some (.begin (.sledSeek turn))
      ∧ t.bays[b].srv.tracking.closed = false ∧ t.bays[b].seq.st = .seeking) := by
  have hbegun := startMove_hasBegun s b (.sledSeek turn)
  refine ⟨s.startMove b (.sledSeek turn), ?_, hbegun.move, hbegun.opened turn rfl,
    startMove_sledSeek_st (inWork_of_canMove hcan)⟩
  change execSledSeek b turn s = _
  unfold execSledSeek
  dsimp only
  rw [ho, hcan, decide_eq_true hturn, hacq, hhome, orderServoMove_of_none _ hmove]
  rfl

theorem offsetApply_completes {f c : Int} (ho : s.orders b = true) (hclosed : s.bays[b].srv.focus.closed = true)
    (hrun : s.bays[b].wp.run = none) (hst : s.bays[b].seq.st ≠ .writing) (hmove : s.bays[b].srv.move = none) :
    Completes (.offsetApply b f c) s (fun t => t.bays[b].srv.move = some (.begin (.offset f c))) := by
  refine ⟨s.startMove b (.offset f c), ?_, (startMove_hasBegun s b (.offset f c)).move⟩
  change execOffsetApply b f c s = _
  unfold execOffsetApply
  dsimp only
  rw [ho, hclosed, hrun, decide_eq_true hst, orderServoMove_of_none _ hmove]
  rfl

/-! ### The characterisation run (R180) -/

/-- No device that serves is off. -/
theorem serving_on {m : Mode} (h : m.serving = true) : m ≠ .off := by
  rintro rfl
  exact absurd h (by decide)

/-- The state in which a characterisation run is told of: its tables are in force. -/
def tablesLearnt (s : State) (b : BayNo) (r : CharRun) : State :=
  s.onSrv b (fun v => { v with tables := learnTables r, tablesValid := true, tablesTemp := s.bays[b].afe.headTemp })

theorem characterisationRun_completes {r : CharRun} (hserving : s.sys.mode.serving = true) (ho : s.orders b = true)
    (hst : s.bays[b].seq.st = .ready) (hidle : s.bays[b].busy = false) (hinvalid : s.bays[b].srv.tablesValid = false)
    (hcan : s.bays[b].canMove = true) (hmove : s.bays[b].srv.move = none) :
    Completes (.characterisationRun b (some r)) s (fun t => t.bays[b].srv.tables = learnTables r
      ∧ t.bays[b].srv.tablesValid = true ∧ t.bays[b].srv.tablesTemp = s.bays[b].afe.headTemp
      ∧ raisedSince s t (.bay b .ffTables) = true) := by
  refine ⟨(tablesLearnt s b r).raiseBay b .ffTables [.u8 1], ?_, by simp [tablesLearnt], by simp [tablesLearnt],
    by simp [tablesLearnt],
    raisedSince_of_keeps (Keeps.refl (fun _ => True) b s).onSrv (serving_on hserving) (Keeps.refl (fun _ => True) b _)⟩
  change execCharacterisationRun b (some r) s = _
  unfold execCharacterisationRun
  dsimp only
  rw [ho, hst, hidle, hinvalid, hcan, hmove, hserving]
  rfl

/-- Settles O30: a move that starts is the move in progress after whatever state of work its bay takes up (R237), and one that ends
with none waiting leaves none, its event still waiting. -/
theorem servoMovesComplete : Obligations.ServoMovesComplete := by
  unfold Obligations.ServoMovesComplete
  exact ⟨fun _ _ _ _ _ ho hst hplace hknown hskips hlocked => strideJump_completes ho hst hplace hknown hskips hlocked,
    fun _ _ _ hm hmove hk hq => strideJumpLate_completes hm hmove hk hq,
    fun _ _ _ ho hcan hacq hmove hlayer => layerJump_completes ho hcan hacq hmove hlayer,
    fun _ _ _ _ hm hmove hk hopen hlull hq => layerJumpWindowEnd_completes hm hmove hk hopen hlull hq,
    fun _ _ _ ho hcan hacq hmove hhold hn hmax => lensSeek_completes ho hcan hacq hmove hhold hn hmax,
    fun _ _ _ ho hcan hacq hmove hhome hturn => sledSeek_completes ho hcan hacq hmove hhome hturn,
    fun _ _ _ _ ho hclosed hrun hst hmove => offsetApply_completes ho hclosed hrun hst hmove,
    fun _ _ _ hserving ho hst hidle hinvalid hcan hmove =>
      characterisationRun_completes hserving ho hst hidle hinvalid hcan hmove⟩

end Sys2Proof.Proofs
end

section
/-! PROOFS. The sled's orders, its PWM periods and its standstill (R225 to R231) complete: the proof of the statement about them. -/

namespace Sys2Proof.Proofs

open Sys2Proof Sys2Proof.Machine Sys2Proof.Safety Sys2Proof.Laws

variable {s : State} {b : BayNo}

/-! ### The sled of a bay -/

theorem onSld_sld (s : State) (b : BayNo) (f : StepAxis → StepAxis) : (s.onSld b f).bays[b].sld = f s.bays[b].sld :=
  congrArg Bay.sld (onBay_same s b _)

theorem sld_of_hide {t : State} (h : hide (allBut (.sld b)) t = hide (allBut (.sld b)) s) :
    t.bays[b].sld = s.bays[b].sld := ((unchanged_of_hide h).sld b).resolve_left (by simp)

/-- An operation that changes the sled last, from what it was, leaves the sled as changed. -/
theorem onSld_completes {i : Instr} {P : StepAxis → Prop} (u : State) (f : StepAxis → StepAxis)
    (hu : u.bays[b].sld = s.bays[b].sld) (hi : exec i s = .next (u.onSld b f)) (hP : P (f s.bays[b].sld)) :
    Completes i s (fun t => P t.bays[b].sld) := by
  refine ⟨u.onSld b f, hi, ?_⟩
  dsimp only
  rwa [onSld_sld, hu]

/-- The end of a repeated move is noted as a transient stall (R230), and the sled is as it was. -/
theorem sledEnded_sld (s : State) (b : BayNo) : (s.sledEnded b).bays[b].sld = s.bays[b].sld :=
  sld_of_hide (hide_sledEnded (by simp) (by simp))

/-! ### What the orders make of a sled (R225 to R229) -/

theorem startHome_mode (a : StepAxis) (p : Profile) (travel : Nat) : (a.startHome p travel).mode = .home := rfl

theorem startHome_target (a : StepAxis) (p : Profile) (travel : Nat) :
    (a.startHome p travel).target = a.counts - travel := rfl

/-- From standstill a velocity other than 0 is followed. -/
theorem follow_of_standstill {a : StepAxis} (p : Profile) {v : Int} (h : a.mode = .standstill) (hv : v ≠ 0) :
    (a.follow p v).mode = .velocity ∧ (a.follow p v).velCmd = v := by
  simp [StepAxis.follow, h, hv]

/-- What a position move within the limits makes of a sled at standstill or following (R227, R229). -/
def takePosition (p : Profile) (x : Int) (a : StepAxis) : StepAxis :=
  if a.mode = .standstill then a.start p x else ({ a with profile := p, stalled := false, overspeed := false }).retarget x

theorem takePosition_of_standstill {a : StepAxis} (p : Profile) (x : Int) (h : a.mode = .standstill) :
    takePosition p x a = a.start p x := if_pos h

/-! ### The orders of a sled (R225 to R229) -/

theorem sledPositionMove_completes {x : Int} (ho : s.sledOrders b = true) (hhome : s.bays[b].sld.homed = true)
    (hmode : s.bays[b].sld.mode = .standstill) (hin : s.sledWithin b x = true) :
    Completes (.sledPositionMove b x) s (fun t => t.bays[b].sld = s.bays[b].sld.start (s.sledProfile b) x) := by
  refine onSld_completes (P := (· = s.bays[b].sld.start (s.sledProfile b) x))
    (s.onSeq b (fun q => { q with sledRepeat := false })) (takePosition (s.sledProfile b) x)
    (sld_of_hide (hide_onSeq (by simp))) ?_ (takePosition_of_standstill _ x hmode)
  change execSledPositionMove b x s = _
  unfold execSledPositionMove
  dsimp only
  rw [ho, hhome, hmode, hin]
  rfl

theorem sledRetarget_completes {x : Int} (ho : s.sledOrders b = true) (hhome : s.bays[b].sld.homed = true)
    (hmode : s.bays[b].sld.mode = .position ∨ s.bays[b].sld.mode = .reversal) (hin : s.sledWithin b x = true) :
    Completes (.sledRetarget b x) s (fun t => t.bays[b].sld = s.bays[b].sld.retarget x) := by
  have hmoves : decide (s.bays[b].sld.mode ≠ .position ∧ s.bays[b].sld.mode ≠ .reversal) = false :=
    decide_eq_false fun ⟨hp, hr⟩ => hmode.elim hp hr
  refine onSld_completes (P := (· = s.bays[b].sld.retarget x)) s (·.retarget x) rfl ?_ rfl
  change execSledRetarget b x s = _
  unfold execSledRetarget
  dsimp only
  rw [ho, hhome, hmoves, hin]
  rfl

theorem sledHomeMove_completes (ho : s.sledOrders b = true) (hmode : s.bays[b].sld.mode = .standstill) :
    Completes (.sledHomeMove b) s (fun t => t.bays[b].sld.mode = .home
      ∧ t.bays[b].sld.target = s.bays[b].sld.counts - (s.bn b Param.sldLimitOut + 4000 : Nat)) := by
  refine onSld_completes (P := fun a => a.mode = .home ∧ a.target = _) s
    (·.startHome (s.sledProfile b) (s.bn b Param.sldLimitOut + 4000)) rfl ?_ ⟨startHome_mode .., startHome_target ..⟩
  change execSledHomeMove b s = _
  unfold execSledHomeMove
  rw [ho, hmode]
  rfl

theorem sledVelocityCommand_completes {v : Int} (ho : s.sledOrders b = true) (hhome : s.bays[b].sld.homed = true)
    (hmode : s.bays[b].sld.mode = .standstill) (hv : v ≠ 0) :
    Completes (.sledVelocityCommand b v) s (fun t => t.bays[b].sld.mode = .velocity ∧ t.bays[b].sld.velCmd = 10 * v) := by
  refine onSld_completes (P := fun a => a.mode = .velocity ∧ a.velCmd = 10 * v) s
    (·.follow (s.sledProfile b) (10 * v)) rfl ?_ (follow_of_standstill _ hmode (by omega))
  change execSledVelocityCommand b v s = _
  unfold execSledVelocityCommand
  dsimp only
  rw [ho, hhome]
  rfl

/-! ### A period of a move and its end (R225 to R231) -/

theorem moving_of_home {a : StepAxis} (h : a.mode = .home) : a.moving = true := by
  simp [StepAxis.moving, h]

/-- The mark ends a home move; the sled of a bay with no mount in progress stays there. -/
theorem sledPwmPeriod_mark_completes (hmode : s.bays[b].sld.mode = .home) (hmount : s.bays[b].seq.mounting = false) :
    Completes (.sledPwmPeriod b true) s (fun t => t.bays[b].sld = s.bays[b].sld.atMark) := by
  refine ⟨(s.onSld b StepAxis.atMark).sledEnded b, ?_, (sledEnded_sld _ b).trans (onSld_sld s b _)⟩
  change execSledPwmPeriod b true s = _
  unfold execSledPwmPeriod
  dsimp only
  rw [moving_of_home hmode, hmount, if_neg (by decide), if_pos ⟨hmode, rfl⟩]
  rfl

/-- A sled within the window of SLD.STALL_WIN and without an overspeed does not stall (R230): the period ends as its profile and
its bridges leave it. -/
theorem sledPwmPeriod_completes {mark : Bool} {u : State} {y : StepAxis}
    (hu : u = (s.onSld b (fun a => a.period (decide (s.sys.mode = .ripcord)))).driveSled b) (hy : y = u.bays[b].sld)
    (hmoving : s.bays[b].sld.moving = true) (hmode : s.bays[b].sld.mode ≠ .home)
    (hnear : |y.deviation| ≤ s.bp b Param.sldStallWin) (hspeed : y.overspeed = false) :
    Completes (.sledPwmPeriod b mark) s (fun t => t.bays[b].sld = y) := by
  have hfar : (decide (s.bp b Param.sldStallWin < |y.deviation|) || y.overspeed) = false := by
    rw [hspeed, decide_eq_false (not_lt.2 hnear)]
    rfl
  subst hy hu
  refine ⟨_, ?_, sledEnded_sld _ b⟩
  change execSledPwmPeriod b mark s = _
  unfold execSledPwmPeriod
  dsimp only
  rw [hmoving, hfar, if_neg (by decide), if_neg (fun h => hmode h.1), if_neg (fun h => hmode h.1),
    if_neg (fun h => Bool.false_ne_true h.2.2)]

theorem applyStandstill_standstill (a : StepAxis) (mode : Nat) (duty : Rat) (pitch : Nat) :
    (a.applyStandstill mode duty pitch).standstill = mode := rfl

theorem sledStandstill_completes (hmode : s.bays[b].sld.mode = .standstill) (hdue : s.bays[b].sld.standstill = 3) :
    Completes (.sledStandstill b) s (fun t => t.bays[b].sld.standstill = s.bn b Param.sldStandstill) := by
  refine onSld_completes (P := fun a => a.standstill = s.bn b Param.sldStandstill) s
    (·.applyStandstill (s.bn b Param.sldStandstill) (s.bp b Param.sldHoldDuty * s.bridgeDuty b / 100)
      (s.bn b Param.sldStepPitch)) rfl ?_ (applyStandstill_standstill ..)
  change execSledStandstill b s = _
  unfold execSledStandstill
  exact if_pos ⟨hmode, hdue⟩

/-- Settles O32: an order that is taken changes the sled by what it asks of it, and what is noted of a stall at the end of a
period (R230) leaves the sled as the period left it. -/
theorem sledCompletes : Obligations.SledCompletes := by
  unfold Obligations.SledCompletes
  exact ⟨fun _ _ _ ho hhome hmode hin => sledPositionMove_completes ho hhome hmode hin,
    fun _ _ _ ho hhome hmode hin => sledRetarget_completes ho hhome hmode hin,
    fun _ _ ho hmode => sledHomeMove_completes ho hmode,
    fun _ _ _ ho hhome hmode hv => sledVelocityCommand_completes ho hhome hmode hv,
    fun _ _ hmode hmount => sledPwmPeriod_mark_completes hmode hmount,
    fun _ _ _ hmoving hmode hnear hspeed => sledPwmPeriod_completes rfl rfl hmoving hmode hnear hspeed,
    fun _ _ hmode hdue => sledStandstill_completes hmode hdue⟩

end Sys2Proof.Proofs
end

section
/-! PROOFS. The state right after reset (R434): the proof of the statement about it. -/

namespace Sys2Proof.Proofs

open Sys2Proof Sys2Proof.Machine

/-! ### The units at reset -/

theorem reset_ports (p : Port) : State.reset.ports[p] = PortState.reset := Vector.getElem_replicate ..

theorem reset_queues (q : QueueNo) : PortState.reset.queues[q] = QueuePair.reset := Vector.getElem_replicate ..

theorem reset_msix (v : Fin 65) : PortState.reset.msix[v] = { addr := 0, data := 0, mask := true } := Vector.getElem_replicate ..

theorem reset_bridle (k : Fin 64) : State.reset.bridle[k] = { owner := 0, claims := 0 } := Vector.getElem_replicate ..

theorem reset_bays (b : BayNo) : State.reset.bays[b] = Bay.reset := Vector.getElem_replicate ..

/-- Every loop of a servo at reset is open. -/
theorem reset_loop_open (l : LoopId) : (Servo.reset.loop l).closed = false := by
  cases l <;> rfl

theorem reset_pools (p : Fin 4) : State.reset.mem.pools[p] = BallastPool.reset := Vector.getElem_replicate ..

theorem reset_banks (k : Fin 3) (w : Fin 31) : State.reset.mem.triple.banks[k][w] = 0 := by
  have hbank : State.reset.mem.triple.banks[k] = Vector.replicate 31 0 := Vector.getElem_replicate ..
  rw [hbank]
  exact Vector.getElem_replicate ..

/-- Settles O58: each unit stands as its own reset value says, every one of a row of like units alike. -/
theorem resetState : Obligations.ResetState := by
  unfold Obligations.ResetState
  refine ⟨rfl, rfl, rfl, rfl, fun p q => ?queues, fun p v => ?msix, fun p => ?port, reset_bridle, fun b => ?bay, rfl, rfl, rfl,
    fun p => ?pools, reset_banks⟩
  case queues =>
    rw [reset_ports, reset_queues]
    exact ⟨rfl, rfl, rfl, rfl⟩
  case msix =>
    rw [reset_ports, reset_msix]
    exact ⟨rfl, rfl⟩
  case port =>
    rw [reset_ports]
    exact ⟨rfl, rfl, rfl, rfl⟩
  case bay =>
    rw [reset_bays]
    exact ⟨rfl, rfl, rfl, rfl, reset_loop_open⟩
  case pools =>
    rw [reset_pools]
    rfl

end Sys2Proof.Proofs
end

section
/-! PROOFS. A disc's way through a bay (R237 to R240) completes: the proof of the statement about it. -/

namespace Sys2Proof.Proofs

open Sys2Proof Sys2Proof.Machine Sys2Proof.Safety Sys2Proof.Laws

variable {s : State} {b : BayNo}

/-! ### What changes of a bay's sequencer (R237 to R240) -/

theorem onBay_seq (s : State) (b : BayNo) (f : Bay → Bay) : (s.onBay b f).bays[b].seq = (f s.bays[b]).seq :=
  congrArg Bay.seq (onBay_same s b f)

/-- A change of state that a row of Table 9.2 gives notes its time. -/
theorem setBaySt_seq {new : BaySt} {row : Nat} (hne : s.bays[b].seq.st ≠ new) (hr : bayRow row s.bays[b].seq.st new = true) :
    (s.setBaySt b new row).bays[b].seq = { s.bays[b].seq with st := new, lastWork := s.sys.time.toNat } := by
  unfold State.setBaySt
  extract_lets old s0 s1 s2
  have h0 : s0.bays[b].seq = s.bays[b].seq := by
    dsimp only [s0]
    split
    · rfl
    · exact seq_of_hide (by simp [hide_abortCal])
  have h1 : s1.bays[b].seq = { s.bays[b].seq with st := new, lastWork := s.sys.time.toNat } := by
    rw [raiseBay_seq, onBay_seq, h0]
  have h2 : s2.bays[b].seq = s1.bays[b].seq := by
    dsimp only [s2]
    split <;> rfl
  rw [if_neg (not_or_intro hne (by rw [hr]; decide))]
  split
  · rw [seq_of_hide (hide_send (by simp) (by simp)), h2, h1]
  · rw [h2, h1]

/-- A bay that spins down passes to SPINDOWN and keeps in mind what follows. -/
theorem spinDown_seq {after : AfterStop} {row : Nat} (hne : s.bays[b].seq.st ≠ .spindown)
    (hr : bayRow row s.bays[b].seq.st .spindown = true) :
    (s.spinDown b after row).bays[b].seq.st = .spindown ∧ (s.spinDown b after row).bays[b].seq.after = after := by
  unfold State.spinDown
  extract_lets s1
  have h1 : s1.bays[b].seq = { s.bays[b].seq with after := after } := by
    rw [onBay_seq]
    dsimp only
    rw [seq_of_hide (s := s)]
    simp [hide_parkFocus, hide_abortCal]
  have hst : s1.bays[b].seq.st = s.bays[b].seq.st := by rw [h1]
  rw [if_pos hr, setBaySt_seq (by rwa [hst]) (by rwa [hst]), h1]
  exact ⟨rfl, rfl⟩

/-- A change of state right after another change of the bay. -/
theorem onBay_setBaySt_seq {f : Bay → Bay} {new : BaySt} {row : Nat} (hne : (f s.bays[b]).seq.st ≠ new)
    (hr : bayRow row (f s.bays[b]).seq.st new = true) :
    ((s.onBay b f).setBaySt b new row).bays[b].seq = { (f s.bays[b]).seq with st := new, lastWork := s.sys.time.toNat } := by
  have hseq := onBay_seq s b f
  rw [setBaySt_seq (by rwa [hseq]) (by rwa [hseq]), hseq]
  rfl

/-- Management reads that are given up leave the bay where it is, with its disc. -/
theorem dropScan_seq (s : State) (b : BayNo) :
    (s.dropScan b).bays[b].seq.st = s.bays[b].seq.st ∧ (s.dropScan b).bays[b].seq.disc = s.bays[b].seq.disc := by
  unfold State.dropScan State.dropEntries
  rw [onSeq_seq]
  dsimp only
  rw [seq_of_hide (hide_giveAll (by simp) (by simp) (by simp)), onPool_bays, onBay_seq]
  exact ⟨rfl, rfl⟩

theorem stepPassed_seq (s : State) (b : BayNo) (stage : MountStage) :
    ∃ r, (s.stepPassed b stage).bays[b].seq = { s.bays[b].seq with retried := r } := by
  unfold State.stepPassed
  split
  · exact ⟨false, onSeq_seq _ b _⟩
  · exact ⟨_, rfl⟩

/-! ### A bay that unloads while its disc is ordered home (R241) -/

/-- A row of Table 9.2 that does not lead out of UNLOADING leaves a bay there, and a change of another bay has no part in it. -/
theorem setBaySt_unloading {c : BayNo} {new : BaySt} {row : Nat} (h : s.bays[b].seq.st = .unloading)
    (hr : bayRow row .unloading new = false) : (s.setBaySt c new row).bays[b].seq.st = .unloading := by
  by_cases hc : c = b
  · subst hc
    rw [State.setBaySt, h, if_pos (.inr hr), h]
  · rw [seq_of_hide (s := s), h]
    simp [hide_setBaySt, hc]

theorem endMove_unloading {status : Byte} (h : s.bays[b].seq.st = .unloading) :
    (s.endMove status).bays[b].seq.st = .unloading := by
  unfold State.endMove
  split
  · exact h
  · extract_lets s1 s2 s3 s4
    have h2 : s2.bays[b].seq.st = .unloading := by
      dsimp only [s2]
      split
      · exact h
      · exact (congrArg Seq.st (raiseAt_bay_seq ..)).trans h
    have h3 : s3.bays[b].seq.st = .unloading := by
      dsimp only [s3]
      split
      · split
        · exact setBaySt_unloading h2 rfl
        · exact h2
      · exact h2
    have h4 : s4.bays[b].seq.st = .unloading := by
      dsimp only [s4]
      split
      · rw [seq_of_hide (hide_send (by simp) (by simp)), h3]
      · exact h3
    split
    · rw [seq_of_hide (hide_answerRun (by simp) (by simp) (by simp) (by simp)), h4]
    · exact h4
    · rw [seq_of_hide (hide_orderEnded (by simp) (by simp) (by simp) (by simp) (by simp) (by simp)), h4]

theorem runStep_unloading (h : s.bays[b].seq.st = .unloading) : s.runStep.bays[b].seq.st = .unloading := by
  have hrefuse : ((s.raiseDev .handlerLimit).endMove 0x26).bays[b].seq.st = .unloading :=
    endMove_unloading ((congrArg Seq.st (raiseAt_bay_seq ..)).trans h)
  have hchoose : ∀ (c : Prop) [Decidable c] (t : State), t.bays[b].seq.st = .unloading →
      (if c then t else (s.raiseDev .handlerLimit).endMove 0x26).bays[b].seq.st = .unloading := by
    intro c _ t ht
    split
    · exact ht
    · exact hrefuse
  have hhoming : s.startHoming.bays[b].seq.st = .unloading := by
    rw [seq_of_hide (hide_startHoming (by simp)), h]
  unfold State.runStep
  split
  · exact h
  · split
    · exact h
    · dsimp only
      split
      case h_1 => exact hhoming
      case h_8 =>
        split
        · exact hchoose _ _ h
        · exact h
      all_goals exact hchoose _ _ h

theorem beginMove_unloading {src dst : BitVec 16} {declared : Bool} {port : Option Port} {fwd : Option CmdId}
    (h : s.bays[b].seq.st = .unloading) : (s.beginMove src dst declared port fwd).1.bays[b].seq.st = .unloading := by
  unfold State.beginMove
  split
  · exact h
  · split
    · exact h
    · extract_lets m s1 s2 s3
      have h2 : s2.bays[b].seq.st = .unloading := by
        dsimp only [s2]
        split
        · exact setBaySt_unloading h rfl
        · exact h
      have h3 : s3.bays[b].seq.st = .unloading := by
        dsimp only [s3]
        split
        · rw [seq_of_hide (hide_send (by simp) (by simp)), h2]
        · exact h2
      split
      · exact h3
      · split
        · exact runStep_unloading h3
        · exact runStep_unloading h3

theorem orderMove_unloading {src dst : BitVec 16} (h : s.bays[b].seq.st = .unloading) :
    (s.orderMove src dst).1.bays[b].seq.st = .unloading := by
  unfold State.orderMove
  split
  · exact beginMove_unloading h
  · split
    · extract_lets s1
      have h1 : s1.bays[b].seq.st = .unloading := by
        dsimp only [s1]
        split
        · exact setBaySt_unloading h rfl
        · exact h
      dsimp only
      rw [seq_of_hide (s := s1), h1]
      simp [hide_onHnd, hide_send]
    · exact h

theorem sendHome_unloading (h : s.bays[b].seq.st = .unloading) : (s.sendHome b).bays[b].seq.st = .unloading := by
  unfold State.sendHome
  split
  · exact h
  · rename_i d _
    split
    · exact h
    · have hordered : ((s.onSeq b (fun q => { q with clamp := false })).orderMove (bayCode b) d.slot).1.bays[b].seq.st
          = .unloading := orderMove_unloading ((congrArg Seq.st (onSeq_seq s b _)).trans h)
      split
      · rename_i heq
        rwa [heq] at hordered
      · rename_i heq
        rw [heq] at hordered
        rw [seq_of_hide (hide_endWaiters (by simp) (by simp) (by simp) (by simp) (by simp) (by simp)), hordered]

theorem freshDisc_st (t : Bay) : t.freshDisc.seq.st = t.seq.st := rfl

/-- A bay that unloads is in UNLOADING, whatever becomes of the order that sends its disc home. -/
theorem unload_st {row : Nat} (hne : s.bays[b].seq.st ≠ .unloading) (hr : bayRow row s.bays[b].seq.st .unloading = true) :
    (s.unload b row).bays[b].seq.st = .unloading := by
  unfold State.unload
  rw [if_pos hr]
  refine sendHome_unloading ?_
  rw [onSeq_seq, onBay_seq]
  dsimp only
  rw [freshDisc_st, setBaySt_st hne hr]

/-! ### A mount that fails (R240) -/

theorem noteFailure_st (q : Seq) (stage : MountStage) : (q.noteFailure stage).st = q.st := rfl

/-- What a failed mount comes to: from a state reached after its event with the bay where it was, the bay unloads or spins down. -/
theorem mountFails_eq (s : State) (b : BayNo) (stage : MountStage) :
    ∃ t, Keeps TrackOpen b (s.raiseBay b .mountFail [.u8 stage.code]) t ∧ t.bays[b].seq.st = s.bays[b].seq.st
      ∧ s.mountFails b stage = if t.bays[b].seq.st = .loading then t.unload b 2 else t.spinDown b .unload 24 := by
  unfold State.mountFails
  extract_lets s1 s2 s3 s4
  have h2 : Keeps TrackOpen b s1 s2 := (Keeps.refl _ b s1).frame
    (hide_mountsFailed (by simp) (by simp) (by simp) (by simp) (by simp) (by simp))
  have h3 : Keeps TrackOpen b s1 s3 := by
    dsimp only [s3]
    split
    · exact h2.frame (hide_formatEnds (by simp) (by simp) (by simp) (by simp) (by simp) (by simp) (by simp))
    · exact h2
  have hseq2 : s2.bays[b].seq = s.bays[b].seq :=
    (seq_of_hide (hide_mountsFailed (by simp) (by simp) (by simp) (by simp) (by simp) (by simp))).trans (raiseBay_seq ..)
  have hseq3 : s3.bays[b].seq = s.bays[b].seq := by
    dsimp only [s3]
    split
    · rw [seq_of_hide (hide_formatEnds (by simp) (by simp) (by simp) (by simp) (by simp) (by simp) (by simp)), hseq2]
    · exact hseq2
  have h4 : Keeps TrackOpen b s1 s4 := (h3.dropScan tailBlind_trackOpen).onBay
  refine ⟨s4, h4, ?st, ?ends⟩
  case st =>
    have hseq4 : s4.bays[b].seq = (s3.dropScan b).bays[b].seq.noteFailure stage := onBay_seq ..
    rw [hseq4, noteFailure_st, (dropScan_seq s3 b).1, hseq3]
  case ends => rfl

theorem mountFails_raises (stage : MountStage) (hm : s.sys.mode ≠ .off) :
    raisedSince s (s.mountFails b stage) (.bay b .mountFail) = true := by
  obtain ⟨t, hkeeps, -, heq⟩ := mountFails_eq s b stage
  rw [heq]
  exact raisedSince_of_keeps (Keeps.refl (fun _ => True) b s) hm (.ite hkeeps.unload hkeeps.spinDown)

/-- A mount that fails in LOADING unloads the bay at once. -/
theorem mountFails_loading_st {stage : MountStage} (h : s.bays[b].seq.st = .loading) :
    (s.mountFails b stage).bays[b].seq.st = .unloading := by
  obtain ⟨t, -, hst, heq⟩ := mountFails_eq s b stage
  rw [heq, if_pos (hst.trans h)]
  exact unload_st (by rw [hst, h]; decide) (by rw [hst, h]; rfl)

/-- A mount that fails while the disc is read stops the disc, to be unloaded. -/
theorem mountFails_reading_seq {stage : MountStage} (h : s.bays[b].seq.st = .reading) :
    (s.mountFails b stage).bays[b].seq.st = .spindown ∧ (s.mountFails b stage).bays[b].seq.after = .unload := by
  obtain ⟨t, -, hst, heq⟩ := mountFails_eq s b stage
  rw [heq, if_neg (by rw [hst, h]; decide)]
  exact spinDown_seq (by rw [hst, h]; decide) (by rw [hst, h]; rfl)

/-! ### Clamping (R237) -/

/-- A bay whose clamp has closed on a disc. -/
def discClamped (t : Bay) : Bay :=
  { t.freshDisc with seq := { t.freshDisc.seq with clamp := true, disc := some (t.seq.disc.getD strayDisc) } }

theorem clampConfirm_completes (hst : s.bays[b].seq.st = .loading) (htray : s.bays[b].seq.tray = true)
    (hun : s.bays[b].seq.unmounting = none) :
    Completes (.clampConfirm b) s (fun t => t.bays[b].seq.st = .clamped ∧ t.bays[b].seq.clamp = true
      ∧ t.bays[b].seq.disc.isSome = true) := by
  have hloading : (discClamped s.bays[b]).seq.st = .loading := hst
  refine ⟨(s.onBay b discClamped).setBaySt b .clamped 1, ?_, ?_⟩
  · change execClampConfirm b s = _
    unfold execClampConfirm
    dsimp only
    rw [if_neg (by rw [hst, htray]; decide), hun]
    rfl
  · dsimp only
    rw [onBay_setBaySt_seq (by rw [hloading]; decide) (by rw [hloading]; rfl)]
    exact ⟨rfl, rfl, rfl⟩

theorem clampTimeout_completes (hm : s.sys.mode ≠ .off) (hst : s.bays[b].seq.st = .loading) (htray : s.bays[b].seq.tray = true)
    (hclamp : s.bays[b].seq.clamp = false) :
    Completes (.clampTimeout b) s (fun t => t.bays[b].seq.st = .unloading ∧ raisedSince s t (.bay b .mountFail) = true) := by
  refine ⟨_, ?_, mountFails_loading_st hst, mountFails_raises .clamp hm⟩
  change execClampTimeout b s = _
  unfold execClampTimeout
  exact if_pos ⟨hst, htray, hclamp⟩

/-- A bay from which the disc has been lifted clear. -/
def discLifted (t : Bay) : Bay :=
  { t with seq := { t.seq with
      tray := false, clamp := false, disc := none, unmounting := none, mounting := false, faultAfter := none } }

theorem trayEmpty_completes (hst : s.bays[b].seq.st = .unloading) (hfault : s.bays[b].seq.faultAfter = none) :
    Completes (.trayEmpty b) s (fun t => t.bays[b].seq.st = .empty ∧ t.bays[b].seq.disc = none
      ∧ t.bays[b].seq.tray = false ∧ t.bays[b].seq.clamp = false) := by
  have hunloading : (discLifted s.bays[b]).seq.st = .unloading := hst
  refine ⟨(s.onBay b discLifted).setBaySt b .empty 19, ?_, ?_⟩
  · change execTrayEmpty b s = _
    unfold execTrayEmpty
    dsimp only
    rw [if_neg (not_not_intro hst), hfault]
    rfl
  · dsimp only
    rw [onBay_setBaySt_seq (by rw [hunloading]; decide) (by rw [hunloading]; rfl)]
    exact ⟨rfl, rfl, rfl, rfl⟩

/-! ### Spinning down (R237, R238) -/

theorem idleSpindown_completes (hst : s.bays[b].seq.st = .ready) (hidle : s.bays[b].busy = false)
    (hserves : s.bayServes b = false) (hwait : s.bn b Param.bayIdleSpindown ≠ 0) :
    Completes (.idleSpindown b) s (fun t => t.bays[b].seq.st = .spindown ∧ t.bays[b].seq.after = .park) := by
  refine ⟨s.spinDown b .park 16, ?_, spinDown_seq (by rw [hst]; decide) (by rw [hst]; rfl)⟩
  change execIdleSpindown b s = _
  unfold execIdleSpindown
  exact if_pos ⟨hst, hidle, hserves, hwait⟩

theorem spindownComplete_completes (hst : s.bays[b].seq.st = .spindown) (hoff : s.bays[b].spn.level = .off)
    (hafter : s.bays[b].seq.after = .park) (hmounted : s.bays[b].mounted = true) :
    Completes (.spindownComplete b) s (fun t => t.bays[b].seq.st = .parked) := by
  refine ⟨s.setBaySt b .parked 17, ?_, setBaySt_st (by rw [hst]; decide) (by rw [hst]; rfl)⟩
  change execSpindownComplete b s = _
  unfold execSpindownComplete
  dsimp only
  rw [hst, hoff, hafter, hmounted]
  rfl

/-! ### The mount read (R41, R59, R239) -/

/-- The reads of the two sequences when the probes have found their ends and no position has been read. -/
def unread (u1 u2 : Nat) : MgmtScan := { used1 := u1, used2 := u2, low1 := u1, low2 := u2, got := [] }

/-- The mount read of a disc goes on: the disc is clamped in the bay and its mount under way, and tracking is locked on it at rest. -/
structure MountReads (s : State) (b : BayNo) (d : Disc) : Prop where
  mounting : s.bays[b].seq.mounting = true
  disc : s.bays[b].seq.disc = some d
  unmounted : d.mounted = false
  reading : s.bays[b].seq.st = .reading
  locked : s.bays[b].srv.tracking.locked = true
  still : s.bays[b].srv.move = none
  acquired : s.bays[b].srv.trackAcq = 0

section
variable {d : Disc} (h : MountReads s b d) (probes1 probes2 : List Bool)
include h

theorem MountReads.vid : s.bays[b].vid = d.vid := by
  rw [Bay.vid, h.disc]

/-- Nothing keeps the command from going on. -/
theorem MountReads.goes : ¬(!(s.bays[b].seq.mounting && !s.bays[b].mounted && s.bays[b].seq.disc.isSome
    && ([BaySt.trackAcq, .reading].contains s.bays[b].seq.st && s.bays[b].srv.tracking.locked
      && decide (s.bays[b].srv.trackAcq = 0) && s.bays[b].srv.move.isNone))) = true := by
  rw [Bay.mounted, h.mounting, h.disc, h.reading, h.locked, h.acquired, h.still]
  dsimp only
  rw [h.unmounted]
  exact Bool.false_ne_true

/-- After 8 turns that identify no SL16 disc the mount ends. -/
theorem MountReads.exec_of_other (hscan : s.bays[b].seq.scan = none) (hids : 8 ≤ s.bays[b].srv.ids.length)
    (hsl : s.bays[b].srv.isSl16 = false) : exec (.mountRead b probes1 probes2) s = .next (s.mountFails b .identify) := by
  change execMountRead b probes1 probes2 s = _
  unfold execMountRead
  dsimp only
  rw [if_neg h.goes, hscan]
  dsimp only
  rw [if_neg (not_lt.2 hids), hsl]
  rfl

theorem MountReads.exec_of_sl16 (hscan : s.bays[b].seq.scan = none) (hids : 8 ≤ s.bays[b].srv.ids.length)
    (hsl : s.bays[b].srv.isSl16 = true) : exec (.mountRead b probes1 probes2) s
      = let m := unread (firstFree 14 0 mgmtPositions probes1) (firstFree 14 0 mgmtPositions probes2)
        .next (((s.atMount b).onSeq b (fun q => { q with scan := some m })).scanOn b m) := by
  change execMountRead b probes1 probes2 s = _
  unfold execMountRead
  dsimp only
  rw [if_neg h.goes, hscan]
  dsimp only
  rw [if_neg (not_lt.2 hids), hsl]
  rfl

theorem MountReads.exec_of_scan {m : MgmtScan} (hscan : s.bays[b].seq.scan = some m) (hread : s.bays[b].scanning = false) :
    exec (.mountRead b probes1 probes2) s = .next (s.scanOn b m) := by
  change execMountRead b probes1 probes2 s = _
  unfold execMountRead
  dsimp only
  rw [if_neg h.goes, hscan, hread]
  rfl

/-- A disc that 8 turns do not identify is returned. The premise of the 8 turns stands in the conclusion: as a variable it would enter
the proofs that `b` is in range, which would then differ from those in the obligation. -/
theorem mountRead_completes_other (hm : s.sys.mode ≠ .off) (hscan : s.bays[b].seq.scan = none)
    (hsl : s.bays[b].srv.isSl16 = false) : 8 ≤ s.bays[b].srv.ids.length →
    Completes (.mountRead b probes1 probes2) s (fun t => t.bays[b].seq.st = .spindown ∧ t.bays[b].seq.after = .unload
      ∧ raisedSince s t (.bay b .mountFail) = true) := by
  intro hids
  obtain ⟨hst, hafter⟩ := mountFails_reading_seq (stage := .identify) h.reading
  exact ⟨_, h.exec_of_other probes1 probes2 hscan hids hsl, hst, hafter, mountFails_raises .identify hm⟩

end

/-! ### The management reads of a mount (R59) -/

/-- A sequence of which nothing has been read lacks a valid set where it has positions. -/
theorem unread_lacks (u1 u2 : Nat) (second : Bool) :
    (unread u1 u2).lacks second = decide (0 < if second then u2 else u1) := by
  have hcopy : (unread u1 u2).copy second = [] := by
    cases second <;> simp [MgmtScan.copy, unread]
  rw [MgmtScan.lacks, hcopy]
  exact Bool.and_true _

/-- Each sequence is first read from the positions of a largest set below its end, or from its first. -/
theorem unread_more (u1 u2 : Nat) : (unread u1 u2).more = { unread u1 u2 with low1 := u1 - 46, low2 := u2 - 46 } := by
  have hlow : ∀ u, (if decide (0 < u) = true then u - largestSet else u) = u - 46 := by
    intro u
    rw [largestSet]
    split
    next => rfl
    next hnone => rw [decide_eq_true_eq] at hnone; omega
  have h1 : (unread u1 u2).lacks false = decide (0 < u1) := unread_lacks u1 u2 false
  have h2 : (unread u1 u2).lacks true = decide (0 < u2) := unread_lacks u1 u2 true
  unfold MgmtScan.more
  rw [h1, h2]
  simp only [unread, hlow]

theorem mem_mgmtSpan {second : Bool} {low high i : Nat} (hlow : low ≤ i) (hhigh : i < high) :
    mgmtAddr second i ∈ mgmtSpan second low high :=
  List.mem_map.2 ⟨i - low, List.mem_range.2 (by omega), by rw [Nat.add_sub_cancel' hlow]⟩

/-- Where a sequence lacks a valid set, the next positions are noted and queued. -/
theorem scanOn_seq_of_lacks {m : MgmtScan} (h : (m.lacks false || m.lacks true) = true) :
    (s.scanOn b m).bays[b].seq = { s.bays[b].seq with
      scan := some m.more,
      demand := s.bays[b].seq.demand
        ++ (mgmtSpan false m.more.low1 m.low1 ++ mgmtSpan true m.more.low2 m.low2).map (fun a => (a, a)) } := by
  unfold State.scanOn
  rw [if_pos h]
  exact onSeq_seq s b _

/-! ### A disc that is mounted (R239) -/

/-- A bay that has read a management set is READY, its mount over and its disc mounted with the set. -/
theorem mountFound_seq {d : Disc} {set : Option MgmtSet} {used1 used2 : Nat} (hst : s.bays[b].seq.st = .reading)
    (hdisc : s.bays[b].seq.disc = some d) :
    (s.mountFound b set used1 used2).bays[b].seq.st = .ready ∧ (s.mountFound b set used1 used2).bays[b].seq.mounting = false
      ∧ ∃ closed, (s.mountFound b set used1 used2).bays[b].seq.disc = some (d.found set closed used1 used2) := by
  unfold State.mountFound
  extract_lets vid closed s1 s2
  obtain ⟨r, hpassed⟩ := stepPassed_seq ((s.dropScan b).onDisc b (fun d => d.found set closed used1 used2)) b .management
  obtain ⟨hdropSt, hdropDisc⟩ := dropScan_seq s b
  obtain ⟨hst1, hdisc1⟩ : s1.bays[b].seq.st = .reading ∧ s1.bays[b].seq.disc = some (d.found set closed used1 used2) := by
    rw [hpassed, State.onDisc, onSeq_seq]
    dsimp only
    rw [hdropSt, hdropDisc, hst, hdisc]
    exact ⟨rfl, rfl⟩
  obtain ⟨hst2, hmounting2, hdisc2⟩ : s2.bays[b].seq.st = .reading ∧ s2.bays[b].seq.mounting = false
      ∧ s2.bays[b].seq.disc = some (d.found set closed used1 used2) := by
    rw [onBay_seq]
    dsimp only
    rw [hst1, hdisc1]
    exact ⟨rfl, rfl, rfl⟩
  have hvol : (s2.volMounted vid set).bays[b].seq = s2.bays[b].seq :=
    seq_of_hide (hide_volMounted (by simp) (by simp) (by simp) (by simp) (by simp))
  have hready : ((s2.volMounted vid set).setBaySt b .ready 10).bays[b].seq
      = { s2.bays[b].seq with st := .ready, lastWork := (s2.volMounted vid set).sys.time.toNat } := by
    rw [setBaySt_seq (by rw [hvol, hst2]; decide) (by rw [hvol, hst2]; rfl), hvol]
  rw [seq_of_hide (hide_mountDone (by simp) (by simp) (by simp) (by simp) (by simp) (by simp)),
    seq_of_hide (hide_resumeFormat (by simp) (by simp)), hready]
  dsimp only
  rw [hmounting2, hdisc2]
  exact ⟨rfl, rfl, closed, rfl⟩

/-- Where both sequences have a valid set, the set in force is the one the volume's disc is mounted with. -/
theorem scanOn_of_found {m : MgmtScan} {c : MgmtSet} (h1 : m.lacks false = false) (h2 : m.lacks true = false)
    (hset : currentSet (m.copy false) (m.copy true) = some c) (hvid : c.vid = s.bays[b].vid) :
    s.scanOn b m = s.mountFound b (some c) m.used1 m.used2 := by
  unfold State.scanOn
  rw [h1, h2, hset, if_neg (by decide)]
  exact if_pos hvid

theorem mountRead_completes_sl16 {d : Disc} (h : MountReads s b d) (probes1 probes2 : List Bool)
    (hscan : s.bays[b].seq.scan = none) (hsl : s.bays[b].srv.isSl16 = true)
    (hfree : firstFree 14 0 mgmtPositions probes1 ≠ 0) : 8 ≤ s.bays[b].srv.ids.length →
    Completes (.mountRead b probes1 probes2) s (fun t => t.bays[b].seq.mounting = true ∧ ∃ m, t.bays[b].seq.scan = some m
      ∧ m.used1 = firstFree 14 0 mgmtPositions probes1 ∧ m.used2 = firstFree 14 0 mgmtPositions probes2
      ∧ m.low1 = m.used1 - 46 ∧ m.low2 = m.used2 - 46
      ∧ ∀ i, m.low1 ≤ i → i < m.used1 → (mgmtAddr false i, mgmtAddr false i) ∈ t.bays[b].seq.demand) := by
  intro hids
  have hexec := h.exec_of_sl16 probes1 probes2 hscan hids hsl
  generalize firstFree 14 0 mgmtPositions probes1 = u1 at *
  generalize firstFree 14 0 mgmtPositions probes2 = u2 at *
  have hlacks : ((unread u1 u2).lacks false || (unread u1 u2).lacks true) = true := by
    rw [unread_lacks, if_neg (by decide), decide_eq_true (Nat.pos_of_ne_zero hfree)]
    rfl
  refine ⟨_, hexec, ?_⟩
  dsimp only
  rw [scanOn_seq_of_lacks hlacks, onSeq_seq, unread_more]
  refine ⟨h.mounting, _, rfl, rfl, rfl, rfl, rfl, fun i hlow hhigh => ?_⟩
  exact List.mem_append_right _ (List.mem_map_of_mem (List.mem_append_left _ (mem_mgmtSpan hlow hhigh)))

theorem mountRead_completes_found {d : Disc} {m : MgmtScan} {c : MgmtSet} (h : MountReads s b d) (probes1 probes2 : List Bool)
    (hscan : s.bays[b].seq.scan = some m) (hread : s.bays[b].scanning = false) (h1 : m.lacks false = false)
    (h2 : m.lacks true = false) (hset : currentSet (m.copy false) (m.copy true) = some c) (hvid : c.vid = d.vid) :
    Completes (.mountRead b probes1 probes2) s (fun t => t.bays[b].seq.st = .ready ∧ t.bays[b].seq.mounting = false
      ∧ ∃ e, t.bays[b].seq.disc = some e ∧ e.mounted = true ∧ e.mgmt = some c ∧ e.used1 = m.used1 ∧ e.used2 = m.used2
        ∧ (c.closed = true → e.readOnly = true)) := by
  obtain ⟨hst, hmounting, closed, hdisc⟩ :=
    mountFound_seq (set := some c) (used1 := m.used1) (used2 := m.used2) h.reading h.disc
  refine ⟨s.mountFound b (some c) m.used1 m.used2, ?_, hst, hmounting, _, hdisc, rfl, rfl, rfl, rfl, fun hc => ?_⟩
  · rw [h.exec_of_scan probes1 probes2 hscan hread, scanOn_of_found h1 h2 hset (hvid.trans h.vid.symm)]
  · exact (Bool.or_eq_true ..).mpr (.inl hc)

/-- Settles O33: each command of the bay's sequencer takes the row of Table 9.2 that its rule names, and what else it does leaves
the state of the bay and its disc as that row has them. -/
theorem bayStatesComplete : Obligations.BayStatesComplete := by
  unfold Obligations.BayStatesComplete
  exact ⟨fun _ _ hst htray hun => clampConfirm_completes hst htray hun,
    fun _ _ hm hst htray hclamp => clampTimeout_completes hm hst htray hclamp,
    fun _ _ _ probes1 probes2 hmounting hdisc hun hst hlocked hacq hmove hscan hids hsl hfree =>
      mountRead_completes_sl16 ⟨hmounting, hdisc, hun, hst, hlocked, hmove, hacq⟩ probes1 probes2 hscan hsl hfree hids,
    fun _ _ _ probes1 probes2 hm hmounting hdisc hun hst hlocked hacq hmove hscan hids hsl =>
      mountRead_completes_other ⟨hmounting, hdisc, hun, hst, hlocked, hmove, hacq⟩ probes1 probes2 hm hscan hsl hids,
    fun _ _ _ _ _ probes1 probes2 hmounting hdisc hun hst hlocked hacq hmove hscan hread h1 h2 hset hvid =>
      mountRead_completes_found ⟨hmounting, hdisc, hun, hst, hlocked, hmove, hacq⟩ probes1 probes2 hscan hread h1 h2 hset hvid,
    fun _ _ hst hidle hserves hwait => idleSpindown_completes hst hidle hserves hwait,
    fun _ _ hst hoff hafter hmounted => spindownComplete_completes hst hoff hafter hmounted,
    fun _ _ hst hfault => trayEmpty_completes hst hfault⟩

end Sys2Proof.Proofs
end

section
/-! PROOFS. The moves of the magazine handler (R226, R227, R253 to R257) complete: the proof of the statement about them. -/

namespace Sys2Proof.Proofs

open Sys2Proof Sys2Proof.Machine Sys2Proof.Safety

variable {s : State} {a : AxisNo}

/-! ### The axes of the handler -/

theorem onAxis_axis (s : State) (a : AxisNo) (f : StepAxis → StepAxis) : (s.onAxis a f).hnd.axes[a] = f s.hnd.axes[a] :=
  Vector.getElem_set_self ..

theorem onAxis_axis_other {c : AxisNo} (s : State) (f : StepAxis → StepAxis) (h : c ≠ a) :
    (s.onAxis a f).hnd.axes[c] = s.hnd.axes[c] :=
  Vector.getElem_set_ne a.isLt c.isLt (fun e => h (Fin.ext e.symm))

/-- An operation that changes one axis, and then other parts of the handler, leaves the axis as changed. -/
theorem onAxis_completes {i : Instr} {P : StepAxis → Prop} (f : StepAxis → StepAxis) (g : Handler → Handler)
    (hg : ∀ h : Handler, (g h).axes = h.axes) (hi : exec i s = .next ((s.onAxis a f).onHnd g)) (hP : P (f s.hnd.axes[a])) :
    Completes i s (fun t => P t.hnd.axes[a]) := by
  refine ⟨_, hi, ?_⟩
  change P (g (s.onAxis a f).hnd).axes[a]
  rwa [hg, onAxis_axis]

theorem moving_of_position {x : StepAxis} (h : x.mode = .position) : x.moving = true := by
  simp [StepAxis.moving, h]

/-! ### The orders of the handler (R253 to R255, R257) -/

theorem handlerInterpolatedMove_completes {x z th : Int} (hx : s.axisWithin 0 x = true) (hz : s.axisWithin 1 z = true)
    (hth : s.axisWithin 2 th = true) (hmay : s.mayMove = true) (hhome0 : s.hnd.axes[(0 : AxisNo)].homed = true)
    (hhome1 : s.hnd.axes[(1 : AxisNo)].homed = true) (hhome2 : s.hnd.axes[(2 : AxisNo)].homed = true) :
    Completes (.handlerInterpolatedMove x z th) s (fun t => t.hnd.path
      = planPath s.hnd.xyz #v[x, z, th] #v[s.axisProfile 0, s.axisProfile 1, s.axisProfile 2] false
      ∧ t.hnd.repeatUsed = false) := by
  have hready : (s.mayMove && s.hnd.axes[(0 : AxisNo)].homed && s.hnd.axes[(1 : AxisNo)].homed
      && s.hnd.axes[(2 : AxisNo)].homed) = true := by
    rw [hmay, hhome0, hhome1, hhome2]
    rfl
  refine ⟨(s.startPath x z th false).onHnd (fun h => { h with repeatUsed := false, axisHeld := none }), ?_, rfl, rfl⟩
  change execHandlerInterpolatedMove x z th s = _
  unfold execHandlerInterpolatedMove
  rw [hx, hz, hth, if_neg (by decide)]
  exact if_pos hready

theorem handlerRetarget_completes {x z th : Int} {m : PathMove} (hpath : s.hnd.path = some m) (hx : s.axisWithin 0 x = true)
    (hz : s.axisWithin 1 z = true) (hth : s.axisWithin 2 th = true) :
    Completes (.handlerRetarget x z th) s (fun t => t.hnd.path = some { m with mode := .stopping }
      ∧ t.hnd.pathHeld = some (x, z, th)) := by
  refine ⟨s.onHnd (fun h => { h with path := h.path.map (fun m => { m with mode := .stopping }), pathHeld := some (x, z, th) }),
    ?_, congrArg (Option.map _) hpath, rfl⟩
  change execHandlerRetarget x z th s = _
  unfold execHandlerRetarget
  rw [hpath, hx, hz, hth]
  rfl

theorem handlerAxisMove_completes {x : Int} (hx : s.axisWithin a x = true) (hmay : s.mayMove = true)
    (hhome : s.hnd.axes[a].homed = true) :
    Completes (.handlerAxisMove a x) s (fun t => t.hnd.axes[a] = s.hnd.axes[a].start (s.axisProfile a) x) := by
  refine onAxis_completes (P := (· = _)) (·.start (s.axisProfile a) x)
    (fun h => { h with repeatUsed := false, axisHeld := none }) (fun _ => rfl) ?_ rfl
  change execHandlerAxisMove a x s = _
  unfold execHandlerAxisMove
  rw [hx, hmay, hhome]
  rfl

theorem handlerHome_completes (hmay : s.mayMove = true) (hnext : s.nextHome = some a) :
    Completes .handlerHome s (fun t => t.hnd.axes[a].mode = .home) := by
  refine onAxis_completes (P := (·.mode = .home))
    (·.startHome (s.axisProfile a) (s.axisParam a Param.hndAxisLimitHi + 4000))
    (fun h => { h with repeatUsed := false, axisHeld := none }) (fun _ => rfl) ?_ (startHome_mode ..)
  change execHandlerHome s = _
  unfold execHandlerHome State.startHoming
  rw [hmay, hnext]
  rfl

theorem handlerStandstill_completes (hrest : s.hnd.axes[a].moving = false) (hpath : s.hnd.path = none)
    (hdue : s.hnd.axes[a].standstill = 3) :
    Completes (.handlerStandstill a) s (fun t => t.hnd.axes[a].standstill
      = if s.sys.mode = .ripcord ∧ a = 3 then 2 else s.axisParam a Param.hndAxisStandstill) := by
  refine onAxis_completes (P := (·.standstill = _)) (·.applyStandstill _
      ((s.axisParam a Param.hndAxisHoldDuty : Rat) * s.axisParam a Param.hndAxisRunDuty / 100)
      (s.axisParam a Param.hndAxisStepPitch)) id (fun _ => rfl) ?_ (applyStandstill_standstill ..)
  change execHandlerStandstill a s = _
  unfold execHandlerStandstill
  dsimp only
  rw [hrest, hpath, hdue]
  rfl

/-! ### A period of an axis that moves alone (R226, R256) -/

/-- Driving the bridges changes nothing that a stall is judged by (R256). -/
theorem axisStalls_drive (s : State) (a : AxisNo) (x : StepAxis) (duty : Rat) (pitch : Nat) :
    s.axisStalls a (x.drive duty pitch) = s.axisStalls a x := by
  unfold StepAxis.drive
  split <;> rfl

/-- Axis `a` after one period of its own motion, its bridges at the duty of that motion (R226). -/
def axisAdvanced (s : State) (a : AxisNo) : State := (s.onAxis a (fun x => x.period false)).driveAxis a

theorem axisAdvanced_axis (s : State) (a : AxisNo) : (axisAdvanced s a).hnd.axes[a]
    = (s.hnd.axes[a].period false).drive (s.axisParam a Param.hndAxisRunDuty) (s.axisParam a Param.hndAxisStepPitch) := by
  unfold axisAdvanced State.driveAxis
  rw [onAxis_axis, onAxis_axis]
  rfl

theorem axisAdvanced_axis_other {c : AxisNo} (s : State) (h : c ≠ a) :
    (axisAdvanced s a).hnd.axes[c] = s.hnd.axes[c] :=
  (onAxis_axis_other _ _ h).trans (onAxis_axis_other _ _ h)

theorem axisAdvanced_axisStalls (s : State) (a : AxisNo) :
    (axisAdvanced s a).axisStalls a (axisAdvanced s a).hnd.axes[a] = s.axisStalls a (s.hnd.axes[a].period false) := by
  rw [axisAdvanced_axis, axisStalls_drive]
  rfl

theorem axisPeriod_of_rest (mark : Bool) (h : s.hnd.axes[a].moving = false) : s.axisPeriod a mark = s := by
  unfold State.axisPeriod
  dsimp only
  rw [h]
  rfl

/-- An axis in a position move that does not stall has only advanced. -/
theorem axisPeriod_of_position (mark : Bool) (hmode : s.hnd.axes[a].mode = .position)
    (hnear : s.axisStalls a (s.hnd.axes[a].period false) = false) : s.axisPeriod a mark = axisAdvanced s a := by
  have hstill : (axisAdvanced s a).axisStalls a (axisAdvanced s a).hnd.axes[a] = false :=
    (axisAdvanced_axisStalls s a).trans hnear
  have hhome : s.hnd.axes[a].mode ≠ .home := fun h => nomatch hmode.symm.trans h
  unfold axisAdvanced at hstill
  unfold State.axisPeriod axisAdvanced
  dsimp only
  rw [moving_of_position hmode, hstill, if_neg (by decide), if_neg (fun h => hhome h.1), if_neg (fun h => hhome h.1),
    Bool.and_false]
  rfl

/-- A period of axes at rest leaves the state as it is. -/
theorem foldl_axisPeriod_of_rest (marks : Vector Bool 4) {cs : List AxisNo} (h : ∀ c ∈ cs, s.hnd.axes[c].moving = false) :
    cs.foldl (fun t c => t.axisPeriod c marks[c]) s = s := by
  induction cs with
  | nil => rfl
  | cons c cs ih =>
    rw [List.foldl_cons, axisPeriod_of_rest _ (h c List.mem_cons_self), ih fun d hd => h d (List.mem_cons_of_mem _ hd)]

/-- Of the axes, in their order, only the one that moves advances in a period. -/
theorem foldl_axisPeriod_of_position (marks : Vector Bool 4) (hmode : s.hnd.axes[a].mode = .position)
    (hrest : ∀ c : AxisNo, c ≠ a → s.hnd.axes[c].moving = false)
    (hnear : s.axisStalls a (s.hnd.axes[a].period false) = false) :
    (List.finRange 4).foldl (fun t c => t.axisPeriod c marks[c]) s = axisAdvanced s a := by
  obtain ⟨before, after, hsplit⟩ := List.append_of_mem (List.mem_finRange a)
  have hnodup : (before ++ a :: after).Nodup := hsplit ▸ List.nodup_finRange 4
  obtain ⟨hbefore, hafter⟩ : a ∉ before ∧ a ∉ after := by simpa using (List.nodup_middle.1 hnodup).notMem
  rw [hsplit, List.foldl_append, List.foldl_cons,
    foldl_axisPeriod_of_rest marks fun c hc => hrest c (ne_of_mem_of_not_mem hc hbefore),
    axisPeriod_of_position _ hmode hnear]
  refine foldl_axisPeriod_of_rest marks fun c hc => ?_
  have hne := ne_of_mem_of_not_mem hc hafter
  rw [axisAdvanced_axis_other s hne]
  exact hrest c hne

theorem pathPeriod_of_no_path (h : s.hnd.path = none) : s.pathPeriod = s := by
  unfold State.pathPeriod
  rw [h]

theorem repeatStalled_of_not_due (h : s.hnd.repeatDue = false) : s.repeatStalled = s := by
  unfold State.repeatStalled
  rw [h]
  rfl

theorem handlerPwmPeriod_completes (marks : Vector Bool 4) (hpath : s.hnd.path = none) (hdue : s.hnd.repeatDue = false)
    (hmode : s.hnd.axes[a].mode = .position) (hrest : ∀ c : AxisNo, c ≠ a → s.hnd.axes[c].moving = false)
    (hnear : s.axisStalls a (s.hnd.axes[a].period false) = false) :
    Completes (.handlerPwmPeriod marks) s (fun t => t.hnd.axes[a]
      = (s.hnd.axes[a].period false).drive (s.axisParam a Param.hndAxisRunDuty) (s.axisParam a Param.hndAxisStepPitch)) := by
  refine ⟨axisAdvanced s a, ?_, axisAdvanced_axis s a⟩
  change execHandlerPwmPeriod marks s = _
  unfold execHandlerPwmPeriod
  dsimp only
  rw [pathPeriod_of_no_path hpath, foldl_axisPeriod_of_position marks hmode hrest hnear]
  exact congrArg Host.Outcome.next (repeatStalled_of_not_due hdue)

/-- Settles O14: an order that is taken changes the path or its one axis by what it asks, and a period finds no other axis in
motion and nothing to repeat (R256). -/
theorem handlerMovesComplete : Obligations.HandlerMovesComplete := by
  unfold Obligations.HandlerMovesComplete
  exact ⟨fun _ _ _ _ hx hz hth hmay hhome0 hhome1 hhome2 =>
      handlerInterpolatedMove_completes hx hz hth hmay hhome0 hhome1 hhome2,
    fun _ _ _ _ _ hpath hx hz hth => handlerRetarget_completes hpath hx hz hth,
    fun _ _ _ hx hmay hhome => handlerAxisMove_completes hx hmay hhome,
    fun _ _ hmay hnext => handlerHome_completes hmay hnext,
    fun _ _ hpath hdue hmode hrest hnear => handlerPwmPeriod_completes _ hpath hdue hmode hrest hnear,
    fun _ _ hrest hpath hdue => handlerStandstill_completes hrest hpath hdue⟩

end Sys2Proof.Proofs
end

section
/-! PROOFS. The requests about volumes (R310 to R313) complete: the proof of the statement about them. -/

namespace Sys2Proof.Proofs

open Sys2Proof Sys2Proof.Machine Sys2Proof.Safety Sys2Proof.Laws

/-! ### The volume table (R310) -/

/-- A volume put into the table is the one found under its ID, where the table had none of that ID. -/
theorem find?_putVol {vs : List Volume} {v : Volume} (h : vs.find? (fun x => decide (x.vid = v.vid)) = none) :
    (putVol vs v).find? (fun x => decide (x.vid = v.vid)) = some v := by
  induction vs with
  | nil => simp [putVol]
  | cons x rest ih =>
    have hx : x.vid ≠ v.vid := by simpa using List.find?_eq_none.1 h x List.mem_cons_self
    have hrest : rest.find? (fun x => decide (x.vid = v.vid)) = none := by simpa [hx] using h
    unfold putVol
    split
    · simp
    · rw [if_neg (Ne.symm hx), List.find?_cons_of_neg (by simpa using hx)]
      exact ih hrest

/-- A change of the first element that a test finds is found by the test, where the element still passes it. -/
theorem find?_updateFirst {α : Type} {p : α → Bool} {f : α → α} {a : α} {xs : List α} (h : xs.find? p = some a)
    (hf : p (f a) = true) : (updateFirst p f xs).find? p = some (f a) := by
  induction xs with
  | nil => cases h
  | cons x xs ih =>
    unfold updateFirst
    by_cases hx : p x = true
    · obtain rfl : x = a := by simpa [hx] using h
      rw [if_pos hx, List.find?_cons_of_pos hf]
    · rw [if_neg hx, List.find?_cons_of_neg hx]
      exact ih (by simpa [hx] using h)

section
variable {s t : State}

theorem vol?_of_vols (h : t.vols = s.vols) (vid : VolId) : t.vol? vid = s.vol? vid := by
  unfold State.vol?
  rw [h]

@[simp] theorem saveAll_vols (s : State) : s.saveAll.vols = s.vols := by
  unfold State.saveAll
  dsimp only
  split <;> rfl

@[simp] theorem tellVol_vols (s : State) (vid : VolId) : (s.tellVol vid).vols = s.vols := by
  unfold State.tellVol
  split
  · rfl
  · split
    · rw [sendAbout_vols]
    · rfl

/-- A volume whose record is saved, and told to a live peer, before the request is answered is the one found. -/
theorem vol?_saved (s : State) (vid : VolId) (p : Port) (st : Byte) (rs bs : List Byte) :
    ((s.saveAll.tellVol vid).respond p st rs bs).vol? vid = s.vol? vid :=
  vol?_of_vols (by rw [respond_vols, tellVol_vols, saveAll_vols]) vid

/-- A volume put into the table is found, where no volume had its ID. -/
theorem vol?_putVol {v : Volume} (h : s.vol? v.vid = none) : ({ s with vols := putVol s.vols v } : State).vol? v.vid = some v :=
  find?_putVol h

/-- A volume that changes under its ID is found as it has become. -/
theorem vol?_onVol {vid : VolId} {v : Volume} {f : Volume → Volume} (h : s.vol? vid = some v) (hf : (f v).vid = vid) :
    (s.onVol vid f).vol? vid = some (f v) :=
  find?_updateFirst h (decide_eq_true hf)

/-- A volume whose binding is removed is not found. -/
theorem vol?_removeVolume (s : State) (vid : VolId) : (s.removeVolume vid).vol? vid = none := by
  unfold State.vol? State.removeVolume
  dsimp only
  rw [saveAll_vols]
  unfold State.unbind State.saveVols
  rw [onStg_vols]
  simp

end

/-! ### Create and Delete Volume (R310) -/

section
variable {s : State} {p : Port}

/-- A request that meets none of the refusals binds its volume under its ID (R310). -/
theorem createVolume_completes (h : accepts s p 0x110 = true) (hmod : createModify s.ports[p].mbx.req = false)
    (hfree : s.vol? (mbxTarget s.ports[p].mbx.req) = none) (h0 : mbxTarget s.ports[p].mbx.req ≠ 0)
    (hf : mbxTarget s.ports[p].mbx.req ≠ 0xFFFF) (hslot : ∀ v ∈ s.vols, v.slot ≠ createSlot s.ports[p].mbx.req)
    (hmax : (createSlot s.ports[p].mbx.req).toNat ≤ 0x3FF) (hcode : (createCode s.ports[p].mbx.req).toNat ≤ 3)
    (hroom : s.vols.length < Config.maxVolumes) :
    Completes (.createVolume p) s (fun t => answered t p 0x00
      ∧ t.vol? (mbxTarget s.ports[p].mbx.req) = some (newVolume (mbxTarget s.ports[p].mbx.req) (createSlot s.ports[p].mbx.req)
          (createCode s.ports[p].mbx.req))) := by
  refine ⟨_, rfl, ?_⟩
  have hnone : (noted s p).vol? (mbxTarget s.ports[p].mbx.req) = none := hfree
  have hbound : (noted s p).vols.any (fun v => decide (v.slot = createSlot s.ports[p].mbx.req)) = false := by
    simpa [noted] using hslot
  have hlen : ¬ Config.maxVolumes ≤ (noted s p).vols.length := not_le.2 hroom
  rw [serve_whole h rfl (by rw [hmod]; rfl)]
  dsimp only
  rw [hnone, hbound, decide_eq_false (not_or.2 ⟨h0, hf⟩), decide_eq_false (not_lt.2 hmax), decide_eq_false (not_lt.2 hcode),
    decide_eq_false hlen, if_neg (by decide)]
  refine ⟨answered_respond _ _ _ _ _, ?_⟩
  rw [vol?_saved]
  exact vol?_putVol (v := newVolume _ _ _) hnone

/-- Of a volume that exists the durability changes alone (R310). -/
theorem modifyDurability_completes {v : Volume} (h : accepts s p 0x110 = true) (hmod : createModify s.ports[p].mbx.req = true)
    (hv : s.vol? (mbxTarget s.ports[p].mbx.req) = some v) (hcode : (createCode s.ports[p].mbx.req).toNat ≤ 3) :
    Completes (.modifyDurability p) s (fun t => answered t p 0x00
      ∧ t.vol? (mbxTarget s.ports[p].mbx.req) = some { v with durability := createCode s.ports[p].mbx.req }) := by
  refine ⟨_, rfl, ?_⟩
  have hsome : (noted s p).vol? (mbxTarget s.ports[p].mbx.req) = some v := hv
  have hvid : v.vid = mbxTarget s.ports[p].mbx.req := by simpa using List.find?_some hv
  rw [serve_whole h rfl hmod]
  dsimp only
  rw [hsome, Option.isNone_some, if_neg Bool.false_ne_true, if_neg (not_lt.2 hcode)]
  refine ⟨answered_respond _ _ _ _ _, ?_⟩
  rw [vol?_saved]
  exact vol?_onVol hsome hvid

/-- An accepted request is not in progress. -/
theorem run_of_accepts {op : Nat} (h : accepts s p op = true) : s.ports[p].mbx.run = none := by
  simp only [accepts, Bool.and_eq_true] at h
  obtain ⟨⟨⟨⟨-, hrun⟩, -⟩, -⟩, -⟩ := h
  exact Option.isNone_iff_eq_none.1 hrun

/-- The delete of a volume with nothing undestaged removes its binding, whether its data may be discarded or not. -/
theorem deleteNow_of_destaged {vid : VolId} {discard : Bool} (h : s.undestaged vid = false) :
    s.deleteNow vid discard = (s.removeVolume vid, 0x00) := by
  rw [State.deleteNow, h, Bool.false_and, if_neg Bool.false_ne_true]

/-- A volume that is not mounted is deleted at once (R310). -/
theorem deleteVolume_completes (h : accepts s p 0x111 = true) (hv : (s.vol? (mbxTarget s.ports[p].mbx.req)).isSome = true)
    (hdata : s.undestaged (mbxTarget s.ports[p].mbx.req) = false) (hhome : s.mountedIn (mbxTarget s.ports[p].mbx.req) = none) :
    Completes (.deleteVolume p) s (fun t => answered t p 0x00 ∧ t.vol? (mbxTarget s.ports[p].mbx.req) = none) := by
  refine ⟨_, rfl, ?_⟩
  have hbound : ((noted s p).vol? (mbxTarget s.ports[p].mbx.req)).isNone = false := by
    rw [← Option.not_isSome]
    exact congrArg (!·) hv
  have hclean : (noted s p).undestaged (mbxTarget s.ports[p].mbx.req) = false := hdata
  have hout : (noted s p).mountedIn (mbxTarget s.ports[p].mbx.req) = none := hhome
  rw [run_of_accepts h]
  dsimp only
  rw [serve_whole h rfl rfl]
  rw [hbound, hclean, Bool.false_and, if_neg Bool.false_ne_true, if_neg Bool.false_ne_true, hout, deleteNow_of_destaged hclean]
  refine ⟨answered_respond _ _ _ _ _, ?_⟩
  rw [vol?_of_vols (respond_vols ..), vol?_removeVolume]

end

/-! ### Format (R311) -/

/-- Set 1 is due at the bay of a Format's disc, as its waiting request has asked. -/
theorem format_completes {s : State} {p : Port} {run : MbxRun} {vid : VolId} {remap : Bool} {b : BayNo} {d : Disc} (r : Bool)
    (hrun : s.ports[p].mbx.run = some run) (hwait : run.wait = .format vid false remap) (hserve : s.sys.mode.serving = true)
    (hbay : s.mountedIn vid = some b) (hst : s.bays[b].seq.st = .ready) (hdue : s.bays[b].wp.mgmtDue = none)
    (hun : s.bays[b].seq.unmounting = none) (hdisc : s.bays[b].seq.disc = some d) (hset : d.mgmt = none)
    (hgeo : s.bays[b].rc.geometryFailed = false) :
    Completes (.format p r) s (fun t => t.bays[b].wp.mgmtDue = some (.format remap (some p)) ∧ t.ports[p].mbx.run = some run) := by
  have hat : s.formatAt p b false remap r = s.onWp b (fun w => { w with mgmtDue := some (.format remap (some p)) }) := by
    unfold State.formatAt
    dsimp only
    rw [hdisc, Option.bind_some, hset, hgeo]
    rfl
  refine ⟨s.formatAt p b false remap r, ?_, ?_⟩
  · change execFormat p r s = _
    unfold execFormat
    dsimp only
    rw [hrun]
    dsimp only
    rw [hwait]
    dsimp only
    rw [if_pos hserve, hbay]
    exact congrArg Host.Outcome.next (if_pos ⟨hst, hdue, hun⟩)
  · rw [hat]
    exact ⟨by simp, by rw [onWp_ports, hrun]⟩

/-! ### Sanitize (R312, R313) -/

@[simp] theorem endUnstarted_sys (s : State) (which : Cmd → Bool) (status : Byte) : (s.endUnstarted which status).sys = s.sys := by
  unfold State.endUnstarted
  exact List.foldlRecOn (motive := fun t => t.sys = s.sys) _ _ rfl (fun (t : State) ht c _ => by rw [complete_sys, ht])

theorem setProgress_sys (s : State) (q : Progress) : (s.setProgress q).sys = { s.sys with progress := q } := rfl

theorem beginRun_sys (s : State) (p : Port) (w : MbxWait) : (s.beginRun p w).sys = s.sys := rfl

/-- A Sanitize that may discard enters SANITIZE from its mode, with a step for each die and one for DRAM (R312, R313). -/
theorem sanitize_completes {s : State} {p : Port} (h : accepts s p 0x113 = true)
    (hmode : s.sys.mode = .standalone ∨ s.sys.mode = .paired)
    (haction : mbxPay s.ports[p].mbx.req 0 1 = 1 ∨ mbxPay s.ports[p].mbx.req 0 1 = 2)
    (hdiscard : mbxPay s.ports[p].mbx.req 1 1 % 2 = 1) :
    Completes (.sanitize p) s (fun t => t.sys.mode = .sanitize ∧ t.sys.cameFrom = s.sys.mode ∧ t.sys.progress.op = 2
      ∧ t.sys.progress.total = s.stg.dies.length + 1) := by
  refine ⟨_, rfl, ?_⟩
  have hmay : s.sys.mode.may .sanitize = true := by
    obtain hm | hm := hmode <;> rw [hm] <;> rfl
  have hgo : ¬((mbxPay s.ports[p].mbx.req 0 1 ≠ 1 ∧ mbxPay s.ports[p].mbx.req 0 1 ≠ 2) ∨ false = true) :=
    not_or.2 ⟨by omega, Bool.false_ne_true⟩
  rw [serve_whole h rfl rfl]
  dsimp only
  rw [decide_eq_true hdiscard, Bool.not_true, Bool.and_false, if_neg hgo, endUnstarted_sys,
    setMode_sys (by rw [onSys_sys, setProgress_sys, beginRun_sys]; exact hmay) rfl]
  exact ⟨rfl, rfl, rfl, rfl⟩

/-- A step that is not the last moves the steps of the progress record on by 1 (R313). -/
theorem sanitizeStepDone_completes {s : State} (hmode : s.sys.mode = .sanitize) (hop : s.sys.progress.op = 2)
    (hmore : s.sys.progress.steps + 1 < s.sys.progress.total) :
    Completes .sanitizeStepDone s (fun t => t.sys.progress = { s.sys.progress with steps := s.sys.progress.steps + 1 }) := by
  have hgo : ¬(s.sys.mode ≠ .sanitize ∨ s.sys.progress.op ≠ 2) := not_or.2 ⟨not_not.2 hmode, not_not.2 hop⟩
  exact ⟨_, (if_neg hgo).trans (if_neg (not_le.2 hmore)), rfl⟩

/-- Settles O12: each request finds the volume table or the device as its own refusals leave it, and nothing that it does afterwards
(its records saved, a peer told, its commands ended) changes the table or the mode again. -/
theorem volumeRequestsComplete : Obligations.VolumeRequestsComplete := by
  unfold Obligations.VolumeRequestsComplete
  exact ⟨fun _ _ h hmod hfree h0 hf hslot hmax hcode hroom => createVolume_completes h hmod hfree h0 hf hslot hmax hcode hroom,
    fun _ _ _ h hmod hv hcode => modifyDurability_completes h hmod hv hcode,
    fun _ _ h hv hdata hhome => deleteVolume_completes h hv hdata hhome,
    fun _ _ _ _ _ _ _ r hrun hwait _ hserve hbay hst hdue hun hdisc hset hgeo =>
      format_completes r hrun hwait hserve hbay hst hdue hun hdisc hset hgeo,
    fun _ _ h hmode haction hdiscard => sanitize_completes h hmode haction hdiscard,
    fun _ hmode hop hmore => sanitizeStepDone_completes hmode hop hmore⟩

end Sys2Proof.Proofs
end

section
/-! PROOFS. The register rows of a port (R275, R421, R423, R424, R451, R455, R458 to R460), and the host commands beside them (R276, R278, R284, R386), complete: the proof of the statement about them. -/

namespace Sys2Proof.Proofs

open Sys2Proof Sys2Proof.Machine Sys2Proof.Safety Sys2Proof.Laws

variable {s : State} {p : Port}

/-! ### Units of the state under their own update -/

theorem onPort_port (s : State) (p : Port) (f : PortState → PortState) : (s.onPort p f).ports[p] = f s.ports[p] :=
  onPort_same s p f

theorem onRing_ring (s : State) (p : Port) (f : EvRing → EvRing) : (s.onRing p f).ports[p].ring = f s.ports[p].ring :=
  congrArg PortState.ring (onPort_port s p _)

theorem onQueue_queue (s : State) (p : Port) (q : QueueNo) (f : QueuePair → QueuePair) :
    (s.onQueue p q f).ports[p].queues[q] = f s.ports[p].queues[q] := by
  simp

theorem onCell_cell (s : State) (c : Fin 64) (f : BridleCell → BridleCell) : (s.onCell c f).bridle[c] = f s.bridle[c] := by
  simp [State.onCell]

/-- A port that answers is in no device that is OFF (R451). -/
theorem on_of_answers (h : s.answers p = true) : s.sys.mode ≠ .off := by
  simp only [State.answers, Bool.and_eq_true, decide_eq_true_eq] at h
  exact h.1

/-- A command that a port which answers serves by `u` completes in `u`. -/
theorem completes_of_answers {i : Instr} {u : State} {P : State → Prop} (h : s.answers p = true)
    (hi : exec i s = .next (if s.answers p then u else s)) (hP : P u) : Completes i s P :=
  ⟨u, hi.trans (congrArg Host.Outcome.next (if_pos h)), hP⟩

/-! ### The event ring (R458) -/

/-- A field of a register is kept whole in a word of its own width. -/
theorem toNat_ofNat_field (v : BitVec 64) (lo w : Nat) : (BitVec.ofNat w (field v lo w)).toNat = field v lo w := by
  rw [BitVec.toNat_ofNat, Nat.mod_eq_of_lt]
  exact Nat.mod_lt _ (Nat.two_pow_pos w)

/-- A ring that is not enabled starts with a configuration that enables it with 64 to 4,096 entries. -/
theorem writeCfg_of_enable {r : EvRing} {v : BitVec 64} (hoff : r.enabled = false) (hen : v.getLsbD 31 = true)
    (hlow : 64 ≤ field v 0 13) (hhigh : field v 0 13 ≤ 4096) :
    r.writeCfg v = { r with entries := BitVec.ofNat 13 (field v 0 13), enabled := true, head := 0, tail := 0, phase := true } := by
  unfold EvRing.writeCfg
  dsimp only
  rw [hoff, hen, toNat_ofNat_field, decide_eq_true ⟨hlow, hhigh⟩]
  rfl

/-- A ring is enabled with its head and tail 0 and phase 1 (R458). -/
theorem eventRingEnable_completes {v : BitVec 64} (h : s.answers p = true) (hoff : s.ports[p].ring.enabled = false)
    (hen : v.getLsbD 31 = true) (hlow : 64 ≤ field v 0 13) (hhigh : field v 0 13 ≤ 4096) :
    Completes (.eventRingEnable p v) s (fun t => t.ports[p].ring.enabled = true ∧ t.ports[p].ring.head = 0
      ∧ t.ports[p].ring.tail = 0 ∧ t.ports[p].ring.phase = true) := by
  refine completes_of_answers h rfl ?_
  rw [onRing_ring, writeCfg_of_enable hoff hen hlow hhigh]
  exact ⟨rfl, rfl, rfl, rfl⟩

/-- A head within range that releases no more than was posted is taken (R458). -/
theorem eventRingHeadWrite_completes {v : BitVec 12} (h : s.answers p = true) (hon : s.ports[p].ring.enabled = true)
    (hv : v.toNat < s.ports[p].ring.entries.toNat)
    (hposted : (v.toNat + s.ports[p].ring.entries.toNat - s.ports[p].ring.head.toNat) % s.ports[p].ring.entries.toNat
      ≤ s.ports[p].ring.posted) :
    Completes (.eventRingHeadWrite p v) s (fun t => t.ports[p].ring = { s.ports[p].ring with head := v }) := by
  refine completes_of_answers h rfl ?_
  rw [onRing_ring, EvRing.writeHead]
  exact if_pos (by rw [hon, decide_eq_true hv, decide_eq_true hposted]; rfl)

/-! ### The Bridle (R455) -/

/-- The whole read of a free cell claims it, and shows the cell as it was (R455). -/
theorem bridleRead_completes {c : Fin 64} (h : s.answers p = true) (hfree : s.bridle[c].owner = 0) :
    Completes (.bridleRead p c .full false) s (fun t => t.bridle[c] = { owner := ownerCode p, claims := s.bridle[c].claims + 1 }
      ∧ t.out = .regRead p (BitVec.ofNat 64 s.bridle[c].word) :: s.out) := by
  have hread : s.readCell p c = (s.onCell c (fun x => x.claim p)).emit (.regRead p (BitVec.ofNat 64 s.bridle[c].word)) := by
    unfold State.readCell
    dsimp only
    rw [if_pos hfree]
  refine ⟨s.readCell p c, ?_, ?_⟩
  · change execBridleRead p c .full false s = _
    unfold execBridleRead
    rw [h]
    rfl
  · rw [hread]
    exact ⟨onCell_cell s c (fun x => x.claim p), rfl⟩

/-- The owner's write of owner 0 frees the cell and leaves its CLAIMS (R455). -/
theorem bridleWrite_completes {c : Fin 64} {v : BitVec 64} (h : s.answers p = true) (hown : s.bridle[c].owner = ownerCode p)
    (hv : field v 56 8 = 0) :
    Completes (.bridleWrite p c .full v) s (fun t => t.bridle[c] = { s.bridle[c] with owner := 0 }) := by
  refine completes_of_answers h rfl ?_
  rw [State.writeCell, if_pos hown, decide_eq_true hv, AccWidth.reaches, Bool.and_true, if_pos rfl]
  exact onCell_cell s c _

/-! ### The Reel (R423) -/

/-- A change of the event path that leaves the events that wait keeps them (of a servo, here bay 0's, nothing is asked). -/
theorem keepsEvents_onEv {f : EventPath → EventPath} (hf : (f s.ev).raised = s.ev.raised) : KeepsEvents 0 s (s.onEv f) :=
  ⟨by rw [onEv_ev, hf], id⟩

/-- An event raised behind a stretch that keeps the events. -/
theorem raisedSince_raiseAt {t : State} (h : KeepsEvents 0 s t) (hm : t.sys.mode ≠ .off) (e : Ev) (sev : Severity)
    (fs : List PField) : raisedSince s (t.raiseAt e sev fs) e = true :=
  raisedSince_of_keeps h hm (Keeps.refl (fun _ => True) 0 _)

/-- A Reel that records is frozen (R423). -/
theorem reelFreezeBit_completes (h : s.answers p = true) (hreel : s.ev.reelFrozen = false) :
    Completes (.reelFreezeBit p) s (fun t => t.ev.reelFrozen = true ∧ raisedSince s t (.dev .reelFrozen) = true) := by
  refine completes_of_answers h rfl ?_
  rw [State.freezeReel, hreel, if_neg Bool.false_ne_true, raiseDev_eq]
  exact ⟨by rw [raiseAt_ev]; rfl, raisedSince_raiseAt (keepsEvents_onEv rfl) (on_of_answers h) _ _ _⟩

/-- A frozen Reel is thawed (R423). -/
theorem reelThawBit_completes (h : s.answers p = true) (hreel : s.ev.reelFrozen = true) :
    Completes (.reelThawBit p) s (fun t => t.ev.reelFrozen = false ∧ raisedSince s t (.dev .reelThawed) = true) := by
  refine completes_of_answers h rfl ?_
  rw [State.thawReel, hreel, if_pos rfl, raiseDev_eq]
  exact ⟨by rw [raiseAt_ev]; rfl, raisedSince_raiseAt (keepsEvents_onEv rfl) (on_of_answers h) _ _ _⟩

/-! ### Accesses of a wrong size or alignment (R275) -/

/-- A misaligned or odd-sized read ends in Unsupported Request, and such a write is discarded (R275). -/
theorem bar0BadAccess_completes {off : BitVec 16} {n : Nat} (h : s.answers p = true) (hbad : accessOk off n = false) :
    Completes (.bar0BadAccess p true off n) s (fun t => t.out = .unsupported p off :: s.out)
      ∧ Completes (.bar0BadAccess p false off n) s (fun t => t = s) := by
  refine ⟨⟨s.emit (.unsupported p off), ?_, rfl⟩, ⟨s, ?_, rfl⟩⟩
  · change execBar0BadAccess p true off n s = _
    unfold execBar0BadAccess
    rw [h, hbad]
    rfl
  · change execBar0BadAccess p false off n s = _
    unfold execBar0BadAccess
    rw [Bool.not_false, Bool.or_true, if_pos rfl]

/-! ### General register writes (R276, R386, R460) -/

theorem writeBar0_cursor (s : State) (p : Port) (v : BitVec 64) :
    s.writeBar0 p 0x0700 .full v = s.onPort p (fun t => { t with cursor := BitVec.ofNat 13 (field v 0 13) }) := rfl

theorem writeControl_interval (s : State) (v : BitVec 64) :
    s.writeControl 0x048 v = s.onMem (fun m => { m with scrubInterval := BitVec.ofNat 32 (field v 0 32) }) := rfl

theorem registerWrite_cursor_completes (v : BitVec 64) (h : s.answers p = true) :
    Completes (.registerWrite (.bar0 p) 0x0700 .full v) s (fun t => t.ports[p].cursor = BitVec.ofNat 13 (field v 0 13)) :=
  completes_of_answers h (u := s.writeBar0 p 0x0700 .full v) rfl (by rw [writeBar0_cursor, onPort_port])

theorem registerWrite_relaxed_completes (v : BitVec 64) (off : BitVec 16) (h : s.answers p = true) :
    Completes (.registerWrite (.config p .relaxedOrdering) off .full v) s (fun t => t.ports[p].relaxed = v.getLsbD 0) :=
  completes_of_answers h (u := s.writeConfig p .relaxedOrdering (v.getLsbD 0)) rfl (congrArg PortState.relaxed (onPort_port s p _))

theorem registerWrite_interval_completes (v : BitVec 64) (h : s.coresRun = true) :
    Completes (.registerWrite .memctl 0x048 .full v) s (fun t => t.mem.scrubInterval = BitVec.ofNat 32 (field v 0 32)) := by
  refine ⟨s.writeControl 0x048 v, ?_, by rw [writeControl_interval]; rfl⟩
  change execRegisterWrite .memctl 0x048 .full v s = _
  unfold execRegisterWrite
  dsimp only
  rw [h]
  rfl

/-! ### Aggregation and failed reads (R278, R284) -/

/-- The records that the aggregation held back are signalled (R284). -/
theorem aggregationTimer_completes {q : QueueNo} (h : 0 < s.ports[p].queues[q].unsignalled) :
    Completes (.aggregationTimer p q) s (fun t => t.ports[p].queues[q].unsignalled = 0) := by
  refine ⟨s.signalQueue p q, congrArg Host.Outcome.next (if_pos h), ?_⟩
  exact congrArg QueuePair.unsignalled (onQueue_queue _ p q _)

/-- The state in which a pair is halted, before its events (R278). -/
def pairHalted (s : State) (p : Port) (q : QueueNo) : State := (s.freeInt 6).2.onQueue p q (fun x => { x with halted := true })

theorem pairHalted_keepsEvents (s : State) (p : Port) (q : QueueNo) : KeepsEvents 0 s (pairHalted s p q) :=
  ((Keeps.refl _ 0 s).frame (hide_freeInt (by simp))).frame (hide_onQueue (by simp))

theorem haltQueue_eq (s : State) (p : Port) (q : QueueNo) :
    s.haltQueue p q = ((pairHalted s p q).raisePort p .queueHalted [.u8 q.val]).raisePort p .dmaError
      [.u8 q.val, .u16 ((s.freeInt 6).1.toNat % 65536)] := rfl

/-- A pair whose record could not be read is halted, and both events are raised (R278). -/
theorem haltQueue_halts (hm : s.sys.mode ≠ .off) (q : QueueNo) :
    (s.haltQueue p q).ports[p].queues[q].halted = true ∧ raisedSince s (s.haltQueue p q) (.port p .queueHalted) = true
      ∧ raisedSince s (s.haltQueue p q) (.port p .dmaError) = true := by
  have hkeeps := pairHalted_keepsEvents s p q
  have blind : TailBlind (fun _ => True) := fun _ _ => id
  rw [haltQueue_eq, raisePort_eq, raisePort_eq]
  refine ⟨?_, raisedSince_of_keeps hkeeps hm ((Keeps.refl _ 0 _).raiseAt blind),
    raisedSince_raiseAt (hkeeps.raiseAt blind) ?_ _ _ _⟩
  · simp [pairHalted]
  · rw [raiseAt_sys]
    exact hm

/-- A failed read of a submission record halts its pair (R278). -/
theorem hostReadError_completes {q : QueueNo} (e : DmaErr) (hm : s.sys.mode ≠ .off) (hon : s.ports[p].queues[q].enabled = true)
    (hrun : s.ports[p].queues[q].halted = false) :
    Completes (.hostReadError p (.record q) e) s (fun t => t.ports[p].queues[q].halted = true
      ∧ raisedSince s t (.port p .queueHalted) = true ∧ raisedSince s t (.port p .dmaError) = true) := by
  refine ⟨s.haltQueue p q, ?_, haltQueue_halts hm q⟩
  change execHostReadError p (.record q) e s = _
  unfold execHostReadError
  dsimp only
  rw [hon, hrun]
  rfl

/-- Settles O6: a port that answers serves each row by one change of the unit that the row names, and the events of the Reel and
of a halted pair are raised behind changes that leave the events that wait. -/
theorem portRegistersComplete : Obligations.PortRegistersComplete := by
  unfold Obligations.PortRegistersComplete
  exact ⟨fun _ _ _ h hoff hen hlow hhigh => eventRingEnable_completes h hoff hen hlow hhigh,
    fun s p h => completes_of_answers h rfl (onRing_ring s p _),
    fun _ _ _ h hon hv hposted => eventRingHeadWrite_completes h hon hv hposted,
    fun _ _ _ h hfree => bridleRead_completes h hfree,
    fun _ _ _ _ h hown hv => bridleWrite_completes h hown hv,
    fun s p _ _ h => completes_of_answers h rfl (congrArg PortState.alarm (onPort_port s p _)),
    fun _ _ h hreel => reelFreezeBit_completes h hreel,
    fun _ _ h hreel => reelThawBit_completes h hreel,
    fun s p h => completes_of_answers h rfl (congrArg PortState.cursor (onPort_port _ p _)),
    fun _ _ _ _ h hbad => bar0BadAccess_completes h hbad,
    fun _ _ v h => registerWrite_cursor_completes v h,
    fun _ _ v off h => registerWrite_relaxed_completes v off h,
    fun _ v h => registerWrite_interval_completes v h,
    fun _ _ _ h => aggregationTimer_completes h,
    fun _ _ _ e hm hon hrun => hostReadError_completes e hm hon hrun⟩

end Sys2Proof.Proofs
end

section
/-! PROOFS. What each command leaves unchanged: the proofs of the statements about the frames. Each command's meaning has its lemma in the laws; a frame is settled once its list holds the parts that the lemma asks for. -/

-- Proofs one after another: many small ones at once would each take a thread's stack.
set_option Elab.async false

namespace Sys2Proof.Proofs

open Sys2Proof Sys2Proof.Machine Sys2Proof.Safety Sys2Proof.Laws

/-! ### Membership in the lists the frames are written with -/

@[simp] theorem mem_alarms {x : Part} : x ∈ alarms ↔ x = .raised ∨ ∃ p, .alarm p = x := by
  simp [alarms, mem_both]

@[simp] theorem mem_completions {x : Part} :
    x ∈ completions ↔ x = .cmds ∨ x = .pair ∨ x = .stg ∨ x = .out ∨ (∃ p, .queues p = x) ∨ ∃ p, .msix p = x := by
  simp [completions, mem_both, or_assoc]

@[simp] theorem mem_answers {p : Port} {x : Part} :
    x ∈ answers p ↔ x = .sys ∨ x = .mbx p ∨ x = .queues p ∨ x = .msix p ∨ x = .out := by
  simp [answers]

@[simp] theorem mem_heads {x : Part} :
    x ∈ heads ↔ (∃ b, .afe b = x) ∨ (∃ b, .wp b = x) ∨ (∃ b, .srv b = x) ∨ ∃ b, .seq b = x := by
  simp [heads, mem_every]

@[simp] theorem mem_spins {x : Part} : x ∈ spins ↔ (∃ b, .rc b = x) ∨ (∃ b, .spn b = x) ∨ ∃ b, .sld b = x := by
  simp [spins, mem_every]

@[simp] theorem mem_halting {b : BayNo} {x : Part} :
    x ∈ halting b ↔ x = .sys ∨ x = .afe b ∨ x = .wp b ∨ x = .srv b ∨ x = .seq b ∨ x = .pair ∨ x = .out := by
  simp [halting]

@[simp] theorem mem_handling {x : Part} :
    x ∈ handling ↔ x ∈ alarms ∨ x ∈ completions ∨ x ∈ heads ∨ x = .sys ∨ x = .hnd ∨ ∃ p, .mbx p = x := by
  simp [handling, mem_both, -mem_alarms, -mem_completions, -mem_heads]

@[simp] theorem mem_moding {x : Part} : x ∈ moding ↔ x ∈ handling ∨ x = .mode ∨ x = .ev := by
  simp [moding, -mem_handling]

@[simp] theorem mem_everyBay {f : BayNo → Part} {x : Part} : x ∈ every f ↔ ∃ b, f b = x := mem_every

@[simp] theorem mem_bothPorts {f : Port → Part} {x : Part} : x ∈ both f ↔ ∃ p, f p = x := mem_both

/-- A frame is settled by the equation that blanks the parts it lists. -/
theorem unchanged_of_frame {ps qs : List Part} {s t : State} (hf : some qs = some ps) (h : hide qs t = hide qs s) :
    Unchanged ps s t := Option.some.inj hf ▸ unchanged_of_hide h

/-! ### The frames, command by command -/

/-- Settles O44, command by command. -/
theorem portFrames : Obligations.PortFrames := by
  unfold Obligations.PortFrames
  intro i ps s t hf hx
  cases i
  case commandFetch => exact unchanged_of_frame hf (by apply hide_execCommandFetch (hx := hx) <;> simp)
  case commandEligible => exact unchanged_of_frame hf (hide_execCommandEligible (by simp) hx)
  case read => exact unchanged_of_frame hf (by apply hide_execRead (hx := hx) <;> simp)
  case write => exact unchanged_of_frame hf (by apply hide_execWrite (hx := hx) <;> simp)
  case flush => exact unchanged_of_frame hf (by apply hide_execFlush (hx := hx) <;> simp)
  case verify => exact unchanged_of_frame hf (by apply hide_execVerify (hx := hx) <;> simp)
  case cancel => exact unchanged_of_frame hf (by apply hide_execCancel (hx := hx) <;> simp)
  case prefetch => exact unchanged_of_frame hf (by apply hide_execPrefetch (hx := hx) <;> simp)
  case destage => exact unchanged_of_frame hf (by apply hide_execDestage (hx := hx) <;> simp)
  case mount => exact unchanged_of_frame hf (by apply hide_execMount (hx := hx) <;> simp)
  case unmount => exact unchanged_of_frame hf (by apply hide_execUnmount (hx := hx) <;> simp)
  case locate => exact unchanged_of_frame hf (by apply hide_execLocate (hx := hx) <;> simp)
  case mountWaitExpiry => exact unchanged_of_frame hf (by apply hide_execMountWaitExpiry (hx := hx) <;> simp)
  case spaceWaitExpiry => exact unchanged_of_frame hf (by apply hide_execSpaceWaitExpiry (hx := hx) <;> simp)
  case aggregationTimer => exact unchanged_of_frame hf (hide_execAggregationTimer (by simp) (by simp) (by simp) hx)
  case hostReadError => exact unchanged_of_frame hf (by apply hide_execHostReadError (hx := hx) <;> simp)
  case d3hotEntry => exact unchanged_of_frame hf (hide_execD3hotEntry (by simp) (by simp) (by simp) hx)
  case d0Return => exact unchanged_of_frame hf (by apply hide_execD0Return (hx := hx) <;> simp)
  case portLinkUp => exact unchanged_of_frame hf (hide_execPortLinkUp (by simp) (by simp) (by simp) hx)
  case portLinkDown => exact unchanged_of_frame hf (hide_execPortLinkDown (by simp) (by simp) (by simp) hx)
  case hotReset => exact unchanged_of_frame hf (by apply hide_execHotReset (hx := hx) <;> simp)
  case flr => exact unchanged_of_frame hf (by apply hide_execFlr (hx := hx) <;> simp)
  case fundamentalReset => exact unchanged_of_frame hf (by apply hide_execFundamentalReset (hx := hx) <;> simp)
  case perstRelease => exact unchanged_of_frame hf (hide_execPerstRelease (by simp) hx)
  case reelFreeze => exact unchanged_of_frame hf (by apply hide_execReelFreeze (hx := hx) <;> simp)
  case reelThaw => exact unchanged_of_frame hf (by apply hide_execReelThaw (hx := hx) <;> simp)
  case reelReadBlocks => exact unchanged_of_frame hf (by apply hide_execReelReadBlocks (hx := hx) <;> simp)
  case readDropCounters => exact unchanged_of_frame hf (by apply hide_execReadDropCounters (hx := hx) <;> simp)
  case readClearDropCounters => exact unchanged_of_frame hf (by apply hide_execReadClearDropCounters (hx := hx) <;> simp)
  case tailArm => exact unchanged_of_frame hf (by apply hide_execTailArm (hx := hx) <;> simp)
  case tailRead => exact unchanged_of_frame hf (by apply hide_execTailRead (hx := hx) <;> simp)
  case queueReset => exact unchanged_of_frame hf (by apply hide_execQueueReset (hx := hx) <;> simp)
  case sqTailWrite => exact unchanged_of_frame hf (hide_execSqTailWrite (by simp) (by simp) (by simp) hx)
  case cqHeadWrite => exact unchanged_of_frame hf (hide_execCqHeadWrite (by simp) (by simp) (by simp) hx)
  case queueEnable => exact unchanged_of_frame hf (hide_execQueueEnable (by simp) hx)
  case eventRingEnable => exact unchanged_of_frame hf (hide_execEventRingEnable (by simp) hx)
  case eventRingDisable => exact unchanged_of_frame hf (hide_execEventRingDisable (by simp) hx)
  case eventRingHeadWrite => exact unchanged_of_frame hf (hide_execEventRingHeadWrite (by simp) hx)
  case bridleRead => exact unchanged_of_frame hf (hide_execBridleRead (by simp) (by simp) hx)
  case bridleWrite => exact unchanged_of_frame hf (hide_execBridleWrite (by simp) (by simp) (by simp) hx)
  case alarmClear => exact unchanged_of_frame hf (hide_execAlarmClear (by simp) hx)
  case reelFreezeBit => exact unchanged_of_frame hf (hide_execReelFreezeBit (by simp) (by simp) (by simp) hx)
  case reelThawBit => exact unchanged_of_frame hf (hide_execReelThawBit (by simp) (by simp) (by simp) hx)
  case reelWindowAdvance => exact unchanged_of_frame hf (hide_execReelWindowAdvance (by simp) (by simp) hx)
  case bar0BadAccess => exact unchanged_of_frame hf (hide_execBar0BadAccess (by simp) (by simp) (by simp) hx)
  case registerWrite => exact unchanged_of_frame hf (by apply hide_execRegisterWrite (hx := hx) <;> simp)
  case eventQueueEntry => exact unchanged_of_frame hf (by apply hide_execEventQueueEntry (hx := hx) <;> simp)
  case eventRingCopy => exact unchanged_of_frame hf (by apply hide_execEventRingCopy (hx := hx) <;> simp)
  case aerCorrectable => exact unchanged_of_frame hf (hide_execAerCorrectable (by simp) (by simp) hx)
  case eventVectorTimer => exact unchanged_of_frame hf (by apply hide_execEventVectorTimer (hx := hx) <;> simp)
  all_goals exact absurd hf.symm (Option.some_ne_none ps)

/-- Settles O45, command by command. -/
theorem mailboxFrames : Obligations.MailboxFrames := by
  unfold Obligations.MailboxFrames
  intro i ps s t hf hx
  cases i
  case identify => exact unchanged_of_frame hf (by apply hide_execIdentify (hx := hx) <;> simp)
  case getParameter => exact unchanged_of_frame hf (by apply hide_execGetParameter (hx := hx) <;> simp)
  case setParameter => exact unchanged_of_frame hf (by apply hide_execSetParameter (hx := hx) <;> simp)
  case getLog => exact unchanged_of_frame hf (by apply hide_execGetLog (hx := hx) <;> simp)
  case policySet => exact unchanged_of_frame hf (by apply hide_execPolicySet (hx := hx) <;> simp)
  case createVolume => exact unchanged_of_frame hf (by apply hide_execCreateVolume (hx := hx) <;> simp)
  case modifyDurability => exact unchanged_of_frame hf (by apply hide_execModifyDurability (hx := hx) <;> simp)
  case deleteVolume => exact unchanged_of_frame hf (by apply hide_execDeleteVolume (hx := hx) <;> simp)
  case format => exact unchanged_of_frame hf (by apply hide_execFormat (hx := hx) <;> simp)
  case sanitize => exact unchanged_of_frame hf (by apply hide_execSanitize (hx := hx) <;> simp)
  case sanitizeStepDone => exact unchanged_of_frame hf (by apply hide_execSanitizeStepDone (hx := hx) <;> simp)
  case firmwareDownload => exact unchanged_of_frame hf (by apply hide_execFirmwareDownload (hx := hx) <;> simp)
  case firmwareCommit => exact unchanged_of_frame hf (by apply hide_execFirmwareCommit (hx := hx) <;> simp)
  case commitAndActivate => exact unchanged_of_frame hf (by apply hide_execCommitAndActivate (hx := hx) <;> simp)
  case activateSlot => exact unchanged_of_frame hf (by apply hide_execActivateSlot (hx := hx) <;> simp)
  case heldRequestResume => exact unchanged_of_frame hf (by apply hide_execHeldRequestResume (hx := hx) <;> simp)
  case modeReqCalibrate => exact unchanged_of_frame hf (by apply hide_execModeReqCalibrate (hx := hx) <;> simp)
  case modeReqQuiesce => exact unchanged_of_frame hf (by apply hide_execModeReqQuiesce (hx := hx) <;> simp)
  case modeReqDiagnostic => exact unchanged_of_frame hf (by apply hide_execModeReqDiagnostic (hx := hx) <;> simp)
  case modeReqServe => exact unchanged_of_frame hf (by apply hide_execModeReqServe (hx := hx) <;> simp)
  case calibrationComplete => exact unchanged_of_frame hf (by apply hide_execCalibrationComplete (hx := hx) <;> simp)
  case calReq => exact unchanged_of_frame hf (by apply hide_execCalReq (hx := hx) <;> simp)
  case opcReq => exact unchanged_of_frame hf (by apply hide_execOpcReq (hx := hx) <;> simp)
  case bayReturn => exact unchanged_of_frame hf (by apply hide_execBayReturn (hx := hx) <;> simp)
  case hndReturn => exact unchanged_of_frame hf (by apply hide_execHndReturn (hx := hx) <;> simp)
  case inClear => exact unchanged_of_frame hf (by apply hide_execInClear (hx := hx) <;> simp)
  case stateClear => exact unchanged_of_frame hf (by apply hide_execStateClear (hx := hx) <;> simp)
  case diagLaneLoopback => exact unchanged_of_frame hf (by apply hide_execDiagLaneLoopback (hx := hx) <;> simp)
  case diagDecoders => exact unchanged_of_frame hf (by apply hide_execDiagDecoders (hx := hx) <;> simp)
  case diagDram => exact unchanged_of_frame hf (by apply hide_execDiagDram (hx := hx) <;> simp)
  case diagNand => exact unchanged_of_frame hf (by apply hide_execDiagNand (hx := hx) <;> simp)
  case diagTetherNear => exact unchanged_of_frame hf (by apply hide_execDiagTetherNear (hx := hx) <;> simp)
  case diagTetherFar => exact unchanged_of_frame hf (by apply hide_execDiagTetherFar (hx := hx) <;> simp)
  case diagTestEnd => exact unchanged_of_frame hf (by apply hide_execDiagTestEnd (hx := hx) <;> simp)
  all_goals exact absurd hf.symm (Option.some_ne_none ps)

/-- Settles O46, command by command. -/
theorem powerFrames : Obligations.PowerFrames := by
  unfold Obligations.PowerFrames
  intro i ps s t hf hx
  cases i
  case deviceReset p key => exact unchanged_of_frame hf (by apply hide_execDeviceReset (a0 := p) (hx := hx) <;> simp)
  case powerOnReset c => exact unchanged_of_frame hf (by apply hide_execPowerOnReset (a0 := c) (hx := hx) <;> simp)
  case fillDone => exact unchanged_of_frame hf (by apply hide_execFillDone (hx := hx) <;> simp)
  case bootDone => exact unchanged_of_frame hf (by apply hide_execBootDone (hx := hx) <;> simp)
  case warmFlush => exact unchanged_of_frame hf (by apply hide_execWarmFlush (hx := hx) <;> simp)
  case stagingRecovery => exact unchanged_of_frame hf (by apply hide_execStagingRecovery (hx := hx) <;> simp)
  case pwrfailAssert => exact unchanged_of_frame hf (by apply hide_execPwrfailAssert (hx := hx) <;> simp)
  case ventDone => exact unchanged_of_frame hf (by apply hide_execVentDone (hx := hx) <;> simp)
  case ventResume => exact unchanged_of_frame hf (by apply hide_execVentResume (hx := hx) <;> simp)
  case refclkLoss => exact unchanged_of_frame hf (by apply hide_execRefclkLoss (hx := hx) <;> simp)
  case rootPllLoss => exact unchanged_of_frame hf (by apply hide_execRootPllLoss (hx := hx) <;> simp)
  case ddrPllLoss => exact unchanged_of_frame hf (hide_execDdrPllLoss (by simp) (by simp) (by simp) hx)
  case nandPllLoss => exact unchanged_of_frame hf (hide_execNandPllLoss (by simp) (by simp) (by simp) hx)
  case pciePllLoss => exact unchanged_of_frame hf (by apply hide_execPciePllLoss (hx := hx) <;> simp)
  case tetherPllLoss => exact unchanged_of_frame hf (by apply hide_execTetherPllLoss (hx := hx) <;> simp)
  case watchdogService => exact unchanged_of_frame hf (hide_execWatchdogService (by simp) hx)
  case keelWatchdogExpiry => exact unchanged_of_frame hf (by apply hide_execKeelWatchdogExpiry (hx := hx) <;> simp)
  case lockstepMismatch => exact unchanged_of_frame hf (by apply hide_execLockstepMismatch (hx := hx) <;> simp)
  case ripcordParkEnd => exact unchanged_of_frame hf (hide_execRipcordParkEnd (by simp) hx)
  case ripcordHoldExpiry => exact unchanged_of_frame hf (by apply hide_execRipcordHoldExpiry (hx := hx) <;> simp)
  case engineStall => exact unchanged_of_frame hf (by apply hide_execEngineStall (hx := hx) <;> simp)
  case engineRestart => exact unchanged_of_frame hf (by apply hide_execEngineRestart (hx := hx) <;> simp)
  case activationResume => exact unchanged_of_frame hf (by apply hide_execActivationResume (hx := hx) <;> simp)
  case activationTimeout => exact unchanged_of_frame hf (by apply hide_execActivationTimeout (hx := hx) <;> simp)
  case holdupSample => exact unchanged_of_frame hf (hide_execHoldupSample (by simp) (by simp) (by simp) hx)
  case junctionSample => exact unchanged_of_frame hf (hide_execJunctionSample (by simp) (by simp) (by simp) hx)
  case porstNRelease => exact unchanged_of_frame hf (by apply hide_execPorstNRelease (hx := hx) <;> simp)
  case pllLock => exact unchanged_of_frame hf (by apply hide_execPllLock (hx := hx) <;> simp)
  case smbusTransaction => exact unchanged_of_frame hf (hide_execSmbusTransaction (by simp) hx)
  case jtagTapOperation => exact unchanged_of_frame hf (hide_execJtagTapOperation (by simp) (by simp) hx)
  all_goals exact absurd hf.symm (Option.some_ne_none ps)

/-- Settles O47, command by command. -/
theorem pairFrames : Obligations.PairFrames := by
  unfold Obligations.PairFrames
  intro i ps s t hf hx
  cases i
  case pairJoin => exact unchanged_of_frame hf (by apply hide_execPairJoin (hx := hx) <;> simp)
  case pairLeave => exact unchanged_of_frame hf (by apply hide_execPairLeave (hx := hx) <;> simp)
  case pairLeaveSelf => exact unchanged_of_frame hf (by apply hide_execPairLeaveSelf (hx := hx) <;> simp)
  case pairLeaveForced => exact unchanged_of_frame hf (by apply hide_execPairLeaveForced (hx := hx) <;> simp)
  case moveDisc => exact unchanged_of_frame hf (by apply hide_execMoveDisc (hx := hx) <;> simp)
  case handlerInterpolatedMove => exact unchanged_of_frame hf (hide_execHandlerInterpolatedMove (by simp) (by simp) (by simp) hx)
  case handlerRetarget => exact unchanged_of_frame hf (hide_execHandlerRetarget (by simp) (by simp) (by simp) hx)
  case handlerAxisMove => exact unchanged_of_frame hf (hide_execHandlerAxisMove (by simp) (by simp) (by simp) hx)
  case handlerHome => exact unchanged_of_frame hf (hide_execHandlerHome (by simp) hx)
  case handlerPwmPeriod => exact unchanged_of_frame hf (by apply hide_execHandlerPwmPeriod (hx := hx) <;> simp)
  case moveDiscStepDone => exact unchanged_of_frame hf (by apply hide_execMoveDiscStepDone (hx := hx) <;> simp)
  case handlerStandstill => exact unchanged_of_frame hf (hide_execHandlerStandstill (by simp) hx)
  case inputFilterChange => exact unchanged_of_frame hf (by apply hide_execInputFilterChange (hx := hx) <;> simp)
  case inputQuietEnd => exact unchanged_of_frame hf (hide_execInputQuietEnd (by simp) (by simp) (by simp) hx)
  case inputStuck => exact unchanged_of_frame hf (hide_execInputStuck (by simp) (by simp) (by simp) hx)
  case handlerResume => exact unchanged_of_frame hf (by apply hide_execHandlerResume (hx := hx) <;> simp)
  case handlerStopWaitExpiry => exact unchanged_of_frame hf (by apply hide_execHandlerStopWaitExpiry (hx := hx) <;> simp)
  case ownershipTake => exact unchanged_of_frame hf (hide_execOwnershipTake (by simp) (by simp) (by simp) hx)
  case ownershipConflictRetry => exact unchanged_of_frame hf (hide_execOwnershipConflictRetry (by simp) (by simp) (by simp) hx)
  case encoderQuietWait => exact unchanged_of_frame hf (hide_execEncoderQuietWait (by simp) hx)
  case ownershipRelease => exact unchanged_of_frame hf (by apply hide_execOwnershipRelease (hx := hx) <;> simp)
  case tetherTrainingStart => exact unchanged_of_frame hf (hide_execTetherTrainingStart (by simp) hx)
  case tetherTrainingDone => exact unchanged_of_frame hf (by apply hide_execTetherTrainingDone (hx := hx) <;> simp)
  case tetherTrainingTimeout => exact unchanged_of_frame hf (by apply hide_execTetherTrainingTimeout (hx := hx) <;> simp)
  case flitReceive => exact unchanged_of_frame hf (by apply hide_execFlitReceive (hx := hx) <;> simp)
  case nakReceive => exact unchanged_of_frame hf (hide_execNakReceive (by simp) (by simp) hx)
  case ackTimeout => exact unchanged_of_frame hf (hide_execAckTimeout (by simp) (by simp) hx)
  case heartbeatSend => exact unchanged_of_frame hf (hide_execHeartbeatSend (by simp) (by simp) hx)
  case heartbeatReceive => exact unchanged_of_frame hf (by apply hide_execHeartbeatReceive (hx := hx) <;> simp)
  case heartbeatMissing => exact unchanged_of_frame hf (by apply hide_execHeartbeatMissing (hx := hx) <;> simp)
  case peerOkInChange => exact unchanged_of_frame hf (by apply hide_execPeerOkInChange (hx := hx) <;> simp)
  case brokenWireClear => exact unchanged_of_frame hf (hide_execBrokenWireClear (by simp) hx)
  case takeoverRoleWrite => exact unchanged_of_frame hf (hide_execTakeoverRoleWrite (by simp) (by simp) (by simp) hx)
  case ownershipCommit => exact unchanged_of_frame hf (by apply hide_execOwnershipCommit (hx := hx) <;> simp)
  case forwardResolve => exact unchanged_of_frame hf (by apply hide_execForwardResolve (hx := hx) <;> simp)
  case takeoverDone => exact unchanged_of_frame hf (by apply hide_execTakeoverDone (hx := hx) <;> simp)
  case darkWaitExpiry => exact unchanged_of_frame hf (hide_execDarkWaitExpiry (by simp) hx)
  case mirrorData => exact unchanged_of_frame hf (by apply hide_execMirrorData (hx := hx) <;> simp)
  case mirrorCommit => exact unchanged_of_frame hf (by apply hide_execMirrorCommit (hx := hx) <;> simp)
  case mirrorRelease => exact unchanged_of_frame hf (by apply hide_execMirrorRelease (hx := hx) <;> simp)
  case volumeState => exact unchanged_of_frame hf (by apply hide_execVolumeState (hx := hx) <;> simp)
  case forwardedCommand => exact unchanged_of_frame hf (by apply hide_execForwardedCommand (hx := hx) <;> simp)
  case forwardedCompletion => exact unchanged_of_frame hf (by apply hide_execForwardedCompletion (hx := hx) <;> simp)
  case tetherResyncEnd => exact unchanged_of_frame hf (by apply hide_execTetherResyncEnd (hx := hx) <;> simp)
  case pairResyncProgress => exact unchanged_of_frame hf (hide_execPairResyncProgress (by simp) (by simp) hx)
  case joinResyncEnd => exact unchanged_of_frame hf (by apply hide_execJoinResyncEnd (hx := hx) <;> simp)
  case rejoin => exact unchanged_of_frame hf (by apply hide_execRejoin (hx := hx) <;> simp)
  case handback => exact unchanged_of_frame hf (by apply hide_execHandback (hx := hx) <;> simp)
  all_goals exact absurd hf.symm (Option.some_ne_none ps)

/-- Settles O48, command by command. -/
theorem headFrames : Obligations.HeadFrames := by
  unfold Obligations.HeadFrames
  intro i ps s t hf hx
  cases i
  case receiverFault => exact unchanged_of_frame hf (by apply hide_execReceiverFault (hx := hx) <;> simp)
  case reliefSubstitution => exact unchanged_of_frame hf (by apply hide_execReliefSubstitution (hx := hx) <;> simp)
  case receiverRetryRun => exact unchanged_of_frame hf (by apply hide_execReceiverRetryRun (hx := hx) <;> simp)
  case headTempSample => exact unchanged_of_frame hf (by apply hide_execHeadTempSample (hx := hx) <;> simp)
  case calSlotOpen => exact unchanged_of_frame hf (hide_execCalSlotOpen (by simp) hx)
  case reliefSettled => exact unchanged_of_frame hf (hide_execReliefSettled (by simp) hx)
  case laneSelectSwitch => exact unchanged_of_frame hf (hide_execLaneSelectSwitch (by simp) (by simp) hx)
  case calMeasurement => exact unchanged_of_frame hf (by apply hide_execCalMeasurement (hx := hx) <;> simp)
  case clusterAcquisition => exact unchanged_of_frame hf (by apply hide_execClusterAcquisition (hx := hx) <;> simp)
  case preambleDetect => exact unchanged_of_frame hf (by apply hide_execPreambleDetect (hx := hx) <;> simp)
  case frameSyncSearch => exact unchanged_of_frame hf (by apply hide_execFrameSyncSearch (hx := hx) <;> simp)
  case timingRange => exact unchanged_of_frame hf (by apply hide_execTimingRange (hx := hx) <;> simp)
  case frameRecordRelease => exact unchanged_of_frame hf (by apply hide_execFrameRecordRelease (hx := hx) <;> simp)
  case clusterEnd => exact unchanged_of_frame hf (by apply hide_execClusterEnd (hx := hx) <;> simp)
  case defectDropout => exact unchanged_of_frame hf (by apply hide_execDefectDropout (hx := hx) <;> simp)
  case sumDefectLong => exact unchanged_of_frame hf (by apply hide_execSumDefectLong (hx := hx) <;> simp)
  case decoderDispatch => exact unchanged_of_frame hf (hide_execDecoderDispatch (by simp) hx)
  case decodeComplete => exact unchanged_of_frame hf (hide_execDecodeComplete (by simp) (by simp) (by simp) hx)
  case collectorAccept => exact unchanged_of_frame hf (by apply hide_execCollectorAccept (hx := hx) <;> simp)
  case outerCodeRun => exact unchanged_of_frame hf (by apply hide_execOuterCodeRun (hx := hx) <;> simp)
  case deliveryDeadline => exact unchanged_of_frame hf (by apply hide_execDeliveryDeadline (hx := hx) <;> simp)
  case ladderStep => exact unchanged_of_frame hf (by apply hide_execLadderStep (hx := hx) <;> simp)
  case updraftStart => exact unchanged_of_frame hf (hide_execUpdraftStart (by simp) hx)
  case writeRunStart => exact unchanged_of_frame hf (by apply hide_execWriteRunStart (hx := hx) <;> simp)
  case ldlFrame => exact unchanged_of_frame hf (by apply hide_execLdlFrame (hx := hx) <;> simp)
  case ldlStatusPoll => exact unchanged_of_frame hf (by apply hide_execLdlStatusPoll (hx := hx) <;> simp)
  case verifyCluster => exact unchanged_of_frame hf (by apply hide_execVerifyCluster (hx := hx) <;> simp)
  case finalVerifyEnd => exact unchanged_of_frame hf (by apply hide_execFinalVerifyEnd (hx := hx) <;> simp)
  case replacementPass => exact unchanged_of_frame hf (by apply hide_execReplacementPass (hx := hx) <;> simp)
  case powerCalibration => exact unchanged_of_frame hf (by apply hide_execPowerCalibration (hx := hx) <;> simp)
  case geometryWrite => exact unchanged_of_frame hf (by apply hide_execGeometryWrite (hx := hx) <;> simp)
  case managementSetWrite => exact unchanged_of_frame hf (by apply hide_execManagementSetWrite (hx := hx) <;> simp)
  case wobbleIndexLoss => exact unchanged_of_frame hf (by apply hide_execWobbleIndexLoss (hx := hx) <;> simp)
  case unverifiedVerifyPass => exact unchanged_of_frame hf (by apply hide_execUnverifiedVerifyPass (hx := hx) <;> simp)
  all_goals exact absurd hf.symm (Option.some_ne_none ps)

/-- Settles O49, command by command. -/
theorem motionFrames : Obligations.MotionFrames := by
  unfold Obligations.MotionFrames
  intro i ps s t hf hx
  cases i
  case wobbleAddressWord => exact unchanged_of_frame hf (by apply hide_execWobbleAddressWord (hx := hx) <;> simp)
  case servoPeriod => exact unchanged_of_frame hf (by apply hide_execServoPeriod (hx := hx) <;> simp)
  case tiltPeriod => exact unchanged_of_frame hf (by apply hide_execTiltPeriod (hx := hx) <;> simp)
  case sledLoopPeriod => exact unchanged_of_frame hf (by apply hide_execSledLoopPeriod (hx := hx) <;> simp)
  case servoDeadlineMiss => exact unchanged_of_frame hf (by apply hide_execServoDeadlineMiss (hx := hx) <;> simp)
  case holdWindowExpiry => exact unchanged_of_frame hf (by apply hide_execHoldWindowExpiry (hx := hx) <;> simp)
  case lullResume => exact unchanged_of_frame hf (hide_execLullResume (by simp) (by simp) (by simp) hx)
  case lullReacquire => exact unchanged_of_frame hf (by apply hide_execLullReacquire (hx := hx) <;> simp)
  case focusAcquisition => exact unchanged_of_frame hf (hide_execFocusAcquisition (by simp) hx)
  case focusSweepEnd => exact unchanged_of_frame hf (by apply hide_execFocusSweepEnd (hx := hx) <;> simp)
  case trackAcquisition => exact unchanged_of_frame hf (hide_execTrackAcquisition (by simp) hx)
  case runoutRevolution => exact unchanged_of_frame hf (by apply hide_execRunoutRevolution (hx := hx) <;> simp)
  case trackAcqTimeout => exact unchanged_of_frame hf (by apply hide_execTrackAcqTimeout (hx := hx) <;> simp)
  case strideJump => exact unchanged_of_frame hf (by apply hide_execStrideJump (hx := hx) <;> simp)
  case strideJumpLate => exact unchanged_of_frame hf (by apply hide_execStrideJumpLate (hx := hx) <;> simp)
  case layerJump => exact unchanged_of_frame hf (by apply hide_execLayerJump (hx := hx) <;> simp)
  case layerJumpWindowEnd => exact unchanged_of_frame hf (by apply hide_execLayerJumpWindowEnd (hx := hx) <;> simp)
  case lensSeek => exact unchanged_of_frame hf (by apply hide_execLensSeek (hx := hx) <;> simp)
  case sledSeek => exact unchanged_of_frame hf (by apply hide_execSledSeek (hx := hx) <;> simp)
  case offsetApply => exact unchanged_of_frame hf (by apply hide_execOffsetApply (hx := hx) <;> simp)
  case characterisationRun => exact unchanged_of_frame hf (hide_execCharacterisationRun (by simp) (by simp) (by simp) hx)
  case pwmPeriod => exact unchanged_of_frame hf (by apply hide_execPwmPeriod (hx := hx) <;> simp)
  case speedLoopPeriod => exact unchanged_of_frame hf (by apply hide_execSpeedLoopPeriod (hx := hx) <;> simp)
  case spindleStartOrder => exact unchanged_of_frame hf (by apply hide_execSpindleStartOrder (hx := hx) <;> simp)
  case startDecision => exact unchanged_of_frame hf (by apply hide_execStartDecision (hx := hx) <;> simp)
  case encoderIndex => exact unchanged_of_frame hf (by apply hide_execEncoderIndex (hx := hx) <;> simp)
  case encoderLoss => exact unchanged_of_frame hf (by apply hide_execEncoderLoss (hx := hx) <;> simp)
  case encoderOverspeed => exact unchanged_of_frame hf (by apply hide_execEncoderOverspeed (hx := hx) <;> simp)
  case drogueTimeout => exact unchanged_of_frame hf (by apply hide_execDrogueTimeout (hx := hx) <;> simp)
  case spinupTimeout => exact unchanged_of_frame hf (by apply hide_execSpinupTimeout (hx := hx) <;> simp)
  case spinDownOrder => exact unchanged_of_frame hf (hide_execSpinDownOrder (by simp) hx)
  case sledPositionMove => exact unchanged_of_frame hf (by apply hide_execSledPositionMove (hx := hx) <;> simp)
  case sledRetarget => exact unchanged_of_frame hf (by apply hide_execSledRetarget (hx := hx) <;> simp)
  case sledHomeMove => exact unchanged_of_frame hf (hide_execSledHomeMove (by simp) hx)
  case sledVelocityCommand => exact unchanged_of_frame hf (hide_execSledVelocityCommand (by simp) hx)
  case sledPwmPeriod => exact unchanged_of_frame hf (by apply hide_execSledPwmPeriod (hx := hx) <;> simp)
  case sledStandstill => exact unchanged_of_frame hf (hide_execSledStandstill (by simp) hx)
  case clampConfirm => exact unchanged_of_frame hf (by apply hide_execClampConfirm (hx := hx) <;> simp)
  case clampTimeout => exact unchanged_of_frame hf (by apply hide_execClampTimeout (hx := hx) <;> simp)
  case trayEmpty => exact unchanged_of_frame hf (by apply hide_execTrayEmpty (hx := hx) <;> simp)
  case idleSpindown => exact unchanged_of_frame hf (by apply hide_execIdleSpindown (hx := hx) <;> simp)
  case spindownComplete => exact unchanged_of_frame hf (by apply hide_execSpindownComplete (hx := hx) <;> simp)
  case mountRead => exact unchanged_of_frame hf (by apply hide_execMountRead (hx := hx) <;> simp)
  case ripcordDiscStopped => exact unchanged_of_frame hf (by apply hide_execRipcordDiscStopped (hx := hx) <;> simp)
  case bayFault => exact unchanged_of_frame hf (by apply hide_execBayFault (hx := hx) <;> simp)
  case remount => exact unchanged_of_frame hf (by apply hide_execRemount (hx := hx) <;> simp)
  case coastWaitExpiry => exact unchanged_of_frame hf (hide_execCoastWaitExpiry (by simp) hx)
  case workChoice => exact unchanged_of_frame hf (by apply hide_execWorkChoice (hx := hx) <;> simp)
  case writeYield => exact unchanged_of_frame hf (hide_execWriteYield (by simp) hx)
  case destageGuarantee => exact unchanged_of_frame hf (hide_execDestageGuarantee (by simp) hx)
  case slowVisit => exact unchanged_of_frame hf (by apply hide_execSlowVisit (hx := hx) <;> simp)
  case encoderEdge => exact unchanged_of_frame hf (by apply hide_execEncoderEdge (hx := hx) <;> simp)
  all_goals exact absurd hf.symm (Option.some_ne_none ps)

/-- Settles O50, command by command. -/
theorem storeFrames : Obligations.StoreFrames := by
  unfold Obligations.StoreFrames
  intro i ps s t hf hx
  cases i
  case cacheInvalidateLine => exact unchanged_of_frame hf (hide_execCacheInvalidateLine (by simp) (by simp) hx)
  case cacheCleanLine => exact unchanged_of_frame hf (hide_execCacheCleanLine (by simp) (by simp) hx)
  case cacheCleanInvalidateLine => exact unchanged_of_frame hf (hide_execCacheCleanInvalidateLine (by simp) (by simp) hx)
  case cacheInvalidateAll => exact unchanged_of_frame hf (hide_execCacheInvalidateAll (by simp) (by simp) hx)
  case cacheCleanAll => exact unchanged_of_frame hf (hide_execCacheCleanAll (by simp) (by simp) hx)
  case cacheCleanInvalidateAll => exact unchanged_of_frame hf (hide_execCacheCleanInvalidateAll (by simp) (by simp) hx)
  case cacheEnable => exact unchanged_of_frame hf (hide_execCacheEnable (by simp) hx)
  case cacheDisable => exact unchanged_of_frame hf (hide_execCacheDisable (by simp) hx)
  case scrubRestart => exact unchanged_of_frame hf (hide_execScrubRestart (by simp) hx)
  case derrPop => exact unchanged_of_frame hf (hide_execDerrPop (by simp) (by simp) hx)
  case cacheErrorsRead => exact unchanged_of_frame hf (hide_execCacheErrorsRead (by simp) (by simp) hx)
  case derrLostRead => exact unchanged_of_frame hf (hide_execDerrLostRead (by simp) (by simp) hx)
  case clusterProgram => exact unchanged_of_frame hf (by apply hide_execClusterProgram (hx := hx) <;> simp)
  case nandCodewordRead => exact unchanged_of_frame hf (by apply hide_execNandCodewordRead (hx := hx) <;> simp)
  case nandOpTimeout => exact unchanged_of_frame hf (by apply hide_execNandOpTimeout (hx := hx) <;> simp)
  case gcCopy => exact unchanged_of_frame hf (by apply hide_execGcCopy (hx := hx) <;> simp)
  case journalPageProgram => exact unchanged_of_frame hf (by apply hide_execJournalPageProgram (hx := hx) <;> simp)
  case blockErase => exact unchanged_of_frame hf (by apply hide_execBlockErase (hx := hx) <;> simp)
  case checkpoint => exact unchanged_of_frame hf (by apply hide_execCheckpoint (hx := hx) <;> simp)
  case retentionTick => exact unchanged_of_frame hf (hide_execRetentionTick (by simp) (by simp) (by simp) hx)
  case zqCalibration => exact unchanged_of_frame hf (hide_execZqCalibration (by simp) (by simp) hx)
  case lunRetire => exact unchanged_of_frame hf (hide_execLunRetire (by simp) hx)
  case dramRead => exact unchanged_of_frame hf (by apply hide_execDramRead (hx := hx) <;> simp)
  case dramPartialWrite => exact unchanged_of_frame hf (by apply hide_execDramPartialWrite (hx := hx) <;> simp)
  case scrubRead => exact unchanged_of_frame hf (by apply hide_execScrubRead (hx := hx) <;> simp)
  case ballastAllocate => exact unchanged_of_frame hf (by apply hide_execBallastAllocate (hx := hx) <;> simp)
  case ballastFree => exact unchanged_of_frame hf (hide_execBallastFree (by simp) (by simp) (by simp) hx)
  case ballastPass => exact unchanged_of_frame hf (hide_execBallastPass (by simp) (by simp) (by simp) hx)
  case tripleWrite => exact unchanged_of_frame hf (hide_execTripleWrite (by simp) (by simp) (by simp) hx)
  case tripleCommit => exact unchanged_of_frame hf (hide_execTripleCommit (by simp) (by simp) (by simp) hx)
  case tripleRead => exact unchanged_of_frame hf (by apply hide_execTripleRead (hx := hx) <;> simp)
  case cacheAccess => exact unchanged_of_frame hf (hide_execCacheAccess (by simp) (by simp) (by simp) hx)
  case cacheFillDone => exact unchanged_of_frame hf (hide_execCacheFillDone (by simp) (by simp) (by simp) hx)
  case cacheWritebackAccept => exact unchanged_of_frame hf (hide_execCacheWritebackAccept (by simp) (by simp) hx)
  all_goals exact absurd hf.symm (Option.some_ne_none ps)

end Sys2Proof.Proofs
end

section
/-! PROOFS. The Ballast pools stay sound (R371 to R376): what taking, freeing and passing buffers, and the traffic
between a pool's ring and its cache, make of the free buffers and the ownership words. -/

-- Proofs one after another: many small ones at once would each take a thread's stack.
set_option Elab.async false

namespace Sys2Proof.Safety

open Sys2Proof Sys2Proof.Machine Sys2Proof.Laws

/-! ### The free ring and its cache (R375) -/

/-- The buffers that the runs of a ring hold. -/
def ringBufs (r : List (Nat × Nat)) : List Nat := r.flatMap (fun x => (List.range x.2).map (x.1 + ·))

@[simp] theorem ringBufs_nil : ringBufs [] = [] := rfl

@[simp] theorem ringBufs_cons (i k : Nat) (r : List (Nat × Nat)) :
    ringBufs ((i, k) :: r) = (List.range k).map (i + ·) ++ ringBufs r := List.flatMap_cons

@[simp] theorem ringBufs_append (r q : List (Nat × Nat)) : ringBufs (r ++ q) = ringBufs r ++ ringBufs q := List.flatMap_append

theorem ringBufs_singles (l : List Nat) : ringBufs (l.map (fun i => (i, 1))) = l := by
  induction l with
  | nil => rfl
  | cons i l ih => rw [List.map_cons, ringBufs_cons, ih]; simp

theorem mem_ringBufs {r : List (Nat × Nat)} {j : Nat} : j ∈ ringBufs r ↔ ∃ x ∈ r, x.1 ≤ j ∧ j < x.1 + x.2 := by
  simp only [ringBufs, List.mem_flatMap, List.mem_map, List.mem_range]
  constructor
  · rintro ⟨x, hx, a, ha, rfl⟩
    exact ⟨x, hx, by omega, by omega⟩
  · rintro ⟨x, hx, hl, hr⟩
    exact ⟨x, hx, j - x.1, by omega, by omega⟩

theorem freeList_eq (b : BallastPool) : freeList b = b.cache ++ ringBufs b.ring := rfl

/-- A run is its first buffer and the run of the others. -/
theorem run_succ (i k : Nat) : (List.range (k + 1)).map (i + ·) = i :: (List.range k).map (i + 1 + ·) := by
  rw [List.range_succ_eq_map, List.map_cons, List.map_map]
  refine congrArg _ (List.map_congr_left fun a _ => ?_)
  simp only [Function.comp_apply]
  omega

/-- Buffers that come from the ring are its first ones, in order. -/
theorem ringTake_append (n : Nat) (r : List (Nat × Nat)) : (ringTake n r).1 ++ ringBufs (ringTake n r).2 = ringBufs r := by
  fun_induction ringTake n r with
  | case1 r => rfl
  | case2 n => rfl
  | case3 n i rest ih => simpa using ih
  | case4 n i k rest hk x ih =>
    obtain ⟨k, rfl⟩ := Nat.exists_eq_succ_of_ne_zero hk
    simp only [ringBufs_cons, run_succ, List.cons_append, List.cons.injEq, true_and]
    rw [ih]
    cases k with
    | zero => rfl
    | succ k => simp

theorem freeList_refill (b : BallastPool) : freeList b.refill = freeList b := by
  unfold BallastPool.refill
  split
  · simp only [freeList_eq, List.append_assoc, ringTake_append]
  · rfl

theorem freeList_spill (b : BallastPool) : (freeList b.spill).Perm (freeList b) := by
  unfold BallastPool.spill
  split
  · rw [freeList_eq, freeList_eq, ringBufs_append, ringBufs_singles, ← List.append_assoc]
    conv_rhs => rw [← List.take_append_drop 16 b.cache, List.append_assoc]
    exact List.perm_append_comm
  · exact .refl _

@[simp] theorem refill_words (b : BallastPool) : b.refill.words = b.words := by unfold BallastPool.refill; split <;> rfl
@[simp] theorem refill_size (b : BallastPool) : b.refill.size = b.size := by unfold BallastPool.refill; split <;> rfl
@[simp] theorem refill_out (b : BallastPool) : b.refill.out = b.out := by unfold BallastPool.refill; split <;> rfl
@[simp] theorem spill_words (b : BallastPool) : b.spill.words = b.words := by unfold BallastPool.spill; split <;> rfl
@[simp] theorem spill_size (b : BallastPool) : b.spill.size = b.size := by unfold BallastPool.spill; split <;> rfl
@[simp] theorem spill_out (b : BallastPool) : b.spill.out = b.out := by unfold BallastPool.spill; split <;> rfl

/-! ### What keeps a pool sound -/

/-- Soundness speaks of the free buffers without their order, of which buffers are owned, and of the pool's extent. -/
theorem PoolSound.congr {b c : BallastPool} (h : PoolSound b) (hf : (freeList c).Perm (freeList b))
    (hw : ∀ i, (lookupKey c.words i).isSome = (lookupKey b.words i).isSome) (hs : c.size = b.size) (ho : c.out = b.out) :
    PoolSound c := by
  refine ⟨hf.nodup_iff.2 h.once, fun i hi => ?_, fun i hi => ?_⟩
  · obtain ⟨h1, h2, h3⟩ := h.free i (hf.mem_iff.1 hi)
    have hn := hw i
    rw [h2, Option.isSome_none, Option.isSome_eq_false_iff, Option.isNone_iff_eq_none] at hn
    exact ⟨hs ▸ h1, hn, ho ▸ h3⟩
  · rw [hs, ho]
    exact h.owned i (hw i ▸ hi)

theorem PoolSound.refill {b : BallastPool} (h : PoolSound b) : PoolSound b.refill :=
  h.congr (.of_eq (freeList_refill b)) (by simp) (by simp) (by simp)

theorem PoolSound.spill {b : BallastPool} (h : PoolSound b) : PoolSound b.spill :=
  h.congr (freeList_spill b) (by simp) (by simp) (by simp)

theorem PoolSound.reset : PoolSound BallastPool.reset :=
  ⟨List.nodup_nil, fun _ hi => absurd hi List.not_mem_nil, fun _ hi => by cases hi⟩

/-- A pool as it is carved is sound (R372). -/
theorem PoolSound.carved (n count : Nat) : PoolSound (BallastPool.carved n count) := by
  have hf : freeList { BallastPool.reset with size := n, ring := [(0, n)], count := count } = List.range n := by
    simp [freeList_eq, BallastPool.reset]
  refine PoolSound.refill (.refill ⟨hf ▸ List.nodup_range, fun i hi => ⟨?_, rfl, List.not_mem_nil⟩, fun _ hi => by cases hi⟩)
  rw [hf] at hi
  exact List.mem_range.1 hi

/-! ### Taking buffers (R373, R374) -/

/-- The pool after its next buffer has been taken, before its cache is refilled. -/
def takeBuf (b : BallastPool) (i : Nat) (w : BufWord) : BallastPool :=
  { b with words := insertKey b.words i w, count := b.count + 1, cache := b.cache.filter (· ≠ i) }

/-- Of the free buffers, the one that is taken leaves. -/
theorem mem_freeList_takeBuf {b : BallastPool} (h : PoolSound b) {i : Nat} (hi : i ∈ b.cache) (w : BufWord) (j : Nat) :
    j ∈ freeList (takeBuf b i w) ↔ j ∈ freeList b ∧ j ≠ i := by
  have hdis : ∀ j ∈ b.cache, j ∉ ringBufs b.ring := fun j hj hr => (List.nodup_append.1 h.once).2.2 j hj j hr rfl
  simp only [freeList_eq, takeBuf, List.mem_append, List.mem_filter, decide_eq_true_eq]
  constructor
  · rintro (⟨hj, hne⟩ | hj)
    · exact ⟨Or.inl hj, hne⟩
    · exact ⟨Or.inr hj, fun e => hdis i hi (e ▸ hj)⟩
  · rintro ⟨hj | hj, hne⟩
    · exact Or.inl ⟨hj, hne⟩
    · exact Or.inr hj

theorem PoolSound.takeBuf {b : BallastPool} (h : PoolSound b) {i : Nat} (hi : i ∈ b.cache) (w : BufWord) :
    PoolSound (takeBuf b i w) := by
  have hfree := h.free i (List.mem_append_left _ hi)
  have hw : ∀ j, lookupKey (Safety.takeBuf b i w).words j = if j = i then some w else lookupKey b.words j :=
    fun j => lookupKey_insertKey b.words i j w
  refine ⟨h.once.sublist (List.filter_sublist.append_right _), fun j hj => ?_, fun j hj => ?_⟩
  · obtain ⟨hj, hne⟩ := (mem_freeList_takeBuf h hi w j).1 hj
    obtain ⟨h1, h2, h3⟩ := h.free j hj
    exact ⟨h1, by rw [hw, if_neg hne]; exact h2, h3⟩
  · rw [hw] at hj
    split at hj
    · next e => subst e; exact ⟨hfree.1, hfree.2.2⟩
    · exact h.owned j hj

theorem pick_mem {p : Nat} {b : BallastPool} {i : Nat} (h : b.pick p = some i) : i ∈ b.cache := List.mem_of_getElem? h

/-- One link of a chain: the buffer picked is taken, and the cache refilled. -/
theorem takeChain_succ (p : Nat) (o : Fin 12) (n : Nat) (link : Option Nat) (b : BallastPool) :
    BallastPool.takeChain p o (n + 1) link b = (b.pick p).bind (fun i =>
      let c := (takeBuf b i { owner := o, head := decide (n = 0), link := link }).refill
      if n = 0 then some (i, c) else BallastPool.takeChain p o n (some i) c) := by
  rw [BallastPool.takeChain]
  cases b.pick p <;> rfl

theorem PoolSound.takeChain {p : Nat} {o : Fin 12} {n : Nat} {link : Option Nat} {b : BallastPool} (h : PoolSound b) {i : Nat}
    {c : BallastPool} (hc : BallastPool.takeChain p o n link b = some (i, c)) : PoolSound c := by
  induction n generalizing b link with
  | zero => cases hc
  | succ n ih =>
    rw [takeChain_succ, Option.bind_eq_some_iff] at hc
    obtain ⟨j, hj, hc⟩ := hc
    have hnext := (h.takeBuf (pick_mem hj) { owner := o, head := decide (n = 0), link := link }).refill
    dsimp only at hc
    split at hc
    · obtain ⟨-, rfl⟩ := Prod.mk.inj (Option.some.inj hc)
      exact hnext
    · exact ih hnext hc

/-! ### Freeing buffers (R371, R374) -/

/-- The pool once the ownership word of a buffer is gone; the buffer is nowhere yet. -/
def unown (b : BallastPool) (i : Nat) : BallastPool := { b with words := eraseKey b.words i }

theorem unown_words (b : BallastPool) (i j : Nat) :
    lookupKey (unown b i).words j = if j = i then none else lookupKey b.words j := lookupKey_eraseKey b.words i j

theorem PoolSound.unown {b : BallastPool} (h : PoolSound b) (i : Nat) : PoolSound (unown b i) := by
  refine ⟨h.once, fun j hj => ?_, fun j hj => ?_⟩
  · obtain ⟨h1, h2, h3⟩ := h.free j hj
    refine ⟨h1, ?_, h3⟩
    rw [unown_words]
    split
    · rfl
    · exact h2
  · rw [unown_words] at hj
    split at hj
    · cases hj
    · exact h.owned j hj

/-- An owned buffer is not among the free ones. -/
theorem PoolSound.not_free {b : BallastPool} (h : PoolSound b) {i : Nat} (hi : (lookupKey b.words i).isSome = true) :
    i ∉ freeList b := fun hf => by
  rw [(h.free i hf).2.1] at hi
  cases hi

/-- A buffer that has lost its owner returns to the cache. -/
theorem PoolSound.put_unown {b : BallastPool} (h : PoolSound b) {i : Nat} (hi : (lookupKey b.words i).isSome = true) :
    PoolSound ((Safety.unown b i).put i) := by
  have hperm : (freeList { Safety.unown b i with cache := b.cache ++ [i] }).Perm (i :: freeList b) := by
    rw [freeList_eq, List.append_assoc]
    exact List.perm_middle
  have hsound := h.unown i
  refine PoolSound.spill ⟨hperm.nodup_iff.2 (List.nodup_cons.2 ⟨h.not_free hi, h.once⟩), fun j hj => ?_, hsound.owned⟩
  rcases List.mem_cons.1 (hperm.mem_iff.1 hj) with rfl | hj
  · exact ⟨(h.owned j hi).1, by simp [unown_words], (h.owned j hi).2⟩
  · exact hsound.free j hj

/-- A buffer with a retired page that has lost its owner leaves the pool for good. -/
theorem PoolSound.out_unown {b : BallastPool} (h : PoolSound b) {i : Nat} (hi : (lookupKey b.words i).isSome = true) :
    PoolSound { Safety.unown b i with out := b.out ++ [i] } := by
  have hsound := h.unown i
  refine ⟨h.once, fun j hj => ?_, fun j hj => ?_⟩
  · obtain ⟨h1, h2, h3⟩ := hsound.free j hj
    refine ⟨h1, h2, List.not_mem_append h3 ?_⟩
    rintro hji
    obtain rfl := List.mem_singleton.1 hji
    exact h.not_free hi hj
  · obtain ⟨h1, h2⟩ := hsound.owned j hj
    refine ⟨h1, List.not_mem_append h2 ?_⟩
    rintro hji
    obtain rfl := List.mem_singleton.1 hji
    have hnone : lookupKey (Safety.unown b j).words j = none := by simp [unown_words]
    rw [hnone] at hj
    cases hj

/-- Freeing one buffer, as the fold over a chain does it. -/
def freeOne (retired : Nat → Bool) (b : BallastPool) (i : Nat) : BallastPool :=
  if (lookupKey b.words i).isNone then b else
  let y := { b with words := eraseKey b.words i }
  if retired i then { y with out := y.out ++ [i] } else y.put i

theorem PoolSound.freeOne {b : BallastPool} (h : PoolSound b) (retired : Nat → Bool) (i : Nat) :
    PoolSound (freeOne retired b i) := by
  unfold Safety.freeOne
  split
  · exact h
  · next hn =>
    have hi : (lookupKey b.words i).isSome = true := by simpa [Option.isSome_iff_ne_none] using hn
    dsimp only
    split
    · exact h.out_unown hi
    · exact h.put_unown hi

theorem PoolSound.foldl {α : Type} {f : BallastPool → α → BallastPool} (hf : ∀ b x, PoolSound b → PoolSound (f b x))
    (l : List α) {b : BallastPool} (h : PoolSound b) : PoolSound (l.foldl f b) := by
  induction l generalizing b with
  | nil => exact h
  | cons x l ih => exact ih (hf b x h)

/-! ### Retired pages (R371) -/

/-- The runs of a ring once a buffer has left it. -/
def cutRing (i : Nat) (r : List (Nat × Nat)) : List (Nat × Nat) :=
  r.flatMap (fun (x : Nat × Nat) => if x.1 ≤ i ∧ i < x.1 + x.2 then
    [(x.1, i - x.1), (i + 1, x.1 + x.2 - (i + 1))].filter (fun y => decide (0 < y.2)) else [x])

/-- The run from `i` on, as far as `n` buffers before it. -/
theorem run_split (i a n : Nat) (h : a ≤ i ∧ i < a + n) :
    (List.range n).map (a + ·) = (List.range (i - a)).map (a + ·) ++ i :: (List.range (a + n - (i + 1))).map (i + 1 + ·) := by
  have hn : n = (i - a) + ((a + n - (i + 1)) + 1) := by omega
  conv_lhs => rw [hn, List.range_add, List.map_append, List.map_map]
  congr 1
  have hcomp : ((a + ·) ∘ fun x => i - a + x) = (i + ·) := by funext x; simp only [Function.comp_apply]; omega
  rw [hcomp, run_succ]

/-- Empty runs hold nothing. -/
theorem ringBufs_filter_pos (r : List (Nat × Nat)) : ringBufs (r.filter (fun y => decide (0 < y.2))) = ringBufs r := by
  induction r with
  | nil => rfl
  | cons x r ih =>
    obtain ⟨a, n⟩ := x
    cases n with
    | zero => simpa [List.filter_cons] using ih
    | succ n => simp [ih]

/-- Cutting a buffer out of a ring leaves out that buffer and keeps the order of the others. -/
theorem ringBufs_cutRing (i : Nat) (r : List (Nat × Nat)) : ringBufs (cutRing i r) = (ringBufs r).filter (· ≠ i) := by
  induction r with
  | nil => rfl
  | cons x r ih =>
    obtain ⟨a, n⟩ := x
    have hcut : cutRing i ((a, n) :: r) = (if a ≤ i ∧ i < a + n then
        [(a, i - a), (i + 1, a + n - (i + 1))].filter (fun y => decide (0 < y.2)) else [(a, n)]) ++ cutRing i r := List.flatMap_cons
    rw [hcut, ringBufs_append, ih, ringBufs_cons, List.filter_append]
    congr 1
    split
    · next h =>
      rw [ringBufs_filter_pos, run_split i a n h, List.filter_append, List.filter_cons_of_neg (by simp)]
      simp only [ringBufs_cons, ringBufs_nil, List.append_nil]
      congr 1
      all_goals
        refine (List.filter_eq_self.2 fun j hj => ?_).symm
        obtain ⟨k, hk, rfl⟩ := List.mem_map.1 hj
        have := List.mem_range.1 hk
        exact decide_eq_true (by omega)
    · next h =>
      simp only [ringBufs_cons, ringBufs_nil, List.append_nil]
      refine (List.filter_eq_self.2 fun j hj => ?_).symm
      obtain ⟨k, hk, rfl⟩ := List.mem_map.1 hj
      have := List.mem_range.1 hk
      exact decide_eq_true (by omega)

theorem freeList_drop (b : BallastPool) (i : Nat) : freeList (b.drop i) = (freeList b).filter (· ≠ i) := by
  unfold BallastPool.drop
  rw [freeList_refill, freeList_eq, freeList_eq, List.filter_append, ← ringBufs_cutRing]
  rfl

@[simp] theorem drop_words (b : BallastPool) (i : Nat) : (b.drop i).words = b.words := refill_words _
@[simp] theorem drop_size (b : BallastPool) (i : Nat) : (b.drop i).size = b.size := refill_size _
@[simp] theorem drop_out (b : BallastPool) (i : Nat) : (b.drop i).out = b.out ++ [i] := refill_out _

/-- A buffer without an owner may leave its pool for good. -/
theorem PoolSound.drop {b : BallastPool} (h : PoolSound b) {i : Nat} (hi : lookupKey b.words i = none) : PoolSound (b.drop i) := by
  refine ⟨?_, fun j hj => ?_, fun j hj => ?_⟩
  · rw [freeList_drop]
    exact h.once.filter _
  · rw [freeList_drop, List.mem_filter, decide_eq_true_eq] at hj
    obtain ⟨h1, h2, h3⟩ := h.free j hj.1
    rw [drop_size, drop_words, drop_out]
    exact ⟨h1, h2, List.not_mem_append h3 (by simpa using hj.2)⟩
  · rw [drop_words] at hj
    obtain ⟨h1, h2⟩ := h.owned j hj
    rw [drop_size, drop_out]
    refine ⟨h1, List.not_mem_append h2 fun hji => ?_⟩
    obtain rfl := List.mem_singleton.1 hji
    rw [hi] at hj
    cases hj

theorem PoolSound.foldl_drop {l : List Nat} {b : BallastPool} (h : PoolSound b) (hl : ∀ i ∈ l, lookupKey b.words i = none) :
    PoolSound (l.foldl BallastPool.drop b) := by
  induction l generalizing b with
  | nil => exact h
  | cons i l ih =>
    refine ih (h.drop (hl i List.mem_cons_self)) fun j hj => ?_
    rw [drop_words]
    exact hl j (List.mem_cons_of_mem _ hj)

/-! ### Passing buffers (R374) -/

/-- Words that are changed in place stay at their keys. -/
theorem lookupKey_map {α β : Type} (f : Nat × α → β) (l : List (Nat × α)) (i : Nat) :
    lookupKey (l.map (fun w => (w.1, f w))) i = (lookupKey l i).map (fun x => f (i, x)) := by
  induction l with
  | nil => rfl
  | cons w l ih =>
    obtain ⟨k, x⟩ := w
    simp only [List.map_cons, lookupKey, ih]
    split
    · next e => subst e; rfl
    · rfl

/-- The words of a chain with a new owner. -/
def passWords (ids : List Nat) (n : Fin 12) (l : List (Nat × BufWord)) : List (Nat × BufWord) :=
  l.map (fun w => if ids.contains w.1 then (w.1, { w.2 with owner := n }) else w)

theorem lookupKey_passWords (ids : List Nat) (n : Fin 12) (l : List (Nat × BufWord)) (i : Nat) :
    lookupKey (passWords ids n l) i = (lookupKey l i).map (fun w => if ids.contains i then { w with owner := n } else w) := by
  have hpoint : ∀ w : Nat × BufWord, (if ids.contains w.1 then (w.1, { w.2 with owner := n }) else w)
      = (w.1, if ids.contains w.1 then { w.2 with owner := n } else w.2) := fun w => by split <;> rfl
  unfold passWords
  simp only [hpoint]
  exact lookupKey_map (fun w => if ids.contains w.1 then { w.2 with owner := n } else w.2) l i

theorem PoolSound.passWords {b : BallastPool} (h : PoolSound b) (ids : List Nat) (n : Fin 12) :
    PoolSound { b with words := passWords ids n b.words } :=
  h.congr (.refl _) (fun i => by simp [lookupKey_passWords]) rfl rfl

end Sys2Proof.Safety
end

section
/-! PROOFS. The invariant through the updates of one unit: memory, the event path, and every part that the invariant does not speak of. -/

-- Proofs one after another: many small ones at once would each take a thread's stack.
set_option Elab.async false

namespace Sys2Proof.Safety

open Sys2Proof Sys2Proof.Machine Sys2Proof.Laws Sys2Proof.Proofs

/-! ### Parts the invariant does not speak of -/

/-- Every part of the state but memory, the bytes of DRAM and the firmware event queue: those the invariant does not speak of. -/
def unguarded : List Part := allParts.filter (fun x => decide (x ≠ .mem ∧ x ≠ .dram ∧ x ≠ .fwq))

@[simp] theorem mem_unguarded {x : Part} : x ∈ unguarded ↔ x ≠ .mem ∧ x ≠ .dram ∧ x ≠ .fwq := by
  simp [unguarded, mem_allParts]

/-- What every next state of an outcome has: the invariant. -/
def Yields (r : Res) : Prop := ∀ t, r = .next t → Invariant t

section
variable {s t u : State}

/-- The invariant speaks of DRAM, of the pools and of the length of the firmware queue. -/
theorem Invariant.congr (h : Invariant s) (hc : t.mem.cells = s.mem.cells) (hp : t.mem.pools = s.mem.pools)
    (hq : t.ev.queue.length ≤ s.ev.queue.length) : Invariant t :=
  ⟨by rw [Memory.wf, hc]; exact h.mem, hq.trans h.queue, fun p => by rw [hp]; exact h.pools p⟩

/-- A frame that keeps its hands off the three parts keeps the invariant. -/
theorem Invariant.unchanged {ps : List Part} (h : Invariant s) (hu : Unchanged ps s t) (hm : Part.mem ∉ ps) (hd : Part.dram ∉ ps)
    (hq : Part.fwq ∉ ps) : Invariant t :=
  h.congr (hu.dram.resolve_left hd) (congrArg (·.pools) (hu.mem.resolve_left hm)) (by rw [(hu.fwq.resolve_left hq).1])

theorem Invariant.frame (h : Invariant s) (hf : hide unguarded t = hide unguarded s) : Invariant t :=
  h.unchanged (unchanged_of_hide hf) (by simp) (by simp) (by simp)

/-! ### Choices, folds and outcomes -/

theorem Invariant.ite {c : Prop} [Decidable c] (ht : Invariant t) (hu : Invariant u) : Invariant (if c then t else u) := by
  split
  · exact ht
  · exact hu

theorem Invariant.foldl {α : Type} {f : State → α → State} {l : List α} (h : Invariant s)
    (hf : ∀ s x, Invariant s → Invariant (f s x)) : Invariant (l.foldl f s) := by
  induction l generalizing s with
  | nil => exact h
  | cons x l ih => exact ih (hf s x h)

theorem Invariant.eachBay {f : State → BayNo → State} (h : Invariant s) (hf : ∀ s b, Invariant s → Invariant (f s b)) :
    Invariant (s.eachBay f) := h.foldl hf

theorem Invariant.eachPort {f : State → Port → State} (h : Invariant s) (hf : ∀ s p, Invariant s → Invariant (f s p)) :
    Invariant (s.eachPort f) := hf _ _ (hf _ _ h)

/-- The state of an answer that has been taken apart. -/
theorem Invariant.of_fst {α : Type} {x : State × α} {a : α} (h : Invariant x.1) (e : x = (t, a)) : Invariant t := by
  subst e
  exact h

theorem Invariant.next (h : Invariant s) : Yields (.next s) := fun _ e => Host.Outcome.next.inj e ▸ h

theorem Yields.fault (r : Fault) : Yields (.fault r) := fun _ e => nomatch e

theorem Yields.ite {c : Prop} [Decidable c] {q r : Res} (hq : Yields q) (hr : Yields r) : Yields (if c then q else r) := by
  split
  · exact hq
  · exact hr

/-! ### Updates of one unit -/

section
variable (h : Invariant s)
include h

/-- A change of the event path that places no record. -/
theorem Invariant.onEv {f : EventPath → EventPath} (hq : (f s.ev).queue.length ≤ s.ev.queue.length := by exact le_rfl) :
    Invariant (s.onEv f) := h.congr rfl rfl hq

/-- A change of memory that leaves DRAM and the pools. -/
theorem Invariant.onMem {f : Memory → Memory} (hc : (f s.mem).cells = s.mem.cells := by rfl)
    (hp : (f s.mem).pools = s.mem.pools := by rfl) : Invariant (s.onMem f) := h.congr hc hp le_rfl

theorem Invariant.onCache {f : EngineCache → EngineCache} : Invariant (s.onCache f) := h.onMem

/-- A change of DRAM that keeps its canonical form. -/
theorem Invariant.onCells {f : Memory → Memory} (hw : (f s.mem).wf = true) (hp : (f s.mem).pools = s.mem.pools := by rfl) :
    Invariant (s.onMem f) := ⟨hw, h.queue, fun p => by rw [onMem_mem, hp]; exact h.pools p⟩

/-- A change of one pool that keeps it sound. -/
theorem Invariant.onPoolB {p : Fin 4} {f : BallastPool → BallastPool} (hf : PoolSound (f s.mem.pools[p])) :
    Invariant (s.onPoolB p f) := by
  refine ⟨h.mem, h.queue, fun q => ?_⟩
  have hq : (s.onPoolB p f).mem.pools[q] = if p.val = q.val then f s.mem.pools[p] else s.mem.pools[q] :=
    Vector.getElem_set p.isLt q.isLt
  rw [hq]
  split
  · exact hf
  · exact h.pools q

end

end

end Sys2Proof.Safety
end

section
/-! PROOFS. The operations that write no part the invariant speaks of keep it: each by the frame that the laws give it. -/

-- Proofs one after another: many small ones at once would each take a thread's stack.
set_option Elab.async false

namespace Sys2Proof.Safety

open Sys2Proof Sys2Proof.Machine Sys2Proof.Laws Sys2Proof.Proofs

section
variable {s : State} (h : Invariant s)
include h

theorem Invariant.onSys {f : Sys → Sys} : Invariant (s.onSys f) := h.frame (by simp [hide_onSys])

theorem Invariant.onPort {p : Port} {f : PortState → PortState} : Invariant (s.onPort p f) := h.frame (by simp [hide_onPort])

theorem Invariant.onBay {b : BayNo} {f : Bay → Bay} : Invariant (s.onBay b f) := h.frame (by simp [hide_onBay])

theorem Invariant.onPool {f : Pool → Pool} : Invariant (s.onPool f) := h.frame (by simp [hide_onPool])

theorem Invariant.onStg {f : Staging → Staging} : Invariant (s.onStg f) := h.frame (by simp [hide_onStg])

theorem Invariant.onPair {f : Pair → Pair} : Invariant (s.onPair f) := h.frame (by simp [hide_onPair])

theorem Invariant.onFlash {f : BootFlash → BootFlash} : Invariant (s.onFlash f) := h.frame (by simp [hide_onFlash])

theorem Invariant.onAfe {b : BayNo} {f : Afe → Afe} : Invariant (s.onAfe b f) := h.frame (by simp [hide_onAfe])

theorem Invariant.onRc {b : BayNo} {f : ReadChannel → ReadChannel} : Invariant (s.onRc b f) := h.frame (by simp [hide_onRc])

theorem Invariant.onDec {b : BayNo} {f : BayDecode → BayDecode} : Invariant (s.onDec b f) := h.frame (by simp [hide_onDec])

theorem Invariant.onWp {b : BayNo} {f : WritePath → WritePath} : Invariant (s.onWp b f) := h.frame (by simp [hide_onWp])

theorem Invariant.onSrv {b : BayNo} {f : Servo → Servo} : Invariant (s.onSrv b f) := h.frame (by simp [hide_onSrv])

theorem Invariant.onSpn {b : BayNo} {f : Spindle → Spindle} : Invariant (s.onSpn b f) := h.frame (by simp [hide_onSpn])

theorem Invariant.onSld {b : BayNo} {f : StepAxis → StepAxis} : Invariant (s.onSld b f) := h.frame (by simp [hide_onSld])

theorem Invariant.onSeq {b : BayNo} {f : Machine.Seq → Machine.Seq} : Invariant (s.onSeq b f) := h.frame (by simp [hide_onSeq])

theorem Invariant.onLane {b : BayNo} {l : Beam} {f : Lane → Lane} : Invariant (s.onLane b l f) :=
  h.frame (by simp [hide_onLane])

theorem Invariant.onDisc {b : BayNo} {f : Disc → Disc} : Invariant (s.onDisc b f) := h.frame (by simp [hide_onDisc])

theorem Invariant.onAxis {a : AxisNo} {f : StepAxis → StepAxis} : Invariant (s.onAxis a f) := h.frame (by simp [hide_onAxis])

theorem Invariant.onInput {i : InputNo} {f : InputState → InputState} : Invariant (s.onInput i f) :=
  h.frame (by simp [hide_onInput])

theorem Invariant.onMbx {p : Port} {f : Mailbox → Mailbox} : Invariant (s.onMbx p f) := h.frame (by simp [hide_onMbx])

theorem Invariant.onRing {p : Port} {f : EvRing → EvRing} : Invariant (s.onRing p f) := h.frame (by simp [hide_onRing])

theorem Invariant.onCmd {c : CmdId} {f : Cmd → Cmd} : Invariant (s.onCmd c f) := h.frame (by simp [hide_onCmd])

theorem Invariant.onVol {v : VolId} {f : Volume → Volume} : Invariant (s.onVol v f) := h.frame (by simp [hide_onVol])

theorem Invariant.emit {o : Output} : Invariant (s.emit o) := h.frame (by simp [hide_emit])

theorem Invariant.raiseAt {e : Ev} {sev : Severity} {fs : List PField} : Invariant (s.raiseAt e sev fs) :=
  h.frame (by simp [hide_raiseAt])

theorem Invariant.logRetry {src : Nat} {kind : Fin 11} {persistent : Bool} {action : Nat} {identity : BitVec 64} :
    Invariant (s.logRetry src kind persistent action identity) :=
  h.frame (by simp [hide_logRetry])

theorem Invariant.testLoses {code : Nat} {needs : Nat → Bool} : Invariant (s.testLoses code needs) :=
  h.frame (by simp [hide_testLoses])

theorem Invariant.putFlit {seq : BitVec 16} {f : TetherFlit} {replayed : Bool} : Invariant (s.putFlit seq f replayed) :=
  h.frame (by simp [hide_putFlit])

theorem Invariant.send {kind : Byte} {xs : List Nat} : Invariant (s.send kind xs) := h.frame (by simp [hide_send])

theorem Invariant.giveData {c : CmdId} {xs : List (Nat × SectorData)} : Invariant (s.giveData c xs) :=
  h.frame (by simp [hide_giveData])

theorem Invariant.complete {id : CmdId} {status : Byte} {result : BitVec 64} : Invariant (s.complete id status result) :=
  h.frame (by simp [hide_complete])

theorem Invariant.setWait {id : CmdId} {w : CmdWait} : Invariant (s.setWait id w) := h.frame (by simp [hide_setWait])

theorem Invariant.respond {p : Port} {status : Byte} {results : List Byte} {buf : List Byte} :
    Invariant (s.respond p status results buf) :=
  h.frame (by simp [hide_respond])

theorem Invariant.respondRun {p : Port} {status : Byte} {results : List Byte} : Invariant (s.respondRun p status results) :=
  h.frame (by simp [hide_respondRun])

theorem Invariant.beginRun {p : Port} {w : MbxWait} : Invariant (s.beginRun p w) := h.frame (by simp [hide_beginRun])

theorem Invariant.sendPulses {b : BayNo} {r : WriteRun} {p : Int} {q : Int} : Invariant (s.sendPulses b r p q) :=
  h.frame (by simp [hide_sendPulses])

theorem Invariant.busToSpace {b : BayNo} {p : Int} : Invariant (s.busToSpace b p) := h.frame (by simp [hide_busToSpace])

theorem Invariant.abortCal {b : BayNo} : Invariant (s.abortCal b) := h.frame (by simp [hide_abortCal])

theorem Invariant.setBaySt {b : BayNo} {new : BaySt} {row : Nat} : Invariant (s.setBaySt b new row) :=
  h.frame (by simp [hide_setBaySt])

theorem Invariant.noteUnverified {b : BayNo} {was : Nat} : Invariant (s.noteUnverified b was) :=
  h.frame (by simp [hide_noteUnverified])

theorem Invariant.parkFocus {b : BayNo} : Invariant (s.parkFocus b) := h.frame (by simp [hide_parkFocus])

theorem Invariant.coastLevel {b : BayNo} {cause : Nat} : Invariant (s.coastLevel b cause) := h.frame (by simp [hide_coastLevel])

theorem Invariant.invalidateTables {b : BayNo} {reason : Nat} : Invariant (s.invalidateTables b reason) :=
  h.frame (by simp [hide_invalidateTables])

theorem Invariant.endWaiters {slot : BitVec 16} {w : CmdWait} {status : Byte} : Invariant (s.endWaiters slot w status) :=
  h.frame (by simp [hide_endWaiters])

theorem Invariant.endMove {status : Byte} : Invariant (s.endMove status) := h.frame (by simp [hide_endMove])

theorem Invariant.releaseWithPeerOk : Invariant (s.releaseWithPeerOk) := h.frame (by simp [hide_releaseWithPeerOk])

theorem Invariant.setMode {m : Mode} : Invariant (s.setMode m) := h.frame (by simp [hide_setMode])

theorem Invariant.ripcordBay {cause : RipcordCause} {b : BayNo} : Invariant (State.ripcordBay cause s b) :=
  h.frame (by simp [hide_ripcordBay])

theorem Invariant.enterRipcord : Invariant (s.enterRipcord) := h.frame (by simp [hide_enterRipcord])

theorem Invariant.bayWarm {b : BayNo} : Invariant (s.bayWarm b) := h.frame (by simp [hide_bayWarm])

theorem Invariant.endCommands {status : Byte} : Invariant (s.endCommands status) := h.frame (by simp [hide_endCommands])

theorem Invariant.handlerStop {i : InputNo} : Invariant (s.handlerStop i) := h.frame (by simp [hide_handlerStop])

theorem Invariant.saveVols : Invariant (s.saveVols) := h.frame (by simp [hide_saveVols])

theorem Invariant.closeStripe {stream : Fin 4} : Invariant (s.closeStripe stream) := h.frame (by simp [hide_closeStripe])

theorem Invariant.settleStaged : Invariant (s.settleStaged) := h.frame (by simp [hide_settleStaged])

theorem Invariant.settleFlush : Invariant (s.settleFlush) := h.frame (by simp [hide_settleFlush])

theorem Invariant.ventSpill : Invariant (s.ventSpill) := h.frame (by simp [hide_ventSpill])

theorem Invariant.gcStart : Invariant (s.gcStart) := h.frame (by simp [hide_gcStart])

theorem Invariant.abort {r : Requester} {addr : BitVec 40} : Invariant (s.abort r addr) := h.frame (by simp [hide_abort])

theorem Invariant.dirtyLost {vid : VolId} {ucl : Nat} {sector : Fin 16} : Invariant (s.dirtyLost vid ucl sector) :=
  h.frame (by simp [hide_dirtyLost])

theorem Invariant.syncTriple : Invariant (s.syncTriple) := h.frame (by simp [hide_syncTriple])

theorem Invariant.sendMirror {vid : VolId} {ucl : Nat} {own : Bool} : Invariant (s.sendMirror vid ucl own) :=
  h.frame (by simp [hide_sendMirror])

theorem Invariant.settleMirrorOut : Invariant (s.settleMirrorOut) := h.frame (by simp [hide_settleMirrorOut])

theorem Invariant.sendClusters {xs : List (VolId × Nat)} : Invariant (s.sendClusters xs) :=
  h.frame (by simp [hide_sendClusters])

theorem Invariant.startTetherResync : Invariant (s.startTetherResync) := h.frame (by simp [hide_startTetherResync])

theorem Invariant.mirrorLost : Invariant (s.mirrorLost) := h.frame (by simp [hide_mirrorLost])

theorem Invariant.failForwarded {status : Byte} : Invariant (s.failForwarded status) := h.frame (by simp [hide_failForwarded])

theorem Invariant.failForwardedMove {status : Byte} : Invariant (s.failForwardedMove status) :=
  h.frame (by simp [hide_failForwardedMove])

theorem Invariant.degrade : Invariant (s.degrade) := h.frame (by simp [hide_degrade])

theorem Invariant.tellRole : Invariant (s.tellRole) := h.frame (by simp [hide_tellRole])

theorem Invariant.unbind {which : VolId → Bool} : Invariant (s.unbind which) := h.frame (by simp [hide_unbind])

theorem Invariant.peerLost : Invariant (s.peerLost) := h.frame (by simp [hide_peerLost])

theorem Invariant.loadImage {a : Activation} : Invariant (s.loadImage a) := h.frame (by simp [hide_loadImage])

theorem Invariant.markValid : Invariant (s.markValid) := h.frame (by simp [hide_markValid])

theorem Invariant.orderMove {src : BitVec 16} {dst : BitVec 16} : Invariant ((s.orderMove src dst).1) :=
  h.frame (by simp [hide_orderMove])

theorem Invariant.spinDown {b : BayNo} {after : AfterStop} {row : Nat} : Invariant (s.spinDown b after row) :=
  h.frame (by simp [hide_spinDown])

theorem Invariant.unload {b : BayNo} {row : Nat} : Invariant (s.unload b row) := h.frame (by simp [hide_unload])

theorem Invariant.mountDone {vid : VolId} {b : BayNo} : Invariant (s.mountDone vid b) := h.frame (by simp [hide_mountDone])

theorem Invariant.mountsFailed {vid : VolId} : Invariant (s.mountsFailed vid) := h.frame (by simp [hide_mountsFailed])

theorem Invariant.saveAll : Invariant (s.saveAll) := h.frame (by simp [hide_saveAll])

theorem Invariant.formatWritten {b : BayNo} {vid : VolId} {remap : Bool} : Invariant (s.formatWritten b vid remap) :=
  h.frame (by simp [hide_formatWritten])

theorem Invariant.onEntry {b : BayNo} {i : Nat} {f : Entry → Entry} : Invariant (s.onEntry b i f) :=
  h.frame (by simp [hide_onEntry])

theorem Invariant.settleRead {id : CmdId} : Invariant (s.settleRead id) := h.frame (by simp [hide_settleRead])

theorem Invariant.deliver {id : CmdId} {ucl : Nat} {sec : Nat → Option SectorData} {status : Byte} {retried : Bool} :
    Invariant (s.deliver id ucl sec status retried) :=
  h.frame (by simp [hide_deliver])

theorem Invariant.onRecv {b : BayNo} {r : RecvNo} {f : Receiver → Receiver} : Invariant (s.onRecv b r f) :=
  h.frame (by simp [hide_onRecv])

theorem Invariant.orderRelief {b : BayNo} {n : Beam} : Invariant (s.orderRelief b n) := h.frame (by simp [hide_orderRelief])

theorem Invariant.laneBack {b : BayNo} {n : Beam} {atOnce : Bool} : Invariant (s.laneBack b n atOnce) :=
  h.frame (by simp [hide_laneBack])

theorem Invariant.proposeRetire {b : BayNo} {r : RecvNo} : Invariant (s.proposeRetire b r) :=
  h.frame (by simp [hide_proposeRetire])

theorem Invariant.runEnds {b : BayNo} {c : CalRun} {first : Trim} {final : Trim} : Invariant (s.runEnds b c first final) :=
  h.frame (by simp [hide_runEnds])

theorem Invariant.takePeriod {ids : List Nat} {b : BayNo} : Invariant (s.takePeriod ids b) :=
  h.frame (by simp [hide_takePeriod])

theorem Invariant.takeEffect {e : PEffect} {b : BayNo} : Invariant (s.takeEffect e b) := h.frame (by simp [hide_takeEffect])

theorem Invariant.abandonMove {b : BayNo} : Invariant (s.abandonMove b) := h.frame (by simp [hide_abandonMove])

theorem Invariant.lullLoop {b : BayNo} {l : LoopId} {cause : LullCause} : Invariant (s.lullLoop b l cause) :=
  h.frame (by simp [hide_lullLoop])

theorem Invariant.stepPassed {b : BayNo} {stage : MountStage} : Invariant (s.stepPassed b stage) :=
  h.frame (by simp [hide_stepPassed])

theorem Invariant.layerFound {b : BayNo} {was : Option LayerNo} {up : Bool} {found : LayerNo} :
    Invariant (s.layerFound b was up found) :=
  h.frame (by simp [hide_layerFound])

theorem Invariant.sampled {b : BayNo} {l : Beam} {samples : List (BitVec 8)} : Invariant (s.sampled b l samples) :=
  h.frame (by simp [hide_sampled])

theorem Invariant.lateUnread {b : BayNo} {home : ClusterAddr} {read : ClusterAddr} : Invariant (s.lateUnread b home read) :=
  h.frame (by simp [hide_lateUnread])

theorem Invariant.takeCluster {b : BayNo} {l : Beam} {home read : ClusterAddr} {cls : CwClass} {seq : BitVec 32}
    {cold first : Bool} {cycle : Rat} :
    Invariant (s.takeCluster b l home read cls seq cold first cycle) :=
  h.frame (by simp [hide_takeCluster])

theorem Invariant.enqueue {b : BayNo} {i : Nat} {k : Nat} {soft : List Int} {erased : Nat} :
    Invariant (s.enqueue b i k soft erased) :=
  h.frame (by simp [hide_enqueue])

theorem Invariant.writeBack {b : BayNo} {l : Beam} {run : StartEntry} : Invariant (s.writeBack b l run) :=
  h.frame (by simp [hide_writeBack])

theorem Invariant.metaMismatch {b : BayNo} {e : Entry} {i : Nat} {m : Metadata} : Invariant (s.metaMismatch b e i m) :=
  h.frame (by simp [hide_metaMismatch])

theorem Invariant.passFails {b : BayNo} {i : Nat} {e : Entry} : Invariant (s.passFails b i e) :=
  h.frame (by simp [hide_passFails])

theorem Invariant.submitKept {b : BayNo} {i : Nat} {e : Entry} {alone : Bool} : Invariant (s.submitKept b i e alone) :=
  h.frame (by simp [hide_submitKept])

theorem Invariant.awaitPass {b : BayNo} {i : Nat} {k : Nat} {n : Nat} : Invariant (s.awaitPass b i k n) :=
  h.frame (by simp [hide_awaitPass])

theorem Invariant.forward {c : Cmd} {data : List SectorData} : Invariant (s.forward c data) := h.frame (by simp [hide_forward])

theorem Invariant.dmaFail {id : CmdId} {e : DmaErr} : Invariant (s.dmaFail id e) := h.frame (by simp [hide_dmaFail])

theorem Invariant.expired {id : CmdId} {which : Nat} : Invariant (s.expired id which) := h.frame (by simp [hide_expired])

theorem Invariant.attach {b : BayNo} {i : Nat} {id : CmdId} : Invariant (s.attach b i id) := h.frame (by simp [hide_attach])

theorem Invariant.queueJob {b : BayNo} {cmd : Option CmdId} {v : Volume} {us : List Nat} : Invariant (s.queueJob b cmd v us) :=
  h.frame (by simp [hide_queueJob])

theorem Invariant.sendLdl {b : BayNo} {req : LdlReq} : Invariant (s.sendLdl b req) := h.frame (by simp [hide_sendLdl])

theorem Invariant.preRead {b : BayNo} {prior : List (ClusterAddr × Option ClusterRead)} : Invariant (s.preRead b prior) :=
  h.frame (by simp [hide_preRead])

theorem Invariant.beginTurn {b : BayNo} {layer : LayerNo} {turn : Nat} {items rest : List WriteItem} {fresh : Bool}
    {bufs : List (ClusterAddr × BitVec 32)} :
    Invariant (s.beginTurn b layer turn items rest fresh bufs) :=
  h.frame (by simp [hide_beginTurn])

theorem Invariant.setGate {b : BayNo} : Invariant (s.setGate b) := h.frame (by simp [hide_setGate])

theorem Invariant.judge {b : BayNo} {x : WriteItem} {o : VerifyRead} : Invariant (s.judge b x o) :=
  h.frame (by simp [hide_judge])

theorem Invariant.volFollows {b : BayNo} : Invariant (s.volFollows b) := h.frame (by simp [hide_volFollows])

theorem Invariant.writeSet {b : BayNo} {d : Disc} {m : MgmtSet} {tries1 : List WriteTry} {tries2 : List WriteTry} :
    Invariant ((s.writeSet b d m tries1 tries2).1) :=
  h.frame (by simp [hide_writeSet])

theorem Invariant.destageSet {b : BayNo} {done : List WriteItem} {count : Nat} : Invariant (s.destageSet b done count) :=
  h.frame (by simp [hide_destageSet])

theorem Invariant.destageRefused {b : BayNo} {vid : VolId} : Invariant (s.destageRefused b vid) :=
  h.frame (by simp [hide_destageRefused])

theorem Invariant.takeSamples {b : BayNo} {o : ServoObs} : Invariant (s.takeSamples b o) := h.frame (by simp [hide_takeSamples])

theorem Invariant.sumPeriod {b : BayNo} : Invariant (s.sumPeriod b) := h.frame (by simp [hide_sumPeriod])

theorem Invariant.compute {b : BayNo} {l : LoopId} {err : Rat} {ff : Rat} {cut : Bool} {stopped : Bool} :
    Invariant (s.compute b l err ff cut stopped) :=
  h.frame (by simp [hide_compute])

theorem Invariant.rampPeriod {b : BayNo} : Invariant (s.rampPeriod b) := h.frame (by simp [hide_rampPeriod])

theorem Invariant.tailPeriod {b : BayNo} {dropped : Bool} {i : Fin 2} : Invariant (s.tailPeriod b dropped i) :=
  h.frame (by simp [hide_tailPeriod])

theorem Invariant.focusPeriod {b : BayNo} {fen : Rat} : Invariant (s.focusPeriod b fen) := h.frame (by simp [hide_focusPeriod])

theorem Invariant.trackPeriod {b : BayNo} {ten : Rat} : Invariant (s.trackPeriod b ten) := h.frame (by simp [hide_trackPeriod])

theorem Invariant.movePeriod {b : BayNo} {ten : Rat} : Invariant (s.movePeriod b ten) := h.frame (by simp [hide_movePeriod])

theorem Invariant.lensPeriod {b : BayNo} : Invariant (s.lensPeriod b) := h.frame (by simp [hide_lensPeriod])

theorem Invariant.startSweep {b : BayNo} {layer : LayerNo} {fromLull : Bool} : Invariant (s.startSweep b layer fromLull) :=
  h.frame (by simp [hide_startSweep])

theorem Invariant.sinePeriod {b : BayNo} {o : PwmObs} : Invariant (s.sinePeriod b o) := h.frame (by simp [hide_sinePeriod])

theorem Invariant.sixStepPeriod {b : BayNo} {o : PwmObs} : Invariant (s.sixStepPeriod b o) :=
  h.frame (by simp [hide_sixStepPeriod])

theorem Invariant.observe {b : BayNo} : Invariant (s.observe b) := h.frame (by simp [hide_observe])

theorem Invariant.sledToMount {b : BayNo} : Invariant (s.sledToMount b) := h.frame (by simp [hide_sledToMount])

theorem Invariant.sledEnded {b : BayNo} : Invariant (s.sledEnded b) := h.frame (by simp [hide_sledEnded])

theorem Invariant.driveSled {b : BayNo} : Invariant (s.driveSled b) := h.frame (by simp [hide_driveSled])

theorem Invariant.volMounted {vid : VolId} {set : Option MgmtSet} : Invariant (s.volMounted vid set) :=
  h.frame (by simp [hide_volMounted])

theorem Invariant.resumeFormat {b : BayNo} {vid : VolId} {set : Option MgmtSet} : Invariant (s.resumeFormat b vid set) :=
  h.frame (by simp [hide_resumeFormat])

theorem Invariant.atMount {b : BayNo} : Invariant (s.atMount b) := h.frame (by simp [hide_atMount])

theorem Invariant.writeCell {p : Port} {c : Fin 64} {w : AccWidth} {v : BitVec 64} : Invariant (s.writeCell p c w v) :=
  h.frame (by simp [hide_writeCell])

theorem Invariant.clearAlarm {p : Port} {word : Nat} {v : BitVec 64} : Invariant (s.clearAlarm p word v) :=
  h.frame (by simp [hide_clearAlarm])

theorem Invariant.freezeReel {cause : Nat} : Invariant (s.freezeReel cause) := h.frame (by simp [hide_freezeReel])

theorem Invariant.thawReel : Invariant (s.thawReel) := h.frame (by simp [hide_thawReel])

theorem Invariant.ringMailbox {p : Port} : Invariant (s.ringMailbox p) := h.frame (by simp [hide_ringMailbox])

theorem Invariant.resetPairs {p : Port} {mask : BitVec 64} : Invariant (s.resetPairs p mask) :=
  h.frame (by simp [hide_resetPairs])

theorem Invariant.writeDoorbell {p : Port} {q : QueueNo} {head : Bool} {w : AccWidth} {v : BitVec 64} :
    Invariant (s.writeDoorbell p q head w v) :=
  h.frame (by simp [hide_writeDoorbell])

theorem Invariant.writeQueueReg {p : Port} {q : QueueNo} {off : Nat} {w : AccWidth} {v : BitVec 64} :
    Invariant (s.writeQueueReg p q off w v) :=
  h.frame (by simp [hide_writeQueueReg])

theorem Invariant.writeMsix {p : Port} {i : Fin 65} {ctrl : Bool} {w : AccWidth} {v : BitVec 64} :
    Invariant (s.writeMsix p i ctrl w v) :=
  h.frame (by simp [hide_writeMsix])

theorem Invariant.writeConfig {p : Port} {bit : ConfigBit} {v : Bool} : Invariant (s.writeConfig p bit v) :=
  h.frame (by simp [hide_writeConfig])

theorem Invariant.orUnknown {id : CmdId} {o : Nat} : Invariant (s.orUnknown id o) := h.frame (by simp [hide_orUnknown])

theorem Invariant.writeFetch {c : Cmd} {ext : ExtentRead} {data : WriteData} : Invariant ((s.writeFetch c ext data).1) :=
  h.frame (by simp [hide_writeFetch])

theorem Invariant.unmountLoose {c : Cmd} {v : Volume} : Invariant (s.unmountLoose c v) := h.frame (by simp [hide_unmountLoose])

theorem Invariant.chooseSlot {ok : Vector Bool 2} : Invariant ((s.chooseSlot ok).2) := h.frame (by simp [hide_chooseSlot])

theorem Invariant.findNand {n : NandFound} : Invariant (s.findNand n) := h.frame (by simp [hide_findNand])

theorem Invariant.takeTrays {trays : BitVec 8} : Invariant (s.takeTrays trays) := h.frame (by simp [hide_takeTrays])

theorem Invariant.startVent : Invariant (s.startVent) := h.frame (by simp [hide_startVent])

theorem Invariant.pllLoss {k : Fin 5} : Invariant (s.pllLoss k) := h.frame (by simp [hide_pllLoss])

theorem Invariant.rootCoast {b : BayNo} : Invariant (s.rootCoast b) := h.frame (by simp [hide_rootCoast])

theorem Invariant.holdEngine {e : EngineId} {v : Bool} : Invariant (s.holdEngine e v) := h.frame (by simp [hide_holdEngine])

theorem Invariant.accept {i : Machine.ParamInfo} {inst : Nat} {v : Int} : Invariant (s.accept i inst v) :=
  h.frame (by simp [hide_accept])

theorem Invariant.setLong {p : Port} {r : BitVec 512} {id : Nat} {a4 : BufRead} : Invariant (s.setLong p r id a4) :=
  h.frame (by simp [hide_setLong])

theorem Invariant.modeAccepted {v : Int} : Invariant (s.modeAccepted v) := h.frame (by simp [hide_modeAccepted])

theorem Invariant.reelRecord {e : Raised} {seq : BitVec 32} : Invariant (s.reelRecord e seq) :=
  h.frame (by simp [hide_reelRecord])

theorem Invariant.writeEvent {p : Port} {x : EvRecord} : Invariant (s.writeEvent p x) := h.frame (by simp [hide_writeEvent])

theorem Invariant.ringSummary {p : Port} : Invariant (s.ringSummary p) := h.frame (by simp [hide_ringSummary])

theorem Invariant.respondArea {p : Port} {r : BitVec 512} {area : List Byte} : Invariant (s.respondArea p r area) :=
  h.frame (by simp [hide_respondArea])

theorem Invariant.sendNak : Invariant (s.sendNak) := h.frame (by simp [hide_sendNak])

theorem Invariant.takeAck {ack : BitVec 16} : Invariant (s.takeAck ack) := h.frame (by simp [hide_takeAck])

theorem Invariant.endUnstarted {which : Cmd → Bool} {status : Byte} : Invariant (s.endUnstarted which status) :=
  h.frame (by simp [hide_endUnstarted])

theorem Invariant.judgeFull : Invariant (s.judgeFull) := h.frame (by simp [hide_judgeFull])

theorem Invariant.metadataPage : Invariant (s.metadataPage) := h.frame (by simp [hide_metadataPage])

theorem Invariant.raiseBay {b : BayNo} {e : BayEvent} {fs : List PField} : Invariant (s.raiseBay b e fs) := h.raiseAt

theorem Invariant.raisePort {p : Port} {e : PortEvent} {fs : List PField} : Invariant (s.raisePort p e fs) := h.raiseAt

theorem Invariant.raiseNand {c : ChanNo} {e : NandEvent} {fs : List PField} : Invariant (s.raiseNand c e fs) := h.raiseAt

theorem Invariant.raiseDev {e : DevEvent} {fs : List PField} : Invariant (s.raiseDev e fs) := h.raiseAt

theorem Invariant.fresh : Invariant s.fresh.2 := h.frame (hide_fresh (by simp))

theorem Invariant.freeInt {u : Nat} : Invariant (s.freeInt u).2 := h.frame (hide_freeInt (by simp))

theorem Invariant.serve {p : Port} {opcode : Nat} {want : BitVec 512 → Bool} {body : State → BitVec 512 → State}
    (hb : ∀ t r, Invariant t → Invariant (body t r)) : Invariant (s.serve p opcode want body) := by
  unfold State.serve
  extract_lets m
  refine .ite h ?_
  split
  · exact h
  · exact h.onMbx
  · exact h.respond
  · exact h.ite (hb _ _ (h.onSys.ite h))

theorem Invariant.serveDevSet {p : Port} {id top : Nat} {body : State → Nat → State}
    (hb : ∀ t v, Invariant t → Invariant (body t v)) :
    Invariant (s.serveDevSet p id top body) :=
  h.serve fun _ _ ht => (hb _ _ ht).respond.ite ht.respond

theorem Invariant.set_cmds {x : List Cmd} : Invariant { s with cmds := x } := h.frame (hide_setCmds (by simp))

theorem Invariant.set_vols {x : List Volume} : Invariant { s with vols := x } := h.frame (hide_setVols (by simp))

theorem Invariant.set_params {x : Params} : Invariant { s with params := x } := h.frame (hide_setParams (by simp))

end

end Sys2Proof.Safety
end

section
/-! PROOFS. The operations that write memory or the firmware event queue keep the invariant (R371 to R376, R414,
R417): each from the lemmas of the operations it is made of. -/

-- Proofs one after another: many small ones at once would each take a thread's stack.
set_option Elab.async false

namespace Sys2Proof.Safety

open Sys2Proof Sys2Proof.Machine Sys2Proof.Laws Sys2Proof.Proofs

/-! ### Memory -/

@[simp] theorem cleanLine_pools (m : Memory) (l : BitVec 34) : (m.cleanLine l).pools = m.pools := by
  unfold Memory.cleanLine
  split
  · rfl
  · dsimp only
    split
    · split <;> rfl
    · rfl

@[simp] theorem cleanAll_pools (m : Memory) : m.cleanAll.pools = m.pools := by
  unfold Memory.cleanAll
  refine List.foldlRecOn (motive := fun (acc : Memory) => acc.pools = m.pools) m.cache.lines _ rfl fun acc hacc kv _ => ?_
  split
  · exact hacc
  · exact hacc

/-- A record that R417 lets into the queue finds room in it. -/
theorem length_lt_of_mayPlace {n : Nat} {sev : Severity} (hp : mayPlace Config.eventCapacity Config.eventReserve n sev = true) :
    n < 1024 := by
  unfold mayPlace at hp
  have hc : Config.eventCapacity = 1024 := rfl
  split at hp <;> have := of_decide_eq_true hp <;> omega

theorem afterWarm_cells (m : Memory) : m.afterWarm.cells = m.cells := rfl

theorem afterWarm_pools (m : Memory) : m.afterWarm.pools = m.pools := rfl

section
variable {s t u : State}

/-- Memory as it is at reset meets the invariant. -/
theorem Invariant.of_reset (hm : t.mem = Memory.reset) (hq : t.ev.queue.length ≤ 1024) : Invariant t :=
  ⟨by rw [hm]; rfl, hq, fun p => by
    rw [hm, show Memory.reset.pools[p] = BallastPool.reset from Vector.getElem_replicate p.isLt]
    exact PoolSound.reset⟩

theorem Invariant.of_snd {α : Type} {x : α × State} {a : α} (h : Invariant x.2) (e : x = (a, t)) : Invariant t := by
  subst e
  exact h

theorem Invariant.dite {c : Prop} [Decidable c] {f : c → State} {g : ¬ c → State} (hf : ∀ k, Invariant (f k))
    (hg : ∀ k, Invariant (g k)) : Invariant (if k : c then f k else g k) := by
  split
  · exact hf _
  · exact hg _

variable (h : Invariant s)
include h

/-- A state whose memory is what a warm reset keeps of it (R366). -/
theorem Invariant.afterWarm (hm : t.mem = s.mem.afterWarm) (he : t.ev = s.ev) : Invariant t :=
  h.congr (by rw [hm, afterWarm_cells]) (by rw [hm, afterWarm_pools]) (by rw [he])

theorem Invariant.freeBufs {p : Fin 4} {is : List Nat} : Invariant (s.freeBufs p is) := by
  unfold State.freeBufs
  exact h.onPoolB (PoolSound.foldl (fun _ i hb => hb.freeOne (s.pageRetired p) i) is (h.pools p))

theorem Invariant.applyRetired {page : Nat} : Invariant (s.applyRetired page) := by
  unfold State.applyRetired
  refine h.foldl fun t p ht => ht.onPoolB ((ht.pools p).foldl_drop fun i hi => ?_)
  simp only [List.mem_filter, Bool.and_eq_true, Option.isNone_iff_eq_none] at hi
  exact hi.2.1

theorem Invariant.ballastLow {p : Fin 4} {o : Fin 12} : Invariant (s.ballastLow p o) := by
  unfold State.ballastLow
  exact h.ite (h.onPoolB ((h.pools p).congr (.refl _) (fun _ => rfl) rfl rfl)).raiseDev

theorem Invariant.ballastTake {o : Fin 12} {size : Nat} : Invariant (s.ballastTake o size).1 := by
  unfold State.ballastTake
  extract_lets n
  split
  · exact h
  · next p _ =>
    split
    · exact h
    · split
      · exact h.ballastLow
      · split
        · exact h.ballastLow
        · next i b hb =>
          dsimp only
          refine h.onPoolB ?_
          exact ((h.pools p).takeChain hb).congr (.refl _) (fun _ => rfl) rfl rfl

theorem Invariant.ballastGive {o : Fin 12} {x : BitVec 32} : Invariant (s.ballastGive o x) := by
  unfold State.ballastGive
  extract_lets p b
  split
  · exact h.raiseDev
  · exact h.freeBufs

theorem Invariant.ballastPassTo {o : Fin 12} {x : BitVec 32} {n : Fin 12} : Invariant (s.ballastPassTo o x n) := by
  unfold State.ballastPassTo
  extract_lets p b
  split
  · exact h.raiseDev
  · exact h.onPoolB ((h.pools p).passWords _ n)

/-- One more buffer of a list that is taken whole or not at all. -/
theorem Invariant.takeNext {o : Fin 12} {n : Nat} {hs : List (BitVec 32)} :
    Invariant (match s.ballastTake o n with
      | (t, some x) => (t, some (hs ++ [x]))
      | (t, none) => (hs.foldl (fun u x => u.ballastGive o x) t, none)).1 := by
  split
  · next t x e => exact Invariant.of_fst h.ballastTake e
  · next t e => exact (Invariant.of_fst h.ballastTake e).foldl fun _ _ hu => hu.ballastGive

theorem Invariant.takeAll {o : Fin 12} {sizes : List Nat} : Invariant (s.takeAll o sizes).1 := by
  unfold State.takeAll
  refine List.foldlRecOn (motive := fun (acc : State × Option (List (BitVec 32))) => Invariant acc.1) sizes _ h fun acc hacc n _ => ?_
  split
  · exact hacc
  · exact hacc.takeNext

theorem Invariant.giveAll {o : Fin 12} {hs : List (BitVec 32)} : Invariant (s.giveAll o hs) := by
  unfold State.giveAll
  exact h.foldl fun _ _ hu => hu.ballastGive

theorem Invariant.passAll {o : Fin 12} {hs : List (BitVec 32)} {newOwner : Fin 12} : Invariant (s.passAll o hs newOwner) := by
  unfold State.passAll
  exact h.foldl fun _ _ hu => hu.ballastPassTo

theorem Invariant.dropEntries {b : BayNo} {which : Entry → Bool} : Invariant (s.dropEntries b which) := by
  unfold State.dropEntries
  extract_lets es gone
  exact h.onBay.onPool.giveAll

theorem Invariant.dropVerify {b : BayNo} : Invariant (s.dropVerify b) := by
  unfold State.dropVerify
  exact h.dropEntries

theorem Invariant.dropScan {b : BayNo} : Invariant (s.dropScan b) := by
  unfold State.dropScan
  exact h.dropEntries.onSeq

theorem Invariant.freeRun {b : BayNo} : Invariant (s.freeRun b) := by
  unfold State.freeRun
  split
  · exact h.onWp.giveAll
  · exact h

theorem Invariant.joinCut {src bit : Nat} {now : BitVec 64} : Invariant (s.onEv (fun v => v.joinCut src bit now)) :=
  h.onEv (by simp [EventPath.joinCut])

theorem Invariant.cutGate {b : BayNo} {cause : CutCause} : Invariant (s.cutGate b cause) := by
  unfold State.cutGate
  extract_lets t now again bit pos addr s1
  have h1 : Invariant s1 := h.freeRun.busToSpace.onWp.onSeq
  exact h.ite (h.joinCut.onWp.ite h1.raiseBay.noteUnverified.dropVerify)

theorem Invariant.cutAll {cause : CutCause} : Invariant (s.cutAll cause) := by
  unfold State.cutAll
  exact h.eachBay fun _ _ hu => hu.cutGate

theorem Invariant.stopWriting {b : BayNo} : Invariant (s.stopWriting b) := by
  unfold State.stopWriting
  extract_lets t
  refine .ite h ?_
  split
  · exact h.onWp
  · exact h.sendPulses.busToSpace.freeRun.onWp.noteUnverified.dropVerify

theorem Invariant.faultBay {b : BayNo} {cause : FaultCause} : Invariant (s.faultBay b cause) := by
  unfold State.faultBay
  extract_lets s1 s2
  have h1 : Invariant s1 := h.cutGate.freeRun.dropScan.abortCal.parkFocus
  have h2 : Invariant s2 := h1.onBay
  exact h.ite h2.setBaySt.raiseBay

theorem Invariant.ripcord {cause : RipcordCause} : Invariant (s.ripcord cause) := by
  unfold State.ripcord
  extract_lets s1 s2 s3 s4 s5
  have h1 : Invariant s1 := h.cutAll.raiseDev
  have h2 : Invariant s2 := h1.onPair.eachBay fun _ _ hu => hu.ripcordBay
  have h3 : Invariant s3 := h2.releaseWithPeerOk
  have h4 : Invariant s4 := h3.onSys
  have h5 : Invariant s5 := h4.onSys
  refine .ite h ?_
  split
  · exact h4
  · exact h4
  · exact h5.enterRipcord.ite h5
  · exact h4.enterRipcord

theorem Invariant.warmReset {cause : WarmCause} : Invariant (s.warmReset cause) := by
  unfold State.warmReset
  split
  · exact h
  · refine Invariant.raiseDev (.of_reset ?_ ?_)
    · rfl
    · exact h.queue
  · refine .ite h.onSys (.raiseDev ?_)
    have hboot : Invariant ((s.setMode .boot).eachBay State.bayWarm) := h.setMode.eachBay fun _ _ hu => hu.bayWarm
    generalize (s.setMode .boot).eachBay State.bayWarm = u at hboot ⊢
    exact hboot.afterWarm rfl rfl

omit h in
theorem Invariant.powerOnReset : Invariant s.powerOnReset := by
  refine .of_reset ?_ ?_
  · rfl
  · exact Nat.zero_le _

theorem Invariant.writeRoot {clean : Bool} {warm : Bool} : Invariant (s.writeRoot clean warm) := by
  unfold State.writeRoot
  extract_lets g
  split
  exact ((h.emit.ite h).emit.emit.ite (h.emit.ite h).emit).emit.onStg.onMem

theorem Invariant.dropDirty {which : DirtyCluster → Bool} : Invariant (s.dropDirty which) := by
  unfold State.dropDirty
  exact h.onStg.giveAll

theorem Invariant.programmed {d : DirtyCluster} {loc : BitVec 34} : Invariant (s.programmed d loc) := by
  unfold State.programmed
  extract_lets prog e s1 s2
  have h1 : Invariant s1 := h.onSys.dropDirty
  have h2 : Invariant s2 := h1.onStg
  exact h2.set_cmds

theorem Invariant.program {stream : Fin 4} {ws : List NandWord} {ok again : Bool} {r : BitVec 34 × State}
    (hr : s.program stream ws ok again = some r) : Invariant r.2 :=
  h.frame (hide_program (by simp) (by simp) (by simp) (by simp) (by simp) (by simp) hr)

theorem Invariant.programJournal {ok again : Bool} {t : State} (ht : s.programJournal ok again = some t) : Invariant t :=
  h.frame (hide_programJournal (by simp) (by simp) (by simp) (by simp) (by simp) (by simp) (by simp) ht)

theorem Invariant.flushDirty {fuel : Nat} : Invariant (State.flushDirty fuel s) := by
  induction fuel generalizing s with
  | zero => exact h
  | succ fuel ih =>
    rw [State.flushDirty]
    split
    · exact h
    · split
      · next loc s1 e => exact ih (h.program e).programmed.ventSpill
      · exact h

theorem Invariant.flushAll {warm : Bool} : Invariant (s.flushAll warm) := by
  unfold State.flushAll
  extract_lets s1 s2
  have h1 : Invariant s1 := h.flushDirty.closeStripe.closeStripe
  have h2 : Invariant s2 := by
    refine h1.ite ?_
    cases e : s1.programJournal true true with
    | none => exact h1.onStg
    | some t => exact h1.programJournal e
  exact h2.closeStripe.writeRoot

theorem Invariant.placeDirty {d : DirtyCluster} : Invariant (s.placeDirty d) := by
  unfold State.placeDirty
  extract_lets s1 kept
  have h1 : Invariant s1 := h.onStg
  exact h1.giveAll

theorem Invariant.placeNew {d : DirtyCluster} : Invariant (s.placeNew d) := by
  unfold State.placeNew
  refine .ite h.placeDirty ?_
  split
  · next t x e => exact (Invariant.of_fst h.ballastTake e).placeDirty
  · next t e => exact .of_fst h.ballastTake e

theorem Invariant.tetherBuf {d : DirtyCluster} : Invariant (s.tetherBuf d).1 := by
  unfold State.tetherBuf
  split
  · exact h
  · split
    next t x e => exact .of_fst h.ballastTake e

theorem Invariant.dropUncommitted : Invariant s.dropUncommitted := by
  unfold State.dropUncommitted
  exact h.onPair.giveAll

theorem Invariant.acceptMirror {msg : BitVec 32} {d : DirtyCluster} : Invariant (s.acceptMirror msg d) := by
  unfold State.acceptMirror
  extract_lets s1 s2
  have h1 : Invariant s1 := h.passAll.placeDirty
  have h2 : Invariant s2 := h1.set_cmds
  exact h2.send

theorem Invariant.settleMirrors {fuel : Nat} : Invariant (State.settleMirrors fuel s) := by
  induction fuel generalizing s with
  | zero => exact h
  | succ fuel ih =>
    rw [State.settleMirrors]
    split
    · exact h
    · split
      next s1 d1 e =>
      have h1 : Invariant s1 := .of_fst h.tetherBuf e
      exact (ih h1.onPair.acceptMirror).ite h1.onPair

theorem Invariant.setMemRegs : Invariant s.setMemRegs := by
  unfold State.setMemRegs
  extract_lets blocks ticks
  exact h.onMem

theorem Invariant.proposePage {page : Nat} : Invariant (s.proposePage page) := by
  unfold State.proposePage
  extract_lets s1
  have h1 : Invariant s1 := h.raiseDev
  exact h.ite (h1.ite (h1.raiseDev.ite h1.onFlash.applyRetired.raiseDev.testLoses))

theorem Invariant.countPageCe {page : Nat} : Invariant (s.countPageCe page) := by
  unfold State.countPageCe
  extract_lets now recent all s1
  have h1 : Invariant s1 := h.onMem
  exact h1.proposePage.ite h1

/-- A block read back as it was decoded (R363). -/
theorem Invariant.spoiled {addr : Nat} {wrong : List Nat} : Invariant (s.onMem (fun m => m.spoil addr wrong)) := by
  refine h.onCells ?_ ?_
  · unfold Memory.spoil
    split
    · exact h.mem
    · exact cellsWf_memWrite _ _ _ h.mem
  · unfold Memory.spoil
    split <;> rfl

/-- A block read of which an error is recorded, its stored bytes read back as they were decoded. -/
theorem Invariant.spoilPush {addr : Nat} {wrong : List Nat} {e : DramError} :
    Invariant (s.onMem (fun m => (m.spoil addr wrong).pushError e)) := by
  have hpush : ∀ m : Memory, (m.pushError e).cells = m.cells ∧ (m.pushError e).pools = m.pools := fun m => by
    unfold Memory.pushError
    constructor <;> (repeat' split) <;> rfl
  exact h.spoiled.onMem (f := fun m => m.pushError e) (hpush _).1 (hpush _).2

theorem Invariant.pushError {e : DramError} : Invariant (s.onMem (fun m => m.pushError e)) :=
  (Invariant.spoilPush h (wrong := []) (addr := 0) :)

theorem Invariant.dramResult {addr : BitVec 40} {source : Nat} {o : DramObs} : Invariant (s.dramResult addr source o).2 := by
  unfold State.dramResult
  extract_lets block page entry
  split
  · exact h
  · split
    · exact h.spoilPush.logRetry.raiseDev
    · exact h.spoilPush.logRetry.raiseAt.countPageCe
  · split
    next a s1 ha =>
    split
    next c s2 hc =>
    have h1 : Invariant s1 := .of_snd h.freeInt ha
    have h2 : Invariant s2 := .of_snd h1.freeInt hc
    split
    · exact h2.pushError.logRetry.raiseDev
    · exact h2.pushError.logRetry.raiseDev
    · exact h2.pushError.logRetry

theorem Invariant.busErrorTo {r : Requester} {addr : BitVec 40} : Invariant (s.busErrorTo r addr) := by
  unfold State.busErrorTo
  extract_lets l
  split
  · exact h.raiseDev.abort
  · exact h.raiseDev.abort
  · exact h.raiseDev.emit.complete
  · exact h.raiseDev.emit.onDec
  · exact h.dirtyLost.emit
  · exact h.raiseDev.emit.complete
  · exact h.raiseDev.abort.onCache

theorem Invariant.setRole {r : RoleWord} : Invariant (s.setRole r) := by
  unfold State.setRole
  exact h.onMem.onPair

theorem Invariant.setProgress {p : Progress} : Invariant (s.setProgress p) := by
  unfold State.setProgress
  extract_lets w
  exact h.onMem.onSys.onFlash

theorem Invariant.cacheServe {l : BitVec 34} {addr : BitVec 40} {a : CoreAccess} : Invariant (s.cacheServe l addr a) := by
  unfold State.cacheServe
  split
  · exact h
  · extract_lets key
    split
    · split
      · exact h.emit
      · exact h
    · exact h.onCache

theorem Invariant.prefetchLine {n : Nat} : Invariant (s.prefetchLine n) := by
  unfold State.prefetchLine
  extract_lets l k
  exact h.ite h.onCache

theorem Invariant.noteMiss {c : CoreNo} {l : BitVec 34} : Invariant (s.noteMiss c l) := by
  unfold State.noteMiss
  extract_lets seq s1
  have h1 : Invariant s1 := h.onCache
  exact h1.prefetchLine.prefetchLine.ite h1

/-- A memory that differs in its engine cache, or in DRAM where that keeps its form. -/
theorem Invariant.maintLineOp {code : Nat} {l : BitVec 34} : Invariant (s.onMem (fun m => m.maintLineOp code l)) := by
  refine h.onCells (Memory.wf_maintLineOp _ _ _ h.mem) ?_
  unfold Memory.maintLineOp
  split
  · rfl
  · exact cleanLine_pools _ _
  · exact cleanLine_pools _ _

theorem Invariant.maintByAddress {code : Nat} : Invariant (s.maintByAddress code) := by
  unfold State.maintByAddress
  extract_lets k l
  exact h.onCache.ite (h.onCache.ite h.maintLineOp)

theorem Invariant.maintAll {f : Memory → Memory} (hw : (f s.mem).wf = true) (hp : (f s.mem).pools = s.mem.pools) :
    Invariant (s.maintAll f) := by
  unfold State.maintAll
  exact h.onCache.ite (h.onCells hw hp)

theorem Invariant.maintRelease {l : BitVec 34} : Invariant (s.maintRelease l) := by
  unfold State.maintRelease
  split
  · exact h
  · exact h.maintLineOp.onCache.ite h

theorem Invariant.setPairRole {r : RoleWord} : Invariant (s.setPairRole r) := by
  unfold State.setPairRole
  exact h.setRole.onFlash

theorem Invariant.discardData {which : VolId → Bool} : Invariant (s.discardData which) := by
  unfold State.discardData
  exact h.dropDirty.onStg

theorem Invariant.dropMirrors : Invariant s.dropMirrors := by
  unfold State.dropMirrors
  extract_lets keep which
  exact h.discardData.unbind.dropUncommitted.onPair

theorem Invariant.endPair : Invariant s.endPair := by
  unfold State.endPair
  exact h.dropUncommitted.setPairRole.onPair

theorem Invariant.startTakeover : Invariant s.startTakeover := by
  unfold State.startTakeover
  extract_lets s1
  have h1 : Invariant s1 := h.setMode.raiseDev
  exact h1.dropUncommitted.onPair.mirrorLost

theorem Invariant.judgeBoth : Invariant s.judgeBoth := by
  unfold State.judgeBoth
  split
  · exact h.startTakeover.ite h.peerLost
  · exact (h.onSys.ite h).mirrorLost
  · exact h.peerLost

theorem Invariant.returnTo {m : Mode} : Invariant (s.returnTo m) := by
  unfold State.returnTo
  extract_lets s1
  have h1 : Invariant s1 := h.setMode
  exact h1.startTakeover.ite h1

theorem Invariant.failJoin {status : Byte} : Invariant (s.failJoin status) := by
  unfold State.failJoin
  extract_lets s1
  have h1 : Invariant s1 := h.dropMirrors.onPair
  split
  · exact h1.respondRun
  · exact h1

theorem Invariant.tetherStops {dest : TetherSt} : Invariant (s.tetherStops dest) := by
  unfold State.tetherStops
  extract_lets s1
  have h1 : Invariant s1 := h.onPair
  exact h1.failJoin.ite h1

theorem Invariant.undo {b : BayNo} {cause : Nat} : Invariant (s.undo b cause) := by
  unfold State.undo
  extract_lets d spec s1 s2 s3
  have h1 : Invariant s1 := h.onDec
  have h2 : Invariant s2 := h1.onPool
  have h3 : Invariant s3 := h2.giveAll
  exact h3.raiseBay

theorem Invariant.undoWrite {vid : VolId} {hits : Nat → Bool} : Invariant (s.undoWrite vid hits) := by
  unfold State.undoWrite
  exact h.eachBay fun _ _ hu => hu.undo.ite hu

theorem Invariant.orderUnmount {b : BayNo} {cmd : Option CmdId} : Invariant (s.orderUnmount b cmd) := by
  unfold State.orderUnmount
  extract_lets s1
  have h1 : Invariant s1 := h.onBay
  split
  · exact h1.unload
  · exact h1.undo

theorem Invariant.placeDisc {vid : VolId} : Invariant (s.placeDisc vid) := by
  unfold State.placeDisc
  split
  · exact h
  · refine .ite h ?_
    split
    · exact h.onSeq.ite h
    · refine .ite h ?_
      split
      · split
        · next s1 e =>
          have hs1 : Invariant s1 := .of_fst h.orderMove e
          exact hs1.onSeq.ite hs1
        · next s1 _ e =>
          have hs1 : Invariant s1 := .of_fst h.orderMove e
          exact hs1.endWaiters
      · split
        · exact h.orderUnmount
        · exact h

theorem Invariant.formatBegins {vid : VolId} : Invariant (s.formatBegins vid) := by
  unfold State.formatBegins
  exact h.setProgress

theorem Invariant.formatEnds {p : Port} {status : Byte} : Invariant (s.formatEnds p status) := by
  unfold State.formatEnds
  extract_lets q s1
  have h1 : Invariant s1 := h.setProgress
  exact h1.respondRun

theorem Invariant.closeEntry {b : BayNo} {i : Nat} : Invariant (s.closeEntry b i) := by
  unfold State.closeEntry
  extract_lets bufs
  exact h.onBay.onPool.giveAll

theorem Invariant.finishEntry {b : BayNo} {i : Nat} {status : Byte} : Invariant (s.finishEntry b i status) := by
  unfold State.finishEntry
  extract_lets bad
  split
  · exact h
  · exact (((h.foldl fun _ _ hu => hu.deliver).onSeq).ite (h.foldl fun _ _ hu => hu.deliver)).closeEntry

theorem Invariant.failDisc {b : BayNo} : Invariant (s.failDisc b) := by
  unfold State.failDisc
  extract_lets vid s1 reads s2 jobs s3 mine
  have h1 : Invariant s1 := h.foldl fun _ _ hu => hu.finishEntry
  have h2 : Invariant s2 := h1.foldl fun _ _ hu => hu.foldl fun _ _ hu => hu.deliver
  have h3 : Invariant s3 := h2.foldl fun _ j hu => by
    cases j.cmd
    · exact hu
    · exact hu.complete
  exact h3.freeRun.onBay.onStg

theorem Invariant.laneLost {b : BayNo} {n : Beam} : Invariant (s.laneLost b n) := by
  unfold State.laneLost
  extract_lets s1 lanes s2
  have h1 : Invariant s1 := h.onAfe.raiseBay
  have h2 : Invariant s2 := h1.raiseBay
  exact h2.faultBay.ite (h2.stopWriting.setBaySt.ite h2)

theorem Invariant.substitute {b : BayNo} {n : Beam} : Invariant (s.substitute b n) := by
  unfold State.substitute
  exact h.orderRelief.ite h.laneLost

theorem Invariant.reliefFailed {b : BayNo} : Invariant (s.reliefFailed b) := by
  unfold State.reliefFailed
  extract_lets a
  split
  · exact h.onAfe.laneLost
  · exact h.laneBack.ite h.laneBack.laneLost
  · exact h

theorem Invariant.retiredInSlot {b : BayNo} {c : CalRun} : Invariant (s.retiredInSlot b c) := by
  unfold State.retiredInSlot
  exact h.onAfe.ite (h.onAfe.ite (h.onAfe.ite h.onAfe.laneLost))

theorem Invariant.slotRunEnds {b : BayNo} {c : CalRun} {first : Trim} {final : Trim} :
    Invariant (s.slotRunEnds b c first final) := by
  unfold State.slotRunEnds
  extract_lets s1 s2
  have h1 : Invariant s1 := h.runEnds.onAfe
  have h2 : Invariant s2 := h1.proposeRetire
  exact (h2.retiredInSlot.ite h2).ite h1

theorem Invariant.enterLull {b : BayNo} {l : LoopId} {cause : LullCause} : Invariant (s.enterLull b l cause) := by
  unfold State.enterLull
  extract_lets s1
  have h1 : Invariant s1 := h.lullLoop
  refine .ite h ?_
  split
  · exact h1.lullLoop.abandonMove.onSrv.cutGate.onSeq
  · exact h1.abandonMove.onSrv.cutGate.onSeq
  · exact h1.cutGate.onSeq
  · exact h1.onSeq

theorem Invariant.retract {b : BayNo} : Invariant (s.retract b) := by
  unfold State.retract
  extract_lets s1 s2
  have h1 : Invariant s1 := h.abandonMove.raiseBay
  have h2 : Invariant s2 := h1.cutGate.invalidateTables.parkFocus.onSrv
  exact h2.setBaySt.onSeq

theorem Invariant.mountFails {b : BayNo} {stage : MountStage} : Invariant (s.mountFails b stage) := by
  unfold State.mountFails
  extract_lets s1 s2 s3 s4
  have h1 : Invariant s1 := h.raiseBay
  have h2 : Invariant s2 := h1.mountsFailed
  have h3 : Invariant s3 := by -- op Sys2Proof.State.mountFails.match_1 path 0
    unfold s3
    split
    · exact h2.formatEnds
    · exact h2
  have h4 : Invariant s4 := h3.dropScan.onBay
  exact h4.unload.ite h4.spinDown

theorem Invariant.mountStepFailed {b : BayNo} {stage : MountStage} : Invariant (s.mountStepFailed b stage) := by
  unfold State.mountStepFailed
  exact h.logRetry.mountFails.ite h.onSeq

theorem Invariant.acquisitionFailed {b : BayNo} {stage : MountStage} : Invariant (s.acquisitionFailed b stage) := by
  unfold State.acquisitionFailed
  extract_lets q
  exact h.mountStepFailed.ite (h.faultBay.ite h.onSeq)

theorem Invariant.openFresh {b : BayNo} {l : Beam} {home read : ClusterAddr} {seq : BitVec 32} {reqs : List CmdId} {cls : CwClass}
    {use : EntryUse} : Invariant (s.openFresh b l home read seq reqs cls use).1 := by
  unfold State.openFresh
  extract_lets t
  split
  next n s0 e =>
  have h0 : Invariant s0 := .of_snd h.fresh e
  have hlate : ∀ {u : State}, Invariant u → Invariant (if cls = .demand ∧ (match use with | .verify _ => true | _ => false) = false
      then u.lateUnread b home read else u) := fun hu => hu.lateUnread.ite hu
  split
  · exact h
  · split
    · exact hlate (h.ite h.raiseBay.onDec)
    · split
      · next s1 e1 => exact hlate (.of_fst h0.takeAll e1)
      · next s1 bufs e1 =>
        dsimp only
        exact (Invariant.of_fst h0.takeAll e1).onDec.onSeq

theorem Invariant.openVerify {b : BayNo} {l : Beam} {read : ClusterAddr} {seq : BitVec 32} :
    Invariant (s.openVerify b l read seq) := by
  unfold State.openVerify
  extract_lets x
  clear_value x
  split
  · exact h.openFresh.ite h
  · exact h

theorem Invariant.openEntry {b : BayNo} {l : Beam} {home read : ClusterAddr} {cls : CwClass} {seq : BitVec 32} :
    Invariant (s.openEntry b l home read cls seq).1 := by
  unfold State.openEntry
  extract_lets t reqs management
  split
  · split
    · dsimp only
      exact h.onEntry.onSeq
    · exact h
  · split
    · exact h.openFresh
    · split
      · exact h.openFresh
      · split
        · exact h.openFresh
        · exact h

theorem Invariant.keepPass {b : BayNo} {i k : Nat} {soft : List Int} {erased : Nat} :
    Invariant (s.keepPass b i k soft erased) := by
  unfold State.keepPass
  split
  · next s1 bufs e hs _ =>
    have h1 : Invariant s1 := .of_fst h.takeAll hs
    refine Invariant.onEntry ?_
    split
    · exact h1.giveAll
    · exact h1
  · next s1 _ hs _ => exact .of_fst h.takeAll hs

theorem Invariant.submit {b : BayNo} {i : Nat} {k : Nat} {soft : List Int} : Invariant (s.submit b i k soft) := by
  unfold State.submit
  split
  · exact h
  · exact h.ite (h.keepPass.onEntry.ite h.keepPass.enqueue)

theorem Invariant.recordFrame {b : BayNo} {i : Nat} {r : FrameRecord} {fs : List Bool} :
    Invariant (s.recordFrame b i r fs) := by
  unfold State.recordFrame
  split
  · exact h
  · exact h.onEntry.foldl fun _ _ hu => hu.submit

theorem Invariant.addressMismatch {b : BayNo} {l : Beam} {read : ClusterAddr} : Invariant (s.addressMismatch b l read) := by
  unfold State.addressMismatch
  extract_lets x s1 s2 s3
  have h1 : Invariant s1 := h.raiseBay
  have h2 : Invariant s2 := h1.onSeq
  have h3 : Invariant s3 := by -- op Sys2Proof.State.openEntry.match_1 path 0
    unfold s3
    refine .ite h2.stopWriting.setBaySt ?_
    split
    · exact h2.ite (h2.closeEntry.ite (h2.onEntry.ite h2.onEntry.lateUnread))
    · exact h2
  exact h2.faultBay.ite h3.onLane

theorem Invariant.judgeAddress {b : BayNo} {l : Beam} {r : FrameRecord} : Invariant (s.judgeAddress b l r) := by
  unfold State.judgeAddress
  extract_lets landed a
  clear_value landed
  refine .ite h.raiseBay ?_
  split
  · exact h.onSrv.layerFound
  · exact h.onSeq.ite h.addressMismatch

theorem Invariant.feedbackLoss {b : BayNo} {l : LoopId} : Invariant (s.feedbackLoss b l) := by
  unfold State.feedbackLoss
  exact h.enterLull.ite h

theorem Invariant.runOuter {b : BayNo} {i : Nat} : Invariant (s.runOuter b i) := by
  unfold State.runOuter
  split
  · exact h
  · next e _ =>
    have hnote : ∀ (u : State) (k : Nat), Invariant u →
        Invariant (match e.misplaced k with | some m => u.metaMismatch b e k m | none => u) := fun u k hu => by
      split
      · exact hu.metaMismatch
      · exact hu
    have h1 := h.foldl (l := List.range 32) hnote
    split
    · exact h1.onEntry.giveAll.ite h1.onEntry.giveAll.raiseBay
    · exact h1.onEntry.giveAll

theorem Invariant.stageWeak {b : BayNo} {e : Entry} : Invariant (s.stageWeak b e) := by
  unfold State.stageWeak
  extract_lets n
  split
  · split
    · exact h.ite (h.onSys.placeNew.onDec.ite h.onSys.placeNew)
    · exact h
  · exact h

theorem Invariant.judgeWeak {b : BayNo} {e : Entry} : Invariant (s.judgeWeak b e) := by
  unfold State.judgeWeak
  extract_lets s1
  have h1 : Invariant s1 := h.raiseBay
  exact (h1.stageWeak.ite h1).ite h

theorem Invariant.toStore {b : BayNo} {i : Nat} {e : Entry} : Invariant (s.toStore b i e) := by
  unfold State.toStore
  extract_lets cap x s1 all out
  have h1 : Invariant s1 := h.onEntry.closeEntry
  exact h1.onDec.giveAll

theorem Invariant.clusterDone {b : BayNo} {i : Nat} {e : Entry} : Invariant (s.clusterDone b i e) := by
  unfold State.clusterDone
  extract_lets s1 s2
  have h1 : Invariant s1 := h.raiseBay.logRetry.ite h
  have h2 : Invariant s2 := h1.judgeWeak.onSeq
  exact h2.finishEntry

theorem Invariant.ladderEnds {b : BayNo} {i : Nat} {k : Nat} {e : Entry} : Invariant (s.ladderEnds b i k e) := by
  unfold State.ladderEnds
  exact h.raiseBay.finishEntry

theorem Invariant.ladderNext {b : BayNo} {i : Nat} {k : Nat} {e : Entry} : Invariant (s.ladderNext b i k e) := by
  unfold State.ladderNext
  extract_lets n
  exact h.ladderEnds.ite (h.awaitPass.ite h.onEntry.submitKept)

theorem Invariant.ladderJudge {b : BayNo} {i n : Nat} : Invariant (s.ladderJudge b i n) := by
  unfold State.ladderJudge
  extract_lets s1
  have h1 : Invariant s1 := h.runOuter
  split
  · exact h1
  · exact h1.raiseBay.onEntry.raiseBay.clusterDone.ite (h1.awaitPass.ite h1.raiseBay.onEntry.ladderNext)

theorem Invariant.touchStore {b : BayNo} {a : ClusterAddr} : Invariant (s.touchStore b a) := by
  unfold State.touchStore
  extract_lets d old
  exact h.onDec.giveAll

theorem Invariant.wantCluster {b : BayNo} {id : CmdId} {u : Nat} : Invariant (s.wantCluster b id u) := by
  unfold State.wantCluster
  extract_lets a s0 queued
  have h0 : Invariant s0 := h.touchStore
  have hqueued : Invariant queued := h0.onSeq
  split
  · exact h.deliver.touchStore
  · split
    · exact hqueued.ite h0.attach
    · exact hqueued

theorem Invariant.serveSectors {c : Cmd} {v : Volume} {b : Option BayNo} : Invariant (s.serveSectors c v b) := by
  unfold State.serveSectors
  extract_lets direct fromDisc s1 s2 last s3
  have h1 : Invariant s1 := h.onCmd
  have h2 : Invariant s2 := h1.giveData.ite h1
  have h3 : Invariant s3 := by -- op Sys2Proof.State.endMove.match_3 path 0
    unfold s3
    split
    · exact (h2.foldl fun _ _ hu => hu.wantCluster).ite ((h2.foldl fun _ _ hu => hu.wantCluster).onDec)
    · exact h2
  exact h3.settleRead

theorem Invariant.serveRead {c : Cmd} {v : Volume} : Invariant (s.serveRead c v) := by
  unfold State.serveRead
  extract_lets needs
  split
  · exact h.serveSectors
  · exact h.serveSectors
  · exact h.setWait.placeDisc.ite h.complete

theorem Invariant.placeWrite {c : Cmd} {data : List SectorData} : Invariant (s.placeWrite c data) := by
  unfold State.placeWrite
  exact h.foldl fun _ _ hu => hu.onSys.placeNew

theorem Invariant.applyWrite {c : Cmd} {data : List SectorData} : Invariant (s.applyWrite c data) := by
  unfold State.applyWrite
  extract_lets mine s0 s1 s2 first s3
  have h0 : Invariant s0 := h.placeWrite.eachBay fun _ _ hu => hu.onDec
  have h1 : Invariant s1 := h0.undoWrite
  have h2 : Invariant s2 := h1.onCmd
  have h3 : Invariant s3 := h2.onPair.ite h2
  exact ((h2.foldl fun _ _ hu => hu.sendMirror).setWait).ite (h3.setWait.ite h3.complete)

theorem Invariant.serveWrite {c : Cmd} {v : Volume} {data : List SectorData} : Invariant (s.serveWrite c v data) := by
  unfold State.serveWrite
  refine .ite ?_ ?_
  · split
    · exact h.onVol
    · exact h.setWait.placeDisc
  · split
    · exact h.complete
    · exact h.ite (h.applyWrite.ite (h.expired.complete.ite h.setWait.gcStart))

theorem Invariant.serveDestage {c : Cmd} {v : Volume} : Invariant (s.serveDestage c v) := by
  unfold State.serveDestage
  split
  · exact h.setWait.placeDisc.ite h.complete
  · extract_lets us
    split
    · exact h.complete
    · exact h.ite (h.complete.ite h.queueJob.onCmd)

theorem Invariant.readStatus {b : BayNo} {v : BitVec 16} : Invariant (s.readStatus b v) := by
  unfold State.readStatus
  extract_lets s1
  have h1 : Invariant s1 := h.onWp
  exact h1.raiseBay.faultBay.ite h1

theorem Invariant.answered {b : BayNo} {req : LdlReq} {answer : BitVec 32} : Invariant (s.answered b req answer) := by
  unfold State.answered
  exact h.readStatus.ite h

theorem Invariant.fetchStaged {items : List WriteItem} : Invariant (s.fetchStaged items).1 := by
  unfold State.fetchStaged
  refine List.foldlRecOn
    (motive := fun (acc : State × List (ClusterAddr × BitVec 32) × List WriteItem) => Invariant acc.1) items _ h fun acc hacc x _ => ?_
  split
  · next t y e => exact Invariant.of_fst hacc.ballastTake e
  · next t e => exact Invariant.of_fst hacc.ballastTake e

theorem Invariant.takeTurn {b : BayNo} {layer : LayerNo} {turn : Nat} {todo : List WriteItem} :
    Invariant (s.takeTurn b layer turn todo).1 := by
  unfold State.takeTurn
  extract_lets t
  split
  · split
    · next s1 bufs short e =>
      have hs1 : Invariant s1 := .of_fst h.fetchStaged e
      exact hs1

theorem Invariant.turnEnds {b : BayNo} : Invariant (s.turnEnds b) := by
  unfold State.turnEnds
  extract_lets w
  split
  · exact h
  · refine .ite h (.ite h.onWp.onWp ?_)
    split
    · exact h.onWp.onWp
    · next s2 bufs items rest e => exact (Invariant.of_fst h.onWp.takeTurn e).beginTurn

theorem Invariant.writePeriod {b : BayNo} {was : Nat} : Invariant (s.writePeriod b was) := by
  unfold State.writePeriod
  extract_lets t wraps
  split
  · exact h
  · exact h.ite ((h.sendPulses.onWp.turnEnds.ite h.sendPulses.onWp).setGate)

theorem Invariant.clockPeriod {b : BayNo} {errs : List Rat} : Invariant (s.clockPeriod b errs) := by
  unfold State.clockPeriod
  exact h.foldl fun _ _ hu => hu.onWp.cutGate.ite hu.onWp

theorem Invariant.freeStaged {b : BayNo} {home : ClusterAddr} : Invariant (s.freeStaged b home) := by
  unfold State.freeStaged
  split
  · exact h.onWp.giveAll
  · exact h

theorem Invariant.overrun {b : BayNo} {l : LoopId} : Invariant (s.overrun b l) := by
  unfold State.overrun
  extract_lets n s1
  have h1 : Invariant s1 := h.onSrv.raiseBay
  exact h1.enterLull.ite h1

theorem Invariant.law {b : BayNo} {l : LoopId} {onTime : Bool} {err : Rat} {ff : Rat} {cut : Bool} :
    Invariant (s.law b l onTime err ff cut) := by
  unfold State.law
  extract_lets v x s1
  have h1 : Invariant s1 := h.compute
  exact h.onSrv.ite (h.enterLull.onSrv.ite (h.overrun.ite (h1.enterLull.ite h1)))

theorem Invariant.servoLaws {b : BayNo} {o : ServoObs} : Invariant (s.servoLaws b o) := by
  unfold State.servoLaws
  extract_lets held s1 s2 v s3 fen ten s4
  have h1 : Invariant s1 := h.law
  have h2 : Invariant s2 := h1.law
  have h3 : Invariant s3 := h2.enterLull.ite h2
  have h4 : Invariant s4 := h3.focusPeriod.trackPeriod.movePeriod.lensPeriod
  exact h2.ite h4.onSrv

theorem Invariant.rotorLoss {b : BayNo} {cause : Nat} : Invariant (s.rotorLoss b cause) := by
  unfold State.rotorLoss
  extract_lets s1 st s2
  have h1 : Invariant s1 := h.cutGate.coastLevel
  have h2 : Invariant s2 := h1.abandonMove.parkFocus.setBaySt.onBay
  exact (h2.faultBay.ite h2).ite h1

theorem Invariant.loseEncoder {b : BayNo} {cause : Nat} : Invariant (s.loseEncoder b cause) := by
  unfold State.loseEncoder
  extract_lets p s1
  have h1 : Invariant s1 := h.onSpn.raiseBay
  exact h.ite ((h1.onSpn.ite ((h1.ite h1.onSpn).ite h1.rotorLoss)).ite h1)

theorem Invariant.compareAngles {b : BayNo} : Invariant (s.compareAngles b) := by
  unfold State.compareAngles
  extract_lets p d n s1
  have h1 : Invariant s1 := h.onSpn
  exact (h1.rotorLoss.ite h1).ite h

theorem Invariant.drivenPeriod {b : BayNo} {o : PwmObs} : Invariant (s.drivenPeriod b o) := by
  unfold State.drivenPeriod
  extract_lets s'
  have h' : Invariant s' := h.takePeriod.onSpn
  exact h'.sixStepPeriod.observe.ite h'.sinePeriod.observe.compareAngles

theorem Invariant.startFailed {b : BayNo} : Invariant (s.startFailed b) := by
  unfold State.startFailed
  extract_lets q
  exact h.ite (h.mountStepFailed.ite (h.faultBay.ite h.onSeq))

theorem Invariant.sledStalled {b : BayNo} {cause : Nat} : Invariant (s.sledStalled b cause) := by
  unfold State.sledStalled
  extract_lets x s1
  have h1 : Invariant s1 := h.onSld.raiseBay
  exact h1.logRetry.faultBay.ite (h1.ite h1.onBay)

theorem Invariant.mountFound {b : BayNo} {set : Option MgmtSet} {used1 : Nat} {used2 : Nat} :
    Invariant (s.mountFound b set used1 used2) := by
  unfold State.mountFound
  extract_lets vid closed s1 s2
  have h1 : Invariant s1 := h.dropScan.onDisc.stepPassed
  have h2 : Invariant s2 := h1.onBay
  exact h2.volMounted.setBaySt.resumeFormat.mountDone

theorem Invariant.scanOn {b : BayNo} {m : MgmtScan} : Invariant (s.scanOn b m) := by
  unfold State.scanOn
  extract_lets n reads
  refine .ite h.onSeq ?_
  split
  · exact h.mountFound.ite h.mountFails
  · exact h.mountFound

theorem Invariant.carryWork {src : BayNo} {dst : BayNo} : Invariant (s.carryWork src dst) := by
  unfold State.carryWork
  extract_lets t kept entries again s1 s2 s3
  have h1 : Invariant s1 := h.onBay
  have h2 : Invariant s2 := h1.onBay
  have h3 : Invariant s3 := h2.onPool
  exact h3.passAll

theorem Invariant.remountFrom {b : BayNo} : Invariant (s.remountFrom b) := by
  unfold State.remountFrom
  extract_lets cause s0 s1
  have h0 : Invariant s0 := h.setBaySt.undo
  have h1 : Invariant s1 := h0.onBay.onSeq
  refine .ite h ?_
  split
  · split
    · next s2 e =>
      have hs2 : Invariant s2 := .of_fst h1.orderMove e
      exact hs2.carryWork
    · next s2 _ e =>
      have hs2 : Invariant s2 := .of_fst h1.orderMove e
      exact hs2.failDisc
  · split
    · exact h.orderUnmount
    · exact h

theorem Invariant.writeBar0 {p : Port} {off : Nat} {w : AccWidth} {v : BitVec 64} : Invariant (s.writeBar0 p off w v) := by
  unfold State.writeBar0
  refine .ite h.resetPairs (.ite (h.warmReset.ite h) ?_)
  refine .dite (fun _ => h.writeCell) fun _ => ?_
  refine .ite (h.onMbx.ite h) (.ite (h.ringMailbox.ite h) (.ite (h.onMbx.ite h) ?_))
  refine .ite (h.onRing.ite h) (.ite (h.onRing.ite h) (.ite (h.onRing.ite h) (.ite h.clearAlarm ?_)))
  refine .ite (h.onPort.ite h) (.ite (h.freezeReel.ite (h.thawReel.ite h)) ?_)
  exact .dite (fun _ => h.writeDoorbell) fun _ => .dite (fun _ => h.writeQueueReg) fun _ => .dite (fun _ => h.writeMsix) fun _ => h

theorem Invariant.maintain {code : Nat} : Invariant (s.maintain code) := by
  have hinv : ∀ m : Memory, m.wf = true → m.invalidateAll.wf = true := fun _ hm => hm
  unfold State.maintain
  split
  · exact h.maintByAddress
  · exact h.maintByAddress
  · exact h.maintByAddress
  · exact h.maintAll (hinv _ h.mem) rfl
  · exact h.maintAll (Memory.wf_cleanAll _ h.mem) (cleanAll_pools _)
  · exact h.maintAll (hinv _ (Memory.wf_cleanAll _ h.mem)) (cleanAll_pools _)
  · exact h

/-- The control register of the scrubber: a restart clears its position and counters. -/
theorem Invariant.scrubControl {on again : Bool} : Invariant (s.onMem (fun m =>
    let n := { m with scrubOn := on }
    if again then { n with scrubPos := 0, scrubUe := 0, scrubCe := 0 } else n)) :=
  h.onMem (by dsimp only; split <;> rfl) (by dsimp only; split <;> rfl)

theorem Invariant.writeControl {off : Nat} {v : BitVec 64} : Invariant (s.writeControl off v) := by
  unfold State.writeControl
  exact h.onCache.ite (h.onCache.ite (h.maintain.ite ((h.onCache.ite h).ite (h.scrubControl.ite (h.onMem.ite h)))))

theorem Invariant.servePrefetch {c : Cmd} : Invariant (s.servePrefetch c) := by
  unfold State.servePrefetch
  extract_lets s1
  have h1 : Invariant s1 := h.setWait.placeDisc
  split
  · exact h.onDec.complete
  · exact h.complete.ite (h1.complete.ite (h1.complete.ite h1))

theorem Invariant.carve : Invariant s.carve := by
  unfold State.carve
  extract_lets _ s1 s2
  have h1 : Invariant s1 := h.ite h.set_params.raiseDev
  have h2 : Invariant s2 := ⟨h1.mem, h1.queue, fun p => by
    rw [show s2.mem.pools[p] = BallastPool.carved _ _ from Vector.getElem_ofFn p.isLt]
    exact PoolSound.carved _ _⟩
  exact (h2.onMem (f := fun m => { m with pagesDue := [] })).foldl fun _ _ hu => hu.applyRetired

theorem Invariant.writeLimits : Invariant s.writeLimits := by
  unfold State.writeLimits
  exact h.onMem

theorem Invariant.takeRecords : Invariant s.takeRecords := by
  unfold State.takeRecords
  extract_lets s1 p
  have h1 : Invariant s1 := by -- op Sys2Proof.State.takeRecords.match_1 path 0
    unfold s1
    split
    · exact h.setRole
    · exact h
  exact h1.setProgress.ite h1.setProgress

theorem Invariant.resumePaired : Invariant s.resumePaired := by
  unfold State.resumePaired
  extract_lets s0 s1 past
  have h0 : Invariant s0 := by -- op Sys2Proof.State.resumePaired.match_1 path 0
    unfold s0
    split
    · exact h.loadImage
    · exact h
  have h1 : Invariant s1 := h0.onSys
  exact h1.startTakeover.ite (h1.setMode.onPair.ite h1.setMode.onPair.onFlash.endCommands)

theorem Invariant.afterAccept {id inst : Nat} {old v : Int} : Invariant (s.afterAccept id inst old v) := by
  unfold State.afterAccept
  refine .ite h.onStg (.ite h.setMemRegs (.ite h.onSys (.ite ?_ h)))
  exact .dite (fun _ => h.invalidateTables) fun _ => h

theorem Invariant.marched {mib : Nat} : Invariant (s.marched mib) := by
  unfold State.marched
  exact h.onCells (cellsWf_filter _ _ h.mem)

theorem Invariant.placeSummary : Invariant s.placeSummary := by
  unfold State.placeSummary
  split
  · next hdue =>
    have hlt := length_lt_of_mayPlace (Bool.and_eq_true_iff.1 hdue).2
    refine Invariant.reelRecord (s := s.onEv _) ⟨h.mem, ?_, h.pools⟩
    simpa [EventPath.summarise] using Nat.succ_le_of_lt hlt
  · exact h

theorem Invariant.ringDrop {p : Port} {x : EvRecord} : Invariant (s.ringDrop p x) := by
  unfold State.ringDrop
  extract_lets e
  exact h.onRing.onEv

theorem Invariant.copyRecord {p : Port} {x : EvRecord} : Invariant (s.copyRecord p x) := by
  unfold State.copyRecord
  extract_lets s1
  have h1 : Invariant s1 := h.ringSummary
  exact h.ite (h1.writeEvent.ite h1.ringDrop)

theorem Invariant.badFlit {bad : BitVec 4} : Invariant (s.badFlit bad) := by
  unfold State.badFlit
  extract_lets s0 common lane retire s1 needs s1'
  have h0 : Invariant s0 := h.onPair
  have h1 : Invariant s1 := h0.raiseDev.logRetry
  have h1' : Invariant s1' := h0.logRetry.raiseDev
  exact h0.onPair.sendNak.ite
    ((h1.onPair.tetherStops.raiseDev.testLoses.testLoses.ite h1.onPair.sendNak).ite (h0.onPair.sendNak.ite h1'.tetherStops.onPair))

theorem Invariant.removeVolume {vid : VolId} : Invariant (s.removeVolume vid) := by
  unfold State.removeVolume
  extract_lets one s1 s2
  have h1 : Invariant s1 := h.endUnstarted
  have h2 : Invariant s2 := h1.discardData.unbind
  exact h2.saveAll

theorem Invariant.deleteNow {vid : VolId} {discard : Bool} : Invariant (s.deleteNow vid discard).1 := by
  unfold State.deleteNow
  split
  · exact h
  · exact h.removeVolume

theorem Invariant.formatAt {p : Port} {b : BayNo} {certify : Bool} {remap : Bool} {recorded : Bool} :
    Invariant (s.formatAt p b certify remap recorded) := by
  unfold State.formatAt
  extract_lets d
  exact h.formatEnds.ite (h.formatEnds.ite (h.formatEnds.ite h.onWp))

theorem Invariant.sanitizeDram : Invariant s.sanitizeDram := by
  unfold State.sanitizeDram
  extract_lets inPool s1 s2
  have h1 : Invariant s1 := h.dropDirty
  have h2 : Invariant s2 := h1.onCells (cellsWf_filter _ _ h1.mem)
  exact h2.eachBay fun _ _ hu => hu.onDec.giveAll

theorem Invariant.sanitizeEnds : Invariant s.sanitizeEnds := by
  unfold State.sanitizeEnds
  extract_lets __src s1 s2
  have h1 : Invariant s1 := h.setProgress.onStg
  have h2 : Invariant s2 := h1.returnTo.markValid
  split
  · exact h2.respondRun
  · exact h2

theorem Invariant.scrubNext : Invariant s.scrubNext := by
  unfold State.scrubNext
  extract_lets n
  exact h.onMem.ite h.onMem.raiseDev

theorem Invariant.tripleRepair {w : Fin 31} {v : BitVec 64} {again : BitVec 64} {bank : Fin 3} :
    Invariant (s.tripleRepair w v again bank) := by
  unfold State.tripleRepair
  extract_lets stays s1 s2
  have h1 : Invariant s1 := h.onMem.raiseDev
  have h2 : Invariant s2 := h1.logRetry
  exact h2.onMem.raiseDev.ite h2

theorem Invariant.uncached {addr : BitVec 40} {a : CoreAccess} : Invariant (s.uncached addr a) := by
  unfold State.uncached
  extract_lets at8
  split
  · exact h.emit
  · exact h.onCells (cellsWf_memWrite _ _ _ h.mem)

end

end Sys2Proof.Safety
end

section
/-! PROOFS. Every command that writes memory or the firmware event queue yields only states with the invariant (R371 to R376, R414,
R417). -/

-- Proofs one after another: many small ones at once would each take a thread's stack.
set_option Elab.async false

namespace Sys2Proof.Safety

open Sys2Proof Sys2Proof.Machine Sys2Proof.Laws Sys2Proof.Proofs

section
variable {s : State} (h : Invariant s)
include h

theorem Invariant.execInputFilterChange {i : InputNo} {level : Bool} : Yields (execInputFilterChange i level s) := by
  unfold Machine.execInputFilterChange
  refine .ite h.next ?_
  extract_lets s1 active s2 s3
  have h1 : Invariant s1 := h.onInput
  have h2 : Invariant s2 := h1.ite h1.onInput
  have h3 : Invariant s3 := h2.handlerStop.ite (h2.cutAll.ite h2)
  exact h3.onInput.next.ite h3.raiseDev.onInput.next

theorem Invariant.execReceiverFault {b : BayNo} {r : RecvNo} {cause : RecvFault} : Yields (execReceiverFault b r cause s) := by
  unfold Machine.execReceiverFault
  extract_lets t expects code s1
  have h1 : Invariant s1 := h.raiseBay.abortCal.onRecv
  refine .ite h.next (.ite h.next ?_)
  split
  · exact h1.substitute.next
  · exact h1.reliefFailed.next

theorem Invariant.execCalMeasurement {b : BayNo} {window : List CalPart} : Yields (execCalMeasurement b window s) := by
  unfold Machine.execCalMeasurement
  refine .ite h.next ?_
  extract_lets t
  split
  · exact h.next
  · refine .ite h.next ?_
    split
    · exact h.onAfe.next
    · exact h.slotRunEnds.next

theorem Invariant.execClusterAcquisition {b : BayNo} {l : Beam} {home read : ClusterAddr} {cls : CwClass} {first : Bool}
    {cycle : Rat} {samples : List (BitVec 8)} : Yields (execClusterAcquisition b l home read cls first cycle samples s) := by
  unfold Machine.execClusterAcquisition
  extract_lets t s0 old seq
  have h0 : Invariant s0 := h.sampled.takeEffect
  refine .ite h.next (.ite h.next ?_)
  split
  next s1 go e =>
  have h1 : Invariant s1 := by
    split at e
    · exact Invariant.of_fst (x := (_, true)) h0.openVerify e
    · exact Invariant.of_fst h0.openEntry e
  exact h1.next.ite h1.takeCluster.onRc.next

theorem Invariant.execFrameRecordRelease {b : BayNo} {l : Beam} {samples : List (BitVec 8)} :
    Yields (execFrameRecordRelease b l samples s) := by
  unfold Machine.execFrameRecordRelease
  refine .ite h.next ?_
  extract_lets s0 t x r fs s1 s2
  have h0 : Invariant s0 := h.sampled
  refine .ite h0.next ?_
  have h1 : Invariant s1 := h0.onLane
  have h2 : Invariant s2 := h1.judgeAddress.ite h1
  split
  · exact h2.recordFrame.next.ite h2.next
  · exact h2.next

theorem Invariant.execClusterEnd {b : BayNo} {l : Beam} {samples : List (BitVec 8)} : Yields (execClusterEnd b l samples s) := by
  unfold Machine.execClusterEnd
  extract_lets s0 t x run ended s1 m s2
  have h0 : Invariant s0 := h.sampled
  have h1 : Invariant s1 := h0.raiseBay.ite h0
  have h2 : Invariant s2 := h1.writeBack.onLane
  exact h.next.ite (h0.next.ite ((h2.next.ite h2.raiseBay.undo.next).ite h1.onLane.next))

theorem Invariant.execSumDefectLong {b : BayNo} : Yields (execSumDefectLong b s) := by
  unfold Machine.execSumDefectLong
  refine .ite h.next ?_
  extract_lets r s1
  refine .ite ?_ h.next
  have h1 : Invariant s1 := h.onRc.raiseBay
  exact h1.cutGate.feedbackLoss.feedbackLoss.next

theorem Invariant.execOuterCodeRun {b : BayNo} {entry : Fin 128} : Yields (execOuterCodeRun b entry s) := by
  unfold Machine.execOuterCodeRun
  refine .ite h.next ?_
  split
  · exact h.next
  · refine .ite h.next ?_
    extract_lets s1
    have h1 : Invariant s1 := h.runOuter
    split
    · exact h1.next
    · exact (h1.judgeWeak.toStore.next.ite h1.closeEntry.next).ite (h1.clusterDone.next.ite h1.passFails.next)

theorem Invariant.execLadderStep {b : BayNo} {entry : Fin 128} : Yields (execLadderStep b entry s) := by
  unfold Machine.execLadderStep
  refine .ite h.next ?_
  split
  · exact h.next
  · refine .ite h.next ?_
    split
    · exact h.ladderNext.next
    · exact h.onSeq.onEntry.submitKept.next.ite h.next
    · exact h.ladderJudge.next.ite h.next
    · exact h.ladderJudge.next.ite h.next

theorem Invariant.execLdlFrame {b : BayNo} {req : LdlReq} {answer again : BitVec 32} :
    Yields (execLdlFrame b req answer again s) := by
  unfold Machine.execLdlFrame
  extract_lets loads s0 s1 s2
  refine .ite h.next ?_
  have h0 : Invariant s0 := h.sendLdl
  refine .ite h0.next ?_
  refine .ite h0.answered.next ?_
  have h1 : Invariant s1 := h0.sendLdl
  refine .ite h1.raiseBay.logRetry.answered.next ?_
  have h2 : Invariant s2 := h1.raiseAt.logRetry
  exact h2.onWp.faultBay.next

theorem Invariant.execLdlStatusPoll {b : BayNo} {status : BitVec 16} : Yields (execLdlStatusPoll b status s) := by
  unfold Machine.execLdlStatusPoll
  exact h.next.ite h.sendLdl.readStatus.next

theorem Invariant.execWriteRunStart {b : BayNo} {prior : List (ClusterAddr × Option ClusterRead)} :
    Yields (execWriteRunStart b prior s) := by
  unfold Machine.execWriteRunStart
  extract_lets t s1
  refine .ite h.next ?_
  have h1 : Invariant s1 := h.onWp.preRead
  split
  · exact h.next
  · split
    · exact h1.onWp.next
    · extract_lets layer turn
      refine .ite ?_ h1.next
      split
      · next s2 bufs items rest e =>
        have hs2 : Invariant s2 := .of_fst h1.takeTurn e
        exact hs2.next.ite hs2.beginTurn.onSeq.setBaySt.next

theorem Invariant.execFinalVerifyEnd {b : BayNo} : Yields (execFinalVerifyEnd b s) := by
  unfold Machine.execFinalVerifyEnd
  split
  · exact h.freeRun.onWp.dropVerify.setBaySt.next.ite h.next
  · exact h.next

theorem Invariant.execVerifyCluster {b : BayNo} : Yields (execVerifyCluster b s) := by
  unfold Machine.execVerifyCluster
  split
  · split
    · exact h.onWp.closeEntry.freeStaged.judge.next.ite h.next
    · exact h.next
  · exact h.next

theorem Invariant.execWobbleIndexLoss {b : BayNo} {found : Option Int} : Yields (execWobbleIndexLoss b found s) := by
  unfold Machine.execWobbleIndexLoss
  extract_lets inside
  exact h.next.ite h.cutGate.next

/-- The end of a management set write: what its outcome lets follow. -/
theorem Invariant.execManagementSetWrite {b : BayNo} {tries1 tries2 : List WriteTry} :
    Yields (execManagementSetWrite b tries1 tries2 s) := by
  unfold Machine.execManagementSetWrite
  extract_lets t s0 done count
  generalize t.wp.mgmtDue = due
  split
  · next due d _ _ =>
    refine .ite h.next ?_
    extract_lets keep
    have h0 : Invariant s0 := h.onWp
    have hkeep : ∀ {u : State}, Invariant u → Invariant (keep u) := fun hu => hu.onWp
    split
    · next remap p =>
      extract_lets answer
      have hanswer : ∀ {u : State} (st : Byte), Invariant u → Invariant (answer u st) := fun st hu => by
        cases p
        · exact hu
        · exact hu.formatEnds
      split
      · exact (hanswer _ h0).next
      · split
        · next s1 e => exact (hanswer _ (Invariant.of_fst h0.writeSet e).formatWritten).next
        · next s1 e => exact (hanswer _ (Invariant.of_fst h0.writeSet e)).next
        · next s1 e => exact (hkeep (Invariant.of_fst h0.writeSet e)).next
    · split
      · exact h0.next
      · split
        · next s1 e => exact (Invariant.of_fst h0.writeSet e).destageSet.next
        · next s1 e => exact (Invariant.of_fst h0.writeSet e).destageRefused.next
        · next s1 e => exact (hkeep (Invariant.of_fst h0.writeSet e)).next
    · split
      · exact h0.spinDown.next
      · split
        · next s1 e => exact (hkeep (Invariant.of_fst h0.writeSet e)).next
        · next s1 r _ e => exact (Invariant.of_fst h0.writeSet e).volFollows.spinDown.next
  · exact h.next

theorem Invariant.execServoPeriod {b : BayNo} {o : ServoObs} : Yields (execServoPeriod b o s) := by
  unfold Machine.execServoPeriod
  refine .ite h.rampPeriod.next ?_
  extract_lets was s1 s2 dropped s3
  have h1 : Invariant s1 := h.takePeriod.onSrv.takeSamples.sumPeriod.rampPeriod
  have h2 : Invariant s2 := h1.servoLaws
  have h3 : Invariant s3 := h2.tailPeriod.tailPeriod
  exact h3.onSrv.clockPeriod.writePeriod.next

theorem Invariant.execTiltPeriod {b : BayNo} {onTime : Bool} : Yields (execTiltPeriod b onTime s) := by
  unfold Machine.execTiltPeriod
  refine .ite h.next ?_
  extract_lets s0 v s1 s2
  have h0 : Invariant s0 := h.takePeriod
  refine .ite h0.next ?_
  have h1 : Invariant s1 := h0.onSrv
  refine .ite h1.overrun.next ?_
  refine .ite h1.onSrv.next ?_
  have h2 : Invariant s2 := h1.compute
  exact (h2.enterLull.ite h2).next

theorem Invariant.execSledLoopPeriod {b : BayNo} : Yields (execSledLoopPeriod b s) := by
  unfold Machine.execSledLoopPeriod
  extract_lets s1 t v o term cmd
  have h1 : Invariant s1 := h.takePeriod
  exact h.next.ite (h1.next.ite (h1.onBay.next.ite (h1.next.ite (h1.overrun.next.ite h1.onBay.next))))

theorem Invariant.execServoDeadlineMiss {b : BayNo} {loop : LoopId} : Yields (execServoDeadlineMiss b loop s) := by
  unfold Machine.execServoDeadlineMiss
  exact h.next.ite (h.next.ite h.overrun.next)

theorem Invariant.execHoldWindowExpiry {b : BayNo} {loop : LoopId} : Yields (execHoldWindowExpiry b loop s) := by
  unfold Machine.execHoldWindowExpiry
  split
  · exact h.retract.next.ite h.next
  · exact h.retract.next.ite h.next
  · exact h.next

theorem Invariant.execLullReacquire {b : BayNo} {loop : LoopId} : Yields (execLullReacquire b loop s) := by
  unfold Machine.execLullReacquire
  extract_lets v
  refine .ite h.next ?_
  split
  · exact h.retract.startSweep.next.ite h.next
  · exact h.onSrv.next.ite h.next
  · exact h.next

theorem Invariant.execFocusSweepEnd {b : BayNo} : Yields (execFocusSweepEnd b s) := by
  unfold Machine.execFocusSweepEnd
  extract_lets v
  split
  · exact h.next
  · refine .ite h.next ?_
    split
    · exact h.onSrv.next
    · exact h.parkFocus.raiseBay.acquisitionFailed.next

theorem Invariant.execRunoutRevolution {b : BayNo} : Yields (execRunoutRevolution b s) := by
  unfold Machine.execRunoutRevolution
  extract_lets v d span s1
  refine .ite h.next ?_
  refine .ite ?_ h.onSrv.next
  have h1 : Invariant s1 := h.onSrv.raiseBay
  exact h1.raiseBay.acquisitionFailed.next

theorem Invariant.execTrackAcqTimeout {b : BayNo} {why : TrackFail} : Yields (execTrackAcqTimeout b why s) := by
  unfold Machine.execTrackAcqTimeout
  extract_lets v fails
  have hfails : ∀ c, Invariant (fails c) := fun _ => h.abandonMove.onSrv.raiseBay.acquisitionFailed
  split
  · exact h.next
  · exact (hfails 1).next.ite h.next
  · exact (hfails 2).next.ite h.next

theorem Invariant.execEncoderLoss {b : BayNo} {cause : EncLoss} : Yields (execEncoderLoss b cause s) := by
  unfold Machine.execEncoderLoss
  exact h.loseEncoder.next.ite h.next

theorem Invariant.execEncoderOverspeed {e : EncId} : Yields (execEncoderOverspeed e s) := by
  unfold Machine.execEncoderOverspeed
  split
  · exact h.raiseBay.loseEncoder.next
  · exact h.raiseBay.onSld.next
  · exact h.raiseDev.onAxis.next

theorem Invariant.execPwmPeriod {b : BayNo} {o : PwmObs} : Yields (execPwmPeriod b o s) := by
  unfold Machine.execPwmPeriod
  split
  · exact h.next
  · exact h.next
  · exact h.next
  · extract_lets i s1
    have h1 : Invariant s1 := h.onSpn
    exact (h1.raiseBay.ite h1).next
  · exact h.drivenPeriod.next
  · exact h.drivenPeriod.next
  · exact h.drivenPeriod.next

theorem Invariant.execDrogueTimeout {b : BayNo} : Yields (execDrogueTimeout b s) := by
  unfold Machine.execDrogueTimeout
  refine .ite h.next ?_
  extract_lets s1
  have h1 : Invariant s1 := h.onSpn
  exact h1.raiseBay.startFailed.next

theorem Invariant.execSpinupTimeout {b : BayNo} : Yields (execSpinupTimeout b s) := by
  unfold Machine.execSpinupTimeout
  extract_lets p
  exact h.next.ite h.onSpn.raiseBay.startFailed.next

theorem Invariant.execSledPwmPeriod {b : BayNo} {mark : Bool} : Yields (execSledPwmPeriod b mark s) := by
  unfold Machine.execSledPwmPeriod
  extract_lets x s1 s2 y far
  have h1 : Invariant s1 := h.onSld.sledEnded
  have h2 : Invariant s2 := h.onSld.driveSled
  exact h.next.ite ((h1.sledToMount.ite h1).next.ite (h.onSld.sledStalled.next.ite (h2.sledStalled.next.ite h2.sledEnded.next)))

theorem Invariant.execClampTimeout {b : BayNo} : Yields (execClampTimeout b s) := by
  unfold Machine.execClampTimeout
  extract_lets q
  exact h.mountFails.next.ite h.next

theorem Invariant.execMountRead {b : BayNo} {probes1 probes2 : List Bool} : Yields (execMountRead b probes1 probes2 s) := by
  unfold Machine.execMountRead
  extract_lets t there
  refine .ite h.next ?_
  split
  · exact h.next.ite h.scanOn.next
  · refine .ite h.next ?_
    refine .ite h.mountFails.next ?_
    exact h.atMount.onSeq.scanOn.next

theorem Invariant.execBayFault {b : BayNo} {cause : FaultCause} : Yields (execBayFault b cause s) := by
  unfold Machine.execBayFault
  exact h.next.ite h.faultBay.next

theorem Invariant.execRemount {vid : VolId} : Yields (execRemount vid s) := by
  unfold Machine.execRemount
  refine .ite h.next ?_
  split
  · refine .ite ?_ (h.placeDisc.next.ite h.next)
    refine .ite h.remountFrom.next ?_
    extract_lets s1
    have h1 : Invariant s1 := h.ite h.raiseDev.onSeq
    exact h1.failDisc.next
  · exact h.placeDisc.next.ite h.next

theorem Invariant.execRegisterWrite {sp : RegSpace} {offset : BitVec 16} {width : AccWidth} {v : BitVec 64} :
    Yields (execRegisterWrite sp offset width v s) := by
  refine Invariant.next ?_
  split
  · exact h.writeBar0.ite h
  · exact h.writeControl.ite h
  · exact h.writeConfig.ite h

theorem Invariant.execRead {id : CmdId} {ext : ExtentRead} : Yields (execRead id ext s) := by
  refine Invariant.next ?_
  split
  · exact h.orUnknown
  · split
    · exact h.dmaFail
    · exact h.complete
    · exact h.onCmd.forward.ite h.onCmd.serveRead

theorem Invariant.execWrite {id : CmdId} {ext : ExtentRead} {data : WriteData} : Yields (execWrite id ext data s) := by
  unfold Machine.execWrite
  extract_lets s0
  have h0 : Invariant s0 := by
    unfold s0
    split
    · exact h.setWait.ite h
    · exact h
  refine Invariant.next ?_
  split
  · exact h.orUnknown
  · split
    · next t e => exact Invariant.of_fst h0.writeFetch e
    · next t xs e =>
      have ht : Invariant t := .of_fst h0.writeFetch e
      exact ht.forward.ite ht.serveWrite

theorem Invariant.execVerify {id : CmdId} : Yields (execVerify id s) := by
  refine Invariant.next ?_
  split
  · exact h.orUnknown
  · exact h.forward.ite h.serveRead

theorem Invariant.execPrefetch {id : CmdId} : Yields (execPrefetch id s) := by
  refine Invariant.next ?_
  split
  · exact h.orUnknown
  · exact h.forward.ite h.servePrefetch

theorem Invariant.execDestage {id : CmdId} : Yields (execDestage id s) := by
  refine Invariant.next ?_
  split
  · exact h.orUnknown
  · exact h.forward.ite h.serveDestage

theorem Invariant.execMount {id : CmdId} : Yields (execMount id s) := by
  refine Invariant.next ?_
  split
  · exact h.orUnknown
  · refine .ite h.forward ?_
    split
    · exact h.complete
    · exact h.setWait.placeDisc

theorem Invariant.execUnmount {id : CmdId} : Yields (execUnmount id s) := by
  refine Invariant.next ?_
  split
  · exact h.orUnknown
  · refine .ite h.forward (.ite h ?_)
    split
    · exact h.onCmd.ite h.onCmd.orderUnmount
    · exact h.unmountLoose

omit h in
theorem Invariant.execPowerOnReset (c : PorCause) : Yields (execPowerOnReset c s) := Invariant.powerOnReset.next

theorem Invariant.execDeviceReset {p : Port} {key : Byte} : Yields (execDeviceReset p key s) := by
  unfold Machine.execDeviceReset
  exact h.warmReset.next.ite h.next

/-- The start of DRAM (R441): its bytes are cleared, Ballast is not carved yet. -/
theorem Invariant.execFillDone {dram : DramFound} : Yields (execFillDone dram s) := by
  unfold Machine.execFillDone
  refine .ite h.next (.ite h.raiseAt.next ?_)
  refine Invariant.next (Invariant.setMode (Invariant.onSys (h.onCells ?_)))
  rfl

theorem Invariant.execBootDone {o : BootObs} : Yields (execBootDone o s) := by
  unfold Machine.execBootDone
  refine .ite h.next ?_
  split
  · next s1 e =>
    have h1 : Invariant s1 := .of_snd h.chooseSlot e
    exact h1.raiseAt.onSys.next
  · next k s1 e =>
    have h1 : Invariant s1 := .of_snd h.chooseSlot e
    extract_lets x cold s2 s3 s4 s5 s6
    have h4 : Invariant s4 := (h1.onSys.eachBay fun _ _ hu => hu.onBay).raiseDev
    have h5 : Invariant s5 := h4.findNand.takeRecords.ite h4
    have h6 : Invariant s6 := h5.onStg.carve.takeTrays.writeLimits.setMemRegs
    clear_value s6
    exact h6.onMem.next.ite h6.next

theorem Invariant.execWarmFlush : Yields (execWarmFlush s) := by
  unfold Machine.execWarmFlush
  exact h.flushAll.onSys.next.ite h.next

theorem Invariant.execPwrfailAssert : Yields (execPwrfailAssert s) := by
  unfold Machine.execPwrfailAssert
  split
  · exact h.next
  · exact h.onSys.raiseDev.next
  · exact h.onSys.next
  · extract_lets s1
    have h1 : Invariant s1 := h.onSys
    exact h1.raiseDev.next.ite h1.startVent.next
  · exact h.onSys.cutAll.startVent.next

theorem Invariant.execVentDone : Yields (execVentDone s) := by
  unfold Machine.execVentDone
  refine .ite h.next ?_
  extract_lets s1 took s2
  have h1 : Invariant s1 := h.flushAll
  have h2 : Invariant s2 := h1.onSys.raiseDev
  exact h2.enterRipcord.next.ite h2.next

theorem Invariant.execVentResume : Yields (execVentResume s) := by
  unfold Machine.execVentResume
  refine .ite h.next ?_
  extract_lets limit s1
  have h1 : Invariant s1 := h.onSys.onStg
  exact h1.onSys.setMode.next.ite (h1.resumePaired.gcStart.next.ite h1.setMode.gcStart.next)

theorem Invariant.execRefclkLoss : Yields (execRefclkLoss s) := by
  unfold Machine.execRefclkLoss
  refine .ite h.next ?_
  extract_lets s1
  have h1 : Invariant s1 := h.onSys.raiseDev
  exact h1.next.ite h1.ripcord.next

theorem Invariant.execRootPllLoss : Yields (execRootPllLoss s) := by
  unfold Machine.execRootPllLoss
  refine .ite h.next ?_
  extract_lets s1
  have h1 : Invariant s1 := h.pllLoss.onSys
  exact ((h1.eachBay fun _ _ hu => hu.rootCoast).next).ite h1.ripcord.next

theorem Invariant.execTetherPllLoss : Yields (execTetherPllLoss s) := by
  unfold Machine.execTetherPllLoss
  exact h.next.ite h.pllLoss.tetherStops.next

theorem Invariant.execPllLock : Yields (execPllLock s) := by
  unfold Machine.execPllLock
  refine .ite h.next ?_
  extract_lets s1
  have h1 : Invariant s1 := h.onSys
  refine .ite h1.next ?_
  split
  · exact h1.warmReset.next
  · exact h1.warmReset.next
  · exact h1.warmReset.next

theorem Invariant.execKeelWatchdogExpiry : Yields (execKeelWatchdogExpiry s) := by
  unfold Machine.execKeelWatchdogExpiry
  exact h.next.ite (h.onSys.next.ite h.ripcord.next)

theorem Invariant.execLockstepMismatch : Yields (execLockstepMismatch s) := by
  unfold Machine.execLockstepMismatch
  refine .ite h.next ?_
  extract_lets s1
  have h1 : Invariant s1 := h.onSys
  exact h1.next.ite h1.ripcord.next

theorem Invariant.execRipcordHoldExpiry : Yields (execRipcordHoldExpiry s) := by
  unfold Machine.execRipcordHoldExpiry
  exact h.warmReset.next.ite h.next

theorem Invariant.execEngineStall {e : EngineId} : Yields (execEngineStall e s) := by
  unfold Machine.execEngineStall
  refine .ite h.next ?_
  extract_lets s1
  have h1 : Invariant s1 := h.holdEngine.raiseDev
  split
  · exact h1.cutGate.next
  · exact h1.next

theorem Invariant.execEngineRestart {e : EngineId} : Yields (execEngineRestart e s) := by
  unfold Machine.execEngineRestart
  refine .ite h.next ?_
  extract_lets s1
  have h1 : Invariant s1 := h.holdEngine
  split
  · exact h1.faultBay.next
  · exact h1.next

theorem Invariant.execActivationResume : Yields (execActivationResume s) := by
  unfold Machine.execActivationResume
  split
  · exact h.next
  · extract_lets pass s1 s2 s0 pause s3 s4
    have h1 : Invariant s1 := h.onStg
    have h2 : Invariant s2 := h1.set_vols
    have h0 : Invariant s0 := h2.onPair.raiseDev.send.tellRole.ite h
    have h4 : Invariant s4 := h0.loadImage.returnTo.markValid.raiseDev
    refine .ite h.next (.ite h4.next ?_)
    split
    · exact h4.respondRun.next
    · exact h4.next

theorem Invariant.execActivationTimeout : Yields (execActivationTimeout s) := by
  unfold Machine.execActivationTimeout
  exact h.warmReset.next.ite h.next

theorem Invariant.execSetParameter {p : Port} {buf : BufRead} : Yields (execSetParameter p buf s) := by
  refine Invariant.next (h.serve fun t r ht => ?_)
  split
  · exact ht.respond
  · exact ht.setLong.ite (ht.accept.afterAccept.respond.ite ht.respond)

theorem Invariant.execModeReqServe {p : Port} : Yields (execModeReqServe p s) := by
  refine Invariant.next (h.serve fun t _ ht => ?_)
  extract_lets u
  have hu : Invariant u := ht.modeAccepted
  split
  · exact hu.setMode.respond
  · exact hu.setMode.respond
  · exact hu.returnTo.respond
  · exact hu.respond.ite ht.respond

theorem Invariant.execStateClear {p : Port} : Yields (execStateClear p s) :=
  Invariant.next (h.serveDevSet fun _ _ ht => ht.onStg.writeRoot.ite ht)

theorem Invariant.execDiagTestEnd {failures : BitVec 16} {firstFail : Byte} {corrected : BitVec 32} :
    Yields (execDiagTestEnd failures firstFail corrected s) := by
  unfold Machine.execDiagTestEnd
  extract_lets w dram fs ok s0 s1
  have h0 : Invariant s0 := h.marched.ite h
  have h1 : Invariant s1 := h0.onEv
  exact h.next.ite (h1.raiseDev.ite h1.raiseDev).next

omit h in
theorem length_updateFirst {α : Type} (p : α → Bool) (f : α → α) (l : List α) : (updateFirst p f l).length = l.length := by
  induction l with
  | nil => rfl
  | cons a l ih =>
    unfold updateFirst
    split
    · rfl
    · exact congrArg (· + 1) ih

omit h in
/-- A record that repeats one in the queue joins it; another is added only where R417 finds room. -/
theorem length_place_le {v : EventPath} {e : Raised} {w : Nat} (hv : v.queue.length ≤ 1024) :
    (v.place e w).1.queue.length ≤ 1024 := by
  unfold EventPath.place
  split
  · exact (length_updateFirst ..).trans_le hv
  · split
    · next hp => simpa using Nat.succ_le_of_lt (length_lt_of_mayPlace hp)
    · exact hv

theorem Invariant.execEventQueueEntry : Yields (execEventQueueEntry s) := by
  refine Invariant.next ?_
  split
  · exact h.placeSummary
  · next e rest _ =>
    extract_lets s1
    have h1 : Invariant s1 := h.onEv.placeSummary
    split
    next v p hvp =>
    have hv : v.queue.length ≤ 1024 := by
      rw [show v = (s1.ev.place e (s1.dn Param.evtCoalesce)).1 by rw [hvp]]
      exact length_place_le h1.queue
    split
    · refine Invariant.reelRecord ?_
      exact ⟨h1.mem, hv, h1.pools⟩
    · refine Invariant.reelRecord ?_
      exact ⟨h1.mem, hv, h1.pools⟩

theorem Invariant.execEventRingCopy {p : Port} : Yields (execEventRingCopy p s) := by
  unfold Machine.execEventRingCopy
  extract_lets fresh s1 a b
  have h1 : Invariant s1 := (h.foldl fun _ _ hu => hu.copyRecord).ringSummary
  refine Invariant.next (Invariant.ite ?_ h)
  refine (h1.onEv ?_).placeSummary
  exact (List.length_filter_le _ _).trans_eq (List.length_map _)

theorem Invariant.execReadClearDropCounters {p : Port} : Yields (execReadClearDropCounters p s) :=
  Invariant.next (h.serve fun t _ ht => by
    extract_lets off n u
    have hu : Invariant u := ht.respondArea
    clear_value u
    exact hu.onEv.ite hu)

theorem Invariant.execDeleteVolume {p : Port} : Yields (execDeleteVolume p s) := by
  refine Invariant.next ?_
  split
  · split
    · refine .ite h ?_
      split
      next t st e => exact (Invariant.of_fst h.deleteNow e).respondRun
    · exact h
  · refine h.serve fun t r ht => ?_
    extract_lets vid discard
    refine .ite ht.respond (.ite ht.respond ?_)
    split
    · exact ht.endUnstarted.beginRun.ite ht.endUnstarted.beginRun.orderUnmount
    · split
      next u st e => exact (Invariant.of_fst ht.deleteNow e).respond

theorem Invariant.execFormat {p : Port} {recorded : Bool} : Yields (execFormat p recorded s) := by
  unfold Machine.execFormat
  extract_lets proceed q
  have hproceed : ∀ {t : State} vid c r, Invariant t → Invariant (proceed t vid c r) := fun {t} vid c r ht => by
    unfold proceed
    split
    · exact ht.formatAt.ite ht
    · exact ht.placeDisc
  refine Invariant.next ?_
  split
  · split
    · exact (hproceed _ _ _ h).ite h
    · exact h
  · refine h.placeDisc.ite (h.serve fun t r ht => ?_)
    extract_lets vid
    split
    · exact ht.respond
    · refine .ite ht.respond (.ite ht.respond ?_)
      exact hproceed _ _ _ ht.formatBegins.beginRun

theorem Invariant.execSanitize {p : Port} : Yields (execSanitize p s) :=
  Invariant.next (h.serve fun _ _ ht => ht.respond.ite ht.beginRun.setProgress.onSys.setMode.endUnstarted)

theorem Invariant.execSanitizeStepDone : Yields (execSanitizeStepDone s) := by
  unfold Machine.execSanitizeStepDone
  extract_lets q s1
  refine .ite h.next ?_
  have h1 : Invariant s1 := by
    unfold s1
    split
    · exact h.onStg
    · exact h.sanitizeDram
  exact h1.sanitizeEnds.next.ite h1.setProgress.next

theorem Invariant.execTetherTrainingTimeout : Yields (execTetherTrainingTimeout s) := by
  unfold Machine.execTetherTrainingTimeout
  exact h.next.ite (h.onPair.next.ite h.tetherStops.next)

theorem Invariant.execFlitReceive {bytes : List Byte} : Yields (execFlitReceive bytes s) := by
  unfold Machine.execFlitReceive
  refine .ite h.next ?_
  extract_lets kind seq ack s1 s2 s3
  refine .ite h.badFlit.next ?_
  have h1 : Invariant s1 := h.takeAck
  refine .ite h1.next ?_
  refine .ite h1.sendNak.next ?_
  have h2 : Invariant s2 := h1.onPair
  have h3 : Invariant s3 := h2.putFlit
  exact h3.next.ite h3.onPair.raiseDev.logRetry.next

theorem Invariant.execHeartbeatMissing : Yields (execHeartbeatMissing s) := by
  unfold Machine.execHeartbeatMissing
  refine .ite h.next ?_
  extract_lets s1
  have h1 : Invariant s1 := h.onPair
  exact h1.failJoin.next.ite (h1.next.ite (((h1.onPair.ite h1.degrade).next).ite h1.judgeBoth.next))

theorem Invariant.execPeerOkInChange {level : Bool} {samples : Nat} : Yields (execPeerOkInChange level samples s) := by
  unfold Machine.execPeerOkInChange
  refine .ite h.next ?_
  extract_lets s1
  have h1 : Invariant s1 := h.onPair
  exact h1.next.ite (h1.next.ite (h1.raiseDev.next.ite h1.judgeBoth.next))

theorem Invariant.execTakeoverRoleWrite : Yields (execTakeoverRoleWrite s) := by
  unfold Machine.execTakeoverRoleWrite
  split
  · exact h.setPairRole.onPair.next.ite h.next
  · exact h.next

theorem Invariant.execMirrorData {msg : BitVec 32} {vid : VolId} {ucl dataSeq : Nat} {mask : BitVec 16}
    {sectors : List (Nat × SectorData)} : Yields (execMirrorData msg vid ucl dataSeq mask sectors s) := by
  unfold Machine.execMirrorData
  refine .ite h.next ?_
  extract_lets held d
  split
  · next s1 d1 e =>
    have hs1 : Invariant s1 := .of_fst h.tetherBuf e
    exact hs1.acceptMirror.next.ite hs1.onPair.next

theorem Invariant.execMirrorRelease {vid : VolId} {ucls : List Nat} : Yields (execMirrorRelease vid ucls s) := by
  unfold Machine.execMirrorRelease
  extract_lets mine
  exact h.dropDirty.onStg.next

theorem Invariant.execJoinResyncEnd {peerSequence : BitVec 24} : Yields (execJoinResyncEnd peerSequence s) := by
  unfold Machine.execJoinResyncEnd
  extract_lets asked role s1 s2 s3 s4
  refine .ite h.next ?_
  have h1 : Invariant s1 := h.onPair
  have h2 : Invariant s2 := h1.setPairRole
  have h3 : Invariant s3 := h2.tellRole.setMode.raiseDev
  have h4 : Invariant s4 := h3.releaseWithPeerOk.ite h3
  split
  · exact h4.respondRun.next
  · exact h4.next

theorem Invariant.execRejoin {r : RejoinPeer} : Yields (execRejoin r s) := by
  unfold Machine.execRejoin
  refine .ite h.next ?_
  extract_lets given theirs s1 s2 s3
  refine .ite ?_ (h.discardData.unbind.endPair.next.ite (h.startTetherResync.next.ite h.next))
  refine .ite ?_ h.next
  have h1 : Invariant s1 := h.discardData
  have h2 : Invariant s2 := h1.set_vols
  have h3 : Invariant s3 := h2.saveVols.onPair
  exact h3.sendClusters.next

theorem Invariant.execHandback : Yields (execHandback s) := by
  unfold Machine.execHandback
  extract_lets back a1 a2 role a3 mine b1 b2 b3 c2 _ c3
  have ha : Invariant a3 := (Invariant.onStg (s := a1) h.set_vols).onPair.setPairRole
  have hb : Invariant b3 := (Invariant.onPair (s := b1) h.set_vols).setPairRole.tellRole.saveVols.setMode.markValid
  have hc : Invariant c3 := (Invariant.onStg (s := b1) h.set_vols).onPair.setPairRole.tellRole.saveVols.raiseDev
  refine .ite h.next (.ite ha.tellRole.saveVols.setMode.raiseDev.next (.ite ?_ (.ite ?_ h.next)))
  · split
    · exact hb.respondRun.next
    · exact hb.next
  · split
    · exact hc.respondRun.next
    · exact hc.next

theorem Invariant.execPairLeave {p : Port} : Yields (execPairLeave p s) := by
  refine Invariant.next (h.serve fun t _ ht => ?_)
  extract_lets peerPaired s1 s2
  have h2 : Invariant s2 := ht.send.dropMirrors.endPair.setMode.settleMirrorOut.raiseDev
  exact ht.respond.ite (ht.ite h2.respond)

theorem Invariant.execPairLeaveSelf {p : Port} {peerVolumes : List VolId} : Yields (execPairLeaveSelf p peerVolumes s) := by
  refine Invariant.next (h.serve fun t _ ht => ?_)
  split
  · exact ht.failForwarded.failForwardedMove.dropMirrors.endPair.setMode.settleMirrorOut.raiseDev.respond
  · exact ht.endPair.setMode.raiseDev.respond
  · exact ht.respond.ite ht.discardData.unbind.endPair.respond

theorem Invariant.execPairLeaveForced {p : Port} : Yields (execPairLeaveForced p s) :=
  Invariant.next (h.serve fun _ _ ht => ht.set_vols.endPair.saveVols.respond)

theorem Invariant.execDramRead {addr : BitVec 40} {r : Requester} {o : DramObs} : Yields (execDramRead addr r o s) := by
  unfold Machine.execDramRead
  refine .ite h.next ?_
  refine .ite (.fault _) ?_
  split
  · next wrong s1 e =>
    have hs1 : Invariant s1 := .of_snd h.dramResult e
    split
    · exact hs1.emit.next
    · exact hs1.next
  · next s1 e =>
    have hs1 : Invariant s1 := .of_snd h.dramResult e
    exact hs1.busErrorTo.next

theorem Invariant.execDramPartialWrite {addr : BitVec 40} {bytes : List Byte} {r : Requester} {o : DramObs} :
    Yields (execDramPartialWrite addr bytes r o s) := by
  unfold Machine.execDramPartialWrite
  refine .ite h.next (.ite (.fault _) ?_)
  split
  · next wrong s1 e =>
    have h1 : Invariant s1 := .of_snd h.dramResult e
    refine Invariant.next (h1.onCells (cellsWf_memWrite _ _ _ ?_))
    exact (h1.spoiled).mem
  · next s1 e => exact (Invariant.of_snd h.dramResult e).busErrorTo.next

theorem Invariant.execScrubRead {o : DramObs} : Yields (execScrubRead o s) := by
  unfold Machine.execScrubRead
  refine .ite h.next ?_
  extract_lets addr
  split
  · next good s1 e =>
    have hs1 : Invariant s1 := .of_snd h.dramResult e
    extract_lets s2 s3
    have h2 : Invariant s2 := by
      unfold s2
      split
      · exact hs1
      · exact hs1.onMem
      · exact hs1.onMem
    have h3 : Invariant s3 := h2.ite h2.raiseDev.proposePage
    exact h3.scrubNext.next

theorem Invariant.execScrubRestart : Yields (execScrubRestart s) := by
  unfold Machine.execScrubRestart
  exact h.next.ite h.onMem.next

theorem Invariant.execDerrPop : Yields (execDerrPop s) := by
  unfold Machine.execDerrPop
  refine .ite h.next ?_
  split
  · exact h.onMem.emit.next
  · exact h.onMem.emit.next

theorem Invariant.execDerrLostRead : Yields (execDerrLostRead s) := by
  unfold Machine.execDerrLostRead
  exact h.next.ite h.onMem.emit.next

theorem Invariant.execCacheErrorsRead : Yields (execCacheErrorsRead s) := by
  unfold Machine.execCacheErrorsRead
  refine .ite h.next ?_
  extract_lets k
  exact h.onCache.emit.next

theorem Invariant.execBallastAllocate {owner : Fin 12} {size : Nat} : Yields (execBallastAllocate owner size s) := by
  unfold Machine.execBallastAllocate
  refine .ite h.next ?_
  split
  next s1 x e => exact (Invariant.of_fst h.ballastTake e).emit.next

theorem Invariant.execBallastFree {owner : Fin 12} {handle : BitVec 32} : Yields (execBallastFree owner handle s) := by
  unfold Machine.execBallastFree
  exact h.next.ite h.ballastGive.next

theorem Invariant.execBallastPass {owner : Fin 12} {handle : BitVec 32} {newOwner : Fin 12} :
    Yields (execBallastPass owner handle newOwner s) := by
  unfold Machine.execBallastPass
  exact h.next.ite h.ballastPassTo.next

theorem Invariant.execTripleWrite {op : TripleOp} : Yields (execTripleWrite op s) := by
  unfold Machine.execTripleWrite
  split
  · exact h.next.ite h.onMem.next
  · extract_lets set
    exact h.onMem.next.ite h.onMem.syncTriple.next

theorem Invariant.execTripleCommit {set : TripleSet} : Yields (execTripleCommit set s) := by
  unfold Machine.execTripleCommit
  split
  · exact h.next
  · exact h.onMem.syncTriple.next

theorem Invariant.execTripleRead {word : Fin 31} {banks again : Vector (BitVec 64) 3} :
    Yields (execTripleRead word banks again s) := by
  unfold Machine.execTripleRead
  extract_lets +onlyGivenNames s0 good
  have h0 : Invariant s0 := h.onMem
  clear_value s0 good
  split
  · exact (h0.foldl fun _ _ hu => hu.tripleRepair).emit.next
  · exact h0.emit.next.ite (h0.raiseAt.emit.next.ite h0.raiseAt.abort.next)
  · exact h0.raiseAt.abort.next

theorem Invariant.execCacheAccess {core : CoreNo} {addr : BitVec 40} {a : CoreAccess} :
    Yields (execCacheAccess core addr a s) := by
  unfold Machine.execCacheAccess
  refine .ite h.next (.ite (.fault _) (.ite h.uncached.next ?_))
  refine .ite h.cacheServe.next (.ite h.onCache.next ?_)
  split
  split
  · exact h.onCache.noteMiss.cacheServe.next
  · exact h.onCache.noteMiss.next

theorem Invariant.execCacheFillDone {line : BitVec 34} : Yields (execCacheFillDone line s) := by
  unfold Machine.execCacheFillDone
  extract_lets k mine
  split
  · exact h.next
  · exact h.next.ite (h.onCache.foldl fun _ _ hu => hu.cacheServe).maintRelease.next

theorem Invariant.execCacheWritebackAccept {line : BitVec 34} : Yields (execCacheWritebackAccept line s) := by
  unfold Machine.execCacheWritebackAccept
  split
  · exact h.next
  · next e _ => exact (Invariant.onCells h (Memory.wf_putLine s.mem line e.2 h.mem)).onCache.maintRelease.next

theorem Invariant.execCacheInvalidateLine : Yields (execCacheInvalidateLine s) := by
  unfold Machine.execCacheInvalidateLine
  exact h.maintByAddress.next.ite h.next

theorem Invariant.execCacheCleanLine : Yields (execCacheCleanLine s) := by
  unfold Machine.execCacheCleanLine
  exact h.maintByAddress.next.ite h.next

theorem Invariant.execCacheCleanInvalidateLine : Yields (execCacheCleanInvalidateLine s) := by
  unfold Machine.execCacheCleanInvalidateLine
  exact h.maintByAddress.next.ite h.next

theorem Invariant.execCacheInvalidateAll : Yields (execCacheInvalidateAll s) :=
  (Invariant.next (h.maintAll (f := Memory.invalidateAll) h.mem rfl)).ite h.next

theorem Invariant.execCacheCleanAll : Yields (execCacheCleanAll s) :=
  (Invariant.next (h.maintAll (Memory.wf_cleanAll _ h.mem) (cleanAll_pools _))).ite h.next

theorem Invariant.execCacheCleanInvalidateAll : Yields (execCacheCleanInvalidateAll s) :=
  (Invariant.next (h.maintAll (f := fun m => m.cleanAll.invalidateAll) (Memory.wf_cleanAll _ h.mem) (cleanAll_pools _))).ite h.next

theorem Invariant.execCacheEnable : Yields (execCacheEnable s) := by
  unfold Machine.execCacheEnable
  exact h.onCache.next.ite h.next

theorem Invariant.execCacheDisable : Yields (execCacheDisable s) := by
  unfold Machine.execCacheDisable
  exact h.onCache.next.ite h.next

theorem Invariant.execClusterProgram {ok again : Bool} : Yields (execClusterProgram ok again s) := by
  unfold Machine.execClusterProgram
  split
  · exact h.next
  · extract_lets vent stream
    split
    · exact h.judgeFull.next
    · next loc s1 e =>
      extract_lets s2 s3
      have h2 : Invariant s2 := (h.program e).programmed
      have h3 : Invariant s3 := (h2.ventSpill.ite h2).settleStaged.gcStart.judgeFull
      exact h3.settleMirrors.next

theorem Invariant.execCheckpoint : Yields (execCheckpoint s) := by
  unfold Machine.execCheckpoint
  refine .ite h.next ?_
  extract_lets clean
  split
  · next pages s0 e =>
    have hs0 : Invariant s0 := .of_snd h.freeInt e
    extract_lets s1 dir s2
    have h1 : Invariant s1 := hs0.foldl fun _ _ hu => hu.metadataPage
    have h2 : Invariant s2 := h1.metadataPage.onStg.writeRoot
    exact h2.raiseDev.settleFlush.next

end

end Sys2Proof.Safety
end

section
/-! PROOFS. The invariant through a step: by the frame of its command where that lists no part the invariant speaks of, by the command
itself elsewhere (R371 to R376, R414, R417). -/

-- Proofs one after another: many small ones at once would each take a thread's stack.
set_option Elab.async false

namespace Sys2Proof.Safety

open Sys2Proof Sys2Proof.Machine Sys2Proof.Laws Sys2Proof.Proofs

/-- The invariant does not speak of the part. -/
def isUnguarded (x : Part) : Bool := decide (x ≠ .mem ∧ x ≠ .dram ∧ x ≠ .fwq)

/-- Every command has a frame. -/
theorem frame_isSome (i : Instr) : ((portFrame i).isSome || (mailboxFrame i).isSome || (powerFrame i).isSome || (pairFrame i).isSome
    || (headFrame i).isSome || (motionFrame i).isSome || (storeFrame i).isSome) = true := by
  cases i <;> rfl

section
variable {s t : State} (h : Invariant s)
include h

theorem Invariant.spared {ps : List Part} (hs : ps.all isUnguarded = true) (hu : Unchanged ps s t) : Invariant t := by
  simp only [List.all_eq_true, isUnguarded, decide_eq_true_eq] at hs
  exact h.unchanged hu (fun hm => (hs _ hm).1 rfl) (fun hm => (hs _ hm).2.1 rfl) (fun hm => (hs _ hm).2.2 rfl)

/-- The commands of the ports, the event path and the I/O queues. -/
theorem Invariant.portCommand {i : Instr} {ps : List Part} (hf : portFrame i = some ps) : Yields (exec i s) := by
  by_cases hs : ((portFrame i).getD []).all isUnguarded = true
  · rw [hf] at hs
    exact fun t hx => h.spared hs (portFrames i ps s t hf hx)
  cases i
  case registerWrite => exact h.execRegisterWrite
  case read => exact h.execRead
  case write => exact h.execWrite
  case verify => exact h.execVerify
  case prefetch => exact h.execPrefetch
  case destage => exact h.execDestage
  case mount => exact h.execMount
  case unmount => exact h.execUnmount
  case eventQueueEntry => exact h.execEventQueueEntry
  case eventRingCopy => exact h.execEventRingCopy
  case readClearDropCounters => exact h.execReadClearDropCounters
  all_goals exact absurd rfl hs

/-- The commands of the mailbox. -/
theorem Invariant.mailboxCommand {i : Instr} {ps : List Part} (hf : mailboxFrame i = some ps) : Yields (exec i s) := by
  by_cases hs : ((mailboxFrame i).getD []).all isUnguarded = true
  · rw [hf] at hs
    exact fun t hx => h.spared hs (mailboxFrames i ps s t hf hx)
  cases i
  case setParameter => exact h.execSetParameter
  case modeReqServe => exact h.execModeReqServe
  case stateClear => exact h.execStateClear
  case diagTestEnd => exact h.execDiagTestEnd
  case deleteVolume => exact h.execDeleteVolume
  case format => exact h.execFormat
  case sanitize => exact h.execSanitize
  case sanitizeStepDone => exact h.execSanitizeStepDone
  all_goals exact absurd rfl hs

/-- The commands of power, boot and the board. -/
theorem Invariant.powerCommand {i : Instr} {ps : List Part} (hf : powerFrame i = some ps) : Yields (exec i s) := by
  by_cases hs : ((powerFrame i).getD []).all isUnguarded = true
  · rw [hf] at hs
    exact fun t hx => h.spared hs (powerFrames i ps s t hf hx)
  cases i
  case powerOnReset c => exact Invariant.execPowerOnReset c
  case deviceReset p _ => exact h.execDeviceReset (p := p)
  case fillDone => exact h.execFillDone
  case bootDone => exact h.execBootDone
  case warmFlush => exact h.execWarmFlush
  case pwrfailAssert => exact h.execPwrfailAssert
  case ventDone => exact h.execVentDone
  case ventResume => exact h.execVentResume
  case refclkLoss => exact h.execRefclkLoss
  case rootPllLoss => exact h.execRootPllLoss
  case tetherPllLoss => exact h.execTetherPllLoss
  case pllLock => exact h.execPllLock
  case keelWatchdogExpiry => exact h.execKeelWatchdogExpiry
  case lockstepMismatch => exact h.execLockstepMismatch
  case ripcordHoldExpiry => exact h.execRipcordHoldExpiry
  case engineStall => exact h.execEngineStall
  case engineRestart => exact h.execEngineRestart
  case activationResume => exact h.execActivationResume
  case activationTimeout => exact h.execActivationTimeout
  all_goals exact absurd rfl hs

/-- The commands of the pair, the Tether and the handler. -/
theorem Invariant.pairCommand {i : Instr} {ps : List Part} (hf : pairFrame i = some ps) : Yields (exec i s) := by
  by_cases hs : ((pairFrame i).getD []).all isUnguarded = true
  · rw [hf] at hs
    exact fun t hx => h.spared hs (pairFrames i ps s t hf hx)
  cases i
  case inputFilterChange => exact h.execInputFilterChange
  case tetherTrainingTimeout => exact h.execTetherTrainingTimeout
  case flitReceive => exact h.execFlitReceive
  case heartbeatMissing => exact h.execHeartbeatMissing
  case peerOkInChange => exact h.execPeerOkInChange
  case takeoverRoleWrite => exact h.execTakeoverRoleWrite
  case mirrorData => exact h.execMirrorData
  case mirrorRelease => exact h.execMirrorRelease
  case joinResyncEnd => exact h.execJoinResyncEnd
  case rejoin => exact h.execRejoin
  case handback => exact h.execHandback
  case pairLeave => exact h.execPairLeave
  case pairLeaveSelf => exact h.execPairLeaveSelf
  case pairLeaveForced => exact h.execPairLeaveForced
  all_goals exact absurd rfl hs

/-- The commands of the front end, the read channel, decoding and writing. -/
theorem Invariant.headCommand {i : Instr} {ps : List Part} (hf : headFrame i = some ps) : Yields (exec i s) := by
  by_cases hs : ((headFrame i).getD []).all isUnguarded = true
  · rw [hf] at hs
    exact fun t hx => h.spared hs (headFrames i ps s t hf hx)
  cases i
  case receiverFault => exact h.execReceiverFault
  case calMeasurement => exact h.execCalMeasurement
  case clusterAcquisition => exact h.execClusterAcquisition
  case frameRecordRelease => exact h.execFrameRecordRelease
  case clusterEnd => exact h.execClusterEnd
  case sumDefectLong => exact h.execSumDefectLong
  case outerCodeRun => exact h.execOuterCodeRun
  case ladderStep => exact h.execLadderStep
  case ldlFrame => exact h.execLdlFrame
  case ldlStatusPoll => exact h.execLdlStatusPoll
  case writeRunStart => exact h.execWriteRunStart
  case finalVerifyEnd => exact h.execFinalVerifyEnd
  case verifyCluster => exact h.execVerifyCluster
  case wobbleIndexLoss => exact h.execWobbleIndexLoss
  case managementSetWrite => exact h.execManagementSetWrite
  all_goals exact absurd rfl hs

/-- The commands of the servo, the drives and the bay. -/
theorem Invariant.motionCommand {i : Instr} {ps : List Part} (hf : motionFrame i = some ps) : Yields (exec i s) := by
  by_cases hs : ((motionFrame i).getD []).all isUnguarded = true
  · rw [hf] at hs
    exact fun t hx => h.spared hs (motionFrames i ps s t hf hx)
  cases i
  case servoPeriod => exact h.execServoPeriod
  case tiltPeriod => exact h.execTiltPeriod
  case sledLoopPeriod => exact h.execSledLoopPeriod
  case servoDeadlineMiss => exact h.execServoDeadlineMiss
  case holdWindowExpiry => exact h.execHoldWindowExpiry
  case lullReacquire => exact h.execLullReacquire
  case focusSweepEnd => exact h.execFocusSweepEnd
  case runoutRevolution => exact h.execRunoutRevolution
  case trackAcqTimeout => exact h.execTrackAcqTimeout
  case encoderLoss => exact h.execEncoderLoss
  case encoderOverspeed => exact h.execEncoderOverspeed
  case pwmPeriod => exact h.execPwmPeriod
  case drogueTimeout => exact h.execDrogueTimeout
  case spinupTimeout => exact h.execSpinupTimeout
  case sledPwmPeriod => exact h.execSledPwmPeriod
  case clampTimeout => exact h.execClampTimeout
  case mountRead => exact h.execMountRead
  case bayFault => exact h.execBayFault
  case remount => exact h.execRemount
  all_goals exact absurd rfl hs

/-- The commands of memory and the staging tier. -/
theorem Invariant.storeCommand {i : Instr} {ps : List Part} (hf : storeFrame i = some ps) : Yields (exec i s) := by
  by_cases hs : ((storeFrame i).getD []).all isUnguarded = true
  · rw [hf] at hs
    exact fun t hx => h.spared hs (storeFrames i ps s t hf hx)
  cases i
  case dramRead => exact h.execDramRead
  case dramPartialWrite => exact h.execDramPartialWrite
  case scrubRead => exact h.execScrubRead
  case scrubRestart => exact h.execScrubRestart
  case derrPop => exact h.execDerrPop
  case derrLostRead => exact h.execDerrLostRead
  case cacheErrorsRead => exact h.execCacheErrorsRead
  case ballastAllocate => exact h.execBallastAllocate
  case ballastFree => exact h.execBallastFree
  case ballastPass => exact h.execBallastPass
  case tripleWrite => exact h.execTripleWrite
  case tripleCommit => exact h.execTripleCommit
  case tripleRead => exact h.execTripleRead
  case cacheAccess => exact h.execCacheAccess
  case cacheFillDone => exact h.execCacheFillDone
  case cacheWritebackAccept => exact h.execCacheWritebackAccept
  case cacheInvalidateLine => exact h.execCacheInvalidateLine
  case cacheCleanLine => exact h.execCacheCleanLine
  case cacheCleanInvalidateLine => exact h.execCacheCleanInvalidateLine
  case cacheInvalidateAll => exact h.execCacheInvalidateAll
  case cacheCleanAll => exact h.execCacheCleanAll
  case cacheCleanInvalidateAll => exact h.execCacheCleanInvalidateAll
  case cacheEnable => exact h.execCacheEnable
  case cacheDisable => exact h.execCacheDisable
  case clusterProgram => exact h.execClusterProgram
  case checkpoint => exact h.execCheckpoint
  all_goals exact absurd rfl hs

/-- Every command keeps the invariant. -/
theorem Invariant.exec (i : Instr) : Yields (exec i s) := by
  have hi := frame_isSome i
  simp only [Bool.or_eq_true, Option.isSome_iff_exists] at hi
  obtain (((((⟨ps, hf⟩ | ⟨ps, hf⟩) | ⟨ps, hf⟩) | ⟨ps, hf⟩) | ⟨ps, hf⟩) | ⟨ps, hf⟩) | ⟨ps, hf⟩ := hi
  · exact h.portCommand hf
  · exact h.mailboxCommand hf
  · exact h.powerCommand hf
  · exact h.pairCommand hf
  · exact h.headCommand hf
  · exact h.motionCommand hf
  · exact h.storeCommand hf

theorem Invariant.setPending {cs : List Instr} : Invariant { s with pending := cs } := h.congr rfl rfl le_rfl

theorem Invariant.tick : Invariant (tick s) := h.ite h.onSys

end

/-- Settles O60: each of the operations that write memory or the firmware event queue keeps the invariant, and every other leaves
what it speaks of. -/
theorem invariantKept : Obligations.InvariantKept := by
  unfold Obligations.InvariantKept
  intro s t h hx
  unfold step at hx
  split at hx
  · exact h.tick.next t hx
  · exact h.setPending.exec _ t hx

/-- Settles O59: at reset DRAM, the queue and the pools are empty. -/
theorem invariantAtReset : Obligations.InvariantAtReset := Invariant.of_reset rfl (Nat.zero_le _)

end Sys2Proof.Safety
end

section
/-! PROOFS. Rules of single units: a step (log entry 1), a copy of a cluster (R338), a triplicated word (R368), an allocation of
Ballast (R373). -/

-- Proofs one after another: many small ones at once would each take a thread's stack.
set_option Elab.async false

namespace Sys2Proof.Proofs

open Sys2Proof Sys2Proof.Machine Sys2Proof.Laws Sys2Proof.Safety

/-- Settles O1, by the two cases of a step. -/
theorem stepRunsFront : Obligations.StepRunsFront := by
  unfold Obligations.StepRunsFront
  constructor
  · intro s c rest h
    simp only [step, h]
  · intro s h
    simp only [step, h]

/-! ### The map (R326, R338) -/

/-- An entry put into a map is the one found there: whatever stands before it has a lower key. -/
theorem find?_putEntry (m : List MapEntry) (n : MapEntry) :
    (putEntry m n).find? (fun e => decide (e.vid = n.vid ∧ e.ucl = n.ucl)) = some n := by
  induction m with
  | nil => simp [putEntry]
  | cons x rest ih =>
    unfold putEntry
    split
    · simp
    · split
      · simp
      · next hne =>
        have hx : ¬ (x.vid = n.vid ∧ x.ucl = n.ucl) := fun h => hne (by rw [MapEntry.key, MapEntry.key, h.1, h.2])
        rw [List.find?_cons_of_neg (by simpa using hx), ih]

theorem entry?_spec {g : Staging} {vid : VolId} {ucl : Nat} {x : MapEntry} (h : g.entry? vid ucl = some x) :
    x.vid = vid ∧ x.ucl = ucl := by simpa using List.find?_some h

/-- Settles O54: the update looks the entry up again when it takes effect. -/
theorem copyRaces : Obligations.CopyRaces := by
  unfold Obligations.CopyRaces
  refine ⟨fun s e x loc hx hloc => ?_, fun s e x loc hx hloc => ?_, fun s e loc hx => ?_⟩
  · obtain ⟨hv, hu⟩ := entry?_spec hx
    simp only [State.copied, onStg_stg, onSys_stg, hx, if_pos hloc]
    have hfind := find?_putEntry s.stg.map { x with loc := loc, progSeq := s.sys.progSeq + 1 }
    rwa [← hv, ← hu]
  · simp only [State.copied, onStg_stg, onSys_stg, hx, if_neg hloc]
  · simp only [State.copied, onStg_stg, onSys_stg, hx]

/-! ### Triplicated words (R368) -/

theorem getLsbD_majority (a b c : BitVec 64) (i : Nat) : (majority a b c).getLsbD i =
    (a.getLsbD i && b.getLsbD i || a.getLsbD i && c.getLsbD i || b.getLsbD i && c.getLsbD i) := by simp [majority]

/-- One bank alone never decides a bit. -/
theorem majority_outvoted (v x : BitVec 64) (k : Fin 3) :
    majority (#v[v, v, v].set k.val x k.isLt)[0] (#v[v, v, v].set k.val x k.isLt)[1] (#v[v, v, v].set k.val x k.isLt)[2] = v := by
  refine BitVec.eq_of_getLsbD_eq fun i _ => ?_
  rw [getLsbD_majority]
  fin_cases k <;> simp <;> cases v.getLsbD i <;> simp

theorem getElem_same (v : BitVec 64) (j : Fin 3) : #v[v, v, v][j.val] = v := by fin_cases j <;> rfl

theorem getElem_outvoted (v x : BitVec 64) (k j : Fin 3) :
    (#v[v, v, v].set k.val x k.isLt)[j] = if k = j then x else v := by
  fin_cases k <;> fin_cases j <;> rfl

/-- The banks that disagree with the majority: the one. -/
theorem filter_outvoted {v x : BitVec 64} (hx : x ≠ v) (k : Fin 3) :
    (List.finRange 3).filter (fun (b : Fin 3) => decide ((#v[v, v, v].set k.val x k.isLt)[b] ≠ v)) = [k] := by
  simp only [getElem_outvoted]
  fin_cases k <;> simp [List.finRange_succ, hx]

theorem filter_unmarked {s : State} {w : Fin 31} (h : ∀ j : Fin 3, (w.val, j) ∉ s.mem.triple.faulty) :
    (List.finRange 3).filter (fun b => !s.mem.triple.faulty.contains (w.val, b)) = [0, 1, 2] := by
  rw [List.filter_eq_self.2 (fun j _ => by simpa using h j)]
  rfl

@[simp] theorem logRetry_out (s : State) (src : Nat) (kind : Fin 11) (persistent : Bool) (action : Nat) (identity : BitVec 64) :
    (s.logRetry src kind persistent action identity).out = s.out := rfl

@[simp] theorem tripleRepair_out (s : State) (w : Fin 31) (v again : BitVec 64) (k : Fin 3) :
    (s.tripleRepair w v again k).out = s.out := by
  unfold State.tripleRepair
  dsimp only
  split <;> simp

/-- A bank that is written back keeps what it answers then: the word, or what it persists in. -/
theorem tripleRepair_banks (s : State) (w : Fin 31) (v again : BitVec 64) (k : Fin 3) :
    (s.tripleRepair w v again k).mem.triple.banks = s.mem.triple.banks.set k.val (s.mem.triple.banks[k].set w.val again w.isLt) := by
  unfold State.tripleRepair
  by_cases h : again = v <;> simp [h]

theorem tripleRepair_faulty (s : State) (w : Fin 31) (v again : BitVec 64) (k : Fin 3) :
    (s.tripleRepair w v again k).mem.triple.faulty =
      if again = v then s.mem.triple.faulty else s.mem.triple.faulty ++ [(w.val, k)] := by
  unfold State.tripleRepair
  by_cases h : again = v <;> simp [h]

/-- Settles O55: the bank that disagrees is the only one to be repaired. -/
theorem tripleMajority : Obligations.TripleMajority := by
  unfold Obligations.TripleMajority
  refine ⟨fun a b c i => by rw [getLsbD_majority]; simp [or_assoc], fun s w v x k again hw hx => ?_⟩
  unfold Completes
  refine ⟨_, by
    simp only [exec, execTripleRead, filter_unmarked hw, majority_outvoted, filter_outvoted hx, List.foldl_cons, List.foldl_nil]
    rfl, ?_⟩
  refine ⟨?_, fun j => ?_, fun j u hu => ?_, ?_⟩
  · simp
  · by_cases hkj : k = j
    · subst hkj
      simp [tripleRepair_banks]
    · have hval : k.val ≠ j.val := fun e => hkj (Fin.ext e)
      simp only [tripleRepair_banks, emit_mem, onMem_mem, Fin.getElem_fin, Vector.getElem_set, Vector.getElem_ofFn, if_neg hval,
        if_neg (Ne.symm hkj), if_true, getElem_same]
  · have hval : w.val ≠ u.val := fun e => hu (Fin.ext e.symm)
    by_cases hkj : k.val = j.val
    · simp [tripleRepair_banks, hkj, hval]
    · simp [tripleRepair_banks, hkj, hval]
  · simp [tripleRepair_faulty]

/-! ### Ballast (R373) -/

/-- A chain takes as many free buffers as it is long, the head last, and touches no other. -/
theorem takeChain_exclusive {p : Nat} {o : Fin 12} {n : Nat} {link : Option Nat} {b : BallastPool} (h : PoolSound b) {i : Nat}
    {c : BallastPool} (hc : BallastPool.takeChain p o n link b = some (i, c)) :
    ∃ ids : List Nat, ids.length = n ∧ ids.Nodup ∧ ids.getLast? = some i
      ∧ (∀ j ∈ ids, lookupKey b.words j = none ∧ j ∉ b.out ∧ (lookupKey c.words j).map (·.owner) = some o)
      ∧ ∀ j, j ∉ ids → lookupKey c.words j = lookupKey b.words j := by
  induction n generalizing b link with
  | zero => cases hc
  | succ n ih =>
    rw [takeChain_succ, Option.bind_eq_some_iff] at hc
    obtain ⟨j, hj, hc⟩ := hc
    have hfree := h.free j (List.mem_append_left _ (pick_mem hj))
    generalize hw : ({ owner := o, head := decide (n = 0), link := link } : BufWord) = w at hc
    have howner : w.owner = o := by rw [← hw]
    have hnext := (h.takeBuf (pick_mem hj) w).refill
    have hwords : ∀ k, lookupKey (takeBuf b j w).refill.words k = if k = j then some w else lookupKey b.words k := fun k => by
      rw [refill_words]
      exact lookupKey_insertKey b.words j k w
    have hout : (takeBuf b j w).refill.out = b.out := refill_out _
    generalize (takeBuf b j w).refill = b1 at hc hnext hwords hout
    dsimp only at hc
    split at hc
    · next hn =>
      obtain ⟨rfl, rfl⟩ := Prod.mk.inj (Option.some.inj hc)
      refine ⟨[j], by rw [hn]; rfl, List.nodup_singleton j, rfl, fun k hk => ?_, fun k hk => ?_⟩
      · obtain rfl := List.mem_singleton.1 hk
        exact ⟨hfree.2.1, hfree.2.2, by rw [hwords, if_pos rfl, Option.map_some, howner]⟩
      · rw [hwords, if_neg (fun e => hk (List.mem_singleton.2 e))]
    · obtain ⟨ids, hlen, hnodup, hlast, hmine, hothers⟩ := ih hnext hc
      have hjids : j ∉ ids := fun hm => by simpa [hwords] using (hmine j hm).1
      refine ⟨j :: ids, by rw [List.length_cons, hlen], List.nodup_cons.2 ⟨hjids, hnodup⟩, ?_, fun k hk => ?_, fun k hk => ?_⟩
      · rw [List.getLast?_cons, hlast, Option.getD_some]
      · rcases List.mem_cons.1 hk with rfl | hk
        · exact ⟨hfree.2.1, hfree.2.2, by rw [hothers k hjids, hwords, if_pos rfl, Option.map_some, howner]⟩
        · obtain ⟨hnone, hnotout, hown⟩ := hmine k hk
          have hkj : k ≠ j := fun e => hjids (e ▸ hk)
          rw [hwords, if_neg hkj] at hnone
          exact ⟨hnone, hout ▸ hnotout, hown⟩
      · obtain ⟨hkj, hk⟩ := not_or.1 (mt List.mem_cons.2 hk)
        rw [hothers k hk, hwords, if_neg hkj]

theorem onPoolB_pool (s : State) (p : Fin 4) (f : BallastPool → BallastPool) (q : Fin 4) :
    (s.onPoolB p f).mem.pools[q] = if p = q then f s.mem.pools[p] else s.mem.pools[q] := by
  simp only [Fin.ext_iff]
  exact Vector.getElem_set p.isLt q.isLt

@[simp] theorem ballastLow_out (s : State) (p : Fin 4) (o : Fin 12) : (s.ballastLow p o).out = s.out := by
  unfold State.ballastLow
  split
  · rfl
  · simp

/-- A refusal moves no buffer. -/
theorem ballastLow_words (s : State) (p : Fin 4) (o : Fin 12) (q : Fin 4) :
    (s.ballastLow p o).mem.pools[q].words = s.mem.pools[q].words := by
  unfold State.ballastLow
  split
  · rfl
  · simp only [State.raiseDev, State.raise, raiseAt_mem, onPoolB_pool]
    split
    · next e => rw [e]
    · rfl

/-- Settles O56: refused, or a chain of the pool of the size. -/
theorem ballastExclusive : Obligations.BallastExclusive := by
  unfold Obligations.BallastExclusive
  intro s t o size hruns hpools ht
  simp only [exec, execBallastAllocate, hruns, Bool.not_true, Bool.false_eq_true, if_false, Host.Outcome.next.injEq] at ht
  subst ht
  unfold State.ballastTake
  extract_lets n
  split
  · exact Or.inl ⟨rfl, fun _ => rfl⟩
  · next p hp =>
    split
    · exact Or.inl ⟨rfl, fun _ => rfl⟩
    · split
      · exact Or.inl ⟨congrArg _ (ballastLow_out s p o), ballastLow_words s p o⟩
      · split
        · exact Or.inl ⟨congrArg _ (ballastLow_out s p o), ballastLow_words s p o⟩
        · next i b hb =>
          obtain ⟨ids, hlen, hnodup, hlast, hmine, hothers⟩ := takeChain_exclusive (hpools p) hb
          refine Or.inr ⟨p, ids, i, hp, hlen, hnodup, hlast, rfl, ?_, ?_, fun q hq => ?_⟩
          · simpa only [emit_mem, onPoolB_pool, if_true] using hmine
          · simpa only [emit_mem, onPoolB_pool, if_true] using hothers
          · simp only [emit_mem, onPoolB_pool, if_neg (Ne.symm hq)]

end Sys2Proof.Proofs
end

section
/-! PROOFS. The programs of the staging tier and its NAND reads (R320 to R342): what a program leaves of the map, and the proofs of the
two statements about them. -/

-- Proofs one after another: many small ones at once would each take a thread's stack.
set_option Elab.async false

namespace Sys2Proof.Proofs

open Sys2Proof Sys2Proof.Machine Sys2Proof.Laws Sys2Proof.Safety

/-! ### What a program leaves: the map, and which clusters are to be relocated (R325, R344) -/

/-- The map, and the clusters to relocate. -/
def copies (g : Staging) : List MapEntry × List (VolId × Nat) := (g.map, g.relocate)

theorem map_of_copies {g h : Staging} (e : copies h = copies g) : h.map = g.map := congrArg Prod.fst e

theorem relocate_of_copies {g h : Staging} (e : copies h = copies g) : h.relocate = g.relocate := congrArg Prod.snd e

@[simp] theorem putSb_copies (g : Staging) (x : Superblock) : copies (g.putSb x) = copies g := by
  unfold Staging.putSb
  split <;> rfl

@[simp] theorem ensureOpen_copies (g : Staging) (stream : Fin 4) (now : Nat) : copies (g.ensureOpen stream now) = copies g := by
  unfold Staging.ensureOpen
  split
  · rfl
  · split
    · rfl
    · exact putSb_copies _ _

theorem take_copies (g : Staging) (x : Superblock) (q order : Nat) : copies (g.take x q order).2 = copies g := by
  unfold Staging.take
  dsimp only
  split <;> exact putSb_copies _ _

theorem alloc_copies {g : Staging} {stream : Fin 4} {now order : Nat} {r : BitVec 34 × Staging}
    (h : g.alloc stream now order = some r) : copies r.2 = copies g := by
  unfold Staging.alloc at h
  dsimp only at h
  split at h
  · cases h
  · rw [← Option.some.inj h, take_copies, ensureOpen_copies]

theorem allocNextPage_copies {g : Staging} {stream : Fin 4} {failed : BitVec 34} {order : Nat} {r : BitVec 34 × Staging}
    (h : g.allocNextPage stream failed order = some r) : copies r.2 = copies g := by
  unfold Staging.allocNextPage at h
  split at h
  · cases h
  · dsimp only at h
    split at h
    · rw [← Option.some.inj h, take_copies]
    · cases h

@[simp] theorem closeOpen_copies (g : Staging) (stream : Fin 4) (order : Nat) : copies (g.closeOpen stream order) = copies g := by
  unfold Staging.closeOpen
  split
  · rfl
  · exact putSb_copies _ _

section
variable (s : State)

@[simp] theorem nandPage_copies (loc : BitVec 34) (ws : List NandWord) : copies (s.nandPage loc ws).stg = copies s.stg := rfl

@[simp] theorem stripeParity_copies (x : Superblock) (p : Nat) : copies (s.stripeParity x p).stg = copies s.stg := by
  unfold State.stripeParity
  split
  · rfl
  · rw [onStg_stg, putSb_copies, nandPage_copies]

@[simp] theorem member_copies (loc : BitVec 34) (ws : List NandWord) : copies (s.member loc ws).stg = copies s.stg := by
  unfold State.member
  split
  · rfl
  · extract_lets y p more s1
    have h1 : copies s1.stg = copies s.stg := putSb_copies _ _
    split
    · exact h1
    · rw [stripeParity_copies, h1]

@[simp] theorem closeStripe_copies (stream : Fin 4) : copies (s.closeStripe stream).stg = copies s.stg := by
  unfold State.closeStripe
  split
  · rfl
  · split
    · rfl
    · dsimp only
      rw [onStg_stg]
      split <;> rw [putSb_copies, stripeParity_copies]

@[simp] theorem protectStaging_copies : copies s.protectStaging.stg = copies s.stg := by
  unfold State.protectStaging
  split
  · rfl
  · simp [copies]

@[simp] theorem testLoses_stg (id : Nat) (hits : Nat → Bool) : (s.testLoses id hits).stg = s.stg :=
  stg_of_hide (by simp [hide_testLoses])

@[simp] theorem retireLun_copies (c : ChanNo) (l : Fin 16) : copies (s.retireLun c l).stg = copies s.stg := by
  unfold State.retireLun
  split
  · rfl
  · simp [copies]

@[simp] theorem proposeLun_copies (c : ChanNo) (l : Fin 16) : copies (s.proposeLun c l).stg = copies s.stg := by
  unfold State.proposeLun
  split
  · rfl
  · dsimp only
    split <;> simp

@[simp] theorem retireBlock_copies (c : ChanNo) (l : Fin 16) (b : Nat) : copies (s.retireBlock c l b).stg = copies s.stg := by
  unfold State.retireBlock
  extract_lets s1 s2
  have h1 : copies s1.stg = copies s.stg := by simp [s1, copies]
  have h2 : copies s2.stg = copies s.stg := by
    unfold s2
    split
    · exact h1
    · rw [protectStaging_copies, h1]
  split
  · rw [proposeLun_copies, h2]
  · exact h2

/-- A block proposed for retirement: the map stays, and its live clusters are to be relocated as well. -/
theorem proposeBlock_copies (loc : BitVec 34) (op : Nat) : copies (s.proposeBlock loc op).stg = (s.stg.map, s.stg.relocate ++
    (s.stg.map.filter (fun e => decide (locChan e.loc = locChan loc ∧ locLun e.loc = locLun loc ∧ locBlock e.loc = locBlock loc))).map
      (fun e => (e.vid, e.ucl))) := by
  unfold State.proposeBlock
  extract_lets c l b retire s1 s2
  have h1 : s1.stg = s.stg := by simp [s1, State.logRetry]
  have h2 : copies s2.stg = (s1.stg.map, s1.stg.relocate ++ (s1.stg.map.filter (fun e =>
    decide (locChan e.loc = c ∧ locLun e.loc = l ∧ locBlock e.loc = b))).map (fun e => (e.vid, e.ucl))) := rfl
  rw [h1] at h2
  split
  · rw [retireBlock_copies, h2]
  · exact h2

@[simp] theorem nandTransient_stg (loc : BitVec 34) (op : Nat) : (s.nandTransient loc op).stg = s.stg := by
  simp [State.nandTransient, State.logRetry]

/-- A program of which the first try is good. -/
theorem program_copies {stream : Fin 4} {ws : List NandWord} {again : Bool} {r : BitVec 34 × State}
    (h : s.program stream ws true again = some r) : copies r.2.stg = copies s.stg := by
  unfold State.program at h
  dsimp only at h
  split at h
  · cases h
  · next loc g hg =>
    rw [if_pos rfl] at h
    rw [← Option.some.inj h, member_copies, nandPage_copies]
    exact alloc_copies hg

omit s in
/-- A member programmed at a position that was taken. -/
theorem map_of_place {t : State} {ws : List NandWord} {o : Option (BitVec 34 × Staging)} {m : List MapEntry} {x : BitVec 34 × State}
    (ho : ∀ y, o = some y → y.2.map = m)
    (hx : o.map (fun y => (y.1, (({ t with stg := y.2 } : State).nandPage y.1 ws).member y.1 ws)) = some x) : x.2.stg.map = m := by
  obtain ⟨y, hy, rfl⟩ := Option.map_eq_some_iff.1 hx
  rw [map_of_copies (member_copies _ _ _), map_of_copies (nandPage_copies _ _ _)]
  exact ho y hy

/-- A program leaves the map, whichever try is good. -/
theorem program_map {stream : Fin 4} {ws : List NandWord} {ok again : Bool} {r : BitVec 34 × State}
    (h : s.program stream ws ok again = some r) : r.2.stg.map = s.stg.map := by
  unfold State.program at h
  dsimp only at h
  split at h
  · cases h
  · next loc g hg =>
    have h0 : (({ s with stg := g } : State).nandPage loc ws).stg.map = s.stg.map := map_of_copies (alloc_copies hg)
    generalize ({ s with stg := g } : State).nandPage loc ws = s1 at h h0
    have halloc : ∀ {t : State} {now order : Nat} (y : BitVec 34 × Staging), t.stg.map = s1.stg.map →
        t.stg.alloc stream now order = some y → y.2.map = s.stg.map := fun y ht hy => by
      rw [map_of_copies (alloc_copies hy), ht, h0]
    split at h
    · rw [← Option.some.inj h, map_of_copies (member_copies _ _ _), h0]
    · split at h
      · exact map_of_place (fun y hy => halloc y rfl hy) h
      · split at h
        · obtain ⟨x, hx, rfl⟩ := Option.map_eq_some_iff.1 h
          rw [nandTransient_stg]
          refine map_of_place (fun y hy => ?_) hx
          split at hy
          · next z hz =>
            rw [← Option.some.inj hy, map_of_copies (allocNextPage_copies hz), map_of_copies (closeStripe_copies _ _), h0]
          · exact halloc y (map_of_copies (closeStripe_copies _ _)) hy
        · refine map_of_place (fun y hy => halloc y ?_ hy) h
          rw [onStg_stg, map_of_copies (closeOpen_copies _ _ _), map_of_copies (closeStripe_copies _ _),
            show (s1.proposeBlock loc 1).stg.map = _ from congrArg Prod.fst (proposeBlock_copies s1 loc 1)]

theorem programJournal_map {ok again : Bool} {t : State} (h : s.programJournal ok again = some t) : t.stg.map = s.stg.map := by
  obtain ⟨x, hx, rfl⟩ := Option.map_eq_some_iff.1 h
  exact program_map s hx

@[simp] theorem ventSpill_map : s.ventSpill.stg.map = s.stg.map := by
  unfold State.ventSpill
  split
  · rfl
  · cases h : s.programJournal true true with
    | none => rfl
    | some t => exact programJournal_map s h

@[simp] theorem metadataPage_map : s.metadataPage.stg.map = s.stg.map := by
  unfold State.metadataPage
  extract_lets prog
  split
  · next loc t h => exact program_map s h
  · rfl

/-! ### What a completion leaves: tags of queues apart, the staging tier (R295) -/

/-- What the tags of queues do not change, a completion leaves. -/
theorem complete_keeps {α : Type} (f : Staging → α) (hf : ∀ (t : State) (c : Cmd), f (t.tagWrite c).stg = f t.stg) (id : CmdId)
    (st : Byte) (r : BitVec 64) : f (s.complete id st r).stg = f s.stg := by
  unfold State.complete
  split
  · rfl
  split
  · rfl
  next c _ =>
    extract_lets s0 result s1
    have h1 : f s1.stg = f s.stg := by
      unfold s1
      split
      · exact hf s0 c
      · rfl
    split
    · rw [send_stg, h1]
    split
    · exact h1
    · rw [post_stg, h1]

theorem foldl_complete_keeps {α : Type} (f : Staging → α) (hf : ∀ (t : State) (c : Cmd), f (t.tagWrite c).stg = f t.stg)
    (cs : List Cmd) : f (cs.foldl (fun (t : State) (c : Cmd) => t.complete c.id 0x00 0) s).stg = f s.stg := by
  induction cs generalizing s with
  | nil => rfl
  | cons c cs ih => rw [List.foldl_cons, ih, complete_keeps s f hf]

theorem settleFlush_keeps {α : Type} (f : Staging → α) (hf : ∀ (t : State) (c : Cmd), f (t.tagWrite c).stg = f t.stg) :
    f s.settleFlush.stg = f s.stg := by
  unfold State.settleFlush
  split
  · rfl
  · exact foldl_complete_keeps s f hf _

/-- The location of a cluster. -/
def locationOf (g : Staging) (vid : VolId) (ucl : Nat) : Option (BitVec 34) := (g.entry? vid ucl).map (·.loc)

theorem locationOf_eq_some {g : Staging} {vid : VolId} {ucl : Nat} {loc : BitVec 34} :
    locationOf g vid ucl = some loc ↔ ∃ e, g.entry? vid ucl = some e ∧ e.loc = loc := Option.map_eq_some_iff

theorem locationOf_of_map {g h : Staging} (e : h.map = g.map) (vid : VolId) (ucl : Nat) :
    locationOf h vid ucl = locationOf g vid ucl := by rw [locationOf, locationOf, Staging.entry?, Staging.entry?, e]

theorem tagWrite_locationOf (c : Cmd) (vid : VolId) (ucl : Nat) :
    locationOf (s.tagWrite c).stg vid ucl = locationOf s.stg vid ucl := by
  simp only [locationOf, State.tagWrite, onStg_stg, Staging.entry?, List.find?_map, Option.map_map]
  congr 1
  · funext e
    simp only [Function.comp]
    split <;> rfl
  · congr 1
    funext e
    simp only [Function.comp]
    split <;> rfl

theorem settleStaged_locationOf (vid : VolId) (ucl : Nat) : locationOf s.settleStaged.stg vid ucl = locationOf s.stg vid ucl :=
  foldl_complete_keeps s (locationOf · vid ucl) (fun t c => tagWrite_locationOf t c vid ucl) _

/-! ### What garbage collection, fullness and mirror data leave (R336, R337, R401) -/

/-- Garbage collection starts: its victim apart, the staging tier stays. -/
theorem gcStart_stg : ∃ on victim, s.gcStart.stg = { s.stg with gcOn := on, gc := victim } := by
  unfold State.gcStart
  extract_lets free want s1
  split
  · exact ⟨want, s.stg.gc, rfl⟩
  · split
    · exact ⟨want, s.stg.gc, rfl⟩
    · next x refresh _ =>
      split
      · exact ⟨want, some (.copy, x.lun, x.block), by rw [raiseDev_eq, raiseAt_stg]; rfl⟩
      · split
        · exact ⟨want, _, rfl⟩
        · exact ⟨want, s.stg.gc, rfl⟩

theorem judgeFull_stg : ∃ full, s.judgeFull.stg = { s.stg with full := full } := by
  unfold State.judgeFull
  extract_lets isFull
  split
  · refine ⟨true, ?_⟩
    rw [stg_of_hide (hide_eachBay _ (fun _ _ => hide_onSeq (by simp)) _), raiseDev_eq, raiseAt_stg]
    rfl
  · exact ⟨isFull, rfl⟩

@[simp] theorem place_map (g : Staging) (d : DirtyCluster) : (g.place d).map = g.map := by
  unfold Staging.place
  split
  · split <;> rfl
  · split
    · split <;> rfl
    · rfl

theorem acceptMirror_map (msg : BitVec 32) (d : DirtyCluster) : (s.acceptMirror msg d).stg.map = s.stg.map := by
  unfold State.acceptMirror
  extract_lets s1 s2
  rw [send_stg]
  change s1.stg.map = _
  rw [placeDirty_stg, place_map, stg_of_hide (hide_passAll (by simp) (by simp) (by simp))]

theorem tetherBuf_stg (d : DirtyCluster) : (s.tetherBuf d).1.stg = s.stg := by
  unfold State.tetherBuf
  split
  · rfl
  · exact ballastTake_stg s tetherOwner 65536

theorem settleMirrors_map (fuel : Nat) : (State.settleMirrors fuel s).stg.map = s.stg.map := by
  induction fuel generalizing s with
  | zero => rfl
  | succ fuel ih =>
    rw [State.settleMirrors]
    split
    · rfl
    · next msg d rest _ =>
      have hstg := tetherBuf_stg s d
      generalize s.tetherBuf d = x at hstg ⊢
      dsimp only
      split
      · rw [ih, acceptMirror_map, onPair_stg, hstg]
      · rw [onPair_stg, hstg]

end

/-! ### The programs -/

section
variable {s u : State}

/-- A program of a dirty cluster gives its entry the place that was taken. -/
theorem programmed_locationOf (d : DirtyCluster) (loc : BitVec 34) :
    locationOf (s.programmed d loc).stg d.vid d.ucl = some loc := by
  refine locationOf_eq_some.2 ⟨s.stagedEntry d loc (s.sys.progSeq + 1), ?_, rfl⟩
  exact find?_putEntry _ (s.stagedEntry d loc (s.sys.progSeq + 1))

/-- What follows the program of a dirty cluster (R290, R337, R401). -/
theorem afterProgram_locationOf (s2 : State) (vid : VolId) (ucl : Nat) (spill : Bool) :
    locationOf (State.settleMirrors (((if spill then s2.ventSpill else s2).settleStaged).gcStart).judgeFull.pair.uncommitted.length
      (((if spill then s2.ventSpill else s2).settleStaged).gcStart).judgeFull).stg vid ucl = locationOf s2.stg vid ucl := by
  rw [locationOf_of_map (settleMirrors_map _ _)]
  obtain ⟨full, hfull⟩ := judgeFull_stg ((if spill then s2.ventSpill else s2).settleStaged).gcStart
  obtain ⟨on, victim, hgc⟩ := gcStart_stg (if spill then s2.ventSpill else s2).settleStaged
  rw [hfull, hgc]
  refine (settleStaged_locationOf _ vid ucl).trans (locationOf_of_map ?_ vid ucl)
  split
  · exact ventSpill_map s2
  · rfl

theorem clusterProgram_completes {d : DirtyCluster} {ds : List DirtyCluster} {loc : BitVec 34} {ok again : Bool}
    (hd : s.stg.dirty = d :: ds)
    (hu : s.program (if s.sys.mode = .vent then 2 else 0) (s.dirtyWords d (if s.sys.mode = .vent then 2 else 0)) ok again
      = some (loc, u)) :
    Completes (.clusterProgram ok again) s (fun t => ∃ e, t.stg.entry? d.vid d.ucl = some e ∧ e.loc = loc) := by
  have hstream : s.program (if decide (s.sys.mode = .vent) = true then 2 else 0)
      (s.dirtyWords d (if decide (s.sys.mode = .vent) = true then 2 else 0 : Fin 4).val) ok again = some (loc, u) := by
    by_cases hv : s.sys.mode = .vent
    · simp only [hv, if_true, decide_true] at hu ⊢
      exact hu
    · simp only [hv, if_false, decide_false, Bool.false_eq_true] at hu ⊢
      exact hu
  refine ⟨_, by simp only [exec, execClusterProgram, hd, hstream]; rfl, ?_⟩
  exact locationOf_eq_some.1 (by rw [afterProgram_locationOf, programmed_locationOf])

/-- A cluster to relocate is copied, while its entry names the victim location (R337, R338). -/
theorem gcCopy_completes {v : VolId} {n : Nat} {rest : List (VolId × Nat)} {e : MapEntry} {loc : BitVec 34} {again : Bool}
    (hvent : s.sys.mode ≠ .vent) (hsan : s.sys.mode ≠ .sanitize) (hr : s.stg.relocate = (v, n) :: rest)
    (he : s.stg.entry? v n = some e)
    (hu : (s.onStg (fun g => { g with relocate := rest })).program 1 (({ e with progSeq := s.sys.progSeq + 1 } : MapEntry).words 1) true
      again = some (loc, u)) :
    Completes (.gcCopy true again) s (fun t => t.stg.relocate = rest
      ∧ ∃ x, t.stg.entry? v n = some x ∧ x.loc = loc ∧ x.dataSeq = e.dataSeq) := by
  have hexec : exec (.gcCopy true again) s = .next (u.copied e loc) := by
    have he' : (s.onStg (fun g => { g with relocate := rest })).stg.entry? v n = some e := he
    have hu' : (s.onStg (fun g => { g with relocate := rest })).copyOne e true again = u.copied e loc := by
      rw [State.copyOne]
      exact congrArg (fun x : Option (BitVec 34 × State) => match x with
        | none => s.onStg (fun g => { g with relocate := rest })
        | some (loc, s1) => s1.copied e loc) hu
    simp only [exec, execGcCopy, hvent, hsan, or_self, if_false, hr, he', hu']
  obtain ⟨rfl, rfl⟩ := entry?_spec he
  have hu' := program_copies _ hu
  have hentry : u.stg.entry? e.vid e.ucl = some e := by
    rw [Staging.entry?, map_of_copies hu']
    exact he
  refine ⟨_, hexec, ?_, _, copyRaces.1 u e e loc hentry rfl, rfl, rfl⟩
  rw [show (u.copied e loc).stg.relocate = u.stg.relocate by simp [State.copied, hentry, Staging.journalRec], relocate_of_copies hu']
  rfl

/-- The journal buffer is programmed, and is empty then (R340). -/
theorem journalPageProgram_completes {ok again : Bool} (hj : s.stg.journal ≠ []) (hu : s.programJournal ok again = some u) :
    Completes (.journalPageProgram ok again) s (fun t => t.stg.journal = [] ∧ t.stg.nand = u.stg.nand) := by
  have hempty : s.stg.journal.isEmpty = false := by simpa using hj
  refine ⟨_, by simp only [exec, execJournalPageProgram, hempty, Bool.false_eq_true, if_false, hu]; rfl, ?_, ?_⟩
  · rw [settleFlush_keeps _ Staging.journal fun _ _ => rfl]
    obtain ⟨x, hx, rfl⟩ := Option.map_eq_some_iff.1 hu
    rfl
  · rw [settleFlush_keeps _ Staging.nand fun _ _ => rfl]
    rfl

@[simp] theorem writeRoot_journal (s : State) (clean warm : Bool) : (s.writeRoot clean warm).stg.journal = s.stg.journal := by
  unfold State.writeRoot
  dsimp only
  split <;> rfl

theorem writeRoot_entries (s : State) (clean warm : Bool) :
    (s.writeRoot clean warm).stg.nand.entries = s.stg.nand.entries := by
  unfold State.writeRoot
  dsimp only
  split <;> rfl

theorem foldl_metadataPage_map (s : State) (l : List Nat) :
    (l.foldl (fun (t : State) _ => t.metadataPage) s).stg.map = s.stg.map := by
  induction l generalizing s with
  | nil => rfl
  | cons a l ih => rw [List.foldl_cons, ih, metadataPage_map]

/-- A program of which the first try is good touches the staging tier alone, and goes out. -/
theorem hide_program_of_ok {ps : List Part} {stream : Fin 4} {ws : List NandWord} {again : Bool} {r : BitVec 34 × State}
    (hstg : Part.stg ∈ ps) (hout : Part.out ∈ ps) (h : s.program stream ws true again = some r) : hide ps r.2 = hide ps s := by
  unfold State.program at h
  dsimp only at h
  split at h
  · cases h
  · next loc g _ =>
    rw [if_pos rfl] at h
    rw [← Option.some.inj h, hide_member hstg hout, hide_nandPage hstg hout]
    exact hide_setStg hstg

theorem hide_metadataPage_of_ok {ps : List Part} (s : State) (hsys : Part.sys ∈ ps) (hstg : Part.stg ∈ ps) (hout : Part.out ∈ ps) :
    hide ps s.metadataPage = hide ps s := by
  unfold State.metadataPage
  extract_lets prog
  split
  · next loc t h => rw [hide_onSys hsys (.inr rfl) (.inr rfl), hide_program_of_ok hstg hout h]
  · rfl

/-- A checkpoint before it is announced (R342): map pages, directory and root record are programmed. -/
def checkpointed (s : State) : State :=
  let s1 := (List.range (ceilDiv (s.freeInt 1).1.toNat 16)).foldl (fun (t : State) _ => t.metadataPage) (s.freeInt 1).2
  let dir := (s1.stg.ensureOpen 3 s1.seconds).openOf 3
  (s1.metadataPage.onStg (fun g =>
    let g1 := g.durable
    { g1 with nand := { g1.nand with entries := g1.map, vols := s1.vols, sinceCheckpoint := 0 },
              directory := dir.map (fun x => location x.lun x.block x.next),
              journalPos := (g1.openOf 3).map (fun x => location x.lun x.block x.next) })).writeRoot
    (decide (s.sys.mode = .quiesce) && s.stg.dirty.isEmpty) false

theorem hide_checkpointed {ps : List Part} (s : State) (hfree : Part.free ∈ ps) (hsys : Part.sys ∈ ps) (hstg : Part.stg ∈ ps)
    (hmem : Part.mem ∈ ps) (hout : Part.out ∈ ps) : hide ps (checkpointed s) = hide ps s := by
  unfold checkpointed
  extract_lets s1 dir
  rw [hide_writeRoot hstg hmem hout, hide_onStg hstg, hide_metadataPage_of_ok _ hsys hstg hout,
    hide_foldl _ (fun _ _ => hide_metadataPage_of_ok _ hsys hstg hout), hide_freeInt hfree]

theorem checkpointed_journal (s : State) : (checkpointed s).stg.journal = [] := by
  unfold checkpointed
  dsimp only
  rw [writeRoot_journal]
  rfl

theorem checkpointed_entries (s : State) : (checkpointed s).stg.nand.entries = s.stg.map := by
  unfold checkpointed
  dsimp only
  rw [writeRoot_entries]
  refine (metadataPage_map _).trans ?_
  rw [foldl_metadataPage_map]
  rfl

theorem on_of_code {m : Mode} (h : 2 ≤ m.code) : m ≠ .off := by
  rintro rfl
  exact absurd h (by decide)

theorem checkpoint_completes (hvent : s.sys.mode ≠ .vent) (hmode : 2 ≤ s.sys.mode.code) :
    Completes .checkpoint s (fun t => t.stg.journal = [] ∧ t.stg.nand.entries = s.stg.map
      ∧ raisedSince s t (.dev .checkpoint) = true) := by
  have hexec : exec .checkpoint s = .next (((checkpointed s).raiseDev .checkpoint [.u32 (s.freeInt 1).1.toNat]).settleFlush) := by
    simp only [exec, execCheckpoint, hvent, Nat.not_lt.2 hmode, or_self, if_false]
    rfl
  refine ⟨_, hexec, ?_, ?_, ?_⟩
  · rw [settleFlush_keeps _ Staging.journal fun _ _ => rfl, raiseDev_eq, raiseAt_stg, checkpointed_journal]
  · rw [settleFlush_keeps _ (fun g => g.nand.entries) fun _ _ => rfl, raiseDev_eq, raiseAt_stg, checkpointed_entries]
  · have hon : (checkpointed s).sys.mode ≠ .off := by
      rw [mode_of_hide (hide_checkpointed s (by simp) (by simp) (by simp) (by simp) (by simp))]
      exact on_of_code hmode
    have hbefore : KeepsEvents 0 s (checkpointed s) :=
      (Keeps.refl _ 0 s).frame (hide_checkpointed s (by simp) (by simp) (by simp) (by simp) (by simp))
    exact raisedSince_of_keeps hbefore hon ((Keeps.refl (fun _ => True) 0 _).frame
      (hide_settleFlush (by simp) (by simp) (by simp) (by simp) (by simp) (by simp)))

@[simp] theorem putSb_journal (g : Staging) (x : Superblock) : (g.putSb x).journal = g.journal := by
  unfold Staging.putSb
  split <;> rfl

theorem reserveStep_journal (g : Staging) (want : Nat) : (g.reserveStep want).journal = g.journal := by
  unfold Staging.reserveStep
  split
  · split
    · exact putSb_journal _ _
    · rfl
  · split
    · split
      · exact putSb_journal _ _
      · rfl
    · rfl

theorem fillReserve_journal (fuel : Nat) (g : Staging) (want : Nat) : (Staging.fillReserve fuel g want).journal = g.journal := by
  induction fuel generalizing g with
  | zero => rfl
  | succ fuel ih =>
    rw [Staging.fillReserve]
    split
    · rfl
    · rw [ih, reserveStep_journal]

theorem fitReserve_journal (g : Staging) (limit : Nat) : (g.fitReserve limit).journal = g.journal := by
  simp only [Staging.fitReserve, apply_ite Staging.journal, fillReserve_journal, ite_self]

theorem gcStart_journal (s : State) : s.gcStart.stg.journal = s.stg.journal := by
  obtain ⟨on, victim, hgc⟩ := gcStart_stg s
  rw [hgc]

theorem judgeFull_journal (s : State) : s.judgeFull.stg.journal = s.stg.journal := by
  obtain ⟨full, hfull⟩ := judgeFull_stg s
  rw [hfull]

theorem erasedSb_journal (s : State) (l b : Nat) : .erased l b ∈ (s.erasedSb l b).stg.journal := by
  simp only [State.erasedSb, judgeFull_journal, gcStart_journal, onStg_stg, fitReserve_journal, Staging.journalRec,
    List.mem_append, List.mem_singleton, or_true]

/-- An erase that succeeds is journalled (R337, R340). -/
theorem blockErase_completes {l : Fin 16} {n : Nat} {c : ChanNo} {again : Bool} (h : s.stg.mayErase l.val n = true) :
    Completes (.blockErase l n c true again) s (fun t => .erased l.val n ∈ t.stg.journal) := by
  refine ⟨_, by simp only [exec, execBlockErase, h, Bool.not_true, Bool.false_eq_true, if_false, if_true]; rfl, ?_⟩
  exact erasedSb_journal _ _ _

/-- The clusters of a retired LUN are listed to relocate (R353). -/
theorem lunRetire_completes {c : ChanNo} {l : Fin 16} (h : s.stg.nand.retiredLuns.contains (c, l) = true) :
    Completes (.lunRetire c l) s (fun t => ∀ e ∈ s.stg.map, locChan e.loc = c → locLun e.loc = l →
      (e.vid, e.ucl) ∈ t.stg.relocate) := by
  refine ⟨_, by simp only [exec, execLunRetire, h, Bool.not_true, Bool.false_eq_true, if_false]; rfl, fun e he hc hl => ?_⟩
  simp only [onStg_stg, List.mem_append]
  by_cases hm : (e.vid, e.ucl) ∈ s.stg.relocate
  · exact Or.inl hm
  · exact Or.inr (List.mem_map.2 ⟨e, List.mem_filter.2 ⟨he, by simp [hc, hl, hm]⟩, rfl⟩)

end

/-- Settles O35, command by command. -/
theorem stagingProgramsComplete : Obligations.StagingProgramsComplete := by
  unfold Obligations.StagingProgramsComplete
  refine ⟨?_, ?_, ?_, ?_, ?_, ?_⟩
  · exact fun _ _ _ _ _ _ _ hd hu => clusterProgram_completes hd hu
  · exact fun _ _ _ _ _ _ _ _ hvent hsan hr he hu => gcCopy_completes hvent hsan hr he hu
  · exact fun _ _ _ _ hj hu => journalPageProgram_completes hj hu
  · exact fun _ hvent hmode => checkpoint_completes hvent hmode
  · exact fun _ _ _ _ _ h => blockErase_completes h
  · exact fun _ _ _ h => lunRetire_completes h

end Sys2Proof.Proofs
end

section
/-! PROOFS. The reads of NAND, from the first try to the loss of a sector (R333 to R335), and its other commands (R320, R332, R352). -/

-- Proofs one after another: many small ones at once would each take a thread's stack.
set_option Elab.async false

namespace Sys2Proof.Proofs

open Sys2Proof Sys2Proof.Machine Sys2Proof.Laws Sys2Proof.Safety

/-! ### What a read leaves -/

section
variable {s t : State}

theorem anyTailBlind : TailBlind fun _ => True := fun _ _ h => h

section
variable (h : KeepsEvents 0 s t)
include h

theorem Keeps.raisedAt {e : Ev} {sev : Severity} {fs : List PField} : KeepsEvents 0 s (t.raiseAt e sev fs) := h.raiseAt anyTailBlind

theorem Keeps.onStg {f : Staging → Staging} : KeepsEvents 0 s (t.onStg f) := h.frame (hide_onStg (by simp))

theorem Keeps.logRetry {src : Nat} {kind : Fin 11} {persistent : Bool} {action : Nat} {identity : BitVec 64} :
    KeepsEvents 0 s (t.logRetry src kind persistent action identity) := h.frame (hide_logRetry (by simp))

theorem Keeps.testLoses {code : Nat} {needs : Nat → Bool} : KeepsEvents 0 s (t.testLoses code needs) :=
  h.frame (hide_testLoses (by simp))

theorem Keeps.nandRead {loc : BitVec 34} {cls : Nat} : KeepsEvents 0 s (t.nandRead loc cls) :=
  h.frame (hide_nandRead (by simp) (by simp))

theorem Keeps.retireLun {c : ChanNo} {l : Fin 16} : KeepsEvents 0 s (t.retireLun c l) := by
  unfold State.retireLun
  exact h.ite h.onStg.raisedAt.testLoses

theorem Keeps.proposeLun {c : ChanNo} {l : Fin 16} : KeepsEvents 0 s (t.proposeLun c l) := by
  unfold State.proposeLun
  exact h.ite (h.raisedAt.retireLun.ite h.raisedAt)

theorem Keeps.protectStaging : KeepsEvents 0 s t.protectStaging := by
  unfold State.protectStaging
  exact h.ite h.onStg.raisedAt

theorem Keeps.retireBlock {c : ChanNo} {l : Fin 16} {b : Nat} : KeepsEvents 0 s (t.retireBlock c l b) := by
  unfold State.retireBlock
  extract_lets s1 s2
  have h1 : KeepsEvents 0 s s1 := h.onStg.raisedAt
  have h2 : KeepsEvents 0 s s2 := h1.onStg.ite h1.protectStaging
  exact h2.proposeLun.ite h2

theorem Keeps.proposeBlock {loc : BitVec 34} {op : Nat} : KeepsEvents 0 s (t.proposeBlock loc op) := by
  unfold State.proposeBlock
  exact h.raisedAt.logRetry.onStg.retireBlock.ite h.raisedAt.logRetry.onStg

end

end

section
variable (s : State)

@[simp] theorem nandRead_copies (loc : BitVec 34) (cls : Nat) : copies (s.nandRead loc cls).stg = copies s.stg := rfl

@[simp] theorem nandRead_sys (loc : BitVec 34) (cls : Nat) : (s.nandRead loc cls).sys = s.sys := rfl

@[simp] theorem logRetry_sys (src : Nat) (kind : Fin 11) (persistent : Bool) (action : Nat) (identity : BitVec 64) :
    (s.logRetry src kind persistent action identity).sys = s.sys := rfl

@[simp] theorem logRetry_stg (src : Nat) (kind : Fin 11) (persistent : Bool) (action : Nat) (identity : BitVec 64) :
    (s.logRetry src kind persistent action identity).stg = s.stg := rfl

end

/-- Reads leave the events, the map and the mode. -/
structure ReadsOnly (s t : State) : Prop where
  events : KeepsEvents 0 s t
  copies : copies t.stg = copies s.stg
  sys : t.sys = s.sys

theorem ReadsOnly.refl (s : State) : ReadsOnly s s := ⟨Keeps.refl _ 0 s, rfl, rfl⟩

section
variable {s t : State} (h : ReadsOnly s t)
include h

theorem ReadsOnly.nandRead {loc : BitVec 34} {cls : Nat} : ReadsOnly s (t.nandRead loc cls) :=
  ⟨h.events.nandRead, h.copies, h.sys⟩

theorem ReadsOnly.logRetry {src : Nat} {kind : Fin 11} {persistent : Bool} {action : Nat} {identity : BitVec 64} :
    ReadsOnly s (t.logRetry src kind persistent action identity) := ⟨h.events.logRetry, h.copies, h.sys⟩

theorem ReadsOnly.foldl {loc : BitVec 34} (xs : List (Nat × Option NandWord)) :
    ReadsOnly s (xs.foldl (fun (u : State) x => u.nandRead loc x.1) t) := by
  induction xs generalizing t with
  | nil => exact h
  | cons x xs ih => exact ih h.nandRead

theorem ReadsOnly.map : t.stg.map = s.stg.map := map_of_copies h.copies

theorem ReadsOnly.on (hm : s.sys.mode ≠ .off) : t.sys.mode ≠ .off := by rwa [h.sys]

/-- An event raised after reads. -/
theorem ReadsOnly.raises {u : State} {e : Ev} {sev : Severity} {fs : List PField} (hm : s.sys.mode ≠ .off)
    (hu : KeepsEvents 0 (t.raiseAt e sev fs) u) : raisedSince s u e = true := raisedSince_of_keeps h.events (h.on hm) hu

end

/-! ### The steps of a read (R333 to R335) -/

/-- The tries in the other classes that are made: those before the first that decodes, and that one. -/
theorem length_takeWhile_isNone_lt {xs : List (Nat × Option NandWord)} :
    (xs.takeWhile (fun x => (nandDecoded x.2).isNone)).length < xs.length ↔ xs.any (fun x => (nandDecoded x.2).isSome) = true := by
  induction xs with
  | nil => simp
  | cons x xs ih => cases h : nandDecoded x.2 <;> simp [h, ih]

section
variable {s : State} {loc : BitVec 34} {k : Fin 16} {o : NandReadObs}

/-- The other classes in which a codeword is read, with what each finds. -/
def classTries (s : State) (loc : BitVec 34) (o : NandReadObs) : List (Nat × Option NandWord) :=
  (otherClasses (s.stg.readClass loc)).zip o.classes

/-- The state after the read, its repeat and the tries in the other classes up to the first that decodes. -/
def triedInClasses (s : State) (loc : BitVec 34) (o : NandReadObs) : State :=
  let cls := s.stg.readClass loc
  let tries := classTries s loc o
  (tries.take ((tries.takeWhile (fun x => (nandDecoded x.2).isNone)).length + 1)).foldl (fun (t : State) x => t.nandRead loc x.1)
    (((s.nandRead loc cls).nandRead loc cls).logRetry (Ev.nand (locChan loc) .nandReadRetry).src 4 true 3 (nandIdentity loc 0))

theorem readsOnly_triedInClasses (s : State) (loc : BitVec 34) (o : NandReadObs) : ReadsOnly s (triedInClasses s loc o) :=
  (ReadsOnly.refl s).nandRead.nandRead.logRetry.foldl _

/-- A read that its repeat does not mend is tried in the other classes, then rebuilt from its stripe, then lost. -/
theorem nandCodewordRead_eq (h1 : nandDecoded o.first = none) (h2 : nandDecoded o.again = none) :
    exec (.nandCodewordRead loc k o) s
      = .next (if (classTries s loc o).any (fun x => (nandDecoded x.2).isSome) = true then
          (triedInClasses s loc o).raiseNand (locChan loc) .nandReadRetry [.u8 (locLun loc).val, .u16 (locBlock loc), .u8 k.val]
        else match stripeWord o.stripe with
          | some w => (triedInClasses s loc o).nandRebuilt loc k w
          | none => (triedInClasses s loc o).nandLost loc k) := by
  have hlt := length_takeWhile_isNone_lt (xs := classTries s loc o)
  have hexec : exec (.nandCodewordRead loc k o) s =
      if ((classTries s loc o).takeWhile (fun x => (nandDecoded x.2).isNone)).length < (classTries s loc o).length then
        .next ((triedInClasses s loc o).raiseNand (locChan loc) .nandReadRetry [.u8 (locLun loc).val, .u16 (locBlock loc), .u8 k.val])
      else match stripeWord o.stripe with
        | some w => .next ((triedInClasses s loc o).nandRebuilt loc k w)
        | none => .next ((triedInClasses s loc o).nandLost loc k) := by
    simp only [exec, execNandCodewordRead, h1, h2]
    rfl
  rw [hexec]
  by_cases hany : (classTries s loc o).any (fun x => (nandDecoded x.2).isSome) = true
  · rw [if_pos (hlt.2 hany), if_pos hany]
  · rw [if_neg (fun h => hany (hlt.1 h)), if_neg hany]
    cases stripeWord o.stripe <;> rfl

theorem read_completes (h : (nandDecoded o.first).isSome = true) :
    Completes (.nandCodewordRead loc k o) s (fun t => t.stg.map = s.stg.map ∧ t.stg.lastOp[locChan loc] = (0, loc.toNat)
      ∧ t.ev = s.ev) := by
  obtain ⟨x, hx⟩ := Option.isSome_iff_exists.1 h
  have hexec : exec (.nandCodewordRead loc k o) s = .next (s.nandRead loc (s.stg.readClass loc)) := by
    simp only [exec, execNandCodewordRead, hx]
  exact ⟨_, hexec, rfl, Vector.getElem_set_self _, rfl⟩

/-- A read that its repeat mends is transient (R333). -/
theorem read_completes_again (hm : s.sys.mode ≠ .off) (h1 : nandDecoded o.first = none) (h2 : (nandDecoded o.again).isSome = true) :
    Completes (.nandCodewordRead loc k o) s (fun t => t.stg.map = s.stg.map
      ∧ raisedSince s t (.nand (locChan loc) .nandTransient) = true) := by
  obtain ⟨x, hx⟩ := Option.isSome_iff_exists.1 h2
  refine ⟨_, by simp only [exec, execNandCodewordRead, h1, hx]; rfl, ?_, ?_⟩
  · rw [nandTransient_stg]
    rfl
  · exact (ReadsOnly.refl s).nandRead.nandRead.raises hm (Keeps.refl _ 0 _).logRetry

/-- A read that another class mends is a retry (R334). -/
theorem read_completes_class (hm : s.sys.mode ≠ .off) (h1 : nandDecoded o.first = none) (h2 : nandDecoded o.again = none)
    (h3 : (classTries s loc o).any (fun x => (nandDecoded x.2).isSome) = true) :
    Completes (.nandCodewordRead loc k o) s (fun t => t.stg.map = s.stg.map
      ∧ raisedSince s t (.nand (locChan loc) .nandReadRetry) = true) := by
  refine ⟨_, by rw [nandCodewordRead_eq h1 h2, if_pos h3], ?_, ?_⟩
  · rw [raiseNand_eq, raiseAt_stg, (readsOnly_triedInClasses s loc o).map]
  · exact (readsOnly_triedInClasses s loc o).raises hm (Keeps.refl _ 0 _)

theorem relocate_of_copies_eq {g : Staging} {x} (h : copies g = x) : g.relocate = x.2 := congrArg Prod.snd h

theorem proposeBlock_relocate {x : VolId × Nat} (op : Nat) (h : x ∈ s.stg.relocate) : x ∈ (s.proposeBlock loc op).stg.relocate := by
  rw [relocate_of_copies_eq (proposeBlock_copies s loc op)]
  exact List.mem_append_left _ h

/-- A sector rebuilt from its stripe: its cluster is to be relocated (R334). -/
theorem read_completes_rebuilt {w : NandWord} (hm : s.sys.mode ≠ .off) (h1 : nandDecoded o.first = none)
    (h2 : nandDecoded o.again = none) (h3 : (classTries s loc o).any (fun x => (nandDecoded x.2).isSome) = false)
    (hw : stripeWord o.stripe = some w) :
    Completes (.nandCodewordRead loc k o) s (fun t => raisedSince s t (.nand (locChan loc) .nandStripeRebuild) = true
      ∧ ∀ e ∈ s.stg.map, e.loc = loc → (e.vid, e.ucl) ∈ t.stg.relocate) := by
  have hexec : exec (.nandCodewordRead loc k o) s = .next ((triedInClasses s loc o).nandRebuilt loc k w) := by
    rw [nandCodewordRead_eq h1 h2, h3, if_neg Bool.false_ne_true, hw]
  refine ⟨_, hexec, ?_⟩
  have hreads := readsOnly_triedInClasses s loc o
  generalize triedInClasses s loc o = u at hreads
  unfold State.nandRebuilt
  extract_lets c l b s1 s2
  have hmem : ∀ e ∈ s.stg.map, e.loc = loc → (e.vid, e.ucl) ∈ s2.stg.relocate := fun e he hl => by
    have hmap : s1.stg.map = s.stg.map := by rw [show s1.stg = u.stg from raiseAt_stg .., hreads.map]
    exact List.mem_append_right _ (List.mem_map.2 ⟨e, List.mem_filter.2 ⟨hmap ▸ he, decide_eq_true hl⟩, rfl⟩)
  split
  · exact ⟨hreads.raises hm (Keeps.refl _ 0 _).onStg.proposeBlock, fun e he hl => proposeBlock_relocate 0 (hmem e he hl)⟩
  · exact ⟨hreads.raises hm (Keeps.refl _ 0 _).onStg.onStg, hmem⟩

/-- The bit of a power of two. -/
theorem getLsbD_pow (k : Fin 16) : (BitVec.ofNat 16 (2 ^ k.val)).getLsbD k.val = true := by
  rw [BitVec.getLsbD_ofNat, Nat.testBit_two_pow_self, decide_eq_true k.isLt, Bool.true_and]

/-- The entry of a cluster that has lost a sector. -/
def lostEntry (e : MapEntry) (k : Fin 16) : MapEntry :=
  { e with mask := setBit e.mask k.val false, lost := setBit e.lost k.val true, sectors := eraseKey e.sectors k.val }

/-- A sector that nothing gives is lost (R335). -/
theorem read_completes_lost {e : MapEntry} (hm : s.sys.mode ≠ .off) (h1 : nandDecoded o.first = none)
    (h2 : nandDecoded o.again = none) (h3 : (classTries s loc o).any (fun x => (nandDecoded x.2).isSome) = false)
    (hw : stripeWord o.stripe = none) (he : s.stg.map.find? (fun x => decide (x.loc = loc)) = some e) :
    Completes (.nandCodewordRead loc k o) s (fun t => raisedSince s t (.nand (locChan loc) .nandUnrecovered) = true
      ∧ ∃ x, t.stg.entry? e.vid e.ucl = some x ∧ x.mask.getLsbD k.val = false ∧ x.lost.getLsbD k.val = true) := by
  have hexec : exec (.nandCodewordRead loc k o) s = .next ((triedInClasses s loc o).nandLost loc k) := by
    rw [nandCodewordRead_eq h1 h2, h3, if_neg Bool.false_ne_true, hw]
  refine ⟨_, hexec, ?_⟩
  have hreads := readsOnly_triedInClasses s loc o
  generalize triedInClasses s loc o = u at hreads
  rw [← hreads.map] at he
  unfold State.nandLost
  rw [he]
  refine ⟨hreads.raises hm (Keeps.refl _ 0 _).onStg, lostEntry e k, find?_putEntry _ (lostEntry e k), ?_, ?_⟩
  · change (e.mask &&& ~~~(BitVec.ofNat 16 (2 ^ k.val))).getLsbD k.val = false
    rw [BitVec.getLsbD_and, BitVec.getLsbD_not, getLsbD_pow, Bool.not_true, Bool.and_false, Bool.and_false]
  · exact bitAt_setBit e.lost k.isLt

/-! ### Timeouts, temperatures, calibration (R320, R332, R352) -/

/-- The channel of a location whose position is a channel's of page 0 (R324). -/
theorem locChan_location (l : Fin 16) (c : ChanNo) : locChan (location l.val 0 c.val) = c := by
  refine Fin.ext ?_
  have hc := c.isLt
  have hl := l.isLt
  simp only [locChan, location, BitVec.toNat_ofNat, Nat.div_eq_of_lt hc, Nat.mod_eq_of_lt hc]
  omega

theorem gcStart_temps (s : State) : s.gcStart.stg.temps = s.stg.temps := by
  obtain ⟨on, victim, hgc⟩ := gcStart_stg s
  rw [hgc]

theorem timeout_completes {c : ChanNo} {l : Fin 16} {op : NandOp} (hm : s.sys.mode ≠ .off) :
    Completes (.nandOpTimeout c l op true) s (fun t => t.stg.lastOp[c] = (0xFF, l.val)
      ∧ raisedSince s t (.nand c .nandTransient) = true) := by
  refine ⟨_, by simp only [exec, execNandOpTimeout, if_true]; rfl, ?_, ?_⟩
  · rw [nandTransient_stg]
    exact Vector.getElem_set_self _
  · refine (congrArg (fun d => raisedSince s _ (.nand d .nandTransient)) (locChan_location l c)).symm.trans ?_
    exact raisedSince_of_keeps ((Keeps.refl _ 0 s).onStg.frame (hide_emit (by simp))) hm (Keeps.refl _ 0 _).logRetry

theorem retentionTick_completes (ts : Vector (Option Int) 16) : Completes (.retentionTick ts) s (fun t => ∀ c : ChanNo,
    t.stg.temps[c] = (ts[c]).getD (s.sys.tj - s.dp Param.stgNandTempDelta)) := by
  refine ⟨_, rfl, fun c => ?_⟩
  rw [gcStart_temps]
  exact Vector.getElem_map _ c.isLt

/-- ZQ calibration goes to every channel (R320). -/
theorem zqCalibration_completes : Completes .zqCalibration s (fun t => ∀ c : ChanNo, t.stg.lastOp[c] = (0xF9, 0)) := by
  refine ⟨_, rfl, fun c => ?_⟩
  rw [stg_of_hide (hide_foldl _ (fun _ _ => hide_emit (by simp)) _ _)]
  exact Vector.getElem_replicate c.isLt

end

/-- Settles O36, command by command. -/
theorem nandReadsComplete : Obligations.NandReadsComplete := by
  unfold Obligations.NandReadsComplete
  refine ⟨?_, ?_, ?_, ?_, ?_, ?_, ?_, ?_⟩
  · exact fun _ _ _ _ h => read_completes h
  · exact fun _ _ _ _ hm h1 h2 => read_completes_again hm h1 h2
  · exact fun _ _ _ _ hm h1 h2 h3 => read_completes_class hm h1 h2 h3
  · exact fun _ _ _ _ _ hm h1 h2 h3 hw => read_completes_rebuilt hm h1 h2 h3 hw
  · exact fun _ _ _ _ _ hm h1 h2 h3 hw he => read_completes_lost hm h1 h2 h3 hw he
  · exact fun _ _ _ _ hm => timeout_completes hm
  · exact fun _ ts => retentionTick_completes ts
  · exact fun _ => zqCalibration_completes

end Sys2Proof.Proofs
end

section
/-! PROOFS. Memory, buffers and cache (R362 to R383): DRAM and its error records, Ballast, the triplicated words, the engine
cache. -/

-- Proofs one after another: many small ones at once would each take a thread's stack.
set_option Elab.async false

namespace Sys2Proof.Proofs

open Sys2Proof Sys2Proof.Machine Sys2Proof.Laws Sys2Proof.Safety

/-! ### DRAM (R362, R363, R369, R370) -/

/-- Where the control cores run the device is on. -/
theorem on_of_coresRun {s : State} (h : s.coresRun = true) : s.sys.mode ≠ .off := by
  intro hoff
  simp [State.coresRun, hoff, Mode.code] at h

section
variable {s t : State} (h : KeepsEvents 0 s t)
include h

theorem Keeps.onMem {f : Memory → Memory} : KeepsEvents 0 s (t.onMem f) := ⟨h.events, h.servo⟩

theorem Keeps.onFlash {f : BootFlash → BootFlash} : KeepsEvents 0 s (t.onFlash f) := ⟨h.events, h.servo⟩

theorem Keeps.applyRetired {page : Nat} : KeepsEvents 0 s (t.applyRetired page) := by
  unfold State.applyRetired
  refine h.foldl (fun _ _ hu => ?_) _
  exact ⟨hu.events, hu.servo⟩

theorem Keeps.proposePage {page : Nat} : KeepsEvents 0 s (t.proposePage page) := by
  unfold State.proposePage
  exact h.ite (h.raisedAt.ite (h.raisedAt.raisedAt.ite h.raisedAt.onFlash.applyRetired.raisedAt.testLoses))

theorem Keeps.countPageCe {page : Nat} : KeepsEvents 0 s (t.countPageCe page) := by
  unfold State.countPageCe
  exact h.onMem.proposePage.ite h.onMem

end

section
variable {s : State} {addr : BitVec 40} {o : DramObs} {w : List Nat} (hruns : s.coresRun = true) (haddr : addr.toNat < s.mem.bytes)

/-- A block whose errors the code finds none of is delivered as it is, and nothing changes. -/
theorem dramResult_clean (source : Nat) (hd : dramDecode s.mem.x8 o.first = .clean w) :
    s.dramResult addr source o = (some w, s) := by
  unfold State.dramResult
  rw [hd]

/-- A corrected block is delivered without its error, and EV_DRAM_CORRECTED is raised. -/
theorem dramResult_corrected {chip sym : Nat} (source : Nat) (hon : s.sys.mode ≠ .off)
    (hd : dramDecode s.mem.x8 o.first = .corrected chip sym w) :
    (s.dramResult addr source o).1 = some [] ∧ raisedSince s (s.dramResult addr source o).2 (.dev .dramCorrected) = true := by
  simp only [State.dramResult, hd]
  split
  · exact ⟨rfl, raisedSince_of_keeps (Keeps.refl _ 0 s).onMem.logRetry hon (Keeps.refl (fun _ => True) 0 _)⟩
  · exact ⟨rfl, raisedSince_of_keeps (Keeps.refl _ 0 s).onMem.logRetry hon (Keeps.refl _ 0 _).countPageCe⟩

include hruns haddr

theorem exec_dramRead (c : CoreNo) {t : State} (hr : s.dramResult addr 0 o = (some w, t)) :
    exec (.dramRead addr (.core c) o) s = .next (t.emit
      (.coreRead (BitVec.ofNat 64 (memRead (t.mem.spoil addr.toNat w).cells (addr.toNat / 8 * 8) 8)))) := by
  simp only [exec, execDramRead, hruns, Bool.not_true, Bool.false_eq_true, if_false, Nat.not_le.2 haddr, hr]

theorem dramRead_completes (c : CoreNo) (hd : dramDecode s.mem.x8 o.first = .clean w) (hw : w.all (· == 0) = true) :
    Completes (.dramRead addr (.core c) o) s (fun t => t.mem = s.mem
      ∧ t.out = .coreRead (BitVec.ofNat 64 (memRead s.mem.cells (addr.toNat / 8 * 8) 8)) :: s.out) := by
  refine ⟨_, exec_dramRead hruns haddr c (dramResult_clean 0 hd), rfl, ?_⟩
  rw [spoil_of_right hw, emit_out]

theorem dramRead_completes_corrected (c : CoreNo) {chip sym : Nat} (hd : dramDecode s.mem.x8 o.first = .corrected chip sym w)
    (hw : w.all (· == 0) = true) :
    Completes (.dramRead addr (.core c) o) s (fun t => t.mem.cells = s.mem.cells
      ∧ raisedSince s t (.dev .dramCorrected) = true
      ∧ ∃ rest, t.out = .coreRead (BitVec.ofNat 64 (memRead s.mem.cells (addr.toNat / 8 * 8) 8)) :: rest) := by
  obtain ⟨hdata, hraised⟩ := dramResult_corrected (addr := addr) 0 (on_of_coresRun hruns) hd
  have hcells := dramResult_cells s addr 0 o
  rw [hd, writtenBack, spoil_of_right hw] at hcells
  refine ⟨_, exec_dramRead hruns haddr c (Prod.ext hdata rfl), hcells, hraised, ?_⟩
  rw [spoil_of_right rfl, hcells]
  exact ⟨_, rfl⟩

theorem dramPartialWrite_completes (bytes : List Byte) (r : Requester) (hd : dramDecode s.mem.x8 o.first = .clean w)
    (hw : w.all (· == 0) = true) :
    Completes (.dramPartialWrite addr bytes r o) s (fun t =>
      t.mem.cells = memWrite s.mem.cells addr.toNat (bytes.take (128 - addr.toNat % 128))) := by
  refine ⟨_, by
    simp only [exec, execDramPartialWrite, hruns, Bool.not_true, Bool.false_eq_true, if_false, Nat.not_le.2 haddr,
      dramResult_clean 1 hd]
    rfl, ?_⟩
  simp only [onMem_mem, spoil_of_right hw]

end

/-- A clean block leaves the scrubber's counts; it goes on to the next block. -/
theorem scrubRead_completes {s : State} {o : DramObs} {w : List Nat} (hs : s.scrubs = true)
    (hd : dramDecode s.mem.x8 o.first = .clean w) (hpos : (s.mem.scrubPos.toNat + 1) * 128 < s.mem.bytes) :
    Completes (.scrubRead o) s (fun t => t.mem.scrubPos = BitVec.ofNat 33 (s.mem.scrubPos.toNat + 1)
      ∧ t.mem.scrubCe = s.mem.scrubCe ∧ t.mem.scrubUe = s.mem.scrubUe) := by
  refine ⟨_, by
    simp only [exec, execScrubRead, hs, Bool.not_true, Bool.false_eq_true, if_false, dramResult_clean 2 hd, hd, Option.isSome_some,
      if_true, State.scrubNext, hpos]
    rfl, ?_⟩
  exact ⟨rfl, rfl, rfl⟩

/-- Settles O37: each command by the branch that its hypotheses leave. -/
theorem dramCompletes : Obligations.DramCompletes := by
  unfold Obligations.DramCompletes
  refine ⟨fun s addr c o w hruns haddr hd hw => dramRead_completes hruns haddr c hd hw,
    fun s addr bytes r o w hruns haddr hd hw => dramPartialWrite_completes hruns haddr bytes r hd hw,
    fun s o w hs hd hpos => scrubRead_completes hs hd hpos,
    fun s addr c o chip sym w hruns haddr hd hw => dramRead_completes_corrected hruns haddr c hd hw,
    fun s hruns => ?_, fun s e rest hruns hfifo => ?_, fun s hruns => ?_, fun s hruns => ?_⟩
  · exact ⟨_, by simp only [exec, execScrubRestart, hruns]; rfl, rfl, rfl, rfl⟩
  · exact ⟨_, by simp only [exec, execDerrPop, hruns, hfifo]; rfl, rfl, rfl, rfl, rfl⟩
  · exact ⟨_, by simp only [exec, execDerrLostRead, hruns]; rfl, rfl, rfl⟩
  · exact ⟨_, by simp only [exec, execCacheErrorsRead, hruns]; rfl, rfl, rfl, rfl⟩

/-! ### Ballast (R373, R374, R376) -/

theorem eraseKey_eq_filter {α : Type} (l : List (Nat × α)) (i : Nat) : eraseKey l i = l.filter (fun w => !decide (w.1 = i)) := by
  induction l with
  | nil => rfl
  | cons x rest ih =>
    obtain ⟨k, v⟩ := x
    by_cases hk : k = i <;> simp [eraseKey, hk, ih]

theorem eraseKey_of_none {α : Type} {l : List (Nat × α)} {i : Nat} (h : lookupKey l i = none) : eraseKey l i = l := by
  induction l with
  | nil => rfl
  | cons x rest ih =>
    obtain ⟨k, v⟩ := x
    rw [lookupKey] at h
    split at h
    · cases h
    · next hk => rw [eraseKey, if_neg hk, ih h]

/-- Freeing a buffer takes its ownership word, where it has one. -/
theorem freeOne_words (retired : Nat → Bool) (b : BallastPool) (i : Nat) :
    (freeOne retired b i).words = b.words.filter (fun w => !decide (w.1 = i)) := by
  rw [← eraseKey_eq_filter]
  unfold freeOne
  split
  · next hn => rw [eraseKey_of_none (Option.isNone_iff_eq_none.1 hn)]
  · dsimp only
    split
    · rfl
    · exact spill_words _

theorem foldl_freeOne_words (retired : Nat → Bool) (is : List Nat) (b : BallastPool) :
    (is.foldl (freeOne retired) b).words = b.words.filter (fun w => !is.contains w.1) := by
  induction is generalizing b with
  | nil => simp
  | cons i is ih =>
    rw [List.foldl_cons, ih, freeOne_words, List.filter_filter]
    refine List.filter_congr fun w _ => ?_
    rw [List.contains_cons, Bool.not_or, Bool.and_comm, beq_eq_decide]

theorem freeBufs_words (s : State) (p : Fin 4) (is : List Nat) :
    (s.freeBufs p is).mem.pools[p].words = s.mem.pools[p].words.filter (fun w => !is.contains w.1) := by
  unfold State.freeBufs
  rw [onPoolB_pool, if_pos rfl]
  exact foldl_freeOne_words (s.pageRetired p) is _

/-- Settles O38: an allocation by the chain it takes, a free by the fold over its chain. -/
theorem ballastCompletes : Obligations.BallastCompletes := by
  unfold Obligations.BallastCompletes
  refine ⟨fun s o size i p b hruns hp hn hmay hchain => ?_, fun s o h hruns hok => ?_, fun s o n h hruns hok => ?_⟩
  · refine ⟨_, by
      simp only [exec, execBallastAllocate, hruns, Bool.not_true, Bool.false_eq_true, if_false, State.ballastTake, hp,
        Nat.not_lt.2 hn, hmay, hchain]
      rfl, rfl, ?_⟩
    simp only [emit_mem, onPoolB_pool, if_true]
  · refine ⟨_, by
      simp only [exec, execBallastFree, hruns, Bool.not_true, Bool.false_eq_true, if_false, State.ballastGive, hok], freeBufs_words _ _ _⟩
  · refine ⟨_, by
      simp only [exec, execBallastPass, hruns, Bool.not_true, Bool.false_eq_true, if_false, State.ballastPassTo, hok]
      rfl, ?_⟩
    simp only [onPoolB_pool, if_true]

/-! ### Triplicated words (R368) -/

theorem any_set_eq_false {staged : List (TripleSet × List (Nat × BitVec 64))} {k : TripleSet} (h : ∀ x ∈ staged, x.1 ≠ k) :
    staged.any (fun x => decide (x.1 = k)) = false := by
  simpa using fun a b hx => h (a, b) hx

@[simp] theorem syncTriple_triple (s : State) : s.syncTriple.mem = s.mem := rfl

theorem put_banks (t : Triple) (w : Fin 31) (v : BitVec 64) (k : Fin 3) :
    (t.put w v).banks[k] = t.banks[k].set w.val v w.isLt := by
  simp [Triple.put]

/-- Three banks that agree need no repair. -/
theorem filter_agree (v : BitVec 64) :
    (List.finRange 3).filter (fun (b : Fin 3) => decide ((#v[v, v, v] : Vector (BitVec 64) 3)[b] ≠ v)) = [] := by
  refine List.filter_eq_nil_iff.2 fun b _ => ?_
  match b with
  | 0 => simp
  | 1 => simp
  | 2 => simp

theorem majority_agree (v : BitVec 64) : majority v v v = v := by
  simp [majority]

/-- Settles O39: by the branch of each command. -/
theorem triplicatedWordsComplete : Obligations.TriplicatedWordsComplete := by
  unfold Obligations.TriplicatedWordsComplete
  refine ⟨fun s w v hw => ?_, fun s k hk => ?_, fun s k x hx => ?_, fun s w v again hw => ?_⟩
  · refine ⟨_, by simp only [exec, execTripleWrite, any_set_eq_false hw]; rfl, fun k => ?_⟩
    exact put_banks _ w v k
  · exact ⟨_, by simp only [exec, execTripleWrite, any_set_eq_false hk]; rfl, rfl⟩
  · exact ⟨_, by simp only [exec, execTripleCommit, hx]; rfl, rfl, rfl⟩
  · have hread : exec (.tripleRead w #v[v, v, v] again) s = .next ((s.onMem (fun m =>
        { m with triple := { m.triple with banks := Vector.ofFn (fun (b : Fin 3) =>
          m.triple.banks[b].set w.val (#v[v, v, v] : Vector (BitVec 64) 3)[b] w.isLt) } })).emit (.coreRead v)) := by
      have hm : majority (#v[v, v, v] : Vector (BitVec 64) 3)[0] (#v[v, v, v] : Vector (BitVec 64) 3)[1]
        (#v[v, v, v] : Vector (BitVec 64) 3)[2] = v := majority_agree v
      simp only [exec, execTripleRead, filter_unmarked hw, hm, filter_agree, List.foldl_nil]
    refine ⟨_, hread, rfl, fun k => ?_⟩
    match k with
    | 0 => simp
    | 1 => simp
    | 2 => simp

/-! ### The engine cache (R378 to R383) -/

section
variable {s : State} (hruns : s.coresRun = true)
include hruns

theorem cacheLoad_completes {addr : BitVec 40} {w : Nat} {x : CacheLine} (c : CoreNo) (haddr : addr.toNat < s.mem.bytes)
    (hon : s.mem.cache.enabled = true) (hway : s.mem.cache.way? (BitVec.ofNat 34 (addr.toNat / 64)) = some w)
    (hx : lookupKey s.mem.cache.lines (lineSet (BitVec.ofNat 34 (addr.toNat / 64)) * 16 + w) = some x) :
    Completes (.cacheAccess c addr .load) s (fun t => t.mem = s.mem ∧ t.out = .coreRead (lineWord x.data addr) :: s.out) := by
  refine ⟨_, by
    simp only [exec, execCacheAccess, hruns, Nat.not_le.2 haddr, hon, hway, State.cacheServe, hx, Option.isSome_some, if_true,
      Bool.not_true, Bool.false_eq_true, if_false]
    rfl, ?_⟩
  exact ⟨rfl, rfl⟩

theorem cacheStore_completes {addr : BitVec 40} (c : CoreNo) (v : BitVec 64) (haddr : addr.toNat < s.mem.bytes)
    (hoff : s.mem.cache.enabled = false) :
    Completes (.cacheAccess c addr (.store v)) s (fun t => t.mem.cache = s.mem.cache
      ∧ t.mem.cells = memWrite s.mem.cells (addr.toNat / 8 * 8) (leBytes 8 v.toNat)) := by
  refine ⟨_, by
    simp only [exec, execCacheAccess, hruns, Nat.not_le.2 haddr, hoff, State.uncached, Bool.not_true, Bool.not_false,
      Bool.false_eq_true, if_false, if_true]
    rfl, ?_⟩
  exact ⟨rfl, rfl⟩

end

/-- Maintenance of a line that no transfer holds is applied at once (R382). -/
theorem maintByAddress_of_idle {s : State} (code : Nat) (hbusy : s.mem.cache.busy = false)
    (hfill : s.mem.cache.filling s.mem.cache.maintLine = false) (hleave : s.mem.cache.leaving s.mem.cache.maintLine = false) :
    s.maintByAddress code = s.onMem (fun m => m.maintLineOp code s.mem.cache.maintLine) := by
  simp only [State.maintByAddress, hbusy, hfill, hleave, Bool.false_eq_true, if_false, Bool.or_self]

theorem maintAll_of_idle {s : State} (f : Memory → Memory) (hbusy : s.mem.cache.busy = false) : s.maintAll f = s.onMem f := by
  simp only [State.maintAll, hbusy, Bool.false_eq_true, if_false]

/-- The line that a fill brings is clean in the way it took, and the fill is over. -/
theorem cacheFillDone_completes {s : State} {l : BitVec 34} {w : Fin 16} {c : CoreNo} (hfills : s.mem.cache.fills = [(l, w, c)])
    (hleave : s.mem.cache.leaving l = false) (hwait : s.mem.cache.waiting = []) (hmaint : s.mem.cache.maintWait = none) :
    Completes (.cacheFillDone l) s (fun t => t.mem.cache.fills = []
      ∧ lookupKey t.mem.cache.lines (lineSet l * 16 + w.val) = some { tag := lineTag l, dirty := false, data := s.mem.line l }) := by
  have hevict : (s.mem.cache.evict l w).maintWait = none := by
    unfold EngineCache.evict
    dsimp only
    split <;> exact hmaint
  refine ⟨_, by
    simp only [exec, execCacheFillDone, hfills, List.find?_cons, decide_true, hleave, hwait, List.filter_nil, List.foldl_nil,
      Bool.false_eq_true, if_false]
    rfl, ?_⟩
  rw [maintRelease_of_none hevict]
  refine ⟨by simp [State.onCache, hfills], ?_⟩
  exact (lookupKey_insertKey _ _ _ _).trans (if_pos rfl)

theorem cacheWritebackAccept_completes {s : State} {l : BitVec 34} {d : BitVec 512}
    (hev : s.mem.cache.evicted.find? (fun e => decide (e.1 = l)) = some (l, d)) (hmaint : s.mem.cache.maintWait = none) :
    Completes (.cacheWritebackAccept l) s (fun t => t.mem.cells = (s.mem.putLine l d).cells
      ∧ t.mem.cache.evicted = s.mem.cache.evicted.eraseP (fun e => decide (e.1 = l))) := by
  refine ⟨_, by simp only [exec, execCacheWritebackAccept, hev]; rfl, ?_⟩
  rw [maintRelease_of_none (by exact hmaint)]
  exact ⟨rfl, rfl⟩

/-- Settles O40: an access, a fill and a writeback by their branch; maintenance with nothing in its way is applied at once. -/
theorem cacheCompletes : Obligations.CacheCompletes := by
  unfold Obligations.CacheCompletes
  refine ⟨fun s c addr w x hruns haddr hon hway hx => cacheLoad_completes hruns c haddr hon hway hx,
    fun s c addr v hruns haddr hoff => cacheStore_completes hruns c v haddr hoff,
    fun s l w c hfills hleave hwait hmaint => cacheFillDone_completes hfills hleave hwait hmaint,
    fun s l d hev hmaint => cacheWritebackAccept_completes hev hmaint, fun s hruns hbusy hfill hleave => ?_,
    fun s hruns hbusy => ?_, fun s hruns => ?_⟩
  · have hop := fun code => maintByAddress_of_idle code hbusy hfill hleave
    refine ⟨⟨_, by simp only [exec, execCacheInvalidateLine, hruns, hop, if_true]; rfl, ?_⟩,
      ⟨_, by simp only [exec, execCacheCleanLine, hruns, hop, if_true]; rfl, ?_⟩,
      ⟨_, by simp only [exec, execCacheCleanInvalidateLine, hruns, hop, if_true]; rfl, ?_⟩⟩
    all_goals rfl
  · have hop := fun f => maintAll_of_idle f hbusy
    refine ⟨⟨_, by simp only [exec, execCacheInvalidateAll, hruns, hop, if_true]; rfl, ?_⟩,
      ⟨_, by simp only [exec, execCacheCleanAll, hruns, hop, if_true]; rfl, ?_⟩,
      ⟨_, by simp only [exec, execCacheCleanInvalidateAll, hruns, hop, if_true]; rfl, ?_⟩⟩
    · exact ⟨rfl, rfl, rfl⟩
    · rfl
    · exact ⟨rfl, rfl⟩
  · refine ⟨⟨_, by simp only [exec, execCacheEnable, hruns, if_true]; rfl, ?_⟩,
      ⟨_, by simp only [exec, execCacheDisable, hruns, if_true]; rfl, ?_⟩⟩
    all_goals exact ⟨rfl, rfl⟩

end Sys2Proof.Proofs
end

section
/-! PROOFS. Activation, the sensors and the board ports (R444, R446, R447, R482). -/

-- Proofs one after another: many small ones at once would each take a thread's stack.
set_option Elab.async false

namespace Sys2Proof.Proofs

open Sys2Proof Sys2Proof.Machine Sys2Proof.Laws Sys2Proof.Safety

/-! ### Activation (R444) -/

section
variable {s t : State} (h : KeepsEvents 0 s t)
include h

theorem Keeps.abandonDiag : KeepsEvents 0 s t.abandonDiag := by
  unfold State.abandonDiag
  split
  · exact ⟨h.events, h.servo⟩
  · exact h

/-- A change into a mode with PEER_OK active raises nothing. -/
theorem Keeps.setMode {m : Mode} (hp : m.peerOk = true) : KeepsEvents 0 s (t.setMode m) := by
  unfold State.setMode
  dsimp only
  have h0 : KeepsEvents 0 s (if (decide (t.sys.mode = .diagnostic) && !decide (m = .diagnostic)) = true then t.abandonDiag else t) :=
    h.abandonDiag.ite h
  refine Keeps.ite ?_ h
  rw [drivePeerOk_of_peerOk hp]
  exact ⟨h0.events, h0.servo⟩

end

@[simp] theorem writeSlot_sys (s : State) (k : Fin 2) (x : Slot) : (s.writeSlot k x).sys = { s.sys with preferDue := none } := rfl

/-- The trial that becomes valid leaves the device-wide control but for a slot preference that its record takes up. -/
theorem markValid_sys (s : State) : ∃ k, s.markValid.sys = { s.sys with preferDue := k } := by
  unfold State.markValid
  dsimp only
  split
  · exact ⟨none, rfl⟩
  · exact ⟨s.sys.preferDue, rfl⟩

theorem Keeps.markValid {s t : State} (h : KeepsEvents 0 s t) : KeepsEvents 0 s t.markValid := by
  unfold State.markValid
  dsimp only
  split
  · exact ⟨h.events, h.servo⟩
  · exact h

/-- Answering the request that waits leaves the events, the device-wide control and the pair. -/
theorem completes_answering {i : Instr} {s u : State} {w : MbxWait → Bool} {st : Byte} {P : State → Prop}
    (hi : exec i s = match u.runPort w with
      | some p => .next (u.respondRun p st)
      | none => .next u)
    (hP : ∀ t, t.sys = u.sys → t.ev = u.ev → t.pair = u.pair → P t) : Completes i s P := by
  split at hi
  · exact ⟨_, hi, hP _ (respondRun_sys ..) (respondRun_ev ..) (respondRun_pair ..)⟩
  · exact ⟨_, hi, hP _ rfl rfl rfl⟩

/-- The state in which the new image runs in STANDALONE, before EV_ACTIVATE_DONE. -/
def resumed (s : State) (a : Activation) : State := ((s.loadImage a).setMode .standalone).markValid

theorem resumed_sys {s : State} {a : Activation} (hm : s.sys.mode = .activate) :
    (resumed s a).sys.mode = .standalone ∧ (resumed s a).sys.release = a.release ∧ (resumed s a).sys.runSlot = a.slot
      ∧ (resumed s a).sys.activation = none := by
  obtain ⟨k, hk⟩ := markValid_sys ((s.loadImage a).setMode .standalone)
  have hmay : (s.loadImage a).sys.mode.may .standalone = true := by
    rw [show (s.loadImage a).sys.mode = s.sys.mode from rfl, hm]
    rfl
  rw [resumed, hk, setMode_sys hmay rfl]
  exact ⟨rfl, rfl, rfl, rfl⟩

theorem returnTo_standalone (s : State) (hp : (s.setMode .standalone).sys.mode = .standalone) :
    s.returnTo .standalone = s.setMode .standalone := by
  unfold State.returnTo
  dsimp only
  rw [hp]
  rfl

theorem activationResume_completes {s : State} {a : Activation} (hm : s.sys.mode = .activate)
    (ha : s.sys.activation = some a) (hnone : s.noneStarted = true) (halone : a.handover = false)
    (hcame : s.sys.cameFrom = .standalone) :
    Completes .activationResume s (fun t => t.sys.mode = .standalone ∧ t.sys.release = a.release ∧ t.sys.runSlot = a.slot
      ∧ t.sys.activation = none ∧ raisedSince s t (.dev .activateDone) = true) := by
  obtain ⟨hmode, hrel, hslot, hact⟩ := resumed_sys (a := a) hm
  have hmode' : ((s.loadImage a).setMode .standalone).sys.mode = .standalone := by
    obtain ⟨k, hk⟩ := markValid_sys ((s.loadImage a).setMode .standalone)
    rw [resumed, hk] at hmode
    exact hmode
  have hback := returnTo_standalone _ hmode'
  have hcame' : (s.loadImage a).sys.cameFrom = .standalone := hcame
  refine completes_answering (u := (resumed s a).raiseDev .activateDone [.u16 ((s.sys.time - a.start).toNat / 1000)])
    (w := fun w => decide (w = .activate)) (st := 0x00) ?_ fun t hsys hev _ => ?_
  · simp only [exec, execActivationResume, ha, hm, hnone, halone, Bool.false_and, Bool.false_eq_true, if_false, ne_eq,
      not_true_eq_false, decide_false, Bool.not_true, Bool.or_self, hcame', hback]
    rfl
  · rw [hsys, raiseDev_eq, raiseAt_sys]
    refine ⟨hmode, hrel, hslot, hact, ?_⟩
    have hload : KeepsEvents 0 s (s.loadImage a) := ⟨List.prefix_rfl, id⟩
    have hk : KeepsEvents 0 s (resumed s a) := (hload.setMode rfl).markValid
    rw [raisedSince, hev]
    exact raisedSince_raiseAt hk (by rw [hmode]; decide) _ _ _

/-! ### The sensors (R446, R447) -/

theorem holdupSample_completes {s : State} (code : BitVec 10) (hm : s.sys.mode ≠ .off) :
    Completes (.holdupSample code) s (fun t => t.sys.holdup = code) := by
  unfold Completes
  change ∃ t, execHoldupSample code s = _ ∧ _
  unfold execHoldupSample
  rw [if_neg hm]
  extract_lets mv lim low high armed s1
  split
  · refine ⟨_, rfl, ?_⟩
    rw [raiseDev_eq, raiseAt_sys]
    rfl
  · refine ⟨_, rfl, ?_⟩
    rfl

theorem junctionSample_completes {s : State} (x : Int) (hm : s.sys.mode ≠ .off) :
    Completes (.junctionSample x) s (fun t => t.sys.tj = x
      ∧ (s.dp Param.pwrTjWarn < x → s.sys.hot = false → t.sys.hot = true ∧ raisedSince s t (.dev .thermalWarn) = true)) := by
  unfold Completes
  change ∃ t, execJunctionSample x s = _ ∧ _
  unfold execJunctionSample
  rw [if_neg hm]
  extract_lets lim s1
  have htj : s1.sys.tj = x := rfl
  have hk : KeepsEvents 0 s (s1.onSys (fun y => { y with hot := true })) := ⟨List.prefix_rfl, id⟩
  split
  · refine ⟨_, rfl, ?_⟩
    rw [raiseDev_eq, raiseAt_sys]
    exact ⟨htj, fun _ _ => ⟨rfl, raisedSince_raiseAt hk hm _ _ _⟩⟩
  · next hnot =>
    split
    · exact ⟨_, rfl, htj, fun hx hcool => absurd ⟨hx, hcool⟩ hnot⟩
    · exact ⟨_, rfl, htj, fun hx hcool => absurd ⟨hx, hcool⟩ hnot⟩

/-- Settles O43: the resume through the state in which the new image runs; a sensor and a board port by its branch. -/
theorem boardCompletes : Obligations.BoardCompletes := by
  unfold Obligations.BoardCompletes
  refine ⟨fun s a hm ha hnone halone hcame => activationResume_completes hm ha hnone halone hcame,
    fun s code hm => holdupSample_completes code hm, fun s x hm => junctionSample_completes x hm,
    fun s a c pec bs hm haddr hbs => ?_, fun s x => ⟨_, rfl, by rfl⟩, fun s => ⟨_, rfl, by rfl⟩, fun s xs ys => ⟨_, rfl, ?_⟩,
    fun s => ⟨_, rfl, ?_⟩⟩
  · refine ⟨_, by simp only [exec, execSmbusTransaction, hm, haddr, ne_eq, not_true_eq_false, or_self, if_false, hbs]; rfl, ?_⟩
    rfl
  · exact ⟨rfl, rfl⟩
  · exact ⟨rfl, rfl⟩

end Sys2Proof.Proofs
end

section
/-! PROOFS. The event path (R414 to R428): the firmware queue, the copies to the host event rings, the diagnostic tests. -/

-- Proofs one after another: many small ones at once would each take a thread's stack.
set_option Elab.async false

namespace Sys2Proof.Proofs

open Sys2Proof Sys2Proof.Machine Sys2Proof.Laws Sys2Proof.Safety

/-! ### The firmware queue (R414, R416, R417) -/

/-- The Reel takes an event without touching the firmware queue. -/
theorem reelRecord_fwq (s : State) (e : Raised) (n : BitVec 32) :
    (s.reelRecord e n).ev.queue = s.ev.queue ∧ (s.reelRecord e n).ev.nextSeq = s.ev.nextSeq := by
  have h : hide (allBut .fwq) (s.reelRecord e n) = hide (allBut .fwq) s := hide_reelRecord (by simp) (by simp) (by simp)
  obtain ⟨hq, hn, -⟩ := (unchanged_of_hide h).fwq.resolve_left (by simp)
  exact ⟨hq, hn⟩

theorem placeSummary_of_not_due {s : State} (h : s.ev.summaryDue = false) : s.placeSummary = s := by
  unfold State.placeSummary
  rw [h]
  rfl

theorem summaryDue_of_isZero {v : EventPath} (h : v.tally.isZero = true) : v.summaryDue = false := by
  unfold EventPath.summaryDue
  rw [h]
  rfl

/-- An event that no record repeats and that has room is placed under the next sequence number. -/
theorem place_of_room {v : EventPath} {e : Raised} {window : Nat} (hnew : v.queue.any (fun r => r.repeats e window) = false)
    (hroom : Machine.mayPlace Config.eventCapacity Config.eventReserve v.queue.length e.sev = true) :
    v.place e window
      = ({ v with queue := v.queue ++ [EvRecord.ofRaised e v.nextSeq], nextSeq := v.nextSeq + 1 }, .placed v.nextSeq) := by
  simp only [EventPath.place, hnew, hroom, Bool.false_eq_true, if_false, if_true]

theorem eventQueueEntry_completes {s : State} {e : Raised} {rest : List Raised} (hr : s.ev.raised = e :: rest)
    (hdue : s.ev.summaryDue = false) (hnew : s.ev.queue.any (fun r => r.repeats e (s.dn Param.evtCoalesce)) = false)
    (hroom : Machine.mayPlace Config.eventCapacity Config.eventReserve s.ev.queue.length e.sev = true) :
    Completes .eventQueueEntry s (fun t => t.ev.queue = s.ev.queue ++ [EvRecord.ofRaised e s.ev.nextSeq]
      ∧ t.ev.nextSeq = s.ev.nextSeq + 1) := by
  have hsame : (s.onEv (fun v => { v with raised := rest })).placeSummary = s.onEv (fun v => { v with raised := rest }) :=
    placeSummary_of_not_due hdue
  have hplace := place_of_room (v := (s.onEv (fun v => { v with raised := rest })).ev) (e := e)
    (window := s.dn Param.evtCoalesce) hnew hroom
  have hdn : (s.onEv (fun v => { v with raised := rest })).dn Param.evtCoalesce = s.dn Param.evtCoalesce := rfl
  refine ⟨_, by simp only [exec, execEventQueueEntry, hr, hsame, hdn, hplace]; rfl, ?_⟩
  exact reelRecord_fwq _ _ _

/-! ### Copies to a host event ring (R420) -/

@[simp] theorem signal_ring (s : State) (p q : Port) (v : Fin 65) : (s.signal p v).ports[q].ring = s.ports[q].ring :=
  ((unchanged_of_hide (hide_signal (ps := [.queues p, .msix p, .out]) (by simp) (by simp) (by simp))).ring q).resolve_left
    (by simp)

/-- What a device puts out stays put out when a vector is signalled. -/
theorem mem_out_signal {s : State} {o : Output} (p : Port) (v : Fin 65) (h : o ∈ s.out) : o ∈ (s.signal p v).out := by
  unfold State.signal
  dsimp only
  split
  · exact h
  split
  · exact h
  split
  · exact h
  · exact List.mem_cons_of_mem _ h

theorem mem_out_signalEvent {s : State} {o : Output} (p : Port) (sev : Severity) (h : o ∈ s.out) :
    o ∈ (s.signalEvent p sev).out := by
  unfold State.signalEvent
  split
  · exact mem_out_signal p 0 h
  split
  · exact h
  · exact mem_out_signal p 0 h

@[simp] theorem signalEvent_ev (s : State) (p : Port) (sev : Severity) : (s.signalEvent p sev).ev = s.ev := by
  unfold State.signalEvent
  split
  · simp
  split <;> simp

theorem onRing_other_ring (s : State) {p q : Port} (h : p ≠ q) (f : EvRing → EvRing) :
    (s.onRing p f).ports[q].ring = s.ports[q].ring :=
  ((unchanged_of_hide (hide_onRing (ps := [.ring p]) (by simp))).ring q).resolve_left (by simpa using h.symm)

/-- Signalling a record leaves a ring but for the vector's timer. -/
theorem signalEvent_ring (s : State) (p q : Port) (sev : Severity) : ∃ due hold,
    (s.signalEvent p sev).ports[q].ring = { s.ports[q].ring with signalDue := due, signalHold := hold } := by
  have hset : ∀ (u : State) (f : EvRing → EvRing), u.ports[q].ring = s.ports[q].ring →
      (∃ due hold : EvRing → Bool, ∀ r, f r = { r with signalDue := due r, signalHold := hold r }) → ∃ due hold,
        (u.onRing p f).ports[q].ring = { s.ports[q].ring with signalDue := due, signalHold := hold } := by
    rintro u f hu ⟨due, hold, hf⟩
    by_cases hpq : p = q
    · subst hpq
      exact ⟨_, _, by rw [onRing_ring, hf, hu]⟩
    · exact ⟨_, _, by rw [onRing_other_ring u hpq, hu]⟩
  unfold State.signalEvent
  split
  · exact ⟨_, _, signal_ring s p q 0⟩
  split
  · exact hset s _ rfl ⟨fun _ => true, (·.signalHold), fun _ => rfl⟩
  · exact hset _ _ (signal_ring s p q 0) ⟨fun _ => false, fun _ => true, fun _ => rfl⟩

section
variable (s : State) (p : Port) (x : EvRecord)

@[simp] theorem writeEvent_ev : (s.writeEvent p x).ev = s.ev := by
  simp [State.writeEvent]

/-- A record is written at the tail of its ring, and the tail moves on. -/
theorem writeEvent_spec :
    .eventRecord p (slotAddr s.ports[p].ring.base 64 s.ports[p].ring.tail.toNat) (x.encode s.ports[p].ring.phase)
        ∈ (s.writeEvent p x).out
      ∧ (s.writeEvent p x).ports[p].ring.tail = ringNext s.ports[p].ring.tail s.ports[p].ring.entries
      ∧ (s.writeEvent p x).ports[p].ring.tally = s.ports[p].ring.tally
      ∧ (s.writeEvent p x).ports[p].ring.enabled = s.ports[p].ring.enabled := by
  unfold State.writeEvent
  extract_lets r s1
  obtain ⟨due, hold, hring⟩ := signalEvent_ring (s1.onRing p (fun r => { r with
    tail := ringNext r.tail r.entries, phase := if r.tail.toNat + 1 = r.entries.toNat then !r.phase else r.phase })) p p x.sev
  rw [onRing_ring] at hring
  rw [hring]
  exact ⟨mem_out_signalEvent p x.sev (List.mem_cons_self ..), rfl, rfl, rfl⟩

/-- The ring of the other port is as it was. -/
theorem writeEvent_other {q : Port} (h : q ≠ p) : (s.writeEvent p x).ports[q].ring = s.ports[q].ring :=
  ((unchanged_of_hide (hide_writeEvent (ps := [.queues p, .msix p, .ring p, .out]) (by simp) (by simp) (by simp)
    (by simp))).ring q).resolve_left (by simpa using h)

end

theorem ringSummary_of_isZero {s : State} {p : Port} (h : s.ports[p].ring.tally.isZero = true) : s.ringSummary p = s := by
  simp only [State.ringSummary, h, Bool.not_true, Bool.and_false, Bool.false_and, Bool.false_eq_true, if_false]

theorem ringSummary_of_disabled {s : State} {p : Port} (h : s.ports[p].ring.enabled = false) : s.ringSummary p = s := by
  simp only [State.ringSummary, h, Bool.false_and, Bool.false_eq_true, if_false]

/-- Nothing is copied to a ring that is not enabled. -/
theorem foldl_copyRecord_of_disabled {s : State} {p : Port} (h : s.ports[p].ring.enabled = false) (xs : List EvRecord) :
    xs.foldl (fun (t : State) x => t.copyRecord p x) s = s := by
  induction xs with
  | nil => rfl
  | cons x xs ih =>
    have hskip : s.copyRecord p x = s := by
      simp only [State.copyRecord, h, Bool.not_false, Bool.true_or, if_true]
    rw [List.foldl_cons, hskip, ih]

/-- A record of a severity that is copied goes to a ring that has room for it and no summary due. -/
theorem copyRecord_of_room {s : State} {p : Port} {x : EvRecord} (hon : s.ports[p].ring.enabled = true)
    (hsev : s.hostSev p ≤ x.sev.code) (hzero : s.ports[p].ring.tally.isZero = true)
    (hroom : s.ports[p].ring.mayPlace x.sev = true) : s.copyRecord p x = s.writeEvent p x := by
  simp only [State.copyRecord, hon, Bool.not_true, Bool.false_or, decide_eq_true_eq, Nat.not_lt.2 hsev, if_false,
    ringSummary_of_isZero hzero, hroom, if_true]

/-- What a copy makes of the firmware queue: the port has had every record, and those that every enabled ring has had leave. -/
def copiedQueue (s : State) (p : Port) (v : EventPath) : EventPath :=
  let a := s.ports[(0 : Port)].ring.enabled
  let b := s.ports[(1 : Port)].ring.enabled
  { v with queue := (v.queue.map (fun (x : EvRecord) => { x with taken := x.taken.set p.val true p.isLt })).filter
             (fun x => !x.gone a b) }

theorem exec_eventRingCopy {s u : State} {p : Port} (hc : s.copies = true)
    (hu : (((s.ev.queue.filter (fun x => !x.taken[p])).foldl (fun (t : State) x => t.copyRecord p x) s).ringSummary p) = u)
    (hev : u.ev = s.ev) (hz : s.ev.tally.isZero = true) :
    exec (.eventRingCopy p) s = .next (u.onEv (copiedQueue u p)) := by
  have hsame : (u.onEv (copiedQueue u p)).placeSummary = u.onEv (copiedQueue u p) :=
    placeSummary_of_not_due (summaryDue_of_isZero (v := copiedQueue u p u.ev) (hev ▸ hz))
  simp only [exec, execEventRingCopy, hc, if_true, hu]
  exact congrArg _ hsame

theorem eventRingCopy_completes_disabled {s : State} (p : Port) (hc : s.copies = true)
    (h0 : s.ports[(0 : Port)].ring.enabled = false) (h1 : s.ports[(1 : Port)].ring.enabled = false)
    (hz : s.ev.tally.isZero = true) : Completes (.eventRingCopy p) s (fun t => t.ev.queue = []) := by
  have hp : s.ports[p].ring.enabled = false := by
    match p with
    | 0 => exact h0
    | 1 => exact h1
  refine ⟨_, exec_eventRingCopy hc (by rw [foldl_copyRecord_of_disabled hp, ringSummary_of_disabled hp]) rfl hz, ?_⟩
  refine List.filter_eq_nil_iff.2 fun x _ => ?_
  rw [h0, h1, EvRecord.gone]
  simp

/-- A record that the only enabled ring has had leaves the queue. -/
theorem gone_of_taken (x : EvRecord) {s : State} {p : Port} (hother : s.ports[1 - p].ring.enabled = false) :
    ({ x with taken := x.taken.set p.val true p.isLt } : EvRecord).gone s.ports[(0 : Port)].ring.enabled
      s.ports[(1 : Port)].ring.enabled = true := by
  match p with
  | 0 =>
    have h1 : s.ports[(1 : Port)].ring.enabled = false := hother
    rw [h1, EvRecord.gone]
    simp
  | 1 =>
    have h0 : s.ports[(0 : Port)].ring.enabled = false := hother
    rw [h0, EvRecord.gone]
    simp

theorem other_port_ne (p : Port) : 1 - p ≠ p := by
  match p with
  | 0 => decide
  | 1 => decide

theorem eventRingCopy_completes {s : State} {p : Port} {x : EvRecord} (hc : s.copies = true)
    (hon : s.ports[p].ring.enabled = true) (hother : s.ports[1 - p].ring.enabled = false) (hq : s.ev.queue = [x])
    (hnew : x.taken[p] = false) (hsev : s.hostSev p ≤ x.sev.code) (hzero : s.ports[p].ring.tally.isZero = true)
    (hroom : s.ports[p].ring.mayPlace x.sev = true) (hz : s.ev.tally.isZero = true) :
    Completes (.eventRingCopy p) s (fun t => t.ev.queue = []
      ∧ .eventRecord p (slotAddr s.ports[p].ring.base 64 s.ports[p].ring.tail.toNat) (x.encode s.ports[p].ring.phase) ∈ t.out
      ∧ t.ports[p].ring.tail = ringNext s.ports[p].ring.tail s.ports[p].ring.entries) := by
  obtain ⟨hout, htail, htally, -⟩ := writeEvent_spec s p x
  have hfresh : s.ev.queue.filter (fun x => !x.taken[p]) = [x] := by
    rw [hq, List.filter_cons, hnew]
    rfl
  have hu : ((s.ev.queue.filter (fun x => !x.taken[p])).foldl (fun (t : State) x => t.copyRecord p x) s).ringSummary p
      = s.writeEvent p x := by
    rw [hfresh, List.foldl_cons, List.foldl_nil, copyRecord_of_room hon hsev hzero hroom]
    exact ringSummary_of_isZero (by rw [htally]; exact hzero)
  refine ⟨_, exec_eventRingCopy hc hu (writeEvent_ev s p x) hz, ?_, hout, htail⟩
  have hother' : (s.writeEvent p x).ports[1 - p].ring.enabled = false := by rwa [writeEvent_other s p x (other_port_ne p)]
  simp only [onEv_ev, copiedQueue, writeEvent_ev, hq, List.map_cons, List.map_nil, List.filter_cons, gone_of_taken x hother',
    Bool.not_true, Bool.false_eq_true, if_false, List.filter_nil]

/-! ### Diagnostic tests (R427) -/

/-- Raising an event leaves the state of the tests. -/
theorem raiseAt_diag (s : State) (e : Ev) (sev : Severity) (fs : List PField) :
    (s.raiseAt e sev fs).ev.diagFails = s.ev.diagFails ∧ (s.raiseAt e sev fs).ev.diagState = s.ev.diagState := by
  rw [raiseAt_ev]
  split <;> exact ⟨rfl, rfl⟩

theorem diagTestEnd_completes {s : State} (n : BitVec 16) (f : Byte) (c : BitVec 32) (hm : s.sys.mode ≠ .off)
    (hd : s.ev.diagState = 1) :
    Completes (.diagTestEnd n f c) s (fun t => t.ev.diagFails = n ∧ t.ev.diagState = (if n = 0 then 2 else 3)
      ∧ raisedSince s t (.dev (if n = 0 then .diagPass else .diagFail)) = true) := by
  unfold Completes
  change ∃ t, execDiagTestEnd n f c s = _ ∧ _
  unfold execDiagTestEnd
  rw [if_neg (not_not_intro hd)]
  extract_lets w dram fs ok s0 s1
  have h0 : KeepsEvents 0 s s0 := (Keeps.onMem (Keeps.refl _ 0 s)).ite (Keeps.refl _ 0 s)
  have hsys : s0.sys = s.sys := by
    simp only [s0]
    split <;> rfl
  have h1 : KeepsEvents 0 s s1 := ⟨h0.events, h0.servo⟩
  have hon : s1.sys.mode ≠ .off := by
    rw [show s1.sys = s0.sys from rfl, hsys]
    exact hm
  refine ⟨_, rfl, ?_⟩
  by_cases hn : n = 0
  · have hok : ok = true := decide_eq_true hn
    rw [if_pos hok, if_pos hn, if_pos hn, raiseDev_eq, (raiseAt_diag ..).1, (raiseAt_diag ..).2]
    exact ⟨rfl, if_pos hok, raisedSince_raiseAt h1 hon _ _ _⟩
  · have hok : ok = false := decide_eq_false hn
    have hok' : ¬ ok = true := by simp [hok]
    rw [if_neg hok', if_neg hn, if_neg hn, raiseDev_eq, (raiseAt_diag ..).1, (raiseAt_diag ..).2]
    exact ⟨rfl, if_neg hok', raisedSince_raiseAt h1 hon _ _ _⟩

/-- Settles O7: the firmware queue by what becomes of one event, a copy by the rings that are enabled. -/
theorem eventPathCompletes : Obligations.EventPathCompletes := by
  unfold Obligations.EventPathCompletes
  refine ⟨fun s e rest hr hdue hnew hroom => eventQueueEntry_completes hr hdue hnew hroom,
    fun s p hc h0 h1 hz => eventRingCopy_completes_disabled p hc h0 h1 hz,
    fun s p x hc hon hother hq hnew hsev hzero hroom hz => eventRingCopy_completes hc hon hother hq hnew hsev hzero hroom hz,
    fun s p hc => ⟨s, ?_, rfl⟩, fun s p hdue => ?_, fun s p hm => ⟨_, rfl, raisedSince_raiseAt (Keeps.refl _ 0 s) hm _ _ _⟩,
    fun s n f c hm hd => diagTestEnd_completes n f c hm hd⟩
  · simp only [exec, execEventRingCopy, hc, Bool.false_eq_true, if_false]
  · refine ⟨_, by simp only [exec, execEventVectorTimer, hdue, Bool.false_eq_true, if_false]; rfl, ?_⟩
    exact congrArg EvRing.signalHold (onRing_ring s p _)

/-- A test that may start runs, with its word held (R427). -/
theorem startTest_spec {s : State} {p : Port} {r : BitVec 512} (hm : s.sys.mode = .diagnostic) (hd : s.ev.diagState ≠ 1)
    (hw : diagWordOk (requestValue r) = true) : answered (s.startTest p r) p 0x00 ∧ (s.startTest p r).ev.diagState = 1
      ∧ (s.startTest p r).ev.diagFails = 0 ∧ (s.startTest p r).ev.diagWord = BitVec.ofNat 32 (requestValue r).toNat := by
  unfold State.startTest
  rw [if_neg (by simp [hm, hd, hw])]
  refine ⟨answered_respond _ _ _ _ _, ?_⟩
  rw [respond_ev]
  exact ⟨rfl, rfl, rfl⟩

/-- Settles O11: the six tests start alike. -/
theorem diagnosticTestsStart : Obligations.DiagnosticTestsStart := by
  unfold Obligations.DiagnosticTestsStart
  intro s p i code hi hacc hset hm hd hw
  have hserve : exec i s = .next (s.serve p 0x102 (setsTest code) (fun t r => t.startTest p r)) := by
    simp only [List.mem_cons, List.not_mem_nil, or_false, Prod.mk.injEq] at hi
    rcases hi with ⟨rfl, rfl⟩ | ⟨rfl, rfl⟩ | ⟨rfl, rfl⟩ | ⟨rfl, rfl⟩ | ⟨rfl, rfl⟩ | ⟨rfl, rfl⟩ <;> rfl
  refine ⟨_, hserve, ?_⟩
  rw [serve_whole hacc rfl hset]
  exact startTest_spec (s := noted s p) hm hd hw

end Sys2Proof.Proofs
end

section
/-! PROOFS. What stands in the pair besides its traffic (R389 to R408): sending, completing and answering move only the sender's
queues and the accounts of mirroring. -/

-- Proofs one after another: many small ones at once would each take a thread's stack.
set_option Elab.async false

namespace Sys2Proof.Proofs

open Sys2Proof Sys2Proof.Machine Sys2Proof.Laws Sys2Proof.Safety

/-- The pair without its traffic: the sender's queues, sequences and scramblers, and the accounts of what is mirrored. -/
def standing (q : Pair) : Pair :=
  { q with sent := 0, acked := 0, unacked := [], txq := [], scram := Vector.replicate 4 0, nextMsg := 0, mirrorOut := [],
           unmirrored := [], unreleased := [], resyncBytes := 0 }

/-- What the peer indicates (R395, R396). -/
def indications (q : Pair) : Bool × Bool × Option Heartbeat := (q.hbLive, q.peerOkIn, q.peerHb)

/-- A reading of what stands. -/
theorem of_standing {α : Type} (f : Pair → α) (hf : ∀ q, f (standing q) = f q) {q r : Pair} (h : standing q = standing r) :
    f q = f r := by
  rw [← hf q, h, hf]

theorem indications_of_standing {q r : Pair} (h : standing q = standing r) : indications q = indications r :=
  of_standing indications (fun _ => rfl) h

theorem standing_of_pair {s t : State} (h : t.pair = s.pair) : standing t.pair = standing s.pair := congrArg standing h

/-- An operation that leaves the pair leaves what stands in it. -/
theorem pair_of_hide {s t : State} (h : hide (allBut .pair) t = hide (allBut .pair) s) : t.pair = s.pair :=
  (unchanged_of_hide h).pair.resolve_left (by simp)

section
variable {s : State}

/-- A fold of steps that leave what stands leaves it. -/
theorem standing_foldl {α : Type} {f : State → α → State} (hf : ∀ t a, standing (f t a).pair = standing t.pair) (l : List α) :
    standing (l.foldl f s).pair = standing s.pair := by
  induction l generalizing s with
  | nil => rfl
  | cons a l ih => rw [List.foldl_cons, ih, hf]

/-! ### Flits and messages (R392, R393) -/

/-- A flit moves the scramblers of the lanes it goes out on. -/
theorem putFlit_pair (n : BitVec 16) (f : TetherFlit) (r : Bool) : ∃ x, (s.putFlit n f r).pair = { s.pair with scram := x } :=
  ⟨_, by
    unfold State.putFlit
    dsimp only
    rw [emit_pair, onPair_pair]⟩

@[simp] theorem standing_putFlit (n : BitVec 16) (f : TetherFlit) (r : Bool) :
    standing (s.putFlit n f r).pair = standing s.pair := by
  obtain ⟨x, hx⟩ := putFlit_pair (s := s) n f r
  rw [hx]
  rfl

theorem standing_pump (fuel : Nat) : standing (State.pump fuel s).pair = standing s.pair := by
  induction fuel generalizing s with
  | zero => rfl
  | succ fuel ih =>
    unfold State.pump
    split
    · rfl
    split
    · rfl
    · rw [ih, standing_putFlit]
      rfl

@[simp] theorem standing_pumpAll : standing s.pumpAll.pair = standing s.pair := by
  unfold State.pumpAll
  split
  · exact standing_pump _
  · rfl

@[simp] theorem standing_sendAbout (kind : Byte) (vid : VolId) (ucl n : Nat) (body : List Byte) (len : Nat) :
    standing (s.sendAbout kind vid ucl n body len).pair = standing s.pair := standing_pumpAll

@[simp] theorem standing_send (kind : Byte) (xs : List Nat) : standing (s.send kind xs).pair = standing s.pair :=
  standing_sendAbout ..

@[simp] theorem standing_sendFirst (kind : Byte) (xs : List Byte) : standing (s.sendFirst kind xs).pair = standing s.pair :=
  standing_pumpAll

@[simp] theorem standing_takeAck (n : BitVec 16) : standing (s.takeAck n).pair = standing s.pair := by
  unfold State.takeAck
  split
  · exact standing_pumpAll
  · rfl

@[simp] theorem standing_tellRole : standing s.tellRole.pair = standing s.pair := by
  unfold State.tellRole
  split
  · exact standing_send ..
  · rfl

@[simp] theorem standing_sendMirror (vid : VolId) (ucl : Nat) (own : Bool) :
    standing (s.sendMirror vid ucl own).pair = standing s.pair := by
  unfold State.sendMirror
  split
  exact standing_sendAbout ..

@[simp] theorem standing_sendClusters (xs : List (VolId × Nat)) : standing (s.sendClusters xs).pair = standing s.pair :=
  standing_foldl (fun _ _ => standing_sendMirror ..) xs

/-! ### Completions and answers (R287, R398, R399) -/

@[simp] theorem standing_complete (id : CmdId) (st : Byte) (r : BitVec 64) :
    standing (s.complete id st r).pair = standing s.pair := by
  unfold State.complete
  split
  · rfl
  split
  · rfl
  · next c hc =>
    dsimp only
    have htag : ∀ t : State, (if c.opcode = 2 ∧ st = 0 then t.tagWrite c else t).pair = t.pair := fun t => by
      split
      · exact tagWrite_pair t c
      · rfl
    split
    · rw [standing_send, htag]
    split
    · rw [htag]
    · rw [post_pair, htag]

@[simp] theorem standing_mirrorDone (c : Cmd) : standing (s.mirrorDone c).pair = standing s.pair := by
  unfold State.mirrorDone
  split
  · rfl
  · exact standing_complete ..

@[simp] theorem standing_settleMirrorOut : standing s.settleMirrorOut.pair = standing s.pair :=
  standing_foldl (fun _ _ => standing_mirrorDone _) _

@[simp] theorem standing_mirrorLost : standing s.mirrorLost.pair = standing s.pair := standing_settleMirrorOut

@[simp] theorem standing_failForwarded (st : Byte) : standing (s.failForwarded st).pair = standing s.pair :=
  standing_foldl (fun _ _ => standing_complete ..) _

@[simp] theorem answerRun_pair (p : Port) (st : Byte) : (s.answerRun p st).pair = s.pair :=
  pair_of_hide (hide_answerRun (by simp) (by simp) (by simp) (by simp))

@[simp] theorem standing_endWaiters (slot : BitVec 16) (w : CmdWait) (st : Byte) :
    standing (s.endWaiters slot w st).pair = standing s.pair :=
  standing_foldl (fun _ _ => standing_complete ..) _

@[simp] theorem standing_orderEnded (src dst : BitVec 16) (st : Byte) :
    standing (s.orderEnded src dst st).pair = standing s.pair := by
  unfold State.orderEnded
  split
  · exact standing_endWaiters ..
  split
  · rfl
  · exact standing_endWaiters ..

@[simp] theorem standing_failForwardedMove (st : Byte) : standing (s.failForwardedMove st).pair = standing s.pair := by
  unfold State.failForwardedMove
  split
  · split
    · exact standing_orderEnded ..
    · rfl
  split
  · rfl
  split
  · rw [answerRun_pair]
  · rfl

/-! ### The handler's release (R262, R265) -/

@[simp] theorem standing_setBaySt (b : BayNo) (new : BaySt) (row : Nat) :
    standing (s.setBaySt b new row).pair = standing s.pair := by
  unfold State.setBaySt
  extract_lets old t0 t1 t2
  have h0 : t0.pair = s.pair := by
    simp only [t0]
    split
    · rfl
    · exact pair_of_hide (hide_abortCal (by simp) (by simp) (by simp) (by simp) (by simp))
  have h1 : t1.pair = s.pair := by
    rw [← h0]
    simp [t1]
  have h2 : t2.pair = s.pair := by
    rw [← h1]
    simp only [t2]
    split <;> rfl
  split
  · rfl
  split
  · rw [standing_send, h2]
  · rw [h2]

@[simp] theorem standing_endMove (st : Byte) : standing (s.endMove st).pair = standing s.pair := by
  unfold State.endMove
  split
  · rfl
  · next m hm =>
    extract_lets s1 s2 s3 s4
    have h2 : s2.pair = s.pair := by
      simp only [s2]
      split <;> simp [s1]
    have h3 : standing s3.pair = standing s.pair := by
      simp only [s3]
      split
      · split
        · rw [standing_setBaySt, h2]
        · rw [h2]
      · rw [h2]
    have h4 : standing s4.pair = standing s.pair := by
      simp only [s4]
      split
      · rw [standing_send, h3]
      · exact h3
    split
    · rw [answerRun_pair, h4]
    · exact h4
    · rw [standing_orderEnded, h4]

@[simp] theorem standing_releaseWithPeerOk : standing s.releaseWithPeerOk.pair = standing s.pair := by
  unfold State.releaseWithPeerOk State.dropOwn
  split
  · split
    · rfl
    · rw [standing_endMove]
      simp
  · rfl

/-! ### What keeps the pair -/

@[simp] theorem giveAll_pair (o : Fin 12) (hs : List (BitVec 32)) : (s.giveAll o hs).pair = s.pair :=
  pair_of_hide (hide_giveAll (by simp) (by simp) (by simp))

@[simp] theorem dropUncommitted_pair : s.dropUncommitted.pair = { s.pair with uncommitted := [] } := giveAll_pair ..

@[simp] theorem discardData_pair (which : VolId → Bool) : (s.discardData which).pair = s.pair :=
  pair_of_hide (hide_discardData (by simp) (by simp) (by simp) (by simp))

@[simp] theorem unbind_pair (which : VolId → Bool) : (s.unbind which).pair = s.pair := rfl

@[simp] theorem beginRun_pair (p : Port) (w : MbxWait) : (s.beginRun p w).pair = s.pair := rfl

@[simp] theorem dropMirrors_pair : s.dropMirrors.pair = { s.pair with uncommitted := [], taken := [] } := by
  simp [State.dropMirrors]

@[simp] theorem markValid_pair : s.markValid.pair = s.pair := pair_of_hide (hide_markValid (by simp) (by simp))

/-- A change into a mode with PEER_OK active moves PEER_OK at most. -/
theorem setMode_pair {m : Mode} (hp : m.peerOk = true) : ∃ v, (s.setMode m).pair = { s.pair with peerOk := v } := by
  unfold State.setMode
  split
  · dsimp only
    rw [drivePeerOk_of_peerOk hp]
    refine ⟨true, ?_⟩
    split
    · unfold State.abandonDiag
      split <;> rfl
    · rfl
  · exact ⟨_, rfl⟩

end

end Sys2Proof.Proofs
end

section
/-! PROOFS. The Tether (R391 to R396, R400): training, flits and their replay, heartbeats and PEER_OK. -/

-- Proofs one after another: many small ones at once would each take a thread's stack.
set_option Elab.async false

namespace Sys2Proof.Proofs

open Sys2Proof Sys2Proof.Machine Sys2Proof.Laws Sys2Proof.Safety

/-! ### What the peer indicates, through the judgements of R400 -/

section
variable {s : State}

@[simp] theorem indications_setMode {m : Mode} (hp : m.peerOk = true) : indications (s.setMode m).pair = indications s.pair := by
  obtain ⟨v, hv⟩ := setMode_pair (s := s) hp
  rw [hv]
  rfl

@[simp] theorem indications_mirrorLost : indications s.mirrorLost.pair = indications s.pair :=
  indications_of_standing standing_mirrorLost

@[simp] theorem indications_startTakeover : indications s.startTakeover.pair = indications s.pair := by
  unfold State.startTakeover
  rw [indications_mirrorLost, onPair_pair]
  change indications (State.dropUncommitted _).pair = _
  rw [dropUncommitted_pair]
  change indications (State.raiseDev _ _ _).pair = _
  rw [raiseDev_eq, raiseAt_pair, indications_setMode rfl]

@[simp] theorem indications_peerLost : indications s.peerLost.pair = indications s.pair := by
  unfold State.peerLost
  split
  · exact indications_mirrorLost
  · rw [indications_mirrorLost, raiseDev_eq, raiseAt_pair]
    rfl

@[simp] theorem indications_judgeBoth : indications s.judgeBoth.pair = indications s.pair := by
  unfold State.judgeBoth
  split
  · split
    · exact indications_startTakeover
    · exact indications_peerLost
  · rw [indications_mirrorLost]
    split <;> rfl
  · exact indications_peerLost

@[simp] theorem indications_degrade : indications s.degrade.pair = indications s.pair := by
  unfold State.degrade
  rw [indications_mirrorLost, indications_of_standing (standing_failForwardedMove _),
    indications_of_standing (standing_failForwarded _), raiseDev_eq, raiseAt_pair]
  rfl

@[simp] theorem indications_failJoin (st : Byte) : indications (s.failJoin st).pair = indications s.pair := by
  unfold State.failJoin
  dsimp only
  split
  · rw [respondRun_pair, onPair_pair, dropMirrors_pair]
    rfl
  · rw [onPair_pair, dropMirrors_pair]
    rfl

@[simp] theorem indications_startTetherResync : indications s.startTetherResync.pair = indications s.pair := by
  unfold State.startTetherResync
  dsimp only
  rw [indications_of_standing (standing_sendClusters _), onPair_pair]
  split
  · rfl
  · have hsend := indications_of_standing (standing_send (s := s) 0x12 (s.pair.unreleased.flatMap (fun x => [x.1.toNat, x.2])))
    exact hsend

end

/-! ### Training (R391) -/

theorem standing_replay {s : State} (xs : List (BitVec 16 × TetherFlit)) : standing (s.replay xs).pair = standing s.pair :=
  standing_foldl (fun _ _ => standing_putFlit ..) xs

section
variable {s t : State} (h : KeepsEvents 0 s t)
include h

theorem Keeps.putFlit {n : BitVec 16} {f : TetherFlit} {r : Bool} : KeepsEvents 0 s (t.putFlit n f r) :=
  h.frame (hide_putFlit (by simp) (by simp))

theorem Keeps.replay {xs : List (BitVec 16 × TetherFlit)} : KeepsEvents 0 s (t.replay xs) := by
  unfold State.replay
  exact h.foldl (fun _ _ hu => Keeps.putFlit hu) xs

theorem Keeps.sendFirst {kind : Byte} {xs : List Byte} : KeepsEvents 0 s (t.sendFirst kind xs) :=
  h.frame (hide_sendFirst (by simp) (by simp))

end

/-- The state in which the link is up, before EV_TETHER_UP. -/
def linkUp (s : State) (who rel : BitVec 32) : State :=
  s.onPair (fun q => { q with link := .up, width := trainedWidth s.pair.lanes (s.dn Param.pairLanes), failed := 0,
                              replays := 0, badLanes := 0, peerIdentity := who, peerRelease := rel })

theorem tetherTrainingDone_completes {s : State} {who rel : BitVec 32} (hm : s.sys.mode ≠ .off) (hl : s.pair.link = .training) :
    Completes (.tetherTrainingDone who rel) s (fun t => t.pair.link = .up ∧ t.pair.peerIdentity = who
      ∧ t.pair.width = trainedWidth s.pair.lanes (s.dn Param.pairLanes) ∧ raisedSince s t (.dev .tetherUp) = true) := by
  unfold Completes
  change ∃ t, execTetherTrainingDone who rel s = _ ∧ _
  unfold execTetherTrainingDone
  rw [if_neg (not_not_intro hl)]
  extract_lets w s1 s2 s3
  have h1 : s1.pair = (linkUp s who rel).pair := raiseAt_pair ..
  have h2 : standing s2.pair = standing s1.pair := standing_replay _
  have k2 : KeepsEvents 0 s1 s2 := (Keeps.refl _ 0 s1).replay
  have h3 : standing s3.pair = standing s2.pair := standing_sendFirst ..
  have k3 : KeepsEvents 0 s1 s3 := k2.sendFirst
  rw [h2, h1] at h3
  have hbefore : KeepsEvents 0 s (linkUp s who rel) := ⟨List.prefix_rfl, id⟩
  have hend : ∀ t, standing t.pair = standing (linkUp s who rel).pair → KeepsEvents 0 s1 t → t.pair.link = .up
      ∧ t.pair.peerIdentity = who ∧ t.pair.width = trainedWidth s.pair.lanes (s.dn Param.pairLanes)
      ∧ raisedSince s t (.dev .tetherUp) = true := fun t ht hk =>
    ⟨of_standing Pair.link (fun _ => rfl) ht, of_standing Pair.peerIdentity (fun _ => rfl) ht,
      of_standing Pair.width (fun _ => rfl) ht, raisedSince_of_keeps hbefore hm hk⟩
  refine ⟨_, rfl, ?_⟩
  split
  · exact hend _ (by rw [raiseDev_eq, raiseAt_pair, h3]) k3.raisedAt
  · exact hend _ h3 k3

/-! ### Flits (R393) -/

theorem flitReceive_completes {s : State} {bytes : List Byte} (hl : s.pair.link = .up) (hgood : flitGood bytes = true)
    (hlisted : flitListed (bytes.headD 0) = true) (hkind : bytes.headD 0 ≠ 0)
    (hseq : ofLeBytes ((bytes.drop 2).take 2) = s.pair.expected.toNat) (hclean : s.pair.replays = 0) :
    Completes (.flitReceive bytes) s (fun t => t.pair.expected = s.pair.expected + 1) := by
  unfold Completes
  change ∃ t, execFlitReceive bytes s = _ ∧ _
  unfold execFlitReceive
  rw [if_neg (not_not_intro hl)]
  extract_lets kind seq ack s1 s2 s3
  have hinseq : seq = s.pair.expected := by
    simp only [seq]
    rw [hseq, BitVec.ofNat_toNat, BitVec.setWidth_eq]
  rw [hgood, hlisted, if_neg (by simp), if_neg hkind, if_neg (not_not_intro hinseq), if_pos hclean]
  have h1 : s1.pair.expected = s.pair.expected := of_standing Pair.expected (fun _ => rfl) (standing_takeAck ack)
  have h3 : standing s3.pair = standing s2.pair := standing_putFlit ..
  refine ⟨_, rfl, (of_standing Pair.expected (fun _ => rfl) h3).trans ?_⟩
  rw [← h1]
  rfl

/-- Held flits go out again in their order; nothing else goes out. -/
theorem replay_out {flitOf : Output → Option (List Byte)} (hf : ∀ b x, flitOf (.flit b x) = some b) (s : State)
    (xs : List (BitVec 16 × TetherFlit)) : (s.replay xs).out.filterMap flitOf
      = (xs.map (fun x => flitBytes (usedLanes s.pair.lanes s.pair.width) x.1 (s.pair.expected - 1) x.2 true)).reverse
        ++ s.out.filterMap flitOf := by
  unfold State.replay
  induction xs generalizing s with
  | nil => rfl
  | cons x xs ih =>
    have hpair := standing_putFlit (s := s) x.1 x.2 true
    have hlanes : (s.putFlit x.1 x.2 true).pair.lanes = s.pair.lanes := of_standing Pair.lanes (fun _ => rfl) hpair
    have hwidth : (s.putFlit x.1 x.2 true).pair.width = s.pair.width := of_standing Pair.width (fun _ => rfl) hpair
    have hexp : (s.putFlit x.1 x.2 true).pair.expected = s.pair.expected := of_standing Pair.expected (fun _ => rfl) hpair
    have hout : (s.putFlit x.1 x.2 true).out.filterMap flitOf
        = flitBytes (usedLanes s.pair.lanes s.pair.width) x.1 (s.pair.expected - 1) x.2 true :: s.out.filterMap flitOf := by
      unfold State.putFlit
      dsimp only
      rw [emit_out, List.filterMap_cons_some (hf _ _), onPair_out]
    rw [List.foldl_cons, ih, hlanes, hwidth, hexp, hout, List.map_cons, List.reverse_cons, List.append_assoc,
      List.singleton_append]

/-! ### Indications (R395, R396, R400) -/

theorem heartbeatReceive_completes {s : State} (h : Heartbeat) (hl : s.pair.link = .up) :
    Completes (.heartbeatReceive h) s (fun t => t.pair.hbLive = true ∧ t.pair.peerHb = some h) := by
  unfold Completes
  change ∃ t, execHeartbeatReceive h s = _ ∧ _
  unfold execHeartbeatReceive
  rw [if_neg (not_not_intro hl)]
  extract_lets s1 s2
  have h2 : indications s2.pair = (true, s.pair.peerOkIn, some h) := by
    simp only [s2]
    split
    · rw [raiseDev_eq, raiseAt_pair]
      rfl
    · rfl
  split
  · rw [← indications_startTetherResync] at h2
    exact ⟨_, rfl, congrArg Prod.fst h2, congrArg (fun x => x.2.2) h2⟩
  · exact ⟨_, rfl, congrArg Prod.fst h2, congrArg (fun x => x.2.2) h2⟩

theorem heartbeatMissing_completes {s : State} (hlive : s.pair.hbLive = true) :
    Completes .heartbeatMissing s (fun t => t.pair.hbLive = false) := by
  unfold Completes
  change ∃ t, execHeartbeatMissing s = _ ∧ _
  unfold execHeartbeatMissing
  rw [hlive, if_neg (by simp)]
  extract_lets s1
  have hend : ∀ t : State, indications t.pair = indications s1.pair → t.pair.hbLive = false := fun t ht => congrArg Prod.fst ht
  split
  · exact ⟨_, rfl, hend _ (indications_failJoin _)⟩
  split
  · exact ⟨_, rfl, rfl⟩
  split
  · refine ⟨_, rfl, ?_⟩
    split
    · rfl
    · exact hend _ indications_degrade
  · exact ⟨_, rfl, hend _ indications_judgeBoth⟩

theorem peerOkInChange_completes {s : State} {v : Bool} {n : Nat} (hv : s.pair.peerOkIn ≠ v)
    (hn : s.dn Param.pairPeerOkFilter ≤ n) : Completes (.peerOkInChange v n) s (fun t => t.pair.peerOkIn = v) := by
  unfold Completes
  change ∃ t, execPeerOkInChange v n s = _ ∧ _
  unfold execPeerOkInChange
  rw [if_neg (not_or_intro hv (Nat.not_lt.2 hn))]
  extract_lets s1
  have hend : ∀ t : State, indications t.pair = indications s1.pair → t.pair.peerOkIn = v :=
    fun t ht => congrArg (fun x => x.2.1) ht
  split
  · exact ⟨_, rfl, rfl⟩
  split
  · exact ⟨_, rfl, rfl⟩
  split
  · exact ⟨_, rfl, hend _ (by rw [raiseDev_eq, raiseAt_pair])⟩
  · exact ⟨_, rfl, hend _ indications_judgeBoth⟩

/-- Settles O16: sending leaves what stands in the pair, the judgements of R400 leave what the peer indicates, and a replay is a
fold over the flits held. -/
theorem tetherCompletes : Obligations.TetherCompletes := by
  unfold Obligations.TetherCompletes
  extract_lets flitOf replays
  refine ⟨fun s hclock hdown hlanes => ?_, fun s who rel hm hl => tetherTrainingDone_completes hm hl, fun s hl hfew => ?_,
    fun s bytes hl hgood hlisted hkind hseq hclean => flitReceive_completes hl hgood hlisted hkind hseq hclean,
    fun s n hl => ?_, fun s hl => ?_, fun s hl hok hpark hparked => ?_, fun s h hl => heartbeatReceive_completes h hl,
    fun s hlive => heartbeatMissing_completes hlive, fun s v n hv hn => peerOkInChange_completes hv hn, fun s hin => ?_⟩
  · refine ⟨_, by simp only [exec, execTetherTrainingStart, hclock, hdown, hlanes, ne_eq, not_false_eq_true, decide_true,
      Bool.and_self, if_true]; rfl, rfl⟩
  · refine ⟨_, by simp only [exec, execTetherTrainingTimeout, hl, ne_eq, not_true_eq_false, if_false, hfew, if_true]; rfl, ?_⟩
    exact ⟨rfl, hl⟩
  · refine ⟨_, by simp only [exec, execNakReceive, hl, ne_eq, not_true_eq_false, if_false]; rfl, ?_⟩
    exact replay_out (fun _ _ => rfl) s _
  · refine ⟨_, by simp only [exec, execAckTimeout, hl, ne_eq, not_true_eq_false, if_false]; rfl, ?_⟩
    exact replay_out (fun _ _ => rfl) s _
  · refine ⟨_, by simp only [exec, execHeartbeatSend, hl, hok, hpark, hparked, ne_eq, not_true_eq_false, decide_false,
      Bool.not_true, Bool.or_self, Bool.false_eq_true, if_false]; rfl, ?_⟩
    exact (of_standing Pair.hbCount (fun _ => rfl) (standing_sendFirst ..)).trans rfl
  · exact ⟨_, by simp only [exec, execBrokenWireClear, hin, if_true]; rfl, rfl⟩

end Sys2Proof.Proofs
end

section
/-! PROOFS. Joining, leaving and returning to the pair (R401, R405 to R409). -/

-- Proofs one after another: many small ones at once would each take a thread's stack.
set_option Elab.async false

namespace Sys2Proof.Proofs

open Sys2Proof Sys2Proof.Machine Sys2Proof.Laws Sys2Proof.Safety

/-! ### Roles and modes (R29, R389) -/

theorem setMode_mode {s : State} {m : Mode} (hmay : s.sys.mode.may m = true) (hp : m.peerOk = true) :
    (s.setMode m).sys.mode = m := by
  rw [setMode_sys hmay hp]

theorem setMode_standing {s : State} {m : Mode} {α : Type} (f : Pair → α) (hf : ∀ q v, f { q with peerOk := v } = f q)
    (hp : m.peerOk = true) : f (s.setMode m).pair = f s.pair := by
  obtain ⟨v, hv⟩ := setMode_pair (s := s) hp
  rw [hv, hf]

theorem endPair_mode (s : State) : s.endPair.sys.mode = s.sys.mode :=
  mode_of_hide (hide_endPair (by simp) (by simp) (by simp) (by simp) (by simp))

theorem dropMirrors_mode (s : State) : s.dropMirrors.sys.mode = s.sys.mode :=
  mode_of_hide (hide_dropMirrors (by simp) (by simp) (by simp) (by simp) (by simp) (by simp))

theorem send_sys (s : State) (kind : Byte) (xs : List Nat) : (s.send kind xs).sys.mode = s.sys.mode :=
  mode_of_hide (hide_send (by simp) (by simp))

theorem tellRole_mode (s : State) : s.tellRole.sys.mode = s.sys.mode := mode_of_hide (hide_tellRole (by simp) (by simp))

/-- The pair that ends leaves no role, and nothing to settle. -/
theorem endPair_pair (s : State) : s.endPair.pair.role = .reset ∧ s.endPair.pair.awaiting = false := ⟨rfl, rfl⟩

/-- A device whose pair has ended and that enters STANDALONE. -/
theorem endPair_standalone {s : State} (hmay : s.sys.mode.may .standalone = true) :
    (s.endPair.setMode .standalone).sys.mode = .standalone ∧ (s.endPair.setMode .standalone).pair.role = .reset := by
  refine ⟨setMode_mode (by rwa [endPair_mode]) rfl, ?_⟩
  rw [setMode_standing Pair.role (fun _ _ => rfl) rfl]
  rfl

/-! ### Leaving (R406) -/

theorem pairLeave_completes {s : State} {p : Port} {h : Heartbeat} (hacc : accepts s p 0x131 = true)
    (hself : mbxPay s.ports[p].mbx.req 0 1 % 2 = 0) (hlive : s.tetherLive = true) (hm : s.sys.mode = .paired)
    (hhb : s.pair.peerHb = some h) (hpeer : h.mode = .paired) (hfwd : ∀ c ∈ s.cmds, c.wait ≠ .forwarded) :
    Completes (.pairLeave p) s (fun t => answered t p 0x00 ∧ t.sys.mode = .standalone ∧ t.pair.role = .reset) := by
  have hlive' : (noted s p).tetherLive = true := hlive
  have hm' : (noted s p).sys.mode = .paired := hm
  have hhb' : (noted s p).pair.peerHb = some h := hhb
  have hnone : (noted s p).cmds.any (fun c => decide (c.wait = .forwarded)) = false := by
    simpa [noted] using hfwd
  refine ⟨_, rfl, ?_⟩
  rw [serve_whole hacc rfl (by simpa using hself)]
  dsimp only
  rw [hlive', hm', hhb', hnone]
  simp only [hpeer, decide_true, Bool.not_true, ne_eq, not_true_eq_false, decide_false, Bool.or_self, Bool.false_eq_true, if_false]
  refine ⟨answered_respond _ _ _ _ _, ?_⟩
  have hmay : (((noted s p).send 0x30 [0x131]).dropMirrors).sys.mode.may .standalone = true := by
    rw [dropMirrors_mode, send_sys, hm']
    rfl
  obtain ⟨hmode, hrole⟩ := endPair_standalone hmay
  rw [respond_sys, respond_pair, raiseDev_eq, raiseAt_sys, raiseAt_pair]
  refine ⟨?_, (of_standing Pair.role (fun _ => rfl) standing_settleMirrorOut).trans hrole⟩
  rw [mode_of_hide (hide_settleMirrorOut (by simp) (by simp) (by simp) (by simp) (by simp) (by simp)), hmode]

theorem pairLeaveSelf_completes {s : State} {p : Port} (vs : List VolId) (hacc : accepts s p 0x131 = true)
    (hself : mbxPay s.ports[p].mbx.req 0 1 % 2 = 1) (hm : s.sys.mode = .pairedDegraded) :
    Completes (.pairLeaveSelf p vs) s (fun t => answered t p 0x00 ∧ t.sys.mode = .standalone ∧ t.pair.role = .reset) := by
  have hm' : (noted s p).sys.mode = .pairedDegraded := hm
  refine ⟨_, rfl, ?_⟩
  rw [serve_whole hacc rfl (by
    dsimp only
    rw [hself, hm]
    simp)]
  dsimp only
  rw [hm']
  dsimp only
  refine ⟨answered_respond _ _ _ _ _, ?_⟩
  rw [respond_sys, respond_pair, raiseDev_eq, raiseAt_sys, raiseAt_pair]
  exact endPair_standalone (by rw [hm']; rfl)

theorem pairLeaveForced_completes {s : State} {p : Port} (hacc : accepts s p 0x131 = true)
    (hbits : mbxPay s.ports[p].mbx.req 0 1 % 4 = 3) (hm : s.sys.mode = .standalone) (hdead : s.tetherLive = false) :
    Completes (.pairLeaveForced p) s (fun t => answered t p 0x00 ∧ t.pair.role = .reset ∧ t.flash.pairRecord = none) := by
  refine ⟨_, rfl, ?_⟩
  rw [serve_whole hacc rfl (by
    simp only [Bool.and_eq_true, decide_eq_true_eq, Bool.not_eq_true']
    exact ⟨⟨hbits, hm⟩, hdead⟩)]
  dsimp only
  refine ⟨answered_respond _ _ _ _ _, ?_⟩
  rw [respond_pair, respond_flash]
  exact ⟨rfl, rfl⟩

/-! ### Joining (R405) -/

theorem pairJoin_completes {s : State} {p : Port} {j : JoinPeer} (hacc : accepts s p 0x130 = true) (hlive : s.tetherLive = true)
    (hany : mbxPay s.ports[p].mbx.req 0 4 = 0) (halone : j.standalone = true)
    (hyes : j.acceptJoin = true) (hmaj : j.releaseMajor.toNat = field s.sys.release 24 8)
    (hmin : j.releaseMinor.toNat = field s.sys.release 16 8) (hvols : ∀ v ∈ s.vols, v.ownPeer = false → v.vid ∉ j.volumes)
    (hroom : s.vols.length + j.volumes.length ≤ Config.maxVolumes) :
    Completes (.pairJoin p j) s (fun t => t.pair.resync = some .join ∧ t.pair.peerIdentity = j.identity
      ∧ t.ports[p].mbx.run.isSome = true) := by
  have hlive' : (noted s p).tetherLive = true := hlive
  have hdisjoint : (((noted s p).vols.filter (fun v => !v.ownPeer)).map (·.vid)).any (fun v => j.volumes.contains v) = false := by
    simp only [List.any_eq_false, List.mem_map, List.mem_filter, List.contains_iff_mem, forall_exists_index, and_imp]
    rintro _ v hv hown rfl
    exact hvols v hv (by simpa using hown)
  have hfits : ¬ Config.maxVolumes < (((noted s p).vols.filter (fun v => !v.ownPeer)).map (·.vid)).length + j.volumes.length := by
    have hle : ((noted s p).vols.filter (fun v => !v.ownPeer)).length ≤ s.vols.length := List.length_filter_le _ _
    rw [List.length_map]
    omega
  have hmaj' : j.releaseMajor.toNat = field (noted s p).sys.release 24 8 := hmaj
  have hmin' : j.releaseMinor.toNat = field (noted s p).sys.release 16 8 := hmin
  refine ⟨_, rfl, ?_⟩
  rw [serve_whole hacc rfl rfl]
  dsimp only
  rw [hdisjoint, decide_eq_false hfits, hlive', hany, halone, hyes, hmaj', hmin']
  simp only [Bool.not_true, Bool.false_eq_true, if_false, ne_eq, not_true_eq_false, false_and, Bool.and_false, decide_false,
    Bool.or_self]
  generalize hs1 : (((noted s p).beginRun p .join).onPair (fun q =>
    { q with resync := some .join, resyncBytes := 0, peerIdentity := j.identity })) = s1
  have hstand := standing_sendClusters (s := s1) s1.ownClusters
  have hmbx : (s1.sendClusters s1.ownClusters).ports[p].mbx = s1.ports[p].mbx :=
    ((unchanged_of_hide (hide_sendClusters (ps := [.pair, .out]) (by simp) (by simp))).mbx p).resolve_left (by simp)
  refine ⟨(of_standing Pair.resync (fun _ => rfl) hstand).trans ?_,
    (of_standing Pair.peerIdentity (fun _ => rfl) hstand).trans ?_, ?_⟩
  · rw [← hs1]
    rfl
  · rw [← hs1]
    rfl
  · rw [hmbx, ← hs1]
    simp [State.beginRun]

section
variable {s t : State} (h : KeepsEvents 0 s t)
include h

theorem Keeps.tellRole : KeepsEvents 0 s t.tellRole := h.frame (hide_tellRole (by simp) (by simp))

theorem Keeps.setPairRole {r : RoleWord} : KeepsEvents 0 s (t.setPairRole r) :=
  h.frame (hide_setPairRole (by simp) (by simp) (by simp))

theorem Keeps.releaseWithPeerOk : KeepsEvents 0 s t.releaseWithPeerOk := by
  unfold State.releaseWithPeerOk State.dropOwn
  exact (h.onHnd.ite (Keeps.endMove h.onHnd.raisedAt anyTailBlind)).ite h.onHnd

end

/-- The pair once both have written their role words, before the change to PAIRED. -/
def rolesWritten (s : State) (n : BitVec 24) : State :=
  (s.onPair (fun q => { q with resync := none, unmirrored := [], mirrorOut := [] })).setPairRole
    { role := memberRole Config.identity s.pair.peerIdentity, peer := s.pair.peerIdentity, seq := seqAbove s.pair.role.seq n }

theorem joinResyncEnd_completes {s : State} {n : BitVec 24} (hm : s.sys.mode = .standalone) (hlive : s.tetherLive = true)
    (hjoin : s.pair.resync = some .join) :
    Completes (.joinResyncEnd n) s (fun t => t.sys.mode = .paired ∧ t.pair.role.seq = seqAbove s.pair.role.seq n
      ∧ raisedSince s t (.dev .pairJoined) = true) := by
  generalize hs3 : (rolesWritten s n).tellRole.setMode .paired = s3
  have hmode : s3.sys.mode = .paired := by
    rw [← hs3]
    refine setMode_mode ?_ rfl
    rw [tellRole_mode, show (rolesWritten s n).sys.mode = s.sys.mode from rfl, hm]
    rfl
  have hrole : s3.pair.role.seq = seqAbove s.pair.role.seq n := by
    rw [← hs3, setMode_standing (fun q => q.role.seq) (fun _ _ => rfl) rfl,
      of_standing (fun q => q.role.seq) (fun _ => rfl) standing_tellRole]
    rfl
  have hkeeps : KeepsEvents 0 s s3 := by
    have h0 : KeepsEvents 0 s (s.onPair (fun q => { q with resync := none, unmirrored := [], mirrorOut := [] })) :=
      ⟨List.prefix_rfl, id⟩
    rw [← hs3]
    exact h0.setPairRole.tellRole.setMode rfl
  have hend : ∀ u, (u = s3.raiseDev .pairJoined ∨ u = (s3.raiseDev .pairJoined).releaseWithPeerOk) → u.sys.mode = .paired
      ∧ u.pair.role.seq = seqAbove s.pair.role.seq n ∧ raisedSince s u (.dev .pairJoined) = true := by
    have hon : s3.sys.mode ≠ .off := by
      rw [hmode]
      decide
    rintro u (rfl | rfl)
    · rw [raiseDev_eq, raiseAt_sys, raiseAt_pair]
      exact ⟨hmode, hrole, raisedSince_raiseAt hkeeps hon _ _ _⟩
    · refine ⟨?_, ?_, raisedSince_of_keeps hkeeps hon (Keeps.refl _ 0 _).releaseWithPeerOk⟩
      · rw [mode_of_hide (hide_releaseWithPeerOk (by simp) (by simp) (by simp) (by simp) (by simp) (by simp) (by simp) (by simp)
          (by simp) (by simp) (by simp) (by simp) (by simp) (by simp) (by simp) (by simp)), raiseDev_eq, raiseAt_sys, hmode]
      · rw [of_standing (fun q => q.role.seq) (fun _ => rfl) standing_releaseWithPeerOk, raiseDev_eq, raiseAt_pair, hrole]
  refine completes_answering (w := fun w => decide (w = .join)) (st := 0x00)
    (u := if memberRole Config.identity s.pair.peerIdentity = 2 then (s3.raiseDev .pairJoined).releaseWithPeerOk
      else s3.raiseDev .pairJoined) ?_ ?_
  · simp only [exec, execJoinResyncEnd, hm, hlive, hjoin, ← hs3]
    rfl
  · intro t hsys hev hpair
    rw [hsys, hpair, raisedSince, hev]
    exact hend _ (by split <;> simp)

/-! ### Resync and return (R401, R407, R409) -/

theorem tetherResyncEnd_completes {s : State} (hm : s.sys.mode ≠ .off) (hr : s.pair.resync = some .tether)
    (hlive : s.tetherLive = true) :
    Completes .tetherResyncEnd s (fun t => t.pair.degraded = false ∧ t.pair.resync = none
      ∧ raisedSince s t (.dev .tetherRestored) = true) := by
  unfold Completes
  change ∃ t, execTetherResyncEnd s = _ ∧ _
  unfold execTetherResyncEnd
  rw [hr, hlive, if_neg (by simp)]
  generalize hs0 : s.onPair (fun q => { q with degraded := false, resync := none, unmirrored := [], awaiting := false }) = s0
  have hpair : s0.pair.degraded = false ∧ s0.pair.resync = none := by
    rw [← hs0]
    exact ⟨rfl, rfl⟩
  have hk : KeepsEvents 0 s s0 := by
    rw [← hs0]
    exact ⟨List.prefix_rfl, id⟩
  have hon : s0.sys.mode ≠ .off := by
    rw [← hs0]
    exact hm
  obtain ⟨hdeg, hres⟩ := hpair
  split
  · refine ⟨_, rfl, ?_, ?_, raisedSince_of_keeps hk hon ((Keeps.refl _ 0 _).setMode rfl).markValid⟩
    · rw [markValid_pair, setMode_standing Pair.degraded (fun _ _ => rfl) rfl, raiseDev_eq, raiseAt_pair, hdeg]
    · rw [markValid_pair, setMode_standing Pair.resync (fun _ _ => rfl) rfl, raiseDev_eq, raiseAt_pair, hres]
  · refine ⟨_, rfl, ?_, ?_, raisedSince_raiseAt hk hon _ _ _⟩
    · rw [raiseDev_eq, raiseAt_pair, hdeg]
    · rw [raiseDev_eq, raiseAt_pair, hres]

/-- The survivor hands the volumes back and is PAIRED again (R409). -/
theorem handback_completes {s : State} (hlive : s.tetherLive = true) (hm : s.sys.mode = .pairedDegraded) :
    Completes .handback s (fun t => t.sys.mode = .paired ∧ t.pair.taken = [] ∧ t.pair.role.seq = s.pair.role.seq + 1
      ∧ raisedSince s t (.dev .handbackDone) = true) := by
  unfold Completes
  change ∃ t, execHandback s = _ ∧ _
  unfold execHandback
  rw [hlive, if_neg (by simp), if_pos hm]
  extract_lets back s1 s2 role s3
  have hpair : s3.pair.taken = [] ∧ s3.pair.role.seq = s.pair.role.seq + 1 := ⟨rfl, rfl⟩
  have hk : KeepsEvents 0 s s3 := ⟨List.prefix_rfl, id⟩
  have hmode : s3.sys.mode = .pairedDegraded := hm
  clear_value s3
  obtain ⟨htaken, hseq⟩ := hpair
  have hpaired : (s3.tellRole.saveVols.setMode .paired).sys.mode = .paired := by
    refine setMode_mode ?_ rfl
    rw [show s3.tellRole.saveVols.sys = s3.tellRole.sys from rfl, tellRole_mode, hmode]
    rfl
  have hk' : KeepsEvents 0 s (s3.tellRole.saveVols.setMode .paired) := hk.tellRole.onStg.setMode rfl
  refine ⟨_, rfl, ?_, ?_, ?_, raisedSince_raiseAt hk' (by rw [hpaired]; decide) _ _ _⟩
  · rw [raiseDev_eq, raiseAt_sys, hpaired]
  · rw [raiseDev_eq, raiseAt_pair, setMode_standing Pair.taken (fun _ _ => rfl) rfl]
    exact (of_standing Pair.taken (fun _ => rfl) standing_tellRole).trans htaken
  · rw [raiseDev_eq, raiseAt_pair, setMode_standing (fun q => q.role.seq) (fun _ _ => rfl) rfl]
    exact (of_standing (fun q => q.role.seq) (fun _ => rfl) standing_tellRole).trans hseq

/-- Settles O19: what ends the pair, writes the role word or changes the mode decides; what is sent behind it leaves what stands. -/
theorem pairMembershipCompletes : Obligations.PairMembershipCompletes := by
  unfold Obligations.PairMembershipCompletes
  refine ⟨fun s p j hacc hlive hany _ halone hyes hmaj hmin hvols hroom =>
      pairJoin_completes hacc hlive hany halone hyes hmaj hmin hvols hroom,
    fun s p h hacc hself hlive hm hhb hpeer hfwd => pairLeave_completes hacc hself hlive hm hhb hpeer hfwd,
    fun s p vs hacc hself hm => pairLeaveSelf_completes vs hacc hself hm,
    fun s p hacc hbits hm hdead => pairLeaveForced_completes hacc hbits hm hdead,
    fun s hm hr hlive => tetherResyncEnd_completes hm hr hlive, fun s hm hr => ?_,
    fun s n hm hlive hjoin => joinResyncEnd_completes hm hlive hjoin, fun s r haw hm hlive hrm hrec => ?_,
    fun s hlive hm => handback_completes hlive hm⟩
  · refine ⟨_, by simp only [exec, execPairResyncProgress, hr, true_or, if_true]; rfl, ?_⟩
    exact raisedSince_raiseAt (Keeps.refl _ 0 s) hm _ _ _
  · refine ⟨_, by simp only [exec, execRejoin, haw, hm, hlive, hrm, hrec]; rfl, ?_⟩
    exact (endPair_pair _).symm

end Sys2Proof.Proofs
end

section
/-! PROOFS. The spindle and its encoders (R207 to R223). -/

-- Proofs one after another: many small ones at once would each take a thread's stack.
set_option Elab.async false

namespace Sys2Proof.Proofs

open Sys2Proof Sys2Proof.Machine Sys2Proof.Laws Sys2Proof.Safety

/-! ### The spindle of a bay -/

section
variable {s : State} {b : BayNo}

theorem onSpn_spn (s : State) (b : BayNo) (f : Spindle → Spindle) : (s.onSpn b f).bays[b].spn = f s.bays[b].spn :=
  congrArg Bay.spn (onSpn_same s b f)

theorem raiseAt_spn (s : State) (b : BayNo) (e : Ev) (sev : Severity) (fs : List PField) :
    (s.raiseAt e sev fs).bays[b].spn = s.bays[b].spn := raiseAt_bay_spn s e sev fs b

theorem spn_of_hide {s t : State} {b : BayNo} (h : hide (allBut (.spn b)) t = hide (allBut (.spn b)) s) :
    t.bays[b].spn = s.bays[b].spn := ((unchanged_of_hide h).spn b).resolve_left (by simp)

theorem setBaySt_spn (new : BaySt) (row : Nat) : (s.setBaySt b new row).bays[b].spn = s.bays[b].spn :=
  spn_of_hide (hide_setBaySt (by simp) (by simp) (by simp) (by simp) (by simp) (by simp) (by simp) (by simp) (by simp) (by simp))

theorem abortCal_spn : (s.abortCal b).bays[b].spn = s.bays[b].spn :=
  spn_of_hide (hide_abortCal (by simp) (by simp) (by simp) (by simp) (by simp))

theorem sledToMount_spn : (s.sledToMount b).bays[b].spn = s.bays[b].spn :=
  spn_of_hide (hide_sledToMount (by simp) (by simp) (by simp) (by simp))

theorem onBay_spn (s : State) (b : BayNo) (f : Bay → Bay) : (s.onBay b f).bays[b].spn = (f s.bays[b]).spn :=
  congrArg Bay.spn (onBay_same s b f)

/-! ### What a failed start makes of it (R218, R219, R240, R249) -/

theorem spinDown_spn (after : AfterStop) (row : Nat) : (s.spinDown b after row).bays[b].spn = s.bays[b].spn
    ∨ (s.spinDown b after row).bays[b].spn = s.bays[b].spn.stop := by
  unfold State.spinDown
  split
  · right
    rw [setBaySt_spn, onBay_spn]
    exact congrArg Spindle.stop ((spn_of_hide (hide_parkFocus (by simp))).trans abortCal_spn)
  · exact .inl rfl

theorem unload_spn (row : Nat) : (s.unload b row).bays[b].spn = s.bays[b].spn :=
  spn_of_hide (hide_unload (by simp) (by simp) (by simp) (by simp) (by simp) (by simp) (by simp) (by simp) (by simp) (by simp)
    (by simp) (by simp) (by simp) (by simp) (by simp) (by simp) (by simp))

theorem mountFails_spn (stage : MountStage) : (s.mountFails b stage).bays[b].spn = s.bays[b].spn
    ∨ (s.mountFails b stage).bays[b].spn = s.bays[b].spn.stop := by
  unfold State.mountFails
  extract_lets s1 s2 s3 s4
  have h2 : s2.bays[b].spn = s.bays[b].spn :=
    (spn_of_hide (hide_mountsFailed (by simp) (by simp) (by simp) (by simp) (by simp) (by simp))).trans (raiseAt_spn ..)
  have h3 : s3.bays[b].spn = s2.bays[b].spn := by
    simp only [s3]
    split
    · exact spn_of_hide (hide_formatEnds (by simp) (by simp) (by simp) (by simp) (by simp) (by simp) (by simp))
    · rfl
  have h4 : s4.bays[b].spn = s.bays[b].spn := by
    rw [← h2, ← h3]
    exact (onBay_spn ..).trans (spn_of_hide (hide_dropScan (by simp) (by simp) (by simp) (by simp) (by simp) (by simp)))
  rw [← h4]
  split
  · exact .inl (unload_spn 2)
  · exact spinDown_spn ..

theorem mountStepFailed_spn (stage : MountStage) : (s.mountStepFailed b stage).bays[b].spn = s.bays[b].spn
    ∨ (s.mountStepFailed b stage).bays[b].spn = s.bays[b].spn.stop := by
  unfold State.mountStepFailed
  split
  · exact mountFails_spn stage
  · exact .inl (spn_of_hide (hide_onSeq (by simp)))

/-- A bay that faults stops its spindle, unless it coasts. -/
theorem faultBay_spn (cause : FaultCause) (hcoast : s.bays[b].spn.level ≠ .coast) :
    (s.faultBay b cause).bays[b].spn = s.bays[b].spn ∨ (s.faultBay b cause).bays[b].spn = s.bays[b].spn.stop := by
  unfold State.faultBay
  split
  · exact .inl rfl
  · extract_lets s1 s2
    have h1 : s1.bays[b].spn = s.bays[b].spn := by
      refine (spn_of_hide (hide_parkFocus (by simp))).trans (abortCal_spn.trans ?_)
      refine (spn_of_hide (hide_dropScan (by simp) (by simp) (by simp) (by simp) (by simp) (by simp))).trans ?_
      refine (spn_of_hide (hide_freeRun (by simp) (by simp) (by simp) (by simp))).trans ?_
      exact spn_of_hide (hide_cutGate (by simp) (by simp) (by simp) (by simp) (by simp) (by simp) (by simp) (by simp) (by simp)
        (by simp))
    clear_value s1
    have h2 : s2.bays[b].spn = s.bays[b].spn.stop := by
      simp only [s2]
      rw [onBay_spn, h1]
      exact if_neg hcoast
    right
    rw [raiseBay_eq, raiseAt_spn, setBaySt_spn, h2]

theorem startFailed_spn (hcoast : s.bays[b].spn.level ≠ .coast) : (s.startFailed b).bays[b].spn = s.bays[b].spn
    ∨ (s.startFailed b).bays[b].spn = s.bays[b].spn.stop := by
  unfold State.startFailed
  dsimp only
  split
  · exact .inl rfl
  split
  · exact mountStepFailed_spn .spinup
  split
  · exact faultBay_spn .coast hcoast
  · exact .inl (spn_of_hide (hide_onSeq (by simp)))

end

theorem stop_level_of_off {p : Spindle} (h : p.level = .off) : p.stop.level = .off := by
  unfold Spindle.stop
  rw [h]

theorem stop_starting (p : Spindle) : p.stop.starting = false := by
  unfold Spindle.stop
  split <;> rfl

theorem Keeps.startFailed {s t : State} {b c : BayNo} (h : Keeps TrackOpen b s t) : Keeps TrackOpen b s (t.startFailed c) := by
  unfold State.startFailed
  exact h.ite (h.mountStepFailed.ite (h.faultBay.ite h.onSeq))

section
variable {s : State} {b : BayNo}

theorem drogueTimeout_completes (hm : s.sys.mode ≠ .off) (hl : s.bays[b].spn.level = .drogue) :
    Completes (.drogueTimeout b) s (fun t => t.bays[b].spn.level = .off ∧ raisedSince s t (.bay b .spinupFail) = true) := by
  generalize hs1 : s.onSpn b (fun p => { p with level := .off, starting := false, stopping := false }) = s1
  have hexec : exec (.drogueTimeout b) s = .next ((s1.raiseBay b .spinupFail [.u8 0]).startFailed b) := by
    simp only [exec, execDrogueTimeout, hl, ne_eq, not_true_eq_false, if_false, hs1]
  have hlevel : (s1.raiseBay b .spinupFail [.u8 0]).bays[b].spn.level = .off := by
    rw [raiseBay_eq, raiseAt_spn, ← hs1, onSpn_spn]
  have hbefore : KeepsEvents 0 s s1 := by
    rw [← hs1]
    exact (Keeps.refl _ 0 s).frame (hide_onSpn (by simp))
  have hon : s1.sys.mode ≠ .off := by
    rw [← hs1]
    exact hm
  refine ⟨_, hexec, ?_, raisedSince_of_keeps hbefore hon (Keeps.startFailed (Keeps.refl _ 0 _))⟩
  rcases startFailed_spn (s := s1.raiseBay b .spinupFail [.u8 0]) (b := b) (by rw [hlevel]; decide) with h | h
  · rw [h, hlevel]
  · rw [h, stop_level_of_off hlevel]

theorem spinupTimeout_completes (hm : s.sys.mode ≠ .off) (hstart : s.bays[b].spn.starting = true)
    (hstop : s.bays[b].spn.stopping = false) (hcoast : s.bays[b].spn.level ≠ .coast) :
    Completes (.spinupTimeout b) s (fun t => t.bays[b].spn.starting = false ∧ raisedSince s t (.bay b .spinupFail) = true) := by
  generalize hs1 : s.onSpn b (fun x => { x with starting := false }) = s1
  have hexec : exec (.spinupTimeout b) s = .next ((s1.raiseBay b .spinupFail [.u8 1]).startFailed b) := by
    simp only [exec, execSpinupTimeout, hstart, hstop, Bool.not_true, Bool.or_self, Bool.false_eq_true, if_false, hs1]
  have hspn : (s1.raiseBay b .spinupFail [.u8 1]).bays[b].spn = { s.bays[b].spn with starting := false } := by
    rw [raiseBay_eq, raiseAt_spn, ← hs1, onSpn_spn]
  have hbefore : KeepsEvents 0 s s1 := by
    rw [← hs1]
    exact (Keeps.refl _ 0 s).frame (hide_onSpn (by simp))
  have hon : s1.sys.mode ≠ .off := by
    rw [← hs1]
    exact hm
  refine ⟨_, hexec, ?_, raisedSince_of_keeps hbefore hon (Keeps.startFailed (Keeps.refl _ 0 _))⟩
  rcases startFailed_spn (s := s1.raiseBay b .spinupFail [.u8 1]) (b := b) (by rw [hspn]; exact hcoast) with h | h
  · rw [h, hspn]
  · rw [h, stop_starting]

/-! ### A PWM period (R208 to R214, R220, R222) -/

/-- What a sinusoidal period sets and the observer and the comparison of angles leave. -/
def driven (p : Spindle) : Vector Rat 3 × Vector (Int × Int) 3 × Vector (Int × Int) 3 × Vector Int 3 :=
  (p.volts, p.pulses, p.lows, p.currents)

theorem observe_spn (s : State) (b : BayNo) : driven (s.observe b).bays[b].spn = driven s.bays[b].spn
    ∧ (s.observe b).bays[b].spn.disagree = s.bays[b].spn.disagree := by
  unfold State.observe
  dsimp only
  rw [onSpn_spn]
  exact ⟨rfl, rfl⟩

/-- Fewer than 8 periods of disagreement lose no angle. -/
theorem compareAngles_spn (hd : s.bays[b].spn.disagree < 7) : driven (s.compareAngles b).bays[b].spn = driven s.bays[b].spn := by
  have hfew : ∀ c : Prop, [Decidable c] → ¬ 8 ≤ (if c then s.bays[b].spn.disagree + 1 else 0) := by
    intro c _
    split <;> omega
  unfold State.compareAngles
  dsimp only
  split
  · rw [if_neg (hfew _), onSpn_spn]
    rfl
  · rfl

theorem raised_or_not_spn {c : Prop} [Decidable c] (e : BayEvent) :
    (if c then s.raiseBay b e else s).bays[b].spn = s.bays[b].spn := by
  split
  · exact raiseAt_spn ..
  · rfl

theorem sinePeriod_spn (s : State) (b : BayNo) (o : PwmObs) :
    let volts := phaseVolts (s.bays[b].spn.theta (s.bp b Param.spnPolePairs)) (s.currentLoop b).1.1 (s.currentLoop b).1.2
    let ticks := volts.map (onTick (s.bn b Param.spnVbus))
    let p := shiftPulses ticks (10 * s.bp b Param.spnShuntTmin)
    driven (s.sinePeriod b o).bays[b].spn = (volts, p.1, lowSides p.1 (s.bp b Param.spnDeadtime),
        if p.2 then phaseCurrents ticks (s.shunt b o.shunt1) (s.shunt b o.shunt2) else s.bays[b].spn.currents)
      ∧ (s.sinePeriod b o).bays[b].spn.disagree = s.bays[b].spn.disagree := by
  intro volts ticks p
  unfold State.sinePeriod
  dsimp only
  by_cases hp : p.2 = true
  · rw [if_pos hp, if_pos hp, raised_or_not_spn, onSpn_spn, if_pos hp]
    exact ⟨rfl, rfl⟩
  · rw [if_neg hp, if_neg hp, raised_or_not_spn, onSpn_spn, if_neg hp]
    exact ⟨rfl, rfl⟩

theorem levelPeriod_of_sinEncoder {p : Spindle} (h : p.level = .sinEncoder) : p.levelPeriod = p := by
  unfold Spindle.levelPeriod
  rw [h]

/-- A sinusoidal period on the encoder (R211 to R214): the parameters taken, the voltages, pulses and currents that
`sinePeriod` sets stand at its end. -/
theorem sinePeriod_completes (o : PwmObs) (hl : s.bays[b].spn.level = .sinEncoder) (hd : s.bays[b].spn.disagree < 7) :
    let u := (s.takePeriod [Param.spnCurBw] b).onSpn b Spindle.levelPeriod
    let volts := phaseVolts (u.bays[b].spn.theta (u.bp b Param.spnPolePairs)) (u.currentLoop b).1.1 (u.currentLoop b).1.2
    let ticks := volts.map (onTick (u.bn b Param.spnVbus))
    let p := shiftPulses ticks (10 * u.bp b Param.spnShuntTmin)
    Completes (.pwmPeriod b o) s (fun t => t.bays[b].spn.volts = volts ∧ t.bays[b].spn.pulses = p.1
      ∧ t.bays[b].spn.lows = lowSides p.1 (u.bp b Param.spnDeadtime)
      ∧ t.bays[b].spn.currents = (if p.2 then phaseCurrents ticks (u.shunt b o.shunt1) (u.shunt b o.shunt2)
          else s.bays[b].spn.currents)) := by
  intro u
  have hspn : u.bays[b].spn = s.bays[b].spn := (onSpn_spn ..).trans (levelPeriod_of_sinEncoder hl)
  have hexec : exec (.pwmPeriod b o) s = .next (((u.sinePeriod b o).observe b).compareAngles b) := by
    have hdriven : s.drivenPeriod b o = ((u.sinePeriod b o).observe b).compareAngles b :=
      if_neg (by rw [show ((s.takePeriod [Param.spnCurBw] b).onSpn b Spindle.levelPeriod).bays[b].spn = _ from hspn, hl]; decide)
    simp only [exec, execPwmPeriod, hl, hdriven]
  clear_value u
  obtain ⟨hsine, hn⟩ := sinePeriod_spn u b o
  obtain ⟨hobs, hn'⟩ := observe_spn (u.sinePeriod b o) b
  have hfew : ((u.sinePeriod b o).observe b).bays[b].spn.disagree < 7 := by
    rw [hn', hn, hspn]
    exact hd
  have hall := ((compareAngles_spn hfew).trans hobs).trans hsine
  rw [hspn] at hall
  simp only [driven, Prod.mk.injEq] at hall
  intro volts ticks p
  refine ⟨_, hexec, ?_⟩
  simp only [volts, ticks, p, hspn]
  exact hall

theorem droguePeriod_completes (o : PwmObs) (hl : s.bays[b].spn.level = .drogue) :
    Completes (.pwmPeriod b o) s (fun t => t.bays[b].spn
      = s.bays[b].spn.drogueStep (s.shunt b o.drogueShunt) (s.bp b Param.spnDrogueI * 1000)) := by
  refine ⟨_, by simp only [exec, execPwmPeriod, hl]; rfl, ?_⟩
  exact (raised_or_not_spn _).trans (onSpn_spn ..)

/-! ### The speed loop (R215, R218) -/

theorem atSpeed_spn (s : State) (b : BayNo) :
    (s.atSpeed b).bays[b].spn = { s.bays[b].spn with atTarget := true, starting := false, outBand := 0 } := by
  unfold State.atSpeed
  extract_lets s1 t s2
  have h1 : s1.bays[b].spn = { s.bays[b].spn with atTarget := true, starting := false, outBand := 0 } := onSpn_spn ..
  have h2 : s2.bays[b].spn = s1.bays[b].spn := by
    simp only [s2]
    split
    · exact spn_of_hide (hide_stepPassed (by simp) (by simp))
    · exact spn_of_hide (hide_onSeq (by simp))
  split
  · rw [setBaySt_spn, ← h1, ← h2]
    exact spn_of_hide (hide_onSeq (by simp))
  · exact h1

/-- What a period of the speed loop latches. -/
def latched (p : Spindle) : Int × Rat × Int × Rat := (p.iqRef, p.speedRef, p.speedMeas, p.spdInteg)

/-- Judging the speed counts it in or out of its band, and leaves what the loop latched. -/
theorem judgeSpeed_latched (s : State) (b : BayNo) : latched (s.judgeSpeed b).bays[b].spn = latched s.bays[b].spn := by
  unfold State.judgeSpeed
  extract_lets p goal inside s1 q
  have h1 : latched s1.bays[b].spn = latched s.bays[b].spn := by
    simp only [s1]
    rw [onSpn_spn]
    rfl
  rw [← h1]
  split
  · split
    · rw [atSpeed_spn]
      rfl
    · rfl
  · rw [raised_or_not_spn]

theorem speedLoop_completes (hl : s.bays[b].spn.level = .sinEncoder) (hstop : s.bays[b].spn.stopping = false) :
    let u := s.takePeriod [Param.spnSpdKp, Param.spnSpdKi] b
    let meas := s.bays[b].spn.measuredSpeed (u.bn b Param.spnPolePairs)
    let ref := rampTo s.bays[b].spn.speedRef (u.bp b Param.spnSpeed * 100) ((u.bp b Param.spnAccel : Rat) / 20)
    let law := u.speedLaw b ref meas s.bays[b].spn.spdInteg
    Completes (.speedLoopPeriod b) s (fun t => t.bays[b].spn.iqRef = clampTo (u.bp b Param.spnIMax) (roundOpen 15 law.1)
      ∧ t.bays[b].spn.speedRef = ref ∧ t.bays[b].spn.speedMeas = meas ∧ t.bays[b].spn.spdInteg = law.2) := by
  intro u meas ref law
  generalize hs1 : u.onSpn b (fun p =>
    { p with speedMeas := p.measuredSpeed (u.bn b Param.spnPolePairs), edgeAge := satInc 255 p.edgeAge }) = s1
  have h1 : s1.bays[b].spn = { s.bays[b].spn with speedMeas := meas, edgeAge := satInc 255 s.bays[b].spn.edgeAge } := by
    rw [← hs1]
    exact onSpn_spn ..
  generalize hs2 : s1.onSpn b (fun x =>
    { x with iqRef := clampTo (u.bp b Param.spnIMax) (roundOpen 15 law.1), spdInteg := law.2, speedRef := ref }) = s2
  have h2 : latched s2.bays[b].spn = (clampTo (u.bp b Param.spnIMax) (roundOpen 15 law.1), ref, meas, law.2) := by
    rw [← hs2, onSpn_spn, h1]
    rfl
  have hexec : exec (.speedLoopPeriod b) s = .next (s2.judgeSpeed b) := by
    change execSpeedLoopPeriod b s = _
    unfold execSpeedLoopPeriod
    dsimp only
    rw [show (s.takePeriod [Param.spnSpdKp, Param.spnSpdKi] b).onSpn b _ = s1 from hs1, h1]
    simp only [hl, hstop, reduceCtorEq, if_false, Bool.false_eq_true]
    rw [← hs2]
  have hall := (judgeSpeed_latched s2 b).trans h2
  simp only [latched, Prod.mk.injEq] at hall
  exact ⟨_, hexec, hall⟩

/-! ### Starts, edges and losses (R210, R216 to R221) -/

theorem startOrder_completes (ho : s.orders b = true) (hbar : s.bays[b].spn.barred = false)
    (hst : s.bays[b].seq.st = .clamped ∨ s.bays[b].seq.st = .parked)
    (hmode : [Mode.off, .fill, .boot, .vent, .ripcord].contains s.sys.mode = false)
    (hl : s.bays[b].spn.level = .off ∨ s.bays[b].spn.level = .coast) :
    Completes (.spindleStartOrder b) s (fun t => t.bays[b].seq.st = .spinup ∧ t.bays[b].spn.level = .measure
      ∧ t.bays[b].spn.starting = true ∧ t.bays[b].spn.windowCount = s.bays[b].spn.count) := by
  generalize hs0 : s.onSpn b (fun p => { p.begin with stopping := false }) = s0
  have hseq0 : s0.bays[b].seq = s.bays[b].seq := by
    rw [← hs0]
    exact onBay_seq s b _
  have hspn : (s0.setBaySt b .spinup 4).bays[b].spn = { s.bays[b].spn.begin with stopping := false } := by
    rw [setBaySt_spn, ← hs0, onSpn_spn]
  have hspinup : (s0.setBaySt b .spinup 4).bays[b].seq.st = .spinup := by
    refine setBaySt_st ?_ ?_ <;> rw [hseq0] <;> rcases hst with h | h <;> rw [h] <;> decide
  generalize hs1 : s0.setBaySt b .spinup 4 = s1 at hspn hspinup
  generalize hs2 : (if s.bays[b].mounted then s1 else (s1.onSeq b (fun q => { q with mounting := true })).sledToMount b) = s2
  have hexec : exec (.spindleStartOrder b) s = .next s2 := by
    have hplace : [BaySt.clamped, .parked, .spinup, .spindown, .faulted].contains s.bays[b].seq.st = true := by
      rcases hst with h | h <;> rw [h] <;> decide
    have hrest : ¬ (s.bays[b].spn.level ≠ .off ∧ s.bays[b].spn.level ≠ .coast) :=
      fun hboth => hl.elim hboth.1 hboth.2
    have hcatch : ¬ (s.bays[b].seq.st = .spindown ∨ s.bays[b].seq.st = .faulted) := by
      rcases hst with h | h <;> rw [h] <;> decide
    change execSpindleStartOrder b s = _
    unfold execSpindleStartOrder
    dsimp only
    rw [if_neg (by rw [ho, hbar, hplace, hmode]; decide), if_neg hrest, if_neg hcatch, ← hs2, ← hs1, ← hs0]
  have hkept : s2.bays[b].spn = s1.bays[b].spn ∧ s2.bays[b].seq.st = s1.bays[b].seq.st := by
    rw [← hs2]
    split
    · exact ⟨rfl, rfl⟩
    · constructor
      · exact sledToMount_spn.trans (spn_of_hide (hide_onSeq (by simp)))
      · refine (congrArg Seq.st (seq_of_hide (hide_sledToMount (by simp) (by simp) (by simp) (by simp)))).trans ?_
        rw [onSeq_seq]
  obtain ⟨hspn2, hst2⟩ := hkept
  refine ⟨s2, hexec, hst2.trans hspinup, ?_⟩
  rw [hspn2, hspn]
  exact ⟨rfl, rfl, rfl⟩

/-- A window at rest goes to six-step (R217). -/
theorem startDecision_completes (hm : s.sys.mode ≠ .off) (hl : s.bays[b].spn.level = .measure)
    (henc : s.bays[b].spn.encoderLost = false) (hstop : s.bays[b].spn.stopping = false)
    (hrest : edgeSpeed s.bays[b].spn.edges 4096 < 3000) :
    Completes (.startDecision b) s (fun t => t.bays[b].spn.level = .sixStep ∧ t.bays[b].spn.speedRef = 0
      ∧ raisedSince s t (.bay b .spindleStart) = true) := by
  change ∃ t, execStartDecision b s = .next t ∧ _
  unfold execStartDecision
  extract_lets p net v sound lost level dir s1 ref s2
  rw [if_neg (not_not_intro hl)]
  have hv : v < 3000 := by
    simp only [v, p, henc]
    exact hrest
  have hlevel : level = .sixStep := by
    simp only [level, p]
    rw [if_pos hv, hstop]
    rfl
  have href : ref = 0 := if_pos hv
  have hs1 : s1 = s := if_neg (by rw [hlevel]; decide)
  have hspn : s2.bays[b].spn.level = level ∧ s2.bays[b].spn.speedRef = ref := by
    simp only [s2]
    rw [onSpn_spn]
    exact ⟨rfl, rfl⟩
  have hkeeps : KeepsEvents 0 s s2 := by
    simp only [s2]
    rw [hs1]
    exact (Keeps.refl _ 0 s).frame (hide_onSpn (by simp))
  have hon : s2.sys.mode ≠ .off := by
    simp only [s2]
    rw [hs1]
    exact hm
  clear_value s2
  refine ⟨_, rfl, ?_, ?_, raisedSince_raiseAt hkeeps hon _ _ _⟩
  · rw [raiseBay_eq, raiseAt_spn, hspn.1, hlevel]
  · rw [raiseBay_eq, raiseAt_spn, hspn.2, href]

/-- An index whose commutation edges agree gives the offset (R210). -/
theorem encoderIndex_completes (henc : s.bays[b].spn.encoderLost = false)
    (hlen : 2 ≤ (s.bays[b].spn.uEdges.map (impliedOffset (s.bp b Param.spnPolePairs) s.bays[b].spn.count)).length)
    (hagree : offsetsAgree (s.bays[b].spn.uEdges.map (impliedOffset (s.bp b Param.spnPolePairs) s.bays[b].spn.count)) = true) :
    Completes (.encoderIndex b) s (fun t => t.bays[b].spn.index = some s.bays[b].spn.count
      ∧ t.bays[b].spn.elecOffset = BitVec.ofInt 16 (circularMean
          (s.bays[b].spn.uEdges.map (impliedOffset (s.bp b Param.spnPolePairs) s.bays[b].spn.count)))
      ∧ t.bays[b].spn.offsetValid = true) := by
  change ∃ t, execEncoderIndex b s = .next t ∧ _
  unfold execEncoderIndex
  extract_lets p xs s1
  have hgo : ¬ (p.encoderLost || decide (xs.length < 2)) = true := by
    simp only [p]
    rw [henc, Bool.false_or, decide_eq_true_iff]
    exact Nat.not_lt.mpr hlen
  rw [if_neg hgo, if_pos hagree]
  refine ⟨_, rfl, ?_⟩
  rw [onSpn_spn, onBay_spn]
  exact ⟨rfl, rfl, rfl⟩

/-- An encoder lost while the observer holds the angle goes to it (R221). -/
theorem encoderLoss_completes {c : EncLoss} (hm : s.sys.mode ≠ .off) (hl : s.bays[b].spn.level = .sinEncoder)
    (hloss : s.bays[b].spn.loss (s.bn b Param.spnPolePairs) c = true) (henc : s.bays[b].spn.encoderLost = false)
    (hobs : s.bays[b].spn.obsConverged = true) :
    Completes (.encoderLoss b c) s (fun t => t.bays[b].spn.level = .sinObserver ∧ t.bays[b].spn.encoderLost = true
      ∧ t.bays[b].spn.offsetValid = false ∧ raisedSince s t (.bay b .spindleSensor) = true) := by
  change ∃ t, execEncoderLoss b c s = .next t ∧ _
  unfold execEncoderLoss State.loseEncoder
  extract_lets p s1
  have hgo : ¬ (p.encoderLost = true ∨ p.level = .off ∨ p.level = .coast) := by
    simp only [p]
    rw [henc, hl]
    decide
  have hspn : s1.bays[b].spn.encoderLost = true ∧ s1.bays[b].spn.offsetValid = false := by
    simp only [s1]
    rw [raiseBay_eq, raiseAt_spn, onSpn_spn]
    exact ⟨rfl, rfl⟩
  have hraised : ∀ {t : State}, KeepsEvents 0 s1 t → raisedSince s t (.bay b .spindleSensor) = true :=
    raisedSince_of_keeps ((Keeps.refl TrackOpen 0 s).frame (hide_onSpn (by simp))) hm
  clear_value s1
  rw [if_pos hloss, if_neg hgo, if_pos (.inr hl), if_pos hobs]
  refine ⟨_, rfl, ?_, ?_, ?_, hraised ((Keeps.refl _ 0 s1).frame (hide_onSpn (by simp)))⟩
  · rw [onSpn_spn]
    rfl
  · rw [onSpn_spn]
    exact hspn.1
  · rw [onSpn_spn]
    exact hspn.2

theorem sledOverspeed_completes (hm : s.sys.mode ≠ .off) :
    Completes (.encoderOverspeed (.sled b)) s (fun t => t.bays[b].sld.overspeed = true
      ∧ raisedSince s t (.bay b .encoderOverspeed) = true) := by
  refine ⟨_, rfl, ?_, ?_⟩
  · rw [onSld_sld]
  · exact raisedSince_of_keeps (Keeps.refl TrackOpen 0 s) hm ((Keeps.refl TrackOpen 0 _).frame (hide_onSld (by simp)))

theorem axisOverspeed_completes {a : AxisNo} (hm : s.sys.mode ≠ .off) :
    Completes (.encoderOverspeed (.axis a)) s (fun t => t.hnd.axes[a].overspeed = true
      ∧ raisedSince s t (.dev .handlerEncOverspeed) = true) := by
  refine ⟨_, rfl, ?_, ?_⟩
  · rw [onAxis_axis]
  · exact raisedSince_of_keeps (Keeps.refl TrackOpen 0 s) hm ((Keeps.refl TrackOpen 0 _).frame (hide_onAxis (by simp)))

/-! ### The edges of an encoder (R209) -/

theorem spindleEdge_completes (up : Bool) (n : Nat) :
    Completes (.encoderEdge (.spindle b) (if up then .up else .down) n) s (fun t =>
      t.bays[b].spn.count = if up then s.bays[b].spn.count + 1 else s.bays[b].spn.count - 1) := by
  cases up with
  | true => exact ⟨_, rfl, congrArg Spindle.count (onSpn_spn s b _)⟩
  | false => exact ⟨_, rfl, congrArg Spindle.count (onSpn_spn s b _)⟩

theorem sledEdge_completes (up : Bool) (n : Nat) :
    Completes (.encoderEdge (.sled b) (if up then .up else .down) n) s (fun t =>
      t.bays[b].sld.encoder = if up then s.bays[b].sld.encoder + 1 else s.bays[b].sld.encoder - 1) := by
  cases up with
  | true => exact ⟨_, rfl, congrArg StepAxis.encoder (onSld_sld s b _)⟩
  | false => exact ⟨_, rfl, congrArg StepAxis.encoder (onSld_sld s b _)⟩

theorem axisEdge_completes {a : AxisNo} (up : Bool) (n : Nat) :
    Completes (.encoderEdge (.axis a) (if up then .up else .down) n) s (fun t =>
      t.hnd.axes[a].encoder = if up then s.hnd.axes[a].encoder + 1 else s.hnd.axes[a].encoder - 1) := by
  cases up with
  | true => exact ⟨_, rfl, congrArg StepAxis.encoder (onAxis_axis s a _)⟩
  | false => exact ⟨_, rfl, congrArg StepAxis.encoder (onAxis_axis s a _)⟩

theorem hallsEdge_completes {u : BitVec 3} (n : Nat) (hu : (hallSector u).isSome = true) :
    Completes (.encoderEdge (.spindle b) (.halls u) n) s (fun t => t.bays[b].spn = s.bays[b].spn.hallEdge u n) :=
  ⟨s.onSpn b (fun p => p.hallEdge u n), if_pos hu, onSpn_spn ..⟩

theorem spinDownOrder_completes (ho : s.orders b = true)
    (hst : [BaySt.empty, .loading, .clamped, .spinup, .spindown, .unloading, .parked, .faulted].contains s.bays[b].seq.st = true) :
    Completes (.spinDownOrder b) s (fun t => t.bays[b].spn = s.bays[b].spn.stop) :=
  ⟨s.onSpn b (fun p => p.stop), if_pos (by rw [ho, hst]; rfl), onSpn_spn ..⟩

end

/-- Settles O31, a clause for each command of the spindle and its encoders. -/
theorem spindleCompletes : Obligations.SpindleCompletes := by
  unfold Obligations.SpindleCompletes
  exact ⟨fun s b up n => spindleEdge_completes up n,
    fun s b up n => sledEdge_completes up n,
    fun s a up n => axisEdge_completes up n,
    fun s b u n hu => hallsEdge_completes n hu,
    fun s b o hl hd => sinePeriod_completes o hl hd,
    fun s b o hl => droguePeriod_completes o hl,
    fun s b hl hstop => speedLoop_completes hl hstop,
    fun s b ho hbar hst hmode hl => startOrder_completes ho hbar hst hmode hl,
    fun s b hm hl henc hstop hrest => startDecision_completes hm hl henc hstop hrest,
    fun s b henc hlen hagree => encoderIndex_completes henc hlen hagree,
    fun s b c hm hl hloss henc hobs => encoderLoss_completes hm hl hloss henc hobs,
    fun s b hm => sledOverspeed_completes hm,
    fun s a hm => axisOverspeed_completes hm,
    fun s b hm hl => drogueTimeout_completes hm hl,
    fun s b hm hstart hstop hcoast => spinupTimeout_completes hm hstart hstop hcoast,
    fun s b ho hst => spinDownOrder_completes ho hst⟩

end Sys2Proof.Proofs
end
